-- ==== Sys2Proof/Word.lean ====
section
/-! DEFINITION. The words the manual counts in: a register word of 32 bits (R38) and a byte. -/

namespace Sys2Proof

/-- A register word: every register access is one 32-bit word (R38). -/
abbrev Word := BitVec 32

/-- A byte of a frame, a memory or a package. -/
abbrev Byte := BitVec 8

end Sys2Proof
end

