-- ==== Sys2Proof/Syntax.lean ====
section
/-! DEFINITION. The commands of the block: one constructor of `Instr` per row of spec/opcode_table.json. -/

namespace Sys2Proof

/-- Who makes an access: host link H0 or H1, the expansion host, the supervisor core, or JTAG through
DBG_ACCESS (R36, R41, R327, R389). -/
inductive Master where
  | h0 | h1 | exp | sup | jtag
deriving DecidableEq, Repr

/-- A block instance of Table GLB-11. -/
inductive Blk where
  | glb | clk | dtm | ttc | hif
  | eth (n : Fin 8)
  | swc | bfm | nrg
  | can (n : Fin 4)
  | psq
  | pec (n : Fin 10)
  | mbx | mem | xpb | sgm | sec | flt
deriving DecidableEq, Repr

/-- Why a start fails (R417, Table FLT-2). -/
inductive StartFailCause where
  | limit | bist | supFirmware
deriving DecidableEq, Repr

/-- An endpoint's path to the mailboxes (Table MBX-3): a register master, or the engine role of an instance. -/
inductive MbxPeer where
  | bus (m : Master) | role (r : Fin 10)
deriving DecidableEq, Repr

/-- A master of the SRAM banks (R351): engine role, supervisor, host DMA, Switch A or B, the sequencers. -/
inductive BankMaster where
  | role (r : Fin 10) | sup | dma | switch (b : Bool) | seq
deriving DecidableEq, Repr

/-- What the SECDED check of an access finds (R355). -/
inductive Ecc where
  | clean | corrected | uncorrectable
deriving DecidableEq, Repr

/-- A bank access: a read of n bytes or a write. -/
inductive BankOp where
  | read (n : Fin 9) | write (bs : List Byte)
deriving DecidableEq, Repr

/-- The sources of a hard fault that have no row of their own (Tables PEC-8, PEC-21). -/
inductive HardCause where
  | imemUe | dmemUe | dualRail
deriving DecidableEq, Repr

/-- The units a buffer error names (R214): express cell, or IPB word of die 0 or 1. -/
inductive BufPlace where
  | express | die (d : Fin 2)
deriving DecidableEq, Repr

/-- A frame on a CAN bus as a receiver sees it valid: format bits, identifier, DLC as received, data bytes. -/
structure CanFrame where
  ide : Bool
  fdf : Bool
  brs : Bool
  esi : Bool
  rtr : Bool
  id : BitVec 29
  dlc : BitVec 4
  data : List Byte
deriving DecidableEq, Repr

/-- The errors a CAN channel detects (R274). -/
inductive CanErrKind where
  | bit | stuff | form | ack | crc
deriving DecidableEq, Repr

/-- What ISO 11898-1 adds to the error counters for an error: a receiver's 1, a receiver's 8, a transmitter's 8,
or nothing in its exceptions (log 20). -/
inductive CanErrRule where
  | receiver | receiverFlag | transmitter | exempt
deriving DecidableEq, Repr

/-- How an attempt that has started ends (Table CAN-4). -/
inductive CanEnd where
  | ok | arbLost | collision | bitErr | stuffErr | formErr | ackErr | otherFlag
deriving DecidableEq, Repr

/-- How a host link ends its contexts (R312). -/
inductive LinkEnd where
  | down | functionReset | hotReset
deriving DecidableEq, Repr

/-- OP of an expansion transaction (Table XPB-2). -/
inductive XpbOp where
  | read | write | posted
deriving DecidableEq, Repr

/-- What ends P2 (R393). -/
inductive WakeCause where
  | wakeN | timer | warmN | porN
deriving DecidableEq, Repr

/-- The faults that a block reports to the fault manager (Table FLT-1). -/
inductive FaultKind where
  | parity | compare | memUe | watchdog
deriving DecidableEq, Repr

/-- The commands. -/
inductive Instr where
  -- starts and clocks (02, 17)
  | porNRise (refSel pcieBif : Bool) (iobank : BitVec 6 := 0)
  | warmNAssert
  | glbResetCold (m : Master)
  | glbResetWarm (m : Master)
  | startDone (m : Master)
  | startFail (why : StartFailCause)
  | pllLost (lost : BitVec 3)
  | alignmentWindow
  | pllRelockAttempt (p : Fin 3)
  | pllBecomesSpare (p : Fin 3)
  | islandGate (i : Fin 19)
  | wakeEvent (i : Fin 19)
  | islandClockStart (i : Fin 19)
  | clkGateReqWrite (m : Master) (v : Word) (wakes : BitVec 19)
  -- the register model (03)
  -- `also`: writes of other masters at the same register in the same cycle (R41)
  | registerWrite (m : Master) (a : Word) (be : BitVec 4) (v : Word) (also : List (Master × BitVec 4 × Word) := [])
  -- `whole`: a single aligned 32-bit access with all byte enables set (R38); any other is one of a reserved location
  | reservedAccess (m : Master) (write : Bool) (bar : BitVec 2) (a : Word) (whole : Bool := true)
  | gatedIslandAccess (m : Master) (write : Bool) (a : Word)
  | quiesce (m : Master) (b : Blk)
  | quiesceComplete (b : Blk)
  | enWrite (m : Master) (b : Blk) (en quiesce : Bool)
  | indAddrWrite (m : Master) (b : Blk) (v : Word)
  | indFetchDone (b : Blk) (sup : Bool)
  | indDataRead (m : Master) (b : Blk)
  | indDataWrite (m : Master) (b : Blk) (v : Word)
  | wideLowRead (m : Master) (a : Word)
  -- Datum (04)
  | incWrite (m : Master) (d : Fin 4) (frac : Word)
  | adjRequest (m : Master) (d : Fin 4) (frac : Word)
  | adjApply (d : Fin 4)
  | forceStep (m : Master) (domains : BitVec 4)
  | load (m : Master) (domains forced : BitVec 4)
  | voteReload (d : Fin 4) (u0 u1 u2 : BitVec 112)
  | datumFence (d : Fin 4) (u0 u1 u2 : BitVec 112)
  | syntWindowEnd (d : Fin 4) (measured : Word) (lock : Bool)
  | ttuArm (m : Master) (n : Fin 24)
  | ttuDisarm (m : Master) (n : Fin 24) (arm : Bool)
  | triggerFire (n : Fin 24)
  | triggerPulseEnd (n : Fin 24)
  | captureEdge (pin : Fin 96) (falling : Bool) (ago : BitVec 16)
  | captureRead (m : Master) (n : Fin 16)
  | tsqRead (m : Master) (n : Fin 8)
  -- protocol engines (05, 06)
  | registerMove (e : Fin 10) (ce : Bool := false)
  | aluTrigger (e : Fin 10) (svc unit : Bool) (op : Fin 31) (sat : Bool) (t : Word)
  | macTrigger (e : Fin 10) (svc : Bool) (op : Fin 7) (lane : Fin 4) (sat : Bool) (rnd : BitVec 2) (t : Word)
  | divTrigger (e : Fin 10) (svc : Bool) (op : Fin 5) (sat : Bool) (rnd : BitVec 2) (t : Word)
  | lsuTrigger (e : Fin 10) (svc : Bool) (op : Fin 10) (t : Word) (ce : Bool := false)
  | crcInit (e : Fin 10) (svc : Bool) (t : Word)
  | crcFold (e : Fin 10) (svc : Bool) (op : Fin 3) (t : Word)
  | crcFin (e : Fin 10) (svc : Bool) (t : Word)
  | crcHash (e : Fin 10) (svc : Bool) (t : Word)
  | fwuCpy (e : Fin 10) (svc : Bool)
  | fwuEna (e : Fin 10) (svc : Bool) (t : Word)
  | fwuDis (e : Fin 10) (svc : Bool) (t : Word)
  | fwuTxpost (e : Fin 10) (svc : Bool) (t : Word)
  | fwuStsel (e : Fin 10) (svc : Bool) (t : Word)
  | dtpSnap (e : Fin 10) (svc : Bool) (t : Word)
  | unitResultLand (e : Fin 10)
  | jmp (e : Fin 10) (svc : Bool) (t : Word)
  | br (e : Fin 10) (svc : Bool) (t : Word)
  | call (e : Fin 10) (svc : Bool) (t : Word)
  | ret (e : Fin 10) (svc : Bool)
  | kend (e : Fin 10)
  | wait (e : Fin 10) (t : Word)
  | waitResume (e : Fin 10)
  | repeatIteration (e : Fin 10)
  | kernelCycleStart (e : Fin 10)
  | watchdogExpire (e : Fin 10)
  | moveRetry (e : Fin 10) (svc : Bool)
  | hardFault (e : Fin 10) (cause : HardCause)
  | checkpointSnapshot (e : Fin 10)
  -- `lead`: the LEAD's CYC and slot of this commit, as the SHADOW of a pair has them over TW (Table FLT-5)
  | checkpointCommit (e : Fin 10) (lead : Option (Word × List Word) := none)
  | pecImemSwap (m : Master) (e : Fin 10)
  | kmaxClr (m : Master) (e : Fin 10)
  | halt (m : Master) (e : Fin 10)
  | step (m : Master) (e : Fin 10)
  | resume (m : Master) (e : Fin 10)
  | breakpointHit (e : Fin 10)
  -- takeover and rotation (07)
  | takeoverCopyBegin (e : Fin 10)
  | takeoverKernelStart (e : Fin 10)
  | takeoverCopyDone (e : Fin 10)
  | rotationTimer
  | rotationMove
  | selfTestDone (e : Fin 10) (pass : Bool)
  | retestStart (e : Fin 10)
  -- trust, debug and power (16); `box`: the command mailbox of H0, H1 or the expansion host; `data`: what the
  -- supervisor reads at the address named, none where the read fails
  | imgLoad (box : Fin 3) (data : Option (List Byte))
  | imgUpdate (box : Fin 3)
  | admitRole (box : Fin 3)
  | unbind (box : Fin 3)
  | imgDrop (box : Fin 3)
  | seqLoad (box : Fin 3)
  | supUpdate (box : Fin 3)
  | getIdentity (box : Fin 3)
  | challenge (box : Fin 3)
  | ownerKeyLoad (box : Fin 3) (data : Option (List Byte))
  | ownerCmd (box : Fin 3) (data : Option (List Byte))
  | enroll (box : Fin 3) (data : List Byte)
  | revoke (box : Fin 3) (data : List Byte)
  | rollbackSet (box : Fin 3) (data : List Byte)
  | decommission (box : Fin 3) (data : List Byte)
  | cakSet (box : Fin 3) (data : List Byte)
  | debugToken (data : List Byte)
  | takeOwnership (box : Fin 3) (data : Option (List Byte))
  | attest (box : Fin 3)
  | decommissionUnowned (box : Fin 3)
  | pwrStandby (box : Fin 3)
  | pwrOff (box : Fin 3)
  | p2Exit (why : WakeCause)
  | ringKeysel (box : Fin 3)
  | unknownCommand (box : Fin 3)
  | tamperEvent
  | idcode
  | samplePreload (cells : List Bool)
  | extest (cells : List Bool)
  | clamp
  | highz
  | bypass
  | dbgStatus
  | dbgChallenge
  | dbgToken (data : List Byte)
  | dbgOpen (level : Fin 4)
  | dbgClose
  | dbgAccess (write go : Bool) (addr data : Word)
  | lcAdvance
  | lcKill
  | jtagTrst
  -- Ethernet ports (08)
  | linkUp (n : Fin 8) (speed : Fin 5) (verified : Bool)
  | linkDown (n : Fin 8) (lock receiving : Bool)
  | frameReceive (n : Fin 8) (codeOk : Bool) (bytes : List Byte) (ph : Fin 16) (fragments reasmOk : Bool)
      (started : BitVec 8)
  | pfcRefresh (n : Fin 8)
  | pauseTimerExpire (n : Fin 8) (p : Fin 8)
  | mdioGo (m : Master) (i : Fin 2) (v : Word)
  | mdioDone (i : Fin 2) (data : BitVec 16)
  -- switch slices and buffers (09)
  | frameTransmit (n : Fin 8) (ph : Fin 16) (preempt : Bool)
  | frameClassify (lp : Fin 22)
  | fdbAgeSweep
  | gateEntryExpire (n : Fin 8)
  | gateSwap (m : Master) (n : Fin 8) (en : Bool)
  | bufferUe (frame : Nat) (place : BufPlace) (corrected : Bool)
  | dieRetire (d : Fin 2) (interface : Bool)
  | bfmRetire (m : Master) (dies : BitVec 2)
  -- Nerund Ring (10); frames run from the destination address to the last byte before the FCS
  | ringCycleBoundary (r : Fin 2)
  | ringBmSnapshot (r : Fin 2)
  | ringPassReceive (r : Fin 2) (n : Fin 8) (bytes : List Byte) (ok : Bool) (ph : Fin 16)
  | ringLos (r : Fin 2) (n : Fin 8)
  | ringFragmentEmit (r : Fin 2)
  | stanchionCut (r : Fin 2) (leaf : Option (Fin 8))
  | stanchionSelfCheck (r : Fin 2) (edges : Nat) (parityOk : Bool)
  | envelopeSend (r : Fin 2) (ph : Fin 16)
  | envelopeReceive (r : Fin 2) (n : Fin 8) (bytes : List Byte) (ok : Bool)
  | claimTimeout (r : Fin 2)
  | claimNow (m : Master) (r : Fin 2)
  | claimSend (r : Fin 2)
  | claimReceive (r : Fin 2) (n : Fin 8) (bytes : List Byte) (ok : Bool)
  | beaconReceive (r : Fin 2) (n : Fin 8) (bytes : List Byte) (ok : Bool)
  | ringReturn (m : Master) (r : Fin 2)
  -- CAN FD channels (11)
  | canFrameStore (n : Fin 4) (f : CanFrame) (ago : Nat)
  | canError (n : Fin 4) (k : CanErrKind) (r : CanErrRule)
  | canBusoffRecover (n : Fin 4) (occurrences : BitVec 8)
  | canGwReceive (n : Fin 4)
  | canTtCycleStart (n : Fin 4) (busy : Bool := false)
  | canTtRefMiss (n : Fin 4)
  | canTimeMark (n : Fin 4) (col : Fin 32) (busy : Bool := false)
  | canTxLate (n : Fin 4) (col : Option (Fin 32))
  | canTxEnd (n : Fin 4) (o : CanEnd) (ago loop : Nat)
  | canTxevRead (m : Master) (n : Fin 4)
  -- pin sequencers (12); a channel is numbered engine × 32 + channel
  | psqNop (c : Fin 64)
  | psqPins (c : Fin 64) (set clr tog : Byte)
  | psqDir (c : Fin 64) (set clr : Byte)
  | psqShift (c : Fin 64) (out inp : Bool) (clk dout din : Fin 8) (cpol cpha msb noclk : Bool) (n : BitVec 12)
  | psqPull (c : Fin 64)
  | psqPush (c : Fin 64)
  | psqMov (c : Fin 64) (dst src : BitVec 3)
  | psqLdi (c : Fin 64) (dst : BitVec 3) (hi : Bool) (imm : BitVec 16)
  | psqAdd (c : Fin 64) (dst : BitVec 3) (srcx : Bool) (imm : BitVec 16)
  | psqJmp (c : Fin 64) (cond : BitVec 3) (pin : Fin 8) (target : BitVec 10)
  | psqAt (c : Fin 64)
  | psqWaitev (c : Fin 64)
  | psqStopInstruction (c : Fin 64)
  | psqHoldRelease (c : Fin 64)
  | psqEventLatch (c : Fin 64)
  | shiftDone (c : Fin 64) (samples : List Bool)
  | psqQueueResume (c : Fin 64)
  | psqTxqWrite (m : Master) (c : Fin 64) (v : Word)
  | psqRxqRead (m : Master) (c : Fin 64)
  | psqStart (m : Master) (c : Fin 64)
  | psqStop (m : Master) (c : Fin 64) (start : Bool)
  | psqSwap (m : Master) (engines : BitVec 2)
  | psqChannelBankMove (c : Fin 64)
  -- host interface (13)
  | ctxEnable (m : Master) (c : Fin 256)
  | ctxDisable (m : Master) (c : Fin 256) (enable : Bool)
  | ctxDrainDone (c : Fin 256) (stalls : BitVec 16)
  | txProducerWrite (link : Bool) (c : Fin 256) (v : Word)
  | rxProducerWrite (link : Bool) (c : Fin 256) (v : Word)
  | cqConsumerWrite (link : Bool) (c : Fin 256) (v : Word)
  | abortRequest (link : Bool) (c : Fin 256) (v : Word)
  | abortEvaluate (c : Fin 256)
  | descriptorFetch (rx : Bool)
  | hostReadCompletion (tag : Nat) (ok : Bool) (data : List Byte)
  | txCommit (c : Fin 256)
  | rxDeliver (link : Bool)
  | msixTimerExpire (c : Fin 256)
  | msixUnmask (link : Bool) (vector : Fin 272)
  | bar4Write (link : Bool) (off : BitVec 24) (bytes : List Byte)
  | bar4Commit (link : Bool) (off : BitVec 24) (v : Word)
  | hostLinkDown (link : Bool) (why : LinkEnd)
  | hifBuserrRead (m : Master)
  -- expansion port and signal bridge (14)
  | xpbInbound (op : XpbOp) (addr : Word) (len : Fin 16) (data : List Word)
  | bridgeRead
  | bridgeWriteNp
  | bridgeWritePosted
  | xpbTransactionStart
  | xpbTransactionEnd (status : Byte) (data : List Word) (err : Bool)
  | xpbWaitTimeout (reservedOp : Bool)
  | xpbPeerRequest (ctrlEnd : Bool)
  | xpbPoll (i : Fin 16)
  | routeFarPoll (k : Fin 1024)
  | routeSourceUpdate (k : Fin 1024)
  | routeDelivery (k : Fin 1024)
  -- mailboxes and banks (15)
  | mbxSenderWrite (p : MbxPeer) (b : Fin 64) (w : Fin 15) (v : Word)
  | mbxPost (p : MbxPeer) (b : Fin 64) (v : Word)
  | mbxReceive (p : MbxPeer) (b : Fin 64)
  | mbxAck (m : Master) (b : Fin 64)
  | mbxCfgWrite (m : Master) (b : Fin 64) (v : Word)
  | bankAccess (by_ : BankMaster) (b : Fin 112) (off : BitVec 17) (op : BankOp) (ecc : Ecc) (t : BitVec 10)
  | bankRelease (m : Master) (b : Fin 112) (inflight : Bool)
  | bankDrainDone (b : Fin 112)
  | bankAssign (m : Master) (b : Fin 112) (v : Word)
  | bankFillDone (b : Fin 112)
  | skimmerWindow (fails : Bool) (ce ue : Fin 33)
  -- containment, spares, twin mode and restart (17)
  | faultLatch (d : Fin 37) (k : FaultKind) (unit : Byte) (row : BitVec 16) (votes : Byte)
  | domainRecovered (d : Fin 37) (pass : Bool)
  | fence (m : Master) (d : BitVec 6)
  | readmit (m : Master) (d : BitVec 6)
  | supervisorRestart
  | twinCfgWrite (m : Master) (v : Word)
  | twinPairing (ok : Bool) (peer : BitVec 64) (own other pref : Bool)
  | twinPaired (ok : Bool)
  | twinFailMessage
  | twinLos (ring : Bool)
  | twinHeartbeatMiss
  | handover (m : Master)
  | twinHandoverTick
  -- later rows of the table
  | seqRecTimeout (stream : Fin 256)
  | halfDuplexNegotiated (n : Fin 8)
  | pllLocked (p : Fin 3)
  | skimmerWindowEnd
  | windowGateOpen (r : Fin 10)
  | canBusIntegrated (n : Fin 4)
  | canProtocolException (n : Fin 4)
  -- `aer`: AER as the host enables it in the function's configuration space (R39)
  | hostLinkUp (link : Bool) (gen : Fin 4) (width : Fin 5) (aer : Bool := false)
  | completionTimeout (tag : Nat)
  | xpReqLow
  | porNAssert
  | mkaTimerExpire (n : Fin 8) (hello server : Bool)
deriving DecidableEq, Repr

end Sys2Proof
end

