-- ==== Sys2Proof/Decode.lean ====
section
/-! DEFINITION. The commands of this block reach it over its buses, pins and links, not as words: no row of the opcode
table gives bits, so no word spells a command. -/

namespace Sys2Proof

/-- The command a word spells by the table's bits: none, since no row of the table has any. -/
def decodeTableWord (_nbits _w : Nat) : Option Instr := none

end Sys2Proof
end

