-- ==== Sys2Proof/Machine/Store.lean ====
section
/-! DEFINITION. Sparse data by key in ONE canonical form: keys strictly rising, and no entry equal to
what an unlisted key reads as, so that equal contents are equal lists. -/

namespace Sys2Proof.Machine

/-- A sparse map from a key to a value. -/
abbrev AMap (α : Type) := List (Nat × α)

/-- The entry listed under a key, if any. -/
def amFind {α : Type} : AMap α → Nat → Option α
  | [], _ => none
  | (k', v) :: r, k => if k' = k then some v else amFind r k

/-- What a key reads as: its entry, else what the default `d` gives it. -/
def amGet {α : Type} (d : Nat → α) (m : AMap α) (k : Nat) : α := (amFind m k).getD (d k)

/-- Remove the entry of a key. -/
def amErase {α : Type} : AMap α → Nat → AMap α
  | [], _ => []
  | (k', v) :: r, k => if k' = k then r else (k', v) :: amErase r k

/-- Put an entry at its place in the order of keys. -/
def amInsert {α : Type} : AMap α → Nat → α → AMap α
  | [], k, v => [(k, v)]
  | (k', v') :: r, k, v =>
    if k < k' then (k, v) :: (k', v') :: r
    else if k = k' then (k, v) :: r
    else (k', v') :: amInsert r k v

/-- Write a key: writing what an unlisted key reads as removes the entry. -/
def amPut {α : Type} [DecidableEq α] (d : Nat → α) (m : AMap α) (k : Nat) (v : α) : AMap α :=
  if v = d k then amErase m k else amInsert m k v

/-- The canonical form: keys strictly rising, no entry at its default. -/
abbrev amWf {α : Type} [DecidableEq α] (d : Nat → α) (m : AMap α) : Prop :=
  m.Pairwise (fun a b => a.1 < b.1) ∧ ∀ e ∈ m, e.2 ≠ d e.1

/-- A memory of words of one width. -/
abbrev Store (w : Nat) := AMap (BitVec w)

end Sys2Proof.Machine
end

