-- ==== Sys2Proof/Machine/Bits.lean ====
section
/-! DEFINITION. Bit fields, byte orders, list slices and the checksums the manual names, each once. -/

namespace Sys2Proof.Machine

/-- Bits [lo+len-1:lo] of a word, as a number. -/
def fieldOf {w : Nat} (x : BitVec w) (lo len : Nat) : Nat := (x.toNat >>> lo) % 2 ^ len

/-- Bit i of a word. -/
def bitOf {w : Nat} (x : BitVec w) (i : Nat) : Bool := x.getLsbD i

/-- A word with bit i written. -/
def setBit {w : Nat} (x : BitVec w) (i : Nat) (b : Bool) : BitVec w :=
  if b then x ||| BitVec.ofNat w (2 ^ i) else x &&& ~~~(BitVec.ofNat w (2 ^ i))

/-- A word with the field [lo+len-1:lo] written. -/
def setField {w : Nat} (x : BitVec w) (lo len v : Nat) : BitVec w :=
  (x &&& ~~~(BitVec.ofNat w ((2 ^ len - 1) <<< lo))) ||| BitVec.ofNat w ((v % 2 ^ len) <<< lo)

/-- A truth value as one bit. -/
def b2n (b : Bool) : Nat := if b then 1 else 0

/-- A number as a register word. -/
def w32 (n : Nat) : Word := BitVec.ofNat 32 n

/-- The number of ones of a word. -/
def popCount {w : Nat} (x : BitVec w) : Nat := ((List.range w).filter (fun i => x.getLsbD i)).length

/-- The word whose bit i is `f i`. -/
def bitsFrom (w : Nat) (f : Nat → Bool) : BitVec w :=
  BitVec.ofNat w ((List.range w).foldl (fun a i => a + (if f i then 2 ^ i else 0)) 0)

/-- The four bytes of a word, least significant first (R101). -/
def leBytes (x : Word) : List Byte :=
  [x.extractLsb' 0 8, x.extractLsb' 8 8, x.extractLsb' 16 8, x.extractLsb' 24 8]

/-- A number from bytes, the first the least significant. -/
def leNat : List Byte → Nat
  | [] => 0
  | b :: r => b.toNat + 256 * leNat r

/-- A number from bytes, the first the most significant (network order). -/
def beNat (bs : List Byte) : Nat := bs.foldl (fun a b => 256 * a + b.toNat) 0

/-- n bytes of a number, least significant first. -/
def toLe : Nat → Nat → List Byte
  | 0, _ => []
  | n + 1, x => BitVec.ofNat 8 (x % 256) :: toLe n (x / 256)

/-- n bytes of a number, most significant first. -/
def toBe (n x : Nat) : List Byte := (toLe n x).reverse

/-- Byte i of a list, 0 beyond its end. -/
def byteAt (bs : List Byte) (i : Nat) : Byte := bs.getD i 0

/-- n bytes from offset i, 0 beyond the end. -/
def slice (bs : List Byte) (i n : Nat) : List Byte := (List.range n).map (fun k => byteAt bs (i + k))

/-- Big-endian 16-bit field at offset i. -/
def be16At (bs : List Byte) (i : Nat) : Nat := beNat (slice bs i 2)

/-- Big-endian 32-bit field at offset i. -/
def be32At (bs : List Byte) (i : Nat) : Nat := beNat (slice bs i 4)

/-- Little-endian 32-bit field at offset i. -/
def le32At (bs : List Byte) (i : Nat) : Word := BitVec.ofNat 32 (leNat (slice bs i 4))

/-- Write bytes at an offset of a list; bytes beyond its end are dropped. -/
def overwrite : List Byte → Nat → List Byte → List Byte
  | bs, 0, [] => bs
  | [], _, _ => []
  | _ :: r, 0, v :: vs => v :: overwrite r 0 vs
  | b :: r, i + 1, vs => b :: overwrite r i vs

/-- A bit vector from bytes, the first the most significant. -/
def beVec (w : Nat) (bs : List Byte) : BitVec w := BitVec.ofNat w (beNat bs)

/-- The bits of a word in reverse order. -/
def reflect {w : Nat} (x : BitVec w) : BitVec w := bitsFrom w (fun i => x.getLsbD (w - 1 - i))

/-- One bit of a reflected (least significant first) CRC-32 step. -/
def crcBit (poly : Word) (c : Word) : Word :=
  if c.getLsbD 0 then (c >>> 1) ^^^ poly else c >>> 1

/-- n bits of a reflected CRC-32 step. -/
def crcBits (poly : Word) : Nat → Word → Word
  | 0, c => c
  | n + 1, c => crcBits poly n (crcBit poly c)

/-- Fold one byte into a reflected CRC state. -/
def crcByte (poly : Word) (c : Word) (b : Byte) : Word := crcBits poly 8 (c ^^^ b.zeroExtend 32)

/-- Fold bytes into a reflected CRC state. -/
def crcFold (poly : Word) (c : Word) (bs : List Byte) : Word := bs.foldl (crcByte poly) c

/-- IEEE 802.3 CRC-32: reflected polynomial 0xEDB88320, initial and final all ones. -/
def crc32 (bs : List Byte) : Word := ~~~(crcFold 0xEDB88320#32 0xFFFFFFFF#32 bs)

/-- CRC-32C: reflected polynomial 0x82F63B78, initial and final all ones. -/
def crc32c (bs : List Byte) : Word := ~~~(crcFold 0x82F63B78#32 0xFFFFFFFF#32 bs)

/-- Signed value of a word. -/
def sgn {w : Nat} (x : BitVec w) : Int := x.toInt

/-- Clamp an integer. -/
def clampInt (lo hi x : Int) : Int := if x < lo then lo else if hi < x then hi else x

/-- Replace the element at an index of a list. -/
def listSet {α : Type} : List α → Nat → α → List α
  | [], _, _ => []
  | _ :: r, 0, v => v :: r
  | x :: r, i + 1, v => x :: listSet r i v

/-- The first index at or after 0 whose element satisfies a test. -/
def findIdx? {α : Type} (p : α → Bool) : List α → Option Nat
  | [] => none
  | x :: r => if p x then some 0 else (findIdx? p r).map (· + 1)

end Sys2Proof.Machine
end

