-- ==== Sys2Proof/Machine/Dtime.lean ====
section
/-! DEFINITION. Datum time (04, Table DTM-1): 112 bits, SEC[47:0] NS[31:0] FRAC[31:0], and its arithmetic (R56). -/

namespace Sys2Proof.Machine

/-- A Datum time as the 112 bits the voter compares (R56, R61). -/
abbrev DTime := BitVec 112

/-- SEC, bits [111:64]. -/
def dtSec (t : DTime) : Nat := fieldOf t 64 48

/-- NS, bits [63:32]. -/
def dtNs (t : DTime) : Nat := fieldOf t 32 32

/-- FRAC, bits [31:0]. -/
def dtFrac (t : DTime) : Nat := fieldOf t 0 32

/-- A time from its three fields. -/
def dtMk (sec ns frac : Nat) : DTime :=
  BitVec.ofNat 112 (2 ^ 64 * (sec % 2 ^ 48) + 2 ^ 32 * (ns % 2 ^ 32) + frac % 2 ^ 32)

/-- A time as a count of 2^-32 ns. -/
def dtVal (t : DTime) : Nat := 4294967296 * (1000000000 * dtSec t + dtNs t) + dtFrac t

/-- The first value SEC cannot hold. -/
def dtWrap : Nat := 2 ^ 48 * 1000000000 * 4294967296

/-- A normalized time from a count of 2^-32 ns: a negative result sets the time to 0 and SEC wraps (R56). -/
def dtNorm (x : Int) : DTime :=
  if x < 0 then 0 else
    let n := x.toNat % dtWrap
    dtMk (n / (1000000000 * 4294967296)) (n / 4294967296 % 1000000000) (n % 4294967296)

/-- A time moved by a signed count of 2^-32 ns (R56). -/
def dtAdd (t : DTime) (x : Int) : DTime := dtNorm ((dtVal t : Int) + x)

/-- The time in whole ns, FRAC ignored (R77). -/
def dtNsTotal (t : DTime) : Nat := 1000000000 * dtSec t + dtNs t

/-- The bitwise majority of three copies (R60). -/
def dtMajority (a b c : DTime) : DTime := (a &&& b) ||| (a &&& c) ||| (b &&& c)

/-- The clamp range of the effective increment, in 2^-32 ns (R57). -/
def incMin : Int := 0x1FFBE76C9
def incMax : Int := 0x200418937

/-- The effective increment: the programmed one plus FOFS, clamped on the sum (R57). -/
def incEff (inc : BitVec 64) (fofs : Int) : Int := clampInt incMin incMax ((inc.toNat : Int) + fofs)

/-- Whether R57's clamp acts on the sum. -/
def incClamped (inc : BitVec 64) (fofs : Int) : Bool := decide (incEff inc fofs ≠ (inc.toNat : Int) + fofs)

end Sys2Proof.Machine
end

