-- ==== Sys2Proof/Config.lean ====
section
/-! DEFINITION. What an implementation fixes and the manual leaves open: opaque constants, so that nothing
can evaluate them and every claim holds whatever they are. -/

namespace Sys2Proof.Config

/-- A fresh open value, applied to the counter `free` of State (log 6). -/
opaque freeWord : Nat → Word

/-- The device information words of GLB space 0, whose size and contents the manual does not give (log 10). -/
opaque deviceInfo : Nat → Word

/-- FOFS after a window: the 3 Hz first-order loop filter of R65 on the FOFS in force and the measured
increment difference; the manual gives the bandwidth, not the coefficients (log 11). -/
opaque loopFilter : Word → Word → Word

/-- The random number of an ECDSA signature before its reduction: private key, digest (log 5). -/
opaque ecdsaNonce : BitVec 384 → BitVec 384 → Nat

/-- Bits [17:16] of a read of doorbell word 0xC, which the manual gives to STATUS and to RING: the low bits of the
one, the other (Table HIF-1, log 22). -/
opaque abortOverlap : BitVec 2 → BitVec 2 → BitVec 2

/-- The vendor public key in ROM (Table PEC-25 step 5; log 26). -/
opaque vendorKey : BitVec 384 × BitVec 384

/-- A byte of the supervisor's ROM (Table SEC-11; log 26). -/
opaque romByte : Nat → Byte

/-- The 64 bytes by which an attestation report lists the ROM supervisor (R379; log 26). -/
opaque romEntry : Nat → Byte

/-- The body of an MKPDU behind the EtherType: port, counter of open values (R381: IEEE 802.1X, log 26). -/
opaque mkpdu : Nat → Nat → List Byte

/-- The level the receiver of a ball reads that nothing drives or pulls (R278): MFP, tick (log 19). -/
opaque floatLevel : Nat → Nat → Bool

/-- The level at a ball that the expansion port drives within a transaction, whose clocks are not followed (R322, R324):
MFP, tick (log 19). -/
opaque xpbLevel : Nat → Nat → Bool

/-- A word of the private blocks of the supervisor's map whose registers the manual does not give: address, counter
of open values (Table SEC-11; log 26). -/
opaque privWord : Word → Nat → Word

end Sys2Proof.Config
end

