-- ==== Sys2Proof/Machine/Crypto.lean ====
section
/-! DEFINITION. The cryptography that Table GLB-4 names (R12) and the manual does not restate: SHA-384 (FIPS 180-4),
AES-256 (FIPS 197) with GCM and GMAC (NIST SP 800-38D), ECDSA and ECDH over P-384 (FIPS 186-5). PRESUMED from those
standards (log 5). -/

namespace Sys2Proof.Machine

/-! SHA-384. -/

/-- Constants K0 to K19: the first 64 bits of the fractional parts of cube roots of primes. -/
def shaK0 : List (BitVec 64) :=
  [0x428a2f98d728ae22, 0x7137449123ef65cd, 0xb5c0fbcfec4d3b2f, 0xe9b5dba58189dbbc] ++
  [0x3956c25bf348b538, 0x59f111f1b605d019, 0x923f82a4af194f9b, 0xab1c5ed5da6d8118] ++
  [0xd807aa98a3030242, 0x12835b0145706fbe, 0x243185be4ee4b28c, 0x550c7dc3d5ffb4e2] ++
  [0x72be5d74f27b896f, 0x80deb1fe3b1696b1, 0x9bdc06a725c71235, 0xc19bf174cf692694] ++
  [0xe49b69c19ef14ad2, 0xefbe4786384f25e3, 0x0fc19dc68b8cd5b5, 0x240ca1cc77ac9c65]

/-- Constants K20 to K39: the first 64 bits of the fractional parts of cube roots of primes. -/
def shaK1 : List (BitVec 64) :=
  [0x2de92c6f592b0275, 0x4a7484aa6ea6e483, 0x5cb0a9dcbd41fbd4, 0x76f988da831153b5] ++
  [0x983e5152ee66dfab, 0xa831c66d2db43210, 0xb00327c898fb213f, 0xbf597fc7beef0ee4] ++
  [0xc6e00bf33da88fc2, 0xd5a79147930aa725, 0x06ca6351e003826f, 0x142929670a0e6e70] ++
  [0x27b70a8546d22ffc, 0x2e1b21385c26c926, 0x4d2c6dfc5ac42aed, 0x53380d139d95b3df] ++
  [0x650a73548baf63de, 0x766a0abb3c77b2a8, 0x81c2c92e47edaee6, 0x92722c851482353b]

/-- Constants K40 to K59: the first 64 bits of the fractional parts of cube roots of primes. -/
def shaK2 : List (BitVec 64) :=
  [0xa2bfe8a14cf10364, 0xa81a664bbc423001, 0xc24b8b70d0f89791, 0xc76c51a30654be30] ++
  [0xd192e819d6ef5218, 0xd69906245565a910, 0xf40e35855771202a, 0x106aa07032bbd1b8] ++
  [0x19a4c116b8d2d0c8, 0x1e376c085141ab53, 0x2748774cdf8eeb99, 0x34b0bcb5e19b48a8] ++
  [0x391c0cb3c5c95a63, 0x4ed8aa4ae3418acb, 0x5b9cca4f7763e373, 0x682e6ff3d6b2b8a3] ++
  [0x748f82ee5defb2fc, 0x78a5636f43172f60, 0x84c87814a1f0ab72, 0x8cc702081a6439ec]

/-- Constants K60 to K79: the first 64 bits of the fractional parts of cube roots of primes. -/
def shaK3 : List (BitVec 64) :=
  [0x90befffa23631e28, 0xa4506cebde82bde9, 0xbef9a3f7b2c67915, 0xc67178f2e372532b] ++
  [0xca273eceea26619c, 0xd186b8c721c0c207, 0xeada7dd6cde0eb1e, 0xf57d4f7fee6ed178] ++
  [0x06f067aa72176fba, 0x0a637dc5a2c898a6, 0x113f9804bef90dae, 0x1b710b35131c471b] ++
  [0x28db77f523047d84, 0x32caab7b40c72493, 0x3c9ebe0a15c9bebc, 0x431d67c49c100d4c] ++
  [0x4cc5d4becb3e42b6, 0x597f299cfc657e2a, 0x5fcb6fab3ad6faec, 0x6c44198c4a475817]

/-- The 80 round constants. -/
def shaK : List (BitVec 64) := shaK0 ++ shaK1 ++ shaK2 ++ shaK3

/-- The eight working words. -/
structure ShaWords where
  a : BitVec 64
  b : BitVec 64
  c : BitVec 64
  d : BitVec 64
  e : BitVec 64
  f : BitVec 64
  g : BitVec 64
  h : BitVec 64
deriving DecidableEq, Repr

/-- The initial value of SHA-384. -/
def shaInit : ShaWords :=
  ⟨0xcbbb9d5dc1059ed8, 0x629a292a367cd507, 0x9159015a3070dd17, 0x152fecd8f70e5939,
   0x67332667ffc00b31, 0x8eb44a8768581511, 0xdb0c2e0d64f98fa7, 0x47b5481dbefa4fa4⟩

/-- The exclusive or of three rotations. -/
def rot3 (i j k : Nat) (x : BitVec 64) : BitVec 64 := x.rotateRight i ^^^ x.rotateRight j ^^^ x.rotateRight k

/-- One round: its constant and its word of the schedule. -/
def shaRound (v : ShaWords) (k w : BitVec 64) : ShaWords :=
  let t1 := v.h + rot3 14 18 41 v.e + ((v.e &&& v.f) ^^^ (~~~v.e &&& v.g)) + k + w
  let t2 := rot3 28 34 39 v.a + ((v.a &&& v.b) ^^^ (v.a &&& v.c) ^^^ (v.b &&& v.c))
  ⟨t1 + t2, v.a, v.b, v.c, v.d + t1, v.e, v.f, v.g⟩

/-- The schedule's next word from its last sixteen, oldest first. -/
def shaNext (ws : List (BitVec 64)) : BitVec 64 :=
  let w := fun i => ws.getD i 0
  let s1 := (w 14).rotateRight 19 ^^^ (w 14).rotateRight 61 ^^^ (w 14 >>> 6)
  let s0 := (w 1).rotateRight 1 ^^^ (w 1).rotateRight 8 ^^^ (w 1 >>> 7)
  s1 + w 9 + s0 + w 0

/-- The rounds of one block, over the constants that remain and the schedule's window. -/
def shaRounds : List (BitVec 64) → List (BitVec 64) → ShaWords → ShaWords
  | [], _, v => v
  | k :: ks, ws, v => shaRounds ks (ws.drop 1 ++ [shaNext ws]) (shaRound v k (ws.getD 0 0))

/-- The compression of one 128-byte block. -/
def shaBlock (h : ShaWords) (b : List Byte) : ShaWords :=
  let v := shaRounds shaK ((List.range 16).map (fun i => beVec 64 (slice b (8 * i) 8))) h
  ⟨h.a + v.a, h.b + v.b, h.c + v.c, h.d + v.d, h.e + v.e, h.f + v.f, h.g + v.g, h.h + v.h⟩

/-- The message padded to whole blocks: a one bit, zeros, its length in bits. -/
def shaPad (bs : List Byte) : List Byte :=
  bs ++ 0x80#8 :: (List.replicate ((239 - bs.length % 128) % 128) 0 ++ toBe 16 (8 * bs.length))

/-- SHA-384. -/
def sha384 (bs : List Byte) : BitVec 384 :=
  let p := shaPad bs
  let h := (List.range (p.length / 128)).foldl (fun h i => shaBlock h (slice p (128 * i) 128)) shaInit
  h.a ++ h.b ++ h.c ++ h.d ++ h.e ++ h.f

/-! AES-256. -/

/-- Multiplication by x in the field of 256 elements. -/
def xtime (b : Byte) : Byte := (b <<< 1) ^^^ (if b.getLsbD 7 then 0x1B else 0)

/-- n bits of a product in the field of 256 elements. -/
def gfMulGo : Nat → Byte → Byte → Byte
  | 0, _, _ => 0
  | n + 1, a, b => (if b.getLsbD 0 then a else 0) ^^^ gfMulGo n (xtime a) (b >>> 1)

/-- A product in the field of 256 elements. -/
def gfMul (a b : Byte) : Byte := gfMulGo 8 a b

/-- The inverse in the field of 256 elements, of 0 zero: the power 254. -/
def gfInv (a : Byte) : Byte :=
  let sq := fun x => gfMul x x
  let a2 := sq a
  let a4 := sq a2
  let a8 := sq a4
  let a16 := sq a8
  let a32 := sq a16
  let a64 := sq a32
  gfMul (sq a64) (gfMul a64 (gfMul a32 (gfMul a16 (gfMul a8 (gfMul a4 a2)))))

/-- The S-box. -/
def aesSub (a : Byte) : Byte :=
  let b := gfInv a
  b ^^^ b.rotateLeft 1 ^^^ b.rotateLeft 2 ^^^ b.rotateLeft 3 ^^^ b.rotateLeft 4 ^^^ 0x63

/-- The exclusive or of two byte strings. -/
def xorBytes (a b : List Byte) : List Byte := List.zipWith (· ^^^ ·) a b

/-- Key expansion: `ws` holds the words so far, latest first; the next word has number i. -/
def aesExpand : Nat → Nat → List (List Byte) → List (List Byte)
  | 0, _, ws => ws.reverse
  | n + 1, i, ws =>
    let t := ws.getD 0 []
    let u : List Byte :=
      if i % 8 = 0 then
        xorBytes ((t.drop 1 ++ t.take 1).map aesSub) [(1#8) <<< (i / 8 - 1), 0, 0, 0]
      else if i % 8 = 4 then t.map aesSub
      else t
    aesExpand n (i + 1) (xorBytes (ws.getD 7 []) u :: ws)

/-- The 15 round keys of a key. -/
def aesKeys (key : BitVec 256) : List (List Byte) :=
  let k := toBe 32 key.toNat
  let ws := aesExpand 52 8 ((List.range 8).map (fun i => slice k (4 * i) 4)).reverse
  (List.range 15).map (fun r => ((ws.drop (4 * r)).take 4).flatten)

/-- SubBytes and ShiftRows on a state in column order. -/
def aesSubShift (st : List Byte) : List Byte :=
  (List.range 16).map (fun i => aesSub (byteAt st (i % 4 + 4 * ((i / 4 + i % 4) % 4))))

/-- MixColumns. -/
def aesMix (st : List Byte) : List Byte :=
  (List.range 16).map (fun i =>
    let b := fun k => byteAt st (4 * (i / 4) + (i + k) % 4)
    xtime (b 0) ^^^ (xtime (b 1) ^^^ b 1) ^^^ b 2 ^^^ b 3)

/-- The rounds after the first round key. -/
def aesRounds : List (List Byte) → List Byte → List Byte
  | [], st => st
  | [k], st => xorBytes (aesSubShift st) k
  | k :: ks, st => aesRounds ks (xorBytes (aesMix (aesSubShift st)) k)

/-- AES-256 of one 16-byte block under expanded keys. -/
def aesBlock (ks : List (List Byte)) (b : List Byte) : List Byte := aesRounds (ks.drop 1) (xorBytes b (ks.getD 0 []))

/-! GCM and GMAC. -/

/-- n steps of a product in GHASH's field. -/
def ghashMulGo : Nat → BitVec 128 → BitVec 128 → BitVec 128
  | 0, _, _ => 0
  | n + 1, x, v =>
    (if x.getLsbD n then v else 0) ^^^
      ghashMulGo n x ((v >>> 1) ^^^ (if v.getLsbD 0 then 0xE1000000000000000000000000000000 else 0))

/-- A product in GHASH's field. -/
def ghashMul (x y : BitVec 128) : BitVec 128 := ghashMulGo 128 x y

/-- The 16-byte blocks of a string, the last padded with zeros. -/
def blocks16 (bs : List Byte) : List (List Byte) := (List.range ((bs.length + 15) / 16)).map (fun i => slice bs (16 * i) 16)

/-- GHASH over additional data and cipher text. -/
def ghash (h : BitVec 128) (aad ct : List Byte) : BitVec 128 :=
  (blocks16 aad ++ blocks16 ct ++ [toBe 8 (8 * aad.length) ++ toBe 8 (8 * ct.length)]).foldl
    (fun y b => ghashMul (y ^^^ beVec 128 b) h) 0

/-- Counter block n of a 96-bit IV. -/
def gcmCounter (iv : BitVec 96) (n : Nat) : List Byte := toBe 12 iv.toNat ++ toBe 4 n

/-- AES-256-GCM encryption (R189, R380): key, 96-bit IV, plain text; cipher text. Decryption is the same function. -/
def gcmCrypt (key : BitVec 256) (iv : BitVec 96) (bs : List Byte) : List Byte :=
  let ks := aesKeys key
  ((List.range ((bs.length + 15) / 16)).flatMap (fun i =>
    xorBytes ((bs.drop (16 * i)).take 16) (aesBlock ks (gcmCounter iv (i + 2)))))

/-- The 16-byte tag of AES-256-GCM, or of AES-GMAC where the text is empty: key, IV, additional data, cipher text. -/
def gcmTag (key : BitVec 256) (iv : BitVec 96) (aad ct : List Byte) : BitVec 128 :=
  let ks := aesKeys key
  let h := beVec 128 (aesBlock ks (List.replicate 16 0))
  ghash h aad ct ^^^ beVec 128 (aesBlock ks (gcmCounter iv 1))

/-! P-384. -/

/-- The prime of the field. -/
def p384Prime : Nat := 2 ^ 384 - 2 ^ 128 - 2 ^ 96 + 2 ^ 32 - 1

/-- The order of the curve (R368 names it). -/
def p384Order : Nat :=
  0xFFFFFFFFFFFFFFFFFFFFFFFFFFFFFFFFFFFFFFFFFFFFFFFFC7634D81F4372DDF581A0DB248B0A77AECEC196ACCC52973

/-- The coefficient b. -/
def p384B : Nat :=
  0xB3312FA7E23EE7E4988E056BE3F82D19181D9C6EFE8141120314088F5013875AC656398D8A2ED19D2A85C8EDD3EC2AEF

/-- A point: none is the point at infinity. -/
abbrev EcPoint := Option (Nat × Nat)

/-- The base point. -/
def p384Base : EcPoint :=
  some (0xAA87CA22BE8B05378EB1C71EF320AD746E1D3B628BA79B9859F741E082542A385502F25DBF55296C3A545E3872760AB7,
    0x3617DE4A96262C6F5D9E98BF9292DC29F8F41DBD289A147CE9DA3113B5F0B8C00A60B1CE1D7E819D7A431D7C90EA0E5F)

/-- Euclid's algorithm with the coefficient of the first number. -/
def euclid : Nat → Nat → Nat → Int → Int → Int
  | 0, _, _, u, _ => u
  | n + 1, a, b, u, v => if b = 0 then u else euclid n b (a % b) v (u - (a / b : Nat) * v)

/-- The inverse of a number modulo a prime of at most 384 bits. -/
def modInv (m a : Nat) : Nat := (euclid 600 (a % m) m 1 0 % (m : Int)).toNat

/-- A difference modulo the field's prime. -/
def fpSub (a b : Nat) : Nat := (a + (p384Prime - b % p384Prime)) % p384Prime

/-- The point on the line of slope l through two points, mirrored. -/
def ecChord (l x1 y1 x2 : Nat) : EcPoint :=
  let x3 := fpSub (l * l) (x1 + x2)
  some (x3, fpSub (l * fpSub x1 x3) y1)

/-- The sum of two points. -/
def ecAdd : EcPoint → EcPoint → EcPoint
  | none, q => q
  | p, none => p
  | some (x1, y1), some (x2, y2) =>
    if x1 = x2 then
      if (y1 + y2) % p384Prime = 0 then none
      else ecChord (fpSub (3 * x1 * x1) 3 * modInv p384Prime (2 * y1) % p384Prime) x1 y1 x2
    else ecChord (fpSub y2 y1 * modInv p384Prime (fpSub x2 x1) % p384Prime) x1 y1 x2

/-- n bits of a multiple of a point, from the most significant. -/
def ecMulGo : Nat → Nat → EcPoint → EcPoint → EcPoint
  | 0, _, _, acc => acc
  | n + 1, k, p, acc =>
    let d := ecAdd acc acc
    ecMulGo n k p (if k.testBit n then ecAdd d p else d)

/-- A multiple of a point. -/
def ecMul (k : Nat) (p : EcPoint) : EcPoint := ecMulGo 384 k p none

/-- A point as two 384-bit words; infinity, which no valid key gives, as zeros. -/
def ecWords : EcPoint → BitVec 384 × BitVec 384
  | none => (0, 0)
  | some (x, y) => (BitVec.ofNat 384 x, BitVec.ofNat 384 y)

/-- Whether a point lies on the curve P-384 (R380). -/
def onCurve (q : BitVec 384 × BitVec 384) : Bool :=
  let x := q.1.toNat
  let y := q.2.toNat
  decide (x < p384Prime) && decide (y < p384Prime) &&
    decide (y * y % p384Prime = fpSub (x * x * x + p384B) (3 * x))

/-- The P-384 public key of a private key. -/
def p384Public (d : BitVec 384) : BitVec 384 × BitVec 384 := ecWords (ecMul d.toNat p384Base)

/-- The shared secret of ECDH P-384: private key, public key. -/
def ecdh (d : BitVec 384) (q : BitVec 384 × BitVec 384) : BitVec 384 :=
  (ecWords (ecMul d.toNat (some (q.1.toNat, q.2.toNat)))).1

/-- ECDSA P-384 verification of a signature (r, s) over a digest: public key, digest. A key off the curve, and a part of
the signature outside 1 to the order less 1, verifies nothing. -/
def ecdsaVerify (q : BitVec 384 × BitVec 384) (e : BitVec 384) (sg : BitVec 384 × BitVec 384) : Bool :=
  let r := sg.1.toNat
  let s := sg.2.toNat
  let w := modInv p384Order s
  onCurve q && decide (0 < r ∧ r < p384Order) && decide (0 < s ∧ s < p384Order) &&
    match ecAdd (ecMul (e.toNat * w % p384Order) p384Base) (ecMul (r * w % p384Order) (some (q.1.toNat, q.2.toNat))) with
    | none => false
    | some (x, _) => decide (x % p384Order = r)

/-- ECDSA P-384 signature by a private key over a digest. The per-message number is random (FIPS 186-5): a free value in
its range. -/
def ecdsaSign (d e : BitVec 384) : BitVec 384 × BitVec 384 :=
  let k := 1 + Config.ecdsaNonce d e % (p384Order - 1)
  let r := (ecWords (ecMul k p384Base)).1.toNat % p384Order
  (BitVec.ofNat 384 r, BitVec.ofNat 384 (modInv p384Order k * (e.toNat + r * d.toNat) % p384Order))

end Sys2Proof.Machine
end

