-- ==== Sys2Proof/Machine/RegNames.lean ====
section
/-! DEFINITION. The BAR0 offset of every register of the chapters' register tables, by its name: `n` is the
instance of a multi-instance block (Table GLB-11), `i` the index of a register array. -/

namespace Sys2Proof.Machine

/-- GLB_ID -/
abbrev glbId : Nat := 0x20

/-- GLB_EUI64_LO -/
abbrev glbEui64Lo : Nat := 0x24

/-- GLB_EUI64_HI -/
abbrev glbEui64Hi : Nat := 0x28

/-- GLB_LIFECYCLE -/
abbrev glbLifecycle : Nat := 0x2C

/-- GLB_LAST_START -/
abbrev glbLastStart : Nat := 0x30

/-- GLB_RESET_CMD -/
abbrev glbResetCmd : Nat := 0x34

/-- GLB_FAILED_START -/
abbrev glbFailedStart : Nat := 0x38

/-- GLB_COLD_START_CNT -/
abbrev glbColdStartCnt : Nat := 0x3C

/-- GLB_AVAIL_STATUS -/
abbrev glbAvailStatus : Nat := 0x40

/-- GLB_SPARE_CNT -/
abbrev glbSpareCnt : Nat := 0x44

/-- GLB_WARM_START_CNT -/
abbrev glbWarmStartCnt : Nat := 0x48

/-- GLB_INT_SUMMARY -/
abbrev glbIntSummary : Nat := 0x50

/-- GLB_INT_EN -/
abbrev glbIntEn : Nat := 0x54

/-- GLB_INT_CNT -/
abbrev glbIntCnt : Nat := 0x58

/-- GLB_SUP_BUSERR_CNT -/
abbrev glbSupBuserrCnt : Nat := 0x5C

/-- GLB_SCRATCH -/
abbrev glbScratch : Nat := 0x60

/-- CLK_REF_STATUS -/
abbrev clkRefStatus : Nat := 0x10020

/-- CLK_PLL_CFG -/
abbrev clkPllCfg : Nat := 0x10024

/-- CLK_PLL_STATUS -/
abbrev clkPllStatus : Nat := 0x10028

/-- CLK_DEGRADED -/
abbrev clkDegraded : Nat := 0x1002C

/-- CLK_GATE_REQ -/
abbrev clkGateReq : Nat := 0x10030

/-- CLK_ISL_ON -/
abbrev clkIslOn : Nat := 0x10034

/-- CLK_PORT_GATE -/
abbrev clkPortGate : Nat := 0x10038

/-- CLK_PLL_LOSS_CNT -/
abbrev clkPllLossCnt : Nat := 0x10040

/-- CLK_REALIGN_CNT -/
abbrev clkRealignCnt : Nat := 0x10044

/-- CLK_DTM_RELOAD_CNT -/
abbrev clkDtmReloadCnt : Nat := 0x10048

/-- CLK_WAKE_CNT -/
abbrev clkWakeCnt : Nat := 0x1004C

/-- CLK_INT_EN -/
abbrev clkIntEn : Nat := 0x10050

/-- CLK_PWR_STATE -/
abbrev clkPwrState : Nat := 0x10100

/-- CLK_PWR_CMD -/
abbrev clkPwrCmd : Nat := 0x10104

/-- CLK_WAKE_CFG -/
abbrev clkWakeCfg : Nat := 0x10108

/-- CLK_WAKE_NS -/
abbrev clkWakeNs : Nat := 0x1010C

/-- CLK_WAKE_SEC_LO -/
abbrev clkWakeSecLo : Nat := 0x10110

/-- CLK_WAKE_SEC_HI -/
abbrev clkWakeSecHi : Nat := 0x10114

/-- CLK_WAKE_CAUSE -/
abbrev clkWakeCause : Nat := 0x10118

/-- CLK_P2_CNT -/
abbrev clkP2Cnt : Nat := 0x1011C

/-- DTM_CMD -/
abbrev dtmCmd : Nat := 0x20020

/-- DTM_JUMP_LIMIT -/
abbrev dtmJumpLimit : Nat := 0x20024

/-- DTM_PORT_DOM -/
abbrev dtmPortDom : Nat := 0x20028

/-- DTM_INT_EN -/
abbrev dtmIntEn : Nat := 0x2002C

/-- DTM_INC_CLAMP_CNT -/
abbrev dtmIncClampCnt : Nat := 0x20030

/-- DTM_Pn_TX_TRIM -/
abbrev dtmPTxTrim (i : Nat) : Nat := 0x20040 + i * 0x8

/-- DTM_Pn_RX_TRIM -/
abbrev dtmPRxTrim (i : Nat) : Nat := 0x20044 + i * 0x8

/-- DTM_Dd_TIME_FRAC -/
abbrev dtmDTimeFrac (i : Nat) : Nat := 0x20100 + i * 0x40

/-- DTM_Dd_TIME_NS -/
abbrev dtmDTimeNs (i : Nat) : Nat := 0x20104 + i * 0x40

/-- DTM_Dd_TIME_SEC_LO -/
abbrev dtmDTimeSecLo (i : Nat) : Nat := 0x20108 + i * 0x40

/-- DTM_Dd_TIME_SEC_HI -/
abbrev dtmDTimeSecHi (i : Nat) : Nat := 0x2010C + i * 0x40

/-- DTM_Dd_INC_FRAC -/
abbrev dtmDIncFrac (i : Nat) : Nat := 0x20110 + i * 0x40

/-- DTM_Dd_INC_NS -/
abbrev dtmDIncNs (i : Nat) : Nat := 0x20114 + i * 0x40

/-- DTM_Dd_ADJ_FRAC -/
abbrev dtmDAdjFrac (i : Nat) : Nat := 0x20118 + i * 0x40

/-- DTM_Dd_ADJ_NS -/
abbrev dtmDAdjNs (i : Nat) : Nat := 0x2011C + i * 0x40

/-- DTM_Dd_LOAD_NS -/
abbrev dtmDLoadNs (i : Nat) : Nat := 0x20120 + i * 0x40

/-- DTM_Dd_LOAD_SEC_LO -/
abbrev dtmDLoadSecLo (i : Nat) : Nat := 0x20124 + i * 0x40

/-- DTM_Dd_LOAD_SEC_HI -/
abbrev dtmDLoadSecHi (i : Nat) : Nat := 0x20128 + i * 0x40

/-- DTM_Dd_SYNT -/
abbrev dtmDSynt (i : Nat) : Nat := 0x2012C + i * 0x40

/-- DTM_Dd_SYNT_FOFS -/
abbrev dtmDSyntFofs (i : Nat) : Nat := 0x20130 + i * 0x40

/-- DTM_Dd_VOTE_CNT -/
abbrev dtmDVoteCnt (i : Nat) : Nat := 0x20134 + i * 0x40

/-- DTM_Dd_ADJ_CNT -/
abbrev dtmDAdjCnt (i : Nat) : Nat := 0x20138 + i * 0x40

/-- DTM_Dd_STEP_CNT -/
abbrev dtmDStepCnt (i : Nat) : Nat := 0x2013C + i * 0x40

/-- TTC_INT_EN -/
abbrev ttcIntEn : Nat := 0x30020

/-- TTC_ARMED -/
abbrev ttcArmed : Nat := 0x30024

/-- TTC_EVT_DROP_CNT -/
abbrev ttcEvtDropCnt : Nat := 0x30028

/-- TTUn_CFG -/
abbrev ttuCfg (i : Nat) : Nat := 0x30100 + i * 0x20

/-- TTUn_TIME_NS -/
abbrev ttuTimeNs (i : Nat) : Nat := 0x30104 + i * 0x20

/-- TTUn_TIME_SEC_LO -/
abbrev ttuTimeSecLo (i : Nat) : Nat := 0x30108 + i * 0x20

/-- TTUn_TIME_SEC_HI -/
abbrev ttuTimeSecHi (i : Nat) : Nat := 0x3010C + i * 0x20

/-- TTUn_PERIOD -/
abbrev ttuPeriod (i : Nat) : Nat := 0x30110 + i * 0x20

/-- TTUn_WIDTH -/
abbrev ttuWidth (i : Nat) : Nat := 0x30114 + i * 0x20

/-- TTUn_CTRL -/
abbrev ttuCtrl (i : Nat) : Nat := 0x30118 + i * 0x20

/-- TTUn_LATE_CNT -/
abbrev ttuLateCnt (i : Nat) : Nat := 0x3011C + i * 0x20

/-- TCUn_CFG -/
abbrev tcuCfg (i : Nat) : Nat := 0x30400 + i * 0x20

/-- TCUn_CAP_NS -/
abbrev tcuCapNs (i : Nat) : Nat := 0x30404 + i * 0x20

/-- TCUn_CAP_SEC -/
abbrev tcuCapSec (i : Nat) : Nat := 0x30408 + i * 0x20

/-- TCUn_CAP_FLAGS -/
abbrev tcuCapFlags (i : Nat) : Nat := 0x3040C + i * 0x20

/-- TCUn_MISS_CNT -/
abbrev tcuMissCnt (i : Nat) : Nat := 0x30410 + i * 0x20

/-- TCUn_LEVEL -/
abbrev tcuLevel (i : Nat) : Nat := 0x30414 + i * 0x20

/-- HIF_LINK_STATUS -/
abbrev hifLinkStatus : Nat := 0x40020

/-- HIF_CTX_CMD -/
abbrev hifCtxCmd : Nat := 0x40024

/-- HIF_DEV_LINK -/
abbrev hifDevLink : Nat := 0x40028

/-- HIF_INT_EN -/
abbrev hifIntEn : Nat := 0x4002C

/-- HIF_BUSERR_W0 -/
abbrev hifBuserrW0 : Nat := 0x40030

/-- HIF_BUSERR_W1 -/
abbrev hifBuserrW1 : Nat := 0x40034

/-- HIF_BUSERR_W2 -/
abbrev hifBuserrW2 : Nat := 0x40038

/-- HIF_BUSERR_LEVEL -/
abbrev hifBuserrLevel : Nat := 0x4003C

/-- HIF_BUSERR_DROP_CNT -/
abbrev hifBuserrDropCnt : Nat := 0x40040

/-- HIF_DB_BAD_CNT -/
abbrev hifDbBadCnt : Nat := 0x40044

/-- HIF_RX_NOCTX_CNT -/
abbrev hifRxNoctxCnt : Nat := 0x40048

/-- HIF_RX_TOOLONG_CNT -/
abbrev hifRxToolongCnt : Nat := 0x4004C

/-- HIF_CQ_FULL_CNT -/
abbrev hifCqFullCnt : Nat := 0x40050

/-- HIF_RD_ERR_CNT -/
abbrev hifRdErrCnt : Nat := 0x40054

/-- HIF_IMG_SHORT_CNT -/
abbrev hifImgShortCnt : Nat := 0x40058

/-- HIF_CREDIT_STALL_CNT -/
abbrev hifCreditStallCnt : Nat := 0x4005C

/-- HIF_RX_DEFAULT -/
abbrev hifRxDefault : Nat := 0x40060

/-- HIF_BLKVECk -/
abbrev hifBlkvec (i : Nat) : Nat := 0x40080 + i * 0x4

/-- HIF_CTX_ONi -/
abbrev hifCtxOn (i : Nat) : Nat := 0x40100 + i * 0x4

/-- ETH_MODE -/
abbrev ethMode (n : Nat) : Nat := 0x80020 + n * 0x4000

/-- ETH_MAXLEN -/
abbrev ethMaxlen (n : Nat) : Nat := 0x80024 + n * 0x4000

/-- ETH_MAC_ADDR_LO -/
abbrev ethMacAddrLo (n : Nat) : Nat := 0x80028 + n * 0x4000

/-- ETH_MAC_ADDR_HI -/
abbrev ethMacAddrHi (n : Nat) : Nat := 0x8002C + n * 0x4000

/-- ETH_LINK -/
abbrev ethLink (n : Nat) : Nat := 0x80030 + n * 0x4000

/-- ETH_FILT -/
abbrev ethFilt (n : Nat) : Nat := 0x80034 + n * 0x4000

/-- ETH_TSQ_W0 -/
abbrev ethTsqW0 (n : Nat) : Nat := 0x80040 + n * 0x4000

/-- ETH_TSQ_W1 -/
abbrev ethTsqW1 (n : Nat) : Nat := 0x80044 + n * 0x4000

/-- ETH_TSQ_W2 -/
abbrev ethTsqW2 (n : Nat) : Nat := 0x80048 + n * 0x4000

/-- ETH_TSQ_W3 -/
abbrev ethTsqW3 (n : Nat) : Nat := 0x8004C + n * 0x4000

/-- ETH_TSQ_LEVEL -/
abbrev ethTsqLevel (n : Nat) : Nat := 0x80050 + n * 0x4000

/-- ETH_TSQ_DROP_CNT -/
abbrev ethTsqDropCnt (n : Nat) : Nat := 0x80054 + n * 0x4000

/-- ETH_INT_EN -/
abbrev ethIntEn (n : Nat) : Nat := 0x80058 + n * 0x4000

/-- ETH_PFC_CFG -/
abbrev ethPfcCfg (n : Nat) : Nat := 0x80060 + n * 0x4000

/-- ETH_PFC_TIME -/
abbrev ethPfcTime (n : Nat) : Nat := 0x80064 + n * 0x4000

/-- ETH_PFC_XOFFp -/
abbrev ethPfcXoff (n : Nat) (i : Nat) : Nat := 0x80080 + n * 0x4000 + i * 0x10

/-- ETH_PFC_XONp -/
abbrev ethPfcXon (n : Nat) (i : Nat) : Nat := 0x80084 + n * 0x4000 + i * 0x10

/-- ETH_PFC_LIMITp -/
abbrev ethPfcLimit (n : Nat) (i : Nat) : Nat := 0x80088 + n * 0x4000 + i * 0x10

/-- ETH_PFC_USEp -/
abbrev ethPfcUse (n : Nat) (i : Nat) : Nat := 0x8008C + n * 0x4000 + i * 0x10

/-- ETH_RX_FRAMES_LO -/
abbrev ethRxFramesLo (n : Nat) : Nat := 0x80100 + n * 0x4000

/-- ETH_RX_FRAMES_HI -/
abbrev ethRxFramesHi (n : Nat) : Nat := 0x80104 + n * 0x4000

/-- ETH_RX_BYTES_LO -/
abbrev ethRxBytesLo (n : Nat) : Nat := 0x80108 + n * 0x4000

/-- ETH_RX_BYTES_HI -/
abbrev ethRxBytesHi (n : Nat) : Nat := 0x8010C + n * 0x4000

/-- ETH_TX_FRAMES_LO -/
abbrev ethTxFramesLo (n : Nat) : Nat := 0x80110 + n * 0x4000

/-- ETH_TX_FRAMES_HI -/
abbrev ethTxFramesHi (n : Nat) : Nat := 0x80114 + n * 0x4000

/-- ETH_TX_BYTES_LO -/
abbrev ethTxBytesLo (n : Nat) : Nat := 0x80118 + n * 0x4000

/-- ETH_TX_BYTES_HI -/
abbrev ethTxBytesHi (n : Nat) : Nat := 0x8011C + n * 0x4000

/-- ETH_RX_FCS_CNT -/
abbrev ethRxFcsCnt (n : Nat) : Nat := 0x80120 + n * 0x4000

/-- ETH_RX_RUNT_CNT -/
abbrev ethRxRuntCnt (n : Nat) : Nat := 0x80124 + n * 0x4000

/-- ETH_RX_LONG_CNT -/
abbrev ethRxLongCnt (n : Nat) : Nat := 0x80128 + n * 0x4000

/-- ETH_RX_CODE_CNT -/
abbrev ethRxCodeCnt (n : Nat) : Nat := 0x8012C + n * 0x4000

/-- ETH_RX_FILT_CNT -/
abbrev ethRxFiltCnt (n : Nat) : Nat := 0x80130 + n * 0x4000

/-- ETH_RX_MACCTL_IGN_CNT -/
abbrev ethRxMacctlIgnCnt (n : Nat) : Nat := 0x80134 + n * 0x4000

/-- ETH_RX_PFC_CNT -/
abbrev ethRxPfcCnt (n : Nat) : Nat := 0x80138 + n * 0x4000

/-- ETH_TX_PFC_CNT -/
abbrev ethTxPfcCnt (n : Nat) : Nat := 0x8013C + n * 0x4000

/-- ETH_RX_PFC_IGN_CNT -/
abbrev ethRxPfcIgnCnt (n : Nat) : Nat := 0x80140 + n * 0x4000

/-- ETH_RX_PFC_DROP_CNT -/
abbrev ethRxPfcDropCnt (n : Nat) : Nat := 0x80144 + n * 0x4000

/-- ETH_TX_ABORT_CNT -/
abbrev ethTxAbortCnt (n : Nat) : Nat := 0x80148 + n * 0x4000

/-- ETH_LINK_DOWN_CNT -/
abbrev ethLinkDownCnt (n : Nat) : Nat := 0x8014C + n * 0x4000

/-- ETH_RX_HOLD_CNT -/
abbrev ethRxHoldCnt (n : Nat) : Nat := 0x80150 + n * 0x4000

/-- ETH_TSO_SKIP_CNT -/
abbrev ethTsoSkipCnt (n : Nat) : Nat := 0x80154 + n * 0x4000

/-- ETH_MSEC_CFG -/
abbrev ethMsecCfg (n : Nat) : Nat := 0x80200 + n * 0x4000

/-- ETH_MSEC_REPLAY_WIN -/
abbrev ethMsecReplayWin (n : Nat) : Nat := 0x80204 + n * 0x4000

/-- ETH_MSEC_BYPASS -/
abbrev ethMsecBypass (n : Nat) : Nat := 0x80208 + n * 0x4000

/-- ETH_MSEC_TXSA -/
abbrev ethMsecTxsa (n : Nat) : Nat := 0x8020C + n * 0x4000

/-- ETH_MSEC_ICV_FAIL_CNT -/
abbrev ethMsecIcvFailCnt (n : Nat) : Nat := 0x80220 + n * 0x4000

/-- ETH_MSEC_UNTAGGED_CNT -/
abbrev ethMsecUntaggedCnt (n : Nat) : Nat := 0x80224 + n * 0x4000

/-- ETH_MSEC_REPLAY_CNT -/
abbrev ethMsecReplayCnt (n : Nat) : Nat := 0x80228 + n * 0x4000

/-- ETH_MSEC_NOSA_CNT -/
abbrev ethMsecNosaCnt (n : Nat) : Nat := 0x8022C + n * 0x4000

/-- ETH_MSEC_TX_EXH_CNT -/
abbrev ethMsecTxExhCnt (n : Nat) : Nat := 0x80230 + n * 0x4000

/-- ETH_MDIO_CFG -/
abbrev ethMdioCfg (n : Nat) : Nat := 0x80300 + n * 0x4000

/-- ETH_MDIO_CMD -/
abbrev ethMdioCmd (n : Nat) : Nat := 0x80304 + n * 0x4000

/-- ETH_MDIO_RDATA -/
abbrev ethMdioRdata (n : Nat) : Nat := 0x80308 + n * 0x4000

/-- SWC_SLICE_MAP -/
abbrev swcSliceMap : Nat := 0xA0020

/-- SWC_AGE_TIME -/
abbrev swcAgeTime : Nat := 0xA0024

/-- SWC_TPID -/
abbrev swcTpid : Nat := 0xA0028

/-- SWC_FLOOD -/
abbrev swcFlood : Nat := 0xA002C

/-- SWC_MC_FLOOD -/
abbrev swcMcFlood : Nat := 0xA0030

/-- SWC_INT_EN -/
abbrev swcIntEn : Nat := 0xA0034

/-- SWC_SMP_BASE_LO -/
abbrev swcSmpBaseLo : Nat := 0xA0040

/-- SWC_SMP_BASE_HI -/
abbrev swcSmpBaseHi : Nat := 0xA0044

/-- SWC_SMP_CFG -/
abbrev swcSmpCfg : Nat := 0xA0048

/-- SWC_SMP_PI -/
abbrev swcSmpPi : Nat := 0xA004C

/-- SWC_SMP_CI -/
abbrev swcSmpCi : Nat := 0xA0050

/-- SWC_LEARN_FULL_CNT -/
abbrev swcLearnFullCnt : Nat := 0xA0060

/-- SWC_MOVE_CNT -/
abbrev swcMoveCnt : Nat := 0xA0064

/-- SWC_ELIM_CNT -/
abbrev swcElimCnt : Nat := 0xA0068

/-- SWC_ECN_MARK_CNT -/
abbrev swcEcnMarkCnt : Nat := 0xA006C

/-- SWC_CT_CNT -/
abbrev swcCtCnt : Nat := 0xA0070

/-- SWC_SMP_DROP_CNT -/
abbrev swcSmpDropCnt : Nat := 0xA0074

/-- SWC_SMP_MERGE_CNT -/
abbrev swcSmpMergeCnt : Nat := 0xA0078

/-- SWC_WIN_LATE_CNT -/
abbrev swcWinLateCnt : Nat := 0xA007C

/-- SWC_Pn_GATE_CTRL -/
abbrev swcPGateCtrl (i : Nat) : Nat := 0xA0100 + i * 0x20

/-- SWC_Pn_GATE_LEN -/
abbrev swcPGateLen (i : Nat) : Nat := 0xA0104 + i * 0x20

/-- SWC_Pn_GATE_STATUS -/
abbrev swcPGateStatus (i : Nat) : Nat := 0xA0108 + i * 0x20

/-- SWC_Pn_PMAC_CFG -/
abbrev swcPPmacCfg (i : Nat) : Nat := 0xA010C + i * 0x20

/-- SWC_Pn_GCL_OVR_CNT -/
abbrev swcPGclOvrCnt (i : Nat) : Nat := 0xA0110 + i * 0x20

/-- SWC_Pn_PREEMPT_CNT -/
abbrev swcPPreemptCnt (i : Nat) : Nat := 0xA0114 + i * 0x20

/-- SWC_Pn_REASM_ERR_CNT -/
abbrev swcPReasmErrCnt (i : Nat) : Nat := 0xA0118 + i * 0x20

/-- SWC_Pn_GATE_OPLEN -/
abbrev swcPGateOplen (i : Nat) : Nat := 0xA011C + i * 0x20

/-- BFM_IPB_FREE -/
abbrev bfmIpbFree : Nat := 0xC0020

/-- BFM_EXP_FREE -/
abbrev bfmExpFree : Nat := 0xC0024

/-- BFM_EXP_RSV -/
abbrev bfmExpRsv : Nat := 0xC0028

/-- BFM_BE_FLOOR -/
abbrev bfmBeFloor : Nat := 0xC002C

/-- BFM_DIE_UE_LIMIT -/
abbrev bfmDieUeLimit : Nat := 0xC0030

/-- BFM_CMD -/
abbrev bfmCmd : Nat := 0xC0034

/-- BFM_INT_EN -/
abbrev bfmIntEn : Nat := 0xC0038

/-- BFM_CE_CNT -/
abbrev bfmCeCnt : Nat := 0xC0040

/-- BFM_UE_CNT -/
abbrev bfmUeCnt : Nat := 0xC0044

/-- BFM_EXP_CE_CNT -/
abbrev bfmExpCeCnt : Nat := 0xC0048

/-- BFM_EXP_UE_CNT -/
abbrev bfmExpUeCnt : Nat := 0xC004C

/-- BFM_CT_FB_CNT -/
abbrev bfmCtFbCnt : Nat := 0xC0050

/-- NRG_ETYPE -/
abbrev nrgEtype : Nat := 0xD0020

/-- NRG_INT_EN -/
abbrev nrgIntEn : Nat := 0xD0024

/-- NRG_HUB_CFG -/
abbrev nrgHubCfg : Nat := 0xD0300

/-- NRG_HUB_Ln_CUT_CNT -/
abbrev nrgHubLCutCnt (i : Nat) : Nat := 0xD0320 + i * 0x8

/-- NRG_HUB_Ln_BLOCK_CNT -/
abbrev nrgHubLBlockCnt (i : Nat) : Nat := 0xD0324 + i * 0x8

/-- NRG_RINGr_CFG -/
abbrev nrgRingCfg (i : Nat) : Nat := 0xD0100 + i * 0x100

/-- NRG_RINGr_PERIOD -/
abbrev nrgRingPeriod (i : Nat) : Nat := 0xD0104 + i * 0x100

/-- NRG_RINGr_SEND_PHASE -/
abbrev nrgRingSendPhase (i : Nat) : Nat := 0xD0108 + i * 0x100

/-- NRG_RINGr_NODES -/
abbrev nrgRingNodes (i : Nat) : Nat := 0xD010C + i * 0x100

/-- NRG_RINGr_CLAIM -/
abbrev nrgRingClaim (i : Nat) : Nat := 0xD0110 + i * 0x100

/-- NRG_RINGr_GUARD -/
abbrev nrgRingGuard (i : Nat) : Nat := 0xD0114 + i * 0x100

/-- NRG_RINGr_SLOT_START -/
abbrev nrgRingSlotStart (i : Nat) : Nat := 0xD0118 + i * 0x100

/-- NRG_RINGr_SLOT_END -/
abbrev nrgRingSlotEnd (i : Nat) : Nat := 0xD011C + i * 0x100

/-- NRG_RINGr_HEAL -/
abbrev nrgRingHeal (i : Nat) : Nat := 0xD0120 + i * 0x100

/-- NRG_RINGr_STAR_LEAD -/
abbrev nrgRingStarLead (i : Nat) : Nat := 0xD0124 + i * 0x100

/-- NRG_RINGr_DLY_A -/
abbrev nrgRingDlyA (i : Nat) : Nat := 0xD0128 + i * 0x100

/-- NRG_RINGr_DLY_B -/
abbrev nrgRingDlyB (i : Nat) : Nat := 0xD012C + i * 0x100

/-- NRG_RINGr_DLY_S -/
abbrev nrgRingDlyS (i : Nat) : Nat := 0xD0130 + i * 0x100

/-- NRG_RINGr_KEYSEL -/
abbrev nrgRingKeysel (i : Nat) : Nat := 0xD0134 + i * 0x100

/-- NRG_RINGr_CMD -/
abbrev nrgRingCmd (i : Nat) : Nat := 0xD0138 + i * 0x100

/-- NRG_RINGr_STATE -/
abbrev nrgRingState (i : Nat) : Nat := 0xD0140 + i * 0x100

/-- NRG_RINGr_CYC -/
abbrev nrgRingCyc (i : Nat) : Nat := 0xD0144 + i * 0x100

/-- NRG_RINGr_OFFSET -/
abbrev nrgRingOffset (i : Nat) : Nat := 0xD0148 + i * 0x100

/-- NRG_RINGr_CFG_HASH -/
abbrev nrgRingCfgHash (i : Nat) : Nat := 0xD014C + i * 0x100

/-- NRG_RINGr_CUT_CNT -/
abbrev nrgRingCutCnt (i : Nat) : Nat := 0xD0150 + i * 0x100

/-- NRG_RINGr_BLOCK_CNT -/
abbrev nrgRingBlockCnt (i : Nat) : Nat := 0xD0154 + i * 0x100

/-- NRG_RINGr_TURN_CNT -/
abbrev nrgRingTurnCnt (i : Nat) : Nat := 0xD0158 + i * 0x100

/-- NRG_RINGr_FRAG_CNT -/
abbrev nrgRingFragCnt (i : Nat) : Nat := 0xD015C + i * 0x100

/-- NRG_RINGr_LOS_CNT -/
abbrev nrgRingLosCnt (i : Nat) : Nat := 0xD0160 + i * 0x100

/-- NRG_RINGr_ABORT_CNT -/
abbrev nrgRingAbortCnt (i : Nat) : Nat := 0xD0164 + i * 0x100

/-- NRG_RINGr_FAUTH_CNT -/
abbrev nrgRingFauthCnt (i : Nat) : Nat := 0xD0168 + i * 0x100

/-- NRG_RINGr_WAUTH_CNT -/
abbrev nrgRingWauthCnt (i : Nat) : Nat := 0xD016C + i * 0x100

/-- NRG_RINGr_WMISS_CNT -/
abbrev nrgRingWmissCnt (i : Nat) : Nat := 0xD0170 + i * 0x100

/-- NRG_RINGr_WLATE_CNT -/
abbrev nrgRingWlateCnt (i : Nat) : Nat := 0xD0174 + i * 0x100

/-- NRG_RINGr_MISMATCH_CNT -/
abbrev nrgRingMismatchCnt (i : Nat) : Nat := 0xD0178 + i * 0x100

/-- NRG_RINGr_LISTEN_CNT -/
abbrev nrgRingListenCnt (i : Nat) : Nat := 0xD017C + i * 0x100

/-- NRG_RINGr_CLAIM_LOST_CNT -/
abbrev nrgRingClaimLostCnt (i : Nat) : Nat := 0xD0180 + i * 0x100

/-- NRG_RINGr_CLAIM_IGN_CNT -/
abbrev nrgRingClaimIgnCnt (i : Nat) : Nat := 0xD0184 + i * 0x100

/-- NRG_RINGr_DEFER_CNT -/
abbrev nrgRingDeferCnt (i : Nat) : Nat := 0xD0188 + i * 0x100

/-- NRG_RINGr_PLANE_CNT -/
abbrev nrgRingPlaneCnt (i : Nat) : Nat := 0xD018C + i * 0x100

/-- CAN_CFG -/
abbrev canCfg (n : Nat) : Nat := 0xE0020 + n * 0x2000

/-- CAN_NBT -/
abbrev canNbt (n : Nat) : Nat := 0xE0024 + n * 0x2000

/-- CAN_DBT -/
abbrev canDbt (n : Nat) : Nat := 0xE0028 + n * 0x2000

/-- CAN_TDC -/
abbrev canTdc (n : Nat) : Nat := 0xE002C + n * 0x2000

/-- CAN_TDCV -/
abbrev canTdcv (n : Nat) : Nat := 0xE0030 + n * 0x2000

/-- CAN_TT_PERIOD -/
abbrev canTtPeriod (n : Nat) : Nat := 0xE0034 + n * 0x2000

/-- CAN_TT_PHASE -/
abbrev canTtPhase (n : Nat) : Nat := 0xE0038 + n * 0x2000

/-- CAN_TT_REF -/
abbrev canTtRef (n : Nat) : Nat := 0xE003C + n * 0x2000

/-- CAN_TT_WIN -/
abbrev canTtWin (n : Nat) : Nat := 0xE0040 + n * 0x2000

/-- CAN_TT_STATE -/
abbrev canTtState (n : Nat) : Nat := 0xE0044 + n * 0x2000

/-- CAN_ERRCNT -/
abbrev canErrcnt (n : Nat) : Nat := 0xE0048 + n * 0x2000

/-- CAN_BUSOFF_PROG -/
abbrev canBusoffProg (n : Nat) : Nat := 0xE004C + n * 0x2000

/-- CAN_INT_EN -/
abbrev canIntEn (n : Nat) : Nat := 0xE0050 + n * 0x2000

/-- CAN_GW_DST_LO -/
abbrev canGwDstLo (n : Nat) : Nat := 0xE0054 + n * 0x2000

/-- CAN_GW_DST_HI -/
abbrev canGwDstHi (n : Nat) : Nat := 0xE0058 + n * 0x2000

/-- CAN_GW_OWN_LO -/
abbrev canGwOwnLo (n : Nat) : Nat := 0xE005C + n * 0x2000

/-- CAN_GW_OWN_HI -/
abbrev canGwOwnHi (n : Nat) : Nat := 0xE0060 + n * 0x2000

/-- CAN_GW_ETYPE -/
abbrev canGwEtype (n : Nat) : Nat := 0xE0064 + n * 0x2000

/-- CAN_TXEV_W0 -/
abbrev canTxevW0 (n : Nat) : Nat := 0xE0070 + n * 0x2000

/-- CAN_TXEV_W1 -/
abbrev canTxevW1 (n : Nat) : Nat := 0xE0074 + n * 0x2000

/-- CAN_TXEV_LEVEL -/
abbrev canTxevLevel (n : Nat) : Nat := 0xE0078 + n * 0x2000

/-- CAN_RX_FRAMES_CNT -/
abbrev canRxFramesCnt (n : Nat) : Nat := 0xE0080 + n * 0x2000

/-- CAN_RX_NOOBJ_CNT -/
abbrev canRxNoobjCnt (n : Nat) : Nat := 0xE0084 + n * 0x2000

/-- CAN_RX_RTR_CNT -/
abbrev canRxRtrCnt (n : Nat) : Nat := 0xE0088 + n * 0x2000

/-- CAN_MSG_LOST_CNT -/
abbrev canMsgLostCnt (n : Nat) : Nat := 0xE008C + n * 0x2000

/-- CAN_TX_OK_CNT -/
abbrev canTxOkCnt (n : Nat) : Nat := 0xE0090 + n * 0x2000

/-- CAN_TX_FAIL_CNT -/
abbrev canTxFailCnt (n : Nat) : Nat := 0xE0094 + n * 0x2000

/-- CAN_IDCOLL_CNT -/
abbrev canIdcollCnt (n : Nat) : Nat := 0xE0098 + n * 0x2000

/-- CAN_TX_ARBLOST_CNT -/
abbrev canTxArblostCnt (n : Nat) : Nat := 0xE009C + n * 0x2000

/-- CAN_TX_EMPTY_CNT -/
abbrev canTxEmptyCnt (n : Nat) : Nat := 0xE00A0 + n * 0x2000

/-- CAN_TT_REFMISS_CNT -/
abbrev canTtRefmissCnt (n : Nat) : Nat := 0xE00A4 + n * 0x2000

/-- CAN_TT_EXCL_VIOL_CNT -/
abbrev canTtExclViolCnt (n : Nat) : Nat := 0xE00A8 + n * 0x2000

/-- CAN_BUSOFF_CNT -/
abbrev canBusoffCnt (n : Nat) : Nat := 0xE00AC + n * 0x2000

/-- CAN_PEX_CNT -/
abbrev canPexCnt (n : Nat) : Nat := 0xE00B0 + n * 0x2000

/-- CAN_ERR_BIT_CNT -/
abbrev canErrBitCnt (n : Nat) : Nat := 0xE00B4 + n * 0x2000

/-- CAN_ERR_STUFF_CNT -/
abbrev canErrStuffCnt (n : Nat) : Nat := 0xE00B8 + n * 0x2000

/-- CAN_ERR_FORM_CNT -/
abbrev canErrFormCnt (n : Nat) : Nat := 0xE00BC + n * 0x2000

/-- CAN_ERR_ACK_CNT -/
abbrev canErrAckCnt (n : Nat) : Nat := 0xE00C0 + n * 0x2000

/-- CAN_ERR_CRC_CNT -/
abbrev canErrCrcCnt (n : Nat) : Nat := 0xE00C4 + n * 0x2000

/-- CAN_TDC_SAT_CNT -/
abbrev canTdcSatCnt (n : Nat) : Nat := 0xE00C8 + n * 0x2000

/-- CAN_TXEV_DROP_CNT -/
abbrev canTxevDropCnt (n : Nat) : Nat := 0xE00CC + n * 0x2000

/-- CAN_GW_DROP_CNT -/
abbrev canGwDropCnt (n : Nat) : Nat := 0xE00D0 + n * 0x2000

/-- PSQ_CMD -/
abbrev psqCmd : Nat := 0xF0020

/-- PSQ_BANK -/
abbrev psqBank : Nat := 0xF0024

/-- PSQ_IOBANK -/
abbrev psqIobank : Nat := 0xF0028

/-- PSQ_INT_EN -/
abbrev psqIntEn : Nat := 0xF002C

/-- PSQ_RXNEe -/
abbrev psqRxne (i : Nat) : Nat := 0xF0030 + i * 0x4

/-- PSQ_RXNE_ENe -/
abbrev psqRxneEn (i : Nat) : Nat := 0xF0038 + i * 0x4

/-- PSQ_FAULTEDe -/
abbrev psqFaulted (i : Nat) : Nat := 0xF0040 + i * 0x4

/-- PSQ_MFPm -/
abbrev psqMfp (i : Nat) : Nat := 0xF0100 + i * 0x4

/-- PSQ_CHc_CFG -/
abbrev psqChCfg (i : Nat) : Nat := 0xF1000 + i * 0x80

/-- PSQ_CHc_ENTRY -/
abbrev psqChEntry (i : Nat) : Nat := 0xF1004 + i * 0x80

/-- PSQ_CHc_CTRL -/
abbrev psqChCtrl (i : Nat) : Nat := 0xF1008 + i * 0x80

/-- PSQ_CHc_PC -/
abbrev psqChPc (i : Nat) : Nat := 0xF100C + i * 0x80

/-- PSQ_CHc_X -/
abbrev psqChX (i : Nat) : Nat := 0xF1010 + i * 0x80

/-- PSQ_CHc_Y -/
abbrev psqChY (i : Nat) : Nat := 0xF1014 + i * 0x80

/-- PSQ_CHc_STAMP -/
abbrev psqChStamp (i : Nat) : Nat := 0xF1018 + i * 0x80

/-- PSQ_CHc_OSR -/
abbrev psqChOsr (i : Nat) : Nat := 0xF101C + i * 0x80

/-- PSQ_CHc_ISR -/
abbrev psqChIsr (i : Nat) : Nat := 0xF1020 + i * 0x80

/-- PSQ_CHc_BITS -/
abbrev psqChBits (i : Nat) : Nat := 0xF1024 + i * 0x80

/-- PSQ_CHc_PINMAP0 -/
abbrev psqChPinmap0 (i : Nat) : Nat := 0xF1028 + i * 0x80

/-- PSQ_CHc_PINMAP1 -/
abbrev psqChPinmap1 (i : Nat) : Nat := 0xF102C + i * 0x80

/-- PSQ_CHc_PINS -/
abbrev psqChPins (i : Nat) : Nat := 0xF1030 + i * 0x80

/-- PSQ_CHc_TXQ -/
abbrev psqChTxq (i : Nat) : Nat := 0xF1034 + i * 0x80

/-- PSQ_CHc_RXQ -/
abbrev psqChRxq (i : Nat) : Nat := 0xF1038 + i * 0x80

/-- PSQ_CHc_QLEVEL -/
abbrev psqChQlevel (i : Nat) : Nat := 0xF103C + i * 0x80

/-- PSQ_CHc_LATE_CNT -/
abbrev psqChLateCnt (i : Nat) : Nat := 0xF1040 + i * 0x80

/-- PSQ_CHc_STALL_CNT -/
abbrev psqChStallCnt (i : Nat) : Nat := 0xF1044 + i * 0x80

/-- PSQ_CHc_EVOVR_CNT -/
abbrev psqChEvovrCnt (i : Nat) : Nat := 0xF1048 + i * 0x80

/-- PSQ_CHc_TXQ_DROP_CNT -/
abbrev psqChTxqDropCnt (i : Nat) : Nat := 0xF104C + i * 0x80

/-- PSQ_CHc_RXQ_EMPTY_CNT -/
abbrev psqChRxqEmptyCnt (i : Nat) : Nat := 0xF1050 + i * 0x80

/-- PSQ_CHc_PINREJ_CNT -/
abbrev psqChPinrejCnt (i : Nat) : Nat := 0xF1054 + i * 0x80

/-- PEC_STATE -/
abbrev pecState (n : Nat) : Nat := 0x100020 + n * 0x10000

/-- PEC_IMEM -/
abbrev pecImem (n : Nat) : Nat := 0x100024 + n * 0x10000

/-- PEC_WDOG -/
abbrev pecWdog (n : Nat) : Nat := 0x100028 + n * 0x10000

/-- PEC_KSTART_CNT -/
abbrev pecKstartCnt (n : Nat) : Nat := 0x10002C + n * 0x10000

/-- PEC_KLAST -/
abbrev pecKlast (n : Nat) : Nat := 0x100030 + n * 0x10000

/-- PEC_KMAX -/
abbrev pecKmax (n : Nat) : Nat := 0x100034 + n * 0x10000

/-- PEC_CMD -/
abbrev pecCmd (n : Nat) : Nat := 0x100038 + n * 0x10000

/-- PEC_KOVR_CNT -/
abbrev pecKovrCnt (n : Nat) : Nat := 0x10003C + n * 0x10000

/-- PEC_RETRY_CNT -/
abbrev pecRetryCnt (n : Nat) : Nat := 0x100040 + n * 0x10000

/-- PEC_ECC_CE_CNT -/
abbrev pecEccCeCnt (n : Nat) : Nat := 0x100044 + n * 0x10000

/-- PEC_COLLIDE_CNT -/
abbrev pecCollideCnt (n : Nat) : Nat := 0x100048 + n * 0x10000

/-- PEC_FAULT -/
abbrev pecFault (n : Nat) : Nat := 0x10004C + n * 0x10000

/-- PEC_INT_EN -/
abbrev pecIntEn (n : Nat) : Nat := 0x100050 + n * 0x10000

/-- PEC_TTU_GRANT -/
abbrev pecTtuGrant (n : Nat) : Nat := 0x100054 + n * 0x10000

/-- PEC_TCU_GRANT -/
abbrev pecTcuGrant (n : Nat) : Nat := 0x100058 + n * 0x10000

/-- PEC_WDECL -/
abbrev pecWdecl (n : Nat) : Nat := 0x10005C + n * 0x10000

/-- PEC_DBG_CTRL -/
abbrev pecDbgCtrl (n : Nat) : Nat := 0x100060 + n * 0x10000

/-- PEC_DBG_STATUS -/
abbrev pecDbgStatus (n : Nat) : Nat := 0x100064 + n * 0x10000

/-- PEC_DBG_PC -/
abbrev pecDbgPc (n : Nat) : Nat := 0x100068 + n * 0x10000

/-- PEC_BPb -/
abbrev pecBp (n : Nat) (i : Nat) : Nat := 0x100070 + n * 0x10000 + i * 0x4

/-- MBX_CMD -/
abbrev mbxCmd : Nat := 0x1A0020

/-- MBX_INT_EN -/
abbrev mbxIntEn : Nat := 0x1A0024

/-- MBX_FULLi -/
abbrev mbxFull (i : Nat) : Nat := 0x1A0028 + i * 0x4

/-- MBX_FULL_ENi -/
abbrev mbxFullEn (i : Nat) : Nat := 0x1A0030 + i * 0x4

/-- MBX_NOTICEi -/
abbrev mbxNotice (i : Nat) : Nat := 0x1A0038 + i * 0x4

/-- MBX_POST_CNT -/
abbrev mbxPostCnt : Nat := 0x1A0040

/-- MBX_SEND_REJ_CNT -/
abbrev mbxSendRejCnt : Nat := 0x1A0044

/-- MBX_ABORT_CNT -/
abbrev mbxAbortCnt : Nat := 0x1A0048

/-- MBX_ACC_ERR_CNT -/
abbrev mbxAccErrCnt : Nat := 0x1A004C

/-- MBX_CFGm -/
abbrev mbxCfg (i : Nat) : Nat := 0x1A0100 + i * 0x4

/-- MBX_m_Ww -/
abbrev mbxW (i : Nat) : Nat := 0x1A1000 + i * 0x4

/-- MEM_SKM_INTERVAL -/
abbrev memSkmInterval : Nat := 0x1B0020

/-- MEM_SKM_POS -/
abbrev memSkmPos : Nat := 0x1B0024

/-- MEM_SKM_PASS_CNT -/
abbrev memSkmPassCnt : Nat := 0x1B0028

/-- MEM_SKM_FAIL_CNT -/
abbrev memSkmFailCnt : Nat := 0x1B002C

/-- MEM_REPAIR_CNT -/
abbrev memRepairCnt : Nat := 0x1B0030

/-- MEM_CE_CNT -/
abbrev memCeCnt : Nat := 0x1B0034

/-- MEM_UE_CNT -/
abbrev memUeCnt : Nat := 0x1B0038

/-- MEM_NONOWN_CNT -/
abbrev memNonownCnt : Nat := 0x1B003C

/-- MEM_NONOWN_LAST -/
abbrev memNonownLast : Nat := 0x1B0040

/-- MEM_INT_EN -/
abbrev memIntEn : Nat := 0x1B0044

/-- MEM_BANK_OWNERb -/
abbrev memBankOwner (i : Nat) : Nat := 0x1B0100 + i * 0x4

/-- XPB_CFG -/
abbrev xpbCfg : Nat := 0x1C0020

/-- XPB_TIMEOUT -/
abbrev xpbTimeout : Nat := 0x1C0024

/-- XPB_GW_OWN_LO -/
abbrev xpbGwOwnLo : Nat := 0x1C0028

/-- XPB_GW_OWN_HI -/
abbrev xpbGwOwnHi : Nat := 0x1C002C

/-- XPB_GW_ETYPE -/
abbrev xpbGwEtype : Nat := 0x1C0030

/-- XPB_INT_EN -/
abbrev xpbIntEn : Nat := 0x1C0034

/-- XPB_XIRQ_EN -/
abbrev xpbXirqEn : Nat := 0x1C0038

/-- XPB_POLL_ACT -/
abbrev xpbPollAct : Nat := 0x1C003C

/-- XPB_POLL_EN -/
abbrev xpbPollEn : Nat := 0x1C0040

/-- XPB_PEL_PI -/
abbrev xpbPelPi : Nat := 0x1C0044

/-- XPB_PEL_CI -/
abbrev xpbPelCi : Nat := 0x1C0048

/-- XPB_TXN_CNT -/
abbrev xpbTxnCnt : Nat := 0x1C0050

/-- XPB_TIMEOUT_CNT -/
abbrev xpbTimeoutCnt : Nat := 0x1C0054

/-- XPB_ERRRESP_CNT -/
abbrev xpbErrrespCnt : Nat := 0x1C0058

/-- XPB_BACKOFF_CNT -/
abbrev xpbBackoffCnt : Nat := 0x1C005C

/-- XPB_QFULL_CNT -/
abbrev xpbQfullCnt : Nat := 0x1C0060

/-- XPB_PEL_DROP_CNT -/
abbrev xpbPelDropCnt : Nat := 0x1C0064

/-- XPB_GW_DROP_CNT -/
abbrev xpbGwDropCnt : Nat := 0x1C0068

/-- SGM_INT_EN -/
abbrev sgmIntEn : Nat := 0x1D0020

/-- SGM_OVW_CNT -/
abbrev sgmOvwCnt : Nat := 0x1D0024

/-- SGM_ERR_CNT -/
abbrev sgmErrCnt : Nat := 0x1D0028

/-- SEC_OWNER_SLOTS -/
abbrev secOwnerSlots : Nat := 0x1E0020

/-- SEC_INT_EN -/
abbrev secIntEn : Nat := 0x1E0024

/-- SEC_ROLLBACKn -/
abbrev secRollback (i : Nat) : Nat := 0x1E0040 + i * 0x4

/-- SEC_AUTH_FAIL_CNT -/
abbrev secAuthFailCnt : Nat := 0x1E0080

/-- SEC_TAMPER_CNT -/
abbrev secTamperCnt : Nat := 0x1E0084

/-- SEC_DBG_SESSION_CNT -/
abbrev secDbgSessionCnt : Nat := 0x1E0088

/-- SEC_ZEROIZE_CNT -/
abbrev secZeroizeCnt : Nat := 0x1E008C

/-- FLT_ROT_PERIOD -/
abbrev fltRotPeriod : Nat := 0x1F0020

/-- FLT_RETEST -/
abbrev fltRetest : Nat := 0x1F0024

/-- FLT_START_LIMIT -/
abbrev fltStartLimit : Nat := 0x1F0028

/-- FLT_FENCED0 -/
abbrev fltFenced0 : Nat := 0x1F002C

/-- FLT_FENCED1 -/
abbrev fltFenced1 : Nat := 0x1F0030

/-- FLT_PERM0 -/
abbrev fltPerm0 : Nat := 0x1F0034

/-- FLT_PERM1 -/
abbrev fltPerm1 : Nat := 0x1F0038

/-- FLT_CMD -/
abbrev fltCmd : Nat := 0x1F003C

/-- FLT_LOG_SEQ -/
abbrev fltLogSeq : Nat := 0x1F0040

/-- FLT_FAULT_CNT -/
abbrev fltFaultCnt : Nat := 0x1F0044

/-- FLT_PERM_CNT -/
abbrev fltPermCnt : Nat := 0x1F0048

/-- FLT_READMIT_CNT -/
abbrev fltReadmitCnt : Nat := 0x1F004C

/-- FLT_ROTATE_CNT -/
abbrev fltRotateCnt : Nat := 0x1F0050

/-- FLT_VOTE_CNT -/
abbrev fltVoteCnt : Nat := 0x1F0054

/-- FLT_INT_EN -/
abbrev fltIntEn : Nat := 0x1F0058

/-- FLT_TWIN_CFG -/
abbrev fltTwinCfg : Nat := 0x1F0060

/-- FLT_TWIN_STATUS -/
abbrev fltTwinStatus : Nat := 0x1F0064

/-- FLT_TWIN_CMD -/
abbrev fltTwinCmd : Nat := 0x1F0068

/-- FLT_TWIN_OFFSET -/
abbrev fltTwinOffset : Nat := 0x1F006C

/-- FLT_TWIN_PEER_LO -/
abbrev fltTwinPeerLo : Nat := 0x1F0070

/-- FLT_TWIN_PEER_HI -/
abbrev fltTwinPeerHi : Nat := 0x1F0074

/-- FLT_TWIN_LOSS_CNT -/
abbrev fltTwinLossCnt : Nat := 0x1F0078

/-- FLT_TWIN_AUTH_CNT -/
abbrev fltTwinAuthCnt : Nat := 0x1F007C

/-- FLT_TWIN_DIVERGE_CNT -/
abbrev fltTwinDivergeCnt : Nat := 0x1F0080

end Sys2Proof.Machine
end

