-- ==== Sys2Proof/Machine/RegMap.lean ====
section
/-! DEFINITION. The register map (03, Tables GLB-11 and GLB-12, and each chapter's register table): where
every register of BAR0 stands, its kind (R9, Table GLB-2), its writable bits and its reset value; and the
indirect spaces of every block (R49-R52). -/

namespace Sys2Proof.Machine

/-- How software writes act on a register (Table GLB-2); `special`: the write is a command of its own,
acted on by an operation of the block. -/
inductive RKind where
  | rw | cf | st | sh | ct | pi | ci | special
deriving DecidableEq, Repr

/-- One row of a register table: offset, count and stride of like registers, kind, writable bits, reset
value, and whether host writes are refused under R42. -/
structure RegRow where
  off : Nat
  cnt : Nat
  stride : Nat
  kind : RKind
  mask : Word
  reset : Word
  sup : Bool
deriving DecidableEq, Repr

/-- Registers of GLB from offset 0x20 up (R55, Table GLB-15). -/
def rowsGlb : List RegRow :=
  [
    -- GLB_ID
    ⟨0x20, 1, 0x4, .st, 0x0, 0x8600B001, false⟩,
    -- GLB_EUI64_LO
    ⟨0x24, 1, 0x4, .st, 0x0, 0x0, false⟩,
    -- GLB_EUI64_HI
    ⟨0x28, 1, 0x4, .sh, 0x0, 0x0, false⟩,
    -- GLB_LIFECYCLE
    ⟨0x2C, 1, 0x4, .st, 0x0, 0x0, false⟩,
    -- GLB_LAST_START
    ⟨0x30, 1, 0x4, .st, 0x0, 0x0, false⟩,
    -- GLB_RESET_CMD
    ⟨0x34, 1, 0x4, .special, 0x3, 0x0, true⟩,
    -- GLB_FAILED_START
    ⟨0x38, 1, 0x4, .st, 0x0, 0x0, false⟩,
    -- GLB_COLD_START_CNT
    ⟨0x3C, 1, 0x4, .ct, 0x0, 0x0, false⟩,
    -- GLB_AVAIL_STATUS
    ⟨0x40, 1, 0x4, .st, 0x0, 0x0, false⟩,
    -- GLB_SPARE_CNT
    ⟨0x44, 1, 0x4, .st, 0x0, 0x0, false⟩,
    -- GLB_WARM_START_CNT
    ⟨0x48, 1, 0x4, .ct, 0x0, 0x0, false⟩,
    -- GLB_INT_SUMMARY
    ⟨0x50, 1, 0x4, .st, 0x0, 0x0, false⟩,
    -- GLB_INT_EN
    ⟨0x54, 1, 0x4, .rw, 0x3FFFF, 0x0, false⟩,
    -- GLB_INT_CNT
    ⟨0x58, 1, 0x4, .ct, 0x0, 0x0, false⟩,
    -- GLB_SUP_BUSERR_CNT
    ⟨0x5C, 1, 0x4, .ct, 0x0, 0x0, false⟩,
    -- GLB_SCRATCH
    ⟨0x60, 1, 0x4, .rw, 0xFFFFFFFF, 0x0, false⟩
  ]

/-- Registers of CLK from offset 0x20 up (R35, Tables CLK-3 and CLK-7). -/
def rowsClk : List RegRow :=
  [
    -- CLK_REF_STATUS
    ⟨0x20, 1, 0x4, .st, 0x0, 0x0, false⟩,
    -- CLK_PLL_CFG
    ⟨0x24, 1, 0x4, .cf, 0x1FF, 0x140, true⟩,
    -- CLK_PLL_STATUS
    ⟨0x28, 1, 0x4, .st, 0x0, 0x420, false⟩,
    -- CLK_DEGRADED
    ⟨0x2C, 1, 0x4, .st, 0x0, 0x0, false⟩,
    -- CLK_GATE_REQ
    ⟨0x30, 1, 0x4, .special, 0x69FF8, 0x0, false⟩,
    -- CLK_ISL_ON
    ⟨0x34, 1, 0x4, .st, 0x0, 0x0, false⟩,
    -- CLK_PORT_GATE
    ⟨0x38, 1, 0x4, .rw, 0xFF, 0x0, false⟩,
    -- CLK_PLL_LOSS_CNT
    ⟨0x40, 1, 0x4, .ct, 0x0, 0x0, false⟩,
    -- CLK_REALIGN_CNT
    ⟨0x44, 1, 0x4, .ct, 0x0, 0x0, false⟩,
    -- CLK_DTM_RELOAD_CNT
    ⟨0x48, 1, 0x4, .ct, 0x0, 0x0, false⟩,
    -- CLK_WAKE_CNT
    ⟨0x4C, 1, 0x4, .ct, 0x0, 0x0, false⟩,
    -- CLK_INT_EN
    ⟨0x50, 1, 0x4, .rw, 0x6, 0x0, false⟩,
    -- CLK_PWR_STATE
    ⟨0x100, 1, 0x4, .st, 0x0, 0x0, false⟩,
    -- CLK_PWR_CMD
    ⟨0x104, 1, 0x4, .special, 0x3, 0x0, true⟩,
    -- CLK_WAKE_CFG
    ⟨0x108, 1, 0x4, .rw, 0x3, 0x2, true⟩,
    -- CLK_WAKE_NS
    ⟨0x10C, 1, 0x4, .rw, 0xFFFFFFFF, 0x0, false⟩
  ]
  ++ [
    -- CLK_WAKE_SEC_LO
    ⟨0x110, 1, 0x4, .rw, 0xFFFFFFFF, 0x0, false⟩,
    -- CLK_WAKE_SEC_HI
    ⟨0x114, 1, 0x4, .rw, 0xFFFF, 0x0, false⟩,
    -- CLK_WAKE_CAUSE
    ⟨0x118, 1, 0x4, .st, 0x0, 0x0, false⟩,
    -- CLK_P2_CNT
    ⟨0x11C, 1, 0x4, .ct, 0x0, 0x0, false⟩
  ]

/-- Registers of DTM from offset 0x20 up (R86, Tables DTM-4 and DTM-5). -/
def rowsDtm : List RegRow :=
  [
    -- DTM_CMD
    ⟨0x20, 1, 0x4, .special, 0xFF, 0x0, false⟩,
    -- DTM_JUMP_LIMIT
    ⟨0x24, 1, 0x4, .rw, 0xFFFFF, 0x3E8, true⟩,
    -- DTM_PORT_DOM
    ⟨0x28, 1, 0x4, .rw, 0xFFFF, 0x0, false⟩,
    -- DTM_INT_EN
    ⟨0x2C, 1, 0x4, .rw, 0xFFF0, 0x0, false⟩,
    -- DTM_INC_CLAMP_CNT
    ⟨0x30, 1, 0x4, .ct, 0x0, 0x0, false⟩,
    -- DTM_Pn_TX_TRIM
    ⟨0x40, 8, 0x8, .rw, 0xFFFFFFFF, 0x0, false⟩,
    -- DTM_Pn_RX_TRIM
    ⟨0x44, 8, 0x8, .rw, 0xFFFFFFFF, 0x0, false⟩,
    -- DTM_Dd_TIME_FRAC
    ⟨0x100, 4, 0x40, .st, 0x0, 0x0, false⟩,
    -- DTM_Dd_TIME_NS
    ⟨0x104, 4, 0x40, .sh, 0x0, 0x0, false⟩,
    -- DTM_Dd_TIME_SEC_LO
    ⟨0x108, 4, 0x40, .sh, 0x0, 0x0, false⟩,
    -- DTM_Dd_TIME_SEC_HI
    ⟨0x10C, 4, 0x40, .sh, 0x0, 0x0, false⟩,
    -- DTM_Dd_INC_FRAC
    ⟨0x110, 4, 0x40, .special, 0xFFFFFFFF, 0x0, false⟩,
    -- DTM_Dd_INC_NS
    ⟨0x114, 4, 0x40, .rw, 0xFFFFFFFF, 0x2, false⟩,
    -- DTM_Dd_ADJ_FRAC
    ⟨0x118, 4, 0x40, .special, 0xFFFFFFFF, 0x0, false⟩,
    -- DTM_Dd_ADJ_NS
    ⟨0x11C, 4, 0x40, .rw, 0xFFFFFFFF, 0x0, false⟩,
    -- DTM_Dd_LOAD_NS
    ⟨0x120, 4, 0x40, .rw, 0xFFFFFFFF, 0x0, false⟩
  ]
  ++ [
    -- DTM_Dd_LOAD_SEC_LO
    ⟨0x124, 4, 0x40, .rw, 0xFFFFFFFF, 0x0, false⟩,
    -- DTM_Dd_LOAD_SEC_HI
    ⟨0x128, 4, 0x40, .rw, 0xFFFF, 0x0, false⟩,
    -- DTM_Dd_SYNT
    ⟨0x12C, 4, 0x40, .rw, 0x107, 0x0, false⟩,
    -- DTM_Dd_SYNT_FOFS
    ⟨0x130, 4, 0x40, .st, 0x0, 0x0, false⟩,
    -- DTM_Dd_VOTE_CNT
    ⟨0x134, 4, 0x40, .ct, 0x0, 0x0, false⟩,
    -- DTM_Dd_ADJ_CNT
    ⟨0x138, 4, 0x40, .ct, 0x0, 0x0, false⟩,
    -- DTM_Dd_STEP_CNT
    ⟨0x13C, 4, 0x40, .ct, 0x0, 0x0, false⟩
  ]

/-- Registers of TTC from offset 0x20 up (R88, Table TTC-1). -/
def rowsTtc : List RegRow :=
  [
    -- TTC_INT_EN
    ⟨0x20, 1, 0x4, .rw, 0xFFFF0000, 0x0, false⟩,
    -- TTC_ARMED
    ⟨0x24, 1, 0x4, .st, 0x0, 0x0, false⟩,
    -- TTC_EVT_DROP_CNT
    ⟨0x28, 1, 0x4, .ct, 0x0, 0x0, false⟩,
    -- TTUn_CFG
    ⟨0x100, 24, 0x20, .special, 0xFFFF007F, 0x0, false⟩,
    -- TTUn_TIME_NS
    ⟨0x104, 24, 0x20, .special, 0xFFFFFFFF, 0x0, false⟩,
    -- TTUn_TIME_SEC_LO
    ⟨0x108, 24, 0x20, .special, 0xFFFFFFFF, 0x0, false⟩,
    -- TTUn_TIME_SEC_HI
    ⟨0x10C, 24, 0x20, .special, 0xFFFF, 0x0, false⟩,
    -- TTUn_PERIOD
    ⟨0x110, 24, 0x20, .special, 0xFFFFFFFF, 0x0, false⟩,
    -- TTUn_WIDTH
    ⟨0x114, 24, 0x20, .special, 0xFFFFFF, 0x0, false⟩,
    -- TTUn_CTRL
    ⟨0x118, 24, 0x20, .special, 0x3, 0x0, false⟩,
    -- TTUn_LATE_CNT
    ⟨0x11C, 24, 0x20, .ct, 0x0, 0x0, false⟩,
    -- TCUn_CFG
    ⟨0x400, 16, 0x20, .special, 0x8F0F007F, 0x1000000, false⟩,
    -- TCUn_CAP_NS
    ⟨0x404, 16, 0x20, .st, 0x0, 0x0, false⟩,
    -- TCUn_CAP_SEC
    ⟨0x408, 16, 0x20, .sh, 0x0, 0x0, false⟩,
    -- TCUn_CAP_FLAGS
    ⟨0x40C, 16, 0x20, .sh, 0x0, 0x0, false⟩,
    -- TCUn_MISS_CNT
    ⟨0x410, 16, 0x20, .ct, 0x0, 0x0, false⟩
  ]
  ++ [
    -- TCUn_LEVEL
    ⟨0x414, 16, 0x20, .st, 0x0, 0x0, false⟩
  ]

/-- Registers of HIF from offset 0x20 up (R321, Table HIF-10). -/
def rowsHif : List RegRow :=
  [
    -- HIF_LINK_STATUS
    ⟨0x20, 1, 0x4, .st, 0x0, 0x0, false⟩,
    -- HIF_CTX_CMD
    ⟨0x24, 1, 0x4, .special, 0xC00000FF, 0x0, false⟩,
    -- HIF_DEV_LINK
    ⟨0x28, 1, 0x4, .cf, 0x1, 0x0, false⟩,
    -- HIF_INT_EN
    ⟨0x2C, 1, 0x4, .rw, 0xE, 0x0, false⟩,
    -- HIF_BUSERR_W0
    ⟨0x30, 1, 0x4, .st, 0x0, 0x0, false⟩,
    -- HIF_BUSERR_W1
    ⟨0x34, 1, 0x4, .sh, 0x0, 0x0, false⟩,
    -- HIF_BUSERR_W2
    ⟨0x38, 1, 0x4, .sh, 0x0, 0x0, false⟩,
    -- HIF_BUSERR_LEVEL
    ⟨0x3C, 1, 0x4, .st, 0x0, 0x0, false⟩,
    -- HIF_BUSERR_DROP_CNT
    ⟨0x40, 1, 0x4, .ct, 0x0, 0x0, false⟩,
    -- HIF_DB_BAD_CNT
    ⟨0x44, 1, 0x4, .ct, 0x0, 0x0, false⟩,
    -- HIF_RX_NOCTX_CNT
    ⟨0x48, 1, 0x4, .ct, 0x0, 0x0, false⟩,
    -- HIF_RX_TOOLONG_CNT
    ⟨0x4C, 1, 0x4, .ct, 0x0, 0x0, false⟩,
    -- HIF_CQ_FULL_CNT
    ⟨0x50, 1, 0x4, .ct, 0x0, 0x0, false⟩,
    -- HIF_RD_ERR_CNT
    ⟨0x54, 1, 0x4, .ct, 0x0, 0x0, false⟩,
    -- HIF_IMG_SHORT_CNT
    ⟨0x58, 1, 0x4, .ct, 0x0, 0x0, false⟩,
    -- HIF_CREDIT_STALL_CNT
    ⟨0x5C, 1, 0x4, .ct, 0x0, 0x0, false⟩
  ]
  ++ [
    -- HIF_RX_DEFAULT
    ⟨0x60, 1, 0x4, .cf, 0x1FF01FF, 0x0, false⟩,
    -- HIF_BLKVECk
    ⟨0x80, 3, 0x4, .cf, 0xFFFFFFFF, 0x0, false⟩,
    -- HIF_CTX_ONi
    ⟨0x100, 8, 0x4, .st, 0x0, 0x0, false⟩
  ]

/-- Registers of ETH from offset 0x20 up (R194, Table ETH-5). -/
def rowsEth : List RegRow :=
  [
    -- ETH_MODE
    ⟨0x20, 1, 0x4, .cf, 0x1B37F, 0x0, false⟩,
    -- ETH_MAXLEN
    ⟨0x24, 1, 0x4, .cf, 0x3FFF, 0x5F2, false⟩,
    -- ETH_MAC_ADDR_LO
    ⟨0x28, 1, 0x4, .cf, 0xFFFFFFFF, 0x0, false⟩,
    -- ETH_MAC_ADDR_HI
    ⟨0x2C, 1, 0x4, .cf, 0xFFFF, 0x0, false⟩,
    -- ETH_LINK
    ⟨0x30, 1, 0x4, .st, 0x0, 0x0, false⟩,
    -- ETH_FILT
    ⟨0x34, 1, 0x4, .rw, 0x1, 0x0, false⟩,
    -- ETH_TSQ_W0
    ⟨0x40, 1, 0x4, .st, 0x0, 0x0, false⟩,
    -- ETH_TSQ_W1
    ⟨0x44, 1, 0x4, .sh, 0x0, 0x0, false⟩,
    -- ETH_TSQ_W2
    ⟨0x48, 1, 0x4, .sh, 0x0, 0x0, false⟩,
    -- ETH_TSQ_W3
    ⟨0x4C, 1, 0x4, .sh, 0x0, 0x0, false⟩,
    -- ETH_TSQ_LEVEL
    ⟨0x50, 1, 0x4, .st, 0x0, 0x0, false⟩,
    -- ETH_TSQ_DROP_CNT
    ⟨0x54, 1, 0x4, .ct, 0x0, 0x0, false⟩,
    -- ETH_INT_EN
    ⟨0x58, 1, 0x4, .rw, 0xFFFFFE, 0x0, false⟩,
    -- ETH_PFC_CFG
    ⟨0x60, 1, 0x4, .cf, 0xFFFF, 0x0, false⟩,
    -- ETH_PFC_TIME
    ⟨0x64, 1, 0x4, .cf, 0xFFFFFFFF, 0x8000FFFF, false⟩,
    -- ETH_PFC_XOFFp
    ⟨0x80, 8, 0x10, .cf, 0x7FFFF, 0x0, false⟩
  ]
  ++ [
    -- ETH_PFC_XONp
    ⟨0x84, 8, 0x10, .cf, 0x7FFFF, 0x0, false⟩,
    -- ETH_PFC_LIMITp
    ⟨0x88, 8, 0x10, .cf, 0x7FFFF, 0x40000, false⟩,
    -- ETH_PFC_USEp
    ⟨0x8C, 8, 0x10, .st, 0x0, 0x0, false⟩,
    -- ETH_RX_FRAMES_LO
    ⟨0x100, 1, 0x4, .ct, 0x0, 0x0, false⟩,
    -- ETH_RX_FRAMES_HI
    ⟨0x104, 1, 0x4, .sh, 0x0, 0x0, false⟩,
    -- ETH_RX_BYTES_LO
    ⟨0x108, 1, 0x4, .ct, 0x0, 0x0, false⟩,
    -- ETH_RX_BYTES_HI
    ⟨0x10C, 1, 0x4, .sh, 0x0, 0x0, false⟩,
    -- ETH_TX_FRAMES_LO
    ⟨0x110, 1, 0x4, .ct, 0x0, 0x0, false⟩,
    -- ETH_TX_FRAMES_HI
    ⟨0x114, 1, 0x4, .sh, 0x0, 0x0, false⟩,
    -- ETH_TX_BYTES_LO
    ⟨0x118, 1, 0x4, .ct, 0x0, 0x0, false⟩,
    -- ETH_TX_BYTES_HI
    ⟨0x11C, 1, 0x4, .sh, 0x0, 0x0, false⟩,
    -- ETH_RX_FCS_CNT
    ⟨0x120, 1, 0x4, .ct, 0x0, 0x0, false⟩,
    -- ETH_RX_RUNT_CNT
    ⟨0x124, 1, 0x4, .ct, 0x0, 0x0, false⟩,
    -- ETH_RX_LONG_CNT
    ⟨0x128, 1, 0x4, .ct, 0x0, 0x0, false⟩,
    -- ETH_RX_CODE_CNT
    ⟨0x12C, 1, 0x4, .ct, 0x0, 0x0, false⟩,
    -- ETH_RX_FILT_CNT
    ⟨0x130, 1, 0x4, .ct, 0x0, 0x0, false⟩
  ]
  ++ [
    -- ETH_RX_MACCTL_IGN_CNT
    ⟨0x134, 1, 0x4, .ct, 0x0, 0x0, false⟩,
    -- ETH_RX_PFC_CNT
    ⟨0x138, 1, 0x4, .ct, 0x0, 0x0, false⟩,
    -- ETH_TX_PFC_CNT
    ⟨0x13C, 1, 0x4, .ct, 0x0, 0x0, false⟩,
    -- ETH_RX_PFC_IGN_CNT
    ⟨0x140, 1, 0x4, .ct, 0x0, 0x0, false⟩,
    -- ETH_RX_PFC_DROP_CNT
    ⟨0x144, 1, 0x4, .ct, 0x0, 0x0, false⟩,
    -- ETH_TX_ABORT_CNT
    ⟨0x148, 1, 0x4, .ct, 0x0, 0x0, false⟩,
    -- ETH_LINK_DOWN_CNT
    ⟨0x14C, 1, 0x4, .ct, 0x0, 0x0, false⟩,
    -- ETH_RX_HOLD_CNT
    ⟨0x150, 1, 0x4, .ct, 0x0, 0x0, false⟩,
    -- ETH_TSO_SKIP_CNT
    ⟨0x154, 1, 0x4, .ct, 0x0, 0x0, false⟩,
    -- ETH_MSEC_CFG
    ⟨0x200, 1, 0x4, .cf, 0xF1F, 0x0, true⟩,
    -- ETH_MSEC_REPLAY_WIN
    ⟨0x204, 1, 0x4, .cf, 0x3FFFFFFF, 0x0, true⟩,
    -- ETH_MSEC_BYPASS
    ⟨0x208, 1, 0x4, .cf, 0xFFFFFFFF, 0x0, true⟩,
    -- ETH_MSEC_TXSA
    ⟨0x20C, 1, 0x4, .rw, 0x3, 0x0, true⟩,
    -- ETH_MSEC_ICV_FAIL_CNT
    ⟨0x220, 1, 0x4, .ct, 0x0, 0x0, true⟩,
    -- ETH_MSEC_UNTAGGED_CNT
    ⟨0x224, 1, 0x4, .ct, 0x0, 0x0, true⟩,
    -- ETH_MSEC_REPLAY_CNT
    ⟨0x228, 1, 0x4, .ct, 0x0, 0x0, true⟩
  ]
  ++ [
    -- ETH_MSEC_NOSA_CNT
    ⟨0x22C, 1, 0x4, .ct, 0x0, 0x0, true⟩,
    -- ETH_MSEC_TX_EXH_CNT
    ⟨0x230, 1, 0x4, .ct, 0x0, 0x0, true⟩,
    -- ETH_MDIO_CFG
    ⟨0x300, 1, 0x4, .rw, 0x1FF, 0x63, false⟩,
    -- ETH_MDIO_CMD
    ⟨0x304, 1, 0x4, .special, 0x0, 0x0, false⟩,
    -- ETH_MDIO_RDATA
    ⟨0x308, 1, 0x4, .st, 0x0, 0x0, false⟩
  ]

/-- Registers of SWC from offset 0x20 up (R219, Table SWC-11). -/
def rowsSwc : List RegRow :=
  [
    -- SWC_SLICE_MAP
    ⟨0x20, 1, 0x4, .cf, 0x3FFFFF, 0x2AAAAA, false⟩,
    -- SWC_AGE_TIME
    ⟨0x24, 1, 0x4, .cf, 0xFFFF, 0x12C, false⟩,
    -- SWC_TPID
    ⟨0x28, 1, 0x4, .cf, 0xFFFF, 0x88A8, false⟩,
    -- SWC_FLOOD
    ⟨0x2C, 1, 0x4, .cf, 0x3FFFFF, 0x3FFFFF, false⟩,
    -- SWC_MC_FLOOD
    ⟨0x30, 1, 0x4, .cf, 0x3FFFFF, 0x3FFFFF, false⟩,
    -- SWC_INT_EN
    ⟨0x34, 1, 0x4, .rw, 0x1E, 0x0, false⟩,
    -- SWC_SMP_BASE_LO
    ⟨0x40, 1, 0x4, .cf, 0xFFFFFFC0, 0x0, false⟩,
    -- SWC_SMP_BASE_HI
    ⟨0x44, 1, 0x4, .cf, 0xFFFFFFFF, 0x0, false⟩,
    -- SWC_SMP_CFG
    ⟨0x48, 1, 0x4, .cf, 0x11F, 0x4, false⟩,
    -- SWC_SMP_PI
    ⟨0x4C, 1, 0x4, .pi, 0x0, 0x0, false⟩,
    -- SWC_SMP_CI
    ⟨0x50, 1, 0x4, .ci, 0xFFFF, 0x0, false⟩,
    -- SWC_LEARN_FULL_CNT
    ⟨0x60, 1, 0x4, .ct, 0x0, 0x0, false⟩,
    -- SWC_MOVE_CNT
    ⟨0x64, 1, 0x4, .ct, 0x0, 0x0, false⟩,
    -- SWC_ELIM_CNT
    ⟨0x68, 1, 0x4, .ct, 0x0, 0x0, false⟩,
    -- SWC_ECN_MARK_CNT
    ⟨0x6C, 1, 0x4, .ct, 0x0, 0x0, false⟩,
    -- SWC_CT_CNT
    ⟨0x70, 1, 0x4, .ct, 0x0, 0x0, false⟩
  ]
  ++ [
    -- SWC_SMP_DROP_CNT
    ⟨0x74, 1, 0x4, .ct, 0x0, 0x0, false⟩,
    -- SWC_SMP_MERGE_CNT
    ⟨0x78, 1, 0x4, .ct, 0x0, 0x0, false⟩,
    -- SWC_WIN_LATE_CNT
    ⟨0x7C, 1, 0x4, .ct, 0x0, 0x0, false⟩,
    -- SWC_Pn_GATE_CTRL
    ⟨0x100, 8, 0x20, .special, 0x3, 0x0, false⟩,
    -- SWC_Pn_GATE_LEN
    ⟨0x104, 8, 0x20, .rw, 0x1FF, 0x100, false⟩,
    -- SWC_Pn_GATE_STATUS
    ⟨0x108, 8, 0x20, .st, 0x0, 0x0, false⟩,
    -- SWC_Pn_PMAC_CFG
    ⟨0x10C, 8, 0x20, .cf, 0x3, 0x0, false⟩,
    -- SWC_Pn_GCL_OVR_CNT
    ⟨0x110, 8, 0x20, .ct, 0x0, 0x0, false⟩,
    -- SWC_Pn_PREEMPT_CNT
    ⟨0x114, 8, 0x20, .ct, 0x0, 0x0, false⟩,
    -- SWC_Pn_REASM_ERR_CNT
    ⟨0x118, 8, 0x20, .ct, 0x0, 0x0, false⟩,
    -- SWC_Pn_GATE_OPLEN
    ⟨0x11C, 8, 0x20, .st, 0x0, 0x1, false⟩
  ]

/-- Registers of BFM from offset 0x20 up (R220, Table BFM-1). -/
def rowsBfm : List RegRow :=
  [
    -- BFM_IPB_FREE
    ⟨0x20, 1, 0x4, .st, 0x0, 0x40000, false⟩,
    -- BFM_EXP_FREE
    ⟨0x24, 1, 0x4, .st, 0x0, 0x4000, false⟩,
    -- BFM_EXP_RSV
    ⟨0x28, 1, 0x4, .cf, 0x7FFF, 0x2000, false⟩,
    -- BFM_BE_FLOOR
    ⟨0x2C, 1, 0x4, .cf, 0x7FFFF, 0x4000, false⟩,
    -- BFM_DIE_UE_LIMIT
    ⟨0x30, 1, 0x4, .cf, 0xFF, 0x10, false⟩,
    -- BFM_CMD
    ⟨0x34, 1, 0x4, .special, 0x3, 0x0, true⟩,
    -- BFM_INT_EN
    ⟨0x38, 1, 0x4, .rw, 0x3E, 0x0, false⟩,
    -- BFM_CE_CNT
    ⟨0x40, 1, 0x4, .ct, 0x0, 0x0, false⟩,
    -- BFM_UE_CNT
    ⟨0x44, 1, 0x4, .ct, 0x0, 0x0, false⟩,
    -- BFM_EXP_CE_CNT
    ⟨0x48, 1, 0x4, .ct, 0x0, 0x0, false⟩,
    -- BFM_EXP_UE_CNT
    ⟨0x4C, 1, 0x4, .ct, 0x0, 0x0, false⟩,
    -- BFM_CT_FB_CNT
    ⟨0x50, 1, 0x4, .ct, 0x0, 0x0, false⟩
  ]

/-- Registers of NRG from offset 0x20 up (R259, Tables NRG-7 and NRG-9). -/
def rowsNrg : List RegRow :=
  [
    -- NRG_ETYPE
    ⟨0x20, 1, 0x4, .cf, 0xFFFF, 0x88B5, false⟩,
    -- NRG_INT_EN
    ⟨0x24, 1, 0x4, .rw, 0x1FFE, 0x0, false⟩,
    -- NRG_HUB_CFG
    ⟨0x300, 1, 0x4, .cf, 0x81FF0700, 0x0, false⟩,
    -- NRG_HUB_Ln_CUT_CNT
    ⟨0x320, 8, 0x8, .ct, 0x0, 0x0, false⟩,
    -- NRG_HUB_Ln_BLOCK_CNT
    ⟨0x324, 8, 0x8, .ct, 0x0, 0x0, false⟩,
    -- NRG_RINGr_CFG
    ⟨0x100, 2, 0x100, .cf, 0xE7777FFF, 0x0, false⟩,
    -- NRG_RINGr_PERIOD
    ⟨0x104, 2, 0x100, .cf, 0x7FFFFF, 0xF424, false⟩,
    -- NRG_RINGr_SEND_PHASE
    ⟨0x108, 2, 0x100, .cf, 0x7FFFFF, 0x0, false⟩,
    -- NRG_RINGr_NODES
    ⟨0x10C, 2, 0x100, .cf, 0xFF, 0x2, false⟩,
    -- NRG_RINGr_CLAIM
    ⟨0x110, 2, 0x100, .cf, 0xFF, 0x80, false⟩,
    -- NRG_RINGr_GUARD
    ⟨0x114, 2, 0x100, .cf, 0x3FF, 0x40, false⟩,
    -- NRG_RINGr_SLOT_START
    ⟨0x118, 2, 0x100, .cf, 0x7FFFFF, 0x0, false⟩,
    -- NRG_RINGr_SLOT_END
    ⟨0x11C, 2, 0x100, .cf, 0x7FFFFF, 0x0, false⟩,
    -- NRG_RINGr_HEAL
    ⟨0x120, 2, 0x100, .cf, 0xFF, 0x10, false⟩,
    -- NRG_RINGr_STAR_LEAD
    ⟨0x124, 2, 0x100, .cf, 0x7FFFFF, 0x2710, false⟩,
    -- NRG_RINGr_DLY_A
    ⟨0x128, 2, 0x100, .rw, 0xFFFFF, 0x0, false⟩
  ]
  ++ [
    -- NRG_RINGr_DLY_B
    ⟨0x12C, 2, 0x100, .rw, 0xFFFFF, 0x0, false⟩,
    -- NRG_RINGr_DLY_S
    ⟨0x130, 2, 0x100, .rw, 0xFFFFF, 0x0, false⟩,
    -- NRG_RINGr_KEYSEL
    ⟨0x134, 2, 0x100, .rw, 0x1, 0x0, true⟩,
    -- NRG_RINGr_CMD
    ⟨0x138, 2, 0x100, .special, 0x3, 0x0, false⟩,
    -- NRG_RINGr_STATE
    ⟨0x140, 2, 0x100, .st, 0x0, 0x0, false⟩,
    -- NRG_RINGr_CYC
    ⟨0x144, 2, 0x100, .st, 0x0, 0x0, false⟩,
    -- NRG_RINGr_OFFSET
    ⟨0x148, 2, 0x100, .st, 0x0, 0x0, false⟩,
    -- NRG_RINGr_CFG_HASH
    ⟨0x14C, 2, 0x100, .st, 0x0, 0x0, false⟩,
    -- NRG_RINGr_CUT_CNT
    ⟨0x150, 2, 0x100, .ct, 0x0, 0x0, false⟩,
    -- NRG_RINGr_BLOCK_CNT
    ⟨0x154, 2, 0x100, .ct, 0x0, 0x0, false⟩,
    -- NRG_RINGr_TURN_CNT
    ⟨0x158, 2, 0x100, .ct, 0x0, 0x0, false⟩,
    -- NRG_RINGr_FRAG_CNT
    ⟨0x15C, 2, 0x100, .ct, 0x0, 0x0, false⟩,
    -- NRG_RINGr_LOS_CNT
    ⟨0x160, 2, 0x100, .ct, 0x0, 0x0, false⟩,
    -- NRG_RINGr_ABORT_CNT
    ⟨0x164, 2, 0x100, .ct, 0x0, 0x0, false⟩,
    -- NRG_RINGr_FAUTH_CNT
    ⟨0x168, 2, 0x100, .ct, 0x0, 0x0, false⟩,
    -- NRG_RINGr_WAUTH_CNT
    ⟨0x16C, 2, 0x100, .ct, 0x0, 0x0, false⟩
  ]
  ++ [
    -- NRG_RINGr_WMISS_CNT
    ⟨0x170, 2, 0x100, .ct, 0x0, 0x0, false⟩,
    -- NRG_RINGr_WLATE_CNT
    ⟨0x174, 2, 0x100, .ct, 0x0, 0x0, false⟩,
    -- NRG_RINGr_MISMATCH_CNT
    ⟨0x178, 2, 0x100, .ct, 0x0, 0x0, false⟩,
    -- NRG_RINGr_LISTEN_CNT
    ⟨0x17C, 2, 0x100, .ct, 0x0, 0x0, false⟩,
    -- NRG_RINGr_CLAIM_LOST_CNT
    ⟨0x180, 2, 0x100, .ct, 0x0, 0x0, false⟩,
    -- NRG_RINGr_CLAIM_IGN_CNT
    ⟨0x184, 2, 0x100, .ct, 0x0, 0x0, false⟩,
    -- NRG_RINGr_DEFER_CNT
    ⟨0x188, 2, 0x100, .ct, 0x0, 0x0, false⟩,
    -- NRG_RINGr_PLANE_CNT
    ⟨0x18C, 2, 0x100, .ct, 0x0, 0x0, false⟩
  ]

/-- Registers of CAN from offset 0x20 up (R276, Table CAN-5). -/
def rowsCan : List RegRow :=
  [
    -- CAN_CFG
    ⟨0x20, 1, 0x4, .cf, 0xEF00003F, 0x80000000, false⟩,
    -- CAN_NBT
    ⟨0x24, 1, 0x4, .cf, 0xFFFF7F7F, 0x13E0F0F, false⟩,
    -- CAN_DBT
    ⟨0x28, 1, 0x4, .cf, 0xFFFF7F7F, 0x1C0909, false⟩,
    -- CAN_TDC
    ⟨0x2C, 1, 0x4, .cf, 0x8000007F, 0x0, false⟩,
    -- CAN_TDCV
    ⟨0x30, 1, 0x4, .st, 0x0, 0x0, false⟩,
    -- CAN_TT_PERIOD
    ⟨0x34, 1, 0x4, .cf, 0x7FFFFF, 0x2710, false⟩,
    -- CAN_TT_PHASE
    ⟨0x38, 1, 0x4, .cf, 0x7FFFFF, 0x0, false⟩,
    -- CAN_TT_REF
    ⟨0x3C, 1, 0x4, .cf, 0x9FFFFFFF, 0x0, false⟩,
    -- CAN_TT_WIN
    ⟨0x40, 1, 0x4, .cf, 0xFFFF, 0x7D0, false⟩,
    -- CAN_TT_STATE
    ⟨0x44, 1, 0x4, .st, 0x0, 0x0, false⟩,
    -- CAN_ERRCNT
    ⟨0x48, 1, 0x4, .st, 0x0, 0x0, false⟩,
    -- CAN_BUSOFF_PROG
    ⟨0x4C, 1, 0x4, .st, 0x0, 0x0, false⟩,
    -- CAN_INT_EN
    ⟨0x50, 1, 0x4, .rw, 0x7E, 0x0, false⟩,
    -- CAN_GW_DST_LO
    ⟨0x54, 1, 0x4, .cf, 0xFFFFFFFF, 0x0, false⟩,
    -- CAN_GW_DST_HI
    ⟨0x58, 1, 0x4, .cf, 0xFFFF, 0x0, false⟩,
    -- CAN_GW_OWN_LO
    ⟨0x5C, 1, 0x4, .cf, 0xFFFFFFFF, 0x0, false⟩
  ]
  ++ [
    -- CAN_GW_OWN_HI
    ⟨0x60, 1, 0x4, .cf, 0xFFFF, 0x0, false⟩,
    -- CAN_GW_ETYPE
    ⟨0x64, 1, 0x4, .cf, 0xFFFF, 0x88B6, false⟩,
    -- CAN_TXEV_W0
    ⟨0x70, 1, 0x4, .st, 0x0, 0x0, false⟩,
    -- CAN_TXEV_W1
    ⟨0x74, 1, 0x4, .sh, 0x0, 0x0, false⟩,
    -- CAN_TXEV_LEVEL
    ⟨0x78, 1, 0x4, .st, 0x0, 0x0, false⟩,
    -- CAN_RX_FRAMES_CNT
    ⟨0x80, 1, 0x4, .ct, 0x0, 0x0, false⟩,
    -- CAN_RX_NOOBJ_CNT
    ⟨0x84, 1, 0x4, .ct, 0x0, 0x0, false⟩,
    -- CAN_RX_RTR_CNT
    ⟨0x88, 1, 0x4, .ct, 0x0, 0x0, false⟩,
    -- CAN_MSG_LOST_CNT
    ⟨0x8C, 1, 0x4, .ct, 0x0, 0x0, false⟩,
    -- CAN_TX_OK_CNT
    ⟨0x90, 1, 0x4, .ct, 0x0, 0x0, false⟩,
    -- CAN_TX_FAIL_CNT
    ⟨0x94, 1, 0x4, .ct, 0x0, 0x0, false⟩,
    -- CAN_IDCOLL_CNT
    ⟨0x98, 1, 0x4, .ct, 0x0, 0x0, false⟩,
    -- CAN_TX_ARBLOST_CNT
    ⟨0x9C, 1, 0x4, .ct, 0x0, 0x0, false⟩,
    -- CAN_TX_EMPTY_CNT
    ⟨0xA0, 1, 0x4, .ct, 0x0, 0x0, false⟩,
    -- CAN_TT_REFMISS_CNT
    ⟨0xA4, 1, 0x4, .ct, 0x0, 0x0, false⟩,
    -- CAN_TT_EXCL_VIOL_CNT
    ⟨0xA8, 1, 0x4, .ct, 0x0, 0x0, false⟩
  ]
  ++ [
    -- CAN_BUSOFF_CNT
    ⟨0xAC, 1, 0x4, .ct, 0x0, 0x0, false⟩,
    -- CAN_PEX_CNT
    ⟨0xB0, 1, 0x4, .ct, 0x0, 0x0, false⟩,
    -- CAN_ERR_BIT_CNT
    ⟨0xB4, 1, 0x4, .ct, 0x0, 0x0, false⟩,
    -- CAN_ERR_STUFF_CNT
    ⟨0xB8, 1, 0x4, .ct, 0x0, 0x0, false⟩,
    -- CAN_ERR_FORM_CNT
    ⟨0xBC, 1, 0x4, .ct, 0x0, 0x0, false⟩,
    -- CAN_ERR_ACK_CNT
    ⟨0xC0, 1, 0x4, .ct, 0x0, 0x0, false⟩,
    -- CAN_ERR_CRC_CNT
    ⟨0xC4, 1, 0x4, .ct, 0x0, 0x0, false⟩,
    -- CAN_TDC_SAT_CNT
    ⟨0xC8, 1, 0x4, .ct, 0x0, 0x0, false⟩,
    -- CAN_TXEV_DROP_CNT
    ⟨0xCC, 1, 0x4, .ct, 0x0, 0x0, false⟩,
    -- CAN_GW_DROP_CNT
    ⟨0xD0, 1, 0x4, .ct, 0x0, 0x0, false⟩
  ]

/-- Registers of PSQ from offset 0x20 up (R291, Tables PSQ-3 and PSQ-5). -/
def rowsPsq : List RegRow :=
  [
    -- PSQ_CMD
    ⟨0x20, 1, 0x4, .special, 0x3, 0x0, true⟩,
    -- PSQ_BANK
    ⟨0x24, 1, 0x4, .st, 0x0, 0x0, false⟩,
    -- PSQ_IOBANK
    ⟨0x28, 1, 0x4, .st, 0x0, 0x0, false⟩,
    -- PSQ_INT_EN
    ⟨0x2C, 1, 0x4, .rw, 0xE, 0x0, false⟩,
    -- PSQ_RXNEe
    ⟨0x30, 2, 0x4, .st, 0x0, 0x0, false⟩,
    -- PSQ_RXNE_ENe
    ⟨0x38, 2, 0x4, .rw, 0xFFFFFFFF, 0x0, false⟩,
    -- PSQ_FAULTEDe
    ⟨0x40, 2, 0x4, .st, 0x0, 0x0, false⟩,
    -- PSQ_MFPm
    ⟨0x100, 96, 0x4, .special, 0x0, 0x8, false⟩,
    -- PSQ_CHc_CFG
    ⟨0x1000, 64, 0x80, .special, 0x0, 0x19, false⟩,
    -- PSQ_CHc_ENTRY
    ⟨0x1004, 64, 0x80, .special, 0x3FF, 0x0, false⟩,
    -- PSQ_CHc_CTRL
    ⟨0x1008, 64, 0x80, .special, 0x3, 0x0, false⟩,
    -- PSQ_CHc_PC
    ⟨0x100C, 64, 0x80, .st, 0x0, 0x0, false⟩,
    -- PSQ_CHc_X
    ⟨0x1010, 64, 0x80, .special, 0xFFFFFFFF, 0x0, false⟩,
    -- PSQ_CHc_Y
    ⟨0x1014, 64, 0x80, .special, 0xFFFFFFFF, 0x0, false⟩,
    -- PSQ_CHc_STAMP
    ⟨0x1018, 64, 0x80, .special, 0xFFFFFFFF, 0x0, false⟩,
    -- PSQ_CHc_OSR
    ⟨0x101C, 64, 0x80, .st, 0x0, 0x0, false⟩
  ]
  ++ [
    -- PSQ_CHc_ISR
    ⟨0x1020, 64, 0x80, .st, 0x0, 0x0, false⟩,
    -- PSQ_CHc_BITS
    ⟨0x1024, 64, 0x80, .st, 0x0, 0x0, false⟩,
    -- PSQ_CHc_PINMAP0
    ⟨0x1028, 64, 0x80, .special, 0xFFFFFFFF, 0x0, false⟩,
    -- PSQ_CHc_PINMAP1
    ⟨0x102C, 64, 0x80, .special, 0xFFFFFFFF, 0x0, false⟩,
    -- PSQ_CHc_PINS
    ⟨0x1030, 64, 0x80, .st, 0x0, 0x0, false⟩,
    -- PSQ_CHc_TXQ
    ⟨0x1034, 64, 0x80, .special, 0xFFFFFFFF, 0x0, false⟩,
    -- PSQ_CHc_RXQ
    ⟨0x1038, 64, 0x80, .st, 0x0, 0x0, false⟩,
    -- PSQ_CHc_QLEVEL
    ⟨0x103C, 64, 0x80, .st, 0x0, 0x0, false⟩,
    -- PSQ_CHc_LATE_CNT
    ⟨0x1040, 64, 0x80, .ct, 0x0, 0x0, false⟩,
    -- PSQ_CHc_STALL_CNT
    ⟨0x1044, 64, 0x80, .ct, 0x0, 0x0, false⟩,
    -- PSQ_CHc_EVOVR_CNT
    ⟨0x1048, 64, 0x80, .ct, 0x0, 0x0, false⟩,
    -- PSQ_CHc_TXQ_DROP_CNT
    ⟨0x104C, 64, 0x80, .ct, 0x0, 0x0, false⟩,
    -- PSQ_CHc_RXQ_EMPTY_CNT
    ⟨0x1050, 64, 0x80, .ct, 0x0, 0x0, false⟩,
    -- PSQ_CHc_PINREJ_CNT
    ⟨0x1054, 64, 0x80, .ct, 0x0, 0x0, false⟩
  ]

/-- Registers of PEC from offset 0x20 up (R124, Table PEC-9). -/
def rowsPec : List RegRow :=
  [
    -- PEC_STATE
    ⟨0x20, 1, 0x4, .st, 0x0, 0xFF00, false⟩,
    -- PEC_IMEM
    ⟨0x24, 1, 0x4, .special, 0x1, 0x0, true⟩,
    -- PEC_WDOG
    ⟨0x28, 1, 0x4, .rw, 0xFFFFFF, 0xFFFFFF, true⟩,
    -- PEC_KSTART_CNT
    ⟨0x2C, 1, 0x4, .ct, 0x0, 0x0, false⟩,
    -- PEC_KLAST
    ⟨0x30, 1, 0x4, .st, 0x0, 0x0, false⟩,
    -- PEC_KMAX
    ⟨0x34, 1, 0x4, .st, 0x0, 0x0, false⟩,
    -- PEC_CMD
    ⟨0x38, 1, 0x4, .special, 0x1, 0x0, false⟩,
    -- PEC_KOVR_CNT
    ⟨0x3C, 1, 0x4, .ct, 0x0, 0x0, false⟩,
    -- PEC_RETRY_CNT
    ⟨0x40, 1, 0x4, .ct, 0x0, 0x0, false⟩,
    -- PEC_ECC_CE_CNT
    ⟨0x44, 1, 0x4, .ct, 0x0, 0x0, false⟩,
    -- PEC_COLLIDE_CNT
    ⟨0x48, 1, 0x4, .ct, 0x0, 0x0, false⟩,
    -- PEC_FAULT
    ⟨0x4C, 1, 0x4, .st, 0x0, 0x0, false⟩,
    -- PEC_INT_EN
    ⟨0x50, 1, 0x4, .rw, 0x1E, 0x0, false⟩,
    -- PEC_TTU_GRANT
    ⟨0x54, 1, 0x4, .rw, 0xFFFFFF, 0x0, true⟩,
    -- PEC_TCU_GRANT
    ⟨0x58, 1, 0x4, .rw, 0xFFFF, 0x0, true⟩,
    -- PEC_WDECL
    ⟨0x5C, 1, 0x4, .rw, 0xFFFFFF, 0x0, true⟩
  ]
  ++ [
    -- PEC_DBG_CTRL
    ⟨0x60, 1, 0x4, .special, 0xF0007, 0x0, false⟩,
    -- PEC_DBG_STATUS
    ⟨0x64, 1, 0x4, .st, 0x0, 0x0, false⟩,
    -- PEC_DBG_PC
    ⟨0x68, 1, 0x4, .st, 0x0, 0x0, false⟩,
    -- PEC_BPb
    ⟨0x70, 4, 0x4, .special, 0x80000FFF, 0x0, false⟩
  ]

/-- Registers of MBX from offset 0x20 up (R365, Table MBX-5). -/
def rowsMbx : List RegRow :=
  [
    -- MBX_CMD
    ⟨0x20, 1, 0x4, .special, 0x8000003F, 0x0, false⟩,
    -- MBX_INT_EN
    ⟨0x24, 1, 0x4, .rw, 0x6, 0x0, false⟩,
    -- MBX_FULLi
    ⟨0x28, 2, 0x4, .st, 0x0, 0x0, false⟩,
    -- MBX_FULL_ENi
    ⟨0x30, 2, 0x4, .rw, 0xFFFFFFFF, 0x0, false⟩,
    -- MBX_NOTICEi
    ⟨0x38, 2, 0x4, .st, 0x0, 0x0, false⟩,
    -- MBX_POST_CNT
    ⟨0x40, 1, 0x4, .ct, 0x0, 0x0, false⟩,
    -- MBX_SEND_REJ_CNT
    ⟨0x44, 1, 0x4, .ct, 0x0, 0x0, false⟩,
    -- MBX_ABORT_CNT
    ⟨0x48, 1, 0x4, .ct, 0x0, 0x0, false⟩,
    -- MBX_ACC_ERR_CNT
    ⟨0x4C, 1, 0x4, .ct, 0x0, 0x0, false⟩,
    -- MBX_CFGm
    ⟨0x100, 64, 0x4, .special, 0xFFFF, 0x0, true⟩,
    -- MBX_m_Ww
    ⟨0x1000, 1024, 0x4, .special, 0xFFFFFFFF, 0x0, false⟩
  ]

/-- Registers of MEM from offset 0x20 up (R366, Table MEM-3). -/
def rowsMem : List RegRow :=
  [
    -- MEM_SKM_INTERVAL
    ⟨0x20, 1, 0x4, .cf, 0xFFFF, 0x40, false⟩,
    -- MEM_SKM_POS
    ⟨0x24, 1, 0x4, .st, 0x0, 0x0, false⟩,
    -- MEM_SKM_PASS_CNT
    ⟨0x28, 1, 0x4, .ct, 0x0, 0x0, false⟩,
    -- MEM_SKM_FAIL_CNT
    ⟨0x2C, 1, 0x4, .ct, 0x0, 0x0, false⟩,
    -- MEM_REPAIR_CNT
    ⟨0x30, 1, 0x4, .ct, 0x0, 0x0, false⟩,
    -- MEM_CE_CNT
    ⟨0x34, 1, 0x4, .ct, 0x0, 0x0, false⟩,
    -- MEM_UE_CNT
    ⟨0x38, 1, 0x4, .ct, 0x0, 0x0, false⟩,
    -- MEM_NONOWN_CNT
    ⟨0x3C, 1, 0x4, .ct, 0x0, 0x0, false⟩,
    -- MEM_NONOWN_LAST
    ⟨0x40, 1, 0x4, .st, 0x0, 0x0, false⟩,
    -- MEM_INT_EN
    ⟨0x44, 1, 0x4, .rw, 0x2, 0x0, false⟩,
    -- MEM_BANK_OWNERb
    ⟨0x100, 112, 0x4, .special, 0x0, 0x0, false⟩
  ]

/-- Registers of XPB from offset 0x20 up (R337, Table XPB-5). -/
def rowsXpb : List RegRow :=
  [
    -- XPB_CFG
    ⟨0x20, 1, 0x4, .cf, 0xE0FF0F00, 0xA0200, false⟩,
    -- XPB_TIMEOUT
    ⟨0x24, 1, 0x4, .cf, 0xFFFF, 0x100, false⟩,
    -- XPB_GW_OWN_LO
    ⟨0x28, 1, 0x4, .cf, 0xFFFFFFFF, 0x0, false⟩,
    -- XPB_GW_OWN_HI
    ⟨0x2C, 1, 0x4, .cf, 0xFFFF, 0x0, false⟩,
    -- XPB_GW_ETYPE
    ⟨0x30, 1, 0x4, .cf, 0xFFFF, 0x88B7, false⟩,
    -- XPB_INT_EN
    ⟨0x34, 1, 0x4, .rw, 0x1E, 0x0, false⟩,
    -- XPB_XIRQ_EN
    ⟨0x38, 1, 0x4, .rw, 0x3FFFF, 0x0, false⟩,
    -- XPB_POLL_ACT
    ⟨0x3C, 1, 0x4, .st, 0x0, 0x0, false⟩,
    -- XPB_POLL_EN
    ⟨0x40, 1, 0x4, .rw, 0xFFFF, 0x0, false⟩,
    -- XPB_PEL_PI
    ⟨0x44, 1, 0x4, .pi, 0x0, 0x0, false⟩,
    -- XPB_PEL_CI
    ⟨0x48, 1, 0x4, .ci, 0x3F, 0x0, false⟩,
    -- XPB_TXN_CNT
    ⟨0x50, 1, 0x4, .ct, 0x0, 0x0, false⟩,
    -- XPB_TIMEOUT_CNT
    ⟨0x54, 1, 0x4, .ct, 0x0, 0x0, false⟩,
    -- XPB_ERRRESP_CNT
    ⟨0x58, 1, 0x4, .ct, 0x0, 0x0, false⟩,
    -- XPB_BACKOFF_CNT
    ⟨0x5C, 1, 0x4, .ct, 0x0, 0x0, false⟩,
    -- XPB_QFULL_CNT
    ⟨0x60, 1, 0x4, .ct, 0x0, 0x0, false⟩
  ]
  ++ [
    -- XPB_PEL_DROP_CNT
    ⟨0x64, 1, 0x4, .ct, 0x0, 0x0, false⟩,
    -- XPB_GW_DROP_CNT
    ⟨0x68, 1, 0x4, .ct, 0x0, 0x0, false⟩
  ]

/-- Registers of SGM from offset 0x20 up (R338, Table SGM-3). -/
def rowsSgm : List RegRow :=
  [
    -- SGM_INT_EN
    ⟨0x20, 1, 0x4, .rw, 0x2, 0x0, false⟩,
    -- SGM_OVW_CNT
    ⟨0x24, 1, 0x4, .ct, 0x0, 0x0, false⟩,
    -- SGM_ERR_CNT
    ⟨0x28, 1, 0x4, .ct, 0x0, 0x0, false⟩
  ]

/-- Registers of SEC from offset 0x20 up (R395, Table SEC-12). -/
def rowsSec : List RegRow :=
  [
    -- SEC_OWNER_SLOTS
    ⟨0x20, 1, 0x4, .st, 0x0, 0x0, false⟩,
    -- SEC_INT_EN
    ⟨0x24, 1, 0x4, .rw, 0xE, 0x0, false⟩,
    -- SEC_ROLLBACKn
    ⟨0x40, 16, 0x4, .st, 0x0, 0x0, false⟩,
    -- SEC_AUTH_FAIL_CNT
    ⟨0x80, 1, 0x4, .ct, 0x0, 0x0, false⟩,
    -- SEC_TAMPER_CNT
    ⟨0x84, 1, 0x4, .ct, 0x0, 0x0, false⟩,
    -- SEC_DBG_SESSION_CNT
    ⟨0x88, 1, 0x4, .ct, 0x0, 0x0, false⟩,
    -- SEC_ZEROIZE_CNT
    ⟨0x8C, 1, 0x4, .ct, 0x0, 0x0, false⟩
  ]

/-- Registers of FLT from offset 0x20 up (R420, Table FLT-8). -/
def rowsFlt : List RegRow :=
  [
    -- FLT_ROT_PERIOD
    ⟨0x20, 1, 0x4, .rw, 0xFFFF, 0x258, false⟩,
    -- FLT_RETEST
    ⟨0x24, 1, 0x4, .rw, 0x8000FFFF, 0x800003E8, false⟩,
    -- FLT_START_LIMIT
    ⟨0x28, 1, 0x4, .rw, 0xFFFF, 0x7D0, false⟩,
    -- FLT_FENCED0
    ⟨0x2C, 1, 0x4, .st, 0x0, 0x0, false⟩,
    -- FLT_FENCED1
    ⟨0x30, 1, 0x4, .st, 0x0, 0x0, false⟩,
    -- FLT_PERM0
    ⟨0x34, 1, 0x4, .st, 0x0, 0x0, false⟩,
    -- FLT_PERM1
    ⟨0x38, 1, 0x4, .st, 0x0, 0x0, false⟩,
    -- FLT_CMD
    ⟨0x3C, 1, 0x4, .special, 0xE000003F, 0x0, true⟩,
    -- FLT_LOG_SEQ
    ⟨0x40, 1, 0x4, .st, 0x0, 0x0, false⟩,
    -- FLT_FAULT_CNT
    ⟨0x44, 1, 0x4, .ct, 0x0, 0x0, false⟩,
    -- FLT_PERM_CNT
    ⟨0x48, 1, 0x4, .ct, 0x0, 0x0, false⟩,
    -- FLT_READMIT_CNT
    ⟨0x4C, 1, 0x4, .ct, 0x0, 0x0, false⟩,
    -- FLT_ROTATE_CNT
    ⟨0x50, 1, 0x4, .ct, 0x0, 0x0, false⟩,
    -- FLT_VOTE_CNT
    ⟨0x54, 1, 0x4, .ct, 0x0, 0x0, false⟩,
    -- FLT_INT_EN
    ⟨0x58, 1, 0x4, .rw, 0x1E, 0x0, false⟩,
    -- FLT_TWIN_CFG
    ⟨0x60, 1, 0x4, .special, 0x81010000, 0x0, false⟩
  ]
  ++ [
    -- FLT_TWIN_STATUS
    ⟨0x64, 1, 0x4, .st, 0x0, 0x0, false⟩,
    -- FLT_TWIN_CMD
    ⟨0x68, 1, 0x4, .special, 0x1, 0x0, false⟩,
    -- FLT_TWIN_OFFSET
    ⟨0x6C, 1, 0x4, .st, 0x0, 0x0, false⟩,
    -- FLT_TWIN_PEER_LO
    ⟨0x70, 1, 0x4, .st, 0x0, 0x0, false⟩,
    -- FLT_TWIN_PEER_HI
    ⟨0x74, 1, 0x4, .sh, 0x0, 0x0, false⟩,
    -- FLT_TWIN_LOSS_CNT
    ⟨0x78, 1, 0x4, .ct, 0x0, 0x0, false⟩,
    -- FLT_TWIN_AUTH_CNT
    ⟨0x7C, 1, 0x4, .ct, 0x0, 0x0, false⟩,
    -- FLT_TWIN_DIVERGE_CNT
    ⟨0x80, 1, 0x4, .ct, 0x0, 0x0, false⟩
  ]

/-- The common header (R37, Table GLB-12). The reset value of CTRL and STATUS is the block's own. -/
def rowsHeader (b : Blk) : List RegRow :=
  let en : Word := match b with
    | .glb | .mbx | .sec | .flt => 1
    | _ => 0
  let st : Word := match b with
    | .clk => 0
    | _ => 1
  let supCtrl : Bool := match b with
    | .pec _ => true
    | _ => false
  [⟨0x00, 1, 4, .special, 3, en, supCtrl⟩,
   ⟨0x04, 1, 4, .st, 0, st, false⟩,
   ⟨0x08, 1, 4, .ct, 0, 0, false⟩,
   ⟨0x0C, 1, 4, .st, 0, 0, false⟩,
   ⟨0x10, 1, 4, .special, 0x7FFFFFFF, 0, false⟩,
   ⟨0x14, 1, 4, .special, 0xFFFFFFFF, 0, false⟩,
   ⟨0x18, 1, 4, .special, 3, 0, false⟩]

/-- The rows of a block's own chapter. -/
def rowsOf : Blk → List RegRow
  | .glb => rowsGlb
  | .clk => rowsClk
  | .dtm => rowsDtm
  | .ttc => rowsTtc
  | .hif => rowsHif
  | .eth _ => rowsEth
  | .swc => rowsSwc
  | .bfm => rowsBfm
  | .nrg => rowsNrg
  | .can _ => rowsCan
  | .psq => rowsPsq
  | .pec _ => rowsPec
  | .mbx => rowsMbx
  | .mem => rowsMem
  | .xpb => rowsXpb
  | .sgm => rowsSgm
  | .sec => rowsSec
  | .flt => rowsFlt

/-- The base of a block instance in BAR0 (Table GLB-11). -/
def blkBase : Blk → Nat
  | .glb => 0x000000
  | .clk => 0x010000
  | .dtm => 0x020000
  | .ttc => 0x030000
  | .hif => 0x040000
  | .eth n => 0x080000 + n.val * 0x4000
  | .swc => 0x0A0000
  | .bfm => 0x0C0000
  | .nrg => 0x0D0000
  | .can n => 0x0E0000 + n.val * 0x2000
  | .psq => 0x0F0000
  | .pec n => 0x100000 + n.val * 0x10000
  | .mbx => 0x1A0000
  | .mem => 0x1B0000
  | .xpb => 0x1C0000
  | .sgm => 0x1D0000
  | .sec => 0x1E0000
  | .flt => 0x1F0000

/-- A number for each of the 36 block instances: the model's own, for keys of State. -/
def blkIdx : Blk → Nat
  | .glb => 0
  | .clk => 1
  | .dtm => 2
  | .ttc => 3
  | .hif => 4
  | .eth n => 5 + n.val
  | .swc => 13
  | .bfm => 14
  | .nrg => 15
  | .can n => 16 + n.val
  | .psq => 20
  | .pec n => 21 + n.val
  | .mbx => 31
  | .mem => 32
  | .xpb => 33
  | .sgm => 34
  | .sec => 35
  | .flt => 36

/-- The bit of a block in GLB_INT_EN and GLB_INT_SUMMARY (Table GLB-17). -/
def blkIntBit : Blk → Nat
  | .glb => 0
  | .clk => 1
  | .dtm => 2
  | .ttc => 3
  | .hif => 4
  | .eth _ => 5
  | .swc => 6
  | .bfm => 7
  | .nrg => 8
  | .can _ => 9
  | .psq => 10
  | .pec _ => 11
  | .mbx => 12
  | .mem => 13
  | .xpb => 14
  | .sgm => 15
  | .sec => 16
  | .flt => 17

/-- The block instance whose range of Table GLB-11 holds a BAR0 offset; none in a reserved range. -/
def blkAt (a : Nat) : Option Blk :=
  if a < 0x10000 then some .glb
  else if a < 0x20000 then some .clk
  else if a < 0x30000 then some .dtm
  else if a < 0x40000 then some .ttc
  else if a < 0x80000 then some .hif
  else if a < 0xA0000 then some (.eth (Fin.ofNat 8 ((a - 0x80000) / 0x4000)))
  else if a < 0xC0000 then some .swc
  else if a < 0xD0000 then some .bfm
  else if a < 0xE0000 then some .nrg
  else if a < 0xE8000 then some (.can (Fin.ofNat 4 ((a - 0xE0000) / 0x2000)))
  else if a < 0xF0000 then none
  else if a < 0x100000 then some .psq
  else if a < 0x1A0000 then some (.pec (Fin.ofNat 10 ((a - 0x100000) / 0x10000)))
  else if a < 0x1B0000 then some .mbx
  else if a < 0x1C0000 then some .mem
  else if a < 0x1D0000 then some .xpb
  else if a < 0x1E0000 then some .sgm
  else if a < 0x1F0000 then some .sec
  else if a < 0x200000 then some .flt
  else none

/-- Whether an offset in a block is one of a row's registers. -/
def RegRow.covers (r : RegRow) (o : Nat) : Bool :=
  decide (r.off ≤ o) && decide ((o - r.off) % r.stride = 0) && decide ((o - r.off) / r.stride < r.cnt)

/-- Whether an offset is absent in this instance: the MDIO masters exist in the instances of P0 and P1 only (R172). -/
def absentAt (b : Blk) (o : Nat) : Bool :=
  match b with
  | .eth n => decide (2 ≤ n.val) && decide (0x300 ≤ o)
  | _ => false

/-- The row of an offset in a block: the common header first, then the chapter's table. -/
def rowAt (b : Blk) (o : Nat) : Option RegRow :=
  match (rowsHeader b).find? (·.covers o) with
  | some r => some r
  | none => if absentAt b o then none else (rowsOf b).find? (·.covers o)

/-- The register at a BAR0 offset, with its block and offset; none at a reserved location (R39). -/
def regAt (a : Nat) : Option (Blk × Nat × RegRow) :=
  match blkAt a with
  | none => none
  | some b =>
    match rowAt b (a - blkBase b) with
    | none => none
    | some r => some (b, a - blkBase b, r)

/-- The reset value of a register; MBX_CFG0-MBX_CFG5 reset to their fixed endpoints (Table MBX-2), offsets no
table lists to 0. -/
def regReset (a : Nat) : Word :=
  match a with
  | 0x1A0100 => 0x1030
  | 0x1A0104 => 0x3010
  | 0x1A0108 => 0x2030
  | 0x1A010C => 0x3020
  | 0x1A0110 => 0x5030
  | 0x1A0114 => 0x3050
  | _ =>
    match regAt a with
    | some (_, _, r) => r.reset
    | none => 0

/-- The key of an indirect word in State: unit (a block's number, or a bank of instructions), space, word. -/
def tabKey (unit space word : Nat) : Nat := 2 ^ 24 * (128 * unit + space) + word

/-- The pseudo-unit that holds the MSI-X table of a link, four words a vector. -/
def msixUnit (link : Bool) : Nat := if link then 65 else 64

/-- What a word of an indirect space holds at reset: the identity PCP_MAP and unlimited QLIMIT and ECN_THR of
the logical-port entries (Table SWC-13), the unused marks of the repair records (R366),
MSI-X vectors masked (log 12), 0 elsewhere: given
as 0 by the manual, or by no rule (log 9). -/
def tabReset (k : Nat) : Word :=
  let word := k % 2 ^ 24
  let us := k / 2 ^ 24
  if us = 13 * 128 + 5 then
    if word % 32 = 1 then 0xFAC688 else if 4 ≤ word % 32 ∧ word % 32 < 20 then 0x40000 else 0
  else if us = 64 * 128 ∨ us = 65 * 128 then
    if word % 4 = 3 then 1 else 0
  else if us = 32 * 128 then
    if word % 4 = 1 ∨ word % 4 = 2 then 0x03FF03FF else 0
  else 0

end Sys2Proof.Machine
end

