-- ==== Sys2Proof/Machine/State.lean ====
section
/-! DEFINITION. The state of the block, as plain data: every register, table, memory, queue and mode the
manual gives it (INVENTORY.md, State), the queue of waiting commands, and the machine right after reset. -/

namespace Sys2Proof.Machine

/-- One set of IND registers of a block with its entry buffer (R49-R52): the host set and the supervisor
set are separate. `held` names the space and first word of the entry in the buffer. -/
structure IndSet where
  addr : Word
  inc : BitVec 2
  status : Byte
  busy : Bool
  held : Option (Nat × Nat)
  words : List Word
  dirty : Bool
deriving DecidableEq, Repr

/-- The clock state behind the CLK registers (02). -/
structure ClkState where
  /-- a PLL holds lock and its 1 s count toward SPARE runs (R28 step 4, R451) -/
  lockCount : BitVec 3
  /-- a FAILED PLL has a lock attempt in progress (R451) -/
  attempt : BitVec 3
  /-- islands whose re-alignment is requested (R23, R28) -/
  realign : BitVec 19
  /-- wake latches (R33) -/
  wakeLatch : BitVec 19
  /-- islands in their power ramp (R34) -/
  ramp : BitVec 19
  /-- the alignment step of a start has ended (R35) -/
  aligned : Bool
  /-- PCLK ticks since the reset of the device -/
  tick : Nat
  /-- time since the last REF edge in units of 2 ns, 0-19 (R59) -/
  refPhase : Nat
  /-- what the Port island's ring oscillator has fallen behind REF within one tick, in parts of RATIO (R24, R30) -/
  osc : Nat
deriving DecidableEq, Repr

/-- A correction request of a Datum domain (R62): none, awaiting its first tick, or held. -/
inductive AdjReq where
  | none | awaiting | held
deriving DecidableEq, Repr

/-- A Datum domain behind its registers (04): the three voted copies (R60), the standby copy (R59), the
increment in force (R57), the correction standing in ADJ and its request (R62), the correction the
standby copy takes at its next REF edge (R59), and line syntonization in force (R65, R66). -/
structure Domain where
  c0 : BitVec 112
  c1 : BitVec 112
  c2 : BitVec 112
  standby : BitVec 112
  inc : BitVec 64
  adj : BitVec 64
  req : AdjReq
  corr : Int
  syntEn : Bool
  syntPort : Fin 8
  holdover : Bool
  clean : Bool
deriving DecidableEq, Repr

/-- A trigger unit (R77-R81): armed, its pulse active, the tick of a LATE firing, ns left of the pulse. -/
structure Ttu where
  armed : Bool
  pulse : Bool
  late : Option Nat
  pulseLeft : Nat
deriving DecidableEq, Repr

/-- A capture of a capture unit's FIFO (R84). -/
structure Capture where
  ns : Word
  sec : Word
  flags : Word
deriving DecidableEq, Repr

/-- A capture unit (R83, R84): its FIFO, oldest first, and the ns at which its last captured edge crossed. -/
structure Tcu where
  fifo : List Capture
  last : Option Nat
deriving DecidableEq, Repr

/-- Cause and information of the fault that fenced a domain, kept for its RECOVERED entry (R404). -/
structure FaultRec where
  cause : Byte
  info8 : Byte
  info16 : BitVec 16
deriving DecidableEq, Repr

/-- The kinds of start (R415). -/
inductive StartKind where
  | cold | warm | warmP2
deriving DecidableEq, Repr

/-- STATE of FLT_TWIN_STATUS (R410). -/
inductive TwinState where
  | off | down | syncing | paired | alone
deriving DecidableEq, Repr

/-- The fault manager (17): fenced and permanently fenced domains, domains in the self-test of a READMIT or
a retest, the fault each fence records, the tick at which an engine's retest is due (R399), that of the
next rotation decision (R163), the log's next SEQ, the start in progress, RECOVERY, the twin's
state and role, and the tick B of a scheduled handover (R414). -/
structure FltState where
  fenced : BitVec 37
  perm : BitVec 37
  testing : BitVec 37
  readmit : BitVec 37
  recs : Vector FaultRec 37
  retest : Vector (Option Nat) 10
  rotDue : Nat
  logSeq : BitVec 16
  logAny : Bool
  starting : Option StartKind
  startDoneSeen : Bool
  recovery : Bool
  twin : TwinState
  shadow : Bool
  handover : Option (BitVec 112)
deriving DecidableEq, Repr

/-- The power states (R391). P0 and P1 are one here: P1 holds while an island is gated. `held`: POR_N is low
or a supply is below its minimum (R440). -/
inductive Power where
  | held | run | p2 | p3
deriving DecidableEq, Repr

/-- A loop check decided at the first issue of a repeated END instruction, applied after its last iteration
(R141, R143): the address to go on at, if it jumps back, and the CNT values to write. -/
structure LoopDec where
  next : Option (BitVec 12)
  cnts : List (Fin 4 × BitVec 16)
deriving DecidableEq, Repr

/-- START, END and CNT of one hardware loop (R141). -/
structure LoopRegs where
  start : BitVec 12
  stop : BitVec 12
  cnt : BitVec 16
deriving DecidableEq, Repr

/-- One context of an engine (R89-R91, Table PEC-12): registers, control state, operand and unit state
ports (words 0x64-0x6F), result ports (words 0x70-0x7D), CU.EVT. -/
structure Ctx where
  g : Vector (BitVec 32) 64
  a : Vector (BitVec 40) 4
  p : BitVec 8
  flg : BitVec 3
  pc : BitVec 12
  /-- pending branch target: the next instruction is a taken branch's delay slot (R108) -/
  pend : Option (BitVec 12)
  rptRun : Bool
  rptCnt : BitVec 16
  rptSrc : Byte
  rptDst : Byte
  lp : Vector LoopRegs 4
  depth : Fin 9
  stack : Vector (BitVec 12) 8
  ops : Vector (BitVec 32) 12
  res : Vector (BitVec 32) 14
  evt : BitVec 4
  loopDec : Option LoopDec
deriving DecidableEq, Repr

/-- What an operation in flight does when it lands (R93, R100-R107). -/
inductive Landing where
  /-- a result port takes a value, FLG takes bits -/
  | res (port : Fin 14) (v : Word) (fl : BitVec 3)
  /-- an accumulate lands on An and MRESn (R100) -/
  | acc (lane : Fin 4) (delta : Int) (sat : Bool)
  /-- a load lands in LSU.RES (R101, R103) -/
  | load (v : Word) (fl : BitVec 3)
  /-- a store or copy answered with BUS_ERROR sets FLG.BE (R102) -/
  | flag (fl : BitVec 3)
  /-- the copied word of FWU.CPY is stored (R106) -/
  | copy (dst v : Word) (fl : BitVec 3)
  /-- FWU.STAT takes the status of a window entry (R106) -/
  | stat (entry : Fin 64)
  /-- a Datum snapshot whose request the Port island latches after `edges` more PCLK edges (R107) -/
  | snapAt (d : Fin 4) (edges : Nat)
  /-- a Datum snapshot lands (R107) -/
  | snap (ns frac sec info : Word)
deriving DecidableEq, Repr

/-- An operation in flight: its context (true: service), the pipeline cycle it lands in, what it does, and the ECLK
by which an answer over a degraded crossing comes after that cycle (R104). -/
structure InFlight where
  svc : Bool
  at_ : Nat
  what : Landing
  late : Nat
deriving DecidableEq, Repr

/-- STATE of PEC_STATE (R120). -/
inductive EngSt where
  | off | spare | active | test | fenced | debug
deriving DecidableEq, Repr

/-- The kernel context: not running; its entry counting (R109); running; KEND's delay slot (R110). -/
inductive KPhase where
  | idle | entering | running | delay
deriving DecidableEq, Repr

/-- The service context: stopped, running, or in WAIT under a mask (R110). -/
inductive SvcPhase where
  | off | run | wait (mask : BitVec 4)
deriving DecidableEq, Repr

/-- The checkpoint of a kernel cycle (R157): none due, KEND issued, snapshot taken. -/
inductive Ckpt where
  | none
  | due
  | taken (cyc : Word) (words : List Word)
deriving DecidableEq, Repr

/-- What an engine does in a takeover or rotation (R158, R163). -/
inductive Takeover where
  | none
  /-- spare selected; `rerun`: a kernel start event is owed at d + 1,196; `old`: the engine that failed -/
  | selected (rerun : Bool) (old : Fin 10)
  /-- takeover section, checkpoint and CYC copied in -/
  | copied (rerun : Bool) (old : Fin 10)
  /-- re-executed or ready; the background copy goes on -/
  | started
deriving DecidableEq, Repr

/-- A protocol engine behind its registers (05). -/
structure Engine where
  st : EngSt
  role : Option (Fin 10)
  k : Ctx
  s : Ctx
  /-- DTP.CYC (R107) -/
  cyc : Word
  flight : List InFlight
  /-- pipeline cycles: they stop in a freeze (R118) -/
  pipe : Nat
  /-- ECLK cycles of the engine -/
  wall : Nat
  kern : KPhase
  /-- KEND's or the kernel entry's cycles still without issue (R109), and those of the service context (R110) -/
  kGap : Nat
  sGap : Nat
  /-- frozen cycles still to come (R118) -/
  freeze : Nat
  /-- ECLK counted since the kernel's first instruction (R112); none before it -/
  kCount : Option Nat
  svc : SvcPhase
  /-- pending WAIT events (R110) -/
  evt : BitVec 4
  /-- active instruction bank (R113), swap awaited (R114) -/
  bank : Bool
  swapPend : Bool
  /-- PEC_WDOG and PEC_WDECL standing at the kernel start (R121) -/
  wdog : BitVec 24
  wdecl : BitVec 24
  wExceeded : Bool
  /-- from the kernel start event to its commit (R118), a retry in it -/
  inCycle : Bool
  kRetried : Bool
  /-- ECLK of recent service retries (R118) -/
  svcRetries : List Nat
  /-- freezes between KEND and the snapshot (R157) -/
  ckpt : Ckpt
  /-- debug halt, a kernel start held in it, the context and breakpoints of the halt (R122, R123) -/
  halted : Bool
  heldStart : Bool
  haltSvc : Bool
  bpHit : BitVec 4
  dbgStatus : Byte
  /-- a breakpoint just hit is passed over at the next issue -/
  bpSkip : Bool
  /-- FWU entries active, and as the next kernel cycle start makes them (R106) -/
  fwuOn : BitVec 64
  fwuNext : BitVec 64
  fwuFresh : BitVec 64
  /-- local data memory (R115) -/
  dmem : AMap (BitVec 8)
  takeover : Takeover
  /-- the whole image stands in the active bank (R158) -/
  imgDone : Bool
  /-- the service context of a takeover spare awaits d + 2,400 and the first KEND (R160) -/
  svcOwed : Bool
  /-- after-KEND write of PEC_WDOG of an update (R165) -/
  wdogNext : Option (BitVec 24)
  /-- port rings (space 6): producer index of the transmit and of the receive completions, each with whether its ring
  is on an odd pass, whose entries carry PHASE 0 (R106, R305) -/
  txPi : BitVec 16
  txOdd : Bool
  rxPi : BitVec 16
  rxOdd : Bool
  /-- the LEAD's CYC and checkpoint, taken at the next kernel start after a divergence (Table FLT-5) -/
  lead : Option (Word × List Word)
deriving DecidableEq, Repr

/-- A personality instance by role (R14, R153): image handle, engine, phases, ports, trigger unit, stopped
(R145, R161), window gate (R155), committed CYC (R157), the handle of a pending update (R165). -/
structure Inst where
  handle : Byte
  engine : Option (Fin 10)
  period : Word
  tKst : Word
  tRel : Word
  ports : BitVec 12
  ttu : Fin 24
  stopped : Bool
  gate : Bool
  /-- t_rel has passed since the last kernel start (R155) -/
  due : Bool
  committed : Option Word
  update : Option Byte
  /-- how long the instance has held its engine, as the order of binding (R163) -/
  heldSince : Nat
deriving DecidableEq, Repr

/-- A loaded package (R148, R149): its image store (a second bank where the body is longer than one, log 24) and
header fields. -/
structure Image where
  handle : Byte
  bank : Fin 96
  more : Option (Fin 96)
  kind : Byte
  pid : Byte
  version : Word
  rollback : Word
  w : BitVec 24
  ksecLen : BitVec 16
  ckptVer : BitVec 16
  imgLen : Nat
  minCycle : Word
  digest : BitVec 384
deriving DecidableEq, Repr

/-- A planned rotation in progress (R163): the role, the chosen spare, whether its image copy is done. -/
structure Rotation where
  role : Fin 10
  spare : Fin 10
deriving DecidableEq, Repr

/-- The Skimmer's open window (R356, R357): the region under test, whether it is a spare row, whether the row
holds owner data and is redirected, the scratch row, the spare the verdict selected. -/
structure SkmWindow where
  bank : Fin 112
  row : BitVec 10
  spare : Bool
  redirect : Bool
  scratch : List Byte
  select : Option (Fin 4)
deriving DecidableEq, Repr

/-- Mailboxes (15): FULL and NOTICE per mailbox, and the payload words written since the last post (R348). -/
structure MbxState where
  full : BitVec 64
  notice : BitVec 64
  written : AMap (BitVec 16)
deriving DecidableEq, Repr

/-- The SRAM banks (15): contents, keyed bank × 0x2_0000 + offset; fills in progress with the owner that
takes effect after each, if any (R353, R354); the Skimmer's window, the place of its walk, rows to test
out of turn (R355), and the tick at which its next interval starts (R356). -/
structure MemState where
  banks : AMap (BitVec 8)
  fills : List (Nat × Option Word)
  window : Option SkmWindow
  walkBank : Fin 112
  walkRow : Nat
  outOfTurn : List (Nat × Nat)
  due : Nat
deriving DecidableEq, Repr

/-- A time-stamp with its domain and DEG (R68, R70). -/
structure Stamp where
  t : BitVec 112
  dom : Fin 4
  deg : Bool
deriving DecidableEq, Repr

/-- An entry of a port's two-step queue (Table DTM-3). -/
structure TsqEntry where
  tag : BitVec 16
  stamp : Stamp
deriving DecidableEq, Repr

/-- Transmit stamp modes (04). -/
inductive StampMode where
  | none | twoStep | oneOrigin | oneCorr
deriving DecidableEq, Repr

/-- A segmented send's values (R179): header length, MSS, template or parsed header, offsets and types:
`l3v6`, `l4` 0 none, 1 TCP, 2 UDP. -/
structure SegInfo where
  h : Nat
  mss : Nat
  template : Option (Fin 16)
  l3off : Nat
  l4off : Nat
  l3v6 : Bool
  l3any : Bool
  l4 : Nat
deriving DecidableEq, Repr

/-- What a frame's sender asked for (Table HIF-2): stamp mode, PTP offset, tag, segmentation, and the
overrides of destination and PCP. -/
structure TxReq where
  mode : StampMode
  ptpOff : Nat
  tag : BitVec 16
  seg : Option SegInfo
  dest : Option (BitVec 22)
  pcp : Option (BitVec 3)
deriving DecidableEq, Repr

/-- Where an internal frame comes from, for its completion: a context's descriptor of the host interface,
an engine role, or neither. -/
inductive Origin where
  | wire | host (ctx : Nat) (idx : Nat) | engine (role : Fin 10) (cookie : BitVec 32) | gateway | sup | ring
deriving DecidableEq, Repr

/-- A frame of the switch: bytes from the destination address to the last byte before the FCS. -/
structure Frame where
  bytes : List Byte
  stamp : Option Stamp
  frag : Bool
  req : TxReq
  origin : Origin
deriving DecidableEq, Repr

/-- A frame in transmission at a MAC (R209): as it leaves, the stored frame and queue it came from, whether
it is the last of its send, whether it is cut-through. -/
structure TxNow where
  bytes : List Byte
  fid : Nat
  tc : Fin 8
  units : Nat
  seg : Nat
  last : Bool
  /-- a one-step request: never preempted (R73) -/
  fixed : Bool
  /-- fragments sent before the one in progress (R213) -/
  frags : Nat
deriving DecidableEq, Repr

/-- An MDIO frame in progress: the latched command (R173). -/
structure Mdio where
  busy : Bool
  goWait : Bool
  cmd : Word
deriving DecidableEq, Repr

/-- A port behind its registers (08): link and negotiated result, pause timers running, priorities in XOFF,
priorities whose PFC change waits to be sent, two-step queue, frame in transmission, MDIO master. -/
structure EthState where
  up : Bool
  speed : Fin 5
  hdRefused : Bool
  paused : BitVec 8
  pauseQ : Vector (BitVec 16) 8
  xoff : BitVec 8
  tsq : List TsqEntry
  tx : Option TxNow
  mdio : Mdio
  pfcPend : BitVec 8
  /-- a preempted frame, to be resumed (R213) -/
  pre : Option TxNow
deriving DecidableEq, Repr

/-- Buffer classes (R204). -/
inductive BufClass where
  | be | data | crit | ring
deriving DecidableEq, Repr

/-- A frame held in the buffers (R205): its pool and cells, by IPB die or express, ingress port, class, TC,
slice, and the critical tag and stream entry it matched (R208). -/
structure Stored where
  fid : Nat
  f : Frame
  ingress : Fin 22
  /-- the ingress stamp, or D0 at the lookup (R218) -/
  stamp : Stamp
  cls : BufClass
  tc : Fin 8
  sliceB : Bool
  ecells : Nat
  cells0 : Nat
  cells1 : Nat
  stream : Option (Fin 256)
  vid : BitVec 12
  tagged : Bool
  pcp : Nat
  /-- IPB data lost: freed with BUF_UE at its queue head (R215) -/
  bad : Bool
deriving DecidableEq, Repr

/-- A place in an egress queue (R209, R210): the frame, the logical port and TC, units counted in the depth,
ECN mark, cut-through, frames of a send sent so far and the template's counter words as read at its start (R182). -/
structure QEntry where
  fid : Nat
  lp : Fin 22
  tc : Fin 8
  units : Nat
  mark : Bool
  ct : Bool
  seg : Nat
  tpl : List Word
deriving DecidableEq, Repr

/-- A frame waiting for its lookup at a logical port; one that came while the switch takes no new frame is not taken
(R219). -/
structure Ingress where
  lp : Fin 22
  f : Frame
  taken : Bool
deriving DecidableEq, Repr

/-- A port's gate control (R212, R213): operative bank, a start event seen since EN, entry in force and the tick
it took effect, the list's end reached, SWAP pending, MAC held, preemption verified. -/
structure Gate where
  bank : Bool
  started : Bool
  entry : Nat
  since : Nat
  done : Bool
  swap : Bool
  holdMac : Bool
  verified : Bool
deriving DecidableEq, Repr

/-- 802.1CB recovery and meter of a stream entry (R203): history, accept any number next, bucket level in
1/31,250 bit and the tick it stood at; the next critical tag (R208). -/
structure StreamSt where
  takeAny : Bool
  hist : BitVec 32
  level : Nat
  atTick : Nat
  tag : BitVec 16
deriving DecidableEq, Repr

/-- The switch and the buffer manager behind their registers (09). `elim`: tags accepted, newest first, by
egress port × 256 + stream; `ue0`, `ue1`: ticks of a die's uncorrectable errors. -/
structure SwcState where
  ingress : List Ingress
  stored : List Stored
  queues : List QEntry
  nextFid : Nat
  gates : Vector Gate 8
  streams : AMap StreamSt
  elim : AMap (List (BitVec 16))
  ue0 : List Nat
  ue1 : List Nat
  retired : BitVec 2
  smpSeq : Word
  /-- the sampling ring's base in force: a write of the low word applies both halves (R48) -/
  smpBase : BitVec 64
deriving DecidableEq, Repr

/-- NSTATE of a ring (R250). -/
inductive NState where
  | disabled | listen | claiming | benchmark | member
deriving DecidableEq, Repr

/-- States of a Stanchion (Table NRG-5). -/
inductive StnState where
  | sync | active | listenOnly | failed | off
deriving DecidableEq, Repr

/-- A write record of a Stanchion's own copy: window, offset, data length (R242). -/
structure StnRec where
  win : Nat
  off : Nat
  n : Nat
deriving DecidableEq, Repr

/-- The record a node places in the cycle: its window, the instance whose staging it came from, STATUS, DATA and
TAG (R228). -/
structure Snapshot where
  win : Nat
  role : Fin 10
  bytes : List Byte
deriving DecidableEq, Repr

/-- A pass sent out of a ring port in this cycle, kept for a fragment (R237): the port it left and the one it came
from, the header as it came in, its CORR with the segment's delay, the area as sent, whether its tag verified, how many
bytes of it came and whether the pass came whole, the tick at which byte 0 crossed the arrival ball, the time in ps of PCLK at which it left. -/
structure PassSent where
  out : Fin 8
  inn : Fin 8
  hdr : List Byte
  corr : Int
  area : List Byte
  tagOk : Bool
  tagCame : Nat
  whole : Bool
  rxTick : Nat
  t0 : Nat
deriving DecidableEq, Repr

/-- An own envelope in transmission (R244, R249): its copies by port, the local phase at its start in ps, and the
tick. -/
structure EnvNow where
  copies : List (Fin 8 × List Byte)
  start : Nat
  tick : Nat
deriving DecidableEq, Repr

/-- A fragment that waits for its instant: the port it leaves by, its bytes up to the tag, whether its pass came whole
(R237). -/
structure FragDue where
  out : Fin 8
  bytes : List Byte
  whole : Bool
deriving DecidableEq, Repr

/-- The Stanchion a hub holds for a leaf (R253): its state, the leaf's write records and slot, consecutive
measurements within and beyond G/2, the boundaries at which cuts fell, and an acyclic frame of the leaf that runs
beyond the enabled span, with the local phase at its start in ps. -/
structure LeafStn where
  stn : StnState
  recs : List StnRec
  slotStart : Nat
  slotEnd : Nat
  good : Nat
  bad : Nat
  cuts : List Nat
  now : Option (Nat × List Byte)
deriving DecidableEq, Repr

/-- What a hub has sent a copy to: the leaf port it is at, and the bytes sent there (R253, R254). -/
structure HubAt where
  leaf : Fin 8
  bytes : List Byte
deriving DecidableEq, Repr

/-- A ring behind its registers (10). `topoNext`: a topology and the cycle from whose boundary it applies, as heard;
`ann`: as the Benchmark node sends it. `los`: ports whose loss stands; `losNew`: declared since the last boundary;
`looped`: LOOPED; `healA`, `healB`: consecutive good boundaries. `cycNow`: the cycle in progress. `seen`: a verified
header in it; `noHdr`: boundaries passed without one. `good`, `bad`: consecutive measurements within and beyond G/2.
`snaps`: the records placed in this cycle, `bmSnap` those of the next (Benchmark node). `relayed`: values of
claims a hub relayed, with their ticks. `bnd`: boundaries counted; `bndAt`: the last one taken, in ns of D0; `bmDue`:
the copies of the cycle wait for their snapshot; `pair`: the partner of this SHADOW is the Benchmark node (R412).
`heard`: the tick of the last verified traverse frame or lower claim; `claimAt`: that of the last claim sent; `lost`: a
claim was lost since the last began (R251). `cuts`: boundaries at which cuts fell. `got`: windows deposited in this cycle; `image`:
the merged image; `joins`: area bytes received in this cycle, keyed copy × 65,536 + offset; `origins`: ORIGINs of
turned passes in this cycle; `heal`: copies verified with HEAL_READY in it. `history`: envelope numbers by ORIGIN. -/
structure RingState where
  nst : NState
  stn : StnState
  recs : List StnRec
  slotStart : Nat
  slotEnd : Nat
  topo : BitVec 2
  topoNext : Option (BitVec 2 × Word)
  ann : BitVec 2 × Word
  los : BitVec 8
  losNew : BitVec 8
  looped : BitVec 8
  healA : Nat
  healB : Nat
  cycNow : Word
  bmFirst : Bool
  seen : Bool
  noHdr : Nat
  good : Nat
  bad : Nat
  clkBad : Nat
  bnd : Nat
  bndAt : Option Nat
  bmDue : Bool
  pair : Bool
  heard : Nat
  claimAt : Option Nat
  lost : Bool
  leaf : Vector LeafStn 8
  cuts : List Nat
  snaps : Option (List Snapshot)
  bmSnap : Option (List Snapshot)
  got : List Nat
  image : AMap (BitVec 8)
  joins : AMap (BitVec 8)
  origins : List Byte
  heal : BitVec 2
  bm : Option (BitVec 7)
  keyUsed : Bool
  aseq : BitVec 16
  history : AMap (List (BitVec 16))
  env : Option EnvNow
  claimSeq : Word
  claimBack : Nat
  lower : Bool
  relayed : List (Nat × Nat)
  sent : List PassSent
  frags : List FragDue
  hubAt : AMap (Option HubAt)
deriving DecidableEq, Repr

/-- An attempt in transmission or awaiting the bus (R270, R271): its buffer and column (none: the reference
message), cycle, exclusive entry, the words latched, its start window in ns of the channel's domain. -/
structure CanTry where
  buf : Option (Fin 64)
  col : Option (Fin 32)
  cyc : BitVec 6
  excl : Bool
  words : List Word
  opens : Nat
  closes : Nat
deriving DecidableEq, Repr

/-- A CAN channel behind its registers (11): integrated on the bus, error counters, bus-off with its recovery
count, basic cycle running with its count, its start in ns of the domain, the columns served in it and the last one,
attempts that wait oldest first, the one in transmission, a frame of another node on the bus, the tick at which hold
began, transmit events. -/
structure CanState where
  integ : Bool
  txErr : Nat
  rxErr : Nat
  busOff : Bool
  prog : Nat
  sync : Bool
  cyc : BitVec 6
  cycAt : Nat
  served : BitVec 32
  col : BitVec 5
  tries : List CanTry
  sending : Option CanTry
  foreign : Bool
  heldAt : Option Nat
  events : List (Word × Word)
  tdcv : Nat
deriving DecidableEq, Repr

/-- STATE of a channel (R288). -/
inductive ChanSt where
  | stopped | running | waitAt | waitEv | waitQueue | shifting | shiftStalled | fault
deriving DecidableEq, Repr

/-- The fields of a SHIFT (Table PSQ-1). -/
structure ShiftOp where
  out : Bool
  inp : Bool
  clk : Fin 8
  dout : Fin 8
  din : Fin 8
  cpol : Bool
  cpha : Bool
  msb : Bool
  noclk : Bool
  n : Nat
deriving DecidableEq, Repr

/-- A shift in progress (R284, R285): bits still to start and the tick of the next, the sample instants of the
bits started, the tick the last bit started ends, the level DOUT takes in the middle of that bit. -/
structure Shift where
  op : ShiftOp
  left : Nat
  next : Nat
  due : List Nat
  ends : Nat
  dbit : Option Bool
deriving DecidableEq, Repr

/-- A channel behind its registers (R279-R290): OSR and ISR with their bit counts, DIR, output levels, queues,
the latched event's firing tick, the tick S a WAITEV holds for (an AT holds for STAMP), what a queue is waited
for (true: PUSH), the shift, the tick at which the next instruction's first pin effect lands, a bank move
pending, the pin effects that wait to land (their tick, the levels and the DIR bits in force at the balls until then). X, Y, STAMP, CFG, ENTRY and the maps stand in their registers. -/
structure Chan where
  st : ChanSt
  fault : Byte
  pc : BitVec 10
  osr : Word
  isr : Word
  osrBits : Nat
  isrBits : Nat
  dir : BitVec 8
  lv : BitVec 8
  txq : List Word
  rxq : List Word
  ev : Option Nat
  holdFor : Option Nat
  push : Bool
  shift : Option Shift
  landAt : Option Nat
  moving : Bool
  fx : List (Nat × BitVec 8 × BitVec 8)
deriving DecidableEq, Repr

/-- The pin sequencers (12): channels, the active bank per engine, swaps pending, events fired and not yet
latched (channel, firing tick), the channels to start again when a fence ends (Table FLT-1). The program banks
stand in `tabs`. -/
structure PsqState where
  ch : Vector Chan 64
  active : BitVec 2
  swap : BitVec 2
  events : List (Fin 64 × Nat)
  again : BitVec 64
deriving DecidableEq, Repr

/-- An entry of the bus-error log (Table HIF-12). -/
structure BusErr where
  w0 : Word
  w1 : Word
  w2 : Word
deriving DecidableEq, Repr

/-- Where a fetched TX descriptor stands (R302): its frame's data awaited, the frame waiting for its lookup, or
its result known: status and VERDICT. -/
inductive TxPhase where
  | reading | lookup | done (status : Byte) (verdict : Nat)
deriving DecidableEq, Repr

/-- A TX descriptor fetched and not completed: its index, its words, where it stands, the next byte to request
and the bytes that have arrived, by offset. -/
structure TxDesc where
  idx : Nat
  words : List Word
  phase : TxPhase
  want : Nat
  parts : List (Nat × List Byte)
deriving DecidableEq, Repr

/-- An RX descriptor fetched and not used; `ended`: what it completes with when its turn comes: its abort has
won (R310), its read failed (R308), or its TYPE is another (Table HIF-3). -/
structure RxDesc where
  idx : Nat
  words : List Word
  ended : Option Byte
deriving DecidableEq, Repr

/-- What a host read fetches: a run of descriptors of a ring, bytes of the frame of a TX descriptor, or nothing
that is still wanted (R295). -/
inductive ReadKind where
  | txRun (idx n : Nat) | rxRun (idx n : Nat) | frame (idx off n : Nat) | discard
deriving DecidableEq, Repr

/-- A host read outstanding (R295): its number, context, link, what it fetches. -/
structure HostRead where
  tag : Nat
  ctx : Fin 256
  link : Bool
  kind : ReadKind
deriving DecidableEq, Repr

/-- A context behind its space 0 entry (R296-R314): producer indices and the completion consumer index, the next
descriptors to fetch, descriptors fetched, indices aborted before their fetch, the abort pending, the last
abort reply's status and target, the entries counted for the vector and whether their time runs, and whether
it is disabled with no completion written, its link being gone (R312). -/
structure HostCtx where
  txPi : BitVec 16
  rxPi : BitVec 16
  cqCi : BitVec 16
  txFetch : BitVec 16
  rxFetch : BitVec 16
  txq : List TxDesc
  rxq : List RxDesc
  txAb : List Nat
  rxAb : List Nat
  abort : Option (BitVec 2 × BitVec 16)
  abortSt : Byte
  abortAt : BitVec 2 × BitVec 16
  modCnt : Nat
  timer : Bool
  mute : Bool
deriving DecidableEq, Repr

/-- What a function shows in its configuration space (R292): Device ID, Revision ID, class code. -/
structure HostIdent where
  device : BitVec 16
  revision : Byte
  classCode : BitVec 24
deriving DecidableEq, Repr

/-- A BAR4 write of the current tick into an input region (R318): the tick, the region, the offset within its host half,
what was there and what was written; `commit`: ISEQ, PENDING and the time of the commit it replaced. -/
structure BarWrite where
  tick : Nat
  region : Fin 32
  off : Nat
  old : List Byte
  new : List Byte
  commit : Option (Word × Bool × Nat)
deriving DecidableEq, Repr

/-- The host interface behind its registers (13): the bus-error log, oldest first; MSI-X pending bits per link;
contexts; reads outstanding; the context last served per level (R300); the tick at which each input region's
pending commit arrived; the BAR4 writes of the current tick (R318); AER as enabled per link (R39); the identity of
its functions (R292). The MSI-X table stands in `tabs`. -/
structure HifState where
  buserr : List BusErr
  msixPend : Vector (BitVec 272) 2
  ctx : AMap HostCtx
  reads : List HostRead
  nextTag : Nat
  last0 : Nat
  last1 : Nat
  commitAt : Vector Nat 32
  barNow : List BarWrite
  aer : BitVec 2
  ident : HostIdent
deriving DecidableEq, Repr

/-- Who asked for a bus transaction (R328, R332, R333): a frame that entered at a host link's, an engine role's,
the supervisor's or an Ethernet port, a poll entry, a route's read or write. -/
inductive XpbSrc where
  | host (link : Bool) (ctx : Nat) | role (r : Fin 10) | sup | port (n : Nat)
  | poll (i : Fin 16) | farRead (k : Fin 1024) | farWrite (k : Fin 1024)
deriving DecidableEq, Repr

/-- A queued request of the expansion port (R328): the kind of its transaction, address, words, data to write, and
from a frame its TAG, the requester's address and NOTIFY. -/
structure XpbReq where
  src : XpbSrc
  op : XpbOp
  addr : Word
  len : Nat
  data : List Word
  tag : BitVec 16
  sa : List Byte
  notify : BitVec 16
deriving DecidableEq, Repr

/-- The expansion port behind its registers (14): requests in order, the head one on the bus, XP_GNT, the number of
posted errors logged. -/
structure XpbState where
  queue : List XpbReq
  busy : Bool
  gnt : Bool
  seq : Byte
deriving DecidableEq, Repr

/-- A route of the signal mapper behind its entry (R333): words gathered of a value not yet complete, the latest
complete value, whether it waits for its delivery, an update seen at the source and not yet taken. -/
structure RouteSt where
  part : List Word
  held : List Word
  fresh : Bool
  due : Bool
deriving DecidableEq, Repr

/-- The signal mapper (14): its routes. -/
structure SgmState where
  routes : AMap RouteSt
deriving DecidableEq, Repr

/-- An owner slot (R370, R371): the fused hash and marks, and the loaded key (X, Y). -/
structure OwnerSlot where
  hash : BitVec 384
  enrolled : Bool
  revoked : Bool
  key : Option (BitVec 384 × BitVec 384)
deriving DecidableEq, Repr

/-- A connectivity association key with its name (R380). -/
structure Cak where
  key : BitVec 256
  ckn : List Byte
deriving DecidableEq, Repr

/-- An entry of the measurement list (R375): the package's header, and the handle while its store is loaded. -/
structure Measure where
  header : List Byte
  handle : Option Byte
deriving DecidableEq, Repr

/-- What the TAP does with the balls (R387). -/
inductive TapMode where
  | functional | extest | clamp | highz
deriving DecidableEq, Repr

/-- A fused key pair (R368): the private key as the PUF reconstructs it, none before LC_ADVANCE and once its
fuses are blown (R369), and the public key. -/
structure KeyPair where
  priv : Option (BitVec 384)
  pub : BitVec 384 × BitVec 384
deriving DecidableEq, Repr

/-- Trust and debug (16). Fuses: `lifecycle`, `eui`, `slots` but their loaded keys, `rollback`, `vendorHash`,
the key pairs. Of the supervisor: nonces by path (H0, H1, expansion host, JTAG), CAKs, measurement list, the
mark of R383 and its monitors' arming, whether a warm start reused the list, the firmware named by SUP_UPDATE
and the firmware running (none: ROM), whether it restarted and has taken no command since, whether ROM serves in
place of a firmware it did not start (R401), the mailbox last served, replies that wait for their mailbox, the sequencer image last loaded per engine, whether the supervisor
is MKA's key server per port. Of debug: the level a valid token authorises, the last status, whether the session
zeroized, the TAP's hold on the balls with the boundary register, the data of the last DBG_ACCESS read. Private
memories: RAM and retention SRAM. -/
structure SecState where
  lifecycle : BitVec 2
  eui : BitVec 64
  slots : Vector OwnerSlot 4
  rollback : Vector (BitVec 7) 16
  vendorHash : BitVec 384
  ident : KeyPair
  agree : KeyPair
  nonces : Vector (Option (List Byte)) 4
  caks : Vector (Option Cak) 10
  meas : List Measure
  tamper : Bool
  armed : Bool
  reused : Bool
  supNext : Option Byte
  supRunning : Option Byte
  restarted : Bool
  romServes : Bool
  lastBox : Fin 3
  replies : List (Fin 3 × List Word)
  seqImg : Vector (Option Byte) 2
  mkaServer : BitVec 8
  dbgTok : Option (Fin 4)
  dbgStatus : Byte
  zeroed : Bool
  tap : TapMode
  boundary : List Bool
  dbgData : Word
  ram : AMap (BitVec 8)
  retention : AMap (BitVec 8)
deriving DecidableEq, Repr

/-- What the block has sent: the model's own record of effects outside the device (log 3). -/
inductive Output where
  /-- data returned to the master of a read -/
  | readData (m : Master) (a : Word) (v : Word)
  /-- data returned to a host link's read of BAR2 or BAR4 (R294) -/
  | barData (link : Bool) (bar : BitVec 2) (off : Word) (v : Word)
  /-- a host read completed with Completer Abort (R39) -/
  | completerAbort (m : Master) (a : Word)
  /-- an AER non-fatal message, if AER is enabled (R39) -/
  | aerNonFatal (m : Master)
  /-- a bus error answered to an engine, the expansion host, the supervisor core or JTAG -/
  | busError (m : Master) (a : Word) (status : Byte)
  /-- an MSI-X message: link, vector -/
  | msix (link : Bool) (vector : Nat)
  /-- posted writes into host memory: link, address, bytes -/
  | hostWrite (link : Bool) (addr : BitVec 64) (bytes : List Byte)
  /-- a read request to host memory: link, address, length -/
  | hostRead (link : Bool) (addr : BitVec 64) (len : Nat)
  /-- FAULT_N driven low or released (R405) -/
  | faultN (low : Bool)
  /-- a trigger pulse begins or ends on a pin (R77) -/
  | trigger (pin : Nat) (active : Bool)
  /-- a start of the device begins: 0 cold, 1 warm in place, 2 warm from P2 -/
  | start (kind : Nat)
  /-- the supervisor's mailbox interrupt (R344) -/
  | supMailbox (m : Nat)
  /-- a message of the twin's TW lane (17) -/
  | twin (kind : Byte) (words : List Word)
  /-- a whole frame has left a port, FCS included (R209) -/
  | frame (port : Fin 8) (bytes : List Byte)
  /-- a frame ended short: the bytes sent and the complement of their FCS, then an invalid code group on a SerDes
  port (R176) -/
  | frameAbort (port : Fin 8) (bytes : List Byte) (code : Bool)
  /-- an MDIO frame on MDC/MDIO pair i: the latched command word (R173) -/
  | mdio (i : Fin 2) (cmd : Word)
  /-- a frame the switch delivers to the supervisor at LP21 -/
  | toSupervisor (bytes : List Byte)
  /-- what a bank answers a master (R351, R355): the bytes read, or BUS_ERROR -/
  | bank (by_ : BankMaster) (ok : Bool) (bytes : List Byte)
  /-- what a mailbox answers an engine role -/
  | mbxAnswer (r : Fin 10) (ok : Bool) (v : Word)
  /-- the first pin effect of an instruction: channel, the tick at which it crosses the ball, levels, DIR -/
  | pinEffect (c : Fin 64) (at_ : Nat) (lv dir : BitVec 8)
  /-- a bit of a shift on a channel's DOUT: the tick at which the bit starts, its level -/
  | shiftBit (c : Fin 64) (at_ : Nat) (v : Bool)
  /-- bytes of a ring frame ended with the abort sequence (R225, R244) -/
  | ringAbort (port : Fin 8) (bytes : List Byte)
  /-- a transaction started on the expansion bus (R324) -/
  | xpbBus (op : XpbOp) (addr : Word) (len : Nat) (data : List Word)
  /-- the answer to the external host's transaction: STATUS and the words read (R326) -/
  | xpbAnswer (status : Byte) (data : List Word)
  /-- the bits a TAP instruction shifts out, least significant word first (R389) -/
  | tdo (words : List Word)
  /-- the TAP takes the balls: EXTEST or CLAMP with the boundary register, HIGHZ, or gives them back (R387) -/
  | balls (mode : TapMode) (cells : List Bool)
deriving DecidableEq, Repr

/-- Faults of the model. -/
inductive Fault where
  /-- Raised by no command: every fault the manual describes is an effect on State (a status code, a counter,
  a fence). Kept so that the type of outcomes is closed. Safe. -/
  | none
deriving DecidableEq, Repr

/-- Refusals of the model. -/
inductive Refusal where
  /-- A command whose meaning is not written yet, by its mnemonic; raised by the dispatch alone. Safe. -/
  | notModelled (mnemonic : String)
deriving DecidableEq, Repr

/-- The state of the block. -/
structure State where
  /-- commands waiting, first in first out (the model's own, log 1) -/
  pending : List Instr
  /-- direct registers by BAR0 offset, where they hold other than their reset value -/
  regs : AMap (BitVec 32)
  /-- indirect spaces and instruction banks, keyed by `tabKey` -/
  tabs : AMap (BitVec 32)
  /-- IND sets, keyed blkIdx × 2 + (1 for the supervisor's) -/
  ind : AMap IndSet
  /-- shadow words latched per master (R47), keyed by `latchKey` -/
  latches : AMap (BitVec 32)
  /-- blocks in hold (R43), by blkIdx -/
  hold : BitVec 37
  power : Power
  clk : ClkState
  dom : Vector Domain 4
  stepSeq : BitVec 8
  ttu : Vector Ttu 24
  tcu : Vector Tcu 16
  /-- the balls MFP0-MFP95 that the outside drives, and the levels it gives them -/
  mfpExt : BitVec 96
  mfpIn : BitVec 96
  eng : Vector Engine 10
  insts : Vector (Option Inst) 10
  images : List Image
  bindSeq : Nat
  rotation : Option Rotation
  mbx : MbxState
  mem : MemState
  flt : FltState
  eth : Vector EthState 8
  swc : SwcState
  ring : Vector RingState 2
  can : Vector CanState 4
  psq : PsqState
  hif : HifState
  xpb : XpbState
  sgm : SgmState
  sec : SecState
  /-- free values drawn so far (the model's own, log 6) -/
  free : Nat
  /-- what the block has sent (the model's own, log 3) -/
  out : List Output
deriving DecidableEq, Repr

/-! The machine right after reset: POR_N is low or has not risen (R440, R415); every field at the value the
manual gives, else at the value the log names (log 9). -/

def ClkState.reset : ClkState := ⟨0, 0, 0, 0, 0, false, 0, 0, 0⟩

def Domain.reset : Domain :=
  ⟨0, 0, 0, 0, 0x200000000, 0, .none, 0, false, 0, false, false⟩

def Ttu.reset : Ttu := ⟨false, false, none, 0⟩

def Tcu.reset : Tcu := ⟨[], none⟩

def FltState.reset : FltState :=
  { fenced := 0, perm := 0, testing := 0, readmit := 0, recs := Vector.replicate 37 ⟨0, 0, 0⟩, retest := Vector.replicate 10 none, rotDue := 300000000000,
    logSeq := 0, logAny := false, starting := none, startDoneSeen := false, recovery := false,
    twin := .off, shadow := false, handover := none }

def Ctx.reset : Ctx :=
  { g := Vector.replicate 64 0, a := Vector.replicate 4 0, p := 0, flg := 0, pc := 0, pend := none,
    rptRun := false, rptCnt := 0, rptSrc := 0, rptDst := 0, lp := Vector.replicate 4 ⟨0, 0, 0⟩,
    depth := 0, stack := Vector.replicate 8 0, ops := Vector.replicate 12 0, res := Vector.replicate 14 0,
    evt := 0, loopDec := none }

def Engine.reset : Engine :=
  { st := .off, role := none, k := Ctx.reset, s := Ctx.reset, cyc := 0, flight := [], pipe := 0, wall := 0,
    kern := .idle, kGap := 0, sGap := 0, freeze := 0, kCount := none, svc := .off, evt := 0, bank := false,
    swapPend := false, wdog := 0xFFFFFF, wdecl := 0, wExceeded := false, inCycle := false, kRetried := false,
    svcRetries := [], ckpt := .none, halted := false, heldStart := false, haltSvc := false, bpHit := 0,
    dbgStatus := 0, bpSkip := false, fwuOn := 0, fwuNext := 0, fwuFresh := 0, dmem := [], takeover := .none,
    imgDone := false, svcOwed := false, wdogNext := none, txPi := 0, txOdd := false, rxPi := 0, rxOdd := false,
    lead := none }

def MbxState.reset : MbxState := ⟨0, 0, []⟩

def MemState.reset : MemState := ⟨[], [], none, 0, 0, [], 0⟩

def EthState.reset : EthState :=
  { up := false, speed := 0, hdRefused := false, paused := 0, pauseQ := Vector.replicate 8 0, xoff := 0,
    tsq := [], tx := none, mdio := ⟨false, false, 0⟩, pfcPend := 0, pre := none }

def HostCtx.reset : HostCtx :=
  { txPi := 0, rxPi := 0, cqCi := 0, txFetch := 0, rxFetch := 0, txq := [], rxq := [], txAb := [], rxAb := [],
    abort := none, abortSt := 0, abortAt := (0, 0), modCnt := 0, timer := false, mute := false }

def HifState.reset : HifState :=
  { buserr := [], msixPend := Vector.replicate 2 0, ctx := [], reads := [], nextTag := 0, last0 := 0, last1 := 0,
    commitAt := Vector.replicate 32 0, barNow := [], aer := 0
    ident := ⟨0x8600#16, 0xB0#8, 0x028000#24⟩ }

def XpbState.reset : XpbState := ⟨[], false, false, 0⟩

def RouteSt.reset : RouteSt := ⟨[], [], false, false⟩

def SgmState.reset : SgmState := ⟨[]⟩

def LeafStn.reset : LeafStn :=
  { stn := .off, recs := [], slotStart := 0, slotEnd := 0, good := 0, bad := 0, cuts := [], now := none }

def RingState.reset : RingState :=
  { nst := .disabled, stn := .off, recs := [], slotStart := 0, slotEnd := 0, topo := 0, topoNext := none,
    ann := (0, 0), los := 0, losNew := 0, looped := 0, healA := 0, healB := 0, cycNow := 0, bmFirst := false,
    seen := false, noHdr := 0, good := 0, bad := 0, clkBad := 0, bnd := 0, bndAt := none, bmDue := false, pair := false,
    heard := 0, claimAt := none, lost := false, leaf := Vector.replicate 8 LeafStn.reset, cuts := [], snaps := none, bmSnap := none, got := [],
    image := [], joins := [], origins := [], heal := 0, bm := none, keyUsed := false, aseq := 0, history := [],
    env := none, claimSeq := 0, claimBack := 0, lower := false, relayed := [], sent := [], frags := [],
    hubAt := [] }

def CanState.reset : CanState :=
  { integ := false, txErr := 0, rxErr := 0, busOff := false, prog := 0, sync := false, cyc := 0, cycAt := 0,
    served := 0, col := 0, tries := [], sending := none, foreign := false, heldAt := none, events := [], tdcv := 0 }

def Chan.reset : Chan :=
  { st := .stopped, fault := 0, pc := 0, osr := 0, isr := 0, osrBits := 0, isrBits := 0, dir := 0, lv := 0,
    txq := [], rxq := [], ev := none, holdFor := none, push := false, shift := none, landAt := none,
    moving := false, fx := [] }

def PsqState.reset : PsqState := ⟨Vector.replicate 64 Chan.reset, 0, 0, [], 0⟩

def Gate.reset : Gate := ⟨false, false, 0, 0, false, false, false, false⟩

def SwcState.reset : SwcState :=
  { ingress := [], stored := [], queues := [], nextFid := 0, gates := Vector.replicate 8 Gate.reset,
    streams := [], elim := [], ue0 := [], ue1 := [], retired := 0, smpSeq := 0, smpBase := 0 }

def OwnerSlot.reset : OwnerSlot := ⟨0, false, false, none⟩

def KeyPair.reset : KeyPair := ⟨none, (0, 0)⟩

def SecState.reset : SecState :=
  { lifecycle := 0, eui := 0, slots := Vector.replicate 4 OwnerSlot.reset, rollback := Vector.replicate 16 0,
    vendorHash := 0, ident := KeyPair.reset, agree := KeyPair.reset, nonces := Vector.replicate 4 none,
    caks := Vector.replicate 10 none, meas := [], tamper := false, armed := false, reused := false, supNext := none,
    supRunning := none, restarted := false, romServes := false, lastBox := 2, replies := [], seqImg := Vector.replicate 2 none,
    mkaServer := 0, dbgTok := none, dbgStatus := 0, zeroed := false, tap := .functional, boundary := [], dbgData := 0,
    ram := [], retention := [] }

/-- The machine right after reset. -/
def State.reset : State :=
  { pending := [], regs := [], tabs := [], ind := [], latches := [], hold := BitVec.allOnes 37,
    power := .held, clk := ClkState.reset, dom := Vector.replicate 4 Domain.reset, stepSeq := 0,
    ttu := Vector.replicate 24 Ttu.reset, tcu := Vector.replicate 16 Tcu.reset, mfpExt := 0, mfpIn := 0,
    eng := Vector.replicate 10 Engine.reset, insts := Vector.replicate 10 none, images := [],
    bindSeq := 0, rotation := none, mbx := MbxState.reset, mem := MemState.reset,
    flt := FltState.reset, eth := Vector.replicate 8 EthState.reset, swc := SwcState.reset,
    ring := Vector.replicate 2 RingState.reset, can := Vector.replicate 4 CanState.reset, psq := PsqState.reset, hif := HifState.reset, xpb := XpbState.reset,
    sgm := SgmState.reset, sec := SecState.reset, free := 0,
    out := [] }

end Sys2Proof.Machine
end

