-- ==== Sys2Proof/Machine/Ops.lean ====
section
/-! DEFINITION. Named operations over State that every block shares: registers, tables, counters, free values,
the record of outputs, configuration rejects, gating, time-stamps, and the fault manager's log (R404) and
latch (R397). -/

namespace Sys2Proof.Machine

/-- Replace the element of a vector at an index. -/
def vset {α : Type} {n : Nat} (v : Vector α n) (i : Fin n) (x : α) : Vector α n := v.set i.val x i.isLt

/-- Apply a function to the element of a vector at an index. -/
def vmod {α : Type} {n : Nat} (v : Vector α n) (i : Fin n) (f : α → α) : Vector α n := vset v i (f v[i])

/-! Registers. -/

/-- The stored word of a direct register. -/
def State.reg (s : State) (a : Nat) : Word := amGet regReset s.regs a

/-- Store a word of a direct register. -/
def State.setReg (s : State) (a : Nat) (v : Word) : State := { s with regs := amPut regReset s.regs a v }

/-- A CT counter counts an event (R9); counters wrap. -/
def State.count (s : State) (a : Nat) : State := s.setReg a (s.reg a + 1)

/-- A CT counter counts n events. -/
def State.countN (s : State) (a n : Nat) : State := s.setReg a (s.reg a + w32 n)

/-- A 64-bit CT counter, low word at `a`, counts n. -/
def State.count64 (s : State) (a n : Nat) : State :=
  let t := (s.reg a).toNat + 4294967296 * (s.reg (a + 4)).toNat + n
  (s.setReg a (w32 t)).setReg (a + 4) (w32 (t / 4294967296))

/-- Store a number in a field of a register. -/
def State.setRegField (s : State) (a lo len v : Nat) : State := s.setReg a (setField (s.reg a) lo len v)

/-- Store a bit of a register. -/
def State.setRegBit (s : State) (a i : Nat) (b : Bool) : State := s.setReg a (setBit (s.reg a) i b)

/-- EN of a block: CTRL[0] (R37). -/
def State.en (s : State) (b : Blk) : Bool := bitOf (s.reg (blkBase b)) 0

/-- Whether a block is in hold (R43). -/
def State.inHold (s : State) (b : Blk) : Bool := s.hold.getLsbD (blkIdx b)

/-- Put a block in hold or end its hold (R43). -/
def State.setHold (s : State) (b : Blk) (h : Bool) : State := { s with hold := setBit s.hold (blkIdx b) h }

/-! Indirect tables. -/

/-- The stored word of an indirect space of a block. -/
def State.tab (s : State) (b : Blk) (space word : Nat) : Word :=
  amGet tabReset s.tabs (tabKey (blkIdx b) space word)

/-- Store a word of an indirect space of a block. -/
def State.setTab (s : State) (b : Blk) (space word : Nat) (v : Word) : State :=
  { s with tabs := amPut tabReset s.tabs (tabKey (blkIdx b) space word) v }

/-- Store consecutive words of an indirect space. -/
def State.setTabs (s : State) (b : Blk) (space word : Nat) : List Word → State
  | [] => s
  | v :: r => (s.setTab b space word v).setTabs b space (word + 1) r

/-- n consecutive words of an indirect space. -/
def State.tabWords (s : State) (b : Blk) (space word n : Nat) : List Word :=
  (List.range n).map (fun k => s.tab b space (word + k))

/-- Store 0 in n consecutive words of an indirect space. -/
def State.clearTab (s : State) (b : Blk) (space word n : Nat) : State :=
  (List.range n).foldl (fun t k => t.setTab b space (word + k) 0) s

/-! Free values and outputs. -/

/-- Draw a free value: the manual fixes no value here (log 6). -/
def State.draw (s : State) : Word × State := (Config.freeWord s.free, { s with free := s.free + 1 })

/-- Draw n free words. -/
def State.drawN : Nat → State → List Word × State
  | 0, s => ([], s)
  | n + 1, s =>
    let r := State.drawN n { s with free := s.free + 1 }
    (Config.freeWord s.free :: r.1, r.2)

/-- Record what the block sends (log 3). -/
def State.emit (s : State) (o : Output) : State := { s with out := s.out ++ [o] }

/-! Configuration rejects (R9, R46). -/

/-- A rejected write: CFGREJ_CNT counts, CFGREJ_ADDR holds the address (Table GLB-13). -/
def State.cfgRej (s : State) (b : Blk) (viaInd : Bool) (addr : Nat) : State :=
  (s.count (blkBase b + 8)).setReg (blkBase b + 12) (w32 (addr % 2 ^ 31 + (if viaInd then 2 ^ 31 else 0)))

/-- A rejection that names a direct register. -/
def State.rejReg (s : State) (b : Blk) (a : Nat) : State := s.cfgRej b false (a % 2 ^ 22)

/-- A write of zero to a CT counter clears it; CFGREJ_CNT's clear also clears CFGREJ_ADDR (R9, R46, R48). -/
def State.clearCnt (s : State) (b : Blk) (a : Nat) : State :=
  let s1 := s.setReg a 0
  if a = blkBase b + 8 then s1.setReg (blkBase b + 12) 0 else s1

/-! Islands (02, Table CLK-6). -/

/-- The bit of the island a block's registers and logic stand in (01, 02): Port 0, PEn 3 + n, Fabric 13,
Memory 14, Host 15, Supervisor 16, Sequencer 17, CAN 18. -/
def blkIsland : Blk → Nat
  | .glb => 16
  | .clk => 16
  | .dtm => 0
  | .ttc => 0
  | .hif => 15
  | .eth _ => 0
  | .swc => 1
  | .bfm => 13
  | .nrg => 0
  | .can _ => 18
  | .psq => 17
  | .pec n => 3 + n.val
  | .mbx => 13
  | .mem => 13
  | .xpb => 17
  | .sgm => 17
  | .sec => 16
  | .flt => 13

/-- Whether an island is powered: CLK_ISL_ON. -/
def State.islandOn (s : State) (i : Nat) : Bool := bitOf (s.reg clkIslOn) i

/-- Whether an island reports CLK_DEGRADED. -/
def State.degraded (s : State) (i : Nat) : Bool := bitOf (s.reg clkDegraded) i

/-- Whether a port's MAC/PCS is gated by CLK_PORT_GATE (02). -/
def State.portGated (s : State) (n : Nat) : Bool := bitOf (s.reg clkPortGate) n

/-! Fence domains (R396). -/

/-- Whether a domain is fenced. -/
def State.fenced (s : State) (d : Nat) : Bool := s.flt.fenced.getLsbD d

/-- Whether any domain is fenced. -/
def State.anyFenced (s : State) : Bool := decide (s.flt.fenced ≠ 0)

/-! Datum time (04). -/

/-- The time of a domain: the bitwise majority of its copies, or copy 0 while it is fenced (R60, R61). -/
def State.time (s : State) (d : Fin 4) : DTime :=
  if s.fenced (32 + d.val) then s.dom[d].c0 else dtMajority s.dom[d].c0 s.dom[d].c1 s.dom[d].c2

/-- FOFS as the increment uses it: its signed value while syntonization is in force (R57, R65). -/
def State.fofs (s : State) (d : Fin 4) : Int := sgn (s.reg (dtmDSyntFofs d.val))

/-- The effective increment of a domain (R57). -/
def State.incEff (s : State) (d : Fin 4) : Int := Machine.incEff s.dom[d].inc (s.fofs d)

/-- Whether the tick in progress is the first of a domain at or after a phase of a period, both in ns, taken a count of
ticks ahead (R222, R269). -/
def State.atPhase (s : State) (d : Fin 4) (period phase ahead : Nat) : Bool :=
  let p := period * 4294967296
  let step := (s.incEff d).toNat
  decide ((dtVal (s.time d) + ahead * step + p - phase * 4294967296 % p) % p < step)

/-- Whether the tick in progress is the first of a domain at or after a time in ns (R270). -/
def State.atTime (s : State) (d : Fin 4) (ns : Nat) : Bool :=
  decide (4294967296 * ns ≤ dtVal (s.time d)) && decide (dtVal (s.time d) < 4294967296 * ns + (s.incEff d).toNat)

/-- DEG of a stamp taken now: the domain fenced, or the Port island degraded (R68). -/
def State.stampDeg (s : State) (d : Fin 4) : Bool := s.fenced (32 + d.val) || s.degraded 0

/-- A snapshot of domain d with the time t, as the Datum port's results take it (R107). -/
def State.dtpSnapOf (s : State) (d : Fin 4) (t : DTime) : Landing :=
  .snap (w32 (dtNs t)) (w32 (dtFrac t)) (w32 (dtSec t)) (w32 (2 ^ 31 * b2n (s.stampDeg d) + dtSec t / 2 ^ 32))

/-- A PCLK edge at a snapshot in flight: the third after its trigger latches the time (R25, R107). -/
def State.snapEdge (s : State) (f : InFlight) : InFlight :=
  match f.what with
  | .snapAt d n => { f with what := if n ≤ 1 then s.dtpSnapOf d (s.time d) else .snapAt d (n - 1) }
  | _ => f

/-- A PCLK edge at the snapshots of every engine. -/
def State.latchSnaps (s : State) : State :=
  { s with eng := s.eng.map (fun x => { x with flight := x.flight.map s.snapEdge }) }

/-! The fault log (R404, Table FLT-3). -/

/-- Actions of a log entry. -/
inductive LogAction where
  | fencedNow | takeover | recovered | readmitted | permanent | noted
deriving DecidableEq, Repr

/-- ACTION of Table FLT-3. -/
def LogAction.code : LogAction → Nat
  | .fencedNow => 0
  | .takeover => 1
  | .recovered => 2
  | .readmitted => 3
  | .permanent => 4
  | .noted => 5

/-- Write one entry of the fault log; the first after a clearing start carries SEQ 0 (R404). -/
def State.fltLog (s : State) (domain : Nat) (cause : Byte) (act : LogAction) (i8 : Byte) (i16 : Nat) : State :=
  let seq := if s.flt.logAny then s.flt.logSeq + 1 else 0
  let t := s.time 0
  let w0 := w32 (2 ^ 24 * domain + 2 ^ 16 * cause.toNat + seq.toNat)
  let w1 := w32 (2 ^ 28 * act.code + 2 ^ 27 * b2n (s.stampDeg 0) + 2 ^ 16 * i8.toNat + i16 % 2 ^ 16)
  let s1 := s.setTabs .flt 0 (seq.toNat % 64 * 4) [w0, w1, w32 (dtNs t), w32 (dtSec t)]
  { s1 with flt := { s1.flt with logSeq := seq, logAny := true } }

/-- Whether a domain is permanently fenced, or a retired IPB die (R408). -/
def State.permFenced (s : State) (d : Fin 37) : Bool :=
  s.flt.perm.getLsbD d.val || (decide (d.val = 21 ∨ d.val = 22) && s.flt.fenced.getLsbD d.val)

/-- The tick at which the retest of an engine fenced now with a cause is due: RETEST_DELAY ms after a hardware hard fault,
while AUTO_RETEST = 1 (R399, R419). -/
def State.retestDue (s : State) (cause : Byte) : Option Nat :=
  if cause = 0x01 && bitOf (s.reg fltRetest) 31 then some (s.clk.tick + 500000 * fieldOf (s.reg fltRetest) 0 16) else none

/-- What a fault report does in the fault manager alone (R397, R408): for a permanently fenced domain it only fails
a re-admission in progress, with no entry and no count;
a permanent fence while the domain recovers or is in its self-test; else a fence. The domain's own effects
while fenced (Table FLT-1) are those of its block. -/
def State.fltLatch (s : State) (d : Fin 37) (cause : Byte) (i8 : Byte) (i16 : Nat) : State :=
  if s.permFenced d then
    { s with flt := { s.flt with
        testing := setBit s.flt.testing d.val false
        readmit := setBit s.flt.readmit d.val false } }
  else if s.flt.fenced.getLsbD d.val || s.flt.testing.getLsbD d.val then
    let s1 := (s.fltLog d.val cause .permanent i8 i16).count fltPermCnt
    { s1 with flt := { s1.flt with
        fenced := setBit s1.flt.fenced d.val true
        perm := setBit s1.flt.perm d.val true
        testing := setBit s1.flt.testing d.val false
        readmit := setBit s1.flt.readmit d.val false } }
  else
    let s1 := (s.fltLog d.val cause .fencedNow i8 i16).count fltFaultCnt
    { s1 with flt := { s1.flt with
        fenced := setBit s1.flt.fenced d.val true
        recs := vset s1.flt.recs d ⟨cause, i8, BitVec.ofNat 16 i16⟩
        retest := if d.val < 10 then vset s1.flt.retest (Fin.ofNat 10 d.val) (s.retestDue cause) else s1.flt.retest } }

/-- A domain is permanently fenced by a failed self-test (R399, R400). -/
def State.fltPermanent (s : State) (d : Fin 37) (cause : Byte) : State :=
  let s1 := (s.fltLog d.val cause .permanent 0 0).count fltPermCnt
  { s1 with flt := { s1.flt with
      fenced := setBit s1.flt.fenced d.val true
      perm := setBit s1.flt.perm d.val true
      testing := setBit s1.flt.testing d.val false
      readmit := setBit s1.flt.readmit d.val false } }

/-- A domain leaves the fence: RECOVERED repeats the record of its fence; a READMIT's end is RE-ADMITTED with
cause COMMAND and the master in INFO8, here kept in the record (R397, R404, R408). -/
def State.fltLeave (s : State) (d : Fin 37) : State :=
  let re := s.flt.readmit.getLsbD d.val
  let r := s.flt.recs[d]
  let s1 := if re then (s.fltLog d.val 0x0D .readmitted r.info8 0).count fltReadmitCnt
    else s.fltLog d.val r.cause .recovered r.info8 r.info16.toNat
  { s1 with flt := { s1.flt with
      fenced := setBit s1.flt.fenced d.val false
      perm := setBit s1.flt.perm d.val false
      testing := setBit s1.flt.testing d.val false
      readmit := setBit s1.flt.readmit d.val false } }

/-- The level of FAULT_N: low before the first START_DONE, in RECOVERY, and while a domain is fenced (R405). -/
def State.faultLow (s : State) : Bool :=
  !s.flt.startDoneSeen || s.flt.recovery || s.anyFenced

/-! Status codes (R11, Table GLB-3). -/

abbrev stOk : Byte := 0x00
abbrev stAborted : Byte := 0x01
abbrev stDisabled : Byte := 0x02
abbrev stFenced : Byte := 0x03
abbrev stBusError : Byte := 0x04
abbrev stFcsError : Byte := 0x05
abbrev stTooLong : Byte := 0x06
abbrev stAuthFail : Byte := 0x07
abbrev stLate : Byte := 0x08
abbrev stNoBuffer : Byte := 0x09
abbrev stAdmitFail : Byte := 0x0A
abbrev stIslandOff : Byte := 0x0B
abbrev stIdCollision : Byte := 0x0C
abbrev stAbortLate : Byte := 0x0D
abbrev stRetry : Byte := 0x0E
abbrev stPolicy : Byte := 0x0F

end Sys2Proof.Machine
end

