-- ==== Sys2Proof/Machine/Stamp.lean ====
section
/-! DEFINITION. Time-stamps at the ports (04, R67-R73, Table DTM-2), checksums rewritten with them, and frame
fields: EtherType, VLAN tag, the places of IPv4, IPv6, TCP and UDP headers. -/

namespace Sys2Proof.Machine

/-- MODE of a port (Table ETH-1). -/
def State.ethModeOf (s : State) (n : Fin 8) : Nat := fieldOf (s.reg (ethMode n.val)) 0 4

/-- Whether a MODE is a SerDes mode. -/
def serdesMode (m : Nat) : Bool := m = 1 || m = 2 || m = 3 || m = 5 || m = 6

/-- tx_lat and rx_lat of a mode and speed in tenths of a ns (Table DTM-2); speeds are coded as
ETH_MODE.SPEED. A port that is off has no latency of the table. -/
def latTenths (mode speed : Nat) : Nat × Nat :=
  match mode, speed with
  | 1, 0 => (72000, 104000)
  | 1, 1 => (7200, 10400)
  | 1, _ => (1040, 1360)
  | 2, _ => (1040, 1360)
  | 3, _ => (416, 544)
  | 4, 0 => (24000, 32000)
  | 4, 1 => (2400, 3200)
  | 4, _ => (240, 320)
  | 5, _ => (368, 512)
  | 6, 0 => (368000, 512000)
  | 6, 1 => (36800, 51200)
  | 6, 2 => (3680, 5120)
  | 6, 3 => (1472, 2048)
  | 6, _ => (368, 512)
  | _, _ => (0, 0)

/-- Tenths of a ns in 32.32 ns, rounded to the nearest unit (R68). -/
def tenths32 (t : Nat) : Nat := (t * 4294967296 * 2 + 10) / 20

/-- The stamp domain of a port: DTM_PORT_DOM (R67). -/
def State.portDom (s : State) (n : Fin 8) : Fin 4 := Fin.ofNat 4 (fieldOf (s.reg dtmPortDom) (2 * n.val) 2)

/-- The phase term ph × inc_eff / 16; RGMII ports have no phase detector (R68). DESIGN CHOICE (log 40): R68 gives no
rounding of the term; the model floors it to a unit of 2⁻³² ns. -/
def State.phase (s : State) (n : Fin 8) (d : Fin 4) (ph : Fin 16) : Int :=
  if s.ethModeOf n = 4 then 0 else (ph.val : Int) * s.incEff d / 16

/-- The receive stamp of R68: the delays of RGMII added to its compensation (R171). -/
def State.rxStamp (s : State) (n : Fin 8) (ph : Fin 16) : Stamp :=
  let d := s.portDom n
  let lat := tenths32 ((latTenths (s.ethModeOf n) s.eth[n].speed.val).2) +
    (if s.ethModeOf n = 4 ∧ bitOf (s.reg (ethMode n.val)) 13 then tenths32 20 else 0)
  let trim := sgn (s.reg (dtmPRxTrim n.val)) * 16777216
  ⟨dtAdd (s.time d) (s.phase n d ph - lat + trim), d, s.stampDeg d⟩

/-- The transmit stamp of R68. -/
def State.txStamp (s : State) (n : Fin 8) (ph : Fin 16) : Stamp :=
  let d := s.portDom n
  let lat := tenths32 ((latTenths (s.ethModeOf n) s.eth[n].speed.val).1) +
    (if s.ethModeOf n = 4 ∧ bitOf (s.reg (ethMode n.val)) 12 then tenths32 20 else 0)
  let trim := sgn (s.reg (dtmPTxTrim n.val)) * 16777216
  ⟨dtAdd (s.time d) (s.phase n d ph + lat + trim), d, s.stampDeg d⟩

/-! Frame fields. -/

/-- The length of R174: the bytes held and the four of the FCS. -/
def frameLen (bs : List Byte) : Nat := bs.length + 4

/-- The FCS as it stands on the line: CRC-32, least significant byte first. -/
def fcsBytes (bs : List Byte) : List Byte := leBytes (crc32 bs)

/-- Whether a tag protocol identifier is an outer tag of the switch (Table SWC-2 step 2). -/
def State.isTpid (s : State) (t : Nat) : Bool := t = 0x8100 || t = fieldOf (s.reg swcTpid) 0 16

/-- The offset of the EtherType after every tag of the switch. -/
def State.etAfterTags (s : State) (bs : List Byte) : Nat :=
  if s.isTpid (be16At bs 12) then (if s.isTpid (be16At bs 16) then 20 else 16) else 12

/-- The offset of the EtherType behind an outer VLAN tag, if any. -/
def State.etOff (s : State) (bs : List Byte) : Nat := if s.isTpid (be16At bs 12) then 16 else 12

/-- One's complement sum of 16-bit big-endian words; an odd last byte counts high. -/
def onesSum : List Byte → Nat
  | [] => 0
  | [a] => a.toNat * 256
  | a :: b :: r => a.toNat * 256 + b.toNat + onesSum r

/-- Fold a sum to 16 bits with end-around carry. -/
def foldSum (x : Nat) : Nat :=
  let a := x % 65536 + x / 65536
  let b := a % 65536 + a / 65536
  b % 65536 + b / 65536

/-- The Internet checksum of bytes. -/
def inetSum (bs : List Byte) : Nat := 65535 - foldSum (onesSum bs)

/-- A checksum updated for bytes that change (RFC 1624, R73): the unchanged words cancel. -/
def sumUpdate (ck : Nat) (old new : List Byte) : Nat :=
  let o := onesSum old
  let n := onesSum new
  65535 - foldSum ((65535 - ck) + (65535 - foldSum o) + foldSum n)

/-- Write a big-endian field of n bytes at an offset. -/
def putBe (bs : List Byte) (off n v : Nat) : List Byte := overwrite bs off (toBe n (v % 2 ^ (8 * n)))

/-- The offset of the UDP header of a frame, and whether it stands over IPv4. -/
def State.udpOff (s : State) (bs : List Byte) : Option (Nat × Bool) :=
  let e := s.etOff bs
  if be16At bs e = 0x0800 ∧ byteAt bs (e + 11) = 17 then
    some (e + 2 + (byteAt bs (e + 2)).toNat % 16 * 4, true)
  else if be16At bs e = 0x86DD ∧ byteAt bs (e + 8) = 17 then some (e + 42, false)
  else none

/-- A frame whose bytes from `off` change, with its UDP checksum updated; over IPv4 a zero checksum is left at
zero (R73). -/
def State.rewrite (s : State) (bs : List Byte) (off : Nat) (v : List Byte) : List Byte :=
  let out := overwrite bs off v
  match s.udpOff bs with
  | none => out
  | some (u, v4) =>
    if off < u + 8 then out
    else
      let ck := be16At bs (u + 6)
      if v4 && ck = 0 then out
      else
        let ck' := sumUpdate ck (bs.drop (u + 8)) (out.drop (u + 8))
        putBe out (u + 6) 2 (if ck' = 0 then 65535 else ck')

/-- One-step origin (R71): SEC and NS into originTimestamp, FRAC[31:16] added to correctionField. -/
def State.oneStepOrigin (s : State) (bs : List Byte) (off : Nat) (st : Stamp) : List Byte :=
  let b1 := s.rewrite bs (off + 34) (toBe 6 (dtSec st.t) ++ toBe 4 (dtNs st.t))
  let corr := beNat (slice b1 (off + 8) 8) + dtFrac st.t / 65536
  s.rewrite b1 (off + 8) (toBe 8 (corr % 2 ^ 64))

/-- One-step correction (R72): (tx_stamp − rx_stamp) × 2^16 added to correctionField. DESIGN CHOICE (log 40): R72 gives
no rounding of the product; the model floors it. -/
def State.oneStepCorr (s : State) (bs : List Byte) (off : Nat) (tx rx : Stamp) : List Byte :=
  let diff : Int := ((dtVal tx.t : Int) - (dtVal rx.t : Int)) / 65536
  let corr := ((beNat (slice bs (off + 8) 8) : Int) + diff) % (2 ^ 64 : Int)
  s.rewrite bs (off + 8) (toBe 8 corr.toNat)

end Sys2Proof.Machine
end

