-- ==== Sys2Proof/Machine/Status.lean ====
section
/-! DEFINITION. What the ST registers show: STATUS of every block, the availability and summary words of GLB,
and the interrupts that their rises raise (R53, R54). -/

namespace Sys2Proof.Machine

/-! CLK (Table CLK-4). -/

/-- ROLE of PLL p in CLK_PLL_STATUS: 0 group A, 1 group B, 2 SPARE, 3 FAILED (Table CLK-5). -/
def State.pllRole (s : State) (p : Nat) : Nat := fieldOf (s.reg clkPllStatus) (4 * p + 1) 2

/-- LOCK of PLL p. -/
def State.pllLock (s : State) (p : Nat) : Bool := bitOf (s.reg clkPllStatus) (4 * p)

/-- The number of PLLs in role SPARE. -/
def State.sparePlls (s : State) : Nat := ((List.range 3).filter (fun p => s.pllRole p = 2)).length

/-- CLK_STATUS. -/
def State.clkStatus (s : State) : Nat :=
  4 * b2n (s.sparePlls = 0) + 2 * b2n (decide (s.reg clkDegraded ≠ 0)) + b2n s.clk.aligned

/-! GLB (Tables GLB-15 and GLB-16). -/

/-- The number of engines in SPARE. -/
def State.engineSpares (s : State) : Nat := (s.eng.toList.filter (fun e => e.st = .spare)).length

/-- Whether some bank's repair record reads EXHAUSTED (R363). -/
def State.anyExhausted (s : State) : Bool :=
  (List.range 112).any (fun b => bitOf (s.tab .mem 0 (4 * b)) 31)

/-- NO_REDUNDANCY (R407). -/
def State.noRedundancy (s : State) : Bool :=
  s.fenced 18 || s.fenced 19 || s.fenced 20 || s.fenced 32 || s.fenced 33 || s.fenced 34 || s.fenced 35 ||
  s.fenced 36 || s.anyExhausted || (bitOf (s.reg fltTwinCfg) 31 && s.flt.twin ≠ .paired)

/-- CLAIMS_LAPSED: R2 and R3 do not hold (Table GLB-16). It reads 0 while the device is held in reset. -/
def State.claimsLapsed (s : State) : Bool :=
  s.power ≠ .held && (s.noRedundancy || s.sparePlls = 0 || s.engineSpares = 0)

/-- GLB_AVAIL_STATUS. -/
def State.availStatus (s : State) : Nat :=
  if s.power = .held then 0 else
    2 ^ 31 * b2n s.claimsLapsed +
    2 ^ 12 * b2n (s.insts.toList.any (fun i => match i with | some x => x.stopped | none => false)) +
    b2n (decide (s.flt.perm ≠ 0)) * 2 ^ 11 +
    2 ^ 10 * b2n (popCount s.swc.retired = 1) +
    b2n (decide (s.reg clkDegraded ≠ 0)) * 2 ^ 9 +
    2 ^ 8 * b2n (s.engineSpares = 1) +
    b2n s.noRedundancy * 4 + b2n (s.sparePlls = 0) * 2 + b2n (s.engineSpares = 0)

/-- GLB_STATUS. -/
def State.glbStatus (s : State) : Nat := b2n s.claimsLapsed * 4 + b2n s.anyFenced * 2 + 1

/-! DTM and TTC (Tables DTM-6 and TTC-1). -/

/-- |ADJ| > DTM_JUMP_LIMIT ns (R62). -/
def State.adjExceeds (s : State) (d : Fin 4) : Bool :=
  decide ((sgn s.dom[d].adj).natAbs > fieldOf (s.reg dtmJumpLimit) 0 20 * 4294967296)

/-- STEP_REFUSED of a domain: a held request exceeds the limit (R62). -/
def State.stepRefused (s : State) (d : Fin 4) : Bool := s.dom[d].req = .held && s.adjExceeds d

/-- DTM_STATUS. -/
def State.dtmStatus (s : State) : Nat :=
  (List.range 4).foldl (fun a k =>
    let d := Fin.ofNat 4 k
    a + b2n (s.fenced (32 + k)) * 2 ^ (12 + k) + b2n (s.dom[d].holdover) * 2 ^ (8 + k) +
      b2n (s.stepRefused d) * 2 ^ (4 + k)) 1

/-- TTC_STATUS: TCU_NE, and QUIESCED while no unit is ARMED and no pulse is active (R87). -/
def State.ttcStatus (s : State) : Nat :=
  65536 * (bitsFrom 16 (fun n => (s.tcu.toList.getD n Tcu.reset).fifo ≠ [])).toNat +
  b2n (s.ttu.toList.all (fun t => !t.armed && !t.pulse))

/-! ETH (Table ETH-6). -/

/-- Whether a port is held by a Nerund Ring instance: EN of NRG and RING_EN with one of its ports, or a hub with
its UPLINK or a leaf port (R187, R192, R221, R253, R258). -/
def State.ringHolds (s : State) (n : Nat) : Bool :=
  let h := s.reg nrgHubCfg
  s.en .nrg && ((List.range 2).any (fun r =>
    let c := s.reg (nrgRingCfg r)
    bitOf c 31 && (fieldOf c 24 3 = n || fieldOf c 20 3 = n || (bitOf c 29 && fieldOf c 16 3 = n))) ||
    (bitOf h 31 && (fieldOf h 8 3 = n || bitOf h (16 + n))))

/-- USEp: the IPB cells held by DATA frames that entered port n with priority p (R184). -/
def State.pfcUse (s : State) (n : Fin 8) (p : Nat) : Nat :=
  s.swc.stored.foldl (fun a f =>
    if f.cls = .data ∧ f.ingress.val = n.val ∧ f.tc.val = p then a + f.cells0 + f.cells1 else a) 0

/-- Whether the watermarks of a priority are out of order: XON < XOFF ≤ LIMIT fails (R185). -/
def State.pfcBadOf (s : State) (n : Fin 8) (p : Nat) : Bool :=
  let xoff := fieldOf (s.reg (ethPfcXoff n.val p)) 0 19
  !(decide (fieldOf (s.reg (ethPfcXon n.val p)) 0 19 < xoff) &&
    decide (xoff ≤ fieldOf (s.reg (ethPfcLimit n.val p)) 0 19))

/-- TX_EN[p] of ETH_PFC_CFG. -/
def State.pfcTxEn (s : State) (n : Fin 8) (p : Nat) : Bool := bitOf (s.reg (ethPfcCfg n.val)) p

/-- The next PN of a secure association: words 12 and 13 of its entry (Table ETH-9). -/
def State.saPn (s : State) (n : Fin 8) (entry : Nat) : Nat :=
  (s.tab (.eth n) 3 (entry * 16 + 12)).toNat + 4294967296 * (s.tab (.eth n) 3 (entry * 16 + 13)).toNat

/-- Whether neither direction of a port has a frame in progress: none in transmission or preempted, and no send between
two of its frames (R193; a reception is one command). -/
def State.ethQuiet (s : State) (n : Fin 8) : Bool :=
  s.eth[n].tx.isNone && s.eth[n].pre.isNone && s.swc.queues.all (fun q => q.lp.val ≠ n.val || q.seg = 0)

/-- ETH_STATUS. -/
def State.ethStatus (s : State) (n : Fin 8) : Nat :=
  let e := s.eth[n]
  65536 * e.paused.toNat + 256 * e.xoff.toNat +
  b2n ((List.range 8).any (fun p => s.pfcTxEn n p && s.pfcBadOf n p)) * 32 +
  b2n (decide (2 ^ 63 ≤ s.saPn n (fieldOf (s.reg (ethMsecTxsa n.val)) 0 2))) * 16 +
  b2n e.hdRefused * 8 + b2n (e.tsq.length = 16) * 4 + b2n (s.en (.eth n) && !e.up) * 2 + b2n (s.ethQuiet n)

/-! SWC and BFM (Tables SWC-12 and BFM-2). -/

/-- The ring of sampling records is full: PI + 1 equals CI modulo its size (R217). -/
def State.smpFull (s : State) : Bool :=
  let n := 2 ^ fieldOf (s.reg swcSmpCfg) 0 5
  (fieldOf (s.reg swcSmpPi) 0 16 + 1) % n = fieldOf (s.reg swcSmpCi) 0 16 % n

/-- SWC_STATUS: QUIESCED while both slices hold no frame (R219). -/
def State.swcStatus (s : State) : Nat :=
  b2n s.smpFull * 16 + b2n (s.reg swcSmpPi ≠ s.reg swcSmpCi) * 8 + b2n (s.fenced 19) * 4 +
  b2n (s.fenced 18) * 2 + b2n (s.swc.stored = [])

/-- Whether an IPB die is retired (R215). -/
def State.retired (s : State) (d : Nat) : Bool := s.swc.retired.getLsbD d

/-- A limit as it acts: halved while one die is retired (R215). -/
def State.halved (s : State) (v : Nat) : Nat := if popCount s.swc.retired = 1 then v / 2 else v

/-- Cells of an IPB die in use. -/
def State.dieUsed (s : State) (d : Nat) : Nat :=
  s.swc.stored.foldl (fun a f => a + (if d = 0 then f.cells0 else f.cells1)) 0

/-- Free cells of an IPB die: of 131,072; none of a retired die (R215). -/
def State.dieFree (s : State) (d : Nat) : Nat := if s.retired d then 0 else 131072 - s.dieUsed d

/-- BFM_IPB_FREE. -/
def State.ipbFree (s : State) : Nat := s.dieFree 0 + s.dieFree 1

/-- BFM_EXP_FREE: of 16,384 express cells. -/
def State.expFree (s : State) : Nat := 16384 - s.swc.stored.foldl (fun a f => a + f.ecells) 0

/-- BFM_STATUS. -/
def State.bfmStatus (s : State) : Nat :=
  b2n (s.retired 1) * 32 + b2n (s.retired 0) * 16 +
  b2n (decide (s.ipbFree < s.halved (fieldOf (s.reg bfmBeFloor) 0 19))) * 8 +
  b2n (decide (s.expFree < s.halved (fieldOf (s.reg bfmExpRsv) 0 15))) * 4 +
  b2n (popCount s.swc.retired = 1) * 2 + 1

/-! FLT (Table FLT-9). -/

/-- FLT_STATUS. -/
def State.fltStatus (s : State) : Nat :=
  b2n (bitOf (s.reg fltTwinCfg) 31 && s.flt.twin ≠ .paired) * 16 + b2n (decide (s.flt.perm ≠ 0)) * 8 +
  b2n s.anyFenced * 4 + b2n s.claimsLapsed * 2 + 1

/-! PEC (Table PEC-10, R121). -/

/-- Whether an engine holds work: a kernel cycle in progress, a service context not in hold, a result in flight. -/
def State.pecBusy (s : State) (e : Fin 10) : Bool :=
  let x := s.eng[e]
  (x.st = .active || x.st = .debug) && s.islandOn (3 + e.val) &&
    (x.kern ≠ .idle || (x.svc ≠ .off && !s.inHold (.pec e)) || x.flight ≠ [])

/-- PEC_STATUS. -/
def State.pecStatus (s : State) (e : Fin 10) : Nat :=
  let x := s.eng[e]
  b2n x.wExceeded * 16 + b2n x.halted * 8 + b2n (x.st = .fenced) * 4 + b2n x.swapPend * 2 + b2n (!s.pecBusy e)

/-- STATE of an engine as coded in R120. -/
def engStCode : EngSt → Nat
  | .off => 0
  | .spare => 1
  | .active => 2
  | .test => 3
  | .fenced => 4
  | .debug => 5

/-- PEC_STATE: INSTANCE reads 0xFF in every state except ACTIVE and DEBUG (R120). -/
def State.pecStateWord (s : State) (e : Fin 10) : Word :=
  let x := s.eng[e]
  let i := match x.role with
    | some r => if x.st = .active || x.st = .debug then r.val else 0xFF
    | none => 0xFF
  w32 (256 * i + engStCode x.st)

/-! MBX and MEM (Tables MBX-6 and MEM-4). -/

/-- MBX_STATUS. -/
def State.mbxStatus (s : State) : Nat :=
  let en : BitVec 64 := s.reg (mbxFullEn 1) ++ s.reg (mbxFullEn 0)
  b2n (decide (s.mbx.notice ≠ 0)) * 4 + b2n (decide (s.mbx.full &&& en ≠ 0)) * 2 + 1

/-- MEM_STATUS: QUIESCED while no window is open (R364). -/
def State.memStatus (s : State) : Nat := b2n s.anyExhausted * 2 + b2n s.mem.window.isNone

/-! NRG (Table NRG-10; R221, R227). -/

/-- RING_EN. -/
def State.ringEn (s : State) (r : Nat) : Bool := bitOf (s.reg (nrgRingCfg r)) 31

/-- The ring ports of a node: PORT_A, PORT_B, and PORT_S in a dual-plane cell (R221). -/
def State.ringPorts (s : State) (r : Nat) : List Nat :=
  let c := s.reg (nrgRingCfg r)
  [fieldOf c 24 3, fieldOf c 20 3] ++ (if bitOf c 29 then [fieldOf c 16 3] else [])

/-- A window of a ring (Table NRG-12). -/
structure RingWin where
  win : Nat
  read : Bool
  writer : Nat
  off : Nat
  n : Nat
deriving DecidableEq, Repr

/-- The valid windows of a ring in ascending number. -/
def State.ringWins (s : State) (r : Nat) : List RingWin :=
  ((List.range 1024).map (fun w =>
    let w0 := s.tab .nrg 0 ((1024 * r + w) * 2)
    let v : Bool × RingWin := (bitOf w0 31, ⟨w, bitOf w0 30, fieldOf w0 16 7, fieldOf w0 0 16,
      fieldOf (s.tab .nrg 0 ((1024 * r + w) * 2 + 1)) 0 11⟩)
    v)).filterMap (fun v => if v.1 then some v.2 else none)

/-- The bytes of a record: STATUS, DATA, TAG (Table NRG-2). -/
def RingWin.size (w : RingWin) : Nat := w.n + 9

/-- LEN: the window area ends with its last record (log 21). -/
def State.ringLen (s : State) (r : Nat) : Nat :=
  (s.ringWins r).foldl (fun a w => if a < w.off + w.size - 64 then w.off + w.size - 64 else a) 0

/-- Whether the window table keeps the rules of R227. -/
def State.winsOk (s : State) (r : Nat) : Bool :=
  let ws := s.ringWins r
  let nodes := fieldOf (s.reg (nrgRingNodes r)) 0 8
  ws.all (fun w => decide (64 ≤ w.off) && decide (w.writer < nodes) &&
    decide ((ws.filter (fun v => v.writer = w.writer)).length ≤ 8) &&
    ws.all (fun v => v.win = w.win || decide (v.off + v.size ≤ w.off) || decide (w.off + w.size ≤ v.off))) &&
  decide ((ws.filter (fun w => w.read)).length ≤ 16)

/-- CFG_BAD of a ring with RING_EN = 1 (R221). -/
def State.ringCfgBad (s : State) (r : Nat) : Bool :=
  let ps := s.ringPorts r
  let modeOk : Nat → Bool := fun p =>
    let m := s.ethModeOf (Fin.ofNat 8 p)
    serdesMode m || m = 4
  s.ringEn r && ((s.ringEn (1 - r) && ps.any (fun p => (s.ringPorts (1 - r)).contains p)) || ps.getD 0 0 = ps.getD 1 0 ||
    ps.any (fun p => !modeOk p || decide (fieldOf (s.reg (ethMaxlen p)) 0 14 < 84 + s.ringLen r)) || !s.winsOk r)

/-- Whether a ring runs: EN, RING_EN, no CFG_BAD (R258). -/
def State.ringRuns (s : State) (r : Fin 2) : Bool := s.en .nrg && s.ring[r].nst ≠ .disabled

/-- The six bits of a ring in NRG_STATUS. -/
def State.ringBits (s : State) (r : Fin 2) : Nat :=
  let x := s.ring[r]
  let up := s.ringRuns r
  b2n (up && !x.seen && decide (x.noHdr ≠ 0)) * 32 + b2n (decide (x.looped ≠ 0)) * 16 + b2n (up && x.topo = 2) * 8 +
  b2n (up && x.stn ≠ .active) * 4 + b2n (x.stn = .failed) * 2 + b2n (s.ringCfgBad r.val)

/-- NRG_STATUS: QUIESCED once no envelope of its own is in transmission (R258). -/
def State.nrgStatus (s : State) : Nat :=
  128 * s.ringBits 1 + s.ringBits 0 * 2 + b2n (s.ring[0].env.isNone && s.ring[1].env.isNone)

/-! PSQ (Table PSQ-3). -/

/-- PSQ_STATUS: QUIESCED while every channel is STOPPED or FAULT and no pin effect waits to land (R290). -/
def State.psqStatus (s : State) : Nat :=
  b2n (s.psq.ch.toList.any (fun x => x.st = .fault)) * 8 + s.psq.swap.toNat * 2 +
    b2n (s.psq.ch.toList.all (fun x => (x.st = .stopped || x.st = .fault) &&
      x.fx.all (fun e => decide (e.1 ≤ s.clk.tick))))

/-! HIF (Table HIF-11). -/

/-- HIF_STATUS: QUIESCED once no frame is between fetch and completion (R320). -/
def State.hifStatus (s : State) : Nat :=
  let l := s.reg hifLinkStatus
  b2n (bitOf l 31 && !bitOf l 15) * 8 + b2n (s.power ≠ .held && !bitOf l 7) * 4 + b2n (s.hif.buserr ≠ []) * 2 +
    b2n (s.hif.ctx.all (fun x => x.2.txq = []))

/-! XPB and SGM (Tables XPB-1, XPB-6, SGM-3). -/

/-- ROLE of the expansion port as it acts: host-slave in RECOVERY (R322, R327). -/
def State.xpbRole (s : State) : Nat := if s.flt.recovery then 1 else fieldOf (s.reg xpbCfg) 30 2

/-- The MFPs the role and the bus use (Table XPB-1). -/
def xpbPins (role : Nat) (qspi : Bool) : List Nat :=
  if role = 0 then []
  else (if qspi then [64, 65, 66, 67] else [64, 65, 66, 67, 68, 69, 70, 71, 72, 73, 74, 75, 76, 77, 78, 79]) ++
    [80, 81, 82, 83] ++ (if role = 3 then [84, 85] else if role = 1 then [86] else [])

/-- PINS_BAD (R323). -/
def State.pinsBad (s : State) : Bool :=
  s.en .xpb && (xpbPins s.xpbRole (bitOf (s.reg xpbCfg) 29)).any (fun m => fieldOf (s.reg (psqMfp m)) 28 3 ≠ 3)

/-- XPB_STATUS. -/
def State.xpbStatus (s : State) : Nat :=
  let pi := fieldOf (s.reg xpbPelPi) 0 6
  let ci := fieldOf (s.reg xpbPelCi) 0 6
  b2n s.pinsBad * 16 + b2n ((pi + 64 - ci) % 64 = 32) * 8 + b2n (pi ≠ ci) * 4 +
    b2n (decide (s.reg xpbPollAct &&& s.reg xpbPollEn ≠ 0)) * 2 + b2n (s.xpb.queue = [] && !s.xpb.busy)

/-- The routes listed in space 0, ascending. -/
def State.routeKeys (s : State) : List Nat :=
  (s.tabs.filter (fun e => e.1 / 2 ^ 24 = 128 * blkIdx .sgm && e.1 % 8 = 0)).map (fun e => e.1 % 2 ^ 24 / 8)

/-- Word w of route k (Table SGM-2). -/
def State.routeWord (s : State) (k w : Nat) : Word := s.tab .sgm 0 (k * 8 + w)

/-- SGM_STATUS: QUIESCED once no delivery is in flight, which a posted far write is until its end (R336). -/
def State.sgmStatus (s : State) : Nat :=
  b2n (s.routeKeys.any (fun k => bitOf (s.routeWord k 0) 31 && fieldOf (s.routeWord k 7) 24 8 ≠ 0)) * 2 +
    b2n (!s.xpb.queue.any (fun q => match q.src with | .farWrite _ => true | _ => false))

/-! SEC (Table SEC-13). -/

/-- The lifecycle as fused and loaded: GLB_LIFECYCLE[1:0]. -/
def State.lifecycle (s : State) : Nat := fieldOf (s.reg glbLifecycle) 0 2

/-- NO_OWNER_KEY: OWNED with no key loaded (R371). -/
def State.noOwnerKey (s : State) : Bool := s.lifecycle = 2 && s.sec.slots.toList.all (fun x => x.key.isNone)

/-- SEC_STATUS. -/
def State.secStatus (s : State) : Nat :=
  b2n s.sec.tamper * 8 + b2n (fieldOf (s.reg glbLifecycle) 8 2 ≠ 0) * 4 + b2n s.noOwnerKey * 2 + 1

/-! CAN (Tables CAN-1 and CAN-6). -/

/-- A bit timing set within the limits of its phase (Table CAN-1). -/
def bitTimingOk (v : Word) (minTq minClk : Nat) : Bool :=
  let brp := fieldOf v 24 8 + 1
  let t1 := fieldOf v 16 8 + 1
  let t2 := fieldOf v 8 7 + 1
  let sjw := fieldOf v 0 7 + 1
  decide (sjw ≤ t1) && decide (sjw ≤ t2) && decide (minTq ≤ 1 + t1 + t2) && decide (minClk ≤ brp * (1 + t1 + t2))

/-- TIMING_BAD (R260). -/
def State.canTimingBad (s : State) (n : Fin 4) : Bool :=
  s.en (.can n) && !(bitTimingOk (s.reg (canNbt n.val)) 8 80 && bitTimingOk (s.reg (canDbt n.val)) 5 10)

/-- TT_ROLE: 0 none, 1 slave, 2 master (R269). -/
def State.canRole (s : State) (n : Fin 4) : Nat := fieldOf (s.reg (canCfg n.val)) 24 2

/-- CAN_STATUS. -/
def State.canStatus (s : State) (n : Fin 4) : Nat :=
  let x := s.can[n]
  b2n (x.events.length = 32) * 64 + b2n (x.events ≠ []) * 32 +
  b2n (decide (s.canRole n ≠ 0) && !(s.en (.can n) && x.sync)) * 16 + b2n x.busOff * 8 +
  b2n (!x.busOff && (decide (127 < x.txErr) || decide (127 < x.rxErr))) * 4 + b2n (s.canTimingBad n) * 2 + 
    b2n (x.sending.isNone && !x.foreign)

end Sys2Proof.Machine
end

