-- ==== Sys2Proof/Machine/Guard.lean ====
section
/-! DEFINITION. Who may reach a register and what a refused access leaves behind: reserved locations (R38, R39),
gated islands (R40), fenced domains (R398), the twin's SHADOW (Table FLT-5), supervisor-only fields (R42) and
debug levels (R386, Table SEC-9). -/

namespace Sys2Proof.Machine

/-- The debug level in force: GLB_LIFECYCLE[9:8] (R385). -/
def State.dbgLevel (s : State) : Nat := fieldOf (s.reg glbLifecycle) 8 2

/-- Whether a master is a host link, and which. -/
def hostLink : Master → Option Bool
  | .h0 => some false
  | .h1 => some true
  | _ => none

/-- Whether an access comes from software outside the device: a host link or the expansion host. -/
def isOuter : Master → Bool
  | .h0 => true
  | .h1 => true
  | .exp => true
  | _ => false

/-- Enter an access in the 16-entry bus-error log (R319, Table HIF-12). -/
def State.logBusErr (s : State) (link write : Bool) (bar a : Nat) (status : Byte) : State :=
  if s.hif.buserr.length < 16 then
    let w0 := w32 (2 ^ 24 * status.toNat + 2 ^ 23 * b2n link + 2 ^ 22 * b2n write + 2 ^ 20 * bar + 2 ^ 15)
    { s with hif := { s.hif with buserr := s.hif.buserr ++ [⟨w0, w32 a, w32 (dtNs (s.time 0))⟩] } }
  else s.count hifBuserrDropCnt

/-- A host link's access refused under R39 or R40: logged (R319); a read completes with Completer Abort, a write is
dropped, with an AER message if AER is enabled. -/
def State.hostErr (s : State) (link write : Bool) (bar a : Nat) (status : Byte) : State :=
  let m : Master := if link then .h1 else .h0
  let s1 := s.logBusErr link write bar a status
  if !write then s1.emit (.completerAbort m (w32 a))
  else if s.hif.aer.getLsbD (b2n link) then s1.emit (.aerNonFatal m)
  else s1

/-- An access refused under R39 or R40, with the status of its log entry: a host link's as said; the supervisor takes a
bus error, counted; the expansion host and JTAG are answered with the status. -/
def State.accessErr (s : State) (m : Master) (write : Bool) (bar a : Nat) (status : Byte) : State :=
  match m with
  | .h0 => s.hostErr false write bar a status
  | .h1 => s.hostErr true write bar a status
  | .sup => (s.count glbSupBuserrCnt).emit (.busError m (w32 a) status)
  | .exp => s.emit (.busError m (w32 a) status)
  | .jtag => s.emit (.busError m (w32 a) status)

/-- The fence domain a register belongs to, by block and offset in it (R398): the whole of a PEC, ETH or CAN
instance and XPB; within DTM, PSQ, HIF, SWC and BFM the per-instance registers of the domain, sequencer
engine, link, slice or pool. -/
def regDomain (b : Blk) (o : Nat) : Option Nat :=
  match b with
  | .pec n => some n.val
  | .eth n => if 0x300 ≤ o ∧ o ≤ 0x308 then none else some (10 + n.val)
  | .can n => some (23 + n.val)
  | .xpb => some 31
  | .dtm => if 0x100 ≤ o ∧ o < 0x200 then some (32 + (o - 0x100) / 0x40) else none
  | .psq =>
    if 0x1000 ≤ o ∧ o < 0x3000 then some (27 + (o - 0x1000) / 0x1000)
    else if 0x30 ≤ o ∧ o < 0x48 then some (27 + o / 4 % 2)
    else none
  | .bfm => if 0x20 ≤ o then some 20 else none
  | _ => none

/-- The bits of a shared register whose fields belong to fenced domains (R398): FORCE_STEP and LOAD of a Datum domain,
SWAP of a sequencer engine, the default context of a host link. -/
def State.fencedMask (s : State) (b : Blk) (o : Nat) : Word :=
  match b, o with
  | .dtm, 0x20 => bitsFrom 32 (fun k => decide (k < 8) && s.fenced (32 + k % 4))
  | .psq, 0x20 => bitsFrom 32 (fun k => decide (k < 2) && s.fenced (27 + k))
  | .hif, 0x60 => bitsFrom 32 (fun k => s.fenced (29 + k / 16))
  | _, _ => 0

/-- Whether this device is the SHADOW of a pair: its host paths are withheld (Table FLT-5). -/
def State.shadowed (s : State) : Bool := s.flt.shadow && s.flt.twin = .paired

/-- Whether the SHADOW of a pair refuses an access: host and expansion-host writes of RW and CF fields and of
spaces while PAIRED (Table FLT-5). -/
def State.shadowRefuses (s : State) (m : Master) : Bool :=
  isOuter m && s.flt.shadow && s.flt.twin = .paired

/-- Whether a register whose write is an operation of its block is an RW field (the block chapters' tables): EN of
CTRL, IND_DATA, CLK_GATE_REQ, the trigger and capture units, ETH_MDIO_CMD, SWC_Pn_GATE_CTRL, the pin and channel
settings of PSQ, FLT_TWIN_CFG. -/
def specialRw (b : Blk) (o : Nat) : Bool :=
  decide (o = 0) || decide (o = 0x14) ||
  match b with
  | .clk => decide (o = 0x30)
  | .ttc => decide (0x100 ≤ o) && !(decide (o < 0x400) && decide (o % 0x20 = 0x18))
  | .eth _ => decide (o = 0x304)
  | .swc => decide (0x100 ≤ o)
  | .psq => decide (0x100 ≤ o) && !(decide (0x1000 ≤ o) && (decide (o % 0x80 = 0x08) || decide (o % 0x80 = 0x34)))
  | .flt => decide (o = 0x60)
  | _ => false

/-- Whether a master reaches supervisor-only fields and spaces: the supervisor, and every master at D3 (R42,
Table SEC-9). -/
def State.supReach (s : State) (m : Master) : Bool := m = .sup || s.dbgLevel = 3

/-- An IND set as reset leaves it (R49). -/
def indReset : IndSet := ⟨0, 0, 0, false, none, [], false⟩

/-- Whether an offset is IND_DATA with the supervisor's set, which JTAG shares, at the fault or step log: FLT space 0,
DTM space 0. -/
def State.jtagLog (s : State) (b : Blk) (o : Nat) : Bool :=
  (b = .flt || b = .dtm) && decide (o = 0x14) &&
    fieldOf (amGet (fun _ => indReset) s.ind (blkIdx b * 2 + 1)).addr 24 7 = 0

/-- What JTAG may do to a register at the level in force (Table SEC-9): D1 reads ST, CT and SH fields and the fault
and step logs; D2 all but SEC and mailbox payloads; D3 all. -/
def State.jtagReach (s : State) (write : Bool) (b : Blk) (o : Nat) (k : RKind) : Bool :=
  match s.dbgLevel with
  | 0 => false
  | 1 => !write && (k = .st || k = .ct || k = .sh || s.jtagLog b o)
  | 2 => b ≠ .sec && !(b = .mbx && decide (0x1000 ≤ o))
  | _ => true

/-- What becomes of an access to a register. -/
inductive Access where
  | ok (b : Blk) (o : Nat) (row : RegRow)
  | err (status : Byte)
  | supOnly (b : Blk)
deriving DecidableEq, Repr

/-- The check of a register access at a BAR0 offset, in order: defined and whole, its island and port powered,
its domain not fenced (writes, but of the IND registers, whose accesses answer FENCED themselves), twin policy (writes), debug level, supervisor-only (writes). -/
def State.access (s : State) (m : Master) (write : Bool) (a : Nat) : Access :=
  match regAt a with
  | none => .err stBusError
  | some (b, o, row) =>
    if !s.islandOn (blkIsland b) then .err stIslandOff
    else if (match b with | .eth n => s.portGated n.val && !(decide (0x300 ≤ o ∧ o ≤ 0x308)) | _ => false) then
      .err stIslandOff
    else if write && !decide (0x10 ≤ o ∧ o ≤ 0x18) && (match regDomain b o with | some d => s.fenced d | none => false) then
      .err stFenced
    else if write && s.shadowRefuses m && (row.kind = .rw || row.kind = .cf || (row.kind = .special && specialRw b o)) then
      .err stPolicy
    else if m = .jtag && !s.jtagReach write b o row.kind then .err stPolicy
    else if write && row.sup && !s.supReach m then .supOnly b
    else .ok b o row

/-- A write of a register that has a row of its own: the effect if the access is let through, else what its
refusal leaves behind. -/
def State.guarded (s : State) (m : Master) (a : Nat) (f : State → State) : State :=
  match s.access m true a with
  | .ok _ _ _ => f s
  | .err st => s.accessErr m true 0 a st
  | .supOnly b => s.rejReg b a

/-- A command of a shared register: the bits of fenced domains are dropped and logged, the others do what they say
(R398). -/
def State.sharedCmd (s : State) (m : Master) (b : Blk) (o : Nat) (v : Word) (f : Word → State → State) : State :=
  let bad := v &&& s.fencedMask b o
  if bad = 0 then f v s
  else
    let s1 := s.accessErr m true 0 (blkBase b + o) stFenced
    if v = bad then s1 else f (v &&& ~~~bad) s1

/-- A read of a register that has a row of its own. -/
def State.guardedRead (s : State) (m : Master) (a : Nat) (f : State → State) : State :=
  match s.access m false a with
  | .ok _ _ _ => f s
  | .err st => s.accessErr m false 0 a st
  | .supOnly b => s.rejReg b a

/-! Shadow words (R47). -/

/-- The number of a master, for keys. -/
def masterIdx : Master → Nat
  | .h0 => 0
  | .h1 => 1
  | .exp => 2
  | .sup => 3
  | .jtag => 4

/-- The key of a latched word: register, and the number of its reader: a master, or 5 + r for the instance of
engine role r. -/
def latchKey (who a : Nat) : Nat := a * 16 + who

/-- Latch a word for a reader. -/
def State.latchFor (s : State) (who a : Nat) (v : Word) : State :=
  { s with latches := amPut (fun _ => 0) s.latches (latchKey who a) v }

/-- The word last latched for a reader. -/
def State.latchedFor (s : State) (who a : Nat) : Word := amGet (fun _ => 0) s.latches (latchKey who a)

/-- Latch a word for a master. -/
def State.latch (s : State) (m : Master) (a : Nat) (v : Word) : State := s.latchFor (masterIdx m) a v

/-- The word last latched for a master. -/
def State.latched (s : State) (m : Master) (a : Nat) : Word := s.latchedFor (masterIdx m) a

/-! Vectors and interrupts (R53, R313). -/

/-- Send a vector of a link, or set its pending bit while it is masked (R313). -/
def State.msix (s : State) (link : Bool) (vector : Nat) : State :=
  if bitOf (amGet tabReset s.tabs (tabKey (msixUnit link) 0 (vector * 4 + 3))) 0 then
    let pend := vmod s.hif.msixPend (Fin.ofNat 2 (b2n link)) (fun w => setBit w vector true)
    { s with hif := { s.hif with msixPend := pend } }
  else s.emit (.msix link vector)

end Sys2Proof.Machine
end

