-- ==== Sys2Proof/Machine/Irq.lean ====
section
/-! DEFINITION. STATUS of every block in one place, the interrupts its rises raise (R53, R54), and how every
meaning ends: with the interrupts and the level of FAULT_N that its effect brings about. -/

namespace Sys2Proof.Machine

/-- STATUS of a block instance. -/
def State.statusOf (s : State) : Blk → Nat
  | .glb => s.glbStatus
  | .clk => s.clkStatus
  | .dtm => s.dtmStatus
  | .ttc => s.ttcStatus
  | .hif => s.hifStatus
  | .eth n => s.ethStatus n
  | .swc => s.swcStatus
  | .bfm => s.bfmStatus
  | .nrg => s.nrgStatus
  | .can n => s.canStatus n
  | .psq => s.psqStatus
  | .pec n => s.pecStatus n
  | .mbx => s.mbxStatus
  | .mem => s.memStatus
  | .xpb => s.xpbStatus
  | .sgm => s.sgmStatus
  | .sec => s.secStatus
  | .flt => s.fltStatus

/-- QUIESCED of a block (R43). -/
def State.quiesced (s : State) (b : Blk) : Bool := s.statusOf b % 2 = 1

/-- The register of a block's own interrupt enables, by offset; GLB has none (R55). -/
def intEnOff : Blk → Nat
  | .clk => 0x50
  | .dtm => 0x2C
  | .ttc => 0x20
  | .eth _ => 0x58
  | .swc => 0x34
  | .bfm => 0x38
  | .flt => 0x58
  | .pec _ => 0x50
  | .mbx => 0x24
  | .mem => 0x44
  | .sec => 0x24
  | .hif => 0x2C
  | .nrg => 0x24
  | .can _ => 0x50
  | .psq => 0x2C
  | .xpb => 0x34
  | .sgm => 0x20
  | .glb => 0

/-- The ST bits of a block that its own enables let through (R53). DESIGN CHOICE (log 36): bit 0 of GLB_INT_EN is the one
enable of GLB's own cause, while R54 has the summary stand whatever GLB_INT_EN holds; the model leaves
GLB_INT_SUMMARY[0] ungated by it. -/
def State.enabledCauses (s : State) (b : Blk) : List Word :=
  match b with
  | .glb => [w32 s.glbStatus &&& 6]
  | .psq =>
    let ne : Nat → Word := fun e =>
      bitsFrom 32 (fun k => s.psq.ch[(Fin.ofNat 64 (32 * e + k) : Fin 64)].rxq ≠ []) &&& s.reg (psqRxneEn e)
    [w32 s.psqStatus &&& s.reg psqIntEn, ne 0, ne 1]
  | _ => [w32 (s.statusOf b) &&& s.reg (blkBase b + intEnOff b)]

/-- The block instances behind a bit of GLB_INT_EN (Table GLB-17). -/
def blksOfBit : Nat → List Blk
  | 0 => [.glb]
  | 1 => [.clk]
  | 2 => [.dtm]
  | 3 => [.ttc]
  | 4 => [.hif]
  | 5 => [.eth 0, .eth 1, .eth 2, .eth 3, .eth 4, .eth 5, .eth 6, .eth 7]
  | 6 => [.swc]
  | 7 => [.bfm]
  | 8 => [.nrg]
  | 9 => [.can 0, .can 1, .can 2, .can 3]
  | 10 => [.psq]
  | 11 => [.pec 0, .pec 1, .pec 2, .pec 3, .pec 4, .pec 5, .pec 6, .pec 7, .pec 8, .pec 9]
  | 12 => [.mbx]
  | 13 => [.mem]
  | 14 => [.xpb]
  | 15 => [.sgm]
  | 16 => [.sec]
  | 17 => [.flt]
  | _ => []

/-- Every cause of block bit n that both enables let through. -/
def State.causesOf (s : State) (n : Nat) : List Word :=
  let l := (blksOfBit n).foldr (fun b a => s.enabledCauses b ++ a) []
  if bitOf (s.reg glbIntEn) n then l else l.map (fun _ => 0)

/-- GLB_INT_SUMMARY: bit n reads 1 while an enabled ST bit of block n is 1 (R54). -/
def State.intSummary (s : State) : Word :=
  bitsFrom 32 (fun n => ((blksOfBit n).foldr (fun b a => s.enabledCauses b ++ a) []).any (fun w => w ≠ 0))

/-- Whether an effect raises block n's interrupt: a bit of the AND of cause and enables rises (R53). -/
def irqRises (s s' : State) (n : Nat) : Bool :=
  ((s.causesOf n).zip (s'.causesOf n)).any (fun p => p.2 &&& ~~~p.1 ≠ 0)

/-- Raise block n's interrupt: GLB_INT_CNT, and device vector 256 + HIF_BLKVEC[n] on HIF_DEV_LINK (R53, R313). -/
def State.raiseIrq (s : State) (n : Nat) : State :=
  (s.count glbIntCnt).msix (bitOf (s.reg hifDevLink) 0)
    (256 + fieldOf (s.reg (hifBlkvec (n / 8))) (4 * (n % 8)) 4)

/-- Every interrupt an effect raises. -/
def raiseIrqs (s s' : State) : State :=
  (List.range 18).foldl (fun t n => if irqRises s s' n then t.raiseIrq n else t) s'

/-- FAULT_N follows the fences and the start (R405). -/
def faultPin (s s' : State) : State :=
  if s.faultLow = s'.faultLow then s' else s'.emit (.faultN s'.faultLow)

/-- The state a command leaves, with the interrupts and FAULT_N that its effect brings about. -/
def settle (s s' : State) : State := raiseIrqs s (faultPin s s')

/-- How every meaning ends. -/
def commit (s s' : State) : Host.Outcome State Fault Refusal := .next (settle s s')

end Sys2Proof.Machine
end

