-- ==== Sys2Proof/Machine/Ttu.lean ====
section
/-! DEFINITION. Trigger units short of firing: arming, the LATE rule, disarming, the re-check at a discontinuity
(04, R76-R81), and the fields of their CFG (Table TTC-2). -/

namespace Sys2Proof.Machine

/-! Fields of TTUn_CFG (Table TTC-2). -/

def State.ttuPeriodic (s : State) (n : Fin 24) : Bool := bitOf (s.reg (ttuCfg n.val)) 31
def State.ttuSkipLate (s : State) (n : Fin 24) : Bool := bitOf (s.reg (ttuCfg n.val)) 30
def State.ttuPol (s : State) (n : Fin 24) : Bool := bitOf (s.reg (ttuCfg n.val)) 29
def State.ttuPinEn (s : State) (n : Fin 24) : Bool := bitOf (s.reg (ttuCfg n.val)) 28
def State.ttuDom (s : State) (n : Fin 24) : Fin 4 := Fin.ofNat 4 (fieldOf (s.reg (ttuCfg n.val)) 26 2)
def State.ttuEvtKind (s : State) (n : Fin 24) : Nat := fieldOf (s.reg (ttuCfg n.val)) 24 2
def State.ttuEvtTarget (s : State) (n : Fin 24) : Nat := fieldOf (s.reg (ttuCfg n.val)) 16 8
def State.ttuPin (s : State) (n : Fin 24) : Nat := fieldOf (s.reg (ttuCfg n.val)) 0 7

/-- TIME of a unit in whole ns. -/
def State.ttuTime (s : State) (n : Fin 24) : Nat :=
  1000000000 * ((s.reg (ttuTimeSecLo n.val)).toNat + 4294967296 * fieldOf (s.reg (ttuTimeSecHi n.val)) 0 16) +
    (s.reg (ttuTimeNs n.val)).toNat

/-- Set TIME of a unit. -/
def State.setTtuTime (s : State) (n : Fin 24) (t : Nat) : State :=
  ((s.setReg (ttuTimeNs n.val) (w32 (t % 1000000000))).setReg (ttuTimeSecLo n.val)
    (w32 (t / 1000000000))).setReg (ttuTimeSecHi n.val) (w32 (t / 1000000000 / 4294967296 % 65536))

/-- Replace a unit. -/
def State.setTtu (s : State) (n : Fin 24) (t : Ttu) : State := { s with ttu := vset s.ttu n t }

/-- Whether EVT_TARGET is one of Table TTC-3 for EVT_KIND. -/
def ttuTargetOk (kind target : Nat) : Bool :=
  match kind with
  | 0 => true
  | 1 => decide (target ≤ 9)
  | 2 => decide (target < 64)
  | _ => decide (target ≤ 7)

/-- The first t + k·p, k ≥ `k0`, at or above a bound. -/
def nextPhase (t p bound k0 : Nat) : Nat :=
  let k := if bound ≤ t then 0 else (bound - t + p - 1) / p
  t + (if k < k0 then k0 else k) * p

/-- 80 ns after a time, as the least whole ns at or above it. -/
def eightyNs (d : DTime) : Nat := (dtVal d + 80 * 4294967296 + 4294967295) / 4294967296

/-- Whether TIME lies before D + 80 ns, less than 40 PCLK ahead: the firing is LATE (R78). -/
def State.ttuLate (s : State) (n : Fin 24) (d : DTime) : Bool :=
  decide (4294967296 * s.ttuTime n < dtVal d + 80 * 4294967296)

/-- R78 at domain time D: the unit is ARMED, or fires late on the 40th tick, or its LATE firing is skipped. -/
def State.ttuAccept (s : State) (n : Fin 24) (d : DTime) : State :=
  let u := s.ttu[n]
  if s.ttuLate n d then
    let s1 := s.count (ttuLateCnt n.val)
    if s.ttuSkipLate n then
      if s.ttuPeriodic n then
        (s1.setTtuTime n (nextPhase (s.ttuTime n) (s.reg (ttuPeriod n.val)).toNat (eightyNs d) 0)).setTtu n
          { u with armed := true, late := none }
      else s1.setTtu n { u with armed := false, late := none }
    else s1.setTtu n { u with armed := true, late := some (s.clk.tick + 40) }
  else s.setTtu n { u with armed := true, late := none }

/-- The conditions of R78 and R87 under which an ARM is taken. -/
def State.armTaken (s : State) (n : Fin 24) : Bool :=
  s.en .ttc && !s.inHold .ttc && ttuTargetOk (s.ttuEvtKind n) (s.ttuEvtTarget n) &&
  !(s.ttuPeriodic n && (decide ((s.reg (ttuPeriod n.val)).toNat < 100) ||
    decide ((s.reg (ttuPeriod n.val)).toNat ≤ fieldOf (s.reg (ttuWidth n.val)) 0 24)))

/-- ARM of a unit (R78, R81, R87). DESIGN CHOICE (log 40): R78 counts an ARM that is not taken in TTC_CFGREJ_CNT and does
not say whether TTC_CFGREJ_ADDR takes its address; the model writes TTUn_CTRL's there. -/
def State.armUnit (s : State) (n : Fin 24) : State :=
  if !s.armTaken n then s.rejReg .ttc (ttuCtrl n.val)
  else if s.ttu[n].armed || s.ttu[n].pulse then s
  else s.ttuAccept n (s.time (s.ttuDom n))

/-- DISARM of a unit (R81). -/
def State.disarmUnit (s : State) (n : Fin 24) : State := s.setTtu n { s.ttu[n] with armed := false, late := none }

/-- ARM of TTUn_CTRL. -/
def doTtuArm (m : Master) (n : Fin 24) (s : State) : State :=
  s.guarded m (ttuCtrl n.val) fun s => s.armUnit n

/-- The meaning of TTU_ARM. -/
def execTtuArm (m : Master) (n : Fin 24) (s : State) : Host.Outcome State Fault Refusal :=
  commit s (doTtuArm m n s)

/-- DISARM, with or without ARM in the same write: DISARM wins (R81). -/
def doTtuDisarm (m : Master) (n : Fin 24) (s : State) : State :=
  s.guarded m (ttuCtrl n.val) fun s => s.disarmUnit n

/-- The meaning of TTU_DISARM; `_arm`: the same write sets ARM, which has no effect. -/
def execTtuDisarm (m : Master) (n : Fin 24) (_arm : Bool) (s : State) : Host.Outcome State Fault Refusal :=
  commit s (doTtuDisarm m n s)

/-- Disarm every unit at once (R87). -/
def State.disarmAll (s : State) : State :=
  { s with ttu := s.ttu.map (fun t => { t with armed := false, late := none }) }

/-- Periodic units go to IDLE without firing again; one-shot units fire as armed (R87, QUIESCE). -/
def State.quiesceTtc (s : State) : State :=
  (List.range 24).foldl (fun t k =>
    let n := Fin.ofNat 24 k
    if t.ttuPeriodic n then t.setTtu n { t.ttu[n] with armed := false, late := none } else t) s

/-- The re-check of every ARMED unit of a domain at a discontinuity (R80). -/
def State.recheck (s : State) (d : Fin 4) : State :=
  (List.range 24).foldl (fun t k =>
    let n := Fin.ofNat 24 k
    if t.ttu[n].armed && t.ttuDom n = d then t.ttuAccept n (t.time d) else t) s

/-! Writes of CFG, TIME, PERIOD and WIDTH (R76, R82). -/

/-- Whether another unit names the same pin with PIN_EN = 1 and the other POL (R82). -/
def State.polClash (s : State) (n : Fin 24) (v : Word) : Bool :=
  bitOf v 28 && (List.range 24).any (fun k =>
    let o := Fin.ofNat 24 k
    o ≠ n && s.ttuPinEn o && s.ttuPin o = fieldOf v 0 7 && s.ttuPol o ≠ bitOf v 29)

/-- A write of a unit's CFG, TIME, PERIOD or WIDTH: taken only while STATE is IDLE; CFG refuses a PIN of 96 or
above and a second polarity for one pin (R76, R82, Table TTC-2). -/
def State.ttuWrite (s : State) (n : Fin 24) (a : Nat) (v : Word) : State :=
  if s.ttu[n].armed || s.ttu[n].pulse then s.rejReg .ttc a
  else if a = ttuCfg n.val && (decide (96 ≤ fieldOf v 0 7) || s.polClash n v) then s.rejReg .ttc a
  else s.setReg a v

/-- A write of TCUn_CFG: EDGE 0b00 and a PIN of 96 or above are refused; fields other than EN are taken only
while EN = 0 (R83, Table TTC-5). DESIGN CHOICE (log 40): of a write with EN = 1 that changes other fields R83 does not
say what becomes of its EN bit; the model rejects the other fields and takes EN. -/
def State.tcuWrite (s : State) (n : Fin 16) (v : Word) : State :=
  let a := tcuCfg n.val
  let old := s.reg a
  if fieldOf v 24 2 = 0 || decide (96 ≤ fieldOf v 0 7) then s.rejReg .ttc a
  else if bitOf old 31 && (v &&& 0x7FFFFFFF#32) ≠ (old &&& 0x7FFFFFFF#32) then
    (s.rejReg .ttc a).setRegBit a 31 (bitOf v 31)
  else s.setReg a v

/-- STATE of a unit: bit 0 ARMED, bit 1 a pulse active (Table TTC-4). -/
def State.ttuState (s : State) (n : Fin 24) : Nat := b2n s.ttu[n].armed + 2 * b2n s.ttu[n].pulse

/-! The registers of units, for every path that reaches them: the register port and an engine's LSU (R102). -/

/-- The head of a capture FIFO is read: it is removed, and its other words are latched for the reader (R84). -/
def State.captureRead (s : State) (who : Nat) (n : Fin 16) : Word × State :=
  let u := s.tcu[n]
  match u.fifo with
  | [] => (0, (s.latchFor who (tcuCapSec n.val) 0).latchFor who (tcuCapFlags n.val) 0)
  | c :: r =>
    (c.ns, (({ s with tcu := vset s.tcu n { u with fifo := r } }).latchFor who (tcuCapSec n.val) c.sec).latchFor who
      (tcuCapFlags n.val) c.flags)

/-- A write at TTC offset `o`, 0x100 to 0x5FF. -/
def State.ttcUnitWrite (s : State) (o : Nat) (v : Word) : State :=
  if o < 0x400 then
    let n := Fin.ofNat 24 ((o - 0x100) / 32)
    let a := 0x30000 + o
    match o % 32 with
    | 0x18 => if bitOf v 1 then s.disarmUnit n else if bitOf v 0 then s.armUnit n else s
    | 0x1C => if v = 0 then s.clearCnt .ttc a else s
    | 0x00 => s.ttuWrite n a (v &&& 0xFFFF007F#32)
    | 0x0C => s.ttuWrite n a (v &&& 0xFFFF#32)
    | 0x14 => s.ttuWrite n a (v &&& 0xFFFFFF#32)
    | _ => s.ttuWrite n a v
  else
    let n := Fin.ofNat 16 ((o - 0x400) / 32)
    match o % 32 with
    | 0x00 => s.tcuWrite n (v &&& 0x8F0F007F#32)
    | 0x10 => if v = 0 then s.clearCnt .ttc (0x30000 + o) else s
    | _ => s

/-- A read at TTC offset `o`, 0x100 to 0x5FF, by reader `who`. -/
def State.ttcUnitRead (s : State) (who o : Nat) : Word × State :=
  if o < 0x400 then
    let n := Fin.ofNat 24 ((o - 0x100) / 32)
    (if o % 32 = 0x18 then w32 (256 * s.ttuState n) else s.reg (0x30000 + o), s)
  else
    let n := Fin.ofNat 16 ((o - 0x400) / 32)
    match o % 32 with
    | 0x04 => s.captureRead who n
    | 0x08 => (s.latchedFor who (tcuCapSec n.val), s)
    | 0x0C => (s.latchedFor who (tcuCapFlags n.val), s)
    | 0x14 => (w32 s.tcu[n].fifo.length, s)
    | _ => (s.reg (0x30000 + o), s)

end Sys2Proof.Machine
end

