-- ==== Sys2Proof/Machine/Dtm.lean ====
section
/-! DEFINITION. Datum (04): the tick of every domain, offset corrections, voting, the standby copies, line
syntonization. -/

namespace Sys2Proof.Machine

/-- Replace a domain. -/
def State.setDom (s : State) (d : Fin 4) (x : Domain) : State := { s with dom := vset s.dom d x }

/-- RATIO of the Port island's calibration word (Table CLK-8). -/
def State.oscRatio (s : State) : Nat := fieldOf (s.tab .clk 0 0) 0 10

/-- What one PCLK tick adds to `osc`: on its ring oscillator a tick of the Port island lasts 1,024 / RATIO times 2 ns
(R24, R30); on a PLL exactly 2 ns. -/
def State.oscStep (s : State) : Nat := if s.degraded 0 then 1024 - s.oscRatio else 0

/-- A tick in which the ring oscillator has fallen a whole 2 ns behind REF. -/
def State.oscSlips (s : State) : Bool := s.degraded 0 && decide (s.oscRatio ≤ s.clk.osc + s.oscStep)

/-- The units of 2 ns that REF counts in one PCLK tick (R30). -/
def State.refSlots (s : State) : Nat := 1 + b2n s.oscSlips

/-- One tick of a domain (R57, R59): each copy adds the effective increment, or takes what a correction makes
of it; on a REF edge the standby copy adds 20 times the increment and the corrections since the last edge, so it
counts REF at the same rate while the Port island runs on its ring oscillator (R30). In P2 only the standby copy
runs. -/
def State.tickDom (s : State) (d : Fin 4) (upd : Option (DTime → DTime)) : Domain :=
  let x := s.dom[d]
  let inc := s.incEff d
  let nxt : DTime → DTime := fun t => match upd with
    | none => dtAdd t inc
    | some g => g t
  let t := s.time d
  let runs := s.power ≠ .p2
  let corr := if runs then x.corr + ((dtVal (nxt t) : Int) - dtVal (dtAdd t inc)) else x.corr
  let edge := decide (20 ≤ s.clk.refPhase + s.refSlots)
  { x with
    c0 := if runs then nxt x.c0 else x.c0
    c1 := if runs then nxt x.c1 else x.c1
    c2 := if runs then nxt x.c2 else x.c2
    standby := if edge then dtAdd x.standby (20 * inc + corr) else x.standby
    corr := if edge then 0 else corr }

/-- A request that the tick applies: awaiting or held, within the limit (R62). -/
def State.adjDue (s : State) (d : Fin 4) : Bool := s.dom[d].req ≠ .none && !s.adjExceeds d

/-- ADJ reads 0 in both halves and no request stands. -/
def State.clearAdj (s : State) (d : Fin 4) : State :=
  ((s.setDom d { s.dom[d] with adj := 0, req := .none }).setReg (dtmDAdjFrac d.val) 0).setReg
    (dtmDAdjNs d.val) 0

/-- The PCLK tick counter, the REF phase and the pulses of the trigger units. -/
def State.tickClock (s : State) : State :=
  { s with
    clk := { s.clk with
      tick := s.clk.tick + 1
      refPhase := (s.clk.refPhase + s.refSlots) % 20
      osc := if s.degraded 0 then s.clk.osc + s.oscStep - (if s.oscSlips then s.oscRatio else 0) else 0 }
    ttu := s.ttu.map (fun t => { t with pulseLeft := t.pulseLeft - 2 }) }

/-- What a tick makes of one domain besides counting: an applied request, or one newly held (R62). -/
def State.afterTick (s : State) (applied : Bool) (d : Fin 4) : State :=
  if applied then ((s.clearAdj d).count (dtmDAdjCnt d.val)).recheck d
  else if s.dom[d].req = .awaiting then s.setDom d { s.dom[d] with req := .held }
  else s

/-- One PCLK tick of all domains, `step` giving a domain's FORCE_STEP or LOAD of this tick (R57-R63): domains
count while EN = 1 (R58); a request within the limit is applied unless a step stands in its place. -/
def State.dtmTick (s : State) (step : Fin 4 → Option (DTime → DTime)) : State :=
  if !s.en .dtm then s.tickClock.latchSnaps
  else
    let due : Fin 4 → Bool := fun d => (step d).isNone && s.adjDue d
    let upd : Fin 4 → Option (DTime → DTime) := fun d =>
      match step d with
      | some g => some g
      | none => if s.adjDue d then some (fun t => dtAdd t (s.incEff d + sgn s.dom[d].adj)) else none
    let s1 := { s with dom := #v[s.tickDom 0 (upd 0), s.tickDom 1 (upd 1), s.tickDom 2 (upd 2), s.tickDom 3 (upd 3)] }
    let s2 := s1.tickClock
    let s3 := s2.afterTick (due 0) 0
    let s4 := s3.afterTick (due 1) 1
    let s5 := s4.afterTick (due 2) 2
    (s5.afterTick (due 3) 3).latchSnaps

/-- One tick with no step. -/
def State.plainTick (s : State) : State := s.dtmTick (fun _ => none)

/-! INC, ADJ (R57, R62). -/

/-- The domains of a SHADOW while PAIRED are steered to the LEAD's: writes of INC, ADJ and CMD are ignored
(Table FLT-5). -/
def State.shadowSteered (s : State) : Bool := s.flt.shadow && s.flt.twin = .paired

/-- A write of DTM_Dd_INC_FRAC applies both halves; a clamped sum counts (R48, R57). -/
def doIncWrite (m : Master) (d : Fin 4) (frac : Word) (s : State) : State :=
  s.guarded m (dtmDIncFrac d.val) fun s =>
    if s.shadowSteered then s
    else
      let inc : BitVec 64 := (s.reg (dtmDIncNs d.val)) ++ frac
      let s1 := (s.setDom d { s.dom[d] with inc := inc }).setReg (dtmDIncFrac d.val) frac
      if incClamped inc (s.fofs d) then s1.count dtmIncClampCnt else s1

/-- The meaning of INC_WRITE. -/
def execIncWrite (m : Master) (d : Fin 4) (frac : Word) (s : State) : Host.Outcome State Fault Refusal :=
  commit s (doIncWrite m d frac s)

/-- A write of DTM_Dd_ADJ_FRAC (R62): it issues a request, or replaces one, a write of 0 cancels a held one;
a write that leaves ADJ = 0 while no request is held or awaits its tick issues none. -/
def doAdjRequest (m : Master) (d : Fin 4) (frac : Word) (s : State) : State :=
  s.guarded m (dtmDAdjFrac d.val) fun s =>
    if s.shadowSteered then s
    else
      let adj : BitVec 64 := (s.reg (dtmDAdjNs d.val)) ++ frac
      let x := s.dom[d]
      let req : AdjReq :=
        if adj = 0 then (match x.req with | .awaiting => .awaiting | _ => .none)
        else (match x.req with | .held => .held | _ => .awaiting)
      (s.setDom d { x with adj := adj, req := req }).setReg (dtmDAdjFrac d.val) frac

/-- The meaning of ADJ_REQUEST. -/
def execAdjRequest (m : Master) (d : Fin 4) (frac : Word) (s : State) : Host.Outcome State Fault Refusal :=
  commit s (doAdjRequest m d frac s)

/-- The tick at which the request of a domain is within the limit (R62); not due otherwise (log 2). -/
def doAdjApply (d : Fin 4) (s : State) : State :=
  if s.en .dtm && s.adjDue d then s.plainTick else s

/-- The meaning of ADJ_APPLY. -/
def execAdjApply (d : Fin 4) (s : State) : Host.Outcome State Fault Refusal := commit s (doAdjApply d s)

/-! Steps (R63, R86). -/

/-- MASTER of a step-log entry: 1 the supervisor, 0 a host (Table DTM-7). DESIGN CHOICE (log 40): the table gives JTAG
and the expansion host no code; the model writes 0 for them. -/
def stepMaster (m : Master) : Nat := if m = .sup then 1 else 0

/-- The signed correction of a step in ns, saturated at ±(2^31 − 1) (Table DTM-7). -/
def stepCorr (before after : DTime) : Int :=
  clampInt (-2147483647) 2147483647 (((dtVal after : Int) - dtVal before) / 4294967296)

/-- Write one step-log entry; entry i holds the step whose SEQ mod 8 is i (R86). -/
def State.logStep (s : State) (m : Master) (d : Fin 4) (kind : Nat) (before : DTime) (corr : Int) : State :=
  let w0 := w32 (2 ^ 24 * kind + 2 ^ 16 * d.val + 2 ^ 8 * stepMaster m + s.stepSeq.toNat)
  let s1 := s.setTabs .dtm 0 (s.stepSeq.toNat % 8 * 4)
    [w0, w32 (dtNs before), w32 (dtSec before), BitVec.ofInt 32 corr]
  { s1 with stepSeq := s1.stepSeq + 1 }

/-- The time of DTM_Dd_LOAD_SEC and DTM_Dd_LOAD_NS, FRAC 0 (R63). -/
def State.loadTime (s : State) (d : Fin 4) : DTime :=
  dtNorm (4294967296 * (1000000000 *
    ((s.reg (dtmDLoadSecLo d.val)).toNat + 4294967296 * fieldOf (s.reg (dtmDLoadSecHi d.val)) 0 16) +
    (s.reg (dtmDLoadNs d.val)).toNat) : Nat)

/-- What DTM_CMD does to domain d on its tick: LOAD wins over FORCE_STEP; FORCE_STEP with ADJ = 0 does nothing
(R63). -/
def State.stepOf (s : State) (loads forced : BitVec 4) (d : Fin 4) : Option (DTime → DTime) :=
  if loads.getLsbD d.val then some (fun _ => s.loadTime d)
  else if forced.getLsbD d.val && s.dom[d].adj ≠ 0 then
    some (fun t => dtAdd t (s.incEff d + sgn s.dom[d].adj))
  else none

/-- What a step leaves behind besides the time: its count, its log entry, and the re-check (R63, R64). DESIGN CHOICE
(log 40): R86 does not say from which time the CORR of a LOAD is taken, nor how it is rounded; the model takes it from
the time the tick would have had without the step, and floors it to whole ns. -/
def State.afterStep (s0 : State) (m : Master) (loads forced : BitVec 4) (s : State) (d : Fin 4) : State :=
  match s0.stepOf loads forced d with
  | none => s
  | some g =>
    let before := s0.time d
    let corr := stepCorr (dtAdd before (s0.incEff d)) (g before)
    let s1 := (s.count (dtmDStepCnt d.val)).logStep m d (if loads.getLsbD d.val then 2 else 1) before corr
    (if loads.getLsbD d.val then s1 else s1.clearAdj d).recheck d

/-- The tick after DTM_CMD, with the LOADs and FORCE_STEPs of one write, domains in ascending order. DESIGN CHOICE
(log 40): the manual does not say what DTM_CMD does while DTM_CTRL.EN = 0; the model lets a FORCE_STEP or LOAD have no
effect, neither counted nor logged, and a request waits for its first tick. -/
def State.stepTick (s : State) (m : Master) (loads forced : BitVec 4) : State :=
  if !s.en .dtm then s
  else
    let s1 := s.dtmTick (s.stepOf loads forced)
    [0, 1, 2, 3].foldl (fun t d => s.afterStep m loads forced t d) s1

/-- The LOADs and FORCE_STEPs of a value of DTM_CMD; a paired SHADOW ignores them. -/
def State.dtmSteps (s : State) (m : Master) (v : Word) : State :=
  if s.shadowSteered then s else s.stepTick m (v.extractLsb' 4 4) (v.extractLsb' 0 4)

/-- FORCE_STEP bits of DTM_CMD with no LOAD (R63). -/
def doForceStep (m : Master) (domains : BitVec 4) (s : State) : State :=
  s.guarded m dtmCmd fun s => s.sharedCmd m .dtm 0x20 (domains.setWidth 32) fun v s => s.dtmSteps m v

/-- The meaning of FORCE_STEP. -/
def execForceStep (m : Master) (domains : BitVec 4) (s : State) : Host.Outcome State Fault Refusal :=
  commit s (doForceStep m domains s)

/-- LOAD bits of DTM_CMD, with FORCE_STEP bits set in the same write (R63). -/
def doLoad (m : Master) (domains forced : BitVec 4) (s : State) : State :=
  s.guarded m dtmCmd fun s => s.sharedCmd m .dtm 0x20 ((domains ++ forced).setWidth 32) fun v s => s.dtmSteps m v

/-- The meaning of LOAD. -/
def execLoad (m : Master) (domains forced : BitVec 4) (s : State) : Host.Outcome State Fault Refusal :=
  commit s (doLoad m domains forced s)

/-! Voting (R60, R61). -/

/-- Upset bits of the three copies. -/
def Domain.upset (x : Domain) (u0 u1 u2 : BitVec 112) : Domain :=
  { x with c0 := x.c0 ^^^ u0, c1 := x.c1 ^^^ u1, c2 := x.c2 ^^^ u2 }

/-- Whether exactly two copies agree. -/
def Domain.oneOut (x : Domain) : Bool :=
  (x.c0 = x.c1 && x.c1 ≠ x.c2) || (x.c0 = x.c2 && x.c1 ≠ x.c2) || (x.c1 = x.c2 && x.c0 ≠ x.c1)

/-- Whether no two copies agree. -/
def Domain.noneAgree (x : Domain) : Bool := x.c0 ≠ x.c1 && x.c0 ≠ x.c2 && x.c1 ≠ x.c2

/-- Load one value into all three copies. -/
def Domain.loadAll (x : Domain) (v : DTime) : Domain := { x with c0 := v, c1 := v, c2 := v }

/-- Copies take wrong bits, two of the three still agree: the third is reloaded from the majority on the next
tick, and VOTE_CNT counts (R60). Not due where the upset leaves the copies agreeing, or none. -/
def doVoteReload (d : Fin 4) (u0 u1 u2 : BitVec 112) (s : State) : State :=
  let x := s.dom[d].upset u0 u1 u2
  if !x.oneOut || s.fenced (32 + d.val) then s
  else ((s.setDom d (x.loadAll (dtMajority x.c0 x.c1 x.c2))).count (dtmDVoteCnt d.val)).plainTick

/-- The meaning of VOTE_RELOAD. -/
def execVoteReload (d : Fin 4) (u0 u1 u2 : BitVec 112) (s : State) : Host.Outcome State Fault Refusal :=
  commit s (doVoteReload d u0 u1 u2 s)

/-- No two copies agree: the domain's fence domain is fenced, cause VOTE, and it runs on copy 0 (R61). -/
def doDatumFence (d : Fin 4) (u0 u1 u2 : BitVec 112) (s : State) : State :=
  let x := s.dom[d].upset u0 u1 u2
  if !x.noneAgree then s
  else (s.setDom d x).fltLatch (Fin.ofNat 37 (32 + d.val)) 0x07 (BitVec.ofNat 8 d.val) 0

/-- The meaning of DATUM_FENCE. -/
def execDatumFence (d : Fin 4) (u0 u1 u2 : BitVec 112) (s : State) : Host.Outcome State Fault Refusal :=
  commit s (doDatumFence d u0 u1 u2 s)

/-- The value an alignment window loads into a fenced domain: one held by at least two of the three copies and
the standby copy when no other is, else the standby copy's (R61). -/
def Domain.resolved (x : Domain) (standby : DTime) : DTime :=
  let vs := [x.c0, x.c1, x.c2, standby]
  let twice := vs.filter (fun v => decide (2 ≤ vs.count v))
  match twice with
  | [] => standby
  | v :: r => if r.all (· = v) then v else standby

/-! The standby copies at an alignment window (R30, R59). -/

/-- The standby copy brought to now: the ticks and corrections since its last REF edge. -/
def State.standbyNow (s : State) (d : Fin 4) : DTime :=
  dtAdd s.dom[d].standby ((s.clk.refPhase : Int) * s.incEff d + s.dom[d].corr)

/-- The standby copy of a domain takes its value at this REF edge. -/
def State.standbyEdge (s : State) (d : Fin 4) : State :=
  s.setDom d { s.dom[d] with standby := s.standbyNow d, corr := 0 }

/-- Every standby copy at a REF edge, where the phase begins again. -/
def State.refEdge (s : State) : State :=
  let s1 := (((s.standbyEdge 0).standbyEdge 1).standbyEdge 2).standbyEdge 3
  { s1 with clk := { s1.clk with refPhase := 0 } }

/-- Reload one domain from its standby copy: a discontinuity (R59, R64). -/
def State.reloadDom (s : State) (d : Fin 4) : State :=
  (s.setDom d (s.dom[d].loadAll s.dom[d].standby)).recheck d

/-- Reload every domain from its standby copy, counted once (R30). -/
def State.reloadAll (s : State) : State :=
  ((((s.count clkDtmReloadCnt).reloadDom 0).reloadDom 1).reloadDom 2).reloadDom 3

/-- A fenced domain leaves its fence at the window (R61). -/
def State.resolveDom (s : State) (d : Fin 4) : State :=
  if s.fenced (32 + d.val) then
    ((s.setDom d (s.dom[d].loadAll (s.dom[d].resolved s.dom[d].standby))).fltLeave
      (Fin.ofNat 37 (32 + d.val))).recheck d
  else s

/-! Line syntonization (R65, R66). -/

/-- Enter holdover in every domain whose port in force is n (R66). -/
def State.holdoverPort (s : State) (n : Fin 8) : State :=
  { s with dom := s.dom.map (fun x =>
      if x.syntEn && x.syntPort = n then { x with holdover := true, clean := false } else x) }

/-- The end of a window (R65, R66): EN and PORT of DTM_Dd_SYNT take effect; EN = 0 sets FOFS to 0; with lock
throughout the window FOFS moves through the loop filter and holdover ends, else FOFS is kept in holdover. -/
def doSyntWindowEnd (d : Fin 4) (measured : Word) (lock : Bool) (s : State) : State :=
  let x := s.dom[d]
  let r := s.reg (dtmDSynt d.val)
  let port : Fin 8 := Fin.ofNat 8 (fieldOf r 0 3)
  let live := lock && s.eth[port].up && serdesMode (s.ethModeOf port)
  if !bitOf r 8 then
    (s.setDom d { x with syntEn := false, syntPort := port, holdover := false, clean := false }).setReg
      (dtmDSyntFofs d.val) 0
  else if live && x.syntEn && x.clean && x.syntPort = port then
    let f := Config.loopFilter (s.reg (dtmDSyntFofs d.val)) measured
    let s1 := (s.setDom d { x with holdover := false }).setReg (dtmDSyntFofs d.val) f
    if incClamped x.inc (sgn f) then s1.count dtmIncClampCnt else s1
  else s.setDom d { x with syntEn := true, syntPort := port, holdover := x.holdover || !live, clean := live }

/-- The meaning of SYNT_WINDOW_END. -/
def execSyntWindowEnd (d : Fin 4) (measured : Word) (lock : Bool) (s : State) :
    Host.Outcome State Fault Refusal :=
  commit s (doSyntWindowEnd d measured lock s)

end Sys2Proof.Machine
end

