-- ==== Sys2Proof/Machine/Clk.lean ====
section
/-! DEFINITION. Clock islands (02): loss and recovery of PLLs, alignment windows, gating and waking of islands. -/

namespace Sys2Proof.Machine

/-- The islands of a PLL group (Table CLK-1): A the engines, Fabric and Memory; B the others. -/
def groupMask (g : Nat) : BitVec 19 := if g = 0 then 0x07FF8#19 else 0x78007#19

/-- CLK_ISL_ON as 19 bits. -/
def State.islOn (s : State) : BitVec 19 := (s.reg clkIslOn).setWidth 19

/-- Set ROLE of a PLL. -/
def State.setRole (s : State) (p r : Nat) : State := s.setRegField clkPllStatus (4 * p + 1) 2 r

/-- Set LOCK of a PLL. -/
def State.setLock (s : State) (p : Nat) (b : Bool) : State := s.setRegBit clkPllStatus (4 * p) b

/-- Whether some PLL holds a group's role. -/
def State.groupDriven (s : State) (g : Nat) : Bool := (List.range 3).any (fun p => s.pllRole p = g)

/-- The PLL that takes a group's role on a loss: the one in role SPARE, if locked (R28). -/
def State.lockedSpare (s : State) : Option Nat :=
  (List.range 3).find? (fun p => s.pllRole p = 2 && s.pllLock p)

/-- Request re-alignment of a group's powered islands (R23, R28). -/
def State.requestRealign (s : State) (g : Nat) : State :=
  { s with clk := { s.clk with realign := s.clk.realign ||| (groupMask g &&& s.islOn) } }

/-- Cancel the re-alignment of a group that lost the PLL chosen for it (R29). -/
def State.cancelRealign (s : State) (g : Nat) : State :=
  { s with clk := { s.clk with realign := s.clk.realign &&& ~~~groupMask g } }

/-- The powered islands of a group switch to their ring oscillators (R28 step 1). -/
def State.degradeGroup (s : State) (g : Nat) : State :=
  s.setReg clkDegraded (s.reg clkDegraded ||| (groupMask g &&& s.islOn).setWidth 32)

/-- A PLL has lost its lock: LOCK falls, and a count or attempt of its recovery ends. -/
def State.dropLock (s : State) (p : Nat) : State :=
  let s1 := s.setLock p false
  { s1 with clk := { s1.clk with lockCount := setBit s1.clk.lockCount p false } }

/-- The declaration of one lost PLL (R28, R29, R31): a SPARE one becomes FAILED; a group's one hands its role to a
locked spare, if there is one. A FAILED one only loses the lock it had regained, and its 1 s count restarts (R451).
DESIGN CHOICE (log 38): R451 does not say whether the loss of a lock regained in role FAILED is a declaration; the
model neither counts it in CLK_PLL_LOSS_CNT nor writes a PLL_LOST entry. -/
def State.losePll (s : State) (p : Nat) : State :=
  let r := s.pllRole p
  if r = 3 then s.dropLock p
  else
    let s1 := ((s.dropLock p).count clkPllLossCnt).setRole p 3
    if r = 2 then s1.fltLog (0x40 + p) 0x0A .noted 0xFF 0
    else
      let s2 := (s1.degradeGroup r).cancelRealign r
      match s2.lockedSpare with
      | some q =>
        ((s2.setRole q r).requestRealign r).fltLog (0x40 + p) 0x0A .noted (BitVec.ofNat 8 r) 0
      | none => s2.fltLog (0x40 + p) 0x0A .noted 0xFF 0

/-- PLLs declared lost in one REF cycle, the lower letter first (R31). -/
def doPllLost (lost : BitVec 3) (s : State) : State :=
  (List.range 3).foldl (fun t p => if lost.getLsbD p then t.losePll p else t) s

/-- The meaning of PLL_LOST. -/
def execPllLost (lost : BitVec 3) (s : State) : Host.Outcome State Fault Refusal := commit s (doPllLost lost s)

/-- Islands change to their PLL at the window: CLK_DEGRADED falls, CLK_REALIGN_CNT counts each (R28 step 3). -/
def State.realignIslands (s : State) : State :=
  let m := s.clk.realign
  let s1 := (s.setReg clkDegraded (s.reg clkDegraded &&& ~~~(m.setWidth 32))).countN clkRealignCnt (popCount m)
  { s1 with clk := { s1.clk with realign := 0 } }

/-- The first alignment window after its request (R23, R28, R30, R61): the standby copies stand at a REF edge;
fenced Datum domains resolve; the islands re-align; the end of the Port island's interval on its ring oscillator
reloads every domain. With no request and no fenced domain nothing waits for a window (log 2). -/
def doAlignmentWindow (s : State) : State :=
  let fencedD := s.fenced 32 || s.fenced 33 || s.fenced 34 || s.fenced 35
  if s.clk.realign = 0 && !fencedD then s
  else
    let port := s.clk.realign.getLsbD 0
    let s1 := s.refEdge
    let s2 := (((s1.resolveDom 0).resolveDom 1).resolveDom 2).resolveDom 3
    let s3 := s2.realignIslands
    if port then s3.reloadAll else s3

/-- The meaning of ALIGNMENT_WINDOW. -/
def execAlignmentWindow (s : State) : Host.Outcome State Fault Refusal := commit s (doAlignmentWindow s)

/-- A FAILED PLL without lock begins a fresh attempt (R451). -/
def doPllRelockAttempt (p : Fin 3) (s : State) : State :=
  if s.pllRole p.val = 3 && !s.pllLock p.val then
    { s with clk := { s.clk with attempt := setBit s.clk.attempt p.val true } }
  else s

/-- The meaning of PLL_RELOCK_ATTEMPT. -/
def execPllRelockAttempt (p : Fin 3) (s : State) : Host.Outcome State Fault Refusal :=
  commit s (doPllRelockAttempt p s)

/-- A FAILED PLL achieves lock: its attempt ends and its 1 s count toward SPARE starts (R451). -/
def doPllLocked (p : Fin 3) (s : State) : State :=
  if s.pllRole p.val = 3 && !s.pllLock p.val then
    let s1 := s.setLock p.val true
    { s1 with clk := { s1.clk with
        attempt := setBit s1.clk.attempt p.val false
        lockCount := setBit s1.clk.lockCount p.val true } }
  else s

/-- The meaning of PLL_LOCKED. -/
def execPllLocked (p : Fin 3) (s : State) : Host.Outcome State Fault Refusal := commit s (doPllLocked p s)

/-- A FAILED PLL has held lock for 1 s: it takes role SPARE, or the role of a group that waits for one, group A
first, whose re-alignment it requests (R28 step 4, R29). -/
def doPllBecomesSpare (p : Fin 3) (s : State) : State :=
  if s.pllRole p.val = 3 && s.pllLock p.val && s.clk.lockCount.getLsbD p.val then
    let s1 := { s with clk := { s.clk with lockCount := setBit s.clk.lockCount p.val false } }
    if !s1.groupDriven 0 then (s1.setRole p.val 0).requestRealign 0
    else if !s1.groupDriven 1 then (s1.setRole p.val 1).requestRealign 1
    else s1.setRole p.val 2
  else s

/-- The meaning of PLL_BECOMES_SPARE. -/
def execPllBecomesSpare (p : Fin 3) (s : State) : Host.Outcome State Fault Refusal :=
  commit s (doPllBecomesSpare p s)

/-! Power of islands (R29, R32, R34). -/

/-- The PLL group of an island (Table CLK-1). -/
def groupOf (i : Nat) : Nat := if (groupMask 0).getLsbD i then 0 else 1

/-- An island's clock starts: from its group's PLL, else on its ring oscillator, degraded (R29, R34). -/
def State.islandUp (s : State) (i : Nat) : State :=
  (s.setRegBit clkIslOn i true).setRegBit clkDegraded i (!s.groupDriven (groupOf i))

/-- An island is powered off (R32). DESIGN CHOICE (log 38): R32 does not say what CLK_DEGRADED reads of it; the model
clears its bit and a re-alignment it waits for. -/
def State.islandDown (s : State) (i : Nat) : State :=
  let s1 := (s.setRegBit clkIslOn i false).setRegBit clkDegraded i false
  { s1 with clk := { s1.clk with realign := setBit s1.clk.realign i false } }

/-! Gating (R32-R34, R387). -/

/-- The gateable islands (Table CLK-6). -/
def gateable : BitVec 19 := 0x69FF8#19

/-- The blocks of a gateable island. -/
def islandBlks (i : Nat) : List Blk :=
  if 3 ≤ i ∧ i < 13 then [.pec (Fin.ofNat 10 (i - 3))]
  else if i = 15 then [.hif]
  else if i = 17 then [.psq, .xpb, .sgm]
  else if i = 18 then [.can 0, .can 1, .can 2, .can 3]
  else []

/-- Whether the debugger keeps an island from gating: an engine in state DEBUG (R387). -/
def State.debugHolds (s : State) (i : Nat) : Bool :=
  decide (3 ≤ i ∧ i < 13) && s.eng[(Fin.ofNat 10 (i - 3) : Fin 10)].st = .debug

/-- Whether an island gates now (R32, R387); the Host island only with both links down. -/
def State.gates (s : State) (i : Fin 19) : Bool :=
  gateable.getLsbD i.val && s.islandOn i.val && bitOf (s.reg clkGateReq) i.val &&
  !s.clk.wakeLatch.getLsbD i.val && (islandBlks i.val).all (fun b => s.quiesced b) && !s.debugHolds i.val &&
  (i.val ≠ 15 || !(bitOf (s.reg hifLinkStatus) 7 || bitOf (s.reg hifLinkStatus) 15))

/-- An island gates: it is powered off (R32). -/
def doIslandGate (i : Fin 19) (s : State) : State := if s.gates i then s.islandDown i.val else s

/-- The meaning of ISLAND_GATE. -/
def execIslandGate (i : Fin 19) (s : State) : Host.Outcome State Fault Refusal := commit s (doIslandGate i s)

/-- A wake event of an island: the latch is set, CLK_WAKE_CNT counts, and a gated island starts its power ramp
(R33, R34). -/
def State.wake (s : State) (i : Nat) : State :=
  if gateable.getLsbD i then
    let s1 := s.count clkWakeCnt
    { s1 with clk := { s1.clk with
        wakeLatch := setBit s1.clk.wakeLatch i true
        ramp := if s1.islandOn i then s1.clk.ramp else setBit s1.clk.ramp i true } }
  else s

/-- The meaning of WAKE_EVENT. -/
def execWakeEvent (i : Fin 19) (s : State) : Host.Outcome State Fault Refusal := commit s (s.wake i.val)

/-- After its ramp an island's clock starts at the next window, from its group's PLL; with none, on its ring
oscillator (R34, R29). The wake is a re-alignment of the second kind of R35, counted in CLK_REALIGN_CNT; one that
starts on its ring oscillator is counted when it is re-aligned (DEDUCED, log 38). -/
def doIslandClockStart (i : Fin 19) (s : State) : State :=
  if s.clk.ramp.getLsbD i.val && !s.islandOn i.val then
    let s1 := (s.islandUp i.val).countN clkRealignCnt (b2n (s.groupDriven (groupOf i.val)))
    { s1 with clk := { s1.clk with ramp := setBit s1.clk.ramp i.val false } }
  else s

/-- The meaning of ISLAND_CLOCK_START. -/
def execIslandClockStart (i : Fin 19) (s : State) : Host.Outcome State Fault Refusal :=
  commit s (doIslandClockStart i s)

/-- A write of CLK_GATE_REQ: bits of islands that are not gateable read 0; a 1 clears its island's wake latch,
unless a wake event falls in the same cycle (R32, R33). -/
def doClkGateReqWrite (m : Master) (v : Word) (wakes : BitVec 19) (s : State) : State :=
  s.guarded m clkGateReq fun s =>
    let w : BitVec 19 := v.setWidth 19 &&& gateable
    let s1 := s.setReg clkGateReq (w.setWidth 32)
    let s2 := { s1 with clk := { s1.clk with wakeLatch := s1.clk.wakeLatch &&& ~~~w } }
    (List.range 19).foldl (fun t i => if wakes.getLsbD i then t.wake i else t) s2

/-- The meaning of CLK_GATE_REQ_WRITE. -/
def execClkGateReqWrite (m : Master) (v : Word) (wakes : BitVec 19) (s : State) :
    Host.Outcome State Fault Refusal :=
  commit s (doClkGateReqWrite m v wakes s)

end Sys2Proof.Machine
end

