-- ==== Sys2Proof/Machine/Mem.lean ====
section
/-! DEFINITION. SRAM banks (15, R350-R366): contents, ownership, release, assignment and fills, accesses with the
Skimmer's redirect, the Skimmer's windows and row repair. -/

namespace Sys2Proof.Machine

/-! Contents (R350): a bank byte nothing has written reads 0 (log 7). -/

/-- Rows of a bank: 512 of a general bank, 64 of a dual-port bank. -/
def bankRows (b : Nat) : Nat := if b < 96 then 512 else 64

/-- Bytes of a bank. -/
def bankSize (b : Nat) : Nat := 256 * bankRows b

/-- The key of a byte of a bank. -/
def bankKey (b off : Nat) : Nat := 131072 * b + off

/-- What a byte nothing has written reads as (log 7). -/
def bankReset (_ : Nat) : Byte := 0

/-- A byte of a bank. -/
def State.bankByte (s : State) (b off : Nat) : Byte := amGet bankReset s.mem.banks (bankKey b off)

/-- n bytes of a bank, wrapping at its end. -/
def State.bankRead (s : State) (b off n : Nat) : List Byte :=
  (List.range n).map (fun k => s.bankByte b ((off + k) % bankSize b))

/-- Write one byte of a bank. -/
def State.setBankByte (s : State) (b off : Nat) (v : Byte) : State :=
  { s with mem := { s.mem with banks := amPut bankReset s.mem.banks (bankKey b off) v } }

/-- Write bytes of a bank from an offset on, wrapping at its end. -/
def State.bankWrite (s : State) (b off : Nat) : List Byte → State
  | [] => s
  | v :: r => (s.setBankByte b (off % bankSize b) v).bankWrite b (off + 1) r

/-- Zero a bank (R354). -/
def State.bankZero (s : State) (b : Nat) : State :=
  { s with mem := { s.mem with banks := s.mem.banks.filter (fun e => e.1 / 131072 ≠ b) } }

/-- A little-endian word of a bank. -/
def State.bankWord (s : State) (b off : Nat) : Word := w32 (leNat (s.bankRead b off 4))

/-- Store a little-endian word of a bank. -/
def State.setBankWord (s : State) (b off : Nat) (v : Word) : State := s.bankWrite b off (leBytes v)

/-! Ownership (R351, Table MEM-5). -/

/-- MEM_BANK_OWNERb. -/
def State.owner (s : State) (b : Nat) : Word := s.reg (memBankOwner b)

def ownKind (w : Word) : Nat := fieldOf w 0 4
def ownRole (w : Word) : Nat := fieldOf w 8 4
def ownKey (w : Word) : Bool := bitOf w 16
def ownClr (w : Word) : Bool := bitOf w 15
def ownClearing (w : Word) : Bool := bitOf w 30
def ownBusy (w : Word) : Bool := bitOf w 31

/-- KIND of a master. -/
def bmKind : BankMaster → Nat
  | .role _ => 1
  | .sup => 2
  | .dma => 3
  | .switch b => if b then 5 else 4
  | .seq => 6

/-- ROLE of a master. -/
def bmRole : BankMaster → Nat
  | .role r => r.val
  | _ => 0

/-- Whether a master owns a bank. -/
def State.owns (s : State) (m : BankMaster) (b : Nat) : Bool :=
  ownKind (s.owner b) = bmKind m && ownRole (s.owner b) = bmRole m

/-- A non-owner access: counted, the bank and the master recorded (R351). -/
def State.nonOwner (s : State) (m : BankMaster) (b : Nat) : State :=
  (s.count memNonownCnt).setReg memNonownLast (w32 (65536 * b + 256 * bmRole m + bmKind m))

/-! Accesses (R351, R355, R358). -/

/-- The Skimmer's open window, if it redirects the row of an offset (R358). -/
def State.redirects (s : State) (b off : Nat) : Option SkmWindow :=
  match s.mem.window with
  | some w => if w.redirect && w.bank.val = b && w.row.toNat = off / 256 && !w.spare then some w else none
  | none => none

/-- A byte as the owner reads it, t FCLK after T0 where its row is redirected (Table MEM-2). -/
def State.ownerByte (s : State) (b off t : Nat) : Byte :=
  match s.redirects b off with
  | some w => if t < 32 then s.bankByte b off else byteAt w.scratch (off % 256)
  | none => s.bankByte b off

/-- A byte as the owner writes it: to the scratch row of a redirected row, and to the row outside the march
(Table MEM-2). -/
def State.setOwnerByte (s : State) (b off t : Nat) (v : Byte) : State :=
  match s.redirects b off with
  | some w =>
    let w' : SkmWindow := { w with scratch := overwrite w.scratch (off % 256) [v] }
    let s1 := { s with mem := { s.mem with window := some w' } }
    if t < 32 ∨ 688 ≤ t then s1.setBankByte b off v else s1
  | none => s.setBankByte b off v

/-- An owner's read of n bytes, wrapping at the bank's end. -/
def State.ownerRead (s : State) (b off n t : Nat) : List Byte :=
  (List.range n).map (fun k => s.ownerByte b ((off + k) % bankSize b) t)

/-- An owner's write, wrapping at the bank's end. -/
def State.ownerWrite (s : State) (b off : Nat) (bs : List Byte) (t : Nat) : State :=
  match bs with
  | [] => s
  | v :: r => (s.setOwnerByte b (off % bankSize b) t v).ownerWrite b (off + 1) r t

/-- An uncorrectable error on an owner's read: counted, and the row is tested out of turn (R355). -/
def State.bankUe (s : State) (b off : Nat) : State :=
  let s1 := s.count memUeCnt
  { s1 with mem := { s1.mem with outOfTurn := s1.mem.outOfTurn ++ [(b, off / 256)] } }

/-- An access at a bank's arbiter: whether it is answered, the bytes read, and what it leaves (R351, R355). -/
def State.bankServe (s : State) (m : BankMaster) (b off : Nat) (op : BankOp) (ecc : Ecc) (t : Nat) :
    Bool × List Byte × State :=
  if !s.owns m b then (false, [], s.nonOwner m b)
  else
    let s1 := if ecc = .corrected then s.count memCeCnt else s
    match op with
    | .read n =>
      if ecc = .uncorrectable then (false, [], s1.bankUe b off)
      else (true, s1.ownerRead b off n.val t, s1)
    | .write bs => (true, [], s1.ownerWrite b off bs t)

/-- An access whose offset lies beyond a dual-port bank wraps in no bank: its windows are 16 KiB (R350). -/
def doBankAccess (m : BankMaster) (b : Fin 112) (off : BitVec 17) (op : BankOp) (ecc : Ecc) (t : BitVec 10)
    (s : State) : State :=
  let r := s.bankServe m b.val (off.toNat % bankSize b.val) op ecc t.toNat
  r.2.2.emit (.bank m r.1 r.2.1)

/-- The meaning of BANK_ACCESS. -/
def execBankAccess (m : BankMaster) (b : Fin 112) (off : BitVec 17) (op : BankOp) (ecc : Ecc) (t : BitVec 10)
    (s : State) : Host.Outcome State Fault Refusal :=
  commit s (doBankAccess m b off op ecc t s)

/-! Release and assignment (R353, R354). -/

/-- The pending owner of a bank's fill. -/
def State.setFill (s : State) (b : Nat) (w : Option Word) : State :=
  { s with mem := { s.mem with fills := (b, w) :: s.mem.fills.filter (fun e => e.1 ≠ b) } }

/-- The release of a bank that has an owner: KIND reads NONE at once; BUSY while accepted accesses are in flight;
a KEY bank clears and loses KEY (R353). -/
def State.releaseBank (s : State) (b : Nat) (inflight : Bool) : State :=
  let key := ownKey (s.owner b)
  let s1 := s.setReg (memBankOwner b) (w32 (2 ^ 31 * b2n inflight + 2 ^ 30 * b2n key))
  if key then s1.setFill b none else s1

/-- A write of KIND NONE let through: in the span of a fill it cancels the pending owner and clears KEY (R354). -/
def State.writeNone (s : State) (b : Nat) (inflight : Bool) : State :=
  let w := s.owner b
  if ownClearing w then (s.setReg (memBankOwner b) (setBit w 16 false)).setFill b none
  else if ownKind w = 0 then s
  else s.releaseBank b inflight

/-- Whether a written word names a master R354 admits. -/
def ownerWordOk (v : Word) : Bool :=
  decide (ownKind v ≤ 6) && (if ownKind v = 1 then decide (ownRole v < 10) else decide (ownRole v = 0))

/-- The owner word that takes effect: KIND, ROLE and KEY. -/
def ownerWordOf (v : Word) : Word := v &&& 0x00010F0F#32

/-- A supervisor's write of a KIND other than NONE (R354). -/
def State.assignBank (s : State) (b : Nat) (v : Word) : State :=
  let w := s.owner b
  let a := memBankOwner b
  if ownBusy w || ownClearing w then s.rejReg .mem a
  else if ownKind w ≠ 0 ∧ (ownKind w ≠ ownKind v ∨ ownRole w ≠ ownRole v) then s.rejReg .mem a
  else if ownClr v then
    (s.setReg a (w32 (2 ^ 30 + 2 ^ 16 * b2n (ownKey v)))).setFill b (some (ownerWordOf v))
  else s.setReg a (ownerWordOf v)

/-- A write of MEM_BANK_OWNERb: from the supervisor, or the release of a host-DMA bank by host software or the
expansion host, the one exception to R42 (R353, R366). -/
def State.ownerRegWrite (s : State) (m : Master) (b : Fin 112) (v : Word) (inflight : Bool) : State :=
  s.guarded m (memBankOwner b.val) fun s =>
    let a := memBankOwner b.val
    let outer := !s.supReach m
    if !ownerWordOk v then s.rejReg .mem a
    else if outer && !(ownKind v = 0 && ownKind (s.owner b.val) = 3) then s.rejReg .mem a
    else if ownKind v = 0 then s.writeNone b.val inflight
    else s.assignBank b.val v

/-- The meaning of BANK_RELEASE; `inflight`: accepted accesses have not finished at the bank. -/
def execBankRelease (m : Master) (b : Fin 112) (inflight : Bool) (s : State) :
    Host.Outcome State Fault Refusal :=
  commit s (s.ownerRegWrite m b 0 inflight)

/-- The meaning of BANK_ASSIGN. -/
def execBankAssign (m : Master) (b : Fin 112) (v : Word) (s : State) : Host.Outcome State Fault Refusal :=
  commit s (s.ownerRegWrite m b v false)

/-- The last accepted access of a released bank has finished: BUSY falls (R353). -/
def doBankDrainDone (b : Fin 112) (s : State) : State := s.setRegBit (memBankOwner b.val) 31 false

/-- The meaning of BANK_DRAIN_DONE. -/
def execBankDrainDone (b : Fin 112) (s : State) : Host.Outcome State Fault Refusal :=
  commit s (doBankDrainDone b s)

/-- The scratch row of a window on the bank is filled with it: the fill's writes are redirected as any other. -/
def State.zeroScratch (s : State) (b : Nat) : State :=
  match s.mem.window with
  | some w =>
    if w.bank.val = b then
      { s with mem := { s.mem with window := some { w with scratch := w.scratch.map (fun _ => 0) } } }
    else s
  | none => s

/-- A fill ends: the bank reads 0, CLEARING falls and the pending owner takes effect (R353, R354). A fill starts
after BUSY has fallen. -/
def doBankFillDone (b : Fin 112) (s : State) : State :=
  let w := s.owner b.val
  if !ownClearing w || ownBusy w then s
  else
    let next : Word := match s.mem.fills.find? (fun e => e.1 = b.val) with
      | some (_, some v) => v
      | _ => 0
    let s1 := ((s.bankZero b.val).zeroScratch b.val).setReg (memBankOwner b.val) next
    { s1 with mem := { s1.mem with fills := s1.mem.fills.filter (fun e => e.1 ≠ b.val) } }

/-- The meaning of BANK_FILL_DONE. -/
def execBankFillDone (b : Fin 112) (s : State) : Host.Outcome State Fault Refusal :=
  commit s (doBankFillDone b s)

/-! Repair records (Table MEM-6). -/

/-- The row a spare holds; 0x3FF: unused. -/
def State.spareRow (s : State) (b k : Nat) : Nat := fieldOf (s.tab .mem 0 (b * 4 + 1 + k / 2)) (16 * (k % 2)) 10

/-- Store it. -/
def State.setSpareRow (s : State) (b k v : Nat) : State :=
  s.setTab .mem 0 (b * 4 + 1 + k / 2) (setField (s.tab .mem 0 (b * 4 + 1 + k / 2)) (16 * (k % 2)) 10 v)

/-- SPARE_BAD of a spare. -/
def State.spareBad (s : State) (b k : Nat) : Bool := bitOf (s.tab .mem 0 (b * 4)) (8 + k)

/-- USED counts the spares that hold a row. -/
def State.recountSpares (s : State) (b : Nat) : State :=
  let n := ((List.range 4).filter (fun k => s.spareRow b k ≠ 0x3FF)).length
  s.setTab .mem 0 (b * 4) (setField (s.tab .mem 0 (b * 4)) 0 3 n)

/-- The lowest unused spare whose last test did not fail (R361). -/
def State.pickSpare (s : State) (b : Nat) : Option Nat :=
  (List.range 4).find? (fun k => s.spareRow b k = 0x3FF && !s.spareBad b k)

/-- The spare that holds a row now. -/
def State.spareOfRow (s : State) (b row : Nat) : Option Nat :=
  (List.range 4).find? (fun k => s.spareRow b k = row)

/-- A row maps to a spare from T0 + 720 (R361); a spare that held it has failed and is not used again. -/
def State.repairRow (s : State) (b row k : Nat) : State :=
  let s1 := match s.spareOfRow b row with
    | some j => (s.setSpareRow b j 0x3FF).setTab .mem 0 (b * 4) (setBit (s.tab .mem 0 (b * 4)) (8 + j) true)
    | none => s
  ((s1.setSpareRow b k row).recountSpares b).count memRepairCnt

/-! The Skimmer (R356-R363). -/

/-- The regions of a bank in walk order: its rows, then its unused spares (R356). -/
def State.bankRegions (s : State) (b : Nat) : List (Bool × Nat) :=
  (List.range (bankRows b)).map (fun r => (false, r)) ++
    ((List.range 4).filter (fun k => s.spareRow b k = 0x3FF)).map (fun k => (true, k))

/-- The region in turn: bank, whether a spare row, its number. Rows out of turn come first (R355). -/
def State.nextRegion (s : State) : Nat × Bool × Nat :=
  match s.mem.outOfTurn with
  | (b, r) :: _ => (b, false, r)
  | [] =>
    let b := s.mem.walkBank.val
    let i := s.mem.walkRow
    if i < bankRows b then (b, false, i)
    else
      match ((s.bankRegions b).drop i).head? with
      | some x => (b, x.1, x.2)
      | none => (b, true, 0)

/-- The walk moves on; after the last region of bank 111 a pass is complete (R356). -/
def State.advanceWalk (s : State) : State :=
  match s.mem.outOfTurn with
  | _ :: r => { s with mem := { s.mem with outOfTurn := r } }
  | [] =>
    let b := s.mem.walkBank.val
    let total := bankRows b + ((List.range 4).filter (fun k => s.spareRow b k = 0x3FF)).length
    if s.mem.walkRow + 1 < total then { s with mem := { s.mem with walkRow := s.mem.walkRow + 1 } }
    else
      let s1 := { s with mem := { s.mem with walkRow := 0, walkBank := Fin.ofNat 112 (b + 1) } }
      if b = 111 then s1.count memSkmPassCnt else s1

/-- March C− leaves a row that holds no owner data with its own patterns, which the manual does not give: 64 free
words (R357; log 15). -/
def State.marchRow (s : State) (b row : Nat) : State :=
  let r := s.drawN 64
  r.2.bankWrite b (256 * row) (r.1.flatMap leBytes)

/-- The verdict of a window (R361, R363): a failed row takes the lowest usable spare, or its bank is EXHAUSTED and
the fault manager notes it; a spare is marked by its last test. -/
def State.skmVerdict (s : State) (b : Nat) (spare : Bool) (row : Nat) (fails : Bool) : State × Option (Fin 4) :=
  if spare then
    let s1 := s.setTab .mem 0 (b * 4) (setBit (s.tab .mem 0 (b * 4)) (8 + row) fails)
    (if fails then s1.count memSkmFailCnt else s1, none)
  else if !fails then (s, none)
  else
    let s1 := s.count memSkmFailCnt
    match s1.pickSpare b with
    | some k => (s1, some (Fin.ofNat 4 k))
    | none =>
      ((s1.setTab .mem 0 (b * 4) (setBit (s1.tab .mem 0 (b * 4)) 31 true)).fltLog 0x43 0x0B .noted
        (BitVec.ofNat 8 b) row, none)

/-- A window opens on the region in turn (R356, R357): the save, with its corrected and uncorrectable words
counted (R360), and the verdict. A window opens at the start of each interval (log 15); none while EN = 0, in hold, while
one is open, or on a bank that reads CLEARING. -/
def doSkimmerWindow (fails : Bool) (ce ue : Fin 33) (s : State) : State :=
  let reg := s.nextRegion
  let b := reg.1
  if !s.en .mem || s.inHold .mem || s.mem.window.isSome || ownClearing (s.owner b) || decide (s.clk.tick < s.mem.due) then s
  else
    let redirect := !reg.2.1 && ownKind (s.owner b) ≠ 0
    let s1 := s.advanceWalk.setReg memSkmPos
      (w32 (2 ^ 31 + 65536 * b + 1024 * b2n reg.2.1 + reg.2.2))
    let s2 := if redirect then (s1.countN memCeCnt ce.val).countN memUeCnt ue.val
      else if reg.2.1 then s1 else s1.marchRow b reg.2.2
    let v := s2.skmVerdict b reg.2.1 reg.2.2 fails
    let w : SkmWindow := ⟨Fin.ofNat 112 b, BitVec.ofNat 10 reg.2.2, reg.2.1, redirect,
      s2.bankRead b (256 * reg.2.2) 256, v.2⟩
    { v.1 with mem := { v.1.mem with
      window := some w
      due := s.clk.tick + 500 * fieldOf (s.reg memSkmInterval) 0 16 } }

/-- The meaning of SKIMMER_WINDOW; `fails`: the march finds a fault; `ce`, `ue`: words the save finds with a
single-bit and an uncorrectable error. -/
def execSkimmerWindow (fails : Bool) (ce ue : Fin 33) (s : State) : Host.Outcome State Fault Refusal :=
  commit s (doSkimmerWindow fails ce ue s)

/-- T0 + 720: the restore has written the row from the scratch row, the redirect ends and a repair takes effect
(Table MEM-1, R361). -/
def doSkimmerWindowEnd (s : State) : State :=
  match s.mem.window with
  | none => s
  | some w =>
    let s1 := if w.redirect then s.bankWrite w.bank.val (256 * w.row.toNat) w.scratch else s
    let s2 := match w.select with
      | some k => s1.repairRow w.bank.val w.row.toNat k.val
      | none => s1
    let s3 := s2.setRegBit memSkmPos 31 false
    { s3 with mem := { s3.mem with window := none } }

/-- The meaning of SKIMMER_WINDOW_END. -/
def execSkimmerWindowEnd (s : State) : Host.Outcome State Fault Refusal := commit s (doSkimmerWindowEnd s)

end Sys2Proof.Machine
end

