-- ==== Sys2Proof/Machine/Mbx.lean ====
section
/-! DEFINITION. Mailboxes (15, R339-R349), and the events of WAIT that an engine role's service context waits for. -/

namespace Sys2Proof.Machine

/-! Engines and roles (R14). -/

/-- The engine that holds a role's instance. -/
def State.engOf (s : State) (r : Fin 10) : Option (Fin 10) :=
  match s.insts[r] with
  | some i => i.engine
  | none => none

/-- Replace an engine. -/
def State.setEng (s : State) (e : Fin 10) (x : Engine) : State := { s with eng := vset s.eng e x }

/-- Replace an instance. -/
def State.setInst (s : State) (r : Fin 10) (i : Option Inst) : State := { s with insts := vset s.insts r i }

/-- Change the instance of a role, if there is one. -/
def State.modInst (s : State) (r : Fin 10) (f : Inst → Inst) : State :=
  match s.insts[r] with
  | some i => s.setInst r (some (f i))
  | none => s

/-- An event of WAIT becomes pending at an engine (R110). -/
def State.postEvt (s : State) (e : Fin 10) (b : Fin 4) : State :=
  s.setEng e { s.eng[e] with evt := setBit s.eng[e].evt b.val true }

/-- An event becomes pending at the engine of a role's instance. -/
def State.roleEvt (s : State) (r : Fin 10) (b : Fin 4) : State :=
  match s.engOf r with
  | some e => s.postEvt e b
  | none => s

/-! Endpoints (Table MBX-1). -/

/-- The code of a path's endpoint; JTAG is the endpoint of none (R340). -/
def peerCode : MbxPeer → Option Byte
  | .bus .h0 => some 0x10
  | .bus .h1 => some 0x20
  | .bus .sup => some 0x30
  | .bus .exp => some 0x50
  | .bus .jtag => none
  | .role r => some (BitVec.ofNat 8 (0x40 + r.val))

def State.mbxSender (s : State) (b : Fin 64) : Byte := (s.reg (mbxCfg b.val)).extractLsb' 8 8
def State.mbxReceiver (s : State) (b : Fin 64) : Byte := (s.reg (mbxCfg b.val)).extractLsb' 0 8

/-- FULL of a mailbox. -/
def State.mbxFullOf (s : State) (b : Fin 64) : Bool := s.mbx.full.getLsbD b.val

/-- Whether a mailbox has both endpoints (R339). -/
def State.mbxOpen (s : State) (b : Fin 64) : Bool := s.mbxSender b ≠ 0 && s.mbxReceiver b ≠ 0

/-- Whether a path is a mailbox's sender. -/
def State.isSender (s : State) (p : MbxPeer) (b : Fin 64) : Bool :=
  s.mbxOpen b && peerCode p = some (s.mbxSender b)

/-- Whether a path is a mailbox's receiver. -/
def State.isReceiver (s : State) (p : MbxPeer) (b : Fin 64) : Bool :=
  s.mbxOpen b && peerCode p = some (s.mbxReceiver b)

/-- Payload word w. -/
def State.mbxWord (s : State) (b : Fin 64) (w : Nat) : Word := s.reg (mbxW (b.val * 16 + w))

/-- Store it. -/
def State.setMbxWord (s : State) (b : Fin 64) (w : Nat) (v : Word) : State := s.setReg (mbxW (b.val * 16 + w)) v

/-- Set FULL, NOTICE. -/
def State.setFull (s : State) (b : Fin 64) (f : Bool) : State :=
  { s with mbx := { s.mbx with full := setBit s.mbx.full b.val f } }
def State.setNotice (s : State) (b : Fin 64) (f : Bool) : State :=
  { s with mbx := { s.mbx with notice := setBit s.mbx.notice b.val f } }

/-- The words written and not yet posted (R348). -/
def State.mbxWritten (s : State) (b : Fin 64) : BitVec 16 := amGet (fun _ => 0) s.mbx.written b.val
def State.setMbxWritten (s : State) (b : Fin 64) (m : BitVec 16) : State :=
  { s with mbx := { s.mbx with written := amPut (fun _ => 0) s.mbx.written b.val m } }

/-- Payload words of a mask read 0. -/
def State.clearMbxWords (s : State) (b : Fin 64) (mask : BitVec 16) : State :=
  (List.range 16).foldl (fun t w => if mask.getLsbD w then t.setMbxWord b w 0 else t) s

/-- The send status word (R341). -/
def State.sendStatus (s : State) (b : Fin 64) : Word :=
  w32 (2 ^ 31 * b2n (s.mbxFullOf b) + 65536 * b2n (s.mbx.notice.getLsbD b.val))

/-! Posting and reading (R342-R344). -/

/-- The island of a receiver, as a wake event names it. -/
def State.endpointIsland (s : State) (code : Byte) : Option Nat :=
  match fieldOf code 4 4 with
  | 1 => some 15
  | 2 => some 15
  | 4 => (s.engOf (Fin.ofNat 10 (fieldOf code 0 4))).map (fun e => 3 + e.val)
  | 5 => some 17
  | _ => none

/-- The notice of a post to its receiver, with a wake event where its island is gated (R344). -/
def State.notifyPost (s : State) (b : Fin 64) : State :=
  let code := s.mbxReceiver b
  let s1 := match fieldOf code 4 4 with
    | 3 => s.emit (.supMailbox b.val)
    | 4 => s.roleEvt (Fin.ofNat 10 (fieldOf code 0 4)) 0
    | _ => s
  match s1.endpointIsland code with
  | some i => if s1.islandOn i then s1 else s1.wake i
  | none => s1

/-- A mailbox's receiver is in a fenced domain, to which a post ends with FENCED (R397): a host link, the expansion host
or the engine of a role. The supervisor's domain takes posts while it restarts, for it leaves the fence with its first
command (R401). -/
def State.postFenced (s : State) (b : Fin 64) : Bool :=
  let code := s.mbxReceiver b
  match fieldOf code 4 4 with
  | 1 => s.fenced 29
  | 2 => s.fenced 30
  | 4 => (s.engOf (Fin.ofNat 10 (fieldOf code 0 4))).any (fun e => s.fenced e.val)
  | 5 => s.fenced 31
  | _ => false

/-- A sender's write of word w: refused while FULL, and a post to a fenced domain (R397); else the payload takes it, a
notice ends, and W15 posts (R342, R347). -/
def State.mbxSend (s : State) (b : Fin 64) (w : Nat) (v : Word) : Bool × State :=
  if s.mbxFullOf b then (false, s.count mbxSendRejCnt)
  else if w = 15 && s.postFenced b then (false, s)
  else
    let s1 := (s.setMbxWord b w v).setNotice b false
    if w = 15 then (true, (((s1.setMbxWritten b 0).setFull b true).count mbxPostCnt).notifyPost b)
    else (true, s1.setMbxWritten b (setBit (s1.mbxWritten b) w true))

/-- A write by any path: the sender's, else an access error (R340, R341). -/
def State.mbxWrite (s : State) (p : MbxPeer) (b : Fin 64) (w : Nat) (v : Word) : Bool × State :=
  if s.isSender p b then s.mbxSend b w v else (false, s.count mbxAccErrCnt)

/-- The status a refused write ends with: FENCED for a post to a fenced domain (R397), else BUS_ERROR (R340, R342). -/
def State.mbxRefusal (s : State) (p : MbxPeer) (b : Fin 64) (w : Nat) : Byte :=
  if s.isSender p b && !s.mbxFullOf b && w = 15 && s.postFenced b then stFenced else stBusError

/-- A read by any path: the send status word for the sender; the payload for the receiver, whose read of W15
frees a FULL mailbox; else an access error (R340, R341, R343). -/
def State.mbxRead (s : State) (p : MbxPeer) (b : Fin 64) (w : Nat) : Option Word × State :=
  if s.isSender p b then (some (s.sendStatus b), s)
  else if s.isReceiver p b then
    (some (s.mbxWord b w), if w = 15 ∧ s.mbxFullOf b then s.setFull b false else s)
  else (none, s.count mbxAccErrCnt)

/-- A write as its path sees it answered. -/
def doMbxWrite (p : MbxPeer) (b : Fin 64) (w : Nat) (v : Word) (s : State) : State :=
  match p with
  | .bus m =>
    s.guarded m (mbxW (b.val * 16 + w)) fun s =>
      let r := s.mbxWrite p b w v
      if r.1 then r.2 else r.2.accessErr m true 0 (mbxW (b.val * 16 + w)) (s.mbxRefusal p b w)
  | .role r =>
    let x := s.mbxWrite p b w v
    x.2.emit (.mbxAnswer r x.1 0)

/-- A read as its path sees it answered. -/
def doMbxRead (p : MbxPeer) (b : Fin 64) (w : Nat) (s : State) : State :=
  match p with
  | .bus m =>
    s.guardedRead m (mbxW (b.val * 16 + w)) fun s =>
      let a := mbxW (b.val * 16 + w)
      match s.mbxRead p b w with
      | (some v, t) => t.emit (.readData m (w32 a) v)
      | (none, t) => t.accessErr m false 0 a stBusError
  | .role r =>
    match s.mbxRead p b w with
    | (some v, t) => t.emit (.mbxAnswer r true v)
    | (none, t) => t.emit (.mbxAnswer r false 0)

/-- The meaning of MBX_SENDER_WRITE. -/
def execMbxSenderWrite (p : MbxPeer) (b : Fin 64) (w : Fin 15) (v : Word) (s : State) :
    Host.Outcome State Fault Refusal :=
  commit s (doMbxWrite p b w.val v s)

/-- The meaning of MBX_POST. -/
def execMbxPost (p : MbxPeer) (b : Fin 64) (v : Word) (s : State) : Host.Outcome State Fault Refusal :=
  commit s (doMbxWrite p b 15 v s)

/-- The meaning of MBX_RECEIVE: the receiver's read of W15. -/
def execMbxReceive (p : MbxPeer) (b : Fin 64) (s : State) : Host.Outcome State Fault Refusal :=
  commit s (doMbxRead p b 15 s)

/-! Resets of an endpoint (R345-R348). -/

/-- A receiver endpoint is reset: one of its mailboxes is cleared, with a notice where it was FULL (R346). -/
def State.resetReceived (s : State) (b : Fin 64) : State :=
  let s1 := s.clearMbxWords b (BitVec.allOnes 16)
  if s.mbxFullOf b then ((s1.setFull b false).setNotice b true).count mbxAbortCnt else s1

/-- A sender endpoint is reset: the words it wrote and did not post read 0 (R348). -/
def State.resetSent (s : State) (b : Fin 64) : State :=
  (s.clearMbxWords b (s.mbxWritten b)).setMbxWritten b 0

/-- The reset of an endpoint (R345). -/
def State.resetEndpoint (s : State) (code : Byte) : State :=
  (List.range 64).foldl (fun t k =>
    let b := Fin.ofNat 64 k
    if !t.mbxOpen b then t
    else if t.mbxReceiver b = code then t.resetReceived b
    else if t.mbxSender b = code then t.resetSent b
    else t) s

/-- The reset of an engine role's endpoint. -/
def State.resetRole (s : State) (r : Fin 10) : State := s.resetEndpoint (BitVec.ofNat 8 (0x40 + r.val))

/-! MBX_CMD and MBX_CFG (R347, R349). -/

/-- ACK: accepted from the mailbox's sender endpoint where that is host software or the supervisor (R347). -/
def doMbxAck (m : Master) (b : Fin 64) (s : State) : State :=
  s.guarded m mbxCmd fun s =>
    let s1 := s.setReg mbxCmd (w32 b.val)
    if (m = .h0 || m = .h1 || m = .sup) && s1.isSender (.bus m) b then s1.setNotice b false
    else s1.rejReg .mbx mbxCmd

/-- The meaning of MBX_ACK. -/
def execMbxAck (m : Master) (b : Fin 64) (s : State) : Host.Outcome State Fault Refusal :=
  commit s (doMbxAck m b s)

/-- Whether an endpoint byte may be written (R349). -/
def endpointOk (c : Byte) : Bool :=
  decide (fieldOf c 4 4 ≤ 5) &&
    (if fieldOf c 4 4 = 4 then decide (fieldOf c 0 4 < 10) else decide (fieldOf c 0 4 = 0))

/-- A write of MBX_CFGm (R349): it reassigns the endpoints and clears the payload, while FULL = 0 and NOTICE is
none. -/
def doMbxCfgWrite (m : Master) (b : Fin 64) (v : Word) (s : State) : State :=
  s.guarded m (mbxCfg b.val) fun s =>
    let snd : Byte := v.extractLsb' 8 8
    let rcv : Byte := v.extractLsb' 0 8
    if s.mbxFullOf b || s.mbx.notice.getLsbD b.val || !endpointOk snd || !endpointOk rcv ||
        (snd = rcv && snd ≠ 0) then
      s.rejReg .mbx (mbxCfg b.val)
    else
      ((s.setReg (mbxCfg b.val) (v &&& 0xFFFF#32)).clearMbxWords b (BitVec.allOnes 16)).setMbxWritten b 0

/-- The meaning of MBX_CFG_WRITE. -/
def execMbxCfgWrite (m : Master) (b : Fin 64) (v : Word) (s : State) : Host.Outcome State Fault Refusal :=
  commit s (doMbxCfgWrite m b v s)

end Sys2Proof.Machine
end

