-- ==== Sys2Proof/Machine/Esp.lean ====
section
/-! DEFINITION. The engine data space (05, Table PEC-7): local data memory, bank windows, mailboxes and granted
trigger and capture units, as an engine's LSU and FWU reach them (R101, R102). -/

namespace Sys2Proof.Machine

/-- The target of an engine address. -/
inductive ETarget where
  | dmem (off : Nat)
  | bank (b off : Nat)
  | mbx (m : Fin 64) (w : Nat)
  | ttc (o : Nat)
  | bad
deriving DecidableEq, Repr

/-- A word of an engine's window map (R116): words 0-31 general, 32-35 dual-port. -/
def State.mapWord (s : State) (e : Fin 10) (w : Nat) : Word := s.tab (.pec e) 2 w

/-- The physical bank of a general window, 0-95; none without a valid mapping. -/
def State.genBank (s : State) (e : Fin 10) (w : Nat) : Option Nat :=
  let b := fieldOf (s.mapWord e w) 0 7
  if bitOf (s.mapWord e w) 31 ∧ b < 96 then some b else none

/-- The physical bank of a dual-port window, 0-15. -/
def State.dualBank (s : State) (e : Fin 10) (v : Nat) : Option Nat :=
  let b := fieldOf (s.mapWord e (32 + v)) 0 7
  if bitOf (s.mapWord e (32 + v)) 31 ∧ b < 16 then some (96 + b) else none

/-- Whether a TTC offset is of a granted unit (Table PEC-7). -/
def State.granted (s : State) (e : Fin 10) (o : Nat) : Bool :=
  if o < 0x400 then bitOf (s.reg (pecTtuGrant e.val)) ((o - 0x100) / 32)
  else bitOf (s.reg (pecTcuGrant e.val)) ((o - 0x400) / 32)

/-- The target of an address; the checkpoint area of dual-port window 3 is closed to the instance (R156). -/
def State.espTarget (s : State) (e : Fin 10) (a : Nat) : ETarget :=
  if a < 0x8000 then .dmem a
  else if 0x01000000 ≤ a ∧ a < 0x01400000 then
    match s.genBank e ((a - 0x01000000) / 0x20000) with
    | some b => .bank b ((a - 0x01000000) % 0x20000)
    | none => .bad
  else if 0x0200FC00 ≤ a ∧ a ≤ 0x0200FFFF then .bad
  else if 0x02000000 ≤ a ∧ a < 0x02010000 then
    match s.dualBank e ((a - 0x02000000) / 0x4000) with
    | some b => .bank b ((a - 0x02000000) % 0x4000)
    | none => .bad
  else if 0x03000000 ≤ a ∧ a < 0x03001000 then
    .mbx (Fin.ofNat 64 ((a - 0x03000000) / 64)) ((a - 0x03000000) % 64 / 4)
  else if 0x04000100 ≤ a ∧ a < 0x04000600 then
    let o := a - 0x04000000
    if s.granted e o && (regAt (0x30000 + o / 4 * 4)).isSome then .ttc o else .bad
  else .bad

/-- The latency of an address class: 2 ECLK local, 12 otherwise (Table PEC-7). -/
def espLat (a : Nat) : Nat := if a < 0x8000 then 2 else 12

/-- The islands besides the engine's own that an access crosses to (R25, Table CLK-6): none for local memory, Fabric
and Memory for the banks, Fabric for the mailboxes, Port for the TTC. -/
def espPath (a : Nat) : List Nat :=
  if a < 0x8000 then [] else if a < 0x03000000 then [13, 14] else if a < 0x04000000 then [13] else [0]

/-- A transfer in pieces that end at multiples of 1,024 bytes, where every boundary of the data space lies: address
and length of each; at most `fuel`. -/
def espSpans : Nat → Nat → Nat → List (Nat × Nat)
  | 0, _, _ => []
  | fuel + 1, a, n =>
    let k := 1024 - a % 1024
    if n ≤ k then [(a, n)] else (a, k) :: espSpans fuel (a + k) (n - k)

/-- n bytes of local data memory. -/
def dmemRead (x : Engine) (off n : Nat) : List Byte :=
  (List.range n).map (fun k => amGet (fun _ => 0) x.dmem ((off + k) % 0x8000))

/-- Write bytes of local data memory. -/
def dmemWrite (d : AMap Byte) (off : Nat) : List Byte → AMap Byte
  | [] => d
  | v :: r => dmemWrite (amPut (fun _ => 0) d (off % 0x8000) v) (off + 1) r

/-- A read of n bytes within one target by an engine: the bytes, or none for BUS_ERROR (R102). Mailboxes and TTC
registers take whole aligned words only. -/
def State.espPieceRead (s : State) (e : Fin 10) (a n : Nat) : Option (List Byte) × State :=
  let x := s.eng[e]
  match s.espTarget e a with
  | .dmem off => (some (dmemRead x off n), s)
  | .bank b off =>
    match x.role with
    | some r =>
      let t := s.bankServe (.role r) b off (.read (Fin.ofNat 9 n)) .clean 100
      (if t.1 then some t.2.1 else none, t.2.2)
    | none => (none, s)
  | .mbx m w =>
    if n ≠ 4 ∨ a % 4 ≠ 0 then (none, s)
    else
      match x.role with
      | some r => let t := s.mbxRead (.role r) m w; (t.1.map leBytes, t.2)
      | none => (none, s)
  | .ttc o =>
    if n ≠ 4 ∨ a % 4 ≠ 0 then (none, s)
    else
      match x.role with
      | some r => let t := s.ttcUnitRead (5 + r.val) o; (some (leBytes t.1), t.2)
      | none => (none, s)
  | .bad => (none, s)

/-- A read of up to four bytes, of any alignment (R101, R106): it fails where either target answers BUS_ERROR, as one
that meets the checkpoint area does (R156). -/
def State.espRead (s : State) (e : Fin 10) (a n : Nat) : Option (List Byte) × State :=
  match espSpans 2 a n with
  | [p, q] =>
    let r := s.espPieceRead e p.1 p.2
    match r.1 with
    | some x => let t := r.2.espPieceRead e q.1 q.2; (t.1.map (x ++ ·), t.2)
    | none => r
  | _ => s.espPieceRead e a n

/-- A write of bytes within one target by an engine: whether it was taken. -/
def State.espPieceWrite (s : State) (e : Fin 10) (a : Nat) (bs : List Byte) : Bool × State :=
  let x := s.eng[e]
  match s.espTarget e a with
  | .dmem off => (true, s.setEng e { x with dmem := dmemWrite x.dmem off bs })
  | .bank b off =>
    match x.role with
    | some r => let t := s.bankServe (.role r) b off (.write bs) .clean 100; (t.1, t.2.2)
    | none => (false, s)
  | .mbx m w =>
    if bs.length ≠ 4 ∨ a % 4 ≠ 0 then (false, s)
    else
      match x.role with
      | some r => s.mbxWrite (.role r) m w (w32 (leNat bs))
      | none => (false, s)
  | .ttc o =>
    if bs.length ≠ 4 ∨ a % 4 ≠ 0 then (false, s)
    else if x.role.isNone then (false, s)
    else (true, s.ttcUnitWrite o (w32 (leNat bs)))
  | .bad => (false, s)

/-- A write of up to four bytes, of any alignment: one that fails in either of its targets changes nothing (R102). -/
def State.espWrite (s : State) (e : Fin 10) (a : Nat) (bs : List Byte) : Bool × State :=
  match espSpans 2 a bs.length with
  | [p, q] =>
    let t := s.espPieceWrite e q.1 (bs.drop p.2)
    if t.1 then
      let r := t.2.espPieceWrite e p.1 (bs.take p.2)
      if r.1 then r else (false, (s.espPieceWrite e p.1 (bs.take p.2)).2)
    else t
  | _ => s.espPieceWrite e a bs

/-- The bytes of one piece of an FWU transfer: local memory or a bank window. -/
def State.stagingPiece (s : State) (e : Fin 10) (a n : Nat) : Option (List Byte) :=
  match s.espTarget e a with
  | .dmem off => some (dmemRead s.eng[e] off n)
  | .bank b off =>
    match s.eng[e].role with
    | some r => if s.owns (.role r) b then some (s.ownerRead b off n 100) else none
    | none => none
  | _ => none

/-- Bytes of an engine address for the FWU's own transfers, of any length; none for BUS_ERROR. -/
def State.stagingRead (s : State) (e : Fin 10) (a n : Nat) : Option (List Byte) :=
  (espSpans (n / 1024 + 2) a n).foldl (fun r p => match r, s.stagingPiece e p.1 p.2 with
    | some x, some y => some (x ++ y)
    | _, _ => none) (some [])

/-- Write one piece. -/
def State.stagingPieceWrite (s : State) (e : Fin 10) (a : Nat) (bs : List Byte) : State :=
  match s.espTarget e a with
  | .dmem off => s.setEng e { s.eng[e] with dmem := dmemWrite s.eng[e].dmem off bs }
  | .bank b off =>
    match s.eng[e].role with
    | some r => if s.owns (.role r) b then s.ownerWrite b off bs 100 else s
    | none => s
  | _ => s

/-- Write bytes for the FWU: a transfer answered with BUS_ERROR in any piece changes nothing (R102, R156). -/
def State.stagingWrite (s : State) (e : Fin 10) (a : Nat) (bs : List Byte) : State :=
  if (s.stagingRead e a bs.length).isSome then
    (espSpans (bs.length / 1024 + 2) a bs.length).foldl (fun t p => t.stagingPieceWrite e p.1 ((bs.drop (p.1 - a)).take p.2)) s
  else s

end Sys2Proof.Machine
end

