-- ==== Sys2Proof/Machine/SgmOps.lean ====
section
/-! DEFINITION. Routes of the signal mapper (14, R333): their state and what an update at a source leaves. -/

namespace Sys2Proof.Machine

/-- A route's state outside its entry. -/
def State.route (s : State) (k : Nat) : RouteSt := amGet (fun _ => RouteSt.reset) s.sgm.routes k

/-- Replace it. -/
def State.setRoute (s : State) (k : Nat) (x : RouteSt) : State :=
  { s with sgm := { s.sgm with routes := amPut (fun _ => RouteSt.reset) s.sgm.routes k x } }

/-- SRC_KIND, DST_KIND and LEN of a route. -/
def State.routeSrc (s : State) (k : Nat) : Nat := fieldOf (s.routeWord k 0) 28 3
def State.routeDst (s : State) (k : Nat) : Nat := fieldOf (s.routeWord k 0) 25 3
def State.routeLen (s : State) (k : Nat) : Nat := fieldOf (s.routeWord k 0) 0 5

/-- A source of one kind has been updated: the valid routes it feeds have an update to take (Table SGM-1). -/
def State.sgmMark (s : State) (kind : Nat) (feeds : Word → Nat → Bool) : State :=
  (s.routeKeys.filter (fun k =>
    bitOf (s.routeWord k 0) 31 && s.routeSrc k = kind && feeds (s.routeWord k 1) (s.routeLen k))).foldl
    (fun t k => t.setRoute k { t.route k with due := true }) s

end Sys2Proof.Machine
end

