-- ==== Sys2Proof/Machine/Macsec.lean ====
section
/-! DEFINITION. MACsec of a port (08, R189-R191): the SecY's secure associations, protection on transmit, and
validation on receive with the outcomes of the table of R190 and the counters of Table ETH-7. The frame format
is IEEE 802.1AE's (log 13). -/

namespace Sys2Proof.Machine

/-- Whether MACsec is enabled on a port. -/
def State.msecEn (s : State) (n : Fin 8) : Bool := bitOf (s.reg (ethMsecCfg n.val)) 0

/-- The key of a secure association: words 0-7 of its entry, the first the most significant. -/
def State.saKey (s : State) (n : Fin 8) (entry : Nat) : BitVec 256 :=
  beVec 256 ((s.tabWords (.eth n) 3 (entry * 16) 8).foldr (fun w a => toBe 4 w.toNat ++ a) [])

/-- Whether an association holds a key: its key words are not all zero (log 13). -/
def State.saHasKey (s : State) (n : Fin 8) (entry : Nat) : Bool := s.saKey n entry ≠ 0

/-- The salt, words 8-10, and the SSCI, word 11. -/
def State.saSalt (s : State) (n : Fin 8) (entry : Nat) : BitVec 96 :=
  beVec 96 ((s.tabWords (.eth n) 3 (entry * 16 + 8) 3).foldr (fun w a => toBe 4 w.toNat ++ a) [])

/-- The IV of GCM-AES-XPN-256: SSCI and the 64-bit PN, exclusive-or the salt. -/
def State.saIv (s : State) (n : Fin 8) (entry pn : Nat) : BitVec 96 :=
  (BitVec.ofNat 96 (2 ^ 64 * (s.tab (.eth n) 3 (entry * 16 + 11)).toNat + pn)) ^^^ s.saSalt n entry

/-- Store a 64-bit PN at a word of an association. -/
def State.setPn (s : State) (n : Fin 8) (word pn : Nat) : State :=
  (s.setTab (.eth n) 3 word (w32 pn)).setTab (.eth n) 3 (word + 1) (w32 (pn / 4294967296))

/-- The lowest acceptable PN of a receive association: words 14 and 15. -/
def State.saLowest (s : State) (n : Fin 8) (entry : Nat) : Nat :=
  (s.tab (.eth n) 3 (entry * 16 + 14)).toNat + 4294967296 * (s.tab (.eth n) 3 (entry * 16 + 15)).toNat

/-- The port's own address, bytes 0-5 (Table ETH-5). -/
def State.portAddr (s : State) (n : Fin 8) : List Byte :=
  toBe 2 (fieldOf (s.reg (ethMacAddrHi n.val)) 0 16) ++ toBe 4 (s.reg (ethMacAddrLo n.val)).toNat

/-- Whether MACsec leaves an EtherType alone: MAC control, EAPOL, ET0 and ET1 of ETH_MSEC_BYPASS (R190). -/
def State.msecBypass (s : State) (n : Fin 8) (et : Nat) : Bool :=
  let b := s.reg (ethMsecBypass n.val)
  et = 0x8808 || et = 0x888E || (fieldOf b 0 16 ≠ 0 && et = fieldOf b 0 16) ||
  (fieldOf b 16 16 ≠ 0 && et = fieldOf b 16 16)

/-- The SecTAG: EtherType 0x88E5, TCI and AN, SL, the low 32 bits of the PN, the SCI with SCI_INCL. -/
def secTag (conf sc : Bool) (an pn sl : Nat) (sci : List Byte) : List Byte :=
  [0x88, 0xE5, BitVec.ofNat 8 (b2n sc * 0x20 + (if conf then 0x0C else 0) + an), BitVec.ofNat 8 sl] ++
    toBe 4 (pn % 4294967296) ++ (if sc then sci else [])

/-- Protect a departing frame (R189-R191): none where the PN of the SA in use is exhausted or it holds no key,
which drops the frame and counts ETH_MSEC_TX_EXH_CNT. -/
def State.msecProtect (s : State) (n : Fin 8) (bs : List Byte) : Option (List Byte) × State :=
  if !s.msecEn n || s.msecBypass n (be16At bs 12) then (some bs, s)
  else
    let cfg := s.reg (ethMsecCfg n.val)
    let an := fieldOf (s.reg (ethMsecTxsa n.val)) 0 2
    let pn := s.saPn n an
    if pn = 2 ^ 64 - 1 || !s.saHasKey n an then (none, s.count (ethMsecTxExhCnt n.val))
    else
      let body := bs.drop 12
      let sl := if body.length < 48 then body.length else 0
      let tag := secTag (bitOf cfg 4) (bitOf cfg 3) an pn sl (s.portAddr n ++ [0, 1])
      let iv := s.saIv n an pn
      let k := s.saKey n an
      let s1 := s.setPn n (an * 16 + 12) (pn + 1)
      if bitOf cfg 4 then
        let aad := bs.take 12 ++ tag
        let ct := gcmCrypt k iv body
        (some (aad ++ ct ++ toBe 16 (gcmTag k iv aad ct).toNat), s1)
      else
        let aad := bs.take 12 ++ tag ++ body
        (some (aad ++ toBe 16 (gcmTag k iv aad []).toNat), s1)

/-- The PN of a received SecTAG in full: the upper half follows the lowest acceptable PN (XPN). -/
def xpnRecover (lowest low : Nat) : Nat :=
  let hi := lowest / 4294967296
  if decide (2 ^ 31 ≤ lowest % 4294967296) && decide (low < 2 ^ 31) then 4294967296 * (hi + 1) + low
  else 4294967296 * hi + low

/-- The receive secure channel of an SCI: the enabled SC whose space 4 entry equals it. -/
def State.scOf (s : State) (n : Fin 8) (sci : Nat) : Option Nat :=
  (List.range 4).find? (fun k => bitOf (s.reg (ethMsecCfg n.val)) (8 + k) &&
    (s.tab (.eth n) 4 (2 * k)).toNat + 4294967296 * (s.tab (.eth n) 4 (2 * k + 1)).toNat = sci)

/-- The verdict of MACsec on a received frame: the frame to go on with, or none if it is dropped. -/
abbrev MsecVerdict := Option (List Byte) × State

/-- A frame that fails: counted; in check, an integrity-only one is accepted without its tag (R190). -/
def State.msecFail (s : State) (n : Fin 8) (cnt : Nat) (encrypted : Bool) (plain : List Byte) : MsecVerdict :=
  let s1 := s.count cnt
  if fieldOf (s.reg (ethMsecCfg n.val)) 1 2 = 1 && !encrypted then (some plain, s1) else (none, s1)

/-- Validate a received frame (R190, step 5 of Table ETH-3). -/
def State.msecValidate (s : State) (n : Fin 8) (bs : List Byte) : MsecVerdict :=
  let v := fieldOf (s.reg (ethMsecCfg n.val)) 1 2
  if !s.msecEn n || s.msecBypass n (be16At bs 12) then (some bs, s)
  else if be16At bs 12 ≠ 0x88E5 then
    if v = 0 then (some bs, s)
    else if v = 1 then (some bs, s.count (ethMsecUntaggedCnt n.val))
    else (none, s.count (ethMsecUntaggedCnt n.val))
  else if v = 0 then (some bs, s)
  else
    let tci := byteAt bs 14
    let sc := tci.getLsbD 5
    let enc := tci.getLsbD 3
    let an := tci.toNat % 4
    let hdr := if sc then 28 else 20
    let sci := if sc then beNat (slice bs 20 8) else 65536 * beNat (slice bs 6 6) + 1
    let body := (bs.drop hdr).take (bs.length - hdr - 16)
    let icv := beVec 128 (bs.drop (bs.length - 16))
    let plainNow := bs.take 12 ++ body
    match s.scOf n sci with
    | none => s.msecFail n (ethMsecNosaCnt n.val) enc plainNow
    | some k =>
      let e := 4 + 4 * k + an
      if !s.saHasKey n e then s.msecFail n (ethMsecNosaCnt n.val) enc plainNow
      else
        let pn := xpnRecover (s.saLowest n e) (be32At bs 16)
        if decide (pn < s.saLowest n e) then s.msecFail n (ethMsecReplayCnt n.val) enc plainNow
        else
          let iv := s.saIv n e pn
          let key := s.saKey n e
          let aad := if enc then bs.take hdr else bs.take hdr ++ body
          let ct := if enc then body else []
          if gcmTag key iv aad ct ≠ icv then s.msecFail n (ethMsecIcvFailCnt n.val) enc plainNow
          else
            let plain := bs.take 12 ++ (if enc then gcmCrypt key iv ct else body)
            let next := if s.saPn n e ≤ pn then pn + 1 else s.saPn n e
            let win := fieldOf (s.reg (ethMsecReplayWin n.val)) 0 30
            let low := if s.saLowest n e ≤ next - win then next - win else s.saLowest n e
            (some plain, (s.setPn n (e * 16 + 12) next).setPn n (e * 16 + 14) low)

end Sys2Proof.Machine
end

