-- ==== Sys2Proof/Machine/Eth.lean ====
section
/-! DEFINITION. Ethernet ports (08): link, PFC, the receive checks of Table ETH-3, MDIO. -/

namespace Sys2Proof.Machine

/-- Replace a port. -/
def State.setEth (s : State) (n : Fin 8) (e : EthState) : State := { s with eth := vset s.eth n e }

/-- Whether the SHADOW of a pair withholds a port's frames: all but PFC and MKA (Table FLT-5). -/
def State.shadowPort (s : State) (n : Fin 8) : Bool := s.flt.shadow && s.flt.twin = .paired && !s.ringHolds n.val

/-- A whole frame has left a port: FCS appended, ETH_TX_FRAMES and ETH_TX_BYTES count. -/
def State.sendFrame (s : State) (n : Fin 8) (bs : List Byte) : State :=
  ((s.emit (.frame n (bs ++ fcsBytes bs))).count64 (ethTxFramesLo n.val) 1).count64 (ethTxBytesLo n.val)
    (frameLen bs)

/-! PFC (R184-R187). -/

/-- The PFC frame of a port for a set of priorities: TIME for those in XOFF, 0 for the others (R185). -/
def State.pfcFrame (s : State) (n : Fin 8) (ps : BitVec 8) : List Byte :=
  let time := fieldOf (s.reg (ethPfcTime n.val)) 0 16
  let body := [0x01#8, 0x80, 0xC2, 0x00, 0x00, 0x01] ++ s.portAddr n ++ [0x88#8, 0x08, 0x01, 0x01] ++
    toBe 2 ps.toNat ++
    ((List.range 8).map (fun p => toBe 2 (if ps.getLsbD p && s.eth[n].xoff.getLsbD p then time else 0))).flatten
  body ++ List.replicate (60 - body.length) 0

/-- Send the PFC changes that wait, all in one frame, if the transmitter is idle and the link up (R185). -/
def State.pfcFlush (s : State) (n : Fin 8) : State :=
  let e := s.eth[n]
  if e.pfcPend = 0 || e.tx.isSome || !e.up then s
  else
    ((s.sendFrame n (s.pfcFrame n e.pfcPend)).count (ethTxPfcCnt n.val)).setEth n { e with pfcPend := 0 }

/-- XOFF of a priority as its use and watermarks now give it (R185). -/
def State.xoffNow (s : State) (n : Fin 8) (p : Nat) : Bool :=
  s.pfcTxEn n p &&
    (if s.eth[n].xoff.getLsbD p then !decide (s.pfcUse n p ≤ fieldOf (s.reg (ethPfcXon n.val p)) 0 19)
     else decide (fieldOf (s.reg (ethPfcXoff n.val p)) 0 19 ≤ s.pfcUse n p))

/-- Enter or leave XOFF for each priority of a port; each change of one in order is sent (R185, R187). -/
def State.pfcEval (s : State) (n : Fin 8) : State :=
  let new : BitVec 8 := bitsFrom 8 (fun p => s.xoffNow n p)
  let e := s.eth[n]
  let chg : BitVec 8 := bitsFrom 8 (fun p => new.getLsbD p ≠ e.xoff.getLsbD p && s.pfcTxEn n p &&
    !s.pfcBadOf n p && !s.ringHolds n.val)
  (s.setEth n { e with xoff := new, pfcPend := e.pfcPend ||| chg }).pfcFlush n

/-- Every port's XOFF after cells were allocated or freed. -/
def State.pfcEvalAll (s : State) : State := (List.range 8).foldl (fun t k => t.pfcEval (Fin.ofNat 8 k)) s

/-- Each REFRESH interval in XOFF the pause frame of those priorities is sent again (R185). -/
def doPfcRefresh (n : Fin 8) (s : State) : State :=
  let again : BitVec 8 := bitsFrom 8 (fun p => s.eth[n].xoff.getLsbD p && s.pfcTxEn n p && !s.pfcBadOf n p)
  if s.ringHolds n.val then s
  else (s.setEth n { s.eth[n] with pfcPend := s.eth[n].pfcPend ||| again }).pfcFlush n

/-- The meaning of PFC_REFRESH. -/
def execPfcRefresh (n : Fin 8) (s : State) : Host.Outcome State Fault Refusal := commit s (doPfcRefresh n s)

/-- A received PFC frame loads the pause timers of its enabled priorities (R186); on a ring port, and for
priorities with RX_EN = 0, it is ignored and counted (R187). -/
def State.pfcReceive (s : State) (n : Fin 8) (bs : List Byte) : State :=
  let s1 := s.count (ethRxPfcCnt n.val)
  if s.ringHolds n.val then s1.count (ethRxPfcIgnCnt n.val)
  else
    let vec := be16At bs 16
    let rxEn := fieldOf (s.reg (ethPfcCfg n.val)) 8 8
    let ign := (List.range 8).any (fun p => vec.testBit p && !rxEn.testBit p)
    let e := s1.eth[n]
    let on : BitVec 8 := bitsFrom 8 (fun p =>
      if vec.testBit p && rxEn.testBit p then decide (be16At bs (18 + 2 * p) ≠ 0) else e.paused.getLsbD p)
    let q : Vector (BitVec 16) 8 := Vector.ofFn (fun p =>
      if vec.testBit p.val && rxEn.testBit p.val then BitVec.ofNat 16 (be16At bs (18 + 2 * p.val))
      else e.pauseQ[p])
    let s2 := s1.setEth n { e with paused := on, pauseQ := q }
    if ign then s2.count (ethRxPfcIgnCnt n.val) else s2

/-- The pause timer of a priority expires (R186). -/
def doPauseTimerExpire (n p : Fin 8) (s : State) : State :=
  let e := s.eth[n]
  s.setEth n { e with paused := setBit e.paused p.val false, pauseQ := vset e.pauseQ p 0 }

/-- The meaning of PAUSE_TIMER_EXPIRE. -/
def execPauseTimerExpire (n p : Fin 8) (s : State) : Host.Outcome State Fault Refusal :=
  commit s (doPauseTimerExpire n p s)

/-! The group-address filter (R178). -/

/-- Whether the filter accepts a destination address. -/
def State.filterAccepts (s : State) (n : Fin 8) (da : List Byte) : Bool :=
  if !bitOf (s.reg (ethFilt n.val)) 0 || !(byteAt da 0).getLsbD 0 || da.all (· = 0xFF) then true
  else
    let i := fieldOf (crc32 da) 20 12
    bitOf (s.tab (.eth n) 0 (i / 32)) (i % 32)

/-! Receive (R174-R178, R193). -/

/-- MAXLEN as the line sees it: + 32 with MACsec (R174). -/
def State.lineMax (s : State) (n : Fin 8) : Nat :=
  fieldOf (s.reg (ethMaxlen n.val)) 0 14 + (if s.msecEn n then 32 else 0)

/-- Whether the switch takes new frames: enabled and not in hold (R219). -/
def State.swcTakes (s : State) : Bool := s.en .swc && !s.inHold .swc

/-- A frame comes to a logical port and waits for its lookup (R70, R175). While the switch takes no new frame, one of the
wire is lost, and one of an internal port waits untaken (R219). -/
def State.toSwitch (s : State) (lp : Fin 22) (f : Frame) : State :=
  if lp.val < 8 && !s.swcTakes then s
  else { s with swc := { s.swc with ingress := s.swc.ingress ++ [⟨lp, f, s.swcTakes⟩] } }

/-- Steps 5 to 7 of Table ETH-3. -/
def State.receiveGood (s : State) (n : Fin 8) (line : List Byte) (ph : Fin 16) (frag : Bool) : State :=
  match s.msecValidate n line with
  | (none, s1) => s1
  | (some bs, s1) =>
    if be16At bs 12 = 0x8808 then
      if be16At bs 14 = 0x0101 then s1.pfcReceive n bs else s1.count (ethRxMacctlIgnCnt n.val)
    else if !s1.filterAccepts n (bs.take 6) then s1.count (ethRxFiltCnt n.val)
    else
      let f : Frame := ⟨bs, some (s1.rxStamp n ph), frag, ⟨.none, 0, 0, none, none, none⟩, .wire⟩
      if s1.swcTakes then
        ((s1.toSwitch (Fin.ofNat 22 n.val) f).count64 (ethRxFramesLo n.val) 1).count64 (ethRxBytesLo n.val)
          (frameLen bs)
      else s1

/-- Whether a port's MAC works: link up, not gated, not fenced. With EN = 0 it is in hold, and the link stays up until it
is quiesced (R44, R193). -/
def State.portRuns (s : State) (n : Fin 8) : Bool :=
  s.eth[n].up && !s.portGated n.val && !s.fenced (10 + n.val)

/-! MDIO (R172, R173). -/

/-- Accept a GO: a Clause 22 operation of Table ETH-2 with no frame only counts; any other starts a frame with
the fields as they stand. -/
def State.mdioAccept (s : State) (i : Fin 2) (v : Word) : State :=
  let n : Fin 8 := Fin.ofNat 8 i.val
  let e := s.eth[n]
  let op := fieldOf v 27 2
  if !bitOf v 29 && (op = 0 || op = 3) then
    (s.setEth n { e with mdio := { e.mdio with goWait := false } }).count (blkBase (.eth n) + 8)
  else
    (s.setEth n { e with mdio := ⟨true, false, v⟩ }).emit (.mdio i v)

/-- A write of ETH_MDIO_CMD with GO: the fields are stored; GO is accepted while BUSY = 0, else it waits
(R173). -/
def doMdioGo (m : Master) (i : Fin 2) (v : Word) (s : State) : State :=
  s.guarded m (ethMdioCmd i.val) fun s =>
    let n : Fin 8 := Fin.ofNat 8 i.val
    let f := v &&& 0x3FFEFFFF#32
    let s1 := s.setReg (ethMdioCmd i.val) f
    if !bitOf v 31 then s1
    else if s.eth[n].mdio.busy then
      s1.setEth n { s1.eth[n] with mdio := { s1.eth[n].mdio with goWait := true } }
    else s1.mdioAccept i f

/-- The meaning of MDIO_GO. -/
def execMdioGo (m : Master) (i : Fin 2) (v : Word) (s : State) : Host.Outcome State Fault Refusal :=
  commit s (doMdioGo m i v s)

/-- Whether a latched MDIO command reads: Clause 22 OP 0b10; Clause 45 OP 0b11 and 0b10 (Table ETH-2). -/
def mdioReads (v : Word) : Bool :=
  if bitOf v 29 then fieldOf v 27 2 = 3 || fieldOf v 27 2 = 2 else fieldOf v 27 2 = 2

/-- An MDIO frame ends: BUSY falls, a read's data is stored, and a GO that waits is accepted in that cycle with
the fields that stand in it (R173). -/
def doMdioDone (i : Fin 2) (data : BitVec 16) (s : State) : State :=
  let n : Fin 8 := Fin.ofNat 8 i.val
  let e := s.eth[n]
  if !e.mdio.busy then s
  else
    let s1 := s.setEth n { e with mdio := { e.mdio with busy := false } }
    let s2 := if mdioReads e.mdio.cmd then s1.setReg (ethMdioRdata i.val) (data.setWidth 32) else s1
    if e.mdio.goWait then s2.mdioAccept i (s2.reg (ethMdioCmd i.val)) else s2

/-- The meaning of MDIO_DONE. -/
def execMdioDone (i : Fin 2) (data : BitVec 16) (s : State) : Host.Outcome State Fault Refusal :=
  commit s (doMdioDone i data s)

/-! The two-step queue (R74, R75). -/

/-- A stamp enters the queue with its tag, or is dropped and counted while the queue holds 16 (R74). -/
def State.tsqPush (s : State) (n : Fin 8) (tag : BitVec 16) (st : Stamp) : State :=
  let e := s.eth[n]
  if e.tsq.length < 16 then s.setEth n { e with tsq := e.tsq ++ [⟨tag, st⟩] }
  else s.count (ethTsqDropCnt n.val)

/-- Word 0 of an entry (Table DTM-3). -/
def TsqEntry.w0 (t : TsqEntry) : Word :=
  w32 (65536 * t.tag.toNat + 32768 + 16384 * b2n t.stamp.deg + 4096 * t.stamp.dom.val)

/-- A read of ETH_TSQ_W0 returns and removes the head, and latches W1-W3 for the master; an empty queue gives
VALID = 0 and latches zeros (R75). -/
def State.tsqPop (s : State) (m : Master) (n : Fin 8) : Word × State :=
  let e := s.eth[n]
  match e.tsq with
  | [] => (0, ((s.latch m (ethTsqW1 n.val) 0).latch m (ethTsqW2 n.val) 0).latch m (ethTsqW3 n.val) 0)
  | t :: r =>
    (t.w0, (((s.setEth n { e with tsq := r }).latch m (ethTsqW1 n.val) (w32 (dtFrac t.stamp.t))).latch m
      (ethTsqW2 n.val) (w32 (dtNs t.stamp.t))).latch m (ethTsqW3 n.val) (w32 (dtSec t.stamp.t)))

/-- A read of ETH_TSQ_W0 by a master. -/
def doTsqRead (m : Master) (n : Fin 8) (s : State) : State :=
  s.guardedRead m (ethTsqW0 n.val) fun s =>
    let r := s.tsqPop m n
    r.2.emit (.readData m (w32 (ethTsqW0 n.val)) r.1)

/-- The meaning of TSQ_READ. -/
def execTsqRead (m : Master) (n : Fin 8) (s : State) : Host.Outcome State Fault Refusal :=
  commit s (doTsqRead m n s)

/-! Negotiation (R168-R170). -/

/-- The speed in force as a link comes up (R168): negotiated in SGMII and USXGMII with AN_EN, else SPEED or the
mode's own. -/
def State.speedFor (s : State) (n : Fin 8) (negotiated : Fin 5) : Fin 5 :=
  let r := s.reg (ethMode n.val)
  match fieldOf r 0 4 with
  | 1 => if bitOf r 8 then negotiated else Fin.ofNat 5 (fieldOf r 4 3)
  | 6 => if bitOf r 8 then negotiated else Fin.ofNat 5 (fieldOf r 4 3)
  | 4 => Fin.ofNat 5 (fieldOf r 4 3)
  | 3 => 3
  | 5 => 4
  | _ => 2

/-- Whether auto-negotiation runs on a port (R168). -/
def State.anRuns (s : State) (n : Fin 8) : Bool :=
  let r := s.reg (ethMode n.val)
  bitOf r 8 && (fieldOf r 0 4 = 1 || fieldOf r 0 4 = 2 || fieldOf r 0 4 = 6)

/-- Auto-negotiation returns half duplex: the link stays down, HD_REFUSED reads 1 (R169). -/
def doHalfDuplexNegotiated (n : Fin 8) (s : State) : State :=
  if s.en (.eth n) && s.anRuns n && !s.eth[n].up then s.setEth n { s.eth[n] with hdRefused := true } else s

/-- The meaning of HALF_DUPLEX_NEGOTIATED. -/
def execHalfDuplexNegotiated (n : Fin 8) (s : State) : Host.Outcome State Fault Refusal :=
  commit s (doHalfDuplexNegotiated n s)

end Sys2Proof.Machine
end

