-- ==== Sys2Proof/Machine/HifOps.lean ====
section
/-! DEFINITION. Contexts of the host interface (13): the fields of their entries (Table HIF-5), completion
entries (R305-R307), moderation (R314), and the results of TX descriptors (R302). -/

namespace Sys2Proof.Machine

/-! Context entries (Table HIF-5). -/

/-- Word w of a context's entry. -/
def State.ctxWord (s : State) (c : Fin 256) (w : Nat) : Word := s.tab .hif 0 (c.val * 16 + w)

/-- Store a word of a context's entry. -/
def State.setCtxWord (s : State) (c : Fin 256) (w : Nat) (v : Word) : State := s.setTab .hif 0 (c.val * 16 + w) v

/-- The context's fields outside its entry. -/
def State.hctx (s : State) (c : Fin 256) : HostCtx := amGet (fun _ => HostCtx.reset) s.hif.ctx c.val

/-- Replace them. -/
def State.setHctx (s : State) (c : Fin 256) (x : HostCtx) : State :=
  { s with hif := { s.hif with ctx := amPut (fun _ => HostCtx.reset) s.hif.ctx c.val x } }

/-- STATE: 0 OFF, 1 ON, 2 DRAINING. -/
def State.ctxState (s : State) (c : Fin 256) : Nat := fieldOf (s.ctxWord c 9) 0 2
def State.ctxLink (s : State) (c : Fin 256) : Bool := bitOf (s.ctxWord c 0) 19
def State.ctxPrio (s : State) (c : Fin 256) : Bool := bitOf (s.ctxWord c 0) 18
def State.txSize (s : State) (c : Fin 256) : Nat := 2 ^ fieldOf (s.ctxWord c 0) 8 5
def State.rxSize (s : State) (c : Fin 256) : Nat := 2 ^ fieldOf (s.ctxWord c 0) 0 5
def State.cqSize (s : State) (c : Fin 256) : Nat := 2 ^ fieldOf (s.ctxWord c 1) 0 5
def State.txHead (s : State) (c : Fin 256) : Nat := fieldOf (s.ctxWord c 10) 0 16
def State.rxHead (s : State) (c : Fin 256) : Nat := fieldOf (s.ctxWord c 10) 16 16
def State.cqPi (s : State) (c : Fin 256) : Nat := fieldOf (s.ctxWord c 11) 0 16
def State.cqPhase (s : State) (c : Fin 256) : Bool := bitOf (s.ctxWord c 11) 16

/-- A 64-bit address held in two words of a context's entry. -/
def State.ctxBase (s : State) (c : Fin 256) (lo hi : Nat) : Nat :=
  (s.ctxWord c lo).toNat + 4294967296 * (s.ctxWord c hi).toNat

/-- UP of a host link in HIF_LINK_STATUS (Table HIF-10). -/
def State.linkUp (s : State) (link : Bool) : Bool := bitOf (s.reg hifLinkStatus) (if link then 15 else 7)

/-- Whether a link's host interface is fenced (domains 29, 30). -/
def State.linkFenced (s : State) (link : Bool) : Bool := s.fenced (if link then 30 else 29)

/-- Whether a context's completion ring has a free entry (R306). -/
def State.cqRoom (s : State) (c : Fin 256) : Bool :=
  (s.cqPi c + 1) % s.cqSize c ≠ (s.hctx c).cqCi.toNat % s.cqSize c

/-! Moderation (R314). -/

/-- Send the context's vector: the count and its timer start again. -/
def State.sendVector (s : State) (c : Fin 256) : State :=
  (s.setHctx c { s.hctx c with modCnt := 0, timer := false }).msix (s.ctxLink c) c.val

/-- An entry has been written: it counts toward the vector, which goes out at CNT entries or at once for a TX
descriptor with IRQ. -/
def State.moderate (s : State) (c : Fin 256) (irq : Bool) : State :=
  let x := s.hctx c
  let n := x.modCnt + 1
  let cnt := fieldOf (s.ctxWord c 7) 0 16
  let s1 := s.setHctx c { x with modCnt := n, timer := decide (fieldOf (s.ctxWord c 7) 16 16 ≠ 0) }
  if irq || decide ((if cnt = 0 then 1 else cnt) ≤ n) then s1.sendVector c else s1

/-! TX descriptors (R301, Table HIF-2). -/

/-- TSMODE. -/
def stampModeOf : Nat → StampMode
  | 0 => .none
  | 1 => .twoStep
  | 2 => .oneOrigin
  | _ => .oneCorr

/-- What the words of a TX descriptor ask for. -/
def txReqOf (d : List Word) : TxReq :=
  let w (i : Nat) : Word := d.getD i 0
  let seg : Option SegInfo :=
    if bitOf (w 0) 27 then
      some
        { h := fieldOf (w 4) 24 8
          mss := fieldOf (w 4) 10 14
          template := if bitOf (w 4) 5 then some (Fin.ofNat 16 (fieldOf (w 4) 0 4)) else none
          l3off := fieldOf (w 5) 24 8
          l4off := fieldOf (w 5) 16 8
          l3v6 := fieldOf (w 4) 8 2 = 2
          l3any := fieldOf (w 4) 8 2 = 1 || fieldOf (w 4) 8 2 = 2
          l4 := fieldOf (w 4) 6 2 }
    else none
  { mode := stampModeOf (fieldOf (w 0) 24 2)
    ptpOff := fieldOf (w 0) 16 8
    tag := (w 0).extractLsb' 0 16
    seg := seg
    dest := if bitOf (w 6) 31 then some ((w 6).extractLsb' 0 22) else none
    pcp := if bitOf (w 6) 30 then some ((w 6).extractLsb' 27 3) else none }

/-- LEN of a TX descriptor, and whether it is in its range (Table HIF-2). -/
def txLen (d : List Word) : Nat := fieldOf (d.getD 1 0) 0 19
def txLenOk (d : List Word) : Bool :=
  if bitOf (d.getD 0 0) 27 then decide (fieldOf (d.getD 4 0) 24 8 ≤ txLen d) && decide (txLen d ≤ 262272)
  else decide (14 ≤ txLen d) && decide (txLen d ≤ 9212)

/-! Completion entries (R305, Table HIF-4). -/

/-- Write an entry at the producer index with the phase in force, advance the index, invert the phase at the
end of the ring, and count it for the vector. The ring has room. -/
def State.writeCqe (s : State) (c : Fin 256) (w0 w1 w2 w3 : Word) (irq : Bool) : State :=
  let pi := s.cqPi c
  let addr := s.ctxBase c 6 8 + pi * 16
  let e0 := setBit w0 31 (s.cqPhase c)
  let next := (pi + 1) % s.cqSize c
  let phase := if next = 0 then !s.cqPhase c else s.cqPhase c
  let s1 := s.emit (.hostWrite (s.ctxLink c) (BitVec.ofNat 64 addr)
    (leBytes e0 ++ leBytes w1 ++ leBytes w2 ++ leBytes w3))
  (s1.setCtxWord c 11 (w32 (next + 65536 * b2n phase))).moderate c irq

/-- Word 0 of an entry without its phase. -/
def cqe0 (kind : Nat) (status : Byte) (idx : Nat) : Word :=
  w32 (2 ^ 28 * kind + 65536 * status.toNat + idx % 65536)

/-- Words 1 and 2 of the completion of a received frame: ingress port, traffic class, DEG of its stamp, length; VID and
EtherType. -/
def rxWord1 (lp : Fin 22) (tc : Nat) (deg : Bool) (len : Nat) : Nat :=
  2 ^ 27 * lp.val + 2 ^ 24 * tc + 2 ^ 23 * b2n deg + len % 2 ^ 14
def rxWord2 (vid et : Nat) : Word := w32 (65536 * vid + et)

/-- An entry due that names no descriptor: event, image, abort reply. It is not written while the ring is full,
or for an event while the context is not ON, and HIF_CQ_FULL_CNT counts (R306, R315). -/
def State.writeLoose (s : State) (c : Fin 256) (w0 w1 w2 w3 : Word) : State :=
  if s.cqRoom c then s.writeCqe c w0 w1 w2 w3 false else s.count hifCqFullCnt

/-- An event entry of a context (R315). -/
def State.hostEvent (s : State) (c : Fin 256) (code : Byte) (info : Word) : State :=
  if s.ctxState c = 1 then s.writeLoose c (cqe0 3 0 0) (w32 (2 ^ 24 * code.toNat)) info 0 else s.count hifCqFullCnt

/-- The completion of a TX descriptor (Table HIF-4). -/
def State.txCqe (s : State) (c : Fin 256) (d : TxDesc) (status : Byte) (verdict : Nat) : State :=
  let tag := fieldOf (d.words.getD 0 0) 0 16
  let head := (d.idx + 1) % s.txSize c
  let s1 := s.writeCqe c (cqe0 1 status d.idx) (w32 (65536 * tag + 4096 * verdict)) 0 (d.words.getD 7 0)
    (bitOf (d.words.getD 0 0) 26)
  s1.setCtxWord c 10 (setField (s1.ctxWord c 10) 0 16 head)

/-- Complete the descriptors at the head of the TX ring whose results are known, in order, while the completion
ring has room (R306, R307); at most `fuel` of them. -/
def State.txFlush : Nat → State → Fin 256 → State
  | 0, s, _ => s
  | fuel + 1, s, c =>
    let x := s.hctx c
    match x.txq with
    | [] => s
    | d :: r =>
      match d.phase with
      | .done status verdict =>
        if s.cqRoom c && !x.mute && d.idx = s.txHead c then
          State.txFlush fuel ((s.txCqe c d status verdict).setHctx c
            { (s.txCqe c d status verdict).hctx c with txq := r }) c
        else s
      | _ => s

/-- The result of the TX descriptor idx of a context: recorded, and completed in its turn (R302, R307). -/
def State.txResult (s : State) (c : Fin 256) (idx : Nat) (status : Byte) (verdict : Nat) : State :=
  let x := s.hctx c
  let q := x.txq.map (fun d => if d.idx = idx then { d with phase := .done status verdict } else d)
  (s.setHctx c { x with txq := q }).txFlush 256 c

end Sys2Proof.Machine
end

