-- ==== Sys2Proof/Machine/Fwu.lean ====
section
/-! DEFINITION. The frame window unit's hardware side (05, R106; 09, R206; 13, R301): the window table, deposits
into staging and placements from it, and the transmit and receive rings of an engine's logical port (log 16). -/

namespace Sys2Proof.Machine

/-- A word of a window-table entry (Table PEC-11, space 3). -/
def State.fwuWord (s : State) (e : Fin 10) (k w : Nat) : Word := s.tab (.pec e) 3 (k * 4 + w)

/-- Whether an entry is in use and active. -/
def State.fwuActive (s : State) (e : Fin 10) (k : Nat) : Bool :=
  bitOf (s.fwuWord e k 0) 31 && s.eng[e].fwuOn.getLsbD k

/-- Whether an entry is in use, of a direction, source and number. -/
def State.fwuNames (s : State) (e : Fin 10) (k : Nat) (dir : Bool) (src num : Nat) : Bool :=
  let w := s.fwuWord e k 0
  bitOf w 31 && bitOf w 30 = dir && fieldOf w 28 2 = src && fieldOf w 0 16 = num

/-- The active entries of an engine that name a window. -/
def State.fwuFind (s : State) (e : Fin 10) (dir : Bool) (src num : Nat) : List Nat :=
  (List.range 64).filter (fun k => s.fwuActive e k && s.fwuNames e k dir src num)

def State.fwuOff (s : State) (e : Fin 10) (k : Nat) : Nat := fieldOf (s.fwuWord e k 1) 16 16
def State.fwuLen (s : State) (e : Fin 10) (k : Nat) : Nat := fieldOf (s.fwuWord e k 1) 0 11
def State.fwuStage (s : State) (e : Fin 10) (k : Nat) : Nat := (s.fwuWord e k 2).toNat

/-- Whether a role's window gate is open (R155). -/
def State.gateOpen (s : State) (r : Fin 10) : Bool :=
  match s.insts[r] with
  | some i => i.gate && !i.stopped
  | none => false

/-- FWU.STAT of an entry (R106): ACTIVE, FRESH, AUTH_FAIL, CYC4 of a ring window, the status byte. -/
def State.fwuStat (s : State) (e : Fin 10) (k : Nat) : Word :=
  let w := s.fwuWord e k 0
  let src := fieldOf w 28 2
  let cyc4 := if src < 2 then fieldOf (s.reg (nrgRingCyc src)) 0 4 else 0
  let st := s.fwuWord e k 3
  w32 (2 ^ 31 * b2n (s.fwuActive e k) + 2 ^ 30 * b2n (s.eng[e].fwuFresh.getLsbD k) + 2 ^ 29 * b2n (bitOf st 29) +
    2 ^ 24 * cyc4 + fieldOf st 0 8)

/-- FRESH of an entry is set. -/
def State.setFresh (s : State) (e : Fin 10) (k : Nat) : State :=
  s.setEng e { s.eng[e] with fwuFresh := setBit s.eng[e].fwuFresh k true }

/-! Port streams (R206). -/

/-- The bytes of a frame deposited into the staging of every read entry of its stream; whether there is one. -/
def State.fwuDeposit (s : State) (role : Fin 10) (stream : Fin 256) (bs : List Byte) : Bool × State :=
  match s.engOf role with
  | none => (false, s)
  | some e =>
    let ks := s.fwuFind e false 2 stream.val
    let one : State → Nat → State := fun t k =>
      if t.gateOpen role then
        (t.stagingWrite e (t.fwuStage e k) ((bs.drop (t.fwuOff e k)).take (t.fwuLen e k))).setFresh e k
      else t.count swcWinLateCnt
    (!ks.isEmpty, ks.foldl one s)

/-- The staged bytes of every write entry of a stream placed into a departing frame. -/
def State.fwuPlace (s : State) (role : Fin 10) (stream : Fin 256) (bs : List Byte) : List Byte × State :=
  match s.engOf role with
  | none => (bs, s)
  | some e =>
    let one : List Byte × State → Nat → List Byte × State := fun p k =>
      if p.2.gateOpen role then
        match p.2.stagingRead e (p.2.fwuStage e k) (p.2.fwuLen e k) with
        | some v => (overwrite p.1 (p.2.fwuOff e k) v, p.2)
        | none => p
      else (p.1, p.2.count swcWinLateCnt)
    (s.fwuFind e true 2 stream.val).foldl one (bs, s)

/-! Port rings (space 6; log 16). Their indices run modulo the ring's size, and PHASE is 1 on the even passes (R305). -/

/-- A word of space 6. -/
def State.ringWord (s : State) (e : Fin 10) (w : Nat) : Word := s.tab (.pec e) 6 w

/-- A completion entry of an engine's ring (Table HIF-4). -/
def ringEntry (odd : Bool) (pi kind : Nat) (status : Byte) (w1 : Nat) (info cookie : Word) : List Byte :=
  leBytes (w32 (2 ^ 31 * b2n (!odd) + 2 ^ 28 * kind + 65536 * status.toNat + pi)) ++ leBytes (w32 w1) ++
    leBytes info ++ leBytes cookie

/-- An index one further in a ring of a size, and the pass it is then on. -/
def ringNext (size pi : Nat) (odd : Bool) : BitVec 16 × Bool :=
  if pi + 1 < size then (BitVec.ofNat 16 (pi + 1), odd) else (0, !odd)

/-- Size of an engine's transmit or receive ring: TX_LOG2, RX_LOG2, at most 2^16 entries of 16-bit indices. -/
def State.ringSize (s : State) (e : Fin 10) (rx : Bool) : Nat := 2 ^ min 16 (fieldOf (s.ringWord e (if rx then 3 else 1)) 0 5)

/-- A posted frame's completion: written to the transmit ring, the index advances, and a transmit completion is
pending for WAIT (R110). -/
def State.fwuTxDone (s : State) (role : Fin 10) (tag : BitVec 16) (cookie : Word) (status : Byte) (verdict : Nat) :
    State :=
  match s.engOf role with
  | none => s
  | some e =>
    let size := s.ringSize e false
    let x := s.eng[e]
    let pi := x.txPi.toNat % size
    let n := ringNext size pi x.txOdd
    let s1 := s.stagingWrite e ((s.ringWord e 0).toNat + pi * 16)
      (ringEntry x.txOdd pi 1 status (65536 * tag.toNat + 4096 * verdict) 0 cookie)
    (s1.setEng e { s1.eng[e] with txPi := n.1, txOdd := n.2 }).postEvt e 2

/-- The receive completion of a ring slot: the entry after the descriptors, the index, the event of WAIT. -/
def State.fwuRxDone (s : State) (e : Fin 10) (status : Byte) (w1 : Nat) (info cookie : Word) : State :=
  let size := s.ringSize e true
  let x := s.eng[e]
  let pi := x.rxPi.toNat % size
  let n := ringNext size pi x.rxOdd
  let s1 := s.stagingWrite e ((s.ringWord e 2).toNat + size * 32 + pi * 16)
    (ringEntry x.rxOdd pi 2 status w1 info cookie)
  (s1.setEng e { s1.eng[e] with rxPi := n.1, rxOdd := n.2 }).postEvt e 1

/-- The bytes of a frame for the receive ring of a role, with words 1 and 2 of its completion: into the buffer of the
descriptor at the producer index. A TYPE other than 2 or a buffer the FWU cannot write completes BUS_ERROR and the frame
is dropped, as one that does not fit its buffer, which stays for the next (R303). -/
def State.fwuRxPost (s : State) (role : Fin 10) (bs : List Byte) (w1 : Nat) (info : Word) : State :=
  match s.engOf role with
  | none => s
  | some e =>
    if fieldOf (s.ringWord e 3) 0 5 < 4 then s
    else
      match s.stagingRead e ((s.ringWord e 2).toNat + s.eng[e].rxPi.toNat % s.ringSize e true * 32) 32 with
      | none => s
      | some d =>
        let cookie := le32At d 28
        let a := (le32At d 8).toNat
        if fieldOf (le32At d 0) 28 4 ≠ 2 then s.fwuRxDone e stBusError 0 0 cookie
        else if fieldOf (le32At d 4) 0 15 < bs.length then s
        else if (s.stagingRead e a bs.length).isNone then s.fwuRxDone e stBusError 0 0 cookie
        else (s.stagingWrite e a bs).fwuRxDone e stOk w1 info cookie

/-- FWU.TXPOST of the 32-byte descriptor at an engine address (R106, R301); none: BUS_ERROR on the descriptor. -/
def State.fwuTxPost (s : State) (e : Fin 10) (a : Nat) : Option State :=
  match s.eng[e].role with
  | none => none
  | some r =>
    match s.stagingRead e a 32 with
    | none => none
    | some bs =>
      let d := (List.range 8).map (fun i => le32At bs (4 * i))
      let q := txReqOf d
      let cookie := d.getD 7 0
      if fieldOf (d.getD 0 0) 28 4 ≠ 1 then some (s.fwuTxDone r q.tag cookie stBusError 0)
      else if !txLenOk d then some (s.fwuTxDone r q.tag cookie stTooLong 0)
      else
        match s.stagingRead e (d.getD 2 0).toNat (txLen d) with
        | none => some (s.fwuTxDone r q.tag cookie stBusError 0)
        | some f => some (s.toSwitch (Fin.ofNat 22 (10 + r.val)) ⟨f, none, false, q, .engine r cookie⟩)

end Sys2Proof.Machine
end

