-- ==== Sys2Proof/Machine/Seg.lean ====
section
/-! DEFINITION. Transmit segmentation (08, R179-R182): the frames a send is cut into, with parsed and template
headers. -/

namespace Sys2Proof.Machine

/-- N = max(1, ceil(L / MSS)) (R179). -/
def segCount (g : SegInfo) (len : Nat) : Nat :=
  let l := len - g.h
  let n := (l + g.mss - 1) / g.mss
  if n = 0 then 1 else n

/-- Payload bytes of frame i. -/
def segPayload (g : SegInfo) (bs : List Byte) (i : Nat) : List Byte :=
  ((bs.drop g.h).drop (i * g.mss)).take g.mss

/-- A send refused whole by R180: the payload too long, H or MSS out of range, or a frame longer than `maxlen`
of an egress port allows. -/
def segRefused (g : SegInfo) (len : Nat) (maxlens : List Nat) : Bool :=
  decide (262144 < len - g.h) || decide (g.h < 14) || decide (128 < g.h) || decide (g.mss < 64) ||
  maxlens.any (fun m => decide (m < g.h + g.mss + 4))

/-! Parsed headers (R181, Table ETH-4). -/

/-- IHL × 4 of an IPv4 header. -/
def ihl4 (h : List Byte) (l3 : Nat) : Nat := (byteAt h l3).toNat % 16 * 4

/-- The length of the L4 header: TCP by its data offset, UDP 8, else the header bytes behind the L3 header. -/
def l4Len (g : SegInfo) (h : List Byte) : Nat :=
  match g.l4 with
  | 1 => (byteAt h (g.l4off + 12)).toNat / 16 * 4
  | 2 => 8
  | _ => g.h - (g.l3off + (if g.l3v6 then 40 else ihl4 h g.l3off))

/-- The L3 fields of frame i. -/
def segL3 (g : SegInfo) (h : List Byte) (i payload : Nat) : List Byte :=
  if !g.l3any then h
  else if g.l3v6 then putBe h (g.l3off + 4) 2 (g.h - (g.l3off + 40) + payload)
  else
    let a := putBe h (g.l3off + 2) 2 (ihl4 h g.l3off + l4Len g h + payload)
    let b := putBe a (g.l3off + 4) 2 (be16At h (g.l3off + 4) + i)
    let c := putBe b (g.l3off + 10) 2 0
    putBe c (g.l3off + 10) 2 (inetSum (slice c g.l3off (ihl4 h g.l3off)))

/-- The pseudo-header of a TCP or UDP checksum. -/
def pseudo (g : SegInfo) (h : List Byte) (proto len : Nat) : List Byte :=
  if g.l3v6 then slice h (g.l3off + 8) 32 ++ toBe 4 len ++ [0, 0, 0, BitVec.ofNat 8 proto]
  else slice h (g.l3off + 12) 8 ++ [0, BitVec.ofNat 8 proto] ++ toBe 2 len

/-- The L4 fields of frame i of n. -/
def segL4 (g : SegInfo) (h : List Byte) (i n : Nat) (pl : List Byte) : List Byte :=
  match g.l4 with
  | 1 =>
    let a := putBe h (g.l4off + 4) 4 (be32At h (g.l4off + 4) + i * g.mss)
    let f := byteAt h (g.l4off + 13)
    let f1 := if i + 1 = n then f else f &&& 0xF6#8
    let f2 := if i = 0 then f1 else f1 &&& 0x7F#8
    let b := overwrite a (g.l4off + 13) [f2]
    let c := putBe b (g.l4off + 16) 2 0
    let l4 := c.drop g.l4off ++ pl
    putBe c (g.l4off + 16) 2 (inetSum (pseudo g h 6 l4.length ++ l4))
  | 2 =>
    let a := putBe h (g.l4off + 4) 2 (8 + pl.length)
    if !g.l3v6 && be16At h (g.l4off + 6) = 0 then a
    else
      let c := putBe a (g.l4off + 6) 2 0
      let l4 := c.drop g.l4off ++ pl
      let ck := inetSum (pseudo g h 17 l4.length ++ l4)
      putBe c (g.l4off + 6) 2 (if ck = 0 then 65535 else ck)
  | _ => h

/-! Template headers (R182). -/

/-- Bytes of a counter field: WIDTH. -/
def ctrWidth (w : Word) : Nat := match fieldOf w 26 2 with | 0 => 1 | 1 => 2 | _ => 4

/-- Whether a counter word is applied: VALID with KIND 0-3. -/
def ctrActive (w : Word) : Bool := bitOf w 31 && decide (fieldOf w 28 3 < 4)

/-- Whether a counter's field lies wholly within the header. -/
def ctrFits (w : Word) (h : Nat) : Bool := decide (fieldOf w 16 7 + ctrWidth w ≤ h)

/-- Apply one counter word to the header of frame i of n. -/
def ctrApply (w : Word) (hdr0 h : List Byte) (i n payload : Nat) : List Byte :=
  if !ctrActive w || !ctrFits w h.length then h
  else
    let off := fieldOf w 16 7
    let k := ctrWidth w
    let arg := fieldOf w 0 16
    let rd : List Byte → Nat := fun b => if bitOf w 25 then leNat (slice b off k) else beNat (slice b off k)
    let wr : Nat → List Byte := fun v =>
      overwrite h off (if bitOf w 25 then toLe k (v % 2 ^ (8 * k)) else toBe k (v % 2 ^ (8 * k)))
    match fieldOf w 28 3 with
    | 0 => wr (rd hdr0 + i * arg)
    | 1 => wr (payload + arg)
    | 2 => if i + 1 = n then wr (rd h ||| arg) else h
    | _ => if i + 1 = n then wr (rd h &&& (2 ^ (8 * k) - 1 - arg % 2 ^ (8 * k))) else h

/-- Frame i of a send (R179-R182), before padding and FCS. -/
def segFrame (g : SegInfo) (tpl : List Word) (bs : List Byte) (i : Nat) : List Byte :=
  let hdr := bs.take g.h
  let n := segCount g bs.length
  let pl := segPayload g bs i
  match g.template with
  | some _ => tpl.foldl (fun h w => ctrApply w hdr h i n pl.length) hdr ++ pl
  | none => segL4 g (segL3 g hdr i pl.length) i n pl ++ pl

/-- Whether a send skips a counter (R182). -/
def segSkips (g : SegInfo) (tpl : List Word) : Bool :=
  g.template.isSome && tpl.any (fun w => ctrActive w && !ctrFits w g.h)

end Sys2Proof.Machine
end

