-- ==== Sys2Proof/Machine/SwcOps.lean ====
section
/-! DEFINITION. Switch slices and buffers (09), shared operations: counters of drops, queue depths, gates,
release of stored frames, retirement of a die, the fence of a slice or of the buffer manager. -/

namespace Sys2Proof.Machine

/-- Replace the switch state. -/
def State.setSwc (s : State) (x : SwcState) : State := { s with swc := x }

/-- A drop counts at a logical port: word n × 16 + c of space 6 (R201). -/
def State.dropAt (s : State) (lp reason : Nat) : State :=
  s.setTab .swc 6 (lp * 16 + reason) (s.tab .swc 6 (lp * 16 + reason) + 1)

/-- A word of a logical port's entry (Table SWC-13). -/
def State.lpWord (s : State) (lp w : Nat) : Word := s.tab .swc 5 (lp * 32 + w)

/-- The frame held under an identifier. -/
def State.storedOf (s : State) (fid : Nat) : Option Stored := s.swc.stored.find? (fun f => f.fid = fid)

/-- Units of 256 bytes of a length (R210). -/
def unitsOf (len : Nat) : Nat := (len + 32 + 255) / 256

/-- Express cells of a length (R205). -/
def ecellsOf (len : Nat) : Nat := (len + 32 + 127) / 128

/-- The length that cells and depth count: H + L of a send, else R174's. -/
def Frame.size (f : Frame) : Nat := match f.req.seg with | some _ => f.bytes.length | none => frameLen f.bytes

/-- DEPTHq of a logical port (R210, Table SWC-13): from enqueue until the last byte leaves. -/
def State.depth (s : State) (lp tc : Nat) : Nat :=
  s.swc.queues.foldl (fun a q => if q.lp.val = lp ∧ q.tc.val = tc then a + q.units else a) 0

/-- Whether a frame of a port's MAC is the one of a queue place. -/
def isOf (q : QEntry) (x : Option TxNow) : Bool := match x with | some t => t.fid = q.fid | none => false

/-- Whether the frame of a queue place is in transmission or preempted at its port. -/
def State.sending (s : State) (q : QEntry) : Bool :=
  if h : q.lp.val < 8 then
    isOf q s.eth[(⟨q.lp.val, h⟩ : Fin 8)].tx || isOf q s.eth[(⟨q.lp.val, h⟩ : Fin 8)].pre
  else false

/-- Remove places of the queues. -/
def State.unqueue (s : State) (p : QEntry → Bool) : State :=
  s.setSwc { s.swc with queues := s.swc.queues.filter (fun q => !p q) }

/-- Whether a place of a queue holds a frame whose cells are lost (R215). -/
def State.lostAt (s : State) (q : QEntry) : Bool := match s.storedOf q.fid with | some f => f.bad | none => false

/-- The first head of a queue that is lost and not in transmission. -/
def State.badHead (s : State) : Option QEntry :=
  s.swc.queues.find? (fun q => s.lostAt q && !s.sending q &&
    decide (s.swc.queues.find? (fun p => p.lp = q.lp && p.tc = q.tc) = some q))

/-- Lost frames that have reached their queue head are freed with BUF_UE (R215); at most `fuel` of them. -/
def State.freeBad : Nat → State → State
  | 0, s => s
  | fuel + 1, s =>
    match s.badHead with
    | some q => State.freeBad fuel ((s.dropAt q.lp.val 10).unqueue (fun p => p.lp = q.lp && p.fid = q.fid))
    | none => s

/-- Free the frames no queue holds any more (R210) and lost ones at a queue head, and see to the XOFF of every port. -/
def State.sweep (s : State) : State :=
  let t := s.freeBad s.swc.queues.length
  let keep := t.swc.stored.filter (fun f => t.swc.queues.any (fun q => q.fid = f.fid))
  (t.setSwc { t.swc with stored := keep }).pfcEvalAll

/-- Remove one place of a queue. -/
def State.dequeue (s : State) (lp : Fin 22) (fid : Nat) : State :=
  (s.unqueue (fun q => q.lp = lp && q.fid = fid)).sweep

/-- A frame of a queue place has left: the place is freed, or its send goes on with the next frame (R179, R210). -/
def State.leaveQueue (s : State) (lp : Fin 22) (fid : Nat) (last : Bool) : State :=
  if last then s.dequeue lp fid
  else
    s.setSwc { s.swc with queues := s.swc.queues.map (fun q =>
      if q.lp = lp && q.fid = fid then { q with seg := q.seg + 1 } else q) }

/-- A frame is ended short on the line (R176): how many of its bytes had left is a free value; the complement of their
FCS follows, and an invalid code group on a SerDes port. -/
def State.abortLine (s : State) (n : Fin 8) (bs : List Byte) : State :=
  let sent := bs.take (s.draw.1.toNat % (bs.length + 1))
  s.draw.2.emit (.frameAbort n (sent ++ (fcsBytes sent).map (fun b => ~~~b)) (serdesMode (s.ethModeOf n)))

/-- One frame of a MAC ends short, if there is one; counted in ETH_TX_ABORT_CNT where it is a fault (R170, R176). -/
def State.endOne (s : State) (n : Fin 8) (counted : Bool) (x : Option TxNow) : State :=
  match x with
  | none => s
  | some t =>
    let s1 := s.abortLine n t.bytes
    if counted then s1.count (ethTxAbortCnt n.val) else s1

/-- The frame in transmission, the preempted one, or both are ended at a port. -/
def State.endTx (s : State) (n : Fin 8) (counted tx pre : Bool) : State :=
  let e := s.eth[n]
  let s1 := s.setEth n { e with tx := if tx then none else e.tx, pre := if pre then none else e.pre }
  (s1.endOne n counted (if tx then e.tx else none)).endOne n counted (if pre then e.pre else none)

/-- Free places of the queues that satisfy a test, counting each at its egress port; a port that is sending such a
frame ends it, which counts the reason only for FENCED_SLICE (R170, R199, R214). -/
def State.freeWhere (s : State) (reason : Nat) (counted : Bool) (p : QEntry → Bool) : State :=
  let gone := s.swc.queues.filter p
  let s1 := (gone.filter (fun q => reason = 9 || !s.sending q)).foldl (fun t q => t.dropAt q.lp.val reason) s
  let s2 := (List.finRange 8).foldl (fun t n =>
    let here := gone.filter (fun q => q.lp.val = n.val)
    t.endTx n counted (here.any (fun q => isOf q t.eth[n].tx)) (here.any (fun q => isOf q t.eth[n].pre))) s1
  (s2.unqueue p).sweep

/-! Gates (R212). -/

/-- EN of GATE_CTRL. -/
def State.gateEn (s : State) (n : Nat) : Bool := bitOf (s.reg (swcPGateCtrl n)) 0

/-- Word w of entry e of a port's bank. -/
def State.gclWord (s : State) (n : Nat) (bank : Bool) (e w : Nat) : Word :=
  s.tab .swc 4 ((256 * (n * 2 + b2n bank) + e) * 2 + w)

/-- The gate states in force: all open while EN = 0 and before the first start event. -/
def State.gates8 (s : State) (n : Fin 8) : Nat :=
  let g := s.swc.gates[n]
  if s.gateEn n.val && g.started then fieldOf (s.gclWord n.val g.bank g.entry 0) 0 8 else 255

/-- An interval in ps; below 8 ns it acts as 8 ns. -/
def State.gclInterval (s : State) (n : Nat) (bank : Bool) (e : Nat) : Nat :=
  let i := (s.gclWord n bank e 1).toNat
  1000 * (if i < 8 then 8 else i)

/-- Whether a queue's gate stays open for `ps` from entry e on, `left` ps of it being left; the states of the
last entry hold (R209, R212). -/
def State.openFor (s : State) (n : Fin 8) (q : Nat) (bank : Bool) (len : Nat) : Nat → Nat → Nat → Nat → Bool
  | 0, _, _, _ => true
  | fuel + 1, e, left, ps =>
    if !(fieldOf (s.gclWord n.val bank e 0) 0 8).testBit q then false
    else if e + 1 ≥ len then true
    else if ps ≤ left then true
    else s.openFor n q bank len fuel (e + 1) (s.gclInterval n.val bank (e + 1)) (ps - left)

/-- Whether queue q's gate is open now and stays so for `ps`. -/
def State.gateHolds (s : State) (n : Fin 8) (q ps : Nat) : Bool :=
  let g := s.swc.gates[n]
  if !(s.gateEn n.val && g.started) then true
  else
    let spent := 2000 * (s.clk.tick - g.since)
    s.openFor n q g.bank (fieldOf (s.reg (swcPGateOplen n.val)) 0 9) 256 g.entry
      (s.gclInterval n.val g.bank g.entry - spent) ps

/-- Replace a port's gate control. -/
def State.setGate (s : State) (n : Fin 8) (g : Gate) : State :=
  s.setSwc { s.swc with gates := vset s.swc.gates n g }

/-- PMAC_ACTIVE (R213): enabled, and verified or with verification disabled. -/
def State.pmacActive (s : State) (n : Fin 8) : Bool :=
  let r := s.reg (swcPPmacCfg n.val)
  bitOf r 0 && (bitOf r 1 || s.swc.gates[n].verified)

/-- Whether a frame can be cut once more into fragments of at least 64 bytes, 60 of the frame and a CRC each (R213). -/
def divides (t : TxNow) : Bool := decide (60 * (t.frags + 2) ≤ t.bytes.length)

/-- A preemptable frame in transmission is preempted at an allowed point (R213). -/
def State.preemptNow (s : State) (n : Fin 8) : State :=
  let e := s.eth[n]
  match e.tx with
  | some t =>
    if s.pmacActive n && bitOf (s.lpWord n.val 2) t.tc.val && !t.fixed && e.pre.isNone && divides t then
      (s.setEth n { e with tx := none, pre := some { t with frags := t.frags + 1 } }).count (swcPPreemptCnt n.val)
    else s
  | none => s

/-- An entry takes effect (Table SWC-8): its OP holds or releases the MAC; a preemptable frame in transmission is
preempted at its next allowed point (R213). -/
def State.gateEnter (s : State) (n : Fin 8) (g : Gate) (e : Nat) : State :=
  let op := fieldOf (s.gclWord n.val g.bank e 0) 8 2
  let hold := if op = 1 then true else if op = 2 then false else g.holdMac
  s.setGate n { g with entry := e, since := s.clk.tick, holdMac := hold, done := false }

/-- A gate list start event of a port (R212): a pending SWAP takes effect, and the operative list restarts at
entry 0; before the list has ended it counts in GCL_OVR_CNT. -/
def State.gateListStart (s : State) (n : Fin 8) : State :=
  if !s.gateEn n.val then s
  else
    let g := s.swc.gates[n]
    let s1 := if g.started && !g.done then s.count (swcPGclOvrCnt n.val) else s
    let s2 := if g.swap then s1.setReg (swcPGateOplen n.val) (s1.reg (swcPGateLen n.val)) else s1
    s2.gateEnter n { g with started := true, swap := false, bank := if g.swap then !g.bank else g.bank } 0

/-- An entry's interval ends: the next takes effect; after entry LEN − 1 its states hold until the next start
event (R212). -/
def doGateEntryExpire (n : Fin 8) (s : State) : State :=
  let g := s.swc.gates[n]
  if !(s.gateEn n.val && g.started) || g.done then s
  else if fieldOf (s.reg (swcPGateOplen n.val)) 0 9 ≤ g.entry + 1 then s.setGate n { g with done := true }
  else s.gateEnter n g (g.entry + 1)

/-- The meaning of GATE_ENTRY_EXPIRE. -/
def execGateEntryExpire (n : Fin 8) (s : State) : Host.Outcome State Fault Refusal :=
  commit s (doGateEntryExpire n s)

/-- EN of GATE_CTRL is written: before the first start event after EN rises, and while EN = 0, every gate is open and
no entry holds the MAC (R212, R213). -/
def State.writeGateEn (s : State) (n : Fin 8) (en : Bool) : State :=
  let g := s.swc.gates[n]
  let s1 := s.setRegBit (swcPGateCtrl n.val) 0 en
  if en && !s.gateEn n.val then s1.setGate n { g with started := false, entry := 0, done := false, holdMac := false }
  else if !en then s1.setGate n { g with holdMac := false }
  else s1

/-- A write of GATE_CTRL with SWAP (R212): while EN = 0 the standby bank becomes operative now, with GATE_LEN;
while EN = 1 it waits for the next start event. -/
def doGateSwap (m : Master) (n : Fin 8) (en : Bool) (s : State) : State :=
  s.guarded m (swcPGateCtrl n.val) fun s =>
    let s1 := s.writeGateEn n en
    let g := s1.swc.gates[n]
    if en then s1.setGate n { g with swap := true }
    else (s1.setGate n { g with bank := !g.bank, swap := false }).setReg (swcPGateOplen n.val)
      (s1.reg (swcPGateLen n.val))

/-- The meaning of GATE_SWAP. -/
def execGateSwap (m : Master) (n : Fin 8) (en : Bool) (s : State) : Host.Outcome State Fault Refusal :=
  commit s (doGateSwap m n en s)

/-- SWC_Pn_GATE_STATUS (Table SWC-11). -/
def State.gateStatus (s : State) (n : Fin 8) : Word :=
  let g := s.swc.gates[n]
  w32 (2 ^ 24 * b2n (s.pmacActive n) + 2 ^ 16 * b2n g.bank + 256 * (g.entry % 256) + s.gates8 n)

/-! Fences (R199, Table FLT-1) and die retirement (R215). -/

/-- A fenced slice frees every non-critical frame it holds, queued or in transmission (R199). -/
def State.sliceFenceEffect (s : State) (b : Bool) : State :=
  s.freeWhere 9 false (fun q => match s.storedOf q.fid with
    | some f => f.sliceB = b && f.cls ≠ .crit
    | none => false)

/-- A fenced buffer manager frees every IPB frame with BUF_UE (Table FLT-1). -/
def State.bfmFenceEffect (s : State) : State :=
  s.freeWhere 10 true (fun q => match s.storedOf q.fid with
    | some f => decide (f.cells0 + f.cells1 ≠ 0)
    | none => false)

/-- A die is retired, its domain fenced with the cause given (R215): its cells are not allocated again and the
frames that hold any are lost; a second retirement leaves no die and fences the buffer manager for good
(R400). -/
def State.retireDie (s : State) (d : Fin 2) (cause i8 : Byte) (i16 : Nat) : State :=
  if s.retired d.val then s
  else
    let s1 := s.fltLatch (Fin.ofNat 37 (21 + d.val)) cause i8 i16
    let lost : Stored → Bool := fun f => decide ((if d = 0 then f.cells0 else f.cells1) ≠ 0)
    let s2 := s1.setSwc { s1.swc with
      retired := setBit s1.swc.retired d.val true
      stored := s1.swc.stored.map (fun f => if lost f then { f with bad := true } else f) }
    let s3 := s2.freeWhere 10 true (fun q => s2.lostAt q && s2.sending q)
    if s3.retired 0 && s3.retired 1 then (s3.fltPermanent 20 cause).bfmFenceEffect else s3

/-- The error limit of a die is passed within one second, or its interface fails (R215). -/
def doDieRetire (d : Fin 2) (interface : Bool) (s : State) : State :=
  let recent := ((if d = 0 then s.swc.ue0 else s.swc.ue1).filter (fun t => decide (s.clk.tick ≤ t + 500000000))).length
  if interface then s.retireDie d 0x08 1 d.val
  else if fieldOf (s.reg bfmDieUeLimit) 0 8 < recent then s.retireDie d 0x08 0 d.val
  else s

/-- The meaning of DIE_RETIRE. -/
def execDieRetire (d : Fin 2) (interface : Bool) (s : State) : Host.Outcome State Fault Refusal :=
  commit s (doDieRetire d interface s)

/-- BFM_CMD.RETIRE of the dies named; of the only die left it is refused and counted (R215, R220). -/
def doBfmRetire (m : Master) (dies : BitVec 2) (s : State) : State :=
  s.guarded m bfmCmd fun s =>
    [(0 : Fin 2), 1].foldl (fun t d =>
      if !dies.getLsbD d.val || t.retired d.val then t
      else if t.retired (1 - d.val) then t.rejReg .bfm bfmCmd
      else t.retireDie d 0x08 2 d.val) s

/-- The meaning of BFM_RETIRE. -/
def execBfmRetire (m : Master) (dies : BitVec 2) (s : State) : Host.Outcome State Fault Refusal :=
  commit s (doBfmRetire m dies s)

/-- An error of a buffer word (R214): a corrected one counts; an uncorrectable one counts, for a die also toward
its limit, and the frame is freed with BUF_UE, or ended where it is in transmission. -/
def doBufferUe (frame : Nat) (place : BufPlace) (corrected : Bool) (s : State) : State :=
  match place, corrected with
  | .express, true => s.count bfmExpCeCnt
  | .die _, true => s.count bfmCeCnt
  | .express, false => (s.count bfmExpUeCnt).freeWhere 10 true (fun q => q.fid = frame)
  | .die d, false =>
    let s1 := s.count bfmUeCnt
    let keep : List Nat → List Nat := fun l => s.clk.tick :: l.filter (fun t => decide (s.clk.tick ≤ t + 500000000))
    let s2 := s1.setSwc (if d = 0 then { s1.swc with ue0 := keep s1.swc.ue0 } else { s1.swc with ue1 := keep s1.swc.ue1 })
    s2.freeWhere 10 true (fun q => q.fid = frame)

/-- The meaning of BUFFER_UE. -/
def execBufferUe (frame : Nat) (place : BufPlace) (corrected : Bool) (s : State) :
    Host.Outcome State Fault Refusal :=
  commit s (doBufferUe frame place corrected s)

/-! Aging and recovery timeouts (R202, R203). -/

/-- Age one FDB entry: a dynamic one without HIT is invalidated, one with HIT loses it (R202). -/
def State.ageEntry (s : State) (word : Nat) : State :=
  let w := s.tab .swc 0 word
  if !bitOf w 31 || bitOf w 30 then s
  else if bitOf w 29 then s.setTab .swc 0 word (setBit w 29 false)
  else s.setTab .swc 0 word (setBit w 31 false)

/-- A sweep visits every entry; AGE_TIME = 0 stops aging (R202). -/
def doFdbAgeSweep (s : State) : State :=
  if fieldOf (s.reg swcAgeTime) 0 16 = 0 then s
  else
    let keys := (s.tabs.map (·.1)).filter (fun k => k / 2 ^ 24 = 128 * blkIdx .swc && k % 4 = 0)
    keys.foldl (fun t k => t.ageEntry (k % 2 ^ 24)) s

/-- The meaning of FDB_AGE_SWEEP. -/
def execFdbAgeSweep (s : State) : Host.Outcome State Fault Refusal := commit s (doFdbAgeSweep s)

/-- A stream's state outside its entry. -/
def State.streamSt (s : State) (k : Fin 256) : StreamSt := amGet (fun _ => ⟨true, 0, 0, 0, 0⟩) s.swc.streams k.val

/-- Replace it. -/
def State.setStreamSt (s : State) (k : Fin 256) (x : StreamSt) : State :=
  s.setSwc { s.swc with streams := amPut (fun _ => ⟨true, 0, 0, 0, 0⟩) s.swc.streams k.val x }

/-- REC_TIMEOUT elapses with no frame: the recovery history is reset (R203). -/
def doSeqRecTimeout (k : Fin 256) (s : State) : State :=
  s.setStreamSt k { s.streamSt k with takeAny := true, hist := 0 }

/-- The meaning of SEQ_REC_TIMEOUT. -/
def execSeqRecTimeout (k : Fin 256) (s : State) : Host.Outcome State Fault Refusal :=
  commit s (doSeqRecTimeout k s)

end Sys2Proof.Machine
end

