-- ==== Sys2Proof/Machine/Swc.lean ====
section
/-! DEFINITION. Classification of frames (09, R200-R208, R210, R211, Table SWC-2) and sampling (R216-R218). -/

namespace Sys2Proof.Machine

/-- A frame on its way through classification: what each step has found. `code` is 0 (FWD) until a step drops
it with a code of Table SWC-3; 16 stands for TOO_LONG (R180). -/
structure Work where
  f : Frame
  lp : Fin 22
  stamp : Stamp
  vid : Nat
  pcp : Nat
  tagged : Bool
  fid : Nat
  stream : Option (Fin 256)
  tc : Nat
  cls : BufClass
  mask : BitVec 22
  code : Nat
  ct : Bool
deriving DecidableEq, Repr

/-- The state and the frame after a step. -/
abbrev Pass := State × Work

/-- Drop a frame at a step: counted at its ingress port with the reason of the step (R200, R201). -/
def dropIn (s : State) (lp : Fin 22) (w : Work) (reason : Nat) : Pass :=
  (s.dropAt lp.val reason, { w with code := reason })

/-- A step is applied only to a frame that no earlier step has dropped. -/
def thenStep (p : Pass) (f : State → Work → Pass) : Pass := if p.2.code = 0 then f p.1 p.2 else p

/-! Step 2: the tag. -/

/-- TC of a PCP through the ingress port's PCP_MAP (R204). -/
def State.tcOf (s : State) (lp pcp : Nat) : Nat := fieldOf (s.lpWord lp 1) (3 * pcp) 3

/-- VID, PCP and tag of a frame at its ingress port, before any drop (Table SWC-2 step 2). -/
def startWork (s : State) (lp : Fin 22) (f : Frame) : Work :=
  let e := s.lpWord lp.val 0
  let tagged := s.isTpid (be16At f.bytes 12)
  let tci := be16At f.bytes 14
  let pvid := fieldOf e 0 12
  let vid := if tagged && tci % 4096 ≠ 0 then tci % 4096 else pvid
  let pcp0 := if tagged then tci / 8192 else fieldOf e 16 3
  let pcp := match f.req.pcp with | some p => p.toNat | none => pcp0
  { f := f, lp := lp, stamp := f.stamp.getD ⟨s.time 0, 0, s.stampDeg 0⟩, vid := vid, pcp := pcp, tagged := tagged, fid := 0, stream := none, tc := s.tcOf lp.val pcp,
    cls := .be, mask := 0, code := 0, ct := false }

/-- DROP_UNTAGGED. -/
def stepTag (lp : Fin 22) (s : State) (w : Work) : Pass :=
  if !w.tagged && bitOf (s.lpWord lp.val 0) 14 then dropIn s lp w 1 else (s, w)

/-! Step 3: the VLAN entry. -/

/-- Word k of the VLAN entry of a VID (Table SWC-4). -/
def State.vlanWord (s : State) (vid k : Nat) : Word := s.tab .swc 1 (vid * 4 + k)

/-- A frame as a logical port sends it: its tag removed where UNTAG names the port, else carried with the
classified VID; one that arrived without a tag is sent with PCP and VID of step 2 (Table SWC-4). -/
def State.tagFor (s : State) (tagged : Bool) (vid pcp lp : Nat) (bs : List Byte) : List Byte :=
  if be16At bs 12 = 0x888E ∧ !tagged then bs
  else if bitOf (s.vlanWord vid 2) lp then (if tagged then bs.take 12 ++ bs.drop 16 else bs)
  else if tagged then overwrite bs 14 (toBe 2 (4096 * (be16At bs 14 / 4096) + vid))
  else bs.take 12 ++ [0x81#8, 0x00] ++ toBe 2 (8192 * (pcp % 8) + vid) ++ bs.drop 12

/-- The entry must be VALID and the ingress port a MEMBER. -/
def stepVlan (lp : Fin 22) (s : State) (w : Work) : Pass :=
  if bitOf (s.vlanWord w.vid 0) 31 && bitOf (s.vlanWord w.vid 1) lp.val then (s, w) else dropIn s lp w 1

/-! Step 4: streams (R203). -/

/-- Word k of a stream entry (Table SWC-6). -/
def State.stWord (s : State) (k : Fin 256) (i : Nat) : Word := s.tab .swc 2 (k.val * 8 + i)

/-- Whether an entry matches a frame on (DA, VID) or (SA, VID). -/
def State.streamMatches (s : State) (k : Fin 256) (bs : List Byte) (vid : Nat) : Bool :=
  let w0 := s.stWord k 0
  let a := if bitOf w0 30 then slice bs 6 6 else slice bs 0 6
  bitOf w0 31 && fieldOf w0 0 12 = vid && fieldOf (s.stWord k 2) 0 16 = be16At a 0 &&
  (s.stWord k 1).toNat = be32At a 2

/-- The lowest-numbered match. -/
def State.streamOf (s : State) (bs : List Byte) (vid : Nat) : Option (Fin 256) :=
  ((List.range 256).find? (fun k => s.streamMatches (Fin.ofNat 256 k) bs vid)).map (Fin.ofNat 256)

/-- The offset of an R-TAG, behind the VLAN tag. -/
def State.hasRtag (s : State) (bs : List Byte) : Bool := be16At bs (s.etOff bs) = 0xF1C1

/-- 802.1CB vector recovery with a history of 32 (R203): whether the number passes, the state after it and the
last recovered number. -/
def recover (x : StreamSt) (last seq : Nat) : Bool × StreamSt × Nat :=
  if x.takeAny then (true, { x with takeAny := false, hist := 1 }, seq)
  else
    let d := (seq + 65536 - last) % 65536
    if d = 0 then (false, x, last)
    else if d < 32 then (true, { x with hist := (x.hist <<< d) ||| 1 }, seq)
    else if 65536 - d < 32 then
      if x.hist.getLsbD (65536 - d) then (false, x, last)
      else (true, { x with hist := setBit x.hist (65536 - d) true }, last)
    else (false, x, last)

/-- SEQ_REC: a frame with an R-TAG passes recovery, a discarded one is dropped, a passed one loses its tag. -/
def stepSeqRec (lp : Fin 22) (k : Fin 256) (s : State) (w : Work) : Pass :=
  if bitOf (s.stWord k 0) 22 && s.hasRtag w.f.bytes then
    let e := s.etOff w.f.bytes
    let r := recover (s.streamSt k) (fieldOf (s.stWord k 6) 0 16) (be16At w.f.bytes (e + 4))
    let s1 := (s.setStreamSt k r.2.1).setTab .swc 2 (k.val * 8 + 6) (setField (s.stWord k 6) 0 16 r.2.2)
    if r.1 then (s1, { w with f := { w.f with
      bytes := w.f.bytes.take e ++ w.f.bytes.drop (e + 6)
      req := { w.f.req with ptpOff := w.f.req.ptpOff - 6 } } })
    else dropIn s1 lp w 11
  else (s, w)

/-- MAX_SDU. -/
def stepSdu (lp : Fin 22) (k : Fin 256) (s : State) (w : Work) : Pass :=
  let m := fieldOf (s.stWord k 2) 16 14
  if m ≠ 0 && decide (m < w.f.size) then dropIn s lp w 2 else (s, w)

/-- The stream's gate: the Qbv gate of the frame's TC on GATE_PORT. -/
def stepGate (lp : Fin 22) (k : Fin 256) (s : State) (w : Work) : Pass :=
  let w3 := s.stWord k 3
  if bitOf w3 31 && !(s.gates8 (Fin.ofNat 8 (fieldOf w3 28 3))).testBit w.tc then dropIn s lp w 3 else (s, w)

/-- The meter: RATE × 16 kb/s up to BURST × 64 bytes; a bit is 31,250 units, so a tick of 2 ns fills RATE. -/
def stepMeter (lp : Fin 22) (k : Fin 256) (s : State) (w : Work) : Pass :=
  let rate := fieldOf (s.stWord k 3) 0 20
  if rate = 0 then (s, w)
  else
    let x := s.streamSt k
    let cap := 31250 * (fieldOf (s.stWord k 4) 0 16 * 64 * 8)
    let now := x.level + (s.clk.tick - x.atTick) * rate
    let level := if cap < now then cap else now
    let need := 31250 * (w.f.size * 8)
    if need ≤ level then (s.setStreamSt k { x with level := level - need, atTick := s.clk.tick }, w)
    else dropIn (s.setStreamSt k { x with level := level, atTick := s.clk.tick }) lp w 4

/-- SEQ_GEN: an R-TAG with the entry's next number is inserted after the VLAN tag; the PTP header moves with what
follows (R71). -/
def stepSeqGen (k : Fin 256) (s : State) (w : Work) : Pass :=
  if bitOf (s.stWord k 0) 21 then
    let e := s.etOff w.f.bytes
    let n := fieldOf (s.stWord k 6) 16 16
    let bs := w.f.bytes.take e ++ [0xF1#8, 0xC1, 0, 0] ++ toBe 2 n ++ w.f.bytes.drop e
    (s.setTab .swc 2 (k.val * 8 + 6) (setField (s.stWord k 6) 16 16 (n + 1)),
      { w with f := { w.f with bytes := bs, req := { w.f.req with ptpOff := w.f.req.ptpOff + 6 } } })
  else (s, w)

/-- Stream identification and the checks of R203, in order. -/
def stepStream (lp : Fin 22) (s : State) (w : Work) : Pass :=
  match s.streamOf w.f.bytes w.vid with
  | none => (s, w)
  | some k =>
    let tc := if bitOf (s.stWord k 0) 27 then fieldOf (s.stWord k 0) 24 3 else w.tc
    let s1 := s.setTab .swc 2 (k.val * 8 + 7) (s.stWord k 7 + 1)
    let p0 := stepSeqRec lp k s1 { w with stream := some k, tc := tc }
    let p1 := thenStep p0 (stepSdu lp k)
    let p2 := thenStep p1 (stepGate lp k)
    let p3 := thenStep p2 (stepMeter lp k)
    thenStep p3 (stepSeqGen k)

/-! Steps 5 to 7: destination, mask, learning (R202). -/

/-- The bucket of a key. -/
def fdbBucket (fid : Nat) (addr : List Byte) : Nat := fieldOf (crc32 (toBe 2 (fid % 4096) ++ addr)) 0 12

/-- Word w of an FDB entry (Table SWC-5). -/
def State.fdbWord (s : State) (entry w : Nat) : Word := s.tab .swc 0 (entry * 4 + w)

/-- Whether a way holds a key. -/
def State.fdbHit (s : State) (entry fid : Nat) (addr : List Byte) : Bool :=
  bitOf (s.fdbWord entry 0) 31 && fieldOf (s.fdbWord entry 0) 0 12 = fid &&
  (s.fdbWord entry 1).toNat = be32At addr 2 && fieldOf (s.fdbWord entry 2) 0 16 = be16At addr 0

/-- The entry of a key: the lowest matching way of its bucket. -/
def State.fdbFind (s : State) (fid : Nat) (addr : List Byte) : Option Nat :=
  let b := fdbBucket fid addr * 4
  ([0, 1, 2, 3].find? (fun way => s.fdbHit (b + way) fid addr)).map (fun way => b + way)

/-- Whether an address is one of 01-80-C2-00-00-00 to 0F, never forwarded to LP0-LP7. -/
def reservedDa (a : List Byte) : Bool :=
  a.take 5 = [0x01, 0x80, 0xC2, 0x00, 0x00] && decide ((byteAt a 5).toNat < 16)

/-- LP8-LP21. -/
def internalMask : BitVec 22 := 0x3FFF00#22

/-- Step 5: the descriptor's DEST, the stream's, or the FDB's; unknown addresses flood. -/
def State.destMask (s : State) (w : Work) : BitVec 22 :=
  let da := w.f.bytes.take 6
  let fid := fieldOf (s.vlanWord w.vid 0) 0 12
  let hit := s.fdbFind fid da
  let fdb : BitVec 22 := match hit with
    | some e => (s.fdbWord e 3).setWidth 22
    | none => ((if (byteAt da 0).getLsbD 0 then s.reg swcMcFlood else s.reg swcFlood)).setWidth 22
  match w.f.req.dest with
  | some d => d
  | none =>
    match w.stream with
    | some k => if bitOf (s.stWord k 0) 28 && !reservedDa da then (s.stWord k 5).setWidth 22 else stat da hit fdb
    | none => stat da hit fdb
where
  /-- A reserved address reaches only the internal ports of a static entry. -/
  stat (da : List Byte) (hit : Option Nat) (fdb : BitVec 22) : BitVec 22 :=
    if reservedDa da then
      (match hit with
       | some e => if bitOf (s.fdbWord e 0) 30 then fdb &&& internalMask else 0
       | none => 0)
    else fdb

/-- Whether an egress port's link is down: of LP8 and LP9 the host link (R293: in ×4 operation link 1 never comes up). -/
def State.egressDown (s : State) (lp : Nat) : Bool :=
  if h : lp < 8 then !s.eth[(⟨lp, h⟩ : Fin 8)].up
  else if lp < 10 then !s.linkUp (lp = 9)
  else false

/-- Step 6: members only, never the ingress port; ports with link down count LINK_DOWN and are cleared, gated
ones are cleared; an empty mask is NO_DEST. -/
def stepMask (lp : Fin 22) (s : State) (w : Work) : Pass :=
  let m0 := s.destMask w
  let m1 := if reservedDa (w.f.bytes.take 6) then m0 &&& internalMask else m0
  let m2 := setBit (m1 &&& (s.vlanWord w.vid 1).setWidth 22) lp.val false
  let down : BitVec 22 := bitsFrom 22 (fun k => m2.getLsbD k && s.egressDown k)
  let s1 := (List.range 10).foldl (fun t k => if down.getLsbD k then t.dropAt k 6 else t) s
  let m3 : BitVec 22 := bitsFrom 22 (fun k => m2.getLsbD k && !down.getLsbD k && !(decide (k < 8) && s.portGated k))
  if m3 = 0 then dropIn s1 lp { w with mask := m3 } 5 else (s1, { w with mask := m3 })

/-- Step 7: learning of (FID, SA) (R202). -/
def stepLearn (lp : Fin 22) (s : State) (w : Work) : Pass :=
  let v := s.vlanWord w.vid 0
  if !(bitOf v 30 && bitOf (s.lpWord lp.val 0) 15) then (s, w)
  else
    let fid := fieldOf v 0 12
    let sa := slice w.f.bytes 6 6
    let port := w32 (2 ^ lp.val)
    match s.fdbFind fid sa with
    | some e =>
      if bitOf (s.fdbWord e 0) 30 then (s, w)
      else
        let s1 := s.setTab .swc 0 (e * 4) (setBit (s.fdbWord e 0) 29 true)
        if s.fdbWord e 3 = port then (s1, w)
        else ((s1.setTab .swc 0 (e * 4 + 3) port).count swcMoveCnt, w)
    | none =>
      let b := fdbBucket fid sa * 4
      match [0, 1, 2, 3].find? (fun way => !bitOf (s.fdbWord (b + way) 0) 31) with
      | some way =>
        (s.setTabs .swc 0 ((b + way) * 4) [w32 (2 ^ 31 + 2 ^ 29 + fid), w32 (be32At sa 2), w32 (be16At sa 0), port], w)
      | none => (s.count swcLearnFullCnt, w)

/-! Step 8: class and cut-through (R204, R207). -/

/-- The buffer class: the first that applies (R204). -/
def State.classOf (s : State) (lp : Fin 22) (w : Work) : BufClass :=
  let crit := match w.stream with | some k => bitOf (s.stWord k 0) 29 | none => false
  if crit then .crit
  else if w.f.origin = .ring then .ring
  else if bitOf (s.lpWord lp.val 3) w.tc then .data
  else .be

/-- Whether forwarding to an egress port is cut-through (R207). -/
def State.cutThrough (s : State) (lp : Fin 22) (w : Work) (e : Nat) : Bool :=
  if h : lp.val < 8 then
    if he : e < 8 then
      let n : Fin 8 := ⟨lp.val, h⟩
      let x : Fin 8 := ⟨e, he⟩
      bitOf (s.lpWord e 2) (8 + w.tc) && decide (s.eth[x].speed.val ≤ s.eth[n].speed.val) && !s.msecEn n &&
      !w.f.frag && w.cls ≠ .crit
    else false
  else false

/-! Step 9: admission (R205, R208, R211). -/

/-- Split n IPB cells over the dies: which cells of which die is free, within what each has left (log 6). -/
def splitCells (free0 free1 n r : Nat) : Nat × Nat :=
  let lo := n - free1
  let hi := if n < free0 then n else free0
  let x := r % (n + 1)
  let n0 := if x < lo then lo else if hi < x then hi else x
  (n0, n - n0)

/-- ECN marking of a frame (R210): CE on ECT of IPv4 or IPv6, CM of a Nerund frame; none for others. -/
def State.ecnMark (s : State) (bs : List Byte) : Option (List Byte) :=
  let e := s.etOff bs
  let et := be16At bs e
  if et = 0x0800 then
    let t := byteAt bs (e + 3)
    if t.toNat % 4 = 1 ∨ t.toNat % 4 = 2 then
      let n := overwrite bs (e + 3) [t ||| 3#8]
      some (putBe n (e + 12) 2 (sumUpdate (be16At bs (e + 12)) (slice bs (e + 2) 2) (slice n (e + 2) 2)))
    else none
  else if et = 0x86DD then
    let t := byteAt bs (e + 3)
    let c := t.toNat / 16 % 4
    if c = 1 ∨ c = 2 then some (overwrite bs (e + 3) [t ||| 0x30#8]) else none
  else if et = fieldOf (s.reg nrgEtype) 0 16 then some (overwrite bs 15 [byteAt bs 15 ||| 4#8])
  else none

/-- Put a stored frame into an egress queue (R210): a BE frame above QLIMIT is dropped there, a deep queue marks. -/
def State.enqueue (s : State) (w : Work) (len : Nat) (ct : Bool) (lp : Nat) : State :=
  let d := s.depth lp w.tc
  let u := unitsOf len
  if w.cls = .be && decide (s.halved (fieldOf (s.lpWord lp (4 + w.tc)) 0 19) < d + u) then s.dropAt lp 7
  else
    let mark := decide (s.halved (fieldOf (s.lpWord lp (12 + w.tc)) 0 19) ≤ d) && (s.ecnMark w.f.bytes).isSome
    let q : QEntry := ⟨w.fid, Fin.ofNat 22 lp, Fin.ofNat 8 w.tc, u, mark, ct, 0, []⟩
    let s1 := s.setSwc { s.swc with queues := s.swc.queues ++ [q] }
    if mark then s1.count swcEcnMarkCnt else s1

/-- A critical copy at an egress port: its effect `take` if its tag is not in the history of 32, else it is freed
(R208). -/
def State.critCopy (s : State) (k : Fin 256) (tag : BitVec 16) (lp : Nat) (take : State → State) : State :=
  let key := 256 * lp + k.val
  let h := amGet (fun _ => []) s.swc.elim key
  if h.contains tag then s.count swcElimCnt
  else take (s.setSwc { s.swc with elim := amPut (fun _ => []) s.swc.elim key ((tag :: h).take 32) })

/-- Hand a frame to an engine role's logical port (R106, R206): a port-stream window takes its bytes, and the
receive ring takes the frame unless the stream does not deliver. -/
def State.toEngine (s : State) (w : Work) (role : Fin 10) (bs : List Byte) : State :=
  let w1 := rxWord1 w.lp w.tc w.stamp.deg bs.length
  let w2 := rxWord2 w.vid (be16At bs (s.etAfterTags bs))
  match w.stream with
  | none => s.fwuRxPost role bs w1 w2
  | some k =>
    let r := s.fwuDeposit role k bs
    if r.1 && !bitOf (s.stWord k 0) 23 then r.2 else r.2.fwuRxPost role bs w1 w2

/-- The frames that an egress port with no template of its own makes of a frame of the switch: a segmented send is cut
(R179). -/
def cutAll (f : Frame) : List (List Byte) :=
  match f.req.seg with
  | some g => (List.range (segCount g f.bytes.length)).map (segFrame g [] f.bytes)
  | none => [f.bytes]

/-- A frame at one egress port of its mask: a queue of LP0-LP9 and LP20, an engine role, the supervisor. -/
def State.deliverAt (s : State) (w : Work) (len : Nat) (cts : BitVec 22) (lp : Nat) : State :=
  let own : List Byte → List Byte := fun bs => s.tagFor w.tagged w.vid w.pcp lp bs
  if 10 ≤ lp ∧ lp < 20 then (cutAll w.f).foldl (fun t bs => t.toEngine w (Fin.ofNat 10 (lp - 10)) (own bs)) s
  else if lp = 21 then (cutAll w.f).foldl (fun t bs => t.emit (.toSupervisor (own bs))) s
  else s.enqueue w len (cts.getLsbD lp) lp

/-- Deliver an admitted frame to the ports of its mask. `copies` counts the slices that carry a critical frame: each
further copy meets its tag (R208). -/
def State.deliver (s : State) (w : Work) (len : Nat) (cts : BitVec 22) (copies : Nat) : State :=
  let one : State → Nat → State := fun t lp =>
    if !w.mask.getLsbD lp then t
    else
      match w.cls, w.stream with
      | .crit, some k =>
        let tag := (t.streamSt k).tag
        (List.range copies).foldl (fun u _ => u.critCopy k tag lp (fun v => v.deliverAt w len cts lp)) t
      | _, _ => t.deliverAt w len cts lp
  (List.range 22).foldl one s

/-- The slice that carries an ingress port's frames (R197, R199): B where SWC_SLICE_MAP says so or A is fenced. -/
def State.sliceBOf (s : State) (lp : Nat) : Bool :=
  if s.fenced 18 then true else if s.fenced 19 then false else bitOf (s.reg swcSliceMap) lp

/-- The slice of a frame's copy: of the two copies of a critical frame the one of Switch A is queued, unless A is
fenced (R208). -/
def State.sliceOf (s : State) (lp : Nat) (cls : BufClass) : Bool := if cls = .crit then s.fenced 18 else s.sliceBOf lp

/-- What admission finds: cells of one kind, for a critical frame those of one copy with the copies that found some,
waiting (internal ingress), or a drop with its code. -/
inductive Admit where
  | express (n copies : Nat)
  | ipb (n : Nat) (fallback : Bool)
  | wait
  | drop (code : Nat)
deriving DecidableEq, Repr

/-- Step 9 for a frame of a class (Table SWC-7, R184, R211). -/
def State.admitCopies (s : State) (lp : Fin 22) (w : Work) (len : Nat) (ct : Bool) (copies : Nat) : Admit :=
  let e := ecellsOf len
  let c := unitsOf len
  match w.cls with
  | .crit =>
    let k := min copies (s.expFree / e)
    if k ≠ 0 then .express e k else if 8 ≤ lp.val then .wait else .drop 8
  | .ring => if e ≤ s.expFree then .express e copies else if 8 ≤ lp.val then .wait else .drop 8
  | _ =>
    if ct && decide (s.halved (fieldOf (s.reg bfmExpRsv) 0 15) + e ≤ s.expFree) then .express e copies
    else if s.fenced 20 then .drop 8
    else
      let floor := if w.cls = .be then s.halved (fieldOf (s.reg bfmBeFloor) 0 19) else 0
      if c + floor ≤ s.ipbFree then .ipb c ct
      else if 8 ≤ lp.val then .wait
      else .drop 8

/-- Whether a DATA frame would take USEp above LIMITp: step 8 of Table ETH-3 (R184). -/
def State.overPfcLimit (s : State) (lp : Fin 22) (w : Work) (c : Nat) : Bool :=
  if h : lp.val < 8 then
    w.cls = .data &&
      decide (fieldOf (s.reg (ethPfcLimit lp.val w.tc)) 0 19 < s.pfcUse (⟨lp.val, h⟩ : Fin 8) w.tc + c)
  else false

/-- Store an admitted frame and deliver it. -/
def State.store (s : State) (lp : Fin 22) (w : Work) (len : Nat) (express ipb : Nat) (cts : BitVec 22)
    (copies : Nat) : State :=
  let r := s.draw
  let cells := splitCells (r.2.dieFree 0) (r.2.dieFree 1) ipb r.1.toNat
  let fid := r.2.swc.nextFid
  let st : Stored :=
    { fid := fid
      f := w.f
      ingress := lp
      stamp := w.stamp
      cls := w.cls
      tc := Fin.ofNat 8 w.tc
      sliceB := s.sliceOf lp.val w.cls
      ecells := express
      cells0 := cells.1
      cells1 := cells.2
      stream := w.stream
      vid := BitVec.ofNat 12 w.vid
      tagged := w.tagged
      pcp := w.pcp
      bad := false }
  let s1 := r.2.setSwc { r.2.swc with
    stored := r.2.swc.stored ++ [st]
    nextFid := fid + 1 }
  let s2 := s1.deliver { w with fid := fid } len cts copies
  let s3 := match w.cls, w.stream with
    | .crit, some k => s2.setStreamSt k { s2.streamSt k with tag := (s2.streamSt k).tag + 1 }
    | _, _ => s2
  s3.sweep

/-- Whether any place of a queue was given to a frame, or it went to an engine role or the supervisor. -/
def State.placed (s : State) (fid : Nat) (mask : BitVec 22) : Bool :=
  s.swc.queues.any (fun q => q.fid = fid) || decide (mask &&& 0x2FFC00#22 ≠ 0)

/-- Steps 8 and 9; none: the frame waits at its internal ingress port, and nothing is done. -/
def stepAdmit (lp : Fin 22) (s : State) (w0 : Work) : Option Pass :=
  let w := { w0 with cls := s.classOf lp w0 }
  let len := w.f.size
  let cts : BitVec 22 := bitsFrom 22 (fun e => w.mask.getLsbD e && s.cutThrough lp w e)
  let copies := if w.cls = .crit ∧ !s.fenced 18 ∧ !s.fenced 19 then 2 else 1
  match s.admitCopies lp w len (cts ≠ 0) copies with
  | .express n k => some (s.store lp w len n 0 cts k, { w with fid := s.swc.nextFid, ct := decide (cts ≠ 0) })
  | .wait => none
  | .drop c =>
    if s.overPfcLimit lp w (unitsOf len) then some (s.count (ethRxPfcDropCnt lp.val), { w with code := 8 })
    else some (dropIn s lp w c)
  | .ipb n fb =>
    if s.overPfcLimit lp w (unitsOf len) then some (s.count (ethRxPfcDropCnt lp.val), { w with code := 8 })
    else
      let s1 := if fb then s.count bfmCtFbCnt else s
      some (s1.store lp w len 0 n 0 copies, { w with fid := s.swc.nextFid })

/-! Sampling (R216-R218). -/

/-- Word k of a sampling rule (Table SWC-9). -/
def State.smpWord (s : State) (r k : Nat) : Word := s.tab .swc 3 (r * 4 + k)

/-- The number of a class: 0 BE, 1 DATA, 2 CRIT, 3 RING. -/
def classIdx : BufClass → Nat
  | .be => 0
  | .data => 1
  | .crit => 2
  | .ring => 3

/-- Whether a rule matches a classified frame. -/
def State.smpMatches (s : State) (lp : Fin 22) (w : Work) (r : Nat) : Bool :=
  let w0 := s.smpWord r 0
  bitOf w0 31 && (if w.code = 0 then bitOf w0 24 else bitOf w0 25) && bitOf w0 (20 + classIdx w.cls) &&
  (!bitOf w0 12 || fieldOf w0 0 12 = w.vid) && bitOf (s.smpWord r 1) lp.val &&
  (fieldOf (s.smpWord r 2) 0 22 = 0 || decide ((s.smpWord r 2).setWidth 22 &&& w.mask ≠ 0))

/-- COUNT of a matching rule is decremented; a rule that reaches 0 reloads it with N (log 14). -/
def State.smpStep (s : State) (r : Nat) : Bool × State :=
  let w3 := s.smpWord r 3
  let c := fieldOf w3 0 16
  let n := fieldOf w3 16 16
  let hit := decide (c ≤ 1)
  (hit, s.setTab .swc 3 (r * 4 + 3) (setField w3 0 16 (if hit then (if n = 0 then 1 else n) else c - 1)))

/-- The 160 bytes of a record (Table SWC-10): a frame of the wire with its FCS, as received. -/
def State.smpRecord (s : State) (lp : Fin 22) (f0 : Frame) (w : Work) (rule : Nat) : List Byte :=
  let st := w.stamp
  let sec := dtSec st.t
  let verdict := if w.code < 16 then w.code else 0
  let words : List Word := [
    w32 (dtFrac st.t), w32 (dtNs st.t), w32 sec,
    w32 (65536 * (sec / 4294967296) + 16384 * st.dom.val + 8192 * b2n st.deg),
    w32 (2 ^ 27 * rule + 2 ^ 22 * lp.val + w.mask.toNat),
    w32 (2 ^ 30 * classIdx w.cls + 2 ^ 27 * w.tc + 2 ^ 26 * b2n (s.sliceOf lp.val w.cls) + 2 ^ 25 * b2n w.ct +
      2 ^ 16 * verdict + f0.size % 2 ^ 14),
    w32 (65536 * w.vid + 256 * b2n w.stream.isSome + (match w.stream with | some k => k.val | none => 0)),
    s.swc.smpSeq]
  (words.map leBytes).flatten ++ slice (f0.bytes ++ (if f0.origin = .wire then fcsBytes f0.bytes else [])) 0 128

/-- Write a record, or count it dropped while the ring is full or its link cannot take it (R217). -/
def State.smpWrite (s : State) (lp : Fin 22) (f0 : Frame) (w : Work) (rule : Nat) : State :=
  let link := bitOf (s.reg swcSmpCfg) 8
  if s.smpFull || !s.linkUp link || s.linkFenced link then s.count swcSmpDropCnt
  else
    let pi := fieldOf (s.reg swcSmpPi) 0 16
    let base := s.swc.smpBase.toNat
    let s1 := s.emit (.hostWrite link (BitVec.ofNat 64 (base + 160 * pi)) (s.smpRecord lp f0 w rule))
    (s1.setReg swcSmpPi (w32 ((pi + 1) % 2 ^ fieldOf (s.reg swcSmpCfg) 0 5))).setSwc
      { s1.swc with smpSeq := s1.swc.smpSeq + 1 }

/-- Step 10: the rules are compared with the frame's verdict; at most one record, of the lowest rule that
reached 0 (R216). -/
def State.sample (s : State) (lp : Fin 22) (f0 : Frame) (w : Work) : State :=
  let rules := (List.range 32).filter (fun r => s.smpMatches lp w r)
  let run := rules.foldl (fun (a : State × List Nat) r =>
    let x := a.1.smpStep r
    (x.2, if x.1 then a.2 ++ [r] else a.2)) (s, [])
  match run.2 with
  | [] => run.1
  | r :: rest => (run.1.smpWrite lp f0 w r).countN swcSmpMergeCnt rest.length

/-! The whole of Table SWC-2. -/

/-- Step 1: EtherType 0x888E goes to LP21 only, straight to step 8. -/
def isEapol (f : Frame) : Bool := be16At f.bytes 12 = 0x888E

/-- Whether a segmented send is refused whole at lookup (R180), by its own values or by an egress port of its mask. -/
def State.sendRefused (s : State) (w : Work) : Bool :=
  match w.f.req.seg with
  | none => false
  | some g =>
    segRefused g w.f.bytes.length
      (((List.range 8).filter (fun n => w.mask.getLsbD n)).map (fun n => fieldOf (s.reg (ethMaxlen n)) 0 14))

/-- The result of a host's or an engine's frame at its commit point (R302). -/
def State.txVerdict (s : State) (w : Work) : State :=
  match w.f.origin with
  | .host c idx =>
    let c' := Fin.ofNat 256 c
    if w.code = 16 then s.txResult c' idx stTooLong 0
    else if s.fenced 20 && w.code = 8 then s.txResult c' idx stFenced 0
    else s.txResult c' idx stOk w.code
  | .engine r cookie =>
    if w.code = 16 then s.fwuTxDone r w.f.req.tag cookie stTooLong 0
    else s.fwuTxDone r w.f.req.tag cookie stOk w.code
  | _ => s

/-- Steps 1 to 7 of Table SWC-2. -/
def State.routeIn (s : State) (lp : Fin 22) (f : Frame) : Pass :=
  let w := startWork s lp f
  if isEapol f then (s, { w with mask := 0x200000#22 })
  else
    let p1 := stepTag lp s w
    let p2 := thenStep p1 (stepVlan lp)
    let p3 := thenStep p2 (stepStream lp)
    let p4 := thenStep p3 (stepMask lp)
    thenStep p4 (stepLearn lp)

/-- Classify a frame at a logical port (R200); none: it waits for cells (Table SWC-7). A send that R180 refuses is
refused whole before any step counts, meters, learns or samples. -/
def State.classify (s : State) (lp : Fin 22) (f : Frame) : Option State :=
  let w := startWork s lp f
  let pre := s.routeIn lp f
  if s.sendRefused w || (pre.2.code = 0 && s.sendRefused pre.2) then some (s.txVerdict { w with code := 16 })
  else
    let post : Option Pass :=
      if pre.2.code = 0 then stepAdmit lp pre.1 pre.2
      else some (pre.1, { pre.2 with cls := pre.1.classOf lp pre.2 })
    match post with
    | none => none
    | some p =>
      let w2 := if p.2.code = 0 && !p.1.placed p.2.fid p.2.mask then { p.2 with code := 7 } else p.2
      some ((p.1.sample lp f w2).txVerdict w2)

/-- Take the first frame that waits at a logical port; while the switch takes no new frame, one taken before (R219). -/
def takeIngress (lp : Fin 22) (open_ : Bool) : List Ingress → Option (Frame × List Ingress)
  | [] => none
  | x :: r =>
    if x.lp = lp && (x.taken || open_) then some (x.f, r)
    else match takeIngress lp open_ r with
      | some (f, r') => some (f, x :: r')
      | none => none

/-- Classify the first frame that waits at a logical port. -/
def doFrameClassify (lp : Fin 22) (s : State) : State :=
  match takeIngress lp s.swcTakes s.swc.ingress with
  | none => s
  | some (f, rest) =>
    match (s.setSwc { s.swc with ingress := rest }).classify lp f with
    | some s' => s'
    | none => s

/-- The meaning of FRAME_CLASSIFY. -/
def execFrameClassify (lp : Fin 22) (s : State) : Host.Outcome State Fault Refusal :=
  commit s (doFrameClassify lp s)

end Sys2Proof.Machine
end

