-- ==== Sys2Proof/Machine/SwcTx.lean ====
section
/-! DEFINITION. The transmit side of a port (09, R209, R213; 04, R71-R74; 08, R179-R187): which frame a MAC
starts, how it leaves, and the link coming up and going down. -/

namespace Sys2Proof.Machine

/-- ps per bit at a speed, coded as SPEED. -/
def psPerBit : Nat → Nat
  | 0 => 100000
  | 1 => 10000
  | 2 => 1000
  | 3 => 400
  | _ => 100

/-- (L + 20 + m) × 8 / r in ps, m = 32 on a MACsec port (R209). -/
def State.wireTime (s : State) (n : Fin 8) (len : Nat) : Nat :=
  (len + 20 + (if s.msecEn n then 32 else 0)) * 8 * psPerBit s.eth[n].speed.val

/-! How a frame leaves. -/

/-- The VLAN tag of a stored frame at an egress port. -/
def State.egressTag (s : State) (st : Stored) (lp : Nat) (bs : List Byte) : List Byte :=
  s.tagFor st.tagged st.vid.toNat st.pcp lp bs

/-- Pad with 0x00 to 60 bytes before the FCS (R180, R301). -/
def padFrame (bs : List Byte) : List Byte := bs ++ List.replicate (60 - bs.length) 0

/-- The instance whose posted frame carries port-stream windows (R206). -/
def State.placeWindows (s : State) (st : Stored) (bs : List Byte) : List Byte × State :=
  match st.f.origin, st.stream with
  | .engine r _, some k => s.fwuPlace r k bs
  | _, _ => (bs, s)

/-- The frame of a queue place as its egress port takes it: marked (R210), and cut where it is a send (R179). -/
def State.leaving (s : State) (q : QEntry) (st : Stored) : List Byte :=
  let b := if q.mark then (s.ecnMark st.f.bytes).getD st.f.bytes else st.f.bytes
  match st.f.req.seg with
  | some g => segFrame g q.tpl b q.seg
  | none => b

/-- Whether it is the last frame of a queue place. -/
def lastOf (q : QEntry) (st : Stored) : Bool :=
  match st.f.req.seg with
  | some g => decide (segCount g st.f.bytes.length ≤ q.seg + 1)
  | none => true

/-- The frame of a queue place as it leaves, before stamps and protection: marked, cut, with its windows, tagged,
padded. -/
def State.cutFrame (s : State) (n : Fin 8) (q : QEntry) (st : Stored) : List Byte × State :=
  let r := s.placeWindows st (s.leaving q st)
  (padFrame (r.2.egressTag st n.val r.1), r.2)

/-- The offset of the PTP header in the frame as it leaves: a VLAN tag that the egress port inserts or removes moves it
(R71, R72). -/
def State.ptpOff (s : State) (n : Fin 8) (q : QEntry) (st : Stored) : Nat :=
  st.f.req.ptpOff + (s.egressTag st n.val (s.leaving q st)).length - (s.leaving q st).length

/-- Whether a one-step rewrite ends within the first 128 bytes (R73). -/
def oneStepFits (m : StampMode) (off : Nat) : Bool :=
  match m with
  | .oneOrigin => decide (off + 44 ≤ 128)
  | .oneCorr => decide (off + 16 ≤ 128)
  | _ => false

/-- Apply the stamp mode of a departing frame whose PTP header stands at an offset (R71-R74); a send takes no stamp
(R180). -/
def State.applyStamp (s : State) (n : Fin 8) (ph : Fin 16) (st : Stored) (off : Nat) (bs : List Byte) :
    List Byte × State :=
  let q := st.f.req
  let tx := s.txStamp n ph
  if q.seg.isSome then (bs, s)
  else
    match q.mode with
    | .none => (bs, s)
    | .twoStep => (bs, s.tsqPush n q.tag tx)
    | .oneOrigin =>
      if oneStepFits q.mode off then (s.oneStepOrigin bs off tx, s) else (bs, s.tsqPush n q.tag tx)
    | .oneCorr =>
      match st.f.stamp with
      | some rx =>
        if rx.dom = tx.dom && oneStepFits q.mode off then (s.oneStepCorr bs off tx rx, s)
        else (bs, s.tsqPush n q.tag tx)
      | none => (bs, s.tsqPush n q.tag tx)

/-! Which frame is next (R209). -/

/-- The head of a queue: a preempted or partly sent frame's queue keeps its order. -/
def State.headOf (s : State) (lp tc : Nat) : Option QEntry :=
  s.swc.queues.find? (fun q => q.lp.val = lp && q.tc.val = tc)

/-- The length the gate check takes: of the frame as it leaves, a segment's own for a send (R209). -/
def State.headLen (s : State) (n : Fin 8) (q : QEntry) : Nat :=
  match s.storedOf q.fid with
  | none => 0
  | some st => frameLen (s.cutFrame n q st).1

/-- Whether a pause of a queue holds a frame: only frames of the data class are ever paused (R184). -/
def State.pauses (s : State) (n : Fin 8) (q : QEntry) : Bool :=
  s.eth[n].paused.getLsbD q.tc.val && (match s.storedOf q.fid with | some st => st.cls = .data | none => true)

/-- Whether a queue is preemptable: PREEMPT of the egress port's entry. -/
def State.preemptable (s : State) (n : Fin 8) (q : Nat) : Bool := bitOf (s.lpWord n.val 2) q

/-- Whether a queue's head may start now (R209, R213); in hold only the rest of a send being cut (R193). -/
def State.eligible (s : State) (n : Fin 8) (q : Nat) : Bool :=
  match s.headOf n.val q with
  | none => false
  | some h =>
    let pre := s.preemptable n q && s.pmacActive n
    (!s.inHold (.eth n) || decide (h.seg ≠ 0)) && !s.pauses n h && (s.gates8 n).testBit q &&
    (pre || s.gateHolds n q (s.wireTime n (s.headLen n h))) && !(pre && s.swc.gates[n].holdMac) &&
    !(pre && s.eth[n].pre.isSome)

/-- The highest-numbered eligible queue. -/
def State.nextQueue (s : State) (n : Fin 8) : Option Nat :=
  [7, 6, 5, 4, 3, 2, 1, 0].find? (fun q => s.eligible n q)

/-- A send starts at a port (R182): the template's counter words are read once, for all its frames. -/
def State.startSend (s : State) (n : Fin 8) (q : QEntry) (g : SegInfo) : QEntry × State :=
  let tpl := match g.template with | some t => s.tabWords (.eth n) 1 (t.val * 4) 4 | none => []
  let q' := { q with tpl := tpl }
  let s1 := s.setSwc { s.swc with queues := s.swc.queues.map (fun p => if p.lp = q.lp && p.fid = q.fid then q' else p) }
  (q', if segSkips g tpl then s1.count (ethTsoSkipCnt n.val) else s1)

/-- The head frame of a queue starts; a lost one is freed with BUF_UE (R215); one that MACsec cannot protect is dropped,
alone of its send (R191). -/
def State.startFrame (s : State) (n : Fin 8) (ph : Fin 16) (q : QEntry) (st : Stored) : State :=
  if st.bad then (s.dropAt n.val 10).dequeue q.lp q.fid
  else
    let r := match st.f.req.seg with
      | some g => if q.seg = 0 then s.startSend n q g else (q, s)
      | none => (q, s)
    let c := r.2.cutFrame n r.1 st
    let a := c.2.applyStamp n ph st (s.ptpOff n r.1 st) c.1
    let p := a.2.msecProtect n a.1
    let s1 := if q.ct && q.seg = 0 then p.2.count swcCtCnt else p.2
    match p.1 with
    | none => s1.leaveQueue q.lp q.fid (lastOf q st)
    | some line =>
      let tx : TxNow :=
        { bytes := line
          fid := q.fid
          tc := q.tc
          units := q.units
          seg := q.seg
          last := lastOf q st
          fixed := st.f.req.mode = .oneOrigin || st.f.req.mode = .oneCorr
          frags := 0 }
      s1.setEth n { s1.eth[n] with tx := some tx }

/-- The frame in transmission has left: it is counted, and its place is freed or its send goes on (R179, R210). -/
def State.finishTx (s : State) (n : Fin 8) : State :=
  match s.eth[n].tx with
  | none => s
  | some t =>
    let s0 := s.setEth n { s.eth[n] with tx := none }
    let s1 := if s.shadowPort n && be16At t.bytes 12 ≠ 0x888E then s0 else s0.sendFrame n t.bytes
    s1.leaveQueue (Fin.ofNat 22 n.val) t.fid t.last

/-- Whether the MAC may start frames of its queues: running, not a ring port (its frames leave in envelopes). -/
def State.macRuns (s : State) (n : Fin 8) : Bool := s.portRuns n && !s.ringHolds n.val

/-- Start the next eligible frame, or resume a preempted one; frames freed at their head give way to the next,
at most `fuel` of them. -/
def State.startNext : Nat → State → Fin 8 → Fin 16 → State
  | 0, s, _, _ => s
  | fuel + 1, s, n, ph =>
    match s.nextQueue n with
    | some q =>
      match s.headOf n.val q with
      | none => s
      | some h =>
        match s.storedOf h.fid with
        | none => s
        | some st =>
          let t := s.startFrame n ph h st
          if t.eth[n].tx.isSome then t else State.startNext fuel t n ph
    | none =>
      match s.eth[n].pre with
      | some x => if s.swc.gates[n].holdMac then s else s.setEth n { s.eth[n] with tx := some x, pre := none }
      | none => s

/-- Frames that the queues still hold, those of sends counted singly. -/
def State.sendsLeft (s : State) : Nat :=
  s.swc.queues.foldl (fun a q => a + (match s.storedOf q.fid with
    | some st => (match st.f.req.seg with | some g => segCount g st.f.bytes.length | none => 1)
    | none => 1)) 0

/-- A link goes down (R170, R187, R209): the frame in transmission is ended and counted, one in reception
counted, pauses end, queued frames are freed with LINK_DOWN, and a domain syntonized to the port enters
holdover (R66). -/
def State.linkFalls (s : State) (n : Fin 8) (lock receiving : Bool) : State :=
  if !s.eth[n].up then s.setRegBit (ethLink n.val) 29 (lock && serdesMode (s.ethModeOf n))
  else
    let s1 := ((s.freeWhere 6 true (fun q => q.lp.val = n.val)).endTx n true true true).count (ethLinkDownCnt n.val)
    let s2 := if receiving then s1.count (ethRxCodeCnt n.val) else s1
    let e := s2.eth[n]
    let s3 := s2.setEth n { e with up := false, paused := 0, pauseQ := Vector.replicate 8 0, pfcPend := 0 }
    (s3.setReg (ethLink n.val) (w32 (2 ^ 29 * b2n (lock && serdesMode (s.ethModeOf n)) + e.speed.val))).holdoverPort n

/-- With EN = 0, once neither direction has a frame in progress, the PCS stops and the link goes down (R193). -/
def State.restPort (s : State) (n : Fin 8) : State :=
  if !s.en (.eth n) && s.ethQuiet n && s.eth[n].up then s.linkFalls n false false else s

/-- A frame boundary of a MAC (R209): the frame in transmission has left; PFC changes go ahead of every queued
frame (R185); then the next frame starts. With `preempt`, an allowed point inside a preemptable frame instead:
it is preempted if the MAC is held or an express frame may start (R213). -/
def doFrameTransmit (n : Fin 8) (ph : Fin 16) (preempt : Bool) (s : State) : State :=
  if !s.macRuns n then s
  else
    let express := (List.range 8).any (fun q => !s.preemptable n q && s.eligible n q)
    let ready := s.swc.gates[n].holdMac || express
    let s1 := if preempt then (if ready then s.preemptNow n else s) else s.finishTx n
    if s1.eth[n].tx.isSome then s1
    else ((s1.pfcFlush n).startNext (s1.sendsLeft + 1) n ph).restPort n

/-- The meaning of FRAME_TRANSMIT. -/
def execFrameTransmit (n : Fin 8) (ph : Fin 16) (preempt : Bool) (s : State) :
    Host.Outcome State Fault Refusal :=
  commit s (doFrameTransmit n ph preempt s)

/-! The link (R168-R170, R187). -/

/-- The meaning of LINK_DOWN. -/
def execLinkDown (n : Fin 8) (lock receiving : Bool) (s : State) : Host.Outcome State Fault Refusal :=
  commit s (s.linkFalls n lock receiving)

/-- A link comes up (R168-R170, R187): a change of speed takes it down first; HD_REFUSED ends with the
full-duplex result; priorities above XOFF send XOFF before any other frame; a ring sees no loss of signal there (R240); `verified` says whether the
partner answers preemption verification (R213). -/
def doLinkUp (n : Fin 8) (speed : Fin 5) (verified : Bool) (s : State) : State :=
  let mode := s.ethModeOf n
  if !(s.en (.eth n)) || mode = 0 || s.portGated n.val || s.fenced (10 + n.val) then s
  else
    let v := s.speedFor n speed
    let clear : RingState → RingState := fun x => { x with los := setBit x.los n.val false }
    if s.eth[n].up && s.eth[n].speed = v then { s with ring := s.ring.map clear }
    else
      let s1 := if s.eth[n].up then s.linkFalls n true false else s
      let again : BitVec 8 := bitsFrom 8 (fun p => s1.pfcTxEn n p && !s1.pfcBadOf n p && !s1.ringHolds n.val &&
        decide (fieldOf (s1.reg (ethPfcXoff n.val p)) 0 19 ≤ s1.pfcUse n p))
      let e := s1.eth[n]
      let s2 := s1.setEth n { e with up := true, speed := v, hdRefused := false, xoff := e.xoff ||| again, pfcPend := again }
      let s3 := s2.setReg (ethLink n.val)
        (w32 (2 ^ 31 + 2 ^ 30 * b2n (s.anRuns n) + 2 ^ 29 * b2n (serdesMode mode) + v.val))
      let s4 := { s3 with ring := s3.ring.map clear }
      (s4.setGate n { s4.swc.gates[n] with verified := verified }).pfcFlush n

/-- The meaning of LINK_UP. -/
def execLinkUp (n : Fin 8) (speed : Fin 5) (verified : Bool) (s : State) : Host.Outcome State Fault Refusal :=
  commit s (doLinkUp n speed verified s)

/-! Receive (R174-R178, R193). -/

/-- The egress ports that send a frame cut-through while it is still being received (R207): of the ports named, those
whose decision is cut-through and whose MAC is free. -/
def State.cutPorts (s : State) (lp : Fin 22) (w : Work) (started : BitVec 8) : List (Fin 8) :=
  (List.finRange 8).filter (fun e => started.getLsbD e.val && w.mask.getLsbD e.val && s.cutThrough lp w e.val &&
    s.macRuns e && s.eth[e].tx.isNone)

/-- A cut-through frame that fails its checks is ended at a port that sends it: it has been started there, and it is
ended short (R176, R207). -/
def State.abortStarted (s : State) (w : Work) (e : Fin 8) : State :=
  ((s.count swcCtCnt).abortLine e (s.tagFor w.tagged w.vid w.pcp e.val w.f.bytes)).count (ethTxAbortCnt e.val)

/-- A frame that fails step 2 or 3 of Table ETH-3 after ports have begun it cut-through: it has been classified at its
64th byte, and every such port ends it (R176, R200, R207). Its bytes are those received. -/
def State.failStarted (s : State) (n : Fin 8) (bytes : List Byte) (ph : Fin 16) (frag : Bool) (started : BitVec 8) :
    State :=
  let lp : Fin 22 := Fin.ofNat 22 n.val
  let f : Frame := ⟨bytes, some (s.rxStamp n ph), frag, ⟨.none, 0, 0, none, none, none⟩, .wire⟩
  let p := s.routeIn lp f
  let w := { p.2 with cls := p.1.classOf lp p.2, ct := true }
  match (if p.2.code = 0 && s.swcTakes then p.1.cutPorts lp w started else []) with
  | [] => s
  | es => (es.foldl (fun t e => t.abortStarted w e) p.1).sample lp f w

/-- A received frame (R175): hold discards it (R193); then the checks of Table ETH-3 in order, each failure
counted once; fragments need PMAC_EN, and a reassembly error drops the frame (R213). `bytes` end with the FCS; `started`
are the egress ports that have begun it cut-through. -/
def doFrameReceive (n : Fin 8) (codeOk : Bool) (bytes : List Byte) (ph : Fin 16) (fragments reasmOk : Bool)
    (started : BitVec 8) (s : State) : State :=
  if !s.portRuns n then s
  else if s.inHold (.eth n) then s.count (ethRxHoldCnt n.val)
  else if !codeOk || (fragments && !bitOf (s.reg (swcPPmacCfg n.val)) 0) then s.count (ethRxCodeCnt n.val)
  else if fragments && !reasmOk then s.count (swcPReasmErrCnt n.val)
  else if s.lineMax n < bytes.length then
    (s.count (ethRxLongCnt n.val)).failStarted n (bytes.take (s.lineMax n)) ph fragments started
  else
    let body := bytes.take (bytes.length - 4)
    if bytes.length < 4 || bytes.drop (bytes.length - 4) ≠ fcsBytes body then
      (s.count (ethRxFcsCnt n.val)).failStarted n body ph fragments (if bytes.length < 64 then 0 else started)
    else if bytes.length < 64 then s.count (ethRxRuntCnt n.val)
    else s.receiveGood n body ph fragments

/-- The meaning of FRAME_RECEIVE. -/
def execFrameReceive (n : Fin 8) (codeOk : Bool) (bytes : List Byte) (ph : Fin 16) (fragments reasmOk : Bool)
    (started : BitVec 8) (s : State) : Host.Outcome State Fault Refusal :=
  commit s (doFrameReceive n codeOk bytes ph fragments reasmOk started s)

end Sys2Proof.Machine
end

