-- ==== Sys2Proof/Machine/NrgOps.lean ====
section
/-! DEFINITION. Nerund Ring (10) below its commands: ports, timing, keys and tags, headers, records, the Stanchion, and
the frames a node sends. -/

namespace Sys2Proof.Machine

/-- Replace a ring. -/
def State.setRing (s : State) (r : Fin 2) (x : RingState) : State := { s with ring := vset s.ring r x }

/-- Change a ring. -/
def State.modRing (s : State) (r : Fin 2) (f : RingState → RingState) : State := s.setRing r (f s.ring[r])

/-! Configuration (Table NRG-9). -/

def State.ringCfgWord (s : State) (r : Fin 2) : Word := s.reg (nrgRingCfg r.val)
def State.portA (s : State) (r : Fin 2) : Fin 8 := Fin.ofNat 8 (fieldOf (s.ringCfgWord r) 24 3)
def State.portB (s : State) (r : Fin 2) : Fin 8 := Fin.ofNat 8 (fieldOf (s.ringCfgWord r) 20 3)
def State.portS (s : State) (r : Fin 2) : Fin 8 := Fin.ofNat 8 (fieldOf (s.ringCfgWord r) 16 3)
def State.dualPlane (s : State) (r : Fin 2) : Bool := bitOf (s.ringCfgWord r) 29
def State.masterCap (s : State) (r : Fin 2) : Bool := bitOf (s.ringCfgWord r) 30
def State.nodeId (s : State) (r : Fin 2) : Nat := fieldOf (s.ringCfgWord r) 8 7
def State.ringId (s : State) (r : Fin 2) : Nat := fieldOf (s.ringCfgWord r) 0 8
def State.ringPeriod (s : State) (r : Fin 2) : Nat := fieldOf (s.reg (nrgRingPeriod r.val)) 0 23
def State.sendPhase (s : State) (r : Fin 2) : Nat := fieldOf (s.reg (nrgRingSendPhase r.val)) 0 23
def State.ringGuard (s : State) (r : Fin 2) : Nat := fieldOf (s.reg (nrgRingGuard r.val)) 0 10

/-- NRG_RINGr_DLY of a ring port, in 2^-8 ns. -/
def State.ringDly (s : State) (r : Fin 2) (n : Fin 8) : Nat :=
  fieldOf (s.reg (if n = s.portA r then nrgRingDlyA r.val else if n = s.portB r then nrgRingDlyB r.val
    else nrgRingDlyS r.val)) 0 20

/-- Whether this node is a hub of the ring (R253). -/
def State.isHub (s : State) (r : Fin 2) : Bool :=
  bitOf (s.reg nrgHubCfg) 31 && bitOf (s.reg nrgHubCfg) 24 = decide (r = 1)

/-- The UPLINK port of a hub. -/
def State.uplink (s : State) : Fin 8 := Fin.ofNat 8 (fieldOf (s.reg nrgHubCfg) 8 3)

/-- The leaf ports of a hub, in ascending order. -/
def State.leaves (s : State) : List (Fin 8) :=
  ((List.range 8).map (Fin.ofNat 8)).filter (fun n => bitOf (s.reg nrgHubCfg) (16 + n.val) &&
    bitOf (s.tab .nrg 3 (n.val * 4)) 31)

/-! Timing (Table NRG-8). -/

/-- A byte time of a port in ps. -/
def State.bytePs (s : State) (n : Fin 8) : Nat := 8 * psPerBit s.eth[n].speed.val

/-- The forwarding delay between two ring ports in PCLK: 200, 120 or 80 by speed, 12 more for each RGMII port. At
another speed the manual gives none: an open value (log 6). -/
def State.fwdTicks (s : State) (inn out : Fin 8) : Nat :=
  let base := match s.eth[inn].speed.val with
    | 2 => 200
    | 3 => 120
    | 4 => 80
    | _ => (Config.freeWord s.free).toNat
  base + (if s.ethModeOf inn = 4 then 12 else 0) + (if s.ethModeOf out = 4 then 12 else 0)

/-- A time in ps of PCLK as 2^-16 ns of D0. -/
def State.psCorr (s : State) (t : Nat) : Int := (t : Int) * s.incEff 0 / (2000 * 65536)

/-- PCLK ticks as 2^-16 ns of D0. -/
def State.ticksCorr (s : State) (t : Nat) : Int := s.psCorr (2000 * t)

/-- The D0 time at which byte 0 of a frame that arrives now crossed the ball: the stamp of R68 in D0. -/
def State.ringRx (s : State) (n : Fin 8) (ph : Fin 16) : DTime :=
  let lat := tenths32 ((latTenths (s.ethModeOf n) s.eth[n].speed.val).2)
  dtAdd (s.time 0) (s.phase n 0 ph - lat + sgn (s.reg (dtmPRxTrim n.val)) * 16777216)

/-- The local D0 phase in a ring's cycle, in ns (R222). -/
def State.ringPhase (s : State) (r : Fin 2) : Nat := dtNsTotal (s.time 0) % s.ringPeriod r

/-- Whether the tick in progress is the first at or after a phase of a ring's cycle, in ns, taken a count of ticks ahead
(R222, R228). -/
def State.reaches (s : State) (r : Fin 2) (phase ahead : Nat) : Bool :=
  s.atPhase 0 (s.ringPeriod r) phase ahead

/-- Whether the Benchmark node's snapshot falls after the boundary of its cycle: the send instant is at least 40 PCLK
behind it (R228). -/
def State.snapLate (s : State) (r : Fin 2) : Bool :=
  decide (40 * (s.incEff 0).toNat ≤ s.sendPhase r * 4294967296)

/-- The boundary that starts the cycle in progress, in ns of D0. -/
def State.boundaryNs (s : State) (r : Fin 2) : Nat := dtNsTotal (s.time 0) - s.ringPhase r

/-! Keys and tags (R232, Table NRG-4). -/

/-- A word of a key set of space 2. -/
def State.ringKeyWord (s : State) (r : Fin 2) (set : Bool) (w : Nat) : Word :=
  s.tab .nrg 2 ((r.val * 2 + b2n set) * 32 + w)

/-- A key of eight words, the first the most significant. -/
def State.ringKey (s : State) (r : Fin 2) (set : Bool) (w : Nat) : BitVec 256 :=
  BitVec.ofNat 256 ((List.range 8).foldl (fun a k => 2 ^ 32 * a + (s.ringKeyWord r set (w + k)).toNat) 0)

def State.keyT (s : State) (r : Fin 2) (set : Bool) : BitVec 256 := s.ringKey r set 0
def State.keyC (s : State) (r : Fin 2) (set : Bool) : BitVec 256 := s.ringKey r set 9
def State.saltT (s : State) (r : Fin 2) (set : Bool) : List Byte := toBe 4 (s.ringKeyWord r set 8).toNat
def State.saltC (s : State) (r : Fin 2) (set : Bool) : List Byte := toBe 4 (s.ringKeyWord r set 17).toNat

/-- A GMAC tag as 16 bytes: IV from its salt, number and last four bytes (Table NRG-4). -/
def gmac (key : BitVec 256) (salt : List Byte) (num : Nat) (tail data : List Byte) : List Byte :=
  toBe 16 (gcmTag key (beVec 96 (salt ++ toBe 4 (num % 2 ^ 32) ++ tail)) data []).toNat

/-- CM counts as 0 for every tag (R225). -/
def tagView (bs : List Byte) : List Byte := overwrite bs 15 [byteAt bs 15 &&& 0xFB#8]

/-- KEY_ID of a frame. -/
def frameKey (bs : List Byte) : Bool := bitOf (byteAt bs 15) 3

/-- The frame tag of a traverse frame or fragment over the bytes before it. -/
def State.frameTag (s : State) (r : Fin 2) (bs : List Byte) : List Byte :=
  let fl := (byteAt bs 15).toNat
  let b8 := 128 * (fl / 128) + fl / 32 % 4 * 32 + fl / 16 % 2 * 16 + (byteAt bs 59).toNat % 8 * 2
  let k := frameKey bs
  gmac (s.keyT r k) (s.saltT r k) (be32At bs 18) (toBe 1 b8 ++ toBe 1 (s.ringId r) ++ [byteAt bs 58, byteAt bs 53])
    (tagView bs)

/-- The TAG of a record (Table NRG-2). -/
def State.recordTag (s : State) (r : Fin 2) (key : Bool) (cyc : Nat) (win : Nat) (data : List Byte) : List Byte :=
  (gmac (s.keyT r key) (s.saltT r key) cyc (toBe 1 1 ++ toBe 1 (s.ringId r) ++ toBe 2 win) data).take 8

/-- The tag of an envelope, with FLAGS as 0x00. -/
def State.envTag (s : State) (r : Fin 2) (bs : List Byte) : List Byte :=
  let k := frameKey bs
  gmac (s.keyC r k) (s.saltC r k) (be32At bs 20) ([byteAt bs 17, byteAt bs 16] ++ slice bs 18 2) (overwrite bs 15 [0])

/-- The tag of a claim over its bytes 0-37. -/
def State.claimTag (s : State) (r : Fin 2) (bs : List Byte) : List Byte :=
  let k := frameKey bs
  gmac (s.keyC r k) (s.saltC r k) (be32At bs 34) ([0xFF#8, byteAt bs 16] ++ slice bs 24 2)
    (tagView (slice bs 0 38))

/-- The tag of a plane beacon over its bytes 0-27. -/
def State.beaconTag (s : State) (r : Fin 2) (bs : List Byte) : List Byte :=
  let k := frameKey bs
  gmac (s.keyC r k) (s.saltC r k) (be32At bs 18) ([0xFE#8, byteAt bs 16, byteAt bs 17, 0])
    (tagView (slice bs 0 28))

/-! Headers (Table NRG-1). -/

/-- The first 14 bytes of every ring frame a port sends. -/
def State.ringAddr (s : State) (r : Fin 2) (n : Fin 8) : List Byte :=
  [0x03#8, 0x4E, 0x52, 0x47, 0x00] ++ toBe 1 (s.ringId r) ++ s.portAddr n ++ toBe 2 (fieldOf (s.reg nrgEtype) 0 16)

/-- The header of a copy the Benchmark node sends in the cycle in progress (R222-R224). -/
def State.bmHeader (s : State) (r : Fin 2) (out : Fin 8) (copyB star : Bool) : List Byte :=
  let x := s.ring[r]
  let t := s.boundaryNs r + s.sendPhase r
  s.ringAddr r out ++ [0x11#8] ++ toBe 1 (128 * b2n copyB + b2n x.keyUsed * 8 + b2n star * 2) ++
    toBe 1 (s.ringId r) ++ toBe 1 (fieldOf (s.reg (nrgRingNodes r.val)) 0 8) ++ toBe 4 x.cycNow.toNat ++
    toBe 4 (s.ringPeriod r) ++ toBe 4 (s.sendPhase r) ++ toBe 6 (t / 1000000000) ++ toBe 4 (t % 1000000000) ++
    toBe 8 0 ++ toBe 2 (s.ringLen r.val) ++ toBe 2 0 ++ toBe 1 (x.ann.1.toNat * 64) ++ [0xFF#8] ++
    toBe 4 x.ann.2.toNat ++ toBe 1 (s.nodeId r) ++ [0x00#8] ++ toBe 4 0

/-- CORR of a header. -/
def hdrCorr (h : List Byte) : Int := (BitVec.ofNat 64 (beNat (slice h 40 8))).toInt

/-- Put CORR into a header. -/
def putCorr (h : List Byte) (c : Int) : List Byte := overwrite h 40 (toBe 8 (BitVec.ofInt 64 c).toNat)

/-- TURNS of a header. -/
def hdrTurns (h : List Byte) : Nat := (byteAt h 15).toNat / 32 % 4

/-- COPY of a header: B. -/
def hdrCopy (h : List Byte) : Bool := bitOf (byteAt h 15) 7

/-- BM_FWD of a header. -/
def hdrFwd (h : List Byte) : Bool := bitOf (byteAt h 15) 4

/-- Whether bytes begin a traverse frame or fragment of this ring. -/
def State.isPass (s : State) (r : Fin 2) (bs : List Byte) : Bool :=
  decide (64 ≤ bs.length) && (byteAt bs 14 = 0x11#8 || byteAt bs 14 = 0x12#8) &&
  (byteAt bs 16).toNat = s.ringId r

/-- Whether a pass is a fragment. -/
def isFrag (bs : List Byte) : Bool := byteAt bs 14 = 0x12#8

/-- The frame offset of the first area byte a pass carries. -/
def areaStart (bs : List Byte) : Nat := if isFrag bs then be16At bs 50 else 64

/-- The area bytes of a pass as received, at most those of its LEN. -/
def areaOf (bs : List Byte) : List Byte := (bs.drop 64).take (64 + be16At bs 48 - areaStart bs)

/-! Frames out. -/

/-- Bytes leave a port: with their FCS, or, where the frame came broken, ended with the abort sequence (R225). -/
def State.ringRelay (s : State) (n : Fin 8) (bs : List Byte) (whole : Bool) : State :=
  if whole then s.emit (.frame n (bs ++ fcsBytes bs)) else s.emit (.ringAbort n bs)

/-- The fresh tag of a pass, complemented where the incoming tag failed; of a pass that ended within its tag, as many
bytes as came (R233). -/
def State.outTag (s : State) (r : Fin 2) (bs : List Byte) (tagOk : Bool) (came : Nat) : List Byte :=
  let t := s.frameTag r bs
  (if tagOk then t else t.map (fun b => ~~~b)).take came

/-- A pass leaves a port with its fresh tag (R225, R233). -/
def State.ringOut (s : State) (r : Fin 2) (n : Fin 8) (bs : List Byte) (tagOk : Bool) (came : Nat) (whole : Bool) :
    State :=
  s.ringRelay n (bs ++ s.outTag r bs tagOk came) whole

/-! Deposits (R226, R230). -/

/-- The engine entries that serve a window in a direction: role, engine, entry. -/
def State.winEntries (s : State) (r : Fin 2) (dir : Bool) (win : Nat) : List (Fin 10 × Fin 10 × Nat) :=
  (((List.range 10).map (Fin.ofNat 10)).map (fun role =>
    match s.engOf role with
    | none => []
    | some e => (s.fwuFind e dir r.val win).map (fun k => (role, e, k)))).flatten

/-- A TAG that fails is shown to the readers and counted (R230). -/
def State.winAuthFail (s : State) (r : Fin 2) (win : Nat) : State :=
  let s1 := s.count (nrgRingWauthCnt r.val)
  (s1.winEntries r false win).foldl (fun t p =>
    t.setTab (.pec p.2.1) 3 (p.2.2 * 4 + 3) (setBit (t.fwuWord p.2.1 p.2.2 3) 29 true)) s1

/-- Deposit a verified record into the staging of its readers; a closed gate discards it (R155, R230). -/
def State.winDeposit (s : State) (r : Fin 2) (win : Nat) (rec : List Byte) (n : Nat) : State :=
  (s.winEntries r false win).foldl (fun t p =>
    if t.gateOpen p.1 then
      let t1 := t.stagingWrite p.2.1 (t.fwuStage p.2.1 p.2.2) (slice rec 1 n)
      let t2 := t1.setTab (.pec p.2.1) 3 (p.2.2 * 4 + 3) ((byteAt rec 0).setWidth 32)
      ((t2.setFresh p.2.1 p.2.2).modRing r (fun x => { x with got := win :: x.got })).sgmMark 3
        (fun a _ => fieldOf a 16 4 = p.1.val && fieldOf a 8 6 = p.2.2)
    else t.count (nrgRingWlateCnt r.val)) s

/-! The merged image (R229, R231). -/

/-- A byte of the image, by frame offset. -/
def imageByte (x : RingState) (o : Nat) : Byte := amGet (fun _ => (0 : BitVec 8)) x.image o

/-- n bytes of the image. -/
def imageSlice (x : RingState) (o n : Nat) : List Byte := (List.range n).map (fun k => imageByte x (o + k))

/-- Write bytes into the image. -/
def imagePut (x : RingState) (o : Nat) (bs : List Byte) : RingState :=
  { x with image := (bs.zipIdx).foldl (fun m p => amPut (fun _ => (0 : BitVec 8)) m (o + p.2) p.1) x.image }

/-- The merge entry of a window (Table NRG-11). -/
def State.mergeWord (s : State) (r : Fin 2) (win : Nat) : Word := s.tab .nrg 1 (1024 * r.val + win)

/-- The Benchmark node takes a qualifying source: the first is merged, a later one that differs counts (R231). -/
def State.winMerge (s : State) (r : Fin 2) (w : RingWin) (rec : List Byte) (copyB joined frag : Bool) : State :=
  if bitOf (s.mergeWord r w.win) 31 then
    if imageSlice s.ring[r] w.off w.size = rec then s else s.count (nrgRingMismatchCnt r.val)
  else
    let v := 2 ^ 31 + 2 ^ 30 * b2n copyB + 2 ^ 29 * b2n joined + 2 ^ 28 * b2n frag + (byteAt rec 0).toNat % 16
    (s.modRing r (fun x => imagePut x w.off rec)).setTab .nrg 1 (1024 * r.val + w.win) (w32 v)

/-- The cycle's account at the next boundary: windows of other writers without a source are missed and age, the
others stand at AGE 0 (R231). -/
def State.mergeClose (s : State) (r : Fin 2) : State :=
  (s.ringWins r.val).foldl (fun t w =>
    if w.writer = t.nodeId r then t
    else
      let v := t.mergeWord r w.win
      if bitOf v 31 then t.setTab .nrg 1 (1024 * r.val + w.win) (setBit v 31 false)
      else
        let age := fieldOf v 24 4
        (t.setTab .nrg 1 (1024 * r.val + w.win) (setField v 24 4 (if age < 15 then age + 1 else 15))).count
          (nrgRingWmissCnt r.val)) s

/-! Records of a pass (R230, R238). -/

/-- The bytes of a record that a pass carries whole. -/
def recOf (start : Nat) (area : List Byte) (w : RingWin) : Option (List Byte) :=
  if start ≤ w.off ∧ w.off + w.size ≤ start + area.length then some (slice area (w.off - start) w.size) else none

/-- Key of a joined byte. -/
def joinKey (copyB : Bool) (o : Nat) : Nat := 65536 * b2n copyB + o

/-- The area bytes of a pass are kept by frame offset (R238). -/
def joinAdd (x : RingState) (copyB : Bool) (start : Nat) (area : List Byte) : RingState :=
  { x with joins := (area.zipIdx).foldl (fun m p =>
      if (amFind m (joinKey copyB (start + p.2))).isSome then m
      else amInsert m (joinKey copyB (start + p.2)) p.1) x.joins }

/-- A record joined from the bytes of one copy, if all have come. -/
def joinRec (x : RingState) (copyB : Bool) (w : RingWin) : Option (List Byte) :=
  let bs := (List.range w.size).map (fun k => amFind x.joins (joinKey copyB (w.off + k)))
  if bs.all (fun b => b.isSome) then some (bs.map (fun b => b.getD 0)) else none

/-- Whether a record is VALID in the cycle of its header (R230). -/
def recFresh (rec : List Byte) (cyc : Nat) : Bool := bitOf (byteAt rec 0) 7 && (byteAt rec 0).toNat % 16 = cyc % 16

/-- Whether a node merges: the Benchmark node, and the SHADOW of one (R231, R412). -/
def RingState.merging (x : RingState) : Bool := x.nst = .benchmark || x.pair

/-- Whether a node merges a window from a pass of a cycle: a record of another writer, in the cycle in progress. -/
def State.merges (s : State) (r : Fin 2) (w : RingWin) (cyc : Nat) : Bool :=
  s.ring[r].merging && w.writer ≠ s.nodeId r && s.ring[r].cycNow.toNat = cyc

/-- One source of a window that this node reads or merges: verified, then merged, and deposited (R230, R231). -/
def State.winSource (s : State) (r : Fin 2) (h : List Byte) (w : RingWin) (rec : List Byte) (joined : Bool) : State :=
  let cyc := be32At h 18
  let merges := s.merges r w cyc
  if !recFresh rec cyc || !(w.read || merges) then s
  else if s.recordTag r (frameKey h) cyc w.win (rec.take (w.n + 1)) ≠ rec.drop (w.n + 1) then s.winAuthFail r w.win
  else
    let s1 := if merges then s.winMerge r w rec (hdrCopy h) joined (isFrag h) else s
    if w.read && !s1.ring[r].got.contains w.win then s1.winDeposit r w.win rec w.n else s1

/-- Every window of a pass: records it carries whole, and records it completes by a join (R238). -/
def State.winSources (s : State) (r : Fin 2) (bs : List Byte) : State :=
  let start := areaStart bs
  let area := areaOf bs
  let copyB := hdrCopy bs
  let x0 := s.ring[r]
  let s1 := s.setRing r (joinAdd x0 copyB start area)
  (s1.ringWins r.val).foldl (fun t w =>
    match recOf start area w with
    | some rec => t.winSource r bs w rec false
    | none =>
      match joinRec x0 copyB w, joinRec t.ring[r] copyB w with
      | none, some rec => t.winSource r bs w rec true
      | _, _ => t) s1

/-! Own records (R228, R242, R243). -/

/-- The snapshot of a write window, from the first instance with an open gate that serves it. -/
def State.snapOf (s : State) (r : Fin 2) (key : Bool) (cyc : Nat) (q : StnRec) : Option Snapshot :=
  ((s.winEntries r true q.win).filterMap (fun p =>
    if s.gateOpen p.1 then
      match s.stagingRead p.2.1 (s.fwuStage p.2.1 p.2.2) q.n with
      | some d =>
        let body := toBe 1 (128 + cyc % 16) ++ d
        some (⟨q.win, p.1, body ++ s.recordTag r key cyc q.win body⟩ : Snapshot)
      | none => none
    else none)).head?

/-- The snapshots of every write window of the node for a cycle. -/
def State.takeSnaps (s : State) (r : Fin 2) (key : Bool) (cyc : Nat) : List Snapshot :=
  s.ring[r].recs.filterMap (fun q => s.snapOf r key cyc q)

/-- Place bytes at a frame offset into the part of an area that a pass carries. -/
def areaPut (start : Nat) (area : List Byte) (o : Nat) (bs : List Byte) : List Byte :=
  if o < start then overwrite area 0 ((bs.drop (start - o)).take area.length)
  else if o - start < area.length then overwrite area (o - start) (bs.take (area.length - (o - start)))
  else area

/-- VALID of a record in an area is sent as 0. -/
def areaInvalid (start : Nat) (area : List Byte) (o : Nat) : List Byte :=
  if start ≤ o ∧ o < start + area.length then overwrite area (o - start) [byteAt area (o - start) &&& 0x7F#8] else area

/-- Whether a record has a byte in the part of the area carried. -/
def recTouches (start : Nat) (area : List Byte) (o size : Nat) : Bool :=
  decide (start < o + size) && decide (o < start + area.length)

/-- Whether a record of an area stands placed by the twin: the devices are PAIRED and its STATUS arrives VALID in the
cycle of the pass (R412). -/
def State.twinPlaced (s : State) (cyc start : Nat) (area : List Byte) (off : Nat) : Bool :=
  s.flt.twin = .paired && decide (start ≤ off) && decide (off < start + area.length) &&
  recFresh [byteAt area (off - start)] cyc

/-- The node's own records in the area of a pass: placed while the Stanchion is ACTIVE and the block not in hold;
without a snapshot or with the gate closed sent with VALID = 0; in every other state passed bit-exact, a placement
being blocked and counted (R228, R243); passed bit-exact, uncounted, where the twin placed them (R412). -/
def State.placeOwn (s : State) (r : Fin 2) (cyc start : Nat) (area : List Byte) : List Byte × State :=
  let x := s.ring[r]
  let runs := x.stn = .active && !s.inHold .nrg
  x.recs.foldl (fun (p : List Byte × State) q =>
    if !recTouches start area q.off (q.n + 9) || s.twinPlaced cyc start area q.off then p
    else
      match (x.snaps.getD []).find? (fun v => v.win = q.win) with
      | some v =>
        if !p.2.gateOpen v.role then (if runs then (areaInvalid start p.1 q.off, p.2) else p)
        else if runs then (areaPut start p.1 q.off v.bytes, p.2)
        else (p.1, p.2.count (nrgRingBlockCnt r.val))
      | none => if runs then (areaInvalid start p.1 q.off, p.2) else p) (area, s)

/-! The Stanchion's measurements (R245). -/

/-- Enter LISTEN_ONLY: counted, the cut history cleared (Table NRG-5). -/
def State.listenOnly (s : State) (r : Fin 2) : State :=
  (s.modRing r (fun x => { x with stn := .listenOnly, good := 0, bad := 0, cuts := [] })).count (nrgRingListenCnt r.val)

/-- A measured offset, in 2^-32 ns. -/
def State.stnMeasure (s : State) (r : Fin 2) (off : Int) : State :=
  let sat := clampInt (-2147483648) 2147483647 (off / 16777216)
  let s1 := s.setReg (nrgRingOffset r.val) (BitVec.ofInt 32 sat)
  let x := s1.ring[r]
  let within := decide (2 * off.natAbs ≤ 4294967296 * s1.ringGuard r)
  let y := if within then { x with good := x.good + 1, bad := 0 } else { x with good := 0, bad := x.bad + 1 }
  let s2 := s1.setRing r y
  match y.stn with
  | .active => if 2 ≤ y.bad then s2.listenOnly r else s2
  | .sync => if 8 ≤ y.good then s2.setRing r { y with stn := .active } else s2
  | .listenOnly => if 8 ≤ y.good then s2.setRing r { y with stn := .active } else s2
  | _ => s2

/-- The offset of a pass: its receive stamp less TSEND, CORR and the delay of the arrival port. -/
def State.passOffset (s : State) (r : Fin 2) (n : Fin 8) (h : List Byte) (ph : Fin 16) : Int :=
  let tsend : Int := (4294967296 * (1000000000 * beNat (slice h 30 6) + be32At h 36) : Nat)
  (dtVal (s.ringRx n ph) : Int) - (tsend + 65536 * hdrCorr h + (16777216 * s.ringDly r n : Nat))

/-! Verified headers (R233, R240, R250, R255). -/

/-- Whether a header was sent by the partner of this SHADOW: its SA is that of one of the pair's ring ports (R411). -/
def State.fromPartner (s : State) (r : Fin 2) (h : List Byte) : Bool :=
  s.shadowed && (s.ringPorts r.val).any (fun p => slice h 6 6 = s.portAddr (Fin.ofNat 8 p))

/-- What a verified header tells a node: the cycle, the topology to come, the Benchmark node where it names itself
(log 35); on a traverse frame a node that is not BENCHMARK becomes MEMBER (R250). -/
def State.headerSeen (s : State) (r : Fin 2) (h : List Byte) : State :=
  let cyc := be32At h 18
  let s1 := s.setReg (nrgRingCyc r.val) (w32 cyc)
  let whole := !isFrag h
  let pair := s.fromPartner r h
  s1.modRing r (fun x =>
    let y := { x with
      seen := x.seen || whole
      noHdr := if whole then 0 else x.noHdr
      heard := if whole then s.clk.tick else x.heard
      bm := if byteAt h 59 = 4#8 then some ((byteAt h 58).setWidth 7)
        else if pair then some (BitVec.ofNat 7 (s.nodeId r))
        else x.bm }
    if x.nst = .benchmark then y
    else { y with
      nst := if whole then .member else x.nst
      pair := pair
      cycNow := w32 cyc
      keyUsed := frameKey h
      topoNext := some ((byteAt h 52).extractLsb' 6 2, w32 (be32At h 54)) })

/-- What the Benchmark node keeps of a verified pass: turned passes by ORIGIN, the looped announcement, and the two
copies with HEAL_READY that close the ring two cycles on (R240). -/
def State.bmSeen (s : State) (r : Fin 2) (h : List Byte) : State :=
  s.modRing r (fun x =>
    let o := byteAt h 53
    if o = 0xFF#8 then x
    else
      let origins := if x.origins.contains o then x.origins else o :: x.origins
      let heal := if bitOf (byteAt h 15) 0 then setBit x.heal (b2n (hdrCopy h)) true else x.heal
      let ann := if heal = 3 ∧ x.ann.1 = 1 then (0, x.cycNow + 2)
        else if x.ann.1 = 0 && decide (heal = 0) then (1, x.cycNow)
        else x.ann
      { x with origins := origins, heal := heal, ann := ann })

/-- The bits of ring ports that a pass cannot go out of: LOS declared and not recovered, or LOOPED (R235, R240). -/
def State.deadPort (s : State) (r : Fin 2) (n : Fin 8) : Bool :=
  s.ring[r].los.getLsbD n.val || s.ring[r].looped.getLsbD n.val

/-- Whether a looped port may be used again: HEAL consecutive good boundaries (R240). -/
def State.healReady (s : State) (r : Fin 2) (n : Fin 8) : Bool :=
  let x := s.ring[r]
  x.looped.getLsbD n.val &&
    decide (fieldOf (s.reg (nrgRingHeal r.val)) 0 8 ≤ (if n = s.portA r then x.healA else x.healB))

/-! Own envelopes (R244, R248). -/

/-- The copy of an own envelope at a port takes its leave: the ring keeps the others. -/
def RingState.dropCopy (x : RingState) (n : Fin 8) : RingState :=
  { x with env := match x.env with
      | some e =>
        let rest := e.copies.filter (fun c => c.1 ≠ n)
        if rest = [] then none else some { e with copies := rest }
      | none => none }

/-- A frame for forwarding reaches a ring port a count of ticks from now (R248): an own envelope still in transmission
there is cut at that instant, and the frame waits for the abort sequence and 12 byte times; the wait, in ps. -/
def State.deferOwn (s : State) (r : Fin 2) (n : Fin 8) (ticks : Nat) : Nat × State :=
  match s.ring[r].env with
  | none => (0, s)
  | some e =>
    match e.copies.find? (fun c => c.1 = n) with
    | none => (0, s)
    | some c =>
      let sent := 2000 * (s.clk.tick + ticks - e.tick) / s.bytePs n
      let s1 := s.modRing r (fun x => x.dropCopy n)
      if 8 + frameLen c.2 ≤ sent then (0, s1.ringRelay n c.2 true)
      else (17 * s.bytePs n, (s1.ringRelay n (c.2.take (sent - 8)) false).count (nrgRingDeferCnt r.val))

/-- The rest of an own envelope leaves: it is complete. -/
def State.envDone (s : State) (r : Fin 2) : State :=
  match s.ring[r].env with
  | none => s
  | some e =>
    let s1 := e.copies.foldl (fun t c => t.ringRelay c.1 c.2 true) s
    s1.modRing r (fun x => { x with env := none })

/-- The frame bytes that leave before the abort sequence of a cut, for a transmission that started at a local phase
`start` (ps), up to `stop` (ps), with byte times of `bt` ps: 8 byte times of preamble go before the frame, 5 of the
abort sequence after it (R244). -/
def cutLen (start stop bt : Nat) : Nat := (stop - 5 * bt - start) / bt - 8

/-- A cut in a cycle joins those of the 1,000 cycles that end with it (R244). -/
def cutHist (bnd : Nat) (cuts : List Nat) : List Nat := bnd :: cuts.filter (fun b => decide (bnd < b + 1000))

/-- The own envelope in transmission is cut at the end of the enabled span; the third cut within 1,000 cycles sends
the Stanchion to LISTEN_ONLY (R244). -/
def State.envCut (s : State) (r : Fin 2) : State :=
  match s.ring[r].env with
  | none => s
  | some e =>
    let stop := 1000 * (s.ring[r].slotEnd + s.ringGuard r)
    let s1 := e.copies.foldl (fun t c => t.ringRelay c.1 (c.2.take (cutLen e.start stop (s.bytePs c.1))) false) s
    let s2 := s1.count (nrgRingCutCnt r.val)
    let x := s2.ring[r]
    let cuts := cutHist x.bnd x.cuts
    let s3 := s2.setRing r { x with env := none, cuts := cuts }
    if 3 ≤ cuts.length && x.stn = .active then s3.listenOnly r else s3

/-! Start and stop (R242, R258). -/

/-- The write records of a node, as a Stanchion loads them. -/
def State.recsOf (s : State) (r : Fin 2) (writer : Nat) : List StnRec :=
  ((s.ringWins r.val).filter (fun w => w.writer = writer)).map (fun w => ⟨w.win, w.off, w.n⟩)

/-- The Stanchion a hub loads for a leaf port: its records by WRITER, its slot of space 3 (R253). -/
def State.leafLoad (s : State) (r : Fin 2) (n : Fin 8) : LeafStn :=
  if s.isHub r && s.leaves.contains n then
    { LeafStn.reset with
      stn := .sync
      recs := s.recsOf r (fieldOf (s.tab .nrg 3 (n.val * 4)) 0 7)
      slotStart := (s.tab .nrg 3 (n.val * 4 + 1)).toNat
      slotEnd := (s.tab .nrg 3 (n.val * 4 + 2)).toNat }
  else LeafStn.reset

/-- A ring as EN = 1 starts it; a FAILED Stanchion stays so to the next cold start. -/
def State.ringStart (s : State) (r : Fin 2) : State :=
  let failed := s.ring[r].stn = .failed
  let base : RingState := { RingState.reset with
    heard := s.clk.tick
    leaf := Vector.ofFn (fun n => s.leafLoad r n) }
  if s.ringEn r.val && !s.ringCfgBad r.val then
    s.setRing r { base with
      nst := .listen
      stn := if failed then .failed else .sync
      recs := s.recsOf r (s.nodeId r)
      slotStart := fieldOf (s.reg (nrgRingSlotStart r.val)) 0 23
      slotEnd := fieldOf (s.reg (nrgRingSlotEnd r.val)) 0 23
      aseq := s.ring[r].aseq
      claimSeq := s.ring[r].claimSeq
      keyUsed := bitOf (s.reg (nrgRingKeysel r.val)) 0 }
  else s.setRing r { base with stn := if failed then .failed else .off }

/-- A ring as EN = 0 leaves it. -/
def State.ringStop (s : State) (r : Fin 2) : State :=
  let x := s.ring[r]
  let s1 := s.envDone r
  s1.setRing r { RingState.reset with
    stn := if x.stn = .failed then .failed else .off
    aseq := x.aseq
    claimSeq := x.claimSeq }

/-- A ring with EN = 1 follows its configuration: DISABLED while RING_EN = 0 or CFG_BAD reads 1, else running
(R221, R258). -/
def State.ringCheck (s : State) (r : Fin 2) : State :=
  let able := s.ringEn r.val && !s.ringCfgBad r.val
  if !s.en .nrg then s
  else if able && s.ring[r].nst = .disabled then s.ringStart r
  else if !able && s.ring[r].nst ≠ .disabled then s.ringStop r
  else s

/-- Both rings follow their configuration. -/
def State.ringsCheck (s : State) : State := (s.ringCheck 0).ringCheck 1

/-! CFG_HASH and claims (R250, R251). -/

/-- The byte string under CFG_HASH. -/
def State.hashBytes (s : State) (r : Fin 2) : List Byte :=
  toBe 4 (s.ringPeriod r) ++ toBe 1 (fieldOf (s.reg (nrgRingNodes r.val)) 0 8) ++ toBe 2 (s.ringGuard r) ++
    ((s.ringWins r.val).map (fun w => toBe 2 w.win ++ toBe 1 w.writer ++ toBe 2 w.off ++ toBe 2 w.n)).flatten

/-- NRG_RINGr_CFG_HASH. -/
def State.cfgHash (s : State) (r : Fin 2) : Word := crc32c (s.hashBytes r)

/-- The EUI-64 of the device. -/
def State.eui64 (s : State) : Nat := 4294967296 * (s.reg glbEui64Hi).toNat + (s.reg glbEui64Lo).toNat

/-- The value of a claim (R251). -/
def claimVal (prio eui : Nat) : Nat := 2 ^ 64 * prio + eui

/-- This node's value. -/
def State.ownVal (s : State) (r : Fin 2) : Nat := claimVal (fieldOf (s.reg (nrgRingClaim r.val)) 0 8) s.eui64

/-- The claim this node sends out of a port (Table NRG-6). -/
def State.claimFrame (s : State) (r : Fin 2) (n : Fin 8) : List Byte :=
  let x := s.ring[r]
  let body := s.ringAddr r n ++ [0x13#8] ++ toBe 1 (b2n (bitOf (s.reg (nrgRingKeysel r.val)) 0) * 8) ++
    toBe 1 (s.ringId r) ++ toBe 1 (fieldOf (s.reg (nrgRingClaim r.val)) 0 8) ++ toBe 8 s.eui64 ++
    toBe 4 (s.ringPeriod r) ++ toBe 4 (s.cfgHash r).toNat ++ toBe 4 x.claimSeq.toNat
  padFrame (body ++ s.claimTag r body)

/-- A plane beacon out of a port (R246, R255, R256; byte 27 is 0, log 35). -/
def State.beaconFrame (s : State) (r : Fin 2) (n : Fin 8) (failed : Bool) : List Byte :=
  let x := s.ring[r]
  let body := s.ringAddr r n ++ [0x15#8] ++ toBe 1 (b2n x.keyUsed * 8 + b2n failed) ++ toBe 1 (s.ringId r) ++
    toBe 1 (s.nodeId r) ++ toBe 4 x.cycNow.toNat ++ toBe 1 (x.ann.1.toNat * 64) ++ toBe 4 x.ann.2.toNat ++ [0x00#8]
  padFrame (body ++ s.beaconTag r body)

/-- NRG_RINGr_STATE (Table NRG-9). -/
def State.ringStateWord (s : State) (r : Fin 2) : Word :=
  let x := s.ring[r]
  let ns := match x.nst with
    | .disabled => 0
    | .listen => 1
    | .claiming => 2
    | .benchmark => 3
    | .member => 4
  let st := match x.stn with
    | .sync => 0
    | .active => 1
    | .listenOnly => 2
    | .failed => 3
    | .off => 4
  let link : Fin 8 → Bool := fun n => s.ringEn r.val && s.eth[n].up
  w32 (2 ^ 29 * ns + 2 ^ 26 * st + 2 ^ 24 * x.topo.toNat + 2 ^ 23 * b2n (x.looped.getLsbD (s.portA r).val) +
    2 ^ 22 * b2n (x.looped.getLsbD (s.portB r).val) + 2 ^ 21 * b2n (link (s.portA r)) + 2 ^ 20 * b2n (link (s.portB r)) +
    2 ^ 19 * b2n (s.dualPlane r && link (s.portS r)) + 2 ^ 18 * b2n x.keyUsed + 2 ^ 15 * b2n x.bm.isSome +
    256 * (x.bm.getD 0).toNat)

end Sys2Proof.Machine
end

