-- ==== Sys2Proof/Machine/Nrg.lean ====
section
/-! DEFINITION. The commands of the Nerund Ring (10): cycle boundaries, passes, breaks and fragments, the Stanchion,
envelopes, claims, beacons. -/

namespace Sys2Proof.Machine

/-! Passes (R223-R236, R243, R245). -/

/-- What a node changes in the header of a pass it sends on (R225). -/
structure HdrEdit where
  turn : Bool
  fwd : Bool
  emitPass : Nat
  frag : Option Nat
  corr : Int
  heal : Bool
deriving DecidableEq, Repr

/-- The header a node sends a pass on with. -/
def State.editHeader (s : State) (r : Fin 2) (h : List Byte) (e : HdrEdit) : List Byte :=
  let fl := byteAt h 15
  let fl1 := if e.turn then setField fl 5 2 (fieldOf fl 5 2 + 1) else fl
  let fl2 := if e.fwd then setBit fl1 4 true else fl1
  let origin := if (e.turn && byteAt h 53 = 0xFF#8) then BitVec.ofNat 8 (s.nodeId r) else byteAt h 53
  let fl3 := if e.heal && origin.toNat = s.nodeId r then setBit fl2 0 true else fl2
  let h1 := overwrite (putCorr h e.corr) 15 [fl3]
  let h2 := overwrite h1 53 [origin]
  let h3 := overwrite h2 58 [BitVec.ofNat 8 (s.nodeId r), BitVec.ofNat 8 e.emitPass]
  match e.frag with
  | some off => overwrite (overwrite h3 14 [0x12#8]) 50 (toBe 2 off)
  | none => h3

/-- CORR as a pass stands when it reaches this node: with the segment's delay (R225). -/
def State.corrIn (s : State) (r : Fin 2) (n : Fin 8) (h : List Byte) : Int := hdrCorr h + (256 * s.ringDly r n : Nat)

/-- Where a pass goes: the port, the ticks to it, whether it turns, BM_FWD, EMIT_PASS; none: it ends here. -/
structure PassRoute where
  out : Fin 8
  ticks : Nat
  turn : Bool
  fwd : Bool
  emitPass : Nat
deriving DecidableEq, Repr

/-- The other ring port. -/
def State.onward (s : State) (r : Fin 2) (n : Fin 8) : Fin 8 := if n = s.portA r then s.portB r else s.portA r

/-- The route of a pass at a node (R223, R235, R236, R240, R254). -/
def State.passRoute (s : State) (r : Fin 2) (n : Fin 8) (h : List Byte) : Option PassRoute :=
  let bm := s.ring[r].nst = .benchmark
  let out := s.onward r n
  if s.dualPlane r && n = s.portS r then
    if bm then none else some ⟨n, 2 * s.fwdTicks n n, false, false, 1⟩
  else if bm then
    if hdrTurns h = 0 || hdrFwd h then none else some ⟨out, s.fwdTicks n out, false, true, 4⟩
  else if s.deadPort r out then some ⟨n, 2 * s.fwdTicks n out, true, false, 1⟩
  else some ⟨out, s.fwdTicks n out, false, false, if isFrag h then 3 else 0⟩

/-- How many bytes of a pass's tag came. -/
def tagCame (bs : List Byte) : Nat :=
  if areaStart bs + (areaOf bs).length = 64 + be16At bs 48 then ((bs.drop (64 + (areaOf bs).length)).take 16).length else 0

/-- Whether a pass is verified: its tag came whole and agrees (R233). -/
def State.passTag (s : State) (r : Fin 2) (bs : List Byte) : Bool :=
  let len := 64 + (areaOf bs).length
  decide (tagCame bs = 16) && s.frameTag r (bs.take len) = (bs.drop len).take 16

/-- A pass that came broken counts, and so does one whose tag came and fails (R225, R233). -/
def State.passCounts (s : State) (r : Fin 2) (bs : List Byte) (ok : Bool) : State :=
  let s0 := if ok then s else s.count (nrgRingAbortCnt r.val)
  if tagCame bs = 16 && !s.passTag r bs then s0.count (nrgRingFauthCnt r.val) else s0

/-- A pass goes on, behind an own envelope it cuts: its header edited, its area as written here, kept for a fragment
(R225, R233, R237, R248). -/
def State.passOn (s : State) (r : Fin 2) (n : Fin 8) (bs area : List Byte) (ok : Bool) (q : PassRoute) : State :=
  let h := bs.take 64
  let corr := s.corrIn r n h
  let d := s.deferOwn r q.out q.ticks
  let e : HdrEdit :=
    { turn := q.turn
      fwd := q.fwd
      emitPass := q.emitPass
      frag := none
      corr := corr + s.psCorr (2000 * q.ticks + d.1)
      heal := q.turn && s.healReady r (s.onward r n) }
  let tagOk := s.passTag r bs
  let s1 := d.2.ringOut r q.out (s.editHeader r h e ++ area) tagOk (tagCame bs) ok
  let s2 := if q.turn then s1.count (nrgRingTurnCnt r.val) else s1
  let kept : PassSent :=
    ⟨q.out, n, h, corr, area, tagOk, tagCame bs, ok, s.clk.tick, 2000 * (s.clk.tick + q.ticks) + d.1⟩
  s2.modRing r (fun x => { x with sent := x.sent ++ [kept] })

/-- What a verified pass brings a node at its end: a measurement, its header's news, and what the Benchmark node keeps
of it. -/
def State.verified (s : State) (r : Fin 2) (n : Fin 8) (bs : List Byte) (off : Int) : State :=
  let t := (s.stnMeasure r off).headerSeen r bs
  if t.ring[r].nst = .benchmark then t.bmSeen r bs else t

/-- The first pass of a cycle at an ordinary node takes the snapshots (R228). -/
def State.firstPass (s : State) (r : Fin 2) (bs : List Byte) : State :=
  if s.ring[r].nst ≠ .benchmark && s.ring[r].snaps.isNone then
    let v := s.takeSnaps r (frameKey bs) (be32At bs 18)
    s.modRing r (fun x => { x with snaps := some v })
  else s

/-- A pass at a node of the ring: read and written as it passes; its header is used once it is verified, at its end. -/
def State.nodePass (s : State) (r : Fin 2) (n : Fin 8) (bs : List Byte) (ok : Bool) (ph : Fin 16) : State :=
  let s1 := (((s.passCounts r bs ok).firstPass r bs).winSources r bs)
  let p := s1.placeOwn r (be32At bs 18) (areaStart bs) (areaOf bs)
  let s2 := match p.2.passRoute r n bs with
    | none => p.2
    | some q => p.2.passOn r n bs p.1 ok q
  if s.passTag r bs then s2.verified r n bs (s.passOffset r n bs ph) else s2

/-! The star plane at a hub (R253, R254). -/

/-- The area a hub takes from a leaf: the leaf's own records from it, every other byte as the hub sent it. -/
def State.hubArea (s : State) (r : Fin 2) (leaf : Fin 8) (start : Nat) (sent got : List Byte) : List Byte :=
  let own := s.ring[r].leaf[leaf].recs
  ((sent.take got.length).zipIdx).map (fun p =>
    let o := start + p.2
    if own.any (fun q => decide (q.off ≤ o) && decide (o < q.off + q.n + 9)) then got.getD p.2 p.1 else p.1)

/-- The header a hub takes from a leaf: of what the leaf returns, the fields every forwarding node writes (R225); every
other byte as the hub sent it. -/
def hubHeader (sent got : List Byte) : List Byte :=
  ((sent.take 64).zipIdx).map (fun p =>
    if p.2 = 15 then (byteAt got 15 &&& 0x71#8) ||| (p.1 &&& 0x8E#8)
    else if p.2 = 53 ∨ p.2 = 58 ∨ p.2 = 59 ∨ (40 ≤ p.2 ∧ p.2 < 48) then byteAt got p.2
    else p.1)

/-- Whether this device is a hub of a ring and the port one of its ports. -/
def State.hubPort (s : State) (r : Fin 2) (n : Fin 8) : Bool :=
  s.en .nrg && s.isHub r && (n = s.uplink || s.leaves.contains n)

/-- A leaf's Stanchion changes. -/
def State.modLeaf (s : State) (r : Fin 2) (n : Fin 8) (f : LeafStn → LeafStn) : State :=
  s.modRing r (fun x => { x with leaf := vset x.leaf n (f x.leaf[n]) })

/-- A measurement of a leaf's Stanchion (Table NRG-5, R245). -/
def LeafStn.measure (y : LeafStn) (within : Bool) : LeafStn :=
  let z := if within then { y with good := y.good + 1, bad := 0 } else { y with good := 0, bad := y.bad + 1 }
  match z.stn with
  | .active => if 2 ≤ z.bad then { z with stn := .listenOnly, good := 0, bad := 0, cuts := [] } else z
  | .sync => if 8 ≤ z.good then { z with stn := .active } else z
  | .listenOnly => if 8 ≤ z.good then { z with stn := .active } else z
  | _ => z

/-- Whether an offset lies within G/2 (R245). -/
def State.withinG (s : State) (r : Fin 2) (off : Int) : Bool := decide (2 * off.natAbs ≤ 4294967296 * s.ringGuard r)

/-- The next leaf port of a copy after one, in its order; none: back to UPLINK. -/
def State.nextLeaf (s : State) (copyB : Bool) (after : Option (Fin 8)) : Option (Fin 8) :=
  let l := if copyB then s.leaves.reverse else s.leaves
  match after with
  | none => l.head?
  | some n => (l.drop ((l.takeWhile (fun k => k ≠ n)).length + 1)).head?

/-- A copy goes on from a hub: to its next leaf, or back on UPLINK. -/
def State.hubOn (s : State) (r : Fin 2) (inn : Fin 8) (after : Option (Fin 8)) (bs h area : List Byte) (ok : Bool) :
    State :=
  let out := (s.nextLeaf (hdrCopy h) after).getD s.uplink
  let e : HdrEdit :=
    { turn := false
      fwd := false
      emitPass := 0
      frag := none
      corr := s.corrIn r inn h + s.ticksCorr (s.fwdTicks inn out)
      heal := false }
  let h1 := s.editHeader r h e
  let slot : Option HubAt := if out = s.uplink then none else some ⟨out, h1 ++ area⟩
  let s1 := s.modRing r (fun x => { x with hubAt := amPut (fun _ => none) x.hubAt (b2n (hdrCopy h)) slot })
  s1.ringOut r out (h1 ++ area) (s.passTag r bs) (tagCame bs) ok

/-- A verified header tells a hub the cycle and the topology to come (R255). -/
def State.hubSeen (s : State) (r : Fin 2) (h : List Byte) : State :=
  s.modRing r (fun x => { x with
    cycNow := w32 (be32At h 18)
    topoNext := some ((byteAt h 52).extractLsb' 6 2, w32 (be32At h 54)) })

/-- A pass at a hub: from UPLINK to the first leaf; back from a leaf, its bytes outside the leaf's own restored, and
counted, to the next (R253, R254). -/
def State.hubPass (s : State) (r : Fin 2) (n : Fin 8) (bs : List Byte) (ok : Bool) (ph : Fin 16) : State :=
  let s0 := s.passCounts r bs ok
  let s1 := if s.passTag r bs then s0.hubSeen r bs else s0
  if n = s.uplink then s1.hubOn r n none bs (bs.take 64) (areaOf bs) ok
  else
    match amGet (fun _ => none) s.ring[r].hubAt (b2n (hdrCopy bs)) with
    | some at_ =>
      if at_.leaf ≠ n then s1
      else
        let h := hubHeader at_.bytes bs
        let mixed := s.hubArea r n (areaStart at_.bytes) (areaOf at_.bytes) (areaOf bs)
        let s2 := if mixed = areaOf bs && h = bs.take 64 then s1 else s1.count (nrgHubLBlockCnt n.val)
        let s3 := if s.passTag r bs then s2.modLeaf r n (·.measure (s.withinG r (s.passOffset r n bs ph))) else s2
        s3.hubOn r n (some n) bs h mixed ok
    | none => s1

/-- A frame that a node does not write goes on bit-exact, behind an own envelope it cuts (R233, R248, R249). -/
def State.relayOn (s : State) (r : Fin 2) (n : Fin 8) (bs : List Byte) (ok : Bool) : State :=
  let out := if s.dualPlane r && n = s.portS r then n
    else if s.deadPort r (s.onward r n) then n else s.onward r n
  ((s.deferOwn r out (s.fwdTicks n out)).2).ringRelay out bs ok

/-- A frame that a hub does not write goes on bit-exact, in the order of its COPY bit (R233, R254). -/
def State.hubRelay (s : State) (r : Fin 2) (n : Fin 8) (bs : List Byte) (ok : Bool) : State :=
  let after := if n = s.uplink then none else some n
  (if ok then s else s.count (nrgRingAbortCnt r.val)).ringRelay ((s.nextLeaf (hdrCopy bs) after).getD s.uplink) bs ok

/-- A valid frame at a ring port whose link is up shows that the loss of its signal has ended (R234, log 35). -/
def State.signalBack (s : State) (r : Fin 2) (n : Fin 8) : State :=
  if s.eth[n].up then s.modRing r (fun x => { x with los := setBit x.los n.val false }) else s

/-- A pass of the traverse frame, or a fragment, is received at a ring port: `bytes` run from DA to the last byte
before the FCS, `ok` says that the FCS was good and the pass did not end early. -/
def doRingPassReceive (r : Fin 2) (n : Fin 8) (bytes : List Byte) (ok : Bool) (ph : Fin 16) (s : State) : State :=
  if s.hubPort r n then (if s.isPass r bytes then s.hubPass r n bytes ok ph else s.hubRelay r n bytes ok)
  else if !s.ringRuns r || !(s.ringPorts r.val).contains n.val then s
  else
    let s1 := s.signalBack r n
    if s1.isPass r bytes then s1.nodePass r n bytes ok ph
    else (if ok then s1 else s1.count (nrgRingAbortCnt r.val)).relayOn r n bytes ok

/-- The meaning of RING_PASS_RECEIVE. -/
def execRingPassReceive (r : Fin 2) (n : Fin 8) (bytes : List Byte) (ok : Bool) (ph : Fin 16) (s : State) :
    Host.Outcome State Fault Refusal :=
  commit s (doRingPassReceive r n bytes ok ph s)

/-! Cycle boundaries (R222, R223, R228, R229, R231, R240, R241, R246, R255). -/

/-- The star plane is announced at once in a beacon: from the next cycle's boundary if the beacon leaves STAR_LEAD
before it, else from the one after (R255). -/
def State.announceStar (s : State) (r : Fin 2) : State :=
  let x := s.ring[r]
  if x.ann.1 = 2 then s
  else
    let lead := s.ringPeriod r - s.ringPhase r
    let c := if fieldOf (s.reg (nrgRingStarLead r.val)) 0 23 ≤ lead then x.cycNow + 1 else x.cycNow + 2
    let s1 := s.setRing r { x with ann := (2, c) }
    s1.ringRelay (s1.portS r) (s1.beaconFrame r (s1.portS r) false) true

/-- Whether the cycle that ends calls for the star plane: records of some writer missed while passes turned at more
than one node, or while LOOPED is reported (R255). -/
def State.starNeeded (s : State) (r : Fin 2) : Bool :=
  let x := s.ring[r]
  s.dualPlane r && (decide (1 < x.origins.length) || x.looped ≠ 0 || x.ann.1 = 1) &&
  (s.ringWins r.val).any (fun w => w.writer ≠ s.nodeId r && !bitOf (s.mergeWord r w.win) 31)

/-- A topology reached at a boundary: a closed ring opens the looped ports free of LOS, a star plane that comes into
force counts (R240, R255). -/
def State.applyTopo (s : State) (r : Fin 2) (t : BitVec 2) (due : Bool) : State :=
  let x := s.ring[r]
  let y := { x with topo := t, looped := if due ∧ t = 0 then x.looped &&& x.los else x.looped }
  let s1 := s.setRing r y
  if t = 2 && x.topo ≠ 2 then s1.count (nrgRingPlaneCnt r.val) else s1

/-- The window area of a copy the Benchmark node sends: every record from the image with VALID = 0, then its own
placed as in any pass (R229, R243). -/
def State.bmArea (s : State) (r : Fin 2) : List Byte × State :=
  let base := imageSlice s.ring[r] 64 (s.ringLen r.val)
  s.placeOwn r s.ring[r].cycNow.toNat 64 ((s.ringWins r.val).foldl (fun a w => areaInvalid 64 a w.off) base)

/-- The Benchmark node sends a copy out of a port. -/
def State.bmCopy (s : State) (r : Fin 2) (n : Fin 8) (copyB : Bool) : State :=
  let a := s.bmArea r
  a.2.ringOut r n (a.2.bmHeader r n copyB (a.2.ring[r].topo = 2) ++ a.1) true 16 true

/-- The Benchmark node sends both copies: on the ring out of its ports, on the star plane both out of PORT_S; its own
records as sent enter the image. -/
def State.bmSend (s : State) (r : Fin 2) : State :=
  let star := s.ring[r].topo = 2
  let area := (s.bmArea r).1
  let s1 := (s.bmCopy r (if star then s.portS r else s.portA r) false).bmCopy r (if star then s.portS r else s.portB r) true
  s1.modRing r (fun x => x.recs.foldl (fun y q => imagePut y q.off (slice area (q.off - 64) (q.n + 9))) x)

/-- 40 PCLK before the send instant the Benchmark node snapshots its write windows: for the next cycle where that
instant lies before its boundary, else for the cycle in progress, whose copies it then sends (R223, R228, log 35). -/
def doRingBmSnapshot (r : Fin 2) (s : State) : State :=
  let x := s.ring[r]
  if !s.ringRuns r || x.nst ≠ .benchmark || !s.reaches r (s.sendPhase r) 40 then s
  else if s.snapLate r then
    if !x.bmDue then s
    else
      let v := s.takeSnaps r x.keyUsed x.cycNow.toNat
      (s.setRing r { x with snaps := some v, bmDue := false }).bmSend r
  else
    let cyc := if x.bmFirst then 0 else (x.cycNow + 1).toNat
    let v := s.takeSnaps r (bitOf (s.reg (nrgRingKeysel r.val)) 0) cyc
    s.setRing r { x with bmSnap := some v }

/-- The meaning of RING_BM_SNAPSHOT. -/
def execRingBmSnapshot (r : Fin 2) (s : State) : Host.Outcome State Fault Refusal := commit s (doRingBmSnapshot r s)

/-- A twin takes up or gives up the origination of a Benchmark pair at a ring boundary (R413, R414). -/
def RingState.pairRole (x : RingState) (shadow paired : Bool) (own : Nat) : RingState :=
  if shadow && paired && x.nst = .benchmark then
    { x with nst := .member, topoNext := some x.ann, bm := some (BitVec.ofNat 7 own), pair := true }
  else if !shadow && x.pair then
    { x with
      nst := if x.nst = .member then .benchmark else x.nst
      ann := x.topoNext.getD (x.topo, x.cycNow)
      pair := false }
  else x

/-- The counts and latches of a boundary: LOOPED after a LOS, good boundaries of looped ports, boundaries without a
verified header (the third returns the Stanchion to SYNC, R241), and a cycle's records cleared. -/
def boundaryRing (x : RingState) (upA upB : Bool) (a b : Fin 8) (key late : Bool) : RingState :=
  let looped := x.looped ||| x.losNew
  let good : Fin 8 → Bool → Nat → Nat := fun n up k =>
    if looped.getLsbD n.val && up && !x.los.getLsbD n.val then k + 1 else 0
  let noHdr := if x.seen then 0 else x.noHdr + 1
  let lost := decide (3 ≤ noHdr) && (x.stn = .active || x.stn = .listenOnly)
  let bm := x.nst = .benchmark
  { x with
    looped := looped
    losNew := 0
    healA := good a upA x.healA
    healB := good b upB x.healB
    noHdr := noHdr
    seen := false
    stn := if lost then .sync else x.stn
    good := if lost then 0 else x.good
    bad := if lost then 0 else x.bad
    cycNow := if bm && x.bmFirst then 0 else x.cycNow + 1
    bmFirst := false
    bnd := x.bnd + 1
    keyUsed := if bm then key else x.keyUsed
    snaps := if bm && !late then some (x.bmSnap.getD []) else none
    bmSnap := none
    bmDue := bm && late
    got := []
    joins := []
    origins := []
    heal := 0
    sent := [] }

/-- Whether a cycle boundary of a ring or of a hub's star plane is due: the tick is the first at or after it, and it has
not been taken (R222). -/
def State.boundaryDue (s : State) (r : Fin 2) : Bool :=
  (s.ringRuns r || (s.en .nrg && s.isHub r)) && s.reaches r 0 0 && s.ring[r].bndAt ≠ some (s.boundaryNs r)

/-- The beacons of a boundary: of a Benchmark node or a FAILED Stanchion out of PORT_S; where the ring is announced while
the star plane is in force, out of the ring ports as well (R246, R255, R256). -/
def State.beacons (s : State) (r : Fin 2) (bm : Bool) : State :=
  let failed := s.ring[r].stn = .failed
  let one : State → Fin 8 → State := fun t n => t.ringRelay n (t.beaconFrame r n failed) true
  if !(s.dualPlane r && (bm || failed)) then s
  else if bm && s.ring[r].topo = 2 && s.ring[r].ann.1 ≠ 2 then one (one (one s (s.portS r)) (s.portA r)) (s.portB r)
  else one s (s.portS r)

/-- A cycle boundary of a ring. -/
def doRingCycleBoundary (r : Fin 2) (s : State) : State :=
  if !s.boundaryDue r then s
  else
    let s0 := s.modRing r (fun x => { x.pairRole s.flt.shadow s.shadowed (s.nodeId r) with bndAt := some (s.boundaryNs r) })
    let bm := s0.ring[r].nst = .benchmark
    let first := s0.ring[r].bmFirst
    let star := bm && !first && s0.starNeeded r
    let s1 := if s0.ring[r].merging && !first then s0.mergeClose r else s0
    let key := bitOf (s.reg (nrgRingKeysel r.val)) 0
    let s2 := s1.setRing r
      (boundaryRing s1.ring[r] s.eth[s.portA r].up s.eth[s.portB r].up (s.portA r) (s.portB r) key
        (s.snapLate r))
    let x := s2.ring[r]
    let s3 := if star then s2.announceStar r else s2
    let y := s3.ring[r]
    let t := if bm then some y.ann else y.topoNext
    let s4 := match t with
      | some p =>
        if p.2 = x.cycNow then s3.applyTopo r p.1 true
        else if (x.cycNow - p.2).toNat < 2 ^ 31 then s3.applyTopo r p.1 false
        else s3
      | none => s3
    let s5 := if bm && !s.snapLate r then s4.bmSend r else s4
    s5.beacons r bm

/-- The meaning of RING_CYCLE_BOUNDARY. -/
def execRingCycleBoundary (r : Fin 2) (s : State) : Host.Outcome State Fault Refusal :=
  commit s (doRingCycleBoundary r s)

/-! Loss of signal and fragments (R234, R237). -/

/-- The fragment of a pass for a loss declared now at the port it left, if its last byte left after the rewind instant
(R237). Times are in ps of PCLK. -/
def State.fragOf (s : State) (r : Fin 2) (x : Fin 8) (p : PassSent) : Option FragDue :=
  let d := s.ringDly r x
  let dly : Int := ((1000 * (if 640000 < d then 640000 else d)) / 256 : Nat)
  let rewind : Int := (2000 * s.clk.tick : Nat) - 32000 - 2 * dly
  let bt := s.bytePs x
  let t0 : Int := p.t0
  let tend : Int := t0 + ((64 + p.area.length + 20) * bt : Nat)
  if rewind < tend then
    let idx := ((rewind - t0) / (bt : Int)).toNat
    let off0 := areaStart p.hdr + idx - 64
    let off := if off0 / 4 * 4 < areaStart p.hdr then areaStart p.hdr else off0 / 4 * 4
    let gone := s.clk.tick + s.fwdTicks x p.inn + (25 * bt + 1999) / 2000 - p.rxTick
    let e : HdrEdit :=
      { turn := true
        fwd := false
        emitPass := 2
        frag := some off
        corr := p.corr + s.ticksCorr gone
        heal := false }
    let bs := s.editHeader r p.hdr e ++ p.area.drop (off - areaStart p.hdr)
    some ⟨p.inn, bs ++ s.outTag r bs p.tagOk p.tagCame, p.whole⟩
  else none

/-- A ring port declares loss of signal: counted, and each pass of the cycle that was leaving it leaves a fragment. -/
def doRingLos (r : Fin 2) (n : Fin 8) (s : State) : State :=
  if !s.ringRuns r || !(s.ringPorts r.val).contains n.val then s
  else
    let s1 := s.count (nrgRingLosCnt r.val)
    let fr := (s1.ring[r].sent.filter (fun p => p.out = n)).filterMap (fun p => s1.fragOf r n p)
    s1.modRing r (fun x => { x with
      los := setBit x.los n.val true
      losNew := setBit x.losNew n.val true
      frags := x.frags ++ fr })

/-- The meaning of RING_LOS. -/
def execRingLos (r : Fin 2) (n : Fin 8) (s : State) : Host.Outcome State Fault Refusal := commit s (doRingLos r n s)

/-- The first fragment due leaves its pass's arrival port. -/
def doRingFragmentEmit (r : Fin 2) (s : State) : State :=
  let x := s.ring[r]
  match x.frags with
  | [] => s
  | f :: rest =>
    let s1 := ((s.setRing r { x with frags := rest }).deferOwn r f.out 0).2
    (s1.ringRelay f.out f.bytes f.whole).count (nrgRingFragCnt r.val)

/-- The meaning of RING_FRAGMENT_EMIT. -/
def execRingFragmentEmit (r : Fin 2) (s : State) : Host.Outcome State Fault Refusal := commit s (doRingFragmentEmit r s)

/-! The Stanchion (R244, R246, R253). -/

/-- A cut at a leaf's Stanchion: counted; the third within 1,000 cycles sends it to LISTEN_ONLY (R244, R253). -/
def State.leafCutCount (s : State) (r : Fin 2) (n : Fin 8) : State :=
  let s1 := s.count (nrgHubLCutCnt n.val)
  s1.modLeaf r n (fun y =>
    let cuts := cutHist s1.ring[r].bnd y.cuts
    if 3 ≤ cuts.length && y.stn = .active then { y with stn := .listenOnly, good := 0, bad := 0, cuts := [], now := none }
    else { y with cuts := cuts, now := none })

/-- The acyclic frame of a leaf in transmission is cut at the end of the enabled span. -/
def State.leafCut (s : State) (r : Fin 2) (n : Fin 8) : State :=
  let y := s.ring[r].leaf[n]
  match y.now with
  | none => s
  | some (start, bs) =>
    let stop := 1000 * (y.slotEnd + s.ringGuard r)
    (s.ringRelay s.uplink (bs.take (cutLen start stop (s.bytePs n))) false).leafCutCount r n

/-- The enabled span ends over a transmission: the node's own envelope, or the acyclic frame of a hub's leaf. -/
def doStanchionCut (r : Fin 2) (leaf : Option (Fin 8)) (s : State) : State :=
  match leaf with
  | some n => if s.hubPort r n then s.leafCut r n else s
  | none => s.envCut r

/-- The meaning of STANCHION_CUT. -/
def execStanchionCut (r : Fin 2) (leaf : Option (Fin 8)) (s : State) : Host.Outcome State Fault Refusal :=
  commit s (doStanchionCut r leaf s)

/-- The check of the clock, PCLK edges between alignment markers, and of the record and slot parity: two clock errors
in a row, or one of parity, is FAILED until the next cold start. -/
def doStanchionSelfCheck (r : Fin 2) (edges : Nat) (parityOk : Bool) (s : State) : State :=
  let x := s.ring[r]
  if !s.ringRuns r || x.stn = .off || x.stn = .failed then s
  else
    let bad := if edges < 97 ∨ 103 < edges then x.clkBad + 1 else 0
    let fails := decide (2 ≤ bad) || !parityOk
    s.setRing r { x with
      clkBad := bad
      stn := if fails then .failed else x.stn }

/-- The meaning of STANCHION_SELF_CHECK. -/
def execStanchionSelfCheck (r : Fin 2) (edges : Nat) (parityOk : Bool) (s : State) : Host.Outcome State Fault Refusal :=
  commit s (doStanchionSelfCheck r edges parityOk s)

/-! Envelopes (R244, R249). -/

/-- The envelope of an inner frame out of a port. -/
def State.envelope (s : State) (r : Fin 2) (n : Fin 8) (inner : List Byte) : List Byte :=
  let x := s.ring[r]
  let body := s.ringAddr r n ++ [0x14#8] ++ toBe 1 (b2n x.keyUsed * 8) ++ toBe 1 (s.ringId r) ++ toBe 1 (s.nodeId r) ++
    toBe 2 x.aseq.toNat ++ toBe 4 (s.reg (nrgRingCyc r.val)).toNat ++ inner
  body ++ s.envTag r body

/-- The head frame a ring port may send next: its queue place and stored frame. -/
def State.envHead (s : State) (n : Fin 8) : Option (QEntry × Stored) :=
  match s.nextQueue n with
  | none => none
  | some q =>
    match s.headOf n.val q with
    | none => none
    | some h => (s.storedOf h.fid).map (fun st => (h, st))

/-- Whether an envelope of a length may start now: in the slot, with its last byte in it (R244). -/
def State.slotHolds (s : State) (r : Fin 2) (n : Fin 8) (len : Nat) : Bool :=
  let x := s.ring[r]
  let t := s.ringPhase r
  decide (x.slotStart ≤ t) && decide (1000 * t + (len + 8) * s.bytePs n ≤ 1000 * x.slotEnd)

/-- The frame of a queue place leaves as an inner frame: its send starts, it is cut, stamped (R71, R180). -/
def State.innerFrame (s : State) (n : Fin 8) (ph : Fin 16) (q : QEntry) (st : Stored) : List Byte × State :=
  let p := match st.f.req.seg with
    | some g => if q.seg = 0 then s.startSend n q g else (q, s)
    | none => (q, s)
  let c := p.2.cutFrame n p.1 st
  c.2.applyStamp n ph st (s.ptpOff n p.1 st) c.1

/-- The envelope in transmission has left, and the next one starts if the slot holds it: a frame queued at both ring
ports leaves once, out of each. -/
def doEnvelopeSend (r : Fin 2) (ph : Fin 16) (s : State) : State :=
  if !s.ringRuns r || s.shadowed then s
  else
    let s0 := s.envDone r
    let a := s0.portA r
    let b := s0.portB r
    let head := match s0.envHead a with
      | some h => some (a, h)
      | none => (s0.envHead b).map (fun h => (b, h))
    match head with
    | none => s0
    | some (n, q, st) =>
      let w := s0.innerFrame n ph q st
      let other := if n = a then b else a
      if s0.ring[r].stn ≠ .active || s0.inHold .nrg || !s0.slotHolds r n (w.1.length + 44) then s0
      else
        let s1 := w.2.modRing r (fun x => { x with aseq := x.aseq + 1 })
        let both := s1.swc.queues.any (fun p => p.lp.val = other.val && p.fid = q.fid)
        let copies := (n, s1.envelope r n w.1) :: (if both then [(other, s1.envelope r other w.1)] else [])
        let s2 := s1.modRing r (fun x => { x with env := some ⟨copies, 1000 * s0.ringPhase r, s0.clk.tick⟩ })
        let s3 := s2.leaveQueue q.lp q.fid (lastOf q st)
        if both then s3.leaveQueue (Fin.ofNat 22 other.val) q.fid (lastOf q st) else s3

/-- The meaning of ENVELOPE_SEND. -/
def execEnvelopeSend (r : Fin 2) (ph : Fin 16) (s : State) : Host.Outcome State Fault Refusal :=
  commit s (doEnvelopeSend r ph s)

/-- A leaf's acyclic frame at a hub (R244, R253): outside the enabled span, without a slot or while the leaf's Stanchion
is not ACTIVE nothing of it passes; one that ends within the span passes whole; one that runs beyond it waits for its
cut. -/
def State.leafEnvelope (s : State) (r : Fin 2) (n : Fin 8) (bs : List Byte) (ok : Bool) : State :=
  let s0 := s.leafCut r n
  let y := s0.ring[r].leaf[n]
  let g := s0.ringGuard r
  let t := s0.ringPhase r
  if y.stn ≠ .active || y.slotStart = y.slotEnd || decide (t + g < y.slotStart) || decide (y.slotEnd + g < t) then
    s0.leafCutCount r n
  else if 1000 * t + (frameLen bs + 8) * s0.bytePs n ≤ 1000 * (y.slotEnd + g) then s0.ringRelay s0.uplink bs ok
  else s0.modLeaf r n (fun z => { z with now := some (1000 * t, bs) })

/-- An envelope at a node: its originator removes it, every other node forwards it, and the first verified one of each
number goes to the switch as a RING frame (R249). A SHADOW forwards those of its pair. -/
def State.nodeEnvelope (s : State) (r : Fin 2) (n : Fin 8) (bs : List Byte) (ok : Bool) : State :=
  let origin := (byteAt bs 17).toNat
  if origin = s.nodeId r then (if s.shadowed then s.relayOn r n bs ok else s)
  else
    let body := bs.take (bs.length - 16)
    let good := ok && decide (40 ≤ bs.length) && s.envTag r body = bs.drop (bs.length - 16)
    let s1 := s.relayOn r n bs ok
    let seq : BitVec 16 := BitVec.ofNat 16 (be16At bs 18)
    let h := amGet (fun _ => []) s1.ring[r].history origin
    if !good || h.contains seq then s1
    else
      let s2 := s1.modRing r (fun x => { x with history := amPut (fun _ => []) x.history origin ((seq :: h).take 32) })
      let req : TxReq := ⟨.none, 0, 0, none, none, none⟩
      s2.toSwitch (Fin.ofNat 22 n.val) ⟨body.drop 24, none, false, req, .ring⟩

/-- An envelope is received: at a hub a leaf's outside its slot is cut; one of another ring goes on bit-exact. -/
def doEnvelopeReceive (r : Fin 2) (n : Fin 8) (bytes : List Byte) (ok : Bool) (s : State) : State :=
  if s.hubPort r n then
    if n = s.uplink then s.leaves.foldl (fun t k => t.ringRelay k bytes ok) s else s.leafEnvelope r n bytes ok
  else if !s.ringRuns r || !(s.ringPorts r.val).contains n.val then s
  else
    let s1 := s.signalBack r n
    if (byteAt bytes 16).toNat ≠ s1.ringId r then s1.relayOn r n bytes ok else s1.nodeEnvelope r n bytes ok

/-- The meaning of ENVELOPE_RECEIVE. -/
def execEnvelopeReceive (r : Fin 2) (n : Fin 8) (bytes : List Byte) (ok : Bool) (s : State) :
    Host.Outcome State Fault Refusal :=
  commit s (doEnvelopeReceive r n bytes ok s)

/-! Claims (R250-R252). -/

/-- Whether a node may move to CLAIMING; a SHADOW makes no claim (Table FLT-5). -/
def State.mayClaim (s : State) (r : Fin 2) : Bool :=
  s.ringRuns r && !s.inHold .nrg && !s.shadowed && s.masterCap r && (s.ring[r].nst = .listen || s.ring[r].nst = .member)

/-- Whether, in ns of PCLK, a time has passed since the last verified traverse frame and the last lower claim. -/
def State.quietFor (s : State) (r : Fin 2) (ns : Nat) : Bool := decide (s.ring[r].heard * 2 + ns ≤ s.clk.tick * 2)

/-- How long a node that has lost a claim waits before the next: 4 × PERIOD and EUI-64[11:0] × 512 ns (R251). -/
def State.claimWait (s : State) (r : Fin 2) : Nat :=
  4 * s.ringPeriod r + (if s.ring[r].lost then s.eui64 % 4096 * 512 else 0)

/-- A node moves to CLAIMING. -/
def State.claimStart (s : State) (r : Fin 2) : State :=
  if s.mayClaim r then
    s.modRing r (fun x => { x with nst := .claiming, claimBack := 0, lower := false, lost := false, claimAt := none })
  else s

/-- 4 × PERIOD, and after a lost claim more, have passed without a verified traverse frame or a lower claim (R250,
R251). -/
def doClaimTimeout (r : Fin 2) (s : State) : State := if s.quietFor r (s.claimWait r) then s.claimStart r else s

/-- The meaning of CLAIM_TIMEOUT. -/
def execClaimTimeout (r : Fin 2) (s : State) : Host.Outcome State Fault Refusal := commit s (doClaimTimeout r s)

/-- CLAIM_NOW: at once, but after a lost claim not before its wait (R250, R251). -/
def State.claimNow (s : State) (r : Fin 2) : State :=
  if s.ring[r].lost && !s.quietFor r (s.claimWait r) then s else s.claimStart r

/-- CLAIM_NOW of NRG_RINGr_CMD. -/
def doClaimNow (m : Master) (r : Fin 2) (s : State) : State :=
  s.guarded m (nrgRingCmd r.val) fun s => s.claimNow r

/-- The meaning of CLAIM_NOW. -/
def execClaimNow (m : Master) (r : Fin 2) (s : State) : Host.Outcome State Fault Refusal := commit s (doClaimNow m r s)

/-- Whether the next claim is due: none sent since the node began, or 100 µs since the last (R250). -/
def State.claimDue (s : State) (r : Fin 2) : Bool :=
  match s.ring[r].claimAt with
  | none => true
  | some t => decide (t + 50000 ≤ s.clk.tick)

/-- A claiming node sends a claim out of both ring ports. -/
def doClaimSend (r : Fin 2) (s : State) : State :=
  if s.ring[r].nst ≠ .claiming || !s.ringRuns r || s.inHold .nrg || s.shadowed || !s.claimDue r then s
  else
    let s1 := s.modRing r (fun x => { x with claimSeq := x.claimSeq + 1, claimAt := some s.clk.tick })
    (s1.ringRelay (s1.portA r) (s1.claimFrame r (s1.portA r)) true).ringRelay (s1.portB r) (s1.claimFrame r (s1.portB r))
      true

/-- The meaning of CLAIM_SEND. -/
def execClaimSend (r : Fin 2) (s : State) : Host.Outcome State Fault Refusal := commit s (doClaimSend r s)

/-- Whether a claim takes part in the comparison: PERIOD, CFG_HASH and tag (R251). -/
def State.claimGood (s : State) (r : Fin 2) (bs : List Byte) (ok : Bool) : Bool :=
  ok && decide (54 ≤ bs.length) && be32At bs 26 = s.ringPeriod r && be32At bs 30 = (s.cfgHash r).toNat &&
  s.claimTag r bs = slice bs 38 16

/-- The value of a received claim. -/
def claimOf (bs : List Byte) : Nat := claimVal (byteAt bs 17).toNat (beNat (slice bs 18 8))

/-- A claim of another node: compared, a lower one ends the node's own claim (R251). -/
def State.claimCompare (s : State) (r : Fin 2) (bs : List Byte) (ok : Bool) : State :=
  if !s.claimGood r bs ok then s.count (nrgRingClaimIgnCnt r.val)
  else if claimOf bs < s.ownVal r then
    let x := { s.ring[r] with lower := true, heard := s.clk.tick }
    if x.nst = .claiming then
      (s.setRing r { x with nst := .listen, lost := true }).count (nrgRingClaimLostCnt r.val)
    else s.setRing r x
  else s

/-- The node's own claim returns: the third time, with no lower claim seen, the node is BENCHMARK (R252). -/
def State.claimReturned (s : State) (r : Fin 2) (bs : List Byte) (ok : Bool) : State :=
  let x := s.ring[r]
  if !s.claimGood r bs ok then s.count (nrgRingClaimIgnCnt r.val)
  else if x.nst ≠ .claiming || x.lower then s
  else if x.claimBack + 1 < 3 then s.setRing r { x with claimBack := x.claimBack + 1 }
  else s.setRing r { x with
    nst := .benchmark
    claimBack := 3
    bmFirst := true
    image := []
    ann := (0, 0)
    bm := some (BitVec.ofNat 7 (s.nodeId r)) }

/-- A hub relays to its leaves only a claim lower than every claim it relayed in the last 4 × PERIOD (R254). -/
def State.hubClaim (s : State) (r : Fin 2) (n : Fin 8) (bs : List Byte) (ok : Bool) : State :=
  let v := claimOf bs
  let span := 4 * s.ringPeriod r
  let recent := s.ring[r].relayed.filter (fun p => decide (s.clk.tick * 2 < p.2 * 2 + span))
  if recent.any (fun p => decide (p.1 ≤ v)) then s.modRing r (fun x => { x with relayed := recent })
  else
    let s1 := s.modRing r (fun x => { x with relayed := (v, s.clk.tick) :: recent })
    (s1.leaves.filter (fun k => k ≠ n)).foldl (fun t k => t.ringRelay k bs ok) s1

/-- A claim is received: the node's own is removed, every other is compared and forwarded as a pass. -/
def doClaimReceive (r : Fin 2) (n : Fin 8) (bytes : List Byte) (ok : Bool) (s : State) : State :=
  if s.hubPort r n then s.hubClaim r n bytes ok
  else if !s.ringRuns r || !(s.ringPorts r.val).contains n.val then s
  else
    let s0 := s.signalBack r n
    if (byteAt bytes 16).toNat ≠ s0.ringId r then s0.relayOn r n bytes ok
    else if beNat (slice bytes 18 8) = s0.eui64 then s0.claimReturned r bytes ok
    else
      let s1 := if ok then s0 else s0.count (nrgRingAbortCnt r.val)
      (s1.claimCompare r bytes ok).relayOn r n bytes ok

/-- The meaning of CLAIM_RECEIVE. -/
def execClaimReceive (r : Fin 2) (n : Fin 8) (bytes : List Byte) (ok : Bool) (s : State) :
    Host.Outcome State Fault Refusal :=
  commit s (doClaimReceive r n bytes ok s)

/-! Plane beacons and the return to the ring (R255, R256). -/

/-- Whether a plane beacon of this ring is verified. -/
def State.beaconGood (s : State) (r : Fin 2) (bs : List Byte) (ok : Bool) : Bool :=
  ok && decide (44 ≤ bs.length) && (byteAt bs 16).toNat = s.ringId r && s.beaconTag r bs = slice bs 28 16

/-- The topology a verified beacon of the Benchmark node announces (R255). -/
def beaconTopo (bs : List Byte) : Option (BitVec 2 × Word) :=
  some ((byteAt bs 22).extractLsb' 6 2, w32 (be32At bs 23))

/-- A beacon at a hub: it takes the topology, and passes it to its leaves, or a leaf's to UPLINK. -/
def State.hubBeacon (s : State) (r : Fin 2) (n : Fin 8) (bs : List Byte) (ok : Bool) : State :=
  let s1 := if s.beaconGood r bs ok && !bitOf (byteAt bs 15) 0 then
      s.modRing r (fun x => { x with cycNow := w32 (be32At bs 18), topoNext := beaconTopo bs })
    else s
  if n = s.uplink then s.leaves.foldl (fun t k => t.ringRelay k bs ok) s1 else s1.ringRelay s.uplink bs ok

/-- A plane beacon at a node of a dual-plane cell: at the Benchmark node one with FLAGS[0] = 1 calls for the star plane;
every other node takes its topology from it, and sends one that came on the ring plane on (R255, R256). -/
def State.nodeBeacon (s : State) (r : Fin 2) (n : Fin 8) (bs : List Byte) (ok : Bool) : State :=
  let call := bitOf (byteAt bs 15) 0
  let good := s.beaconGood r bs ok
  if s.ring[r].nst = .benchmark then (if good && call then s.announceStar r else s)
  else
    let s1 := if good && !call then
        s.modRing r (fun x => { x with bm := some ((byteAt bs 17).setWidth 7), topoNext := beaconTopo bs })
      else s
    if n = s.portS r then s1 else s1.relayOn r n bs ok

/-- A plane beacon is received. -/
def doBeaconReceive (r : Fin 2) (n : Fin 8) (bytes : List Byte) (ok : Bool) (s : State) : State :=
  if s.hubPort r n then s.hubBeacon r n bytes ok
  else if !s.ringRuns r || !s.dualPlane r || !(s.ringPorts r.val).contains n.val then s
  else (s.signalBack r n).nodeBeacon r n bytes ok

/-- The meaning of BEACON_RECEIVE. -/
def execBeaconReceive (r : Fin 2) (n : Fin 8) (bytes : List Byte) (ok : Bool) (s : State) :
    Host.Outcome State Fault Refusal :=
  commit s (doBeaconReceive r n bytes ok s)

/-- RING_RETURN: the Benchmark node announces the closed ring from two cycles on (R256). -/
def State.ringReturn (s : State) (r : Fin 2) : State :=
  let x := s.ring[r]
  if s.ringRuns r && x.nst = .benchmark then s.setRing r { x with ann := (0, x.cycNow + 2) } else s

/-- RING_RETURN of NRG_RINGr_CMD. -/
def doRingReturn (m : Master) (r : Fin 2) (s : State) : State :=
  s.guarded m (nrgRingCmd r.val) fun s => s.ringReturn r

/-- The meaning of RING_RETURN. -/
def execRingReturn (m : Master) (r : Fin 2) (s : State) : Host.Outcome State Fault Refusal :=
  commit s (doRingReturn m r s)

/-- A write of NRG_HUB_CFG: refused if LEAF_MASK holds the UPLINK port (R253). -/
def hubCfgOk (v : Word) : Bool := !bitOf v (16 + fieldOf v 8 3)

end Sys2Proof.Machine
end

