-- ==== Sys2Proof/Machine/Operands.lean ====
section
/-! DEFINITION. The operand forms of an Evman move (06): the slot (Table PEC-13), the guard (Table PEC-14),
the immediates (Table PEC-15), and the destination and source identifiers (Tables PEC-3, PEC-4). -/

namespace Sys2Proof.Machine

/-- One move slot as decoded (R126). `lit` is the 32-bit value of a LIMM slot (R130), or the value a
one-move command of the table carries. -/
structure Slot where
  dst : Byte
  src : Byte
  guard : BitVec 5
  sat : Bool
  rnd : BitVec 2
  rpt : Bool
  immx : BitVec 7
  lit : Option Word
deriving DecidableEq, Repr

/-- A destination port (Table PEC-3). -/
inductive Dest where
  | g (i : Fin 64)
  | a (i : Fin 4)
  | ag (i : Fin 4)
  | p (i : Fin 8)
  | flg
  /-- RPT_CNT, RPT_SRC, RPT_DST -/
  | rpt (i : Fin 3)
  /-- loop register f of LPn: START, END, CNT -/
  | lp (n : Fin 4) (f : Fin 3)
  /-- operand or unit state port, numbered as Table PEC-12 words 0x64-0x6F -/
  | op (i : Fin 12)
  | alu (u : Bool) (code : Fin 32)
  | mac (code : Fin 7) (lane : Fin 4)
  | div (code : Fin 5)
  | lsu (code : Fin 10)
  | crc (code : Fin 6)
  | fwu (code : Fin 5)
  | snap
  /-- JMP, BR, CALL, RET, KEND, WAIT -/
  | cu (code : Fin 6)
  | null
deriving DecidableEq, Repr

/-- A source port (Table PEC-4) or an immediate (Table PEC-15). -/
inductive Src where
  | g (i : Fin 64)
  | a (i : Fin 4)
  | ag (i : Fin 4)
  | pred
  | flg
  | rpt (i : Fin 3)
  | lp (n : Fin 4) (f : Fin 3)
  /-- result port, numbered as Table PEC-12 words 0x70-0x7D -/
  | res (i : Fin 14)
  /-- unit state port, numbered as Table PEC-12 words 0x64-0x6F -/
  | op (i : Fin 12)
  | rxpi
  | cyc
  | evt
  | ctx
  | inst
  | imm (v : Word)
  | limm
deriving DecidableEq, Repr

/-- The operand and unit state ports by their word of Table PEC-12, less 0x64. -/
def oAlu0 : Fin 12 := 0
def oAlu1 : Fin 12 := 1
def oMac : Fin 12 := 2
def oDiv : Fin 12 := 3
def oLsu : Fin 12 := 4
def oPtr : Fin 12 := 5
def oStride : Fin 12 := 6
def oCrcSel : Fin 12 := 7
def oCrcPoly : Fin 12 := 8
def oCrcState : Fin 12 := 9
def oFwuSrc : Fin 12 := 10
def oFwuDst : Fin 12 := 11

/-- The result ports by their word of Table PEC-12, less 0x70. -/
def rAlu0 : Fin 14 := 0
def rAlu1 : Fin 14 := 1
def rMres (n : Fin 4) : Fin 14 := Fin.ofNat 14 (2 + n.val)
def rDiv : Fin 14 := 6
def rLsu : Fin 14 := 7
def rCrc : Fin 14 := 8
def rFwuStat : Fin 14 := 9
def rDtpNs : Fin 14 := 10
def rDtpFrac : Fin 14 := 11
def rDtpSec : Fin 14 := 12
def rDtpInfo : Fin 14 := 13

/-- The destination an identifier names; none: reserved (R98, Table PEC-3). -/
def destOf (d : Byte) : Option Dest :=
  let n := d.toNat
  if n < 0x40 then some (.g (Fin.ofNat 64 n))
  else if n < 0x44 then some (.a (Fin.ofNat 4 (n - 0x40)))
  else if n < 0x48 then some (.ag (Fin.ofNat 4 (n - 0x44)))
  else if n < 0x50 then some (.p (Fin.ofNat 8 (n - 0x48)))
  else if n = 0x50 then some .flg
  else if n < 0x54 then some (.rpt (Fin.ofNat 3 (n - 0x51)))
  else if n < 0x60 then some (.lp (Fin.ofNat 4 ((n - 0x54) / 3)) (Fin.ofNat 3 ((n - 0x54) % 3)))
  else if n = 0x60 then some (.op oAlu0)
  else if n < 0x80 then some (.alu false (Fin.ofNat 32 (n - 0x60)))
  else if n = 0x80 then some (.op oAlu1)
  else if n < 0xA0 then some (.alu true (Fin.ofNat 32 (n - 0x80)))
  else if n = 0xA0 then some (.op oMac)
  else if n ≤ 0xBC then some (.mac (Fin.ofNat 7 ((n - 0xA1) / 4)) (Fin.ofNat 4 ((n - 0xA1) % 4)))
  else if n < 0xC0 then none
  else if n = 0xC0 then some (.op oDiv)
  else if n ≤ 0xC5 then some (.div (Fin.ofNat 5 (n - 0xC1)))
  else if n < 0xC8 then none
  else if n = 0xC8 then some (.op oLsu)
  else if n = 0xC9 then some (.op oPtr)
  else if n = 0xCA then some (.op oStride)
  else if n ≤ 0xD4 then some (.lsu (Fin.ofNat 10 (n - 0xCB)))
  else if n < 0xD8 then none
  else if n = 0xD8 then some (.op oCrcSel)
  else if n = 0xD9 then some (.op oCrcPoly)
  else if n ≤ 0xDF then some (.crc (Fin.ofNat 6 (n - 0xDA)))
  else if n = 0xE0 then some (.op oFwuSrc)
  else if n = 0xE1 then some (.op oFwuDst)
  else if n ≤ 0xE6 then some (.fwu (Fin.ofNat 5 (n - 0xE2)))
  else if n = 0xE8 then some .snap
  else if n < 0xF0 then none
  else if n ≤ 0xF5 then some (.cu (Fin.ofNat 6 (n - 0xF0)))
  else if n = 0xFF then some .null
  else none

/-- The source an identifier names, with the immediate bits of its slot; none: reserved (R98, R129). -/
def srcOf (s : Byte) (immx : BitVec 7) : Option Src :=
  let n := s.toNat
  if n < 0x40 then some (.g (Fin.ofNat 64 n))
  else if n < 0x44 then some (.a (Fin.ofNat 4 (n - 0x40)))
  else if n < 0x48 then some (.ag (Fin.ofNat 4 (n - 0x44)))
  else if n = 0x48 then some .pred
  else if n < 0x50 then none
  else if n = 0x50 then some .flg
  else if n < 0x54 then some (.rpt (Fin.ofNat 3 (n - 0x51)))
  else if n < 0x60 then some (.lp (Fin.ofNat 4 ((n - 0x54) / 3)) (Fin.ofNat 3 ((n - 0x54) % 3)))
  else if n ≤ 0x67 then some (.res (Fin.ofNat 14 (n - 0x60)))
  else if n = 0x68 then some (.op oPtr)
  else if n = 0x69 then some (.op oStride)
  else if n = 0x6A then some (.res rCrc)
  else if n = 0x6B then some (.res rFwuStat)
  else if n = 0x6C then some .rxpi
  else if n ≤ 0x70 then some (.res (Fin.ofNat 14 (n - 0x6D + 10)))
  else if n = 0x71 then some .cyc
  else if n = 0x72 then some .evt
  else if n = 0x73 then some .ctx
  else if n = 0x74 then some .inst
  else if n < 0xE0 then none
  else if n < 0xF0 then
    -- SIMM: 11 bits, two's complement (R129)
    let v := 128 * (n % 16) + immx.toNat
    some (.imm (BitVec.ofInt 32 (if v < 1024 then (v : Int) else (v : Int) - 2048)))
  else if n < 0xF8 then some (.imm (BitVec.ofNat 32 (2 ^ 22 * (128 * (n % 8) + immx.toNat))))
  else if n = 0xF8 then some .limm
  else if n = 0xF9 then some (.imm 0x7FFFFFFF#32)
  else if n = 0xFA then some (.imm 0x80000000#32)
  else none

/-- The fields of one slot word (Table PEC-13). -/
def slotOf (w : Word) : Slot :=
  { dst := w.extractLsb' 24 8, src := w.extractLsb' 16 8, guard := w.extractLsb' 11 5,
    sat := w.getLsbD 10, rnd := w.extractLsb' 8 2, rpt := w.getLsbD 7, immx := w.extractLsb' 0 7, lit := none }

/-- The slots of an instruction, lowest first. A LIMM consumes the next slot (R130); a LIMM in slot 3 is the
program fault BAD_ENC, shown by the flag. -/
def slotsOf : List Word → List Slot × Bool
  | [] => ([], false)
  | [w] => ([slotOf w], decide ((slotOf w).src = 0xF8#8))
  | w :: v :: r =>
    if (slotOf w).src = 0xF8#8 then
      let t := slotsOf r
      ({ slotOf w with lit := some v } :: t.1, t.2)
    else
      let t := slotsOf (v :: r)
      (slotOf w :: t.1, t.2)

/-- Whether a guard code is reserved (Table PEC-14). -/
def guardReserved (g : BitVec 5) : Bool := decide (2 ≤ g.toNat ∧ g.toNat < 16)

/-- Whether a move is performed: the guard reads the predicates as they stand before the instruction (R127). -/
def guardTrue (p : BitVec 8) (g : BitVec 5) : Bool :=
  let n := g.toNat
  if n = 0 then true
  else if n < 16 then false
  else if n < 24 then p.getLsbD (n - 16)
  else !(p.getLsbD (n - 24))

/-- The unit whose triggers collide (R95): ALU0, ALU1, each MAC lane, divider, LSU, CRC/hash, FWU, Datum
port, control unit; none for a port that is written. -/
def unitOf : Dest → Option Nat
  | .alu u _ => some (if u then 1 else 0)
  | .mac _ lane => some (2 + lane.val)
  | .div _ => some 6
  | .lsu _ => some 7
  | .crc _ => some 8
  | .fwu _ => some 9
  | .snap => some 10
  | .cu _ => some 11
  | _ => none

/-- Whether two destinations collide: the same port, or triggers of the same unit (R95). -/
def collide (x y : Dest) : Bool :=
  match unitOf x, unitOf y with
  | some a, some b => decide (a = b)
  | none, none => decide (x = y)
  | _, _ => false

/-- Whether a slot is an immediate source (Table PEC-15), for the repeat classes of Table PEC-20. -/
def srcIsImm (s : Byte) : Bool := decide (0xE0 ≤ s.toNat ∧ s.toNat ≤ 0xFA)

/-- The classes of a repeated slot (Table PEC-20). -/
inductive RptClass where
  | walk | storeWalk | storeFill | blockCopy
deriving DecidableEq, Repr

/-- The class of a repeated slot; none: BAD_RPT (R138). -/
def rptClass (s : Slot) : Option RptClass :=
  if s.dst.toNat < 0x40 ∧ s.src.toNat < 0x40 then some .walk
  else if s.dst = 0xD4#8 ∧ s.src.toNat < 0x40 then some .storeWalk
  else if s.dst = 0xD4#8 ∧ srcIsImm s.src then some .storeFill
  else if s.dst = 0xE2#8 ∧ srcIsImm s.src then some .blockCopy
  else none

end Sys2Proof.Machine
end

