-- ==== Sys2Proof/Machine/Flags.lean ====
section
/-! DEFINITION. The arithmetic of an engine's units with the flags it sets (06, R131-R136): rounding, the
overflow rule, the ALUs, the MAC lanes, the divider and the CRC unit. Each result carries the FLG bits it
sets in the cycle it lands (R90). -/

namespace Sys2Proof.Machine

/-- FLG bits: OV, DZ, BE (R90). -/
def flagOV : BitVec 3 := 1
def flagDZ : BitVec 3 := 2
def flagBE : BitVec 3 := 4

/-- A unit's result with the FLG bits it sets. -/
structure URes where
  v : Word
  fl : BitVec 3
deriving DecidableEq, Repr

/-- Rounding of the exact quotient num / den, den positive, under RND (Table PEC-18). -/
def roundQ (rnd : BitVec 2) (num : Int) (den : Nat) : Int :=
  let f := Int.fdiv num den
  let r := num - f * den
  match rnd.toNat with
  | 0 => f
  | 1 => Int.fdiv (2 * num + den) (2 * den)
  | 2 => if 2 * r < den then f else if (den : Int) < 2 * r then f + 1 else if f % 2 = 0 then f else f + 1
  | _ => Int.tdiv num den

/-- R134: a rounded result in w bits; outside the range SAT gives the nearer end, wrapping the low bits, and
OV is set in both modes. -/
def fit (w : Nat) (sat : Bool) (q : Int) : BitVec w × Bool :=
  let hi : Int := 2 ^ (w - 1) - 1
  let lo : Int := -(2 ^ (w - 1))
  if lo ≤ q ∧ q ≤ hi then (BitVec.ofInt w q, false)
  else (if sat then BitVec.ofInt w (if q < 0 then lo else hi) else BitVec.ofInt w q, true)

/-- OV as FLG bits. -/
def ovBits (b : Bool) : BitVec 3 := if b then flagOV else 0

/-- A 32-bit result under SAT. -/
def fit32 (sat : Bool) (q : Int) : URes := let r := fit 32 sat q; ⟨r.1, ovBits r.2⟩

/-- Two Q1.15 halves under SAT; either half's overflow sets OV. -/
def fit16x2 (sat : Bool) (qh ql : Int) : URes :=
  let h := fit 16 sat qh
  let l := fit 16 sat ql
  ⟨h.1 ++ l.1, ovBits (h.2 || l.2)⟩

/-- The signed halves of a word. -/
def hiHalf (x : Word) : Int := (x.extractLsb' 16 16).toInt
def loHalf (x : Word) : Int := (x.extractLsb' 0 16).toInt

/-- A truth value as the word 1 or 0. -/
def boolW (b : Bool) : Word := if b then 1 else 0

/-- A result with no flag. -/
def plain (v : Word) : URes := ⟨v, 0⟩

/-- SLS: left shift, saturating (Table PEC-19). -/
def aluSls (sat : Bool) (o t : Word) : URes :=
  if t.toNat < 32 then fit32 sat (o.toInt * 2 ^ t.toNat)
  else if o = 0 then plain 0
  else ⟨if sat then (if o.toInt < 0 then 0x80000000#32 else 0x7FFFFFFF#32) else 0, flagOV⟩

/-- Leading zeros of a word, 0-32. -/
def clz32 (t : Word) : Nat :=
  ((List.range 32).takeWhile (fun i => !(t.getLsbD (31 - i)))).length

/-- The ALU operations of Table PEC-5 on operand `o` and trigger value `t`. -/
def aluOp (code : Fin 32) (sat : Bool) (o t : Word) : URes :=
  match code.val with
  | 0x01 => fit32 sat (o.toInt + t.toInt)
  | 0x02 => fit32 sat (o.toInt - t.toInt)
  | 0x03 => plain (o &&& t)
  | 0x04 => plain (o ||| t)
  | 0x05 => plain (o ^^^ t)
  | 0x06 => plain (o &&& ~~~t)
  | 0x07 => plain t
  | 0x08 => fit32 sat (-t.toInt)
  | 0x09 => fit32 sat (if t.toInt < 0 then -t.toInt else t.toInt)
  | 0x0A => plain (~~~t)
  | 0x0B => plain (if t.toNat < 32 then o <<< t.toNat else 0)
  | 0x0C => plain (if t.toNat < 32 then o >>> t.toNat else 0)
  | 0x0D => plain (if t.toNat < 32 then o.sshiftRight t.toNat else if o.toInt < 0 then 0xFFFFFFFF#32 else 0)
  | 0x0E => aluSls sat o t
  | 0x0F => plain (o.rotateLeft (t.toNat % 32))
  | 0x10 => plain (if o.toInt ≤ t.toInt then o else t)
  | 0x11 => plain (if o.toInt ≤ t.toInt then t else o)
  | 0x12 => plain (if o.toNat ≤ t.toNat then o else t)
  | 0x13 => plain (if o.toNat ≤ t.toNat then t else o)
  | 0x14 => plain (boolW (decide (o = t)))
  | 0x15 => plain (boolW (decide (o ≠ t)))
  | 0x16 => plain (boolW (decide (o.toInt < t.toInt)))
  | 0x17 => plain (boolW (decide (o.toInt ≤ t.toInt)))
  | 0x18 => plain (boolW (decide (o.toNat < t.toNat)))
  | 0x19 => plain (boolW (decide (o.toNat ≤ t.toNat)))
  | 0x1A => fit16x2 sat (hiHalf o + hiHalf t) (loHalf o + loHalf t)
  | 0x1B => fit16x2 sat (hiHalf o - hiHalf t) (loHalf o - loHalf t)
  | 0x1C => fit16x2 sat (-hiHalf t) (-loHalf t)
  | 0x1D => plain (w32 (clz32 t))
  | 0x1E => plain (t.extractLsb' 0 8 ++ t.extractLsb' 8 8 ++ t.extractLsb' 16 8 ++ t.extractLsb' 24 8)
  | 0x1F =>
    let pos := fieldOf t 8 5
    let wid := fieldOf t 0 6
    plain (if wid = 0 then 0 else if 32 ≤ wid then o >>> pos else w32 (fieldOf o pos wid))
  | _ => plain 0

/-- MULF, MULI, MULH and MUL2 of Table PEC-6: the results that do not accumulate. -/
def mulOp (code : Fin 7) (sat : Bool) (rnd : BitVec 2) (o t : Word) : URes :=
  let pr := o.toInt * t.toInt
  match code.val with
  | 0 => fit32 sat (roundQ rnd pr (2 ^ 31))
  | 1 => plain (BitVec.ofInt 32 pr)
  | 2 => plain (BitVec.ofInt 32 (Int.fdiv pr (2 ^ 32)))
  | 5 => fit16x2 sat (roundQ rnd (hiHalf o * hiHalf t) (2 ^ 15)) (roundQ rnd (loHalf o * loHalf t) (2 ^ 15))
  | _ => plain 0

/-- What MACF, MSUF and DOT2 add to An, in units of 2^-31 (R100, Table PEC-17); none for the others. -/
def macDelta (code : Fin 7) (rnd : BitVec 2) (o t : Word) : Option Int :=
  match code.val with
  | 3 => some (roundQ rnd (o.toInt * t.toInt) (2 ^ 31))
  | 4 => some (-(roundQ rnd (o.toInt * t.toInt) (2 ^ 31)))
  | 6 => some (2 * (hiHalf o * hiHalf t + loHalf o * loHalf t))
  | _ => none

/-- Narrowing An to 32 bits (R135). -/
def narrow (sat : Bool) (a : BitVec 40) : URes := fit32 sat a.toInt

/-- An accumulate landing on An: the new An, MRESn and the FLG bits (R100, R134, R135). -/
def accumulate (sat : Bool) (a : BitVec 40) (delta : Int) : BitVec 40 × URes :=
  let r := fit 40 sat (a.toInt + delta)
  let m := narrow sat r.1
  (r.1, ⟨m.v, m.fl ||| ovBits r.2⟩)

/-- Results of division by zero (Table PEC-19). -/
def divZero (code : Fin 5) (o : Word) : URes :=
  ⟨match code.val with
    | 0 | 4 => if o = 0 then 0 else if o.toInt < 0 then 0x80000000#32 else 0x7FFFFFFF#32
    | 1 => if o = 0 then 0 else 0xFFFFFFFF#32
    | _ => o,
   flagDZ⟩

/-- The divider: DIVS, DIVU, REMS, REMU, DIVF (R100, R136). -/
def divOp (code : Fin 5) (sat : Bool) (rnd : BitVec 2) (o t : Word) : URes :=
  if t = 0 then divZero code o
  else match code.val with
    | 0 => fit32 sat (Int.tdiv o.toInt t.toInt)
    | 1 => plain (BitVec.ofNat 32 (o.toNat / t.toNat))
    | 2 => plain (BitVec.ofInt 32 (Int.tmod o.toInt t.toInt))
    | 3 => plain (BitVec.ofNat 32 (o.toNat % t.toNat))
    | _ =>
      let num : Int := o.toInt * 2 ^ 31
      fit32 sat (if t.toInt < 0 then roundQ rnd (-num) t.toInt.natAbs else roundQ rnd num t.toInt.natAbs)

/-- The width of the algorithm CRC.SEL[2:0] selects (R105). -/
def crcWidth (sel : Word) : Nat :=
  match fieldOf sel 0 3 with
  | 2 => 16
  | 3 => 8
  | _ => 32

/-- A state masked to the width of the algorithm selected (R105). -/
def crcMask (sel x : Word) : Word := w32 (x.toNat % 2 ^ crcWidth sel)

/-- One bit of a CRC that is not reflected, of width w. -/
def crcMsbBit (w poly st : Nat) : Nat :=
  if st / 2 ^ (w - 1) % 2 = 1 then Nat.xor (st * 2 % 2 ^ w) poly else st * 2 % 2 ^ w

/-- n bits of it. -/
def crcMsbBits (w poly : Nat) : Nat → Nat → Nat
  | 0, st => st
  | n + 1, st => crcMsbBits w poly n (crcMsbBit w poly st)

/-- Fold one byte into the CRC state under CRC.SEL (R105). -/
def crcUnitByte (sel poly st : Word) (b : Byte) : Word :=
  match fieldOf sel 0 3 with
  | 1 => crcByte 0x82F63B78#32 st b
  | 2 => w32 (crcMsbBits 16 0x1021 8 (Nat.xor (st.toNat % 2 ^ 16) (b.toNat * 2 ^ 8)))
  | 3 => w32 (crcMsbBits 8 0x07 8 (Nat.xor (st.toNat % 2 ^ 8) b.toNat))
  | 4 => w32 (crcMsbBits 32 poly.toNat 8 (Nat.xor st.toNat (b.toNat * 2 ^ 24)))
  | _ => crcByte 0xEDB88320#32 st b

/-- Fold the low n bytes of T into the CRC state, lowest byte first (R105). -/
def crcUnitFold (sel poly st t : Word) (n : Nat) : Word :=
  (leBytes t |>.take n).foldl (crcUnitByte sel poly) st

/-- CRC.HASH: CRC-32C of the four bytes of T, initial value all ones, no final XOR (R105). -/
def crcHash (t : Word) : Word := crcFold 0x82F63B78#32 0xFFFFFFFF#32 (leBytes t)

end Sys2Proof.Machine
end

