-- ==== Sys2Proof/Machine/Ctx.lean ====
section
/-! DEFINITION. The contexts of an engine (05): their words (Table PEC-12), the ports they read and write (Tables
PEC-3, PEC-4), and checkpoints (R156, R157). -/

namespace Sys2Proof.Machine

/-- A context of an engine: true the service context. -/
def ctxOf (x : Engine) (svc : Bool) : Ctx := if svc then x.s else x.k

/-- Replace it. -/
def withCtx (x : Engine) (svc : Bool) (c : Ctx) : Engine := if svc then { x with s := c } else { x with k := c }

/-- Replace a context of engine e. -/
def State.setCtx (s : State) (e : Fin 10) (svc : Bool) (c : Ctx) : State := s.setEng e (withCtx s.eng[e] svc c)

/-- A context of engine e. -/
def State.ctx (s : State) (e : Fin 10) (svc : Bool) : Ctx := ctxOf s.eng[e] svc

/-- Replace a result port. -/
def setRes (c : Ctx) (p : Fin 14) (v : Word) : Ctx := { c with res := vset c.res p v }

/-- Set FLG bits (R90). -/
def orFlg (c : Ctx) (fl : BitVec 3) : Ctx := { c with flg := c.flg ||| fl }

/-- Write an operand or unit state port; whatever writes CRC.SEL or the CRC state, state bits above the width of the
algorithm selected are 0 (R105). -/
def setOp (c : Ctx) (i : Fin 12) (v : Word) : Ctx :=
  let o := vset c.ops i v
  { c with ops := if i = oCrcSel ∨ i = oCrcState then vset o oCrcState (crcMask o[oCrcSel] o[oCrcState]) else o }

/-- A loop register: START, END, CNT. -/
def lpRead (l : LoopRegs) (f : Fin 3) : Word :=
  match f with
  | 0 => l.start.setWidth 32
  | 1 => l.stop.setWidth 32
  | _ => l.cnt.setWidth 32

/-- Write it. -/
def lpWrite (l : LoopRegs) (f : Fin 3) (v : Word) : LoopRegs :=
  match f with
  | 0 => { l with start := v.setWidth 12 }
  | 1 => { l with stop := v.setWidth 12 }
  | _ => { l with cnt := v.setWidth 16 }

/-- Repeat state as read: RPT_CNT, RPT_SRC, RPT_DST (R137). -/
def rptRead (c : Ctx) (i : Fin 3) : Word :=
  match i with
  | 0 => w32 (2 ^ 31 * b2n c.rptRun + c.rptCnt.toNat)
  | 1 => c.rptSrc.setWidth 32
  | _ => c.rptDst.setWidth 32

/-- A move into the repeat state: RPT_CNT takes COUNT and clears RUN (R137). -/
def rptWrite (c : Ctx) (i : Fin 3) (v : Word) : Ctx :=
  match i with
  | 0 => { c with rptCnt := v.setWidth 16, rptRun := false }
  | 1 => { c with rptSrc := v.setWidth 8 }
  | _ => { c with rptDst := v.setWidth 8 }

/-- A move into a port that is written, not triggered (Table PEC-3). -/
def portWrite (c : Ctx) (d : Dest) (v : Word) : Ctx :=
  match d with
  | .g i => { c with g := vset c.g i v }
  | .a i => { c with a := vset c.a i (v.signExtend 40) }
  | .ag i => { c with a := vset c.a i ((v.extractLsb' 0 8) ++ (c.a[i].extractLsb' 0 32)) }
  | .p i => { c with p := setBit c.p i.val (v ≠ 0) }
  | .flg => { c with flg := v.setWidth 3 }
  | .rpt i => rptWrite c i v
  | .lp n f => { c with lp := vmod c.lp n (fun l => lpWrite l f v) }
  | .op i => setOp c i v
  | _ => c

/-- What a source reads, with the FLG bits its narrowing sets (Table PEC-4, R135). -/
def srcRead (x : Engine) (svc : Bool) (sl : Slot) (src : Src) : URes :=
  let c := ctxOf x svc
  match src with
  | .g i => plain c.g[i]
  | .a i => narrow sl.sat c.a[i]
  | .ag i => plain ((c.a[i].extractLsb' 32 8).signExtend 32)
  | .pred => plain (c.p.setWidth 32)
  | .flg => plain (c.flg.setWidth 32)
  | .rpt i => plain (rptRead c i)
  | .lp n f => plain (lpRead c.lp[n] f)
  | .res i => plain c.res[i]
  | .op i => plain c.ops[i]
  | .rxpi => plain (x.rxPi.setWidth 32)
  | .cyc => plain x.cyc
  | .evt => plain (c.evt.setWidth 32)
  | .ctx => plain (w32 (b2n svc))
  | .inst => plain (match x.role with | some r => w32 r.val | none => 0)
  | .imm v => plain v
  | .limm => plain (sl.lit.getD 0)

/-! Words of a context (Table PEC-12). -/

/-- Word k of a context; the loop registers exist in the kernel context only (R91). -/
def ctxWord (c : Ctx) (svc : Bool) (k : Nat) : Word :=
  if k < 0x40 then c.g[Fin.ofNat 64 k]
  else if k < 0x48 then
    let a := c.a[Fin.ofNat 4 ((k - 0x40) / 2)]
    if k % 2 = 0 then a.extractLsb' 0 32 else (a.extractLsb' 32 8).setWidth 32
  else if k = 0x48 then c.p.setWidth 32
  else if k = 0x49 then c.flg.setWidth 32
  else if k = 0x4A then c.pc.setWidth 32
  else if k = 0x4B then (match c.pend with | some t => w32 (2 ^ 31 + t.toNat) | none => 0)
  else if k < 0x4F then rptRead c (Fin.ofNat 3 (k - 0x4C))
  else if k < 0x5B then
    if svc then 0 else lpRead c.lp[Fin.ofNat 4 ((k - 0x4F) / 3)] (Fin.ofNat 3 ((k - 0x4F) % 3))
  else if k = 0x5B then w32 c.depth.val
  else if k < 0x64 then c.stack[Fin.ofNat 8 (k - 0x5C)].setWidth 32
  else if k < 0x70 then c.ops[Fin.ofNat 12 (k - 0x64)]
  else if k < 0x7E then c.res[Fin.ofNat 14 (k - 0x70)]
  else 0

/-- Write word k of a context, as the debugger or a restored checkpoint does (R123, R140, R158). -/
def setCtxWord (c : Ctx) (k : Nat) (v : Word) : Ctx :=
  if k < 0x40 then { c with g := vset c.g (Fin.ofNat 64 k) v }
  else if k < 0x48 then
    let i : Fin 4 := Fin.ofNat 4 ((k - 0x40) / 2)
    let a := c.a[i]
    { c with a := vset c.a i (if k % 2 = 0 then a.extractLsb' 32 8 ++ v else v.extractLsb' 0 8 ++ a.extractLsb' 0 32) }
  else if k = 0x48 then { c with p := v.setWidth 8 }
  else if k = 0x49 then { c with flg := v.setWidth 3 }
  else if k = 0x4A then { c with pc := v.setWidth 12 }
  else if k = 0x4B then { c with pend := if bitOf v 31 then some (v.setWidth 12) else none }
  else if k < 0x4F then rptWrite c (Fin.ofNat 3 (k - 0x4C)) v
  else if k < 0x5B then
    { c with lp := vmod c.lp (Fin.ofNat 4 ((k - 0x4F) / 3)) (fun l => lpWrite l (Fin.ofNat 3 ((k - 0x4F) % 3)) v) }
  else if k = 0x5B then { c with depth := Fin.ofNat 9 v.toNat }
  else if k < 0x64 then { c with stack := vset c.stack (Fin.ofNat 8 (k - 0x5C)) (v.setWidth 12) }
  else if k < 0x70 then setOp c (Fin.ofNat 12 (k - 0x64)) v
  else if k < 0x7E then setRes c (Fin.ofNat 14 (k - 0x70)) v
  else c

/-- The state a checkpoint holds: words 0x00-0x7D (R157). -/
def ctxWords (c : Ctx) : List Word := (List.range 126).map (ctxWord c false)

/-- A kernel context from the words of a checkpoint. -/
def ctxFrom (ws : List Word) : Ctx :=
  (List.range 126).foldl (fun c k => setCtxWord c k (ws.getD k 0)) Ctx.reset

/-! The checkpoint area (R156, Table PEC-29): the last 1,024 bytes of dual-port window 3, two slots. -/

/-- The offset of the slot of a cycle number in the bank of window 3. -/
def ckptOff (cyc : Word) : Nat := 0x3C00 + cyc.toNat % 2 * 0x200

/-- Write a slot, word 1 last (R157). -/
def State.writeSlot (s : State) (b : Nat) (ver : BitVec 16) (role : Fin 10) (cyc : Word) (ws : List Word) : State :=
  let o := ckptOff cyc
  let s1 := s.ownerWrite b (o + 8) (ws.flatMap leBytes) 100
  (s1.ownerWrite b o (leBytes (w32 (65536 * ver.toNat + 256 * role.val))) 100).ownerWrite b (o + 4) (leBytes cyc) 100

/-- The kernel words of a slot. -/
def State.readSlot (s : State) (b : Nat) (cyc : Word) : List Word :=
  let bs := s.ownerRead b (ckptOff cyc + 8) 504 100
  (List.range 126).map (fun k => le32At bs (4 * k))

end Sys2Proof.Machine
end

