-- ==== Sys2Proof/Machine/Bind.lean ====
section
/-! DEFINITION. Engines and instances (05, 07): loading images, the bindings that move with an instance (R116), the
engine's stop at a fault (R119, R145), and the start of a takeover (R158). -/

namespace Sys2Proof.Machine

/-! Indirect tables moved whole. -/

/-- Copy a space of words to another: the target's former words are gone. -/
def State.copySpace (s : State) (u sp u' sp' : Nat) : State :=
  let src := s.tabs.filter (fun e => e.1 / 2 ^ 24 = 128 * u + sp)
  let rest := s.tabs.filter (fun e => e.1 / 2 ^ 24 ≠ 128 * u' + sp')
  { s with tabs := src.foldl (fun t e => amInsert t (tabKey u' sp' (e.1 % 2 ^ 24)) e.2) rest }

/-- Clear a space whose words read 0 at reset. -/
def State.wipeSpace (s : State) (u sp : Nat) : State :=
  { s with tabs := s.tabs.filter (fun e => e.1 / 2 ^ 24 ≠ 128 * u + sp) }

/-- The pseudo-space of an instruction bank (R113). -/
def imemSpace (bank : Bool) : Nat := 0x40 + b2n bank

/-- The four words of an instruction of an engine's bank. -/
def State.imemRead (s : State) (e : Fin 10) (bank : Bool) (pc : Nat) : List Word :=
  s.tabWords (.pec e) (imemSpace bank) (pc * 4) 4

/-- Write instructions `lo` to `lo + n - 1` of an image store into an engine's bank (R149). -/
def State.loadImem (s : State) (e : Fin 10) (bank : Bool) (img : Image) (lo n : Nat) : State :=
  let bs := s.bankRead img.bank.val (lo * 16) (n * 16)
  s.setTabs (.pec e) (imemSpace bank) (lo * 4) ((List.range (n * 4)).map (fun k => le32At bs (4 * k)))

/-- The loaded image of a handle. -/
def State.imageOf (s : State) (h : Byte) : Option Image := s.images.find? (fun i => i.handle = h)

/-- Write a whole image into a cleared bank. -/
def State.loadWhole (s : State) (e : Fin 10) (bank : Bool) (img : Image) : State :=
  (s.wipeSpace (blkIdx (.pec e)) (imemSpace bank)).loadImem e bank img 0 img.imgLen

/-! Bindings (R116, Table PEC-28). -/

/-- The lowest-numbered engine in SPARE, a powered one preferred (R158). -/
def State.pickEngine (s : State) : Option (Fin 10) :=
  let es := (List.range 10).map (Fin.ofNat 10)
  match es.find? (fun e => s.eng[e].st = .spare && s.islandOn (3 + e.val)) with
  | some e => some e
  | none => es.find? (fun e => s.eng[e].st = .spare)

/-- A register copied from one engine to another. -/
def State.copyReg (s : State) (a a' : Nat) : State := s.setReg a' (s.reg a)

/-- The window map, the window table, the port rings, the grants, the watchdog's limits and EN move from one
engine to another with an instance; the first is left without them. -/
def State.moveBindings (s : State) (f t : Fin 10) : State :=
  let u := blkIdx (.pec f)
  let u' := blkIdx (.pec t)
  let s1 := ((s.copySpace u 2 u' 2).copySpace u 3 u' 3).copySpace u 6 u' 6
  let s2 := ((s1.wipeSpace u 2).wipeSpace u 3).wipeSpace u 6
  let s3 := (((s2.copyReg (pecTtuGrant f.val) (pecTtuGrant t.val)).copyReg (pecTcuGrant f.val)
    (pecTcuGrant t.val)).copyReg (pecWdog f.val) (pecWdog t.val)).copyReg (pecWdecl f.val) (pecWdecl t.val)
  let s4 := ((s3.setReg (pecTtuGrant f.val) 0).setReg (pecTcuGrant f.val) 0).setRegBit (blkBase (.pec t)) 0
    (s3.en (.pec f))
  s4.setHold (.pec t) (s4.inHold (.pec f))

/-- Whether some mailbox a role receives holds a message (R344, R345). -/
def State.roleMail (s : State) (r : Fin 10) : Bool :=
  (List.range 64).any (fun k =>
    let b := Fin.ofNat 64 k
    s.mbxFullOf b && s.mbxReceiver b = BitVec.ofNat 8 (0x40 + r.val))

/-- An engine as it takes an instance: idle in both contexts, its window activity, its rings and a write of PEC_WDOG
still to come (R165) from the old engine. -/
def freshEngine (x old : Engine) (r : Fin 10) (mail : Bool) : Engine :=
  { Engine.reset with
    st := .active
    role := some r
    pipe := x.pipe
    wall := x.wall
    bank := x.bank
    fwuOn := old.fwuOn
    fwuNext := old.fwuNext
    fwuFresh := old.fwuFresh
    txPi := old.txPi
    txOdd := old.txOdd
    rxPi := old.rxPi
    rxOdd := old.rxOdd
    wdogNext := old.wdogNext
    wdog := old.wdog
    wdecl := old.wdecl
    evt := if mail then 1 else 0 }

/-- An engine as its fault leaves it: stopped, its registers and memories as they were (R119). -/
def stoppedEngine (x : Engine) (st : EngSt) : Engine :=
  { x with
    st := st
    role := none
    kern := .idle
    svc := .off
    kCount := none
    inCycle := false
    ckpt := .none
    freeze := 0
    halted := false
    heldStart := false
    swapPend := false
    takeover := .none
    svcOwed := false }

/-- An instance stops with no takeover: it has no engine, its gate is closed, its mailbox endpoint is reset (R145,
R161, R345). -/
def State.stopInst (s : State) (r : Fin 10) : State :=
  (s.modInst r (fun i => { i with stopped := true, engine := none, gate := false, due := false })).resetRole r

/-- Whether the re-execution of a cycle is owed to the engine that takes over from an engine (R158, R159, R161). -/
def rerunOwed (x : Engine) : Bool :=
  match x.takeover with
  | .selected b _ => b
  | .copied b _ => b
  | _ => x.inCycle

/-- Bind an instance to an engine; `n`: its turn among bindings. -/
def bindTo (t : Fin 10) (n : Nat) (i : Inst) : Inst := { i with engine := some t, heldSince := n }

/-- The spare that takes over the instance of a role: the one a rotation of that role has prepared (R163), else the
one R158 picks. -/
def State.spareFor (s : State) (r : Fin 10) : Option (Fin 10) :=
  match s.rotation with
  | some q => if q.role = r ∧ s.eng[q.spare].st = .spare then some q.spare else s.pickEngine
  | none => s.pickEngine

/-- A rotation that has chosen an engine as its spare ends with it (R163). -/
def State.dropRotation (s : State) (e : Fin 10) : State :=
  match s.rotation with
  | some q => if q.spare = e then { s with rotation := none } else s
  | none => s

/-- A rotation of a role ends when its instance hands over or stops (R163). -/
def State.dropRotationOf (s : State) (r : Fin 10) : State :=
  match s.rotation with
  | some q => if q.role = r then { s with rotation := none } else s
  | none => s

/-- A spare is selected and takes the bindings of an engine that fails; a gated one is woken (R158, d + 6). With
no spare the instance stays stopped (R161). -/
def State.takeOver (s : State) (f : Fin 10) (r : Fin 10) (rerun : Bool) : State :=
  match s.spareFor r with
  | none => (s.stopInst r).dropRotationOf r
  | some t =>
    let old := s.eng[f]
    let s1 := (s.dropRotation t).dropRotationOf r |>.moveBindings f t
    let x : Engine := { freshEngine s1.eng[t] old r (s.roleMail r) with takeover := .selected rerun f, svcOwed := true }
    let s2 := (s1.setEng t x).modInst r (bindTo t s.bindSeq)
    let s3 := { s2 with bindSeq := s2.bindSeq + 1 }
    if s3.islandOn (3 + t.val) then s3 else s3.wake (3 + t.val)

/-- A hard fault or a FENCE of an engine in one of its states, latched with the cause given (R119, R158, R161,
R164): an ACTIVE one hands over, one in DEBUG stays stopped with its engine, a SPARE leaves the pool, one in TEST
has failed it. -/
def State.fenceEngine (s : State) (e : Fin 10) (cause i8 : Byte) (i16 : Nat) : State :=
  let x := s.eng[e]
  let d : Fin 37 := Fin.ofNat 37 e.val
  match x.st with
  | .fenced => s
  | .off => (s.setEng e (stoppedEngine x .fenced)).fltLatch d cause i8 i16
  | .spare => ((s.setEng e (stoppedEngine x .fenced)).dropRotation e).fltLatch d cause i8 i16
  | .test =>
    let t := s.setEng e (stoppedEngine x .fenced)
    if cause = 0x0D then t.fltLatch d cause i8 i16 else t.fltLatch d 0x09 0 0
  | .debug =>
    let s1 := s.setEng e { stoppedEngine x .fenced with role := x.role }
    let s2 := match x.role with
      | some r => (s1.modInst r (fun i => { i with stopped := true, gate := false, due := false })).resetRole r
      | none => s1
    s2.fltLatch d cause i8 i16
  | .active =>
    let s1 := (s.setEng e (stoppedEngine x .fenced)).fltLatch d cause i8 i16
    match x.role with
    | some r => s1.takeOver e r (rerunOwed x)
    | none => s1

/-- The role an engine's fault entry names: 0xFF if none (Table FLT-2). -/
def roleInfo (x : Engine) : Byte :=
  match x.role with
  | some r => BitVec.ofNat 8 r.val
  | none => 0xFF

/-- A hard fault with its bits of PEC_FAULT (R119): not detected in OFF, a gated SPARE or FENCED. -/
def State.hardFaultBits (s : State) (e : Fin 10) (bits : Nat) : State :=
  let x := s.eng[e]
  if x.st = .fenced || x.st = .off || !s.islandOn (3 + e.val) then s
  else (s.setReg (pecFault e.val) (w32 bits)).fenceEngine e 0x01 (roleInfo x) bits

/-- A hard fault with its one bit. -/
def State.hardFault (s : State) (e : Fin 10) (bit : Nat) : State := s.hardFaultBits e (2 ^ bit)

/-- A program fault (R145): the engine stops and is fenced, and its instance stays stopped. `bits`: the hard faults of
PEC_FAULT detected in the same cycle, recorded with it (R146). -/
def State.programFault (s : State) (e : Fin 10) (code bits : Nat) : State :=
  let x := s.eng[e]
  let v := 256 * code + 1 + bits
  let s1 := (s.setReg (pecFault e.val) (w32 v)).setEng e (stoppedEngine x .fenced)
  let s2 := match x.role with
    | some r => (s1.stopInst r).dropRotationOf r
    | none => s1
  s2.fltLatch (Fin.ofNat 37 e.val) 0x02 (roleInfo x) v

end Sys2Proof.Machine
end

