-- ==== Sys2Proof/Machine/Evman.lean ====
section
/-! DEFINITION. The Evman machine (05, 06): results landing, the checks at issue, the moves of an instruction, its
triggers, branches, loops and repeats, the kernel cycle's start and end, and one ECLK of an engine. -/

namespace Sys2Proof.Machine

/-! Landing (R93, R97, R103). -/

/-- A snapshot lands in the Datum port's four results. -/
def landSnap (c : Ctx) : Landing → Ctx
  | .snap ns frac sec info => setRes (setRes (setRes (setRes c rDtpNs ns) rDtpFrac frac) rDtpSec sec) rDtpInfo info
  | _ => c

/-- What a snapshot of a domain holds that is latched after n more PCLK edges, with no correction in between: for a
result that is due before those edges have come (R107, log 17). -/
def State.snapIn (s : State) (d : Fin 4) (n : Nat) : Landing := s.dtpSnapOf d (dtAdd (s.time d) (n * s.incEff d))

/-- One result lands; the FLG bits it sets. -/
def State.landOne (s : State) (e : Fin 10) (f : InFlight) : State × BitVec 3 :=
  let c := s.ctx e f.svc
  match f.what with
  | .res p v fl => (s.setCtx e f.svc (orFlg (setRes c p v) fl), fl)
  | .acc lane delta sat =>
    let r := accumulate sat c.a[lane] delta
    (s.setCtx e f.svc (orFlg (setRes { c with a := vset c.a lane r.1 } (rMres lane) r.2.v) r.2.fl), r.2.fl)
  | .load v fl => (s.setCtx e f.svc (orFlg (setRes c rLsu v) fl), fl)
  | .flag fl => (s.setCtx e f.svc (orFlg c fl), fl)
  | .copy dst v fl =>
    let r := s.espWrite e dst.toNat (leBytes v)
    let fl' : BitVec 3 := if r.1 then fl else fl ||| flagBE
    (r.2.setCtx e f.svc (orFlg (r.2.ctx e f.svc) fl'), fl')
  | .stat k => (s.setCtx e f.svc (setRes c rFwuStat (s.fwuStat e k.val)), 0)
  | .snapAt d n => (s.setCtx e f.svc (landSnap c (s.snapIn d n)), 0)
  | .snap _ _ _ _ => (s.setCtx e f.svc (landSnap c f.what), 0)

/-- What has landed in a cycle: the operation, the FLG bits it set, and An of an accumulate as it stood before. -/
structure Landed where
  op : InFlight
  fl : BitVec 3
  an : BitVec 40
deriving DecidableEq, Repr

/-- The accumulator that a landing writes, as it stands. -/
def accOf (c : Ctx) (f : InFlight) : BitVec 40 :=
  match f.what with
  | .acc lane _ _ => c.a[lane]
  | _ => 0

/-- Results land in trigger order. -/
def State.landList (s : State) (e : Fin 10) : List InFlight → State × List Landed
  | [] => (s, [])
  | f :: r =>
    let a := s.landOne e f
    let b := a.1.landList e r
    (b.1, ⟨f, a.2, accOf (s.ctx e f.svc) f⟩ :: b.2)

/-- Whether an operation in flight is a load. -/
def isLoad (f : InFlight) : Bool := match f.what with | .load _ _ => true | _ => false

/-- Loads of one context that land together: all but the last are lost and counted (R103). -/
def lostLoads (l : List InFlight) : Nat :=
  ((l.filter (fun f => isLoad f && f.svc)).length - 1) + ((l.filter (fun f => isLoad f && !f.svc)).length - 1)

/-- Every result due at the pipeline cycle in force lands. -/
def State.landDue (s : State) (e : Fin 10) : State × List Landed :=
  let x := s.eng[e]
  let due := x.flight.filter (fun f => decide (f.at_ ≤ x.pipe))
  let rest := x.flight.filter (fun f => !decide (f.at_ ≤ x.pipe))
  ((s.setEng e { x with flight := rest }).countN (pecCollideCnt e.val) (lostLoads due)).landList e due

/-! Checks at issue (R128, R145-R147, Table PEC-22). -/

/-- Whether a destination is a control-unit port. -/
def isCu : Dest → Bool
  | .cu _ => true
  | _ => false

/-- Whether a slot uses a port its context may not use (R111). -/
def privBad (svc : Bool) (sl : Slot) : Bool :=
  let lpD := decide (0x54 ≤ sl.dst.toNat ∧ sl.dst.toNat < 0x60)
  let lpS := decide (0x54 ≤ sl.src.toNat ∧ sl.src.toNat < 0x60)
  if svc then lpD || lpS || sl.dst = 0xF4#8 else sl.dst = 0xF5#8

/-- Whether a slot writes the repeat state. -/
def writesRpt (sl : Slot) : Bool := decide (0x51 ≤ sl.dst.toNat ∧ sl.dst.toNat ≤ 0x53)

/-- Whether a walk of COUNT iterations would step past G63 (R138). -/
def walksPast (sl : Slot) (cnt : Nat) : Bool :=
  match rptClass sl with
  | some .walk => decide (64 < sl.dst.toNat + cnt) || decide (64 < sl.src.toNat + cnt)
  | some .storeWalk => decide (64 < sl.src.toNat + cnt)
  | _ => false

/-- Whether an instruction's repeated slots break R138. -/
def rptBad (sls : List Slot) (cnt : Nat) : Bool :=
  match sls.filter (·.rpt) with
  | [] => false
  | [r] => (rptClass r).isNone || walksPast r cnt || sls.any (fun t => decide (0xF0 ≤ t.dst.toNat ∧ t.dst.toNat ≤ 0xF5))
  | _ => true

/-- The fault of the encoding alone: the lowest code of BAD_PORT, BAD_ENC, CTX_PRIV, REPEAT_SELF, BAD_RPT; 0 for
none. `enc`: a LIMM in slot 3. -/
def staticFault (svc enc : Bool) (sls : List Slot) (cnt : Nat) : Nat :=
  if sls.any (fun t => (destOf t.dst).isNone || (srcOf t.src t.immx).isNone) then 1
  else if enc || sls.any (fun t => guardReserved t.guard) then 2
  else if sls.any (privBad svc) then 3
  else if sls.any (·.rpt) && sls.any writesRpt then 4
  else if rptBad sls cnt then 5
  else 0

/-- A slot with its destination. -/
structure Move where
  sl : Slot
  dst : Dest
deriving DecidableEq, Repr

/-- The moves whose guards are true (R96, R127). -/
def trueMoves (p : BitVec 8) (sls : List Slot) : List Move :=
  sls.filterMap (fun t => if guardTrue p t.guard then (destOf t.dst).map (fun d => ⟨t, d⟩) else none)

/-- Of colliding moves only that of the highest slot is left (R95). -/
def keepHighest : List Move → List Move
  | [] => []
  | x :: r => if r.any (fun y => collide x.dst y.dst) then keepHighest r else x :: keepHighest r

/-- The code of the control-unit move performed, if any: 0 JMP, 1 BR, 2 CALL, 3 RET, 4 KEND, 5 WAIT. -/
def cuOf (ms : List Move) : Option (Nat × Move) :=
  match ms.find? (fun m => isCu m.dst) with
  | some m => (match m.dst with | .cu c => some (c.val, m) | _ => none)
  | none => none

/-- The outcome of a loop check. -/
inductive LoopRes where
  | bad
  | ok (d : LoopDec)
deriving DecidableEq, Repr

/-- The check of the loops from LPn on, with the values standing before the END instruction (R141, R142). -/
def loopCheck (lp : Vector LoopRegs 4) (pc : BitVec 12) : List (Fin 4) → LoopRes
  | [] => .ok ⟨none, []⟩
  | n :: r =>
    let l := lp[n]
    if l.cnt = 0 || l.stop ≠ pc then loopCheck lp pc r
    else if l.stop.toNat < l.start.toNat then .bad
    else if l.cnt.toNat > 1 then .ok ⟨some l.start, [(n, l.cnt - 1)]⟩
    else
      match loopCheck lp pc r with
      | .bad => .bad
      | .ok d => .ok ⟨d.next, (n, 0) :: d.cnts⟩

/-- The loop check of an instruction: made in the kernel, for an instruction that holds no taken branch or KEND
and is no delay slot (R143). -/
def loopOf (x : Engine) (svc : Bool) (ms : List Move) : LoopRes :=
  let c := ctxOf x svc
  let branches := match cuOf ms with | some (k, _) => decide (k ≤ 4) | none => false
  if svc || branches || c.pend.isSome || x.kern = .delay then .ok ⟨none, []⟩
  else loopCheck c.lp c.pc [0, 1, 2, 3]

/-- The lowest fault of the moves performed: RSTACK_OVF, RSTACK_UNF, LOOP_BAD, BAD_SLOT; 0 for none. -/
def performFault (x : Engine) (svc : Bool) (ms : List Move) : Nat :=
  let c := ctxOf x svc
  let k := (cuOf ms).map (·.1)
  if k = some 2 && c.depth.val = 8 then 6
  else if k = some 3 && c.depth.val = 0 then 7
  else if loopOf x svc ms = .bad then 8
  else if k.isSome && !svc && x.kern = .delay then 9
  else if (k = some 4 || k = some 5) && c.pend.isSome then 9
  else 0

/-! Triggers (R94, R99-R107). -/

/-- An operation enters its unit's pipeline; its answer comes `late` ECLK after the cycle it is due in. -/
def State.launchLate (s : State) (e : Fin 10) (svc : Bool) (lat late : Nat) (w : Landing) : State :=
  let x := s.eng[e]
  s.setEng e { x with flight := x.flight ++ [⟨svc, x.pipe + lat, w, late⟩] }

/-- An operation enters its unit's pipeline. -/
def State.launch (s : State) (e : Fin 10) (svc : Bool) (lat : Nat) (w : Landing) : State := s.launchLate e svc lat 0 w

/-- Whether an answer crosses an island that reports CLK_DEGRADED: the engine's own or one of a path (R104). -/
def State.crossSlow (s : State) (e : Fin 10) (path : List Nat) : Bool :=
  !path.isEmpty && ((3 + e.val) :: path).any s.degraded

/-- A load, an FWU status request or a Datum snapshot enters its pipeline. Over a degraded crossing its answer is late by
a free value: each of at most four crossings takes 1 to 6 cycles of its destination (R26), fewer than 128 ECLK. -/
def State.launchFar (s : State) (e : Fin 10) (svc : Bool) (lat : Nat) (path : List Nat) (w : Landing) : State :=
  if s.crossSlow e path then s.draw.2.launchLate e svc lat (s.draw.1.toNat % 128) w else s.launch e svc lat w

/-- The bytes and the extension of an LSU operation. -/
def lsuSize : Nat → Nat
  | 0 | 5 | 8 | 9 => 4
  | 1 | 2 | 6 => 2
  | _ => 1

/-- A loaded value extended to 32 bits. -/
def lsuExtend (code : Nat) (v : Nat) : Word :=
  match code with
  | 1 => (BitVec.ofNat 16 v).signExtend 32
  | 3 => (BitVec.ofNat 8 v).signExtend 32
  | _ => w32 v

/-- Whether an LSU operation stores. -/
def lsuStores (code : Nat) : Bool := code = 5 || code = 6 || code = 7 || code = 9

/-- The bytes of a copied word at address d after a later store of bs at address a. -/
def overBytes (d : Nat) (old : List Byte) (a : Nat) (bs : List Byte) : List Byte :=
  (List.range 4).map (fun i => if a ≤ d + i ∧ d + i < a + bs.length then bs.getD (d + i - a) 0 else old.getD i 0)

/-- A copy in flight keeps, where it lands, the bytes of a store triggered after it (R101: accesses to one target
take effect in trigger order). -/
def copyUnder (a : Nat) (bs : List Byte) (f : InFlight) : InFlight :=
  match f.what with
  | .copy dst v fl => { f with what := .copy dst (w32 (leNat (overBytes dst.toNat (leBytes v) a bs))) fl }
  | _ => f

/-- A store triggered now lies over every copy of its engine in flight (R101). -/
def State.storeOver (s : State) (e : Fin 10) (a : Nat) (bs : List Byte) : State :=
  let x := s.eng[e]
  s.setEng e { x with flight := x.flight.map (copyUnder a bs) }

/-- An LSU trigger (R101, R102): its access takes effect in trigger order; a BUS_ERROR lands as FLG.BE. The PI
forms go by LSU.PTR and add LSU.STRIDE to it. -/
def State.lsu (s : State) (e : Fin 10) (svc : Bool) (code : Nat) (t : Word) : State :=
  let c := s.ctx e svc
  let n := lsuSize code
  let pi := decide (8 ≤ code)
  let a0 := (if pi then c.ops[oPtr] else t).toNat
  let a := a0 / n * n
  let s1 :=
    if lsuStores code then
      let v := if pi then t else c.ops[oLsu]
      let r := s.espWrite e a ((leBytes v).take n)
      if r.1 then r.2.storeOver e a ((leBytes v).take n) else r.2.launch e svc (espLat a) (.flag flagBE)
    else
      match s.espRead e a n with
      | (some bs, u) => u.launchFar e svc (espLat a) (espPath a) (.load (lsuExtend code (leNat bs)) 0)
      | (none, u) => u.launchFar e svc (espLat a) (espPath a) (.load 0 flagBE)
  if pi then
    let c1 := s1.ctx e svc
    s1.setCtx e svc (setOp c1 oPtr (c1.ops[oPtr] + c1.ops[oStride]))
  else s1

/-- A CRC/hash trigger (R105). -/
def State.crcTrig (s : State) (e : Fin 10) (svc : Bool) (code : Nat) (t : Word) : State :=
  let c := s.ctx e svc
  let sel := c.ops[oCrcSel]
  let poly := c.ops[oCrcPoly]
  let st := c.ops[oCrcState]
  match code with
  | 0 => s.setCtx e svc (setOp c oCrcState (crcMask sel t))
  | 1 => s.setCtx e svc (setOp c oCrcState (crcUnitFold sel poly st t 1))
  | 2 => s.setCtx e svc (setOp c oCrcState (crcUnitFold sel poly st t 2))
  | 3 => s.setCtx e svc (setOp c oCrcState (crcUnitFold sel poly st t 4))
  | 4 => s.launch e svc 2 (.res rCrc (crcMask sel (st ^^^ t)) 0)
  | _ => s.launch e svc 2 (.res rCrc (crcHash t) 0)

/-- FWU.CPY (R106): the word at FWU.SRC is stored at FWU.DST after 2 ECLK if both are local, else 12,
under whatever a later trigger stores there meanwhile (R101); a read answered with BUS_ERROR gives 0 and sets FLG.BE
at the landing (R102); both addresses advance by 4. -/
def State.fwuCopy (s : State) (e : Fin 10) (svc : Bool) : State :=
  let c := s.ctx e svc
  let src := c.ops[oFwuSrc]
  let dst := c.ops[oFwuDst]
  let lat := if espLat src.toNat = 2 ∧ espLat dst.toNat = 2 then 2 else 12
  let r := s.espRead e src.toNat 4
  let v : Word := match r.1 with | some bs => w32 (leNat bs) | none => 0
  let fl : BitVec 3 := if r.1.isSome then 0 else flagBE
  let s1 := (r.2.storeOver e dst.toNat (leBytes v)).launch e svc lat (.copy dst v fl)
  let c1 := s1.ctx e svc
  s1.setCtx e svc (setOp (setOp c1 oFwuSrc (src + 4)) oFwuDst (dst + 4))

/-- An FWU trigger (R106). -/
def State.fwuTrig (s : State) (e : Fin 10) (svc : Bool) (code : Nat) (t : Word) : State :=
  let x := s.eng[e]
  let k := fieldOf t 0 6
  match code with
  | 0 => s.fwuCopy e svc
  | 1 => s.setEng e { x with fwuNext := setBit x.fwuNext k true }
  | 2 => s.setEng e { x with fwuNext := setBit x.fwuNext k false }
  | 3 =>
    match s.fwuTxPost e t.toNat with
    | some u => u
    | none => s.launch e svc (espLat t.toNat) (.flag flagBE)
  | _ => s.launchFar e svc 2 [0] (.stat (Fin.ofNat 64 k))

/-- DTP.SNAP (R107): the Port island latches the request at the third PCLK edge after the trigger. -/
def State.dtpSnap (s : State) (e : Fin 10) (svc : Bool) (t : Word) : State :=
  s.launchFar e svc 10 [0] (.snapAt (Fin.ofNat 4 (fieldOf t 0 2)) 3)

/-- A trigger with its operand ports as the instruction's writes leave them (R94). -/
def State.trigger (s : State) (e : Fin 10) (svc : Bool) (sl : Slot) (d : Dest) (t : Word) : State :=
  let c := s.ctx e svc
  match d with
  | .alu u code =>
    let r := aluOp code sl.sat c.ops[if u then oAlu1 else oAlu0] t
    s.launch e svc 1 (.res (if u then rAlu1 else rAlu0) r.v r.fl)
  | .mac code lane =>
    match macDelta code sl.rnd c.ops[oMac] t with
    | some dl => s.launch e svc 4 (.acc lane dl sl.sat)
    | none =>
      let r := mulOp code sl.sat sl.rnd c.ops[oMac] t
      s.launch e svc 4 (.res (rMres lane) r.v r.fl)
  | .div code =>
    let r := divOp code sl.sat sl.rnd c.ops[oDiv] t
    s.launch e svc 18 (.res rDiv r.v r.fl)
  | .lsu code => s.lsu e svc code.val t
  | .crc code => s.crcTrig e svc code.val t
  | .fwu code => s.fwuTrig e svc code.val t
  | .snap => s.dtpSnap e svc t
  | _ => s

/-! Moves (R92, R95, R97). -/

/-- A move with the value it reads. -/
structure Moved where
  m : Move
  v : Word
  fl : BitVec 3
deriving DecidableEq, Repr

/-- The values of the moves, all read before any is written (R92). -/
def readMoves (x : Engine) (svc : Bool) (ms : List Move) : List Moved :=
  ms.map (fun m =>
    let r := match srcOf m.sl.src m.sl.immx with
      | some src => srcRead x svc m.sl src
      | none => plain 0
    ⟨m, r.v, r.fl⟩)

/-- Whether a destination is An's guard bits, written after An (R95). -/
def isAg : Dest → Bool
  | .ag _ => true
  | _ => false

/-- Whether a move writes An or AnG of a lane. -/
def movesAcc (lane : Fin 4) (d : Dest) : Bool := d = .a lane || d = .ag lane

/-- The port writes of an instruction. -/
def writeAll (c : Ctx) (vs : List Moved) : Ctx :=
  let f : Ctx → Moved → Ctx := fun c w => portWrite c w.m.dst w.v
  (vs.filter (fun w => isAg w.m.dst)).foldl f ((vs.filter (fun w => !isAg w.m.dst)).foldl f c)

/-- An accumulate that lands in the cycle of a move into its accumulator acts on the moved value (R97): of a move to
AnG alone, on the guard bits it gives and on An[31:0] as it stood. -/
def relandAcc (c : Ctx) (vs : List Moved) (l : Landed) : Ctx × BitVec 3 :=
  match l.op.what with
  | .acc lane delta sat =>
    if vs.any (fun w => movesAcc lane w.m.dst) then
      let moved := c.a[lane]
      let an := if vs.any (fun w => w.m.dst = .a lane) then moved
        else moved.extractLsb' 32 8 ++ l.an.extractLsb' 0 32
      let r := accumulate sat an delta
      (setRes { c with a := vset c.a lane r.1 } (rMres lane) r.2.v, r.2.fl)
    else (c, l.fl)
  | _ => (c, l.fl)

/-- The context after an instruction's moves: `flg0`: FLG before the cycle's landings, `ls`: what landed for this
context. FLG takes the moved value, then the bits of the cycle (R97). -/
def afterMoves (c : Ctx) (flg0 : BitVec 3) (vs : List Moved) (ls : List Landed) : Ctx :=
  let c1 := writeAll c vs
  let r := ls.foldl (fun (a : Ctx × BitVec 3) l => let b := relandAcc a.1 vs l; (b.1, a.2 ||| b.2)) (c1, 0#3)
  let base := if vs.any (fun w => w.m.dst = .flg) then c1.flg else flg0
  { r.1 with flg := base ||| r.2 ||| vs.foldl (fun a w => a ||| w.fl) 0 }

/-! Control (R108, R110, R141). -/

/-- CNT values of a loop check, but for a register the instruction itself moved into (R143). -/
def applyLoop (c : Ctx) (vs : List Moved) (d : LoopDec) : Ctx :=
  d.cnts.foldl (fun c p =>
    if vs.any (fun w => w.m.dst = .lp p.1 2) then c
    else { c with lp := vmod c.lp p.1 (fun l => { l with cnt := p.2 }) }) c

/-- The program counter moves on: to a pending target, to a loop's START, else to the next instruction; a taken
branch waits for its delay slot. -/
def advance (c : Ctx) (d : LoopDec) (taken : Option (BitVec 12)) : Ctx :=
  match c.pend with
  | some t => { c with pc := t, pend := taken }
  | none => { c with pc := (match d.next with | some a => a | none => c.pc + 1), pend := taken }

/-- The address of the instruction that follows in issue order: a branch's delay slot. -/
def slotAddr (c : Ctx) : BitVec 12 := match c.pend with | some t => t | none => c.pc + 1

/-- The target of a branch performed, and its return stack (R108). -/
def branchOf (c : Ctx) (cu : Option (Nat × Word)) : Option (BitVec 12) × Ctx :=
  match cu with
  | some (0, t) => (some (t.setWidth 12), c)
  | some (1, t) => (some (c.pc + t.setWidth 12), c)
  | some (2, t) =>
    (some (t.setWidth 12),
      { c with stack := vset c.stack (Fin.ofNat 8 c.depth.val) (slotAddr c + 1), depth := Fin.ofNat 9 (c.depth.val + 1) })
  | some (3, _) =>
    (some c.stack[Fin.ofNat 8 (c.depth.val - 1)], { c with depth := Fin.ofNat 9 (c.depth.val - 1) })
  | _ => (none, c)

/-- Whether an engine runs the newest image of its instance: no update awaits its swap (R165). -/
def State.newImage (s : State) (e : Fin 10) : Bool :=
  match s.eng[e].role with
  | some r => (match s.insts[r] with | some i => i.update.isNone | none => true)
  | none => true

/-- KEND issues (R110, R112, R157): the kernel's length is recorded, the checkpoint falls due, the kernel end is
pending for WAIT, and the next kernel instruction is its delay slot. -/
def State.kendIssue (s : State) (e : Fin 10) : State :=
  let x := s.eng[e]
  let n := x.kCount.getD 0
  let long := decide (x.wdecl.toNat < n)
  let s1 := s.setReg (pecKlast e.val) (w32 (n % 2 ^ 24))
  let s2 := if (s1.reg (pecKmax e.val)).toNat < n % 2 ^ 24 then s1.setReg (pecKmax e.val) (w32 (n % 2 ^ 24)) else s1
  let s3 := match s.newImage e, x.wdogNext with
    | true, some w => s2.setReg (pecWdog e.val) (w.setWidth 32)
    | _, _ => s2
  let x3 := s3.eng[e]
  (s3.setEng e { x3 with
    kern := .delay
    kCount := none
    ckpt := .due
    wExceeded := long
    wdogNext := if s.newImage e then none else x.wdogNext }).postEvt e 3

/-- WAIT issues (R110): with a selected event pending it ends at once. -/
def State.waitIssue (s : State) (e : Fin 10) (t : Word) : State :=
  let x := s.eng[e]
  let m : BitVec 4 := t.setWidth 4
  if x.evt &&& m ≠ 0 then
    s.setEng e { x with evt := x.evt &&& ~~~m, s := { x.s with evt := x.evt &&& m } }
  else s.setEng e { x with svc := .wait m }

/-- The service context of a takeover spare starts at 0x010 with its state at 0 (R160). -/
def startService (x : Engine) : Engine :=
  { x with s := { Ctx.reset with pc := 0x10 }, svc := .run, svcOwed := false }

/-- The delay slot of KEND has issued: the kernel stands, and the service context goes on after three cycles (R110);
the first KEND of a spare lets its service context start once its image is whole (R160). -/
def kernelDone (x : Engine) : Engine :=
  let y := { x with kern := .idle, sGap := 3, takeover := .none }
  if y.svcOwed && y.imgDone then startService y else y

/-! Issue. -/

/-- The repeat state after an iteration (Table PEC-20). -/
def repNext (c : Ctx) (sl : Slot) : Ctx :=
  let cls := rptClass sl
  { c with
    rptCnt := c.rptCnt - 1
    rptSrc := match cls with | some .walk | some .storeWalk => c.rptSrc + 1 | _ => c.rptSrc
    rptDst := match cls with | some .walk => c.rptDst + 1 | _ => c.rptDst }

/-- What follows an iteration: the repeat state steps, and after the last iteration the program goes on (R137,
R141). -/
def State.repAfter (s : State) (e : Fin 10) (svc : Bool) (sl : Slot) : State :=
  let c := repNext (s.ctx e svc) sl
  if c.rptCnt = 0 then
    let d := c.loopDec.getD ⟨none, []⟩
    let s1 := s.setCtx e svc (advance (applyLoop { c with rptRun := false, loopDec := none } [] d) d none)
    if !svc && s1.eng[e].kern = .delay then s1.setEng e (kernelDone s1.eng[e]) else s1
  else s.setCtx e svc { c with rptRun := true }

/-- One further iteration of a repeated slot (R137, Table PEC-20): it reads its source at its own issue. -/
def State.iterate (s : State) (e : Fin 10) (svc : Bool) (sl : Slot) : State :=
  let c := s.ctx e svc
  let cls := rptClass sl
  let v : Word := match cls with
    | some .walk | some .storeWalk => c.g[Fin.ofNat 64 c.rptSrc.toNat]
    | _ => match srcOf sl.src sl.immx with
      | some src => (srcRead s.eng[e] svc sl src).v
      | none => 0
  let s1 := match cls with
    | some .walk => s.setCtx e svc { c with g := vset c.g (Fin.ofNat 64 c.rptDst.toNat) v }
    | some .blockCopy => s.fwuTrig e svc 0 v
    | _ => s.lsu e svc 9 v
  s1.repAfter e svc sl

/-- The first or only issue of an instruction, past its checks (R92-R97, R137): `ms` the moves R95 leaves. A repeated
slot with COUNT = 0 performs nothing; else its first iteration is a move of the instruction, its source read with
those of the other moves. -/
def State.perform (s : State) (e : Fin 10) (svc : Bool) (flg0 : BitVec 3) (ls : List Landed) (ms : List Move) : State :=
  let x := s.eng[e]
  let rep := (ms.find? (fun m => m.sl.rpt)).filter (fun _ => (ctxOf x svc).rptCnt ≠ 0)
  let once := if rep.isSome then ms else ms.filter (fun m => !m.sl.rpt)
  let dec := match loopOf x svc ms with | .ok d => d | .bad => ⟨none, []⟩
  let vs := readMoves x svc once
  let s1 := s.setCtx e svc (afterMoves (ctxOf x svc) flg0 vs (ls.filter (fun l => l.op.svc = svc)))
  let s2 := vs.foldl (fun t w => t.trigger e svc w.m.sl w.m.dst w.v) s1
  let c2 := s2.ctx e svc
  match rep with
  | some r =>
    let dec' : LoopDec := { dec with cnts := dec.cnts.filter (fun p => !vs.any (fun w => w.m.dst = .lp p.1 2)) }
    (s2.setCtx e svc { c2 with rptSrc := r.sl.src, rptDst := r.sl.dst, rptRun := true, loopDec := some dec' }).repAfter
      e svc r.sl
  | none =>
    let cu := (vs.find? (fun w => isCu w.m.dst)).map (fun w => ((match w.m.dst with | .cu k => k.val | _ => 6), w.v))
    let b := branchOf c2 cu
    let s3 := s2.setCtx e svc (advance (applyLoop b.2 vs dec) dec b.1)
    let wasDelay := !svc && x.kern = .delay
    let s4 := if wasDelay then s3.setEng e (kernelDone s3.eng[e]) else s3
    match cu with
    | some (4, _) => s4.kendIssue e
    | some (5, t) => s4.waitIssue e t
    | _ => s4

/-- The program fault of an instruction, as its static checks and then those of the moves it performs find it; 0 for
none (R128, R146). -/
def slotFault (x : Engine) (svc : Bool) (sls : List Slot) (enc : Bool) : Nat :=
  let c := ctxOf x svc
  let f := staticFault svc enc sls c.rptCnt.toNat
  if f ≠ 0 then f else performFault x svc (keepHighest (trueMoves c.p sls))

/-- An instruction issues: `sls` its slots, `enc` a LIMM in slot 3. -/
def State.issueSlots (s : State) (e : Fin 10) (svc : Bool) (flg0 : BitVec 3) (ls : List Landed) (sls : List Slot)
    (enc : Bool) : State :=
  let f := slotFault s.eng[e] svc sls enc
  if f ≠ 0 then s.programFault e f 0
  else
    let tm := trueMoves (s.ctx e svc).p sls
    let ms := keepHighest tm
    let s1 := if ms.length ≠ tm.length then s.count (pecCollideCnt e.val) else s
    s1.perform e svc flg0 ls ms

/-- The instruction at a context's program counter. -/
def State.fetch (s : State) (e : Fin 10) (svc : Bool) : List Word :=
  s.imemRead e s.eng[e].bank (s.ctx e svc).pc.toNat

/-- A context issues: a running repeat goes on with its slot alone (R137); with no repeated slot at the program counter,
or no repeat running, the instruction fetched, or the one `ov` gives, has its first issue. -/
def State.issue (s : State) (e : Fin 10) (svc : Bool) (flg0 : BitVec 3) (ls : List Landed) (ov : Option Slot) : State :=
  let c := s.ctx e svc
  let d := slotsOf (s.fetch e svc)
  match (if c.rptRun then d.1.find? (·.rpt) else none) with
  | some r => s.iterate e svc r
  | none =>
    let s1 := if c.rptRun then s.setCtx e svc { c with rptRun := false } else s
    match ov with
    | some sl => s1.issueSlots e svc flg0 ls [sl] false
    | none => s1.issueSlots e svc flg0 ls d.1 d.2

/-- The program fault that a context meets in the cycle to come; a running repeat meets none (R137). -/
def State.issueFault (s : State) (e : Fin 10) (svc : Bool) (ov : Option Slot) : Nat :=
  let d := slotsOf (s.fetch e svc)
  if (s.ctx e svc).rptRun && d.1.any (·.rpt) then 0
  else
    match ov with
    | some sl => slotFault s.eng[e] svc [sl] false
    | none => slotFault s.eng[e] svc d.1 d.2

/-! The kernel cycle (R109, R112, R114). -/

/-- The bank swap at a kernel start (R114): the service context is sent to 0x010. -/
def swapBanks (x : Engine) : Engine :=
  if x.swapPend then
    { x with
      bank := !x.bank
      swapPend := false
      svc := (match x.svc with | .off => .off | _ => .run)
      s := { x.s with pc := 0x10, pend := none, depth := 0, rptRun := false, rptCnt := 0, rptSrc := 0, rptDst := 0 } }
  else x

/-- An instance that diverged from the LEAD's takes the LEAD's checkpoint (Table FLT-5). -/
def fromLead (x : Engine) : Engine :=
  match x.lead with
  | some c => { x with k := ctxFrom c.2, cyc := c.1, lead := none }
  | none => x

/-- A kernel start is taken: CYC counts, the watchdog's limits and the window entries in force are taken over, the
gate closes, and the kernel enters after three cycles at instruction 0 (R106, R107, R109, R121, R155). `again`: the
cycle has started before and is executed once more, with the window entries it had and t_rel perhaps passed (R162). -/
def State.takeStart (s : State) (e : Fin 10) (again : Bool) : State :=
  let x := s.eng[e]
  let wd : BitVec 24 := (s.reg (pecWdog e.val)).setWidth 24
  let wc : BitVec 24 := (s.reg (pecWdecl e.val)).setWidth 24
  let swapped := x.swapPend
  let y := fromLead (swapBanks x)
  let s1 := s.setEng e { y with
    cyc := y.cyc + 1
    kern := .entering
    kGap := 3
    kCount := none
    k := { y.k with pc := 0, pend := none }
    wdog := wd
    wdecl := wc
    fwuOn := if again then y.fwuOn else y.fwuNext
    fwuFresh := 0
    inCycle := true
    kRetried := false }
  let s2 := s1.count (pecKstartCnt e.val)
  match x.role with
  | none => s2
  | some r =>
    s2.modInst r (fun i =>
      let h := match i.update with | some u => if swapped then u else i.handle | none => i.handle
      { i with gate := false, due := again && i.due, handle := h, update := if swapped then none else i.update })

/-- A latched kernel cycle start event (R112, R122): not taken while EN = 0, in hold or outside ACTIVE and DEBUG;
held in a halt; while the kernel runs it is a hard fault. -/
def State.kernelStart (s : State) (e : Fin 10) (again : Bool) : State :=
  let x := s.eng[e]
  if !(x.st = .active || x.st = .debug) || !s.en (.pec e) || s.inHold (.pec e) then s.count (pecKovrCnt e.val)
  else if x.halted then
    if x.heldStart then s.count (pecKovrCnt e.val) else s.setEng e { x with heldStart := true }
  else if x.kern ≠ .idle then (s.count (pecKovrCnt e.val)).hardFault e 4
  else s.takeStart e again

/-! One ECLK of an engine. -/

/-- Whether an engine runs an instance: ACTIVE or DEBUG, its island powered. -/
def State.engLive (s : State) (e : Fin 10) : Bool :=
  (s.eng[e].st = .active || s.eng[e].st = .debug) && s.islandOn (3 + e.val)

/-- The ECLK by which the answers due in the pipeline cycle to come are late (R104). -/
def lateBy (x : Engine) : Nat :=
  (x.flight.filter (fun f => decide (f.at_ ≤ x.pipe + 1))).foldl (fun n f => max n f.late) 0

/-- Issue stalls until those answers have arrived: every pipeline stands as in a freeze, so that no move reads another
value (R104). -/
def stallLate (x : Engine) : Engine :=
  { x with
    freeze := lateBy x
    flight := x.flight.map (fun f => if f.at_ ≤ x.pipe + 1 then { f with late := 0 } else f) }

/-- The context that issues in the cycle to come, if any: true the service context. -/
def State.issuer (s : State) (e : Fin 10) : Option Bool :=
  let x := s.eng[e]
  if !s.engLive e || x.halted || x.freeze ≠ 0 || lateBy x ≠ 0 then none
  else
    match x.kern with
    | .running | .delay => some false
    | .entering => if x.kGap = 0 then some false else none
    | .idle =>
      if x.sGap ≠ 0 || x.svc ≠ .run || s.inHold (.pec e) then none else some true

/-- The breakpoint that stands before the instruction to issue in a context, in ACTIVE or DEBUG, each iteration of a
repeat being one such issue (R123, R140). -/
def State.breakAt (s : State) (e : Fin 10) (svc : Bool) : Option (Fin 4) :=
  let x := s.eng[e]
  let c := s.ctx e svc
  if x.bpSkip then none
  else
    ([0, 1, 2, 3] : List (Fin 4)).find? (fun b =>
      let r := s.reg (pecBp e.val b.val)
      bitOf (s.reg (pecDbgCtrl e.val)) (16 + b.val) && bitOf r 31 = svc && fieldOf r 0 12 = c.pc.toNat)

/-- Halt an engine; `svc`: its context at the halt (R122). -/
def haltEngine (x : Engine) (svc : Bool) (hit : BitVec 4) : Engine :=
  { x with halted := true, haltSvc := svc, bpHit := hit }

/-- The counters of a cycle that is not frozen. -/
def tickEngine (x : Engine) : Engine :=
  { x with pipe := x.pipe + 1, wall := x.wall + 1, kCount := x.kCount.map (· + 1) }

/-- Whether the watchdog has expired (R112). -/
def wdogExpired (x : Engine) : Bool :=
  match x.kCount with
  | some n => decide (x.wdog.toNat < n)
  | none => false

/-- What no issue leaves of a cycle: entry and resume gaps count down, and a pending event ends a WAIT, whose next
instruction issues 4 ECLK after its latch, or with the end of KEND's cycles if that is later (R109, R110). -/
def idleCycle (x : Engine) (hold : Bool) : Engine :=
  match x.kern with
  | .entering => { x with kGap := x.kGap - 1 }
  | .idle =>
    let y := { x with sGap := x.sGap - 1 }
    match x.svc with
    | .wait m =>
      if x.evt &&& m ≠ 0 && !hold then
        { y with svc := .run, sGap := max y.sGap 2, evt := x.evt &&& ~~~m, s := { x.s with evt := x.evt &&& m } }
      else y
    | _ => y
  | _ => x

/-- The watchdog expires (R112): a program fault that the context whose turn it is meets in this cycle is recorded
beside it, and the engine is handled as for that one (R146). -/
def State.wdogFault (s : State) (e : Fin 10) (ov : Option Slot) : State :=
  let f := match s.issuer e with
    | some svc => s.issueFault e svc ov
    | none => 0
  if f ≠ 0 then s.programFault e f 32 else s.hardFault e 5

/-- A cycle of a freeze: only time passes (R118). -/
def State.frozenCycle (s : State) (e : Fin 10) : State :=
  let x := s.eng[e]
  let y := { x with freeze := x.freeze - 1, wall := x.wall + 1, kCount := x.kCount.map (· + 1) }
  if wdogExpired y then (s.setEng e y).hardFault e 5 else s.setEng e y

/-- One ECLK: a freeze or a stall holds everything (R104, R118); else results land, the watchdog is looked at, and the
context whose turn it is issues. `ov`: the one move of a command in place of the instruction fetched. -/
def State.engCycle (s : State) (e : Fin 10) (ov : Option Slot) : State :=
  let x := s.eng[e]
  if !s.engLive e || x.halted then s
  else if x.freeze ≠ 0 then s.frozenCycle e
  else if lateBy x ≠ 0 then (s.setEng e (stallLate x)).frozenCycle e
  else
    match s.issuer e with
    | none =>
      let r := (s.setEng e (tickEngine x)).landDue e
      r.1.setEng e (idleCycle r.1.eng[e] (s.inHold (.pec e)))
    | some svc =>
      match s.breakAt e svc with
      | some b => s.setEng e (haltEngine x svc (BitVec.ofNat 4 (2 ^ b.val)))
      | none =>
        let y := tickEngine x
        if wdogExpired y then s.wdogFault e ov
        else
          let z : Engine := { y with
            bpSkip := false
            kern := (match y.kern with | .entering => .running | q => q)
            kCount := (match y.kern with | .entering => some 0 | _ => y.kCount) }
          let flg0 := (ctxOf z svc).flg
          let r := (s.setEng e z).landDue e
          r.1.issue e svc flg0 r.2 ov

/-- n ECLK. -/
def State.engCycles (s : State) (e : Fin 10) : Nat → State
  | 0 => s
  | n + 1 => (s.engCycle e none).engCycles e n

end Sys2Proof.Machine
end

