-- ==== Sys2Proof/Machine/Pec.lean ====
section
/-! DEFINITION. The commands of the protocol engines (05, 06): one move of each unit, results landing, the kernel
cycle, retries and faults, checkpoints, the bank swap, debug. -/

namespace Sys2Proof.Machine

/-! One-move instructions: the context whose turn it is issues an instruction of this one move, with the value
given, in place of the one it would fetch; in any other cycle nothing issues (log 17). -/

/-- A slot of one move with a literal value. -/
def litSlot (dst : Nat) (sat : Bool) (rnd : BitVec 2) (v : Word) : Slot :=
  { dst := BitVec.ofNat 8 dst, src := 0xF8, guard := 0, sat := sat, rnd := rnd, rpt := false, immx := 0, lit := some v }

/-- The move issues if its context is due to issue. -/
def State.oneMove (s : State) (e : Fin 10) (svc : Bool) (sl : Slot) : State :=
  if s.issuer e = some svc then s.engCycle e (some sl) else s

/-- A single-bit error that SECDED corrects in line: counted (Table PEC-8). -/
def State.eccCe (s : State) (e : Fin 10) (ce : Bool) : State := if ce then s.count (pecEccCeCnt e.val) else s

/-- The meaning of REGISTER_MOVE: the instruction at the program counter issues, with all its moves; `ce`: its fetch
meets a single-bit error (R117). -/
def execRegisterMove (e : Fin 10) (s : State) (ce : Bool := false) : Host.Outcome State Fault Refusal :=
  commit s ((s.engCycle e none).eccCe e (ce && (s.issuer e).isSome))

/-- The meaning of ALU_TRIGGER: code `op` + 1 of Table PEC-5. -/
def execAluTrigger (e : Fin 10) (svc unit : Bool) (op : Fin 31) (sat : Bool) (t : Word) (s : State) :
    Host.Outcome State Fault Refusal :=
  commit s (s.oneMove e svc (litSlot ((if unit then 0x81 else 0x61) + op.val) sat 0 t))

/-- The meaning of MAC_TRIGGER. -/
def execMacTrigger (e : Fin 10) (svc : Bool) (op : Fin 7) (lane : Fin 4) (sat : Bool) (rnd : BitVec 2) (t : Word)
    (s : State) : Host.Outcome State Fault Refusal :=
  commit s (s.oneMove e svc (litSlot (0xA1 + 4 * op.val + lane.val) sat rnd t))

/-- The meaning of DIV_TRIGGER. -/
def execDivTrigger (e : Fin 10) (svc : Bool) (op : Fin 5) (sat : Bool) (rnd : BitVec 2) (t : Word) (s : State) :
    Host.Outcome State Fault Refusal :=
  commit s (s.oneMove e svc (litSlot (0xC1 + op.val) sat rnd t))

/-- The address of an LSU operation (R101). -/
def lsuAddr (c : Ctx) (code : Nat) (t : Word) : Nat := (if 8 ≤ code then c.ops[oPtr] else t).toNat

/-- Whether an LSU operation of the context whose turn it is reads local data memory. -/
def State.readsDmem (s : State) (e : Fin 10) (svc : Bool) (op : Nat) (t : Word) : Bool :=
  s.issuer e = some svc && !lsuStores op && decide (lsuAddr (s.ctx e svc) op t < 0x8000)

/-- The meaning of LSU_TRIGGER; `ce`: a read of local data memory meets a single-bit error (R117). -/
def execLsuTrigger (e : Fin 10) (svc : Bool) (op : Fin 10) (t : Word) (s : State) (ce : Bool := false) :
    Host.Outcome State Fault Refusal :=
  commit s ((s.oneMove e svc (litSlot (0xCB + op.val) false 0 t)).eccCe e (ce && s.readsDmem e svc op.val t))

/-- The meaning of CRC_INIT. -/
def execCrcInit (e : Fin 10) (svc : Bool) (t : Word) (s : State) : Host.Outcome State Fault Refusal :=
  commit s (s.oneMove e svc (litSlot 0xDA false 0 t))

/-- The meaning of CRC_FOLD: `op` 0 CRC.B8, 1 CRC.B16, 2 CRC.B32. -/
def execCrcFold (e : Fin 10) (svc : Bool) (op : Fin 3) (t : Word) (s : State) : Host.Outcome State Fault Refusal :=
  commit s (s.oneMove e svc (litSlot (0xDB + op.val) false 0 t))

/-- The meaning of CRC_FIN. -/
def execCrcFin (e : Fin 10) (svc : Bool) (t : Word) (s : State) : Host.Outcome State Fault Refusal :=
  commit s (s.oneMove e svc (litSlot 0xDE false 0 t))

/-- The meaning of CRC_HASH. -/
def execCrcHash (e : Fin 10) (svc : Bool) (t : Word) (s : State) : Host.Outcome State Fault Refusal :=
  commit s (s.oneMove e svc (litSlot 0xDF false 0 t))

/-- The meaning of FWU_CPY. -/
def execFwuCpy (e : Fin 10) (svc : Bool) (s : State) : Host.Outcome State Fault Refusal :=
  commit s (s.oneMove e svc (litSlot 0xE2 false 0 0))

/-- The meaning of FWU_ENA. -/
def execFwuEna (e : Fin 10) (svc : Bool) (t : Word) (s : State) : Host.Outcome State Fault Refusal :=
  commit s (s.oneMove e svc (litSlot 0xE3 false 0 t))

/-- The meaning of FWU_DIS. -/
def execFwuDis (e : Fin 10) (svc : Bool) (t : Word) (s : State) : Host.Outcome State Fault Refusal :=
  commit s (s.oneMove e svc (litSlot 0xE4 false 0 t))

/-- The meaning of FWU_TXPOST. -/
def execFwuTxpost (e : Fin 10) (svc : Bool) (t : Word) (s : State) : Host.Outcome State Fault Refusal :=
  commit s (s.oneMove e svc (litSlot 0xE5 false 0 t))

/-- The meaning of FWU_STSEL. -/
def execFwuStsel (e : Fin 10) (svc : Bool) (t : Word) (s : State) : Host.Outcome State Fault Refusal :=
  commit s (s.oneMove e svc (litSlot 0xE6 false 0 t))

/-- The meaning of DTP_SNAP. -/
def execDtpSnap (e : Fin 10) (svc : Bool) (t : Word) (s : State) : Host.Outcome State Fault Refusal :=
  commit s (s.oneMove e svc (litSlot 0xE8 false 0 t))

/-- The meaning of JMP. -/
def execJmp (e : Fin 10) (svc : Bool) (t : Word) (s : State) : Host.Outcome State Fault Refusal :=
  commit s (s.oneMove e svc (litSlot 0xF0 false 0 t))

/-- The meaning of BR. -/
def execBr (e : Fin 10) (svc : Bool) (t : Word) (s : State) : Host.Outcome State Fault Refusal :=
  commit s (s.oneMove e svc (litSlot 0xF1 false 0 t))

/-- The meaning of CALL. -/
def execCall (e : Fin 10) (svc : Bool) (t : Word) (s : State) : Host.Outcome State Fault Refusal :=
  commit s (s.oneMove e svc (litSlot 0xF2 false 0 t))

/-- The meaning of RET. -/
def execRet (e : Fin 10) (svc : Bool) (s : State) : Host.Outcome State Fault Refusal :=
  commit s (s.oneMove e svc (litSlot 0xF3 false 0 0))

/-- The meaning of KEND, a move of the kernel context. -/
def execKend (e : Fin 10) (s : State) : Host.Outcome State Fault Refusal :=
  commit s (s.oneMove e false (litSlot 0xF4 false 0 0))

/-- The meaning of WAIT, a move of the service context. -/
def execWait (e : Fin 10) (t : Word) (s : State) : Host.Outcome State Fault Refusal :=
  commit s (s.oneMove e true (litSlot 0xF5 false 0 t))

/-! Time and events of an engine. -/

/-- ECLK until the earliest result in flight lands. -/
def untilLanding (x : Engine) : Nat :=
  match x.flight with
  | [] => 0
  | f :: r => r.foldl (fun a g => min a g.at_) f.at_ - x.pipe

/-- The meaning of UNIT_RESULT_LAND: the engine runs on to the cycle in which its earliest result lands (R93). -/
def execUnitResultLand (e : Fin 10) (s : State) : Host.Outcome State Fault Refusal :=
  commit s (s.engCycles e (untilLanding s.eng[e]))

/-- A pending selected event has been latched: the WAIT ends and the next instruction issues 4 ECLK later (R110). -/
def doWaitResume (e : Fin 10) (s : State) : State :=
  let x := s.eng[e]
  match x.svc with
  | .wait m =>
    if x.evt &&& m ≠ 0 && !s.inHold (.pec e) && s.engLive e && !x.halted then
      s.setEng e { x with svc := .run, sGap := max x.sGap 3, evt := x.evt &&& ~~~m, s := { x.s with evt := x.evt &&& m } }
    else s
  | _ => s

/-- The meaning of WAIT_RESUME. -/
def execWaitResume (e : Fin 10) (s : State) : Host.Outcome State Fault Refusal := commit s (doWaitResume e s)

/-- A running repeat of the context whose turn it is goes on by one iteration. -/
def doRepeatIteration (e : Fin 10) (s : State) : State :=
  match s.issuer e with
  | some svc => if (s.ctx e svc).rptRun then s.engCycle e none else s
  | none => s

/-- The meaning of REPEAT_ITERATION. -/
def execRepeatIteration (e : Fin 10) (s : State) : Host.Outcome State Fault Refusal :=
  commit s (doRepeatIteration e s)

/-- The meaning of KERNEL_CYCLE_START: an event at a gated engine never reaches it (R77). -/
def execKernelCycleStart (e : Fin 10) (s : State) : Host.Outcome State Fault Refusal :=
  commit s (if s.islandOn (3 + e.val) then s.kernelStart e false else s)

/-- The cycle whose count is PEC_WDOG + 1 comes in a kernel that has not issued KEND: the watchdog expires (R112). A
count still below leaves it in time. -/
def doWatchdogExpire (e : Fin 10) (s : State) : State :=
  if s.engLive e && wdogExpired (tickEngine s.eng[e]) then s.wdogFault e none else s

/-- The meaning of WATCHDOG_EXPIRE. -/
def execWatchdogExpire (e : Fin 10) (s : State) : Host.Outcome State Fault Refusal := commit s (doWatchdogExpire e s)

/-- The bits of PEC_FAULT that a retry detection raises: a second one in a kernel cycle, a third of the service
context within 1,000,000 ECLK (R118). -/
def retryFault (x : Engine) (svc : Bool) : Nat :=
  let recent := (x.svcRetries.filter (fun t => decide (x.wall ≤ t + 1000000))).length
  b2n (x.inCycle && x.kRetried) * 64 + b2n (svc && decide (2 ≤ recent)) * 128

/-- A retry is detected (R118): a hard fault, or a freeze of 4 ECLK. -/
def doMoveRetry (e : Fin 10) (svc : Bool) (s : State) : State :=
  let x := s.eng[e]
  if x.st = .off || x.st = .fenced || !s.islandOn (3 + e.val) then s
  else if retryFault x svc ≠ 0 then s.hardFaultBits e (retryFault x svc)
  else
    let keep := x.svcRetries.filter (fun t => decide (x.wall ≤ t + 1000000))
    (s.setEng e { x with
      freeze := x.freeze + 4
      kRetried := x.kRetried || x.inCycle
      svcRetries := if svc then x.wall :: keep else keep }).count (pecRetryCnt e.val)

/-- The meaning of MOVE_RETRY; `svc`: the context of the move or operation at fault. -/
def execMoveRetry (e : Fin 10) (svc : Bool) (s : State) : Host.Outcome State Fault Refusal :=
  commit s (doMoveRetry e svc s)

/-- The bit of a hard-fault source in PEC_FAULT. -/
def hardBit : HardCause → Nat
  | .imemUe => 1
  | .dmemUe => 2
  | .dualRail => 3

/-- The meaning of HARD_FAULT. -/
def execHardFault (e : Fin 10) (cause : HardCause) (s : State) : Host.Outcome State Fault Refusal :=
  commit s (s.hardFault e (hardBit cause))

/-! Checkpoints (R155-R157). -/

/-- 20 ECLK after KEND and its freezes: every kernel result has landed, and the kernel's words are taken. -/
def doCheckpointSnapshot (e : Fin 10) (s : State) : State :=
  let x := s.eng[e]
  if x.ckpt ≠ .due || !s.engLive e then s
  else
    let r := (s.setEng e { x with flight := x.flight.filter (·.svc) }).landList e (x.flight.filter (fun f => !f.svc))
    let y := r.1.eng[e]
    r.1.setEng e { y with ckpt := .taken y.cyc (ctxWords y.k) }

/-- The meaning of CHECKPOINT_SNAPSHOT. -/
def execCheckpointSnapshot (e : Fin 10) (s : State) : Host.Outcome State Fault Refusal :=
  commit s (doCheckpointSnapshot e s)

/-- CKPT_VER of a role's image. -/
def State.ckptVerOf (s : State) (i : Inst) : BitVec 16 :=
  match s.imageOf i.handle with
  | some g => g.ckptVer
  | none => 0

/-- The SHADOW of a pair compares a commit with the LEAD's: one that differs counts, and the instance takes the LEAD's
checkpoint at its next kernel start (Table FLT-5). -/
def State.compareLead (s : State) (e : Fin 10) (own : Word × List Word) (lead : Option (Word × List Word)) : State :=
  match lead with
  | some c =>
    if s.shadowed && decide (c ≠ own) then (s.setEng e { s.eng[e] with lead := some c }).count fltTwinDivergeCnt else s
  | none => s

/-- The commit of a slot (R157): the committed CYC is recorded, and a gate that t_rel has passed opens (R155). A
bank of window 3 that the role does not own takes no slot, and nothing is committed (R351). -/
def doCheckpointCommit (e : Fin 10) (lead : Option (Word × List Word)) (s : State) : State :=
  let x := s.eng[e]
  match x.ckpt, x.role with
  | .taken cyc ws, some r =>
    match s.insts[r], s.dualBank e 3 with
    | some i, some b =>
      if s.owns (.role r) b then
        let s1 := s.writeSlot b (s.ckptVerOf i) r cyc ws
        let s2 := s1.setEng e { s1.eng[e] with ckpt := .none, inCycle := x.inCycle && x.cyc ≠ cyc }
        (s2.modInst r (fun j => { j with committed := some cyc, gate := j.gate || j.due })).compareLead e (cyc, ws) lead
      else (s.nonOwner (.role r) b).setEng e { x with ckpt := .none }
    | _, _ => s.setEng e { x with ckpt := .none }
  | _, _ => s

/-- The meaning of CHECKPOINT_COMMIT. -/
def execCheckpointCommit (e : Fin 10) (s : State) (lead : Option (Word × List Word) := none) : Host.Outcome State Fault Refusal :=
  commit s (doCheckpointCommit e lead s)

/-- t_rel (R155): the gate of a role's instance opens, or waits for the commit of the cycle in progress, which a spare
may still have to execute again (R161). -/
def doWindowGateOpen (r : Fin 10) (s : State) : State :=
  match s.engOf r with
  | some e =>
    let busy := rerunOwed s.eng[e]
    s.modInst r (fun i => if i.stopped then i else { i with due := true, gate := i.gate || !busy })
  | none => s

/-- The meaning of WINDOW_GATE_OPEN. -/
def execWindowGateOpen (r : Fin 10) (s : State) : Host.Outcome State Fault Refusal := commit s (doWindowGateOpen r s)

/-! Registers of commands (R114, R122-R124). -/

/-- SWAP (R114): pending on an ACTIVE engine until its next kernel start, at once on any other. -/
def State.swapImem (s : State) (e : Fin 10) : State :=
  let x := s.eng[e]
  s.setEng e (if x.st = .active then { x with swapPend := true } else { x with bank := !x.bank })

/-- The meaning of PEC_IMEM_SWAP. -/
def execPecImemSwap (m : Master) (e : Fin 10) (s : State) : Host.Outcome State Fault Refusal :=
  commit s (s.guarded m (pecImem e.val) fun s => s.swapImem e)

/-- The meaning of KMAX_CLR. -/
def execKmaxClr (m : Master) (e : Fin 10) (s : State) : Host.Outcome State Fault Refusal :=
  commit s (s.guarded m (pecCmd e.val) fun s => s.setReg (pecKmax e.val) 0)

/-- STATUS of the last debug command (Table PEC-9). -/
def State.setDbgStatus (s : State) (e : Fin 10) (c : Byte) : State := s.setEng e { s.eng[e] with dbgStatus := c }

/-- A debug command at the register: accepted at level D2 or D3 in state DEBUG (R122). -/
def State.dbgAccept (s : State) (e : Fin 10) (f : Engine → Engine) : State :=
  if 2 ≤ s.dbgLevel ∧ s.eng[e].st = .debug then (s.setEng e (f s.eng[e])).setDbgStatus e stOk
  else s.setDbgStatus e stPolicy

/-- What a debug command on a gated or a fenced engine leaves in STATUS (R122). -/
def State.dbgRefused (s : State) (e : Fin 10) : State :=
  if !s.islandOn (3 + e.val) then s.setDbgStatus e stIslandOff
  else if s.fenced e.val then s.setDbgStatus e stFenced
  else s

/-- Stop issue at the next instruction boundary. -/
def haltNow (x : Engine) : Engine := if x.halted then x else haltEngine x (x.kern = .idle) 0

/-- HALT at the register. -/
def State.haltCmd (s : State) (e : Fin 10) : State := s.dbgAccept e haltNow

/-- The meaning of HALT. -/
def execHalt (m : Master) (e : Fin 10) (s : State) : Host.Outcome State Fault Refusal :=
  commit s ((s.guarded m (pecDbgCtrl e.val) fun s => s.haltCmd e).dbgRefused e)

/-- STEP at the register: a halted engine advances by one ECLK (R122). -/
def State.stepCmd (s : State) (e : Fin 10) : State :=
  let s1 := s.dbgAccept e id
  let x := s1.eng[e]
  if 2 ≤ s.dbgLevel ∧ x.st = .debug ∧ x.halted then
    let s2 := (s1.setEng e { x with halted := false, bpSkip := true }).engCycle e none
    if s2.eng[e].st = .debug then s2.setEng e { s2.eng[e] with halted := true } else s2
  else s1

/-- The meaning of STEP. -/
def execStep (m : Master) (e : Fin 10) (s : State) : Host.Outcome State Fault Refusal :=
  commit s ((s.guarded m (pecDbgCtrl e.val) fun s => s.stepCmd e).dbgRefused e)

/-- RESUME at the register: the halt ends, and a held kernel start is latched (R122). -/
def State.resumeCmd (s : State) (e : Fin 10) : State :=
  let s1 := s.dbgAccept e id
  let x := s1.eng[e]
  if 2 ≤ s.dbgLevel ∧ x.st = .debug ∧ x.halted then
    let s2 := s1.setEng e { x with halted := false, heldStart := false, bpSkip := decide (x.bpHit ≠ 0) }
    if x.heldStart then s2.kernelStart e false else s2
  else s1

/-- The meaning of RESUME. -/
def execResume (m : Master) (e : Fin 10) (s : State) : Host.Outcome State Fault Refusal :=
  commit s ((s.guarded m (pecDbgCtrl e.val) fun s => s.resumeCmd e).dbgRefused e)

/-- A breakpoint stands before the next instruction: the engine halts (R123). -/
def doBreakpointHit (e : Fin 10) (s : State) : State :=
  match s.issuer e with
  | some svc =>
    match s.breakAt e svc with
    | some b => s.setEng e (haltEngine s.eng[e] svc (BitVec.ofNat 4 (2 ^ b.val)))
    | none => s
  | none => s

/-- The meaning of BREAKPOINT_HIT. -/
def execBreakpointHit (e : Fin 10) (s : State) : Host.Outcome State Fault Refusal := commit s (doBreakpointHit e s)

/-- A write of PEC_DBG_CTRL: BP_EN, then HALT, STEP, RESUME in this order. -/
def State.dbgCtrlWrite (s : State) (e : Fin 10) (v : Word) : State :=
  let s1 := s.setReg (pecDbgCtrl e.val) (v &&& 0xF0000#32)
  let s2 := if bitOf v 0 then s1.haltCmd e else s1
  let s3 := if bitOf v 1 then s2.stepCmd e else s2
  if bitOf v 2 then s3.resumeCmd e else s3

/-- PEC_DBG_STATUS. -/
def State.dbgStatusWord (s : State) (e : Fin 10) : Word :=
  let x := s.eng[e]
  w32 (65536 * x.dbgStatus.toNat + 256 * x.bpHit.toNat + b2n x.haltSvc * 2 + b2n x.halted)

/-- PEC_DBG_PC. -/
def State.dbgPcWord (s : State) (e : Fin 10) : Word :=
  w32 (65536 * s.eng[e].s.pc.toNat + s.eng[e].k.pc.toNat)

end Sys2Proof.Machine
end

