-- ==== Sys2Proof/Machine/Keys.lean ====
section
/-! DEFINITION. The supervisor's key work (16): ring key sets (R382), SAKs and MKA (R381), zeroization (R369, R384),
and the end of a debug session (R385, R388). -/

namespace Sys2Proof.Machine

/-- Replace what the supervisor holds. -/
def State.setSec (s : State) (x : SecState) : State := { s with sec := x }

/-- Change it. -/
def State.modSec (s : State) (f : SecState → SecState) : State := s.setSec (f s.sec)

/-- The 48 bytes of a SHA-384 digest. -/
def shaBytes (bs : List Byte) : List Byte := toBe 48 (sha384 bs).toNat

/-- Big-endian words of bytes, four at a time. -/
def beWords (bs : List Byte) (n : Nat) : List Word := (List.range n).map (fun k => w32 (be32At bs (4 * k)))

/-! Ring key sets (R382). -/

/-- The labels "NRG-KT", "NRG-ST", "NRG-KC" and "NRG-SC". -/
def ringLabel (a b : Byte) : List Byte := [0x4E, 0x52, 0x47, 0x2D, a, b]

/-- F(label): SHA-384 of CAK, label and RING_ID. -/
def ringKdf (cak : BitVec 256) (label : List Byte) (id : Nat) : List Byte :=
  shaBytes (toBe 32 cak.toNat ++ label ++ toBe 1 id)

/-- The 18 words of a key set as NRG space 2 holds them: KEY_T, SALT_T, KEY_C, SALT_C. -/
def ringSet (cak : BitVec 256) (id : Nat) : List Word :=
  beWords (ringKdf cak (ringLabel 0x4B 0x54) id) 8 ++ beWords (ringKdf cak (ringLabel 0x53 0x54) id) 1 ++
  beWords (ringKdf cak (ringLabel 0x4B 0x43) id) 8 ++ beWords (ringKdf cak (ringLabel 0x53 0x43) id) 1

/-- The CAK of a ring: index 8 or 9 (R380). -/
def State.ringCak (s : State) (r : Fin 2) : Option Cak := s.sec.caks[(Fin.ofNat 10 (8 + r.val) : Fin 10)]

/-- Write the set derived from a ring's CAK into a slot. -/
def State.writeRingSet (s : State) (r : Fin 2) (slot : Bool) : State :=
  match s.ringCak r with
  | some c => s.setTabs .nrg 2 ((r.val * 2 + b2n slot) * 32) (ringSet c.key (s.ringId r))
  | none => s

/-- Whether a slot holds an installed set: its words are not all zero. -/
def State.ringSetHeld (s : State) (r : Fin 2) (slot : Bool) : Bool :=
  (s.tabWords .nrg 2 ((r.val * 2 + b2n slot) * 32) 18).any (fun w => w ≠ 0)

/-- A ring CAK has been installed: the set goes into slot 0 where neither slot holds one, else into the slot that
KEY_ID does not name (R382). -/
def State.installRing (s : State) (r : Fin 2) : State :=
  if !s.ringSetHeld r false && !s.ringSetHeld r true then s.writeRingSet r false
  else s.writeRingSet r (!s.ring[r].keyUsed)

/-! MKA (R381). -/

/-- Whether MKA runs on a port: MACsec enabled, its CAK installed. -/
def State.mkaRuns (s : State) (n : Fin 8) : Bool :=
  s.msecEn n && s.sec.caks[(Fin.ofNat 10 n.val : Fin 10)].isSome

/-- Install a key, salt and SSCI in an entry of space 3, its next PN at 1 (PRESUMED from IEEE 802.1AE; log 36). -/
def State.installSa (s : State) (n : Fin 8) (entry : Nat) (ws : List Word) : State :=
  ((s.setTabs (.eth n) 3 (entry * 16) ws).setPn n (entry * 16 + 12) 1).setPn n (entry * 16 + 14) 1

/-- The SSCIs of a port's channels, which the manual does not fix, one free word each. -/
def State.installRx (n : Fin 8) (an : Nat) (ks : List Word) : List Nat → State → State
  | [], s => s
  | c :: r, s =>
    let d := s.draw
    State.installRx n an ks r (d.2.installSa n (4 + 4 * c + an) (ks ++ [d.1]))

/-- A new SAK on a port: the next association number takes it in every channel, and ETH_MSEC_TXSA selects it. The
key and salt are the key server's draw, of this device or of the partner (R381). -/
def State.installSak (s : State) (n : Fin 8) : State :=
  let an := (fieldOf (s.reg (ethMsecTxsa n.val)) 0 2 + 1) % 4
  let k := s.drawN 11
  let t := k.2.draw
  (State.installRx n an k.1 [0, 1, 2, 3] (t.2.installSa n an (k.1 ++ [t.1]))).setRegField (ethMsecTxsa n.val) 0 2 an

/-- The supervisor's EAPOL frame with an MKPDU, from LP21 to a port (R381). -/
def State.sendMkpdu (s : State) (n : Fin 8) : State :=
  let bs := [0x01, 0x80, 0xC2, 0x00, 0x00, 0x03] ++ s.portAddr n ++ [0x88, 0x8E] ++ Config.mkpdu n.val s.free
  let req : TxReq := ⟨.none, 0, 0, none, some (BitVec.ofNat 22 (2 ^ n.val)), none⟩
  ({ s with free := s.free + 1 } : State).toSwitch 21 ⟨bs, none, false, req, .sup⟩

/-- An MKA timer of a port. Hello: an MKPDU is sent; the first SAK is installed, and a new one once PN_LOW reads 1
(R191). Life: a peer is aged out, and the key server that is left draws a new SAK. -/
def doMkaTimerExpire (n : Fin 8) (hello server : Bool) (s : State) : State :=
  if !s.mkaRuns n || s.fenced 36 then s
  else
    let s1 := s.modSec (fun x => { x with mkaServer := setBit x.mkaServer n.val server })
    let an := fieldOf (s.reg (ethMsecTxsa n.val)) 0 2
    if hello then
      let s2 := s1.sendMkpdu n
      if !s2.saHasKey n an || (server && decide (2 ^ 63 ≤ s2.saPn n an)) then s2.installSak n else s2
    else if server then s1.installSak n
    else s1

/-- The meaning of MKA_TIMER_EXPIRE. -/
def execMkaTimerExpire (n : Fin 8) (hello server : Bool) (s : State) : Host.Outcome State Fault Refusal :=
  commit s (doMkaTimerExpire n hello server s)

/-! Zeroization (R369, R384). -/

/-- Whether a word of an indirect space is a session key: a SAK of ETH space 3, a set of NRG space 2. -/
def isSessionKey (k : Nat) : Bool :=
  let us := k / 2 ^ 24
  let u := us / 128
  (decide (5 ≤ u) && decide (u < 13) && decide (us % 128 = 3) && decide (k % 16 < 8)) || decide (us = 15 * 128 + 2)

/-- Every bank with KEY = 1 reads zero (R369 step 2). -/
def State.zeroKeyBanks (s : State) : State :=
  (List.range 112).foldl (fun t b => if ownKey (t.owner b) then (t.bankZero b).zeroScratch b else t) s

/-- The session keys are overwritten: steps 1 and 2 of R369 without the CAKs (R385). -/
def State.zeroSession (s : State) : State :=
  (({ s with tabs := s.tabs.filter (fun e => !isSessionKey e.1) } : State).zeroKeyBanks).count secZeroizeCnt

/-- A key pair whose fuses are all blown: its private key cannot be reconstructed. -/
def KeyPair.blown (p : KeyPair) : KeyPair := { p with priv := none }

/-- Zeroization (R369): session keys and CAKs, KEY banks, loaded owner keys, both private keys. -/
def State.zeroize (s : State) : State :=
  s.zeroSession.modSec (fun x => { x with
    caks := Vector.replicate 10 none
    slots := x.slots.map (fun o => { o with key := none })
    ident := x.ident.blown
    agree := x.agree.blown })

/-! The end of a debug session (R385, R388). -/

/-- Keys that the opening of the session zeroized come back (R388): both slots of each ring whose CAK is held, and a
new SAK on each port that runs MKA. -/
def State.restoreKeys (s : State) : State :=
  let s1 := (((s.writeRingSet 0 false).writeRingSet 0 true).writeRingSet 1 false).writeRingSet 1 true
  (List.range 8).foldl (fun t k =>
    let n := Fin.ofNat 8 k
    if t.mkaRuns n then t.installSak n else t) s1

/-- A halt ends as RESUME would end it. -/
def State.releaseHalt (s : State) (e : Fin 10) : State :=
  let x := s.eng[e]
  if x.halted then
    let s1 := s.setEng e { x with halted := false, heldStart := false, bpHit := 0 }
    if x.heldStart then s1.kernelStart e false else s1
  else s

/-- The breakpoints of an engine are cleared. -/
def State.clearBps (s : State) (e : Fin 10) : State :=
  let s1 := (List.range 4).foldl (fun t b => t.setReg (pecBp e.val b) 0) s
  s1.setReg (pecDbgCtrl e.val) 0

/-- The debug session ends: every HALT is released, breakpoints are cleared, the level is D0, and keys its opening
zeroized are restored (R385, R388). -/
def State.endDebug (s : State) : State :=
  if s.dbgLevel = 0 then s.modSec (fun x => { x with dbgTok := none })
  else
    let s1 := (List.range 10).foldl (fun t k => (t.releaseHalt (Fin.ofNat 10 k)).clearBps (Fin.ofNat 10 k)) s
    let s2 := s1.setRegField glbLifecycle 8 2 0
    let s3 := if s2.sec.zeroed then s2.restoreKeys else s2
    s3.modSec (fun x => { x with dbgTok := none, zeroed := false })

end Sys2Proof.Machine
end

