-- ==== Sys2Proof/Machine/Takeover.lean ====
section
/-! DEFINITION. Takeover, planned rotation and self-tests (07, R158-R166; 17, R399). -/

namespace Sys2Proof.Machine

/-- The loaded image of a role. -/
def State.roleImage (s : State) (r : Fin 10) : Option Image :=
  match s.insts[r] with
  | some i => s.imageOf i.handle
  | none => none

/-- Load the takeover section of a role's image into an engine's active bank. -/
def State.loadSection (s : State) (e r : Fin 10) : State :=
  match s.roleImage r with
  | some g => (s.wipeSpace (blkIdx (.pec e)) (imemSpace s.eng[e].bank)).loadImem e s.eng[e].bank g 0 g.ksecLen.toNat
  | none => s

/-- Load a role's whole image. -/
def State.loadRole (s : State) (e r : Fin 10) : State :=
  match s.roleImage r with
  | some g => s.loadWhole e s.eng[e].bank g
  | none => s

/-- The last committed checkpoint of a role copied into an engine's kernel context, with DTP.CYC; a role that has
committed none starts from the context of its admission (R158). -/
def State.restoreCkpt (s : State) (e r : Fin 10) : State :=
  match s.insts[r] with
  | some i =>
    match i.committed, s.dualBank e 3 with
    | some cyc, some b => s.setEng e { s.eng[e] with k := ctxFrom (s.readSlot b cyc), cyc := cyc }
    | _, _ => s
  | none => s

/-- d + 650: the spare's island runs; the takeover section, the last committed slot and CYC are copied in (R158). -/
def doTakeoverCopyBegin (e : Fin 10) (s : State) : State :=
  let x := s.eng[e]
  match x.takeover, x.role with
  | .selected b old, some r =>
    if s.islandOn (3 + e.val) then
      let s1 := (s.loadSection e r).restoreCkpt e r
      s1.setEng e { s1.eng[e] with takeover := .copied b old }
    else s
  | _, _ => s

/-- The meaning of TAKEOVER_COPY_BEGIN. -/
def execTakeoverCopyBegin (e : Fin 10) (s : State) : Host.Outcome State Fault Refusal :=
  commit s (doTakeoverCopyBegin e s)

/-- d + 1,196 and d + 1,200: the takeover is logged; a cycle whose commit the fault preceded starts again (R158,
R159, R404). -/
def doTakeoverKernelStart (e : Fin 10) (s : State) : State :=
  let x := s.eng[e]
  match x.takeover, x.role with
  | .copied b old, some r =>
    let s1 := (s.setEng e { x with takeover := .started }).fltLog old.val 0x0F .takeover (BitVec.ofNat 8 e.val) r.val
    if b then s1.kernelStart e true else s1
  | _, _ => s

/-- The meaning of TAKEOVER_KERNEL_START. -/
def execTakeoverKernelStart (e : Fin 10) (s : State) : Host.Outcome State Fault Refusal :=
  commit s (doTakeoverKernelStart e s)

/-- d + 2,400: the whole image stands in the spare and its local data memory is clear; the service context starts
if a KEND has gone before (R160). A swap that the fault overtook is issued again (R166). -/
def doTakeoverCopyDone (e : Fin 10) (s : State) : State :=
  let x := s.eng[e]
  let due := (match x.takeover with | .started => true | .none => true | _ => false) && x.svcOwed && !x.imgDone
  match x.role with
  | some r =>
    if !due then s
    else
      let s1 := s.loadRole e r
      let y := { s1.eng[e] with imgDone := true, dmem := [] }
      let z := if y.takeover = .none then startService y else y
      let s2 := s1.setEng e z
      match s2.insts[r] with
      | some i =>
        match i.update.bind s2.imageOf with
        | some g => (s2.loadWhole e (!z.bank) g).swapImem e
        | none => s2
      | none => s2
  | none => s

/-- The meaning of TAKEOVER_COPY_DONE. -/
def execTakeoverCopyDone (e : Fin 10) (s : State) : Host.Outcome State Fault Refusal :=
  commit s (doTakeoverCopyDone e s)

/-! Rotation (R163). -/

/-- The roles whose instances run on an ACTIVE engine outside any takeover. -/
def State.rotatable (s : State) : List (Fin 10) :=
  ((List.range 10).map (Fin.ofNat 10)).filter (fun r =>
    match s.insts[r] with
    | some i =>
      (match i.engine with
        | some e => s.eng[e].st = .active && s.eng[e].takeover = .none && !s.eng[e].svcOwed
        | none => false) && !i.stopped
    | none => false)

/-- The turn of a role's binding. -/
def State.heldSince (s : State) (r : Fin 10) : Nat := match s.insts[r] with | some i => i.heldSince | none => 0

/-- The role that has held its engine longest. -/
def State.longestHeld (s : State) : Option (Fin 10) :=
  match s.rotatable with
  | [] => none
  | r :: l => some (l.foldl (fun a b => if s.heldSince b < s.heldSince a then b else a) r)

/-- With at least two spares the image copy to a spare begins; a gated spare is woken (R163, R33). -/
def State.rotate (s : State) : State :=
  if s.rotation.isSome || decide (s.engineSpares < 2) then s
  else
    match s.longestHeld, s.pickEngine with
    | some r, some t =>
      let s1 := { s with rotation := some ⟨r, t⟩ }
      if s1.islandOn (3 + t.val) then s1 else s1.wake (3 + t.val)
    | _, _ => s

/-- FLT_ROT_PERIOD from now is the next rotation decision (R163, R419). -/
def State.rotAgain (s : State) : State :=
  { s with flt := { s.flt with rotDue := s.clk.tick + 500000000 * fieldOf (s.reg fltRotPeriod) 0 16 } }

/-- A rotation decision, once it is due; FLT_ROT_PERIOD = 0 stops rotation. -/
def doRotationTimer (s : State) : State :=
  if fieldOf (s.reg fltRotPeriod) 0 16 = 0 || decide (s.clk.tick < s.flt.rotDue) then s else s.rotAgain.rotate

/-- The meaning of ROTATION_TIMER. -/
def execRotationTimer (s : State) : Host.Outcome State Fault Refusal := commit s (doRotationTimer s)

/-- The spare as a rotation leaves it: both contexts, the service context's state, local memory and bindings of the
old engine, whose results in flight have landed (R121). -/
def rotatedEngine (t old : Engine) : Engine :=
  { old with
    bank := t.bank
    pipe := t.pipe
    wall := t.wall
    flight := []
    freeze := 0
    kGap := 0
    swapPend := false
    svcRetries := []
    imgDone := true }

/-- The move of a rotation, at the first commit after the image copy, while two spares still exist (R163): the old
engine's results in flight land (R121), and it goes to TEST. -/
def doRotationMove (s : State) : State :=
  match s.rotation with
  | none => s
  | some q =>
    match s.engOf q.role with
    | none => { s with rotation := none }
    | some f =>
      let x0 := s.eng[f]
      let r := (s.setEng f { x0 with flight := [] }).landList f x0.flight
      let x := r.1.eng[f]
      let t := q.spare
      if decide (s.engineSpares < 2) || x.st ≠ .active || x.inCycle || x.kern ≠ .idle || x.swapPend || x.takeover ≠ .none || s.eng[t].st ≠ .spare ||
          !s.islandOn (3 + t.val) || x.ckpt ≠ .none then s
      else
        let s1 := r.1.moveBindings f t
        let s2 := (s1.setEng t (rotatedEngine s1.eng[t] x)).setEng f { stoppedEngine x .test with flight := [] }
        let s3 := (s2.loadRole t q.role).modInst q.role (bindTo t s.bindSeq)
        ({ s3 with bindSeq := s3.bindSeq + 1, rotation := none }).count fltRotateCnt

/-- The meaning of ROTATION_MOVE. -/
def execRotationMove (s : State) : Host.Outcome State Fault Refusal := commit s (doRotationMove s)

/-! Self-tests (R164, R399). -/

/-- An engine's 40 ms logic self-test ends: back to SPARE, out of the fence if it was fenced; else FENCED, for good
where the test was that of a fenced engine. -/
def doSelfTestDone (e : Fin 10) (pass : Bool) (s : State) : State :=
  let x := s.eng[e]
  let d : Fin 37 := Fin.ofNat 37 e.val
  if x.st ≠ .test then s
  else if pass then
    let s1 := (s.setEng e { stoppedEngine x .spare with flight := [] }).setReg (pecFault e.val) 0
    if s.fenced e.val then s1.fltLeave d else s1
  else if s.fenced e.val then (s.setEng e { x with st := .fenced }).fltPermanent d 0x09
  else (s.setEng e { x with st := .fenced }).fltLatch d 0x09 0 0

/-- The meaning of SELF_TEST_DONE. -/
def execSelfTestDone (e : Fin 10) (pass : Bool) (s : State) : Host.Outcome State Fault Refusal :=
  commit s (doSelfTestDone e pass s)

/-- The self-test of a fenced engine starts. -/
def State.startTest (s : State) (e : Fin 10) : State :=
  let s1 := s.setEng e { s.eng[e] with st := .test }
  { s1 with flt := { s1.flt with testing := setBit s1.flt.testing e.val true } }

/-- RETEST_DELAY after a hard-fault fence latched while AUTO_RETEST = 1 (R399, R419). -/
def doRetestStart (e : Fin 10) (s : State) : State :=
  match s.flt.retest[e] with
  | some t =>
    if s.eng[e].st = .fenced && s.fenced e.val && !s.flt.perm.getLsbD e.val && decide (t ≤ s.clk.tick) then s.startTest e
    else s
  | none => s

/-- The meaning of RETEST_START. -/
def execRetestStart (e : Fin 10) (s : State) : Host.Outcome State Fault Refusal := commit s (doRetestStart e s)

end Sys2Proof.Machine
end

