-- ==== Sys2Proof/Machine/Can.lean ====
section
/-! DEFINITION. CAN FD channels (11): received frames and their objects, gateway frames, time-triggered attempts and
their outcomes, errors and bus-off. -/

namespace Sys2Proof.Machine

/-- Replace a channel. -/
def State.setCan (s : State) (n : Fin 4) (x : CanState) : State := { s with can := vset s.can n x }

/-- The fence domain of a channel. -/
def canDomain (n : Fin 4) : Nat := 23 + n.val

/-- Whether a channel may go on with a frame: timing within Table CAN-1, integrated, not bus-off, not fenced, its island
on (R260, R274, R275). -/
def State.canGoesOn (s : State) (n : Fin 4) : Bool :=
  let x := s.can[n]
  !s.canTimingBad n && x.integ && !x.busOff && !s.fenced (canDomain n) && s.islandOn 18

/-- Whether a channel takes part in the bus: EN = 1 besides. -/
def State.canOnBus (s : State) (n : Fin 4) : Bool := s.en (.can n) && s.canGoesOn n

/-- The domain of a channel (CAN_CFG.DOM). -/
def State.canDom (s : State) (n : Fin 4) : Fin 4 := Fin.ofNat 4 (fieldOf (s.reg (canCfg n.val)) 26 2)

/-- A time of a domain in whole ns. -/
def State.nsOf (s : State) (d : Fin 4) : Nat := dtNsTotal (s.time d)

/-- CAN_TT_PERIOD and TX_EN_WIN in ns. -/
def State.canPeriod (s : State) (n : Fin 4) : Nat := fieldOf (s.reg (canTtPeriod n.val)) 0 23
def State.canWin (s : State) (n : Fin 4) : Nat := fieldOf (s.reg (canTtWin n.val)) 0 16

/-- FD_EN. -/
def State.canFd (s : State) (n : Fin 4) : Bool := bitOf (s.reg (canCfg n.val)) 31

/-- Bytes of a DLC: 9 to 15 carry 8 in a classical frame (R263). -/
def dlcLen (fdf : Bool) (dlc : Nat) : Nat :=
  if dlc ≤ 8 then dlc
  else if !fdf then 8
  else match dlc with
    | 9 => 12
    | 10 => 16
    | 11 => 20
    | 12 => 24
    | 13 => 32
    | 14 => 48
    | _ => 64

/-- The time of a domain `ago` CCLK before now: an SOF edge, at 12.5 ns (R266). One CCLK is 25/4 PCLK ticks. -/
def State.canStamp (s : State) (n : Fin 4) (ago : Nat) : Stamp :=
  let d := s.canDom n
  ⟨dtAdd (s.time d) (-((ago * 25 : Nat) * s.incEff d / 4)), d, s.stampDeg d || s.degraded 18⟩

/-! Gateway frames (R267, Table CAN-3). -/

/-- The gateway frames of a channel that wait for switch cells. -/
def State.gwWaiting (s : State) (n : Fin 4) : Nat :=
  (s.swc.ingress.filter (fun i => i.lp.val = 20 && i.f.origin = .gateway && (byteAt i.f.bytes 15).toNat % 4 = n.val)).length

/-- Send a gateway frame into LP20, unless eight wait. -/
def State.gwSend (s : State) (n : Fin 4) (kind num : Nat) (idw : Word) (dlc stat : Nat) (stamp : List Byte) (info : Nat)
    (data : List Byte) : State :=
  if 8 ≤ s.gwWaiting n then s.count (canGwDropCnt n.val)
  else
    let da := toBe 2 (s.reg (canGwDstHi n.val)).toNat ++ toBe 4 (s.reg (canGwDstLo n.val)).toNat
    let sa := toBe 2 (s.reg (canGwOwnHi n.val)).toNat ++ toBe 4 (s.reg (canGwOwnLo n.val)).toNat
    let bs := da ++ sa ++ toBe 2 (fieldOf (s.reg (canGwEtype n.val)) 0 16) ++ toBe 1 (16 + kind) ++ toBe 1 n.val ++
      toBe 2 num ++ toBe 4 idw.toNat ++ toBe 1 dlc ++ toBe 1 stat ++ stamp ++ toBe 2 info ++ [0, 0] ++ data
    let req : TxReq := ⟨.none, 0, 0, none, none, none⟩
    s.toSwitch 20 ⟨padFrame bs, none, false, req, .gateway⟩

/-- FRAC, NS and SEC[31:0] of a stamp, big-endian. -/
def stampBytes (t : DTime) : List Byte := toBe 4 (dtFrac t) ++ toBe 4 (dtNs t) ++ toBe 4 (dtSec t % 2 ^ 32)

/-! Error confinement (R274; the counting rules of ISO 11898-1, log 20). -/

/-- What an error adds to the counters. -/
def canPenalty (r : CanErrRule) (x : CanState) : CanState :=
  match r with
  | .receiver => { x with rxErr := if x.rxErr < 255 then x.rxErr + 1 else 255 }
  | .receiverFlag => { x with rxErr := if x.rxErr < 248 then x.rxErr + 8 else 255 }
  | .transmitter => { x with txErr := x.txErr + 8 }
  | .exempt => x

/-- Bus-off is entered above 255: the count of recovery starts (R274). -/
def State.canBusOff (s : State) (n : Fin 4) : State :=
  let x := s.can[n]
  if !x.busOff && decide (255 < x.txErr) then
    (s.setCan n { x with busOff := true, prog := 0 }).count (canBusoffCnt n.val)
  else s

/-- The counter of a kind of error. -/
def canErrCnt (n : Fin 4) : CanErrKind → Nat
  | .bit => canErrBitCnt n.val
  | .stuff => canErrStuffCnt n.val
  | .form => canErrFormCnt n.val
  | .ack => canErrAckCnt n.val
  | .crc => canErrCrcCnt n.val

/-- An error is detected: counted, and added to the error counters. -/
def State.canErr (s : State) (n : Fin 4) (k : CanErrKind) (r : CanErrRule) : State :=
  let s1 := s.count (canErrCnt n k)
  (s1.setCan n (canPenalty r s1.can[n])).canBusOff n

/-! Attempts and the bus (R271, R275). -/

/-- Replace the first attempt that waits and satisfies a test by none. -/
def dropTry (p : CanTry → Bool) : List CanTry → List CanTry
  | [] => []
  | t :: r => if p t then r else t :: dropTry p r

/-- Whether an attempt may start now: on the bus, not in hold, its window open; with FD_EN = 0 the channel sends no FD
frame (R263, R271, R275); a SHADOW sends nothing (Table FLT-5). -/
def State.canMayStart (s : State) (n : Fin 4) (t : CanTry) : Bool :=
  s.canOnBus n && !s.inHold (.can n) && !s.shadowed && decide (s.nsOf (s.canDom n) ≤ t.closes) &&
  (s.canFd n || !bitOf (t.words.getD 0 0) 30)

/-- The bus is free: the oldest attempt that may start does (R271). -/
def State.canNext (s : State) (n : Fin 4) : State :=
  let x := s.can[n]
  if x.sending.isSome || x.foreign then s
  else
    match x.tries.find? (fun t => s.canMayStart n t) with
    | none => s
    | some t => s.setCan n { x with sending := some t, tries := dropTry (fun u => s.canMayStart n u) x.tries }

/-- A frame of another node has left the bus. -/
def State.canFree (s : State) (n : Fin 4) : State := (s.setCan n { s.can[n] with foreign := false }).canNext n

/-- An error a channel on the bus detects; the frame of another node ends with it. -/
def doCanError (n : Fin 4) (k : CanErrKind) (r : CanErrRule) (s : State) : State :=
  if s.canOnBus n then (s.canErr n k r).canFree n else s

/-- The meaning of CAN_ERROR. -/
def execCanError (n : Fin 4) (k : CanErrKind) (r : CanErrRule) (s : State) : Host.Outcome State Fault Refusal :=
  commit s (doCanError n k r s)

/-- Occurrences of 11 recessive bits in bus-off: at the 128th the channel is error active with both counters 0. -/
def doCanBusoffRecover (n : Fin 4) (occurrences : BitVec 8) (s : State) : State :=
  let x := s.can[n]
  if !x.busOff then s
  else if x.prog + occurrences.toNat < 128 then s.setCan n { x with prog := x.prog + occurrences.toNat }
  else (s.setCan n { x with busOff := false, prog := 128, txErr := 0, rxErr := 0 }).canNext n

/-- The meaning of CAN_BUSOFF_RECOVER. -/
def execCanBusoffRecover (n : Fin 4) (occurrences : BitVec 8) (s : State) : Host.Outcome State Fault Refusal :=
  commit s (doCanBusoffRecover n occurrences s)

/-- Eleven recessive bits: the channel takes part in the bus (R275, R263). -/
def doCanBusIntegrated (n : Fin 4) (s : State) : State :=
  if s.en (.can n) && !s.canTimingBad n && !s.fenced (canDomain n) then
    (s.setCan n { s.can[n] with integ := true, foreign := false }).canNext n
  else s

/-- The meaning of CAN_BUS_INTEGRATED. -/
def execCanBusIntegrated (n : Fin 4) (s : State) : Host.Outcome State Fault Refusal :=
  commit s (doCanBusIntegrated n s)

/-- A received FD frame with res recessive (R263): a protocol exception with PEX_EN = 1, else a form error; with
FD_EN = 0 a frame with FDF recessive is a form error already. -/
def doCanProtocolException (n : Fin 4) (s : State) : State :=
  if !s.canOnBus n then s
  else if s.canFd n && bitOf (s.reg (canCfg n.val)) 30 then
    (s.setCan n { s.can[n] with integ := false, foreign := false }).count (canPexCnt n.val)
  else (s.canErr n .form .receiver).canFree n

/-- The meaning of CAN_PROTOCOL_EXCEPTION. -/
def execCanProtocolException (n : Fin 4) (s : State) : Host.Outcome State Fault Refusal :=
  commit s (doCanProtocolException n s)

/-! Receive objects (R264-R266, Table CAN-2). -/

/-- Word w of object k. -/
def State.objWord (s : State) (n : Fin 4) (k w : Nat) : Word := s.tab (.can n) 0 (k * 24 + w)

/-- Whether word 0 of an object names an identifier. -/
def objMatches (w0 : Word) (ide : Bool) (id : Nat) : Bool := bitOf w0 31 && bitOf w0 30 = ide && fieldOf w0 0 29 = id

/-- The identifier of a frame as word 0 holds it: 11 bits where IDE = 0. -/
def canIdent (f : CanFrame) : Nat := if f.ide then f.id.toNat else f.id.toNat % 2048

/-- The lowest-numbered object of a frame. -/
def State.objOf (s : State) (n : Fin 4) (f : CanFrame) : Option Nat :=
  (List.range 512).find? (fun k => objMatches (s.objWord n k 0) f.ide (canIdent f))

/-- The data bytes of a frame, as many as its DLC carries. -/
def canPayload (f : CanFrame) : List Byte := slice f.data 0 (dlcLen f.fdf f.dlc.toNat)

/-- Store a frame into an object. -/
def State.objStore (s : State) (n : Fin 4) (k : Nat) (f : CanFrame) (st : Stamp) : State :=
  let w0 := s.objWord n k 0
  let old := s.objWord n k 1
  let lost := bitOf old 31
  let cnt := (fieldOf old 0 16 + 1) % 65536
  let w1 := w32 (2 ^ 31 + 2 ^ 30 * b2n (lost || bitOf old 30) + 2 ^ 29 * b2n f.fdf + 2 ^ 28 * b2n f.brs +
    2 ^ 27 * b2n f.esi + 2 ^ 26 * b2n st.deg + 2 ^ 24 * st.dom.val + 65536 * f.dlc.toNat + cnt)
  let pl := canPayload f
  let ws := [w1, w32 (dtFrac st.t), w32 (dtNs st.t), w32 (dtSec st.t), w32 (dtSec st.t / 2 ^ 32), 0, 0] ++
    (List.range 16).map (fun i => le32At pl (4 * i))
  let s1 := (s.setTabs (.can n) 0 (k * 24 + 1) ws).count (canRxFramesCnt n.val)
  let s2 := if lost then s1.count (canMsgLostCnt n.val) else s1
  if bitOf w0 29 then
    let idw := w32 (2 ^ 31 * b2n f.ide + 2 ^ 30 * b2n f.fdf + 2 ^ 29 * b2n f.brs + canIdent f)
    s2.gwSend n 1 k idw f.dlc.toNat (128 * b2n (lost || bitOf old 30) + b2n f.esi * 64 + b2n st.deg * 32) (stampBytes st.t)
      cnt pl
  else s2

/-- The object read of a fetch: NEW and MSG_LOST are cleared (R265). -/
def State.objRead (s : State) (n : Fin 4) (k : Nat) : State :=
  s.setTab (.can n) 0 (k * 24 + 1) (s.objWord n k 1 &&& 0x3FFFFFFF#32)

/-- A commit of word 0 of an object; a new binding clears words 1-23 (R265). -/
def State.objCommit (s : State) (n : Fin 4) (k : Nat) (v : Word) : State :=
  let old := s.objWord n k 0
  let s1 := s.setTab (.can n) 0 (k * 24) v
  if old &&& 0xDFFFFFFF#32 = v &&& 0xDFFFFFFF#32 then s1 else s1.clearTab (.can n) 0 (k * 24 + 1) 23

/-- A good frame lowers the receive error counter; from above 127 it falls to a value of 119 to 127 (ISO 11898-1,
log 20). -/
def State.canGoodRx (s : State) (n : Fin 4) : State :=
  let x := s.can[n]
  if x.rxErr = 0 then s
  else if x.rxErr ≤ 127 then s.setCan n { x with rxErr := x.rxErr - 1 }
  else
    let r := s.draw
    r.2.setCan n { x with rxErr := 119 + r.1.toNat % 9 }

/-- A received reference message starts a slave's basic cycle at the stamp of its SOF (R269). -/
def State.canRef (s : State) (n : Fin 4) (f : CanFrame) (sof : Stamp) : State :=
  let r := s.reg (canTtRef n.val)
  if s.canRole n = 1 && bitOf r 31 = f.ide && fieldOf r 0 29 = canIdent f then
    s.setCan n { s.can[n] with
      sync := true
      cyc := (byteAt f.data 0).setWidth 6
      cycAt := dtNsTotal sof.t
      served := 0 }
  else s

/-- A valid received frame enters the lowest-numbered object bound to its identifier (R263, R264). -/
def State.canKeep (s : State) (n : Fin 4) (f : CanFrame) (sof : Stamp) : State :=
  if f.rtr then s.count (canRxRtrCnt n.val)
  else match s.objOf n f with
    | some k => (s.objStore n k f sof).sgmMark 2 (fun a _ => fieldOf a 28 2 = n.val && fieldOf a 16 9 = k)
    | none => s.count (canRxNoobjCnt n.val)

/-- Whether a channel receives a frame whose SOF lies `ago` CCLK back: none while it sends its own; in hold only one that
was in progress as hold began (R275). One CCLK is 25/4 ticks. -/
def State.canReceives (s : State) (n : Fin 4) (ago : Nat) : Bool :=
  let x := s.can[n]
  s.canGoesOn n && x.sending.isNone &&
  (match x.heldAt with
    | none => true
    | some h => decide (4 * s.clk.tick < 4 * h + 25 * ago))

/-- A valid received frame is stored, stamped at the SOF `ago` CCLK before (R263-R266). -/
def doCanFrameStore (n : Fin 4) (f : CanFrame) (ago : Nat) (s : State) : State :=
  let sof := s.canStamp n ago
  if !s.canReceives n ago then s
  else if f.fdf && !s.canFd n then (s.canErr n .form .receiver).canFree n
  else (((s.canGoodRx n).canRef n f sof).canKeep n f sof).canFree n

/-- The meaning of CAN_FRAME_STORE. -/
def execCanFrameStore (n : Fin 4) (f : CanFrame) (ago : Nat) (s : State) : Host.Outcome State Fault Refusal :=
  commit s (doCanFrameStore n f ago s)

/-! Attempts (R269-R273, Table CAN-4). -/

/-- Word w of transmit buffer b. -/
def State.bufWord (s : State) (n : Fin 4) (b : Fin 64) (w : Nat) : Word := s.tab (.can n) 1 (b.val * 20 + w)

/-- Enter a transmit event; with 32 held it is dropped. `sof`: the stamp of the SOF, if there was one. With GW_TXEV
it is sent as a gateway frame too (R267, R272). The reference message has no buffer and no column: those fields are
open. -/
def State.txEvent (s : State) (n : Fin 4) (t : CanTry) (status : Byte) (err : Nat) (sof : Option Stamp) : State :=
  let r := s.draw
  let buf := match t.buf with | some b => b.val | none => fieldOf r.1 0 6
  let col := match t.col with | some c => c.val | none => fieldOf r.1 6 5
  let s0 : State := match t.buf, t.col with | some _, some _ => s | _, _ => r.2
  let w0 := w32 (2 ^ 24 * status.toNat + 2 ^ 20 * err + 2 ^ 14 * buf + 256 * t.cyc.toNat + col * 8 + 1)
  let w1 := match sof with | some st => w32 (dtNs st.t) | none => 0
  let x := s0.can[n]
  let s1 : State := if x.events.length < 32 then s0.setCan n { x with events := x.events ++ [(w0, w1)] }
    else s0.count (canTxevDropCnt n.val)
  if bitOf (s1.reg (canCfg n.val)) 29 then
    let idw := t.words.getD 0 0
    let dlc := fieldOf (t.words.getD 1 0) 0 4
    let data := (((t.words.drop 4).map leBytes).flatten).take (dlcLen (bitOf idw 30) dlc)
    s1.gwSend n 3 buf idw dlc status.toNat (match sof with | some st => stampBytes st.t | none => List.replicate 12 0)
      (4096 * err + t.cyc.toNat * 64 + col) data
  else s1

/-- An attempt's outcome: the buffer's last outcome, the event, and for the reference message a miss unless it was
sent (R269, R272). -/
def State.txOutcome (s : State) (n : Fin 4) (t : CanTry) (status : Byte) (err : Nat) (sof : Option Stamp) : State :=
  let s1 := match t.buf with
    | some b => s.setTab (.can n) 1 (b.val * 20 + 2) (w32 (2 ^ 24 * status.toNat + 2 ^ 20 * err))
    | none => if status = stOk then s else s.count (canTtRefmissCnt n.val)
  s1.txEvent n t status err sof

/-- A failed attempt counts. -/
def State.txFail (s : State) (n : Fin 4) (t : CanTry) (status : Byte) (err : Nat) (sof : Option Stamp) : State :=
  (s.count (canTxFailCnt n.val)).txOutcome n t status err sof

/-- READY is cleared unless KEEP = 1 (R270). -/
def State.readyDone (s : State) (n : Fin 4) (b : Fin 64) : State :=
  let w := s.bufWord n b 1
  if bitOf w 9 then s else s.setTab (.can n) 1 (b.val * 20 + 1) (setBit w 8 false)

/-- A latched attempt: FENCED or bus-off ends it at the mark, else it starts, or waits for the bus (R271, R274). `busy`:
a frame of another node is on the bus. -/
def State.tryStart (s : State) (n : Fin 4) (busy : Bool) (t : CanTry) : State :=
  if s.fenced (canDomain n) then s.txFail n t stFenced 0 none
  else if s.can[n].busOff then s.txFail n t stBusError 7 none
  else
    let x := s.can[n]
    (s.setCan n { x with tries := x.tries ++ [t], foreign := x.foreign || (busy && x.sending.isNone) }).canNext n

/-- The start of a time master's basic cycle in progress, in ns of its domain (R269). -/
def State.canCycleNs (s : State) (n : Fin 4) : Nat :=
  let p := s.canPeriod n
  let t := s.nsOf (s.canDom n)
  t - (t + p - fieldOf (s.reg (canTtPhase n.val)) 0 23 % p) % p

/-- Whether a time master's basic cycle starts in this tick (R269), and has not been started. -/
def State.canCycleDue (s : State) (n : Fin 4) : Bool :=
  s.canRole n = 2 && s.en (.can n) && !s.inHold (.can n) &&
  s.atPhase (s.canDom n) (s.canPeriod n) (fieldOf (s.reg (canTtPhase n.val)) 0 23) 0 &&
  !(s.can[n].sync && s.can[n].cycAt = s.canCycleNs n)

/-- A basic cycle of a time master starts (R269): the cycle count goes on, from 0 in the first, and the reference
message is attempted as an exclusive entry. -/
def doCanTtCycleStart (n : Fin 4) (busy : Bool) (s : State) : State :=
  if !s.canCycleDue n then s
  else
    let x := s.can[n]
    let max := fieldOf (s.reg (canCfg n.val)) 0 6
    let cyc : BitVec 6 := if x.sync then BitVec.ofNat 6 ((x.cyc.toNat + 1) % (max + 1)) else 0
    let r := s.reg (canTtRef n.val)
    let words := [w32 (2 ^ 31 * b2n (bitOf r 31) + fieldOf r 0 29), 1, 0, 0, cyc.setWidth 32]
    let at_ := s.canCycleNs n
    (s.setCan n { x with sync := true, cyc := cyc, cycAt := at_, served := 0 }).tryStart n busy
      ⟨none, none, cyc, true, words, at_, at_ + s.canWin n⟩

/-- The meaning of CAN_TT_CYCLE_START. -/
def execCanTtCycleStart (n : Fin 4) (s : State) (busy : Bool := false) : Host.Outcome State Fault Refusal :=
  commit s (doCanTtCycleStart n busy s)

/-- A slave's reference fails to arrive within CAN_TT_PERIOD + TX_EN_WIN of the last (R269). -/
def doCanTtRefMiss (n : Fin 4) (s : State) : State :=
  if s.canRole n = 1 && s.en (.can n) && s.can[n].sync &&
      decide (s.can[n].cycAt + s.canPeriod n + s.canWin n ≤ s.nsOf (s.canDom n)) then
    (s.setCan n { s.can[n] with sync := false }).count (canTtRefmissCnt n.val)
  else s

/-- The meaning of CAN_TT_REF_MISS. -/
def execCanTtRefMiss (n : Fin 4) (s : State) : Host.Outcome State Fault Refusal := commit s (doCanTtRefMiss n s)

/-- TMARK of a column. -/
def State.canMark (s : State) (n : Fin 4) (c : Nat) : Nat := fieldOf (s.tab (.can n) 3 c) 0 23

/-- The end of an arbitrating entry's window, from the cycle's start: the mark of the column served next, or the end of
the basic cycle (R271). -/
def State.canArbEnd (s : State) (n : Fin 4) (mark : Nat) : Nat :=
  (List.range 32).foldl (fun a c => if mark < s.canMark n c ∧ s.canMark n c < a then s.canMark n c else a) (s.canPeriod n)

/-- Whether the mark of a column is reached in this tick, and not yet served in the cycle (R270). -/
def State.markDue (s : State) (n : Fin 4) (col : Fin 32) : Bool :=
  let x := s.can[n]
  decide (s.canRole n ≠ 0) && x.sync && s.en (.can n) && !s.inHold (.can n) &&
  decide (s.canMark n col.val < s.canPeriod n) && !x.served.getLsbD col.val &&
  s.atTime (s.canDom n) (x.cycAt + s.canMark n col.val)

/-- The mark of a column in the cycle in progress (R270). -/
def doCanTimeMark (n : Fin 4) (col : Fin 32) (busy : Bool) (s : State) : State :=
  let x := s.can[n]
  if !s.markDue n col then s
  else
    let s1 := s.setCan n { x with col := BitVec.ofNat 5 col.val, served := setBit x.served col.val true }
    let e := s.tab (.can n) 2 (x.cyc.toNat * 32 + col.val)
    if !bitOf e 31 then s1
    else
      let b := Fin.ofNat 64 (fieldOf e 0 6)
      if !bitOf (s1.bufWord n b 1) 8 then s1.count (canTxEmptyCnt n.val)
      else
        let mark := x.cycAt + s.canMark n col.val
        let closes := if bitOf e 30 then x.cycAt + s.canArbEnd n (s.canMark n col.val) else mark + s.canWin n
        let t : CanTry := ⟨some b, some col, x.cyc, !bitOf e 30, s1.tabWords (.can n) 1 (b.val * 20) 20, mark, closes⟩
        (s1.readyDone n b).tryStart n busy t

/-- The meaning of CAN_TIME_MARK. -/
def execCanTimeMark (n : Fin 4) (col : Fin 32) (s : State) (busy : Bool := false) : Host.Outcome State Fault Refusal :=
  commit s (doCanTimeMark n col busy s)

/-- Whether an attempt of a column, or of the reference message, that waits has seen its window end (R271). -/
def State.isLate (s : State) (n : Fin 4) (col : Option (Fin 32)) (t : CanTry) : Bool :=
  t.col = col && decide (t.closes ≤ s.nsOf (s.canDom n))

/-- The window of an attempt that waits ends before it could start (R271); one in transmission is never cut. -/
def doCanTxLate (n : Fin 4) (col : Option (Fin 32)) (s : State) : State :=
  let x := s.can[n]
  match x.tries.find? (fun t => s.isLate n col t) with
  | none => s
  | some t => (s.setCan n { x with tries := dropTry (fun u => s.isLate n col u) x.tries }).txFail n t stLate 0 none

/-- The meaning of CAN_TX_LATE. -/
def execCanTxLate (n : Fin 4) (col : Option (Fin 32)) (s : State) : Host.Outcome State Fault Refusal :=
  commit s (doCanTxLate n col s)

/-- The loop delay measured in an FD frame with BRS = 1 that the channel sends (R262). -/
def State.measureTdc (s : State) (n : Fin 4) (t : CanTry) (loop : Nat) : State :=
  let w := t.words.getD 0 0
  if bitOf (s.reg (canTdc n.val)) 31 && bitOf w 30 && bitOf w 29 then
    if 127 < loop then (s.setCan n { s.can[n] with tdcv := 127 }).count (canTdcSatCnt n.val)
    else s.setCan n { s.can[n] with tdcv := loop }
  else s

/-- An attempt's outcome with its counters (Table CAN-4). An ID collision is a bit error the channel detects, and raises
the transmit error counter (R273); of the other errors CAN_ERROR tells whether they do. -/
def State.canOutcome (s : State) (n : Fin 4) (t : CanTry) (o : CanEnd) (sof : Option Stamp) : State :=
  match o with
  | .ok =>
    let y := s.can[n]
    ((s.setCan n { y with txErr := y.txErr - 1 }).count (canTxOkCnt n.val)).txOutcome n t stOk 0 sof
  | .arbLost =>
    let s2 := s.count (canTxArblostCnt n.val)
    (if t.excl then s2.count (canTtExclViolCnt n.val) else s2).txOutcome n t stRetry 0 sof
  | .collision => ((s.canErr n .bit .transmitter).count (canIdcollCnt n.val)).txFail n t stIdCollision 1 sof
  | .bitErr => s.txFail n t stBusError 2 sof
  | .stuffErr => s.txFail n t stBusError 3 sof
  | .formErr => s.txFail n t stBusError 4 sof
  | .ackErr => s.txFail n t stBusError 5 sof
  | .otherFlag => s.txFail n t stBusError 6 sof

/-- Whether the attempt in transmission may end so: its SOF lay in its window, and it is sent, or has lost arbitration,
only where the channel went on with it (R260, R271, R274). -/
def State.canEnds (s : State) (n : Fin 4) (t : CanTry) (o : CanEnd) (ago : Nat) : Bool :=
  let sof := dtNsTotal (s.canStamp n ago).t
  decide (t.opens ≤ sof) && decide (sof ≤ t.closes) &&
  (s.canGoesOn n || (match o with | .ok => false | .arbLost => false | .collision => false | _ => true))

/-- The attempt in transmission ends: its SOF was `ago` CCLK before, its loop delay `loop` CCLK (Table CAN-4). Where it
has lost arbitration the winner's frame stays on the bus; else the next attempt may start. -/
def doCanTxEnd (n : Fin 4) (o : CanEnd) (ago loop : Nat) (s : State) : State :=
  match s.can[n].sending with
  | none => s
  | some t =>
    if !s.canEnds n t o ago then s
    else
      let lost := o = .arbLost
      let s0 := s.setCan n { s.can[n] with sending := none, foreign := lost }
      let s1 := if lost then s0 else s0.measureTdc n t loop
      (s1.canOutcome n t o (some (s1.canStamp n ago))).canNext n

/-- The meaning of CAN_TX_END. -/
def execCanTxEnd (n : Fin 4) (o : CanEnd) (ago loop : Nat) (s : State) : Host.Outcome State Fault Refusal :=
  commit s (doCanTxEnd n o ago loop s)

/-! Registers and gateway commits. -/

/-- The head event is read and removed; W1 is latched for the reader (R272). -/
def State.txevRead (s : State) (who : Nat) (n : Fin 4) : Word × State :=
  let x := s.can[n]
  match x.events with
  | [] => (0, s.latchFor who (canTxevW1 n.val) 0)
  | e :: r => (e.1, (s.setCan n { x with events := r }).latchFor who (canTxevW1 n.val) e.2)

/-- A read of CAN_TXEV_W0. -/
def doCanTxevRead (m : Master) (n : Fin 4) (s : State) : State :=
  s.guardedRead m (canTxevW0 n.val) fun s =>
    let r := s.txevRead (masterIdx m) n
    r.2.emit (.readData m (w32 (canTxevW0 n.val)) r.1)

/-- The meaning of CAN_TXEV_READ. -/
def execCanTxevRead (m : Master) (n : Fin 4) (s : State) : Host.Outcome State Fault Refusal :=
  commit s (doCanTxevRead m n s)

/-- The head of a logical port's queues: the highest traffic class first (R209). -/
def State.lpHead (s : State) (lp : Nat) : Option QEntry :=
  match [7, 6, 5, 4, 3, 2, 1, 0].find? (fun q => (s.headOf lp q).isSome) with
  | some q => s.headOf lp q
  | none => none

/-- Whether a frame delivered to LP20 is channel n's: DA = CAN_GW_OWN and its EtherType (R268). -/
def State.gwTakes (s : State) (n : Fin 4) (bs : List Byte) : Bool :=
  be16At bs 0 = fieldOf (s.reg (canGwOwnHi n.val)) 0 16 && be32At bs 2 = (s.reg (canGwOwnLo n.val)).toNat &&
  be16At bs 12 = fieldOf (s.reg (canGwEtype n.val)) 0 16

/-- A taken frame commits a transmit buffer, or is dropped (R268, Table CAN-3). -/
def State.gwCommit (s : State) (n : Fin 4) (bs : List Byte) : State :=
  let vk := (byteAt bs 14).toNat
  let num := be16At bs 16
  if vk ≠ 0x12 || decide (64 ≤ num) then s.count (canGwDropCnt n.val)
  else
    let ch := (byteAt bs 15).toNat
    let idw := w32 (be32At bs 18)
    let dlc := (byteAt bs 22).toNat % 16
    let data := slice bs 40 (dlcLen (bitOf idw 30) dlc)
    let w1 := w32 (512 * (ch / 64 % 2) + 256 * (ch / 128) + dlc)
    let s1 := s.setTabs (.can n) 1 (num * 20) [idw, w1]
    s1.setTabs (.can n) 1 (num * 20 + 4) ((List.range 16).map (fun i => le32At data (4 * i)))

/-- A frame as LP20 delivers it: marked, cut and tagged as at any egress port (R179, R210, Table SWC-4). -/
def State.gatewayBytes (s : State) (q : QEntry) (st : Stored) : List Byte := s.egressTag st 20 (s.leaving q st)

/-- The head frame at LP20 is channel n's and its last byte is received. -/
def doCanGwReceive (n : Fin 4) (s : State) : State :=
  match s.lpHead 20 with
  | none => s
  | some q =>
    match s.storedOf q.fid with
    | none => s
    | some st =>
      let bs := s.gatewayBytes q st
      if s.gwTakes n bs then (s.leaveQueue q.lp q.fid (lastOf q st)).gwCommit n bs else s

/-- The meaning of CAN_GW_RECEIVE. -/
def execCanGwReceive (n : Fin 4) (s : State) : Host.Outcome State Fault Refusal := commit s (doCanGwReceive n s)

/-- CAN_ERRCNT: the state, REC and TEC. -/
def State.canErrcntWord (s : State) (n : Fin 4) : Word :=
  let x := s.can[n]
  let st := if x.busOff then 2 else if 127 < x.txErr ∨ 127 < x.rxErr then 1 else 0
  w32 (2 ^ 30 * st + 65536 * (x.rxErr % 256) + x.txErr % 512)

/-- CAN_TT_STATE. -/
def State.canTtStateWord (s : State) (n : Fin 4) : Word :=
  w32 (65536 * s.can[n].cyc.toNat + s.can[n].col.toNat)

/-- CAN_CFG: TT_ROLE 0b11 and an undefined CYC_MAX are rejected (R269, R270). -/
def canCfgOk (v : Word) : Bool := fieldOf v 24 2 ≠ 3 && [0, 1, 3, 7, 15, 31, 63].contains (fieldOf v 0 6)

/-- A channel begins to integrate as EN rises (R275). No basic cycle runs. -/
def State.canJoin (s : State) (n : Fin 4) : State := 
  s.setCan n { s.can[n] with integ := false, sync := false, heldAt := none }

/-- A channel's fence ends: its protocol engine is reset, and it integrates (Table FLT-1, R275); its schedule goes on. -/
def State.canRejoin (s : State) (n : Fin 4) : State :=
  s.setCan n { s.can[n] with integ := false, busOff := false, prog := 0, txErr := 0, rxErr := 0, foreign := false }

/-- Hold begins at a channel (R275). -/
def State.canHold (s : State) (n : Fin 4) : State :=
  s.setCan n { s.can[n] with heldAt := s.can[n].heldAt.or (some s.clk.tick) }

/-- The frame in progress at a channel in hold has ended. -/
def State.canQuiet (s : State) (n : Fin 4) : State := s.setCan n { s.can[n] with foreign := false }

end Sys2Proof.Machine
end

