-- ==== Sys2Proof/Machine/Hif.lean ====
section
/-! DEFINITION. The host interface (13): contexts, doorbells, descriptor fetches and host reads, frames delivered
to a host, aborts, MSI-X, the BAR4 window, and the links going down and coming up. -/

namespace Sys2Proof.Machine

/-- The master of a host link. -/
def hostMaster (link : Bool) : Master := if link then .h1 else .h0

/-- The logical port of a host link. -/
def hostLp (link : Bool) : Fin 22 := if link then 9 else 8

/-- BIF as sampled (R293). -/
def State.bif (s : State) : Bool := bitOf (s.reg hifLinkStatus) 31

/-- (a - b) mod the ring's size (R299). -/
def idxDist (size a b : Nat) : Nat := (a % size + size - b % size) % size

/-! Rings (R298-R300). -/

/-- Whether an index lies between a ring's head and its producer index. -/
def State.inRing (s : State) (c : Fin 256) (rx : Bool) (i : Nat) : Bool :=
  let x := s.hctx c
  if rx then decide (i < s.rxSize c) && decide (idxDist (s.rxSize c) i (s.rxHead c) < idxDist (s.rxSize c) x.rxPi.toNat (s.rxHead c))
  else decide (i < s.txSize c) && decide (idxDist (s.txSize c) i (s.txHead c) < idxDist (s.txSize c) x.txPi.toNat (s.txHead c))

/-- The completion of an RX descriptor; the head moves past it (Table HIF-4). -/
def State.rxCqe (s : State) (c : Fin 256) (idx : Nat) (status : Byte) (w1 w2 cookie : Word) : State :=
  let s1 := s.writeCqe c (cqe0 2 status idx) w1 w2 cookie false
  s1.setCtxWord c 10 (setField (s1.ctxWord c 10) 16 16 ((idx + 1) % s.rxSize c))

/-- Complete the descriptors at the head of the RX ring that take no frame, in order, while the completion ring
has room; at most `fuel` of them. -/
def State.rxFlush : Nat → State → Fin 256 → State
  | 0, s, _ => s
  | fuel + 1, s, c =>
    let x := s.hctx c
    match x.rxq with
    | [] => s
    | d :: r =>
      match d.ended with
      | some status =>
        if s.cqRoom c && !x.mute && d.idx = s.rxHead c then
          let s1 := s.rxCqe c d.idx status 0 0 (d.words.getD 7 0)
          State.rxFlush fuel (s1.setHctx c { s1.hctx c with rxq := r }) c
        else s
      | none => s

/-! Host reads (R295, R302). -/

/-- Reads outstanding on a link. -/
def State.readsOf (s : State) (link : Bool) : Nat := (s.hif.reads.filter (fun r => r.link = link)).length

/-- Whether a link may issue one more read: 256 in ×4 operation, 128 a link when bifurcated. -/
def State.readRoom (s : State) (link : Bool) : Bool := decide (s.readsOf link < (if s.bif then 128 else 256))

/-- Issue a read. -/
def State.issueRead (s : State) (c : Fin 256) (kind : ReadKind) (addr len : Nat) : State :=
  let link := s.ctxLink c
  let r : HostRead := ⟨s.hif.nextTag, c, link, kind⟩
  let s1 := { s with hif := { s.hif with
    reads := s.hif.reads ++ [r]
    nextTag := s.hif.nextTag + 1 } }
  s1.emit (.hostRead link (BitVec.ofNat 64 addr) len)

/-- The bytes the next read of a frame takes: at most 512, none across a 4 KiB boundary. -/
def readChunk (addr left : Nat) : Nat :=
  let room := 4096 - addr % 4096
  let n := if left < 512 then left else 512
  if n < room then n else room

/-- ADDR of a descriptor. -/
def descAddr (w : List Word) : Nat := (w.getD 2 0).toNat + 4294967296 * (w.getD 3 0).toNat

/-- Change the TX descriptor of an index. -/
def State.modTx (s : State) (c : Fin 256) (i : Nat) (f : TxDesc → TxDesc) : State :=
  let x := s.hctx c
  s.setHctx c { x with txq := x.txq.map (fun d => if d.idx = i then f d else d) }

/-- Start the reads of a context's frames in ring order, while tags last: none while the context is not ON or its
completion ring is full (R306, R311); at most `fuel` of them. -/
def State.pumpReads : Nat → State → Fin 256 → State
  | 0, s, _ => s
  | fuel + 1, s, c =>
    let x := s.hctx c
    if s.ctxState c ≠ 1 || !s.cqRoom c || !s.readRoom (s.ctxLink c) then s
    else
      match x.txq.find? (fun d => d.phase = .reading && decide (d.want < txLen d.words)) with
      | none => s
      | some d =>
        let a := descAddr d.words + d.want
        let n := readChunk a (txLen d.words - d.want)
        let s1 := s.modTx c d.idx (fun y => { y with want := y.want + n })
        State.pumpReads fuel (s1.issueRead c (.frame d.idx d.want n) a n) c

/-- Whether a descriptor's frame has arrived whole. -/
def TxDesc.whole (d : TxDesc) : Bool :=
  decide (txLen d.words ≤ d.parts.foldl (fun n p => n + p.2.length) 0)

/-- Put a part at its place. -/
def insertPart (p : Nat × List Byte) : List (Nat × List Byte) → List (Nat × List Byte)
  | [] => [p]
  | q :: r => if p.1 < q.1 then p :: q :: r else q :: insertPart p r

/-- Hand the frames that have arrived whole to the switch in ring order (R302); at most `fuel` of them. -/
def State.feed : Nat → State → Fin 256 → State
  | 0, s, _ => s
  | fuel + 1, s, c =>
    match (s.hctx c).txq.find? (fun d => d.phase = .reading) with
    | none => s
    | some d =>
      if d.whole then
        let f : Frame := ⟨(d.parts.map (·.2)).flatten, none, false, txReqOf d.words, .host c.val d.idx⟩
        let s1 := s.modTx c d.idx (fun y => { y with phase := .lookup, parts := [] })
        State.feed fuel (s1.toSwitch (hostLp (s.ctxLink c)) f) c
      else s

/-- Everything a context can do after a change: hand on frames, start reads, complete descriptors in order. -/
def State.advance (s : State) (c : Fin 256) : State :=
  (((s.feed 256 c).pumpReads 1024 c).txFlush 65536 c).rxFlush 65536 c

/-- Reads of a context that satisfy a test are no longer wanted (R295). -/
def State.discardReads (s : State) (c : Fin 256) (p : ReadKind → Bool) : State :=
  { s with hif := { s.hif with
    reads := s.hif.reads.map (fun r => if r.ctx = c && p r.kind then { r with kind := .discard } else r) } }

/-- Whether a read fetches bytes of one descriptor's frame. -/
def readsFrame (i : Nat) : ReadKind → Bool
  | .frame j _ _ => j = i
  | _ => false

/-! Contexts (R296, R297, R311). -/

/-- Set STATE of a context. -/
def State.setCtxState (s : State) (c : Fin 256) (st : Nat) : State := s.setCtxWord c 9 (w32 st)

/-- Whether ENABLE may take a context (R297). -/
def State.ctxMayEnable (s : State) (c : Fin 256) : Bool :=
  let w0 := s.ctxWord c 0
  let lgOk : Nat → Bool := fun n => decide (4 ≤ n) && decide (n ≤ 16)
  s.ctxState c = 0 && s.en .hif && s.linkUp (s.ctxLink c) && lgOk (fieldOf w0 8 5) && lgOk (fieldOf w0 0 5) &&
    lgOk (fieldOf (s.ctxWord c 1) 0 5) && s.ctxBase c 2 3 % 64 = 0 && s.ctxBase c 4 5 % 64 = 0 &&
    s.ctxBase c 6 8 % 64 = 0 && (!s.ctxLink c || s.bif)

/-- HIF_CTX_CMD as it reads after a command: CTX and STATUS. -/
def State.ctxCmdDone (s : State) (c : Fin 256) (status : Byte) : State :=
  s.setReg hifCtxCmd (w32 (65536 * status.toNat + c.val))

/-- ENABLE starts a context's indices again (R297); entries already counted for its vector, their time (R314) and its
last abort's reply stay. -/
def HostCtx.enabled (x : HostCtx) : HostCtx :=
  { HostCtx.reset with
    modCnt := x.modCnt
    timer := x.timer
    abortSt := x.abortSt
    abortAt := x.abortAt }

/-- A write of HIF_CTX_CMD with ENABLE (R297). -/
def doCtxEnable (m : Master) (c : Fin 256) (s : State) : State :=
  s.guarded m hifCtxCmd fun s =>
    if s.ctxMayEnable c then
      let s1 := (((s.setCtxWord c 10 0).setCtxWord c 11 0x10000#32).setCtxState c 1).setHctx c (s.hctx c).enabled
      s1.ctxCmdDone c stOk
    else s.ctxCmdDone c stBusError

/-- The meaning of CTX_ENABLE. -/
def execCtxEnable (m : Master) (c : Fin 256) (s : State) : Host.Outcome State Fault Refusal :=
  commit s (doCtxEnable m c s)

/-- Descriptors whose reads have not all completed end DISABLED in their turn (Table HIF-7). -/
def State.endReading (s : State) (c : Fin 256) : State :=
  let x := s.hctx c
  let q := x.txq.map (fun d =>
    if d.phase = .reading && !d.whole then { d with phase := .done stDisabled 0, parts := [] } else d)
  (s.setHctx c { x with txq := q }).discardReads c (fun _ => true)

/-- DISABLE of a context that is ON: DRAINING; the frames that have arrived whole go on (Table HIF-7). -/
def State.ctxDrain (s : State) (c : Fin 256) : State :=
  (((s.setCtxState c 2).endReading c).feed 256 c).txFlush 65536 c

/-- A write of HIF_CTX_CMD with DISABLE, with or without ENABLE (R297, R311). -/
def doCtxDisable (m : Master) (c : Fin 256) (s : State) : State :=
  s.guarded m hifCtxCmd fun s =>
    (if s.ctxState c = 1 then s.ctxDrain c else s).ctxCmdDone c stOk

/-- The meaning of CTX_DISABLE; `_enable`: the same write sets ENABLE, which has no effect. -/
def execCtxDisable (m : Master) (c : Fin 256) (_enable : Bool) (s : State) : Host.Outcome State Fault Refusal :=
  commit s (doCtxDisable m c s)

/-- The words of a descriptor that was never read: free values (log 22). -/
def State.unreadWords (s : State) : List Word × State := s.drawN 8

/-- Complete what is left between a ring's head and its producer index, TX first, while the completion ring has
room; at most `fuel` descriptors (Table HIF-7). -/
def State.drainRings : Nat → State → Fin 256 → State
  | 0, s, _ => s
  | fuel + 1, s, c =>
    let x := s.hctx c
    if !s.cqRoom c then s
    else if s.txHead c ≠ x.txPi.toNat then
      match x.txq with
      | d :: r =>
        if d.idx = s.txHead c then
          let res : Byte × Nat := match d.phase with | .done a v => (a, v) | _ => (stDisabled, 0)
          let s1 := s.txCqe c d res.1 res.2
          State.drainRings fuel (s1.setHctx c { s1.hctx c with txq := r }) c
        else
          let u := s.unreadWords
          let d' : TxDesc := ⟨s.txHead c, u.1, .reading, 0, []⟩
          State.drainRings fuel (u.2.txCqe c d' (if x.txAb.contains d'.idx then stAborted else stDisabled) 0) c
      | [] =>
        let u := s.unreadWords
        let d' : TxDesc := ⟨s.txHead c, u.1, .reading, 0, []⟩
        State.drainRings fuel (u.2.txCqe c d' (if x.txAb.contains d'.idx then stAborted else stDisabled) 0) c
    else if s.rxHead c ≠ x.rxPi.toNat then
      match x.rxq with
      | d :: r =>
        if d.idx = s.rxHead c then
          let s1 := s.rxCqe c d.idx (d.ended.getD stDisabled) 0 0 (d.words.getD 7 0)
          State.drainRings fuel (s1.setHctx c { s1.hctx c with rxq := r }) c
        else
          let u := s.unreadWords
          State.drainRings fuel (u.2.rxCqe c (s.rxHead c)
            (if x.rxAb.contains (s.rxHead c) then stAborted else stDisabled) 0 0 (u.1.getD 7 0)) c
      | [] =>
        let u := s.unreadWords
        State.drainRings fuel (u.2.rxCqe c (s.rxHead c)
          (if x.rxAb.contains (s.rxHead c) then stAborted else stDisabled) 0 0 (u.1.getD 7 0)) c
    else s

/-- A context becomes OFF. A pending abort reads DISABLED (R309); entries counted for its vector still send it when their
time is over (R314), unless its link is gone (R312). -/
def State.ctxOff (s : State) (c : Fin 256) : State :=
  let x := s.hctx c
  ((s.setCtxState c 0).setHctx c { x with
    txq := []
    rxq := []
    txAb := []
    rxAb := []
    abort := none
    abortSt := if x.abort.isSome then stDisabled else x.abortSt
    abortAt := x.abort.getD x.abortAt
    modCnt := if x.mute then 0 else x.modCnt
    timer := x.timer && !x.mute
    mute := false }).discardReads c (fun _ => true)

/-- The end of draining: frames in lookup have reached their commit points and a pending abort is answered; then
every remaining descriptor completes, as far as the completion ring has room, and once none is left the context
is OFF (Table HIF-7). With its link gone nothing is written (R312). `stalls`: HCLK spent waiting for credits. -/
def doCtxDrainDone (c : Fin 256) (stalls : BitVec 16) (s : State) : State :=
  let x := s.hctx c
  if s.ctxState c ≠ 2 || x.txq.any (fun d => d.phase = .lookup) then s
  else if x.mute then s.ctxOff c
  else if x.abort.isSome then s
  else
    let s1 := (s.countN hifCreditStallCnt stalls.toNat).drainRings (s.txSize c + s.rxSize c) c
    if s1.txHead c = (s1.hctx c).txPi.toNat ∧ s1.rxHead c = (s1.hctx c).rxPi.toNat then s1.ctxOff c else s1

/-- The meaning of CTX_DRAIN_DONE. -/
def execCtxDrainDone (c : Fin 256) (stalls : BitVec 16) (s : State) : Host.Outcome State Fault Refusal :=
  commit s (doCtxDrainDone c stalls s)

/-! Doorbells (R298, R299, R309). -/

/-- A write of a doorbell word: none arrives on a link that is down; the SHADOW of a pair forwards it (Table FLT-5);
a page of a context that is not ON or of the other link drops it, counted. -/
def State.doorbell (s : State) (link : Bool) (c : Fin 256) (w : Nat) (v : Word) (f : State → State) : State :=
  if !s.linkUp link then s
  else if s.shadowed then s.emit (.twin 1 [w32 (b2n link), w32 (4096 * c.val + w * 4), v])
  else if s.ctxState c = 1 && s.ctxLink c = link then f s
  else s.count hifDbBadCnt

/-- A TX producer index (R299). -/
def doTxProducerWrite (link : Bool) (c : Fin 256) (v : Word) (s : State) : State :=
  s.doorbell link c 0 v fun s =>
    let x := s.hctx c
    let n := s.txSize c
    let p := fieldOf v 0 16
    if idxDist n x.txPi.toNat (s.txHead c) ≤ idxDist n p (s.txHead c) then
      s.setHctx c { x with txPi := BitVec.ofNat 16 (p % n) }
    else s.count hifDbBadCnt

/-- The meaning of TX_PRODUCER_WRITE. -/
def execTxProducerWrite (link : Bool) (c : Fin 256) (v : Word) (s : State) : Host.Outcome State Fault Refusal :=
  commit s (doTxProducerWrite link c v s)

/-- An RX producer index (R299). -/
def doRxProducerWrite (link : Bool) (c : Fin 256) (v : Word) (s : State) : State :=
  s.doorbell link c 1 v fun s =>
    let x := s.hctx c
    let n := s.rxSize c
    let p := fieldOf v 0 16
    if idxDist n x.rxPi.toNat (s.rxHead c) ≤ idxDist n p (s.rxHead c) then
      s.setHctx c { x with rxPi := BitVec.ofNat 16 (p % n) }
    else s.count hifDbBadCnt

/-- The meaning of RX_PRODUCER_WRITE. -/
def execRxProducerWrite (link : Bool) (c : Fin 256) (v : Word) (s : State) : Host.Outcome State Fault Refusal :=
  commit s (doRxProducerWrite link c v s)

/-- A completion consumer index (R299): free entries let the context go on (R306). -/
def doCqConsumerWrite (link : Bool) (c : Fin 256) (v : Word) (s : State) : State :=
  s.doorbell link c 2 v fun s =>
    let x := s.hctx c
    let n := s.cqSize c
    let p := fieldOf v 0 16
    if idxDist n p x.cqCi.toNat ≤ idxDist n (s.cqPi c) x.cqCi.toNat then
      (s.setHctx c { x with cqCi := BitVec.ofNat 16 (p % n) }).advance c
    else s.count hifDbBadCnt

/-- The meaning of CQ_CONSUMER_WRITE. -/
def execCqConsumerWrite (link : Bool) (c : Fin 256) (v : Word) (s : State) : Host.Outcome State Fault Refusal :=
  commit s (doCqConsumerWrite link c v s)

/-- The reply to an abort, shown at offset 0xC too; no entry for a context that is OFF or whose link is gone. -/
def State.abortReply (s : State) (c : Fin 256) (status : Byte) (at_ : BitVec 2 × BitVec 16) : State :=
  let x := s.hctx c
  let s1 := s.setHctx c { x with abortSt := status, abortAt := at_ }
  if s.ctxState c = 0 || x.mute then s1
  else s1.writeLoose c (cqe0 4 status at_.2.toNat) (w32 (65536 * at_.1.toNat)) 0 0

/-- An abort request (R309): refused at once where one is PENDING or IDX lies outside the ring. A request to a
context that is not ON is a doorbell write that R299 drops. -/
def doAbortRequest (link : Bool) (c : Fin 256) (v : Word) (s : State) : State :=
  s.doorbell link c 3 v fun s =>
    let at_ : BitVec 2 × BitVec 16 := (v.extractLsb' 16 2, v.extractLsb' 0 16)
    let x := s.hctx c
    if x.abort.isSome then s.abortReply c stRetry at_
    else if 1 < at_.1.toNat || !s.inRing c (at_.1 = 1) at_.2.toNat then s.abortReply c stBusError at_
    else s.setHctx c { x with abort := some at_ }

/-- The meaning of ABORT_REQUEST. -/
def execAbortRequest (link : Bool) (c : Fin 256) (v : Word) (s : State) : Host.Outcome State Fault Refusal :=
  commit s (doAbortRequest link c v s)

/-- A frame of a TX descriptor that waits for its lookup is released. -/
def State.dropWaiting (s : State) (c : Fin 256) (i : Nat) : State :=
  s.setSwc { s.swc with ingress := s.swc.ingress.filter (fun g => g.f.origin ≠ .host c.val i) }

/-- The abort of a TX descriptor that is still in its ring (R310). -/
def State.abortTx (s : State) (c : Fin 256) (i : Nat) : Byte × State :=
  let x := s.hctx c
  match x.txq.find? (fun d => d.idx = i) with
  | none => (stOk, s.setHctx c { x with txAb := i :: x.txAb })
  | some d =>
    match d.phase with
    | .done st _ => (if st = stAborted then stOk else stAbortLate, s)
    | _ =>
      (stOk, ((s.modTx c i (fun y => { y with phase := .done stAborted 0, parts := [] })).discardReads c
        (readsFrame i)).dropWaiting c i)

/-- The abort of an RX descriptor that is still in its ring (R310). -/
def State.abortRx (s : State) (c : Fin 256) (i : Nat) : Byte × State :=
  let x := s.hctx c
  match x.rxq.find? (fun d => d.idx = i) with
  | none => (stOk, s.setHctx c { x with rxAb := i :: x.rxAb })
  | some d =>
    match d.ended with
    | some st => (if st = stAborted then stOk else stAbortLate, s)
    | none =>
      (stOk, s.setHctx c { x with
        rxq := x.rxq.map (fun y => if y.idx = i then { y with ended := some stAborted } else y) })

/-- The abort reaches the commit logic (R309, R310): the completion wins where the descriptor has left its ring. -/
def doAbortEvaluate (c : Fin 256) (s : State) : State :=
  let x := s.hctx c
  match x.abort with
  | none => s
  | some at_ =>
    let s1 := s.setHctx c { x with abort := none }
    if s.ctxState c ≠ 1 then s1.abortReply c stDisabled at_
    else if !s.inRing c (at_.1 = 1) at_.2.toNat then s1.abortReply c stAbortLate at_
    else
      let r := if at_.1 = 1 then s1.abortRx c at_.2.toNat else s1.abortTx c at_.2.toNat
      (r.2.abortReply c r.1 at_).advance c

/-- The meaning of ABORT_EVALUATE. -/
def execAbortEvaluate (c : Fin 256) (s : State) : Host.Outcome State Fault Refusal :=
  commit s (doAbortEvaluate c s)

/-- What a read of a doorbell word returns (Table HIF-1). At 0xC STATUS and RING share bits [17:16], which the
manual does not resolve: a free function of both (log 22). -/
def State.doorbellRead (s : State) (c : Fin 256) (w : Fin 4) : Word :=
  let x := s.hctx c
  match w with
  | 0 => w32 (s.txHead c)
  | 1 => w32 (s.rxHead c)
  | 2 => w32 (65536 * b2n (s.cqPhase c) + s.cqPi c)
  | 3 => setField (w32 (2 ^ 31 * b2n x.abort.isSome + 65536 * x.abortSt.toNat + x.abortAt.2.toNat)) 16 2
      (Config.abortOverlap (x.abortSt.extractLsb' 0 2) x.abortAt.1).toNat

/-! Descriptor fetches (R300). -/

/-- Descriptors of a run from an index on: at most 8, none past the ring's end or a 4 KiB boundary. -/
def runLen (base i pi size : Nat) : Nat :=
  let a := (4096 - (base + i * 32) % 4096) / 32
  let m := idxDist size pi i
  let n := if m < 8 then m else 8
  let k := if size - i < n then size - i else n
  if a < k then a else k

/-- Whether a context has TX, RX descriptors to fetch. -/
def State.txWork (s : State) (c : Fin 256) : Bool := (s.hctx c).txFetch ≠ (s.hctx c).txPi && s.cqRoom c
def State.rxWork (s : State) (c : Fin 256) : Bool := (s.hctx c).rxFetch ≠ (s.hctx c).rxPi

/-- Whether a context may be served. -/
def State.mayFetch (s : State) (c : Fin 256) : Bool :=
  s.ctxState c = 1 && s.linkUp (s.ctxLink c) && s.readRoom (s.ctxLink c) && (s.txWork c || s.rxWork c)

/-- The next context of a level in ascending order from the one after the last served. -/
def State.nextCtx (s : State) (prio : Bool) : Option (Fin 256) :=
  let last := if prio then s.hif.last1 else s.hif.last0
  ((List.range 256).map (fun k => Fin.ofNat 256 (last + 1 + k))).find? (fun c => s.ctxPrio c = prio && s.mayFetch c)

/-- Fetch one run of a context; `rx`: of the RX ring where both have work (log 22). -/
def State.fetchRun (s : State) (c : Fin 256) (rx : Bool) : State :=
  let x := s.hctx c
  if s.rxWork c && (rx || !s.txWork c) then
    let base := s.ctxBase c 4 5
    let i := x.rxFetch.toNat
    let n := runLen base i x.rxPi.toNat (s.rxSize c)
    (s.setHctx c { x with rxFetch := BitVec.ofNat 16 ((i + n) % s.rxSize c) }).issueRead c (.rxRun i n) (base + i * 32) (n * 32)
  else
    let base := s.ctxBase c 2 3
    let i := x.txFetch.toNat
    let n := runLen base i x.txPi.toNat (s.txSize c)
    (s.setHctx c { x with txFetch := BitVec.ofNat 16 ((i + n) % s.txSize c) }).issueRead c (.txRun i n) (base + i * 32) (n * 32)

/-- One turn of the descriptor engine (R300): PRIO = 1 first; none in hold (R320) or at the SHADOW. -/
def doDescriptorFetch (rx : Bool) (s : State) : State :=
  if !s.en .hif || s.inHold .hif || s.shadowed then s
  else
    match s.nextCtx true with
    | some c => ({ s with hif := { s.hif with last1 := c.val } } : State).fetchRun c rx
    | none =>
      match s.nextCtx false with
      | some c => ({ s with hif := { s.hif with last0 := c.val } } : State).fetchRun c rx
      | none => s

/-- The meaning of DESCRIPTOR_FETCH. -/
def execDescriptorFetch (rx : Bool) (s : State) : Host.Outcome State Fault Refusal :=
  commit s (doDescriptorFetch rx s)

/-! Read completions (R302, R308). -/

/-- The eight words of descriptor k of a run. -/
def runWords (data : List Byte) (k : Nat) : List Word := (List.range 8).map (fun j => le32At data (k * 32 + j * 4))

/-- A TX descriptor as its fetch leaves it (Table HIF-2, R302). -/
def txDescOf (aborted : Bool) (i : Nat) (w : List Word) : TxDesc :=
  let ph : TxPhase :=
    if aborted then .done stAborted 0
    else if fieldOf (w.getD 0 0) 28 4 ≠ 1 then .done stBusError 0
    else if !txLenOk w then .done stTooLong 0
    else .reading
  ⟨i, w, ph, 0, []⟩

/-- An RX descriptor as its fetch leaves it (Table HIF-3). -/
def rxDescOf (aborted : Bool) (i : Nat) (w : List Word) : RxDesc :=
  ⟨i, w, if aborted then some stAborted else if fieldOf (w.getD 0 0) 28 4 ≠ 2 then some stBusError else none⟩

/-- Put a fetched TX descriptor in ring order. -/
def insertTx (size head : Nat) (d : TxDesc) : List TxDesc → List TxDesc
  | [] => [d]
  | e :: r =>
    if idxDist size d.idx head < idxDist size e.idx head then d :: e :: r else e :: insertTx size head d r

/-- Put a fetched RX descriptor in ring order. -/
def insertRx (size head : Nat) (d : RxDesc) : List RxDesc → List RxDesc
  | [] => [d]
  | e :: r =>
    if idxDist size d.idx head < idxDist size e.idx head then d :: e :: r else e :: insertRx size head d r

/-- A run of TX descriptors has come, or failed whole. -/
def State.takeTxRun (s : State) (c : Fin 256) (i n : Nat) (data : Option (List Byte)) : State :=
  (List.range n).foldl (fun t k =>
    let r : List Word × State := match data with
      | some bs => (runWords bs k, t)
      | none => t.unreadWords
    let u := r.2
    let x := u.hctx c
    let ab := x.txAb.contains (i + k)
    let d : TxDesc := match data with
      | some _ => txDescOf ab (i + k) r.1
      | none => ⟨i + k, r.1, .done (if ab then stAborted else stBusError) 0, 0, []⟩
    u.setHctx c { x with
      txq := insertTx (u.txSize c) (u.txHead c) d x.txq
      txAb := x.txAb.filter (fun j => j ≠ i + k) }) s

/-- A run of RX descriptors has come, or failed whole. -/
def State.takeRxRun (s : State) (c : Fin 256) (i n : Nat) (data : Option (List Byte)) : State :=
  (List.range n).foldl (fun t k =>
    let r : List Word × State := match data with
      | some bs => (runWords bs k, t)
      | none => t.unreadWords
    let u := r.2
    let x := u.hctx c
    let ab := x.rxAb.contains (i + k)
    let d : RxDesc := match data with
      | some _ => rxDescOf ab (i + k) r.1
      | none => ⟨i + k, r.1, some (if ab then stAborted else stBusError)⟩
    u.setHctx c { x with
      rxq := insertRx (u.rxSize c) (u.rxHead c) d x.rxq
      rxAb := x.rxAb.filter (fun j => j ≠ i + k) }) s

/-- Bytes of a frame have come, or their read failed (R308). -/
def State.takeFramePart (s : State) (c : Fin 256) (i off : Nat) (data : Option (List Byte)) : State :=
  match data with
  | some bs => s.modTx c i (fun d => { d with parts := insertPart (off, bs) d.parts })
  | none => (s.modTx c i (fun d => { d with phase := .done stBusError 0, parts := [] })).discardReads c (readsFrame i)

/-- The end of a host read: data, or an error or the Completion Timeout, counted (R308). Tags belong to the host
interface: a read no longer wanted is discarded (R295). -/
def State.readEnds (s : State) (tag : Nat) (data : Option (List Byte)) : State :=
  match s.hif.reads.find? (fun r => r.tag = tag) with
  | none => s
  | some r =>
    let s1 : State := { s with hif := { s.hif with reads := s.hif.reads.filter (fun q => q.tag ≠ tag) } }
    let s2 := if data.isSome then s1 else s1.count hifRdErrCnt
    match r.kind with
    | .discard => s2
    | .txRun i n => (s2.takeTxRun r.ctx i n (data.map (fun d => slice d 0 (n * 32)))).advance r.ctx
    | .rxRun i n => (s2.takeRxRun r.ctx i n (data.map (fun d => slice d 0 (n * 32)))).advance r.ctx
    | .frame i off n => (s2.takeFramePart r.ctx i off (data.map (fun d => slice d 0 n))).advance r.ctx

/-- The meaning of HOST_READ_COMPLETION; `ok` = false: Unsupported Request, Completer Abort or a poisoned TLP. -/
def execHostReadCompletion (tag : Nat) (ok : Bool) (data : List Byte) (s : State) :
    Host.Outcome State Fault Refusal :=
  commit s (s.readEnds tag (if ok then some data else none))

/-- The meaning of COMPLETION_TIMEOUT. -/
def execCompletionTimeout (tag : Nat) (s : State) : Host.Outcome State Fault Refusal :=
  commit s (s.readEnds tag none)

/-- The commit point of a context's next TX descriptor (R302): its frame, first at the link's logical port, is
classified and completes; results known before complete in order. -/
def doTxCommit (c : Fin 256) (s : State) : State :=
  let lp := hostLp (s.ctxLink c)
  let own : Bool := match takeIngress lp s.swcTakes s.swc.ingress with
    | some (f, _) => (match f.origin with | .host k _ => decide (k = c.val) | _ => false)
    | none => false
  (if own then doFrameClassify lp s else s).txFlush 65536 c

/-- The meaning of TX_COMMIT. -/
def execTxCommit (c : Fin 256) (s : State) : Host.Outcome State Fault Refusal := commit s (doTxCommit c s)

/-! Image regions (R316, Table HIF-8). -/

/-- Word w of image region k. -/
def State.imgWord (s : State) (k w : Nat) : Word := s.tab .hif 2 (k * 8 + w)

/-- Z: 64 + LEN rounded up to a multiple of 64. -/
def slotSize (len : Nat) : Nat := 64 + (len + 63) / 64 * 64

/-- SEQ after an image frame: it increases by 1, from 0xFFFFFFFF to 2. -/
def nextSeq (q : Word) : Word := if q = 0xFFFFFFFF#32 then 2 else q + 1

/-- The valid regions of a link that name a stream, ascending. -/
def State.imgRegions (s : State) (link : Bool) (k : Fin 256) : List Nat :=
  (List.range 32).filter (fun r =>
    let w0 := s.imgWord r 0
    bitOf w0 31 && bitOf w0 30 = link && fieldOf w0 16 8 = k.val)

/-- Words of a stamp: FRAC, NS, SEC_LO, SEC_HI with DOM and DEG (Table SWC-10). -/
def stampWords (x : Stamp) : List Word :=
  let sec := dtSec x.t
  [w32 (dtFrac x.t), w32 (dtNs x.t), w32 sec, w32 (65536 * (sec / 4294967296) + 16384 * x.dom.val + 8192 * b2n x.deg)]

/-- One image frame of a region: SEQ advances, the data is written, then the header, then the completion. A frame
too short writes nothing (R316). The SHADOW advances SEQ alone (Table FLT-5). -/
def State.imageWrite (s : State) (link : Bool) (bs : List Byte) (x : Stamp) (r : Nat) : State :=
  let w0 := s.imgWord r 0
  let len := fieldOf w0 0 14
  let fofs := fieldOf (s.imgWord r 1) 0 16
  if bs.length < fofs + len then s.count hifImgShortCnt
  else
    let q := nextSeq (s.imgWord r 5)
    let s1 := s.setTab .hif 2 (r * 8 + 5) q
    if s.shadowed then s1
    else
      let slot := (s.imgWord r 2).toNat + 4294967296 * (s.imgWord r 3).toNat + q.toNat % 2 * slotSize len
      let s2 := s1.emit (.hostWrite link (BitVec.ofNat 64 (slot + 64)) (slice bs fofs len))
      let hdr := (q :: (stampWords x).drop 1).flatMap leBytes
      let s3 := s2.emit (.hostWrite link (BitVec.ofNat 64 slot) hdr)
      let c := Fin.ofNat 256 (fieldOf (s.imgWord r 4) 0 8)
      if bitOf w0 29 && s3.ctxState c = 1 then s3.writeLoose c (cqe0 5 stOk 0) 0 q 0 else s3

/-! Frames delivered to a host (R303, R304). -/

/-- The context a frame is steered to: the lowest valid rule that matches, else the link's default (R304). -/
def State.steer (s : State) (link : Bool) (tc vid et : Nat) : Option (Fin 256) :=
  let hit := (List.range 64).find? (fun k =>
    let w0 := s.tab .hif 1 (k * 2)
    let mask := fieldOf w0 20 8
    bitOf w0 31 && bitOf w0 30 = link && (!bitOf w0 29 || fieldOf w0 0 12 = vid) &&
      (!bitOf w0 28 || fieldOf (s.tab .hif 1 (k * 2 + 1)) 16 16 = et) && (mask = 0 || mask.testBit tc))
  match hit with
  | some k => some (Fin.ofNat 256 (fieldOf (s.tab .hif 1 (k * 2 + 1)) 0 8))
  | none =>
    let d := s.reg hifRxDefault
    let o := if link then 16 else 0
    if bitOf d (o + 8) then some (Fin.ofNat 256 (fieldOf d o 8)) else none

/-- A drop for a context (R304). -/
def State.rxDrop (s : State) (c : Fin 256) : State := s.setCtxWord c 12 (s.ctxWord c 12 + 1)

/-- A frame into the buffer at the RX head, and its completion (R303, Table HIF-4). -/
def State.rxInto (s : State) (link : Bool) (c : Fin 256) (st : Stored) (bs : List Byte) (d : RxDesc) : State :=
  let x := st.stamp
  let front := if bitOf (s.ctxWord c 0) 17 then (stampWords x).flatMap leBytes else []
  if fieldOf (d.words.getD 1 0) 0 15 < front.length + bs.length then s.count hifRxToolongCnt
  else
    let s1 := s.emit (.hostWrite link (BitVec.ofNat 64 (descAddr d.words)) (front ++ bs))
    let w1 := w32 (rxWord1 st.ingress st.tc.val x.deg bs.length)
    let w2 := rxWord2 st.vid.toNat (be16At bs (s.etAfterTags bs))
    let s2 := s1.rxCqe c d.idx stOk w1 w2 (d.words.getD 7 0)
    (s2.setHctx c { s2.hctx c with rxq := (s2.hctx c).rxq.drop 1 }).rxFlush 65536 c

/-- A frame for a host that matched no image: none: it waits in its queue, in hold or for its descriptor. -/
def State.rxFrame (s : State) (link : Bool) (st : Stored) (bs : List Byte) : Option State :=
  match s.steer link st.tc.val st.vid.toNat (be16At bs (s.etAfterTags bs)) with
  | none => some (s.count hifRxNoctxCnt)
  | some c =>
    if s.ctxState c ≠ 1 || s.ctxLink c ≠ link then some (s.count hifRxNoctxCnt)
    else if s.rxHead c = (s.hctx c).rxPi.toNat || !s.cqRoom c then some (s.rxDrop c)
    else
      match (s.hctx c).rxq.find? (fun d => d.idx = s.rxHead c && d.ended.isNone) with
      | some d => if s.inHold .hif then none else some (s.rxInto link c st bs d)
      | none => none

/-- The switch delivers the frame at the head of a host link's queues (R304): an image where its stream is one,
else a context's. No image is written while the link is down (R312); the SHADOW withholds all (Table FLT-5). -/
def doRxDeliver (link : Bool) (s : State) : State :=
  match s.lpHead (hostLp link).val with
  | none => s
  | some q =>
    match s.storedOf q.fid with
    | none => s
    | some st =>
      let bs := s.egressTag st (hostLp link).val (s.leaving q st)
      let gone : State → State := fun t => t.leaveQueue q.lp q.fid (lastOf q st)
      let regs := match st.stream with
        | some k => s.imgRegions link k
        | none => []
      if st.bad then (s.dropAt (hostLp link).val 10).dequeue q.lp q.fid
      else if regs ≠ [] then
        gone (if s.linkUp link then regs.foldl (fun t r => t.imageWrite link bs st.stamp r) s else s)
      else if s.shadowed then gone s
      else
        match s.rxFrame link st bs with
        | some t => gone t
        | none => s

/-- The meaning of RX_DELIVER. -/
def execRxDeliver (link : Bool) (s : State) : Host.Outcome State Fault Refusal := commit s (doRxDeliver link s)

/-! MSI-X (R313, R314). -/

/-- The moderation time has passed since the first entry of the count (R314). -/
def doMsixTimerExpire (c : Fin 256) (s : State) : State :=
  if (s.hctx c).timer && (s.hctx c).modCnt ≠ 0 then s.sendVector c else s

/-- The meaning of MSIX_TIMER_EXPIRE. -/
def execMsixTimerExpire (c : Fin 256) (s : State) : Host.Outcome State Fault Refusal := commit s (doMsixTimerExpire c s)

/-- Word k of a vector of a link's MSI-X table. -/
def State.vecWord (s : State) (link : Bool) (v k : Nat) : Word := amGet tabReset s.tabs (tabKey (msixUnit link) 0 (v * 4 + k))

/-- Store it; the mask bit is bit 0 of word 3. A vector that is unmasked with its pending bit set is sent (R313). -/
def State.setVecWord (s : State) (link : Bool) (v k : Nat) (x : Word) : State :=
  let w := if k = 3 then x &&& 1#32 else if k = 0 then x &&& 0xFFFFFFFC#32 else x
  let s1 := { s with tabs := amPut tabReset s.tabs (tabKey (msixUnit link) 0 (v * 4 + k)) w }
  let l : Fin 2 := Fin.ofNat 2 (b2n link)
  if k = 3 && !bitOf x 0 && s.hif.msixPend[l].getLsbD v then
    ({ s1 with hif := { s1.hif with msixPend := vmod s1.hif.msixPend l (fun p => setBit p v false) } } : State).emit
      (.msix link v)
  else s1

/-- The meaning of MSIX_UNMASK: host software clears a vector's mask bit. -/
def execMsixUnmask (link : Bool) (v : Fin 272) (s : State) : Host.Outcome State Fault Refusal :=
  commit s (if s.linkUp link then s.setVecWord link v.val 3 0 else s)

/-! The BAR4 window (R294, R317, R318, Table HIF-9). -/

/-- Word w of input region k. -/
def State.inWord (s : State) (k w : Nat) : Word := s.tab .hif 3 (k * 8 + w)
def State.inLen (s : State) (k : Nat) : Nat := fieldOf (s.inWord k 0) 0 15
def State.inBofs (s : State) (k : Nat) : Nat := fieldOf (s.inWord k 1) 0 24
def State.inOffset (s : State) (k : Nat) : Nat := fieldOf (s.inWord k 3) 0 17
def State.inHalf (s : State) (k : Nat) : Bool := bitOf (s.inWord k 5) 0

/-- Whether a region is in use on a link. -/
def State.inValid (s : State) (link : Bool) (k : Nat) : Bool := bitOf (s.inWord k 0) 31 && bitOf (s.inWord k 0) 30 = link

/-- The bank that a role's general window reaches at the engine of the role's instance (R116, R317). -/
def State.roleBank (s : State) (r : Fin 10) (w : Nat) : Option Nat :=
  match s.engOf r with
  | some e => s.genBank e w
  | none => none

/-- The role of a region and the bank that its window reaches. -/
def State.inBank (s : State) (k : Nat) : Option (Fin 10 × Nat) :=
  let r := Fin.ofNat 10 (fieldOf (s.inWord k 0) 16 4)
  (s.roleBank r (fieldOf (s.inWord k 2) 0 5)).map (fun b => (r, b))

/-- The offset of a half. -/
def State.inHalfOff (s : State) (k : Nat) (h : Bool) : Nat := s.inOffset k + b2n h * slotSize (s.inLen k)

/-- The region of a link that holds a word of BAR4 in its data, or at its commit offset. -/
def State.inDataAt (s : State) (link : Bool) (a : Nat) : Option Nat :=
  (List.range 32).find? (fun k => s.inValid link k && decide (s.inBofs k ≤ a) && decide (a + 4 ≤ s.inBofs k + s.inLen k))
def State.inCommitAt (s : State) (link : Bool) (a : Nat) : Option Nat :=
  (List.range 32).find? (fun k => s.inValid link k && a = s.inBofs k + s.inLen k)

/-- Write bytes of an input region's bank window as the instance's own input path. -/
def State.inWrite (s : State) (k off : Nat) (bs : List Byte) : State :=
  match s.inBank k with
  | some (r, b) => (s.bankServe (.role r) b off (.write bs) .clean 100).2.2
  | none => s

/-- ISEQ, PENDING and the time of an input region's commit. -/
def State.inPend (s : State) (k : Fin 32) : Word × Bool × Nat :=
  (s.inWord k.val 4, bitOf (s.inWord k.val 5) 1, s.hif.commitAt[k])

/-- Replace them. -/
def State.setInPend (s : State) (k : Fin 32) (p : Word × Bool × Nat) : State :=
  let s1 := (s.setTab .hif 3 (k.val * 8 + 4) p.1).setTab .hif 3 (k.val * 8 + 5) (setBit (s.inWord k.val 5) 1 p.2.1)
  { s1 with hif := { s1.hif with commitAt := vset s1.hif.commitAt k p.2.2 } }

/-- Bytes into the host half at an offset; with `v`, they are its word 0 and commit it: the commit is pending (R318). -/
def State.inPut (s : State) (k : Fin 32) (off : Nat) (bs : List Byte) (v : Option Word) : State :=
  let t := s.inWrite k.val (s.inHalfOff k.val (!s.inHalf k.val) + off) bs
  match v with
  | none => t
  | some x => t.setInPend k (x, true, t.clk.tick)

/-- Bytes of a bank from an offset on. -/
def State.bankBytes (s : State) (b off n : Nat) : List Byte :=
  ((List.range ((n + 3) / 4)).flatMap (fun j => leBytes (s.bankWord b (off + 4 * j)))).take n

/-- A BAR4 write into the host half, held beside it for the rest of its tick (R318). -/
def State.inTake (s : State) (k : Fin 32) (off : Nat) (bs : List Byte) (v : Option Word) : State :=
  let old : List Byte := match s.inBank k.val with
    | some (_, b) => s.bankBytes b (s.inHalfOff k.val (!s.inHalf k.val) + off) bs.length
    | none => []
  let w : BarWrite := ⟨s.clk.tick, k, off, old, bs, v.map (fun _ => s.inPend k)⟩
  let t := s.inPut k off bs v
  { t with hif := { t.hif with barNow := t.hif.barNow.filter (fun x => x.tick = s.clk.tick) ++ [w] } }

/-- One word of a BAR4 write: data of a region, a commit, the MSI-X table, the pending-bit array (read-only);
none: nothing is there. -/
def State.bar4Word (s : State) (link : Bool) (a : Nat) (bs : List Byte) : Option State :=
  if 0xFF8000 ≤ a ∧ a < 0xFF8028 then some s
  else if 0xFF0000 ≤ a ∧ a < 0xFF1100 then
    some (s.setVecWord link ((a - 0xFF0000) / 16) ((a - 0xFF0000) % 16 / 4) (le32At bs 0))
  else
    match s.inDataAt link a with
    | some k =>
      if (s.inBank k).isSome then some (s.inTake (Fin.ofNat 32 k) (64 + (a - s.inBofs k)) bs none) else none
    | none =>
      match s.inCommitAt link a with
      | some k => if (s.inBank k).isSome then some (s.inTake (Fin.ofNat 32 k) 0 (leBytes (le32At bs 0)) (some (le32At bs 0))) else none
      | none => none

/-- Words of a BAR4 write in order. -/
def State.bar4Words : Nat → State → Bool → Nat → List Byte → Option State
  | 0, s, _, _, _ => some s
  | n + 1, s, link, a, bs =>
    match s.bar4Word link a (bs.take 4) with
    | some t => State.bar4Words n t link (a + 4) (bs.drop 4)
    | none => none

/-- A write of BAR4 (R294): whole words at a word address, at most 512 bytes; anything else, or a word where nothing is,
is an access under R39. The SHADOW forwards it (Table FLT-5). -/
def doBar4Write (link : Bool) (off : BitVec 24) (bs : List Byte) (s : State) : State :=
  if !s.linkUp link then s
  else if s.shadowed && decide (off.toNat < 0xFF0000) then
    s.emit (.twin 2 (w32 (b2n link) :: off.setWidth 32 :: (List.range (bs.length / 4)).map (fun k => le32At bs (4 * k))))
  else if off.toNat % 4 ≠ 0 || bs.length % 4 ≠ 0 || bs = [] || decide (512 < bs.length) then s.accessErr (hostMaster link) true 2 off.toNat stBusError
  else
    match State.bar4Words (bs.length / 4) s link off.toNat bs with
    | some t => t
    | none => s.accessErr (hostMaster link) true 2 off.toNat stBusError

/-- The meaning of BAR4_WRITE. -/
def execBar4Write (link : Bool) (off : BitVec 24) (bs : List Byte) (s : State) : Host.Outcome State Fault Refusal :=
  commit s (doBar4Write link off bs s)

/-- The meaning of BAR4_COMMIT: a write of one word. -/
def execBar4Commit (link : Bool) (off : BitVec 24) (v : Word) (s : State) : Host.Outcome State Fault Refusal :=
  commit s (doBar4Write link off (leBytes v) s)

/-- What a read of a word of BAR4 returns: of an input region the host half (R317); none: nothing is there. -/
def State.bar4Read (s : State) (link : Bool) (a : Nat) : Option Word :=
  if a % 4 ≠ 0 then none
  else if 0xFF8000 ≤ a ∧ a < 0xFF8028 then
    some (w32 (s.hif.msixPend[(Fin.ofNat 2 (b2n link) : Fin 2)].toNat / 2 ^ ((a - 0xFF8000) * 8) % 2 ^ 32))
  else if 0xFF0000 ≤ a ∧ a < 0xFF1100 then some (s.vecWord link ((a - 0xFF0000) / 16) ((a - 0xFF0000) % 16 / 4))
  else
    match s.inDataAt link a with
    | some k => (s.inBank k).map (fun p => s.bankWord p.2 (s.inHalfOff k (!s.inHalf k) + 64 + (a - s.inBofs k)))
    | none => none

/-- A commit pending before the current tick swaps a region's halves (R318); in a pair, only one pending for 4 µs
(Table FLT-5). -/
def State.inSwap (s : State) (k : Fin 32) : State :=
  let wait := if s.flt.twin = .paired then 2000 else 1
  if bitOf (s.inWord k.val 5) 1 && decide (s.hif.commitAt[k] + wait ≤ s.clk.tick) then
    let h := !s.inHalf k.val
    (s.setTab .hif 3 (k.val * 8 + 5) (w32 (b2n h))).inWrite k.val (s.inOffset k.val + 2 * slotSize (s.inLen k.val))
      (leBytes (w32 (b2n h)))
  else s

/-- Take back a BAR4 write of this tick: its host half holds what it held. -/
def State.inUndo (s : State) (w : BarWrite) : State :=
  let t := s.inPut w.region w.off w.old none
  match w.commit with
  | none => t
  | some p => t.setInPend w.region p

/-- The swap of a region at a firing tick; the BAR4 writes of the same tick go to the new host half, a commit among them
is pending for the next cycle (R318). -/
def State.inFire (s : State) (k : Fin 32) : State :=
  let now := s.hif.barNow.filter (fun w => w.tick = s.clk.tick && w.region = k)
  let t := (now.foldr (fun w u => u.inUndo w) s).inSwap k
  now.foldl (fun u w => u.inPut k w.off w.new (w.commit.map (fun _ => le32At w.new 0))) t

/-- The swaps at the firing tick of a kernel cycle start trigger of a role (R318). -/
def State.inputSwap (s : State) (r : Fin 10) : State :=
  (List.finRange 32).foldl (fun t k =>
    if bitOf (t.inWord k.val 0) 31 && fieldOf (t.inWord k.val 0) 16 4 = r.val && (t.inBank k.val).isSome then t.inFire k
    else t) s

/-! Links (R292, R293, R312). -/

/-- A link goes: every context of it is disabled with no completion written, the frames that have arrived whole going on
to the switch; its MSI-X table and AER return to their reset state, and its mailbox endpoint is reset (R312, Table
HIF-7, Table MBX-4). -/
def State.hostLinkGone (s : State) (link : Bool) : State :=
  let s1 := (List.range 256).foldl (fun t k =>
    let c : Fin 256 := Fin.ofNat 256 k
    if t.ctxLink c = link && t.ctxState c ≠ 0 then
      let u := ((t.setCtxState c 2).endReading c).feed 256 c
      u.setHctx c { u.hctx c with mute := true }
    else t) s
  let l : Fin 2 := Fin.ofNat 2 (b2n link)
  let s2 := { s1 with
    tabs := s1.tabs.filter (fun e => e.1 / 2 ^ 24 ≠ 128 * msixUnit link)
    hif := { s1.hif with
      msixPend := vset s1.hif.msixPend l 0
      aer := setBit s1.hif.aer l.val false } }
  s2.resetEndpoint (if link then 0x20 else 0x10)

/-- A link goes down, or its function is reset; a hot reset takes the link down too. -/
def doHostLinkDown (link : Bool) (why : LinkEnd) (s : State) : State :=
  if !s.linkUp link then s
  else
    (if why = .functionReset then s else s.setRegField hifLinkStatus (if link then 8 else 0) 8 0).hostLinkGone link

/-- The meaning of HOST_LINK_DOWN. -/
def execHostLinkDown (link : Bool) (why : LinkEnd) (s : State) : Host.Outcome State Fault Refusal :=
  commit s (doHostLinkDown link why s)

/-- Link training ends (R292, R293): generation 1-4 and width as trained, at most 4, or 2 a link with BIF = 1; H1 is there
only with BIF = 1; a fenced link or an unpowered island trains none. The host's enumeration follows, and with it whether
AER is enabled; of a link that is up the row is that alone (log 12). -/
def doHostLinkUp (link : Bool) (gen : Fin 4) (width : Fin 5) (aer : Bool) (s : State) : State :=
  if s.power ≠ .run || (link && !s.bif) || s.linkFenced link || s.flt.recovery || width = 0 ||
      (s.bif && decide (2 < width.val)) then s
  else
    let s1 := if s.linkUp link then s else s.setRegField hifLinkStatus (if link then 8 else 0) 8 (128 + (gen.val + 1) * 16 + width.val)
    { s1 with hif := { s1.hif with aer := setBit s1.hif.aer (b2n link) aer } }

/-- The meaning of HOST_LINK_UP. -/
def execHostLinkUp (link : Bool) (gen : Fin 4) (width : Fin 5) (s : State) (aer : Bool := false) :
    Host.Outcome State Fault Refusal :=
  commit s (doHostLinkUp link gen width aer s)

/-! The bus-error log (R319). -/

/-- A read of HIF_BUSERR_W0 returns and removes the head entry and latches the other words (R319). -/
def State.buserrPop (s : State) (m : Master) : Word × State :=
  match s.hif.buserr with
  | [] => (0, (s.latch m hifBuserrW1 0).latch m hifBuserrW2 0)
  | e :: r =>
    (e.w0, (({ s with hif := { s.hif with buserr := r } } : State).latch m hifBuserrW1 e.w1).latch m hifBuserrW2 e.w2)

/-- A read of HIF_BUSERR_W0 by a master. -/
def doHifBuserrRead (m : Master) (s : State) : State :=
  s.guardedRead m hifBuserrW0 fun s =>
    let r := s.buserrPop m
    r.2.emit (.readData m (w32 hifBuserrW0) r.1)

/-- The meaning of HIF_BUSERR_READ. -/
def execHifBuserrRead (m : Master) (s : State) : Host.Outcome State Fault Refusal := commit s (doHifBuserrRead m s)

/-- The words of HIF_CTX_ONi: contexts ON or DRAINING. -/
def State.ctxOnWord (s : State) (i : Nat) : Word := bitsFrom 32 (fun b => s.ctxState (Fin.ofNat 256 (32 * i + b)) ≠ 0)

end Sys2Proof.Machine
end

