-- ==== Sys2Proof/Machine/Pins.lean ====
section
/-! DEFINITION. The multi-function pins (R77, R82, R278, R279): the local pins of a channel, what the device drives
at a ball, and the level the receiver there reads. -/

namespace Sys2Proof.Machine

/-- The map entry of a local pin (R279). -/
def State.pinMap (s : State) (c : Fin 64) (p : Nat) : Nat :=
  if p < 4 then fieldOf (s.reg (psqChPinmap0 c.val)) (8 * p) 8 else fieldOf (s.reg (psqChPinmap1 c.val)) (8 * (p - 4)) 8

/-- Whether a local pin's map entry is VALID. -/
def State.pinValid (s : State) (c : Fin 64) (p : Nat) : Bool := decide (128 ≤ s.pinMap c p)

/-- The MFP of a local pin. -/
def State.pinMfp (s : State) (c : Fin 64) (p : Nat) : Nat := s.pinMap c p % 128

/-- Whether a local pin's MFP is a sequencer output owned by the channel (R279). -/
def State.pinOwned (s : State) (c : Fin 64) (p : Nat) : Bool :=
  let m := s.pinMfp c p
  let w := s.reg (psqMfp m)
  decide (m < 96) && fieldOf w 28 3 = 1 && fieldOf w 8 6 = c.val

/-- DIV of a channel (Table PSQ-6). -/
def State.psqDiv (s : State) (c : Fin 64) : Nat := fieldOf (s.reg (psqChCfg c.val)) 0 16

/-- The output levels past the middle of the bit under way: CLK at CPOL, DOUT at the bit that CPHA = 1 places there
(R284). -/
def restLevels (x : Chan) : BitVec 8 :=
  match x.shift with
  | none => x.lv
  | some sh =>
    let lv := if sh.op.noclk then x.lv else setBit x.lv sh.op.clk.val sh.op.cpol
    match sh.dbit with
    | some v => if sh.op.out then setBit lv sh.op.dout.val v else lv
    | none => lv

/-- The output levels of a channel now: a shift is past the middle of a bit from DIV before the bit's end. -/
def State.chLevels (s : State) (c : Fin 64) : BitVec 8 :=
  let x := s.psq.ch[c]
  match x.st, x.shift with
  | .shifting, some sh => if sh.op.n ≠ sh.left ∧ sh.ends ≤ s.clk.tick + s.psqDiv c then restLevels x else x.lv
  | _, _ => x.lv

/-- The output levels and DIR bits of a channel in force at the balls: an effect that has issued and not yet landed
changes them at its tick (R280, R282). -/
def State.ballPins (s : State) (c : Fin 64) : BitVec 8 × BitVec 8 :=
  match s.psq.ch[c].fx.find? (fun e => decide (s.clk.tick < e.1)) with
  | some e => e.2
  | none => (s.chLevels c, s.psq.ch[c].dir)

/-- The level a sequencer output drives at its MFP; none: high impedance (R279, R278). -/
def State.seqDrive (s : State) (m : Nat) : Option Bool :=
  let w := s.reg (psqMfp m)
  let c := Fin.ofNat 64 (fieldOf w 8 6)
  let b := s.ballPins c
  match (List.range 8).find? (fun p => s.pinValid c p && s.pinMfp c p = m && b.2.getLsbD p) with
  | some p => if bitOf w 4 && b.1.getLsbD p then none else some (b.1.getLsbD p)
  | none => none

/-- The level the expansion port drives at a ball of its own (Table XPB-1): XP_IRQ_N of a host slave and XP_GNT as the
registers give them, XP_CS_N high while no transaction of the device runs; XP_CLK, and every line within a transaction,
open (log 19). The initiator's lines of a host slave, and XP_REQ, are the far side's. -/
def State.xpbDrive (s : State) (m : Nat) : Option Bool :=
  let role := s.xpbRole
  if !(s.en .xpb || s.flt.recovery) || s.fenced 31 || !(xpbPins role (bitOf (s.reg xpbCfg) 29)).contains m then none
  else if m = 86 then some (s.reg glbIntSummary &&& s.reg xpbXirqEn = 0)
  else if m = 85 then some s.xpb.gnt
  else if m = 84 then none
  else if m = 81 then (if role = 1 then none else some (Config.xpbLevel m s.clk.tick))
  else if role ≠ 1 && !s.xpb.gnt && !s.xpb.busy then (if m = 80 then some true else none)
  else if role = 1 && m = 80 then none
  else some (Config.xpbLevel m s.clk.tick)

/-- The level a trigger output drives: the active level while a unit's pulse is active, else the inactive level of
the units that name the pin; low where none does (R82). -/
def State.trigDrive (s : State) (m : Nat) : Option Bool :=
  let us := ((List.range 24).map (Fin.ofNat 24)).filter (fun n => s.ttuPinEn n && s.ttuPin n = m)
  match us with
  | [] => some false
  | n :: _ =>
    let v := s.ttuPol n != us.any (fun k => s.ttu[k].pulse)
    if bitOf (s.reg (psqMfp m)) 4 && v then none else some v

/-- The level the device itself drives at a ball; none: high impedance, as every output of a paired
SHADOW is (Table FLT-5). -/
def State.ownDrive (s : State) (m : Nat) : Option Bool :=
  if s.shadowed then none
  else match fieldOf (s.reg (psqMfp m)) 28 3 with
  | 1 => s.seqDrive m
  | 2 => s.trigDrive m
  | 3 => s.xpbDrive m
  | _ => none

/-- The level at a ball, whatever drives it (R278): the device, else the level the outside drives, else the pull; of
a ball that nothing drives or pulls, and of an MFP of 96 or above, which has no ball, it is open. -/
def State.ballLevel (s : State) (m : Nat) : Bool :=
  if m < 96 then
    match s.ownDrive m with
    | some v => v
    | none =>
      if s.mfpExt.getLsbD m then s.mfpIn.getLsbD m
      else match fieldOf (s.reg (psqMfp m)) 2 2 with
        | 1 => true
        | 2 => false
        | _ => Config.floatLevel m s.clk.tick
  else Config.floatLevel m s.clk.tick

/-- The level at a local pin's ball. -/
def State.pinLevel (s : State) (c : Fin 64) (p : Nat) : Bool := s.ballLevel (s.pinMfp c p)

end Sys2Proof.Machine
end

