-- ==== Sys2Proof/Machine/PsqOps.lean ====
section
/-! DEFINITION. Pin sequencers (12) below their commands: instruction words, channels and their registers, pins,
queues, timed holds, the progress of shifts, stopping, starting and bank moves. -/

namespace Sys2Proof.Machine

/-- An instruction of a channel (Table PSQ-1). -/
inductive PsqOp where
  | nop
  | pins (set clr tog : Byte)
  | dir (set clr : Byte)
  | shift (o : ShiftOp)
  | pull
  | push
  | mov (dst src : BitVec 3)
  | ldi (dst : BitVec 3) (hi : Bool) (imm : BitVec 16)
  | add (dst : BitVec 3) (srcx : Bool) (imm : BitVec 16)
  | jmp (cond : BitVec 3) (pin : Fin 8) (target : BitVec 10)
  | at_
  | waitev
  | stop
  | bad
deriving DecidableEq, Repr

/-- The instruction a word encodes (R281). -/
def psqDecode (w : Word) : PsqOp :=
  match fieldOf w 28 4 with
  | 0x0 => .nop
  | 0x1 => .pins (w.extractLsb' 16 8) (w.extractLsb' 8 8) (w.extractLsb' 0 8)
  | 0x2 => .dir (w.extractLsb' 8 8) (w.extractLsb' 0 8)
  | 0x3 => .shift
      { out := bitOf w 26
        inp := bitOf w 25
        clk := Fin.ofNat 8 (fieldOf w 22 3)
        dout := Fin.ofNat 8 (fieldOf w 19 3)
        din := Fin.ofNat 8 (fieldOf w 16 3)
        cpol := bitOf w 15
        cpha := bitOf w 14
        msb := bitOf w 13
        noclk := bitOf w 12
        n := fieldOf w 0 12 }
  | 0x4 => .pull
  | 0x5 => .push
  | 0x6 => .mov (w.extractLsb' 24 3) (w.extractLsb' 20 3)
  | 0x7 => .ldi (w.extractLsb' 24 3) (bitOf w 16) (w.extractLsb' 0 16)
  | 0x8 => .add (w.extractLsb' 24 3) (bitOf w 17) (w.extractLsb' 0 16)
  | 0x9 => .jmp (w.extractLsb' 24 3) (Fin.ofNat 8 (fieldOf w 21 3)) (w.extractLsb' 0 10)
  | 0xA => .at_
  | 0xB => .waitev
  | 0xC => .stop
  | _ => .bad

/-- Replace a channel. -/
def State.setCh (s : State) (c : Fin 64) (x : Chan) : State := { s with psq := { s.psq with ch := vset s.psq.ch c x } }

/-- The engine of a channel. -/
def chEng (c : Fin 64) : Nat := c.val / 32

/-! Configuration of a channel (Tables PSQ-5, PSQ-6). -/

def State.psqDly (s : State) (c : Fin 64) : Nat := fieldOf (s.reg (psqChCfg c.val)) 16 8
def State.psqJoin (s : State) (c : Fin 64) : Nat := fieldOf (s.reg (psqChCfg c.val)) 28 2
def State.psqKeep (s : State) (c : Fin 64) : Bool := bitOf (s.reg (psqChCfg c.val)) 31

/-- Words a TX queue holds (R286). -/
def State.txCap (s : State) (c : Fin 64) : Nat := match s.psqJoin c with | 0 => 4 | 1 => 8 | _ => 0

/-- Words an RX queue holds (R286). -/
def State.rxCap (s : State) (c : Fin 64) : Nat := match s.psqJoin c with | 0 => 4 | 1 => 0 | _ => 8

/-- The pins of a mask. -/
def maskPins (m : BitVec 8) : List Nat := (List.range 8).filter (fun p => m.getLsbD p)

/-- A channel has no effect on a pin it does not own: counted once per instruction (R279). -/
def State.countRej (s : State) (c : Fin 64) (pins : List Nat) : State :=
  if pins.any (fun p => s.pinValid c p && !s.pinOwned c p) then s.count (psqChPinrejCnt c.val) else s

/-! Registers X, Y, STAMP, OSR, ISR and NS (Table PSQ-1). -/

/-- A source register. -/
def State.psqGet (s : State) (c : Fin 64) (r : Nat) : Word :=
  match r with
  | 0 => s.reg (psqChX c.val)
  | 1 => s.reg (psqChY c.val)
  | 2 => s.reg (psqChStamp c.val)
  | 3 => s.psq.ch[c].osr
  | 4 => s.psq.ch[c].isr
  | _ => w32 (dtNs (s.time 0))

/-- A destination register: OSR with 32 bits, ISR with none. -/
def State.psqSet (s : State) (c : Fin 64) (r : Nat) (v : Word) : State :=
  match r with
  | 0 => s.setReg (psqChX c.val) v
  | 1 => s.setReg (psqChY c.val) v
  | 2 => s.setReg (psqChStamp c.val) v
  | 3 => s.setCh c { s.psq.ch[c] with osr := v, osrBits := 32 }
  | _ => s.setCh c { s.psq.ch[c] with isr := v, isrBits := 0 }

/-! Bank moves, stopping, starting (R288, R289). -/

/-- The bank a channel issues from: while a swap of its engine is pending, a channel that has moved runs the new
one. -/
def State.chBank (s : State) (c : Fin 64) : Bool :=
  let e := chEng c
  let a := s.psq.active.getLsbD e
  if s.psq.swap.getLsbD e && !s.psq.ch[c].moving then !a else a

/-- The space of `tabs` a program bank stands in. -/
def psqSpace (e : Nat) (bank : Bool) : Nat := 0x40 + 2 * e + b2n bank

/-- The instruction at a channel's pc. -/
def State.psqFetch (s : State) (c : Fin 64) : PsqOp :=
  psqDecode (s.tab .psq (psqSpace (chEng c) (s.chBank c)) s.psq.ch[c].pc.toNat)

/-- The swap of an engine ends once every channel has moved (R289). -/
def State.swapEnd (s : State) (e : Nat) : State :=
  if s.psq.swap.getLsbD e && (List.range 32).all (fun k => !s.psq.ch[(Fin.ofNat 64 (32 * e + k) : Fin 64)].moving) then
    { s with psq := { s.psq with
        active := setBit s.psq.active e (!s.psq.active.getLsbD e)
        swap := setBit s.psq.swap e false } }
  else s

/-- A channel has moved to the new bank. -/
def State.chMoved (s : State) (c : Fin 64) : State :=
  (s.setCh c { s.psq.ch[c] with moving := false }).swapEnd (chEng c)

/-- OSR, ISR and their counts as a start or bank move leaves them (R288, R289). -/
def clearShift (x : Chan) (keep : Bool) : Chan :=
  if keep then x else { x with osr := 0, isr := 0, osrBits := 0, isrBits := 0 }

/-- The pin effects of a channel that wait to land, with one more. -/
def State.pendFx (s : State) (c : Fin 64) (land : Nat) : List (Nat × BitVec 8 × BitVec 8) :=
  let b := s.ballPins c
  let l := s.psq.ch[c].fx.filter (fun e => decide (s.clk.tick < e.1))
  l ++ [(land, match l with | [] => b | _ => (s.psq.ch[c].lv, s.psq.ch[c].dir))]

/-- OSR after a bit has left, and the bit. -/
def shiftOut (msb : Bool) (osr : Word) : Bool × Word :=
  if msb then (osr.getLsbD 31, osr <<< 1) else (osr.getLsbD 0, osr >>> 1)

/-- The first pin effect of a shift: CLK leaves CPOL, and with CPHA = 0 DOUT takes the first bit that OSR holds
(R284). -/
def firstLevels (x : Chan) (o : ShiftOp) : BitVec 8 :=
  let lv := if o.noclk then x.lv else setBit x.lv o.clk.val (!o.cpol)
  if o.out && !o.cpha && x.osrBits ≠ 0 then setBit lv o.dout.val (shiftOut o.msb x.osr).1 else lv

/-- A channel stops at once; of a shift that has issued and not begun, the first pin effect still lands (R288). -/
def State.chStop (s : State) (c : Fin 64) : State :=
  let x := s.psq.ch[c]
  let fresh : Option Shift := match x.shift with
    | some sh => if x.st = .shifting ∧ sh.left = sh.op.n ∧ s.clk.tick < sh.next then some sh else none
    | none => none
  let y : Chan := match fresh with
    | some sh => { x with lv := firstLevels x sh.op, fx := s.pendFx c sh.next }
    | none => { x with lv := s.chLevels c }
  let s1 := (s.setCh c { y with st := .stopped, shift := none, holdFor := none, landAt := none }).chMoved c
  match fresh with
  | some sh => s1.emit (.pinEffect c sh.next y.lv y.dir)
  | none => s1

/-- START (R288): in STOPPED or FAULT with EN = 1; in hold the channel stays STOPPED (R290). -/
def State.chStart (s : State) (c : Fin 64) : State :=
  let x := s.psq.ch[c]
  if !s.en .psq then s.rejReg .psq (psqChCtrl c.val)
  else if x.st = .stopped || x.st = .fault then
    let y := clearShift x (s.psqKeep c)
    s.setCh c { y with
      st := if s.inHold .psq then .stopped else .running
      fault := 0
      pc := (s.reg (psqChEntry c.val)).setWidth 10
      landAt := none }
  else s

/-- A program fault at issue (R287). -/
def State.chFault (s : State) (c : Fin 64) (code : Byte) : State :=
  let x := s.psq.ch[c]
  (s.setCh c { x with st := .fault, fault := code, holdFor := none, landAt := none }).chMoved c

/-- Every channel of the block goes to hold: a shift completes, every other channel stops (R290). -/
def State.psqHold (s : State) : State :=
  (List.range 64).foldl (fun t k =>
    let c := Fin.ofNat 64 k
    match t.psq.ch[c].st with
    | .shifting => t
    | .stopped => t
    | .fault => t
    | _ => t.chStop c) s

/-! Queues (R286). -/

/-- A push of a word into a TX queue, dropped when full. -/
def State.txqPush (s : State) (c : Fin 64) (v : Word) : State :=
  let x := s.psq.ch[c]
  if x.txq.length < s.txCap c then s.setCh c { x with txq := x.txq ++ [v] } else s.count (psqChTxqDropCnt c.val)

/-- The head of an RX queue, removed. -/
def State.rxqPop (s : State) (c : Fin 64) : Word × State :=
  let x := s.psq.ch[c]
  match x.rxq with
  | [] => (0, s.count (psqChRxqEmptyCnt c.val))
  | v :: r => (v, s.setCh c { x with rxq := r })

/-- PULL's effect on a TX queue that holds a word. -/
def chPull (x : Chan) : Chan :=
  match x.txq with
  | [] => x
  | v :: r => { x with osr := v, osrBits := 32, txq := r }

/-- ISR goes to the RX queue. -/
def chPush (x : Chan) : Chan := { x with rxq := x.rxq ++ [x.isr], isr := 0, isrBits := 0 }

/-! Shifts (R284, R285). -/

/-- ISR after a bit has entered. -/
def shiftIn (msb : Bool) (isr : Word) (b : Bool) : Word :=
  if msb then (isr <<< 1) ||| w32 (b2n b) else (isr >>> 1) ||| w32 (2 ^ 31 * b2n b)

/-- The levels of a shift that stalls at an instant: CLK at CPOL; DOUT keeps its level, so a bit that CPHA = 1 has not
yet placed is not placed (R285). -/
def State.stallLevels (s : State) (c : Fin 64) (at_ : Nat) : BitVec 8 :=
  let x := s.psq.ch[c]
  match x.shift with
  | none => x.lv
  | some sh =>
    if sh.ends ≤ at_ + s.psqDiv c then restLevels x
    else if sh.op.noclk then x.lv
    else setBit x.lv sh.op.clk.val sh.op.cpol

/-- The shift stalls at an instant (R285). -/
def State.chStall (s : State) (c : Fin 64) (push : Bool) (at_ : Nat) : State :=
  let x := s.psq.ch[c]
  let y : Chan := { x with
    st := .shiftStalled
    lv := s.stallLevels c at_
    push := push
    shift := x.shift.map (fun sh => { sh with dbit := none }) }
  (s.setCh c y).count (psqChStallCnt c.val)

/-- The next bit starts: OSR is loaded if it is empty, the bit leaves, its sample instant is set. -/
def State.bitStart (s : State) (c : Fin 64) (sh : Shift) : State :=
  let o := sh.op
  let full := o.inp && decide (32 ≤ s.psq.ch[c].isrBits)
  let x0 := if full then chPush s.psq.ch[c] else s.psq.ch[c]
  if full && decide (s.rxCap c ≤ s.psq.ch[c].rxq.length) then s.chStall c true sh.next
  else if o.out && x0.osrBits = 0 && x0.txq = [] then (s.setCh c x0).chStall c false sh.next
  else
    let x := if o.out && x0.osrBits = 0 then chPull x0 else x0
    let div := s.psqDiv c
    let b := shiftOut o.msb x.osr
    let smp := sh.next + (if o.cpha then 2 * div else div) + s.psqDly c
    let sh' : Shift :=
      { sh with
        left := sh.left - 1
        next := sh.next + 2 * div
        due := if o.inp then sh.due ++ [smp] else sh.due
        ends := sh.next + 2 * div
        dbit := if o.out && o.cpha then some b.1 else none }
    let lv0 := restLevels x
    let lv1 := if o.noclk then lv0 else setBit lv0 o.clk.val (!o.cpol)
    if o.out then
      let y : Chan := { x with
        shift := some sh'
        osr := b.2
        osrBits := x.osrBits - 1
        lv := if o.cpha then lv1 else setBit lv1 o.dout.val b.1 }
      (s.setCh c y).emit (.shiftBit c (if o.cpha then sh.next + div else sh.next) b.1)
    else s.setCh c { x with shift := some sh', lv := lv1 }

/-- The samples of bits begun before a stall, at their instants (R284): a full ISR that finds no room stays until the
shift goes on. At most `fuel`. -/
def State.stalledSamples : Nat → State → Fin 64 → State
  | 0, s, _ => s
  | fuel + 1, s, c =>
    let x := s.psq.ch[c]
    match x.st, x.shift with
    | .shiftStalled, some sh =>
      if sh.due ≠ [] ∧ sh.due.getD 0 0 ≤ s.clk.tick ∧ x.isrBits < 32 then
        let y : Chan := { x with
          isr := shiftIn sh.op.msb x.isr (s.pinLevel c sh.op.din.val)
          isrBits := x.isrBits + 1
          shift := some { sh with due := sh.due.drop 1 } }
        let z := if y.isrBits = 32 ∧ y.rxq.length < s.rxCap c then chPush y else y
        State.stalledSamples fuel (s.setCh c z) c
      else s
    | _, _ => s

/-- A bit is sampled; a full ISR is pushed, or the shift stalls; an ISR that a stall has left full takes no bit before
it is pushed. -/
def State.bitSample (s : State) (c : Fin 64) (sh : Shift) (v : Bool) : State :=
  let at_ := sh.due.getD 0 0
  let room : Chan → Bool := fun x => decide (x.rxq.length < s.rxCap c)
  let x0 := s.psq.ch[c]
  let x := if 32 ≤ x0.isrBits ∧ room x0 then chPush x0 else x0
  if 32 ≤ x.isrBits then s.chStall c true at_
  else
    let y : Chan := { x with
      isr := shiftIn sh.op.msb x.isr v
      isrBits := x.isrBits + 1
      shift := some { sh with due := sh.due.drop 1 } }
    if y.isrBits < 32 then s.setCh c y
    else if room y then s.setCh c (chPush y)
    else (s.setCh c y).chStall c true at_

/-- A shift is done: CLK rests at CPOL, DOUT keeps its last bit; in hold the channel stops (R284, R290). -/
def State.chShiftDone (s : State) (c : Fin 64) : State :=
  let x := s.psq.ch[c]
  let s1 := s.setCh c { x with st := .running, lv := restLevels x, shift := none }
  if s.inHold .psq then s1.chStop c else s1

/-- A shift goes on through the instants up to a tick, or, without one, to its end or its next stall; each sample
is the next of `smp`, else the level at the pin. At most `fuel` instants. -/
def State.shiftRun : Nat → State → Fin 64 → Option Nat → List Bool → State
  | 0, s, _, _, _ => s
  | fuel + 1, s, c, lim, smp =>
    let x := s.psq.ch[c]
    let reached : Nat → Bool := fun t => match lim with | some l => decide (t ≤ l) | none => true
    match x.st, x.shift with
    | .shifting, some sh =>
      let sampleFirst := match sh.due with | d :: _ => decide (sh.left = 0) || decide (d ≤ sh.next) | [] => false
      if sampleFirst then
        if reached (sh.due.getD 0 0) then
          let s1 := s.bitSample c sh (match smp with | v :: _ => v | [] => s.pinLevel c sh.op.din.val)
          State.shiftRun fuel s1 c lim (smp.drop 1)
        else s
      else if sh.left = 0 then (if reached sh.ends then s.chShiftDone c else s)
      else if reached sh.next then State.shiftRun fuel (s.bitStart c sh) c lim smp
      else s
    | _, _ => s

/-- The instants a shift still has: for each bit a start and a sample, and its end. -/
def shiftFuel (x : Chan) : Nat := match x.shift with | some sh => 2 * sh.left + sh.due.length + 2 | none => 0

/-- A shift goes on to the current tick. -/
def State.shiftTo (s : State) (c : Fin 64) : State :=
  s.shiftRun (shiftFuel s.psq.ch[c]) c (some s.clk.tick) []

/-! Timed holds (R282, R283). -/

/-- Ticks until D0's NS reaches a stamp below 10^9: 0 once (NS − STAMP) mod 10^9 < 5 × 10^8; none while D0 does
not count. -/
def State.ticksToStamp (s : State) (stamp : Nat) : Option Nat :=
  let ns := dtNs (s.time 0)
  if (ns + 1000000000 - stamp) % 1000000000 < 500000000 then some 0
  else if !s.en .dtm then none
  else
    let gap := 4294967296 * ((stamp + 1000000000 - ns) % 1000000000) - dtFrac (s.time 0)
    let inc := (s.incEff 0).toNat
    some ((gap + inc - 1) / inc)

/-- Ticks until the tick S a channel in WAIT_AT holds for. -/
def State.holdLeft (s : State) (c : Fin 64) : Option Nat :=
  match s.psq.ch[c].holdFor with
  | some t => some (t - s.clk.tick)
  | none => s.ticksToStamp (s.reg (psqChStamp c.val)).toNat

/-- The channel holds for its tick S; where no turn after S − 96 ns would follow, the outcome is LATE and the next
turn issues (R282). 48 ticks are 96 ns. -/
def State.chWait (s : State) (c : Fin 64) (holdFor : Option Nat) : State :=
  let x := s.psq.ch[c]
  let s1 := s.setCh c { x with st := .waitAt, holdFor := holdFor, landAt := none }
  match s1.holdLeft c with
  | some r =>
    if r < 48 then
      (s.setCh c { x with st := .running, holdFor := none, landAt := none }).count (psqChLateCnt c.val)
    else s1
  | none => s1

/-- Whether a channel's turn now is the one that follows its hold: after S − 96 ns. -/
def State.holdOver (s : State) (c : Fin 64) : Bool :=
  s.psq.ch[c].st = .waitAt && (match s.holdLeft c with | some r => decide (r < 48) | none => false)

/-- The hold ends in this turn: the next instruction's first pin effect lands at S; where a discontinuity of D0 has
left no turn up to S − 32 ns, the outcome is LATE. -/
def State.chRelease (s : State) (c : Fin 64) : State :=
  let x := s.psq.ch[c]
  let r := (s.holdLeft c).getD 0
  if r < 16 then
    (s.setCh c { x with st := .running, holdFor := none, landAt := none }).count (psqChLateCnt c.val)
  else s.setCh c { x with st := .running, holdFor := none, landAt := some (s.clk.tick + r) }

/-! Views and pins (Tables PSQ-3, PSQ-5; R82, R278). -/

/-- Bits of the channels of an engine. -/
def State.chBits (s : State) (e : Nat) (f : Chan → Bool) : Word :=
  bitsFrom 32 (fun k => f s.psq.ch[(Fin.ofNat 64 (32 * e + k) : Fin 64)])

/-- STATE as coded in R288. -/
def chStCode : ChanSt → Nat
  | .stopped => 0
  | .running => 1
  | .waitAt => 2
  | .waitEv => 3
  | .waitQueue => 4
  | .shifting => 5
  | .shiftStalled => 6
  | .fault => 7

end Sys2Proof.Machine
end

