-- ==== Sys2Proof/Machine/Psq.lean ====
section
/-! DEFINITION. The commands of the pin sequencers (12): each instruction, its faults, holds, events, shifts,
queues, start, stop and the program swap. -/

namespace Sys2Proof.Machine

/-- The local pins an instruction names (R281). -/
def namedPins : PsqOp → List Nat
  | .pins a b c => maskPins (a ||| b ||| c)
  | .dir a b => maskPins (a ||| b)
  | .shift o =>
    (if o.noclk then [] else [o.clk.val]) ++ (if o.out then [o.dout.val] else []) ++ (if o.inp then [o.din.val] else [])
  | .jmp cond p _ => if cond = 4 || cond = 5 then [p.val] else []
  | _ => []

/-- A reserved OP or register code (Table PSQ-1). -/
def psqBadOp : PsqOp → Bool
  | .bad => true
  | .mov d r => decide (4 < d.toNat) || decide (5 < r.toNat)
  | .ldi d _ _ => decide (2 < d.toNat)
  | .add d _ _ => decide (2 < d.toNat)
  | _ => false

/-- A queue the JOIN mode does not give (R286). -/
def State.psqBadJoin (s : State) (c : Fin 64) : PsqOp → Bool
  | .pull => s.txCap c = 0
  | .push => s.rxCap c = 0
  | .shift o => (o.out && s.txCap c = 0) || (o.inp && s.rxCap c = 0)
  | _ => false

/-- A SHIFT with N = 0. -/
def psqBadShift : PsqOp → Bool
  | .shift o => o.n = 0
  | _ => false

/-- The program fault of an instruction, the lowest code of Table PSQ-2 that applies. -/
def State.psqFault (s : State) (c : Fin 64) (op : PsqOp) : Option Byte :=
  if psqBadOp op then some 0x01
  else if (namedPins op).any (fun p => !s.pinValid c p) then some 0x02
  else if op = .at_ && decide (1000000000 ≤ (s.reg (psqChStamp c.val)).toNat) then some 0x03
  else if s.psqBadJoin c op then some 0x04
  else if psqBadShift op then some 0x05
  else none

/-- The pins an instruction has an output effect on (R279). -/
def outPins : PsqOp → List Nat
  | .pins a b c => maskPins (a ||| b ||| c)
  | .dir a _ => maskPins a
  | .shift o => (if o.noclk then [] else [o.clk.val]) ++ (if o.out then [o.dout.val] else [])
  | _ => []

/-- The tick at which the first pin effect of an instruction issued now crosses the ball: S after a hold, else 16
QCLK on (R280, R282, R283). -/
def State.landTick (s : State) (c : Fin 64) : Nat := (s.psq.ch[c].landAt).getD (s.clk.tick + 16)

/-- ADD's result: X and Y modulo 2^32, STAMP modulo 10^9 from a value below it (Table PSQ-1). -/
def psqSum (dst : Nat) (old : Word) (v : Int) : Word :=
  if dst = 2 && decide (old.toNat < 1000000000) then w32 (((old.toNat : Int) + v) % 1000000000).toNat
  else BitVec.ofInt 32 ((old.toNat : Int) + v)

/-- COND of a JMP (Table PSQ-1). -/
def State.psqCond (s : State) (c : Fin 64) (cond : Nat) (pin : Fin 8) : Bool :=
  let x := s.psq.ch[c]
  match cond with
  | 0 => true
  | 1 => s.psqGet c 0 = 0
  | 2 => s.psqGet c 0 ≠ 0
  | 3 => s.psqGet c 1 ≠ 0
  | 4 => s.pinLevel c pin.val
  | 5 => !s.pinLevel c pin.val
  | 6 => x.txq = []
  | _ => decide (s.rxCap c ≤ x.rxq.length)

/-- The pc after an instruction that is not a taken jump, the landing of a hold used up. -/
def State.chNext (s : State) (c : Fin 64) : State :=
  let x := s.psq.ch[c]
  s.setCh c { x with pc := x.pc + 1, landAt := none }

/-- New levels and DIR of a channel, recorded with the tick of their effect, at which they reach the balls (R280). -/
def State.pinEffect (s : State) (c : Fin 64) (lv dir : BitVec 8) : State :=
  let fx := s.pendFx c (s.landTick c)
  ((s.setCh c { s.psq.ch[c] with lv := lv, dir := dir, fx := fx }).emit (.pinEffect c (s.landTick c) lv dir))

/-- WAITEV: the held event is taken, or the channel holds for one (R283). -/
def State.takeEvent (s : State) (c : Fin 64) : State :=
  let x := s.psq.ch[c]
  match x.ev with
  | some f => (s.setCh c { x with ev := none }).chWait c (some (f + 72))
  | none => s.setCh c { x with st := .waitEv }

/-- The effect of an instruction that raises no fault. -/
def State.psqPerform (s : State) (c : Fin 64) (op : PsqOp) : State :=
  let x := s.psq.ch[c]
  match op with
  | .nop => s.chNext c
  | .pins st cl tg =>
    ((s.countRej c (outPins op)).pinEffect c (((x.lv ||| st) &&& ~~~cl) ^^^ tg) x.dir).chNext c
  | .dir st cl => ((s.countRej c (outPins op)).pinEffect c x.lv ((x.dir ||| st) &&& ~~~cl)).chNext c
  | .shift o =>
    let sh : Shift := ⟨o, o.n, s.landTick c, [], s.landTick c, none⟩
    ((s.countRej c (outPins op)).setCh c { x with st := .shifting, shift := some sh }).chNext c
  | .pull =>
    if x.txq = [] then s.setCh c { x with st := .waitQueue, push := false }
    else (s.setCh c (chPull x)).chNext c
  | .push =>
    if s.rxCap c ≤ x.rxq.length then s.setCh c { x with st := .waitQueue, push := true }
    else (s.setCh c (chPush x)).chNext c
  | .mov d r => (s.psqSet c d.toNat (s.psqGet c r.toNat)).chNext c
  | .ldi d hi imm =>
    let old := s.psqGet c d.toNat
    (s.psqSet c d.toNat (if hi then imm ++ old.extractLsb' 0 16 else imm.setWidth 32)).chNext c
  | .add d srcx imm =>
    let v : Int := if srcx then ((s.psqGet c 0).toNat : Int) else imm.toInt
    (s.psqSet c d.toNat (psqSum d.toNat (s.psqGet c d.toNat) v)).chNext c
  | .jmp cond pin target =>
    if s.psqCond c cond.toNat pin then
      let s1 := if cond = 3 then s.psqSet c 1 (s.psqGet c 1 - 1) else s
      s1.setCh c { s1.psq.ch[c] with pc := target, landAt := none }
    else s.chNext c
  | .at_ => (s.chNext c).chWait c none
  | .waitev => (s.chNext c).takeEvent c
  | .stop => (s.chNext c).chStop c
  | .bad => s

/-- A channel issues an instruction (R281, R287). -/
def State.psqIssue (s : State) (c : Fin 64) (op : PsqOp) : State :=
  match s.psqFault c op with
  | some code => s.chFault c code
  | none => s.psqPerform c op

/-- Whether a channel may run: EN = 1, not in hold, its engine not fenced, the Sequencer island on (R277, R290). -/
def State.psqRuns (s : State) (c : Fin 64) : Bool :=
  s.en .psq && !s.inHold .psq && !s.fenced (27 + chEng c) && s.islandOn 17

/-- Whether a shift in progress may go on: in hold it completes (R290). -/
def State.psqCompletes (s : State) (c : Fin 64) : Bool :=
  (s.en .psq || s.inHold .psq) && !s.fenced (27 + chEng c) && s.islandOn 17

/-- One instruction issued in a channel's turn: a channel that is held or does not run issues nothing. -/
def doPsqOne (c : Fin 64) (op : PsqOp) (s : State) : State :=
  if s.psqRuns c && s.psq.ch[c].st = .running then s.psqIssue c op else s

/-- The meaning of PSQ_NOP. -/
def execPsqNop (c : Fin 64) (s : State) : Host.Outcome State Fault Refusal := commit s (doPsqOne c .nop s)

/-- The meaning of PSQ_PINS. -/
def execPsqPins (c : Fin 64) (st cl tg : Byte) (s : State) : Host.Outcome State Fault Refusal :=
  commit s (doPsqOne c (.pins st cl tg) s)

/-- The meaning of PSQ_DIR. -/
def execPsqDir (c : Fin 64) (st cl : Byte) (s : State) : Host.Outcome State Fault Refusal :=
  commit s (doPsqOne c (.dir st cl) s)

/-- The meaning of PSQ_SHIFT. -/
def execPsqShift (c : Fin 64) (out inp : Bool) (clk dout din : Fin 8) (cpol cpha msb noclk : Bool) (n : BitVec 12)
    (s : State) : Host.Outcome State Fault Refusal :=
  commit s (doPsqOne c (.shift ⟨out, inp, clk, dout, din, cpol, cpha, msb, noclk, n.toNat⟩) s)

/-- The meaning of PSQ_PULL. -/
def execPsqPull (c : Fin 64) (s : State) : Host.Outcome State Fault Refusal := commit s (doPsqOne c .pull s)

/-- The meaning of PSQ_PUSH. -/
def execPsqPush (c : Fin 64) (s : State) : Host.Outcome State Fault Refusal := commit s (doPsqOne c .push s)

/-- The meaning of PSQ_MOV. -/
def execPsqMov (c : Fin 64) (dst src : BitVec 3) (s : State) : Host.Outcome State Fault Refusal :=
  commit s (doPsqOne c (.mov dst src) s)

/-- The meaning of PSQ_LDI. -/
def execPsqLdi (c : Fin 64) (dst : BitVec 3) (hi : Bool) (imm : BitVec 16) (s : State) :
    Host.Outcome State Fault Refusal :=
  commit s (doPsqOne c (.ldi dst hi imm) s)

/-- The meaning of PSQ_ADD. -/
def execPsqAdd (c : Fin 64) (dst : BitVec 3) (srcx : Bool) (imm : BitVec 16) (s : State) :
    Host.Outcome State Fault Refusal :=
  commit s (doPsqOne c (.add dst srcx imm) s)

/-- The meaning of PSQ_JMP. -/
def execPsqJmp (c : Fin 64) (cond : BitVec 3) (pin : Fin 8) (target : BitVec 10) (s : State) :
    Host.Outcome State Fault Refusal :=
  commit s (doPsqOne c (.jmp cond pin target) s)

/-- The meaning of PSQ_AT. -/
def execPsqAt (c : Fin 64) (s : State) : Host.Outcome State Fault Refusal := commit s (doPsqOne c .at_ s)

/-- The meaning of PSQ_WAITEV. -/
def execPsqWaitev (c : Fin 64) (s : State) : Host.Outcome State Fault Refusal := commit s (doPsqOne c .waitev s)

/-- The meaning of PSQ_STOP_INSTRUCTION. -/
def execPsqStopInstruction (c : Fin 64) (s : State) : Host.Outcome State Fault Refusal :=
  commit s (doPsqOne c .stop s)

/-! Holds and events. -/

/-- The hold of an AT or WAITEV ends and the next instruction, from the program bank, issues in its turn (R282). -/
def doPsqHoldRelease (c : Fin 64) (s : State) : State :=
  if s.psqRuns c && s.holdOver c then
    let s1 := s.chRelease c
    s1.psqIssue c (s1.psqFetch c)
  else s

/-- The meaning of PSQ_HOLD_RELEASE. -/
def execPsqHoldRelease (c : Fin 64) (s : State) : Host.Outcome State Fault Refusal :=
  commit s (doPsqHoldRelease c s)

/-- The oldest action start event fired for a channel. -/
def State.firedFor (s : State) (c : Fin 64) : Option Nat := (s.psq.events.find? (fun p => p.1 = c)).map (·.2)

/-- The events without the oldest of a channel. -/
def dropFired (c : Fin 64) : List (Fin 64 × Nat) → List (Fin 64 × Nat)
  | [] => []
  | p :: r => if p.1 = c then r else p :: dropFired c r

/-- A channel latches an action start event one QCLK after the firing tick: one is held, a further one or one in
hold counts; a channel in WAIT_EV takes it (R283, R290). -/
def doPsqEventLatch (c : Fin 64) (s : State) : State :=
  match s.firedFor c with
  | none => s
  | some f =>
    let s1 := { s with psq := { s.psq with events := dropFired c s.psq.events } }
    let x := s1.psq.ch[c]
    if x.ev.isSome || s1.inHold .psq then s1.count (psqChEvovrCnt c.val)
    else
      let s2 := s1.setCh c { x with ev := some f }
      if x.st = .waitEv && s2.psqRuns c then s2.takeEvent c else s2

/-- The meaning of PSQ_EVENT_LATCH. -/
def execPsqEventLatch (c : Fin 64) (s : State) : Host.Outcome State Fault Refusal := commit s (doPsqEventLatch c s)

/-! Shifts and queues. -/

/-- A shift goes through its instants up to now, then, with the levels sampled at DIN, to its last bit and sample,
or to a stall (R284, R285). -/
def doShiftDone (c : Fin 64) (samples : List Bool) (s : State) : State :=
  if s.psq.ch[c].st = .shifting && !s.fenced (27 + chEng c) then s.shiftRun (shiftFuel s.psq.ch[c]) c none samples
  else s

/-- The meaning of SHIFT_DONE. -/
def execShiftDone (c : Fin 64) (samples : List Bool) (s : State) : Host.Outcome State Fault Refusal :=
  commit s (doShiftDone c samples s)

/-- A stalled shift whose queue is served goes on: its next bit starts in this turn, landing under R280. -/
def State.shiftResume (s : State) (c : Fin 64) : State :=
  let x := s.psq.ch[c]
  let y := if x.push then chPush x else x
  match y.shift with
  | some sh =>
    let sh' : Shift := { sh with next := s.clk.tick + 16 }
    s.setCh c { y with st := .shifting, shift := some sh' }
  | none => s

/-- A PULL, PUSH or stalled shift goes on once its queue is served (Table PSQ-1, R285). -/
def doPsqQueueResume (c : Fin 64) (s : State) : State :=
  let x := s.psq.ch[c]
  let served := if x.push then decide (x.rxq.length < s.rxCap c) else decide (x.txq ≠ [])
  if !served then s
  else match x.st with
    | .waitQueue =>
      let y := if x.push then chPush x else chPull x
      if s.psqRuns c then (s.setCh c { y with st := .running }).chNext c else s
    | .shiftStalled => if s.psqCompletes c then s.shiftResume c else s
    | _ => s

/-- The meaning of PSQ_QUEUE_RESUME. -/
def execPsqQueueResume (c : Fin 64) (s : State) : Host.Outcome State Fault Refusal :=
  commit s (doPsqQueueResume c s)

/-- A write of PSQ_CHc_TXQ. -/
def doPsqTxqWrite (m : Master) (c : Fin 64) (v : Word) (s : State) : State :=
  s.guarded m (psqChTxq c.val) fun s => s.txqPush c v

/-- The meaning of PSQ_TXQ_WRITE. -/
def execPsqTxqWrite (m : Master) (c : Fin 64) (v : Word) (s : State) : Host.Outcome State Fault Refusal :=
  commit s (doPsqTxqWrite m c v s)

/-- A read of PSQ_CHc_RXQ. -/
def doPsqRxqRead (m : Master) (c : Fin 64) (s : State) : State :=
  s.guardedRead m (psqChRxq c.val) fun s =>
    let r := s.rxqPop c
    r.2.emit (.readData m (w32 (psqChRxq c.val)) r.1)

/-- The meaning of PSQ_RXQ_READ. -/
def execPsqRxqRead (m : Master) (c : Fin 64) (s : State) : Host.Outcome State Fault Refusal :=
  commit s (doPsqRxqRead m c s)

/-! Start, stop, swap. -/

/-- START of PSQ_CHc_CTRL. -/
def doPsqStart (m : Master) (c : Fin 64) (s : State) : State :=
  s.guarded m (psqChCtrl c.val) fun s => s.chStart c

/-- The meaning of PSQ_START. -/
def execPsqStart (m : Master) (c : Fin 64) (s : State) : Host.Outcome State Fault Refusal :=
  commit s (doPsqStart m c s)

/-- STOP of PSQ_CHc_CTRL. -/
def doPsqStop (m : Master) (c : Fin 64) (s : State) : State :=
  s.guarded m (psqChCtrl c.val) fun s => s.chStop c

/-- The meaning of PSQ_STOP; `_start`: the same write sets START, and STOP wins (R288). -/
def execPsqStop (m : Master) (c : Fin 64) (_start : Bool) (s : State) : Host.Outcome State Fault Refusal :=
  commit s (doPsqStop m c s)

/-- A swap of an engine begins: channels in STOPPED and FAULT move at once (R289). -/
def State.swapStart (s : State) (e : Nat) : State :=
  if s.psq.swap.getLsbD e then s
  else
    let s1 := { s with psq := { s.psq with swap := setBit s.psq.swap e true } }
    let s2 := (List.range 32).foldl (fun t k =>
      let c := Fin.ofNat 64 (32 * e + k)
      let x := t.psq.ch[c]
      t.setCh c { x with moving := !(x.st = .stopped || x.st = .fault) }) s1
    s2.swapEnd e

/-- The swaps of a value of PSQ_CMD. -/
def State.psqSwaps (s : State) (v : Word) : State :=
  let s1 := if bitOf v 0 then s.swapStart 0 else s
  if bitOf v 1 then s1.swapStart 1 else s1

/-- SWAPe of PSQ_CMD. -/
def doPsqSwap (m : Master) (engines : BitVec 2) (s : State) : State :=
  s.guarded m psqCmd fun s => s.sharedCmd m .psq 0x20 (engines.setWidth 32) fun v s => s.psqSwaps v

/-- The meaning of PSQ_SWAP. -/
def execPsqSwap (m : Master) (engines : BitVec 2) (s : State) : Host.Outcome State Fault Refusal :=
  commit s (doPsqSwap m engines s)

/-- A channel moves to the new bank at its instruction boundary: a wait is abandoned, a held event kept (R289). -/
def doPsqChannelBankMove (c : Fin 64) (s : State) : State :=
  let x := s.psq.ch[c]
  let atBoundary := match x.st with
    | .running => true
    | .waitAt => true
    | .waitEv => true
    | .waitQueue => true
    | _ => false
  if x.moving && atBoundary && s.psqRuns c then
    let y := clearShift x (s.psqKeep c)
    let z : Chan := { y with
      st := .running
      pc := (s.reg (psqChEntry c.val)).setWidth 10
      holdFor := none
      landAt := none }
    (s.setCh c z).chMoved c
  else s

/-- The meaning of PSQ_CHANNEL_BANK_MOVE. -/
def execPsqChannelBankMove (c : Fin 64) (s : State) : Host.Outcome State Fault Refusal :=
  commit s (doPsqChannelBankMove c s)

/-! A turn of a channel on a PCLK tick (R277), and the registers of a channel. -/

/-- What a channel does in its turn: a pending bank move, a hold that ends, a queue served, or its next instruction. -/
def State.psqTurn (s : State) (c : Fin 64) : State :=
  let s1 := doPsqChannelBankMove c s
  if s1.holdOver c then doPsqHoldRelease c s1
  else match s1.psq.ch[c].st with
    | .running => doPsqOne c (s1.psqFetch c) s1
    | .waitQueue => doPsqQueueResume c s1
    | .shiftStalled => doPsqQueueResume c s1
    | _ => s1

/-- The sequencers on one tick: events fired before it are latched, shifts go on, and one channel of each engine has
its turn. -/
def State.psqTick (s : State) : State :=
  let s0 := s.psq.events.foldl (fun t p => if p.2 < t.clk.tick then doPsqEventLatch p.1 t else t) s
  let s1 := (List.range 64).foldl (fun t k =>
    let c := Fin.ofNat 64 k
    if t.fenced (27 + chEng c) then t
    else if t.psq.ch[c].st = .shifting then t.shiftTo c
    else t.stalledSamples (t.psq.ch[c].shift.elim 0 (fun sh => sh.due.length)) c) s0
  let k := s1.clk.tick % 32
  (s1.psqTurn (Fin.ofNat 64 k)).psqTurn (Fin.ofNat 64 (32 + k))

/-- A write at offset `o` of a channel's registers (Tables PSQ-5, PSQ-6, R288). -/
def State.psqChanWrite (s : State) (c : Fin 64) (o : Nat) (v : Word) : State :=
  let x := s.psq.ch[c]
  let a := psqChCfg c.val + o
  let open_ := x.st = .stopped || x.st = .fault
  match o with
  | 0x00 =>
    let w := v &&& 0xB0FFFFFF#32
    if !open_ || fieldOf w 28 2 = 3 || decide (fieldOf w 0 16 < 5) then s.rejReg .psq a
    else if fieldOf w 28 2 = s.psqJoin c then s.setReg a w
    else (s.setReg a w).setCh c { x with txq := [], rxq := [] }
  | 0x04 => if open_ then s.setReg a (v &&& 0x3FF#32) else s.rejReg .psq a
  | 0x08 => if bitOf v 1 then s.chStop c else if bitOf v 0 then s.chStart c else s
  | 0x10 => if open_ then s.setReg a v else s.rejReg .psq a
  | 0x14 => if open_ then s.setReg a v else s.rejReg .psq a
  | 0x18 => if open_ then s.setReg a v else s.rejReg .psq a
  | 0x28 => if open_ then s.setReg a v else s.rejReg .psq a
  | 0x2C => if open_ then s.setReg a v else s.rejReg .psq a
  | 0x34 => s.txqPush c v
  | _ => if 0x40 ≤ o ∧ o ≤ 0x54 ∧ v = 0 then s.clearCnt .psq a else s

/-- A read at offset `o` of a channel's registers. -/
def State.psqChanRead (s : State) (c : Fin 64) (o : Nat) : Word × State :=
  let x := s.psq.ch[c]
  match o with
  | 0x08 => (w32 (65536 * x.fault.toNat + 256 * chStCode x.st), s)
  | 0x0C => (x.pc.setWidth 32, s)
  | 0x20 => (x.isr, s)
  | 0x1C => (x.osr, s)
  | 0x24 => (w32 (65536 * x.isrBits + x.osrBits), s)
  | 0x30 =>
    let inp : BitVec 8 := bitsFrom 8 (fun p => s.pinValid c p && s.pinLevel c p)
    (w32 (65536 * inp.toNat + 256 * x.dir.toNat + (s.chLevels c).toNat), s)
  | 0x34 => (0, s)
  | 0x38 => s.rxqPop c
  | 0x3C => (w32 (65536 * x.txq.length + x.rxq.length), s)
  | _ => (s.reg (psqChCfg c.val + o), s)

/-- A write of PSQ_MFPm: an undefined FUNC is rejected (R278). -/
def State.mfpWrite (s : State) (a : Nat) (v : Word) : State :=
  if 3 < fieldOf v 28 3 then s.rejReg .psq a else s.setReg a (v &&& 0x70003F1F#32)

end Sys2Proof.Machine
end

