-- ==== Sys2Proof/Machine/Ttc.lean ====
section
/-! DEFINITION. Trigger units firing and capture units (04, R77-R84). -/

namespace Sys2Proof.Machine

/-! Firing (R77, R79). -/

/-- Whether a kernel cycle start event reaches the engine of a role's instance (R77). -/
def State.startReaches (s : State) (r : Fin 10) : Bool :=
  match s.insts[r] with
  | some i =>
    match i.engine with
    | some e => !i.stopped && s.islandOn (3 + e.val) && !s.fenced e.val
    | none => false
  | none => false

/-- Issue a unit's internal event, or drop it, counted (R77). A kernel cycle start also swaps the input regions of
its role (R318). -/
def State.ttuEvent (s : State) (n : Fin 24) : State :=
  let t := s.ttuEvtTarget n
  match s.ttuEvtKind n with
  | 0 => s
  | 1 =>
    let r := Fin.ofNat 10 t
    let s1 := s.inputSwap r
    if s.startReaches r then s1 else s1.count ttcEvtDropCnt
  | 2 =>
    if s.islandOn 17 && !s.fenced (27 + t / 32) then
      { s with psq := { s.psq with events := s.psq.events ++ [(Fin.ofNat 64 t, s.clk.tick)] } }
    else s.count ttcEvtDropCnt
  | _ =>
    if s.islandOn (if s.sliceBOf t then 2 else 1) && !s.portGated t && !s.fenced (10 + t) then
      s.gateListStart (Fin.ofNat 8 t)
    else s.count ttcEvtDropCnt

/-- Whether the pulse of some unit holds a trigger-output pin active (R82). -/
def State.pinActive (s : State) (m : Nat) : Bool :=
  ((List.range 24).map (Fin.ofNat 24)).any (fun n => s.ttuPinEn n && s.ttuPin n = m && s.ttu[n].pulse)

/-- Record the start or end of a pulse at its pin, if the pin's function is the trigger output; a SHADOW's pins are
high-impedance (Table FLT-5). -/
def State.pinEdge (s0 s : State) (m : Nat) : State :=
  if fieldOf (s.reg (psqMfp m)) 28 3 = 2 && s0.pinActive m ≠ s.pinActive m && !s.shadowed then
    s.emit (.trigger m (s.pinActive m))
  else s

/-- Whether a unit's firing tick has come (R77, R78). -/
def State.ttuDue (s : State) (n : Fin 24) : Bool :=
  s.ttu[n].armed && s.en .ttc &&
    (match s.ttu[n].late with
     | some t => decide (t ≤ s.clk.tick)
     | none => decide (s.ttuTime n ≤ dtNsTotal (s.time (s.ttuDom n))))

/-- What a firing leaves of the unit: its pulse, and TIME moved on or the unit disarmed (R79). -/
def State.ttuFired (s : State) (n : Fin 24) : State :=
  let u := s.ttu[n]
  let pin := s.ttuPinEn n
  let w := fieldOf (s.reg (ttuWidth n.val)) 0 24
  let u' : Ttu :=
    { armed := s.ttuPeriodic n
      pulse := u.pulse || pin
      late := none
      pulseLeft := if pin then w else u.pulseLeft }
  let s1 := s.setTtu n u'
  if s.ttuPeriodic n then
    let p := (s.reg (ttuPeriod n.val)).toNat
    let t := if u.late.isSome then nextPhase (s.ttuTime n) p (eightyNs (s.time (s.ttuDom n))) 1 else s.ttuTime n + p
    s1.setTtuTime n t
  else s1

/-- A unit fires at its firing tick. -/
def doTriggerFire (n : Fin 24) (s : State) : State :=
  if s.ttuDue n then
    let s1 := s.ttuFired n
    State.pinEdge s (s1.ttuEvent n) (s.ttuPin n)
  else s

/-- The meaning of TRIGGER_FIRE. -/
def execTriggerFire (n : Fin 24) (s : State) : Host.Outcome State Fault Refusal := commit s (doTriggerFire n s)

/-- A pulse that has completed its width ends. -/
def doTriggerPulseEnd (n : Fin 24) (s : State) : State :=
  if s.ttu[n].pulse && s.ttu[n].pulseLeft = 0 then
    State.pinEdge s (s.setTtu n { s.ttu[n] with pulse := false }) (s.ttuPin n)
  else s

/-- The meaning of TRIGGER_PULSE_END. -/
def execTriggerPulseEnd (n : Fin 24) (s : State) : Host.Outcome State Fault Refusal :=
  commit s (doTriggerPulseEnd n s)

/-! Captures (R83, R84, Table TTC-5). -/

/-- Whether a unit selects an edge: enabled, its pin, the edge, held for FILTER + 1 PCLK. -/
def State.tcuTakes (s : State) (n : Fin 16) (pin : Fin 96) (falling : Bool) (ago : Nat) : Bool :=
  let v := s.reg (tcuCfg n.val)
  s.en .ttc && bitOf v 31 && fieldOf v 0 7 = pin.val && (fieldOf v 24 2).testBit (b2n falling) &&
    decide (2 * (fieldOf v 16 4 + 1) ≤ ago)

/-- A unit takes an edge that crossed the ball `ago` ns before now. -/
def State.tcuCapture (s : State) (n : Fin 16) (falling : Bool) (ago : Nat) : State :=
  let u := s.tcu[n]
  let at_ := 2 * s.clk.tick - ago
  let near := match u.last with
    | some t => decide (at_ < t + 8)
    | none => false
  if u.fifo.length = 4 || near then s.count (tcuMissCnt n.val)
  else
    let d := Fin.ofNat 4 (fieldOf (s.reg (tcuCfg n.val)) 26 2)
    let t := dtAdd (s.time d) (-(4294967296 * (ago : Int)))
    let flags := w32 (2 ^ 31 + 2 ^ 30 * b2n falling + 2 ^ 29 * b2n (s.stampDeg d) + dtSec t / 4294967296)
    let c : Capture := ⟨w32 (dtNs t), w32 (dtSec t), flags⟩
    { s with tcu := vset s.tcu n ⟨u.fifo ++ [c], some at_⟩ }

/-- The outside drives a ball that the device does not drive. -/
def State.driveBall (s : State) (pin : Fin 96) (v : Bool) : State :=
  if (s.ownDrive pin.val).isSome then s
  else { s with mfpIn := setBit s.mfpIn pin.val v, mfpExt := setBit s.mfpExt pin.val true }

/-- An edge at a ball: `ago` ns ago it crossed, and the new level has held since (R83). An edge that the device does
not itself drive is the outside's. -/
def doCaptureEdge (pin : Fin 96) (falling : Bool) (ago : BitVec 16) (s : State) : State :=
  let s1 := s.driveBall pin (!falling)
  (List.range 16).foldl (fun t k =>
    let n := Fin.ofNat 16 k
    if t.tcuTakes n pin falling ago.toNat then t.tcuCapture n falling ago.toNat else t) s1

/-- The meaning of CAPTURE_EDGE. -/
def execCaptureEdge (pin : Fin 96) (falling : Bool) (ago : BitVec 16) (s : State) :
    Host.Outcome State Fault Refusal :=
  commit s (doCaptureEdge pin falling ago s)

/-- A read of TCUn_CAP_NS by a master. -/
def doCaptureRead (m : Master) (n : Fin 16) (s : State) : State :=
  s.guardedRead m (tcuCapNs n.val) fun s =>
    let r := s.captureRead (masterIdx m) n
    r.2.emit (.readData m (w32 (tcuCapNs n.val)) r.1)

/-- The meaning of CAPTURE_READ. -/
def execCaptureRead (m : Master) (n : Fin 16) (s : State) : Host.Outcome State Fault Refusal :=
  commit s (doCaptureRead m n s)

end Sys2Proof.Machine
end

