-- ==== Sys2Proof/Machine/Xpb.lean ====
section
/-! DEFINITION. The expansion port and the signal mapper (14): bridge requests, bus transactions, posted errors,
peer arbitration, polled lines, routes. Inbound transactions of the external host stand in Inbound.lean. -/

namespace Sys2Proof.Machine

/-- Replace the expansion port. -/
def State.setXpb (s : State) (x : XpbState) : State := { s with xpb := x }

/-- Whether the port may take part in transactions at all: enabled, with
requests queued, or in RECOVERY, its pins assigned, its domain and
island up; a SHADOW's outputs are high-impedance (R323, Tables FLT-1 and FLT-5). -/
def State.xpbLive (s : State) : Bool :=
  (s.en .xpb || s.xpb.queue ≠ [] || s.flt.recovery) && !s.pinsBad && !s.fenced 31 && s.islandOn 17 && !s.shadowed

/-- XP_IRQ_N is driven low (R327, R335, Table FLT-1). -/
def State.xpIrqLow (s : State) : Bool :=
  !s.fenced 31 && s.xpbRole ≠ 0 && (s.en .xpb || !s.quiesced .xpb || s.flt.recovery) &&
    decide (s.intSummary &&& s.reg xpbXirqEn ≠ 0)

/-! Posted errors (R329, R330). -/

/-- SRC and ID of a log entry (Table XPB-7); a request from an Ethernet port has no code: free values (log 23). -/
def xpbSrcId (f : Word) : XpbSrc → Nat × Nat
  | .host link c => (0, 2048 * b2n link + c % 256)
  | .role r => (1, r.val)
  | .farRead k => (2, k.val)
  | .farWrite k => (2, k.val)
  | .sup => (3, 0)
  | .port _ => (fieldOf f 0 4, fieldOf f 4 12)
  | .poll _ => (fieldOf f 0 4, fieldOf f 4 12)

/-- Enter a posted error; the index of its entry, or all ones where the log is full. -/
def State.pelLog (s : State) (status : Byte) (src id : Nat) (addr : Word) : Word × State :=
  let pi := fieldOf (s.reg xpbPelPi) 0 6
  let ci := fieldOf (s.reg xpbPelCi) 0 6
  if (pi + 64 - ci) % 64 = 32 then (0xFFFFFFFF#32, s.count xpbPelDropCnt)
  else
    let t := s.time 0
    let w0 := w32 (2 ^ 24 * status.toNat + 2 ^ 20 * (src % 16) + 256 * (id % 4096) + s.xpb.seq.toNat)
    let s1 := s.setTabs .xpb 0 (pi % 32 * 4) [w0, addr, w32 (dtNs t), w32 (dtSec t)]
    (w32 (pi % 32), (s1.setReg xpbPelPi (w32 ((pi + 1) % 64))).setXpb { s1.xpb with seq := s1.xpb.seq + 1 })

/-- A reply frame into LP20 (R328, Table XPB-4): to the requester, with its TAG and address; padded to 60 bytes. -/
def State.xpbReply (s : State) (q : XpbReq) (status : Byte) (data : List Word) : State :=
  let own := toBe 2 (fieldOf (s.reg xpbGwOwnHi) 0 16) ++ toBe 4 (s.reg xpbGwOwnLo).toNat
  let body := q.sa ++ own ++ toBe 2 (fieldOf (s.reg xpbGwEtype) 0 16) ++ [0x14#8, BitVec.ofNat 8 q.len] ++
    toBe 2 q.tag.toNat ++ toBe 4 q.addr.toNat ++ [0#8, 0, status, 0, 0, 0] ++ data.flatMap (fun w => toBe 4 w.toNat)
  s.toSwitch 20 ⟨padFrame body, none, false, ⟨.none, 0, 0, none, none, none⟩, .gateway⟩

/-- A posted write that fails is logged, and its originator notified (R329, R330). -/
def State.postedError (s : State) (q : XpbReq) (status : Byte) : State :=
  let f := s.draw
  let open_ := match q.src with | .port _ => true | _ => false
  let s0 := if open_ then f.2 else s
  let id := xpbSrcId f.1 q.src
  let r := s0.pelLog status id.1 id.2 q.addr
  match q.src with
  | .host link _ =>
    if q.notify.getLsbD 15 then
      let c : Fin 256 := Fin.ofNat 256 (fieldOf q.notify 0 8)
      if r.2.ctxLink c = link then r.2.hostEvent c 0x01 r.1 else r.2.count hifCqFullCnt
    else r.2
  | .role _ => r.2.xpbReply q status []
  | .sup => r.2.xpbReply q status []
  | _ => r.2

/-! Bridge requests (R328). -/

/-- The source of a frame by the logical port it entered at. -/
def frameSrc (st : Stored) : XpbSrc :=
  let n := st.ingress.val
  if n = 8 ∨ n = 9 then .host (n = 9) (match st.f.origin with | .host c _ => c | _ => 0)
  else if 10 ≤ n ∧ n < 20 then .role (Fin.ofNat 10 (n - 10))
  else if n = 21 then .sup
  else .port n

/-- OP of a request's KIND. -/
def kindOp : Nat → Option XpbOp
  | 1 => some .read
  | 2 => some .write
  | 3 => some .posted
  | _ => none

/-- A request frame read (Table XPB-4); none: malformed. -/
def bridgeReq (st : Stored) (bs : List Byte) : Option XpbReq :=
  let vk := (byteAt bs 14).toNat
  let len := (byteAt bs 15).toNat % 32
  match kindOp (vk % 16) with
  | none => none
  | some op =>
    let n := if op = .read then 0 else len
    if vk / 16 ≠ 1 || len = 0 || decide (16 < len) || decide (bs.length < 28 + 4 * n) then none
    else
      some
        { src := frameSrc st
          op := op
          addr := w32 (be32At bs 18)
          len := len
          data := (List.range n).map (fun k => w32 (be32At bs (28 + 4 * k)))
          tag := BitVec.ofNat 16 (be16At bs 16)
          sa := slice bs 6 6
          notify := BitVec.ofNat 16 (be16At bs 22) }

/-- A request that is not queued: a reply, or for a posted write the log (R328, R336). -/
def State.xpbRefuse (s : State) (q : XpbReq) (status logStatus : Byte) : State :=
  if q.op = .posted then s.postedError q logStatus else s.xpbReply q status []

/-- A request enters the queue, or is refused: FENCED, DISABLED in hold, RETRY or NO_BUFFER while 16 are queued. -/
def State.xpbQueue (s : State) (q : XpbReq) : State :=
  if s.fenced 31 then s.xpbRefuse q stFenced stFenced
  else if s.inHold .xpb then s.xpbRefuse q stDisabled stDisabled
  else if 16 ≤ s.xpb.queue.length then (s.count xpbQfullCnt).xpbRefuse q stRetry stNoBuffer
  else s.setXpb { s.xpb with queue := s.xpb.queue ++ [q] }

/-- Whether a frame is a bridge request's (R328). -/
def State.xpbTakes (s : State) (bs : List Byte) : Bool :=
  be16At bs 0 = fieldOf (s.reg xpbGwOwnHi) 0 16 && be32At bs 2 = (s.reg xpbGwOwnLo).toNat &&
  be16At bs 12 = fieldOf (s.reg xpbGwEtype) 0 16

/-- The head frame at LP20, if no CAN channel takes it, and is it a request of this kind: queued or refused. A frame
that is malformed, comes in another role, or is no request at all is dropped, counted (R268, R328). -/
def doBridge (op : XpbOp) (s : State) : State :=
  match s.lpHead 20 with
  | none => s
  | some q =>
    match s.storedOf q.fid with
    | none => s
    | some st =>
      let bs := s.gatewayBytes q st
      if s.gwTakes 0 bs || s.gwTakes 1 bs || s.gwTakes 2 bs || s.gwTakes 3 bs then s
      else
        let gone := s.leaveQueue q.lp q.fid (lastOf q st)
        if !s.xpbTakes bs || (s.xpbRole ≠ 2 && s.xpbRole ≠ 3) then gone.count xpbGwDropCnt
        else
          match bridgeReq st bs with
          | none => gone.count xpbGwDropCnt
          | some r => if r.op = op then gone.xpbQueue r else s

/-- The meaning of BRIDGE_READ. -/
def execBridgeRead (s : State) : Host.Outcome State Fault Refusal := commit s (doBridge .read s)

/-- The meaning of BRIDGE_WRITE_NP. -/
def execBridgeWriteNp (s : State) : Host.Outcome State Fault Refusal := commit s (doBridge .write s)

/-- The meaning of BRIDGE_WRITE_POSTED. -/
def execBridgeWritePosted (s : State) : Host.Outcome State Fault Refusal := commit s (doBridge .posted s)

/-! Transactions (R324, R325, R331). -/

/-- The RGX starts its head request: bridge-master or peer role, the bus idle and not granted away. -/
def doXpbTransactionStart (s : State) : State :=
  if !s.xpbLive || (s.xpbRole ≠ 2 && s.xpbRole ≠ 3) || s.xpb.busy || s.xpb.gnt then s
  else
    match s.xpb.queue with
    | [] => s
    | q :: _ => (s.setXpb { s.xpb with busy := true }).emit (.xpbBus q.op (q.addr &&& 0xFFFFFFFC#32) q.len q.data)

/-- The meaning of XPB_TRANSACTION_START. -/
def execXpbTransactionStart (s : State) : Host.Outcome State Fault Refusal := commit s (doXpbTransactionStart s)

/-- A route's last STATUS, and its ERR where that is not OK (Table SGM-2). -/
def State.routeStatus (s : State) (k : Nat) (status : Byte) : State :=
  let w := s.routeWord k 7
  let e := if status = stOk then fieldOf w 0 16 else (fieldOf w 0 16 + 1) % 65536
  let s1 := s.setTab .sgm 0 (k * 8 + 7) (w32 (2 ^ 24 * status.toNat + e))
  if status = stOk then s1 else s1.count sgmErrCnt

/-- Word w of a poll entry (Table XPB-8). -/
def State.pollWord (s : State) (i w : Nat) : Word := s.tab .xpb 1 (i * 8 + w)

/-- What the end of a transaction means to its originator: a reply; nothing for a posted write that stands; a
polled value; a word of a route's source (R328-R334). -/
def State.xpbFinish (s : State) (q : XpbReq) (status : Byte) (data : List Word) : State :=
  match q.src with
  | .poll i =>
    if status = stOk then
      let v := data.getD 0 0
      (s.setTab .xpb 1 (i.val * 8 + 5) v).setRegBit xpbPollAct i.val (decide (v &&& s.pollWord i.val 4 ≠ 0))
    else s
  | .farRead k =>
    let x := s.route k.val
    if status = stOk then s.setRoute k.val { x with part := x.part ++ [data.getD 0 0] }
    else s.setRoute k.val { x with part := [] }
  | .farWrite k =>
    if status = stOk then s.routeStatus k.val stOk else (s.postedError q status).routeStatus k.val status
  | _ =>
    if q.op = .posted then (if status = stOk then s else s.postedError q status)
    else s.xpbReply q status (if status = stOk && q.op = .read then data else [])

/-- The head request leaves the queue. -/
def State.xpbPop (s : State) : State := s.setXpb { s.xpb with busy := false, queue := s.xpb.queue.drop 1 }

/-- The STATUS beat of a far side as the RGX reports it: a code that R11 gives no bridge reply (0x10 to 0xFF, and
ABORT_LATE, issued in abort replies only) is a far-side error, BUS_ERROR (DEDUCED, log 23). -/
def farStatus (status : Byte) : Byte := if 0x0F < status ∨ status = stAbortLate then stBusError else status

/-- A transaction has ended: `status` and `data` as the far side drove them, `err` as XP_ERR was sampled at END of a
posted write. A STATUS other than OK counts; a refused posted write failed (R325). -/
def doXpbTransactionEnd (status : Byte) (data : List Word) (err : Bool) (s : State) : State :=
  match s.xpb.queue with
  | [] => s
  | q :: _ =>
    if !s.xpb.busy then s
    else
      let s1 := s.xpbPop.count xpbTxnCnt
      if q.op = .posted then s1.xpbFinish q (if err then stBusError else stOk) []
      else
        let s2 := if status = stOk then s1 else s1.count xpbErrrespCnt
        s2.xpbFinish q (farStatus status) ((List.range (if q.op = .read then q.len else 0)).map (fun k => data.getD k 0))

/-- The meaning of XPB_TRANSACTION_END. -/
def execXpbTransactionEnd (status : Byte) (data : List Word) (err : Bool) (s : State) :
    Host.Outcome State Fault Refusal :=
  commit s (doXpbTransactionEnd status data err s)

/-- XP_WAIT held too long, or a reserved OP as the CTRL of a response: the transaction ends with BUS_ERROR (R325). -/
def doXpbWaitTimeout (s : State) : State :=
  match s.xpb.queue with
  | [] => s
  | q :: _ => if s.xpb.busy then (s.xpbPop.count xpbTimeoutCnt).xpbFinish q stBusError [] else s

/-- The meaning of XPB_WAIT_TIMEOUT; `_reservedOp`: which of the two cases, both with one effect. -/
def execXpbWaitTimeout (_reservedOp : Bool) (s : State) : Host.Outcome State Fault Refusal :=
  commit s (doXpbWaitTimeout s)

/-- XP_REQ sampled high in peer role (R331): with the bus idle it is granted; at the end of the RGX's own CTRL clock
the transaction is voided, counted, its request kept at the head; in a later clock it waits for END. -/
def doXpbPeerRequest (ctrlEnd : Bool) (s : State) : State :=
  if !s.xpbLive || s.xpbRole ≠ 3 then s
  else if !s.xpb.busy then s.setXpb { s.xpb with gnt := true }
  else if ctrlEnd then (s.setXpb { s.xpb with busy := false, gnt := true }).count xpbBackoffCnt
  else s

/-- The meaning of XPB_PEER_REQUEST. -/
def execXpbPeerRequest (ctrlEnd : Bool) (s : State) : Host.Outcome State Fault Refusal :=
  commit s (doXpbPeerRequest ctrlEnd s)

/-- XP_REQ sampled low: XP_GNT falls (R331). -/
def doXpReqLow (s : State) : State := if s.xpbRole = 3 then s.setXpb { s.xpb with gnt := false } else s

/-- The meaning of XP_REQ_LOW. -/
def execXpReqLow (s : State) : Host.Outcome State Fault Refusal := commit s (doXpReqLow s)

/-- The expansion port is fenced: queued requests end FENCED, the expansion host's endpoint is reset (Table FLT-1). -/
def State.xpbFence (s : State) : State :=
  let qs := s.xpb.queue
  let s1 := s.setXpb { s.xpb with queue := [], busy := false, gnt := false }
  (qs.foldl (fun t q => t.xpbFinish q stFenced []) s1).resetEndpoint 0x50

/-- An enabled role or EN that ends the port's drive resets the endpoint where ROLE leaves host-slave or peer
(Table MBX-4). -/
def State.xpbRoleChange (s : State) (old new : Word) : State :=
  let was := fieldOf old 30 2
  if (was = 1 || was = 3) && fieldOf new 30 2 ≠ 1 && fieldOf new 30 2 ≠ 3 then s.resetEndpoint 0x50 else s

/-! Polled lines (R332). -/

/-- Whether an instant with T mod PERIOD = PHASE falls in this tick. -/
def State.instantNow (s : State) (period phase : Word) : Bool :=
  let t := dtNsTotal (s.time 0)
  decide (period ≠ 0) && decide (phase.toNat ≤ t) && decide ((t - phase.toNat) % period.toNat < 2)

/-- Whether a request of a source is still queued. -/
def State.xpbHas (s : State) (src : XpbSrc) : Bool := s.xpb.queue.any (fun q => q.src = src)

/-- Place one-word reads at the head of the queue, behind a transaction on the bus. -/
def State.xpbPush (s : State) (qs : List XpbReq) : State :=
  if s.xpb.busy then s.setXpb { s.xpb with queue := s.xpb.queue.take 1 ++ qs ++ s.xpb.queue.drop 1 }
  else s.setXpb { s.xpb with queue := qs ++ s.xpb.queue }

/-- A one-word read of a far address. -/
def farReadReq (src : XpbSrc) (addr : Word) : XpbReq := ⟨src, .read, addr, 1, [], 0, [], 0⟩

/-- A poll entry's sample instant. -/
def doXpbPoll (i : Fin 16) (s : State) : State :=
  let w0 := s.pollWord i.val 0
  if !bitOf w0 31 || !s.en .xpb || s.inHold .xpb || s.fenced 31 || !s.instantNow (s.pollWord i.val 1) (s.pollWord i.val 2) then s
  else if bitOf w0 30 then
    if s.xpbHas (.poll i) then s else s.xpbPush [farReadReq (.poll i) (s.pollWord i.val 3)]
  else s.setRegBit xpbPollAct i.val (s.ballLevel (fieldOf w0 0 7) != bitOf w0 29)

/-- The meaning of XPB_POLL. -/
def execXpbPoll (i : Fin 16) (s : State) : Host.Outcome State Fault Refusal := commit s (doXpbPoll i s)

/-! Routes (R333, R334). -/

/-- A word of the expansion register file. -/
def State.xrf (s : State) (i : Nat) : Word := s.tab .xpb 3 i

/-- Whether a route runs: valid, SGM enabled. -/
def State.routeRuns (s : State) (k : Nat) : Bool := s.en .sgm && bitOf (s.routeWord k 0) 31

/-- A complete source value replaces the held one; a value not delivered is overwritten, counted. -/
def State.routeTake (s : State) (k : Nat) (v : List Word) : State :=
  let x := s.route k
  let s1 := (s.setTab .sgm 0 (k * 8 + 5) (s.routeWord k 5 + 1)).setRoute k
    { x with held := v, fresh := true, due := false, part := [] }
  if x.fresh then (s1.setTab .sgm 0 (k * 8 + 6) (s1.routeWord k 6 + 1)).count sgmOvwCnt else s1

/-- At a far source's instant a read per word is placed (R333); skipped while the last are queued. -/
def doRouteFarPoll (k : Fin 1024) (s : State) : State :=
  if !s.routeRuns k.val || s.routeSrc k.val ≠ 1 || s.inHold .xpb || !s.en .xpb || s.fenced 31 ||
      !s.instantNow (s.routeWord k.val 3) (s.routeWord k.val 4) || s.xpbHas (.farRead k) then s
  else
    (s.setRoute k.val { s.route k.val with part := [] }).xpbPush
      ((List.range (s.routeLen k.val)).map (fun j => farReadReq (.farRead k) (s.routeWord k.val 1 + w32 (4 * j))))

/-- The meaning of ROUTE_FAR_POLL. -/
def execRouteFarPoll (k : Fin 1024) (s : State) : Host.Outcome State Fault Refusal := commit s (doRouteFarPoll k s)

/-- Words at a source's or destination's window entry: the role's engine and the staging address (Table SGM-1). -/
def State.routeStage (s : State) (a : Word) : Option (Fin 10 × Nat) :=
  (s.engOf (Fin.ofNat 10 (fieldOf a 16 4))).map (fun e => (e, s.fwuStage e (fieldOf a 8 6) + 4 * fieldOf a 0 8))

/-- A route takes an update of its source (Table SGM-1): words of a sequencer queue are removed as they come, a far
source is complete after its last read; XRF words, an object and a window as they stand. -/
def doRouteSourceUpdate (k : Fin 1024) (s : State) : State :=
  let a := s.routeWord k.val 1
  let n := s.routeLen k.val
  let x := s.route k.val
  if !s.routeRuns k.val then s
  else
    match s.routeSrc k.val with
    | 0 => if x.due then s.routeTake k.val ((List.range n).map (fun j => s.xrf (fieldOf a 0 12 + j))) else s
    | 1 => if x.part.length = n then s.routeTake k.val x.part else s
    | 2 =>
      if x.due then
        s.routeTake k.val ((List.range n).map (fun j =>
          s.tab (.can (Fin.ofNat 4 (fieldOf a 28 2))) 0 (fieldOf a 16 9 * 24 + 8 + fieldOf a 0 4 + j)))
      else s
    | 3 =>
      if x.due then
        match s.routeStage a with
        | some p =>
          match s.stagingRead p.1 p.2 (4 * n) with
          | some bs => s.routeTake k.val ((List.range n).map (fun j => le32At bs (4 * j)))
          | none => s
        | none => s
      else s
    | _ =>
      let c : Fin 64 := Fin.ofNat 64 (fieldOf a 0 6)
      let ch := s.psq.ch[c]
      let room := n - x.part.length
      let got := x.part ++ ch.rxq.take room
      let s1 := s.setCh c { ch with rxq := ch.rxq.drop room }
      if got.length = n ∧ n ≠ 0 then s1.routeTake k.val got else s1.setRoute k.val { x with part := got }

/-- The meaning of ROUTE_SOURCE_UPDATE. -/
def execRouteSourceUpdate (k : Fin 1024) (s : State) : Host.Outcome State Fault Refusal :=
  commit s (doRouteSourceUpdate k s)

/-- What a destination does with a held value: taken, refused with a status, or not yet free. -/
inductive RouteDst where
  | made (s : State)
  | refused (status : Byte)
  | waits

/-- Store words from a place of a table on. -/
def State.routeWrite (s : State) (b : Blk) (space word : Nat) (v : List Word) : State := s.setTabs b space word v

/-- The destination of a route (Table SGM-1, R334). -/
def State.routeDest (s : State) (k : Fin 1024) (v : List Word) : RouteDst :=
  let a := s.routeWord k.val 2
  match s.routeDst k.val with
  | 0 => .made (s.routeWrite .xpb 3 (fieldOf a 0 12) v)
  | 1 =>
    if s.fenced 31 then .refused stFenced
    else if s.xpbHas (.farWrite k) || (!s.inHold .xpb && decide (16 ≤ s.xpb.queue.length)) then .waits
    else
      let q : XpbReq := ⟨.farWrite k, .posted, a, v.length, v, 0, [], 0⟩
      if s.inHold .xpb then .made (s.xpbFinish q stDisabled [])
      else .made (s.setXpb { s.xpb with queue := s.xpb.queue ++ [q] })
  | 2 =>
    let n : Fin 4 := Fin.ofNat 4 (fieldOf a 28 2)
    if s.fenced (23 + n.val) then .refused stFenced
    else if !s.islandOn 18 then .refused stIslandOff
    else
      let b := fieldOf a 16 6
      let s1 := s.routeWrite (.can n) 1 (b * 20 + 4 + fieldOf a 0 4) v
      .made (s1.setTab (.can n) 1 (b * 20 + 1) (setBit (s1.tab (.can n) 1 (b * 20 + 1)) 8 true))
  | 3 =>
    match s.routeStage a with
    | none => .refused stBusError
    | some p =>
      if s.fenced p.1.val then .refused stFenced
      else if !s.islandOn (3 + p.1.val) then .refused stIslandOff
      else .made (s.stagingWrite p.1 p.2 (v.flatMap leBytes))
  | _ =>
    let c : Fin 64 := Fin.ofNat 64 (fieldOf a 0 6)
    if s.fenced (27 + c.val / 32) then .refused stFenced
    else if s.txCap c < s.psq.ch[c].txq.length + v.length then .waits
    else .made (s.setCh c { s.psq.ch[c] with txq := s.psq.ch[c].txq ++ v })

/-- A route delivers its held value: once, with STATUS OK; a refused one stays held, counted (R333, R334). A far
write's STATUS is that of its end. No delivery starts in hold (R336). -/
def doRouteDelivery (k : Fin 1024) (s : State) : State :=
  let x := s.route k.val
  if !s.routeRuns k.val || s.inHold .sgm || !x.fresh then s
  else
    match s.routeDest k x.held with
    | .waits => s
    | .refused st => s.routeStatus k.val st
    | .made t =>
      let t1 := t.setRoute k.val { t.route k.val with fresh := false }
      if s.routeDst k.val = 1 then t1 else t1.routeStatus k.val stOk

/-- The meaning of ROUTE_DELIVERY. -/
def execRouteDelivery (k : Fin 1024) (s : State) : Host.Outcome State Fault Refusal := commit s (doRouteDelivery k s)

end Sys2Proof.Machine
end

