-- ==== Sys2Proof/Machine/Start.lean ====
section
/-! DEFINITION. Starts of the device (17, R415-R418): cold, warm in place, warm from P2; failed starts and RECOVERY;
standby and power off (16, R391-R394); the supervisor's restart (R401). A start's steps 1-8 stand in one command;
`starting` holds from it to START_DONE (log 27). -/

namespace Sys2Proof.Machine

/-! What starts share. -/

/-- The FAIL message of a paired device at entry to a start, P2, P3 or RECOVERY (R413; DEDUCED from Table FLT-6
step 2 also of a SHADOW, log 32): it has no partner then, and pairs anew. -/
def State.twinFail (s : State) : State :=
  let s1 := if s.flt.twin = .paired then s.emit (.twin 0 []) else s
  if s.flt.twin = .off then s1 else { s1 with flt := { s1.flt with twin := .down, handover := none } }

/-- The alignment step calibrates an island's ring oscillator (R24, R452, Table CLK-8): TRIM, and RATIO within its
range, are open values. -/
def State.calibrate (s : State) (i : Nat) : State :=
  let d := s.draw
  d.2.setTab .clk 0 i (w32 (2 ^ 31 + 65536 * fieldOf d.1 0 10 + 993 + fieldOf d.1 10 22 % 21))

/-- The same for every island of a mask. -/
def State.calibrateMask (s : State) (m : BitVec 19) : State :=
  (List.range 19).foldl (fun t i => if m.getLsbD i then t.calibrate i else t) s

/-- The words by which SEC space 0 shows a public key: X, then Y (R395). -/
def keyWords (k : BitVec 384 × BitVec 384) : List Word :=
  beWords (toBe 48 k.1.toNat) 12 ++ beWords (toBe 48 k.2.toNat) 12

/-- Step 2 of a start: lifecycle, EUI-64 and public keys from the fuses. -/
def State.loadFuses (s : State) : State :=
  let x := s.sec
  let s1 := (s.setReg glbEui64Lo (x.eui.extractLsb' 0 32)).setReg glbEui64Hi (x.eui.extractLsb' 32 32)
  ((s1.setRegField glbLifecycle 0 2 x.lifecycle.toNat).setTabs .sec 0 0 (keyWords x.ident.pub)).setTabs .sec 0 24
    (keyWords x.agree.pub)

/-- The fuses and private memories, with nothing that the supervisor holds. -/
def fusedSec (x : SecState) : SecState :=
  { SecState.reset with
    lifecycle := x.lifecycle
    eui := x.eui
    slots := x.slots.map (fun o => { o with key := none })
    rollback := x.rollback
    vendorHash := x.vendorHash
    ident := x.ident
    agree := x.agree
    ram := x.ram
    retention := x.retention }

/-- Registers taken over from an earlier state. -/
def State.keepRegs (s old : State) (l : List Nat) : State := l.foldl (fun t a => t.setReg a (old.reg a)) s

/-- The device with every register, table and memory at reset, in a power state: kept are the commands waiting, the
record of outputs, the levels at the balls, the fuses, the counts of failed starts and the cause of the last wake. -/
def State.fresh (s : State) (p : Power) : State :=
  let t : State := { State.reset with
    pending := s.pending
    power := p
    mfpIn := s.mfpIn
    mfpExt := s.mfpExt
    clk := { ClkState.reset with tick := s.clk.tick }
    sec := fusedSec s.sec
    free := s.free
    out := s.out }
  t.keepRegs s [glbFailedStart, clkWakeCause]

/-- The clocks as step 3 of a start leaves them (R21, R22): PLLs locked in their reset roles, the islands of `isl`
powered and aligned, CLK enabled by the supervisor. -/
def State.clocksUp (s : State) (isl : Word) : State :=
  let s1 := (((s.setReg clkPllStatus 0x531#32).setReg clkIslOn isl).setRegBit (blkBase .clk) 0 true).setHold .clk false
  { s1 with clk := { s1.clk with aligned := true } }

/-- The islands that a start powers (log 27): all but the engines, which stay OFF until START_DONE (R120). -/
def startIslands : Word := 0x0007E007#32

/-! Cold starts (Table FLT-7). -/

/-- A cold start up to its count and record: with `straps`, from POR_N, where REF_SEL and PCIE_BIF are sampled (R19) and
the voltages of the I/O banks sensed (R441).
The alignment step calibrates the islands of `cal`; another island keeps its calibration word (R452). DESIGN CHOICE
(log 38): the manual does not say when CLK_REF_STATUS.REF_OK reads 1; the model sets it as POR_N rises, and it never
falls while the device runs. -/
def State.coldBase (s : State) (straps : Option (Bool × Bool × BitVec 6)) (isl cal : Word) : State :=
  let s1 := s.twinFail
  let s2 := ((s1.fresh .run).setTabs .clk 0 0 (s.tabWords .clk 0 0 19)).loadFuses.clocksUp isl
  let s3 := match straps with
    | some (ref, wide, iobank) =>
      ((s2.setReg clkRefStatus (w32 (2 * b2n ref + 1))).setReg hifLinkStatus (w32 (2 ^ 31 * b2n wide))).setReg psqIobank
        (iobank.setWidth 32)
    | none => ((s2.setReg psqIobank (s.reg psqIobank)).setReg clkRefStatus (s.reg clkRefStatus)).setReg hifLinkStatus (s.reg hifLinkStatus &&& 0x80000000#32)
  let s4 := s3.setReg glbColdStartCnt (match straps with | some _ => 0 | none => s.reg glbColdStartCnt)
  { s4.calibrateMask (cal.setWidth 19) with
    flt := { FltState.reset with
      startDoneSeen := straps.isNone && s.flt.startDoneSeen
      rotDue := s.clk.tick + FltState.reset.rotDue } }

/-- A cold start (R415, R416). Every island is aligned and calibrated in step 3, the engines' too, which step 4 tests and
which are gated after it (log 27). -/
def State.coldStart (s : State) (straps : Option (Bool × Bool × BitVec 6)) : State :=
  let s1 := (s.coldBase straps startIslands 0x7FFFF).count glbColdStartCnt
  ({ s1 with flt := { s1.flt with starting := some .cold } } : State).emit (.start 0)

/-- The islands that RECOVERY powers: Fabric, Supervisor, Sequencer (R418). -/
def recoveryIslands : Word := 0x00032000#32

/-- RECOVERY (R418): the supervisor runs ROM, the expansion port is a host slave, the count of failed cold starts
reads 0. -/
def State.enterRecovery (s : State) : State :=
  let s1 := (s.coldBase none recoveryIslands recoveryIslands).setReg glbLastStart 2
  let s2 := s1.setRegField glbFailedStart 4 2 0
  { s2 with flt := { s2.flt with recovery := true } }

/-! The supervisor's restart (R401). -/

/-- The length in bytes of an image's body. -/
def storeLen (g : Image) : Nat := g.imgLen * (if g.kind = 2 then 4 else 16)

/-- The body in an image store; a body longer than a bank goes on in a second one (log 24). -/
def State.storeBytes (s : State) (g : Image) : List Byte :=
  let n := storeLen g
  s.bankRead g.bank.val 0 (min n 131072) ++
    (match g.more with
      | some b => s.bankRead b.val 0 (n - 131072)
      | none => [])

/-- Step 2 of R401: the store's digest is the measured one, and the list is not marked. -/
def State.firmwareOk (s : State) (g : Image) : Bool := sha384 (s.storeBytes g) = g.digest && !s.sec.tamper

/-- The core pair restarts from ROM (R401): its endpoint is reset, replies not yet posted are gone, and the firmware
named by SUP_UPDATE, else the one that ran, starts if ROM finds it as measured, and its first command ends the
fence; otherwise ROM serves commands, and the fence ends here. -/
def State.restartSup (s : State) : State :=
  let s1 := s.resetEndpoint 0x30
  let next := match s.sec.supNext with
    | some h => some h
    | none => s.sec.supRunning
  let run := match next.bind s1.imageOf with
    | some g => if s1.firmwareOk g then some g.handle else none
    | none => none
  let s2 := s1.modSec (fun x => { x with
    supRunning := run
    supNext := none
    romServes := next.isSome && run.isNone
    restarted := s1.fenced 36 && run.isSome
    replies := [] })
  if s2.fenced 36 && run.isNone then s2.fltLeave 36 else s2

/-! Instances and images. -/

/-- An engine without its instance: idle, EN = 0 and in hold (log 28). -/
def State.releaseEngine (s : State) (e : Fin 10) (st : EngSt) : State :=
  let x := s.eng[e]
  ((s.setEng e { stoppedEngine x st with flight := [] }).setRegBit (blkBase (.pec e)) 0 false).setHold (.pec e) true

/-- The instance of a role is removed: its engine returns to SPARE unless fenced, and its endpoint is reset. -/
def State.unbindRole (s : State) (r : Fin 10) : State :=
  match s.insts[r] with
  | none => s
  | some i =>
    let s1 := (s.setInst r none).resetRole r
    let s2 : State := match s1.rotation with
      | some q => if q.role = r then { s1 with rotation := none } else s1
      | none => s1
    match i.engine with
    | none => s2
    | some e => s2.releaseEngine e (if s2.eng[e].st = .fenced then .fenced else .spare)

/-- An image store is freed: its banks read NONE (R353). -/
def State.freeStore (s : State) (g : Image) : State :=
  let s1 := s.writeNone g.bank.val false
  match g.more with
  | some b => s1.writeNone b.val false
  | none => s1

/-- An image is dropped with its store. -/
def State.dropImage (s : State) (g : Image) : State :=
  let s1 := (s.freeStore g).modSec (fun x => { x with
    meas := x.meas.filter (fun m => m.handle ≠ some g.handle)
    supRunning := if x.supRunning = some g.handle then none else x.supRunning
    supNext := if x.supNext = some g.handle then none else x.supNext })
  { s1 with images := s1.images.filter (fun h => h.handle ≠ g.handle) }

/-- Step 6 with TAMPER_SEEN = 1: stores and admissions are dropped. -/
def State.dropAll (s : State) : State :=
  let s1 := (List.range 10).foldl (fun t r => t.unbindRole (Fin.ofNat 10 r)) s
  (s1.images.foldl (fun t g => t.dropImage g) s1).modSec (fun x => { x with meas := [] })

/-- An admitted instance resumes from its last committed checkpoint, its service context cleared as in R160; a pending
update is loaded and swapped again (R416, R166). -/
def State.resumeInst (s : State) (r : Fin 10) : State :=
  match s.insts[r] with
  | none => s
  | some i =>
    match i.engine with
    | none => s
    | some e =>
      if s.eng[e].st ≠ .active && s.eng[e].st ≠ .debug then s
      else
        let x : Engine := { freshEngine s.eng[e] s.eng[e] r (s.roleMail r) with
          takeover := .started
          svcOwed := true
          imgDone := true }
        let s1 := (s.setEng e x).modInst r (fun j => { j with gate := false, due := false })
        let s2 := (s1.loadRole e r).restoreCkpt e r
        match i.update.bind s2.imageOf with
        | some g => (s2.loadWhole e (!s2.eng[e].bank) g).swapImem e
        | none => s2

/-- An engine that holds no instance goes to OFF with its island gated; a fenced one stays fenced (R120). -/
def State.parkEngine (s : State) (e : Fin 10) : State :=
  match s.eng[e].st with
  | .active => s
  | .debug => s
  | _ =>
    if s.fenced e.val then s.setEng e { s.eng[e] with st := .fenced }
    else (s.releaseEngine e .off).islandDown (3 + e.val)

/-! Warm starts (Table FLT-7). -/

/-- Frames in flight are discarded: in the switch, at the MACs, at the host interface. -/
def State.discardFrames (s : State) : State :=
  let s1 := (List.range 8).foldl (fun t k =>
    let n := Fin.ofNat 8 k
    let u := t.endTx n false true true
    u.setEth n { u.eth[n] with
      paused := 0
      pauseQ := Vector.replicate 8 0
      xoff := 0
      pfcPend := 0
      mdio := ⟨false, false, 0⟩ }) s
  s1.setSwc { s1.swc with ingress := [], stored := [], queues := [] }

/-- Host contexts read OFF. -/
def State.contextsOff (s : State) : State :=
  let s1 := (List.range 256).foldl (fun t k =>
    let c := Fin.ofNat 256 k
    if t.ctxState c = 0 then t else t.setCtxState c 0) s
  { s1 with hif := { s1.hif with ctx := [], reads := [] } }

/-- Rings listen again, CAN channels integrate again with no attempt left (log 27). -/
def State.rejoin (s : State) : State :=
  let ring : State → Fin 2 → State := fun t r => if t.ring[r].nst = .disabled then t else t.ringStart r
  (List.range 4).foldl (fun t k =>
    let n := Fin.ofNat 4 k
    let u := t.canJoin n
    u.setCan n { u.can[n] with tries := [], sending := none, foreign := false }) (ring (ring s 0) 1)

/-- Sequencer channels stop, and events not yet latched are gone (log 27). -/
def State.stopChannels (s : State) : State :=
  let s1 := (List.range 64).foldl (fun t k => t.chStop (Fin.ofNat 64 k)) s
  { s1 with psq := { s1.psq with swap := 0, events := [] } }

/-- The degraded islands of a driven group are re-aligned and calibrated (R22); the Port island's reload follows. -/
def State.realignDegraded (s : State) : State :=
  let driven := (if s.groupDriven 0 then groupMask 0 else 0) ||| (if s.groupDriven 1 then groupMask 1 else 0)
  let m := (s.reg clkDegraded).setWidth 19 &&& driven
  if m = 0 then s
  else
    let s1 : State := { s.refEdge with clk := { s.refEdge.clk with realign := m } }
    let s2 := s1.realignIslands.calibrateMask m
    if m.getLsbD 0 then s2.reloadAll else s2

/-- A warm start in place (R415, R416). -/
def State.warmStart (s : State) : State :=
  let s1 := s.twinFail.endDebug
  let s2 := (doSkimmerWindowEnd s1.discardFrames.contextsOff.rejoin.stopChannels).realignDegraded
  let s3 : State := { s2 with
    xpb := { s2.xpb with queue := [], busy := false, gnt := false }
    sgm := SgmState.reset
    rotation := none
    flt := { s2.flt with testing := s2.flt.testing &&& ~~~(0x3FF#37), starting := some .warm, handover := none } }
  let tamper := s3.sec.tamper
  let s4 := (if tamper then s3.dropAll else s3).restartSup
  let s5 := (List.range 10).foldl (fun t r => t.resumeInst (Fin.ofNat 10 r)) s4
  let s6 := (List.range 10).foldl (fun t e => t.parkEngine (Fin.ofNat 10 e)) s5
  let s7 := s6.modSec (fun x => { x with nonces := Vector.replicate 4 none, dbgTok := none, reused := !tamper })
  ((s7.setReg glbLastStart 1).count glbWarmStartCnt).emit (.start 1)

/-! P2 and P3 (R392-R394). -/

/-- Registers that the always-on island holds in P2, and the words of starts and fuses. -/
def p2Regs : List Nat :=
  [glbEui64Lo, glbEui64Hi, glbLifecycle, glbLastStart, glbColdStartCnt, glbWarmStartCnt, clkRefStatus, clkWakeCfg,
    clkWakeNs, clkWakeSecLo, clkWakeSecHi, blkBase .dtm] ++
  (List.range 4).flatMap (fun d => [dtmDIncFrac d, dtmDIncNs d, dtmDSyntFofs d])

/-- Whether a word of an indirect space survives P2: the calibration words, the repair records, the public keys. -/
def p2Tab (k : Nat) : Bool :=
  let us := k / 2 ^ 24
  decide (us = 128 * blkIdx .clk) || decide (us = 128 * blkIdx .mem) || decide (us = 128 * blkIdx .sec)

/-- Retention SRAM in P2: measurement list, loaded owner keys, CAKs, the mark of R383. -/
def retained (x : SecState) : SecState :=
  { fusedSec x with
    slots := x.slots
    caks := x.caks
    meas := x.meas.map (fun m => { m with handle := none })
    tamper := x.tamper
    armed := x.armed
    ram := [] }

/-- Entry to P2 (R392): blocks are stopped, the debug session ends, and every island but always-on is off. -/
def State.enterP2 (s : State) : State :=
  let s1 := s.twinFail.endDebug
  let t := s1.fresh .p2
  let s2 := (({ t with
    clk := { t.clk with refPhase := s1.clk.refPhase }
    dom := s1.dom.map (fun x => { x with adj := 0, req := .none, syntEn := false, holdover := false })
    tabs := s1.tabs.filter (fun e => p2Tab e.1)
    sec := retained s1.sec
    flt := { FltState.reset with startDoneSeen := s1.flt.startDoneSeen } } : State).keepRegs s1 p2Regs).setReg clkP2Cnt
      (s1.reg clkP2Cnt + 1)
  (s2.setRegField glbLifecycle 8 2 0).setReg hifLinkStatus (s1.reg hifLinkStatus &&& 0x80000000#32)

/-- Entry to P3 (R394): the session keys are zeroized, and every island stays off until POR_N. -/
def State.enterP3 (s : State) : State := s.twinFail.endDebug.zeroSession.fresh .p3

/-- A wake source is enabled (R393). -/
def State.wakeEnabled (s : State) : Bool := s.reg clkWakeCfg &&& 3 ≠ 0

/-- The wake time has been reached by the standby copy of D0 (R393). -/
def State.wakeTimeDue (s : State) : Bool :=
  let t := s.dom[(0 : Fin 4)].standby
  let wake := (2 ^ 32 * fieldOf (s.reg clkWakeSecHi) 0 16 + (s.reg clkWakeSecLo).toNat) * 1000000000 +
    (s.reg clkWakeNs).toNat
  decide (wake ≤ dtNsTotal t)

/-- A warm start from P2 (R393, R416): the log is clear, every domain is reloaded from its standby copy. -/
def State.warmFromP2 (s : State) (cause : Word) : State :=
  let s1 : State := { s.clocksUp startIslands with power := .run }
  let s2 := (s1.calibrateMask (startIslands.setWidth 19)).refEdge.reloadAll
  let s3 := ((s2.setReg clkWakeCause cause).setReg glbLastStart 1).count glbWarmStartCnt
  ((({ s3 with flt := { s3.flt with starting := some .warmP2 } } : State).rotAgain).modSec (fun x =>
    { x with reused := !x.tamper })).emit (.start 2)

/-- The device held in reset by POR_N or a supply (R440); out of P2 the wake cause is POR_N (R393). -/
def State.holdReset (s : State) : State :=
  let s1 := if s.power = .p2 then s.setReg clkWakeCause 8 else s
  s1.fresh .held

/-- An exit from P2. -/
def doP2Exit (why : WakeCause) (s : State) : State :=
  if s.power ≠ .p2 then s
  else match why with
    | .wakeN => if bitOf (s.reg clkWakeCfg) 1 then s.warmFromP2 1 else s
    | .timer => if bitOf (s.reg clkWakeCfg) 0 && s.wakeTimeDue then s.warmFromP2 2 else s
    | .warmN => s.warmFromP2 4
    | .porN => s.holdReset

/-- The meaning of P2_EXIT. -/
def execP2Exit (why : WakeCause) (s : State) : Host.Outcome State Fault Refusal := commit s (doP2Exit why s)

/-! Commands of starts. -/

/-- POR_N rises: a cold start with the straps sampled and PSQ_IOBANK sensed. -/
def doPorNRise (refSel pcieBif : Bool) (iobank : BitVec 6) (s : State) : State :=
  if s.power = .held then s.coldStart (some (refSel, pcieBif, iobank)) else s

/-- The meaning of POR_N_RISE. -/
def execPorNRise (refSel pcieBif : Bool) (s : State) (iobank : BitVec 6 := 0) : Host.Outcome State Fault Refusal :=
  commit s (doPorNRise refSel pcieBif iobank s)

/-- The meaning of POR_N_ASSERT. -/
def execPorNAssert (s : State) : Host.Outcome State Fault Refusal := commit s s.holdReset

/-- A warm start of the running device; in RECOVERY only a cold start is an exit (R418). -/
def State.warmIfRunning (s : State) : State :=
  if s.power = .run && !s.flt.recovery then s.warmStart else s

/-- WARM_N held low: a warm start in place, or the end of P2. -/
def doWarmNAssert (s : State) : State := if s.power = .p2 then doP2Exit .warmN s else s.warmIfRunning

/-- The meaning of WARM_N_ASSERT. -/
def execWarmNAssert (s : State) : Host.Outcome State Fault Refusal := commit s (doWarmNAssert s)

/-- The meaning of GLB_RESET_COLD; COLD wins over WARM (R55). -/
def execGlbResetCold (m : Master) (s : State) : Host.Outcome State Fault Refusal :=
  commit s (s.guarded m glbResetCmd fun s => s.coldStart none)

/-- The meaning of GLB_RESET_WARM. -/
def execGlbResetWarm (m : Master) (s : State) : Host.Outcome State Fault Refusal :=
  commit s (s.guarded m glbResetCmd fun s => s.warmIfRunning)

/-- START_DONE (R417): the count of the start's kind is cleared, a cold start clears both; engines in OFF join the
spares, their islands powered; the tamper monitors watch on. With no start in progress nothing changes. -/
def State.startDone (s : State) : State :=
  match s.flt.starting with
  | none => s
  | some k =>
    let s1 := if k = .cold then s.setReg glbFailedStart 0 else s.setRegField glbFailedStart 0 2 0
    let s2 := (List.range 10).foldl (fun t i =>
      let e := Fin.ofNat 10 i
      if t.eng[e].st = .off then (t.setEng e { t.eng[e] with st := .spare }).islandUp (3 + i) else t) s1
    ({ s2 with flt := { s2.flt with starting := none, startDoneSeen := true } } : State).modSec (fun x =>
      { x with armed := true })

/-- The meaning of START_DONE. -/
def execStartDone (m : Master) (s : State) : Host.Outcome State Fault Refusal :=
  commit s (s.guarded m fltCmd fun s => (s.setRegField fltCmd 16 8 0).startDone)

/-- INFO8 of a START_FAIL entry (Table FLT-2). -/
def failInfo : StartFailCause → Byte
  | .limit => 0
  | .bist => 1
  | .supFirmware => 2

/-- The START_FAIL entry, written by the start that follows the failed one (R404). -/
def State.logStartFail (s : State) (why : StartFailCause) (kind : Nat) : State :=
  s.fltLog 0x45 0x0E .noted (failInfo why) kind

/-- A start fails (R415, R417, R418): its count rises, saturating at 3; a warm start follows a failed warm one, the
third a cold one; a cold start follows a failed cold one, the third RECOVERY. -/
def doStartFail (why : StartFailCause) (s : State) : State :=
  match s.flt.starting with
  | none => s
  | some .cold =>
    let n := min 3 (fieldOf (s.reg glbFailedStart) 4 2 + 1)
    let s1 := s.setRegField glbFailedStart 4 2 n
    (if n = 3 then s1.enterRecovery else s1.coldStart none).logStartFail why 0
  | some _ =>
    let n := min 3 (fieldOf (s.reg glbFailedStart) 0 2 + 1)
    let s1 := s.setRegField glbFailedStart 0 2 n
    (if n = 3 then s1.coldStart none else s1.warmStart).logStartFail why 1

/-- The meaning of START_FAIL. -/
def execStartFail (why : StartFailCause) (s : State) : Host.Outcome State Fault Refusal := commit s (doStartFail why s)

end Sys2Proof.Machine
end

