-- ==== Sys2Proof/Machine/Sup.lean ====
section
/-! DEFINITION. The supervisor's commands by mailbox (16, R378, Table SEC-6): taking a request and replying, packages
(R148, R149, R375), admission and update (07, R152, R153, R165), sequencer programs and firmware (R377), identity,
attestation (R379), power, ring keys. -/

namespace Sys2Proof.Machine

/-! Taking a command and replying. -/

/-- The command and reply mailboxes of a box: MB0/MB1 host link H0, MB2/MB3 link H1, MB4/MB5 the expansion host. -/
def cmdBox (box : Fin 3) : Fin 64 := Fin.ofNat 64 (2 * box.val)
def replyBox (box : Fin 3) : Fin 64 := Fin.ofNat 64 (2 * box.val + 1)

/-- What the supervisor does once its reply is sent. -/
inductive SupAfter where
  | none | cold | p2 | p3
deriving DecidableEq, Repr

/-- The answer to a command: STATUS, reply words from W1, the state it leaves, what follows the reply. -/
structure SupRes where
  status : Byte
  words : List Word
  st : State
  after : SupAfter

/-- A refusal: nothing changes. -/
def supFail (s : State) (status : Byte) : SupRes := ⟨status, [], s, .none⟩

/-- OK with no words. -/
def supOk (s : State) : SupRes := ⟨stOk, [], s, .none⟩

/-- A request waits in a box. -/
def State.boxWaits (s : State) (box : Fin 3) : Bool :=
  s.mbxFullOf (cmdBox box) && s.isReceiver (.bus .sup) (cmdBox box)

/-- The box served next: ascending, after the one last served; in RECOVERY only the expansion host's (R378, R418). -/
def State.nextBox (s : State) : Option (Fin 3) :=
  [s.sec.lastBox + 1, s.sec.lastBox + 2, s.sec.lastBox].find? (fun b => s.boxWaits b && (!s.flt.recovery || b = 2))

/-- The supervisor serves: the device runs, and its domain is not fenced, or has restarted and awaits its first
command (R397, R401). -/
def State.supServes (s : State) : Bool := s.power = .run && (!s.fenced 36 || s.sec.restarted)

/-- W0 of the request in a box, and word k of its table, in W(k + 1). -/
def State.reqW0 (s : State) (box : Fin 3) : Word := s.mbxWord (cmdBox box) 0
def State.reqWord (s : State) (box : Fin 3) (k : Nat) : Word := s.mbxWord (cmdBox box) k

/-- OP of the request in a box. -/
def State.reqOp (s : State) (box : Fin 3) : Nat := fieldOf (s.reqW0 box) 24 8

/-- Write a reply and post it; words not given read 0. Where the supervisor is not the mailbox's sender the reply is
lost (log 30). -/
def State.postReply (s : State) (box : Fin 3) (ws : List Word) : State :=
  (List.range 16).foldl (fun t w => (t.mbxWrite (.bus .sup) (replyBox box) w (ws.getD w 0)).2) s

/-- Replies in order wait while their mailbox is FULL. -/
def State.reply (s : State) (box : Fin 3) (ws : List Word) : State :=
  if s.mbxFullOf (replyBox box) then s.modSec (fun x => { x with replies := x.replies ++ [(box, ws)] })
  else s.postReply box ws

/-- A waiting reply whose mailbox is free is sent. -/
def State.flushReplies (s : State) : State :=
  match s.sec.replies with
  | [] => s
  | (box, ws) :: r =>
    if s.mbxFullOf (replyBox box) then s
    else (s.modSec (fun x => { x with replies := r })).postReply box ws

/-- A request is taken: the mailbox is free, and a restarted supervisor leaves its fence with its first command
(R401). -/
def State.takeRequest (s : State) (box : Fin 3) : State :=
  let s1 := (s.mbxRead (.bus .sup) (cmdBox box) 15).2
  let s2 := s1.modSec (fun x => { x with lastBox := box, restarted := false })
  if s2.fenced 36 then s2.fltLeave 36 else s2

/-- The commands that ROM accepts in RECOVERY, and in place of a firmware it did not start (R401, R418). -/
def romAccepts (op : Nat) : Bool := [0x01, 0x07, 0x10, 0x11, 0x12, 0x13].contains op

/-- Whether ROM alone serves. -/
def State.romOnly (s : State) : Bool := s.flt.recovery || s.sec.romServes

/-- What follows a reply. -/
def State.afterReply (s : State) : SupAfter → State
  | .none => s
  | .cold => s.coldStart none
  | .p2 => s.enterP2
  | .p3 => s.enterP3

/-- The command in a box is served by `f`, if it is the one due and `due` holds of it. -/
def State.serve (s : State) (box : Fin 3) (due : State → Bool) (f : State → SupRes) : State :=
  if !(s.supServes && s.nextBox = some box && due s) then s
  else
    let w0 := s.reqW0 box
    let t := s.takeRequest box
    let r := if s.romOnly && !romAccepts (s.reqOp box) then supFail t stPolicy else f t
    let u := r.st.reply box ((w0 &&& 0xFFFF0000#32 ||| r.status.setWidth 32) :: r.words)
    u.afterReply r.after

/-- The same, by OP. -/
def State.serveOp (s : State) (box : Fin 3) (op : Nat) (f : State → SupRes) : State :=
  s.serve box (fun t => t.reqOp box = op) f

/-! What the supervisor reads (R378). -/

/-- n bytes of a general bank from offset 0, as a bank access of the supervisor: none unless it owns the bank
(R351). -/
def State.supBankRead (s : State) (b n : Nat) : Option (List Byte) × State :=
  if 96 ≤ b ∨ bankSize b < n then (none, s)
  else if s.owns .sup b then (some (s.ownerRead b 0 n 100), s)
  else (none, s.nonOwner .sup b)

/-- n bytes at the address of a request: host memory, as the read returned it, or the bank that the expansion host's
request names. -/
def State.supRead (s : State) (box : Fin 3) (bank : Bool) (lo : Word) (data : Option (List Byte)) (n : Nat) :
    Option (List Byte) × State :=
  if bank then s.supBankRead (fieldOf lo 0 7) n
  else if box = 2 then (none, s)
  else match data with
    | some bs => if n ≤ bs.length then (some (bs.take n), s) else (none, s)
    | none => (none, s)

/-! Packages (R148, Tables PEC-24, PEC-25, SEC-4). -/

/-- A byte of a header, and its little-endian fields. -/
def hdr32 (h : List Byte) (o : Nat) : Nat := (le32At h o).toNat
def hdr16 (h : List Byte) (o : Nat) : Nat := leNat (slice h o 2)
def hdr8 (h : List Byte) (o : Nat) : Nat := (byteAt h o).toNat

/-- The unit of IMG_LEN in bytes: an instruction of an engine or of firmware, or of a sequencer. -/
def unitBytes (kind : Nat) : Nat := if kind = 2 then 4 else 16

/-- Step 2: MAGIC, FMT, HDR_LEN and KIND, with the fields of the KIND (Table SEC-4). -/
def packageForm (h : List Byte) : Bool :=
  let kind := hdr8 h 0x08
  let pid := hdr8 h 0x09
  let w := hdr32 h 0x14
  let ks := hdr16 h 0x18
  decide (hdr32 h 0 = 0x4556504B) && decide (hdr16 h 4 = 1) && decide (hdr16 h 6 = 0x100) &&
  (if kind = 1 then
    ((decide (1 ≤ pid) && decide (pid ≤ 12)) || (decide (0x80 ≤ pid) && decide (pid ≤ 0xFE))) &&
      decide (1 ≤ w) && decide (w < 2 ^ 24) && decide (16 ≤ ks) && decide (ks ≤ 512)
  else
    (decide (kind = 2) || decide (kind = 3)) && decide (pid = 0) && decide (w = 0) && decide (ks = 0) &&
      decide (hdr16 h 0x1A = 0) && decide (hdr32 h 0x20 = 0))

/-- Step 3: IMG_LEN in the range of the KIND, and the length of the whole package. -/
def packageLen (h : List Byte) (len : Nat) : Bool :=
  let kind := hdr8 h 0x08
  let n := hdr32 h 0x1C
  let lo := if kind = 1 then hdr16 h 0x18 else 1
  let hi := if kind = 1 then 4096 else if kind = 2 then 1024 else 16384
  decide (lo ≤ n) && decide (n ≤ hi) &&
    decide (len = 0x100 + n * unitBytes kind + 96 * (1 + hdr16 h 0x0A % 2))

/-- The body of a package of good length. -/
def packageBody (bs : List Byte) : List Byte := slice bs 0x100 (hdr32 bs 0x1C * unitBytes (hdr8 bs 0x08))

/-- A signature of a package, r then s, little-endian as every field of it (R148). -/
def packageSig (bs : List Byte) (o : Nat) : BitVec 384 × BitVec 384 :=
  (BitVec.ofNat 384 (leNat (slice bs o 48)), BitVec.ofNat 384 (leNat (slice bs (o + 48) 48)))

/-- What both signatures cover: the header's 256 bytes and the body. -/
def packageDigest (bs : List Byte) : BitVec 384 := sha384 (slice bs 0 0x100 ++ packageBody bs)

/-- The offset of the first signature. -/
def sigOff (bs : List Byte) : Nat := 0x100 + (packageBody bs).length

/-- The bytes of a public key: X then Y, big-endian (R370). -/
def keyBytes (k : BitVec 384 × BitVec 384) : List Byte := toBe 48 k.1.toNat ++ toBe 48 k.2.toNat

/-- A public key from its 96 bytes. -/
def keyOf (bs : List Byte) : BitVec 384 × BitVec 384 := (beVec 384 (slice bs 0 48), beVec 384 (slice bs 48 48))

/-- Step 5: the vendor signature, under the ROM's key of the fused hash. -/
def State.vendorOk (s : State) (bs : List Byte) : Bool :=
  hdr16 bs 0x0A % 2 = 0 ||
    (decide (sha384 (keyBytes Config.vendorKey) = s.sec.vendorHash) &&
      ecdsaVerify Config.vendorKey (packageDigest bs) (packageSig bs (sigOff bs)))

/-- The loaded owner keys (R371). -/
def State.ownerKeys (s : State) : List (BitVec 384 × BitVec 384) := s.sec.slots.toList.filterMap (fun o => o.key)

/-- Step 6: the owner signature, under a loaded key. -/
def State.ownerOk (s : State) (bs : List Byte) : Bool :=
  let o := sigOff bs + 96 * (hdr16 bs 0x0A % 2)
  s.ownerKeys.any (fun k => ecdsaVerify k (packageDigest bs) (packageSig bs o))

/-- The counter of Table SEC-5 for a package. -/
def rollbackIdx (h : List Byte) : Fin 16 :=
  match hdr8 h 0x08 with
  | 2 => 14
  | 3 => 0
  | _ => if hdr8 h 0x09 ≤ 12 then Fin.ofNat 16 (hdr8 h 0x09) else 13

/-- Step 7. -/
def State.rollbackOk (s : State) (h : List Byte) : Bool :=
  decide (s.sec.rollback[rollbackIdx h].toNat ≤ hdr32 h 0x10)

/-- Whether a retained measurement spares a reload steps 5 to 7 (Table FLT-7 step 6). -/
def State.measured (s : State) (h : List Byte) : Bool :=
  !s.sec.tamper && s.sec.meas.any (fun m => m.header = h && m.handle.isNone)

/-- A general bank free for a store: KIND NONE, neither BUSY nor CLEARING (R354). -/
def State.bankFree (s : State) (b : Fin 96) : Bool :=
  let w := s.owner b.val
  ownKind w = 0 && !ownBusy w && !ownClearing w

/-- The lowest-numbered free general banks. -/
def State.freeBanks (s : State) : List (Fin 96) :=
  ((List.range 96).map (Fin.ofNat 96)).filter (fun b => s.bankFree b)

/-- The lowest handle from 1 that no loaded image has (log 31). -/
def State.freeHandle (s : State) : Byte :=
  match (List.range 255).find? (fun k => s.images.all (fun g => g.handle.toNat ≠ k + 1)) with
  | some k => BitVec.ofNat 8 (k + 1)
  | none => 0

/-- A body is copied into banks that the supervisor takes. -/
def State.storeBody (s : State) (b : Fin 96) (bs : List Byte) : State :=
  (s.assignBank b.val 2).ownerWrite b.val 0 bs 100

/-- A package that passed: its store, image and measurement. -/
def State.keepPackage (s : State) (bs : List Byte) (b : Fin 96) (more : Option (Fin 96)) : SupRes :=
  let h := slice bs 0 0x100
  let body := packageBody bs
  let hd := s.freeHandle
  let s1 := s.storeBody b (body.take 131072)
  let s2 := match more with
    | some c => s1.storeBody c (body.drop 131072)
    | none => s1
  let img : Image :=
    { handle := hd
      bank := b
      more := more
      kind := byteAt h 0x08
      pid := byteAt h 0x09
      version := le32At h 0x0C
      rollback := le32At h 0x10
      w := BitVec.ofNat 24 (hdr32 h 0x14)
      ksecLen := BitVec.ofNat 16 (hdr16 h 0x18)
      ckptVer := BitVec.ofNat 16 (hdr16 h 0x1A)
      imgLen := hdr32 h 0x1C
      minCycle := le32At h 0x20
      digest := beVec 384 (slice h 0x40 48) }
  let rest := s2.sec.meas.filter (fun m => !(m.header = h && m.handle.isNone))
  let s3 := s2.modSec (fun x => { x with meas := rest ++ [⟨h, some hd⟩] })
  ⟨stOk, [hd.setWidth 32], { s3 with images := s3.images ++ [img] }, .none⟩

/-- A refusal with AUTH_FAIL counts. -/
def authFail (s : State) : SupRes := supFail (s.count secAuthFailCnt) stAuthFail

/-- The checks of Table PEC-25 in order; the first that fails gives the status. -/
def State.loadPackage (s : State) (bs : List Byte) (len : Nat) : SupRes :=
  let h := slice bs 0 0x100
  if s.sec.lifecycle ≠ 2 then supFail s stPolicy
  else if !packageForm h then authFail s
  else if s.romOnly && hdr8 h 0x08 ≠ 3 then supFail s stPolicy
  else if !packageLen h len then supFail s stTooLong
  else if shaBytes (packageBody bs) ≠ slice h 0x40 48 then authFail s
  else if !s.measured h && !(s.vendorOk bs && s.ownerOk bs && s.rollbackOk h) then authFail s
  else
    let two := decide (131072 < (packageBody bs).length)
    match s.freeBanks with
    | b :: c :: _ => s.keepPackage bs b (if two then some c else none)
    | [b] => if two then supFail s stNoBuffer else s.keepPackage bs b none
    | [] => supFail s stNoBuffer

/-- IMG_LOAD. ROM serving alone takes SRC = 1 only (R418). -/
def doImgLoad (box : Fin 3) (data : Option (List Byte)) (s : State) : State :=
  let len := (s.reqWord box 3).toNat
  let bank := bitOf (s.reqWord box 4) 0
  let lo := s.reqWord box 1
  let rom := s.romOnly
  s.serveOp box 0x01 fun t =>
    if rom && !bank then supFail t stPolicy
    else
      match t.supRead box bank lo data len with
      | (some bs, u) => u.loadPackage bs len
      | (none, u) => supFail u stBusError

/-- The meaning of IMG_LOAD. -/
def execImgLoad (box : Fin 3) (data : Option (List Byte)) (s : State) : Host.Outcome State Fault Refusal :=
  commit s (doImgLoad box data s)

/-- Whether an image store is in use: an admitted instance, a pending update, the firmware running or named. -/
def State.imageUsed (s : State) (h : Byte) : Bool :=
  s.insts.toList.any (fun i => match i with
    | some x => x.handle = h || x.update = some h
    | none => false) || s.sec.supRunning = some h || s.sec.supNext = some h

/-- IMG_DROP (R377). -/
def doImgDrop (box : Fin 3) (s : State) : State :=
  let h : Byte := (s.reqWord box 1).setWidth 8
  s.serveOp box 0x05 fun t =>
    match t.imageOf h with
    | none => supFail t stBusError
    | some g => if t.imageUsed h then supFail t stPolicy else supOk (t.dropImage g)

/-- The meaning of IMG_DROP. -/
def execImgDrop (box : Fin 3) (s : State) : Host.Outcome State Fault Refusal := commit s (doImgDrop box s)

/-! Admission (R152, R153). -/

/-- The compute budget B (R152), in ECLK, which are ns. -/
def budget (period tKst tRel : Nat) : Nat := (tRel + period - tKst) % period

/-- The phases lie below P, and 2W + 1,200 ≤ B ≠ 0. -/
def budgetOk (w period tKst tRel : Nat) : Bool :=
  decide (tKst < period) && decide (tRel < period) && budget period tKst tRel ≠ 0 &&
    decide (2 * w + 1200 ≤ budget period tKst tRel)

/-- The ports Table PEC-26 allows a personality; none for an owner kernel (R150). -/
def portsAllowed (pid : Nat) (ports : Word) : Bool :=
  let p := popCount (ports.extractLsb' 0 8)
  let c := popCount (ports.extractLsb' 8 4)
  let only : Nat → Nat → Bool := fun lo hi => decide (c = 0) && decide (lo ≤ p) && decide (p ≤ hi)
  decide (ports.toNat < 4096) &&
  (match pid with
    | 1 => only 2 8
    | 6 => only 2 2
    | 9 => only 1 1
    | 10 => decide (p = 0) && decide (1 ≤ c) && decide (c ≤ 2)
    | 11 => decide (p = 0) && decide (c = 1)
    | _ => if pid ≤ 12 then only 1 2 else decide (ports = 0))

/-- The ports that instances hold. -/
def State.portsHeld (s : State) : BitVec 12 :=
  s.insts.toList.foldl (fun a i => match i with | some x => a ||| x.ports | none => a) 0

/-- The lowest-numbered free engine. -/
def State.freeEngine (s : State) : Option (Fin 10) :=
  ((List.range 10).map (Fin.ofNat 10)).find? (fun e => s.eng[e].st = .spare)

/-- The request of Table PEC-27. -/
structure AdmitReq where
  role : Nat
  handle : Byte
  allowNone : Bool
  allowOne : Bool
  period : Word
  tKst : Word
  tRel : Word
  ports : Word
  ttu : Nat
deriving DecidableEq, Repr

/-- Its words. -/
def State.admitReq (s : State) (box : Fin 3) : AdmitReq :=
  let w0 := s.reqWord box 1
  { role := fieldOf w0 24 8
    handle := w0.extractLsb' 16 8
    allowNone := bitOf w0 1
    allowOne := bitOf w0 0
    period := s.reqWord box 2
    tKst := s.reqWord box 3
    tRel := s.reqWord box 4
    ports := s.reqWord box 5
    ttu := fieldOf (s.reqWord box 6) 0 8 }

/-- The first condition of R153 that fails; 0 if none does. -/
def State.admitReason (s : State) (g : Image) (q : AdmitReq) : Nat :=
  if q.period.toNat < g.minCycle.toNat then 1
  else if !portsAllowed g.pid.toNat q.ports || (q.ports.setWidth 12 &&& s.portsHeld ≠ 0) then 2
  else match s.freeEngine with
    | none => 3
    | some e =>
      let left := s.engineSpares - 1
      if (s.dualBank e 3).isNone then 4
      else if !budgetOk g.w.toNat q.period.toNat q.tKst.toNat q.tRel.toNat then 5
      else if 2 ≤ left ∨ (left = 1 ∧ q.allowOne) ∨ (left = 0 ∧ q.allowNone) then 0
      else 6

/-- The trigger unit of a kernel cycle start: periodic with P on D0, first at a time of phase T_KST at least 80 ns
ahead, and armed. -/
def State.armKernel (s : State) (n : Fin 24) (r : Fin 10) (period tKst : Nat) : State :=
  let now := eightyNs (s.time 0)
  let t := nextPhase tKst (if period = 0 then 1 else period) now 0
  let s1 := (s.disarmUnit n).setReg (ttuCfg n.val) (w32 (2 ^ 31 + 2 ^ 24 + 65536 * r.val))
  ((s1.setReg (ttuPeriod n.val) (w32 period)).setTtuTime n t).armUnit n

/-- PEC_WDOG for a declared W: W − 191. -/
def wdogOf (w : BitVec 24) : Nat := w.toNat - 191

/-- An instance is bound to a free engine (R153): limits, image, EN, the service context, the trigger. -/
def State.bindInst (s : State) (g : Image) (e r : Fin 10) (n : Fin 24) (q : AdmitReq) : State :=
  let i : Inst :=
    { handle := q.handle
      engine := some e
      period := q.period
      tKst := q.tKst
      tRel := q.tRel
      ports := q.ports.setWidth 12
      ttu := n
      stopped := false
      gate := false
      due := false
      committed := none
      update := none
      heldSince := s.bindSeq }
  let s1 := (({ s with bindSeq := s.bindSeq + 1 } : State).dropRotation e).setInst r (some i)
  let x := startService { freshEngine s1.eng[e] Engine.reset r (s1.roleMail r) with imgDone := true }
  let s2 := (s1.setEng e x).loadRole e r
  let s3 := (s2.setReg (pecWdecl e.val) (g.w.setWidth 32)).setReg (pecWdog e.val) (w32 (wdogOf g.w))
  let s4 := (s3.setRegBit (blkBase (.pec e)) 0 true).setHold (.pec e) false
  let s5 := if s4.islandOn (3 + e.val) then s4 else s4.wake (3 + e.val)
  s5.armKernel n r q.period.toNat q.tKst.toNat

/-- ADMIT. A handle of no loaded personality, a role that is none or is bound, and a trigger unit that does not exist
are no request of the table: BUS_ERROR (log 31). -/
def State.supAdmit (s : State) (q : AdmitReq) : SupRes :=
  match s.imageOf q.handle with
  | none => supFail s stBusError
  | some g =>
    let r : Fin 10 := Fin.ofNat 10 q.role
    if g.kind ≠ 1 || decide (10 ≤ q.role) || s.insts[r].isSome || decide (24 ≤ q.ttu) then supFail s stBusError
    else
      let why := s.admitReason g q
      match why, s.freeEngine with
      | 0, some e => ⟨stOk, [0], s.bindInst g e r (Fin.ofNat 24 q.ttu) q, .none⟩
      | _, _ => ⟨stAdmitFail, [w32 why], s, .none⟩

/-- ADMIT by mailbox. -/
def doAdmit (box : Fin 3) (s : State) : State :=
  let q := s.admitReq box
  s.serveOp box 0x03 fun t => t.supAdmit q

/-- The meaning of ADMIT. -/
def execAdmit (box : Fin 3) (s : State) : Host.Outcome State Fault Refusal := commit s (doAdmit box s)

/-- UNBIND; of a role that holds nothing, BUS_ERROR (log 31). -/
def doUnbind (box : Fin 3) (s : State) : State :=
  let role := fieldOf (s.reqWord box 1) 0 8
  s.serveOp box 0x04 fun t =>
    if role < 10 ∧ t.insts[Fin.ofNat 10 role].isSome then supOk (t.unbindRole (Fin.ofNat 10 role))
    else supFail t stBusError

/-- The meaning of UNBIND. -/
def execUnbind (box : Fin 3) (s : State) : Host.Outcome State Fault Refusal := commit s (doUnbind box s)

/-- IMG_UPDATE (R165): the same PID and CKPT_VER, and R152 with the new W, else ADMIT_FAIL; the standby bank takes the
image, and both limits and SWAP are set. A role with no engine, or a handle not loaded, is BUS_ERROR; an update still
pending is RETRY (log 31). -/
def State.imgUpdate (s : State) (role : Nat) (h : Byte) : SupRes :=
  let r : Fin 10 := Fin.ofNat 10 role
  match s.insts[r], s.imageOf h with
  | some i, some g =>
    match i.engine, s.imageOf i.handle with
    | some e, some old =>
      if 10 ≤ role ∨ g.kind ≠ 1 then supFail s stBusError
      else if g.pid ≠ old.pid || g.ckptVer ≠ old.ckptVer ||
          !budgetOk g.w.toNat i.period.toNat i.tKst.toNat i.tRel.toNat then supFail s stAdmitFail
      else if i.update.isSome || s.eng[e].swapPend then supFail s stRetry
      else
        let s1 := s.loadWhole e (!s.eng[e].bank) g
        let limit := max (fieldOf (s.reg (pecWdog e.val)) 0 24) (wdogOf g.w)
        let s2 := (s1.setReg (pecWdecl e.val) (g.w.setWidth 32)).setReg (pecWdog e.val) (w32 limit)
        let s3 := s2.setEng e { s2.eng[e] with wdogNext := some (BitVec.ofNat 24 (wdogOf g.w)) }
        supOk ((s3.modInst r (fun j => { j with update := some h })).swapImem e)
    | _, _ => supFail s stBusError
  | _, _ => supFail s stBusError

/-- IMG_UPDATE by mailbox. -/
def doImgUpdate (box : Fin 3) (s : State) : State :=
  let role := fieldOf (s.reqWord box 1) 0 8
  let h : Byte := (s.reqWord box 2).setWidth 8
  s.serveOp box 0x02 fun t => t.imgUpdate role h

/-- The meaning of IMG_UPDATE. -/
def execImgUpdate (box : Fin 3) (s : State) : Host.Outcome State Fault Refusal := commit s (doImgUpdate box s)

/-! Sequencer programs and firmware (R377). -/

/-- Write a sequencer program into a bank of an engine's. -/
def State.loadSeq (s : State) (e : Nat) (bank : Bool) (g : Image) : State :=
  let bs := s.storeBytes g
  s.setTabs .psq (psqSpace e bank) 0 ((List.range g.imgLen).map (fun k => le32At bs (4 * k)))

/-- SEQ_LOAD; while a swap of the engine is pending its standby bank is the bank coming: RETRY (log 31). -/
def State.seqLoad (s : State) (h : Byte) (e : Fin 2) (swap : Bool) : SupRes :=
  match s.imageOf h with
  | none => supFail s stBusError
  | some g =>
    if g.kind ≠ 2 then supFail s stBusError
    else if !s.islandOn 17 then supFail s stIslandOff
    else if s.fenced (27 + e.val) then supFail s stFenced
    else if s.psq.swap.getLsbD e.val then supFail s stRetry
    else
      let s1 := (s.loadSeq e.val (!s.psq.active.getLsbD e.val) g).modSec (fun x =>
        { x with seqImg := vset x.seqImg e (some h) })
      supOk (if swap then s1.swapStart e.val else s1)

/-- SEQ_LOAD by mailbox. -/
def doSeqLoad (box : Fin 3) (s : State) : State :=
  let h : Byte := (s.reqWord box 1).setWidth 8
  let w := s.reqWord box 2
  s.serveOp box 0x06 fun t => t.seqLoad h (Fin.ofNat 2 (fieldOf w 0 1)) (bitOf w 8)

/-- The meaning of SEQ_LOAD. -/
def execSeqLoad (box : Fin 3) (s : State) : Host.Outcome State Fault Refusal := commit s (doSeqLoad box s)

/-- SUP_UPDATE: in RECOVERY its acceptance brings the cold start (R418). -/
def doSupUpdate (box : Fin 3) (s : State) : State :=
  let h : Byte := (s.reqWord box 1).setWidth 8
  s.serveOp box 0x07 fun t =>
    match t.imageOf h with
    | some g =>
      if g.kind ≠ 3 then supFail t stBusError
      else ⟨stOk, [], t.modSec (fun x => { x with supNext := some h }), if t.flt.recovery then .cold else .none⟩
    | none => supFail t stBusError

/-- The meaning of SUP_UPDATE. -/
def execSupUpdate (box : Fin 3) (s : State) : Host.Outcome State Fault Refusal := commit s (doSupUpdate box s)

/-! Identity, attestation, power, ring keys. -/

/-- GET_IDENTITY. -/
def doGetIdentity (box : Fin 3) (s : State) : State :=
  s.serveOp box 0x10 fun t =>
    ⟨stOk, [t.sec.eui.extractLsb' 32 32, t.sec.eui.extractLsb' 0 32, t.reg glbLifecycle], t, .none⟩

/-- The meaning of GET_IDENTITY. -/
def execGetIdentity (box : Fin 3) (s : State) : Host.Outcome State Fault Refusal := commit s (doGetIdentity box s)

/-- A fresh nonce for a path (R373): 32 random bytes, which no rule fixes, replace the one outstanding. -/
def State.newNonce (s : State) (path : Fin 4) : List Word × State :=
  let r := s.drawN 8
  let bs := r.1.flatMap (fun w => (leBytes w).reverse)
  (r.1, r.2.modSec (fun x => { x with nonces := vset x.nonces path (some bs) }))

/-- The path of a box. -/
def boxPath (box : Fin 3) : Fin 4 := Fin.ofNat 4 box.val

/-- CHALLENGE. -/
def doChallenge (box : Fin 3) (s : State) : State :=
  s.serveOp box 0x11 fun t =>
    let r := t.newNonce (boxPath box)
    ⟨stOk, r.1, r.2, .none⟩

/-- The meaning of CHALLENGE. -/
def execChallenge (box : Fin 3) (s : State) : Host.Outcome State Fault Refusal := commit s (doChallenge box s)

/-- SEC_OWNER_SLOTS. -/
def State.ownerSlotsWord (s : State) : Word :=
  w32 ((List.range 4).foldl (fun a k =>
    let o := s.sec.slots[(Fin.ofNat 4 k : Fin 4)]
    a + (4 * b2n o.key.isSome + 2 * b2n o.revoked + b2n o.enrolled) * 16 ^ k) 0)

/-- The role an image serves: the lowest of the instances that hold it. -/
def State.imageRole (s : State) (h : Byte) : Option Nat :=
  findIdx? (fun i => match i with | some (x : Inst) => decide (x.handle = h) | none => false) s.insts.toList

/-- An entry of the report for a loaded image (Table SEC-7). -/
def State.reportEntry (s : State) (g : Image) : List Byte :=
  let role := s.imageRole g.handle
  let run := role.isSome || s.sec.supRunning = some g.handle || s.sec.seqImg.toList.contains (some g.handle)
  [g.kind, g.pid, (match role with | some r => BitVec.ofNat 8 r | none => 0xFF), BitVec.ofNat 8 (b2n run)] ++
    leBytes g.version ++ leBytes g.rollback ++ [0, 0, 0, 0] ++ toBe 48 g.digest.toNat

/-- The images a report lists after the ROM: the firmware running, then every other in load order. -/
def State.reportImages (s : State) : List Image :=
  let fw := s.images.filter (fun g => s.sec.supRunning = some g.handle)
  fw ++ s.images.filter (fun g => s.sec.supRunning ≠ some g.handle)

/-- The report up to its signature (Table SEC-7). -/
def State.report (s : State) (nonce : List Byte) : List Byte :=
  let gs := s.reportImages
  let all := gs.length + 1
  let body := ((List.range 64).map Config.romEntry) ++ (gs.take 63).flatMap (fun g => s.reportEntry g)
  let rb := (List.range 16).map (fun k => s.sec.rollback[(Fin.ofNat 16 k : Fin 16)].setWidth 8)
  leBytes 0x45564154#32 ++
    [s.sec.lifecycle.setWidth 8, BitVec.ofNat 8 s.dbgLevel, BitVec.ofNat 8 (min 64 all), BitVec.ofNat 8 all] ++
    toBe 8 s.sec.eui.toNat ++ leBytes s.ownerSlotsWord ++ rb ++
    leBytes (w32 (2 * b2n s.sec.reused + b2n s.sec.tamper)) ++ List.replicate 24 0 ++ nonce ++
    List.replicate 32 0 ++ body

/-- Bytes written at the address of a request: posted writes into host memory, or the bank named, if the supervisor
owns it. -/
def State.supWrite (s : State) (box : Fin 3) (lo hi : Word) (bs : List Byte) : Option State :=
  if box = 2 then
    let b := fieldOf lo 0 7
    if 96 ≤ b then none
    else if s.owns .sup b then some (s.ownerWrite b 0 bs 100)
    else none
  else some (s.emit (.hostWrite (box = 1) (hi ++ lo) bs))

/-- ATTEST: with no identity key there is no report, POLICY (log 31). -/
def doAttest (box : Fin 3) (s : State) : State :=
  let nonce := (List.range 8).flatMap (fun k => (leBytes (s.reqWord box (3 + k))).reverse)
  let lo := s.reqWord box 1
  let hi := s.reqWord box 2
  s.serveOp box 0x15 fun t =>
    match t.sec.ident.priv with
    | none => supFail t stPolicy
    | some d =>
      let bs := t.report nonce
      let sg := ecdsaSign d (sha384 bs)
      let all := bs ++ toBe 48 sg.1.toNat ++ toBe 48 sg.2.toNat
      match t.supWrite box lo hi all with
      | some u => ⟨stOk, [w32 all.length], u, .none⟩
      | none => supFail (if box = 2 then t.nonOwner .sup (fieldOf lo 0 7) else t) stBusError

/-- The meaning of ATTEST. -/
def execAttest (box : Fin 3) (s : State) : Host.Outcome State Fault Refusal := commit s (doAttest box s)

/-- PWR_STANDBY (R392): with no wake source enabled, POLICY (R393). -/
def doPwrStandby (box : Fin 3) (s : State) : State :=
  s.serveOp box 0x20 fun t => if t.wakeEnabled then ⟨stOk, [], t, .p2⟩ else supFail t stPolicy

/-- The meaning of PWR_STANDBY. -/
def execPwrStandby (box : Fin 3) (s : State) : Host.Outcome State Fault Refusal := commit s (doPwrStandby box s)

/-- PWR_OFF (R394). -/
def doPwrOff (box : Fin 3) (s : State) : State := s.serveOp box 0x21 fun t => ⟨stOk, [], t, .p3⟩

/-- The meaning of PWR_OFF. -/
def execPwrOff (box : Fin 3) (s : State) : Host.Outcome State Fault Refusal := commit s (doPwrOff box s)

/-- RING_KEYSEL (R382). -/
def doRingKeysel (box : Fin 3) (s : State) : State :=
  let r := fieldOf (s.reqWord box 1) 0 1
  let k := bitOf (s.reqWord box 2) 0
  s.serveOp box 0x30 fun t => supOk (t.setRegBit (nrgRingKeysel r) 0 k)

/-- The meaning of RING_KEYSEL. -/
def execRingKeysel (box : Fin 3) (s : State) : Host.Outcome State Fault Refusal := commit s (doRingKeysel box s)

/-- The OPs of Table SEC-6. -/
def knownOp (op : Nat) : Bool :=
  (decide (1 ≤ op) && decide (op ≤ 7)) || (decide (0x10 ≤ op) && decide (op ≤ 0x16)) ||
    [0x20, 0x21, 0x30].contains op

/-- A command with an unknown OP is answered with BUS_ERROR (R378). -/
def doUnknownCommand (box : Fin 3) (s : State) : State :=
  s.serve box (fun t => !knownOp (t.reqOp box)) fun t => supFail t stBusError

/-- The meaning of UNKNOWN_COMMAND. -/
def execUnknownCommand (box : Fin 3) (s : State) : Host.Outcome State Fault Refusal :=
  commit s (doUnknownCommand box s)

end Sys2Proof.Machine
end

