-- ==== Sys2Proof/Machine/Sec.lean ====
section
/-! DEFINITION. Trust (16): owner keys and tokens (R370-R374), CAKs (R380), lifecycle transitions (R367-R369), the
tamper monitors (R383), debug sessions (R385) and the TAP (R387-R389). -/

namespace Sys2Proof.Machine

/-! Lifecycle transitions (R367, Table SEC-1). -/

/-- The lifecycle states by their code. -/
abbrev lcManufacture : BitVec 2 := 0
abbrev lcUnowned : BitVec 2 := 1
abbrev lcOwned : BitVec 2 := 2
abbrev lcDecommissioned : BitVec 2 := 3

/-- The fuses of a lifecycle state, as the next fuse load reads them; any debug session ends first. -/
def State.fuseLifecycle (s : State) (lc : BitVec 2) : State := s.endDebug.modSec (fun x => { x with lifecycle := lc })

/-- A transition to DECOMMISSIONED: zeroization before the cold start (R369). -/
def State.retire (s : State) : State := (s.fuseLifecycle lcDecommissioned).zeroize

/-- A private key drawn below the curve order, with its public key (R368). -/
def drawKey (ws : List Word) : KeyPair :=
  let d : BitVec 384 := BitVec.ofNat 384 (ws.foldl (fun a w => 2 ^ 32 * a + w.toNat) 0 % p384Order)
  ⟨some d, p384Public d⟩

/-- LC_ADVANCE: both key pairs are generated. -/
def State.advanceLc (s : State) : State :=
  let a := s.drawN 12
  let b := a.2.drawN 12
  (b.2.fuseLifecycle lcUnowned).modSec (fun x => { x with ident := drawKey a.1, agree := drawKey b.1 })

/-! Owner keys (R371, R373). -/

/-- A slot in which an owner key's hash is enrolled and not revoked. -/
def slotTakes (o : OwnerSlot) (key : BitVec 384 × BitVec 384) : Bool :=
  o.enrolled && !o.revoked && o.hash = sha384 (keyBytes key)

/-- OWNER_KEY_LOAD (R371). -/
def doOwnerKeyLoad (box : Fin 3) (data : Option (List Byte)) (s : State) : State :=
  let k : Fin 4 := Fin.ofNat 4 (fieldOf (s.reqWord box 1) 0 2)
  let lo := s.reqWord box 2
  s.serveOp box 0x12 fun t =>
    match t.supRead box (box = 2) lo data 96 with
    | (some bs, u) =>
      if slotTakes u.sec.slots[k] (keyOf bs) then
        supOk (u.modSec (fun x => { x with slots := vmod x.slots k (fun o => { o with key := some (keyOf bs) }) }))
      else supFail u stAuthFail
    | (none, u) => supFail u stBusError

/-- The meaning of OWNER_KEY_LOAD. -/
def execOwnerKeyLoad (box : Fin 3) (data : Option (List Byte)) (s : State) : Host.Outcome State Fault Refusal :=
  commit s (doOwnerKeyLoad box data s)

/-- A signature, r then s, big-endian. -/
def sigOf (bs : List Byte) (o : Nat) : BitVec 384 × BitVec 384 := keyOf (slice bs o 96)

/-- TAKE_OWNERSHIP (R373): in UNOWNED only; the signature covers EUI-64 and the path's nonce, which is consumed; slot 0
takes the key's hash, and a cold start follows. -/
def State.takeOwner (s : State) (path : Fin 4) (bs : List Byte) : SupRes :=
  let key := keyOf bs
  let nonce := s.sec.nonces[path]
  let s1 := s.modSec (fun x => { x with nonces := vset x.nonces path none })
  match nonce with
  | none => supFail s1 stAuthFail
  | some n =>
    if ecdsaVerify key (sha384 (toBe 8 s.sec.eui.toNat ++ n)) (sigOf bs 96) then
      let s2 := (s1.fuseLifecycle lcOwned).modSec (fun x =>
        { x with slots := vset x.slots 0 ⟨sha384 (keyBytes key), true, false, none⟩ })
      ⟨stOk, [], s2, .cold⟩
    else supFail s1 stAuthFail

/-- TAKE_OWNERSHIP by mailbox. -/
def doTakeOwnership (box : Fin 3) (data : Option (List Byte)) (s : State) : State :=
  let lo := s.reqWord box 1
  s.serveOp box 0x14 fun t =>
    if t.sec.lifecycle ≠ lcUnowned then supFail t stPolicy
    else match t.supRead box (box = 2) lo data 192 with
      | (some bs, u) => u.takeOwner (boxPath box) bs
      | (none, u) => supFail u stBusError

/-- The meaning of TAKE_OWNERSHIP. -/
def execTakeOwnership (box : Fin 3) (data : Option (List Byte)) (s : State) : Host.Outcome State Fault Refusal :=
  commit s (doTakeOwnership box data s)

/-- DECOMMISSION_UNOWNED: in UNOWNED only. -/
def doDecommissionUnowned (box : Fin 3) (s : State) : State :=
  s.serveOp box 0x16 fun t =>
    if t.sec.lifecycle = lcUnowned then ⟨stOk, [], t.retire, .cold⟩ else supFail t stPolicy

/-- The meaning of DECOMMISSION_UNOWNED. -/
def execDecommissionUnowned (box : Fin 3) (s : State) : Host.Outcome State Fault Refusal :=
  commit s (doDecommissionUnowned box s)

/-! Owner tokens (R372, Tables SEC-2, SEC-3). -/

/-- Byte k of a token's ARG. -/
def tokArg (t : List Byte) (k : Nat) : Byte := byteAt t (0x30 + k)

/-- OP of a token. -/
def tokOp (t : List Byte) : Nat := (byteAt t 4).toNat

/-- The validity of a token on a path: MAGIC, the device, the nonce outstanding, the signature of the loaded key of its
slot. -/
def State.tokenValid (s : State) (path : Fin 4) (t : List Byte) : Bool :=
  decide (le32At t 0 = 0x4556544B#32) && decide (slice t 8 8 = toBe 8 s.sec.eui.toNat) &&
  decide (s.sec.nonces[path] = some (slice t 0x10 32)) &&
  (match s.sec.slots.toList[(byteAt t 5).toNat]? with
    | some o =>
      (match o.key with
        | some k => ecdsaVerify k (sha384 (slice t 0 0xF0)) (sigOf t 0xF0)
        | none => false)
    | none => false)

/-- ENROLL; a slot above 3 is none (log 31). -/
def State.tokEnroll (s : State) (t : List Byte) : SupRes :=
  let k := (tokArg t 0).toNat
  let i : Fin 4 := Fin.ofNat 4 k
  if 4 ≤ k then authFail s
  else if s.sec.slots[i].enrolled then supFail s stPolicy
  else supOk (s.modSec (fun x => { x with slots := vmod x.slots i (fun o =>
    { o with hash := beVec 384 (slice t 0x31 48), enrolled := true }) }))

/-- REVOKE (R374): the slot's loaded key is dropped. -/
def State.tokRevoke (s : State) (t : List Byte) : SupRes :=
  let k := (tokArg t 0).toNat
  let i : Fin 4 := Fin.ofNat 4 k
  let left := vmod s.sec.slots i (fun o => { o with revoked := true, key := none })
  if 4 ≤ k then authFail s
  else if left.toList.all (fun o => !o.enrolled || o.revoked) then supFail s stPolicy
  else supOk (s.modSec (fun x => { x with slots := left }))

/-- ROLLBACK_SET (R376); counter 15 reads 0 whatever is set. -/
def State.tokRollback (s : State) (t : List Byte) : SupRes :=
  let n := (tokArg t 0).toNat
  let v := (tokArg t 1).toNat
  let i : Fin 16 := Fin.ofNat 16 n
  if 16 ≤ n then authFail s
  else if v < s.sec.rollback[i].toNat ∨ 64 < v then supFail s stPolicy
  else if n = 15 then supOk s
  else supOk (s.modSec (fun x => { x with rollback := vset x.rollback i (BitVec.ofNat 7 v) }))

/-- The label "RGX-CAK". -/
def cakLabel : List Byte := [0x52, 0x47, 0x58, 0x2D, 0x43, 0x41, 0x4B]

/-- KEK: the first 32 bytes of SHA-384 of Z, the label and EUI-64 (R380). -/
def State.kek (s : State) (d : BitVec 384) (q : BitVec 384 × BitVec 384) : BitVec 256 :=
  beVec 256 ((shaBytes (toBe 48 (ecdh d q).toNat ++ cakLabel ++ toBe 8 s.sec.eui.toNat)).take 32)

/-- CAK_SET (R380, R382); a CKN_LEN outside 1-32 is no ARG of the rule (log 31). -/
def State.tokCak (s : State) (t : List Byte) : SupRes :=
  let idx := (tokArg t 0).toNat
  let ckn := (tokArg t 1).toNat
  let q := keyOf (slice t (0x30 + 36) 96)
  let iv : BitVec 96 := beVec 96 (slice t (0x30 + 132) 12)
  let ct := slice t (0x30 + 144) 32
  let tag : BitVec 128 := beVec 128 (slice t (0x30 + 176) 16)
  let aad := slice t 0 0x30
  if 9 < idx then supFail s stPolicy
  else match s.sec.agree.priv with
    | none => authFail s
    | some d =>
      let kek := s.kek d q
      if ckn = 0 ∨ 32 < ckn ∨ !onCurve q ∨ gcmTag kek iv aad ct ≠ tag then authFail s
      else
        let c : Cak := ⟨beVec 256 (gcmCrypt kek iv ct), slice t (0x30 + 4) ckn⟩
        let s1 := s.modSec (fun x => { x with caks := vset x.caks (Fin.ofNat 10 idx) (some c) })
        supOk (if idx = 8 then s1.installRing 0 else if idx = 9 then s1.installRing 1 else s1)

/-- A token's operation (Table SEC-3); DEBUG only on the JTAG path, for level 2 or 3. -/
def State.tokRun (s : State) (path : Fin 4) (t : List Byte) : SupRes :=
  match tokOp t with
  | 1 => s.tokEnroll t
  | 2 => s.tokRevoke t
  | 3 => s.tokRollback t
  | 4 => ⟨stOk, [], s.retire, .cold⟩
  | 5 => s.tokCak t
  | 7 =>
    let l := (tokArg t 0).toNat
    if path ≠ 3 then supFail s stPolicy
    else if l = 2 ∨ l = 3 then supOk (s.modSec (fun x => { x with dbgTok := some (Fin.ofNat 4 l) }))
    else authFail s
  | _ => authFail s

/-- A token delivered by a path: its nonce is consumed whether or not the token is valid (R372). -/
def State.token (s : State) (path : Fin 4) (t : List Byte) : SupRes :=
  let ok := s.tokenValid path t
  let s1 := s.modSec (fun x => { x with nonces := vset x.nonces path none })
  if ok then s1.tokRun path t else authFail s1

/-- OWNER_CMD (R372). -/
def doOwnerCmd (box : Fin 3) (data : Option (List Byte)) (due : List Byte → Bool) (s : State) : State :=
  let lo := s.reqWord box 1
  let ready := match (s.supRead box (box = 2) lo data 336).1 with
    | some t => due t
    | none => due []
  s.serve box (fun u => u.reqOp box = 0x13 && ready) fun u =>
    match u.supRead box (box = 2) lo data 336 with
    | (some t, v) => v.token (boxPath box) t
    | (none, v) => supFail v stBusError

/-- The meaning of OWNER_CMD. -/
def execOwnerCmd (box : Fin 3) (data : Option (List Byte)) (s : State) : Host.Outcome State Fault Refusal :=
  commit s (doOwnerCmd box data (fun _ => true) s)

/-- OWNER_CMD with a token of one OP. -/
def doTokenCmd (op : Nat) (box : Fin 3) (data : List Byte) (s : State) : State :=
  doOwnerCmd box (some data) (fun t => decide (t ≠ []) && decide (tokOp t = op)) s

/-- The meaning of ENROLL. -/
def execEnroll (box : Fin 3) (data : List Byte) (s : State) : Host.Outcome State Fault Refusal :=
  commit s (doTokenCmd 1 box data s)

/-- The meaning of REVOKE. -/
def execRevoke (box : Fin 3) (data : List Byte) (s : State) : Host.Outcome State Fault Refusal :=
  commit s (doTokenCmd 2 box data s)

/-- The meaning of ROLLBACK_SET. -/
def execRollbackSet (box : Fin 3) (data : List Byte) (s : State) : Host.Outcome State Fault Refusal :=
  commit s (doTokenCmd 3 box data s)

/-- The meaning of DECOMMISSION. -/
def execDecommission (box : Fin 3) (data : List Byte) (s : State) : Host.Outcome State Fault Refusal :=
  commit s (doTokenCmd 4 box data s)

/-- The meaning of CAK_SET. -/
def execCakSet (box : Fin 3) (data : List Byte) (s : State) : Host.Outcome State Fault Refusal :=
  commit s (doTokenCmd 5 box data s)

/-! The tamper monitors (R383). -/

/-- An event, while the monitors watch: counted, and the list is marked. -/
def doTamperEvent (s : State) : State :=
  if s.sec.armed && s.power ≠ .held && s.power ≠ .p3 then
    (s.count secTamperCnt).modSec (fun x => { x with tamper := true })
  else s

/-- The meaning of TAMPER_EVENT. -/
def execTamperEvent (s : State) : Host.Outcome State Fault Refusal := commit s (doTamperEvent s)

/-! The TAP (R389, Table SEC-10). -/

/-- Whether the TAP has power: its island has, in every state but P3 and with the supplies down. -/
def State.tapPowered (s : State) : Bool := s.power = .run || s.power = .p2

/-- The TAP leaves EXTEST, CLAMP or HIGHZ: a cold start (R387). -/
def State.tapLeave (s : State) : State :=
  if s.sec.tap = .functional then s
  else (s.coldStart none).emit (.balls .functional [])

/-- Store the status of a debug instruction. -/
def State.dbgSay (s : State) (c : Byte) : State := s.modSec (fun x => { x with dbgStatus := c })

/-- An instruction of the running device: in P2 the TAP answers IDCODE and BYPASS only (Table SEC-8). -/
def State.tapRun (s : State) (f : State → State) : State := if s.power = .run then f s.tapLeave else s

/-- IDCODE: 0xB8600B9B, manufacturer bank 12, identifier 0x4D (R389, R450). -/
def doIdcode (s : State) : State :=
  if s.tapPowered then s.tapLeave.emit (.tdo [0xB8600B9B#32]) else s

/-- The meaning of IDCODE. -/
def execIdcode (s : State) : Host.Outcome State Fault Refusal := commit s (doIdcode s)

/-- BYPASS: its one bit captures 0 (IEEE 1149.1, PRESUMED, log 31). -/
def doBypass (s : State) : State := if s.tapPowered then s.tapLeave.emit (.tdo [0]) else s

/-- The meaning of BYPASS. -/
def execBypass (s : State) : Host.Outcome State Fault Refusal := commit s (doBypass s)

/-- SAMPLE/PRELOAD: as many words as the cells fill shift out, whose order over the balls the manual does not give;
the boundary register takes the cells. -/
def doSamplePreload (cells : List Bool) (s : State) : State :=
  s.tapRun fun s =>
    let r := s.drawN ((cells.length + 31) / 32)
    (r.2.emit (.tdo r.1)).modSec (fun x => { x with boundary := cells })

/-- The meaning of SAMPLE_PRELOAD. -/
def execSamplePreload (cells : List Bool) (s : State) : Host.Outcome State Fault Refusal :=
  commit s (doSamplePreload cells s)

/-- Whether EXTEST, CLAMP and HIGHZ are reached: D2 except in OWNED, D3 (Table SEC-9), or the mode is on already. -/
def State.scanOpen (s : State) : Bool :=
  s.power = .run && (s.sec.tap ≠ .functional || s.dbgLevel = 3 || (s.dbgLevel = 2 && s.sec.lifecycle ≠ lcOwned))

/-- The TAP takes the balls. -/
def State.takeBalls (s : State) (m : TapMode) (cells : List Bool) : State :=
  if s.scanOpen then (s.modSec (fun x => { x with tap := m, boundary := cells })).emit (.balls m cells) else s

/-- The meaning of EXTEST: the cells shifted in drive the balls. -/
def execExtest (cells : List Bool) (s : State) : Host.Outcome State Fault Refusal :=
  commit s (s.takeBalls .extest cells)

/-- The meaning of CLAMP: the boundary register holds the balls. -/
def execClamp (s : State) : Host.Outcome State Fault Refusal := commit s (s.takeBalls .clamp s.sec.boundary)

/-- The meaning of HIGHZ. -/
def execHighz (s : State) : Host.Outcome State Fault Refusal := commit s (s.takeBalls .highz s.sec.boundary)

/-- DBG_STATUS. -/
def doDbgStatus (s : State) : State :=
  s.tapRun fun s => s.emit (.tdo [w32 (256 * s.dbgLevel + s.sec.dbgStatus.toNat)])

/-- The meaning of DBG_STATUS. -/
def execDbgStatus (s : State) : Host.Outcome State Fault Refusal := commit s (doDbgStatus s)

/-- DBG_CHALLENGE: a fresh nonce on the JTAG path; a token taken before it authorises nothing more (R385). -/
def doDbgChallenge (s : State) : State :=
  s.tapRun fun s =>
    let r := s.newNonce 3
    ((r.2.modSec (fun x => { x with dbgTok := none })).emit (.tdo r.1)).dbgSay stOk

/-- The meaning of DBG_CHALLENGE. -/
def execDbgChallenge (s : State) : Host.Outcome State Fault Refusal := commit s (doDbgChallenge s)

/-- DBG_TOKEN: 336 bytes, byte 0 first. -/
def doDbgToken (data : List Byte) (s : State) : State :=
  s.tapRun fun s =>
    let r := s.token 3 (slice data 0 336)
    (r.st.dbgSay r.status).afterReply r.after

/-- The meaning of DBG_TOKEN. -/
def execDbgToken (data : List Byte) (s : State) : Host.Outcome State Fault Refusal := commit s (doDbgToken data s)

/-- The meaning of DEBUG_TOKEN: DBG_TOKEN with a token of OP DEBUG. -/
def execDebugToken (data : List Byte) (s : State) : Host.Outcome State Fault Refusal :=
  commit s (if tokOp data = 7 then doDbgToken data s else s)

/-- Whether Table SEC-8 opens a level: in OWNED, D2 and D3 with a token for the level. -/
def State.dbgMayOpen (s : State) (level : Fin 4) : Bool :=
  decide (s.dbgLevel < level.val) && (s.sec.lifecycle ≠ lcOwned || level = 1 || s.sec.dbgTok = some level)

/-- DBG_OPEN (R385): D3 in OWNED zeroizes the session keys first. A level not above the one in force is refused: a
session is lowered only by ending it. -/
def State.dbgOpenLevel (s : State) (level : Fin 4) : State :=
  if !s.dbgMayOpen level then s.dbgSay stPolicy
  else
    let s1 := if level = 3 ∧ s.sec.lifecycle = lcOwned then
        s.zeroSession.modSec (fun x => { x with zeroed := true })
      else s
    ((s1.setRegField glbLifecycle 8 2 level.val).count secDbgSessionCnt).dbgSay stOk

/-- DBG_OPEN; in P2 it answers ISLAND_OFF. -/
def doDbgOpen (level : Fin 4) (s : State) : State :=
  if s.power = .p2 then s.dbgSay stIslandOff else s.tapRun fun s => s.dbgOpenLevel level

/-- The meaning of DBG_OPEN. -/
def execDbgOpen (level : Fin 4) (s : State) : Host.Outcome State Fault Refusal := commit s (doDbgOpen level s)

/-- DBG_CLOSE. -/
def doDbgClose (s : State) : State := s.tapRun fun s => s.endDebug.dbgSay stOk

/-- The meaning of DBG_CLOSE. -/
def execDbgClose (s : State) : Host.Outcome State Fault Refusal := commit s (doDbgClose s)

/-- A transition asked for at the TAP: MANUFACTURE at D3 only, then a cold start (Table SEC-1). -/
def State.lcAtTap (s : State) (f : State → State) : State :=
  s.tapRun fun s =>
    if s.sec.lifecycle = lcManufacture && s.dbgLevel = 3 then (f s).coldStart none else s.dbgSay stPolicy

/-- The meaning of LC_ADVANCE. -/
def execLcAdvance (s : State) : Host.Outcome State Fault Refusal := commit s (s.lcAtTap fun s => s.advanceLc)

/-- The meaning of LC_KILL. -/
def execLcKill (s : State) : Host.Outcome State Fault Refusal := commit s (s.lcAtTap fun s => s.retire)

/-- JTAG_TRST_N low: the TAP is reset and any session ends; it also leaves a scan instruction (R387, R389). -/
def doJtagTrst (s : State) : State :=
  (if s.power = .run then s.tapLeave.endDebug else s).modSec (fun x => { x with boundary := [], dbgStatus := 0 })

/-- The meaning of JTAG_TRST. -/
def execJtagTrst (s : State) : Host.Outcome State Fault Refusal := commit s (doJtagTrst s)

end Sys2Proof.Machine
end

