-- ==== Sys2Proof/Machine/Flt.lean ====
section
/-! DEFINITION. Containment (17): faults, recoveries, FLT_CMD, the supervisor's restart, and twin mode. -/

namespace Sys2Proof.Machine

/-! Faults of the domains (R397, R408, Table FLT-1). -/

/-- The island whose power a domain needs. -/
def domIsland (d : Fin 37) : Nat :=
  if d.val < 10 then 3 + d.val
  else if d.val < 18 then 0
  else if d.val < 20 then d.val - 17
  else if d.val < 23 then 13
  else if d.val < 27 then 18
  else if d.val < 29 then 17
  else if d.val < 31 then 15
  else if d.val = 31 then 17
  else if d.val < 36 then 0
  else 16

/-- The faults that fence a domain (Table FLT-1); engines, dies and Datum domains have rows of their own. -/
def faultOf (d : Fin 37) (k : FaultKind) : Bool :=
  if d.val < 10 then k = .compare || k = .memUe
  else if d.val < 18 then k = .parity || k = .memUe
  else if d.val < 20 then k = .parity || k = .compare
  else if d.val = 20 then k = .compare
  else if d.val < 23 then false
  else if d.val < 27 then k = .compare || k = .memUe
  else if d.val < 29 then k = .memUe || k = .parity || k = .compare
  else if d.val < 31 then k = .compare || k = .parity
  else if d.val = 31 then k = .compare
  else if d.val < 36 then false
  else k ≠ .parity

/-- CAUSE, INFO8 and INFO16 of a fault (Table FLT-2). -/
def faultRec (k : FaultKind) (unit : Byte) (row : BitVec 16) : FaultRec :=
  match k with
  | .parity => ⟨0x03, unit, 0⟩
  | .compare => ⟨0x04, unit, 0⟩
  | .memUe => ⟨0x05, unit, row⟩
  | .watchdog => ⟨0x06, 0, 0⟩

/-- A channel's attempts end FENCED (Table CAN-4). -/
def State.canFence (s : State) (n : Fin 4) : State :=
  let x := s.can[n]
  (x.sending.toList ++ x.tries).foldl (fun t y => t.txFail n y stFenced 0 none)
    (s.setCan n { x with tries := [], sending := none, foreign := false, integ := false })

/-- The channels of an engine stop as under STOP; those that ran start again at the fence's end. -/
def State.psqFence (s : State) (e : Fin 2) : State :=
  (List.range 32).foldl (fun t k =>
    let c : Fin 64 := Fin.ofNat 64 (e.val * 32 + k)
    let st := t.psq.ch[c].st
    let runs := st ≠ .stopped && st ≠ .fault
    let u := if st = .stopped || st = .fault then t else t.chStop c
    { u with psq := { u.psq with again := setBit u.psq.again c.val runs } }) s

/-- A host link's fence is as a link down (R312). -/
def State.hifFence (s : State) (link : Bool) : State :=
  if s.linkUp link then (s.setRegField hifLinkStatus (if link then 8 else 0) 8 0).hostLinkGone link else s

/-- What a domain's block does at its fence (Table FLT-1). -/
def State.fenceEffect (s : State) (d : Fin 37) : State :=
  if d.val < 10 then s
  else if d.val < 18 then s.linkFalls (Fin.ofNat 8 (d.val - 10)) false false
  else if d.val < 20 then s.sliceFenceEffect (d.val = 19)
  else if d.val = 20 then s.bfmFenceEffect
  else if d.val < 23 then s
  else if d.val < 27 then s.canFence (Fin.ofNat 4 (d.val - 23))
  else if d.val < 29 then s.psqFence (Fin.ofNat 2 (d.val - 27))
  else if d.val < 31 then s.hifFence (d.val = 30)
  else if d.val = 31 then s.xpbFence
  else s

/-- A domain other than an engine, a die or a Datum domain is latched: the fence with the block's effects, or the
permanent fence; a permanent one of the supervisor brings a warm start (R402). -/
def State.latchDomain (s : State) (d : Fin 37) (r : FaultRec) : State :=
  let s1 := s.fltLatch d r.cause r.info8 r.info16.toNat
  if !s.fenced d.val then s1.fenceEffect d
  else if d.val = 36 && !s.flt.perm.getLsbD 36 && s1.flt.perm.getLsbD 36 then s1.warmIfRunning
  else s1

/-- A fault report reaches the fault manager; `votes`: the copies of its own state reloaded from the majority since
the last report (R396). A fault that the domain cannot have, or of an unpowered one, is none. -/
def doFaultLatch (d : Fin 37) (k : FaultKind) (unit : Byte) (row : BitVec 16) (votes : Byte) (s : State) : State :=
  let s1 := if votes = 0 then s else s.countN fltVoteCnt votes.toNat
  if s.power ≠ .run || !s.islandOn (domIsland d) || !faultOf d k then s1
  else if d.val < 10 then
    s1.hardFault (Fin.ofNat 10 d.val) (if k = .compare then 3 else if unit = 0 then 1 else 2)
  else s1.latchDomain d (faultRec k unit row)

/-- The meaning of FAULT_LATCH. -/
def execFaultLatch (d : Fin 37) (k : FaultKind) (unit : Byte) (row : BitVec 16) (votes : Byte) (s : State) :
    Host.Outcome State Fault Refusal :=
  commit s (doFaultLatch d k unit row votes s)

/-! Recoveries (Table FLT-1, R400). -/

/-- The active bank of a fenced engine is written again from the image store of its last SEQ_LOAD, and the channels
that ran are started. -/
def State.psqRecover (s : State) (e : Fin 2) : State :=
  let s1 := match (s.sec.seqImg[e]).bind s.imageOf with
    | some g => s.loadSeq e.val (s.psq.active.getLsbD e.val) g
    | none => s
  (List.range 32).foldl (fun t k =>
    let c : Fin 64 := Fin.ofNat 64 (e.val * 32 + k)
    let go := t.psq.again.getLsbD c.val && t.en .psq && !t.inHold .psq
    let u : State := { t with psq := { t.psq with again := setBit t.psq.again c.val false } }
    if go then u.chStart c else u) s1

/-- Whether a recovery of a domain may end: it is fenced, and not for good unless a READMIT runs. -/
def State.recovering (s : State) (d : Fin 37) : Bool :=
  s.fenced d.val && (!s.flt.perm.getLsbD d.val || s.flt.readmit.getLsbD d.val) &&
  (decide (10 ≤ d.val ∧ d.val ≤ 20) || decide (23 ≤ d.val ∧ d.val ≤ 31))

/-- A recovery ends: a slice that fails its self-test, and a buffer manager with no die, are fenced for good; any
other domain leaves the fence (R400). -/
def doDomainRecovered (d : Fin 37) (pass : Bool) (s : State) : State :=
  if !s.recovering d then s
  else if (decide (d.val = 18 ∨ d.val = 19) && !pass) || (d.val = 20 && s.retired 0 && s.retired 1) then
    s.fltPermanent d 0x09
  else
    let s1 := s.fltLeave d
    if 23 ≤ d.val ∧ d.val ≤ 26 then s1.canRejoin (Fin.ofNat 4 (d.val - 23))
    else if d.val = 27 ∨ d.val = 28 then s1.psqRecover (Fin.ofNat 2 (d.val - 27))
    else s1

/-- The meaning of DOMAIN_RECOVERED. -/
def execDomainRecovered (d : Fin 37) (pass : Bool) (s : State) : Host.Outcome State Fault Refusal :=
  commit s (doDomainRecovered d pass s)

/-! FLT_CMD (R419, Table FLT-10). -/

/-- INFO8 of a command: 0 supervisor, 1 JTAG. -/
def cmdInfo (m : Master) : Byte := if m = .jtag then 1 else 0

/-- FENCE: its status and effect. -/
def State.fenceCmd (s : State) (m : Master) (n : Nat) : Byte × State :=
  if h : n < 37 then
    let d : Fin 37 := ⟨n, h⟩
    if decide (32 ≤ n) then (stPolicy, s)
    else if s.fenced n then (stBusError, s)
    else if (n = 18 && s.fenced 19) || (n = 19 && s.fenced 18) then (stPolicy, s)
    else if (n = 21 && s.retired 1) || (n = 22 && s.retired 0) then (stPolicy, s)
    else if n < 10 then
      let e : Fin 10 := Fin.ofNat 10 n
      if s.eng[e].st = .active && s.pickEngine.isNone then (stPolicy, s)
      else (stOk, s.fenceEngine e 0x0D (cmdInfo m) 0)
    else if n = 21 ∨ n = 22 then (stOk, s.retireDie (Fin.ofNat 2 (n - 21)) 0x0D (cmdInfo m) 0)
    else (stOk, s.latchDomain d ⟨0x0D, cmdInfo m, 0⟩)
  else (stBusError, s)

/-- READMIT: an engine runs its self-test, another domain its recovery, at whose end it leaves the fence. -/
def State.readmitCmd (s : State) (m : Master) (n : Nat) : Byte × State :=
  if h : n < 37 then
    let d : Fin 37 := ⟨n, h⟩
    if n = 21 ∨ n = 22 ∨ 32 ≤ n then (stPolicy, s)
    else if !s.fenced n then (stBusError, s)
    else
      let s1 : State := { s with flt := { s.flt with
        readmit := setBit s.flt.readmit n true
        recs := vset s.flt.recs d { s.flt.recs[d] with info8 := cmdInfo m } } }
      (stOk, if n < 10 && s1.eng[(Fin.ofNat 10 n : Fin 10)].st = .fenced then s1.startTest (Fin.ofNat 10 n) else s1)
  else (stBusError, s)

/-- A write of FLT_CMD: FENCE wins over READMIT; DOMAIN is kept, STATUS is of the last command. -/
def State.fltCmdWrite (s : State) (m : Master) (v : Word) : State :=
  let n := fieldOf v 0 6
  let s1 := s.setRegField fltCmd 0 6 n
  let s2 := if bitOf v 29 then (s1.setRegField fltCmd 16 8 0).startDone else s1
  if bitOf v 31 then
    let r := s2.fenceCmd m n
    r.2.setRegField fltCmd 16 8 r.1.toNat
  else if bitOf v 30 then
    let r := s2.readmitCmd m n
    r.2.setRegField fltCmd 16 8 r.1.toNat
  else s2

/-- The meaning of FENCE. -/
def execFence (m : Master) (d : BitVec 6) (s : State) : Host.Outcome State Fault Refusal :=
  commit s (s.guarded m fltCmd fun s => s.fltCmdWrite m (w32 (2 ^ 31 + d.toNat)))

/-- The meaning of READMIT. -/
def execReadmit (m : Master) (d : BitVec 6) (s : State) : Host.Outcome State Fault Refusal :=
  commit s (s.guarded m fltCmd fun s => s.fltCmdWrite m (w32 (2 ^ 30 + d.toNat)))

/-! The supervisor's restart (R401, R377). -/

/-- Due at the end of the hold that a fence of the supervisor or a SUP_UPDATE begins. -/
def doSupervisorRestart (s : State) : State :=
  if s.power = .run && ((s.fenced 36 && !s.sec.restarted) || s.sec.supNext.isSome) then s.restartSup else s

/-- The meaning of SUPERVISOR_RESTART. -/
def execSupervisorRestart (s : State) : Host.Outcome State Fault Refusal := commit s (doSupervisorRestart s)

/-! Twin mode (R409-R414, R419). -/

/-- Set the twin's state and role. -/
def State.setTwin (s : State) (st : TwinState) (shadow : Bool) : State :=
  { s with flt := { s.flt with twin := st, shadow := shadow, handover := none } }

/-- The TWIN_LOST entry. -/
def State.logTwin (s : State) (info : Byte) : State := s.fltLog 0x44 0x0C .noted info 0

/-- A write of FLT_TWIN_CFG (R419). -/
def State.twinCfg (s : State) (v : Word) : State :=
  let old := s.reg fltTwinCfg
  let new := v &&& 0x81010000#32
  let en := bitOf new 31
  if (s.flt.twin ≠ .off && (old ^^^ new) &&& 0x01010000#32 ≠ 0) ||
      (!en && (s.flt.twin = .syncing || s.flt.twin = .paired)) then s.rejReg .flt fltTwinCfg
  else
    let s1 := s.setReg fltTwinCfg new
    if !en then s1.setTwin .off false
    else if s.flt.twin = .off then s1.setTwin .down false
    else s1

/-- The meaning of TWIN_CFG_WRITE. -/
def execTwinCfgWrite (m : Master) (v : Word) (s : State) : Host.Outcome State Fault Refusal :=
  commit s (s.guarded m fltTwinCfg fun s => s.twinCfg v)

/-- The ring of FLT_TWIN_CFG.CAK. -/
def State.twinRing (s : State) : Fin 2 := Fin.ofNat 2 (fieldOf (s.reg fltTwinCfg) 24 1)

/-- What pairing requires of this device (R409): OWNED, a node of the ring, and its CAK held. -/
def State.twinReady (s : State) : Bool :=
  s.power = .run && s.sec.lifecycle = lcOwned && s.ringEn s.twinRing.val && (s.ringCak s.twinRing).isSome

/-- The role assigned at pairing (R410): whether this device is the SHADOW. `own`, `other`: the device, its partner
carries the cell role; `pref`: the partner's PREF_LEAD. A tie falls to the next criterion (DESIGN CHOICE, log 32). -/
def State.pairShadow (s : State) (peer : BitVec 64) (own other pref : Bool) : Bool :=
  let mine := own || s.flt.twin = .alone
  let prefer := bitOf (s.reg fltTwinCfg) 16
  if mine ≠ other then other
  else if prefer ≠ pref then pref
  else decide (peer.toNat < s.sec.eui.toNat)

/-- Pairing: a partner that authenticates makes SYNCING, another counts and is noted. -/
def doTwinPairing (ok : Bool) (peer : BitVec 64) (own other pref : Bool) (s : State) : State :=
  if !s.twinReady || (s.flt.twin ≠ .down && s.flt.twin ≠ .alone) then s
  else if !ok then (s.count fltTwinAuthCnt).logTwin 3
  else
    let s1 := (s.setReg fltTwinPeerLo (peer.setWidth 32)).setReg fltTwinPeerHi ((peer >>> 32).setWidth 32)
    s1.setTwin .syncing (s.pairShadow peer own other pref)

/-- The meaning of TWIN_PAIRING. -/
def execTwinPairing (ok : Bool) (peer : BitVec 64) (own other pref : Bool) (s : State) :
    Host.Outcome State Fault Refusal :=
  commit s (doTwinPairing ok peer own other pref s)

/-- SYNCING ends; a mirrored image store that fails its verification at the SHADOW holds the pair there (R410). -/
def doTwinPaired (ok : Bool) (s : State) : State :=
  if s.flt.twin ≠ .syncing then s
  else if ok then s.setTwin .paired s.flt.shadow
  else if s.flt.shadow then s.count fltTwinAuthCnt
  else s

/-- The meaning of TWIN_PAIRED. -/
def execTwinPaired (ok : Bool) (s : State) : Host.Outcome State Fault Refusal := commit s (doTwinPaired ok s)

/-- The partner is lost after PAIRED: this device carries the role ALONE (R410, R413). -/
def State.twinAlone (s : State) (info : Byte) : State := (s.setTwin .alone false).logTwin info

/-- A loss that leaves each twin in its role, DOWN (R413). -/
def State.twinDown (s : State) (info : Byte) : State :=
  ((s.setTwin .down s.flt.shadow).logTwin info).count fltTwinLossCnt

/-- A FAIL message arrives (R413, Table FLT-6). -/
def doTwinFailMessage (s : State) : State :=
  match s.flt.twin with
  | .paired => s.twinAlone 2
  | .syncing => s.setTwin .down s.flt.shadow
  | _ => s

/-- The meaning of TWIN_FAIL_MESSAGE. -/
def execTwinFailMessage (s : State) : Host.Outcome State Fault Refusal := commit s (doTwinFailMessage s)

/-- LOS on the TW lane; `ring`: within 1 µs of LOS on the ring port toward the partner (R413). -/
def doTwinLos (ring : Bool) (s : State) : State :=
  match s.flt.twin with
  | .paired => if ring then s.twinAlone 0 else s.twinDown 0
  | .syncing => s.twinDown 0
  | _ => s

/-- The meaning of TWIN_LOS. -/
def execTwinLos (ring : Bool) (s : State) : Host.Outcome State Fault Refusal := commit s (doTwinLos ring s)

/-- Four heartbeats missed (R413). -/
def doTwinHeartbeatMiss (s : State) : State :=
  match s.flt.twin with
  | .paired => s.twinDown 1
  | .syncing => s.twinDown 1
  | _ => s

/-- The meaning of TWIN_HEARTBEAT_MISS. -/
def execTwinHeartbeatMiss (s : State) : Host.Outcome State Fault Refusal := commit s (doTwinHeartbeatMiss s)

/-- Tick B (R414): the first D0 instant at a whole millisecond that falls at least 100 µs after `t`. -/
def tickB (t : DTime) : DTime :=
  let ms := 1000000 * 2 ^ 32
  let b := (dtVal t + 100000 * 2 ^ 32 + (ms - 1)) / ms * 1000000
  dtMk (b / 1000000000) (b % 1000000000) 0

/-- FLT_TWIN_CMD: HANDOVER at a PAIRED LEAD schedules the exchange; elsewhere it is rejected (R414). -/
def State.twinCmd (s : State) (v : Word) : State :=
  if !bitOf v 0 then s
  else if s.flt.twin = .paired && !s.flt.shadow then
    { s with flt := { s.flt with handover := some (tickB (s.time 0)) } }
  else s.rejReg .flt fltTwinCmd

/-- The meaning of HANDOVER. -/
def execHandover (m : Master) (s : State) : Host.Outcome State Fault Refusal :=
  commit s (s.guarded m fltTwinCmd fun s => s.twinCmd 1)

/-- Tick B: the roles are exchanged; a SHADOW takes the tick as the LEAD's. -/
def doTwinHandoverTick (s : State) : State :=
  let due : Bool := match s.flt.handover with
    | some b => decide (dtVal b ≤ dtVal (s.time 0))
    | none => s.flt.shadow
  if s.flt.twin = .paired && due then s.setTwin .paired (!s.flt.shadow) else s

/-- The meaning of TWIN_HANDOVER_TICK. -/
def execTwinHandoverTick (s : State) : Host.Outcome State Fault Refusal := commit s (doTwinHandoverTick s)

end Sys2Proof.Machine
end

