-- ==== Sys2Proof/Machine/Spaces.lean ====
section
/-! DEFINITION. Indirect access (R49-R52): the spaces of every block, what an entry reads as and what a commit of one
does, the two sets of IND registers with their entry buffers. -/

namespace Sys2Proof.Machine

/-! The spaces. -/

/-- How a space is written: at any time, under R52, or never. -/
inductive SpKind where
  | rw | cf | ro
deriving DecidableEq, Repr

/-- A space: words, entry size E, kind; whether it is supervisor-only, and whether it answers at debug level D2 or
above only (R123). -/
structure SpaceRow where
  size : Nat
  e : Nat
  kind : SpKind
  sup : Bool
  dbg : Bool
deriving DecidableEq, Repr

/-- The spaces of a block, by its chapter. -/
def spaceOf (b : Blk) (sp : Nat) : Option SpaceRow :=
  match b, sp with
  | .clk, 0 => some ⟨19, 1, .ro, false, false⟩
  | .glb, 0 => some ⟨16, 1, .ro, false, false⟩
  | .dtm, 0 => some ⟨32, 4, .ro, false, false⟩
  | .dtm, 1 => some ⟨16, 4, .ro, false, false⟩
  | .eth _, 0 => some ⟨128, 1, .rw, false, false⟩
  | .eth _, 1 => some ⟨64, 4, .rw, false, false⟩
  | .eth _, 2 => some ⟨16, 1, .cf, false, false⟩
  | .eth _, 3 => some ⟨320, 16, .rw, true, false⟩
  | .eth _, 4 => some ⟨8, 2, .cf, true, false⟩
  | .swc, 0 => some ⟨65536, 4, .rw, false, false⟩
  | .swc, 1 => some ⟨16384, 4, .cf, false, false⟩
  | .swc, 2 => some ⟨2048, 8, .cf, false, false⟩
  | .swc, 3 => some ⟨128, 4, .cf, false, false⟩
  | .swc, 4 => some ⟨8192, 2, .rw, false, false⟩
  | .swc, 5 => some ⟨704, 32, .cf, false, false⟩
  | .swc, 6 => some ⟨352, 1, .rw, false, false⟩
  | .nrg, 0 => some ⟨4096, 2, .cf, false, false⟩
  | .nrg, 1 => some ⟨2048, 1, .ro, false, false⟩
  | .nrg, 2 => some ⟨128, 32, .rw, true, false⟩
  | .nrg, 3 => some ⟨32, 4, .cf, false, false⟩
  | .can _, 0 => some ⟨12288, 24, .rw, false, false⟩
  | .can _, 1 => some ⟨1280, 20, .rw, false, false⟩
  | .can _, 2 => some ⟨2048, 1, .cf, false, false⟩
  | .can _, 3 => some ⟨32, 1, .cf, false, false⟩
  | .psq, 0 => some ⟨1024, 1, .rw, true, false⟩
  | .psq, 1 => some ⟨1024, 1, .rw, true, false⟩
  | .psq, 2 => some ⟨1024, 1, .ro, false, false⟩
  | .psq, 3 => some ⟨1024, 1, .ro, false, false⟩
  | .hif, 0 => some ⟨4096, 16, .rw, false, false⟩
  | .hif, 1 => some ⟨128, 2, .cf, false, false⟩
  | .hif, 2 => some ⟨256, 8, .cf, false, false⟩
  | .hif, 3 => some ⟨256, 8, .cf, false, false⟩
  | .pec _, 0 => some ⟨16384, 4, .rw, true, false⟩
  | .pec _, 1 => some ⟨16384, 4, .ro, false, true⟩
  | .pec _, 2 => some ⟨36, 1, .cf, true, false⟩
  | .pec _, 3 => some ⟨256, 4, .cf, true, false⟩
  | .pec _, 4 => some ⟨512, 1, .rw, false, true⟩
  | .pec _, 5 => some ⟨8192, 1, .rw, false, true⟩
  | .pec _, 6 => some ⟨8, 8, .cf, true, false⟩
  | .mem, 0 => some ⟨448, 4, .ro, false, false⟩
  | .flt, 0 => some ⟨256, 4, .ro, false, false⟩
  | .sec, 0 => some ⟨48, 1, .ro, false, false⟩
  | .xpb, 0 => some ⟨128, 4, .ro, false, false⟩
  | .xpb, 1 => some ⟨128, 8, .cf, false, false⟩
  | .xpb, 2 => some ⟨8, 1, .cf, false, false⟩
  | .xpb, 3 => some ⟨4096, 1, .rw, false, false⟩
  | .sgm, 0 => some ⟨8192, 8, .cf, false, false⟩
  | _, _ => none

/-- The spaces there are now: the tuning words are absent in RGMII mode (Table ETH-9). -/
def State.spaceAt (s : State) (b : Blk) (sp : Nat) : Option SpaceRow :=
  match b with
  | .eth n => if sp = 2 && s.ethModeOf n = 4 then none else spaceOf b sp
  | _ => spaceOf b sp

/-- Words that read 0 whatever they hold: keys (Tables ETH-9, NRG-13). -/
def keyWordAt (b : Blk) (sp w : Nat) : Bool :=
  match b, sp with
  | .eth _, 3 => decide (w % 16 < 8)
  | .nrg, 2 => true
  | _, _ => false

/-- The fence domain an indirect access belongs to (R398); PEC spaces 4 and 5 stay readable. -/
def spaceDomain (b : Blk) (sp w : Nat) : Option Nat :=
  match b with
  | .pec n => if sp = 4 ∨ sp = 5 then none else some n.val
  | .eth n => some (10 + n.val)
  | .can n => some (23 + n.val)
  | .xpb => some 31
  | .dtm => if sp = 1 then some (32 + w / 4) else none
  | .psq => some (27 + sp % 2)
  | _ => none

/-! What an entry reads as. -/

/-- The words of an entry, where they are not those stored in the space; a fetch of a receive object is the object
read (R265), and adapted tuning words are open (Table PKG-10). -/
def State.spaceGet (s : State) (b : Blk) (sp first e : Nat) : List Word × State :=
  match b, sp with
  | .glb, 0 => ([Config.deviceInfo first], s)
  | .dtm, 1 =>
    let t := s.dom[(Fin.ofNat 4 (first / 4) : Fin 4)].standby
    ([w32 (dtFrac t), w32 (dtNs t), w32 (dtSec t), w32 (dtSec t / 2 ^ 32)], s)
  | .eth n, 2 =>
    if (first = 3 ∨ first = 5) ∧ bitOf (s.tab (.eth n) 2 4) 1 then
      let r := s.draw
      ([r.1 &&& (if first = 3 then 0xF#32 else 0x3FFFFFFF#32)], r.2)
    else (s.tabWords b sp first e, s)
  | .swc, 5 =>
    let lp : Fin 22 := Fin.ofNat 22 (first / 32)
    ((List.range 32).map (fun k => if 20 ≤ k ∧ k < 28 then w32 (s.depth lp.val (k - 20)) else s.tab .swc 5 (first + k)), s)
  | .can n, 0 =>
    let ws := s.tabWords b sp first e
    (ws, if s.fenced (23 + n.val) then s else s.objRead n (first / 24))
  | .psq, _ => (s.tabWords .psq (psqSpace (sp % 2) (s.psq.active.getLsbD (sp % 2) != decide (sp < 2))) first e, s)
  | .pec n, 0 => (s.tabWords b (imemSpace (!s.eng[n].bank)) first e, s)
  | .pec n, 1 => (s.tabWords b (imemSpace s.eng[n].bank) first e, s)
  | .pec n, 3 => ((s.tabWords b 3 first 3) ++ [s.fwuStat n (first / 4)], s)
  | .pec n, 4 => ([Sys2Proof.Machine.ctxWord (ctxOf s.eng[n] (decide (0x100 ≤ first))) (decide (0x100 ≤ first)) (first % 0x100)], s)
  | .pec n, 5 => ([le32At (dmemRead s.eng[n] (first * 4) 4) 0], s)
  | _, _ => (s.tabWords b sp first e, s)

/-! What a commit does: false where the values are refused under R51. -/

/-- The largest value of a tuning word and its bits (Table PKG-10, R444). -/
def tuneMax (w : Nat) : Nat := [50, 6, 24, 15, 3, 0x3FFFFFFF].getD w 0
def tuneMask (w : Nat) : Word := w32 ([0x3F, 0xF, 0x1F, 0xF, 3, 0x3FFFFFFF].getD w 0)

/-- Whether two ranges share a place. -/
def rangesMeet (lo n lo' n' : Nat) : Bool := decide (lo < lo' + n') && decide (lo' < lo + n)

/-- An input region by its words: LEN, BOFS, OFFSET, and the bytes it occupies in the bank (R317). -/
def regionLen (w : List Word) : Nat := fieldOf (w.getD 0 0) 0 15
def regionBofs (w : List Word) : Nat := fieldOf (w.getD 1 0) 0 24
def regionOff (w : List Word) : Nat := fieldOf (w.getD 3 0) 0 17
def regionSpan (w : List Word) : Nat := 2 * slotSize (regionLen w) + 4

/-- The bank of a region, where its window maps one: two windows may map the same (R116); else its role and window. -/
def State.regionBank (s : State) (w : List Word) : Nat × Nat :=
  let r := fieldOf (w.getD 0 0) 16 4
  let n := fieldOf (w.getD 2 0) 0 5
  match s.roleBank (Fin.ofNat 10 r) n with
  | some b => (0, b)
  | none => (1 + r, n)

/-- Whether two valid input regions overlap in BAR4, with their commit words, or in their bank (R317). -/
def State.regionsMeet (s : State) (v w : List Word) : Bool :=
  (bitOf (v.getD 0 0) 30 = bitOf (w.getD 0 0) 30 &&
    rangesMeet (regionBofs v) (regionLen v + 4) (regionBofs w) (regionLen w + 4)) ||
  (s.regionBank v = s.regionBank w && rangesMeet (regionOff v) (regionSpan v) (regionOff w) (regionSpan w))

/-- Whether an input region may be committed as entry k (R317). -/
def State.regionOk (s : State) (k : Nat) (w : List Word) : Bool :=
  !bitOf (w.getD 0 0) 31 ||
    (decide (regionBofs w + regionLen w + 4 ≤ 0xFF0000) &&
      (List.range 32).all (fun j =>
        let v := s.tabWords .hif 3 (j * 8) 8
        j = k || !bitOf (v.getD 0 0) 31 || !s.regionsMeet v w))

/-- The destination of a route as a place and a range of words in it: endpoint kind, its key, first word. -/
def routeSpan (a : Word) (kind : Nat) : Nat × Nat × Nat :=
  match kind with
  | 0 => (0, 0, fieldOf a 0 12)
  | 1 => (1, 0, a.toNat / 4)
  | 2 => (2, fieldOf a 28 2 * 64 + fieldOf a 16 6, fieldOf a 0 4)
  | 3 => (3, fieldOf a 16 4 * 64 + fieldOf a 8 6, fieldOf a 0 8)
  | _ => (4, fieldOf a 0 6, 0)

/-- Whether a LEN fits an endpoint (Table SGM-1): the words of the XRF, of a frame's data, of a queue. -/
def routeFits (a : Word) (kind len : Nat) (dst : Bool) : Bool :=
  match kind with
  | 0 => decide (fieldOf a 0 12 + len ≤ 4096)
  | 1 => true
  | 2 => decide (fieldOf a 0 4 + len ≤ 16)
  | 3 => true
  | 4 => !dst || decide (len ≤ 8)
  | _ => false

/-- Whether a route may be committed as entry k (R334). Whether software reads the queue that is a source, nothing in
the machine shows: an open value decides it (log 23). -/
def State.routeOk (s : State) (k : Nat) (w : List Word) : Bool :=
  let w0 := w.getD 0 0
  let src := fieldOf w0 28 3
  let dst := fieldOf w0 25 3
  let len := fieldOf w0 0 5
  let far := s.xpbRole = 2 || s.xpbRole = 3
  let p := routeSpan (w.getD 2 0) dst
  !bitOf w0 31 ||
    (decide (1 ≤ len) && decide (len ≤ 16) && ((src ≠ 1 && dst ≠ 1) || far) &&
      routeFits (w.getD 1 0) src len false && routeFits (w.getD 2 0) dst len true &&
      (src ≠ 4 || !bitOf (Config.freeWord s.free) 0) &&
      s.routeKeys.all (fun j =>
        let v0 := s.routeWord j 0
        let q := routeSpan (s.routeWord j 2) (s.routeDst j)
        j = k || !bitOf v0 31 || p.1 ≠ q.1 || p.2.1 ≠ q.2.1 ||
          !rangesMeet p.2.2 len q.2.2 (s.routeLen j)))

/-- Write a word of an engine's context through space 4; the service context has no loop registers (Table PEC-12). -/
def State.ctxPoke (s : State) (e : Fin 10) (w : Nat) (v : Word) : State :=
  let svc := decide (0x100 ≤ w)
  let k := w % 0x100
  if svc && decide (0x4F ≤ k ∧ k < 0x5B) then s else s.setCtx e svc (Sys2Proof.Machine.setCtxWord (ctxOf s.eng[e] svc) k v)

/-- Commit an entry (R51). -/
def State.spacePut (s : State) (b : Blk) (sp first : Nat) (ws : List Word) : Bool × State :=
  let v := ws.getD 0 0
  match b, sp with
  | .eth _, 2 =>
    if tuneMax first < (v &&& tuneMask first).toNat then (false, s) else (true, s.setTab b 2 first (v &&& tuneMask first))
  | .can n, 0 => (true, s.objCommit n (first / 24) v)
  | .hif, 3 => if s.regionOk (first / 8) ws then (true, s.setTabs b 3 first ws) else (false, s)
  | .psq, _ => (true, s.setTabs .psq (psqSpace (sp % 2) (!s.psq.active.getLsbD (sp % 2))) first ws)
  | .pec n, 0 => (true, s.setTabs b (imemSpace (!s.eng[n].bank)) first ws)
  | .pec _, 2 =>
    if bitOf v 31 && decide ((if first < 32 then 96 else 16) ≤ fieldOf v 0 7) then (false, s)
    else (true, s.setTab b 2 first v)
  | .pec n, 4 => (true, s.ctxPoke n first v)
  | .pec n, 5 => (true, s.setEng n { s.eng[n] with dmem := dmemWrite s.eng[n].dmem (first * 4) (leBytes v) })
  | .xpb, 1 =>
    if bitOf v 31 && bitOf v 30 && s.xpbRole = 1 then (false, s) else (true, s.setTabs b 1 first ws)
  | .sgm, 0 =>
    let t : State := if bitOf v 31 && fieldOf v 28 3 = 4 then { s with free := s.free + 1 } else s
    if s.routeOk (first / 8) ws then (true, t.setTabs b 0 first ws) else (false, t)
  | _, _ => (true, s.setTabs b sp first ws)

/-! Writes of one word that a space refuses on arrival. -/

/-- A refusal as a rejected CF write is counted (R52), or answered BUS_ERROR alone. -/
inductive WordBar where
  | counted | plain
deriving DecidableEq, Repr

/-- The standing refusals of a word: the operative gate list (R212), a context that is not OFF (R296), a bank whose swap is
pending (R289), an engine that is not halted, a depth above 8 (R123). -/
def State.wordBar (s : State) (b : Blk) (sp w : Nat) (v : Word) : Option WordBar :=
  match b, sp with
  | .swc, 4 =>
    let n : Fin 8 := Fin.ofNat 8 (w / 1024)
    if decide (w / 512 % 2 = 1) = s.swc.gates[n].bank then some .counted else none
  | .hif, 0 => if w % 16 ≤ 8 && s.ctxState (Fin.ofNat 256 (w / 16)) ≠ 0 then some .counted else none
  | .psq, _ => if s.psq.swap.getLsbD (sp % 2) then some .counted else none
  | .pec n, 4 =>
    if !s.eng[n].halted || (w % 0x100 = 0x5B && decide (8 < v.toNat)) then some .plain else none
  | .pec n, 5 => if !s.eng[n].halted then some .plain else none
  | _, _ => none

/-- The word that a write leaves in the buffer, none where the write is ignored: CT words take only 0 (R9), words 1-23
of an object no write (R265); word 3 of a transmit buffer reads 0. -/
def bufferWord (b : Blk) (sp w : Nat) (v : Word) : Option Word :=
  match b, sp with
  | .swc, 6 => if v = 0 then some 0 else none
  | .hif, 0 => if w % 16 = 12 && v ≠ 0 then none else some v
  | .can _, 0 => if w % 24 = 0 then some v else none
  | .can _, 1 => some (if w % 20 = 3 then 0 else v)
  | _, _ => some v

/-! The IND registers (R49, R50). -/

/-- The set a master uses: the supervisor's, which JTAG shares, or the host's, which the expansion host shares
(R49, R327). -/
def supSet (m : Master) : Bool := m = .sup || m = .jtag

/-- Its key. -/
def indKey (b : Blk) (sup : Bool) : Nat := blkIdx b * 2 + b2n sup

/-- A set. -/
def State.indOf (s : State) (b : Blk) (sup : Bool) : IndSet := amGet (fun _ => indReset) s.ind (indKey b sup)

/-- Replace it. -/
def State.setInd (s : State) (b : Blk) (sup : Bool) (x : IndSet) : State :=
  { s with ind := amPut (fun _ => indReset) s.ind (indKey b sup) x }

/-- Change it. -/
def State.modInd (s : State) (b : Blk) (sup : Bool) (f : IndSet → IndSet) : State := s.setInd b sup (f (s.indOf b sup))

/-- SPACE and WORD of an address. -/
def indSpace (a : Word) : Nat := fieldOf a 24 7
def indWord (a : Word) : Nat := fieldOf a 0 24

/-- Whether CF spaces of a block are closed (R52). -/
def State.cfClosed (s : State) (b : Blk) : Bool := s.en b || !s.quiesced b

/-- A rejected indirect write (R46, R52). -/
def State.indReject (s : State) (b : Blk) (sup : Bool) (a : Word) (status : Byte) : State :=
  (s.cfgRej b true a.toNat).modInd b sup (fun x => { x with status := status })

/-- Whether a space takes no write now: a CF space under R52, or one that is no longer there. -/
def State.spaceClosed (s : State) (b : Blk) (sp : Nat) : Bool :=
  match s.spaceAt b sp with
  | some row => row.kind = .cf && s.cfClosed b
  | none => true

/-- Whether a word of an entry would be refused on arrival now: one that the buffer would change. -/
def State.commitBar (s : State) (b : Blk) (sp first : Nat) (ws : List Word) : Bool :=
  (List.range ws.length).any (fun k =>
    let v := ws.getD k 0
    (s.wordBar b sp (first + k) v).isSome && (b ≠ .hif || v ≠ s.tab b sp (first + k)))

/-- Commit a dirty buffer (R51), checked again in its own cycle (R52): the entry is left unchanged if its space has
closed, if a word is refused by now (R212, R289, R296), or if its domain is fenced (R398). DESIGN CHOICE (log 33):
R52 does not say which IND_ADDR is recorded when the move that commits was made by a write of IND_ADDR; the model
records the address before the move. -/
def State.indCommit (s : State) (b : Blk) (sup : Bool) : State :=
  let x := s.indOf b sup
  let s1 := s.setInd b sup { x with dirty := false }
  match x.held with
  | none => s1
  | some (sp, first) =>
    if !x.dirty then s
    else if (match spaceDomain b sp first with | some d => s.fenced d | none => false) then
      s1.modInd b sup (fun y => { y with status := stFenced })
    else if s.spaceClosed b sp || s.commitBar b sp first x.words then s1.indReject b sup x.addr stBusError
    else
      let r := s1.spacePut b sp first x.words
      if r.1 then r.2 else r.2.indReject b sup x.addr stBusError

/-- The fetch in progress completes (R50). -/
def State.indFill (s : State) (b : Blk) (sup : Bool) : State :=
  let x := s.indOf b sup
  let sp := indSpace x.addr
  let w := indWord x.addr
  if !x.busy then s
  else
    match s.spaceAt b sp with
    | none => s.setInd b sup { x with busy := false, held := none, words := [], dirty := false }
    | some row =>
      if w < row.size then
        let first := w / row.e * row.e
        let r := s.spaceGet b sp first row.e
        r.2.setInd b sup { x with busy := false, held := some (sp, first), words := r.1, dirty := false }
      else s.setInd b sup { x with busy := false, held := none, words := [], dirty := false }

/-- Whether an address names a word of the entry held. -/
def heldHas (x : IndSet) (a : Word) : Bool :=
  match x.held with
  | some (sp, first) => sp = indSpace a && decide (first ≤ indWord a) && decide (indWord a < first + x.words.length)
  | none => false

/-- IND_ADDR moves to an address and its entry is fetched; a dirty buffer commits first. -/
def State.indFetch (s : State) (b : Blk) (sup : Bool) (a : Word) : State :=
  (s.indCommit b sup).modInd b sup (fun x => { x with addr := a, busy := true, held := none, words := [], dirty := false })

/-- A write of IND_ADDR: within the entry held by a dirty buffer it makes no fetch (R50). -/
def State.indAddr (s : State) (b : Blk) (sup : Bool) (v : Word) : State :=
  let a := v &&& 0x7FFFFFFF#32
  let x := s.indOf b sup
  if x.dirty && heldHas x a then s.setInd b sup { x with addr := a } else s.indFetch b sup a

/-- The words that IND_ADDR advances by after an access (Table GLB-14). -/
def State.indStep (s : State) (b : Blk) (x : IndSet) : Nat :=
  match x.inc with
  | 1 => 1
  | 2 => match s.spaceAt b (indSpace x.addr) with
    | some row => row.e
    | none => 1
  | _ => 0

/-- IND_ADDR after an access (R50). -/
def State.indNext (s : State) (b : Blk) (x : IndSet) : Word :=
  w32 (2 ^ 24 * indSpace x.addr + (indWord x.addr + s.indStep b x) % 2 ^ 24)

/-- The advance after an access (R50, Table GLB-14). -/
def State.indAdvance (s : State) (b : Blk) (sup : Bool) : State :=
  let x := s.indOf b sup
  let a := s.indNext b x
  if s.indStep b x = 0 then s
  else if heldHas x a then s.setInd b sup { x with addr := a }
  else s.indFetch b sup a

/-- Whether an access of IND_DATA is one at which the entry held commits (R51): of its last word, or with an advance
out of it. -/
def State.indEnds (s : State) (b : Blk) (x : IndSet) : Bool :=
  match x.held with
  | some (_, first) =>
    decide (indWord x.addr + 1 = first + x.words.length) || (s.indStep b x ≠ 0 && !heldHas x (s.indNext b x))
  | none => false

/-- A rejected write of IND_DATA: counted once; where it would commit the entry, the commit is rejected with it (R52). -/
def State.indDataReject (s : State) (b : Blk) (sup : Bool) (x : IndSet) : State :=
  (s.indReject b sup x.addr stBusError).modInd b sup (fun y => { y with dirty := x.dirty && !s.indEnds b x })

/-- Why an access of a master to a word is refused; `write`: a write to a read-only space is, too. -/
def State.indRefusal (s : State) (m : Master) (b : Blk) (sp w : Nat) (write : Bool) : Option Byte :=
  match s.spaceAt b sp with
  | none => some stBusError
  | some row =>
    if row.sup && !s.supReach m then some stPolicy
    else if row.dbg && decide (s.dbgLevel < 2) then some stPolicy
    else if (match spaceDomain b sp w with | some d => s.fenced d | none => false) then some stFenced
    else if row.size ≤ w || (write && row.kind = .ro) then some stBusError
    else none

/-- Whether a space is supervisor-only. -/
def supSpace (b : Blk) (sp : Nat) : Bool := match spaceOf b sp with | some row => row.sup | none => false

/-- A read of IND_DATA. -/
def State.indRead (s : State) (m : Master) (b : Blk) : Word × State :=
  let sup := supSet m
  let s1 := s.indFill b sup
  let x := s1.indOf b sup
  let sp := indSpace x.addr
  let w := indWord x.addr
  match s1.indRefusal m b sp w false with
  | some st => (0, (s1.setInd b sup { x with status := st }).indAdvance b sup)
  | none =>
    let first := match x.held with
      | some p => p.2
      | none => w
    let v := if keyWordAt b sp w then 0 else x.words.getD (w - first) 0
    (v, (s1.setInd b sup { x with status := stOk }).indAdvance b sup)

/-- A write of IND_DATA. -/
def State.indWrite (s : State) (m : Master) (b : Blk) (v : Word) : State :=
  let sup := supSet m
  let s1 := s.indFill b sup
  let x := s1.indOf b sup
  let sp := indSpace x.addr
  let w := indWord x.addr
  let s2 : State :=
    match s1.indRefusal m b sp w true with
    | some st =>
      if st = stPolicy && supSpace b sp then s1.indReject b sup x.addr st
      else s1.setInd b sup { x with status := st }
    | none =>
      if s1.spaceClosed b sp then s1.indDataReject b sup x
      else
        match s1.wordBar b sp w v with
        | some .counted => s1.indDataReject b sup x
        | some .plain => s1.setInd b sup { x with status := stBusError }
        | none =>
          let first := match x.held with
            | some p => p.2
            | none => w
          let k := w - first
          let s3 := match bufferWord b sp w v with
            | some u => s1.setInd b sup { x with words := x.words.set k u, dirty := true, status := stOk }
            | none => s1.setInd b sup { x with status := stOk }
          if k + 1 = x.words.length then s3.indCommit b sup else s3
  s2.indAdvance b sup

/-- IND_CTRL (Table GLB-14). -/
def State.indCtrl (s : State) (b : Blk) (sup : Bool) : Word :=
  let x := s.indOf b sup
  w32 (65536 * x.status.toNat + 256 * b2n x.busy + x.inc.toNat)

/-! The rows. -/

/-- IND_ADDR_WRITE. -/
def execIndAddrWrite (m : Master) (b : Blk) (v : Word) (s : State) : Host.Outcome State Fault Refusal :=
  commit s (s.guarded m (blkBase b + 0x10) fun s => s.indAddr b (supSet m) v)

/-- IND_FETCH_DONE. -/
def execIndFetchDone (b : Blk) (sup : Bool) (s : State) : Host.Outcome State Fault Refusal :=
  commit s (s.indFill b sup)

/-- A read of IND_DATA by a master. -/
def doIndDataRead (m : Master) (b : Blk) (s : State) : State :=
  s.guardedRead m (blkBase b + 0x14) fun s =>
    let r := s.indRead m b
    r.2.emit (.readData m (w32 (blkBase b + 0x14)) r.1)

/-- IND_DATA_READ. -/
def execIndDataRead (m : Master) (b : Blk) (s : State) : Host.Outcome State Fault Refusal :=
  commit s (doIndDataRead m b s)

/-- IND_DATA_WRITE. -/
def execIndDataWrite (m : Master) (b : Blk) (v : Word) (s : State) : Host.Outcome State Fault Refusal :=
  commit s (s.guarded m (blkBase b + 0x14) fun s => s.indWrite m b v)

end Sys2Proof.Machine
end

