-- ==== Sys2Proof/Machine/RegAccess.lean ====
section
/-! DEFINITION. The register port (R9, R36-R48): what a read of a register returns, what a write does, EN and QUIESCE
of a block, and the rows of chapter 03. -/

namespace Sys2Proof.Machine

/-! EN and QUIESCE (R43, R44). -/

/-- Blocks whose EN reads 1 and ignores writes, and whose QUIESCE has no effect. -/
def fixedEn : Blk → Bool
  | .glb => true
  | .mbx => true
  | .sec => true
  | .flt => true
  | _ => false

/-- Blocks whose EN, once 1, stays so until the next cold start, and whose QUIESCE holds nothing (R35, R58, R85). -/
def stickyEn : Blk → Bool
  | .clk => true
  | .dtm => true
  | _ => false

/-- What a block does as it enters hold: periodic units disarm (R87), channels stop (R290). -/
def State.holdEffect (s : State) : Blk → State
  | .ttc => s.quiesceTtc
  | .psq => s.psqHold
  | .can n => s.canHold n
  | _ => s

/-- QUIESCE is accepted (R43). -/
def State.quiesceBlk (s : State) (b : Blk) : State :=
  if fixedEn b || stickyEn b || s.inHold b then s else (s.setHold b true).holdEffect b

/-- EN goes from 1 to 0 (R44): hold, and what the block's chapter adds. -/
def State.disableBlk (s : State) (b : Blk) : State :=
  let s0 := (s.setRegBit (blkBase b) 0 false).setHold b true
  let s1 := if s.inHold b then s0 else s0.holdEffect b
  match b with
  | .ttc => s1.disarmAll
  | .eth n => (s1.setEth n { s1.eth[n] with hdRefused := false }).restPort n
  | .nrg => (s1.ringStop 0).ringStop 1
  | _ => s1

/-- EN goes from 0 to 1: hold ends, rings start in LISTEN (R258), a channel integrates (R275). -/
def State.enableBlk (s : State) (b : Blk) : State :=
  let s1 := (s.setRegBit (blkBase b) 0 true).setHold b false
  match b with
  | .nrg => (s1.ringStart 0).ringStart 1
  | .can n => s1.canJoin n
  | _ => s1

/-- A write of CTRL. -/
def State.ctrlWrite (s : State) (b : Blk) (en quiesce : Bool) : State :=
  if fixedEn b then s
  else if stickyEn b then (if en then s.setRegBit (blkBase b) 0 true else s)
  else
    match s.en b, en with
    | false, true => s.enableBlk b
    | true, false => s.disableBlk b
    | _, _ => if quiesce then s.quiesceBlk b else s

/-- QUIESCE. -/
def execQuiesce (m : Master) (b : Blk) (s : State) : Host.Outcome State Fault Refusal :=
  commit s (s.guarded m (blkBase b) fun s => s.quiesceBlk b)

/-- EN_WRITE. -/
def execEnWrite (m : Master) (b : Blk) (en quiesce : Bool) (s : State) : Host.Outcome State Fault Refusal :=
  commit s (s.guarded m (blkBase b) fun s => s.ctrlWrite b en quiesce)

/-- The last accepted work of a block in hold completes where no row of its own ends it: the frame a port sends, a
ring's own envelope, the frame a CAN channel receives. STATUS.QUIESCED follows. -/
def doQuiesceComplete (b : Blk) (s : State) : State :=
  if !s.inHold b then s
  else
    match b with
    | .eth n => (s.finishTx n).restPort n
    | .nrg => (s.envDone 0).envDone 1
    | .can n => s.canQuiet n
    | _ => s

/-- QUIESCE_COMPLETE. -/
def execQuiesceComplete (b : Blk) (s : State) : Host.Outcome State Fault Refusal := commit s (doQuiesceComplete b s)

/-! Reads. -/

/-- The live words above a wide value's low word, with their SH registers (R47). -/
def State.wideWords (s : State) (b : Blk) (o : Nat) : List (Nat × Word) :=
  let a := blkBase b + o
  match b with
  | .glb => if o = 0x24 then [(a + 4, s.reg (a + 4))] else []
  | .flt => if o = 0x70 then [(a + 4, s.reg (a + 4))] else []
  | .eth _ => if [0x100, 0x108, 0x110, 0x118].contains o then [(a + 4, s.reg (a + 4))] else []
  | .dtm =>
    if 0x100 ≤ o ∧ o < 0x200 ∧ o % 0x40 = 0 then
      let t := s.time (Fin.ofNat 4 ((o - 0x100) / 0x40))
      [(a + 4, w32 (dtNs t)), (a + 8, w32 (dtSec t)), (a + 12, w32 (dtSec t / 2 ^ 32))]
    else []
  | _ => []

/-- Latch words for a master. -/
def State.latchAll (s : State) (m : Master) (l : List (Nat × Word)) : State := l.foldl (fun t p => t.latch m p.1 p.2) s

/-- FLT_TWIN_STATUS. -/
def State.twinStatus (s : State) : Word :=
  let st := match s.flt.twin with
    | .off => 0
    | .down => 1
    | .syncing => 2
    | .paired => 3
    | .alone => 4
  w32 (256 * st + b2n s.flt.shadow)

/-- CLK_PWR_STATE: P1 while a gateable island is off (R391). -/
def State.pwrState (s : State) : Word := w32 (b2n (decide (gateable &&& ~~~((s.reg clkIslOn).setWidth 19) ≠ 0)))

/-- ETH_MDIO_CMD: GO while it waits, BUSY, the fields (R173). -/
def State.mdioWord (s : State) (n : Fin 8) : Word :=
  let x := s.eth[n].mdio
  s.reg (ethMdioCmd n.val) ||| w32 (2 ^ 31 * b2n x.goWait + 2 ^ 30 * b2n x.busy)

/-- What the register at offset `o` of a block reads as, where it is not the word stored; reads of queues remove
their head. None: the read is answered BUS_ERROR (R340). -/
def State.viewReg (s : State) (m : Master) (b : Blk) (o : Nat) : Option Word × State :=
  let plain : Word → Option Word × State := fun v => (some v, s)
  let pop : Word × State → Option Word × State := fun r => (some r.1, r.2)
  match b with
  | .glb =>
    if o = 0x40 then plain (w32 s.availStatus)
    else if o = 0x44 then plain (if s.power = .held then 0 else w32 (s.sparePlls * 16 + s.engineSpares))
    else if o = 0x50 then plain s.intSummary
    else if o = 0x34 then plain 0
    else plain (s.reg o)
  | .clk =>
    if o = 0x100 then plain s.pwrState
    else if o = 0x104 then plain 0
    else plain (s.reg (0x10000 + o))
  | .dtm =>
    if o = 0x20 then plain 0
    else if 0x100 ≤ o ∧ o < 0x200 ∧ o % 0x40 = 0 then
      plain (w32 (dtFrac (s.time (Fin.ofNat 4 ((o - 0x100) / 0x40)))))
    else plain (s.reg (0x20000 + o))
  | .ttc =>
    if o = 0x24 then plain (bitsFrom 32 (fun k => decide (k < 24) && s.ttu[(Fin.ofNat 24 k : Fin 24)].armed))
    else if 0x100 ≤ o then pop (s.ttcUnitRead (masterIdx m) o)
    else plain (s.reg (0x30000 + o))
  | .hif =>
    if o = 0x30 then pop (s.buserrPop m)
    else if o = 0x3C then plain (w32 s.hif.buserr.length)
    else if 0x100 ≤ o then plain (s.ctxOnWord ((o - 0x100) / 4))
    else plain (s.reg (0x40000 + o))
  | .eth n =>
    if o = 0x40 then pop (s.tsqPop m n)
    else if o = 0x50 then plain (w32 s.eth[n].tsq.length)
    else if 0x80 ≤ o ∧ o < 0x100 ∧ o % 0x10 = 0xC then plain (w32 (s.pfcUse n ((o - 0x80) / 0x10)))
    else if o = 0x304 then plain (s.mdioWord n)
    else plain (s.reg (blkBase b + o))
  | .swc =>
    if 0x100 ≤ o ∧ o % 0x20 = 8 then plain (s.gateStatus (Fin.ofNat 8 ((o - 0x100) / 0x20)))
    else plain (s.reg (0xA0000 + o))
  | .bfm =>
    if o = 0x20 then plain (w32 s.ipbFree)
    else if o = 0x24 then plain (w32 s.expFree)
    else if o = 0x34 then plain 0
    else plain (s.reg (0xC0000 + o))
  | .nrg =>
    if 0x100 ≤ o ∧ o < 0x300 ∧ o % 0x100 = 0x38 then plain 0
    else if 0x100 ≤ o ∧ o < 0x300 ∧ o % 0x100 = 0x40 then plain (s.ringStateWord (Fin.ofNat 2 ((o - 0x100) / 0x100)))
    else if 0x100 ≤ o ∧ o < 0x300 ∧ o % 0x100 = 0x4C then plain (s.cfgHash (Fin.ofNat 2 ((o - 0x100) / 0x100)))
    else plain (s.reg (0xD0000 + o))
  | .can n =>
    if o = 0x30 then plain (w32 s.can[n].tdcv)
    else if o = 0x44 then plain (s.canTtStateWord n)
    else if o = 0x48 then plain (s.canErrcntWord n)
    else if o = 0x4C then plain (w32 s.can[n].prog)
    else if o = 0x70 then pop (s.txevRead (masterIdx m) n)
    else if o = 0x78 then plain (w32 s.can[n].events.length)
    else plain (s.reg (blkBase b + o))
  | .psq =>
    if o = 0x20 then plain 0
    else if o = 0x24 then plain (s.psq.active.setWidth 32)
    else if o = 0x30 ∨ o = 0x34 then plain (s.chBits ((o - 0x30) / 4) (fun x => decide (x.rxq ≠ [])))
    else if o = 0x40 ∨ o = 0x44 then plain (s.chBits ((o - 0x40) / 4) (fun x => x.st = .fault))
    else if 0x1000 ≤ o then pop (s.psqChanRead (Fin.ofNat 64 ((o - 0x1000) / 0x80)) (o % 0x80))
    else plain (s.reg (0xF0000 + o))
  | .pec n =>
    if o = 0x20 then plain (s.pecStateWord n)
    else if o = 0x24 then plain (w32 (256 * b2n s.eng[n].bank))
    else if o = 0x38 then plain 0
    else if o = 0x64 then plain (s.dbgStatusWord n)
    else if o = 0x68 then plain (s.dbgPcWord n)
    else plain (s.reg (blkBase b + o))
  | .mbx =>
    if o = 0x28 ∨ o = 0x2C then plain (s.mbx.full.extractLsb' ((o - 0x28) * 8) 32)
    else if o = 0x38 ∨ o = 0x3C then plain (s.mbx.notice.extractLsb' ((o - 0x38) * 8) 32)
    else if 0x1000 ≤ o then s.mbxRead (.bus m) (Fin.ofNat 64 ((o - 0x1000) / 64)) ((o - 0x1000) / 4 % 16)
    else plain (s.reg (0x1A0000 + o))
  | .mem => plain (s.reg (0x1B0000 + o))
  | .xpb => plain (s.reg (0x1C0000 + o))
  | .sgm => plain (s.reg (0x1D0000 + o))
  | .sec =>
    if o = 0x20 then plain s.ownerSlotsWord
    else if 0x40 ≤ o ∧ o < 0x80 then
      plain (s.sec.rollback[(Fin.ofNat 16 ((o - 0x40) / 4) : Fin 16)].setWidth 32)
    else plain (s.reg (0x1E0000 + o))
  | .flt =>
    if o = 0x2C then plain (s.flt.fenced.extractLsb' 0 32)
    else if o = 0x30 then plain ((s.flt.fenced.extractLsb' 32 5).setWidth 32)
    else if o = 0x34 then plain (s.flt.perm.extractLsb' 0 32)
    else if o = 0x38 then plain ((s.flt.perm.extractLsb' 32 5).setWidth 32)
    else if o = 0x40 then plain (s.flt.logSeq.setWidth 32)
    else if o = 0x64 then plain s.twinStatus
    else if o = 0x68 then plain 0
    else if o = 0x6C && s.shadowSteered then pop s.draw
    else plain (s.reg (0x1F0000 + o))

/-- What a read of a register that is let through returns: the header, a latched SH word, a wide value's low word
with its latch, or the register as it reads. -/
def State.readReg (s : State) (m : Master) (b : Blk) (o : Nat) (row : RegRow) : Option Word × State :=
  if o = 0 then (some (w32 (b2n (s.en b))), s)
  else if o = 4 then (some (w32 (s.statusOf b)), s)
  else if o = 0x10 then (some (s.indOf b (supSet m)).addr, s)
  else if o = 0x14 then
    let r := s.indRead m b
    (some r.1, r.2)
  else if o = 0x18 then (some (s.indCtrl b (supSet m)), s)
  else if row.kind = .sh then (some (s.latched m (blkBase b + o)), s)
  else (s.latchAll m (s.wideWords b o)).viewReg m b o

/-- A register read: its status and word. -/
def State.regRead (s : State) (m : Master) (a : Nat) : Byte × Word × State :=
  match s.access m false a with
  | .err st => (st, 0, s)
  | .supOnly _ => (stOk, 0, s)
  | .ok b o row =>
    match s.readReg m b o row with
    | (some v, t) => (stOk, v, t)
    | (none, t) => (stBusError, 0, t)

/-- A register read as its master sees it answered (R39, R40). -/
def doRegRead (m : Master) (a : Nat) (s : State) : State :=
  let r := s.regRead m a
  if r.1 = stOk then r.2.2.emit (.readData m (w32 a) r.2.1) else r.2.2.accessErr m false 0 a r.1

/-- WIDE_LOW_READ: a read of the register at a BAR0 offset; of a wide value's low word it latches the higher words. -/
def execWideLowRead (m : Master) (a : Word) (s : State) : Host.Outcome State Fault Refusal :=
  commit s (doRegRead m a.toNat s)

/-! Writes. -/

/-- Whether a port offers a mode (Table ETH-1); RGMII also needs its bank at 1.8 V or 2.5 V (R441). -/
def State.modeOk (s : State) (n : Fin 8) (mode : Nat) : Bool :=
  match mode with
  | 0 => true
  | 1 => decide (n.val < 6)
  | 2 => true
  | 3 => true
  | 4 => decide (n.val < 4) && decide (fieldOf (s.reg psqIobank) (if n.val < 2 then 0 else 2) 2 < 2)
  | 5 => decide (6 ≤ n.val)
  | 6 => decide (6 ≤ n.val)
  | _ => false

/-- The tuning words take the defaults of the mode, which the manual does not give: open values in range (R444). -/
def State.tuneDefaults (s : State) (n : Fin 8) : State :=
  (List.range 6).foldl (fun t w =>
    let r := t.draw
    r.2.setTab (.eth n) 2 w (w32 (r.1.toNat % (tuneMax w + 1)))) s

/-- Whether a CF register takes a value: R167, R174, R190, R192, R253, R269, R270, R322, R364 and Tables CLK-3,
XPB-5. -/
def State.cfTakes (s : State) (b : Blk) (o : Nat) (v : Word) : Bool :=
  match b, o with
  | .clk, 0x24 => v = 320
  | .eth n, 0x20 => s.modeOk n (fieldOf v 0 4)
  | .eth _, 0x24 => decide (64 ≤ fieldOf v 0 14) && decide (fieldOf v 0 14 ≤ 9216)
  | .eth n, 0x200 => fieldOf v 1 2 ≠ 3 && !(bitOf v 0 && s.ringHolds n.val)
  | .nrg, 0x300 => hubCfgOk v
  | .can _, 0x20 => canCfgOk v
  | .mem, 0x20 => v ≠ 0
  | .xpb, 0x20 => decide (5 ≤ fieldOf v 16 8) && (!bitOf v 29 || (decide (2 ≤ fieldOf v 8 4) && decide (fieldOf v 8 4 ≤ 15)))
  | .xpb, 0x24 => v ≠ 0
  | _, _ => true

/-- What the write of a CF register brings about. -/
def State.cfAfter (s : State) (b : Blk) (o : Nat) (old new : Word) : State :=
  match b, o with
  | .eth n, 0x20 => (s.tuneDefaults n).ringsCheck
  | .eth _, 0x24 => s.ringsCheck
  | .eth n, o => if o = 0x60 ∨ (0x80 ≤ o ∧ o < 0x100 ∧ o % 16 < 8) then s.pfcEval n else s
  | .swc, 0x40 => s.setSwc { s.swc with smpBase := s.reg swcSmpBaseHi ++ new }
  | .xpb, 0x20 => s.xpbRoleChange old new
  | _, _ => s

/-- A CF write (R9, R45). -/
def State.cfWrite (s : State) (b : Blk) (o : Nat) (row : RegRow) (v : Word) : State :=
  let a := blkBase b + o
  let w := v &&& row.mask
  if s.cfClosed b || !s.cfTakes b o w then s.rejReg b a else (s.setReg a w).cfAfter b o (s.reg a) w

/-- An RW write; FLT_START_LIMIT takes 200 to 65,535 (Table FLT-8), and the next rotation decision counts from a write of
FLT_ROT_PERIOD (R419). -/
def State.rwWrite (s : State) (b : Blk) (o : Nat) (row : RegRow) (v : Word) : State :=
  let a := blkBase b + o
  let w := v &&& row.mask
  if a = fltStartLimit ∧ w.toNat < 200 then s.rejReg b a
  else if a = fltRotPeriod then (s.setReg a w).rotAgain
  else s.setReg a w

/-- A CT write: zero clears, all bits of a 64-bit counter (R9, R48). -/
def State.ctWrite (s : State) (b : Blk) (o : Nat) (v : Word) : State :=
  let a := blkBase b + o
  if v ≠ 0 then s
  else
    match b with
    | .eth _ => if [0x100, 0x108, 0x110, 0x118].contains o then (s.clearCnt b a).setReg (a + 4) 0 else s.clearCnt b a
    | _ => s.clearCnt b a

/-- HIF_CTX_CMD: DISABLE wins over ENABLE (R297); a write of neither keeps CTX. -/
def State.ctxCmd (s : State) (m : Master) (v : Word) : State :=
  let c : Fin 256 := Fin.ofNat 256 (fieldOf v 0 8)
  if bitOf v 30 then doCtxDisable m c s
  else if bitOf v 31 then doCtxEnable m c s
  else s.setRegField hifCtxCmd 0 8 c.val

/-- SWC_Pn_GATE_CTRL. -/
def State.gateCtrl (s : State) (m : Master) (n : Fin 8) (v : Word) : State :=
  if bitOf v 1 then doGateSwap m n (bitOf v 0) s else s.writeGateEn n (bitOf v 0)

/-- NRG_RINGr_CMD. -/
def State.ringCmd (s : State) (m : Master) (r : Fin 2) (v : Word) : State :=
  let s1 := if bitOf v 0 then doClaimNow m r s else s
  if bitOf v 1 then doRingReturn m r s1 else s1

/-- CLK_PWR_CMD: OFF wins over STANDBY (log 27). -/
def State.pwrCmd (s : State) (v : Word) : State := if bitOf v 1 then s.enterP3 else if bitOf v 0 then s.enterP2 else s

/-- GLB_RESET_CMD: both bits issue a cold start (R55). -/
def State.resetCmd (s : State) (v : Word) : State :=
  if bitOf v 1 then s.coldStart none else if bitOf v 0 then s.warmIfRunning else s

/-- DTM_CMD. -/
def State.dtmCmdWrite (s : State) (m : Master) (v : Word) : State :=
  if v.extractLsb' 0 8 = (0 : BitVec 8) then s else s.dtmSteps m v

/-- MBX_CMD: without ACK the mailbox number is kept. -/
def State.mbxCmdWrite (s : State) (m : Master) (v : Word) : State :=
  if bitOf v 31 then doMbxAck m (Fin.ofNat 64 (fieldOf v 0 6)) s else s.setReg mbxCmd (v &&& 0x3F#32)

/-- A write of a register whose write is an operation of its block; false: answered BUS_ERROR (R340). -/
def State.opWrite (s : State) (m : Master) (b : Blk) (o : Nat) (v : Word) : Bool × State :=
  let a := blkBase b + o
  let sup := supSet m
  if o = 0 then (true, s.ctrlWrite b (bitOf v 0) (bitOf v 1))
  else if o = 0x10 then (true, s.indAddr b sup v)
  else if o = 0x14 then (true, s.indWrite m b v)
  else if o = 0x18 then (true, s.modInd b sup (fun x => { x with inc := v.setWidth 2 }))
  else
    match b with
    | .glb => (true, s.resetCmd v)
    | .clk => (true, if o = 0x30 then doClkGateReqWrite m v 0 s else s.pwrCmd v)
    | .dtm =>
      if o = 0x20 then (true, s.dtmCmdWrite m v)
      else
        let d : Fin 4 := Fin.ofNat 4 ((o - 0x100) / 0x40)
        (true, if o % 0x40 = 0x10 then doIncWrite m d v s else doAdjRequest m d v s)
    | .ttc => (true, s.ttcUnitWrite o v)
    | .hif => (true, s.ctxCmd m v)
    | .eth n => (true, doMdioGo m (Fin.ofNat 2 n.val) v s)
    | .swc => (true, s.gateCtrl m (Fin.ofNat 8 ((o - 0x100) / 0x20)) v)
    | .bfm => (true, doBfmRetire m (v.setWidth 2) s)
    | .nrg => (true, s.ringCmd m (Fin.ofNat 2 ((o - 0x100) / 0x100)) v)
    | .psq =>
      if o = 0x20 then (true, s.psqSwaps v)
      else if o < 0x1000 then (true, s.mfpWrite a v)
      else (true, s.psqChanWrite (Fin.ofNat 64 ((o - 0x1000) / 0x80)) (o % 0x80) v)
    | .pec n =>
      if o = 0x24 then (true, if bitOf v 0 then s.swapImem n else s)
      else if o = 0x38 then (true, if bitOf v 0 then s.setReg (pecKmax n.val) 0 else s)
      else if o = 0x60 then (true, s.dbgCtrlWrite n v)
      else (true, s.setReg a (v &&& 0x80000FFF#32))
    | .mbx =>
      if o = 0x20 then (true, s.mbxCmdWrite m v)
      else if o < 0x1000 then (true, doMbxCfgWrite m (Fin.ofNat 64 ((o - 0x100) / 4)) v s)
      else s.mbxWrite (.bus m) (Fin.ofNat 64 ((o - 0x1000) / 64)) ((o - 0x1000) / 4 % 16) v
    | .mem => (true, s.ownerRegWrite m (Fin.ofNat 112 ((o - 0x100) / 4)) v false)
    | .flt =>
      if o = 0x3C then (true, s.fltCmdWrite m v)
      else if o = 0x60 then (true, s.twinCfg v)
      else (true, s.twinCmd v)
    | _ => (true, s)

/-- A write of a register that is let through, by its kind (R9, Table GLB-2); ST, SH and PI ignore it. -/
def State.writeReg (s : State) (m : Master) (b : Blk) (o : Nat) (row : RegRow) (v : Word) : Bool × State :=
  match row.kind with
  | .rw => (true, s.rwWrite b o row v)
  | .cf => (true, s.cfWrite b o row v)
  | .ct => (true, s.ctWrite b o v)
  | .ci => (true, s.setReg (blkBase b + o) (v &&& row.mask))
  | .special => s.opWrite m b o v
  | .st => (true, s)
  | .sh => (true, s)
  | .pi => (true, s)

/-- The status of a write that its block refuses: FENCED for a mailbox post to a fenced domain, else BUS_ERROR. -/
def State.writeRefusal (s : State) (m : Master) (b : Blk) (o : Nat) : Byte :=
  if b = .mbx ∧ 0x1000 ≤ o then s.mbxRefusal (.bus m) (Fin.ofNat 64 ((o - 0x1000) / 64)) ((o - 0x1000) / 4 % 16)
  else stBusError

/-- A register write: its status. A write refused under R42 is ignored and counted, its status OK; the fields of a shared
register that belong to a fenced domain keep their bits, and a write that would change them is answered FENCED (R398). -/
def State.regWrite (s : State) (m : Master) (a : Nat) (v : Word) : Byte × State :=
  match s.access m true a with
  | .err st => (st, s)
  | .supOnly b => (stOk, s.rejReg b a)
  | .ok b o row =>
    let k := s.fencedMask b o
    let old := s.reg (blkBase b + o)
    let r := s.writeReg m b o row ((v &&& ~~~k) ||| (old &&& k))
    (if !r.1 then s.writeRefusal m b o else if (v ^^^ old) &&& row.mask &&& k = 0 then stOk else stFenced, r.2)

/-- A register write as its master sees it; one without all four byte enables is an access to a reserved location
(R38). -/
def doRegWrite (m : Master) (a : Nat) (be : BitVec 4) (v : Word) (s : State) : State :=
  if be ≠ 0xF then s.accessErr m true 0 a stBusError
  else
    let r := s.regWrite m a v
    if r.1 = stOk then r.2 else r.2.accessErr m true 0 a r.1

/-- A write of a register port: its master, byte enables and word. -/
abbrev PortWrite := Master × BitVec 4 × Word

/-- Writes of one cycle in the order in which a register port takes them (R41): host link 1, host link 0, the
supervisor, the expansion host before it (R327); DEDUCED (log 36): JTAG after it. -/
def portOrder (ws : List PortWrite) : List PortWrite :=
  [Master.h1, .h0, .exp, .sup, .jtag].flatMap (fun m => ws.filter (fun w => w.1 = m))

/-- The CM bits of a register (Table GLB-2, the block chapters' tables). -/
def cmBits (b : Blk) (o : Nat) : Word :=
  if o = 0 then 2
  else
    match b with
    | .glb => if o = 0x34 then 3 else 0
    | .clk => if o = 0x104 then 3 else 0
    | .dtm => if o = 0x20 then 0xFF else 0
    | .ttc => if 0x100 ≤ o ∧ o < 0x400 ∧ o % 0x20 = 0x18 then 3 else 0
    | .hif => if o = 0x24 then 0xC0000000 else 0
    | .eth _ => if o = 0x304 then 0x80000000 else 0
    | .swc => if 0x100 ≤ o ∧ o % 0x20 = 0 then 2 else 0
    | .bfm => if o = 0x34 then 3 else 0
    | .nrg => if o = 0x138 ∨ o = 0x238 then 3 else 0
    | .psq => if o = 0x20 ∨ (0x1000 ≤ o ∧ o % 0x80 = 8) then 3 else 0
    | .pec _ => if o = 0x24 ∨ o = 0x38 then 1 else if o = 0x60 then 7 else 0
    | .mbx => if o = 0x20 then 0x80000000 else 0
    | .mem => if 0x100 ≤ o then 0x8000 else 0
    | .flt => if o = 0x3C then 0xE0000000 else if o = 0x68 then 1 else 0
    | _ => 0

/-- Whether a write of a port is let through. -/
def State.portTakes (s : State) (a : Nat) (w : PortWrite) : Bool :=
  w.2.1 = 0xF && (match s.access w.1 true a with | .ok _ _ _ => true | _ => false)

/-- The writes of several masters to one register in one cycle (R41): in the port's order, the last one stands; where the
register has CM bits, the writes let through make one write by the last of them, with every CM bit that any of them
sets, so that one command is issued. -/
def State.portWrite (s : State) (a : Nat) (ws : List PortWrite) : State :=
  let each : List PortWrite → State := fun l => l.foldl (fun t w => doRegWrite w.1 a w.2.1 w.2.2 t) s
  let cm : Word := match regAt a with
    | some (b, o, _) => cmBits b o
    | none => 0
  if cm = 0 then each ws
  else
    let good := ws.filter (s.portTakes a)
    let t := each (ws.filter (fun w => !s.portTakes a w))
    match good.getLast? with
    | none => t
    | some w => doRegWrite w.1 a 0xF (w.2.2 ||| (good.foldl (fun x v => x ||| v.2.2) 0 &&& cm)) t

/-- REGISTER_WRITE, with what other masters write to the same register in the same cycle. -/
def execRegisterWrite (m : Master) (a : Word) (be : BitVec 4) (v : Word) (s : State)
    (also : List (Master × BitVec 4 × Word) := []) : Host.Outcome State Fault Refusal :=
  commit s (match also with
    | [] => doRegWrite m a.toNat be v s
    | _ => s.portWrite a.toNat (portOrder ((m, be, v) :: also)))

/-! Reserved locations and gated islands (R39, R40). -/

/-- Whether an offset of a BAR is reserved; `bar`: 0 BAR0, 1 BAR2, 2 BAR4, of which a host link alone has the last
two. -/
def State.reservedAt (s : State) (m : Master) (bar : BitVec 2) (a : Nat) : Bool :=
  match bar.toNat, hostLink m with
  | 0, _ => (regAt a).isNone
  | 1, some _ => decide (2 ^ 20 ≤ a) || decide (a % 4 ≠ 0) || decide (0x10 ≤ a % 0x1000)
  | 2, some l =>
    if a % 4 ≠ 0 then true
    else if a < 0xFF0000 then
      !(List.range 32).any (fun k =>
        let w := s.tabWords .hif 3 (k * 8) 8
        bitOf (w.getD 0 0) 31 && bitOf (w.getD 0 0) 30 = l && decide (regionBofs w ≤ a) &&
          decide (a < regionBofs w + regionLen w + 4))
    else if a < 0xFF8000 then decide (0xFF0000 + 272 * 16 ≤ a)
    else decide (0xFF8000 + 40 ≤ a)
  | _, _ => false

/-- A host link's read of a word that BAR2 or BAR4 holds: the RGX's side of a doorbell (Table HIF-1), or the image window
and the MSI-X structures (R294, R317). -/
def State.barRead (s : State) (link : Bool) (bar : BitVec 2) (a : Nat) : State :=
  if bar = 1 then s.emit (.barData link bar (w32 a) (s.doorbellRead (Fin.ofNat 256 (a / 4096)) (Fin.ofNat 4 (a / 4))))
  else
    match s.bar4Read link a with
    | some v => s.emit (.barData link bar (w32 a) v)
    | none => s.accessErr (hostMaster link) false bar.toNat a stBusError

/-- RESERVED_ACCESS: of a reserved location, or of any register by an access that is not whole (R38, R294). A whole read
of a word that BAR2 or BAR4 holds, which no row of its own makes, returns it (log 22); any other whole access of a
defined location is none. -/
def doReservedAccess (m : Master) (write : Bool) (bar : BitVec 2) (a : Word) (whole : Bool) (s : State) : State :=
  if s.reservedAt m bar a.toNat || (!whole && (bar = 0 || (bar ≠ 3 && (hostLink m).isSome))) then
    s.accessErr m write bar.toNat a.toNat stBusError
  else
    match hostLink m with
    | some l => if bar = 0 || bar = 3 || write || !s.linkUp l then s else s.barRead l bar a.toNat
    | none => s

/-- The meaning of RESERVED_ACCESS. -/
def execReservedAccess (m : Master) (write : Bool) (bar : BitVec 2) (a : Word) (s : State) (whole : Bool := true) :
    Host.Outcome State Fault Refusal :=
  commit s (doReservedAccess m write bar a whole s)

/-- GATED_ISLAND_ACCESS: of an island or port that is powered it is none. -/
def doGatedAccess (m : Master) (write : Bool) (a : Word) (s : State) : State :=
  match s.access m write a.toNat with
  | .err st => if st = stIslandOff then s.accessErr m write 0 a.toNat st else s
  | _ => s

/-- The meaning of GATED_ISLAND_ACCESS. -/
def execGatedIslandAccess (m : Master) (write : Bool) (a : Word) (s : State) : Host.Outcome State Fault Refusal :=
  commit s (doGatedAccess m write a s)

end Sys2Proof.Machine
end

