-- ==== Sys2Proof/Machine/Inbound.lean ====
section
/-! DEFINITION. Transactions of the external host: the address space it sees (14, R326, Table XPB-3). -/

namespace Sys2Proof.Machine

/-- What one word of an inbound transaction meets: its status, and the word read. -/
abbrev InWord := Byte × Word × State

/-- A word of the register map, as a host access (R38-R42). -/
def State.inboundReg (s : State) (write : Bool) (a : Nat) (v : Word) : InWord :=
  if write then
    let r := s.regWrite .exp a v
    (r.1, 0, r.2)
  else s.regRead .exp a

/-- A word of the expansion register file. -/
def State.inboundXrf (s : State) (write : Bool) (i : Nat) (v : Word) : InWord :=
  if write then (stOk, 0, s.setTab .xpb 3 i v) else (stOk, s.xrf i, s)

/-- A word of a mailbox: the boxes of the expansion host alone (R340). -/
def State.inboundMbx (s : State) (write : Bool) (w : Nat) (v : Word) : InWord :=
  let b : Fin 64 := Fin.ofNat 64 (w / 16)
  if write then
    let r := s.mbxWrite (.bus .exp) b (w % 16) v
    (if r.1 then stOk else s.mbxRefusal (.bus .exp) b (w % 16), 0, r.2)
  else
    match s.mbxRead (.bus .exp) b (w % 16) with
    | (some x, t) => (stOk, x, t)
    | (none, t) => (stBusError, 0, t)

/-- A word of a bank window, as host DMA: unmapped or not owned, BUS_ERROR. -/
def State.inboundBank (s : State) (write : Bool) (off : Nat) (v : Word) : InWord :=
  let map := s.tab .xpb 2 (off / 0x20000)
  let b := fieldOf map 0 7
  if !bitOf map 31 || decide (112 ≤ b) then (stBusError, 0, s)
  else
    let r := s.bankServe .dma b (off % 0x20000 % bankSize b) (if write then .write (leBytes v) else .read 4) .clean 100
    (if r.1 then stOk else stBusError, le32At r.2.1 0, r.2.2)

/-- One word at an address of Table XPB-3. -/
def State.inboundWord (s : State) (write : Bool) (a : Nat) (v : Word) : InWord :=
  if a % 4 ≠ 0 then (stBusError, 0, s)
  else if a < 0x400000 then s.inboundReg write a v
  else if 0x1000000 ≤ a ∧ a < 0x1004000 then s.inboundXrf write ((a - 0x1000000) / 4) v
  else if 0x2000000 ≤ a ∧ a < 0x2001000 then s.inboundMbx write ((a - 0x2000000) / 4) v
  else if 0x3000000 ≤ a ∧ a < 0x3100000 then s.inboundBank write (a - 0x3000000) v
  else (stBusError, 0, s)

/-- The words of a burst in order, from word k on, with n left; the first word that is refused ends the accesses, and
its status is the transaction's (log 23). -/
def State.inboundWords (s : State) (write : Bool) (a k n : Nat) (data : List Word) (got : List Word) :
    Byte × List Word × State :=
  match n with
  | 0 => (stOk, got, s)
  | n + 1 =>
    match s.inboundWord write (a + 4 * k) (data.getD k 0) with
    | (st, v, t) =>
      if st = stOk then t.inboundWords write a (k + 1) n data (got ++ [v]) else (st, got, t)

/-- Routes whose source words an XRF write has changed have an update to take: one, for the whole burst (R334). -/
def State.inboundMark (s : State) (write : Bool) (a n : Nat) : State :=
  if write && decide (0x1000000 ≤ a) && decide (a < 0x1004000) then
    s.sgmMark 0 (fun w len => rangesMeet (fieldOf w 0 12) len ((a - 0x1000000) / 4) n)
  else s

/-- The end of an inbound transaction: STATUS with the data read, whose missing words are open; a refused posted write
is logged only (R326, R329). -/
def State.inboundEnd (s : State) (op : XpbOp) (a : Word) (n : Nat) (st : Byte) (got : List Word) : State :=
  match op with
  | .read =>
    let r := s.drawN (n - got.length)
    r.2.emit (.xpbAnswer st (got ++ r.1))
  | .write => s.emit (.xpbAnswer st [])
  | .posted => if st = stOk then s else (s.pelLog st 4 0 a).2

/-- Whether the external host may initiate: host-slave role (always in RECOVERY), or peer role with XP_GNT high. -/
def State.inboundOpen (s : State) : Bool := s.xpbLive && (s.xpbRole = 1 || (s.xpbRole = 3 && s.xpb.gnt))

/-- XPB_INBOUND: `len` is LEN - 1. In hold the answer is DISABLED (R336). -/
def doXpbInbound (op : XpbOp) (a : Word) (len : Fin 16) (data : List Word) (s : State) : State :=
  let n := len.val + 1
  if !s.inboundOpen then s
  else if s.inHold .xpb && !s.flt.recovery then s.inboundEnd op a n stDisabled []
  else
    let w : Bool := decide (op ≠ .read)
    let r := s.inboundWords w a.toNat 0 n data []
    (r.2.2.inboundMark w a.toNat r.2.1.length).inboundEnd op a n r.1 r.2.1

/-- The meaning of XPB_INBOUND. -/
def execXpbInbound (op : XpbOp) (a : Word) (len : Fin 16) (data : List Word) (s : State) :
    Host.Outcome State Fault Refusal :=
  commit s (doXpbInbound op a len data s)

end Sys2Proof.Machine
end

