-- ==== Sys2Proof/Machine/DbgAccess.lean ====
section
/-! DEFINITION. DBG_ACCESS: the supervisor's map seen from the TAP (16, R386, R389, R390, Tables SEC-9 to SEC-11). -/

namespace Sys2Proof.Machine

/-- The parts of the supervisor's map (Table SEC-11). -/
inductive SupArea where
  | rom (o : Nat)
  | ram (o : Nat)
  | priv
  | retention (o : Nat)
  | regs (o : Nat)
  | none
deriving DecidableEq, Repr

/-- The area of an address. -/
def supArea (a : Nat) : SupArea :=
  if a < 0x20000 then .rom a
  else if 0x10000000 ≤ a ∧ a < 0x10080000 then .ram (a - 0x10000000)
  else if 0x20000000 ≤ a ∧ a < 0x20030000 then .priv
  else if 0x20040000 ≤ a ∧ a < 0x20050000 then .retention (a - 0x20040000)
  else if 0x40000000 ≤ a ∧ a < 0x40400000 then .regs (a - 0x40000000)
  else .none

/-- A little-endian word of a byte store. -/
def amWord (m : AMap (BitVec 8)) (o : Nat) : Word :=
  le32At ((List.range 4).map (fun k => amGet (fun _ => 0) m (o + k))) 0

/-- Store it. -/
def amSetWord (m : AMap (BitVec 8)) (o : Nat) (v : Word) : AMap (BitVec 8) :=
  (List.range 4).foldl (fun t k => amPut (fun _ => 0) t (o + k) (byteAt (leBytes v) k)) m

/-- A write at an address of the map; the private blocks, whose registers the manual does not give, act on the rest of
the device by the supervisor's commands alone (R390), and the ROM takes no write. -/
def State.dbgPut (s : State) (a : Nat) (v : Word) : Byte × State :=
  match supArea a with
  | .rom _ => (stOk, s)
  | .ram o => (stOk, s.modSec (fun x => { x with ram := amSetWord x.ram o v }))
  | .priv => (stOk, s)
  | .retention o => (stOk, s.modSec (fun x => { x with retention := amSetWord x.retention o v }))
  | .regs o => s.regWrite .jtag o v
  | .none => (stBusError, s)

/-- A read at an address of the map. -/
def State.dbgGet (s : State) (a : Nat) : Byte × Word × State :=
  match supArea a with
  | .rom o => (stOk, le32At ((List.range 4).map (fun k => Config.romByte (o + k))) 0, s)
  | .ram o => (stOk, amWord s.sec.ram o, s)
  | .priv => (stOk, Config.privWord (w32 a) s.free, { s with free := s.free + 1 })
  | .retention o => (stOk, amWord s.sec.retention o, s)
  | .regs o => s.regRead .jtag o
  | .none => (stBusError, 0, s)

/-- Why the level in force does not reach an address: D0 reaches nothing; below D3 the registers alone, whose own check
is the rest (Table SEC-9). -/
def State.dbgBar (s : State) (a : Nat) : Option Byte :=
  if s.dbgLevel = 0 then some stPolicy
  else if a % 4 ≠ 0 then some stBusError
  else
    match supArea a with
    | .regs _ => none
    | .none => none
    | _ => if s.dbgLevel = 3 then none else some stPolicy

/-- An access that GO starts. -/
def State.dbgGo (s : State) (write : Bool) (a : Nat) (v : Word) : State :=
  match s.dbgBar a with
  | some st => s.dbgSay st
  | none =>
    if write then
      let r := s.dbgPut a v
      r.2.dbgSay r.1
    else
      let r := s.dbgGet a
      if r.1 = stOk then (r.2.2.modSec (fun x => { x with dbgData := r.2.1 })).dbgSay stOk else r.2.2.dbgSay r.1

/-- DBG_ACCESS: the scan shifts out the data of the last read; with GO the access is made and its status stands in
DBG_STATUS. -/
def doDbgAccess (write go : Bool) (a v : Word) (s : State) : State :=
  s.tapRun fun s =>
    let s1 := s.emit (.tdo [s.sec.dbgData])
    if go then s1.dbgGo write a.toNat v else s1

/-- The meaning of DBG_ACCESS. -/
def execDbgAccess (write go : Bool) (a v : Word) (s : State) : Host.Outcome State Fault Refusal :=
  commit s (doDbgAccess write go a v s)

end Sys2Proof.Machine
end

