-- ==== Sys2Proof/Machine/Tick.lean ====
section
/-! DEFINITION. What happens as time passes with no command waiting: one PCLK tick, 2 ns (log 1). -/

namespace Sys2Proof.Machine

/-- n ECLK of every engine. -/
def State.engTick (s : State) (n : Nat) : State := (List.finRange 10).foldl (fun t e => t.engCycles e n) s

/-- One PCLK tick: Datum counts, engines run the two ECLK of each 2 ns that pass (R30), one channel of each sequencer has its turn, and the
supervisor sends a reply whose mailbox has become free. Nothing runs with the supplies down or in P3; in P2 only the
always-on standby copies and timers do (Table SEC-8, R392). -/
def State.tickOnce (s : State) : State :=
  match s.power with
  | .held => s
  | .p3 => s
  | .p2 => s.plainTick
  | .run => (s.plainTick.engTick (2 * s.refSlots)).psqTick.flushReplies

/-- The tick as a step. -/
def tick (s : State) : Host.Outcome State Fault Refusal := commit s s.tickOnce

end Sys2Proof.Machine
end

