-- ==== Sys2Proof/Machine/Dispatch.lean ====
section
/-! DEFINITION. From a command to its meaning: one arm per constructor. -/

namespace Sys2Proof.Machine

/-- The effect of a command on everything but the queue. -/
def exec (i : Instr) (s : State) : Host.Outcome State Fault Refusal :=
  match i with
  | .porNRise refSel pcieBif iobank => Sys2Proof.Machine.execPorNRise refSel pcieBif s iobank
  | .warmNAssert => Sys2Proof.Machine.execWarmNAssert s
  | .glbResetCold m => Sys2Proof.Machine.execGlbResetCold m s
  | .glbResetWarm m => Sys2Proof.Machine.execGlbResetWarm m s
  | .startDone m => Sys2Proof.Machine.execStartDone m s
  | .startFail why => Sys2Proof.Machine.execStartFail why s
  | .pllLost lost => Sys2Proof.Machine.execPllLost lost s
  | .alignmentWindow => Sys2Proof.Machine.execAlignmentWindow s
  | .pllRelockAttempt p => Sys2Proof.Machine.execPllRelockAttempt p s
  | .pllBecomesSpare p => Sys2Proof.Machine.execPllBecomesSpare p s
  | .islandGate i1 => Sys2Proof.Machine.execIslandGate i1 s
  | .wakeEvent i1 => Sys2Proof.Machine.execWakeEvent i1 s
  | .islandClockStart i1 => Sys2Proof.Machine.execIslandClockStart i1 s
  | .clkGateReqWrite m v wakes => Sys2Proof.Machine.execClkGateReqWrite m v wakes s
  | .registerWrite m a be v also => Sys2Proof.Machine.execRegisterWrite m a be v s also
  | .reservedAccess m write bar a whole => Sys2Proof.Machine.execReservedAccess m write bar a s whole
  | .gatedIslandAccess m write a => Sys2Proof.Machine.execGatedIslandAccess m write a s
  | .quiesce m b => Sys2Proof.Machine.execQuiesce m b s
  | .quiesceComplete b => Sys2Proof.Machine.execQuiesceComplete b s
  | .enWrite m b en quiesce => Sys2Proof.Machine.execEnWrite m b en quiesce s
  | .indAddrWrite m b v => Sys2Proof.Machine.execIndAddrWrite m b v s
  | .indFetchDone b sup => Sys2Proof.Machine.execIndFetchDone b sup s
  | .indDataRead m b => Sys2Proof.Machine.execIndDataRead m b s
  | .indDataWrite m b v => Sys2Proof.Machine.execIndDataWrite m b v s
  | .wideLowRead m a => Sys2Proof.Machine.execWideLowRead m a s
  | .incWrite m d frac => Sys2Proof.Machine.execIncWrite m d frac s
  | .adjRequest m d frac => Sys2Proof.Machine.execAdjRequest m d frac s
  | .adjApply d => Sys2Proof.Machine.execAdjApply d s
  | .forceStep m domains => Sys2Proof.Machine.execForceStep m domains s
  | .load m domains forced => Sys2Proof.Machine.execLoad m domains forced s
  | .voteReload d u0 u1 u2 => Sys2Proof.Machine.execVoteReload d u0 u1 u2 s
  | .datumFence d u0 u1 u2 => Sys2Proof.Machine.execDatumFence d u0 u1 u2 s
  | .syntWindowEnd d measured lock => Sys2Proof.Machine.execSyntWindowEnd d measured lock s
  | .ttuArm m n => Sys2Proof.Machine.execTtuArm m n s
  | .ttuDisarm m n arm => Sys2Proof.Machine.execTtuDisarm m n arm s
  | .triggerFire n => Sys2Proof.Machine.execTriggerFire n s
  | .triggerPulseEnd n => Sys2Proof.Machine.execTriggerPulseEnd n s
  | .captureEdge pin falling ago => Sys2Proof.Machine.execCaptureEdge pin falling ago s
  | .captureRead m n => Sys2Proof.Machine.execCaptureRead m n s
  | .tsqRead m n => Sys2Proof.Machine.execTsqRead m n s
  | .registerMove e ce => Sys2Proof.Machine.execRegisterMove e s ce
  | .aluTrigger e svc unit op sat t => Sys2Proof.Machine.execAluTrigger e svc unit op sat t s
  | .macTrigger e svc op lane sat rnd t => Sys2Proof.Machine.execMacTrigger e svc op lane sat rnd t s
  | .divTrigger e svc op sat rnd t => Sys2Proof.Machine.execDivTrigger e svc op sat rnd t s
  | .lsuTrigger e svc op t ce => Sys2Proof.Machine.execLsuTrigger e svc op t s ce
  | .crcInit e svc t => Sys2Proof.Machine.execCrcInit e svc t s
  | .crcFold e svc op t => Sys2Proof.Machine.execCrcFold e svc op t s
  | .crcFin e svc t => Sys2Proof.Machine.execCrcFin e svc t s
  | .crcHash e svc t => Sys2Proof.Machine.execCrcHash e svc t s
  | .fwuCpy e svc => Sys2Proof.Machine.execFwuCpy e svc s
  | .fwuEna e svc t => Sys2Proof.Machine.execFwuEna e svc t s
  | .fwuDis e svc t => Sys2Proof.Machine.execFwuDis e svc t s
  | .fwuTxpost e svc t => Sys2Proof.Machine.execFwuTxpost e svc t s
  | .fwuStsel e svc t => Sys2Proof.Machine.execFwuStsel e svc t s
  | .dtpSnap e svc t => Sys2Proof.Machine.execDtpSnap e svc t s
  | .unitResultLand e => Sys2Proof.Machine.execUnitResultLand e s
  | .jmp e svc t => Sys2Proof.Machine.execJmp e svc t s
  | .br e svc t => Sys2Proof.Machine.execBr e svc t s
  | .call e svc t => Sys2Proof.Machine.execCall e svc t s
  | .ret e svc => Sys2Proof.Machine.execRet e svc s
  | .kend e => Sys2Proof.Machine.execKend e s
  | .wait e t => Sys2Proof.Machine.execWait e t s
  | .waitResume e => Sys2Proof.Machine.execWaitResume e s
  | .repeatIteration e => Sys2Proof.Machine.execRepeatIteration e s
  | .kernelCycleStart e => Sys2Proof.Machine.execKernelCycleStart e s
  | .watchdogExpire e => Sys2Proof.Machine.execWatchdogExpire e s
  | .moveRetry e svc => Sys2Proof.Machine.execMoveRetry e svc s
  | .hardFault e cause => Sys2Proof.Machine.execHardFault e cause s
  | .checkpointSnapshot e => Sys2Proof.Machine.execCheckpointSnapshot e s
  | .checkpointCommit e lead => Sys2Proof.Machine.execCheckpointCommit e s lead
  | .pecImemSwap m e => Sys2Proof.Machine.execPecImemSwap m e s
  | .kmaxClr m e => Sys2Proof.Machine.execKmaxClr m e s
  | .halt m e => Sys2Proof.Machine.execHalt m e s
  | .step m e => Sys2Proof.Machine.execStep m e s
  | .resume m e => Sys2Proof.Machine.execResume m e s
  | .breakpointHit e => Sys2Proof.Machine.execBreakpointHit e s
  | .takeoverCopyBegin e => Sys2Proof.Machine.execTakeoverCopyBegin e s
  | .takeoverKernelStart e => Sys2Proof.Machine.execTakeoverKernelStart e s
  | .takeoverCopyDone e => Sys2Proof.Machine.execTakeoverCopyDone e s
  | .rotationTimer => Sys2Proof.Machine.execRotationTimer s
  | .rotationMove => Sys2Proof.Machine.execRotationMove s
  | .selfTestDone e pass => Sys2Proof.Machine.execSelfTestDone e pass s
  | .retestStart e => Sys2Proof.Machine.execRetestStart e s
  | .imgLoad box data => Sys2Proof.Machine.execImgLoad box data s
  | .imgUpdate box => Sys2Proof.Machine.execImgUpdate box s
  | .admitRole box => Sys2Proof.Machine.execAdmit box s
  | .unbind box => Sys2Proof.Machine.execUnbind box s
  | .imgDrop box => Sys2Proof.Machine.execImgDrop box s
  | .seqLoad box => Sys2Proof.Machine.execSeqLoad box s
  | .supUpdate box => Sys2Proof.Machine.execSupUpdate box s
  | .getIdentity box => Sys2Proof.Machine.execGetIdentity box s
  | .challenge box => Sys2Proof.Machine.execChallenge box s
  | .ownerKeyLoad box data => Sys2Proof.Machine.execOwnerKeyLoad box data s
  | .ownerCmd box data => Sys2Proof.Machine.execOwnerCmd box data s
  | .enroll box data => Sys2Proof.Machine.execEnroll box data s
  | .revoke box data => Sys2Proof.Machine.execRevoke box data s
  | .rollbackSet box data => Sys2Proof.Machine.execRollbackSet box data s
  | .decommission box data => Sys2Proof.Machine.execDecommission box data s
  | .cakSet box data => Sys2Proof.Machine.execCakSet box data s
  | .debugToken data => Sys2Proof.Machine.execDebugToken data s
  | .takeOwnership box data => Sys2Proof.Machine.execTakeOwnership box data s
  | .attest box => Sys2Proof.Machine.execAttest box s
  | .decommissionUnowned box => Sys2Proof.Machine.execDecommissionUnowned box s
  | .pwrStandby box => Sys2Proof.Machine.execPwrStandby box s
  | .pwrOff box => Sys2Proof.Machine.execPwrOff box s
  | .p2Exit why => Sys2Proof.Machine.execP2Exit why s
  | .ringKeysel box => Sys2Proof.Machine.execRingKeysel box s
  | .unknownCommand box => Sys2Proof.Machine.execUnknownCommand box s
  | .tamperEvent => Sys2Proof.Machine.execTamperEvent s
  | .idcode => Sys2Proof.Machine.execIdcode s
  | .samplePreload cells => Sys2Proof.Machine.execSamplePreload cells s
  | .extest cells => Sys2Proof.Machine.execExtest cells s
  | .clamp => Sys2Proof.Machine.execClamp s
  | .highz => Sys2Proof.Machine.execHighz s
  | .bypass => Sys2Proof.Machine.execBypass s
  | .dbgStatus => Sys2Proof.Machine.execDbgStatus s
  | .dbgChallenge => Sys2Proof.Machine.execDbgChallenge s
  | .dbgToken data => Sys2Proof.Machine.execDbgToken data s
  | .dbgOpen level => Sys2Proof.Machine.execDbgOpen level s
  | .dbgClose => Sys2Proof.Machine.execDbgClose s
  | .dbgAccess write go a v => Sys2Proof.Machine.execDbgAccess write go a v s
  | .lcAdvance => Sys2Proof.Machine.execLcAdvance s
  | .lcKill => Sys2Proof.Machine.execLcKill s
  | .jtagTrst => Sys2Proof.Machine.execJtagTrst s
  | .linkUp n speed verified => Sys2Proof.Machine.execLinkUp n speed verified s
  | .linkDown n lock receiving => Sys2Proof.Machine.execLinkDown n lock receiving s
  | .frameReceive n codeOk bytes ph fragments reasmOk started => Sys2Proof.Machine.execFrameReceive n codeOk bytes ph fragments reasmOk started s
  | .pfcRefresh n => Sys2Proof.Machine.execPfcRefresh n s
  | .pauseTimerExpire n p => Sys2Proof.Machine.execPauseTimerExpire n p s
  | .mdioGo m i1 v => Sys2Proof.Machine.execMdioGo m i1 v s
  | .mdioDone i1 data => Sys2Proof.Machine.execMdioDone i1 data s
  | .frameTransmit n ph preempt => Sys2Proof.Machine.execFrameTransmit n ph preempt s
  | .frameClassify lp => Sys2Proof.Machine.execFrameClassify lp s
  | .fdbAgeSweep => Sys2Proof.Machine.execFdbAgeSweep s
  | .gateEntryExpire n => Sys2Proof.Machine.execGateEntryExpire n s
  | .gateSwap m n en => Sys2Proof.Machine.execGateSwap m n en s
  | .bufferUe frame place corrected => Sys2Proof.Machine.execBufferUe frame place corrected s
  | .dieRetire d interface => Sys2Proof.Machine.execDieRetire d interface s
  | .bfmRetire m dies => Sys2Proof.Machine.execBfmRetire m dies s
  | .ringCycleBoundary r => Sys2Proof.Machine.execRingCycleBoundary r s
  | .ringBmSnapshot r => Sys2Proof.Machine.execRingBmSnapshot r s
  | .ringPassReceive r n bytes ok ph => Sys2Proof.Machine.execRingPassReceive r n bytes ok ph s
  | .ringLos r n => Sys2Proof.Machine.execRingLos r n s
  | .ringFragmentEmit r => Sys2Proof.Machine.execRingFragmentEmit r s
  | .stanchionCut r leaf => Sys2Proof.Machine.execStanchionCut r leaf s
  | .stanchionSelfCheck r edges parityOk => Sys2Proof.Machine.execStanchionSelfCheck r edges parityOk s
  | .envelopeSend r ph => Sys2Proof.Machine.execEnvelopeSend r ph s
  | .envelopeReceive r n bytes ok => Sys2Proof.Machine.execEnvelopeReceive r n bytes ok s
  | .claimTimeout r => Sys2Proof.Machine.execClaimTimeout r s
  | .claimNow m r => Sys2Proof.Machine.execClaimNow m r s
  | .claimSend r => Sys2Proof.Machine.execClaimSend r s
  | .claimReceive r n bytes ok => Sys2Proof.Machine.execClaimReceive r n bytes ok s
  | .beaconReceive r n bytes ok => Sys2Proof.Machine.execBeaconReceive r n bytes ok s
  | .ringReturn m r => Sys2Proof.Machine.execRingReturn m r s
  | .canFrameStore n f ago => Sys2Proof.Machine.execCanFrameStore n f ago s
  | .canError n k r => Sys2Proof.Machine.execCanError n k r s
  | .canBusoffRecover n occurrences => Sys2Proof.Machine.execCanBusoffRecover n occurrences s
  | .canGwReceive n => Sys2Proof.Machine.execCanGwReceive n s
  | .canTtCycleStart n busy => Sys2Proof.Machine.execCanTtCycleStart n s busy
  | .canTtRefMiss n => Sys2Proof.Machine.execCanTtRefMiss n s
  | .canTimeMark n col busy => Sys2Proof.Machine.execCanTimeMark n col s busy
  | .canTxLate n col => Sys2Proof.Machine.execCanTxLate n col s
  | .canTxEnd n o ago loop => Sys2Proof.Machine.execCanTxEnd n o ago loop s
  | .canTxevRead m n => Sys2Proof.Machine.execCanTxevRead m n s
  | .psqNop c => Sys2Proof.Machine.execPsqNop c s
  | .psqPins c st cl tg => Sys2Proof.Machine.execPsqPins c st cl tg s
  | .psqDir c st cl => Sys2Proof.Machine.execPsqDir c st cl s
  | .psqShift c out inp clk dout din cpol cpha msb noclk n => Sys2Proof.Machine.execPsqShift c out inp clk dout din cpol cpha msb noclk n s
  | .psqPull c => Sys2Proof.Machine.execPsqPull c s
  | .psqPush c => Sys2Proof.Machine.execPsqPush c s
  | .psqMov c dst src => Sys2Proof.Machine.execPsqMov c dst src s
  | .psqLdi c dst hi imm => Sys2Proof.Machine.execPsqLdi c dst hi imm s
  | .psqAdd c dst srcx imm => Sys2Proof.Machine.execPsqAdd c dst srcx imm s
  | .psqJmp c cond pin target => Sys2Proof.Machine.execPsqJmp c cond pin target s
  | .psqAt c => Sys2Proof.Machine.execPsqAt c s
  | .psqWaitev c => Sys2Proof.Machine.execPsqWaitev c s
  | .psqStopInstruction c => Sys2Proof.Machine.execPsqStopInstruction c s
  | .psqHoldRelease c => Sys2Proof.Machine.execPsqHoldRelease c s
  | .psqEventLatch c => Sys2Proof.Machine.execPsqEventLatch c s
  | .shiftDone c samples => Sys2Proof.Machine.execShiftDone c samples s
  | .psqQueueResume c => Sys2Proof.Machine.execPsqQueueResume c s
  | .psqTxqWrite m c v => Sys2Proof.Machine.execPsqTxqWrite m c v s
  | .psqRxqRead m c => Sys2Proof.Machine.execPsqRxqRead m c s
  | .psqStart m c => Sys2Proof.Machine.execPsqStart m c s
  | .psqStop m c start => Sys2Proof.Machine.execPsqStop m c start s
  | .psqSwap m engines => Sys2Proof.Machine.execPsqSwap m engines s
  | .psqChannelBankMove c => Sys2Proof.Machine.execPsqChannelBankMove c s
  | .ctxEnable m c => Sys2Proof.Machine.execCtxEnable m c s
  | .ctxDisable m c enable => Sys2Proof.Machine.execCtxDisable m c enable s
  | .ctxDrainDone c stalls => Sys2Proof.Machine.execCtxDrainDone c stalls s
  | .txProducerWrite link c v => Sys2Proof.Machine.execTxProducerWrite link c v s
  | .rxProducerWrite link c v => Sys2Proof.Machine.execRxProducerWrite link c v s
  | .cqConsumerWrite link c v => Sys2Proof.Machine.execCqConsumerWrite link c v s
  | .abortRequest link c v => Sys2Proof.Machine.execAbortRequest link c v s
  | .abortEvaluate c => Sys2Proof.Machine.execAbortEvaluate c s
  | .descriptorFetch rx => Sys2Proof.Machine.execDescriptorFetch rx s
  | .hostReadCompletion tag ok data => Sys2Proof.Machine.execHostReadCompletion tag ok data s
  | .txCommit c => Sys2Proof.Machine.execTxCommit c s
  | .rxDeliver link => Sys2Proof.Machine.execRxDeliver link s
  | .msixTimerExpire c => Sys2Proof.Machine.execMsixTimerExpire c s
  | .msixUnmask link v => Sys2Proof.Machine.execMsixUnmask link v s
  | .bar4Write link off bs => Sys2Proof.Machine.execBar4Write link off bs s
  | .bar4Commit link off v => Sys2Proof.Machine.execBar4Commit link off v s
  | .hostLinkDown link why => Sys2Proof.Machine.execHostLinkDown link why s
  | .hifBuserrRead m => Sys2Proof.Machine.execHifBuserrRead m s
  | .xpbInbound op a len data => Sys2Proof.Machine.execXpbInbound op a len data s
  | .bridgeRead => Sys2Proof.Machine.execBridgeRead s
  | .bridgeWriteNp => Sys2Proof.Machine.execBridgeWriteNp s
  | .bridgeWritePosted => Sys2Proof.Machine.execBridgeWritePosted s
  | .xpbTransactionStart => Sys2Proof.Machine.execXpbTransactionStart s
  | .xpbTransactionEnd status data err => Sys2Proof.Machine.execXpbTransactionEnd status data err s
  | .xpbWaitTimeout reservedOp => Sys2Proof.Machine.execXpbWaitTimeout reservedOp s
  | .xpbPeerRequest ctrlEnd => Sys2Proof.Machine.execXpbPeerRequest ctrlEnd s
  | .xpbPoll i1 => Sys2Proof.Machine.execXpbPoll i1 s
  | .routeFarPoll k => Sys2Proof.Machine.execRouteFarPoll k s
  | .routeSourceUpdate k => Sys2Proof.Machine.execRouteSourceUpdate k s
  | .routeDelivery k => Sys2Proof.Machine.execRouteDelivery k s
  | .mbxSenderWrite p b w v => Sys2Proof.Machine.execMbxSenderWrite p b w v s
  | .mbxPost p b v => Sys2Proof.Machine.execMbxPost p b v s
  | .mbxReceive p b => Sys2Proof.Machine.execMbxReceive p b s
  | .mbxAck m b => Sys2Proof.Machine.execMbxAck m b s
  | .mbxCfgWrite m b v => Sys2Proof.Machine.execMbxCfgWrite m b v s
  | .bankAccess m b off op ecc t => Sys2Proof.Machine.execBankAccess m b off op ecc t s
  | .bankRelease m b inflight => Sys2Proof.Machine.execBankRelease m b inflight s
  | .bankDrainDone b => Sys2Proof.Machine.execBankDrainDone b s
  | .bankAssign m b v => Sys2Proof.Machine.execBankAssign m b v s
  | .bankFillDone b => Sys2Proof.Machine.execBankFillDone b s
  | .skimmerWindow fails ce ue => Sys2Proof.Machine.execSkimmerWindow fails ce ue s
  | .faultLatch d k unit row votes => Sys2Proof.Machine.execFaultLatch d k unit row votes s
  | .domainRecovered d pass => Sys2Proof.Machine.execDomainRecovered d pass s
  | .fence m d => Sys2Proof.Machine.execFence m d s
  | .readmit m d => Sys2Proof.Machine.execReadmit m d s
  | .supervisorRestart => Sys2Proof.Machine.execSupervisorRestart s
  | .twinCfgWrite m v => Sys2Proof.Machine.execTwinCfgWrite m v s
  | .twinPairing ok peer own other pref => Sys2Proof.Machine.execTwinPairing ok peer own other pref s
  | .twinPaired ok => Sys2Proof.Machine.execTwinPaired ok s
  | .twinFailMessage => Sys2Proof.Machine.execTwinFailMessage s
  | .twinLos ring => Sys2Proof.Machine.execTwinLos ring s
  | .twinHeartbeatMiss => Sys2Proof.Machine.execTwinHeartbeatMiss s
  | .handover m => Sys2Proof.Machine.execHandover m s
  | .twinHandoverTick => Sys2Proof.Machine.execTwinHandoverTick s
  | .seqRecTimeout k => Sys2Proof.Machine.execSeqRecTimeout k s
  | .halfDuplexNegotiated n => Sys2Proof.Machine.execHalfDuplexNegotiated n s
  | .pllLocked p => Sys2Proof.Machine.execPllLocked p s
  | .skimmerWindowEnd => Sys2Proof.Machine.execSkimmerWindowEnd s
  | .windowGateOpen r => Sys2Proof.Machine.execWindowGateOpen r s
  | .canBusIntegrated n => Sys2Proof.Machine.execCanBusIntegrated n s
  | .canProtocolException n => Sys2Proof.Machine.execCanProtocolException n s
  | .hostLinkUp link gen width aer => Sys2Proof.Machine.execHostLinkUp link gen width s aer
  | .completionTimeout tag => Sys2Proof.Machine.execCompletionTimeout tag s
  | .xpReqLow => Sys2Proof.Machine.execXpReqLow s
  | .porNAssert => Sys2Proof.Machine.execPorNAssert s
  | .mkaTimerExpire n hello server => Sys2Proof.Machine.execMkaTimerExpire n hello server s

end Sys2Proof.Machine
end

