-- ==== Sys2Proof/Safety.lean ====
section
/-! DEFINITION. The terms in which claims about the block are stated: what a command ends in, what it leaves as it was,
and what holds of a state whatever commands reach the block. -/

namespace Sys2Proof.Machine

/-! What a command ends in. -/

/-- The command answers a next state, and the state is as said. -/
def Ends (c : Instr) (s : State) (P : State → Prop) : Prop := ∃ t, exec c s = .next t ∧ P t

/-- The command leaves the block as it is. -/
def Idle (c : Instr) (s : State) : Prop := exec c s = .next s

/-! Frames. Beside what a command does, every effect may raise interrupts (R53): GLB_INT_CNT counts them, and an MSI-X
vector is sent or, masked, its pending bit set (R313). -/

/-- The parts of a state beside its registers, its indirect spaces and the record of what it sends. -/
inductive Part where
  | pending | ind | latches | hold | power | clk | dom | stepSeq | ttu | tcu | mfpIn | eng | insts | images
  | rotation | mbx | mem | flt | eth | swc | ring | can | psq | hif | xpb | sgm | sec | free
deriving DecidableEq, Repr

/-- A part is as it was. -/
def Part.same (s t : State) : Part → Prop
  | .pending => t.pending = s.pending
  | .ind => t.ind = s.ind
  | .latches => t.latches = s.latches
  | .hold => t.hold = s.hold
  | .power => t.power = s.power
  | .clk => t.clk = s.clk
  | .dom => t.dom = s.dom
  | .stepSeq => t.stepSeq = s.stepSeq
  | .ttu => t.ttu = s.ttu
  | .tcu => t.tcu = s.tcu
  | .mfpIn => t.mfpIn = s.mfpIn ∧ t.mfpExt = s.mfpExt
  | .eng => t.eng = s.eng
  | .insts => t.insts = s.insts
  | .images => t.images = s.images ∧ t.bindSeq = s.bindSeq
  | .rotation => t.rotation = s.rotation
  | .mbx => t.mbx = s.mbx
  | .mem => t.mem = s.mem
  | .flt => t.flt = s.flt
  | .eth => t.eth = s.eth
  | .swc => t.swc = s.swc
  | .ring => t.ring = s.ring
  | .can => t.can = s.can
  | .psq => t.psq = s.psq
  | .hif => ({ t.hif with msixPend := s.hif.msixPend } : HifState) = s.hif
  | .xpb => t.xpb = s.xpb
  | .sgm => t.sgm = s.sgm
  | .sec => t.sec = s.sec
  | .free => t.free = s.free

/-- Everything is as it was but the parts, registers and words of indirect spaces named. Memory is among it: without
`.mem`, every byte of every bank; the data memories of the engines stand in `.eng`. -/
structure Framed (parts : List Part) (regs tabs : List Nat) (s t : State) : Prop where
  parts : ∀ p, p ∉ parts → p.same s t
  regs : ∀ a, a ∉ regs → a ≠ glbIntCnt → t.reg a = s.reg a
  tabs : ∀ k, k ∉ tabs → amGet tabReset t.tabs k = amGet tabReset s.tabs k
  out : s.out <+: t.out

/-- Any access of a master to a register is let through: it is defined, powered, not fenced, not the business of a pair's
LEAD, within the debug level, and not supervisor-only for another master (R38-R42, R386, R398). -/
abbrev Open (s : State) (m : Master) (write : Bool) (a : Nat) : Prop :=
  (match s.access m write a with
    | .ok _ _ _ => true
    | _ => false) = true

/-- The record of what the block sends continues with these. -/
def Sends (l : List Output) (s t : State) : Prop := s.out ++ l <+: t.out

/-- Consecutive words of an indirect space, as keys. -/
def words (b : Blk) (sp first n : Nat) : List Nat := (List.range n).map (fun k => tabKey (blkIdx b) sp (first + k))

/-- CFGREJ_CNT and CFGREJ_ADDR of a block. -/
def rejRegs (b : Blk) : List Nat := [blkBase b + 8, blkBase b + 12]

/-- A write rejected under R9 or R42: counted, its address recorded, and nothing else. -/
def Rejected (b : Blk) (a : Nat) (s t : State) : Prop :=
  t.reg (blkBase b + 8) = s.reg (blkBase b + 8) + 1 ∧ t.reg (blkBase b + 12) = w32 a ∧ Framed [] (rejRegs b) [] s t

/-- The register access a command is, where it is one and nothing more: its master, whether it writes, its offset. -/
def portOf : Instr → Option (Master × Bool × Nat)
  | .glbResetCold m => some (m, true, glbResetCmd)
  | .glbResetWarm m => some (m, true, glbResetCmd)
  | .startDone m => some (m, true, fltCmd)
  | .clkGateReqWrite m _ _ => some (m, true, clkGateReq)
  | .quiesce m b => some (m, true, blkBase b)
  | .enWrite m b _ _ => some (m, true, blkBase b)
  | .indAddrWrite m b _ => some (m, true, blkBase b + 0x10)
  | .indDataRead m b => some (m, false, blkBase b + 0x14)
  | .indDataWrite m b _ => some (m, true, blkBase b + 0x14)
  | .incWrite m d _ => some (m, true, dtmDIncFrac d.val)
  | .adjRequest m d _ => some (m, true, dtmDAdjFrac d.val)
  | .forceStep m _ => some (m, true, dtmCmd)
  | .load m _ _ => some (m, true, dtmCmd)
  | .ttuArm m n => some (m, true, ttuCtrl n.val)
  | .ttuDisarm m n _ => some (m, true, ttuCtrl n.val)
  | .captureRead m n => some (m, false, tcuCapNs n.val)
  | .tsqRead m n => some (m, false, ethTsqW0 n.val)
  | .pecImemSwap m e => some (m, true, pecImem e.val)
  | .kmaxClr m e => some (m, true, pecCmd e.val)
  | .mdioGo m i _ => some (m, true, ethMdioCmd i.val)
  | .gateSwap m n _ => some (m, true, swcPGateCtrl n.val)
  | .bfmRetire m _ => some (m, true, bfmCmd)
  | .claimNow m r => some (m, true, nrgRingCmd r.val)
  | .ringReturn m r => some (m, true, nrgRingCmd r.val)
  | .psqTxqWrite m c _ => some (m, true, psqChTxq c.val)
  | .psqStart m c => some (m, true, psqChCtrl c.val)
  | .psqStop m c _ => some (m, true, psqChCtrl c.val)
  | .psqSwap m _ => some (m, true, psqCmd)
  | .ctxEnable m _ => some (m, true, hifCtxCmd)
  | .ctxDisable m _ _ => some (m, true, hifCtxCmd)
  | .mbxSenderWrite (.bus m) b w _ => some (m, true, mbxW (b.val * 16 + w.val))
  | .mbxPost (.bus m) b _ => some (m, true, mbxW (b.val * 16 + 15))
  | .mbxAck m _ => some (m, true, mbxCmd)
  | .mbxCfgWrite m b _ => some (m, true, mbxCfg b.val)
  | .fence m _ => some (m, true, fltCmd)
  | .readmit m _ => some (m, true, fltCmd)
  | .twinCfgWrite m _ => some (m, true, fltTwinCfg)
  | .handover m => some (m, true, fltTwinCmd)
  | .registerWrite m a be _ [] => if be = 0xF then some (m, true, a.toNat) else none
  | .wideLowRead m a => some (m, false, a.toNat)
  | .psqRxqRead m c => some (m, false, psqChRxq c.val)
  | .hifBuserrRead m => some (m, false, hifBuserrW0)
  | .bankRelease m b _ => some (m, true, memBankOwner b.val)
  | .bankAssign m b _ => some (m, true, memBankOwner b.val)
  | _ => none

/-- Spaces whose entries take any value and are stored as written: the others check it (R51) or act on it. -/
def plainSpace : Blk → Nat → Bool
  | .eth _, 2 => false
  | .can _, 0 => false
  | .hif, 3 => false
  | .psq, _ => false
  | .pec _, 0 => false
  | .pec _, 2 => false
  | .pec _, 4 => false
  | .pec _, 5 => false
  | .xpb, 1 => false
  | .sgm, 0 => false
  | _, _ => true

/-- The fault log's words. -/
def faultLogWords : List Nat := words .flt 0 0 256

/-- The fault log takes one entry: its domain, cause and action, at the next SEQ (R404, Table FLT-3). -/
def Logged (domain : Nat) (cause : Byte) (action : Nat) (s t : State) : Prop :=
  let q : BitVec 16 := if s.flt.logAny then s.flt.logSeq + 1 else 0
  let w := t.tab .flt 0 (q.toNat % 64 * 4)
  t.flt.logSeq = q ∧ t.flt.logAny = true ∧ fieldOf w 24 8 = domain ∧ fieldOf w 16 8 = cause.toNat ∧
    fieldOf w 0 16 = q.toNat ∧ fieldOf (t.tab .flt 0 (q.toNat % 64 * 4 + 1)) 28 4 = action

/-- The counters of every port's PFC frames, which a change of the cells in use may send (R185). -/
def pfcRegs : List Nat :=
  (List.range 8).flatMap fun k => [ethTxPfcCnt k, ethTxFramesLo k, ethTxFramesLo k + 4, ethTxBytesLo k, ethTxBytesLo k + 4]

/-- A domain in service is fenced, counted and logged (R397, R404). -/
def NewlyFenced (d : Nat) (cause : Byte) (s t : State) : Prop :=
  t.fenced d = true ∧ t.reg fltFaultCnt = s.reg fltFaultCnt + 1 ∧ Logged d cause 0 s t

/-- A domain is fenced for good, counted and logged (R399, R400, R408). -/
def NewlyPermanent (d : Nat) (cause : Byte) (s t : State) : Prop :=
  t.fenced d = true ∧ t.flt.perm.getLsbD d = true ∧ t.reg fltPermCnt = s.reg fltPermCnt + 1 ∧ Logged d cause 4 s t

/-- A domain leaves its fence: RECOVERED with its fence's cause, or RE-ADMITTED with cause COMMAND, counted, at the end of
a READMIT (R397, R404, R408). -/
def FenceLeft (d : Fin 37) (s t : State) : Prop :=
  t.fenced d.val = false ∧ t.flt.perm.getLsbD d.val = false ∧
    (s.flt.readmit.getLsbD d.val = false → Logged d.val s.flt.recs[d].cause 2 s t ∧
      t.reg fltReadmitCnt = s.reg fltReadmitCnt) ∧
    (s.flt.readmit.getLsbD d.val = true → Logged d.val 0x0D 3 s t ∧ t.reg fltReadmitCnt = s.reg fltReadmitCnt + 1)

/-- A domain is in service: neither fenced, nor for good, nor under its self-test. -/
def InService (d : Nat) (s : State) : Prop :=
  s.fenced d = false ∧ s.flt.perm.getLsbD d = false ∧ s.flt.testing.getLsbD d = false

/-- The parts a cold start leaves at reset. -/
def coldParts : List Part :=
  [.ind, .latches, .dom, .stepSeq, .ttu, .tcu, .eng, .insts, .images, .rotation, .mbx, .mem, .eth, .swc, .ring, .can,
    .psq, .hif, .xpb, .sgm]

/-- A cold start has begun: every part is at reset, the fuses and the waiting commands are kept, CLK_ISL_ON names the
islands powered, and no domain is fenced (R415, Table FLT-7). -/
def ColdStarted (s t : State) : Prop :=
  t.power = .run ∧ (∀ p ∈ coldParts, p.same State.reset t) ∧ t.pending = s.pending ∧ t.mfpIn = s.mfpIn ∧
    t.mfpExt = s.mfpExt ∧ t.flt.fenced = 0 ∧ t.flt.perm = 0 ∧ t.flt.recovery = false ∧ t.flt.starting = some .cold ∧
    t.sec.lifecycle = s.sec.lifecycle ∧ t.sec.rollback = s.sec.rollback ∧ t.sec.eui = s.sec.eui ∧
    t.sec.ident = s.sec.ident ∧ t.sec.agree = s.sec.agree ∧ t.reg clkIslOn = 0x7E007 ∧
    fieldOf (t.reg glbLifecycle) 0 2 = s.sec.lifecycle.toNat ∧ fieldOf (t.reg glbLifecycle) 8 2 = 0 ∧
    ∃ l, Sends (l ++ [.start 0]) s t

/-- TIME and LATE_CNT of the trigger units, which a discontinuity of a domain may change (R64, R80). -/
def ttuTimeRegs : List Nat :=
  (List.range 24).flatMap (fun n => [ttuTimeNs n, ttuTimeSecLo n, ttuTimeSecHi n, ttuLateCnt n])

/-! Engines (05, 06). -/

/-- Engine e is as said, and the others are as they were. -/
def EngineIs (e : Fin 10) (x : Engine) (s t : State) : Prop := t.eng[e] = x ∧ ∀ f : Fin 10, f ≠ e → t.eng[f] = s.eng[f]

/-- The commands that are one move of an engine's context: the engine, whether the service context (log 17). -/
def oneMoveOf : Instr → Option (Fin 10 × Bool)
  | .aluTrigger e svc _ _ _ _ => some (e, svc)
  | .macTrigger e svc _ _ _ _ _ => some (e, svc)
  | .divTrigger e svc _ _ _ _ => some (e, svc)
  | .lsuTrigger e svc _ _ _ => some (e, svc)
  | .crcInit e svc _ => some (e, svc)
  | .crcFold e svc _ _ => some (e, svc)
  | .crcFin e svc _ => some (e, svc)
  | .crcHash e svc _ => some (e, svc)
  | .fwuCpy e svc => some (e, svc)
  | .fwuEna e svc _ => some (e, svc)
  | .fwuDis e svc _ => some (e, svc)
  | .fwuTxpost e svc _ => some (e, svc)
  | .fwuStsel e svc _ => some (e, svc)
  | .dtpSnap e svc _ => some (e, svc)
  | .jmp e svc _ => some (e, svc)
  | .br e svc _ => some (e, svc)
  | .call e svc _ => some (e, svc)
  | .ret e svc => some (e, svc)
  | .kend e => some (e, false)
  | .wait e _ => some (e, true)
  | _ => none

/-- A context issues an instruction in the engine's next cycle: it is its turn, no breakpoint stands, the watchdog does
not expire, nothing lands, no repeat runs and no loop of the kernel ends. -/
structure Issues (e : Fin 10) (svc : Bool) (s : State) : Prop where
  turn : s.issuer e = some svc
  brk : s.breakAt e svc = none
  wdog : wdogExpired (tickEngine s.eng[e]) = false
  quiet : ∀ f ∈ s.eng[e].flight, s.eng[e].pipe + 1 < f.at_
  once : (s.ctx e svc).rptRun = false
  straight : svc = false → ∀ n : Fin 4, (s.ctx e svc).lp[n].cnt = 0 ∨ (s.ctx e svc).lp[n].stop ≠ (s.ctx e svc).pc

/-- An engine after the counts of a cycle in which a context issues: the kernel that was entering runs (R109). -/
def ticked (x : Engine) : Engine :=
  { x with
    pipe := x.pipe + 1
    wall := x.wall + 1
    bpSkip := false
    kern := (match x.kern with | .entering => .running | q => q)
    kCount := (match x.kern with | .entering => some 0 | _ => x.kCount.map (· + 1)) }

/-- An engine after a cycle in which an instruction that branches nowhere issued: a pending branch target is reached,
and the delay slot of KEND ends the kernel (R108-R110). -/
def cycled (x : Engine) (svc : Bool) : Engine :=
  let c := ctxOf x svc
  let y := withCtx (ticked x) svc { c with pc := c.pend.getD (c.pc + 1), pend := none }
  if !svc && x.kern = .delay then kernelDone y else y

/-- The same, with an operation in its unit's pipeline that is due `lat` cycles later, its answer late by `late` ECLK
(R93, R104). -/
def launchedLate (x : Engine) (svc : Bool) (lat late : Nat) (w : Landing) : Engine :=
  { cycled x svc with flight := x.flight ++ [⟨svc, x.pipe + 1 + lat, w, late⟩] }

/-- The same, with an answer that comes in time. -/
def launched (x : Engine) (svc : Bool) (lat : Nat) (w : Landing) : Engine := launchedLate x svc lat 0 w

/-- The engine after such an operation whose answer crosses the islands of a path: in time unless one of them, or the
engine's own, is degraded, and then late by fewer than 128 ECLK (R26, R104). -/
def FarLaunched (e : Fin 10) (svc : Bool) (lat : Nat) (path : List Nat) (w : Landing) (after : Engine → Engine)
    (s t : State) : Prop :=
  ∃ late < 128, (s.crossSlow e path = false → late = 0 ∧ t.free = s.free) ∧
    EngineIs e (after (launchedLate s.eng[e] svc lat late w)) s t

/-- The same after a change to the context that issued. -/
def inCtx (x : Engine) (svc : Bool) (f : Ctx → Ctx) : Engine := withCtx x svc (f (ctxOf x svc))

/-- The payload words of every mailbox, which the reset of an endpoint clears (R346, R348). -/
def payloadWords : List Nat := (List.range 1024).map mbxW

/-- The rotation prepared, but for one of a role (R163). -/
def State.rotationWithout (s : State) (role : Option (Fin 10)) : Option Rotation :=
  s.rotation.filter fun q => role ≠ some q.role

/-- A program fault has stopped an engine (R145): PEC_FAULT names it, the engine is fenced, its instance stays stopped
with its gate closed, and the fence is logged. -/
def ProgramFaulted (e : Fin 10) (code : Nat) (s t : State) : Prop :=
  t.reg (pecFault e.val) = w32 (256 * code + 1) ∧ t.rotation = s.rotationWithout s.eng[e].role ∧ t.eng[e].st = .fenced ∧ t.eng[e].role = none ∧
    (∀ f : Fin 10, f ≠ e → t.eng[f] = s.eng[f]) ∧
    (∀ r i, s.eng[e].role = some r → s.insts[r] = some i →
      t.insts[r] = some { i with stopped := true, engine := none, gate := false, due := false }) ∧
    (∀ r : Fin 10, s.eng[e].role ≠ some r → t.insts[r] = s.insts[r]) ∧
    (s.fenced e.val = false → s.flt.perm.getLsbD e.val = false → s.flt.testing.getLsbD e.val = false →
      t.fenced e.val = true ∧ t.reg fltFaultCnt = s.reg fltFaultCnt + 1 ∧ Logged e.val 0x02 0 s t) ∧
    Framed [.eng, .insts, .mbx, .flt, .rotation]
      (pecFault e.val :: fltFaultCnt :: fltPermCnt :: mbxAbortCnt :: pecCollideCnt e.val :: payloadWords) faultLogWords s t

/-- The registers and words that move with an instance from engine to engine (R116, Table PEC-28). -/
def bindingRegs : List Nat :=
  (List.finRange 10).flatMap fun e => [pecTtuGrant e.val, pecTcuGrant e.val, pecWdog e.val, pecWdecl e.val, blkBase (.pec e)]
def bindingWords : List Nat :=
  (List.finRange 10).flatMap fun e => [2, 3, 6].flatMap fun sp => words (.pec e) sp 0 (2 ^ 24)

/-- A hard fault has stopped an engine, whatever state it was in (R119, R161, R164): PEC_FAULT holds its bits, and it is
FENCED, its domain fenced with it. -/
def HardFaulted (e : Fin 10) (bits : Nat) (s t : State) : Prop :=
  t.reg (pecFault e.val) = w32 bits ∧ t.eng[e].st = .fenced ∧
    (s.flt.perm.getLsbD e.val = false → t.fenced e.val = true) ∧
    (s.eng[e].st = .spare → t.eng[e] = stoppedEngine s.eng[e] .fenced ∧ (∀ f : Fin 10, f ≠ e → t.eng[f] = s.eng[f]) ∧
      t.insts = s.insts) ∧
    (s.eng[e].st = .debug → t.eng[e].role = s.eng[e].role ∧ (∀ f : Fin 10, f ≠ e → t.eng[f] = s.eng[f]))

/-- An ACTIVE engine that runs role r's instance i has stopped at a hard fault (R119, R158, R161): PEC_FAULT holds its
bits, its state stands, the fence is logged; the spare chosen is bound to the instance and has the old engine's map,
window table, rings and grants, or with no spare the instance stays stopped. -/
def HandedOver (e r : Fin 10) (i : Inst) (bits : Nat) (s t : State) : Prop :=
  t.reg (pecFault e.val) = w32 bits ∧ t.eng[e] = stoppedEngine s.eng[e] .fenced ∧ t.fenced e.val = true ∧
    t.reg fltFaultCnt = s.reg fltFaultCnt + 1 ∧ Logged e.val 0x01 0 s t ∧
    (∀ p, s.spareFor r = some p →
      t.insts[r] = some { i with engine := some p, heldSince := s.bindSeq } ∧ t.eng[p].st = .active ∧
      t.eng[p].role = some r ∧ t.eng[p].takeover = .selected (rerunOwed s.eng[e]) e ∧ t.eng[p].kern = .idle ∧
      t.eng[p].svc = .off ∧
      (∀ f : Fin 10, f ≠ e → f ≠ p → t.eng[f] = s.eng[f]) ∧
      (∀ sp ∈ [2, 3, 6], ∀ w < 256, t.tab (.pec p) sp w = s.tab (.pec e) sp w ∧ t.tab (.pec e) sp w = 0) ∧
      t.reg (pecTtuGrant p.val) = s.reg (pecTtuGrant e.val) ∧ t.reg (pecTtuGrant e.val) = 0 ∧
      t.reg (pecTcuGrant p.val) = s.reg (pecTcuGrant e.val) ∧ t.reg (pecTcuGrant e.val) = 0 ∧
      (s.islandOn (3 + p.val) = false → t.clk.ramp.getLsbD (3 + p.val) = true)) ∧
    (s.spareFor r = none →
      t.insts[r] = some { i with stopped := true, engine := none, gate := false, due := false } ∧
      ∀ f : Fin 10, f ≠ e → t.eng[f] = s.eng[f]) ∧
    (∀ q : Fin 10, q ≠ r → t.insts[q] = s.insts[q]) ∧
    Framed [.eng, .insts, .images, .hold, .clk, .mbx, .flt, .rotation]
      (pecFault e.val :: pecKovrCnt e.val :: fltFaultCnt :: mbxAbortCnt :: clkWakeCnt :: bindingRegs ++ payloadWords)
      (faultLogWords ++ bindingWords) s t

/-! The supervisor's commands (16). -/

/-- The commands of Table SEC-6 by mailbox box and OP. -/
def supOpOf : Instr → Option (Fin 3 × Nat)
  | .imgLoad b _ => some (b, 0x01)
  | .imgUpdate b => some (b, 0x02)
  | .admitRole b => some (b, 0x03)
  | .unbind b => some (b, 0x04)
  | .imgDrop b => some (b, 0x05)
  | .seqLoad b => some (b, 0x06)
  | .supUpdate b => some (b, 0x07)
  | .getIdentity b => some (b, 0x10)
  | .challenge b => some (b, 0x11)
  | .ownerKeyLoad b _ => some (b, 0x12)
  | .ownerCmd b _ => some (b, 0x13)
  | .takeOwnership b _ => some (b, 0x14)
  | .attest b => some (b, 0x15)
  | .decommissionUnowned b => some (b, 0x16)
  | .pwrStandby b => some (b, 0x20)
  | .pwrOff b => some (b, 0x21)
  | .ringKeysel b => some (b, 0x30)
  | _ => none

/-- A command with this OP is the one the supervisor serves next, and its reply can be posted and read: the device
runs, the supervisor's domain is in service, ROM does not serve alone, the reply mailbox is free with its endpoints of
Table MBX-2, its receiver's island is powered and its domain not fenced. -/
structure Asked (box : Fin 3) (op : Nat) (s : State) : Prop where
  runs : s.power = .run ∧ s.fenced 36 = false ∧ s.romOnly = false
  turn : s.nextBox = some box ∧ s.reqOp box = op
  ends : s.reg (mbxCfg (replyBox box).val) = regReset (mbxCfg (replyBox box).val)
  free : s.mbxFullOf (replyBox box) = false
  awake : s.islandOn (if box = 2 then 17 else 15) = true ∧ s.postFenced (replyBox box) = false

/-- The registers a reply writes. -/
def replyRegs (box : Fin 3) : List Nat :=
  mbxPostCnt :: (List.range 16).map fun w => mbxW ((replyBox box).val * 16 + w)

/-- The bytes at the address of a request (R378): what the host's memory returned, or for the expansion host the bytes of
a general bank that the supervisor owns. -/
def Handed (box : Fin 3) (lo : Word) (bs : List Byte) (s : State) : Prop :=
  box = 2 → let b := fieldOf lo 0 7
    b < 96 ∧ s.owns .sup b = true ∧ bs = s.ownerRead b 0 bs.length 100

/-- A command is answered (R378): the request is taken, the reply mailbox holds its OP and ID with the status and the
words that follow; of the supervisor's own state only what `f` says has changed, and of the rest only what is named. -/
def Replied (box : Fin 3) (status : Byte) (ws : List Word) (f : SecState → SecState) (parts : List Part)
    (regs tabs : List Nat) (s t : State) : Prop :=
  t.mbxFullOf (cmdBox box) = false ∧ t.mbxFullOf (replyBox box) = true ∧
    t.mbxWord (replyBox box) 0 = (s.reqW0 box &&& 0xFFFF0000#32 ||| status.setWidth 32) ∧
    (∀ k < 15, t.mbxWord (replyBox box) (k + 1) = ws.getD k 0) ∧
    (∀ b : Fin 64, b ≠ cmdBox box → b ≠ replyBox box → t.mbxFullOf b = s.mbxFullOf b) ∧
    t.sec = f { s.sec with lastBox := box, restarted := false } ∧
    Framed (.mbx :: .sec :: parts) (replyRegs box ++ regs) tabs s t

/-! CAN (11). -/

/-- The bus of a channel is free: the oldest attempt that may start does (R271). -/
def busStarts (t : State) (n : Fin 4) (y : CanState) : CanState :=
  if y.sending.isSome ∨ y.foreign = true then y
  else
    match y.tries.find? (t.canMayStart n) with
    | none => y
    | some a => { y with sending := some a, tries := dropTry (t.canMayStart n) y.tries }

/-! The ring (10). -/

/-- A ring is as said, and the other is as it was. -/
def RingIs (r : Fin 2) (x : RingState) (s t : State) : Prop := t.ring = vset s.ring r x

/-- A port belongs to the hub of a ring. -/
def HubPort (s : State) (r : Fin 2) (n : Fin 8) : Prop :=
  s.en .nrg = true ∧ s.isHub r = true ∧ (n = s.uplink ∨ n ∈ s.leaves)

/-- A port is a ring port of a node of the ring that runs, and no hub's. -/
def NodePort (s : State) (r : Fin 2) (n : Fin 8) : Prop :=
  s.ringRuns r = true ∧ ¬ HubPort s r n ∧ n.val ∈ s.ringPorts r.val

/-- Bytes as they leave a port, with their FCS. -/
def withFcs (bs : List Byte) : List Byte := bs ++ fcsBytes bs

/-- The port a pass goes on by: the other ring port; back where that is lost or looped, and on the star plane (R223,
R235, R255). -/
def outPort (s : State) (r : Fin 2) (n : Fin 8) : Fin 8 :=
  let other := if n = s.portA r then s.portB r else s.portA r
  if s.dualPlane r ∧ n = s.portS r then n else if s.deadPort r other then n else other

/-- A mailbox endpoint has been reset (R345, R346, R348): mailboxes it receives are cleared, each FULL one to EMPTY with
a notice, counted; of mailboxes it sends, the words written and not posted read 0; the others are as they were. -/
def EndpointReset (code : Byte) (s t : State) : Prop :=
  let hit := fun b : Fin 64 => s.mbxOpen b = true ∧ s.mbxReceiver b = code
  let sent := fun b : Fin 64 => s.mbxOpen b = true ∧ s.mbxReceiver b ≠ code ∧ s.mbxSender b = code
  t.reg mbxAbortCnt = s.reg mbxAbortCnt +
    w32 ((List.finRange 64).filter fun b => s.mbxOpen b && s.mbxReceiver b = code && s.mbxFullOf b).length ∧
  ∀ b : Fin 64,
    (∀ w < 16, t.mbxWord b w = if hit b ∨ (sent b ∧ (s.mbxWritten b).getLsbD w = true) then 0 else s.mbxWord b w) ∧
    t.mbxFullOf b = (s.mbxFullOf b && !decide (hit b)) ∧
    t.mbx.notice.getLsbD b.val = (s.mbx.notice.getLsbD b.val || decide (hit b ∧ s.mbxFullOf b = true)) ∧
    (sent b → t.mbxWritten b = 0) ∧ (¬ sent b → t.mbxWritten b = s.mbxWritten b)

/-! The host interface (13). -/

/-- Consecutive words of a context's entry, as keys. -/
def ctxKeys (c : Fin 256) (first n : Nat) : List Nat := words .hif 0 (c.val * 16 + first) n

/-- A context's fields outside its entry and the reads outstanding are as said; the rest of the host interface is as it
was, MSI-X pending bits apart. -/
def CtxIs (c : Fin 256) (x : HostCtx) (reads : List HostRead) (s t : State) : Prop :=
  t.hctx c = x ∧ (∀ d, d ≠ c → t.hctx d = s.hctx d) ∧ t.hif.reads = reads ∧
    ({ t.hif with ctx := s.hif.ctx, reads := s.hif.reads, msixPend := s.hif.msixPend } : HifState) = s.hif

/-- An entry written now sends the context's vector: the CNT-th since the last, or a TX descriptor with IRQ (R314). -/
def vectorDue (s : State) (c : Fin 256) (irq : Bool) (x : HostCtx) : Prop :=
  irq = true ∨ max 1 (fieldOf (s.ctxWord c 7) 0 16) ≤ x.modCnt + 1

/-- A completion entry has been written (R305, R306, R314), after what `pre` names: its 16 bytes at the producer index
with the phase in force, the index advanced, the phase inverted at the ring's end, the entry counted, the vector sent
where due. -/
def EntryWritten (c : Fin 256) (pre : List Output) (w0 w1 w2 w3 : Word) (irq : Bool) (x : HostCtx) (s t : State) : Prop :=
  let next := (s.cqPi c + 1) % s.cqSize c
  let entry := Output.hostWrite (s.ctxLink c) (BitVec.ofNat 64 (s.ctxBase c 6 8 + 16 * s.cqPi c))
    (leBytes (setBit w0 31 (s.cqPhase c)) ++ leBytes w1 ++ leBytes w2 ++ leBytes w3)
  Sends (pre ++ [entry]) s t ∧
    t.ctxWord c 11 = w32 (next + 65536 * b2n (if next = 0 then !s.cqPhase c else s.cqPhase c)) ∧
    (¬ vectorDue s c irq x →
      t.hctx c = { x with modCnt := x.modCnt + 1, timer := decide (fieldOf (s.ctxWord c 7) 16 16 ≠ 0) }) ∧
    (vectorDue s c irq x → t.hctx c = { x with modCnt := 0, timer := false } ∧
      let masked := bitOf (s.vecWord (s.ctxLink c) c.val 3) 0
      (masked = false → Sends (pre ++ [entry, .msix (s.ctxLink c) c.val]) s t) ∧
      (masked = true → t.hif.msixPend[(Fin.ofNat 2 (b2n (s.ctxLink c)) : Fin 2)].getLsbD c.val = true)) ∧
    (∀ d, d ≠ c → t.hctx d = s.hctx d)

/-- The reply to an abort (R309): the status is shown, and its entry written, or counted while the ring is full. -/
def AbortReplied (c : Fin 256) (status : Byte) (target : BitVec 2 × BitVec 16) (x : HostCtx) (s t : State) : Prop :=
  let y : HostCtx := { x with abortSt := status, abortAt := target }
  (s.cqRoom c = true →
    EntryWritten c [] (cqe0 4 status target.2.toNat) (w32 (65536 * target.1.toNat)) 0 0 false y s t ∧
    Framed [.hif] [] (ctxKeys c 11 1) s t) ∧
  (s.cqRoom c = false → CtxIs c y s.hif.reads s t ∧ t.reg hifCqFullCnt = s.reg hifCqFullCnt + 1 ∧
    Framed [.hif] [hifCqFullCnt] [] s t)

/-- The reads of a context's frames and descriptors, no longer wanted (R295). -/
def readsLeft (s : State) (c : Fin 256) : List HostRead :=
  s.hif.reads.map fun r => if r.ctx = c then { r with kind := .discard } else r

/-- A context is OFF, with nothing left of its rings (R297, Table HIF-7): a pending abort reads DISABLED (R309), and the
entries counted for its vector wait for their time (R314), unless its link is gone (R312). -/
def ctxEnded (x : HostCtx) : HostCtx :=
  { x with
    txq := []
    rxq := []
    txAb := []
    rxAb := []
    abort := none
    abortSt := if x.abort.isSome then stDisabled else x.abortSt
    abortAt := x.abort.getD x.abortAt
    modCnt := if x.mute then 0 else x.modCnt
    timer := x.timer && !x.mute
    mute := false }

/-! The expansion port and the signal mapper (14). -/

/-- A posted error enters the log, at its producer index: STATUS, SRC, ID, the number of errors logged, the address and
the datum time; or is counted as dropped while 32 stand in it (R329, Table XPB-7). -/
def PostedLogged (status : Byte) (src id : Nat) (addr : Word) (s t : State) : Prop :=
  let pi := fieldOf (s.reg xpbPelPi) 0 6
  let full := (pi + 64 - fieldOf (s.reg xpbPelCi) 0 6) % 64 = 32
  (full → t.reg xpbPelDropCnt = s.reg xpbPelDropCnt + 1 ∧ t.xpb.seq = s.xpb.seq ∧ t.reg xpbPelPi = s.reg xpbPelPi) ∧
  (¬ full → t.reg xpbPelPi = w32 ((pi + 1) % 64) ∧ t.xpb.seq = s.xpb.seq + 1 ∧
    t.reg xpbPelDropCnt = s.reg xpbPelDropCnt ∧
    let w := fun k => t.tab .xpb 0 (pi % 32 * 4 + k)
    fieldOf (w 0) 24 8 = status.toNat ∧ fieldOf (w 0) 20 4 = src ∧ fieldOf (w 0) 8 12 = id ∧
      fieldOf (w 0) 0 8 = s.xpb.seq.toNat ∧ w 1 = addr ∧ w 2 = w32 (dtNs (s.time 0)) ∧ w 3 = w32 (dtSec (s.time 0)))

/-- The words of the posted-error log. -/
def pelWords : List Nat := words .xpb 0 0 128

/-- A bridge reply of the given status and data waits at LP20 for its requester (R328, Table XPB-4). -/
def BridgeReplied (q : XpbReq) (status : Byte) (data : List Word) (s t : State) : Prop :=
  ∃ f : Frame, t.swc.ingress = s.swc.ingress ++ [⟨20, f, s.swcTakes⟩] ∧ f.origin = .gateway ∧ 60 ≤ f.bytes.length ∧
    (q.sa.length = 6 → f.bytes.take 6 = q.sa ∧
      be16At f.bytes 6 = fieldOf (s.reg xpbGwOwnHi) 0 16 ∧ be32At f.bytes 8 = (s.reg xpbGwOwnLo).toNat ∧
      be16At f.bytes 12 = fieldOf (s.reg xpbGwEtype) 0 16 ∧ byteAt f.bytes 14 = 0x14 ∧
      byteAt f.bytes 15 = BitVec.ofNat 8 q.len ∧ be16At f.bytes 16 = q.tag.toNat ∧ be32At f.bytes 18 = q.addr.toNat ∧
      byteAt f.bytes 24 = status ∧ ∀ k < data.length, be32At f.bytes (28 + 4 * k) = (data.getD k 0).toNat)

/-- SRC and ID of a posted error of a request that did not come from an Ethernet port (Table XPB-7). -/
def pelSrc : XpbSrc → Nat × Nat
  | .host link c => (0, 2048 * b2n link + c % 256)
  | .role r => (1, r.val)
  | .farRead k => (2, k.val)
  | .farWrite k => (2, k.val)
  | _ => (3, 0)

/-- A route's state outside its entry is as said, and the other routes' are as they were. -/
def RouteIs (k : Nat) (x : RouteSt) (s t : State) : Prop := t.route k = x ∧ ∀ j, j ≠ k → t.route j = s.route j

/-- STATUS and ERR of a route after a delivery has ended (Table SGM-2). -/
def RouteEnded (k : Nat) (status : Byte) (s t : State) : Prop :=
  let err := fieldOf (s.routeWord k 7) 0 16
  t.routeWord k 7 = w32 (2 ^ 24 * status.toNat + if status = stOk then err else (err + 1) % 65536) ∧
    t.reg sgmErrCnt = s.reg sgmErrCnt + if status = stOk then 0 else 1

/-- The word of a route's STATUS and ERR. -/
def routeEnd (k : Nat) : List Nat := words .sgm 0 (8 * k + 7) 1

/-- A posted write of a host has failed: logged, and an event for the context its NOTIFY names (R329, R330). -/
def HostToldOf (q : XpbReq) (link : Bool) (ctx : Nat) (status : Byte) (regs : List Nat) (s t : State) : Prop :=
  let pi := fieldOf (s.reg xpbPelPi) 0 6
  let c : Fin 256 := Fin.ofNat 256 (fieldOf q.notify 0 8)
  let log := xpbPelPi :: xpbPelDropCnt :: regs
  PostedLogged status 0 (2048 * b2n link + ctx % 256) q.addr s t ∧
    (q.notify.getLsbD 15 = false → Framed [.xpb] log pelWords s t) ∧
    (q.notify.getLsbD 15 = true → (pi + 64 - fieldOf (s.reg xpbPelCi) 0 6) % 64 ≠ 32 →
      (s.ctxLink c = link → s.ctxState c = 1 → s.cqRoom c = true →
        EntryWritten c [] (cqe0 3 0 0) (w32 (2 ^ 24)) (w32 (pi % 32)) 0 false (s.hctx c) s t ∧
        Framed [.xpb, .hif] log (pelWords ++ ctxKeys c 11 1) s t) ∧
      (s.ctxLink c ≠ link ∨ s.ctxState c ≠ 1 ∨ s.cqRoom c = false →
        t.reg hifCqFullCnt = s.reg hifCqFullCnt + 1 ∧ Framed [.xpb] (hifCqFullCnt :: log) pelWords s t))

/-- What the end of a transaction means to the source of its request (R328-R334), with the registers `regs` that its end
counts; the source codes of a request from an Ethernet port are open (log 23). -/
def Finished (q : XpbReq) (status : Byte) (data : List Word) (regs : List Nat) (s t : State) : Prop :=
  match q.src with
  | .poll i =>
    (status = stOk → t.tab .xpb 1 (8 * i.val + 5) = data.getD 0 0 ∧
      t.reg xpbPollAct = setBit (s.reg xpbPollAct) i.val (decide (data.getD 0 0 &&& s.tab .xpb 1 (8 * i.val + 4) ≠ 0)) ∧
      Framed [.xpb] (xpbPollAct :: regs) (words .xpb 1 (8 * i.val + 5) 1) s t) ∧
    (status ≠ stOk → Framed [.xpb] regs [] s t)
  | .farRead k =>
    RouteIs k.val { s.route k.val with part := if status = stOk then (s.route k.val).part ++ [data.getD 0 0] else [] } s t ∧
      Framed [.xpb, .sgm] regs [] s t
  | .farWrite k =>
    RouteEnded k.val status s t ∧ (status ≠ stOk → PostedLogged status 2 k.val q.addr s t) ∧
      (status = stOk → Framed [.xpb] regs (routeEnd k.val) s t) ∧
      Framed [.xpb] (sgmErrCnt :: xpbPelPi :: xpbPelDropCnt :: regs) (pelWords ++ routeEnd k.val) s t
  | src =>
    (q.op = .posted → status = stOk → Framed [.xpb] regs [] s t) ∧
    (∀ link c, src = .host link c → q.op = .posted → status ≠ stOk → HostToldOf q link c status regs s t) ∧
    (q.op = .posted → status ≠ stOk → src = .sup ∨ (∃ r, src = .role r) →
      PostedLogged status (pelSrc src).1 (pelSrc src).2 q.addr s t ∧ BridgeReplied q status [] s t ∧
        Framed [.xpb, .swc] (xpbPelPi :: xpbPelDropCnt :: regs) pelWords s t) ∧
    (q.op ≠ .posted → BridgeReplied q status (if status = stOk ∧ q.op = .read then data else []) s t ∧
      Framed [.xpb, .swc] regs [] s t)

/-! What holds whatever commands reach the block. -/

/-- The stores of the blocks are in canonical form: banks, data memories, mailboxes, streams, passes carried, contexts,
routes, the supervisor's memories; the Skimmer's scratch row is a row. -/
def State.blocksWf (s : State) : Bool :=
  decide (amWf bankReset s.mem.banks) && decide (∀ e : Fin 10, amWf (fun _ => 0) s.eng[e].dmem) &&
  decide (amWf (fun _ => 0) s.mbx.written) && decide (amWf (fun _ => ⟨true, 0, 0, 0, 0⟩) s.swc.streams) &&
  decide (amWf (fun _ => []) s.swc.elim) && decide (∀ r : Fin 2, amWf (fun _ => []) s.ring[r].history) &&
  decide (amWf (fun _ => HostCtx.reset) s.hif.ctx) && decide (amWf (fun _ => RouteSt.reset) s.sgm.routes) &&
  decide (amWf (fun _ => 0) s.sec.ram) && decide (amWf (fun _ => 0) s.sec.retention) &&
  s.mem.window.all fun y => y.scratch.length = 256

/-- The stores every block shares are: registers, indirect spaces, IND sets, latches. -/
def State.sharedWf (s : State) : Bool :=
  decide (amWf regReset s.regs) && decide (amWf tabReset s.tabs) && decide (amWf (fun _ => indReset) s.ind) &&
  decide (amWf (fun _ => 0) s.latches)

/-- Every store of a state is in canonical form. -/
abbrev State.storesWf (s : State) : Prop := (s.sharedWf && s.blocksWf) = true

/-- The device is DECOMMISSIONED (R367). -/
abbrev State.decommissioned (s : State) : Prop := s.sec.lifecycle = lcDecommissioned

end Sys2Proof.Machine
end

