-- ==== Sys2Proof/Certificates/Slice0/Obligations.lean ====
section
/-! DEFINITION. The statements about the block, for the provers. -/

open Sys2Proof Sys2Proof.Machine

/-- For every command and state, a step of the state with the command at the front of its queue is exec of the command on the state with the rest of the queue. With an empty queue a step is one PCLK tick (the model's choice, log 1): with the supplies down and in P3 nothing happens. -/
def Obligations.StepRunsTheFrontCommand : Prop :=
  (∀ (c : Instr) (rest : List Instr) (s : State),
    step { s with pending := c :: rest } = exec c { s with pending := rest }) ∧
  (∀ s : State, s.pending = [] → s.power = .held ∨ s.power = .p3 → step s = .next s)

/-- No command of the opcode table ends in a fault or in a refusal of the model: in every state and with every operand it answers a next state, refusals of the device being status codes, counters and log entries of that state. The output record of the block is only ever added to by the interrupts that follow an effect. -/
def Obligations.EveryCommandCompletes : Prop :=
  ∀ (c : Instr) (s : State), ∃ u, exec c s = .next (settle s u) ∧ u.out <+: (settle s u).out

/-- After reset the device waits for POR_N with its supplies held, no command waits and nothing has been sent; GLB_ID reads 0x8600B001, the fixed mailboxes have their endpoints, every bank is unowned, no island is powered, no domain is fenced, every Datum copy is 0, no port is up, no engine holds a role, every CAN channel is unsynchronised with empty event queue, and the sequencers' queues, the host contexts and the expansion queue are empty. The last clause, that memory and registers without a stated value read 0, is the model's choice (logs 7 and 9). -/
def Obligations.ResetStateIsTheManualsReset : Prop :=
  State.reset.pending = [] ∧ State.reset.out = [] ∧ State.reset.power = .held ∧ State.reset.reg glbId = 0x8600B001 ∧
    State.reset.reg (mbxCfg 0) = 0x1030 ∧ State.reset.reg (mbxCfg 5) = 0x3050 ∧
    (∀ b < 112, State.reset.owner b = 0) ∧ State.reset.reg clkIslOn = 0 ∧ State.reset.flt.fenced = 0 ∧
    State.reset.flt.perm = 0 ∧
    (∀ d : Fin 4, State.reset.time d = 0 ∧ State.reset.dom[d].standby = 0 ∧ State.reset.dom[d].req = .none) ∧
    (∀ n : Fin 8, State.reset.eth[n].up = false ∧ State.reset.eth[n].tx.isNone = true) ∧
    (∀ r : Fin 10, State.reset.insts[r] = none) ∧ (∀ n : Fin 4, State.reset.can[n].events = []) ∧
    (∀ c : Fin 64, State.reset.psq.ch[c].st = .stopped ∧ State.reset.psq.ch[c].txq = [] ∧ State.reset.psq.ch[c].rxq = []) ∧
    (∀ c : Fin 256, State.reset.ctxState c = 0) ∧ State.reset.xpb.queue = [] ∧ State.reset.mbx.full = 0 ∧
    (∀ b off : Nat, State.reset.bankByte b off = 0)

/-- Right after reset the stores of registers, indirect spaces, IND sets, shadow words and bank bytes are in canonical form: keys strictly rising, and no entry equal to what an unlisted key reads as. -/
def Obligations.ResetKeepsTheCanonicalForm : Prop :=
  State.reset.storesWf

/-- From every state whose sparse stores (registers, indirect spaces, IND sets, shadow words, bank bytes, data memories, mailboxes, streams, contexts, routes, the supervisor's memories) are in canonical form, whatever command is at the front of the queue or if none waits, the next state's stores are in canonical form: equal contents are equal data, and a word written is the word read. -/
def Obligations.StoresStayCanonical : Prop :=
  ∀ s t : State, s.storesWf → step s = .next t → t.storesWf

/-- From every state whose fused lifecycle is DECOMMISSIONED, whatever command is at the front of the queue (a start, a token, a TAP instruction, a register write) or if none waits, the next state's is DECOMMISSIONED: the lifecycle state has no way out. -/
def Obligations.DecommissionedIsNeverLeft : Prop :=
  ∀ s t : State, s.decommissioned → step s = .next t → t.decommissioned

/-- For every step, if the level of FAULT_N (low before the first START_DONE, in RECOVERY and while any domain is fenced) differs between the states before and after the command's own effect, the record of what the block sends ends with the new level before any interrupt of the same effect, and if it does not differ no entry of FAULT_N is added; the level is the same after the interrupts. -/
def Obligations.FaultPinFollowsTheFences : Prop :=
  ∀ (c : Instr) (s : State), ∃ u : State, ∃ l : List Output, exec c s = .next (settle s u) ∧
    (settle s u).faultLow = u.faultLow ∧
    (settle s u).out = u.out ++ (if s.faultLow = u.faultLow then [] else [.faultN u.faultLow]) ++ l ∧
    ∀ o ∈ l, ∃ link vector, o = Output.msix link vector

/-- For every command that is one register access, where the access is refused with a status (undefined location, gated island or port, fenced domain, pair's SHADOW, debug level): a host link's write is dropped, with an AER message if AER is enabled on the link, and its read answered with Completer Abort, with an entry in the bus-error log or, if 16 stand in it, a count of drops; the supervisor's access ends in a bus error, counted; the expansion host and JTAG are answered with the status; and nothing else changes. A write refused as supervisor-only is ignored, counted in CFGREJ_CNT and recorded in CFGREJ_ADDR. -/
def Obligations.RefusedAccessesHaveOneEffect : Prop :=
  ∀ (c : Instr) (s : State) (m : Master) (w : Bool) (a : Nat), s.storesWf → portOf c = some (m, w, a) →
    (∀ st, s.access m w a = .err st →
      Ends c s fun t =>
        Framed [.hif] [glbSupBuserrCnt, hifBuserrDropCnt] [] s t ∧
        (m = .sup → t.reg glbSupBuserrCnt = s.reg glbSupBuserrCnt + 1) ∧
        (m = .sup ∨ m = .exp ∨ m = .jtag → Sends [.busError m (w32 a) st] s t ∧ t.hif.buserr = s.hif.buserr) ∧
        (∀ link, hostLink m = some link →
          Sends (if w then if s.hif.aer.getLsbD (b2n link) then [.aerNonFatal m] else []
            else [.completerAbort m (w32 a)]) s t ∧
          (s.hif.buserr.length < 16 → ∃ e, t.hif.buserr = s.hif.buserr ++ [e] ∧ e.w1 = w32 a ∧
            fieldOf e.w0 24 8 = st.toNat ∧ bitOf e.w0 23 = link ∧ bitOf e.w0 22 = w) ∧
          (16 ≤ s.hif.buserr.length → t.hif.buserr = s.hif.buserr ∧
            t.reg hifBuserrDropCnt = s.reg hifBuserrDropCnt + 1))) ∧
    (∀ b, w = true → s.access m w a = .supOnly b → Ends c s (Rejected b a s))

/-- Of a write that is let through, RW and CI registers take the value in their defined bits (FLT_START_LIMIT only values of 200 and more; after FLT_ROT_PERIOD the next rotation decision is a period away); ST, SH and PI registers ignore it; a CF register takes an allowed value only while its block is disabled and quiesced, and otherwise the write is rejected and counted, changing nothing else; a CT register ignores every value but 0, which clears it. Where a CF write would change fields that belong to a fenced domain, they keep their bits, the other fields are taken, and the supervisor's access counts as a bus error; the clauses that follow are about writes that do not. No other register, indirect word, byte of memory or part of the state changes, but what a new ETH mode, a PFC watermark (which brings its priority into or out of XOFF), SWC_SMP_BASE_LO or a new expansion-port role brings about. Of two masters' writes of an RW register in one cycle that of the later in the order link 1, link 0, supervisor stands, however listed. A write without all four byte enables is an access to a reserved location: of a host link it is dropped and changes no register but a drop count. -/
def Obligations.RegisterWritesFollowTheFieldKinds : Prop :=
  ∀ (s : State) (m : Master) (a v : Word) (b : Blk) (o : Nat) (row : RegRow), s.storesWf →
    s.access m true a.toNat = .ok b o row →
    (let r := blkBase b + o
     let k := s.fencedMask b o
     ((v ^^^ s.reg r) &&& row.mask &&& k ≠ 0 → row.kind = .cf → s.en b = false → s.quiesced b = true →
       s.cfTakes b o (((v &&& ~~~k) ||| (s.reg r &&& k)) &&& row.mask) = true → (s.reg r) &&& ~~~row.mask = 0 →
       Ends (.registerWrite m a 0xF v []) s fun t => t.reg r &&& k = s.reg r &&& k ∧
         t.reg r &&& ~~~k = v &&& row.mask &&& ~~~k ∧
         (m = .sup → t.reg glbSupBuserrCnt = s.reg glbSupBuserrCnt + 1))) ∧
    ((v ^^^ s.reg (blkBase b + o)) &&& s.fencedMask b o = 0 →
     let r := blkBase b + o
     (row.kind = .st ∨ row.kind = .sh ∨ row.kind = .pi → Idle (.registerWrite m a 0xF v []) s) ∧
     (row.kind = .ci ∨ (row.kind = .rw ∧ r ≠ fltRotPeriod ∧ ¬ (r = fltStartLimit ∧ (v &&& row.mask).toNat < 200)) →
       Ends (.registerWrite m a 0xF v []) s fun t => t.reg r = v &&& row.mask ∧ Framed [] [r] [] s t) ∧
     (row.kind = .rw → r = fltRotPeriod →
       Ends (.registerWrite m a 0xF v []) s fun t => t.reg r = v &&& row.mask ∧
         t.flt = { s.flt with rotDue := s.clk.tick + 500000000 * fieldOf (v &&& row.mask) 0 16 } ∧
         Framed [.flt] [r] [] s t) ∧
     (row.kind = .rw → r = fltStartLimit → (v &&& row.mask).toNat < 200 →
       Ends (.registerWrite m a 0xF v []) s (Rejected b r s)) ∧
     (row.kind = .cf → (s.en b = true ∨ s.quiesced b = false ∨ s.cfTakes b o (v &&& row.mask) = false) →
       Ends (.registerWrite m a 0xF v []) s (Rejected b r s)) ∧
     (row.kind = .cf → s.en b = false → s.quiesced b = true → s.cfTakes b o (v &&& row.mask) = true →
       Ends (.registerWrite m a 0xF v []) s fun t => t.reg r = v &&& row.mask ∧
         ((∀ n, b ≠ .eth n) → ¬ (b = .xpb ∧ o = 0x20) → ¬ (b = .swc ∧ o = 0x40) → Framed [] [r] [] s t) ∧
         (b = .swc → o = 0x40 → t.swc.smpBase = s.reg swcSmpBaseHi ++ (v &&& row.mask) ∧ Framed [.swc] [r] [] s t) ∧
         (∀ n, b = .eth n → o = 0x20 → s.en .nrg = false → Framed [.free] [r] (words (.eth n) 2 0 6) s t) ∧
         (∀ n, b = .eth n → o = 0x24 → s.en .nrg = false → Framed [] [r] [] s t) ∧
         (∀ n, b = .eth n → o = 0x60 ∨ (0x80 ≤ o ∧ o < 0x100 ∧ o % 16 < 8) →
           (∀ p : Fin 8, t.eth[n].xoff.getLsbD p.val = (s.setReg r (v &&& row.mask)).xoffNow n p.val) ∧
           Framed [.eth] (r :: pfcRegs) [] s t) ∧
         (∀ n, b = .eth n → o ≠ 0x20 → o ≠ 0x24 → ¬ (o = 0x60 ∨ (0x80 ≤ o ∧ o < 0x100 ∧ o % 16 < 8)) →
           Framed [] [r] [] s t)) ∧
     (row.kind = .ct → v ≠ 0 → Idle (.registerWrite m a 0xF v []) s) ∧
     (row.kind = .ct → v = 0 →
       Ends (.registerWrite m a 0xF v []) s fun t => t.reg r = 0 ∧ (o = 8 → t.reg (r + 4) = 0) ∧
         Framed [] [r, r + 4] [] s t)) ∧
    (∀ (m' : Master) (v' : Word), (m, m') ∈ [(Master.h1, Master.h0), (.h1, .sup), (.h0, .sup)] →
      let r := blkBase b + o
      row.kind = .rw → r ≠ fltRotPeriod → r ≠ fltStartLimit → cmBits b o = 0 → s.fencedMask b o = 0 →
      s.access m' true a.toNat = .ok b o row → (s.setReg r (v &&& row.mask)).access m' true a.toNat = .ok b o row →
      ∀ c ∈ [Instr.registerWrite m a 0xF v [(m', 0xF, v')], .registerWrite m' a 0xF v' [(m, 0xF, v)]],
        Ends c s fun t => t.reg r = v' &&& row.mask ∧ Framed [] [r] [] s t) ∧
    (∀ be : BitVec 4, be ≠ 0xF → ∀ link, hostLink m = some link →
      Ends (.registerWrite m a be v []) s fun t =>
        Sends (if s.hif.aer.getLsbD (b2n link) then [.aerNonFatal m] else []) s t ∧
        Framed [.hif] [hifBuserrDropCnt] [] s t)

/-- A read that is let through returns EN in bit 0 of CTRL, STATUS of the block, and for RW, CF and CT registers the word stored; a read of a SH register returns what the master's last read of the low word latched; it changes nothing but latches. A whole access of BAR0 to a location that is not reserved, or to an island and port that are powered, is no event of these rows and changes nothing; a host link's whole read of a word that BAR2 or BAR4 holds, for which the table has no row, returns it by the row of reserved locations (the model's choice, log 22); an access to a reserved location, one that is not whole, or one to a gated island, is answered with BUS_ERROR, or ISLAND_OFF, as its master sees it, and nothing else changes but the bus-error log and its counts. -/
def Obligations.RegisterReadsReturnTheStoredWord : Prop :=
  ∀ (s : State) (m : Master) (a : Word) (w : Bool) (bar : BitVec 2), s.storesWf →
    (∀ b o row, s.access m false a.toNat = .ok b o row →
      (o = 0 → Ends (.wideLowRead m a) s fun t =>
        Sends [.readData m a (if s.en b then 1 else 0)] s t ∧ Framed [] [] [] s t) ∧
      (o = 4 → Ends (.wideLowRead m a) s fun t =>
        Sends [.readData m a (w32 (s.statusOf b))] s t ∧ Framed [] [] [] s t) ∧
      (o ≠ 0 → o ≠ 4 → row.kind = .rw ∨ row.kind = .cf ∨ row.kind = .ct →
        Ends (.wideLowRead m a) s fun t =>
          Sends [.readData m a (s.reg (blkBase b + o))] s t ∧ Framed [.latches] [] [] s t) ∧
      (row.kind = .sh → Ends (.wideLowRead m a) s fun t =>
        Sends [.readData m a (s.latched m (blkBase b + o))] s t ∧ Framed [] [] [] s t)) ∧
    (s.reservedAt m bar a.toNat = false → bar = 0 ∨ bar = 3 ∨ hostLink m = none →
      Idle (.reservedAccess m w bar a true) s) ∧
    (s.reservedAt m bar a.toNat = false → w = true → Idle (.reservedAccess m w bar a true) s) ∧
    (∀ link, hostLink m = some link → bar = 1 → w = false → s.reservedAt m bar a.toNat = false → s.linkUp link = true →
      Ends (.reservedAccess m w bar a true) s fun t =>
        Sends [.barData link bar a (s.doorbellRead (Fin.ofNat 256 (a.toNat / 4096)) (Fin.ofNat 4 (a.toNat / 4)))] s t ∧
        Framed [] [] [] s t) ∧
    (∀ link v, hostLink m = some link → bar = 2 → w = false → s.reservedAt m bar a.toNat = false → s.linkUp link = true →
      s.bar4Read link a.toNat = some v →
      Ends (.reservedAccess m w bar a true) s fun t => Sends [.barData link bar a v] s t ∧ Framed [] [] [] s t) ∧
    (∀ whole, s.reservedAt m bar a.toNat = true ∨ (whole = false ∧ (bar = 0 ∨ (bar ≠ 3 ∧ hostLink m ≠ none))) →
      Ends (.reservedAccess m w bar a whole) s fun t =>
        (m = .sup ∨ m = .exp ∨ m = .jtag → Sends [.busError m a stBusError] s t) ∧
        (∀ link, hostLink m = some link →
          Sends (if w then if s.hif.aer.getLsbD (b2n link) then [.aerNonFatal m] else [] else [.completerAbort m a]) s t ∧
          (s.hif.buserr.length < 16 → ∃ e, t.hif.buserr = s.hif.buserr ++ [e] ∧ fieldOf e.w0 24 8 = 4 ∧
            fieldOf e.w0 20 2 = bar.toNat)) ∧
        Framed [.hif] [glbSupBuserrCnt, hifBuserrDropCnt] [] s t) ∧
    (s.access m w a.toNat ≠ .err stIslandOff → Idle (.gatedIslandAccess m w a) s) ∧
    (s.access m w a.toNat = .err stIslandOff →
      Ends (.gatedIslandAccess m w a) s fun t =>
        (m = .sup ∨ m = .exp ∨ m = .jtag → Sends [.busError m a stIslandOff] s t) ∧
        (∀ link, hostLink m = some link →
          Sends (if w then if s.hif.aer.getLsbD (b2n link) then [.aerNonFatal m] else [] else [.completerAbort m a]) s t ∧
          (s.hif.buserr.length < 16 → ∃ e, t.hif.buserr = s.hif.buserr ++ [e] ∧ fieldOf e.w0 24 8 = 0x0B)) ∧
        Framed [.hif] [glbSupBuserrCnt, hifBuserrDropCnt] [] s t)

/-- In GLB, MBX, SEC and FLT a write of EN and a QUIESCE have no effect; in CLK and DTM EN once written 1 stays 1 and QUIESCE has no effect; in MEM, HIF, BFM, SWC, XPB and SGM a QUIESCE puts the block in hold, a write of EN from 1 to 0 clears EN and puts it in hold, one from 0 to 1 sets EN and ends hold whatever QUIESCE is written with it, and one that keeps EN quiesces or not as written; in those nothing else changes. An engine's hold is the same. What a block in hold still has under way (the frame a port sends, a ring's own envelope, the frame a CAN channel receives) is over after QUIESCE_COMPLETE, and a port with EN = 0 then goes down; outside hold that is no event. -/
def Obligations.EnableAndQuiesceOfABlock : Prop :=
  ∀ (s : State) (m : Master) (b : Blk) (en q : Bool), s.storesWf → Open s m true (blkBase b) →
    (b = .glb ∨ b = .mbx ∨ b = .sec ∨ b = .flt → Idle (.enWrite m b en q) s ∧ Idle (.quiesce m b) s) ∧
    (b = .clk ∨ b = .dtm → Idle (.quiesce m b) s ∧ Idle (.enWrite m b false q) s ∧
      Ends (.enWrite m b true q) s fun t => t.en b = true ∧ Framed [] [blkBase b] [] s t) ∧
    (b = .mem ∨ b = .hif ∨ b = .bfm ∨ b = .swc ∨ b = .xpb ∨ b = .sgm ∨ (∃ e, b = .pec e) →
      (Ends (.quiesce m b) s fun t => t.inHold b = true ∧ (∀ c, blkIdx c ≠ blkIdx b → t.inHold c = s.inHold c) ∧
        Framed [.hold] [] [] s t) ∧
      (s.en b = true → Ends (.enWrite m b false q) s fun t => t.en b = false ∧ t.inHold b = true ∧
        Framed [.hold] [blkBase b] [] s t) ∧
      (s.en b = false → Ends (.enWrite m b true q) s fun t => t.en b = true ∧ t.inHold b = false ∧
        Framed [.hold] [blkBase b] [] s t) ∧
      (s.en b = en → q = false → Idle (.enWrite m b en q) s) ∧
      (s.en b = en → q = true → Ends (.enWrite m b en q) s fun t => t.inHold b = true ∧ Framed [.hold] [] [] s t)) ∧
    (s.inHold b = false → Idle (.quiesceComplete b) s) ∧
    (s.inHold b = true → (∀ n, b ≠ .eth n) → b ≠ .nrg → (∀ n, b ≠ .can n) → Idle (.quiesceComplete b) s) ∧
    (∀ n : Fin 8, b = .eth n → s.inHold b = true → s.en b = true → s.eth[n].tx = none → Idle (.quiesceComplete b) s) ∧
    (∀ n : Fin 8, b = .eth n → s.inHold b = true → Ends (.quiesceComplete b) s fun t => t.eth[n].tx = none ∧
      (s.en b = false → s.ethQuiet n = true → t.eth[n].up = false)) ∧
    (∀ n : Fin 4, b = .can n → s.inHold b = true → Ends (.quiesceComplete b) s fun t =>
      t.can = vset s.can n { s.can[n] with foreign := false } ∧ Framed [.can] [] [] s t) ∧
    (b = .nrg → s.inHold b = true → Ends (.quiesceComplete b) s fun t => ∀ r : Fin 2, t.ring[r].env = none)

/-- A write of IND_ADDR starts a fetch of the entry it names for the set of its master alone, unless a dirty buffer holds that entry; the fetch's end makes the buffer hold an entry of a space that exists, clean. A read of IND_DATA returns the buffered word, or 0 for a key, with STATUS OK, and a write of it, unless the word ignores it, changes the buffered word alone until the entry's last word is written, which commits the whole entry where no word of it is barred by now: each of its words then stands in the space. A refused access reads 0, leaves its code in STATUS and changes no word. With INC 0 the address stays. -/
def Obligations.IndirectAccessGoesThroughTheBuffer : Prop :=
  ∀ (s : State) (m : Master) (b : Blk) (v : Word), s.storesWf →
    (let sup := supSet m
     let x := s.indOf b sup
     let sp := indSpace x.addr
     let w := indWord x.addr
     (Open s m true (blkBase b + 0x10) → x.dirty = false →
       Ends (.indAddrWrite m b v) s fun t =>
         t.indOf b sup = { x with addr := v &&& 0x7FFFFFFF#32, busy := true, held := none, words := [], dirty := false } ∧
         t.indOf b (!sup) = s.indOf b (!sup) ∧ Framed [.ind] [] [] s t) ∧
     (Open s m true (blkBase b + 0x10) → x.dirty = true → heldHas x (v &&& 0x7FFFFFFF#32) = true →
       Ends (.indAddrWrite m b v) s fun t =>
         t.indOf b sup = { x with addr := v &&& 0x7FFFFFFF#32 } ∧ Framed [.ind] [] [] s t) ∧
     (x.busy = false → Idle (.indFetchDone b sup) s) ∧
     (∀ row, x.busy = true → s.spaceAt b sp = some row → w < row.size → plainSpace b sp = true →
       b ≠ .glb → b ≠ .dtm → b ≠ .swc → (∀ e, b ≠ .pec e) →
       Ends (.indFetchDone b sup) s fun t =>
         (t.indOf b sup).busy = false ∧ (t.indOf b sup).dirty = false ∧
         (t.indOf b sup).held = some (sp, w / row.e * row.e) ∧
         (t.indOf b sup).words = s.tabWords b sp (w / row.e * row.e) row.e ∧ Framed [.ind] [] [] s t) ∧
     (∀ first, Open s m false (blkBase b + 0x14) → x.busy = false → x.held = some (sp, first) → x.inc = 0 →
       s.indRefusal m b sp w false = none →
       Ends (.indDataRead m b) s fun t =>
         Sends [.readData m (w32 (blkBase b + 0x14)) (if keyWordAt b sp w then 0 else x.words.getD (w - first) 0)] s t ∧
         t.indOf b sup = { x with status := stOk } ∧ Framed [.ind] [] [] s t) ∧
     (∀ st, Open s m false (blkBase b + 0x14) → x.busy = false → x.inc = 0 → s.indRefusal m b sp w false = some st →
       Ends (.indDataRead m b) s fun t =>
         Sends [.readData m (w32 (blkBase b + 0x14)) 0] s t ∧ t.indOf b sup = { x with status := st } ∧
         Framed [.ind] [] [] s t) ∧
     (∀ first row, Open s m true (blkBase b + 0x14) → x.busy = false → x.held = some (sp, first) → x.inc = 0 →
       s.indRefusal m b sp w true = none → s.spaceAt b sp = some row → ¬ (row.kind = .cf ∧ s.cfClosed b = true) →
       s.wordBar b sp w v = none → first ≤ w → w - first < x.words.length →
       (bufferWord b sp w v = none → x.dirty = false → Ends (.indDataWrite m b v) s fun t =>
          t.indOf b sup = { x with status := stOk } ∧ Framed [.ind] [] [] s t) ∧
       (∀ u, bufferWord b sp w v = some u →
        let ws := x.words.set (w - first) u
        (w - first + 1 ≠ ws.length → Ends (.indDataWrite m b v) s fun t =>
          t.indOf b sup = { x with words := ws, dirty := true, status := stOk } ∧ Framed [.ind] [] [] s t) ∧
        (w - first + 1 = ws.length → plainSpace b sp = true → s.commitBar b sp first ws = false →
          Ends (.indDataWrite m b v) s fun t =>
          (t.indOf b sup).dirty = false ∧ (∀ j < ws.length, t.tab b sp (first + j) = ws.getD j 0) ∧
          Framed [.ind] [] (words b sp first ws.length) s t))) ∧
     (∀ st, Open s m true (blkBase b + 0x14) → x.busy = false → x.inc = 0 → s.indRefusal m b sp w true = some st →
       st ≠ stPolicy ∨ supSpace b sp = false →
       Ends (.indDataWrite m b v) s fun t => t.indOf b sup = { x with status := st } ∧ Framed [.ind] [] [] s t))

/-- With the supplies held, POR_N rising begins a cold start whose count reads 1, with REF_SEL and PCIE_BIF sampled and the voltages of the I/O banks sensed; otherwise it is no event. A COLD command that is let through begins a cold start in any state: the count goes up by one and the reference selection stays. In both every register, space, queue, counter and bank of the parts named is at reset, the fuses stand, no domain is fenced, no debug session is open and a start is recorded. POR_N low leaves the device held: those parts at reset, nothing waiting lost. -/
def Obligations.ColdStartsBeginAfresh : Prop :=
  ∀ (s : State) (m : Master) (ref wide : Bool) (iobank : BitVec 6), s.storesWf →
    (s.power = .held → Ends (.porNRise ref wide iobank) s fun t => ColdStarted s t ∧ t.reg glbColdStartCnt = 1 ∧
      bitOf (t.reg clkRefStatus) 1 = ref ∧ bitOf (t.reg hifLinkStatus) 31 = wide ∧
      t.reg psqIobank = iobank.setWidth 32 ∧ t.flt.startDoneSeen = false ∧
      t.faultLow = true) ∧
    (s.power ≠ .held → Idle (.porNRise ref wide iobank) s) ∧
    (Open s m true glbResetCmd → Ends (.glbResetCold m) s fun t => ColdStarted s t ∧
      t.reg glbColdStartCnt = s.reg glbColdStartCnt + 1 ∧ t.reg clkRefStatus = s.reg clkRefStatus ∧
      bitOf (t.reg hifLinkStatus) 31 = bitOf (s.reg hifLinkStatus) 31 ∧
      t.reg psqIobank = s.reg psqIobank ∧ t.reg glbFailedStart = s.reg glbFailedStart) ∧
    (Ends .porNAssert s fun t => t.power = .held ∧ (∀ p ∈ coldParts, p.same State.reset t) ∧
      t.pending = s.pending ∧ t.sec.lifecycle = s.sec.lifecycle ∧ t.sec.rollback = s.sec.rollback ∧
      t.flt = FltState.reset ∧ (∀ a, a ≠ glbFailedStart → a ≠ clkWakeCause → a ≠ glbIntCnt → t.reg a = regReset a) ∧
      t.reg clkWakeCause = (if s.power = .p2 then 8 else s.reg clkWakeCause))

/-- A WARM command that is let through, and WARM_N low, start the running device again in place: GLB_LAST_START reads 1, the count goes up by one, frames in the switch are discarded, no context is ON, the expansion queue is empty, the lifecycle and the fences of domains 0 to 35 stand, and with no re-alignment needed the Datum domains run on; where no tamper mark stands and no test window is open, every byte of every bank stands. In RECOVERY, and unpowered, neither has an effect. In P2 WARM_N, an enabled WAKE_N and an enabled timer that is due start the device with CLK_WAKE_CAUSE 4, 1 and 2 and every domain reloaded from its standby copy; a source that is not enabled, and any exit outside P2, is no event; POR_N holds the device. -/
def Obligations.WarmStartsKeepWhatTheManualKeeps : Prop :=
  ∀ (s : State) (m : Master) (why : WakeCause), s.storesWf →
    (let warm : State → Prop := fun t =>
       t.power = .run ∧ t.reg glbLastStart = 1 ∧ t.reg glbWarmStartCnt = s.reg glbWarmStartCnt + 1 ∧
       t.flt.starting = some .warm ∧ t.swc.stored = [] ∧ t.swc.queues = [] ∧ t.swc.ingress = [] ∧
       (∀ c : Fin 256, t.ctxState c = 0) ∧ t.xpb.queue = [] ∧ t.sec.lifecycle = s.sec.lifecycle ∧
       t.pending = s.pending ∧ (∀ d < 36, t.fenced d = s.fenced d) ∧ (∃ l, Sends (l ++ [.start 1]) s t) ∧
       (s.reg clkDegraded = 0 → t.dom = s.dom ∧ t.clk.tick = s.clk.tick) ∧
       (s.sec.tamper = false → s.mem.window = none → t.mem.banks = s.mem.banks)
     (Open s m true glbResetCmd → s.power = .run → s.flt.recovery = false → Ends (.glbResetWarm m) s warm) ∧
     (Open s m true glbResetCmd → s.power ≠ .run ∨ s.flt.recovery = true → Idle (.glbResetWarm m) s) ∧
     (s.power = .run → s.flt.recovery = false → Ends .warmNAssert s warm) ∧
     (s.power ≠ .p2 → s.power ≠ .run ∨ s.flt.recovery = true → Idle .warmNAssert s)) ∧
    (let wake : Word → State → Prop := fun cause t =>
       t.power = .run ∧ t.reg clkWakeCause = cause ∧ t.reg glbLastStart = 1 ∧
       t.reg glbWarmStartCnt = s.reg glbWarmStartCnt + 1 ∧ t.flt.starting = some .warmP2 ∧
       t.reg clkIslOn = 0x7E007 ∧ t.sec.lifecycle = s.sec.lifecycle ∧ (∃ l, Sends (l ++ [.start 2]) s t) ∧
       (∀ d : Fin 4, t.dom[d].c0 = t.dom[d].standby ∧ t.dom[d].c1 = t.dom[d].standby ∧ t.dom[d].c2 = t.dom[d].standby)
     (s.power = .p2 → Ends .warmNAssert s (wake 4) ∧ Ends (.p2Exit .warmN) s (wake 4)) ∧
     (s.power = .p2 → bitOf (s.reg clkWakeCfg) 1 = true → Ends (.p2Exit .wakeN) s (wake 1)) ∧
     (s.power = .p2 → bitOf (s.reg clkWakeCfg) 0 = true → s.wakeTimeDue = true → Ends (.p2Exit .timer) s (wake 2)) ∧
     (s.power = .p2 → Ends (.p2Exit .porN) s fun t => t.power = .held ∧ t.reg clkWakeCause = 8) ∧
     (bitOf (s.reg clkWakeCfg) 1 = false → Idle (.p2Exit .wakeN) s) ∧
     (bitOf (s.reg clkWakeCfg) 0 = false ∨ s.wakeTimeDue = false → Idle (.p2Exit .timer) s) ∧
     (s.power ≠ .p2 → Idle (.p2Exit why) s))

/-- START_DONE that is let through ends the start in progress: its count of failures is cleared (both by a cold start's), every engine that was OFF is SPARE with its island powered (degraded if no PLL drives it), FAULT_N's condition of the start is met for good, and the tamper monitors are armed; with no start in progress only STATUS of FLT_CMD changes. A start that fails is counted: of a cold start the third failure enters RECOVERY with the count at 0 and GLB_LAST_START 2, the others start cold again; of a warm start the third starts cold, the others warm; and the start that follows logs START_FAIL with its reason. With no start in progress a failure is no event. -/
def Obligations.StartsEndOrFail : Prop :=
  ∀ (s : State) (m : Master) (why : StartFailCause), s.storesWf →
    (Open s m true fltCmd → s.flt.starting = none →
      Ends (.startDone m) s fun t => t.flt = s.flt ∧ fieldOf (t.reg fltCmd) 16 8 = 0 ∧ Framed [] [fltCmd] [] s t) ∧
    (∀ k, Open s m true fltCmd → s.flt.starting = some k →
      Ends (.startDone m) s fun t =>
        t.flt = { s.flt with starting := none, startDoneSeen := true } ∧ t.sec = { s.sec with armed := true } ∧
        (k = .cold → t.reg glbFailedStart = 0) ∧
        (k ≠ .cold → t.reg glbFailedStart = setField (s.reg glbFailedStart) 0 2 0) ∧
        (∀ e : Fin 10, s.eng[e].st = .off → t.eng[e] = { s.eng[e] with st := .spare } ∧ t.islandOn (3 + e.val) = true ∧
          t.degraded (3 + e.val) = !s.groupDriven 0) ∧
        (∀ e : Fin 10, s.eng[e].st ≠ .off → t.eng[e] = s.eng[e] ∧ t.islandOn (3 + e.val) = s.islandOn (3 + e.val) ∧
          t.degraded (3 + e.val) = s.degraded (3 + e.val)) ∧
        Framed [.flt, .sec, .eng] [fltCmd, glbFailedStart, clkIslOn, clkDegraded] [] s t) ∧
    (s.flt.starting = none → Idle (.startFail why) s) ∧
    (s.flt.starting = some .cold → fieldOf (s.reg glbFailedStart) 4 2 < 2 →
      Ends (.startFail why) s fun t => t.flt.starting = some .cold ∧ t.flt.recovery = false ∧
        fieldOf (t.reg glbFailedStart) 4 2 = fieldOf (s.reg glbFailedStart) 4 2 + 1 ∧
        t.reg glbColdStartCnt = s.reg glbColdStartCnt + 1 ∧ t.reg clkIslOn = 0x7E007 ∧
        fieldOf (t.tab .flt 0 0) 24 8 = 0x45 ∧ fieldOf (t.tab .flt 0 0) 16 8 = 0x0E ∧
        fieldOf (t.tab .flt 0 1) 16 8 = (failInfo why).toNat ∧ t.eng = State.reset.eng ∧ t.mem = State.reset.mem) ∧
    (s.flt.starting = some .cold → 2 ≤ fieldOf (s.reg glbFailedStart) 4 2 →
      Ends (.startFail why) s fun t => t.flt.recovery = true ∧ t.reg glbLastStart = 2 ∧ t.faultLow = true ∧
        fieldOf (t.reg glbFailedStart) 4 2 = 0 ∧ t.reg clkIslOn = 0x32000 ∧ t.xpbRole = 1 ∧
        fieldOf (t.tab .flt 0 0) 16 8 = 0x0E ∧ t.eng = State.reset.eng ∧ t.mem = State.reset.mem) ∧
    (s.flt.starting = some .warm ∨ s.flt.starting = some .warmP2 → 2 ≤ fieldOf (s.reg glbFailedStart) 0 2 →
      Ends (.startFail why) s fun t => t.flt.starting = some .cold ∧
        t.reg glbColdStartCnt = s.reg glbColdStartCnt + 1 ∧ t.reg clkIslOn = 0x7E007) ∧
    (s.flt.starting = some .warm ∨ s.flt.starting = some .warmP2 → fieldOf (s.reg glbFailedStart) 0 2 < 2 →
      Ends (.startFail why) s fun t => t.flt.starting = some .warm ∧
        t.reg glbWarmStartCnt = s.reg glbWarmStartCnt + 1 ∧
        fieldOf (t.reg glbFailedStart) 0 2 = fieldOf (s.reg glbFailedStart) 0 2 + 1)

/-- A lost PLL that drives a group is FAILED and counted, the group's powered islands degrade, and a locked spare takes its role and requests their re-alignment, with one entry in the fault log; a lost spare is FAILED and counted; one already FAILED only loses its lock. A FAILED PLL attempts again, achieves lock, and after 1 s of it takes the role of the first group with no PLL, else SPARE. At an alignment window that something waits for, the islands that requested it leave CLK_DEGRADED and are counted, and every fenced Datum domain leaves its fence; otherwise it is no event. -/
def Obligations.PllLossAndRecovery : Prop :=
  ∀ (s : State) (p : Fin 3), s.storesWf →
    (Ends (.pllLost (1#3 <<< p.val)) s fun t =>
      t.pllLock p.val = false ∧ t.pllRole p.val = 3 ∧
      (s.pllRole p.val = 3 → Framed [.clk] [clkPllStatus] [] s t) ∧
      (s.pllRole p.val ≠ 3 → t.reg clkPllLossCnt = s.reg clkPllLossCnt + 1 ∧ Logged (0x40 + p.val) 0x0A 5 s t) ∧
      (s.pllRole p.val < 2 →
        t.reg clkDegraded = s.reg clkDegraded ||| (groupMask (s.pllRole p.val) &&& s.islOn).setWidth 32 ∧
        ∀ q : Fin 3, q ≠ p → s.pllRole q.val = 2 → s.pllLock q.val = true →
          (∀ r : Fin 3, r < q → r ≠ p → ¬ (s.pllRole r.val = 2 ∧ s.pllLock r.val = true)) →
          t.pllRole q.val = s.pllRole p.val ∧ t.clk.realign &&& groupMask (s.pllRole p.val) = groupMask (s.pllRole p.val) &&& s.islOn) ∧
      (s.pllRole p.val = 2 → t.reg clkDegraded = s.reg clkDegraded ∧ t.clk.realign = s.clk.realign) ∧
      Framed [.clk, .flt] [clkPllStatus, clkPllLossCnt, clkDegraded] faultLogWords s t) ∧
    Idle (.pllLost 0) s ∧
    (s.pllRole p.val = 3 → s.pllLock p.val = false →
      (Ends (.pllRelockAttempt p) s fun t => t.clk.attempt.getLsbD p.val = true ∧ Framed [.clk] [] [] s t) ∧
      (Ends (.pllLocked p) s fun t => t.pllLock p.val = true ∧ t.pllRole p.val = 3 ∧
        t.clk.lockCount.getLsbD p.val = true ∧ t.clk.attempt.getLsbD p.val = false ∧ Framed [.clk] [clkPllStatus] [] s t)) ∧
    (s.pllRole p.val ≠ 3 ∨ s.pllLock p.val = true → Idle (.pllRelockAttempt p) s ∧ Idle (.pllLocked p) s) ∧
    (s.pllRole p.val = 3 → s.pllLock p.val = true → s.clk.lockCount.getLsbD p.val = true →
      Ends (.pllBecomesSpare p) s fun t =>
        t.pllRole p.val = (if s.groupDriven 0 = false then 0 else if s.groupDriven 1 = false then 1 else 2) ∧
        t.pllLock p.val = true ∧ Framed [.clk] [clkPllStatus] [] s t) ∧
    (s.pllRole p.val ≠ 3 ∨ s.pllLock p.val = false ∨ s.clk.lockCount.getLsbD p.val = false → Idle (.pllBecomesSpare p) s) ∧
    (let waits := s.fenced 32 || s.fenced 33 || s.fenced 34 || s.fenced 35
     (s.clk.realign = 0 → waits = false → Idle .alignmentWindow s) ∧
     (s.clk.realign ≠ 0 ∨ waits = true →
       Ends .alignmentWindow s fun t =>
         t.clk.realign = 0 ∧ t.reg clkDegraded = s.reg clkDegraded &&& ~~~(s.clk.realign.setWidth 32) ∧
         t.reg clkRealignCnt = s.reg clkRealignCnt + w32 (popCount s.clk.realign) ∧
         (∀ d : Fin 4, t.fenced (32 + d.val) = false) ∧ (∀ d < 32, t.fenced d = s.fenced d) ∧
         (s.clk.realign.getLsbD 0 = true → t.reg clkDtmReloadCnt = s.reg clkDtmReloadCnt + 1 ∧
           ∀ d : Fin 4, t.dom[d].c0 = t.dom[d].standby ∧ t.dom[d].c1 = t.dom[d].standby ∧ t.dom[d].c2 = t.dom[d].standby) ∧
         Framed [.clk, .dom, .flt, .ttu]
           (clkDegraded :: clkRealignCnt :: clkDtmReloadCnt :: fltReadmitCnt :: ttuTimeRegs) faultLogWords s t))

/-- A gateable island whose request bit is 1, whose blocks all report QUIESCED, whose wake latch is clear and which no debug session or host link holds is powered off; any other gate event changes nothing. A wake event of a gateable island sets its latch, counts, and starts the ramp of an island that is off; of another island it is no event. After its ramp an island is on: re-aligned and counted if a PLL drives its group, else degraded. A write of CLK_GATE_REQ keeps the gateable bits alone and clears the wake latches of the bits written 1, but for a wake in the same cycle. Nothing else changes. -/
def Obligations.IslandsGateAndWake : Prop :=
  ∀ (s : State) (m : Master) (i : Fin 19) (v : Word) (wakes : BitVec 19), s.storesWf →
    (s.gates i = true → Ends (.islandGate i) s fun t =>
      t.islandOn i.val = false ∧ t.degraded i.val = false ∧ t.clk.realign.getLsbD i.val = false ∧
      (∀ j : Fin 19, j ≠ i → t.islandOn j.val = s.islandOn j.val ∧ t.degraded j.val = s.degraded j.val) ∧
      Framed [.clk] [clkIslOn, clkDegraded] [] s t) ∧
    (gateable.getLsbD i.val = false ∨ s.islandOn i.val = false ∨ bitOf (s.reg clkGateReq) i.val = false ∨
        s.clk.wakeLatch.getLsbD i.val = true ∨ s.debugHolds i.val = true ∨
        (∃ b ∈ islandBlks i.val, s.quiesced b = false) ∨
        (i.val = 15 ∧ (bitOf (s.reg hifLinkStatus) 7 = true ∨ bitOf (s.reg hifLinkStatus) 15 = true)) → Idle (.islandGate i) s) ∧
    (gateable.getLsbD i.val = true → Ends (.wakeEvent i) s fun t =>
      t.clk.wakeLatch.getLsbD i.val = true ∧ t.reg clkWakeCnt = s.reg clkWakeCnt + 1 ∧
      (s.islandOn i.val = false → t.clk.ramp.getLsbD i.val = true) ∧
      (s.islandOn i.val = true → t.clk.ramp = s.clk.ramp) ∧ Framed [.clk] [clkWakeCnt] [] s t) ∧
    (gateable.getLsbD i.val = false → Idle (.wakeEvent i) s) ∧
    (s.clk.ramp.getLsbD i.val = true → s.islandOn i.val = false → Ends (.islandClockStart i) s fun t =>
      t.islandOn i.val = true ∧ t.clk.ramp.getLsbD i.val = false ∧
      t.degraded i.val = !s.groupDriven (groupOf i.val) ∧
      t.reg clkRealignCnt = s.reg clkRealignCnt + w32 (b2n (s.groupDriven (groupOf i.val))) ∧
      Framed [.clk] [clkIslOn, clkDegraded, clkRealignCnt] [] s t) ∧
    (s.clk.ramp.getLsbD i.val = false ∨ s.islandOn i.val = true → Idle (.islandClockStart i) s) ∧
    (Open s m true clkGateReq → Ends (.clkGateReqWrite m v wakes) s fun t =>
      t.reg clkGateReq = (v.setWidth 19 &&& gateable).setWidth 32 ∧
      (wakes.getLsbD i.val = true → gateable.getLsbD i.val = true → t.clk.wakeLatch.getLsbD i.val = true) ∧
      (wakes.getLsbD i.val = false → gateable.getLsbD i.val = true → v.getLsbD i.val = true →
        t.clk.wakeLatch.getLsbD i.val = false) ∧
      (wakes.getLsbD i.val = false → v.getLsbD i.val = false → t.clk.wakeLatch.getLsbD i.val = s.clk.wakeLatch.getLsbD i.val) ∧
      Framed [.clk] [clkGateReq, clkWakeCnt] [] s t)

/-- A write of INC_FRAC that is let through gives the domain the increment INC_NS and FRAC together in one cycle, and counts DTM_INC_CLAMP_CNT exactly when the sum with FOFS lies outside the range of R57; a write of ADJ_FRAC sets ADJ, leaves a request standing when ADJ is not 0, and none when a held request is cancelled or none was there; on a tick with a request within the limit every copy of the domain adds the effective increment plus ADJ, both halves of ADJ read 0 and ADJ_CNT counts, and with none the command does nothing (the model's reading of an event that is not due, log 2). On a paired SHADOW the writes are ignored. Everything else is as before, but for what the tick does to the other domains, snapshots in flight and the re-check of the trigger units. -/
def Obligations.DatumIncrementAndOffsetRequests : Prop :=
  ∀ (s : State) (m : Master) (d : Fin 4) (frac : Word), s.storesWf →
    (Open s m true (dtmDIncFrac d.val) → s.shadowSteered = false →
      Ends (.incWrite m d frac) s fun t =>
        t.dom[d] = { s.dom[d] with inc := s.reg (dtmDIncNs d.val) ++ frac } ∧
        (∀ e : Fin 4, e ≠ d → t.dom[e] = s.dom[e]) ∧ t.reg (dtmDIncFrac d.val) = frac ∧
        t.reg dtmIncClampCnt = s.reg dtmIncClampCnt +
          (let v : Int := ((s.reg (dtmDIncNs d.val) ++ frac).toNat : Int) + s.fofs d
           if 0x1FFBE76C9 ≤ v ∧ v ≤ 0x200418937 then 0 else 1) ∧
        Framed [.dom] [dtmDIncFrac d.val, dtmIncClampCnt] [] s t) ∧
    (Open s m true (dtmDIncFrac d.val) → s.shadowSteered = true → Idle (.incWrite m d frac) s) ∧
    (Open s m true (dtmDAdjFrac d.val) → s.shadowSteered = false →
      Ends (.adjRequest m d frac) s fun t =>
        t.dom[d].adj = s.reg (dtmDAdjNs d.val) ++ frac ∧ t.reg (dtmDAdjFrac d.val) = frac ∧
        (t.dom[d].adj ≠ 0 → t.dom[d].req ≠ .none) ∧
        (t.dom[d].adj = 0 → s.dom[d].req ≠ .awaiting → t.dom[d].req = .none) ∧
        t.dom[d] = { s.dom[d] with adj := t.dom[d].adj, req := t.dom[d].req } ∧
        (∀ e : Fin 4, e ≠ d → t.dom[e] = s.dom[e]) ∧ Framed [.dom] [dtmDAdjFrac d.val] [] s t) ∧
    (Open s m true (dtmDAdjFrac d.val) → s.shadowSteered = true → Idle (.adjRequest m d frac) s) ∧
    (s.en .dtm = true → s.power ≠ .p2 → s.dom[d].req ≠ .none →
      (sgn s.dom[d].adj).natAbs ≤ fieldOf (s.reg dtmJumpLimit) 0 20 * 4294967296 →
      Ends (.adjApply d) s fun t =>
        t.dom[d].c0 = dtAdd s.dom[d].c0 (s.incEff d + sgn s.dom[d].adj) ∧
        t.dom[d].c1 = dtAdd s.dom[d].c1 (s.incEff d + sgn s.dom[d].adj) ∧
        t.dom[d].c2 = dtAdd s.dom[d].c2 (s.incEff d + sgn s.dom[d].adj) ∧
        t.dom[d].adj = 0 ∧ t.dom[d].req = .none ∧ t.reg (dtmDAdjNs d.val) = 0 ∧ t.reg (dtmDAdjFrac d.val) = 0 ∧
        t.reg (dtmDAdjCnt d.val) = s.reg (dtmDAdjCnt d.val) + 1 ∧ t.clk.tick = s.clk.tick + 1 ∧
        (∀ e : Fin 10, t.eng[e] = { s.eng[e] with flight := s.eng[e].flight.map t.snapEdge }) ∧
        Framed [.dom, .clk, .ttu, .eng]
          (ttuTimeRegs ++ (List.range 4).flatMap (fun e => [dtmDAdjNs e, dtmDAdjFrac e, dtmDAdjCnt e])) [] s t) ∧
    (s.dom[d].req = .none → Idle (.adjApply d) s)

/-- With DTM enabled, a write of DTM_CMD that is let through makes every copy of a domain named in LOAD hold LOAD_SEC and LOAD_NS with FRAC 0 after the tick (for an NS below one second), counts it in STEP_CNT, and leaves ADJ as it stands; a domain named in FORCE_STEP alone, with ADJ not 0, adds the effective increment plus ADJ whatever its size, its ADJ reads 0 with no request standing, and STEP_CNT counts, ADJ_CNT not; FORCE_STEP with ADJ 0 is neither counted nor logged. SEQ of the step log advances by the steps made. With DTM not enabled, or on a paired SHADOW, nothing changes. All this is of domains not fenced; a FORCE_STEP that names fenced domains alone is dropped and reported as a refused access. -/
def Obligations.DatumStepsLoadTheWrittenTime : Prop :=
  ∀ (s : State) (m : Master) (l f : BitVec 4) (d : Fin 4), s.storesWf → Open s m true dtmCmd →
    let live := fun g : BitVec 4 => ∀ e < 4, g.getLsbD e = true → s.fenced (32 + e) = false
    (f ≠ 0 → (∀ e < 4, f.getLsbD e = true → s.fenced (32 + e) = true) → Ends (.forceStep m f) s fun t =>
      (m = .sup → t.reg glbSupBuserrCnt = s.reg glbSupBuserrCnt + 1) ∧
      Framed [.hif] [glbSupBuserrCnt, hifBuserrDropCnt] [] s t) ∧
    (live l → live f → s.en .dtm = true → s.power ≠ .p2 → s.shadowSteered = false →
      Ends (.load m l f) s fun t =>
        (l.getLsbD d.val = true → (s.reg (dtmDLoadNs d.val)).toNat < 1000000000 →
          let v := dtMk ((s.reg (dtmDLoadSecLo d.val)).toNat + 4294967296 * fieldOf (s.reg (dtmDLoadSecHi d.val)) 0 16)
            (s.reg (dtmDLoadNs d.val)).toNat 0
          t.dom[d].c0 = v ∧ t.dom[d].c1 = v ∧ t.dom[d].c2 = v) ∧
        (l.getLsbD d.val = true → t.dom[d].adj = s.dom[d].adj ∧
          t.reg (dtmDStepCnt d.val) = s.reg (dtmDStepCnt d.val) + 1) ∧
        (∀ e : Fin 10, t.eng[e] = { s.eng[e] with flight := s.eng[e].flight.map t.snapEdge }) ∧
        Framed [.dom, .clk, .ttu, .stepSeq, .eng]
          (ttuTimeRegs ++ (List.range 4).flatMap (fun e => [dtmDAdjNs e, dtmDAdjFrac e, dtmDAdjCnt e, dtmDStepCnt e]))
          (words .dtm 0 0 32) s t) ∧
    (live f → s.en .dtm = true → s.power ≠ .p2 → s.shadowSteered = false →
      Ends (.forceStep m f) s fun t =>
        (f.getLsbD d.val = true → s.dom[d].adj ≠ 0 →
          t.dom[d].c0 = dtAdd s.dom[d].c0 (s.incEff d + sgn s.dom[d].adj) ∧
          t.dom[d].c1 = dtAdd s.dom[d].c1 (s.incEff d + sgn s.dom[d].adj) ∧
          t.dom[d].c2 = dtAdd s.dom[d].c2 (s.incEff d + sgn s.dom[d].adj) ∧
          t.dom[d].adj = 0 ∧ t.dom[d].req = .none ∧ t.reg (dtmDAdjCnt d.val) = s.reg (dtmDAdjCnt d.val) ∧
          t.reg (dtmDStepCnt d.val) = s.reg (dtmDStepCnt d.val) + 1) ∧
        (s.dom[d].adj = 0 → t.reg (dtmDStepCnt d.val) = s.reg (dtmDStepCnt d.val)) ∧
        t.stepSeq.toNat = (s.stepSeq.toNat +
          ((List.finRange 4).filter (fun e => f.getLsbD e.val && s.dom[e].adj ≠ 0)).length) % 256 ∧
        (∀ e : Fin 10, t.eng[e] = { s.eng[e] with flight := s.eng[e].flight.map t.snapEdge }) ∧
        Framed [.dom, .clk, .ttu, .stepSeq, .eng]
          (ttuTimeRegs ++ (List.range 4).flatMap (fun e => [dtmDAdjNs e, dtmDAdjFrac e, dtmDAdjCnt e, dtmDStepCnt e]))
          (words .dtm 0 0 32) s t) ∧
    (live l → live f → s.en .dtm = false ∨ s.shadowSteered = true → Idle (.load m l f) s ∧ Idle (.forceStep m f) s)

/-- When upset bits leave exactly one copy of a running domain apart from the two others, all three copies hold the majority moved by one tick's increment, and VOTE_CNT counts; when they leave no two copies alike, the domain's fence domain is fenced and the domain's time is copy 0 as upset; the end of a syntonization window with EN 0 sets FOFS to 0 and ends holdover, one with the port in lock throughout the window and already in force ends holdover, and one without lock enters holdover and keeps FOFS. -/
def Obligations.DatumVotingAndSyntonization : Prop :=
  ∀ (s : State) (d : Fin 4) (u0 u1 u2 : BitVec 112) (w : Word) (lock : Bool), s.storesWf →
    (let a := s.dom[d].c0 ^^^ u0
     let b := s.dom[d].c1 ^^^ u1
     let c := s.dom[d].c2 ^^^ u2
     ((a = b ∨ a = c ∨ b = c) → ¬ (a = b ∧ b = c) → s.fenced (32 + d.val) = false → s.en .dtm = true →
        s.power ≠ .p2 → s.dom[d].req = .none →
        Ends (.voteReload d u0 u1 u2) s fun t =>
          t.dom[d].c0 = dtAdd (dtMajority a b c) (s.incEff d) ∧ t.dom[d].c1 = t.dom[d].c0 ∧
          t.dom[d].c2 = t.dom[d].c0 ∧ t.reg (dtmDVoteCnt d.val) = s.reg (dtmDVoteCnt d.val) + 1 ∧
          (∀ e : Fin 10, t.eng[e] = { s.eng[e] with flight := s.eng[e].flight.map t.snapEdge }) ∧
        Framed [.dom, .clk, .ttu, .eng]
            (dtmDVoteCnt d.val :: ttuTimeRegs ++ (List.range 4).flatMap (fun e =>
              [dtmDAdjNs e, dtmDAdjFrac e, dtmDAdjCnt e])) [] s t) ∧
     (¬ (a = b ∨ a = c ∨ b = c) ∨ (a = b ∧ b = c) → Idle (.voteReload d u0 u1 u2) s) ∧
     (a ≠ b → a ≠ c → b ≠ c → s.permFenced (Fin.ofNat 37 (32 + d.val)) = false →
        Ends (.datumFence d u0 u1 u2) s fun t =>
          t.fenced (32 + d.val) = true ∧ t.time d = a ∧
          t.dom[d] = { s.dom[d] with c0 := a, c1 := b, c2 := c } ∧ (∀ e : Fin 4, e ≠ d → t.dom[e] = s.dom[e]) ∧
          Framed [.dom, .flt] [fltFaultCnt, fltPermCnt] faultLogWords s t) ∧
     (a = b ∨ a = c ∨ b = c → Idle (.datumFence d u0 u1 u2) s)) ∧
    (bitOf (s.reg (dtmDSynt d.val)) 8 = false →
      Ends (.syntWindowEnd d w lock) s fun t =>
        t.reg (dtmDSyntFofs d.val) = 0 ∧ t.dom[d].holdover = false ∧ t.dom[d].syntEn = false ∧
        (∀ e : Fin 4, e ≠ d → t.dom[e] = s.dom[e]) ∧ Framed [.dom] [dtmDSyntFofs d.val] [] s t) ∧
    (bitOf (s.reg (dtmDSynt d.val)) 8 = true →
      let port : Fin 8 := Fin.ofNat 8 (fieldOf (s.reg (dtmDSynt d.val)) 0 3)
      let live := lock && s.eth[port].up && serdesMode (s.ethModeOf port)
      Ends (.syntWindowEnd d w lock) s fun t =>
        t.dom[d].syntEn = true ∧ t.dom[d].syntPort = port ∧
        (live = false → t.dom[d].holdover = true ∧ t.reg (dtmDSyntFofs d.val) = s.reg (dtmDSyntFofs d.val)) ∧
        (live = true → s.dom[d].syntEn = true → s.dom[d].clean = true → s.dom[d].syntPort = port →
          t.dom[d].holdover = false) ∧
        t.dom[d].c0 = s.dom[d].c0 ∧ t.dom[d].c1 = s.dom[d].c1 ∧ t.dom[d].c2 = s.dom[d].c2 ∧
        (∀ e : Fin 4, e ≠ d → t.dom[e] = s.dom[e]) ∧
        Framed [.dom] [dtmDSyntFofs d.val, dtmIncClampCnt] [] s t)

/-- An ARM that R78 or R87 does not take is rejected and counted; one in a state other than IDLE changes nothing; else the unit is armed, and if its TIME lies less than 80 ns ahead LATE_CNT counts and the unit fires on the 40th tick, or with SKIP_LATE goes back to IDLE if it is one-shot. DISARM, also with ARM in the same write, leaves an armed unit disarmed and a pulse in progress as it is. A unit whose firing tick has come begins its pulse of WIDTH if PIN_EN is set, stays armed with TIME moved on by PERIOD if periodic, else is disarmed; a sequencer event reaches the sequencers, or is counted as dropped where their island is off or the engine fenced, and no firing touches memory but the input swap of a kernel cycle start; a pulse ends once its width is over. Events that are not due change nothing (log 2). -/
def Obligations.TriggerUnitsArmAndFire : Prop :=
  ∀ (s : State) (m : Master) (n : Fin 24) (arm : Bool), s.storesWf →
    (Open s m true (ttuCtrl n.val) →
      (s.armTaken n = false → Ends (.ttuArm m n) s (Rejected .ttc (ttuCtrl n.val) s)) ∧
      (s.armTaken n = true → s.ttu[n].armed = true ∨ s.ttu[n].pulse = true → Idle (.ttuArm m n) s) ∧
      (s.armTaken n = true → s.ttu[n].armed = false → s.ttu[n].pulse = false →
        s.ttuLate n (s.time (s.ttuDom n)) = false →
        Ends (.ttuArm m n) s fun t => t.ttu[n] = { s.ttu[n] with armed := true, late := none } ∧
          (∀ k : Fin 24, k ≠ n → t.ttu[k] = s.ttu[k]) ∧ Framed [.ttu] [] [] s t) ∧
      (s.armTaken n = true → s.ttu[n].armed = false → s.ttu[n].pulse = false →
        s.ttuLate n (s.time (s.ttuDom n)) = true → s.ttuSkipLate n = false →
        Ends (.ttuArm m n) s fun t =>
          t.ttu[n] = { s.ttu[n] with armed := true, late := some (s.clk.tick + 40) } ∧
          t.reg (ttuLateCnt n.val) = s.reg (ttuLateCnt n.val) + 1 ∧
          (∀ k : Fin 24, k ≠ n → t.ttu[k] = s.ttu[k]) ∧ Framed [.ttu] [ttuLateCnt n.val] [] s t) ∧
      (s.armTaken n = true → s.ttu[n].armed = false → s.ttu[n].pulse = false →
        s.ttuLate n (s.time (s.ttuDom n)) = true → s.ttuSkipLate n = true →
        Ends (.ttuArm m n) s fun t =>
          t.ttu[n] = { s.ttu[n] with armed := s.ttuPeriodic n, late := none } ∧
          t.reg (ttuLateCnt n.val) = s.reg (ttuLateCnt n.val) + 1 ∧
          (∀ k : Fin 24, k ≠ n → t.ttu[k] = s.ttu[k]) ∧
          Framed [.ttu] [ttuLateCnt n.val, ttuTimeNs n.val, ttuTimeSecLo n.val, ttuTimeSecHi n.val] [] s t) ∧
      (Ends (.ttuDisarm m n arm) s fun t =>
        t.ttu[n] = { s.ttu[n] with armed := false, late := none } ∧ (∀ k : Fin 24, k ≠ n → t.ttu[k] = s.ttu[k]) ∧
        Framed [.ttu] [] [] s t)) ∧
    (s.ttuDue n = false → Idle (.triggerFire n) s) ∧
    (s.ttuDue n = true →
      Ends (.triggerFire n) s fun t =>
        t.ttu[n].armed = s.ttuPeriodic n ∧ t.ttu[n].late = none ∧
        (s.ttuPinEn n = true → t.ttu[n].pulse = true ∧ t.ttu[n].pulseLeft = fieldOf (s.reg (ttuWidth n.val)) 0 24) ∧
        (s.ttuPinEn n = false → t.ttu[n].pulse = s.ttu[n].pulse ∧ t.ttu[n].pulseLeft = s.ttu[n].pulseLeft) ∧
        (s.ttuPeriodic n = true → s.ttu[n].late = none →
          s.ttuTime n + (s.reg (ttuPeriod n.val)).toNat < 2 ^ 48 * 1000000000 →
          t.ttuTime n = s.ttuTime n + (s.reg (ttuPeriod n.val)).toNat) ∧
        (∀ k : Fin 24, k ≠ n → t.ttu[k] = s.ttu[k]) ∧
        (let times := [ttcEvtDropCnt, ttuTimeNs n.val, ttuTimeSecLo n.val, ttuTimeSecHi n.val]
         (s.ttuEvtKind n = 0 → Framed [.ttu] times [] s t) ∧
         (s.ttuEvtKind n = 1 → Framed [.ttu, .mem, .hif] (memNonownCnt :: memNonownLast :: times) (words .hif 3 0 256) s t ∧
           t.reg ttcEvtDropCnt = s.reg ttcEvtDropCnt +
             if s.startReaches (Fin.ofNat 10 (s.ttuEvtTarget n)) then 0 else 1) ∧
         (s.ttuEvtKind n = 1 → (∀ k < 32, bitOf (s.inWord k 5) 1 = false) → (∀ w ∈ s.hif.barNow, w.tick ≠ s.clk.tick) →
           Framed [.ttu] times [] s t) ∧
         (s.ttuEvtKind n = 2 → s.islandOn 17 = true → s.fenced (27 + s.ttuEvtTarget n / 32) = false →
           t.psq.events = s.psq.events ++ [(Fin.ofNat 64 (s.ttuEvtTarget n), s.clk.tick)] ∧
           Framed [.ttu, .psq] times [] s t) ∧
         (s.ttuEvtKind n = 2 → s.islandOn 17 = false ∨ s.fenced (27 + s.ttuEvtTarget n / 32) = true →
           t.reg ttcEvtDropCnt = s.reg ttcEvtDropCnt + 1 ∧ Framed [.ttu] times [] s t) ∧
         (s.ttuEvtKind n = 3 →
           let p := (Fin.ofNat 8 (s.ttuEvtTarget n)).val
           Framed [.ttu, .swc, .eth] (swcPGclOvrCnt p :: swcPGateOplen p :: swcPPreemptCnt p :: times) [] s t))) ∧
    (s.ttu[n].pulse = true → s.ttu[n].pulseLeft = 0 →
      Ends (.triggerPulseEnd n) s fun t => t.ttu[n] = { s.ttu[n] with pulse := false } ∧
        (∀ k : Fin 24, k ≠ n → t.ttu[k] = s.ttu[k]) ∧ Framed [.ttu] [] [] s t) ∧
    (s.ttu[n].pulse = false ∨ s.ttu[n].pulseLeft ≠ 0 → Idle (.triggerPulseEnd n) s)

/-- An edge gives a ball that the device does not drive its new level, and every other ball reads as before; every capture unit that selects it, with fewer than four captures and none within 8 ns before it, appends one capture whose seconds and nanoseconds are the domain's time at the crossing, and any other unit that selects it counts a miss; units that do not select it are as before. A read of CAP_NS, or of ETH_TSQ_W0, returns the first word of the oldest entry, removes it and latches its other words for that master; of an empty queue it returns 0 and latches zeros. -/
def Obligations.CapturesAndStampQueuesAreReadByHead : Prop :=
  ∀ (s : State) (m : Master) (n : Fin 16) (p : Fin 8) (pin : Fin 96) (falling : Bool) (ago : BitVec 16),
    s.storesWf →
    (Ends (.captureEdge pin falling ago) s fun t =>
      (s.ownDrive pin.val = none → t.mfpIn.getLsbD pin.val = !falling ∧ t.mfpExt.getLsbD pin.val = true) ∧
      (∀ v, s.ownDrive pin.val = some v → t.mfpIn.getLsbD pin.val = s.mfpIn.getLsbD pin.val) ∧
      (∀ k < 96, t.ballLevel k = if k = pin.val then (s.ownDrive k).getD (!falling) else s.ballLevel k) ∧
      (let near := match s.tcu[n].last with
         | some x => decide (2 * s.clk.tick - ago.toNat < x + 8)
         | none => false
       (s.tcuTakes n pin falling ago.toNat = false → t.tcu[n] = s.tcu[n] ∧ t.reg (tcuMissCnt n.val) = s.reg (tcuMissCnt n.val)) ∧
       (s.tcuTakes n pin falling ago.toNat = true → s.tcu[n].fifo.length = 4 ∨ near = true →
         t.tcu[n] = s.tcu[n] ∧ t.reg (tcuMissCnt n.val) = s.reg (tcuMissCnt n.val) + 1) ∧
       (s.tcuTakes n pin falling ago.toNat = true → s.tcu[n].fifo.length ≠ 4 → near = false →
         ∃ c : Capture, t.tcu[n].fifo = s.tcu[n].fifo ++ [c] ∧
           (let v := dtAdd (s.time (Fin.ofNat 4 (fieldOf (s.reg (tcuCfg n.val)) 26 2)))
              (-(4294967296 * ((ago.toNat : Nat) : Int)))
            c.ns = w32 (dtNs v) ∧ c.sec = w32 (dtSec v)))) ∧
      Framed [.tcu, .mfpIn] ((List.range 16).map tcuMissCnt) [] s t) ∧
    (Open s m false (tcuCapNs n.val) →
      Ends (.captureRead m n) s fun t =>
        (∀ c r, s.tcu[n].fifo = c :: r →
          t.tcu[n].fifo = r ∧ Sends [.readData m (w32 (tcuCapNs n.val)) c.ns] s t ∧
          t.latched m (tcuCapSec n.val) = c.sec ∧ t.latched m (tcuCapFlags n.val) = c.flags) ∧
        (s.tcu[n].fifo = [] → t.tcu = s.tcu ∧ Sends [.readData m (w32 (tcuCapNs n.val)) 0] s t ∧
          t.latched m (tcuCapSec n.val) = 0 ∧ t.latched m (tcuCapFlags n.val) = 0) ∧
        (∀ k : Fin 16, k ≠ n → t.tcu[k] = s.tcu[k]) ∧ Framed [.tcu, .latches] [] [] s t) ∧
    (Open s m false (ethTsqW0 p.val) →
      Ends (.tsqRead m p) s fun t =>
        (∀ x r, s.eth[p].tsq = x :: r →
          t.eth[p] = { s.eth[p] with tsq := r } ∧ Sends [.readData m (w32 (ethTsqW0 p.val)) x.w0] s t ∧
          t.latched m (ethTsqW1 p.val) = w32 (dtFrac x.stamp.t) ∧
          t.latched m (ethTsqW2 p.val) = w32 (dtNs x.stamp.t) ∧ t.latched m (ethTsqW3 p.val) = w32 (dtSec x.stamp.t)) ∧
        (s.eth[p].tsq = [] → t.eth = s.eth ∧ Sends [.readData m (w32 (ethTsqW0 p.val)) 0] s t ∧
          t.latched m (ethTsqW1 p.val) = 0 ∧ t.latched m (ethTsqW2 p.val) = 0 ∧ t.latched m (ethTsqW3 p.val) = 0) ∧
        (∀ k : Fin 8, k ≠ p → t.eth[k] = s.eth[k]) ∧ Framed [.eth, .latches] [] [] s t)

/-- When a context issues one of these moves, its engine advances by one instruction and one cycle, and the operation stands in its unit's pipeline with the value of the operand port and the value moved: an ALU's result lands 1 cycle later in its result port, a MAC's 4 later in its lane's (an accumulate adds to An then), the divider's 18 later, the CRC unit's result 2 later; a CRC state takes the masked initial value or the folded bytes at once; an activation of a window is taken at the next kernel cycle start; a window status lands 2 cycles later, a Datum snapshot 10 later with the time that the third PCLK edge from then latches, both late where the crossing is degraded. Nothing else changes. Every one-move command in a cycle that is not its context's changes nothing. -/
def Obligations.TriggersEnterTheirUnits : Prop :=
  ∀ (s : State) (e : Fin 10) (svc : Bool) (tv : Word), s.storesWf →
    (∀ c, oneMoveOf c = some (e, svc) → s.issuer e ≠ some svc → Idle c s) ∧
    (Issues e svc s →
      let x := s.eng[e]
      let o := fun p => (ctxOf x svc).ops[p]
      let becomes := fun c y => Ends c s fun t => EngineIs e y s t ∧ Framed [.eng] [] [] s t
      (∀ unit (op : Fin 31) sat,
        let r := aluOp (Fin.ofNat 32 (op.val + 1)) sat (o (if unit then oAlu1 else oAlu0)) tv
        becomes (.aluTrigger e svc unit op sat tv)
          (launched x svc 1 (.res (if unit then rAlu1 else rAlu0) r.v r.fl))) ∧
      (∀ (op : Fin 7) lane sat rnd, op.val ≠ 3 → op.val ≠ 4 → op.val ≠ 6 →
        let r := mulOp op sat rnd (o oMac) tv
        becomes (.macTrigger e svc op lane sat rnd tv) (launched x svc 4 (.res (rMres lane) r.v r.fl))) ∧
      (∀ lane sat rnd,
        let p := roundQ rnd ((o oMac).toInt * tv.toInt) (2 ^ 31)
        becomes (.macTrigger e svc 3 lane sat rnd tv) (launched x svc 4 (.acc lane p sat)) ∧
        becomes (.macTrigger e svc 4 lane sat rnd tv) (launched x svc 4 (.acc lane (-p) sat)) ∧
        becomes (.macTrigger e svc 6 lane sat rnd tv) (launched x svc 4
          (.acc lane (2 * (hiHalf (o oMac) * hiHalf tv + loHalf (o oMac) * loHalf tv)) sat))) ∧
      (∀ (op : Fin 5) sat rnd,
        let r := divOp op sat rnd (o oDiv) tv
        becomes (.divTrigger e svc op sat rnd tv) (launched x svc 18 (.res rDiv r.v r.fl))) ∧
      becomes (.crcInit e svc tv) (inCtx (cycled x svc) svc fun c => setOp c oCrcState (crcMask (o oCrcSel) tv)) ∧
      (∀ op : Fin 3, becomes (.crcFold e svc op tv) (inCtx (cycled x svc) svc fun c =>
        setOp c oCrcState (crcUnitFold (o oCrcSel) (o oCrcPoly) (o oCrcState) tv (2 ^ op.val)))) ∧
      becomes (.crcFin e svc tv) (launched x svc 2 (.res rCrc (crcMask (o oCrcSel) (o oCrcState ^^^ tv)) 0)) ∧
      becomes (.crcHash e svc tv) (launched x svc 2 (.res rCrc (crcHash tv) 0)) ∧
      becomes (.fwuEna e svc tv) { cycled x svc with fwuNext := setBit x.fwuNext (fieldOf tv 0 6) true } ∧
      becomes (.fwuDis e svc tv) { cycled x svc with fwuNext := setBit x.fwuNext (fieldOf tv 0 6) false } ∧
      (Ends (.fwuStsel e svc tv) s fun t => Framed [.eng, .free] [] [] s t ∧
        FarLaunched e svc 2 [0] (.stat (Fin.ofNat 64 (fieldOf tv 0 6))) id s t) ∧
      (∀ d : Fin 4, fieldOf tv 0 2 = d.val → Ends (.dtpSnap e svc tv) s fun t => Framed [.eng, .free] [] [] s t ∧
        FarLaunched e svc 10 [0] (.snapAt d 3) id s t)) ∧
    (∀ (d : Fin 4) f, f.what = .snapAt d 1 →
      let v := s.time d
      let top := w32 (2 ^ 31 * b2n (s.stampDeg d) + dtSec v / 2 ^ 32)
      s.snapEdge f = { f with what := .snap (w32 (dtNs v)) (w32 (dtFrac v)) (w32 (dtSec v)) top }) ∧
    (∀ (d : Fin 4) (n : Nat) f, 2 ≤ n → f.what = .snapAt d n → s.snapEdge f = { f with what := .snapAt d (n - 1) })

/-- A result in a format is the exact value where it fits, with no OV; where it does not, OV is set, SAT gives the nearer end of the format and wrapping the low bits. Of that kind are O+T, O-T, -T, |T|, O times 2^T, per half O+T, O-T and -T, the quotient of DIVS truncated toward zero, and for MULF, MUL2 and DIVF the rounded integer of the exact quotient under RND. The other ALU results are the logic, shifts (by T as an unsigned number), rotation, minima, maxima, comparisons, leading zeros, byte reversal and bit field of their names, with no flag. Division by zero gives the ends, all ones or O, with DZ alone. An narrowed to 32 bits is An where it fits. -/
def Obligations.ArithmeticOfTheUnits : Prop :=
  (∀ (sat : Bool) (o tv : Word),
    let r := fun code => aluOp code sat o tv
    let fits : URes → Int → Prop := fun u q =>
      (-(2 ^ 31) ≤ q → q < 2 ^ 31 → u.v.toInt = q ∧ u.fl = 0) ∧
      (q < -(2 ^ 31) ∨ 2 ^ 31 ≤ q → u.fl = flagOV ∧ (sat = true → u.v = if q < 0 then 0x80000000#32 else 0x7FFFFFFF#32) ∧
        (sat = false → u.v = BitVec.ofInt 32 q))
    let half : BitVec 16 → Int → Prop := fun h q =>
      (-(2 ^ 15) ≤ q → q < 2 ^ 15 → h.toInt = q) ∧
      (q < -(2 ^ 15) ∨ 2 ^ 15 ≤ q → (sat = true → h = if q < 0 then 0x8000#16 else 0x7FFF#16) ∧
        (sat = false → h = BitVec.ofInt 16 q))
    let halves : URes → Int → Int → Prop := fun u h l =>
      half (u.v.extractLsb' 16 16) h ∧ half (u.v.extractLsb' 0 16) l ∧
      u.fl = if -(2 ^ 15) ≤ h ∧ h < 2 ^ 15 ∧ -(2 ^ 15) ≤ l ∧ l < 2 ^ 15 then 0 else flagOV
    fits (r 1) (o.toInt + tv.toInt) ∧ fits (r 2) (o.toInt - tv.toInt) ∧ fits (r 8) (-tv.toInt) ∧
      fits (r 9) tv.toInt.natAbs ∧ fits (r 14) (o.toInt * 2 ^ tv.toNat) ∧
      r 3 = plain (o &&& tv) ∧ r 4 = plain (o ||| tv) ∧ r 5 = plain (o ^^^ tv) ∧ r 6 = plain (o &&& ~~~tv) ∧
      r 7 = plain tv ∧ r 10 = plain (~~~tv) ∧ r 11 = plain (o <<< tv.toNat) ∧ r 12 = plain (o >>> tv.toNat) ∧
      r 13 = plain (o.sshiftRight tv.toNat) ∧ r 15 = plain (o.rotateLeft tv.toNat) ∧
      (r 16).v.toInt = min o.toInt tv.toInt ∧ (r 17).v.toInt = max o.toInt tv.toInt ∧
      (r 18).v.toNat = min o.toNat tv.toNat ∧ (r 19).v.toNat = max o.toNat tv.toNat ∧
      r 20 = plain (if o = tv then 1 else 0) ∧ r 21 = plain (if o = tv then 0 else 1) ∧
      r 22 = plain (if o.toInt < tv.toInt then 1 else 0) ∧ r 23 = plain (if o.toInt ≤ tv.toInt then 1 else 0) ∧
      r 24 = plain (if o.toNat < tv.toNat then 1 else 0) ∧ r 25 = plain (if o.toNat ≤ tv.toNat then 1 else 0) ∧
      halves (r 26) (hiHalf o + hiHalf tv) (loHalf o + loHalf tv) ∧
      halves (r 27) (hiHalf o - hiHalf tv) (loHalf o - loHalf tv) ∧ halves (r 28) (-hiHalf tv) (-loHalf tv) ∧
      (tv = 0 → (r 29).v = 32) ∧ (tv ≠ 0 → (r 29).v.toNat = 31 - Nat.log2 tv.toNat) ∧
      (∀ i < 4, fieldOf (r 30).v (8 * i) 8 = fieldOf tv (24 - 8 * i) 8) ∧
      (∀ i < 32, bitOf (r 31).v i = (decide (i < fieldOf tv 0 6) && bitOf (o >>> fieldOf tv 8 5) i)) ∧
      (r 16).fl = 0 ∧ (r 17).fl = 0 ∧ (r 18).fl = 0 ∧ (r 19).fl = 0 ∧ (r 29).fl = 0 ∧ (r 30).fl = 0 ∧ (r 31).fl = 0 ∧
    (∀ rnd, let m := fun code => mulOp code sat rnd o tv
      fits (m 0) (roundQ rnd (o.toInt * tv.toInt) (2 ^ 31)) ∧
      m 1 = plain (o * tv) ∧ m 2 = plain (BitVec.ofInt 32 (o.toInt * tv.toInt / 2 ^ 32)) ∧
      halves (m 5) (roundQ rnd (hiHalf o * hiHalf tv) (2 ^ 15)) (roundQ rnd (loHalf o * loHalf tv) (2 ^ 15)) ∧
      let d := fun code => divOp code sat rnd o tv
      (tv ≠ 0 → fits (d 0) (Int.tdiv o.toInt tv.toInt) ∧ d 1 = plain (o / tv) ∧
        (d 2).v.toInt = Int.tmod o.toInt tv.toInt ∧ (d 2).fl = 0 ∧ d 3 = plain (o % tv) ∧
        fits (d 4) (roundQ rnd (o.toInt * 2 ^ 31 * Int.sign tv.toInt) tv.toInt.natAbs)) ∧
      (tv = 0 → (∀ code, (d code).fl = flagDZ) ∧
        (o.toInt < 0 → (d 0).v = 0x80000000#32 ∧ (d 4).v = 0x80000000#32 ∧ (d 1).v = 0xFFFFFFFF#32) ∧
        (0 < o.toInt → (d 0).v = 0x7FFFFFFF#32 ∧ (d 4).v = 0x7FFFFFFF#32 ∧ (d 1).v = 0xFFFFFFFF#32) ∧
        (o = 0 → (d 0).v = 0 ∧ (d 4).v = 0 ∧ (d 1).v = 0) ∧ (d 2).v = o ∧ (d 3).v = o)) ∧
    (∀ a : BitVec 40, fits (narrow sat a) a.toInt) ∧
    (∀ (num : Int) (den : Nat), 0 < den →
      roundQ 0 num den * den ≤ num ∧ num < (roundQ 0 num den + 1) * den ∧
      (2 * roundQ 1 num den - 1) * den ≤ 2 * num ∧ 2 * num < (2 * roundQ 1 num den + 1) * den ∧
      (2 * roundQ 2 num den - 1) * den ≤ 2 * num ∧ 2 * num ≤ (2 * roundQ 2 num den + 1) * den ∧
      (2 * num = (2 * roundQ 2 num den + 1) * den ∨ 2 * num = (2 * roundQ 2 num den - 1) * den →
        roundQ 2 num den % 2 = 0) ∧
      roundQ 3 num den = Int.tdiv num den))

/-- When its context issues it, a load takes the bytes of its aligned address, little-endian and extended, which land after 2 cycles from local memory and 12 from elsewhere (later where a crossing is degraded); a store writes the operand's bytes there, the pointer forms go by LSU.PTR, store the value moved and add LSU.STRIDE, and every other byte stays; a copied word that lands later goes under the bytes of a later store. Banks answer their owner alone; a non-owner's access is counted and recorded. A word of a mailbox or of a granted trigger unit is read and written as by its role. An address that no target answers, and a mailbox or trigger unit reached with less than a word, lands BUS_ERROR: a load 0 with FLG.BE, a store FLG.BE alone. A single-bit error that a read of local memory meets is corrected and counted. FWU.CPY takes a word, 0 where no target answers, to be stored after 2 or 12 cycles, and advances both pointers by 4. FWU.TXPOST hands the staged frame to the switch at the role's port; a descriptor out of reach sets FLG.BE, one of another TYPE or with a buffer out of reach completes BUS_ERROR, one of a wrong length TOO_LONG. -/
def Obligations.LoadsStoresAndWindowTransfers : Prop :=
  ∀ (s : State) (e : Fin 10) (svc : Bool) (op : Fin 10) (tv : Word) (ce : Bool), s.storesWf →
    Issues e svc s →
    (let x := s.eng[e]
     let c := ctxOf x svc
     let n := lsuSize op
     let a := (if 8 ≤ op.val then c.ops[oPtr] else tv).toNat / n * n
     let v := if 8 ≤ op.val then tv else c.ops[oLsu]
     let under := x.flight.map (copyUnder a ((leBytes v).take n))
     let after := fun y => if 8 ≤ op.val then inCtx y svc fun c => setOp c oPtr (c.ops[oPtr] + c.ops[oStride]) else y
     let stores := fun P => Ends (.lsuTrigger e svc op tv ce) s P
     let loads := fun u val fl => Ends (.lsuTrigger e svc op tv ce) s fun t => Framed [.eng, .free] [] [] u t ∧
       FarLaunched e svc 12 (espPath a) (.load val fl) after s t
     let fails := stores fun t => EngineIs e (after (launched x svc 12 (.flag flagBE))) s t ∧ Framed [.eng] [] [] s t
     let word := lsuExtend op
     (lsuStores op = false →
       (∀ off, s.espTarget e a = .dmem off → Ends (.lsuTrigger e svc op tv ce) s fun t =>
         EngineIs e (after (launched x svc 2 (.load (word (leNat (dmemRead x off n))) 0))) s t ∧
         t.reg (pecEccCeCnt e.val) = s.reg (pecEccCeCnt e.val) + (if ce then 1 else 0) ∧
         Framed [.eng] [pecEccCeCnt e.val] [] s t) ∧
       (∀ b off r, s.espTarget e a = .bank b off → x.role = some r → s.owns (.role r) b = true →
         loads s (word (leNat (s.ownerRead b off n 100))) 0) ∧
       (∀ b off r, s.espTarget e a = .bank b off → x.role = some r → s.owns (.role r) b = false →
         Ends (.lsuTrigger e svc op tv ce) s fun t =>
           FarLaunched e svc 12 (espPath a) (.load 0 flagBE) after s t ∧
           t.reg memNonownCnt = s.reg memNonownCnt + 1 ∧
           t.reg memNonownLast = w32 (65536 * b + 256 * r.val + 1) ∧
           Framed [.eng, .free] [memNonownCnt, memNonownLast] [] s t) ∧
       (∀ m w r, s.espTarget e a = .mbx m w → x.role = some r → n = 4 →
         (s.isSender (.role r) m = true → loads s (s.sendStatus m) 0) ∧
         (s.isSender (.role r) m = false → s.isReceiver (.role r) m = true → w ≠ 15 → loads s (s.mbxWord m w) 0) ∧
         (s.isSender (.role r) m = false → s.isReceiver (.role r) m = true → w = 15 →
           loads (if s.mbxFullOf m then s.setFull m false else s) (s.mbxWord m w) 0) ∧
         (s.isSender (.role r) m = false → s.isReceiver (.role r) m = false → loads (s.count mbxAccErrCnt) 0 flagBE)) ∧
       (∀ o r, s.espTarget e a = .ttc o → x.role = some r → n = 4 →
         loads (s.ttcUnitRead (5 + r.val) o).2 (s.ttcUnitRead (5 + r.val) o).1 0) ∧
       (s.espTarget e a = .bad ∨ (x.role = none ∧ ∀ off, s.espTarget e a ≠ .dmem off) ∨
           (n ≠ 4 ∧ ((∃ m w, s.espTarget e a = .mbx m w) ∨ ∃ o, s.espTarget e a = .ttc o)) → loads s 0 flagBE)) ∧
     (lsuStores op = true →
       (∀ off, s.espTarget e a = .dmem off → stores fun t => Framed [.eng] [] [] s t ∧
         ∃ d, EngineIs e (after { cycled x svc with dmem := d, flight := under }) s t ∧
           ∀ k < 0x8000, amGet (fun _ => 0) d k =
             if off ≤ k ∧ k < off + n then byteAt (leBytes v) (k - off) else amGet (fun _ => 0) x.dmem k) ∧
       (∀ b off r, s.espTarget e a = .bank b off → x.role = some r → s.owns (.role r) b = true →
         s.redirects b off = none →
         stores fun t => EngineIs e (after { cycled x svc with flight := under }) s t ∧
           Framed [.eng, .mem] [] [] s t ∧
           (∀ k < n, t.bankByte b (off + k) = byteAt (leBytes v) k) ∧
           ∀ b' k, k < 0x20000 → b' ≠ b ∨ k < off ∨ off + n ≤ k → t.bankByte b' k = s.bankByte b' k) ∧
       (∀ b off r, s.espTarget e a = .bank b off → x.role = some r → s.owns (.role r) b = false →
         stores fun t => EngineIs e (after (launched x svc 12 (.flag flagBE))) s t ∧
           t.reg memNonownCnt = s.reg memNonownCnt + 1 ∧
           t.reg memNonownLast = w32 (65536 * b + 256 * r.val + 1) ∧
           Framed [.eng] [memNonownCnt, memNonownLast] [] s t) ∧
       (∀ m w r, s.espTarget e a = .mbx m w → x.role = some r → n = 4 →
         (s.isSender (.role r) m = true → s.mbxFullOf m = false → w < 15 → stores fun t =>
           EngineIs e (after { cycled x svc with flight := under }) s t ∧ t.mbxWord m w = v ∧
           (t.mbxWritten m).getLsbD w = true ∧ Framed [.eng, .mbx] [mbxW (m.val * 16 + w)] [] s t) ∧
         (s.isSender (.role r) m = true → s.mbxFullOf m = false → w = 15 → s.postFenced m = false → stores fun t =>
           t.mbxFullOf m = true ∧ t.mbxWord m 15 = v ∧ t.reg mbxPostCnt = s.reg mbxPostCnt + 1 ∧
           Framed [.eng, .mbx, .clk] [mbxW (m.val * 16 + 15), mbxPostCnt, clkWakeCnt] [] s t) ∧
         (s.isSender (.role r) m = true → s.mbxFullOf m = true → stores fun t =>
           EngineIs e (after (launched x svc 12 (.flag flagBE))) s t ∧
           t.reg mbxSendRejCnt = s.reg mbxSendRejCnt + 1 ∧ Framed [.eng] [mbxSendRejCnt] [] s t) ∧
         (s.isSender (.role r) m = true → s.mbxFullOf m = false → w = 15 → s.postFenced m = true → fails) ∧
         (s.isSender (.role r) m = false → stores fun t =>
           EngineIs e (after (launched x svc 12 (.flag flagBE))) s t ∧
           t.reg mbxAccErrCnt = s.reg mbxAccErrCnt + 1 ∧ Framed [.eng] [mbxAccErrCnt] [] s t)) ∧
       (∀ o r, s.espTarget e a = .ttc o → x.role = some r → n = 4 → stores fun t =>
         EngineIs e (after { cycled x svc with flight := under }) s t ∧ Framed [.eng] [] [] (s.ttcUnitWrite o v) t) ∧
       (s.espTarget e a = .bad ∨ (x.role = none ∧ ∀ off, s.espTarget e a ≠ .dmem off) ∨
           (n ≠ 4 ∧ ((∃ m w, s.espTarget e a = .mbx m w) ∨ ∃ o, s.espTarget e a = .ttc o)) → fails))) ∧
    (let x := s.eng[e]
     let src := (ctxOf x svc).ops[oFwuSrc]
     let dst := (ctxOf x svc).ops[oFwuDst]
     let lat := if src.toNat < 0x8000 ∧ dst.toNat < 0x8000 then 2 else 12
     let takes := fun u v fl => Ends (.fwuCpy e svc) s fun t => Framed [.eng] [] [] u t ∧
       EngineIs e (inCtx (launched { x with flight := x.flight.map (copyUnder dst.toNat (leBytes v)) } svc lat (.copy dst v fl)) svc fun c =>
         setOp (setOp c oFwuSrc (src + 4)) oFwuDst (dst + 4)) s t
     (∀ off, s.espTarget e src.toNat = .dmem off → off + 4 ≤ 0x8000 → takes s (w32 (leNat (dmemRead x off 4))) 0) ∧
     (∀ off, s.espTarget e src.toNat = .dmem off → 0x8000 < off + 4 → takes s 0 flagBE) ∧
     (src.toNat % 4 = 0 →
       (∀ b off r, s.espTarget e src.toNat = .bank b off → x.role = some r → s.owns (.role r) b = true →
         takes s (w32 (leNat (s.ownerRead b off 4 100))) 0) ∧
       (∀ b off r, s.espTarget e src.toNat = .bank b off → x.role = some r → s.owns (.role r) b = false →
         takes (s.nonOwner (.role r) b) 0 flagBE) ∧
       (∀ m w r, s.espTarget e src.toNat = .mbx m w → x.role = some r →
         takes (s.mbxRead (.role r) m w).2 ((s.mbxRead (.role r) m w).1.getD 0)
           (if (s.mbxRead (.role r) m w).1.isSome then 0 else flagBE)) ∧
       (∀ o r, s.espTarget e src.toNat = .ttc o → x.role = some r →
         takes (s.ttcUnitRead (5 + r.val) o).2 (s.ttcUnitRead (5 + r.val) o).1 0)) ∧
     (s.espTarget e src.toNat = .bad → takes s 0 flagBE)) ∧
    (let x := s.eng[e]
     (x.role = none ∨ s.stagingRead e tv.toNat 32 = none →
       Ends (.fwuTxpost e svc tv) s fun t =>
         EngineIs e (launched x svc (if tv.toNat < 0x8000 then 2 else 12) (.flag flagBE)) s t ∧ Framed [.eng] [] [] s t) ∧
     (∀ r bs, x.role = some r → s.stagingRead e tv.toNat 32 = some bs →
       let d := (List.range 8).map (fun i => le32At bs (4 * i))
       let good := fieldOf (le32At bs 0) 28 4 = 1 ∧ txLenOk d = true
       (∀ f, good → s.stagingRead e (le32At bs 8).toNat (txLen d) = some f →
         Ends (.fwuTxpost e svc tv) s fun t => EngineIs e (cycled x svc) s t ∧
           t.swc = { s.swc with ingress := s.swc.ingress ++
             [⟨Fin.ofNat 22 (10 + r.val), ⟨f, none, false, txReqOf d, .engine r (le32At bs 28)⟩, s.swcTakes⟩] } ∧
           Framed [.eng, .swc] [] [] s t) ∧
       (s.engOf r = some e → (good → s.stagingRead e (le32At bs 8).toNat (txLen d) = none) →
         let st := if fieldOf (le32At bs 0) 28 4 = 1 ∧ txLenOk d = false then stTooLong else stBusError
         let size := s.ringSize e false
         let pi := x.txPi.toNat % size
         let at_ := (s.ringWord e 0).toNat + pi * 16
         Ends (.fwuTxpost e svc tv) s fun t =>
           (∃ m, EngineIs e { cycled x svc with
             dmem := m, txPi := (ringNext size pi x.txOdd).1, txOdd := (ringNext size pi x.txOdd).2,
             evt := setBit x.evt 2 true } s t) ∧
           (s.stagingRead e at_ 16 = none → t.eng[e].dmem = x.dmem ∧ t.mem = s.mem) ∧
           (∀ off, s.espTarget e at_ = .dmem off → off + 16 ≤ 0x8000 → dmemRead t.eng[e] off 16 =
             ringEntry x.txOdd pi 1 st (65536 * (txReqOf d).tag.toNat) 0 (le32At bs 28)) ∧
           Framed [.eng, .mem] [] [] s t)))

/-- A branch that issues outside KEND's delay slot makes the instruction after its delay slot the target: T[11:0], the branch's own address plus T, or the address popped; CALL pushes the address after its delay slot. A full return stack, an empty one, a branch or KEND in KEND's delay slot, and KEND or WAIT in a branch's delay slot are the program faults 6, 7, 9 and 9. KEND records the kernel's length, and its maximum, makes a checkpoint due and the kernel end pending, and its delay slot follows, after which the service context waits three cycles. WAIT with a selected event pending takes it; else it suspends the service context. -/
def Obligations.BranchesKernelEndAndWait : Prop :=
  ∀ (s : State) (e : Fin 10) (svc : Bool) (tv : Word), s.storesWf → Issues e svc s →
    let x := s.eng[e]
    let c := ctxOf x svc
    let target := fun p => inCtx (cycled x svc) svc fun c => { c with pend := some p }
    let becomes := fun i y => Ends i s fun t => EngineIs e y s t ∧ Framed [.eng] [] [] s t
    (svc = true ∨ x.kern ≠ .delay →
      becomes (.jmp e svc tv) (target (tv.setWidth 12)) ∧ becomes (.br e svc tv) (target (c.pc + tv.setWidth 12)) ∧
      (∀ d : Fin 8, c.depth.val = d.val →
        becomes (.call e svc tv) (inCtx (target (tv.setWidth 12)) svc fun k =>
          { k with stack := vset k.stack d (c.pend.getD (c.pc + 1) + 1), depth := Fin.ofNat 9 (d.val + 1) })) ∧
      (∀ d : Fin 8, c.depth.val = d.val + 1 →
        becomes (.ret e svc) (inCtx (target c.stack[d]) svc fun k => { k with depth := Fin.ofNat 9 d.val }))) ∧
    (c.depth.val = 8 → Ends (.call e svc tv) s (ProgramFaulted e 6 s)) ∧
    (c.depth.val = 0 → Ends (.ret e svc) s (ProgramFaulted e 7 s)) ∧
    (svc = false → x.kern = .delay →
      Ends (.jmp e false tv) s (ProgramFaulted e 9 s) ∧ Ends (.br e false tv) s (ProgramFaulted e 9 s) ∧
      Ends (.kend e) s (ProgramFaulted e 9 s)) ∧
    (svc = false → c.pend.isSome = true → Ends (.kend e) s (ProgramFaulted e 9 s)) ∧
    (svc = true → c.pend.isSome = true → Ends (.wait e tv) s (ProgramFaulted e 9 s)) ∧
    (svc = false → x.kern ≠ .delay → c.pend = none →
      Ends (.kend e) s fun t =>
        let n := (ticked x).kCount.getD 0 % 2 ^ 24
        t.reg (pecKlast e.val) = w32 n ∧ t.reg (pecKmax e.val) = w32 (max n (s.reg (pecKmax e.val)).toNat) ∧
        EngineIs e { cycled x false with
          kern := .delay
          kCount := none
          ckpt := .due
          wExceeded := decide (x.wdecl.toNat < (ticked x).kCount.getD 0)
          wdogNext := if s.newImage e then none else x.wdogNext
          evt := setBit x.evt 3 true } s t ∧
        (∀ w, x.wdogNext = some w → s.newImage e = true → t.reg (pecWdog e.val) = w.setWidth 32) ∧
        (x.wdogNext = none ∨ s.newImage e = false → t.reg (pecWdog e.val) = s.reg (pecWdog e.val)) ∧
        Framed [.eng] [pecKlast e.val, pecKmax e.val, pecWdog e.val] [] s t) ∧
    (svc = false → x.kern = .delay → (cycled x svc).kern = .idle ∧ (cycled x svc).sGap = 3) ∧
    (svc = true → c.pend = none →
      (x.evt &&& tv.setWidth 4 ≠ 0 → becomes (.wait e tv) (inCtx { cycled x true with evt := x.evt &&& ~~~(tv.setWidth 4) }
        true fun k => { k with evt := x.evt &&& tv.setWidth 4 })) ∧
      (x.evt &&& tv.setWidth 4 = 0 → becomes (.wait e tv) { cycled x true with svc := .wait (tv.setWidth 4) }))

/-- With nothing issuing, UNIT_RESULT_LAND brings the engine to the cycle in which its earliest result lands: the result port and FLG take it, a snapshot due before its edge holds the time the domain has then without a correction, an accumulate adds to An as An stands then, of two loads together the later is readable and the collision counts. A pending selected event ends WAIT, with three more cycles before issue. A repeat's iteration of a walk copies one general register on and steps its state, and the last lets the program go on; with no repeat running it is no event. An instruction of moves into general registers performs those whose guards are true, from values read before any is written, the highest slot of a collision alone, counted, as a corrected error of its fetch is; an instruction that fails its checks is the program fault of the lowest code. -/
def Obligations.ResultsLandAndMovesIssue : Prop :=
  ∀ (s : State) (e : Fin 10), s.storesWf →
    (let x := s.eng[e]
     (x.flight = [] → Idle (.unitResultLand e) s) ∧
     (s.engLive e = true → x.halted = false → x.freeze = 0 → x.kern = .idle → x.sGap = 0 → x.kCount = none → x.svc = .off →
       (∀ svc n w, x.flight = [⟨svc, x.pipe + 1 + n, w, 0⟩] →
         let lands := fun f => Ends (.unitResultLand e) s fun t => Framed [.eng] [] [] s t ∧
           EngineIs e (inCtx { x with pipe := x.pipe + 1 + n, wall := x.wall + 1 + n, flight := [] } svc f) s t
         (∀ p v fl, w = .res p v fl → lands fun c => { c with res := vset c.res p v, flg := c.flg ||| fl }) ∧
         (∀ v fl, w = .load v fl → lands fun c => { c with res := vset c.res rLsu v, flg := c.flg ||| fl }) ∧
         (∀ fl, w = .flag fl → lands fun c => { c with flg := c.flg ||| fl }) ∧
         (∀ lane d sat, w = .acc lane d sat → -(2 ^ 39) ≤ (ctxOf x svc).a[lane].toInt + d →
           (ctxOf x svc).a[lane].toInt + d < 2 ^ 39 →
           lands fun c =>
             let a := BitVec.ofInt 40 ((ctxOf x svc).a[lane].toInt + d)
             { c with a := vset c.a lane a, res := vset c.res (rMres lane) (narrow sat a).v
                      flg := c.flg ||| (narrow sat a).fl }) ∧
         (∀ k, w = .stat k → lands fun c => { c with res := vset c.res rFwuStat (s.fwuStat e k.val) }) ∧
         (∀ ns fr sc i, w = .snap ns fr sc i → lands fun c => { c with
           res := vset (vset (vset (vset c.res rDtpNs ns) rDtpFrac fr) rDtpSec sc) rDtpInfo i }) ∧
         (∀ d k, w = .snapAt d k → lands fun c => landSnap c (s.dtpSnapOf d (dtAdd (s.time d) (k * s.incEff d)))) ∧
         (∀ dst v off, w = .copy dst v 0 → s.espTarget e dst.toNat = .dmem off → off + 4 ≤ 0x8000 →
           Ends (.unitResultLand e) s fun t => Framed [.eng] [] [] s t ∧
             ∀ k < 4, amGet (fun _ => 0) t.eng[e].dmem ((off + k) % 0x8000) = byteAt (leBytes v) k)) ∧
       (∀ svc n v1 v2, x.flight = [⟨svc, x.pipe + 1 + n, .load v1 0, 0⟩, ⟨svc, x.pipe + 1 + n, .load v2 0, 0⟩] →
         Ends (.unitResultLand e) s fun t => (ctxOf t.eng[e] svc).res[rLsu] = v2 ∧
           t.reg (pecCollideCnt e.val) = s.reg (pecCollideCnt e.val) + 1 ∧
           Framed [.eng] [pecCollideCnt e.val] [] s t)) ∧
     (∀ m, x.svc = .wait m → x.evt &&& m ≠ 0 → s.inHold (.pec e) = false → s.engLive e = true → x.halted = false →
       Ends (.waitResume e) s fun t => Framed [.eng] [] [] s t ∧
         EngineIs e { x with svc := .run, sGap := max x.sGap 3, evt := x.evt &&& ~~~m, s := { x.s with evt := x.evt &&& m } } s t) ∧
     (∀ m, x.svc = .wait m → x.evt &&& m = 0 ∨ s.inHold (.pec e) = true → Idle (.waitResume e) s) ∧
     (x.svc = .run ∨ x.svc = .off → Idle (.waitResume e) s) ∧
     (s.issuer e = none → Idle (.repeatIteration e) s)) ∧
    (∀ svc, s.issuer e = some svc →
      let x := s.eng[e]
      let c := ctxOf x svc
      (c.rptRun = false → Idle (.repeatIteration e) s) ∧
      (∀ sl, c.rptRun = true → s.breakAt e svc = none → wdogExpired (tickEngine x) = false →
        (∀ f ∈ x.flight, x.pipe + 1 < f.at_) → (slotsOf (s.fetch e svc)).1.find? (·.rpt) = some sl →
        rptClass sl = some .walk → c.loopDec = none → x.kern ≠ .delay →
        let g := fun k : Ctx => { k with
          g := vset k.g (Fin.ofNat 64 c.rptDst.toNat) c.g[Fin.ofNat 64 c.rptSrc.toNat]
          rptCnt := c.rptCnt - 1, rptSrc := c.rptSrc + 1, rptDst := c.rptDst + 1 }
        Ends (.repeatIteration e) s fun t => Framed [.eng] [] [] s t ∧
          (c.rptCnt ≠ 1 → EngineIs e (inCtx (ticked x) svc g) s t) ∧
          (c.rptCnt = 1 → EngineIs e (inCtx (cycled x svc) svc fun k => { g k with rptRun := false }) s t))) ∧
    (∀ svc, Issues e svc s →
      let x := s.eng[e]
      let c := ctxOf x svc
      let d := slotsOf (s.fetch e svc)
      let fault := staticFault svc d.2 d.1 c.rptCnt.toNat
      let does := d.1.filter (fun sl => guardTrue c.p sl.guard)
      (fault ≠ 0 → Ends (.registerMove e false) s (ProgramFaulted e fault s) ∧
        Ends (.registerMove e true) s fun t => t.reg (pecFault e.val) = w32 (256 * fault + 1) ∧
          t.reg (pecEccCeCnt e.val) = s.reg (pecEccCeCnt e.val) + 1) ∧
      (fault = 0 → (∀ sl ∈ d.1, sl.rpt = false ∧ sl.dst.toNat < 0x40 ∧ (sl.src.toNat < 0x40 ∨ 0x44 ≤ sl.src.toNat)) →
        ∀ ce, Ends (.registerMove e ce) s fun t => Framed [.eng] [pecCollideCnt e.val, pecEccCeCnt e.val] [] s t ∧
          t.reg (pecEccCeCnt e.val) = s.reg (pecEccCeCnt e.val) + (if ce then 1 else 0) ∧
          t.reg (pecCollideCnt e.val) = s.reg (pecCollideCnt e.val) + (if (does.map (·.dst)).Nodup then 0 else 1) ∧
          ∃ g, EngineIs e (inCtx (cycled x svc) svc fun k => { k with g := g }) s t ∧
            ∀ i : Fin 64, g[i] = match does.reverse.find? (fun sl => sl.dst.toNat = i.val) with
              | some sl => (match srcOf sl.src sl.immx with | some src => (srcRead x svc sl src).v | none => 0)
              | none => c.g[i]))

/-- A start event at an ACTIVE or DEBUG engine that is enabled, out of hold, not halted and idle is taken: it counts, CYC counts, the kernel enters at instruction 0 after three cycles, the watchdog's limits and the window activity in force are taken over, the gate closes and a pending bank swap is made. At an engine that cannot take it only PEC_KOVR_CNT counts; a halted one holds one; while the kernel runs it is the hard fault of bit 4. An expired watchdog is that of bit 5, recorded beside a program fault that the context whose turn it is meets in the same cycle, a second retry in a kernel cycle of bit 6, a third of the service context within 1,000,000 ECLK of bit 7, both at once of both; a first retry freezes 4 cycles and counts. A hard fault fences the engine; an ACTIVE one hands its instance to a spare, or stops it. -/
def Obligations.KernelCycleStartsAndHardFaults : Prop :=
  ∀ (s : State) (e : Fin 10) (svc : Bool) (why : HardCause), s.storesWf →
    let x := s.eng[e]
    let on := s.islandOn (3 + e.val) = true
    let faults := fun c bits => (Ends c s fun t => HardFaulted e bits s t) ∧
      (∀ r i, x.st = .active → x.role = some r → s.insts[r] = some i → s.fenced e.val = false →
        s.flt.perm.getLsbD e.val = false → s.flt.testing.getLsbD e.val = false → Ends c s fun t => HandedOver e r i bits s t)
    let runs := on ∧ (x.st = .active ∨ x.st = .debug) ∧ s.en (.pec e) = true ∧ s.inHold (.pec e) = false
    let y := fromLead (swapBanks x)
    (runs → x.halted = false → x.kern = .idle →
      Ends (.kernelCycleStart e) s fun t =>
        EngineIs e { y with
          cyc := y.cyc + 1, kern := .entering, kGap := 3, kCount := none, k := { y.k with pc := 0, pend := none }
          wdog := (s.reg (pecWdog e.val)).setWidth 24, wdecl := (s.reg (pecWdecl e.val)).setWidth 24
          fwuOn := x.fwuNext, fwuFresh := 0, inCycle := true, kRetried := false } s t ∧
        (x.swapPend = true → t.eng[e].bank = !x.bank ∧ t.eng[e].s.pc = 0x10) ∧
        (x.swapPend = false → t.eng[e].bank = x.bank ∧ t.eng[e].s = x.s) ∧
        (x.lead = none → t.eng[e].cyc = x.cyc + 1) ∧
        (∀ c, x.lead = some c → t.eng[e].cyc = c.1 + 1 ∧ t.eng[e].lead = none) ∧
        (∀ r i, x.role = some r → s.insts[r] = some i → t.insts[r] = some { i with
          gate := false, due := false, handle := if x.swapPend then i.update.getD i.handle else i.handle
          update := if x.swapPend then none else i.update }) ∧
        (∀ q : Fin 10, x.role ≠ some q → t.insts[q] = s.insts[q]) ∧
        t.reg (pecKstartCnt e.val) = s.reg (pecKstartCnt e.val) + 1 ∧
        Framed [.eng, .insts] [pecKstartCnt e.val] [] s t) ∧
    (runs → x.halted = false → x.kern ≠ .idle →
      Ends (.kernelCycleStart e) s fun t => t.reg (pecKovrCnt e.val) = s.reg (pecKovrCnt e.val) + 1) ∧
    (runs → x.halted = false → x.kern ≠ .idle → faults (.kernelCycleStart e) 16) ∧
    (runs → x.halted = true → x.heldStart = false →
      Ends (.kernelCycleStart e) s fun t => EngineIs e { x with heldStart := true } s t ∧ Framed [.eng] [] [] s t) ∧
    (¬ on → Idle (.kernelCycleStart e) s ∧ Idle (.hardFault e why) s ∧ Idle (.moveRetry e svc) s ∧
      Idle (.watchdogExpire e) s) ∧
    (on → (x.st ≠ .active ∧ x.st ≠ .debug) ∨ s.en (.pec e) = false ∨ s.inHold (.pec e) = true ∨
        (x.halted = true ∧ x.heldStart = true) →
      Ends (.kernelCycleStart e) s fun t => t.reg (pecKovrCnt e.val) = s.reg (pecKovrCnt e.val) + 1 ∧
        Framed [] [pecKovrCnt e.val] [] s t) ∧
    (let expires := s.engLive e = true ∧ ∃ n, x.kCount = some n ∧ x.wdog.toNat < n + 1
     let meets := fun f => (f = 0 ∧ ∀ v, s.issuer e = some v → s.issueFault e v none = 0) ∨
       (∃ v, s.issuer e = some v ∧ s.issueFault e v none = f)
     (¬ expires → Idle (.watchdogExpire e) s) ∧
     (expires → meets 0 → faults (.watchdogExpire e) 32) ∧
     (∀ f, expires → f ≠ 0 → meets f → Ends (.watchdogExpire e) s fun t =>
       t.reg (pecFault e.val) = w32 (256 * f + 33) ∧ t.eng[e].st = .fenced ∧ t.eng[e].role = none ∧
       (s.flt.perm.getLsbD e.val = false → t.fenced e.val = true))) ∧
    (x.st = .fenced ∨ x.st = .off → Idle (.hardFault e why) s ∧ Idle (.moveRetry e svc) s) ∧
    (on → x.st ≠ .fenced → x.st ≠ .off →
      (why = .imemUe → faults (.hardFault e why) 2) ∧ (why = .dmemUe → faults (.hardFault e why) 4) ∧
      (why = .dualRail → faults (.hardFault e why) 8) ∧
      (let recent := x.svcRetries.filter (fun w => decide (x.wall ≤ w + 1000000))
       let bits := b2n (x.inCycle && x.kRetried) * 64 + b2n (svc && decide (2 ≤ recent.length)) * 128
       (bits ≠ 0 → faults (.moveRetry e svc) bits) ∧
       (bits = 0 → Ends (.moveRetry e svc) s fun t =>
         EngineIs e { x with freeze := x.freeze + 4, kRetried := x.kRetried || x.inCycle
                             svcRetries := if svc then x.wall :: recent else recent } s t ∧
         t.reg (pecRetryCnt e.val) = s.reg (pecRetryCnt e.val) + 1 ∧ Framed [.eng] [pecRetryCnt e.val] [] s t)))

/-- A due snapshot takes the kernel's 126 words after every kernel result in flight has landed. Its commit writes the slot of the cycle's parity in the last kilobyte of dual-port window 3 (version and role, the cycle number, the words), records the cycle as committed and ends it, and opens a gate that t_rel has passed; every other byte of memory stays; a SHADOW whose commit differs from the LEAD's counts it and keeps the LEAD's for its next kernel start. In a bank the role does not own nothing is written and the access is counted. At t_rel the gate opens at once if no cycle is in progress or owed to the spare that takes over, else it falls due; a stopped instance's and an unbound role's does not. What is not due is no event. -/
def Obligations.CheckpointsCommitAndGatesOpen : Prop :=
  ∀ (s : State) (e r : Fin 10), s.storesWf →
    let x := s.eng[e]
    (x.ckpt ≠ .due ∨ s.engLive e = false → Idle (.checkpointSnapshot e) s) ∧
    (x.ckpt = .due → s.engLive e = true → (∀ f ∈ x.flight, f.svc = true) →
      Ends (.checkpointSnapshot e) s fun t => Framed [.eng] [] [] s t ∧
        EngineIs e { x with ckpt := .taken x.cyc (ctxWords x.k) } s t) ∧
    (∀ p v fl at_ late, x.ckpt = .due → s.engLive e = true → x.flight = [⟨false, at_, .res p v fl, late⟩] →
      Ends (.checkpointSnapshot e) s fun t => Framed [.eng] [] [] s t ∧
        let k := { x.k with res := vset x.k.res p v, flg := x.k.flg ||| fl }
        EngineIs e { x with flight := [], k := k, ckpt := .taken x.cyc (ctxWords k) } s t) ∧
    (let ws := ctxWords x.k
     ws.length = 126 ∧ (∀ n : Fin 64, ws.getD n.val 0 = x.k.g[n]) ∧
     (∀ n : Fin 4, ws.getD (0x40 + 2 * n.val) 0 = x.k.a[n].setWidth 32 ∧
       ws.getD (0x41 + 2 * n.val) 0 = (x.k.a[n] >>> 32).setWidth 32) ∧
     ws.getD 0x48 0 = x.k.p.setWidth 32 ∧ ws.getD 0x49 0 = x.k.flg.setWidth 32 ∧ ws.getD 0x4A 0 = x.k.pc.setWidth 32 ∧
     (∀ n : Fin 12, ws.getD (0x64 + n.val) 0 = x.k.ops[n]) ∧ (∀ n : Fin 14, ws.getD (0x70 + n.val) 0 = x.k.res[n])) ∧
    ((∀ cyc ws, x.ckpt ≠ .taken cyc ws) → ∀ lead, Idle (.checkpointCommit e lead) s) ∧
    (∀ cyc ws i b, x.ckpt = .taken cyc ws → ws.length = 126 → x.role = some r → s.insts[r] = some i →
      s.dualBank e 3 = some b → b < 112 →
      (∀ lead, s.owns (.role r) b = true → s.mem.window = none →
        Ends (.checkpointCommit e lead) s fun t =>
          let o := ckptOff cyc
          let y := { x with ckpt := .none, inCycle := x.inCycle && decide (x.cyc ≠ cyc) }
          (s.shadowed = false ∨ lead = none ∨ lead = some (cyc, ws) →
            EngineIs e y s t ∧ Framed [.eng, .insts, .mem] [] [] s t) ∧
          (∀ c, s.shadowed = true → lead = some c → c ≠ (cyc, ws) →
            EngineIs e { y with lead := some c } s t ∧
            t.reg fltTwinDivergeCnt = s.reg fltTwinDivergeCnt + 1 ∧
            Framed [.eng, .insts, .mem] [fltTwinDivergeCnt] [] s t) ∧
          t.insts[r] = some { i with committed := some cyc, gate := i.gate || i.due } ∧
          (∀ q : Fin 10, q ≠ r → t.insts[q] = s.insts[q]) ∧
          t.bankWord b (o + 4) = cyc ∧ fieldOf (t.bankWord b o) 16 16 = (s.ckptVerOf i).toNat ∧
          fieldOf (t.bankWord b o) 8 8 = r.val ∧ (∀ k < 126, t.bankWord b (o + 8 + 4 * k) = ws.getD k 0) ∧
          (∀ b' k, k < 0x20000 → b' ≠ b ∨ k < o ∨ o + 512 ≤ k → t.bankByte b' k = s.bankByte b' k)) ∧
      (∀ lead, s.owns (.role r) b = false →
        Ends (.checkpointCommit e lead) s fun t => EngineIs e { x with ckpt := .none } s t ∧
          t.reg memNonownCnt = s.reg memNonownCnt + 1 ∧ t.insts = s.insts ∧
          Framed [.eng] [memNonownCnt, memNonownLast] [] s t)) ∧
    (∀ cyc ws lead, x.ckpt = .taken cyc ws → x.role = some r → s.insts[r] = none ∨ s.dualBank e 3 = none →
      Ends (.checkpointCommit e lead) s fun t => EngineIs e { x with ckpt := .none } s t ∧ Framed [.eng] [] [] s t) ∧
    (s.engOf r = none → Idle (.windowGateOpen r) s) ∧
    (∀ i, s.insts[r] = some i → i.stopped = true → Idle (.windowGateOpen r) s) ∧
    (∀ i, s.insts[r] = some i → i.stopped = false → i.engine = some e →
      Ends (.windowGateOpen r) s fun t =>
        t.insts[r] = some { i with due := true, gate := i.gate || !rerunOwed x } ∧
        (∀ q : Fin 10, q ≠ r → t.insts[q] = s.insts[q]) ∧ Framed [.insts] [] [] s t)

/-- SWAP that is let through leaves a swap pending on an ACTIVE engine and exchanges the banks of any other at once. KMAX_CLR clears PEC_KMAX. In state DEBUG at level D2 or D3, HALT stops issue, STEP advances a halted engine by one cycle after which it is halted again, and RESUME ends a halt, passing the breakpoint it stood at; each reads OK. In another state or at a lower level nothing happens but POLICY; a gated engine reads ISLAND_OFF and a fenced one FENCED. A breakpoint before the next instruction halts the engine and is shown; with none it is no event. -/
def Obligations.EngineCommandRegisters : Prop :=
  ∀ (s : State) (m : Master) (e : Fin 10), s.storesWf →
    let x := s.eng[e]
    let becomes := fun i y => Ends i s fun t => EngineIs e y s t ∧ Framed [.eng] [] [] s t
    (Open s m true (pecImem e.val) →
      (x.st = .active → becomes (.pecImemSwap m e) { x with swapPend := true }) ∧
      (x.st ≠ .active → becomes (.pecImemSwap m e) { x with bank := !x.bank })) ∧
    (Open s m true (pecCmd e.val) →
      Ends (.kmaxClr m e) s fun t => t.reg (pecKmax e.val) = 0 ∧ Framed [] [pecKmax e.val] [] s t) ∧
    (Open s m true (pecDbgCtrl e.val) → s.fenced e.val = false → x.st = .debug → 2 ≤ s.dbgLevel →
      (x.halted = false → becomes (.halt m e)
        { x with halted := true, haltSvc := decide (x.kern = .idle), bpHit := 0, dbgStatus := stOk }) ∧
      (x.halted = true → becomes (.halt m e) { x with dbgStatus := stOk }) ∧
      (x.halted = false → becomes (.step m e) { x with dbgStatus := stOk } ∧ becomes (.resume m e) { x with dbgStatus := stOk }) ∧
      (x.halted = true → x.heldStart = false →
        becomes (.resume m e) { x with halted := false, bpSkip := decide (x.bpHit ≠ 0), dbgStatus := stOk }) ∧
      (x.halted = true → x.heldStart = true → s.en (.pec e) = true → s.inHold (.pec e) = false → x.kern = .idle →
        x.lead = none →
        Ends (.resume m e) s fun t => t.eng[e].halted = false ∧ t.eng[e].heldStart = false ∧ t.eng[e].kern = .entering ∧
          t.eng[e].cyc = x.cyc + 1 ∧ t.reg (pecKstartCnt e.val) = s.reg (pecKstartCnt e.val) + 1) ∧
      (let y := { x with halted := false, bpSkip := true, dbgStatus := stOk }
       let u := s.setEng e y
       x.halted = true →
       ((u.engCycle e none).eng[e].st = .debug → Ends (.step m e) s fun t =>
         t.eng[e] = { (u.engCycle e none).eng[e] with halted := true }) ∧
       (x.freeze = 0 → x.kCount = none → x.flight = [] → x.kern = .idle → x.sGap ≠ 0 → x.evt = 0 →
         becomes (.step m e) { y with halted := true, pipe := x.pipe + 1, wall := x.wall + 1, sGap := x.sGap - 1 }) ∧
       (x.freeze ≠ 0 → x.kCount = none →
         becomes (.step m e) { y with halted := true, freeze := x.freeze - 1, wall := x.wall + 1 }))) ∧
    (Open s m true (pecDbgCtrl e.val) → s.fenced e.val = false → x.st ≠ .debug ∨ s.dbgLevel < 2 →
      ∀ i ∈ [Instr.halt m e, .step m e, .resume m e], becomes i { x with dbgStatus := stPolicy }) ∧
    (∀ i ∈ [Instr.halt m e, .step m e, .resume m e],
      (s.islandOn (3 + e.val) = false → Ends i s fun t => EngineIs e { x with dbgStatus := stIslandOff } s t ∧
        Framed [.eng, .hif] [glbSupBuserrCnt, hifBuserrDropCnt] [] s t) ∧
      (s.islandOn (3 + e.val) = true → s.fenced e.val = true →
        Ends i s fun t => EngineIs e { x with dbgStatus := stFenced } s t ∧
          Framed [.eng, .hif] [glbSupBuserrCnt, hifBuserrDropCnt] [] s t)) ∧
    (s.issuer e = none → Idle (.breakpointHit e) s) ∧
    (∀ svc, s.issuer e = some svc →
      (s.breakAt e svc = none → Idle (.breakpointHit e) s) ∧
      (∀ b, s.breakAt e svc = some b → becomes (.breakpointHit e)
        { x with halted := true, haltSvc := svc, bpHit := BitVec.ofNat 4 (2 ^ b.val) }))

/-- A selected spare whose island runs takes the takeover section, the last committed checkpoint's context and cycle number; then the takeover is logged with its engines and role, and an owed cycle starts again; after the whole image stands, local memory is clear and, once a KEND has gone before, the service context starts at 0x010. A due rotation decision sets the next; with two spares and no rotation it chooses the role that has held its engine longest and a spare; its move, while two spares exist, binds the role to the spare with both contexts kept, results in flight landed, and sends the old engine to TEST. A self-test passed gives a SPARE, out of its fence; failed, a FENCED engine, for good if it was fenced. A retest that is due tests its fenced engine. What is not due changes nothing. -/
def Obligations.TakeoversRotationsAndRetests : Prop :=
  ∀ (s : State) (e : Fin 10) (pass : Bool), s.storesWf →
    let x := s.eng[e]
    ((∀ b o, x.takeover ≠ .selected b o) ∨ s.islandOn (3 + e.val) = false → Idle (.takeoverCopyBegin e) s) ∧
    (∀ b old r i, x.takeover = .selected b old → x.role = some r → s.insts[r] = some i → s.islandOn (3 + e.val) = true →
      Ends (.takeoverCopyBegin e) s fun t =>
        (i.committed = none → t.eng[e] = { x with takeover := .copied b old }) ∧
        (∀ cyc w, i.committed = some cyc → s.dualBank e 3 = some w →
          t.eng[e] = { x with takeover := .copied b old, cyc := cyc, k := ctxFrom (s.readSlot w cyc) }) ∧
        (∀ f : Fin 10, f ≠ e → t.eng[f] = s.eng[f]) ∧
        (∀ g, s.imageOf i.handle = some g → ∀ pc < g.ksecLen.toNat, g.ksecLen.toNat ≤ 4096 → ∀ k < 4,
          t.tab (.pec e) (imemSpace x.bank) (4 * pc + k) = s.bankWord g.bank.val (16 * pc + 4 * k)) ∧
        Framed [.eng] [] (words (.pec e) (imemSpace x.bank) 0 (2 ^ 24)) s t) ∧
    ((∀ b o, x.takeover ≠ .copied b o) → Idle (.takeoverKernelStart e) s) ∧
    (∀ old r, x.takeover = .copied false old → x.role = some r →
      Ends (.takeoverKernelStart e) s fun t => EngineIs e { x with takeover := .started } s t ∧
        Logged old.val 0x0F 1 s t ∧ fieldOf (t.tab .flt 0 (t.flt.logSeq.toNat % 64 * 4 + 1)) 16 8 = e.val ∧
        fieldOf (t.tab .flt 0 (t.flt.logSeq.toNat % 64 * 4 + 1)) 0 16 = r.val ∧
        Framed [.eng, .flt] [] faultLogWords s t) ∧
    (∀ old r, x.takeover = .copied true old → x.role = some r → x.st = .active → x.kern = .idle → x.halted = false → x.lead = none →
      s.en (.pec e) = true → s.inHold (.pec e) = false →
      Ends (.takeoverKernelStart e) s fun t => t.eng[e].takeover = .started ∧ t.eng[e].kern = .entering ∧
        t.eng[e].cyc = x.cyc + 1 ∧ t.reg (pecKstartCnt e.val) = s.reg (pecKstartCnt e.val) + 1 ∧
        Logged old.val 0x0F 1 s t ∧ Framed [.eng, .insts, .flt] [pecKstartCnt e.val] faultLogWords s t) ∧
    (x.svcOwed = false ∨ x.imgDone = true ∨ x.role = none ∨ (∃ b o, x.takeover = .selected b o ∨ x.takeover = .copied b o) →
      Idle (.takeoverCopyDone e) s) ∧
    (∀ r i, x.svcOwed = true → x.imgDone = false → x.role = some r → s.insts[r] = some i → i.update = none →
      x.takeover = .started ∨ x.takeover = .none →
      Ends (.takeoverCopyDone e) s fun t =>
        EngineIs e (let y := { x with imgDone := true, dmem := [] }
          if x.takeover = .none then { y with s := { Ctx.reset with pc := 0x10 }, svc := .run, svcOwed := false } else y) s t ∧
        (∀ g, s.imageOf i.handle = some g → g.imgLen ≤ 4096 → ∀ pc < g.imgLen, ∀ k < 4,
          t.tab (.pec e) (imemSpace x.bank) (4 * pc + k) = s.bankWord g.bank.val (16 * pc + 4 * k)) ∧
        Framed [.eng] [] (words (.pec e) (imemSpace x.bank) 0 (2 ^ 24)) s t) ∧
    (let period := fieldOf (s.reg fltRotPeriod) 0 16
     (period = 0 ∨ s.clk.tick < s.flt.rotDue → Idle .rotationTimer s) ∧
     (period ≠ 0 → s.flt.rotDue ≤ s.clk.tick → Ends .rotationTimer s fun t =>
       t.flt = { s.flt with rotDue := s.clk.tick + 500000000 * period } ∧
       (s.rotation.isSome = true ∨ s.engineSpares < 2 ∨ s.longestHeld = none → Framed [.flt] [] [] s t) ∧
       (∀ r sp, s.rotation = none → 2 ≤ s.engineSpares → s.longestHeld = some r → s.pickEngine = some sp →
         t.rotation = some ⟨r, sp⟩ ∧ (s.islandOn (3 + sp.val) = true → Framed [.rotation, .flt] [] [] s t)) ∧
       Framed [.rotation, .clk, .flt] [clkWakeCnt] [] s t)) ∧
    (s.rotation = none → Idle .rotationMove s) ∧
    (∀ q, s.rotation = some q → s.engOf q.role = none →
      Ends .rotationMove s fun t => t.rotation = none ∧ Framed [.rotation] [] [] s t) ∧
    (∀ r sp i, s.rotation = some ⟨r, sp⟩ → s.insts[r] = some i → i.engine = some e →
      (s.engineSpares < 2 ∨ x.st ≠ .active ∨ x.inCycle = true ∨ x.kern ≠ .idle ∨ x.swapPend = true ∨ x.takeover ≠ .none ∨
        x.ckpt ≠ .none ∨ s.eng[sp].st ≠ .spare ∨ s.islandOn (3 + sp.val) = false → Idle .rotationMove s) ∧
      (2 ≤ s.engineSpares → x.st = .active → x.inCycle = false → x.kern = .idle → x.swapPend = false →
        x.takeover = .none → x.ckpt = .none → s.eng[sp].st = .spare → s.islandOn (3 + sp.val) = true →
        Ends .rotationMove s fun t =>
          let u := ((s.setEng e { x with flight := [] }).landList e x.flight).1
          let y := u.eng[e]
          t.insts[r] = some { i with engine := some sp, heldSince := s.bindSeq } ∧ t.eng[e].st = .test ∧
          t.eng[e].role = none ∧ t.eng[sp].st = .active ∧ t.eng[sp].role = x.role ∧ t.eng[sp].k = y.k ∧ t.eng[sp].s = y.s ∧
          (x.flight = [] → y = x) ∧ t.eng[sp].flight = [] ∧
          t.eng[sp].cyc = x.cyc ∧ t.eng[sp].dmem = y.dmem ∧ t.eng[sp].svc = x.svc ∧ t.rotation = none ∧
          t.reg fltRotateCnt = u.reg fltRotateCnt + 1 ∧
          (∀ w < 36, t.tab (.pec sp) 2 w = u.tab (.pec e) 2 w) ∧ t.mem = u.mem)) ∧
    (x.st ≠ .test → Idle (.selfTestDone e pass) s) ∧
    (x.st = .test →
      (Ends (.selfTestDone e true) s fun t => t.eng[e].st = .spare ∧ t.eng[e].role = none ∧ t.reg (pecFault e.val) = 0 ∧
        t.fenced e.val = false ∧ (s.fenced e.val = false → t.flt = s.flt) ∧
        (s.fenced e.val = true → s.flt.readmit.getLsbD e.val = false →
          Logged e.val s.flt.recs[(Fin.ofNat 37 e.val : Fin 37)].cause 2 s t) ∧
        (s.fenced e.val = true → s.flt.readmit.getLsbD e.val = true → Logged e.val 0x0D 3 s t ∧
          t.reg fltReadmitCnt = s.reg fltReadmitCnt + 1) ∧
        (∀ f : Fin 10, f ≠ e → t.eng[f] = s.eng[f]) ∧
        Framed [.eng, .flt] [pecFault e.val, fltReadmitCnt] faultLogWords s t) ∧
      (s.fenced e.val = true → Ends (.selfTestDone e false) s fun t => EngineIs e { x with st := .fenced } s t ∧
        t.flt.perm.getLsbD e.val = true ∧ t.fenced e.val = true ∧ t.reg fltPermCnt = s.reg fltPermCnt + 1 ∧
        Logged e.val 0x09 4 s t ∧ Framed [.eng, .flt] [fltPermCnt] faultLogWords s t) ∧
      (s.fenced e.val = false → s.flt.perm.getLsbD e.val = false → s.flt.testing.getLsbD e.val = false →
        Ends (.selfTestDone e false) s fun t => EngineIs e { x with st := .fenced } s t ∧ t.fenced e.val = true ∧
          t.reg fltFaultCnt = s.reg fltFaultCnt + 1 ∧ Logged e.val 0x09 0 s t ∧
          Framed [.eng, .flt] [fltFaultCnt] faultLogWords s t)) ∧
    (∀ at_, x.st = .fenced → s.fenced e.val = true → s.flt.perm.getLsbD e.val = false → s.flt.retest[e] = some at_ →
      at_ ≤ s.clk.tick →
      Ends (.retestStart e) s fun t => EngineIs e { x with st := .test } s t ∧ t.flt.testing.getLsbD e.val = true ∧
        t.flt.fenced = s.flt.fenced ∧ Framed [.eng, .flt] [] [] s t) ∧
    (x.st ≠ .fenced ∨ s.fenced e.val = false ∨ s.flt.perm.getLsbD e.val = true ∨ s.flt.retest[e] = none ∨
      (∃ at_, s.flt.retest[e] = some at_ ∧ s.clk.tick < at_) → Idle (.retestStart e) s)

/-- A command is served only while the device runs with the supervisor in service, when its box is next in turn and its request has its OP; else it changes nothing, and a reply waits in order while its mailbox is FULL. Where ROM serves alone, commands it does not accept are answered POLICY. GET_IDENTITY answers EUI-64 and the lifecycle word; CHALLENGE eight fresh words, which are the path's nonce from then on; ATTEST writes the report and its signature at the address asked, in host memory or a bank the supervisor owns, and answers its length, or POLICY with no identity key; RING_KEYSEL sets the key slot; an unknown OP is BUS_ERROR. PWR_STANDBY with no wake source is POLICY, else the device enters P2 with the standby time, the fuses and the retention words kept; PWR_OFF enters P3. -/
def Obligations.TheSupervisorServesInTurn : Prop :=
  ∀ (s : State) (box : Fin 3), s.storesWf →
    (∀ c op, supOpOf c = some (box, op) →
      (s.power ≠ .run ∨ (s.fenced 36 = true ∧ s.sec.restarted = false) ∨ s.nextBox ≠ some box ∨ s.reqOp box ≠ op →
        Idle c s) ∧
      (Asked box op { s with flt := { s.flt with recovery := false }, sec := { s.sec with romServes := false } } →
        s.nextBox = some box → s.romOnly = true → op ∉ [0x01, 0x07, 0x10, 0x11, 0x12, 0x13] →
        Ends c s (Replied box stPolicy [] id [] [] [] s))) ∧
    (s.nextBox ≠ some box ∨ knownOp (s.reqOp box) = true → Idle (.unknownCommand box) s) ∧
    (knownOp (s.reqOp box) = false → Asked box (s.reqOp box) s →
      Ends (.unknownCommand box) s (Replied box stBusError [] id [] [] [] s)) ∧
    (Asked box 0x10 s → Ends (.getIdentity box) s (Replied box stOk
      [s.sec.eui.extractLsb' 32 32, s.sec.eui.extractLsb' 0 32, s.reg glbLifecycle] id [] [] [] s)) ∧
    (Asked box 0x11 s → Ends (.challenge box) s fun t =>
      ∃ ws : List Word, ws.length = 8 ∧ Replied box stOk ws (fun x =>
        { x with nonces := vset x.nonces (boxPath box) (some (ws.flatMap fun w => (leBytes w).reverse)) }) [.free] [] [] s t) ∧
    (Asked box 0x15 s →
      (s.sec.ident.priv = none → Ends (.attest box) s (Replied box stPolicy [] id [] [] [] s)) ∧
      (∀ d b, s.sec.ident.priv = some d → b = fieldOf (s.reqWord box 1) 0 7 →
        box ≠ 2 ∨ (b < 96 ∧ s.owns .sup b = true ∧ s.mem.window = none) →
        Ends (.attest box) s fun t => ∃ bs sg : List Byte, ∃ nonce : List Byte,
          slice bs 0 4 = leBytes 0x45564154#32 ∧ byteAt bs 4 = s.sec.lifecycle.setWidth 8 ∧
          slice bs 8 8 = toBe 8 s.sec.eui.toNat ∧ nonce = slice bs 64 32 ∧
          nonce = (List.range 8).flatMap (fun k => (leBytes (s.reqWord box (3 + k))).reverse) ∧
          sg = toBe 48 (ecdsaSign d (sha384 bs)).1.toNat ++ toBe 48 (ecdsaSign d (sha384 bs)).2.toNat ∧
          (box ≠ 2 → Replied box stOk [w32 (bs ++ sg).length] id [] [] [] s t ∧
            Sends [.hostWrite (box = 1) (s.reqWord box 2 ++ s.reqWord box 1) (bs ++ sg)] s t) ∧
          (box = 2 → Replied box stOk [w32 (bs ++ sg).length] id [.mem] [] [] s t ∧
            ∀ k < (bs ++ sg).length, t.bankByte b k = byteAt (bs ++ sg) k)) ∧
      (∀ d b, s.sec.ident.priv = some d → b = fieldOf (s.reqWord box 1) 0 7 → box = 2 → b < 96 → s.owns .sup b = false →
        Ends (.attest box) s fun t => t.reg memNonownCnt = s.reg memNonownCnt + 1 ∧
          Replied box stBusError [] id [] [memNonownCnt, memNonownLast] [] s t)) ∧
    (Asked box 0x30 s → Ends (.ringKeysel box) s fun t =>
      let a := nrgRingKeysel (fieldOf (s.reqWord box 1) 0 1)
      t.reg a = setBit (s.reg a) 0 (bitOf (s.reqWord box 2) 0) ∧ Replied box stOk [] id [] [a] [] s t) ∧
    (Asked box 0x20 s →
      (s.reg clkWakeCfg &&& 3 = 0 → Ends (.pwrStandby box) s (Replied box stPolicy [] id [] [] [] s)) ∧
      (s.reg clkWakeCfg &&& 3 ≠ 0 → Ends (.pwrStandby box) s fun t =>
        t.power = .p2 ∧ t.reg clkIslOn = 0 ∧ t.reg clkP2Cnt = s.reg clkP2Cnt + 1 ∧ t.reg clkWakeCfg = s.reg clkWakeCfg ∧
        (∀ d : Fin 4, t.dom[d].standby = s.dom[d].standby ∧ t.dom[d].inc = s.dom[d].inc) ∧
        t.sec.lifecycle = s.sec.lifecycle ∧ t.sec.caks = s.sec.caks ∧ t.sec.slots = s.sec.slots ∧
        t.sec.nonces = Vector.replicate 4 none ∧ fieldOf (t.reg glbLifecycle) 8 2 = 0 ∧ t.mem = State.reset.mem ∧
        t.eng = State.reset.eng ∧ t.hif = State.reset.hif ∧ t.pending = s.pending)) ∧
    (Asked box 0x21 s → Ends (.pwrOff box) s fun t =>
      t.power = .p3 ∧ t.reg clkIslOn = 0 ∧ t.sec.lifecycle = s.sec.lifecycle ∧ t.sec.caks = Vector.replicate 10 none ∧
      (∀ k : Fin 4, t.sec.slots[k].key = none) ∧ t.mem = State.reset.mem ∧ t.dom = State.reset.dom ∧
      t.pending = s.pending)

/-- A package is checked in the order of Table PEC-25: outside OWNED POLICY, of another form AUTH_FAIL, of another length TOO_LONG, with another digest AUTH_FAIL, and unless the measurement list spares it, with a failing signature or rollback AUTH_FAIL; with no free bank NO_BUFFER. Accepted, it stands in the lowest free general bank, owned by the supervisor, with a new handle and a measurement, and the reply names the handle. Unread bytes and unknown handles are BUS_ERROR. An image in use is not dropped; else its bank is free. SUP_UPDATE names the next firmware. SEQ_LOAD writes an engine's standby bank, IMG_UPDATE an instance's, where W and CKPT_VER fit, with SWAP pending. -/
def Obligations.ImagesAreLoadedCheckedAndUsed : Prop :=
  ∀ (s : State) (box : Fin 3), s.storesWf →
    (Asked box 0x01 s →
      let len := (s.reqWord box 3).toNat
      (∀ data, box ≠ 2 → bitOf (s.reqWord box 4) 0 = false → data = none ∨ (∃ bs : List Byte, data = some bs ∧ bs.length < len) →
        Ends (.imgLoad box data) s (Replied box stBusError [] id [] [] [] s)) ∧
      (∀ data, box = 2 → bitOf (s.reqWord box 4) 0 = false →
        Ends (.imgLoad box data) s (Replied box stBusError [] id [] [] [] s)) ∧
      (∀ data b, bitOf (s.reqWord box 4) 0 = true → b = fieldOf (s.reqWord box 1) 0 7 → b < 96 → len ≤ 0x20000 →
        s.owns .sup b = false → Ends (.imgLoad box data) s fun t =>
          t.reg memNonownCnt = s.reg memNonownCnt + 1 ∧
          Replied box stBusError [] id [] [memNonownCnt, memNonownLast] [] s t) ∧
      (∀ (data : Option (List Byte)) (bs : List Byte), bs.length = len →
        (box ≠ 2 ∧ bitOf (s.reqWord box 4) 0 = false ∧ data = some bs) ∨
          (bitOf (s.reqWord box 4) 0 = true ∧ (let b := fieldOf (s.reqWord box 1) 0 7
            b < 96 ∧ len ≤ 0x20000 ∧ s.owns .sup b = true ∧ bs = s.ownerRead b 0 len 100)) →
        let h := slice bs 0 0x100
        let c := Instr.imgLoad box data
        let fails := Ends c s fun t => t.reg secAuthFailCnt = s.reg secAuthFailCnt + 1 ∧
          Replied box stAuthFail [] id [] [secAuthFailCnt] [] s t
        let sound := s.sec.lifecycle = 2 ∧ packageForm h = true ∧ packageLen h len = true
        let passes := s.measured h = true ∨ (s.vendorOk bs = true ∧ s.ownerOk bs = true ∧ s.rollbackOk h = true)
        (s.sec.lifecycle ≠ 2 → Ends c s (Replied box stPolicy [] id [] [] [] s)) ∧
        (s.sec.lifecycle = 2 → packageForm h = false → fails) ∧
        (s.sec.lifecycle = 2 → packageForm h = true → packageLen h len = false →
          Ends c s (Replied box stTooLong [] id [] [] [] s)) ∧
        (sound → shaBytes (packageBody bs) ≠ slice h 0x40 48 → fails) ∧
        (sound → shaBytes (packageBody bs) = slice h 0x40 48 → ¬ passes → fails) ∧
        (sound → shaBytes (packageBody bs) = slice h 0x40 48 → passes → s.freeBanks = [] →
          Ends c s (Replied box stNoBuffer [] id [] [] [] s)) ∧
        (∀ b r, sound → shaBytes (packageBody bs) = slice h 0x40 48 → passes → s.freeBanks = b :: r →
          (packageBody bs).length ≤ 0x20000 → s.mem.window = none →
          Ends c s fun t => ∃ g, t.images = s.images ++ [g] ∧ g.handle = s.freeHandle ∧ g.bank = b ∧ g.more = none ∧
            g.kind = byteAt h 8 ∧ g.pid = byteAt h 9 ∧ g.imgLen = hdr32 h 0x1C ∧ g.w.toNat = hdr32 h 0x14 % 2 ^ 24 ∧
            t.owner b.val = 2 ∧ (∀ k < (packageBody bs).length, t.bankByte b.val k = byteAt (packageBody bs) k) ∧
            (∀ b' k, k < 0x20000 → b' ≠ b.val ∨ (packageBody bs).length ≤ k → t.bankByte b' k = s.bankByte b' k) ∧
            Replied box stOk [s.freeHandle.setWidth 32] (fun x => { x with
              meas := (x.meas.filter fun m => !(m.header = h && m.handle.isNone)) ++ [⟨h, some s.freeHandle⟩] })
              [.images, .mem] [memBankOwner b.val] [] s t))) ∧
    (Asked box 0x05 s →
      let h : Byte := (s.reqWord box 1).setWidth 8
      (s.imageOf h = none → Ends (.imgDrop box) s (Replied box stBusError [] id [] [] [] s)) ∧
      (∀ g, s.imageOf h = some g → s.imageUsed h = true → Ends (.imgDrop box) s (Replied box stPolicy [] id [] [] [] s)) ∧
      (∀ g, s.imageOf h = some g → s.imageUsed h = false → g.more = none → s.owner g.bank.val = 2 →
        Ends (.imgDrop box) s fun t => t.images = s.images.filter (fun i => i.handle ≠ h) ∧ t.owner g.bank.val = 0 ∧
          Replied box stOk [] (fun x => { x with meas := x.meas.filter fun m => m.handle ≠ some h })
            [.images] [memBankOwner g.bank.val] [] s t)) ∧
    (Asked box 0x07 s →
      let h : Byte := (s.reqWord box 1).setWidth 8
      (s.imageOf h = none ∨ (∃ g, s.imageOf h = some g ∧ g.kind ≠ 3) →
        Ends (.supUpdate box) s (Replied box stBusError [] id [] [] [] s)) ∧
      (∀ g, s.imageOf h = some g → g.kind = 3 →
        Ends (.supUpdate box) s (Replied box stOk [] (fun x => { x with supNext := some h }) [] [] [] s))) ∧
    (Asked box 0x06 s →
      let h : Byte := (s.reqWord box 1).setWidth 8
      let e : Fin 2 := Fin.ofNat 2 (fieldOf (s.reqWord box 2) 0 1)
      let answers := fun st => Ends (.seqLoad box) s (Replied box st [] id [] [] [] s)
      (s.imageOf h = none ∨ (∃ g, s.imageOf h = some g ∧ g.kind ≠ 2) → answers stBusError) ∧
      (∀ g, s.imageOf h = some g → g.kind = 2 →
        (s.islandOn 17 = false → answers stIslandOff) ∧
        (s.islandOn 17 = true → s.fenced (27 + e.val) = true → answers stFenced) ∧
        (s.islandOn 17 = true → s.fenced (27 + e.val) = false → s.psq.swap.getLsbD e.val = true → answers stRetry) ∧
        (s.islandOn 17 = true → s.fenced (27 + e.val) = false → s.psq.swap.getLsbD e.val = false →
          bitOf (s.reqWord box 2) 8 = false → g.imgLen ≤ 1024 →
          Ends (.seqLoad box) s fun t =>
            let sp := psqSpace e.val (!s.psq.active.getLsbD e.val)
            (∀ k < g.imgLen, t.tab .psq sp k = s.bankWord g.bank.val (4 * k)) ∧
            Replied box stOk [] (fun x => { x with seqImg := vset x.seqImg e (some h) }) []
              [] (words .psq sp 0 g.imgLen) s t))) ∧
    (Asked box 0x02 s →
      let role := fieldOf (s.reqWord box 1) 0 8
      let h : Byte := (s.reqWord box 2).setWidth 8
      let answers := fun st => Ends (.imgUpdate box) s (Replied box st [] id [] [] [] s)
      (s.imageOf h = none ∨ 10 ≤ role → answers stBusError) ∧
      (∀ r : Fin 10, r.val = role → s.insts[r] = none → answers stBusError) ∧
      (∀ (r : Fin 10) i, r.val = role → s.insts[r] = some i → i.engine = none → answers stBusError) ∧
      (∀ (r : Fin 10) i g, r.val = role → s.insts[r] = some i → s.imageOf h = some g → g.kind ≠ 1 → answers stBusError) ∧
      (∀ (r e : Fin 10) i g old, r.val = role → s.insts[r] = some i → s.imageOf h = some g → g.kind = 1 →
        i.engine = some e → s.imageOf i.handle = some old →
        let fits := g.pid = old.pid ∧ g.ckptVer = old.ckptVer ∧
          budgetOk g.w.toNat i.period.toNat i.tKst.toNat i.tRel.toNat = true
        (¬ fits → answers stAdmitFail) ∧
        (fits → i.update.isSome = true ∨ s.eng[e].swapPend = true → answers stRetry) ∧
        (fits → i.update = none → s.eng[e].swapPend = false → s.eng[e].st = .active → g.imgLen ≤ 4096 →
          Ends (.imgUpdate box) s fun t =>
            let sp := imemSpace (!s.eng[e].bank)
            (∀ pc < g.imgLen, ∀ k < 4, t.tab (.pec e) sp (4 * pc + k) = s.bankWord g.bank.val (16 * pc + 4 * k)) ∧
            t.reg (pecWdecl e.val) = g.w.setWidth 32 ∧
            (t.reg (pecWdog e.val)).toNat = max (fieldOf (s.reg (pecWdog e.val)) 0 24) (g.w.toNat - 191) ∧
            EngineIs e { s.eng[e] with swapPend := true, wdogNext := some (BitVec.ofNat 24 (g.w.toNat - 191)) } s t ∧
            t.insts[r] = some { i with update := some h } ∧ (∀ q : Fin 10, q ≠ r → t.insts[q] = s.insts[q]) ∧
            Replied box stOk [] id [.eng, .insts] [pecWdecl e.val, pecWdog e.val]
              (words (.pec e) sp 0 (2 ^ 24)) s t)))

/-- A request that names no loaded personality, no role, a bound role or no trigger unit is BUS_ERROR (the model's choice, log 31). Else the first condition that fails is the ADMIT_FAIL reason: 1 a period under the image's minimum, 2 its ports, 3 no SPARE engine, 4 no checkpoint window, 5 the budget, 6 the spares left. Admitted, the instance stands on the lowest free engine, ACTIVE with its service context at 0x010, with the image in its active bank, its limits, EN set and hold ended, its gate closed, and its trigger unit set up for kernel cycle starts of its period. UNBIND removes a role's instance; its engine is SPARE, or stays FENCED, disabled and in hold; of a role with none it is BUS_ERROR. -/
def Obligations.InstancesAreAdmittedAndUnbound : Prop :=
  ∀ (s : State) (box : Fin 3), s.storesWf →
    (Asked box 0x03 s →
      let q := s.admitReq box
      (s.imageOf q.handle = none ∨ 10 ≤ q.role ∨ 24 ≤ q.ttu →
        Ends (.admitRole box) s (Replied box stBusError [] id [] [] [] s)) ∧
      (∀ g (r : Fin 10) (n : Fin 24), s.imageOf q.handle = some g → r.val = q.role → n.val = q.ttu →
        let used := q.ports.setWidth 12 &&& s.portsHeld ≠ 0
        let badPorts := portsAllowed g.pid.toNat q.ports = false ∨ used
        let b := (q.tRel.toNat + q.period.toNat - q.tKst.toNat) % q.period.toNat
        let fitsBudget := q.tKst.toNat < q.period.toNat ∧ q.tRel.toNat < q.period.toNat ∧ b ≠ 0 ∧ 2 * g.w.toNat + 1200 ≤ b
        let left := s.engineSpares - 1
        let spares := 2 ≤ left ∨ (left = 1 ∧ q.allowOne = true) ∨ (left = 0 ∧ q.allowNone = true)
        let failed := fun why => Ends (.admitRole box) s (Replied box stAdmitFail [why] id [] [] [] s)
        (g.kind ≠ 1 ∨ s.insts[r].isSome = true → Ends (.admitRole box) s (Replied box stBusError [] id [] [] [] s)) ∧
        (g.kind = 1 → s.insts[r] = none →
          (q.period.toNat < g.minCycle.toNat → failed 1) ∧
          (g.minCycle.toNat ≤ q.period.toNat → badPorts → failed 2) ∧
          (g.minCycle.toNat ≤ q.period.toNat → ¬ badPorts → s.freeEngine = none → failed 3) ∧
          (∀ e, g.minCycle.toNat ≤ q.period.toNat → ¬ badPorts → s.freeEngine = some e →
            (s.dualBank e 3 = none → failed 4) ∧
            ((s.dualBank e 3).isSome = true → ¬ fitsBudget → failed 5) ∧
            ((s.dualBank e 3).isSome = true → fitsBudget → ¬ spares → failed 6) ∧
            ((s.dualBank e 3).isSome = true → fitsBudget → spares → g.imgLen ≤ 4096 →
              Ends (.admitRole box) s fun t =>
                t.insts[r] = some { handle := q.handle, engine := some e, period := q.period, tKst := q.tKst, tRel := q.tRel,
                                    ports := q.ports.setWidth 12, ttu := n, stopped := false, gate := false, due := false,
                                    committed := none, update := none, heldSince := s.bindSeq } ∧
                (∀ p : Fin 10, p ≠ r → t.insts[p] = s.insts[p]) ∧ (∀ f : Fin 10, f ≠ e → t.eng[f] = s.eng[f]) ∧
                t.eng[e].st = .active ∧ t.eng[e].role = some r ∧ t.eng[e].kern = .idle ∧ t.eng[e].cyc = 0 ∧
                t.eng[e].svc = .run ∧ t.eng[e].s.pc = 0x10 ∧ t.eng[e].flight = [] ∧ t.eng[e].dmem = [] ∧
                (∀ pc < g.imgLen, ∀ k < 4, t.tab (.pec e) (imemSpace t.eng[e].bank) (4 * pc + k) =
                  s.bankWord g.bank.val (16 * pc + 4 * k)) ∧
                t.reg (pecWdecl e.val) = g.w.setWidth 32 ∧ (t.reg (pecWdog e.val)).toNat = g.w.toNat - 191 ∧
                t.en (.pec e) = true ∧ t.inHold (.pec e) = false ∧
                t.reg (ttuPeriod n.val) = q.period ∧ t.ttuPeriodic n = true ∧ t.ttuEvtKind n = 1 ∧ t.ttuEvtTarget n = r.val ∧
                (s.en .ttc = true → s.inHold .ttc = false → 100 ≤ q.period.toNat →
                  fieldOf (s.reg (ttuWidth n.val)) 0 24 < q.period.toNat → s.ttu[n].pulse = false → t.ttu[n].armed = true) ∧
                Replied box stOk [0] id [.eng, .insts, .images, .rotation, .hold, .ttu, .clk]
                  (pecWdecl e.val :: pecWdog e.val :: blkBase (.pec e) :: clkWakeCnt :: ttuCfg n.val :: ttuPeriod n.val ::
                    (blkBase .ttc + 8) :: (blkBase .ttc + 12) :: ttuTimeRegs)
                  (words (.pec e) (imemSpace t.eng[e].bank) 0 (2 ^ 24)) s t))))) ∧
    (Asked box 0x04 s →
      let role := fieldOf (s.reqWord box 1) 0 8
      (10 ≤ role → Ends (.unbind box) s (Replied box stBusError [] id [] [] [] s)) ∧
      (∀ r : Fin 10, r.val = role →
        (s.insts[r] = none → Ends (.unbind box) s (Replied box stBusError [] id [] [] [] s)) ∧
        (∀ i, s.insts[r] = some i →
          Ends (.unbind box) s fun t => t.insts[r] = none ∧ t.mbxFullOf (replyBox box) = true ∧
            t.mbxWord (replyBox box) 0 = (s.reqW0 box &&& 0xFFFF0000#32) ∧ (∀ p : Fin 10, p ≠ r → t.insts[p] = s.insts[p]) ∧
            (∀ e, i.engine = some e → t.en (.pec e) = false ∧ t.inHold (.pec e) = true ∧ t.eng[e].role = none ∧
              t.eng[e].st = (if s.eng[e].st = .fenced then EngSt.fenced else .spare) ∧
              ∀ f : Fin 10, f ≠ e → t.eng[f] = s.eng[f]) ∧
            Framed [.mbx, .sec, .insts, .eng, .hold, .rotation]
              (mbxAbortCnt :: mbxPostCnt :: (payloadWords ++ bindingRegs)) [] s t)))

/-- A key is loaded exactly if its hash is enrolled in its slot and not revoked. A token consumes the path's nonce; it is valid for this device, this nonce and a loaded key's signature, else AUTH_FAIL is counted. Valid, ENROLL fills an empty slot, REVOKE drops a slot's key unless none would be left, ROLLBACK_SET raises a counter to at most 64, CAK_SET installs the key decrypted under KEK where its tag fits, DECOMMISSION zeroizes, fuses DECOMMISSIONED and starts cold, DEBUG authorises a level on the JTAG path alone, where DBG_TOKEN delivers it. Each row's command is an event only for its OP. TAKE_OWNERSHIP works in UNOWNED alone, on the nonce, and enrolls slot 0; DECOMMISSION_UNOWNED in UNOWNED alone. -/
def Obligations.OwnerKeysAndTokens : Prop :=
  ∀ (s : State) (box : Fin 3), s.storesWf →
    let path := boxPath box
    let spent := fun x : SecState => { x with nonces := vset x.nonces path none }
    (Asked box 0x12 s →
      let k : Fin 4 := Fin.ofNat 4 (fieldOf (s.reqWord box 1) 0 2)
      (box ≠ 2 → Ends (.ownerKeyLoad box none) s (Replied box stBusError [] id [] [] [] s)) ∧
      (∀ bs : List Byte, bs.length = 96 → Handed box (s.reqWord box 2) bs s →
        let o := s.sec.slots[k]
        let good := o.enrolled = true ∧ o.revoked = false ∧ o.hash = sha384 (keyBytes (keyOf bs))
        (good → Ends (.ownerKeyLoad box (some bs)) s (Replied box stOk []
          (fun x => { x with slots := vset x.slots k { o with key := some (keyOf bs) } }) [] [] [] s)) ∧
        (¬ good → Ends (.ownerKeyLoad box (some bs)) s (Replied box stAuthFail [] id [] [] [] s)))) ∧
    (∀ bs : List Byte, bs.length = 336 → Handed box (s.reqWord box 1) bs s →
      let rows := [(1, Instr.enroll box bs), (2, .revoke box bs), (3, .rollbackSet box bs), (4, .decommission box bs),
        (5, .cakSet box bs)]
      (∀ r ∈ rows, tokOp bs ≠ r.1 ∨ s.nextBox ≠ some box ∨ s.reqOp box ≠ 0x13 → Idle r.2 s) ∧
      (Asked box 0x13 s →
        let any := fun P => ∀ r ∈ (0, Instr.ownerCmd box (some bs)) :: rows, r.1 = 0 ∨ r.1 = tokOp bs → Ends r.2 s P
        let n := (tokArg bs 0).toNat
        let fails := any fun t => t.reg secAuthFailCnt = s.reg secAuthFailCnt + 1 ∧
          Replied box stAuthFail [] spent [] [secAuthFailCnt] [] s t
        let denied := any (Replied box stPolicy [] spent [] [] [] s)
        let valid := s.tokenValid path bs = true
        (¬ valid → fails) ∧
        (s.sec.nonces[path] = none ∨ slice bs 8 8 ≠ toBe 8 s.sec.eui.toNat → fails) ∧
        (valid → tokOp bs ∉ [1, 2, 3, 4, 5, 7] → fails) ∧
        (valid → tokOp bs = 7 → denied) ∧
        (valid → tokOp bs ∈ [1, 2] ∧ 4 ≤ n ∨ tokOp bs = 3 ∧ 16 ≤ n → fails) ∧
        (∀ i : Fin 4, valid → i.val = n → tokOp bs = 1 →
          (s.sec.slots[i].enrolled = true → denied) ∧
          (s.sec.slots[i].enrolled = false → any (Replied box stOk [] (fun x => { spent x with
            slots := vset x.slots i { x.slots[i] with hash := beVec 384 (slice bs 0x31 48), enrolled := true } }) [] [] [] s))) ∧
        (∀ i : Fin 4, valid → i.val = n → tokOp bs = 2 →
          let others := ∃ k : Fin 4, k ≠ i ∧ s.sec.slots[k].enrolled = true ∧ s.sec.slots[k].revoked = false
          (¬ others → denied) ∧
          (others → any (Replied box stOk [] (fun x => { spent x with
            slots := vset x.slots i { x.slots[i] with revoked := true, key := none } }) [] [] [] s))) ∧
        (∀ i : Fin 16, valid → i.val = n → tokOp bs = 3 →
          let v := (tokArg bs 1).toNat
          (v < s.sec.rollback[i].toNat ∨ 64 < v → denied) ∧
          (s.sec.rollback[i].toNat ≤ v → v ≤ 64 → n ≠ 15 → any (Replied box stOk [] (fun x => { spent x with
            rollback := vset x.rollback i (BitVec.ofNat 7 v) }) [] [] [] s)) ∧
          (s.sec.rollback[i].toNat ≤ v → v ≤ 64 → n = 15 → any (Replied box stOk [] spent [] [] [] s))) ∧
        (valid → tokOp bs = 5 → 9 < n → denied) ∧
        (∀ d (i : Fin 10), valid → tokOp bs = 5 → i.val = n → s.sec.agree.priv = some d →
          let ckn := (tokArg bs 1).toNat
          let q := keyOf (slice bs 84 96)
          let iv : BitVec 96 := beVec 96 (slice bs 180 12)
          let kek := s.kek d q
          let sound := 1 ≤ ckn ∧ ckn ≤ 32 ∧ onCurve q = true ∧
            gcmTag kek iv (slice bs 0 48) (slice bs 192 32) = beVec 128 (slice bs 224 16)
          (¬ sound → fails) ∧
          (sound → n < 8 → any (Replied box stOk [] (fun x => { spent x with
            caks := vset x.caks i (some ⟨beVec 256 (gcmCrypt kek iv (slice bs 192 32)),
              slice bs 52 ckn⟩) }) [] [] [] s)) ∧
          (∀ r : Fin 2, sound → n = 8 + r.val → any fun t =>
              let held := s.ringSetHeld r false || s.ringSetHeld r true
              let at_ := 64 * r.val + 32 * b2n (held && !s.ring[r].keyUsed)
              t.tabWords .nrg 2 at_ 18 = ringSet
                (beVec 256 (gcmCrypt kek iv (slice bs 192 32))) (s.ringId r) ∧
              t.sec.caks[i].isSome = true ∧ Framed [.mbx, .sec] (replyRegs box) (words .nrg 2 at_ 18) s t)) ∧
        (valid → tokOp bs = 4 → any fun t =>
          t.sec.lifecycle = lcDecommissioned ∧ t.sec.ident.priv = none ∧ t.sec.agree.priv = none ∧
          t.sec.caks = Vector.replicate 10 none ∧ (∀ k : Fin 4, t.sec.slots[k].key = none) ∧
          fieldOf (t.reg glbLifecycle) 0 2 = 3 ∧ t.flt.starting = some .cold ∧ t.mem = State.reset.mem ∧
          t.eng = State.reset.eng ∧ t.pending = s.pending))) ∧
    (Asked box 0x14 s →
      (s.sec.lifecycle ≠ lcUnowned → ∀ data, Ends (.takeOwnership box data) s (Replied box stPolicy [] id [] [] [] s)) ∧
      (∀ bs : List Byte, s.sec.lifecycle = lcUnowned → bs.length = 192 → Handed box (s.reqWord box 1) bs s →
        let c := Instr.takeOwnership box (some bs)
        (s.sec.nonces[path] = none → Ends c s (Replied box stAuthFail [] spent [] [] [] s)) ∧
        (∀ n, s.sec.nonces[path] = some n →
          let ok := ecdsaVerify (keyOf bs) (sha384 (toBe 8 s.sec.eui.toNat ++ n)) (sigOf bs 96)
          (ok = false → Ends c s (Replied box stAuthFail [] spent [] [] [] s)) ∧
          (ok = true → Ends c s fun t => t.sec.lifecycle = lcOwned ∧ fieldOf (t.reg glbLifecycle) 0 2 = 2 ∧
            t.sec.slots[(0 : Fin 4)] = ⟨sha384 (keyBytes (keyOf bs)), true, false, none⟩ ∧
            t.flt.starting = some .cold ∧ t.eng = State.reset.eng ∧ t.pending = s.pending)))) ∧
    (Asked box 0x16 s →
      (s.sec.lifecycle ≠ lcUnowned → Ends (.decommissionUnowned box) s (Replied box stPolicy [] id [] [] [] s)) ∧
      (s.sec.lifecycle = lcUnowned → Ends (.decommissionUnowned box) s fun t =>
        t.sec.lifecycle = lcDecommissioned ∧ t.sec.ident.priv = none ∧ t.sec.caks = Vector.replicate 10 none ∧
        t.flt.starting = some .cold ∧ t.mem = State.reset.mem ∧ t.pending = s.pending)) ∧
    (∀ bs : List Byte, tokOp bs ≠ 7 → Idle (.debugToken bs) s) ∧
    (∀ bs : List Byte, bs.length = 336 → s.power = .run → s.sec.tap = .functional →
      let spent := fun x : SecState => { x with nonces := vset x.nonces 3 none }
      (∀ c ∈ [Instr.dbgToken bs, .debugToken bs], c = .dbgToken bs ∨ tokOp bs = 7 → s.tokenValid 3 bs = false →
        Ends c s fun t => t.reg secAuthFailCnt = s.reg secAuthFailCnt + 1 ∧
          t.sec = { spent s.sec with dbgStatus := stAuthFail } ∧ Framed [.sec] [secAuthFailCnt] [] s t) ∧
      (∀ c ∈ [Instr.dbgToken bs, .debugToken bs], ∀ l : Fin 4, tokOp bs = 7 → s.tokenValid 3 bs = true →
        l.val = (tokArg bs 0).toNat → l = 2 ∨ l = 3 →
        Ends c s fun t => t.sec = { spent s.sec with dbgStatus := stOk, dbgTok := some l } ∧ Framed [.sec] [] [] s t))

/-- With the balls in their functional mode: IDCODE shifts out 0xB8600B9B and BYPASS one 0 bit, in P2 too; SAMPLE loads the boundary register; DBG_STATUS shifts out the level and status; DBG_CHALLENGE a fresh nonce of the JTAG path, and forgets the token. EXTEST, CLAMP and HIGHZ take the balls at D2 outside OWNED or at D3, and any other instruction gives them back with a cold start. DBG_OPEN raises the level where Table SEC-8 opens it, D3 in OWNED after the session keys are zeroized, else POLICY, in P2 ISLAND_OFF. DBG_CLOSE and TRST end the session at D0, releasing halts and breakpoints. LC_ADVANCE and LC_KILL work in MANUFACTURE at D3 alone. A tamper event while the monitors watch is counted and marked. With no power nothing happens. -/
def Obligations.TapInstructionsAndTamper : Prop :=
  ∀ (s : State) (cells : List Bool) (level : Fin 4), s.storesWf → s.sec.tap = .functional →
    let answers := fun c st => Ends c s fun t => t.sec = { s.sec with dbgStatus := st } ∧ Framed [.sec] [] [] s t
    let ended := fun t : State => t.dbgLevel = 0 ∧ t.sec.dbgTok = none ∧
      (s.dbgLevel ≠ 0 → t.sec.zeroed = false ∧ ∀ e : Fin 10, t.eng[e].halted = false ∧ t.reg (pecDbgCtrl e.val) = 0 ∧
        ∀ b < 4, t.reg (pecBp e.val b) = 0)
    let scans := s.power = .run ∧ (s.dbgLevel = 3 ∨ (s.dbgLevel = 2 ∧ s.sec.lifecycle ≠ lcOwned))
    let takes := fun c m cs => Ends c s fun t => Sends [.balls m cs] s t ∧
      t.sec = { s.sec with tap := m, boundary := cs } ∧ Framed [.sec] [] [] s t
    (s.power = .run ∨ s.power = .p2 →
      (Ends .idcode s fun t => Sends [.tdo [0xB8600B9B#32]] s t ∧ Framed [] [] [] s t) ∧
      (Ends .bypass s fun t => Sends [.tdo [0]] s t ∧ Framed [] [] [] s t)) ∧
    (s.power = .held ∨ s.power = .p3 → Idle .idcode s ∧ Idle .bypass s ∧ Idle .tamperEvent s) ∧
    (s.power ≠ .run → Idle (.samplePreload cells) s ∧ Idle (.extest cells) s ∧ Idle .clamp s ∧ Idle .highz s ∧
      Idle .dbgStatus s ∧ Idle .dbgChallenge s ∧ Idle .dbgClose s ∧ Idle .lcAdvance s ∧ Idle .lcKill s) ∧
    (s.power = .run →
      (Ends (.samplePreload cells) s fun t => t.sec = { s.sec with boundary := cells } ∧
        Framed [.sec, .free] [] [] s t ∧ ∃ ws, ws.length = (cells.length + 31) / 32 ∧ Sends [.tdo ws] s t) ∧
      (Ends .dbgStatus s fun t => Sends [.tdo [w32 (256 * s.dbgLevel + s.sec.dbgStatus.toNat)]] s t ∧ Framed [] [] [] s t) ∧
      (Ends .dbgChallenge s fun t => ∃ ws : List Word, ws.length = 8 ∧ Sends [.tdo ws] s t ∧
        t.sec = { s.sec with dbgTok := none, dbgStatus := stOk
                             nonces := vset s.sec.nonces 3 (some (ws.flatMap fun w => (leBytes w).reverse)) } ∧
        Framed [.sec, .free] [] [] s t) ∧
      (Ends .dbgClose s fun t => ended t ∧ t.sec.dbgStatus = stOk ∧ t.sec.lifecycle = s.sec.lifecycle) ∧
      (Ends .jtagTrst s fun t => ended t ∧ t.sec.dbgStatus = 0 ∧ t.sec.boundary = [] ∧ t.sec.lifecycle = s.sec.lifecycle)) ∧
    (scans → takes (.extest cells) .extest cells ∧ takes .clamp .clamp s.sec.boundary ∧ takes .highz .highz s.sec.boundary) ∧
    (¬ scans → Idle (.extest cells) s ∧ Idle .clamp s ∧ Idle .highz s) ∧
    (∀ m, m ≠ TapMode.functional → s.power = .run →
      let u := { s with sec := { s.sec with tap := m } }
      ∀ c ∈ [Instr.idcode, .bypass, .dbgStatus, .dbgClose], Ends c u fun t => t.sec.tap = .functional ∧
        t.flt.starting = some .cold ∧ t.eng = State.reset.eng ∧ t.mem = State.reset.mem ∧ t.pending = s.pending) ∧
    (s.power = .p2 → answers (.dbgOpen level) stIslandOff) ∧
    (s.power = .run →
      let opens := s.dbgLevel < level.val ∧ (s.sec.lifecycle ≠ lcOwned ∨ level = 1 ∨ s.sec.dbgTok = some level)
      (¬ opens → answers (.dbgOpen level) stPolicy) ∧
      (opens → ¬ (level = 3 ∧ s.sec.lifecycle = lcOwned) → Ends (.dbgOpen level) s fun t =>
        t.dbgLevel = level.val ∧ fieldOf (t.reg glbLifecycle) 0 2 = fieldOf (s.reg glbLifecycle) 0 2 ∧
        t.reg secDbgSessionCnt = s.reg secDbgSessionCnt + 1 ∧ t.sec = { s.sec with dbgStatus := stOk } ∧
        Framed [.sec] [glbLifecycle, secDbgSessionCnt] [] s t) ∧
      (opens → level = 3 → s.sec.lifecycle = lcOwned → Ends (.dbgOpen level) s fun t =>
        t.dbgLevel = 3 ∧ t.sec = { s.sec with dbgStatus := stOk, zeroed := true } ∧
        t.reg secZeroizeCnt = s.reg secZeroizeCnt + 1 ∧
        (∀ n : Fin 8, ∀ w, w % 16 < 8 → w < 320 → t.tab (.eth n) 3 w = 0) ∧ (∀ w < 128, t.tab .nrg 2 w = 0) ∧
        (∀ b < 112, ownKey (s.owner b) = true → ∀ k, k < 0x20000 → t.bankByte b k = 0) ∧
        (∀ b < 112, ownKey (s.owner b) = false → ∀ k, k < 0x20000 → t.bankByte b k = s.bankByte b k))) ∧
    (s.power = .run → ¬ (s.sec.lifecycle = lcManufacture ∧ s.dbgLevel = 3) → answers .lcAdvance stPolicy ∧ answers .lcKill stPolicy) ∧
    (s.power = .run → s.sec.lifecycle = lcManufacture → s.dbgLevel = 3 →
      (Ends .lcAdvance s fun t => t.sec.lifecycle = lcUnowned ∧ t.sec.ident.priv.isSome = true ∧
        t.sec.agree.priv.isSome = true ∧ (∀ d, t.sec.ident.priv = some d → t.sec.ident.pub = p384Public d) ∧
        fieldOf (t.reg glbLifecycle) 0 2 = 1 ∧ t.flt.starting = some .cold ∧ t.dbgLevel = 0) ∧
      (Ends .lcKill s fun t => t.sec.lifecycle = lcDecommissioned ∧ t.sec.ident.priv = none ∧
        t.sec.caks = Vector.replicate 10 none ∧ fieldOf (t.reg glbLifecycle) 0 2 = 3 ∧ t.flt.starting = some .cold)) ∧
    (s.sec.armed = false → Idle .tamperEvent s) ∧
    (s.sec.armed = true → s.power = .run ∨ s.power = .p2 → Ends .tamperEvent s fun t =>
      t.reg secTamperCnt = s.reg secTamperCnt + 1 ∧ t.sec = { s.sec with tamper := true } ∧
      Framed [.sec] [secTamperCnt] [] s t)

/-- DBG_ACCESS shifts out the data of the last read; with GO it makes one access and leaves its status: POLICY at D0, and below D3 outside the registers; BUS_ERROR at an address of no area or unaligned; in supervisor RAM and retention memory a write stores its four bytes alone and a read returns them; a register access is the JTAG master's. Without GO nothing else changes. An MKA timer of a port with no CAK or MACsec, or with the supervisor fenced, is no event; hello hands one MKPDU frame for the port to the switch; the first SAK, or a new one when the key server's is used up or a peer aged out, takes the next association number in every channel and transmit selects it. -/
def Obligations.DebugAccessAndMka : Prop :=
  ∀ (s : State) (write go : Bool) (a v : Word) (n : Fin 8) (hello server : Bool), s.storesWf →
    (s.power ≠ .run → Idle (.dbgAccess write go a v) s) ∧
    (s.power = .run → s.sec.tap = .functional →
      let out := Output.tdo [s.sec.dbgData]
      let answers := fun st => Ends (.dbgAccess write true a v) s fun t => Sends [out] s t ∧
        t.sec = { s.sec with dbgStatus := st } ∧ Framed [.sec] [] [] s t
      let area := supArea a.toNat
      (Ends (.dbgAccess write false a v) s fun t => Sends [out] s t ∧ Framed [] [] [] s t) ∧
      (s.dbgLevel = 0 → answers stPolicy) ∧ (s.dbgLevel ≠ 0 → a.toNat % 4 ≠ 0 → answers stBusError) ∧
      (s.dbgLevel ≠ 0 → a.toNat % 4 = 0 → area = .none → answers stBusError) ∧
      (s.dbgLevel = 1 ∨ s.dbgLevel = 2 → a.toNat % 4 = 0 → area ≠ .none → (∀ o, area ≠ .regs o) → answers stPolicy) ∧
      (s.dbgLevel = 3 → a.toNat % 4 = 0 → (∀ o, area = .rom o ∨ area = .priv → write = true → answers stOk) ∧
        (∀ o, area = .ram o →
          (write = true → Ends (.dbgAccess write true a v) s fun t => Framed [.sec] [] [] s t ∧
            ∃ m, t.sec = { s.sec with ram := m, dbgStatus := stOk } ∧
              ∀ k, amGet (fun _ => 0) m k =
                if o ≤ k ∧ k < o + 4 then byteAt (leBytes v) (k - o) else amGet (fun _ => 0) s.sec.ram k) ∧
          (write = false → Ends (.dbgAccess write true a v) s fun t => Framed [.sec] [] [] s t ∧
            t.sec = { s.sec with dbgData := amWord s.sec.ram o, dbgStatus := stOk })) ∧
        (∀ o, area = .retention o →
          (write = true → Ends (.dbgAccess write true a v) s fun t => Framed [.sec] [] [] s t ∧
            ∃ m, t.sec = { s.sec with retention := m, dbgStatus := stOk } ∧
              ∀ k, amGet (fun _ => 0) m k =
                if o ≤ k ∧ k < o + 4 then byteAt (leBytes v) (k - o) else amGet (fun _ => 0) s.sec.retention k) ∧
          (write = false → Ends (.dbgAccess write true a v) s fun t => Framed [.sec] [] [] s t ∧
            t.sec = { s.sec with dbgData := amWord s.sec.retention o, dbgStatus := stOk }))) ∧
      (∀ o st, area = .regs o → s.dbgLevel ≠ 0 → a.toNat % 4 = 0 → s.access .jtag write o = .err st →
        Ends (.dbgAccess write true a v) s fun t => t.sec = { s.sec with dbgStatus := st } ∧ Framed [.sec] [] [] s t) ∧
      (∀ o b p row, area = .regs o → s.dbgLevel ≠ 0 → a.toNat % 4 = 0 → write = false →
        s.access .jtag false o = .ok b p row → row.kind = .rw ∨ row.kind = .cf → p ≠ 0 → p ≠ 4 →
        Ends (.dbgAccess write true a v) s fun t =>
          t.sec = { s.sec with dbgData := s.reg o, dbgStatus := stOk } ∧ Framed [.sec, .latches] [] [] s t)) ∧
    (s.mkaRuns n = false ∨ s.fenced 36 = true → Idle (.mkaTimerExpire n hello server) s) ∧
    (s.mkaRuns n = true → s.fenced 36 = false →
      let an := fieldOf (s.reg (ethMsecTxsa n.val)) 0 2
      let next := (an + 1) % 4
      let sec' := { s.sec with mkaServer := setBit s.sec.mkaServer n.val server }
      let sak := fun t : State => fieldOf (t.reg (ethMsecTxsa n.val)) 0 2 = next ∧
        (∀ e ∈ [next, 4 + next, 8 + next, 12 + next, 16 + next], t.tabWords (.eth n) 3 (16 * e) 11 =
          t.tabWords (.eth n) 3 (16 * next) 11 ∧ t.tab (.eth n) 3 (16 * e + 12) = 1) ∧ t.sec = sec'
      let mkpdu := fun t : State => ∃ bs, t.swc = { s.swc with ingress := s.swc.ingress ++
        [⟨21, ⟨bs, none, false, ⟨.none, 0, 0, none, some (BitVec.ofNat 22 (2 ^ n.val)), none⟩, .sup⟩, s.swcTakes⟩] } ∧
        slice bs 0 6 = [0x01, 0x80, 0xC2, 0x00, 0x00, 0x03] ∧ be16At bs 12 = 0x888E
      let keys := words (.eth n) 3 0 320
      (hello = true → s.saHasKey n an = true → server = false ∨ s.saPn n an < 2 ^ 63 →
        Ends (.mkaTimerExpire n hello server) s fun t => mkpdu t ∧ t.sec = sec' ∧ Framed [.swc, .sec, .free] [] [] s t) ∧
      (hello = true → s.saHasKey n an = false ∨ (server = true ∧ 2 ^ 63 ≤ s.saPn n an) →
        Ends (.mkaTimerExpire n hello server) s fun t => mkpdu t ∧ sak t ∧
          Framed [.swc, .sec, .free] [ethMsecTxsa n.val] keys s t) ∧
      (hello = false → server = true → Ends (.mkaTimerExpire n hello server) s fun t => sak t ∧
        Framed [.sec, .free] [ethMsecTxsa n.val] keys s t) ∧
      (hello = false → server = false → Ends (.mkaTimerExpire n hello server) s fun t => t.sec = sec' ∧
        Framed [.sec] [] [] s t))

/-- An enabled port with a mode, neither gated nor fenced, comes up at the speed in force; its ring no longer sees loss of signal there; priorities above XOFF send XOFF first, in one PFC frame. A link that goes down is counted, ends the frame in transmission and its pauses, discards one in reception, frees the port's queues with LINK_DOWN for each frame not being sent, and puts the domains syntonized to it in holdover. Half duplex marks HD_REFUSED while auto-negotiation runs. A refresh sends the pause of the priorities in XOFF again. A pause timer's end unpauses its priority. GO issues the command's MDIO frame, counts an operation with no frame, and waits while BUSY; at the end BUSY falls, a read stores its data, and a GO that waits is accepted. -/
def Obligations.LinksPauseFramesAndMdio : Prop :=
  ∀ (s : State) (m : Master) (n : Fin 8) (i : Fin 2) (sp : Fin 5) (p : Fin 8) (ver lock rx : Bool) (v : Word)
    (data : BitVec 16), s.storesWf →
    let e := s.eth[n]
    let mode := s.ethModeOf n
    let r := s.reg (ethMode n.val)
    let neg := bitOf r 8 = true ∧ (mode = 1 ∨ mode = 6)
    let x : Fin 5 := if neg then sp else if mode = 2 then 2 else if mode = 3 then 3 else if mode = 5 then 4
      else Fin.ofNat 5 (fieldOf r 4 3)
    let hot : BitVec 8 := bitsFrom 8 fun p => s.pfcTxEn n p && !s.pfcBadOf n p && !s.ringHolds n.val &&
      decide (fieldOf (s.reg (ethPfcXoff n.val p)) 0 19 ≤ s.pfcUse n p)
    let pauses := fun (ps xoff : BitVec 8) (t : State) => ∃ bs, Sends [.frame n bs] s t ∧ bs.length = 64 ∧
      slice bs 0 6 = [0x01, 0x80, 0xC2, 0x00, 0x00, 0x01] ∧ slice bs 6 6 = s.portAddr n ∧ be16At bs 12 = 0x8808 ∧
      be16At bs 14 = 0x0101 ∧ be16At bs 16 = ps.toNat ∧
      ∀ p < 8, be16At bs (18 + 2 * p) =
        if ps.getLsbD p && xoff.getLsbD p then fieldOf (s.reg (ethPfcTime n.val)) 0 16 else 0
    let counts := [ethTxPfcCnt n.val, ethTxFramesLo n.val, ethTxFramesLo n.val + 4, ethTxBytesLo n.val, ethTxBytesLo n.val + 4]
    (s.en (.eth n) = false ∨ mode = 0 ∨ s.portGated n.val = true ∨ s.fenced (10 + n.val) = true →
      Idle (.linkUp n sp ver) s) ∧
    (s.en (.eth n) = true → 0 < mode → mode < 7 → s.portGated n.val = false → s.fenced (10 + n.val) = false →
      e.up = true → e.speed = x → Ends (.linkUp n sp ver) s fun t =>
        (∀ k : Fin 2, t.ring[k] = { s.ring[k] with los := setBit s.ring[k].los n.val false }) ∧ Framed [.ring] [] [] s t) ∧
    (s.en (.eth n) = true → 0 < mode → mode < 7 → s.portGated n.val = false → s.fenced (10 + n.val) = false →
      (e.up = false → e.tx = none → Ends (.linkUp n sp ver) s fun t =>
        t.eth = vset s.eth n { e with up := true, speed := x, hdRefused := false, xoff := e.xoff ||| hot, pfcPend := 0 } ∧
        bitOf (t.reg (ethLink n.val)) 31 = true ∧ fieldOf (t.reg (ethLink n.val)) 0 3 = x.val ∧
        bitOf (t.reg (ethLink n.val)) 29 = serdesMode mode ∧
        t.swc = { s.swc with gates := vset s.swc.gates n { s.swc.gates[n] with verified := ver } } ∧
        (∀ k : Fin 2, t.ring[k] = { s.ring[k] with los := setBit s.ring[k].los n.val false }) ∧
        (hot = 0 → Framed [.eth, .swc, .ring] [ethLink n.val] [] s t) ∧
        (hot ≠ 0 → pauses hot (e.xoff ||| hot) t ∧ t.reg (ethTxPfcCnt n.val) = s.reg (ethTxPfcCnt n.val) + 1) ∧
        Framed [.eth, .swc, .ring] (ethLink n.val :: counts) [] s t) ∧
      (e.up = true → e.speed ≠ x → Ends (.linkUp n sp ver) s fun t => t.eth[n].up = true ∧ t.eth[n].speed = x ∧
        t.reg (ethLinkDownCnt n.val) = s.reg (ethLinkDownCnt n.val) + 1)) ∧
    (e.up = false → Ends (.linkDown n lock rx) s fun t =>
      t.reg (ethLink n.val) = setBit (s.reg (ethLink n.val)) 29 (lock && serdesMode mode) ∧
      Framed [] [ethLink n.val] [] s t) ∧
    (e.up = true → s.badHead = none → Ends (.linkDown n lock rx) s fun t =>
      t.eth[n].up = false ∧ t.eth[n].tx = none ∧ t.eth[n].pre = none ∧ t.eth[n].paused = 0 ∧ t.eth[n].speed = e.speed ∧
      t.eth[n].tsq = e.tsq ∧ bitOf (t.reg (ethLink n.val)) 31 = false ∧
      t.reg (ethLinkDownCnt n.val) = s.reg (ethLinkDownCnt n.val) + 1 ∧
      t.reg (ethTxAbortCnt n.val) = s.reg (ethTxAbortCnt n.val) + w32 (b2n e.tx.isSome + b2n e.pre.isSome) ∧
      t.reg (ethRxCodeCnt n.val) = s.reg (ethRxCodeCnt n.val) + w32 (b2n rx) ∧
      t.swc.queues = s.swc.queues.filter (fun q => !decide (q.lp.val = n.val)) ∧
      t.tab .swc 6 (16 * n.val + 6) = s.tab .swc 6 (16 * n.val + 6) +
        w32 (s.swc.queues.filter (fun q => decide (q.lp.val = n.val) && !s.sending q)).length ∧
      (∀ d : Fin 4, t.dom[d] = if s.dom[d].syntEn = true ∧ s.dom[d].syntPort = n then
        { s.dom[d] with holdover := true, clean := false } else s.dom[d]) ∧
      Framed [.eth, .swc, .dom, .free]
        (ethLink n.val :: ethLinkDownCnt n.val :: ethTxAbortCnt n.val :: ethRxCodeCnt n.val :: pfcRegs) [tabKey (blkIdx .swc) 6 (16 * n.val + 6)] s t) ∧
    (let runs := s.en (.eth n) = true ∧ bitOf r 8 = true ∧ (mode = 1 ∨ mode = 2 ∨ mode = 6) ∧ e.up = false
     (runs → Ends (.halfDuplexNegotiated n) s fun t => t.eth = vset s.eth n { e with hdRefused := true } ∧
       Framed [.eth] [] [] s t) ∧
     (¬ runs → Idle (.halfDuplexNegotiated n) s)) ∧
    (let again : BitVec 8 := bitsFrom 8 fun p => e.xoff.getLsbD p && s.pfcTxEn n p && !s.pfcBadOf n p
     (s.ringHolds n.val = true → Idle (.pfcRefresh n) s) ∧
     (s.ringHolds n.val = false → again = 0 → e.pfcPend = 0 → Idle (.pfcRefresh n) s) ∧
     (s.ringHolds n.val = false → e.tx.isSome = true → Ends (.pfcRefresh n) s fun t =>
       t.eth = vset s.eth n { e with pfcPend := e.pfcPend ||| again } ∧ Framed [.eth] [] [] s t) ∧
     (s.ringHolds n.val = false → e.tx = none → e.up = true → e.pfcPend ||| again ≠ 0 → Ends (.pfcRefresh n) s fun t =>
       t.eth = vset s.eth n { e with pfcPend := 0 } ∧ pauses (e.pfcPend ||| again) e.xoff t ∧
       t.reg (ethTxPfcCnt n.val) = s.reg (ethTxPfcCnt n.val) + 1 ∧ Framed [.eth] counts [] s t)) ∧
    (Ends (.pauseTimerExpire n p) s fun t =>
      t.eth = vset s.eth n { e with paused := setBit e.paused p.val false, pauseQ := vset e.pauseQ p 0 } ∧
      Framed [.eth] [] [] s t) ∧
    (let k : Fin 8 := Fin.ofNat 8 i.val
     let md := s.eth[k].mdio
     let none_ := fun w : Word => bitOf w 29 = false ∧ (fieldOf w 27 2 = 0 ∨ fieldOf w 27 2 = 3)
     let f := v &&& 0x3FFEFFFF#32
     let is := fun (t : State) y => t.eth = vset s.eth k { s.eth[k] with mdio := y }
     (Open s m true (ethMdioCmd i.val) →
       (bitOf v 31 = false → Ends (.mdioGo m i v) s fun t => t.reg (ethMdioCmd i.val) = f ∧
         Framed [] [ethMdioCmd i.val] [] s t) ∧
       (bitOf v 31 = true → md.busy = true → Ends (.mdioGo m i v) s fun t => t.reg (ethMdioCmd i.val) = f ∧
         is t { md with goWait := true } ∧ Framed [.eth] [ethMdioCmd i.val] [] s t) ∧
       (bitOf v 31 = true → md.busy = false → ¬ none_ f → Ends (.mdioGo m i v) s fun t => t.reg (ethMdioCmd i.val) = f ∧
         is t ⟨true, false, f⟩ ∧ Sends [.mdio i f] s t ∧ Framed [.eth] [ethMdioCmd i.val] [] s t) ∧
       (bitOf v 31 = true → md.busy = false → none_ f → Ends (.mdioGo m i v) s fun t => t.reg (ethMdioCmd i.val) = f ∧
         is t { md with goWait := false } ∧ t.reg (blkBase (.eth k) + 8) = s.reg (blkBase (.eth k) + 8) + 1 ∧
         Framed [.eth] [ethMdioCmd i.val, blkBase (.eth k) + 8] [] s t)) ∧
     (md.busy = false → Idle (.mdioDone i data) s) ∧
     (md.busy = true →
       let reads := if bitOf md.cmd 29 then fieldOf md.cmd 27 2 = 2 ∨ fieldOf md.cmd 27 2 = 3 else fieldOf md.cmd 27 2 = 2
       let g := s.reg (ethMdioCmd i.val)
       let stored := fun t : State =>
         t.reg (ethMdioRdata i.val) = if reads then data.setWidth 32 else s.reg (ethMdioRdata i.val)
       (md.goWait = false → Ends (.mdioDone i data) s fun t => is t { md with busy := false } ∧ stored t ∧
         Framed [.eth] [ethMdioRdata i.val] [] s t) ∧
       (md.goWait = true → ¬ none_ g → Ends (.mdioDone i data) s fun t => is t ⟨true, false, g⟩ ∧ stored t ∧
         Sends [.mdio i g] s t ∧ Framed [.eth] [ethMdioRdata i.val] [] s t)))

/-- A port not running takes no frame; in hold a frame is discarded and counted. Else the first check that fails counts once and drops the frame: code errors, a fragment where preemption is off among them; length above MAXLEN, 32 more with MACsec; the FCS; length below 64; the group-address filter. The ports that had begun a frame too long or of a bad FCS cut-through end it, each counted. A fragment sequence that does not reassemble counts at the switch. A frame that passes, without MACsec, is counted with its bytes and waits stamped at its logical port, or is lost while the switch takes none. -/
def Obligations.FramesAreCheckedInOrder : Prop :=
  ∀ (s : State) (n : Fin 8) (code frag reasm : Bool) (bs : List Byte) (ph : Fin 16) (st : BitVec 8), s.storesWf →
    let c := Instr.frameReceive n code bs ph frag reasm st
    let runs := s.eth[n].up = true ∧ s.portGated n.val = false ∧ s.fenced (10 + n.val) = false
    let only := fun a => Ends c s fun t => t.reg a = s.reg a + 1 ∧ Framed [] [a] [] s t
    let body := bs.take (bs.length - 4)
    let sound := 4 ≤ bs.length ∧ bs.drop (bs.length - 4) = fcsBytes body
    let max := fieldOf (s.reg (ethMaxlen n.val)) 0 14 + (if bitOf (s.reg (ethMsecCfg n.val)) 0 then 32 else 0)
    (¬ runs → Idle c s) ∧
    (runs → s.inHold (.eth n) = true → only (ethRxHoldCnt n.val)) ∧
    (runs → s.inHold (.eth n) = false →
      let pmac := bitOf (s.reg (swcPPmacCfg n.val)) 0
      (code = false ∨ (frag = true ∧ pmac = false) → only (ethRxCodeCnt n.val)) ∧
      (code = true → frag = true → pmac = true → reasm = false → only (swcPReasmErrCnt n.val)) ∧
      (code = true → frag = false ∨ (pmac = true ∧ reasm = true) →
        let lp : Fin 22 := Fin.ofNat 22 n.val
        let ended := fun a came begun => Ends c s fun t =>
          let q := (s.count a).routeIn lp ⟨came, some (s.rxStamp n ph), frag, ⟨.none, 0, 0, none, none, none⟩, .wire⟩
          let es := if q.2.code = 0 && s.swcTakes then
              q.1.cutPorts lp { q.2 with cls := q.1.classOf lp q.2, ct := true } begun else []
          t.reg a = s.reg a + 1 ∧ (es = [] → Framed [] [a] [] s t) ∧
          t.reg swcCtCnt = s.reg swcCtCnt + w32 es.length ∧
          (∀ k : Fin 8, t.reg (ethTxAbortCnt k.val) = s.reg (ethTxAbortCnt k.val) + w32 (b2n (es.contains k))) ∧
          (∀ k ∈ es, begun.getLsbD k.val = true ∧ ∃ l v, Output.frameAbort k l v ∈ t.out.drop s.out.length) ∧
          Framed [.swc, .free] ([a, swcCtCnt, swcMoveCnt, swcLearnFullCnt, swcSmpDropCnt, swcSmpPi, swcSmpMergeCnt] ++
            (List.range 8).map ethTxAbortCnt) ([0, 2, 3, 6].flatMap fun sp => words .swc sp 0 (2 ^ 24)) s t
        (max < bs.length → ended (ethRxLongCnt n.val) (bs.take max) st) ∧
        (bs.length ≤ max → ¬ sound → ended (ethRxFcsCnt n.val) body (if bs.length < 64 then 0 else st)) ∧
        (bs.length ≤ max → sound → bs.length < 64 → only (ethRxRuntCnt n.val)) ∧
        (64 ≤ bs.length → bs.length ≤ max → sound → s.msecEn n = false → be16At body 12 ≠ 0x8808 →
          let da := body.take 6
          let h := fieldOf (crc32 da) 20 12
          let passes := bitOf (s.reg (ethFilt n.val)) 0 = false ∨ (byteAt da 0).getLsbD 0 = false ∨
            da = List.replicate 6 0xFF ∨ bitOf (s.tab (.eth n) 0 (h / 32)) (h % 32) = true
          (¬ passes → only (ethRxFiltCnt n.val)) ∧
          (passes → s.swcTakes = false → Idle c s) ∧
          (passes → s.swcTakes = true → Ends c s fun t =>
            t.swc = { s.swc with ingress := s.swc.ingress ++
              [⟨Fin.ofNat 22 n.val, ⟨body, some (s.rxStamp n ph), frag, ⟨.none, 0, 0, none, none, none⟩, .wire⟩, true⟩] } ∧
            (t.reg (ethRxFramesLo n.val)).toNat + 2 ^ 32 * (t.reg (ethRxFramesLo n.val + 4)).toNat =
              ((s.reg (ethRxFramesLo n.val)).toNat + 2 ^ 32 * (s.reg (ethRxFramesLo n.val + 4)).toNat + 1) % 2 ^ 64 ∧
            (t.reg (ethRxBytesLo n.val)).toNat + 2 ^ 32 * (t.reg (ethRxBytesLo n.val + 4)).toNat =
              ((s.reg (ethRxBytesLo n.val)).toNat + 2 ^ 32 * (s.reg (ethRxBytesLo n.val + 4)).toNat + bs.length) % 2 ^ 64 ∧
            Framed [.swc] [ethRxFramesLo n.val, ethRxFramesLo n.val + 4, ethRxBytesLo n.val, ethRxBytesLo n.val + 4]
              [] s t))))

/-- A frame of EtherType 0x8808 that passes the checks before is never handed to the switch. With opcode 0x0101 it acts as R186 says: it counts, loads the pause timer of each enabled priority whose bit is set, a time of 0 ending the pause, and counts once as ignored where a set bit is not enabled; with any other opcode it only counts in ETH_RX_MACCTL_IGN_CNT. -/
def Obligations.MacControlFramesAreConsumed : Prop :=
  ∀ (s : State) (n : Fin 8) (frag : Bool) (bs : List Byte) (ph : Fin 16) (st : BitVec 8), s.storesWf →
    s.portRuns n = true → s.inHold (.eth n) = false → s.msecEn n = false → 64 ≤ bs.length →
    bs.length ≤ fieldOf (s.reg (ethMaxlen n.val)) 0 14 → bs.drop (bs.length - 4) = fcsBytes (bs.take (bs.length - 4)) →
    be16At bs 12 = 0x8808 → frag = false ∨ bitOf (s.reg (swcPPmacCfg n.val)) 0 = true →
    let e := s.eth[n]
    let rxEn := fieldOf (s.reg (ethPfcCfg n.val)) 8 8
    let set := be16At bs 16
    Ends (.frameReceive n true bs ph frag true st) s fun t =>
      t.swc = s.swc ∧
      (be16At bs 14 ≠ 0x0101 → t.reg (ethRxMacctlIgnCnt n.val) = s.reg (ethRxMacctlIgnCnt n.val) + 1 ∧
        Framed [] [ethRxMacctlIgnCnt n.val] [] s t) ∧
      (be16At bs 14 = 0x0101 → t.reg (ethRxPfcCnt n.val) = s.reg (ethRxPfcCnt n.val) + 1 ∧
        Framed [.eth] [ethRxPfcCnt n.val, ethRxPfcIgnCnt n.val] [] s t ∧
        (∀ k : Fin 8, k ≠ n → t.eth[k] = s.eth[k]) ∧
        (s.ringHolds n.val = true → t.eth = s.eth ∧ t.reg (ethRxPfcIgnCnt n.val) = s.reg (ethRxPfcIgnCnt n.val) + 1) ∧
        (s.ringHolds n.val = false →
          t.eth[n] = { e with paused := t.eth[n].paused, pauseQ := t.eth[n].pauseQ } ∧
          (∀ p : Fin 8, set.testBit p.val = true → rxEn.testBit p.val = true →
            t.eth[n].paused.getLsbD p.val = decide (be16At bs (18 + 2 * p.val) ≠ 0) ∧
            t.eth[n].pauseQ[p] = BitVec.ofNat 16 (be16At bs (18 + 2 * p.val))) ∧
          (∀ p : Fin 8, set.testBit p.val = false ∨ rxEn.testBit p.val = false →
            t.eth[n].paused.getLsbD p.val = e.paused.getLsbD p.val ∧ t.eth[n].pauseQ[p] = e.pauseQ[p]) ∧
          ((∃ p < 8, set.testBit p = true ∧ rxEn.testBit p = false) →
            t.reg (ethRxPfcIgnCnt n.val) = s.reg (ethRxPfcIgnCnt n.val) + 1) ∧
          ((∀ p < 8, set.testBit p = true → rxEn.testBit p = true) →
            t.reg (ethRxPfcIgnCnt n.val) = s.reg (ethRxPfcIgnCnt n.val))))

/-- At an entry's end the next takes effect with its states, its OP holding or releasing the MAC; after the last its states hold. SWAP with EN 0 exchanges the banks now, with EN 1 at the next start event. A sweep clears HIT of the dynamic entries that have it and invalidates those without; AGE_TIME 0 stops it. A recovery timeout resets the stream's history. A corrected buffer error counts; an uncorrectable one counts and frees its frame, with BUF_UE where it has not begun to leave. A die is retired when its errors within a second exceed the limit, when its interface fails, or by command: fenced and logged, its frames lost; retiring the only die left by command is refused, and with no die left the buffer manager is fenced for good. -/
def Obligations.GatesAgingBufferErrorsAndDies : Prop :=
  ∀ (s : State) (m : Master) (n : Fin 8) (d : Fin 2) (en itf : Bool) (dies : BitVec 2) (k : Fin 256) (fr : Nat)
    (pl : BufPlace), s.storesWf →
    (let g := s.swc.gates[n]
     let gated := s.gateEn n.val = true ∧ g.started = true ∧ g.done = false
     let len := fieldOf (s.reg (swcPGateOplen n.val)) 0 9
     let gateIs := fun y t => t.swc = { s.swc with gates := vset s.swc.gates n y }
     (¬ gated → Idle (.gateEntryExpire n) s) ∧
     (gated → len ≤ g.entry + 1 → Ends (.gateEntryExpire n) s fun t => gateIs { g with done := true } t ∧
       Framed [.swc] [] [] s t) ∧
     (gated → g.entry + 1 < len →
       let w := s.tab .swc 4 ((256 * (2 * n.val + b2n g.bank) + g.entry + 1) * 2)
       let hold := match fieldOf w 8 2 with | 1 => true | 2 => false | _ => g.holdMac
       Ends (.gateEntryExpire n) s fun t =>
         gateIs { g with entry := g.entry + 1, since := s.clk.tick, holdMac := hold, done := false } t ∧
         t.gates8 n = fieldOf w 0 8 ∧ Framed [.swc] [] [] s t) ∧
     (Open s m true (swcPGateCtrl n.val) → Ends (.gateSwap m n en) s fun t =>
       bitOf (t.reg (swcPGateCtrl n.val)) 0 = en ∧ Framed [.swc] [swcPGateCtrl n.val, swcPGateOplen n.val] [] s t ∧
       (en = false → gateIs { g with bank := !g.bank, swap := false, holdMac := false } t ∧
         t.reg (swcPGateOplen n.val) = s.reg (swcPGateLen n.val)) ∧
       (en = true → t.reg (swcPGateOplen n.val) = s.reg (swcPGateOplen n.val) ∧
         (s.gateEn n.val = true → gateIs { g with swap := true } t) ∧
         (s.gateEn n.val = false →
           gateIs { g with started := false, entry := 0, done := false, holdMac := false, swap := true } t ∧
           t.gates8 n = 255)))) ∧
    (fieldOf (s.reg swcAgeTime) 0 16 = 0 → Idle .fdbAgeSweep s) ∧
    (fieldOf (s.reg swcAgeTime) 0 16 ≠ 0 → Ends .fdbAgeSweep s fun t => Framed [] [] (words .swc 0 0 (2 ^ 24)) s t ∧
      ∀ e < 2 ^ 22, let w := s.tab .swc 0 (4 * e)
        t.tab .swc 0 (4 * e) = (if bitOf w 31 = true ∧ bitOf w 30 = false then
          (if bitOf w 29 then setBit w 29 false else setBit w 31 false) else w) ∧
        ∀ i ∈ [1, 2, 3], t.tab .swc 0 (4 * e + i) = s.tab .swc 0 (4 * e + i)) ∧
    (Ends (.seqRecTimeout k) s fun t =>
      t.streamSt k = { s.streamSt k with takeAny := true, hist := 0 } ∧
      (∀ j : Fin 256, j ≠ k → t.streamSt j = s.streamSt j) ∧
      t.swc = { s.swc with streams := t.swc.streams } ∧ Framed [.swc] [] [] s t) ∧
    (Ends (.bufferUe fr pl true) s fun t =>
      let a := if pl = .express then bfmExpCeCnt else bfmCeCnt
      t.reg a = s.reg a + 1 ∧ Framed [] [a] [] s t) ∧
    (Ends (.bufferUe fr pl false) s fun t =>
      let a := if pl = .express then bfmExpUeCnt else bfmUeCnt
      let gone := s.swc.queues.filter fun q => decide (q.fid = fr)
      t.reg a = s.reg a + 1 ∧ (∀ q ∈ t.swc.queues, q.fid ≠ fr) ∧
      ((∀ f ∈ s.swc.stored, f.bad = false) →
        t.swc.queues = s.swc.queues.filter (fun q => !decide (q.fid = fr)) ∧
        ∀ lp : Fin 22, t.tab .swc 6 (16 * lp.val + 10) = s.tab .swc 6 (16 * lp.val + 10) +
          w32 (gone.filter fun q => decide (q.lp = lp) && !s.sending q).length) ∧
      (∀ f ∈ t.swc.stored, f.fid ≠ fr) ∧
      (pl = .die d → (if d = 0 then t.swc.ue0 else t.swc.ue1) = s.clk.tick ::
        (if d = 0 then s.swc.ue0 else s.swc.ue1).filter fun x => decide (s.clk.tick ≤ x + 500000000)) ∧
      Framed [.swc, .eth, .free] (a :: pfcRegs ++ (List.range 8).map ethTxAbortCnt)
        ((List.range 22).map fun lp => tabKey (blkIdx .swc) 6 (16 * lp + 10)) s t) ∧
    (let recent := ((if d = 0 then s.swc.ue0 else s.swc.ue1).filter fun x => decide (s.clk.tick ≤ x + 500000000)).length
     let due := itf = true ∨ fieldOf (s.reg bfmDieUeLimit) 0 8 < recent
     let holds := fun f : Stored => decide ((if d = 0 then f.cells0 else f.cells1) ≠ 0)
     let lostAt := fun (p : Fin 8) (x : TxNow) => ∃ q ∈ s.swc.queues, q.lp.val = p.val ∧ q.fid = x.fid ∧
       ∃ f, s.storedOf q.fid = some f ∧ (f.bad = true ∨ holds f = true)
     let parts := fun t : State => t.retired d.val = true ∧ t.badHead = none ∧
       (∀ f ∈ t.swc.stored, ∃ g ∈ s.swc.stored, f = if holds g then { g with bad := true } else g) ∧
       (∀ p : Fin 8, t.eth[p].tsq = s.eth[p].tsq ∧ ∀ x, s.eth[p].tx = some x →
         (lostAt p x → t.eth[p].tx = none) ∧ (¬ lostAt p x → t.eth[p].tx = some x))
     let frame := Framed [.swc, .eth, .flt, .free] (fltFaultCnt :: pfcRegs ++ (List.range 8).map ethTxAbortCnt)
       (faultLogWords ++ (List.range 22).map fun lp => tabKey (blkIdx .swc) 6 (16 * lp + 10)) s
     ((s.retired d.val = true ∨ ¬ due) → Idle (.dieRetire d itf) s) ∧
     (due → s.retired 0 = false → s.retired 1 = false → InService (21 + d.val) s → Ends (.dieRetire d itf) s fun t =>
       parts t ∧ NewlyFenced (21 + d.val) 0x08 s t ∧ frame t) ∧
     (due → s.retired d.val = false → s.retired (1 - d).val = true → Ends (.dieRetire d itf) s fun t =>
       t.retired 0 = true ∧ t.retired 1 = true ∧ t.fenced 20 = true ∧ t.flt.perm.getLsbD 20 = true ∧
       ∀ q ∈ t.swc.queues, ∀ f, s.storedOf q.fid = some f → f.cells0 + f.cells1 = 0) ∧
     (Open s m true bfmCmd →
       (dies = 0 ∨ (dies = BitVec.ofNat 2 (2 ^ d.val) ∧ s.retired d.val = true) → Idle (.bfmRetire m dies) s) ∧
       (dies = BitVec.ofNat 2 (2 ^ d.val) → s.retired d.val = false → s.retired (1 - d).val = true →
         Ends (.bfmRetire m dies) s (Rejected .bfm (bfmCmd % 2 ^ 22) s)) ∧
       (dies = 3 → s.retired 0 = false → s.retired 1 = false → InService 21 s →
         Ends (.bfmRetire m dies) s fun t => t.retired 0 = true ∧ t.retired 1 = false ∧
           t.reg (blkBase .bfm + 8) = s.reg (blkBase .bfm + 8) + 1) ∧
       (dies = BitVec.ofNat 2 (2 ^ d.val) → s.retired 0 = false → s.retired 1 = false → InService (21 + d.val) s →
         Ends (.bfmRetire m dies) s fun t => parts t ∧ NewlyFenced (21 + d.val) 0x08 s t ∧ frame t)))

/-- The first frame that waits at a logical port is taken; while the switch takes none, one taken before. An untagged one where DROP_UNTAGGED holds, and one whose VLAN entry is not valid or lacks the port, drops with VLAN. One in a stream counts there; above MAX_SDU, its stream gate closed, or out of its meter's level it drops with those reasons. Its destinations are those of its FDB entry, or flooding, less non-members and its own port; none left drops with NO_DEST. Where both enable it, an unknown source is learnt in the lowest free way of its bucket. A best-effort frame for which the free cells above the floor suffice is stored with its cells and joins the queue of its TC at each destination; else it drops with NO_BUFFER, or waits at an internal port. -/
def Obligations.FramesAreClassifiedAndAdmitted : Prop :=
  ∀ (s : State) (lp : Fin 22) (f : Frame) (rest : List Ingress), s.storesWf →
    (takeIngress lp s.swcTakes s.swc.ingress = none → Idle (.frameClassify lp) s) ∧
    (takeIngress lp s.swcTakes s.swc.ingress = some (f, rest) → f.origin = .wire →
      f.req = ⟨.none, 0, 0, none, none, none⟩ → be16At f.bytes 12 ≠ 0x888E → s.fenced 20 = false →
      (∀ r < 32, bitOf (s.tab .swc 3 (4 * r)) 31 = false) →
      let bs := f.bytes
      let e := s.lpWord lp.val 0
      let tagged := s.isTpid (be16At bs 12)
      let vid := if tagged && be16At bs 14 % 4096 ≠ 0 then be16At bs 14 % 4096 else fieldOf e 0 12
      let pcp := if tagged then be16At bs 14 / 8192 else fieldOf e 16 3
      let tc := fieldOf (s.lpWord lp.val 1) (3 * pcp) 3
      let len := bs.length + 4
      let ctr := fun reason => tabKey (blkIdx .swc) 6 (16 * lp.val + reason)
      let drop := fun reason tabs => Ends (.frameClassify lp) s fun t =>
        t.swc = { s.swc with ingress := rest, streams := t.swc.streams } ∧
        t.tab .swc 6 (16 * lp.val + reason) = s.tab .swc 6 (16 * lp.val + reason) + 1 ∧
        Framed [.swc] [] (ctr reason :: tabs) s t
      let bare := tagged = false ∧ bitOf e 14 = true
      let v0 := s.tab .swc 1 (4 * vid)
      let v1 := s.tab .swc 1 (4 * vid + 1)
      let member := bitOf v0 31 = true ∧ bitOf v1 lp.val = true
      (bare → drop 1 []) ∧
      (¬ bare → ¬ member → drop 1 []) ∧
      (∀ k : Fin 256, ¬ bare → member → s.streamOf bs vid = some k →
        let w := fun i => s.tab .swc 2 (8 * k.val + i)
        let c := tabKey (blkIdx .swc) 2 (8 * k.val + 7)
        let tc' := if bitOf (w 0) 27 then fieldOf (w 0) 24 3 else tc
        let gate : Fin 8 := Fin.ofNat 8 (fieldOf (w 3) 28 3)
        let shut := bitOf (w 3) 31 = true ∧ (s.gates8 gate).testBit tc' = false
        let x := s.streamSt k
        let now := min (31250 * (fieldOf (w 4) 0 16 * 512)) (x.level + (s.clk.tick - x.atTick) * fieldOf (w 3) 0 20)
        let long := fieldOf (w 2) 16 14 ≠ 0 ∧ fieldOf (w 2) 16 14 < len
        bitOf (w 0) 22 = false →
        (long → drop 2 [c]) ∧ (¬ long → shut → drop 3 [c]) ∧
        (¬ long → ¬ shut → fieldOf (w 3) 0 20 ≠ 0 → now < 31250 * (8 * len) → drop 4 [c])) ∧
      (¬ bare → member → s.streamOf bs vid = none → reservedDa (bs.take 6) = false →
        let fid := fieldOf v0 0 12
        let hit := s.fdbFind fid (bs.take 6)
        let found : BitVec 22 := match hit with
          | some h => (s.tab .swc 0 (4 * h + 3)).setWidth 22
          | none => if (byteAt bs 0).getLsbD 0 then (s.reg swcMcFlood).setWidth 22 else (s.reg swcFlood).setWidth 22
        let m := setBit (found &&& v1.setWidth 22) lp.val false
        (∀ k < 10, m.getLsbD k = true → s.egressDown k = false ∧ (k < 8 → s.portGated k = false)) →
        (m = 0 → drop 5 []) ∧
        (m ≠ 0 → m &&& 0x2FFC00#22 = 0 → bitOf (s.lpWord lp.val 3) tc = false →
          (∀ k < 22, bitOf (s.lpWord k 2) (8 + tc) = false) →
          (∀ q ∈ s.swc.stored, q.bad = false ∧ s.swc.queues.any (fun p => p.fid = q.fid) = true) →
          let cells := unitsOf len
          let room := cells + s.halved (fieldOf (s.reg bfmBeFloor) 0 19) ≤ s.ipbFree
          let learns := bitOf v0 30 = true ∧ bitOf e 15 = true
          let sa := slice bs 6 6
          let b := 4 * fdbBucket fid sa
          let ways := [0, 1, 2, 3]
          (¬ learns → ¬ room → lp.val < 8 → drop 8 []) ∧
          (¬ learns → ¬ room → 8 ≤ lp.val → Idle (.frameClassify lp) s) ∧
          (room → (∀ k < 22, m.getLsbD k = true → s.depth k tc + cells ≤ s.halved (fieldOf (s.lpWord k (4 + tc)) 0 19) ∧
              s.depth k tc < s.halved (fieldOf (s.lpWord k (12 + tc)) 0 19)) →
            let joins := fun t : State =>
              t.swc.queues = s.swc.queues ++ ((List.range 22).filter fun k => m.getLsbD k).map (fun k =>
                ⟨s.swc.nextFid, Fin.ofNat 22 k, Fin.ofNat 8 tc, cells, false, false, 0, []⟩) ∧
              ∃ a b, t.swc.stored = s.swc.stored ++ [⟨s.swc.nextFid, f, lp, f.stamp.getD ⟨s.time 0, 0, s.stampDeg 0⟩, .be,
                Fin.ofNat 8 tc, s.sliceBOf lp.val, 0, a, b,
                none, BitVec.ofNat 12 vid, tagged, pcp, false⟩] ∧ a + b = cells
            (¬ learns → Ends (.frameClassify lp) s fun t => joins t ∧ t.swc.ingress = rest ∧
              Framed [.swc, .eth, .free] pfcRegs [] s t) ∧
            (∀ way, learns → s.fdbFind fid sa = none →
              ways.find? (fun w => !bitOf (s.tab .swc 0 (4 * (b + w))) 31) = some way →
              Ends (.frameClassify lp) s fun t => joins t ∧
                t.tab .swc 0 (4 * (b + way)) = w32 (2 ^ 31 + 2 ^ 29 + fid) ∧
                t.tab .swc 0 (4 * (b + way) + 1) = w32 (be32At sa 2) ∧
                t.tab .swc 0 (4 * (b + way) + 2) = w32 (be16At sa 0) ∧
                t.tab .swc 0 (4 * (b + way) + 3) = w32 (2 ^ lp.val) ∧
                Framed [.swc, .eth, .free] pfcRegs (words .swc 0 (4 * (b + way)) 4) s t)))))

/-- A port that is down, gated, fenced or held by a ring transmits nothing; one disabled and at rest loses its link. At a boundary the frame in transmission has left with its FCS and is counted, or withheld by a paired SHADOW unless EAPOL; its place goes, or its send goes on with the next frame. Then the highest-numbered queue whose head may start, starts: without gates, the highest not held by a pause of its data class. It leaves tagged as its port is and padded to 60 bytes, a send's frame i as cut; a two-step request queues its stamp; a lost frame is freed with BUF_UE. Where no head may start a preempted frame goes on. Inside a preemptable frame nothing happens unless the MAC is held or an express frame may start; then it is preempted, counted, if each part keeps 64 bytes. -/
def Obligations.FramesLeaveAtFrameBoundaries : Prop :=
  ∀ (s : State) (n : Fin 8) (ph : Fin 16) (pre : Bool), s.storesWf →
    let e := s.eth[n]
    let runs := e.up = true ∧ s.portGated n.val = false ∧ s.fenced (10 + n.val) = false ∧ s.ringHolds n.val = false
    let may := runs ∧ s.en (.eth n) = true
    let head := fun q => s.swc.queues.find? fun p => p.lp.val = n.val && p.tc.val = q
    let put := fun y (t : State) => t.eth = vset s.eth n y
    let open_ := s.gateEn n.val = false ∧ bitOf (s.reg (swcPPmacCfg n.val)) 0 = false ∧ s.inHold (.eth n) = false
    (¬ runs → Idle (.frameTransmit n ph pre) s) ∧
    (runs → s.en (.eth n) = false → s.ethQuiet n = true → e.pfcPend = 0 → (∀ q < 8, s.eligible n q = false) →
      Ends (.frameTransmit n ph pre) s fun t => t.eth[n].up = false ∧
        t.reg (ethLinkDownCnt n.val) = s.reg (ethLinkDownCnt n.val) + 1) ∧
    (may → open_ → ∀ q < 8, ∀ h st, head q = some h → s.storedOf h.fid = some st →
      s.eligible n q = !(e.paused.getLsbD q && decide (st.cls = .data))) ∧
    (may → ∀ x, e.tx = some x → e.pfcPend = 0 →
      let w64 := fun a (t : State) => (t.reg a).toNat + 2 ^ 32 * (t.reg (a + 4)).toNat
      let alone := (∀ q ∈ s.swc.queues, q.lp.val = n.val → q.fid = x.fid) ∧ x.last = true ∧ e.pre = none ∧
        (∀ f ∈ s.swc.stored, f.bad = false) ∧ ∀ k : Fin 8, s.eth[k].pfcPend = 0 ∧ ∀ p < 8, s.pfcTxEn k p = false
      let frees := fun t : State => t.eth[n].tx = none ∧
        t.swc.queues = s.swc.queues.filter (fun q => !decide (q.lp.val = n.val ∧ q.fid = x.fid)) ∧ t.tabs = s.tabs
      (s.shadowPort n = false ∨ be16At x.bytes 12 = 0x888E →
        Ends (.frameTransmit n ph false) s fun t => Sends [.frame n (x.bytes ++ fcsBytes x.bytes)] s t ∧
          (alone → frees t ∧ w64 (ethTxFramesLo n.val) t = (w64 (ethTxFramesLo n.val) s + 1) % 2 ^ 64 ∧
            w64 (ethTxBytesLo n.val) t = (w64 (ethTxBytesLo n.val) s + x.bytes.length + 4) % 2 ^ 64 ∧
            Framed [.swc, .eth] [ethTxFramesLo n.val, ethTxFramesLo n.val + 4, ethTxBytesLo n.val,
              ethTxBytesLo n.val + 4] [] s t)) ∧
      (s.shadowPort n = true → be16At x.bytes 12 ≠ 0x888E → alone → Ends (.frameTransmit n ph false) s fun t =>
        frees t ∧ (∀ k bs, Output.frame k bs ∉ t.out.drop s.out.length) ∧ Framed [.swc, .eth] [] [] s t)) ∧
    (may → e.tx = none → e.pfcPend = 0 → e.pre = none → (∀ q < 8, s.eligible n q = false) →
      Idle (.frameTransmit n ph pre) s) ∧
    (may → e.tx = none → e.pfcPend = 0 → (∀ q < 8, s.eligible n q = false) → ∀ x, e.pre = some x →
      s.swc.gates[n].holdMac = false → Ends (.frameTransmit n ph false) s fun t =>
        put { e with tx := some x, pre := none } t ∧ Framed [.eth] [] [] s t) ∧
    (may → e.tx = none → e.pfcPend = 0 → s.msecEn n = false → ∀ q < 8, ∀ h st, head q = some h →
      s.storedOf h.fid = some st → s.eligible n q = true → (∀ p, q < p → p < 8 → s.eligible n p = false) →
      let tag := s.tagFor st.tagged st.vid.toNat st.pcp n.val
      let starts := fun body last (t : State) => t.eth[n].tx = some ⟨padFrame (tag body), h.fid, h.tc, h.units, h.seg, last,
        st.f.req.mode = .oneOrigin || st.f.req.mode = .oneCorr, 0⟩
      let plain := st.bad = false ∧ st.stream = none ∧ h.mark = false ∧ h.ct = false
      (s.gateEn n.val = true → s.swc.gates[n].started = true → (s.gates8 n).testBit q = true) ∧
      (plain → st.f.req.seg = none → st.f.req.mode = .none → Ends (.frameTransmit n ph false) s fun t =>
        starts st.f.bytes true t ∧ t.swc = s.swc ∧ (∀ k : Fin 8, k ≠ n → t.eth[k] = s.eth[k]) ∧
        t.eth[n] = { e with tx := t.eth[n].tx } ∧ Framed [.eth] [] [] s t) ∧
      (plain → st.f.req.seg = none → st.f.req.mode = .twoStep → Ends (.frameTransmit n ph false) s fun t =>
        starts st.f.bytes true t ∧
        (e.tsq.length < 16 → t.eth[n].tsq = e.tsq ++ [⟨st.f.req.tag, s.txStamp n ph⟩] ∧ Framed [.eth] [] [] s t) ∧
        (16 ≤ e.tsq.length → t.eth[n].tsq = e.tsq ∧ t.reg (ethTsqDropCnt n.val) = s.reg (ethTsqDropCnt n.val) + 1 ∧
          Framed [.eth] [ethTsqDropCnt n.val] [] s t)) ∧
      (∀ g, plain → st.f.req.seg = some g → h.seg ≠ 0 → Ends (.frameTransmit n ph false) s fun t =>
        starts (segFrame g h.tpl st.f.bytes h.seg) (decide (segCount g st.f.bytes.length ≤ h.seg + 1)) t ∧
        Framed [.eth] [] [] s t) ∧
      (∀ g, plain → st.f.req.seg = some g → h.seg = 0 → Ends (.frameTransmit n ph false) s fun t =>
        let tpl := match g.template with | some k => s.tabWords (.eth n) 1 (4 * k.val) 4 | none => []
        starts (segFrame g tpl st.f.bytes 0) (decide (segCount g st.f.bytes.length ≤ 1)) t ∧
        t.swc = { s.swc with queues := s.swc.queues.map fun p =>
          if p.lp = h.lp ∧ p.fid = h.fid then { h with tpl := tpl } else p } ∧
        t.reg (ethTsoSkipCnt n.val) = s.reg (ethTsoSkipCnt n.val) + w32 (b2n (segSkips g tpl)) ∧
        Framed [.eth, .swc] [ethTsoSkipCnt n.val] [] s t) ∧
      (st.bad = true → (∀ p ∈ s.swc.queues, if p.lp.val = n.val then p.fid = h.fid else s.lostAt p = false) → e.pre = none →
        Ends (.frameTransmit n ph false) s fun t =>
          t.tab .swc 6 (16 * n.val + 10) = s.tab .swc 6 (16 * n.val + 10) + 1 ∧ t.eth[n].tx = none ∧
          t.swc.queues = s.swc.queues.filter (fun p => !decide (p.lp.val = n.val ∧ p.fid = h.fid)) ∧
          Framed [.swc, .eth] pfcRegs [tabKey (blkIdx .swc) 6 (16 * n.val + 10)] s t)) ∧
    (may → ∀ x, e.tx = some x →
      let express := ∃ q < 8, s.preemptable n q = false ∧ s.eligible n q = true
      let ready := s.swc.gates[n].holdMac = true ∨ express
      let can := s.pmacActive n = true ∧ s.preemptable n x.tc.val = true ∧ x.fixed = false ∧ e.pre = none ∧ divides x = true
      let cut := { x with frags := x.frags + 1 }
      (¬ ready ∨ ¬ can → Idle (.frameTransmit n ph true) s) ∧
      (ready → can → Ends (.frameTransmit n ph true) s fun t =>
        t.reg (swcPPreemptCnt n.val) = s.reg (swcPPreemptCnt n.val) + 1) ∧
      (∀ q < 8, ∀ h st, can → e.pfcPend = 0 → s.msecEn n = false → head q = some h → s.storedOf h.fid = some st →
        s.preemptable n q = false → s.eligible n q = true →
        (∀ p, q < p → p < 8 → s.preemptable n p = true ∨ s.eligible n p = false) → st.bad = false → st.stream = none →
        h.mark = false → h.ct = false → st.f.req.seg = none → st.f.req.mode = .none →
        Ends (.frameTransmit n ph true) s fun t => put { e with
          pre := some cut
          tx := some ⟨padFrame (s.tagFor st.tagged st.vid.toNat st.pcp n.val st.f.bytes), h.fid, h.tc, h.units, h.seg,
            true, false, 0⟩ } t ∧ Framed [.eth] [swcPPreemptCnt n.val] [] s t) ∧
      (ready → can → ¬ express → e.pfcPend = 0 → (∀ q < 8, s.eligible n q = false) →
        Ends (.frameTransmit n ph true) s fun t => put { e with tx := none, pre := some cut } t ∧
          Framed [.eth] [swcPPreemptCnt n.val] [] s t))

/-- A master-capable node in LISTEN or MEMBER, not in hold, moves to CLAIMING after 4 PERIODs of silence, or by command; after a lost claim both wait for its EUI term too; else nothing happens. A claiming node sends a claim out of both ring ports every 100 us, with the next number, its priority, EUI, PERIOD and CFG_HASH. Another node's claim goes on; one of another configuration or a bad tag counts as ignored, a lower one ends the node's own claim. Its own claim is removed; the third return with no lower claim seen makes it BENCHMARK, starting at cycle 0. A plane beacon that verifies sets the topology to come. RING_RETURN announces the closed ring two cycles on. A hub relays beacons, and only a claim lower than those of the last 4 PERIODs. A frame on a port with its link up ends its loss of signal. -/
def Obligations.ClaimsBeaconsAndTheReturnToTheRing : Prop :=
  ∀ (s : State) (m : Master) (r : Fin 2) (n : Fin 8) (bs : List Byte) (ok : Bool), s.storesWf →
    let x := s.ring[r]
    let u := s.signalBack r n
    let y := u.ring[r]
    let hop := fun k : Fin 8 => if ok then Output.frame k (withFcs bs) else .ringAbort k bs
    let wait := 4 * s.ringPeriod r + if x.lost then s.eui64 % 4096 * 512 else 0
    let quiet := 2 * x.heard + wait ≤ 2 * s.clk.tick
    let due := x.claimAt = none ∨ ∃ t, x.claimAt = some t ∧ t + 50000 ≤ s.clk.tick
    let claims := s.ringRuns r = true ∧ s.inHold .nrg = false ∧ s.shadowed = false ∧ s.masterCap r = true ∧ (x.nst = .listen ∨ x.nst = .member)
    let is := fun c y => Ends c s fun t => RingIs r y s t ∧ Framed [.ring] [] [] s t
    let claiming := { x with nst := .claiming, claimBack := 0, lower := false, lost := false, claimAt := none }
    (y = { x with los := if s.eth[n].up then setBit x.los n.val false else x.los }) ∧
    (claims → quiet → is (.claimTimeout r) claiming) ∧ (¬ claims ∨ ¬ quiet → Idle (.claimTimeout r) s) ∧
    (Open s m true (nrgRingCmd r.val) →
      (claims → x.lost = false ∨ quiet → is (.claimNow m r) claiming) ∧
      (¬ claims ∨ (x.lost = true ∧ ¬ quiet) → Idle (.claimNow m r) s)) ∧
    (x.nst ≠ .claiming ∨ s.ringRuns r = false ∨ s.inHold .nrg = true ∨ s.shadowed = true ∨ ¬ due → Idle (.claimSend r) s) ∧
    (x.nst = .claiming → s.ringRuns r = true → s.inHold .nrg = false → s.shadowed = false → due →
      Ends (.claimSend r) s fun t =>
      RingIs r { x with claimSeq := x.claimSeq + 1, claimAt := some s.clk.tick } s t ∧ Framed [.ring] [] [] s t ∧
      ∃ f g, Sends [.frame (s.portA r) (withFcs f), .frame (s.portB r) (withFcs g)] s t ∧
        ∀ q ∈ [(f, s.portA r), (g, s.portB r)], q.1.length = 60 ∧ slice q.1 6 6 = s.portAddr q.2 ∧ byteAt q.1 14 = 0x13 ∧
          (byteAt q.1 16).toNat = s.ringId r ∧ (byteAt q.1 17).toNat = fieldOf (s.reg (nrgRingClaim r.val)) 0 8 ∧
          beNat (slice q.1 18 8) = s.eui64 % 2 ^ 64 ∧ be32At q.1 26 = s.ringPeriod r ∧ be32At q.1 30 = (s.cfgHash r).toNat ∧
          be32At q.1 34 = (x.claimSeq + 1).toNat ∧ slice q.1 38 16 = s.claimTag r (q.1.take 38)) ∧
    (¬ NodePort s r n → ¬ HubPort s r n → Idle (.claimReceive r n bs ok) s ∧ Idle (.beaconReceive r n bs ok) s) ∧
    (NodePort s r n → x.env = none →
      let good := ok = true ∧ 54 ≤ bs.length ∧ be32At bs 26 = s.ringPeriod r ∧ be32At bs 30 = (s.cfgHash r).toNat ∧
        s.claimTag r bs = slice bs 38 16
      let mine := beNat (slice bs 18 8) = s.eui64
      let v := (byteAt bs 17).toNat * 2 ^ 64 + beNat (slice bs 18 8)
      let own := fieldOf (s.reg (nrgRingClaim r.val)) 0 8 * 2 ^ 64 + s.eui64
      let c := Instr.claimReceive r n bs ok
      let goesOn := fun t => Sends [hop (outPort u r n)] s t
      ((byteAt bs 16).toNat ≠ s.ringId r → Ends c s fun t => goesOn t ∧ RingIs r y s t ∧ Framed [.ring] [] [] s t) ∧
      ((byteAt bs 16).toNat = s.ringId r →
        (mine → ¬ good → Ends c s fun t => RingIs r y s t ∧
          t.reg (nrgRingClaimIgnCnt r.val) = s.reg (nrgRingClaimIgnCnt r.val) + 1 ∧
          Framed [.ring] [nrgRingClaimIgnCnt r.val] [] s t) ∧
        (mine → good → x.nst ≠ .claiming ∨ x.lower = true → is c y) ∧
        (mine → x.nst = .claiming → x.lower = false → good →
          (x.claimBack + 1 < 3 → is c { y with claimBack := x.claimBack + 1 }) ∧
          (3 ≤ x.claimBack + 1 → is c { y with
            nst := .benchmark
            claimBack := 3
            bmFirst := true
            image := []
            ann := (0, 0)
            bm := some (BitVec.ofNat 7 (s.nodeId r)) })) ∧
        (¬ mine → ok = false → Ends c s fun t => goesOn t ∧ RingIs r y s t ∧
          t.reg (nrgRingAbortCnt r.val) = s.reg (nrgRingAbortCnt r.val) + 1 ∧
          t.reg (nrgRingClaimIgnCnt r.val) = s.reg (nrgRingClaimIgnCnt r.val) + 1 ∧
          Framed [.ring] [nrgRingAbortCnt r.val, nrgRingClaimIgnCnt r.val] [] s t) ∧
        (¬ mine → ok = true → ¬ good → Ends c s fun t => goesOn t ∧ RingIs r y s t ∧
          t.reg (nrgRingClaimIgnCnt r.val) = s.reg (nrgRingClaimIgnCnt r.val) + 1 ∧
          Framed [.ring] [nrgRingClaimIgnCnt r.val] [] s t) ∧
        (¬ mine → good → own ≤ v → Ends c s fun t => goesOn t ∧ RingIs r y s t ∧ Framed [.ring] [] [] s t) ∧
        (¬ mine → good → v < own → x.nst ≠ .claiming → Ends c s fun t => goesOn t ∧
          RingIs r { y with lower := true, heard := s.clk.tick } s t ∧ Framed [.ring] [] [] s t) ∧
        (¬ mine → good → v < own → x.nst = .claiming → Ends c s fun t => goesOn t ∧
          RingIs r { y with nst := .listen, lower := true, heard := s.clk.tick, lost := true } s t ∧
          t.reg (nrgRingClaimLostCnt r.val) = s.reg (nrgRingClaimLostCnt r.val) + 1 ∧
          Framed [.ring] [nrgRingClaimLostCnt r.val] [] s t))) ∧
    (NodePort s r n →
      let good := ok = true ∧ 44 ≤ bs.length ∧ (byteAt bs 16).toNat = s.ringId r ∧ s.beaconTag r bs = slice bs 28 16
      let calls := bitOf (byteAt bs 15) 0 = true
      let c := Instr.beaconReceive r n bs ok
      (s.dualPlane r = false → Idle c s) ∧
      (s.dualPlane r = true → x.nst = .benchmark → ¬ good ∨ ¬ calls ∨ x.ann.1 = 2 → is c y) ∧
      (∀ z, s.dualPlane r = true → x.nst ≠ .benchmark →
        (good → ¬ calls → z = { y with
          bm := some ((byteAt bs 17).setWidth 7)
          topoNext := some ((byteAt bs 22).extractLsb' 6 2, w32 (be32At bs 23)) }) → (¬ good ∨ calls → z = y) →
        (n = s.portS r → is c z) ∧
        (n ≠ s.portS r → x.env = none → Ends c s fun t => Sends [hop (outPort u r n)] s t ∧ RingIs r z s t ∧
          Framed [.ring] [] [] s t)) ∧
      (s.dualPlane r = true → x.nst = .benchmark → good → calls → x.ann.1 ≠ 2 → Ends c s fun t =>
        let later := s.ringPeriod r - s.ringPhase r < fieldOf (s.reg (nrgRingStarLead r.val)) 0 23
        let z := { y with ann := (2, if later then x.cycNow + 2 else x.cycNow + 1) }
        RingIs r z s t ∧ Framed [.ring] [] [] s t ∧ ∃ f, Sends [.frame (s.portS r) (withFcs f)] s t ∧ byteAt f 14 = 0x15 ∧
          bitOf (byteAt f 15) 0 = false ∧ (byteAt f 22).toNat = 128 ∧ be32At f 23 = z.ann.2.toNat)) ∧
    (HubPort s r n →
      (∀ z, let takes := s.beaconGood r bs ok = true ∧ bitOf (byteAt bs 15) 0 = false
        (takes → z = { x with cycNow := w32 (be32At bs 18), topoNext := some ((byteAt bs 22).extractLsb' 6 2, w32 (be32At bs 23)) }) →
        (¬ takes → z = x) → Ends (.beaconReceive r n bs ok) s fun t => RingIs r z s t ∧ Framed [.ring] [] [] s t ∧
          Sends (if n = s.uplink then s.leaves.map hop else [hop s.uplink]) s t) ∧
      (let v := (byteAt bs 17).toNat * 2 ^ 64 + beNat (slice bs 18 8)
       let recent := x.relayed.filter fun p => decide (2 * s.clk.tick < 2 * p.2 + 4 * s.ringPeriod r)
       let lowest := ∀ p ∈ recent, v < p.1
       (lowest → Ends (.claimReceive r n bs ok) s fun t =>
         RingIs r { x with relayed := (v, s.clk.tick) :: recent } s t ∧ Framed [.ring] [] [] s t ∧
         Sends ((s.leaves.filter fun k => k ≠ n).map hop) s t) ∧
       (¬ lowest → Ends (.claimReceive r n bs ok) s fun t =>
         (∀ k b, Output.frame k b ∉ t.out.drop s.out.length) ∧
         RingIs r { x with relayed := recent } s t ∧ Framed [.ring] [] [] s t))) ∧
    (Open s m true (nrgRingCmd r.val) →
      (s.ringRuns r = true → x.nst = .benchmark → is (.ringReturn m r) { x with ann := (0, x.cycNow + 2) }) ∧
      (s.ringRuns r = false ∨ x.nst ≠ .benchmark → Idle (.ringReturn m r) s))

/-- A loss of signal on a ring port is counted and stands; each pass leaving it whose last byte left after the rewind instant leaves one fragment for its arrival port, turned, from the rewound 4-byte boundary on. A fragment due leaves and is counted. At the enabled span's end the node's envelope, or the frame of a hub's leaf, is cut, counted, and the third cut within 1,000 boundaries sends an ACTIVE Stanchion to LISTEN_ONLY. Two clock errors in a row, or one of parity, make the Stanchion FAILED. 40 PCLK before the send instant the Benchmark node snapshots, and sends where its cycle has begun. The head frame of the ring ports leaves in an envelope, with the next number, while ACTIVE and the slot holds it. An envelope of another node goes on, and the first good one of each number reaches the switch; a hub passes a leaf's only within its slot. -/
def Obligations.LossOfSignalStanchionAndEnvelopes : Prop :=
  ∀ (s : State) (r : Fin 2) (n : Fin 8) (leaf : Option (Fin 8)) (bs : List Byte) (ok par : Bool) (edges : Nat) (ph : Fin 16),
    s.storesWf →
    let x := s.ring[r]
    let is := fun c y => Ends c s fun t => RingIs r y s t ∧ Framed [.ring] [] [] s t
    let u := s.signalBack r n
    let y := u.ring[r]
    let hop := fun k : Fin 8 => if ok then Output.frame k (withFcs bs) else .ringAbort k bs
    let runs := s.ringRuns r = true
    (¬ runs ∨ n.val ∉ s.ringPorts r.val → Idle (.ringLos r n) s) ∧
    (runs → n.val ∈ s.ringPorts r.val → Ends (.ringLos r n) s fun t =>
      t.reg (nrgRingLosCnt r.val) = s.reg (nrgRingLosCnt r.val) + 1 ∧ Framed [.ring] [nrgRingLosCnt r.val] [] s t ∧
      RingIs r { x with
        los := setBit x.los n.val true
        losNew := setBit x.losNew n.val true
        frags := t.ring[r].frags } s t ∧
      ((∀ p ∈ x.sent, p.out ≠ n) → t.ring[r].frags = x.frags) ∧
      ∀ p, x.sent = [p] → p.out = n → p.hdr.length = 64 →
        let bt := s.bytePs n
        let rewind : Int := 2000 * s.clk.tick - 32000 - 2 * ((1000 * min 640000 (s.ringDly r n) / 256 : Nat) : Int)
        let t0 : Int := p.t0
        let at_ := (areaStart p.hdr + ((rewind - t0) / bt).toNat - 64) / 4 * 4
        let off := max at_ (areaStart p.hdr)
        (t0 + (84 + p.area.length) * bt ≤ rewind → t.ring[r].frags = x.frags) ∧
        (rewind < t0 + (84 + p.area.length) * bt → ∃ f, t.ring[r].frags = x.frags ++
            [⟨p.inn, f ++ s.outTag r f p.tagOk p.tagCame, p.whole⟩] ∧ byteAt f 14 = 0x12 ∧
          be16At f 50 = off % 65536 ∧ hdrTurns f = (hdrTurns p.hdr + 1) % 4 ∧ (byteAt f 58).toNat = s.nodeId r ∧
          byteAt f 59 = 2 ∧ f.drop 64 = p.area.drop (off - areaStart p.hdr))) ∧
    (x.frags = [] → Idle (.ringFragmentEmit r) s) ∧
    (∀ k f w rest, x.frags = ⟨k, f, w⟩ :: rest → x.env = none → Ends (.ringFragmentEmit r) s fun t =>
      Sends [if w then .frame k (withFcs f) else .ringAbort k f] s t ∧ RingIs r { x with frags := rest } s t ∧
      t.reg (nrgRingFragCnt r.val) = s.reg (nrgRingFragCnt r.val) + 1 ∧ Framed [.ring] [nrgRingFragCnt r.val] [] s t) ∧
    (let leafCut := fun (k : Fin 8) (t : State) =>
      let z := x.leaf[k]
      let cuts := x.bnd :: z.cuts.filter fun b => decide (x.bnd < b + 1000)
      RingIs r { x with leaf := vset x.leaf k (if 3 ≤ cuts.length ∧ z.stn = .active then
          { z with stn := .listenOnly, good := 0, bad := 0, cuts := [], now := none }
        else { z with cuts := cuts, now := none }) } s t ∧
      t.reg (nrgHubLCutCnt k.val) = s.reg (nrgHubLCutCnt k.val) + 1 ∧ Framed [.ring] [nrgHubLCutCnt k.val] [] s t
    (∀ k, leaf = some k →
      (¬ HubPort s r k ∨ x.leaf[k].now = none → Idle (.stanchionCut r leaf) s) ∧
      (∀ start f, HubPort s r k → x.leaf[k].now = some (start, f) → Ends (.stanchionCut r leaf) s fun t =>
        let stop := 1000 * (x.leaf[k].slotEnd + s.ringGuard r)
        leafCut k t ∧
        Sends [.ringAbort s.uplink (f.take ((stop - 5 * s.bytePs k - start) / s.bytePs k - 8))] s t)) ∧
    (x.env = none → Idle (.stanchionCut r none) s) ∧
    (∀ k f start tk, x.env = some ⟨[(k, f)], start, tk⟩ → Ends (.stanchionCut r none) s fun t =>
      let stop := 1000 * (x.slotEnd + s.ringGuard r)
      let cuts := x.bnd :: x.cuts.filter fun b => decide (x.bnd < b + 1000)
      let c := t.reg (nrgRingCutCnt r.val) = s.reg (nrgRingCutCnt r.val) + 1
      Sends [.ringAbort k (f.take ((stop - 5 * s.bytePs k - start) / s.bytePs k - 8))] s t ∧
      (¬ (3 ≤ cuts.length ∧ x.stn = .active) → c ∧ RingIs r { x with env := none, cuts := cuts } s t ∧
        Framed [.ring] [nrgRingCutCnt r.val] [] s t) ∧
      (3 ≤ cuts.length → x.stn = .active → c ∧
        RingIs r { x with env := none, stn := .listenOnly, good := 0, bad := 0, cuts := [] } s t ∧
        t.reg (nrgRingListenCnt r.val) = s.reg (nrgRingListenCnt r.val) + 1 ∧
        Framed [.ring] [nrgRingCutCnt r.val, nrgRingListenCnt r.val] [] s t)) ∧
    (let bad := if 97 ≤ edges ∧ edges ≤ 103 then 0 else x.clkBad + 1
     (¬ runs ∨ x.stn = .off ∨ x.stn = .failed → Idle (.stanchionSelfCheck r edges par) s) ∧
     (runs → x.stn ≠ .off → x.stn ≠ .failed → is (.stanchionSelfCheck r edges par)
       { x with clkBad := bad, stn := if 2 ≤ bad ∨ par = false then .failed else x.stn })) ∧
    (¬ runs ∨ x.nst ≠ .benchmark ∨ s.reaches r (s.sendPhase r) 40 = false ∨ (s.snapLate r = true ∧ x.bmDue = false) →
      Idle (.ringBmSnapshot r) s) ∧
    (runs → x.nst = .benchmark → s.reaches r (s.sendPhase r) 40 = true → s.snapLate r = true → x.bmDue = true →
      Ends (.ringBmSnapshot r) s fun t =>
        t.ring[r].snaps = some (s.takeSnaps r x.keyUsed x.cycNow.toNat) ∧ t.ring[r].bmDue = false ∧
        Framed [.ring] [nrgRingBlockCnt r.val] [] s t ∧
        ∃ f g, byteAt f 14 = 0x11 ∧ hdrCopy f = false ∧ byteAt g 14 = 0x11 ∧ hdrCopy g = true ∧
          Sends [.frame (if x.topo = 2 then s.portS r else s.portA r) (withFcs f),
            .frame (if x.topo = 2 then s.portS r else s.portB r) (withFcs g)] s t) ∧
    (runs → x.nst = .benchmark → s.reaches r (s.sendPhase r) 40 = true → s.snapLate r = false → is (.ringBmSnapshot r) { x with
      bmSnap := some (s.takeSnaps r (bitOf (s.reg (nrgRingKeysel r.val)) 0) (if x.bmFirst then 0 else (x.cycNow + 1).toNat)) }) ∧
    (let a := s.portA r
     let b := s.portB r
     (¬ runs ∨ s.shadowed = true ∨ (x.env = none ∧ s.envHead a = none ∧ s.envHead b = none) → Idle (.envelopeSend r ph) s) ∧
     (∀ k f start tk, runs → s.shadowed = false → x.env = some ⟨[(k, f)], start, tk⟩ → s.envHead a = none → s.envHead b = none →
       Ends (.envelopeSend r ph) s fun t => Sends [.frame k (withFcs f)] s t ∧ RingIs r { x with env := none } s t ∧
         Framed [.ring] [] [] s t) ∧
     (∀ k h st, runs → s.shadowed = false → x.env = none → (∀ f ∈ s.swc.stored, f.bad = false) →
       (k = a ∧ s.envHead a = some (h, st)) ∨ (k = b ∧ s.envHead a = none ∧ s.envHead b = some (h, st)) → st.stream = none → h.mark = false → st.f.req.seg = none →
       st.f.req.mode = .none →
       let inner := padFrame (s.tagFor st.tagged st.vid.toNat st.pcp k.val st.f.bytes)
       let len := inner.length + 44
       let fits := x.slotStart ≤ s.ringPhase r ∧ 1000 * s.ringPhase r + (len + 8) * s.bytePs k ≤ 1000 * x.slotEnd
       (x.stn ≠ .active ∨ s.inHold .nrg = true ∨ ¬ fits → Idle (.envelopeSend r ph) s) ∧
       (x.stn = .active → s.inHold .nrg = false → fits → a ≠ b →
         (∀ p ∈ s.swc.queues, p.fid = h.fid → p.lp = h.lp) → Ends (.envelopeSend r ph) s fun t =>
           t.swc.queues = s.swc.queues.filter (fun p => !decide (p.lp = h.lp ∧ p.fid = h.fid)) ∧
           Framed [.ring, .swc, .eth] pfcRegs [] s t ∧
           ∃ f, RingIs r { x with aseq := x.aseq + 1, env := some ⟨[(k, f)], 1000 * s.ringPhase r, s.clk.tick⟩ } s t ∧
             f.length = inner.length + 40 ∧ slice f 24 inner.length = inner ∧ byteAt f 14 = 0x14 ∧
             (byteAt f 16).toNat = s.ringId r ∧ (byteAt f 17).toNat = s.nodeId r ∧
             be16At f 18 = (x.aseq + 1).toNat ∧ be32At f 20 = (s.reg (nrgRingCyc r.val)).toNat ∧
             f.drop (inner.length + 24) = s.envTag r (f.take (inner.length + 24))))) ∧
    (¬ NodePort s r n → ¬ HubPort s r n → Idle (.envelopeReceive r n bs ok) s) ∧
    (NodePort s r n → x.env = none →
      let c := Instr.envelopeReceive r n bs ok
      let origin := (byteAt bs 17).toNat
      let body := bs.take (bs.length - 16)
      let good := ok = true ∧ 40 ≤ bs.length ∧ s.envTag r body = bs.drop (bs.length - 16)
      let seq : BitVec 16 := BitVec.ofNat 16 (be16At bs 18)
      let seen := amGet (fun _ => []) x.history origin
      let goesOn := fun t => Sends [hop (outPort u r n)] s t
      ((byteAt bs 16).toNat ≠ s.ringId r ∨ (origin = s.nodeId r ∧ s.shadowed = true) →
        Ends c s fun t => goesOn t ∧ RingIs r y s t ∧ Framed [.ring] [] [] s t) ∧
      ((byteAt bs 16).toNat = s.ringId r → origin = s.nodeId r → s.shadowed = false → is c y) ∧
      ((byteAt bs 16).toNat = s.ringId r → origin ≠ s.nodeId r →
        (¬ good ∨ seq ∈ seen → Ends c s fun t => goesOn t ∧ RingIs r y s t ∧ Framed [.ring] [] [] s t) ∧
        (good → seq ∉ seen → Ends c s fun t => goesOn t ∧ Framed [.ring, .swc] [] [] s t ∧
          RingIs r { y with history := t.ring[r].history } s t ∧
          amGet (fun _ => []) t.ring[r].history origin = (seq :: seen).take 32 ∧
          (s.swcTakes = false → t.swc = s.swc) ∧
          (s.swcTakes = true → t.swc = { s.swc with ingress := s.swc.ingress ++ [⟨Fin.ofNat 22 n.val,
            ⟨body.drop 24, none, false, ⟨.none, 0, 0, none, none, none⟩, .ring⟩, true⟩] })))) ∧
    (HubPort s r n →
      let z := x.leaf[n]
      let g := s.ringGuard r
      let now := s.ringPhase r
      let inSlot := z.stn = .active ∧ z.slotStart ≠ z.slotEnd ∧ z.slotStart ≤ now + g ∧ now ≤ z.slotEnd + g
      let ends := 1000 * now + (frameLen bs + 8) * s.bytePs n ≤ 1000 * (z.slotEnd + g)
      let c := Instr.envelopeReceive r n bs ok
      (n = s.uplink → Ends c s fun t => Sends (s.leaves.map hop) s t ∧ Framed [] [] [] s t) ∧
      (n ≠ s.uplink → z.now = none →
        (inSlot → ends → Ends c s fun t => Sends [hop s.uplink] s t ∧ Framed [] [] [] s t) ∧
        (inSlot → ¬ ends → is c { x with leaf := vset x.leaf n { z with now := some (1000 * now, bs) } }) ∧
        (¬ inSlot → Ends c s fun t => leafCut n t))))

/-- A boundary is taken in its tick, once. The cycle goes up, a loss makes its port LOOPED, what belonged to the cycle is cleared, and the third boundary with no verified header returns an ACTIVE Stanchion to SYNC. A new Benchmark node starts at cycle 0; where its send phase leaves no time for a snapshot it sends both copies there, every record it does not write with VALID 0, else it owes them; each window of another writer is merged or counted missed. A pass at a node goes on by the other ring port, turned where that is dead: only TURNS, CORR, ORIGIN, EMIT fields, own records and the tag change, the tag complemented where it failed; a hub sends a pass of UPLINK on alike. A verified header gives the cycle. Own records are placed while ACTIVE, else counted as blocked, and left alone where the twin placed them. A record read here that verifies reaches its reader's staging; one that fails, or meets a closed gate, counts. -/
def Obligations.CycleBoundariesAndPasses : Prop :=
  ∀ (s : State) (r : Fin 2) (n : Fin 8) (bs : List Byte) (ok : Bool) (ph : Fin 16), s.storesWf →
    s.dualPlane r = false → s.shadowed = false → s.ring[r].pair = false →
    let x := s.ring[r]
    let due := s.boundaryDue r = true
    let c := Instr.ringPassReceive r n bs ok ph
    let looped := x.looped ||| x.losNew
    let noHdr := if x.seen then 0 else x.noHdr + 1
    let lost := 3 ≤ noHdr ∧ (x.stn = .active ∨ x.stn = .listenOnly)
    let crossed := fun y : RingState =>
      y.bnd = x.bnd + 1 ∧ y.bndAt = some (s.boundaryNs r) ∧ y.losNew = 0 ∧ y.seen = false ∧ y.noHdr = noHdr ∧
      y.got = [] ∧ y.joins = [] ∧ y.sent = [] ∧ y.nst = x.nst ∧ y.recs = x.recs ∧ y.los = x.los ∧ y.env = x.env ∧
      y.frags = x.frags ∧ (lost → y.stn = .sync) ∧ (¬ lost → y.stn = x.stn)
    (¬ due → Idle (.ringCycleBoundary r) s) ∧
    (due → x.nst ≠ .benchmark → Ends (.ringCycleBoundary r) s fun t =>
      let y := t.ring[r]
      crossed y ∧ y.cycNow = x.cycNow + 1 ∧ y.snaps = none ∧ t.ring[1 - r] = s.ring[1 - r] ∧
      Framed [.ring] [nrgRingPlaneCnt r.val] [] s t ∧
      (x.topoNext = none → y.looped = looped ∧ y.topo = x.topo ∧ Framed [.ring] [] [] s t) ∧
      (∀ tp k, x.topoNext = some (tp, k) →
        let reached := (x.cycNow + 1 - k).toNat < 2 ^ 31
        (¬ reached → y.looped = looped ∧ y.topo = x.topo ∧ Framed [.ring] [] [] s t) ∧
        (reached → y.topo = tp ∧ y.looped = (if k = x.cycNow + 1 ∧ tp = 0 then looped &&& x.los else looped) ∧
          (tp = 2 → x.topo ≠ 2 → t.reg (nrgRingPlaneCnt r.val) = s.reg (nrgRingPlaneCnt r.val) + 1)))) ∧
    (due → x.nst = .benchmark → x.recs = [] → looped = 0 → x.los = 0 → x.ann.1 = 0 → x.topo ≠ 2 →
      Ends (.ringCycleBoundary r) s fun t =>
      let y := t.ring[r]
      crossed y ∧ (x.bmFirst = true → y.cycNow = 0 ∧ t.tabs = s.tabs ∧ Framed [.ring] [] [] s t) ∧
      (x.bmFirst = false → y.cycNow = x.cycNow + 1 ∧
        (∀ w ∈ s.ringWins r.val, let v := s.tab .nrg 1 (1024 * r.val + w.win)
          t.tab .nrg 1 (1024 * r.val + w.win) = (if w.writer = s.nodeId r then v
            else if bitOf v 31 then setBit v 31 false else setField v 24 4 (min 15 (fieldOf v 24 4 + 1)))) ∧
        t.reg (nrgRingWmissCnt r.val) = s.reg (nrgRingWmissCnt r.val) + w32 ((s.ringWins r.val).filter fun w =>
          decide (w.writer ≠ s.nodeId r) && !bitOf (s.tab .nrg 1 (1024 * r.val + w.win)) 31).length ∧
        Framed [.ring] [nrgRingWmissCnt r.val] (words .nrg 1 (1024 * r.val) 1024) s t) ∧
      (s.snapLate r = true → y.bmDue = true ∧ ∀ o ∈ t.out.drop s.out.length, ∀ p f, o ≠ .frame p f) ∧
      (s.snapLate r = false → y.bmDue = false ∧ ∃ f g,
        Sends [.frame (s.portA r) (withFcs f), .frame (s.portB r) (withFcs g)] s t ∧
        ∀ q ∈ [(f, s.portA r, false), (g, s.portB r, true)], q.1.length = 80 + s.ringLen r.val ∧
          slice q.1 6 6 = s.portAddr q.2.1 ∧ byteAt q.1 14 = 0x11 ∧ hdrCopy q.1 = q.2.2 ∧ hdrTurns q.1 = 0 ∧
          (byteAt q.1 16).toNat = s.ringId r ∧ be32At q.1 18 = y.cycNow.toNat ∧ be32At q.1 22 = s.ringPeriod r ∧
          be32At q.1 26 = s.sendPhase r ∧ hdrCorr q.1 = 0 ∧ be16At q.1 48 = s.ringLen r.val % 65536 ∧ byteAt q.1 53 = 0xFF ∧
          (byteAt q.1 58).toNat = s.nodeId r ∧
          q.1.drop (64 + s.ringLen r.val) = s.frameTag r (q.1.take (64 + s.ringLen r.val)) ∧
          ∀ w ∈ s.ringWins r.val, 64 ≤ w.off → (byteAt q.1 w.off).getLsbD 7 = false)) ∧
    (¬ NodePort s r n → ¬ HubPort s r n → Idle c s) ∧
    (x.env = none → s.isPass r bs = false →
      let gone := fun (parts : List Part) (out : Fin 8) => Ends c s fun t =>
        Sends [if ok then .frame out (withFcs bs) else .ringAbort out bs] s t ∧
        (ok = true → Framed parts [] [] s t) ∧ (ok = false →
          t.reg (nrgRingAbortCnt r.val) = s.reg (nrgRingAbortCnt r.val) + 1 ∧ Framed parts [nrgRingAbortCnt r.val] [] s t)
      (NodePort s r n → gone [.ring] (outPort (s.signalBack r n) r n)) ∧
      (HubPort s r n → gone [] ((s.nextLeaf (hdrCopy bs) (if n = s.uplink then none else some n)).getD s.uplink))) ∧
    (x.env = none → s.isPass r bs = true → byteAt bs 14 = 0x11 → x.nst ≠ .benchmark → bs.length = 80 + be16At bs 48 →
      let u := s.signalBack r n
      let len := be16At bs 48
      let area := slice bs 64 len
      let tagOk : Bool := s.frameTag r (bs.take (64 + len)) = bs.drop (64 + len)
      let onward := if n = s.portA r then s.portB r else s.portA r
      let dead := u.deadPort r onward
      let header := fun (turn : Bool) (corr : Int) (f : List Byte) => slice f 0 14 = slice bs 0 14 ∧ byteAt f 14 = 0x11 ∧
        hdrTurns f = (hdrTurns bs + b2n turn) % 4 ∧ hdrCopy f = hdrCopy bs ∧ slice f 16 24 = slice bs 16 24 ∧
        slice f 40 8 = toBe 8 (BitVec.ofInt 64 corr).toNat ∧ slice f 48 5 = slice bs 48 5 ∧
        (byteAt f 53).toNat = (if turn ∧ byteAt bs 53 = 0xFF then s.nodeId r else (byteAt bs 53).toNat) ∧
        slice f 54 4 = slice bs 54 4 ∧ (byteAt f 58).toNat = s.nodeId r ∧ byteAt f 59 = (if turn then 1 else 0) ∧
        slice f 60 4 = slice bs 60 4
      let sentAs := fun (turn : Bool) (out : Fin 8) (ticks : Nat) (a : List Byte) (t : State) => ∃ f,
        header turn (hdrCorr bs + (256 * s.ringDly r n : Nat) + s.ticksCorr ticks) f ∧ slice f 64 len = a ∧
        f.drop (64 + len) = (s.frameTag r (f.take (64 + len))).map (fun b => if tagOk then b else ~~~ b) ∧
        Sends [if ok then .frame out (withFcs f) else .ringAbort out f] s t
      let leaves := fun (a : List Byte) (t : State) => sentAs dead (if dead then n else onward)
        (if dead then 2 * s.fwdTicks n onward else s.fwdTicks n onward) a t
      let judged := fun t : State =>
        (ok = false → t.reg (nrgRingAbortCnt r.val) = s.reg (nrgRingAbortCnt r.val) + 1) ∧
        (¬ tagOk → t.reg (nrgRingFauthCnt r.val) = s.reg (nrgRingFauthCnt r.val) + 1)
      let counters := [nrgRingCyc r.val, nrgRingOffset r.val, nrgRingAbortCnt r.val, nrgRingFauthCnt r.val,
        nrgRingTurnCnt r.val, nrgRingListenCnt r.val]
      let learnt := fun t : State => judged t ∧
        (tagOk → t.reg (nrgRingCyc r.val) = w32 (be32At bs 18) ∧ t.ring[r].nst = .member ∧
          t.ring[r].cycNow = w32 (be32At bs 18) ∧ t.ring[r].seen = true ∧ t.ring[r].keyUsed = frameKey bs ∧
          t.ring[r].topoNext = some ((byteAt bs 52).extractLsb' 6 2, w32 (be32At bs 54))) ∧
        (¬ tagOk → t.reg (nrgRingCyc r.val) = s.reg (nrgRingCyc r.val) ∧ t.ring[r].nst = x.nst ∧
          t.ring[r].seen = x.seen ∧ t.ring[r].stn = x.stn) ∧
        t.reg (nrgRingTurnCnt r.val) = s.reg (nrgRingTurnCnt r.val) + w32 (b2n dead)
      (HubPort s r n → n = s.uplink → Ends c s fun t =>
        let out := (s.nextLeaf (hdrCopy bs) none).getD s.uplink
        sentAs false out (s.fwdTicks n out) area t ∧ judged t ∧ (tagOk → t.ring[r].cycNow = w32 (be32At bs 18)) ∧
        Framed [.ring] counters [] s t) ∧
      (NodePort s r n → s.ringWins r.val = [] → x.recs = [] →
        Ends c s fun t => leaves area t ∧ learnt t ∧ Framed [.ring] counters [] s t) ∧
      (∀ q v, NodePort s r n → s.ringWins r.val = [] → x.recs = [q] → x.snaps = some [v] → v.win = q.win →
        v.bytes.length = q.n + 9 → 64 ≤ q.off → q.off + q.n + 9 ≤ 64 + len → s.gateOpen v.role = true →
        s.inHold .nrg = false → Ends c s fun t =>
          let twin : Bool := s.flt.twin = .paired && recFresh (slice area (q.off - 64) 1) (be32At bs 18)
          let blocked : Bool := !twin && x.stn ≠ .active
          leaves (if twin ∨ x.stn ≠ .active then area else overwrite area (q.off - 64) v.bytes) t ∧ learnt t ∧
          (blocked → t.reg (nrgRingBlockCnt r.val) = s.reg (nrgRingBlockCnt r.val) + 1) ∧
          (¬ blocked → t.reg (nrgRingBlockCnt r.val) = s.reg (nrgRingBlockCnt r.val)) ∧
          Framed [.ring] (nrgRingBlockCnt r.val :: counters) [] s t) ∧
      (∀ w rd e k off, NodePort s r n → s.ringWins r.val = [w] → x.recs = [] → w.read = true → w.win ∉ x.got →
        64 ≤ w.off → w.off + w.n + 9 ≤ 64 + len → s.winEntries r false w.win = [(rd, e, k)] →
        s.espTarget e (s.fwuStage e k) = .dmem off → s.routeKeys = [] →
        let rec_ := slice bs w.off (w.n + 9)
        let st := byteAt rec_ 0
        st.getLsbD 7 = true → st.toNat % 16 = be32At bs 18 % 16 →
        let sound := s.recordTag r (frameKey bs) (be32At bs 18) w.win (rec_.take (w.n + 1)) = rec_.drop (w.n + 1)
        let wauth := nrgRingWauthCnt r.val
        (¬ sound → Ends c s fun t => leaves area t ∧ t.reg wauth = s.reg wauth + 1 ∧ bitOf (t.tab (.pec e) 3 (4 * k + 3)) 29 = true ∧
          Framed [.ring] (wauth :: counters) [tabKey (blkIdx (.pec e)) 3 (4 * k + 3)] s t) ∧
        (sound → s.gateOpen rd = false → Ends c s fun t => leaves area t ∧
          t.reg (nrgRingWlateCnt r.val) = s.reg (nrgRingWlateCnt r.val) + 1 ∧
          Framed [.ring] (nrgRingWlateCnt r.val :: counters) [] s t) ∧
        (sound → s.gateOpen rd = true → off + w.n ≤ 0x8000 → Ends c s fun t => leaves area t ∧ w.win ∈ t.ring[r].got ∧
          t.tab (.pec e) 3 (4 * k + 3) = st.setWidth 32 ∧
          (∃ d, EngineIs e { s.eng[e] with dmem := d, fwuFresh := setBit s.eng[e].fwuFresh k true } s t ∧
            ∀ j < 0x8000, amGet (fun _ => 0) d j =
              if off ≤ j ∧ j < off + w.n then byteAt rec_ (1 + (j - off)) else amGet (fun _ => 0) s.eng[e].dmem j) ∧
          Framed [.ring, .eng] counters [tabKey (blkIdx (.pec e)) 3 (4 * k + 3)] s t)))

/-- A channel takes a valid frame on the bus, in hold only one already in progress; it goes to the lowest object of its identifier: NEW set, MSG_LOST if NEW stood, format, DLC, count and stamp beside its data, and a gateway frame where GW is set, dropped while eight wait; without an object, or remote, it only counts; a slave's reference starts its cycle at the SOF. An FD frame with FD off is a form error. Each error counts by kind and raises TEC or REC; above 255 the channel is bus-off, counted, and after 128 occurrences error active with both 0. Eleven recessive bits integrate. As the bus is free, the oldest attempt that may start does. A recessive res is a protocol exception with PEX_EN, else a form error. A frame at LP20 for the channel commits its buffer, or is dropped. A read of TXEV_W0 takes the oldest event. -/
def Obligations.CanReceptionErrorsAndGateway : Prop :=
  ∀ (s : State) (m : Master) (n : Fin 4) (f : CanFrame) (ago : Nat) (k : CanErrKind) (occ : BitVec 8), s.storesWf →
    let x := s.can[n]
    let cfg := s.reg (canCfg n.val)
    let on := s.canOnBus n = true
    let is := fun y (t : State) => t.can = vset s.can n (busStarts t n y)
    let takes := s.canReceives n ago = true
    let store := Instr.canFrameStore n f ago
    let formError := fun c => Ends c s fun t => is { x with rxErr := min 255 (x.rxErr + 1), foreign := false } t ∧
      t.reg (canErrFormCnt n.val) = s.reg (canErrFormCnt n.val) + 1 ∧ Framed [.can] [canErrFormCnt n.val] [] s t
    (¬ takes → Idle store s) ∧
    (takes → f.fdf = true → bitOf cfg 31 = false → x.txErr ≤ 255 → formError store) ∧
    (takes → f.fdf = false ∨ bitOf cfg 31 = true →
      let id := if f.ide then f.id.toNat else f.id.toNat % 2048
      let names := fun j => objMatches (s.tab (.can n) 0 (24 * j)) f.ide id = true
      let heals := fun t : State => is { x with rxErr := t.can[n].rxErr, foreign := false } t ∧ (x.rxErr ≤ 127 → t.can[n].rxErr = x.rxErr - 1) ∧
        (127 < x.rxErr → 119 ≤ t.can[n].rxErr ∧ t.can[n].rxErr ≤ 127)
      let ref := s.reg (canTtRef n.val)
      let isRef := s.canRole n = 1 ∧ bitOf ref 31 = f.ide ∧ fieldOf ref 0 29 = id
      (isRef → Ends store s fun t => t.can[n].sync = true ∧ t.can[n].cyc = (byteAt f.data 0).setWidth 6 ∧
        t.can[n].cycAt = dtNsTotal (s.canStamp n ago).t ∧ t.can[n].served = 0) ∧
      (¬ isRef → f.rtr = true → Ends store s fun t => heals t ∧
        t.reg (canRxRtrCnt n.val) = s.reg (canRxRtrCnt n.val) + 1 ∧ Framed [.can, .free] [canRxRtrCnt n.val] [] s t) ∧
      (¬ isRef → f.rtr = false → (∀ j < 512, ¬ names j) → Ends store s fun t => heals t ∧
        t.reg (canRxNoobjCnt n.val) = s.reg (canRxNoobjCnt n.val) + 1 ∧ Framed [.can, .free] [canRxNoobjCnt n.val] [] s t) ∧
      (∀ j < 512, ¬ isRef → f.rtr = false → names j → (∀ i < j, ¬ names i) → s.routeKeys = [] →
        let old := s.tab (.can n) 0 (24 * j + 1)
        let lost := bitOf old 31
        let stamp := s.canStamp n ago
        let pl := slice f.data 0 (dlcLen f.fdf f.dlc.toNat)
        let gw := bitOf (s.tab (.can n) 0 (24 * j)) 29
        let regs := [canRxFramesCnt n.val, canMsgLostCnt n.val]
        let keys := words (.can n) 0 (24 * j + 1) 23
        let stored := fun t : State => heals t ∧
          (let w := t.tab (.can n) 0 (24 * j + 1)
           bitOf w 31 = true ∧ bitOf w 30 = (lost || bitOf old 30) ∧ bitOf w 29 = f.fdf ∧ bitOf w 28 = f.brs ∧
           bitOf w 27 = f.esi ∧ bitOf w 26 = stamp.deg ∧ fieldOf w 24 2 = stamp.dom.val ∧ fieldOf w 16 4 = f.dlc.toNat ∧
           fieldOf w 0 16 = (fieldOf old 0 16 + 1) % 65536) ∧
          t.tab (.can n) 0 (24 * j + 2) = w32 (dtFrac stamp.t) ∧ t.tab (.can n) 0 (24 * j + 3) = w32 (dtNs stamp.t) ∧
          t.tab (.can n) 0 (24 * j + 4) = w32 (dtSec stamp.t) ∧
          (∀ i < 16, t.tab (.can n) 0 (24 * j + 8 + i) = le32At pl (4 * i)) ∧
          t.reg (canRxFramesCnt n.val) = s.reg (canRxFramesCnt n.val) + 1 ∧
          t.reg (canMsgLostCnt n.val) = s.reg (canMsgLostCnt n.val) + w32 (b2n lost)
        (gw = false → Ends store s fun t => stored t ∧ Framed [.can, .free] regs keys s t) ∧
        (gw = true → 8 ≤ s.gwWaiting n → Ends store s fun t => stored t ∧
          t.reg (canGwDropCnt n.val) = s.reg (canGwDropCnt n.val) + 1 ∧
          Framed [.can, .free] (canGwDropCnt n.val :: regs) keys s t) ∧
        (gw = true → s.gwWaiting n < 8 → Ends store s fun t => stored t ∧ Framed [.can, .free, .swc] regs keys s t ∧
          ∃ bs, t.swc = { s.swc with ingress := s.swc.ingress ++
              [⟨20, ⟨bs, none, false, ⟨.none, 0, 0, none, none, none⟩, .gateway⟩, s.swcTakes⟩] } ∧
            be16At bs 0 = fieldOf (s.reg (canGwDstHi n.val)) 0 16 ∧ be32At bs 2 = (s.reg (canGwDstLo n.val)).toNat ∧
            be16At bs 12 = fieldOf (s.reg (canGwEtype n.val)) 0 16 ∧ byteAt bs 14 = 0x11 ∧
            (byteAt bs 15).toNat = n.val ∧ be16At bs 16 = j ∧ (byteAt bs 22).toNat = f.dlc.toNat ∧
            slice bs 40 pl.length = pl))) ∧
    (∀ r, ¬ on → Idle (.canError n k r) s) ∧
    (∀ r, on → x.txErr ≤ 255 → Ends (.canError n k r) s fun t =>
      let cnt := canErrCnt n k
      let tx := if r = .transmitter then x.txErr + 8 else x.txErr
      let rx := if r = .receiver then min 255 (x.rxErr + 1) else if r = .receiverFlag then min 255 (x.rxErr + 8) else x.rxErr
      t.reg cnt = s.reg cnt + 1 ∧
      (tx ≤ 255 → is { x with txErr := tx, rxErr := rx, foreign := false } t ∧ Framed [.can] [cnt] [] s t) ∧
      (255 < tx → is { x with txErr := tx, rxErr := rx, busOff := true, prog := 0, foreign := false } t ∧
        t.reg (canBusoffCnt n.val) = s.reg (canBusoffCnt n.val) + 1 ∧ Framed [.can] [cnt, canBusoffCnt n.val] [] s t)) ∧
    (x.busOff = false → Idle (.canBusoffRecover n occ) s) ∧
    (x.busOff = true → Ends (.canBusoffRecover n occ) s fun t => Framed [.can] [] [] s t ∧
      (x.prog + occ.toNat < 128 → t.can = vset s.can n { x with prog := x.prog + occ.toNat }) ∧
      (128 ≤ x.prog + occ.toNat → is { x with busOff := false, prog := 128, txErr := 0, rxErr := 0 } t)) ∧
    (let may := s.en (.can n) = true ∧ s.canTimingBad n = false ∧ s.fenced (23 + n.val) = false
     (may → Ends (.canBusIntegrated n) s fun t => is { x with integ := true, foreign := false } t ∧ Framed [.can] [] [] s t) ∧
     (¬ may → Idle (.canBusIntegrated n) s)) ∧
    (¬ on → Idle (.canProtocolException n) s) ∧
    (on → bitOf cfg 31 = true → bitOf cfg 30 = true → Ends (.canProtocolException n) s fun t => is { x with integ := false, foreign := false } t ∧
      t.reg (canPexCnt n.val) = s.reg (canPexCnt n.val) + 1 ∧ Framed [.can] [canPexCnt n.val] [] s t) ∧
    (on → ¬ (bitOf cfg 31 = true ∧ bitOf cfg 30 = true) → x.txErr ≤ 255 → formError (.canProtocolException n)) ∧
    (s.lpHead 20 = none → Idle (.canGwReceive n) s) ∧
    (∀ q st, s.lpHead 20 = some q → s.storedOf q.fid = some st → (∀ f ∈ s.swc.stored, f.bad = false) →
      let bs := s.gatewayBytes q st
      let mine := be16At bs 0 = fieldOf (s.reg (canGwOwnHi n.val)) 0 16 ∧ be32At bs 2 = (s.reg (canGwOwnLo n.val)).toNat ∧
        be16At bs 12 = fieldOf (s.reg (canGwEtype n.val)) 0 16
      let taken := fun t : State => t.swc.queues = if lastOf q st then s.swc.queues.filter fun p => !decide (p.lp = q.lp ∧ p.fid = q.fid)
        else s.swc.queues.map fun p => if p.lp = q.lp ∧ p.fid = q.fid then { p with seg := p.seg + 1 } else p
      let j := be16At bs 16
      (¬ mine → Idle (.canGwReceive n) s) ∧
      (mine → byteAt bs 14 ≠ 0x12 ∨ 64 ≤ j → Ends (.canGwReceive n) s fun t => taken t ∧
        t.reg (canGwDropCnt n.val) = s.reg (canGwDropCnt n.val) + 1 ∧
        Framed [.swc, .eth] (canGwDropCnt n.val :: pfcRegs) [] s t) ∧
      (mine → byteAt bs 14 = 0x12 → j < 64 → Ends (.canGwReceive n) s fun t => taken t ∧
        Framed [.swc, .eth] pfcRegs (words (.can n) 1 (20 * j) 20) s t ∧
        t.tab (.can n) 1 (20 * j) = w32 (be32At bs 18) ∧
        (let w := t.tab (.can n) 1 (20 * j + 1)
         fieldOf w 0 4 = (byteAt bs 22).toNat % 16 ∧ bitOf w 8 = bitOf (byteAt bs 23) 7 ∧ bitOf w 9 = bitOf (byteAt bs 23) 6) ∧
        ∀ i < 16, t.tab (.can n) 1 (20 * j + 4 + i) = le32At
          (slice bs 40 (dlcLen (bitOf (w32 (be32At bs 18)) 30) ((byteAt bs 22).toNat % 16))) (4 * i))) ∧
    (Open s m false (canTxevW0 n.val) → Ends (.canTxevRead m n) s fun t => Framed [.can, .latches] [] [] s t ∧
      (x.events = [] → t.can = s.can ∧ Sends [.readData m (w32 (canTxevW0 n.val)) 0] s t ∧
        t.latched m (canTxevW1 n.val) = 0) ∧
      (∀ e r, x.events = e :: r → t.can = vset s.can n { x with events := r } ∧ Sends [.readData m (w32 (canTxevW0 n.val)) e.1] s t ∧
        t.latched m (canTxevW1 n.val) = e.2))

/-- A master's basic cycle starts in its tick, once, with the next cycle count, from 0 in the first, and attempts its reference message. A slave whose reference is CAN_TT_PERIOD and TX_EN_WIN overdue stops its cycle and counts. At a mark reached and not yet served, an enabled entry latches its buffer as an attempt with its window and clears READY unless KEEP; without READY it counts as empty. At its mark an attempt of a fenced or bus-off channel fails with FENCED or BUS_ERROR. A waiting attempt whose window has ended fails LATE. The one in transmission gives OK, RETRY on lost arbitration, ID_COLLISION, which raises TEC, or BUS_ERROR with the error's code: it counts, and its event and its buffer's last outcome hold status and SOF time; then the oldest attempt that may start does. With 32 events held an event is dropped and counted. TDC shows the loop delay measured. -/
def Obligations.CanTimeTriggeredAttempts : Prop :=
  ∀ (s : State) (n : Fin 4) (col : Fin 32) (busy : Bool) (o : CanEnd) (ago loop : Nat), s.storesWf →
    let x := s.can[n]
    let cfg := s.reg (canCfg n.val)
    let is := fun y (t : State) => t.can = vset s.can n y
    let starts := fun y (t : State) => t.can = vset s.can n (busStarts t n y)
    let now := s.nsOf (s.canDom n)
    let free := s.fenced (23 + n.val) = false ∧ x.busOff = false
    let queued := fun (y : CanState) (a : CanTry) =>
      { y with tries := x.tries ++ [a], foreign := x.foreign || (busy && x.sending.isNone) }
    let fails := [canTxFailCnt n.val]
    let event := fun (t : CanTry) (b : Fin 64) (c : Fin 32) (st : Byte) err =>
      w32 (2 ^ 24 * st.toNat + 2 ^ 20 * err + 2 ^ 14 * b.val + 256 * t.cyc.toNat + 8 * c.val + 1)
    let outcome := fun (b : Fin 64) (st : Byte) err (t : State) =>
      t.tab (.can n) 1 (20 * b.val + 2) = w32 (2 ^ 24 * st.toNat + 2 ^ 20 * err)
    let start := Instr.canTtCycleStart n busy
    (s.canCycleDue n = false → Idle start s) ∧
    (s.canCycleDue n = true → free →
      let cyc : BitVec 6 := if x.sync then BitVec.ofNat 6 ((x.cyc.toNat + 1) % (fieldOf cfg 0 6 + 1)) else 0
      let opens := s.canCycleNs n
      Ends start s fun t => Framed [.can] [] [] s t ∧ ∃ ws, ws.getD 4 0 = cyc.setWidth 32 ∧ ws.getD 1 0 = 1 ∧
        bitOf (ws.getD 0 0) 31 = bitOf (s.reg (canTtRef n.val)) 31 ∧
        fieldOf (ws.getD 0 0) 0 29 = fieldOf (s.reg (canTtRef n.val)) 0 29 ∧
        starts (queued { x with sync := true, cyc := cyc, cycAt := opens, served := 0 }
          ⟨none, none, cyc, true, ws, opens, opens + s.canWin n⟩) t) ∧
    (s.canCycleDue n = true → ¬ free → Ends start s fun t => t.can[n].tries = x.tries ∧
      t.reg (canTxFailCnt n.val) = s.reg (canTxFailCnt n.val) + 1 ∧
      t.reg (canTtRefmissCnt n.val) = s.reg (canTtRefmissCnt n.val) + 1) ∧
    (let misses := s.canRole n = 1 ∧ s.en (.can n) = true ∧ x.sync = true ∧ x.cycAt + s.canPeriod n + s.canWin n ≤ now
     (misses → Ends (.canTtRefMiss n) s fun t => is { x with sync := false } t ∧
       t.reg (canTtRefmissCnt n.val) = s.reg (canTtRefmissCnt n.val) + 1 ∧ Framed [.can] [canTtRefmissCnt n.val] [] s t) ∧
     (¬ misses → Idle (.canTtRefMiss n) s)) ∧
    (s.markDue n col = false → Idle (.canTimeMark n col busy) s) ∧
    (s.markDue n col = true →
      let y := { x with col := BitVec.ofNat 5 col.val, served := setBit x.served col.val true }
      let e := s.tab (.can n) 2 (32 * x.cyc.toNat + col.val)
      let b : Fin 64 := Fin.ofNat 64 (fieldOf e 0 6)
      let w := s.tab (.can n) 1 (20 * b.val + 1)
      let ready := tabKey (blkIdx (.can n)) 1 (20 * b.val + 1)
      let at_ := fieldOf (s.tab (.can n) 3 col.val) 0 23
      let ends := x.cycAt + (if bitOf e 30 then s.canArbEnd n at_ else at_ + s.canWin n)
      let mark := Instr.canTimeMark n col busy
      (bitOf e 31 = false → Ends mark s fun t => is y t ∧ Framed [.can] [] [] s t) ∧
      (bitOf e 31 = true → bitOf w 8 = false → Ends mark s fun t => is y t ∧
        t.reg (canTxEmptyCnt n.val) = s.reg (canTxEmptyCnt n.val) + 1 ∧ Framed [.can] [canTxEmptyCnt n.val] [] s t) ∧
      (bitOf e 31 = true → bitOf w 8 = true →
        let kept := fun t : State => t.tab (.can n) 1 (20 * b.val + 1) = if bitOf w 9 then w else setBit w 8 false
        (free → Ends mark s fun t => kept t ∧ Framed [.can] [] [ready] s t ∧ starts (queued y
          ⟨some b, some col, x.cyc, !bitOf e 30, s.tabWords (.can n) 1 (20 * b.val) 20, x.cycAt + at_, ends⟩) t) ∧
        (¬ free → bitOf cfg 29 = false → x.events.length < 32 → Ends mark s fun t => kept t ∧
          t.reg (canTxFailCnt n.val) = s.reg (canTxFailCnt n.val) + 1 ∧
          (let st := if s.fenced (23 + n.val) then stFenced else stBusError
           let err := if s.fenced (23 + n.val) then 0 else 7
           outcome b st err t ∧ is { y with events := x.events ++
             [(event ⟨some b, some col, x.cyc, true, [], 0, 0⟩ b col st err, 0)] } t) ∧
          Framed [.can] fails [ready, tabKey (blkIdx (.can n)) 1 (20 * b.val + 2)] s t))) ∧
    (∀ c, (∀ a ∈ x.tries, a.col = c → now < a.closes) → Idle (.canTxLate n c) s) ∧
    (∀ a b before rest, x.tries = before ++ a :: rest → (∀ u ∈ before, u.col = some col → now < u.closes) →
      a.col = some col → a.closes ≤ now → a.buf = some b → bitOf cfg 29 = false →
      let last := tabKey (blkIdx (.can n)) 1 (20 * b.val + 2)
      let z := { x with tries := before ++ rest }
      Ends (.canTxLate n (some col)) s fun t => outcome b stLate 0 t ∧
        t.reg (canTxFailCnt n.val) = s.reg (canTxFailCnt n.val) + 1 ∧
        (x.events.length < 32 → is { z with events := x.events ++ [(event a b col stLate 0, 0)] } t ∧
          Framed [.can] fails [last] s t) ∧
        (32 ≤ x.events.length → is z t ∧ t.reg (canTxevDropCnt n.val) = s.reg (canTxevDropCnt n.val) + 1 ∧
          Framed [.can] (canTxevDropCnt n.val :: fails) [last] s t)) ∧
    (x.sending = none → Idle (.canTxEnd n o ago loop) s) ∧
    (∀ a, x.sending = some a → s.canEnds n a o ago = false → Idle (.canTxEnd n o ago loop) s) ∧
    (∀ a b, x.sending = some a → s.canEnds n a o ago = true → a.col = some col → a.buf = some b → bitOf cfg 29 = false →
      x.events.length < 32 →
      let ns := w32 (dtNs (s.canStamp n ago).t)
      let w := a.words.getD 0 0
      let measures := bitOf (s.reg (canTdc n.val)) 31 = true ∧ bitOf w 30 = true ∧ bitOf w 29 = true ∧ o ≠ .arbLost
      let z := { x with tdcv := if measures then min loop 127 else x.tdcv, sending := none, foreign := decide (o = .arbLost) }
      let sat := if measures ∧ 127 < loop then [canTdcSatCnt n.val] else []
      let off : Bool := 255 < x.txErr + 8
      let ends := fun st err regs (y : CanState) => Ends (.canTxEnd n o ago loop) s fun t => outcome b st err t ∧
        starts { y with events := x.events ++ [(event a b col st err, ns)] } t ∧
        (∀ k ∈ regs ++ sat, t.reg k = s.reg k + 1) ∧
        Framed [.can] (regs ++ sat) [tabKey (blkIdx (.can n)) 1 (20 * b.val + 2)] s t
      (o = .ok → ends stOk 0 [canTxOkCnt n.val] { z with txErr := x.txErr - 1 }) ∧
      (o = .arbLost → ends stRetry 0 (canTxArblostCnt n.val :: if a.excl then [canTtExclViolCnt n.val] else []) z) ∧
      (o = .collision → ends stIdCollision 1
        ([canErrBitCnt n.val, canIdcollCnt n.val, canTxFailCnt n.val] ++ if off then [canBusoffCnt n.val] else [])
        { z with txErr := x.txErr + 8, busOff := off, prog := if off then 0 else x.prog }) ∧
      (o = .bitErr → ends stBusError 2 fails z) ∧ (o = .stuffErr → ends stBusError 3 fails z) ∧
      (o = .formErr → ends stBusError 4 fails z) ∧ (o = .ackErr → ends stBusError 5 fails z) ∧
      (o = .otherFlag → ends stBusError 6 fails z)) ∧
    (∀ a, x.sending = some a → s.canEnds n a o ago = true → a.buf = none → Ends (.canTxEnd n o ago loop) s fun t =>
      t.reg (canTtRefmissCnt n.val) = s.reg (canTtRefmissCnt n.val) + w32 (b2n (o ≠ .ok)))

/-- A channel that does not run issues nothing. An instruction that faults leaves the channel in FAULT with the lowest code that applies: 1 a reserved register, 2 a pin without a valid map entry, 3 AT with a STAMP of 10^9 or more, 4 a queue the JOIN mode does not give, 5 a SHIFT of 0 bits. Else: PINS and DIR set, clear and toggle the levels and directions, crossing the ball 16 QCLK after issue or at a hold's S; a pin not owned counts; SHIFT starts; PULL and PUSH move a word or wait; MOV, LDI and ADD write X, Y, STAMP, OSR or ISR, a STAMP sum modulo 10^9; JMP goes where its condition holds, Y then one less; AT and WAITEV hold, or are LATE with less than 96 ns left; STOP stops. -/
def Obligations.SequencerInstructions : Prop :=
  ∀ (s : State) (c : Fin 64) (a b g : Byte) (o : ShiftOp) (n : BitVec 12) (d r cond : BitVec 3) (hi srcx : Bool)
    (imm : BitVec 16) (pin : Fin 8) (target : BitVec 10), s.storesWf →
    let x := s.psq.ch[c]
    let runs := s.psqRuns c = true ∧ x.st = .running
    let is := fun y (t : State) => t.psq = { s.psq with ch := vset s.psq.ch c y }
    let go := fun y : Chan => { y with pc := x.pc + 1, landAt := none }
    let land := x.landAt.getD (s.clk.tick + 16)
    let valid := fun m : Byte => ∀ p < 8, m.getLsbD p = true → s.pinValid c p = true
    let strange := fun m : Byte => ∃ p < 8, m.getLsbD p = true ∧ s.pinOwned c p = false
    let pins := Instr.psqPins c a b g
    let dir := Instr.psqDir c a b
    let shift := Instr.psqShift c o.out o.inp o.clk o.dout o.din o.cpol o.cpha o.msb o.noclk n
    let onPins := (o.noclk = false → s.pinValid c o.clk.val = true) ∧ (o.out = true → s.pinValid c o.dout.val = true) ∧
      (o.inp = true → s.pinValid c o.din.val = true)
    let queues := (o.out = true → s.txCap c ≠ 0) ∧ (o.inp = true → s.rxCap c ≠ 0)
    let every := [Instr.psqNop c, pins, dir, shift, .psqPull c, .psqPush c, .psqMov c d r, .psqLdi c d hi imm,
      .psqAdd c d srcx imm, .psqJmp c cond pin target, .psqAt c, .psqWaitev c, .psqStopInstruction c]
    (¬ runs → ∀ i ∈ every, Idle i s) ∧
    (runs → s.psq.swap = 0 →
      let faults := fun i code => Ends i s fun t => Framed [.psq] [] [] s t ∧
        is { x with st := .fault, fault := code, holdFor := none, landAt := none, moving := false } t
      (4 < d.toNat ∨ 5 < r.toNat → faults (.psqMov c d r) 1) ∧
      (2 < d.toNat → faults (.psqLdi c d hi imm) 1 ∧ faults (.psqAdd c d srcx imm) 1) ∧
      (¬ valid (a ||| b ||| g) → faults pins 2) ∧ (¬ valid (a ||| b) → faults dir 2) ∧ (¬ onPins → faults shift 2) ∧
      (cond = 4 ∨ cond = 5 → s.pinValid c pin.val = false → faults (.psqJmp c cond pin target) 2) ∧
      (1000000000 ≤ (s.reg (psqChStamp c.val)).toNat → faults (.psqAt c) 3) ∧
      (s.txCap c = 0 → faults (.psqPull c) 4) ∧ (s.rxCap c = 0 → faults (.psqPush c) 4) ∧
      (onPins → ¬ queues → faults shift 4) ∧ (onPins → queues → n = 0 → faults shift 5) ∧
      Ends (.psqStopInstruction c) s fun t => Framed [.psq] [] [] s t ∧
        is { go x with st := .stopped, shift := none, holdFor := none, moving := false } t) ∧
    (runs →
      let ends := fun i y regs => Ends i s fun t => is y t ∧ Framed [.psq] regs [] s t
      let rej := psqChPinrejCnt c.val
      let effect := fun i lv dr bad => Ends i s fun t => is (go { x with lv := lv, dir := dr, fx := s.pendFx c land }) t ∧
        Sends [.pinEffect c land lv dr] s t ∧ t.reg rej = s.reg rej + (if bad then 1 else 0) ∧
        Framed [.psq] [rej] [] s t
      let X := psqChX c.val
      let Y := psqChY c.val
      let S := psqChStamp c.val
      ends (.psqNop c) (go x) [] ∧
      (∀ bad : Bool, (bad = true ↔ strange (a ||| b ||| g)) → valid (a ||| b ||| g) →
        effect pins (((x.lv ||| a) &&& ~~~b) ^^^ g) x.dir bad) ∧
      (∀ bad : Bool, (bad = true ↔ strange a) → valid (a ||| b) → effect dir x.lv ((x.dir ||| a) &&& ~~~b) bad) ∧
      (onPins → queues → n ≠ 0 → o.n = n.toNat → Ends shift s fun t => Framed [.psq] [rej] [] s t ∧
        is (go { x with st := .shifting, shift := some ⟨o, o.n, land, [], land, none⟩ }) t) ∧
      (s.txCap c ≠ 0 → (x.txq = [] → ends (.psqPull c) { x with st := .waitQueue, push := false } []) ∧
        (∀ v q, x.txq = v :: q → ends (.psqPull c) (go { x with osr := v, osrBits := 32, txq := q }) [])) ∧
      (s.rxCap c ≠ 0 → (s.rxCap c ≤ x.rxq.length → ends (.psqPush c) { x with st := .waitQueue, push := true } []) ∧
        (x.rxq.length < s.rxCap c →
          ends (.psqPush c) (go { x with rxq := x.rxq ++ [x.isr], isr := 0, isrBits := 0 }) [])) ∧
      (d.toNat ≤ 4 → r.toNat ≤ 5 →
        let v := [s.reg X, s.reg Y, s.reg S, x.osr, x.isr].getD r.toNat (w32 (dtNs (s.time 0)))
        (∀ k, (d, k) ∈ [(0, X), (1, Y), (2, S)] → Ends (.psqMov c d r) s fun t => is (go x) t ∧ t.reg k = v ∧
          Framed [.psq] [k] [] s t) ∧
        (d = 3 → ends (.psqMov c d r) (go { x with osr := v, osrBits := 32 }) []) ∧
        (d = 4 → ends (.psqMov c d r) (go { x with isr := v, isrBits := 0 }) [])) ∧
      (∀ k, (d, k) ∈ [(0, X), (1, Y), (2, S)] →
        (Ends (.psqLdi c d hi imm) s fun t => is (go x) t ∧ Framed [.psq] [k] [] s t ∧
          t.reg k = if hi then imm ++ (s.reg k).extractLsb' 0 16 else imm.setWidth 32) ∧
        (Ends (.psqAdd c d srcx imm) s fun t => is (go x) t ∧ Framed [.psq] [k] [] s t ∧
          (d ≠ 2 → t.reg k = s.reg k + if srcx then s.reg X else imm.signExtend 32) ∧
          (d = 2 → (s.reg k).toNat < 1000000000 → ((t.reg k).toNat : Int) =
            (((s.reg k).toNat : Int) + if srcx then ((s.reg X).toNat : Int) else imm.toInt) % 1000000000))) ∧
      (let holds := match cond.toNat with
         | 0 => True
         | 1 => s.reg X = 0
         | 2 => s.reg X ≠ 0
         | 3 => s.reg Y ≠ 0
         | 4 => s.pinLevel c pin.val = true
         | 5 => s.pinLevel c pin.val = false
         | 6 => x.txq = []
         | _ => s.rxCap c ≤ x.rxq.length
       let jmp := Instr.psqJmp c cond pin target
       cond ≠ 4 ∧ cond ≠ 5 ∨ s.pinValid c pin.val = true →
         (¬ holds → ends jmp (go x) []) ∧
         (holds → cond ≠ 3 → ends jmp { x with pc := target, landAt := none } []) ∧
         (holds → cond = 3 → Ends jmp s fun t => is { x with pc := target, landAt := none } t ∧
           t.reg Y = s.reg Y - 1 ∧ Framed [.psq] [Y] [] s t)) ∧
      (let late := fun i y => Ends i s fun t => is y t ∧ t.reg (psqChLateCnt c.val) = s.reg (psqChLateCnt c.val) + 1 ∧
         Framed [.psq] [psqChLateCnt c.val] [] s t
       (∀ k, (s.reg S).toNat < 1000000000 → s.ticksToStamp (s.reg S).toNat = some k →
         (k < 48 → late (.psqAt c) (go { x with holdFor := none })) ∧
         (48 ≤ k → ends (.psqAt c) (go { x with st := .waitAt, holdFor := none }) [])) ∧
       ((s.reg S).toNat < 1000000000 → s.ticksToStamp (s.reg S).toNat = none →
         ends (.psqAt c) (go { x with st := .waitAt, holdFor := none }) []) ∧
       (x.ev = none → ends (.psqWaitev c) (go { x with st := .waitEv }) []) ∧
       (∀ f, x.ev = some f →
         (f + 72 < s.clk.tick + 48 → late (.psqWaitev c) (go { x with ev := none, holdFor := none })) ∧
         (s.clk.tick + 48 ≤ f + 72 →
           ends (.psqWaitev c) (go { x with ev := none, st := .waitAt, holdFor := some (f + 72) }) []))))

/-- A hold whose turn has come ends and the next instruction issues, its effect at S, or LATE with S less than 32 ns ahead. An action start event is latched, and counts where one is held or the block is in hold; a channel in WAIT_EV takes it. A shift without reload shifts its bits out or in by its bit order and ends with CLK at CPOL; with no word for OSR it stalls, counted. A wait on a queue ends once it is served. A TX word beyond the capacity is dropped and counted, a read of an empty RX queue returns 0 and counts. START runs a stopped channel from ENTRY, rejected without EN; in hold it stays STOPPED. STOP stops it; of a shift not yet begun the first pin effect still lands. A swap moves the channels at their boundaries; when the last has moved, the new bank is active. -/
def Obligations.SequencerHoldsShiftsQueuesAndBanks : Prop :=
  ∀ (s : State) (m : Master) (c : Fin 64) (v : Word) (st : Bool) (es : BitVec 2) (a b g : Byte) (samples : List Bool),
    s.storesWf →
    let x := s.psq.ch[c]
    let may := s.psqRuns c = true
    let is := fun y (t : State) => t.psq = { s.psq with ch := vset s.psq.ch c y }
    let ends := fun i y => Ends i s fun t => is y t ∧ Framed [.psq] [] [] s t
    (¬ may ∨ s.holdOver c = false → Idle (.psqHoldRelease c) s) ∧
    (∀ k, may → s.holdOver c = true → s.holdLeft c = some k → s.psqFetch c = .pins a b g →
      (∀ p < 8, (a ||| b ||| g).getLsbD p = true → s.pinValid c p = true ∧ s.pinOwned c p = true) →
      let lv := ((x.lv ||| a) &&& ~~~b) ^^^ g
      let y := fun land => { x with
        st := .running
        holdFor := none
        landAt := none
        lv := lv
        fx := s.pendFx c land
        pc := x.pc + 1 }
      (16 ≤ k → Ends (.psqHoldRelease c) s fun t => is (y (s.clk.tick + k)) t ∧
        Sends [.pinEffect c (s.clk.tick + k) lv x.dir] s t ∧ Framed [.psq] [] [] s t) ∧
      (k < 16 → Ends (.psqHoldRelease c) s fun t => is (y (s.clk.tick + 16)) t ∧ Sends [.pinEffect c (s.clk.tick + 16) lv x.dir] s t ∧
        t.reg (psqChLateCnt c.val) = s.reg (psqChLateCnt c.val) + 1 ∧ Framed [.psq] [psqChLateCnt c.val] [] s t)) ∧
    ((∀ p ∈ s.psq.events, p.1 ≠ c) → Idle (.psqEventLatch c) s) ∧
    (∀ f rest, s.psq.events = (c, f) :: rest →
      let ev := Instr.psqEventLatch c
      let now := fun y (t : State) => t.psq = { s.psq with events := rest, ch := vset s.psq.ch c y }
      (x.ev.isSome = true ∨ s.inHold .psq = true → Ends ev s fun t => now x t ∧
        t.reg (psqChEvovrCnt c.val) = s.reg (psqChEvovrCnt c.val) + 1 ∧ Framed [.psq] [psqChEvovrCnt c.val] [] s t) ∧
      (x.ev = none → s.inHold .psq = false → x.st ≠ .waitEv ∨ ¬ may → Ends ev s fun t => now { x with ev := some f } t ∧
        Framed [.psq] [] [] s t) ∧
      (x.ev = none → may → x.st = .waitEv →
        (s.clk.tick + 48 ≤ f + 72 → Ends ev s fun t => Framed [.psq] [] [] s t ∧
          now { x with st := .waitAt, holdFor := some (f + 72), landAt := none } t) ∧
        (f + 72 < s.clk.tick + 48 → Ends ev s fun t => now { x with st := .running, holdFor := none, landAt := none } t ∧
          t.reg (psqChLateCnt c.val) = s.reg (psqChLateCnt c.val) + 1 ∧ Framed [.psq] [psqChLateCnt c.val] [] s t))) ∧
    (x.st ≠ .shifting ∨ s.fenced (27 + c.val / 32) = true → Idle (.shiftDone c samples) s) ∧
    (∀ h, x.st = .shifting → s.fenced (27 + c.val / 32) = false → x.shift = some h → h.due = [] → s.inHold .psq = false →
      h.op.noclk = false → h.op.clk ≠ h.op.dout →
      let o := h.op
      (o.out = true → o.inp = false → 0 < h.left → h.left ≤ x.osrBits → Ends (.shiftDone c samples) s fun t =>
        let last := if o.msb then x.osr.getLsbD (32 - h.left) else x.osr.getLsbD (h.left - 1)
        Framed [.psq] [] [] s t ∧ is { x with
          st := .running
          shift := none
          osr := if o.msb then x.osr <<< h.left else x.osr >>> h.left
          osrBits := x.osrBits - h.left
          lv := t.psq.ch[c].lv } t ∧
        t.psq.ch[c].lv.getLsbD o.clk.val = o.cpol ∧ (h.left ≤ 32 → t.psq.ch[c].lv.getLsbD o.dout.val = last) ∧
        (∀ p < 8, p ≠ o.clk.val → p ≠ o.dout.val → t.psq.ch[c].lv.getLsbD p = x.lv.getLsbD p)) ∧
      (o.out = false → o.inp = true → 0 < h.left → samples.length = h.left → x.isrBits + h.left < 32 →
        Ends (.shiftDone c samples) s fun t => Framed [.psq] [] [] s t ∧
          (∀ p < 8, p ≠ o.clk.val → t.psq.ch[c].lv.getLsbD p = x.lv.getLsbD p) ∧
          t.psq.ch[c].lv.getLsbD o.clk.val = o.cpol ∧
          is { x with
            st := .running
            shift := none
            isr := samples.foldl (fun w b => if o.msb then (w <<< 1) ||| w32 (b2n b) else (w >>> 1) ||| w32 (2 ^ 31 * b2n b)) x.isr
            isrBits := x.isrBits + h.left
            lv := t.psq.ch[c].lv } t) ∧
      (o.out = true → o.inp = false ∨ x.isrBits < 32 → 0 < h.left → x.osrBits = 0 → x.txq = [] → Ends (.shiftDone c samples) s fun t =>
        let lv := setBit x.lv o.clk.val o.cpol
        is { x with
          st := .shiftStalled
          push := false
          lv := (match h.dbit with
            | some v => if h.ends ≤ h.next + s.psqDiv c then setBit lv o.dout.val v else lv
            | none => lv)
          shift := some { h with dbit := none } } t ∧
        t.reg (psqChStallCnt c.val) = s.reg (psqChStallCnt c.val) + 1 ∧ Framed [.psq] [psqChStallCnt c.val] [] s t)) ∧
    (let served := (x.push = true ∧ x.rxq.length < s.rxCap c) ∨ (x.push = false ∧ x.txq ≠ [])
     let pushed := { x with rxq := x.rxq ++ [x.isr], isr := 0, isrBits := 0 }
     let mayShift := s.psqCompletes c = true
     (¬ (x.st = .waitQueue ∧ may) → ¬ (x.st = .shiftStalled ∧ mayShift) → Idle (.psqQueueResume c) s) ∧
     (¬ served → Idle (.psqQueueResume c) s) ∧
     (may → served → x.st = .waitQueue →
       let go := fun y : Chan => { y with st := .running, pc := x.pc + 1, landAt := none }
       (x.push = true → ends (.psqQueueResume c) (go pushed)) ∧
       (∀ w q, x.push = false → x.txq = w :: q →
         ends (.psqQueueResume c) (go { x with osr := w, osrBits := 32, txq := q }))) ∧
     (∀ h, mayShift → served → x.st = .shiftStalled → x.shift = some h →
       let h' := { h with next := s.clk.tick + 16 }
       ends (.psqQueueResume c) { (if x.push then pushed else x) with st := .shifting, shift := some h' })) ∧
    (Open s m true (psqChTxq c.val) →
      (x.txq.length < s.txCap c → ends (.psqTxqWrite m c v) { x with txq := x.txq ++ [v] }) ∧
      (s.txCap c ≤ x.txq.length → Ends (.psqTxqWrite m c v) s fun t =>
        t.reg (psqChTxqDropCnt c.val) = s.reg (psqChTxqDropCnt c.val) + 1 ∧
        Framed [] [psqChTxqDropCnt c.val] [] s t)) ∧
    (Open s m false (psqChRxq c.val) →
      (∀ w q, x.rxq = w :: q → Ends (.psqRxqRead m c) s fun t => is { x with rxq := q } t ∧
        Sends [.readData m (w32 (psqChRxq c.val)) w] s t ∧ Framed [.psq] [] [] s t) ∧
      (x.rxq = [] → Ends (.psqRxqRead m c) s fun t => Sends [.readData m (w32 (psqChRxq c.val)) 0] s t ∧
        t.reg (psqChRxqEmptyCnt c.val) = s.reg (psqChRxqEmptyCnt c.val) + 1 ∧
        Framed [] [psqChRxqEmptyCnt c.val] [] s t)) ∧
    (Open s m true (psqChCtrl c.val) →
      let entry := (s.reg (psqChEntry c.val)).setWidth 10
      let keep := bitOf (s.reg (psqChCfg c.val)) 31
      let y := if keep then x else { x with osr := 0, isr := 0, osrBits := 0, isrBits := 0 }
      (s.en .psq = false → Ends (.psqStart m c) s (Rejected .psq (psqChCtrl c.val % 2 ^ 22) s)) ∧
      (s.en .psq = true →
        (x.st = .stopped ∨ x.st = .fault →
          ends (.psqStart m c) { y with
            st := if s.inHold .psq then .stopped else .running
            fault := 0
            pc := entry
            landAt := none }) ∧
        (x.st ≠ .stopped → x.st ≠ .fault → Idle (.psqStart m c) s)) ∧
      (s.psq.swap = 0 → Ends (.psqStop m c st) s fun t => Framed [.psq] [] [] s t ∧
        is { x with
          st := .stopped
          lv := t.psq.ch[c].lv
          fx := t.psq.ch[c].fx
          shift := none
          holdFor := none
          landAt := none
          moving := false } t ∧
        (x.st ≠ .shifting → t.psq.ch[c].lv = x.lv ∧ t.psq.ch[c].fx = x.fx) ∧
        (∀ h, x.st = .shifting → x.shift = some h → h.left = h.op.n → s.clk.tick < h.next →
          t.psq.ch[c].lv = firstLevels x h.op ∧ t.psq.ch[c].fx = s.pendFx c h.next ∧
          Sends [.pinEffect c h.next (firstLevels x h.op) x.dir] s t))) ∧
    (let free := fun k : Fin 64 => s.psq.ch[k].st = .stopped ∨ s.psq.ch[k].st = .fault
     (Open s m true psqCmd → es ≠ 0 → (∀ e < 2, es.getLsbD e = true → s.fenced (27 + e) = true) →
       Ends (.psqSwap m es) s fun t => Framed [.hif] [glbSupBuserrCnt, hifBuserrDropCnt] [] s t ∧
         (m = .sup → t.reg glbSupBuserrCnt = s.reg glbSupBuserrCnt + 1)) ∧
     (Open s m true psqCmd → (∀ e < 2, es.getLsbD e = true → s.fenced (27 + e) = false) → s.psq.swap = 0 → Ends (.psqSwap m es) s fun t => Framed [.psq] [] [] s t ∧
       t.psq.events = s.psq.events ∧ t.psq.again = s.psq.again ∧
       (∀ e < 2, es.getLsbD e = true → (∀ k : Fin 64, k.val / 32 = e → free k) →
         t.psq.active.getLsbD e = !s.psq.active.getLsbD e ∧ t.psq.swap.getLsbD e = false) ∧
       (∀ e < 2, ∀ j : Fin 64, es.getLsbD e = true → j.val / 32 = e → ¬ free j →
         t.psq.active.getLsbD e = s.psq.active.getLsbD e ∧ t.psq.swap.getLsbD e = true) ∧
       (∀ k : Fin 64, es.getLsbD (k.val / 32) = true → t.psq.ch[k] = { s.psq.ch[k] with moving := decide (¬ free k) }) ∧
       (∀ e < 2, es.getLsbD e = false → t.psq.active.getLsbD e = s.psq.active.getLsbD e ∧ t.psq.swap.getLsbD e = false) ∧
       ∀ k : Fin 64, es.getLsbD (k.val / 32) = false → t.psq.ch[k] = s.psq.ch[k]) ∧
     (let moves := x.moving = true ∧ may ∧ (x.st = .running ∨ x.st = .waitAt ∨ x.st = .waitEv ∨ x.st = .waitQueue)
      (¬ moves → Idle (.psqChannelBankMove c) s) ∧
      (moves → Ends (.psqChannelBankMove c) s fun t => Framed [.psq] [] [] s t ∧
        (let y := if bitOf (s.reg (psqChCfg c.val)) 31 then x else { x with osr := 0, isr := 0, osrBits := 0, isrBits := 0 }
         t.psq.ch[c] = { y with
           st := .running
           pc := (s.reg (psqChEntry c.val)).setWidth 10
           holdFor := none
           landAt := none
           moving := false }) ∧
        (∀ k : Fin 64, k ≠ c → t.psq.ch[k] = s.psq.ch[k]) ∧
        (s.psq.swap.getLsbD (c.val / 32) = true →
          (let last := ∀ k : Fin 64, k.val / 32 = c.val / 32 → k ≠ c → s.psq.ch[k].moving = false
           (last → t.psq.swap.getLsbD (c.val / 32) = false ∧
             t.psq.active.getLsbD (c.val / 32) = !s.psq.active.getLsbD (c.val / 32)) ∧
           (¬ last → t.psq.swap = s.psq.swap ∧ t.psq.active = s.psq.active))))))

/-- On a link that is up, a write of a context's page, ON and of that link, moves the TX or RX producer index where the work posted does not shrink, counted from the head, and the completion consumer index where the new one lies between the old one and the producer index; bits [31:16] of the word are ignored. Every other such write, and every write to the page of a context that is not ON or of the other link, is dropped and counted in HIF_DB_BAD_CNT, with no other effect. A device that is the SHADOW of a pair forwards doorbells instead and is not meant here. -/
def Obligations.IndexWritesOnDoorbells : Prop :=
  ∀ (s : State) (link : Bool) (c : Fin 256) (v : Word), s.storesWf → s.linkUp link = true → s.shadowed = false →
    let x := s.hctx c
    let on := s.ctxState c = 1 ∧ s.ctxLink c = link
    let p := v.toNat % 65536
    let far := fun size a b => (a % size + size - b % size) % size
    let tx := Instr.txProducerWrite link c v
    let rx := Instr.rxProducerWrite link c v
    let cq := Instr.cqConsumerWrite link c v
    let grows := far (s.txSize c) x.txPi.toNat (s.txHead c) ≤ far (s.txSize c) p (s.txHead c)
    let growsR := far (s.rxSize c) x.rxPi.toNat (s.rxHead c) ≤ far (s.rxSize c) p (s.rxHead c)
    let between := far (s.cqSize c) p x.cqCi.toNat ≤ far (s.cqSize c) (s.cqPi c) x.cqCi.toNat
    let dropped := fun k => Ends k s fun t => t.reg hifDbBadCnt = s.reg hifDbBadCnt + 1 ∧ Framed [] [hifDbBadCnt] [] s t
    (∀ k ∈ [tx, rx, cq, .abortRequest link c v], ¬ on → dropped k) ∧
    (on → grows → Ends tx s fun t => CtxIs c { x with txPi := BitVec.ofNat 16 (p % s.txSize c) } s.hif.reads s t ∧
      Framed [.hif] [] [] s t) ∧
    (on → growsR → Ends rx s fun t => CtxIs c { x with rxPi := BitVec.ofNat 16 (p % s.rxSize c) } s.hif.reads s t ∧
      Framed [.hif] [] [] s t) ∧
    (on → between → Ends cq s fun t => (t.hctx c).cqCi = BitVec.ofNat 16 (p % s.cqSize c) ∧
      (t.hctx c).txPi = x.txPi ∧ (t.hctx c).rxPi = x.rxPi ∧ (∀ d, d ≠ c → t.hctx d = s.hctx d) ∧
      (x.txq = [] → x.rxq = [] → CtxIs c { x with cqCi := BitVec.ofNat 16 (p % s.cqSize c) } s.hif.reads s t ∧
        Framed [.hif] [] [] s t)) ∧
    (on → ¬ grows → dropped tx) ∧ (on → ¬ growsR → dropped rx) ∧ (on → ¬ between → dropped cq)

/-- ENABLE turns a context ON from its start where R297 allows it, else its status is BUS_ERROR. DISABLE of an ON context drains it: descriptors still reading end DISABLED, reads are unwanted. At the end of draining every descriptor left completes in order, and the context is OFF; with its link gone nothing is written. No doorbell arrives on a link that is down; a SHADOW forwards it. An abort is held, or refused with RETRY or BUS_ERROR at once. Evaluated, it reads DISABLED, ABORT_LATE for a descriptor that left its ring or has its result, else OK, and the descriptor completes ABORTED in its turn. -/
def Obligations.ContextsEnableDrainAndAbort : Prop :=
  ∀ (s : State) (m : Master) (link en : Bool) (c : Fin 256) (v : Word) (stalls : BitVec 16), s.storesWf →
    let x := s.hctx c
    let st := s.ctxState c
    let w := s.ctxWord c
    let shown := fun (status : Byte) (t : State) => t.reg hifCtxCmd = w32 (65536 * status.toNat + c.val)
    let lg := fun n => 4 ≤ n ∧ n ≤ 16
    let may := st = 0 ∧ s.en .hif = true ∧ s.linkUp (s.ctxLink c) = true ∧ (s.ctxLink c = true → s.bif = true) ∧
      lg (fieldOf (w 0) 8 5) ∧ lg (fieldOf (w 0) 0 5) ∧ lg (fieldOf (w 1) 0 5) ∧
      (w 2).toNat % 64 = 0 ∧ (w 4).toNat % 64 = 0 ∧ (w 6).toNat % 64 = 0
    (Open s m true hifCtxCmd →
      (may → Ends (.ctxEnable m c) s fun t => CtxIs c { HostCtx.reset with
            modCnt := x.modCnt
            timer := x.timer
            abortSt := x.abortSt
            abortAt := x.abortAt } s.hif.reads s t ∧ t.ctxWord c 9 = 1 ∧
        t.ctxWord c 10 = 0 ∧ t.ctxWord c 11 = 0x10000 ∧ shown stOk t ∧
        Framed [.hif] [hifCtxCmd] (ctxKeys c 9 3) s t) ∧
      (¬ may → Ends (.ctxEnable m c) s fun t => shown stBusError t ∧ Framed [] [hifCtxCmd] [] s t) ∧
      (st ≠ 1 → Ends (.ctxDisable m c en) s fun t => shown stOk t ∧ Framed [] [hifCtxCmd] [] s t) ∧
      (st = 1 → (∀ d ∈ x.txq, d.phase = .reading → d.whole = false) → x.txq = [] ∨ s.cqRoom c = false →
        let end_ := fun d : TxDesc => if d.phase = .reading then { d with phase := .done stDisabled 0, parts := [] } else d
        Ends (.ctxDisable m c en) s fun t => CtxIs c { x with txq := x.txq.map end_ } (readsLeft s c) s t ∧
          t.ctxWord c 9 = 2 ∧ shown stOk t ∧ Framed [.hif] [hifCtxCmd] (ctxKeys c 9 1) s t)) ∧
    (let over_ := fun reads keys regs (t : State) => CtxIs c (ctxEnded x) reads s t ∧ t.ctxState c = 0 ∧
       Framed [.hif] regs keys s t
     let due := st = 2 ∧ ∀ d ∈ x.txq, d.phase ≠ .lookup
     let empty := s.txHead c = x.txPi.toNat ∧ s.rxHead c = x.rxPi.toNat
     let done := Instr.ctxDrainDone c stalls
     (¬ due → Idle done s) ∧
     (due → x.mute = false → x.abort.isSome = true → Idle done s) ∧
     (due → x.mute = true → Ends done s (over_ (readsLeft s c) (ctxKeys c 9 1) [])) ∧
     (due → x.mute = false → x.abort = none → empty → Ends done s fun t =>
       t.reg hifCreditStallCnt = s.reg hifCreditStallCnt + stalls.setWidth 32 ∧
       over_ (readsLeft s c) (ctxKeys c 9 1) [hifCreditStallCnt] t) ∧
     (due → x.mute = false → x.abort = none → ¬ empty → s.cqRoom c = false → Ends done s fun t =>
       t.reg hifCreditStallCnt = s.reg hifCreditStallCnt + stalls.setWidth 32 ∧ Framed [] [hifCreditStallCnt] [] s t) ∧
     (∀ d a k, due → x.mute = false → x.abort = none → x.txq = [d] → d.phase = .done a k → k < 16 → d.idx = s.txHead c →
       x.txPi.toNat = (d.idx + 1) % s.txSize c → x.txPi.toNat ≠ d.idx → s.rxHead c = x.rxPi.toNat → s.cqRoom c = true →
       Ends done s fun t => t.ctxState c = 0 ∧ t.txHead c = x.txPi.toNat ∧ (t.hctx c).txq = [] ∧
         Sends [.hostWrite (s.ctxLink c) (BitVec.ofNat 64 (s.ctxBase c 6 8 + 16 * s.cqPi c))
           (leBytes (setBit (w32 (2 ^ 28 + 65536 * a.toNat + d.idx % 65536)) 31 (s.cqPhase c)) ++
             leBytes (w32 (65536 * fieldOf (d.words.getD 0 0) 0 16 + 4096 * k)) ++ leBytes 0 ++
             leBytes (d.words.getD 7 0))] s t) ∧
     (∀ d, due → x.mute = false → x.abort = none → x.rxq = [d] → d.idx = s.rxHead c → s.txHead c = x.txPi.toNat →
       x.rxPi.toNat = (d.idx + 1) % s.rxSize c → x.rxPi.toNat ≠ d.idx → s.cqRoom c = true →
       Ends done s fun t => t.ctxState c = 0 ∧ t.rxHead c = x.rxPi.toNat ∧ (t.hctx c).rxq = [] ∧
         Sends [.hostWrite (s.ctxLink c) (BitVec.ofNat 64 (s.ctxBase c 6 8 + 16 * s.cqPi c))
           (leBytes (setBit (w32 (2 ^ 29 + 65536 * (d.ended.getD stDisabled).toNat + d.idx % 65536)) 31 (s.cqPhase c)) ++
             leBytes 0 ++ leBytes 0 ++ leBytes (d.words.getD 7 0))] s t)) ∧
    (∀ k ∈ [(Instr.txProducerWrite link c v, 0), (.rxProducerWrite link c v, 4), (.cqConsumerWrite link c v, 8),
        (.abortRequest link c v, 12)],
      (s.linkUp link = false → Idle k.1 s) ∧
      (s.linkUp link = true → s.shadowed = true → Ends k.1 s fun t =>
        Sends [.twin 1 [w32 (b2n link), w32 (4096 * c.val + k.2), v]] s t ∧ Framed [] [] [] s t)) ∧
    (let target : BitVec 2 × BitVec 16 := (v.extractLsb' 16 2, v.extractLsb' 0 16)
     s.linkUp link = true → s.shadowed = false → st = 1 → s.ctxLink c = link → x.mute = false →
      let inside := target.1.toNat < 2 ∧ s.inRing c (decide (target.1 = 1)) target.2.toNat = true
      (x.abort.isSome = true → Ends (.abortRequest link c v) s (AbortReplied c stRetry target x s)) ∧
      (x.abort = none → ¬ inside → Ends (.abortRequest link c v) s (AbortReplied c stBusError target x s)) ∧
      (x.abort = none → inside → Ends (.abortRequest link c v) s fun t =>
        CtxIs c { x with abort := some target } s.hif.reads s t ∧ Framed [.hif] [] [] s t)) ∧
    (x.abort = none → Idle (.abortEvaluate c) s) ∧
    (∀ a, x.abort = some a → x.mute = false →
      let ev := Instr.abortEvaluate c
      let y : HostCtx := { x with abort := none }
      let i := a.2.toNat
      let bare := x.txq = [] ∧ x.rxq = []
      (st = 2 → Ends ev s (AbortReplied c stDisabled a y s)) ∧
      (st = 1 → s.inRing c (decide (a.1 = 1)) i = false → Ends ev s (AbortReplied c stAbortLate a y s)) ∧
      (st = 1 → s.inRing c (decide (a.1 = 1)) i = true → bare → Ends ev s (AbortReplied c stOk a
        (if a.1 = 1 then { y with rxAb := i :: x.rxAb } else { y with txAb := i :: x.txAb }) s)) ∧
      (st = 1 → s.inRing c (decide (a.1 = 1)) i = true → s.cqRoom c = false →
        (∀ d, a.1 ≠ 1 → x.txq.find? (fun d => d.idx = i) = some d →
          (∀ q k, d.phase = .done q k → (∀ e ∈ x.txq, e.phase ≠ .reading) →
            Ends ev s (AbortReplied c (if q = stAborted then stOk else stAbortLate) a y s)) ∧
          (d.phase = .lookup ∨ d.phase = .reading → (∀ e ∈ x.txq, e.idx ≠ i → e.phase ≠ .reading) →
            let reads := s.hif.reads.map fun r => if r.ctx = c ∧ readsFrame i r.kind = true then { r with kind := .discard } else r
            let end_ := fun e : TxDesc => if e.idx = i then { e with phase := .done stAborted 0, parts := [] } else e
            Ends ev s fun t => CtxIs c { y with txq := x.txq.map end_, abortSt := stOk, abortAt := a } reads s t ∧
              t.swc = { s.swc with ingress := s.swc.ingress.filter fun g => g.f.origin ≠ .host c.val i } ∧
              t.reg hifCqFullCnt = s.reg hifCqFullCnt + 1 ∧ Framed [.hif, .swc] [hifCqFullCnt] [] s t)) ∧
        (∀ d, a.1 = 1 → x.rxq.find? (fun d => d.idx = i) = some d → (∀ e ∈ x.txq, e.phase ≠ .reading) →
          (∀ q, d.ended = some q → Ends ev s (AbortReplied c (if q = stAborted then stOk else stAbortLate) a y s)) ∧
          (d.ended = none → Ends ev s (AbortReplied c stOk a { y with
            rxq := x.rxq.map fun e => if e.idx = i then { e with ended := some stAborted } else e } s)))) ∧
      (∀ d, st = 1 → a.1 = 1 → x.txq = [] → x.rxq = [d] → d.ended = none → d.idx = i → s.rxHead c = i →
        s.inRing c true i = true → s.cqPi c + 2 < s.cqSize c → s.cqSize c ≤ 65536 →
        2 ≤ idxDist (s.cqSize c) (x.cqCi.toNat + s.cqSize c - 1) (s.cqPi c) →
        let entry := fun k w0 (w3 : Word) => Output.hostWrite (s.ctxLink c)
          (BitVec.ofNat 64 (s.ctxBase c 6 8 + 16 * (s.cqPi c + k))) (leBytes (setBit (w32 w0) 31 (s.cqPhase c)) ++
            leBytes (if k = 0 then 0x10000 else 0) ++ leBytes 0 ++ leBytes w3)
        Ends ev s fun t => (t.hctx c).rxq = [] ∧ (t.hctx c).abort = none ∧ (t.hctx c).abortSt = stOk ∧
          t.ctxWord c 10 = setField (s.ctxWord c 10) 16 16 ((i + 1) % s.rxSize c) ∧
          ∃ l, (∀ o ∈ l, o = .msix (s.ctxLink c) c.val) ∧ Sends ([entry 0 (2 ^ 30 + i % 65536) 0] ++ l ++
            [entry 1 (2 ^ 29 + 65536 * stAborted.toNat + i % 65536) (d.words.getD 7 0)]) s t))

/-- In service, a fetch takes one run of the context whose turn it is: PRIO first, ascending from the one after the last served, at most 8 descriptors, none past the producer index, the ring's end or 4 KiB. A read that ends frees its number; a failed one counts. A TX descriptor fetched completes BUS_ERROR for another TYPE, TOO_LONG for LEN out of range, ABORTED after an abort, else its frame is read; its frame, once whole, waits for lookup at the link's port. An RX descriptor waits for a frame, or completes BUS_ERROR. What a failed read fetched ends BUS_ERROR; the words of a descriptor never read are open (log 22). No read exceeds 512 bytes or crosses 4 KiB. At its commit point a frame is classified and completes with its verdict. -/
def Obligations.DescriptorsAreFetchedReadAndCompleted : Prop :=
  ∀ (s : State) (rx : Bool) (c : Fin 256) (tag : Nat) (data : List Byte), s.storesWf →
    let x := s.hctx c
    let link := s.ctxLink c
    let fetch := Instr.descriptorFetch rx
    let serves := s.en .hif = true ∧ s.inHold .hif = false ∧ s.shadowed = false
    let room := fun (reads : List HostRead) => (reads.filter fun r => r.link = link).length < (if s.bif then 128 else 256)
    let txDue := fun d : Fin 256 => (s.hctx d).txFetch ≠ (s.hctx d).txPi ∧ s.cqRoom d = true
    let rxDue := fun d : Fin 256 => (s.hctx d).rxFetch ≠ (s.hctx d).rxPi
    let due := fun d : Fin 256 => s.ctxState d = 1 ∧ s.linkUp (s.ctxLink d) = true ∧
      s.readsOf (s.ctxLink d) < (if s.bif then 128 else 256) ∧ (txDue d ∨ rxDue d)
    let last := if s.ctxPrio c then s.hif.last1 else s.hif.last0
    let after := fun d : Fin 256 => (d.val + 511 - last % 256) % 256
    let run := fun base i pi size : Nat => min (min 8 ((pi % size + size - i % size) % size))
      (min (size - i) ((4096 - (base + i * 32) % 4096) / 32))
    let word0 := le32At data 0
    let ws : List Word := (List.range 8).map fun j => le32At data (4 * j)
    let aged := fun (t : State) shift (next : Nat) => t.ctxWord c 10 = setField (s.ctxWord c 10) shift 16 next
    (¬ serves ∨ (∀ d, ¬ due d) → Idle fetch s) ∧
    (serves → due c → (s.ctxPrio c = false → ∀ d, due d → s.ctxPrio d = false) →
        (∀ d, due d → s.ctxPrio d = s.ctxPrio c → after c ≤ after d) →
      let asks := fun y kind addr len => Ends fetch s fun t => t.hctx c = y ∧ (∀ d, d ≠ c → t.hctx d = s.hctx d) ∧
        t.hif.reads = s.hif.reads ++ [⟨s.hif.nextTag, c, link, kind⟩] ∧ t.hif.nextTag = s.hif.nextTag + 1 ∧
        (if s.ctxPrio c then t.hif.last1 = c.val ∧ t.hif.last0 = s.hif.last0
          else t.hif.last0 = c.val ∧ t.hif.last1 = s.hif.last1) ∧
        Sends [.hostRead link (BitVec.ofNat 64 addr) len] s t ∧ Framed [.hif] [] [] s t
      (rxDue c → rx = true ∨ ¬ txDue c →
        let n := run (s.ctxBase c 4 5) x.rxFetch.toNat x.rxPi.toNat (s.rxSize c)
        asks { x with rxFetch := BitVec.ofNat 16 ((x.rxFetch.toNat + n) % s.rxSize c) } (.rxRun x.rxFetch.toNat n)
          (s.ctxBase c 4 5 + x.rxFetch.toNat * 32) (n * 32)) ∧
      (txDue c → rx = false ∨ ¬ rxDue c →
        let n := run (s.ctxBase c 2 3) x.txFetch.toNat x.txPi.toNat (s.txSize c)
        asks { x with txFetch := BitVec.ofNat 16 ((x.txFetch.toNat + n) % s.txSize c) } (.txRun x.txFetch.toNat n)
          (s.ctxBase c 2 3 + x.txFetch.toNat * 32) (n * 32))) ∧
    (let ok := Instr.hostReadCompletion tag true data
     let fails := [Instr.hostReadCompletion tag false data, .completionTimeout tag]
     let left := s.hif.reads.filter fun r => r.tag ≠ tag
     let served := s.ctxState c = 1 ∧ s.cqRoom c = true ∧ x.mute = false
     let failed := fun t : State => t.reg hifRdErrCnt = s.reg hifRdErrCnt + 1
     (∀ k ∈ fetch :: ok :: fails, Ends k s fun t => ∀ l a n, Output.hostRead l a n ∈ t.out.drop s.out.length →
       n ≤ 512 ∧ a.toNat % 4096 + n ≤ 4096) ∧
     (s.hif.reads.find? (fun r => r.tag = tag) = none → ∀ k ∈ ok :: fails, Idle k s) ∧
     (s.hif.reads.find? (fun r => r.tag = tag) = some ⟨tag, c, link, .discard⟩ →
       (Ends ok s fun t => CtxIs c x left s t ∧ Framed [.hif] [] [] s t) ∧
       ∀ k ∈ fails, Ends k s fun t => CtxIs c x left s t ∧ failed t ∧ Framed [.hif] [hifRdErrCnt] [] s t) ∧
     (∀ i, s.hif.reads.find? (fun r => r.tag = tag) = some ⟨tag, c, link, .txRun i 1⟩ → served → x.txq = [] → x.rxq = [] →
         s.txHead c = i →
       let y := { x with txAb := x.txAb.filter fun j => j ≠ i }
       let len := fieldOf (le32At data 4) 0 19
       let fits := if bitOf word0 27 then fieldOf (le32At data 16) 24 8 ≤ len ∧ len ≤ 262272 else 14 ≤ len ∧ len ≤ 9212
       let fate : Option Byte := if i ∈ x.txAb then some stAborted else if fieldOf word0 28 4 ≠ 1 then some stBusError
         else if fits then none else some stTooLong
       (∀ q, fate = some q → Ends ok s fun t => t.hif.reads = left ∧ aged t 0 ((i + 1) % s.txSize c) ∧
         EntryWritten c [] (cqe0 1 q i) (w32 (65536 * fieldOf word0 0 16)) 0 (le32At data 28) (bitOf word0 26) y s t ∧
         Framed [.hif] [] (ctxKeys c 10 2) s t) ∧
       (let addr := (le32At data 8).toNat + 4294967296 * (le32At data 12).toNat
        fate = none → 0 < len → len ≤ 512 → addr % 4096 + len ≤ 4096 → room left → Ends ok s fun t =>
         t.hctx c = { y with txq := [⟨i, ws, .reading, len, []⟩] } ∧ (∀ d, d ≠ c → t.hctx d = s.hctx d) ∧
         t.hif.reads = left ++ [⟨s.hif.nextTag, c, link, .frame i 0 len⟩] ∧ t.hif.nextTag = s.hif.nextTag + 1 ∧
         Sends [.hostRead link (BitVec.ofNat 64 addr) len] s t ∧ Framed [.hif] [] [] s t) ∧
       ∀ k ∈ fails, i ∉ x.txAb → Ends k s fun t => failed t ∧ t.hif.reads = left ∧ aged t 0 ((i + 1) % s.txSize c) ∧
         (∃ g w3 irq, EntryWritten c [] (cqe0 1 stBusError i) (w32 (65536 * g)) 0 w3 irq x s t) ∧
         Framed [.hif, .free] [hifRdErrCnt] (ctxKeys c 10 2) s t) ∧
     (∀ i, s.hif.reads.find? (fun r => r.tag = tag) = some ⟨tag, c, link, .rxRun i 1⟩ → served → x.txq = [] → x.rxq = [] →
         s.rxHead c = i → i ∉ x.rxAb →
       (fieldOf word0 28 4 = 2 → Ends ok s fun t => CtxIs c { x with rxq := [⟨i, ws, none⟩] } left s t ∧
         Framed [.hif] [] [] s t) ∧
       (fieldOf word0 28 4 ≠ 2 → Ends ok s fun t => t.hif.reads = left ∧ aged t 16 ((i + 1) % s.rxSize c) ∧
         EntryWritten c [] (cqe0 2 stBusError i) 0 0 (le32At data 28) false x s t ∧ Framed [.hif] [] (ctxKeys c 10 2) s t) ∧
       ∀ k ∈ fails, Ends k s fun t => failed t ∧ t.hif.reads = left ∧ aged t 16 ((i + 1) % s.rxSize c) ∧
         (∃ w3, EntryWritten c [] (cqe0 2 stBusError i) 0 0 w3 false x s t) ∧
         Framed [.hif, .free] [hifRdErrCnt] (ctxKeys c 10 2) s t) ∧
     (∀ i n d, s.hif.reads.find? (fun r => r.tag = tag) = some ⟨tag, c, link, .frame i 0 n⟩ → served → x.txq = [d] →
         x.rxq = [] → d.idx = i → s.txHead c = i → d.phase = .reading → d.parts = [] → d.want = n →
         fieldOf (d.words.getD 1 0) 0 19 = n →
       (data.length = n → Ends ok s fun t => CtxIs c { x with txq := [{ d with phase := .lookup, parts := [] }] } left s t ∧
         t.swc = { s.swc with ingress := s.swc.ingress ++
           [⟨if link then 9 else 8, ⟨data, none, false, txReqOf d.words, .host c.val i⟩, s.swcTakes⟩] } ∧
         Framed [.hif, .swc] [] [] s t) ∧
       ∀ k ∈ fails, Ends k s fun t => failed t ∧ (∀ r ∈ t.hif.reads, r.ctx = c → readsFrame i r.kind = false) ∧
         aged t 0 ((i + 1) % s.txSize c) ∧
         EntryWritten c [] (cqe0 1 stBusError i) (w32 (65536 * fieldOf (d.words.getD 0 0) 0 16)) 0 (d.words.getD 7 0)
           (bitOf (d.words.getD 0 0) 26) { x with txq := [] } s t ∧
         Framed [.hif] [hifRdErrCnt] (ctxKeys c 10 2) s t)) ∧
    (let lp : Fin 22 := if link then 9 else 8
     let mine := ∃ f rest i, takeIngress lp s.swcTakes s.swc.ingress = some (f, rest) ∧ f.origin = .host c.val i
     let quiet := ∀ d ∈ x.txq.head?, ∀ a k, d.phase ≠ .done a k
     (¬ mine → quiet → Idle (.txCommit c) s) ∧
     (mine → quiet → x.txq.length ≤ 256 → exec (.txCommit c) s = exec (.frameClassify lp) s) ∧
     (∀ f rest i d, takeIngress lp s.swcTakes s.swc.ingress = some (f, rest) → f.origin = .host c.val i → f.req.seg = none →
       be16At f.bytes 12 ≠ 0x888E → (∀ r < 32, bitOf (s.tab .swc 3 (4 * r)) 31 = false) →
       s.isTpid (be16At f.bytes 12) = false → bitOf (s.lpWord lp.val 0) 14 = true →
       x.txq = [d] → d.idx = i → s.txHead c = i → d.phase = .lookup → s.cqRoom c = true → x.mute = false →
       Ends (.txCommit c) s fun t => t.swc = { s.swc with ingress := rest } ∧
         t.tab .swc 6 (16 * lp.val + 1) = s.tab .swc 6 (16 * lp.val + 1) + 1 ∧ aged t 0 ((i + 1) % s.txSize c) ∧
         EntryWritten c [] (cqe0 1 stOk i) (w32 (65536 * fieldOf (d.words.getD 0 0) 0 16 + 4096)) 0 (d.words.getD 7 0)
           (bitOf (d.words.getD 0 0) 26) { x with txq := [] } s t ∧
         Framed [.hif, .swc] [] (tabKey (blkIdx .swc) 6 (16 * lp.val + 1) :: ctxKeys c 10 2) s t))

/-- The head frame of a host link's queues is written to the image its stream names (SEQ, data, header, completion), or counted if too short; else, steered by the lowest matching rule or the default, it fills the buffer at the RX head with its completion, is dropped and counted (no context, no descriptor, too long), or waits for its descriptor. Moderation time sends the vector; unmasking sends a pending one. BAR4 words reach the host half of an input region, its commit word pends, vectors' words are stored, other words are access errors. A link that goes down drains its contexts without completions, frames read whole going on, resets MSI-X and AER and its mailbox endpoint; it comes up as trained. The bus-error log is read by its head. -/
def Obligations.FramesImagesVectorsAndTheWindowOfAHost : Prop :=
  ∀ (s : State) (link : Bool) (c : Fin 256) (v : Fin 272) (off : BitVec 24) (val : Word) (bs : List Byte) (why : LinkEnd)
    (gen : Fin 4) (width : Fin 5) (aer : Bool) (m : Master), s.storesWf →
    let x := s.hctx c
    let lp : Fin 22 := if link then 9 else 8
    let l2 : Fin 2 := if link then 1 else 0
    let deq := fun (q : QEntry) (last : Bool) (t : State) => t.swc.queues =
      if last then s.swc.queues.filter fun p => !decide (p.lp = q.lp ∧ p.fid = q.fid)
      else s.swc.queues.map fun p => if p.lp = q.lp ∧ p.fid = q.fid then { p with seg := p.seg + 1 } else p
    let rxd := Instr.rxDeliver link
    let left_ := fun q last regs tabs (t : State) => deq q last t ∧ Framed [.swc, .eth] (regs ++ pfcRegs) tabs s t
    (s.lpHead lp.val = none → Idle rxd s) ∧
    (∀ q st, s.lpHead lp.val = some q → s.storedOf q.fid = some st →
      let f := s.egressTag st lp.val (s.leaving q st)
      let stamp := st.stamp
      let sound := ∀ g ∈ s.swc.stored, g.bad = false
      let gone := left_ q (lastOf q st)
      let valid := fun r k => bitOf (s.imgWord r 0) 31 = true ∧ bitOf (s.imgWord r 0) 30 = link ∧ fieldOf (s.imgWord r 0) 16 8 = k
      let noImage := ∀ k r, st.stream = some k → r < 32 → ¬ valid r k.val
      let et := be16At f (if s.isTpid (be16At f 12) then if s.isTpid (be16At f 16) then 20 else 16 else 12)
      (st.bad = true → (∀ g ∈ s.swc.stored, g.bad = true → g.fid = q.fid) → (∀ p ∈ s.swc.queues, p.fid = q.fid → p = q) →
        Ends rxd s fun t =>
        t.tab .swc 6 (16 * lp.val + 10) = s.tab .swc 6 (16 * lp.val + 10) + 1 ∧
        left_ q true [] [tabKey (blkIdx .swc) 6 (16 * lp.val + 10)] t) ∧
      (∀ k r, sound → st.bad = false → st.stream = some k → r < 32 → valid r k.val → (∀ r' < 32, r' ≠ r → ¬ valid r' k.val) →
        let len := fieldOf (s.imgWord r 0) 0 14
        let fofs := fieldOf (s.imgWord r 1) 0 16
        let q0 := s.imgWord r 5
        let seq : Word := if q0 = 0xFFFFFFFF#32 then 2 else q0 + 1
        let slot := (s.imgWord r 2).toNat + 2 ^ 32 * (s.imgWord r 3).toNat + seq.toNat % 2 * (64 + (len + 63) / 64 * 64)
        let key := tabKey (blkIdx .hif) 2 (8 * r + 5)
        let sent := [Output.hostWrite link (BitVec.ofNat 64 (slot + 64)) (slice f fofs len),
          .hostWrite link (BitVec.ofNat 64 slot) ((seq :: (stampWords stamp).drop 1).flatMap leBytes)]
        (s.linkUp link = false → Ends rxd s (gone [] [])) ∧
        (s.linkUp link = true → f.length < fofs + len → Ends rxd s fun t =>
          t.reg hifImgShortCnt = s.reg hifImgShortCnt + 1 ∧ gone [hifImgShortCnt] [] t) ∧
        (s.linkUp link = true → fofs + len ≤ f.length → Ends rxd s fun t => t.imgWord r 5 = seq ∧
          (s.shadowed = true → gone [] [key] t) ∧
          (s.shadowed = false → bitOf (s.imgWord r 0) 29 = false → Sends sent s t ∧ gone [] [key] t) ∧
          (s.shadowed = false → bitOf (s.imgWord r 0) 29 = true → fieldOf (s.imgWord r 4) 0 8 = c.val → s.ctxState c = 1 →
            s.cqRoom c = true → EntryWritten c sent (cqe0 5 stOk 0) 0 seq 0 false x s t))) ∧
      (sound → st.bad = false → noImage →
        let hit := fun k => let w0 := s.tab .hif 1 (2 * k)
          bitOf w0 31 = true ∧ bitOf w0 30 = link ∧ (bitOf w0 29 = true → fieldOf w0 0 12 = st.vid.toNat) ∧
            (bitOf w0 28 = true → fieldOf (s.tab .hif 1 (2 * k + 1)) 16 16 = et) ∧
            (fieldOf w0 20 8 = 0 ∨ (fieldOf w0 20 8).testBit st.tc.val = true)
        let dflt := if link then 16 else 0
        let steers := (∃ k < 64, hit k ∧ (∀ j < k, ¬ hit j) ∧ fieldOf (s.tab .hif 1 (2 * k + 1)) 0 8 = c.val) ∨
          ((∀ k < 64, ¬ hit k) ∧ bitOf (s.reg hifRxDefault) (dflt + 8) = true ∧ fieldOf (s.reg hifRxDefault) dflt 8 = c.val)
        let lost := (∀ k < 64, ¬ hit k) ∧ bitOf (s.reg hifRxDefault) (dflt + 8) = false
        let on := s.ctxState c = 1 ∧ s.ctxLink c = link
        let ready := s.rxHead c ≠ x.rxPi.toNat ∧ s.cqRoom c = true
        (s.shadowed = true → Ends rxd s (gone [] [])) ∧
        (s.shadowed = false → lost ∨ (steers ∧ ¬ on) → Ends rxd s fun t =>
          t.reg hifRxNoctxCnt = s.reg hifRxNoctxCnt + 1 ∧ gone [hifRxNoctxCnt] [] t) ∧
        (s.shadowed = false → steers → on → ¬ ready → Ends rxd s fun t =>
          t.ctxWord c 12 = s.ctxWord c 12 + 1 ∧ gone [] (ctxKeys c 12 1) t) ∧
        (s.shadowed = false → steers → on → ready → (∀ d ∈ x.rxq, d.idx ≠ s.rxHead c) ∨ s.inHold .hif = true →
          Idle rxd s) ∧
        (∀ d rest, s.shadowed = false → steers → on → ready → x.rxq = d :: rest → d.idx = s.rxHead c → d.ended = none →
          s.inHold .hif = false → (∀ e ∈ rest, e.ended = none) →
          let front := if bitOf (s.ctxWord c 0) 17 then (stampWords stamp).flatMap leBytes else []
          let size := fieldOf (d.words.getD 1 0) 0 15
          (size < front.length + f.length → Ends rxd s fun t =>
            t.reg hifRxToolongCnt = s.reg hifRxToolongCnt + 1 ∧ gone [hifRxToolongCnt] [] t) ∧
          (front.length + f.length ≤ size → Ends rxd s fun t => deq q (lastOf q st) t ∧
            t.ctxWord c 10 = setField (s.ctxWord c 10) 16 16 ((d.idx + 1) % s.rxSize c) ∧
            EntryWritten c [.hostWrite link (BitVec.ofNat 64 (descAddr d.words)) (front ++ f)] (cqe0 2 stOk d.idx)
              (w32 (2 ^ 27 * st.ingress.val + 2 ^ 24 * st.tc.val + 2 ^ 23 * b2n stamp.deg + f.length % 2 ^ 14))
              (w32 (65536 * st.vid.toNat + et)) (d.words.getD 7 0) false { x with rxq := rest } s t ∧
            Framed [.swc, .eth, .hif] pfcRegs (ctxKeys c 10 2) s t)))) ∧
    (let timer := Instr.msixTimerExpire c
     (x.timer = false ∨ x.modCnt = 0 → Idle timer s) ∧
     (x.timer = true → x.modCnt ≠ 0 → Ends timer s fun t => CtxIs c { x with modCnt := 0, timer := false } s.hif.reads s t ∧
       (bitOf (s.vecWord (s.ctxLink c) c.val 3) 0 = false → Sends [.msix (s.ctxLink c) c.val] s t) ∧
       (bitOf (s.vecWord (s.ctxLink c) c.val 3) 0 = true →
         t.hif.msixPend[(Fin.ofNat 2 (b2n (s.ctxLink c)) : Fin 2)].getLsbD c.val = true) ∧ Framed [.hif] [] [] s t)) ∧
    (s.linkUp link = false → Idle (.msixUnmask link v) s) ∧
    (s.linkUp link = true → Ends (.msixUnmask link v) s fun t => t.vecWord link v.val 3 = 0 ∧
      (s.hif.msixPend[l2].getLsbD v.val = true → Sends [.msix link v.val] s t) ∧
      t.hif.msixPend[l2].getLsbD v.val = false ∧ Framed [] [] [tabKey (msixUnit link) 0 (v.val * 4 + 3)] s t) ∧
    (∀ k ∈ [(Instr.bar4Write link off bs, bs), (.bar4Commit link off val, leBytes val)],
      let a := off.toNat
      let word := le32At k.2 0
      let refused := Ends k.1 s fun t => (s.hif.aer.getLsbD (b2n link) = true → Sends [.aerNonFatal (if link then .h1 else .h0)] s t) ∧
        (s.hif.buserr.length < 16 → (∃ e, t.hif.buserr = s.hif.buserr ++ [e] ∧ fieldOf e.w0 24 8 = stBusError.toNat ∧
          bitOf e.w0 23 = link ∧ bitOf e.w0 22 = true ∧ fieldOf e.w0 20 2 = 2 ∧ e.w1 = w32 a) ∧ Framed [.hif] [] [] s t) ∧
        (16 ≤ s.hif.buserr.length → t.reg hifBuserrDropCnt = s.reg hifBuserrDropCnt + 1 ∧
          Framed [] [hifBuserrDropCnt] [] s t)
      let data := fun i => s.inValid link i = true ∧ s.inBofs i ≤ a ∧ a + 4 ≤ s.inBofs i + s.inLen i
      let ends := fun i => s.inValid link i = true ∧ a = s.inBofs i + s.inLen i
      let runs := s.linkUp link = true ∧ k.2.length = 4 ∧ a % 4 = 0
      let here := runs ∧ s.shadowed = false ∧ a < 0xFF0000
      let written := fun (b o : Nat) (t : State) => (∀ j < 4, t.bankByte b ((o + j) % bankSize b) = byteAt k.2 j) ∧
        ∀ b' o', b' < 112 → o' < bankSize b' → (b' ≠ b ∨ ∀ j < 4, o' ≠ (o + j) % bankSize b) → t.bankByte b' o' = s.bankByte b' o'
      (s.linkUp link = false → Idle k.1 s) ∧
      (s.linkUp link = true → s.shadowed = true → a < 0xFF0000 → Ends k.1 s fun t => Framed [] [] [] s t ∧
        ∃ w, Sends [.twin 2 (w32 (b2n link) :: w32 a :: w)] s t) ∧
      (s.linkUp link = true → s.shadowed = false → a % 4 ≠ 0 ∨ k.2.length % 4 ≠ 0 ∨ k.2 = [] ∨ 512 < k.2.length → refused) ∧
      (runs → 0xFF8000 ≤ a → a < 0xFF8028 → Idle k.1 s) ∧
      (runs → 0xFF0000 ≤ a → a < 0xFF1100 → Ends k.1 s fun t =>
        let n := (a - 0xFF0000) / 16
        let w := a % 16 / 4
        t.vecWord link n w = (if w = 3 then word &&& 1#32 else if w = 0 then word &&& 0xFFFFFFFC#32 else word) ∧
        (w = 3 → bitOf word 0 = false → s.hif.msixPend[l2].getLsbD n = true → Sends [.msix link n] s t) ∧
        Framed [] [] [tabKey (msixUnit link) 0 (n * 4 + w)] s t) ∧
      (here → (∀ i < 32, ¬ data i ∧ ¬ ends i) → refused) ∧
      (∀ i r b, here → i < 32 → s.inBank i = some (r, b) → b < 112 → s.owns (.role r) b = true → s.mem.window = none →
        let half := s.inOffset i + (if s.inHalf i then 0 else 64 + (s.inLen i + 63) / 64 * 64)
        let held := fun o (t : State) => ∃ w : BarWrite, w.tick = s.clk.tick ∧ w.region.val = i ∧ w.off = o ∧ w.new = k.2 ∧
          t.hif.barNow = (s.hif.barNow.filter fun x => x.tick = s.clk.tick) ++ [w] ∧
          ({ t.hif with barNow := s.hif.barNow, commitAt := s.hif.commitAt, msixPend := s.hif.msixPend } : HifState) = s.hif
        (data i → (∀ j < i, ¬ data j) → Ends k.1 s fun t => written b (half + 64 + (a - s.inBofs i)) t ∧
          held (64 + (a - s.inBofs i)) t ∧ t.hif.commitAt = s.hif.commitAt ∧ Framed [.mem, .hif] [] [] s t) ∧
        (ends i → (∀ j < 32, ¬ data j) → (∀ j < i, ¬ ends j) → Ends k.1 s fun t => written b half t ∧ t.inWord i 4 = word ∧
          t.inWord i 5 = setBit (s.inWord i 5) 1 true ∧ held 0 t ∧
          t.hif.commitAt = vset s.hif.commitAt (Fin.ofNat 32 i) s.clk.tick ∧
          Framed [.mem, .hif] [] (words .hif 3 (8 * i + 4) 2) s t))) ∧
    (let down := Instr.hostLinkDown link why
     let left := fun d : Fin 256 => s.ctxLink d = link ∧ s.ctxState d ≠ 0
     let end_ := fun d : TxDesc => if d.phase ≠ .reading then d
       else { d with phase := if d.whole then .lookup else .done stDisabled 0, parts := [] }
     let plain := ∀ d, left d → ((s.hctx d).txq.map (·.idx)).Nodup ∧ (s.hctx d).txq.length ≤ 256
     (s.linkUp link = false → Idle down s) ∧
     (s.linkUp link = true → plain → Ends down s fun t => t.hif.aer.getLsbD (b2n link) = false ∧
       (∃ l, t.swc = { s.swc with ingress := s.swc.ingress ++ l } ∧ ∀ d, left d → ∀ e ∈ (s.hctx d).txq,
         e.phase = .reading → e.whole = true → ∃ g ∈ l, g.lp = lp ∧ g.f.origin = .host d.val e.idx) ∧
       t.reg hifLinkStatus = (if why = .functionReset then s.reg hifLinkStatus
         else setField (s.reg hifLinkStatus) (if link then 8 else 0) 8 0) ∧
       (∀ d, left d → t.ctxWord d 9 = 2 ∧ t.hctx d = { s.hctx d with txq := (s.hctx d).txq.map end_, mute := true }) ∧
       (∀ d, ¬ left d → t.ctxWord d 9 = s.ctxWord d 9 ∧ t.hctx d = s.hctx d) ∧
       t.hif.reads = (s.hif.reads.map fun r =>
         if s.ctxLink r.ctx = link ∧ s.ctxState r.ctx ≠ 0 then { r with kind := .discard } else r) ∧
       (∀ n < 272, ∀ w < 4, t.vecWord link n w = if w = 3 then 1 else 0) ∧
       (∀ n < 256, t.hif.msixPend[l2].getLsbD n = false) ∧ EndpointReset (if link then 0x20 else 0x10) s t ∧
       Framed [.hif, .mbx, .swc] (hifLinkStatus :: mbxAbortCnt :: payloadWords)
         ((List.finRange 256).flatMap (fun d => ctxKeys d 9 1) ++ (List.range (2 ^ 24)).map (tabKey (msixUnit link) 0)) s t)) ∧
    (let trains := s.power = .run ∧ (link = true → s.bif = true) ∧ s.linkFenced link = false ∧
       s.flt.recovery = false ∧ width ≠ 0 ∧ (s.bif = true → width.val ≤ 2)
     let up := Instr.hostLinkUp link gen width aer
     let o := if link then 8 else 0
     let told := fun t : State => t.hif.aer.getLsbD (b2n link) = aer ∧
       t.hif.aer.getLsbD (1 - b2n link) = s.hif.aer.getLsbD (1 - b2n link) ∧
       ({ t.hif with aer := s.hif.aer, msixPend := s.hif.msixPend } : HifState) = s.hif
     (¬ trains → Idle up s) ∧
     (trains → s.linkUp link = true → Ends up s fun t => told t ∧ Framed [.hif] [] [] s t) ∧
     (trains → s.linkUp link = false → Ends up s fun t => told t ∧ t.linkUp link = true ∧
       fieldOf (t.reg hifLinkStatus) (o + 4) 3 = gen.val + 1 ∧ fieldOf (t.reg hifLinkStatus) o 4 = width.val ∧
       (∀ b < 32, (b < o ∨ o + 8 ≤ b) → bitOf (t.reg hifLinkStatus) b = bitOf (s.reg hifLinkStatus) b) ∧
       Framed [.hif] [hifLinkStatus] [] s t)) ∧
    (Open s m false hifBuserrW0 →
      (s.hif.buserr = [] → Ends (.hifBuserrRead m) s fun t => Sends [.readData m (w32 hifBuserrW0) 0] s t ∧
        t.latched m hifBuserrW1 = 0 ∧ t.latched m hifBuserrW2 = 0 ∧ Framed [.latches] [] [] s t) ∧
      (∀ e r, s.hif.buserr = e :: r → Ends (.hifBuserrRead m) s fun t => Sends [.readData m (w32 hifBuserrW0) e.w0] s t ∧
        t.latched m hifBuserrW1 = e.w1 ∧ t.latched m hifBuserrW2 = e.w2 ∧ t.hif.buserr = r ∧
        ({ t.hif with buserr := s.hif.buserr, msixPend := s.hif.msixPend } : HifState) = s.hif ∧
        Framed [.latches, .hif] [] [] s t))

/-- The head frame at LP20 that no CAN channel takes and is no request, comes in another role or is malformed is dropped, counted; a request of the command's kind is queued, or refused FENCED, DISABLED in hold, or RETRY (posted: NO_BUFFER) while 16 are queued. With the bus idle and not granted, the head request starts. Its end counts and means to its source: a reply with the data, a polled value, a word or an end of a route; a posted write that fails is logged and an engine or the supervisor told by a reply. A wait too long ends it BUS_ERROR. A peer's request is granted with the bus idle, backs off a transaction at its CTRL clock, else waits. A poll's instant samples its pin, or places a read at the queue's head. -/
def Obligations.BridgeRequestsAndBusTransactions : Prop :=
  ∀ (s : State) (status : Byte) (data : List Word) (err reserved ctrlEnd : Bool) (i : Fin 16), s.storesWf →
    let x := s.xpb
    let role := s.xpbRole
    let bridges := [(Instr.bridgeRead, XpbOp.read), (.bridgeWriteNp, .write), (.bridgeWritePosted, .posted)]
    let same := fun t : State => t.xpb = s.xpb
    (s.lpHead 20 = none → ∀ b ∈ bridges, Idle b.1 s) ∧
    (∀ q st, s.lpHead 20 = some q → s.storedOf q.fid = some st → (∀ f ∈ s.swc.stored, f.bad = false) →
      let bs := s.gatewayBytes q st
      let can := ∃ n : Fin 4, s.gwTakes n bs = true
      let deq := fun t : State => t.swc.queues =
        if lastOf q st then s.swc.queues.filter fun p => !decide (p.lp = q.lp ∧ p.fid = q.fid)
        else s.swc.queues.map fun p => if p.lp = q.lp ∧ p.fid = q.fid then { p with seg := p.seg + 1 } else p
      let ours := be16At bs 0 = fieldOf (s.reg xpbGwOwnHi) 0 16 ∧ be32At bs 2 = (s.reg xpbGwOwnLo).toNat ∧
        be16At bs 12 = fieldOf (s.reg xpbGwEtype) 0 16
      let vk := (byteAt bs 14).toNat
      let len := (byteAt bs 15).toNat % 32
      let n := if vk % 16 = 1 then 0 else len
      let formed := vk / 16 = 1 ∧ 1 ≤ vk % 16 ∧ vk % 16 ≤ 3 ∧ 1 ≤ len ∧ len ≤ 16 ∧ 28 + 4 * n ≤ bs.length
      let takes := ¬ can ∧ ours ∧ (role = 2 ∨ role = 3) ∧ formed
      (can → ∀ b ∈ bridges, Idle b.1 s) ∧
      (¬ can → ¬ (ours ∧ (role = 2 ∨ role = 3) ∧ formed) → ∀ b ∈ bridges, Ends b.1 s fun t => deq t ∧ same t ∧
        t.reg xpbGwDropCnt = s.reg xpbGwDropCnt + 1 ∧ Framed [.swc, .eth] (xpbGwDropCnt :: pfcRegs) [] s t) ∧
      (takes → ∀ b ∈ bridges, kindOp (vk % 16) ≠ some b.2 → Idle b.1 s) ∧
      (takes → ∀ b ∈ bridges, kindOp (vk % 16) = some b.2 →
        let r : XpbReq :=
          { src := frameSrc st, op := b.2, addr := w32 (be32At bs 18), len := len, sa := slice bs 6 6
            data := (List.range n).map fun k => w32 (be32At bs (28 + 4 * k))
            tag := BitVec.ofNat 16 (be16At bs 16), notify := BitVec.ofNat 16 (be16At bs 22) }
        let refuses := fun (code logged : Byte) regs => Ends b.1 s fun t => deq t ∧ t.xpb.queue = x.queue ∧
          (∀ a ∈ regs, t.reg a = s.reg a + 1) ∧
          (r.op ≠ .posted → same t ∧ BridgeReplied r code [] s t ∧ Framed [.swc, .eth] (regs ++ pfcRegs) [] s t) ∧
          (∀ link c, r.op = .posted → r.src = .host link c → r.notify.getLsbD 15 = false →
            PostedLogged logged 0 (2048 * b2n link + c % 256) r.addr s t ∧
            Framed [.swc, .eth, .xpb] (xpbPelPi :: xpbPelDropCnt :: regs ++ pfcRegs) pelWords s t) ∧
          (r.op = .posted → (∃ e, r.src = .role e) → PostedLogged logged (pelSrc r.src).1 (pelSrc r.src).2 r.addr s t ∧
            BridgeReplied r logged [] s t ∧
            Framed [.swc, .eth, .xpb] (xpbPelPi :: xpbPelDropCnt :: regs ++ pfcRegs) pelWords s t)
        (s.fenced 31 = false → s.inHold .xpb = false → x.queue.length < 16 → Ends b.1 s fun t => deq t ∧
          t.xpb = { x with queue := x.queue ++ [r] } ∧ Framed [.swc, .eth, .xpb] pfcRegs [] s t) ∧
        (s.fenced 31 = true → refuses stFenced stFenced []) ∧
        (s.fenced 31 = false → s.inHold .xpb = true → refuses stDisabled stDisabled []) ∧
        (s.fenced 31 = false → s.inHold .xpb = false → 16 ≤ x.queue.length →
          refuses stRetry stNoBuffer [xpbQfullCnt]))) ∧
    (let live := (s.en .xpb = true ∨ x.queue ≠ [] ∨ s.flt.recovery = true) ∧ s.pinsBad = false ∧ s.fenced 31 = false ∧
       s.islandOn 17 = true ∧ s.shadowed = false
     let start := live ∧ (role = 2 ∨ role = 3) ∧ x.busy = false ∧ x.gnt = false
     let put := fun c y => Ends c s fun t => t.xpb = y ∧ Framed [.xpb] [] [] s t
     (¬ start ∨ x.queue = [] → Idle .xpbTransactionStart s) ∧
     (∀ q r, start → x.queue = q :: r → Ends .xpbTransactionStart s fun t => t.xpb = { x with busy := true } ∧
       Sends [.xpbBus q.op (q.addr &&& 0xFFFFFFFC#32) q.len q.data] s t ∧ Framed [.xpb] [] [] s t) ∧
     (¬ live ∨ role ≠ 3 → Idle (.xpbPeerRequest ctrlEnd) s) ∧
     (live → role = 3 → x.busy = false → put (.xpbPeerRequest ctrlEnd) { x with gnt := true }) ∧
     (live → role = 3 → x.busy = true → Idle (.xpbPeerRequest false) s) ∧
     (live → role = 3 → x.busy = true → Ends (.xpbPeerRequest true) s fun t =>
       t.xpb = { x with busy := false, gnt := true } ∧ t.reg xpbBackoffCnt = s.reg xpbBackoffCnt + 1 ∧
       Framed [.xpb] [xpbBackoffCnt] [] s t) ∧
     (role = 3 → put .xpReqLow { x with gnt := false }) ∧ (role ≠ 3 → Idle .xpReqLow s)) ∧
    (let ends := Instr.xpbTransactionEnd status data err
     let waits := Instr.xpbWaitTimeout reserved
     (x.queue = [] ∨ x.busy = false → Idle ends s ∧ Idle waits s) ∧
     (∀ q r, x.queue = q :: r → x.busy = true →
       let pop := fun t : State => t.xpb.queue = r ∧ t.xpb.busy = false ∧ t.xpb.gnt = x.gnt
       let words_ := (List.range (if q.op = .read then q.len else 0)).map fun k => data.getD k 0
       let code := if q.op = .posted then (if err then stBusError else stOk) else farStatus status
       let bad := q.op ≠ .posted ∧ status ≠ stOk
       (Ends ends s fun t => pop t ∧ t.reg xpbTxnCnt = s.reg xpbTxnCnt + 1 ∧
         t.reg xpbErrrespCnt = s.reg xpbErrrespCnt + (if bad then 1 else 0) ∧
         Finished q code words_ [xpbTxnCnt, xpbErrrespCnt] s t) ∧
       Ends waits s fun t => pop t ∧ t.reg xpbTimeoutCnt = s.reg xpbTimeoutCnt + 1 ∧
         Finished q stBusError [] [xpbTimeoutCnt] s t)) ∧
    (let w := fun k => s.tab .xpb 1 (8 * i.val + k)
     let due := bitOf (w 0) 31 = true ∧ s.en .xpb = true ∧ s.inHold .xpb = false ∧ s.fenced 31 = false ∧
       s.instantNow (w 1) (w 2) = true
     let far := bitOf (w 0) 30 = true
     let queued := ∃ q ∈ x.queue, q.src = .poll i
     let r : XpbReq := ⟨.poll i, .read, w 3, 1, [], 0, [], 0⟩
     let poll := Instr.xpbPoll i
     (¬ due → Idle poll s) ∧
     (due → ¬ far → fieldOf (w 0) 0 7 < 96 → Ends poll s fun t =>
       t.reg xpbPollAct = setBit (s.reg xpbPollAct) i.val (s.ballLevel (fieldOf (w 0) 0 7) != bitOf (w 0) 29) ∧
       Framed [] [xpbPollAct] [] s t) ∧
     (due → ¬ far → Ends poll s fun t => Framed [] [xpbPollAct] [] s t ∧
       ∀ b < 32, b ≠ i.val → bitOf (t.reg xpbPollAct) b = bitOf (s.reg xpbPollAct) b) ∧
     (due → far → queued → Idle poll s) ∧
     (due → far → ¬ queued → Ends poll s fun t => Framed [.xpb] [] [] s t ∧
       t.xpb = { x with queue := if x.busy then x.queue.take 1 ++ [r] ++ x.queue.drop 1 else r :: x.queue }))

/-- An external host that may initiate reaches the expansion register file, its mailboxes, mapped banks that host DMA owns, and the register map, as any host write; elsewhere, unaligned, or refused, the status says so and a posted write is logged; in hold it is DISABLED. At a far route's instant a read per word is placed. A route takes a complete source value (file words, an object's, a window's, a queue's, a far source's), replacing the held one, counted, and one not delivered is overwritten, counted. A delivery writes the held value to its destination once with STATUS OK, or keeps it, refused and counted, or waits; none starts in hold. -/
def Obligations.InboundAccessesAndRoutes : Prop :=
  ∀ (s : State) (op : XpbOp) (a : Word) (data : List Word) (n : Fin 16) (k : Fin 1024), s.storesWf →
    let x := s.xpb
    let inb := Instr.xpbInbound op a n data
    let one := Instr.xpbInbound op a 0 data
    let v := data.getD 0 0
    let addr := a.toNat
    let may := (s.en .xpb = true ∨ x.queue ≠ [] ∨ s.flt.recovery = true) ∧ s.pinsBad = false ∧ s.fenced 31 = false ∧
      s.islandOn 17 = true ∧ s.shadowed = false ∧ (s.xpbRole = 1 ∨ (s.xpbRole = 3 ∧ x.gnt = true))
    let serves := may ∧ (s.inHold .xpb = false ∨ s.flt.recovery = true)
    let refused := fun (c : Instr) (words_ : Nat) (code : Byte) =>
      (op = .read → Ends c s fun t => (∃ ws, ws.length = words_ ∧ Sends [.xpbAnswer code ws] s t) ∧ Framed [.free] [] [] s t) ∧
      (op = .write → Ends c s fun t => Sends [.xpbAnswer code []] s t ∧ Framed [] [] [] s t) ∧
      (op = .posted → Ends c s fun t => PostedLogged code 4 0 a s t ∧ t.xpb.queue = x.queue ∧
        Framed [.xpb] [xpbPelPi, xpbPelDropCnt] pelWords s t)
    let answers := fun (ws : List Word) (t : State) =>
      (op = .read → Sends [.xpbAnswer stOk ws] s t) ∧ (op = .write → Sends [.xpbAnswer stOk []] s t)
    (¬ may → Idle inb s) ∧
    (may → s.inHold .xpb = true → s.flt.recovery = false → refused inb (n.val + 1) stDisabled) ∧
    (serves → addr % 4 ≠ 0 ∨ (0x400000 ≤ addr ∧ addr < 0x1000000) ∨ (0x1004000 ≤ addr ∧ addr < 0x2000000) ∨
      (0x2001000 ≤ addr ∧ addr < 0x3000000) ∨ 0x3100000 ≤ addr → refused inb (n.val + 1) stBusError) ∧
    (let first := (addr - 0x1000000) / 4
     serves → addr % 4 = 0 → 0x1000000 ≤ addr → first + n.val < 4096 → addr < 0x1004000 →
      (op = .read → Ends inb s fun t => Framed [] [] [] s t ∧
        answers ((List.range (n.val + 1)).map fun j => s.tab .xpb 3 (first + j)) t) ∧
      (op ≠ .read → Ends inb s fun t => answers [] t ∧
        (∀ j ≤ n.val, t.tab .xpb 3 (first + j) = data.getD j 0) ∧
        (∀ r, t.route r = if r ∈ s.routeKeys ∧ bitOf (s.routeWord r 0) 31 = true ∧ s.routeSrc r = 0 ∧
          fieldOf (s.routeWord r 1) 0 12 < first + n.val + 1 ∧
          first < fieldOf (s.routeWord r 1) 0 12 + s.routeLen r then { s.route r with due := true } else s.route r) ∧
        Framed [.sgm] [] (words .xpb 3 first (n.val + 1)) s t)) ∧
    (let w := (addr - 0x2000000) / 4
     let b : Fin 64 := Fin.ofNat 64 (w / 16)
     serves → addr % 4 = 0 → 0x2000000 ≤ addr → addr < 0x2001000 →
      (op = .read → s.isSender (.bus .exp) b = true → Ends one s fun t => answers [s.sendStatus b] t ∧ Framed [] [] [] s t) ∧
      (op = .read → s.isSender (.bus .exp) b = false → s.isReceiver (.bus .exp) b = true → Ends one s fun t =>
        answers [s.mbxWord b (w % 16)] t ∧ Framed [.mbx] [] [] s t ∧ t.mbx.notice = s.mbx.notice ∧
        t.mbxFullOf b = (s.mbxFullOf b && decide (w % 16 ≠ 15))) ∧
      (op ≠ .read → s.isSender (.bus .exp) b = true → s.mbxFullOf b = false → w % 16 ≠ 15 → Ends one s fun t =>
        answers [] t ∧ t.mbxWord b (w % 16) = v ∧ t.mbx.notice.getLsbD b.val = false ∧ t.mbx.full = s.mbx.full ∧
        t.mbxWritten b = setBit (s.mbxWritten b) (w % 16) true ∧ Framed [.mbx] [mbxW w] [] s t) ∧
      (op = .write → s.isSender (.bus .exp) b = true → s.mbxFullOf b = true → Ends one s fun t =>
        Sends [.xpbAnswer stBusError []] s t ∧ t.reg mbxSendRejCnt = s.reg mbxSendRejCnt + 1 ∧
        Framed [] [mbxSendRejCnt] [] s t) ∧
      (op = .write → s.isSender (.bus .exp) b = false → Ends one s fun t =>
        Sends [.xpbAnswer stBusError []] s t ∧ t.reg mbxAccErrCnt = s.reg mbxAccErrCnt + 1 ∧
        Framed [] [mbxAccErrCnt] [] s t)) ∧
    (let o := addr - 0x3000000
     let map := s.tab .xpb 2 (o / 0x20000)
     let b := fieldOf map 0 7
     let off := o % 0x20000 % bankSize b
     serves → addr % 4 = 0 → 0x3000000 ≤ addr → addr < 0x3100000 →
      (bitOf map 31 = false ∨ 112 ≤ b → refused one 1 stBusError) ∧
      (bitOf map 31 = true → b < 112 → s.owns .dma b = true → s.mem.window = none →
        (op = .read → Ends one s fun t => answers [s.bankWord b off] t ∧ Framed [] [] [] s t) ∧
        (op ≠ .read → Ends one s fun t => answers [] t ∧ Framed [.mem] [] [] s t ∧
          (∀ j < 4, t.bankByte b ((off + j) % bankSize b) = byteAt (leBytes v) j) ∧
          ∀ b' o', b' < 112 → o' < bankSize b' → (b' ≠ b ∨ ∀ j < 4, o' ≠ (off + j) % bankSize b) →
            t.bankByte b' o' = s.bankByte b' o')) ∧
      (op = .write → bitOf map 31 = true → b < 112 → s.owns .dma b = false → Ends one s fun t =>
        Sends [.xpbAnswer stBusError []] s t ∧ t.reg memNonownCnt = s.reg memNonownCnt + 1 ∧
        t.reg memNonownLast = w32 (65536 * b + 3) ∧ Framed [] [memNonownCnt, memNonownLast] [] s t)) ∧
    (∀ b o row, serves → addr % 4 = 0 → addr < 0x400000 →
      (op ≠ .read → s.access .exp true addr = .ok b o row → row.kind = .rw → s.fencedMask b o = 0 →
        blkBase b + o ≠ fltStartLimit → blkBase b + o ≠ fltRotPeriod → Ends one s fun t => answers [] t ∧ t.reg (blkBase b + o) = v &&& row.mask ∧ Framed [] [blkBase b + o] [] s t) ∧
      (op = .read → s.access .exp false addr = .ok b o row → row.kind = .rw → o ≠ 0 → o ≠ 4 →
        Ends one s fun t => answers [s.reg (blkBase b + o)] t ∧ Framed [.latches] [] [] s t) ∧
      (∀ st, s.access .exp (decide (op ≠ .read)) addr = .err st → st ≠ stOk → refused one 1 st)) ∧
    (let y := s.route k.val
     let w := s.routeWord k.val
     let len := s.routeLen k.val
     let runs := s.en .sgm = true ∧ bitOf (w 0) 31 = true
     let keeps := fun (u : RouteSt) parts (t : State) => RouteIs k.val u s t ∧ Framed (.sgm :: parts) [] [] s t
     let src := s.routeSrc k.val
     (let far := runs ∧ src = 1 ∧ s.inHold .xpb = false ∧ s.en .xpb = true ∧ s.fenced 31 = false ∧
        s.instantNow (w 3) (w 4) = true ∧ ∀ q ∈ x.queue, q.src ≠ .farRead k
      let reads : List XpbReq := (List.range len).map fun j => ⟨.farRead k, .read, w 1 + w32 (4 * j), 1, [], 0, [], 0⟩
      (¬ far → Idle (.routeFarPoll k) s) ∧
      (far → Ends (.routeFarPoll k) s fun t => keeps { y with part := [] } [.xpb] t ∧
        t.xpb = { x with queue := if x.busy then x.queue.take 1 ++ reads ++ x.queue.drop 1 else reads ++ x.queue })) ∧
     (let upd := Instr.routeSourceUpdate k
      let taken := fun (vs : List Word) parts => Ends upd s fun t =>
        RouteIs k.val { y with held := vs, fresh := true, due := false, part := [] } s t ∧
        t.routeWord k.val 5 = w 5 + 1 ∧ (y.fresh = false → t.routeWord k.val 6 = w 6 ∧ t.reg sgmOvwCnt = s.reg sgmOvwCnt) ∧
        (y.fresh = true → t.routeWord k.val 6 = w 6 + 1 ∧ t.reg sgmOvwCnt = s.reg sgmOvwCnt + 1) ∧
        Framed (.sgm :: parts) [sgmOvwCnt] (words .sgm 0 (8 * k.val + 5) 2) s t
      let c : Fin 64 := Fin.ofNat 64 (fieldOf (w 1) 0 6)
      let rxq := s.psq.ch[c].rxq
      let room := len - y.part.length
      (¬ runs → Idle upd s) ∧
      (runs → src = 0 ∨ src = 2 ∨ src = 3 → y.due = false → Idle upd s) ∧
      (runs → src = 1 → y.part.length ≠ len → Idle upd s) ∧
      (runs → src = 0 → y.due = true → taken ((List.range len).map fun j => s.tab .xpb 3 (fieldOf (w 1) 0 12 + j)) []) ∧
      (runs → src = 1 → y.part.length = len → taken y.part []) ∧
      (runs → src = 2 → y.due = true → taken ((List.range len).map fun j =>
        s.tab (.can (Fin.ofNat 4 (fieldOf (w 1) 28 2))) 0 (24 * fieldOf (w 1) 16 9 + 8 + fieldOf (w 1) 0 4 + j)) []) ∧
      (∀ e off, runs → src = 3 → y.due = true → s.engOf (Fin.ofNat 10 (fieldOf (w 1) 16 4)) = some e →
        s.espTarget e (s.fwuStage e (fieldOf (w 1) 8 6) + 4 * fieldOf (w 1) 0 8) = .dmem off →
        taken ((List.range len).map fun j =>
          le32At ((List.range (4 * len)).map fun i => amGet (fun _ => 0) s.eng[e].dmem ((off + i) % 0x8000)) (4 * j)) []) ∧
      (runs → src = 4 → 0 < len → len ≤ y.part.length + rxq.length → y.part.length ≤ len →
        taken (y.part ++ rxq.take room) [.psq] ∧ Ends upd s fun t =>
          t.psq = { s.psq with ch := vset s.psq.ch c { s.psq.ch[c] with rxq := rxq.drop room } }) ∧
      (runs → src = 4 → y.part.length + rxq.length < len → Ends upd s fun t =>
        keeps { y with part := y.part ++ rxq } [.psq] t ∧
        t.psq = { s.psq with ch := vset s.psq.ch c { s.psq.ch[c] with rxq := [] } })) ∧
     (let del := Instr.routeDelivery k
      let dst := s.routeDst k.val
      let due := runs ∧ s.inHold .sgm = false ∧ y.fresh = true
      let done := fun parts tabs (P : State → Prop) => Ends del s fun t => P t ∧ RouteIs k.val { y with fresh := false } s t ∧
        t.routeWord k.val 7 = w32 (fieldOf (w 7) 0 16) ∧ Framed (.sgm :: parts) [] (tabs ++ routeEnd k.val) s t
      let kept := fun status : Byte => Ends del s fun t => RouteEnded k.val status s t ∧
        Framed [] [sgmErrCnt] (routeEnd k.val) s t
      let q : XpbReq := ⟨.farWrite k, .posted, w 2, y.held.length, y.held, 0, [], 0⟩
      let can : Fin 4 := Fin.ofNat 4 (fieldOf (w 2) 28 2)
      let buf := 20 * fieldOf (w 2) 16 6
      let c : Fin 64 := Fin.ofNat 64 (fieldOf (w 2) 0 6)
      let eng := s.engOf (Fin.ofNat 10 (fieldOf (w 2) 16 4))
      let m := y.held.length
      (¬ due → Idle del s) ∧
      (due → dst = 0 → fieldOf (w 2) 0 12 + m ≤ 4096 → done [] (words .xpb 3 (fieldOf (w 2) 0 12) m) fun t =>
        ∀ j < m, t.tab .xpb 3 (fieldOf (w 2) 0 12 + j) = y.held.getD j 0) ∧
      (due → dst = 1 → s.fenced 31 = true → kept stFenced) ∧
      (due → dst = 1 → s.fenced 31 = false → (∃ p ∈ x.queue, p.src = .farWrite k) ∨
        (s.inHold .xpb = false ∧ 16 ≤ x.queue.length) → Idle del s) ∧
      (due → dst = 1 → s.fenced 31 = false → s.inHold .xpb = false → (∀ p ∈ x.queue, p.src ≠ .farWrite k) →
        x.queue.length < 16 → Ends del s fun t => keeps { y with fresh := false } [.xpb] t ∧
          t.xpb = { x with queue := x.queue ++ [q] }) ∧
      (due → dst = 1 → s.fenced 31 = false → s.inHold .xpb = true → (∀ p ∈ x.queue, p.src ≠ .farWrite k) →
        Ends del s fun t => RouteIs k.val { y with fresh := false } s t ∧ RouteEnded k.val stDisabled s t ∧
          PostedLogged stDisabled 2 k.val (w 2) s t) ∧
      (due → dst = 2 → s.fenced (23 + can.val) = true → kept stFenced) ∧
      (due → dst = 2 → s.fenced (23 + can.val) = false → s.islandOn 18 = false → kept stIslandOff) ∧
      (due → dst = 2 → s.fenced (23 + can.val) = false → s.islandOn 18 = true → fieldOf (w 2) 0 4 + m ≤ 16 →
        done [] (words (.can can) 1 (buf + 1) 1 ++ words (.can can) 1 (buf + 4 + fieldOf (w 2) 0 4) m) fun t =>
          (∀ j < m, t.tab (.can can) 1 (buf + 4 + fieldOf (w 2) 0 4 + j) = y.held.getD j 0) ∧
          t.tab (.can can) 1 (buf + 1) = setBit (s.tab (.can can) 1 (buf + 1)) 8 true) ∧
      (due → dst = 3 → eng = none → kept stBusError) ∧
      (∀ e, due → dst = 3 → eng = some e → s.fenced e.val = true → kept stFenced) ∧
      (∀ e, due → dst = 3 → eng = some e → s.fenced e.val = false → s.islandOn (3 + e.val) = false → kept stIslandOff) ∧
      (∀ e off, due → dst = 3 → eng = some e → s.fenced e.val = false → s.islandOn (3 + e.val) = true →
        s.espTarget e (s.fwuStage e (fieldOf (w 2) 8 6) + 4 * fieldOf (w 2) 0 8) = .dmem off → 4 * m < 0x8000 →
        done [.eng] [] fun t =>
          ∀ j < 4 * m, amGet (fun _ => 0) t.eng[e].dmem ((off + j) % 0x8000) = byteAt (y.held.flatMap leBytes) j) ∧
      (due → 4 ≤ dst → s.fenced (27 + c.val / 32) = true → kept stFenced) ∧
      (due → 4 ≤ dst → s.fenced (27 + c.val / 32) = false → s.txCap c < s.psq.ch[c].txq.length + m → Idle del s) ∧
      (due → 4 ≤ dst → s.fenced (27 + c.val / 32) = false → s.psq.ch[c].txq.length + m ≤ s.txCap c →
        done [.psq] [] fun t =>
          t.psq = { s.psq with ch := vset s.psq.ch c { s.psq.ch[c] with txq := s.psq.ch[c].txq ++ y.held } })))

/-- By every path that is a mailbox's sender endpoint: a write of W15 while FULL = 0 stores the word, sets FULL and counts in MBX_POST_CNT; a write of W0-W14 while FULL = 0 changes that payload word and posts nothing; both return NOTICE to none. A post to a fenced domain (R397) ends with FENCED and posts nothing. While FULL = 1 a write to any word is dropped, answered with BUS_ERROR and counted in MBX_SEND_REJ_CNT, the message and NOTICE as they were. An ACK from the sender endpoint, being host software or the supervisor, returns NOTICE to none; any other is rejected, counted in MBX_CFGREJ_CNT, and clears no NOTICE. -/
def Obligations.SenderWritesPostAndAcknowledge : Prop :=
  ∀ (s : State) (p : MbxPeer) (m : Master) (b : Fin 64) (w : Fin 15) (v : Word), s.storesWf →
    let reg := fun k => mbxW (16 * b.val + k)
    let reach := fun k => ∀ m, p = .bus m → Open s m true (reg k)
    let noNotice := fun t : State => t.mbx.notice = setBit s.mbx.notice b.val false
    let refused := fun k (status : Byte) (t : State) => match p with
      | .role r => Sends [.mbxAnswer r false 0] s t
      | .bus .h0 => (s.hif.aer.getLsbD 0 = true → Sends [.aerNonFatal .h0] s t) ∧ (s.hif.buserr.length < 16 → ∃ e,
          t.hif.buserr = s.hif.buserr ++ [e] ∧ fieldOf e.w0 24 8 = status.toNat ∧ e.w1 = w32 (reg k))
      | .bus .h1 => (s.hif.aer.getLsbD 1 = true → Sends [.aerNonFatal .h1] s t) ∧ (s.hif.buserr.length < 16 → ∃ e,
          t.hif.buserr = s.hif.buserr ++ [e] ∧ fieldOf e.w0 24 8 = status.toNat ∧ e.w1 = w32 (reg k))
      | .bus m => Sends [.busError m (w32 (reg k)) status] s t
    let rcv := fieldOf (s.reg (mbxCfg b.val)) 0 8
    let away := (rcv / 16 = 1 ∧ s.fenced 29 = true) ∨ (rcv / 16 = 2 ∧ s.fenced 30 = true) ∨
      (rcv / 16 = 5 ∧ s.fenced 31 = true) ∨
      (rcv / 16 = 4 ∧ ∃ e, s.engOf (Fin.ofNat 10 (rcv % 16)) = some e ∧ s.fenced e.val = true)
    (s.isSender p b = true → s.mbxFullOf b = false →
      (reach 15 → away → Ends (.mbxPost p b v) s fun t => refused 15 stFenced t ∧
        Framed [.hif] [hifBuserrDropCnt, glbSupBuserrCnt] [] s t) ∧
      (reach 15 → ¬ away → (rcv / 16 = 3 → s.fenced 36 = false) → Ends (.mbxPost p b v) s fun t => t.mbx.full = setBit s.mbx.full b.val true ∧ noNotice t ∧
        t.mbxWord b 15 = v ∧ t.reg mbxPostCnt = s.reg mbxPostCnt + 1 ∧
        Framed [.mbx, .eng, .clk] [reg 15, mbxPostCnt, clkWakeCnt] [] s t) ∧
      (reach w.val → Ends (.mbxSenderWrite p b w v) s fun t => t.mbx.full = s.mbx.full ∧ noNotice t ∧
        t.mbxWord b w.val = v ∧ Framed [.mbx] [reg w.val] [] s t)) ∧
    (s.isSender p b = true → s.mbxFullOf b = true →
      ∀ c ∈ [(Instr.mbxPost p b v, 15), (.mbxSenderWrite p b w v, w.val)], reach c.2 → Ends c.1 s fun t => refused c.2 stBusError t ∧
        t.reg mbxSendRejCnt = s.reg mbxSendRejCnt + 1 ∧
        Framed [.hif] [mbxSendRejCnt, hifBuserrDropCnt, glbSupBuserrCnt] [] s t) ∧
    (Open s m true mbxCmd →
      let may := (m = .h0 ∨ m = .h1 ∨ m = .sup) ∧ s.isSender (.bus m) b = true
      (may → Ends (.mbxAck m b) s fun t => noNotice t ∧ t.mbx.full = s.mbx.full ∧ Framed [.mbx] [mbxCmd] [] s t) ∧
      (¬ may → Ends (.mbxAck m b) s fun t => t.reg (blkBase .mbx + 8) = s.reg (blkBase .mbx + 8) + 1 ∧
        Framed [] (mbxCmd :: rejRegs .mbx) [] s t))

/-- A read of W15 by the receiver returns the word and frees a FULL mailbox; the sender reads the send status; any other is an access error. MBX_CFG takes endpoints of an empty mailbox, else is rejected. A non-owner's bank access is refused and recorded; the owner's reads and writes its bytes, of a redirected row in the scratch row as Table MEM-2 says; an uncorrectable read queues the row. A release empties KIND at once, BUSY while accesses finish, a KEY bank clears; only the supervisor assigns a free bank; a fill zeroes it. A window takes the region in turn, redirects an owned row, and selects a spare for a failed one; its end restores the row and repairs. -/
def Obligations.MailboxReadsAndBanks : Prop :=
  ∀ (s : State) (p : MbxPeer) (m : Master) (b : Fin 64) (v : Word) (bm : BankMaster) (k : Fin 112) (off : BitVec 17)
    (bop : BankOp) (ecc : Ecc) (tm : BitVec 10) (fl : Bool) (ce ue : Fin 33), s.storesWf →
    (let reg := mbxW (16 * b.val + 15)
     let reads := fun (x : Word) (t : State) => match p with
       | .role r => Sends [.mbxAnswer r true x] s t
       | .bus m => Sends [.readData m (w32 reg) x] s t
     let recv := Instr.mbxReceive p b
     (∀ m, p = .bus m → Open s m false reg) →
      (s.isSender p b = true → Ends recv s fun t =>
        reads (w32 (2 ^ 31 * b2n (s.mbxFullOf b) + 65536 * b2n (s.mbx.notice.getLsbD b.val))) t ∧ Framed [] [] [] s t) ∧
      (s.isSender p b = false → s.isReceiver p b = true → Ends recv s fun t => reads (s.mbxWord b 15) t ∧
        t.mbx = { s.mbx with full := setBit s.mbx.full b.val false } ∧ Framed [.mbx] [] [] s t) ∧
      (s.isSender p b = false → s.isReceiver p b = false → Ends recv s fun t =>
        t.reg mbxAccErrCnt = s.reg mbxAccErrCnt + 1 ∧ (∀ r, p = .role r → Sends [.mbxAnswer r false 0] s t) ∧
        (p = .bus .exp → Sends [.busError .exp (w32 reg) stBusError] s t) ∧
        Framed [.hif] [mbxAccErrCnt, hifBuserrDropCnt, glbSupBuserrCnt] [] s t)) ∧
    (Open s m true (mbxCfg b.val) →
      let byte := fun o => fieldOf v o 8
      let ok := fun o => byte o / 16 ≤ 5 ∧ (byte o / 16 = 4 → byte o % 16 < 10) ∧ (byte o / 16 ≠ 4 → byte o % 16 = 0)
      let may := s.mbxFullOf b = false ∧ s.mbx.notice.getLsbD b.val = false ∧ ok 0 ∧ ok 8 ∧ (byte 0 = byte 8 → byte 0 = 0)
      (may → Ends (.mbxCfgWrite m b v) s fun t => t.reg (mbxCfg b.val) = v &&& 0xFFFF#32 ∧ (∀ w < 16, t.mbxWord b w = 0) ∧
        t.mbx.full = s.mbx.full ∧ t.mbx.notice = s.mbx.notice ∧
        Framed [.mbx] (mbxCfg b.val :: (List.range 16).map fun w => mbxW (16 * b.val + w)) [] s t) ∧
      (¬ may → Ends (.mbxCfgWrite m b v) s (Rejected .mbx (mbxCfg b.val) s))) ∧
    (let size := bankSize k.val
     let at_ := off.toNat % size
     let owned := s.owns bm k.val = true
     let acc := fun o => Instr.bankAccess bm k off o ecc tm
     let red := fun o => ∃ x, s.mem.window = some x ∧ x.redirect = true ∧ x.bank = k ∧ x.row.toNat = o / 256 ∧ x.spare = false
     let scratch := fun o => match s.mem.window with
       | some x => byteAt x.scratch (o % 256)
       | none => 0
     let corr := s.reg memCeCnt + if ecc = .corrected then 1 else 0
     (¬ owned → Ends (acc bop) s fun t => Sends [.bank bm false []] s t ∧ t.reg memNonownCnt = s.reg memNonownCnt + 1 ∧
       t.reg memNonownLast = w32 (65536 * k.val + 256 * bmRole bm + bmKind bm) ∧
       Framed [] [memNonownCnt, memNonownLast] [] s t) ∧
     (∀ n, owned → ecc ≠ .uncorrectable → Ends (acc (.read n)) s fun t => t.reg memCeCnt = corr ∧
       Framed [] [memCeCnt] [] s t ∧ ∃ bs, Sends [.bank bm true bs] s t ∧ bs.length = n.val ∧ ∀ j < n.val,
         let o := (at_ + j) % size
         (red o → 32 ≤ tm.toNat → byteAt bs j = scratch o) ∧
         (¬ red o ∨ tm.toNat < 32 → byteAt bs j = s.bankByte k.val o)) ∧
     (∀ n, owned → ecc = .uncorrectable → Ends (acc (.read n)) s fun t => Sends [.bank bm false []] s t ∧
       t.reg memUeCnt = s.reg memUeCnt + 1 ∧
       t.mem = { s.mem with outOfTurn := s.mem.outOfTurn ++ [(k.val, at_ / 256)] } ∧ Framed [.mem] [memUeCnt] [] s t) ∧
     (∀ bs, owned → bs.length ≤ 256 → Ends (acc (.write bs)) s fun t => Sends [.bank bm true []] s t ∧ t.reg memCeCnt = corr ∧
       Framed [.mem] [memCeCnt] [] s t ∧
       (∀ b' o', b' < 112 → o' < bankSize b' → (b' ≠ k.val ∨ ∀ j < bs.length, o' ≠ (at_ + j) % size) →
         t.bankByte b' o' = s.bankByte b' o') ∧
       ((∀ j < bs.length, ¬ red ((at_ + j) % size)) → t.mem.window = s.mem.window) ∧
       ∀ j < bs.length,
         let o := (at_ + j) % size
         (¬ red o → t.bankByte k.val o = byteAt bs j) ∧
         (red o → t.bankByte k.val o = (if tm.toNat < 32 ∨ 688 ≤ tm.toNat then byteAt bs j else s.bankByte k.val o) ∧
           ∃ y, t.mem.window = some y ∧ byteAt y.scratch (o % 256) = byteAt bs j))) ∧
    (let a := memBankOwner k.val
     let w := s.reg a
     let kind := fieldOf w 0 4
     let sup := m = .sup ∨ s.dbgLevel = 3
     let clearing := bitOf w 30 = true
     let noFill := fun t : State => t.mem.banks = s.mem.banks ∧ (k.val, none) ∈ t.mem.fills
     let rel := Instr.bankRelease m k fl
     (Open s m true a →
       (¬ sup → kind ≠ 3 → Ends rel s (Rejected .mem a s)) ∧
       (sup → clearing → Ends rel s fun t => t.reg a = setBit w 16 false ∧ noFill t ∧ Framed [.mem] [a] [] s t) ∧
       (sup → ¬ clearing → kind = 0 → Idle rel s) ∧
       (sup ∨ kind = 3 → ¬ clearing → kind ≠ 0 → Ends rel s fun t =>
         t.reg a = w32 (2 ^ 31 * b2n fl + 2 ^ 30 * b2n (bitOf w 16)) ∧
         (bitOf w 16 = true → noFill t ∧ Framed [.mem] [a] [] s t) ∧ (bitOf w 16 = false → Framed [] [a] [] s t)) ∧
       (let dst := fieldOf v 0 4
        let named := dst ≤ 6 ∧ (dst = 1 → fieldOf v 8 4 < 10) ∧ (dst ≠ 1 → fieldOf v 8 4 = 0)
        let free := bitOf w 31 = false ∧ ¬ clearing ∧ (kind = 0 ∨ (kind = dst ∧ fieldOf w 8 4 = fieldOf v 8 4))
        let asg := Instr.bankAssign m k v
        (¬ named ∨ (¬ sup ∧ (dst ≠ 0 ∨ kind ≠ 3)) → Ends asg s (Rejected .mem a s)) ∧
        (named → dst = 0 → exec asg s = exec (.bankRelease m k false) s) ∧
        (sup → named → dst ≠ 0 → ¬ free → Ends asg s (Rejected .mem a s)) ∧
        (sup → named → dst ≠ 0 → free → bitOf v 15 = false → Ends asg s fun t => t.reg a = v &&& 0x00010F0F#32 ∧
          Framed [] [a] [] s t) ∧
        (sup → named → dst ≠ 0 → free → bitOf v 15 = true → Ends asg s fun t =>
          t.reg a = w32 (2 ^ 30 + 65536 * b2n (bitOf v 16)) ∧ (k.val, some (v &&& 0x00010F0F#32)) ∈ t.mem.fills ∧
          t.mem.banks = s.mem.banks ∧ Framed [.mem] [a] [] s t))) ∧
     (Ends (.bankDrainDone k) s fun t => t.reg a = setBit w 31 false ∧ Framed [] [a] [] s t) ∧
     (¬ clearing ∨ bitOf w 31 = true → Idle (.bankFillDone k) s) ∧
     (clearing → bitOf w 31 = false → Ends (.bankFillDone k) s fun t =>
       t.reg a = (match s.mem.fills.find? (fun e => e.1 = k.val) with
         | some (_, some x) => x
         | _ => 0) ∧
       (∀ o < bankSize k.val, t.bankByte k.val o = 0) ∧
       (∀ b' o, b' < 112 → o < bankSize b' → b' ≠ k.val → t.bankByte b' o = s.bankByte b' o) ∧
       Framed [.mem] [a] [] s t)) ∧
    (let x := s.mem
     let q := match x.outOfTurn with
       | (b, r) :: _ => (b, false, r)
       | [] => s.nextRegion
     let bank := q.1
     let row := q.2.2
     let w := fun j => s.tab .mem 0 (4 * bank + j)
     let kind := fieldOf (s.reg (memBankOwner bank)) 0 4
     let holds := fun j => fieldOf (w (1 + j / 2)) (16 * (j % 2)) 10
     let usable := fun j => holds j = 0x3FF ∧ bitOf (w 0) (8 + j) = false
     let opens := s.en .mem = true ∧ s.inHold .mem = false ∧ x.window = none ∧
       bitOf (s.reg (memBankOwner bank)) 30 = false ∧ x.due ≤ s.clk.tick
     let sk := Instr.skimmerWindow fl ce ue
     let posAt := fun (spare : Bool) (t : State) => t.reg memSkmPos = w32 (2 ^ 31 + 65536 * bank + 1024 * b2n spare + row)
     let walked := fun t : State => match x.outOfTurn with
       | _ :: r => t.mem.outOfTurn = r ∧ t.mem.walkBank = x.walkBank ∧ t.mem.walkRow = x.walkRow
       | [] => t.mem.outOfTurn = [] ∧ (x.walkRow + 1 < bankRows x.walkBank.val →
           t.mem.walkBank = x.walkBank ∧ t.mem.walkRow = x.walkRow + 1)
     let window := fun redirect sel (t : State) => ∃ bs, t.mem.window =
       some ⟨Fin.ofNat 112 bank, BitVec.ofNat 10 row, q.2.1, redirect, bs, sel⟩ ∧
       (redirect = true → bs = s.bankRead bank (256 * row) 256) ∧
       t.mem.due = s.clk.tick + 500 * fieldOf (s.reg memSkmInterval) 0 16
     let counts := fun t : State => t.reg memCeCnt = s.reg memCeCnt + w32 ce.val ∧ t.reg memUeCnt = s.reg memUeCnt + w32 ue.val
     let regs := [memSkmPos, memCeCnt, memUeCnt, memSkmPassCnt]
     let key := tabKey (blkIdx .mem) 0 (4 * bank)
     let kept := fun t : State => t.mem.banks = x.banks ∧ t.mem.fills = x.fills
     (¬ opens → Idle sk s) ∧
     (opens → bank < 112 → q.2.1 = false → kind ≠ 0 → fl = false → Ends sk s fun t => window true none t ∧ walked t ∧
       posAt false t ∧ counts t ∧ kept t ∧ Framed [.mem] regs [] s t) ∧
     (∀ j : Fin 4, opens → bank < 112 → q.2.1 = false → kind ≠ 0 → fl = true → usable j.val →
       (∀ i < j.val, ¬ usable i) → Ends sk s fun t => window true (some j) t ∧ walked t ∧ posAt false t ∧ counts t ∧ kept t ∧
         t.reg memSkmFailCnt = s.reg memSkmFailCnt + 1 ∧ Framed [.mem] (memSkmFailCnt :: regs) [] s t) ∧
     (opens → bank < 112 → q.2.1 = false → kind ≠ 0 → fl = true → (∀ i < 4, ¬ usable i) → Ends sk s fun t =>
       window true none t ∧ walked t ∧ t.tab .mem 0 (4 * bank) = setBit (w 0) 31 true ∧ counts t ∧ kept t ∧
       t.reg memSkmFailCnt = s.reg memSkmFailCnt + 1 ∧ Logged 0x43 0x0B 5 s t ∧
       Framed [.mem, .flt] (memSkmFailCnt :: regs) (key :: faultLogWords) s t) ∧
     (opens → bank < 112 → q.2.1 = false → kind = 0 → fl = false → row < bankRows bank → Ends sk s fun t =>
       window false none t ∧ walked t ∧ posAt false t ∧
       (∀ b' o, b' < 112 → o < bankSize b' → b' ≠ bank ∨ o / 256 ≠ row → t.bankByte b' o = s.bankByte b' o) ∧
       Framed [.mem, .free] regs [] s t) ∧
     (opens → bank < 112 → q.2.1 = false → kind = 0 → fl = true → row < bankRows bank → Ends sk s fun t =>
       t.reg memSkmFailCnt = s.reg memSkmFailCnt + 1 ∧
       (∀ j : Fin 4, usable j.val → (∀ i < j.val, ¬ usable i) → window false (some j) t) ∧
       ((∀ i < 4, ¬ usable i) → window false none t ∧ t.tab .mem 0 (4 * bank) = setBit (w 0) 31 true) ∧
       Framed [.mem, .free, .flt] (memSkmFailCnt :: regs) (key :: faultLogWords) s t) ∧
     (opens → bank < 112 → q.2.1 = true → row < 4 → Ends sk s fun t => window false none t ∧ walked t ∧ posAt true t ∧ kept t ∧
       bitOf (t.tab .mem 0 (4 * bank)) (8 + row) = fl ∧
       t.reg memSkmFailCnt = s.reg memSkmFailCnt + (if fl then 1 else 0) ∧
       Framed [.mem] (memSkmFailCnt :: regs) [key] s t) ∧
     (x.window = none → Idle .skimmerWindowEnd s) ∧
     (∀ y : SkmWindow, x.window = some y →
       let at_ := fun o => (256 * y.row.toNat + o) % bankSize y.bank.val
       let held := fun (t : State) j => fieldOf (t.tab .mem 0 (4 * y.bank.val + 1 + j / 2)) (16 * (j % 2)) 10
       Ends .skimmerWindowEnd s fun t => t.mem.window = none ∧ t.reg memSkmPos = setBit (s.reg memSkmPos) 31 false ∧
         (y.redirect = true → ∀ o < 256, t.bankByte y.bank.val (at_ o) = byteAt y.scratch o) ∧
         (∀ b' o, b' < 112 → o < bankSize b' → y.redirect = false ∨ b' ≠ y.bank.val ∨ (∀ j < 256, o ≠ at_ j) →
           t.bankByte b' o = s.bankByte b' o) ∧
         (y.select = none → Framed [.mem] [memSkmPos] [] s t) ∧
         (∀ j, y.select = some j → held t j.val = y.row.toNat ∧ t.reg memRepairCnt = s.reg memRepairCnt + 1 ∧
           Framed [.mem] [memSkmPos, memRepairCnt] (words .mem 0 (4 * y.bank.val) 3) s t)))

/-- A fault its domain can have, of a powered domain in service, fences it, counted and logged with its cause; an engine's is a hard fault; one during its recovery fences it for good; a fence for good takes no entry. The block acts: a link falls, a channel's attempts end, channels stop, a host link goes down, the expansion port's queue is emptied. A recovery ends the fence, RECOVERED or RE-ADMITTED, or for good after a failed slice test or with no die; sequencer channels that ran start. FENCE refuses an unknown, fenced or last domain, else acts as a fault with cause COMMAND; READMIT starts a recovery. The restart resets the supervisor's endpoint and runs its firmware, or ROM serves and the fence ends. -/
def Obligations.FaultsFenceAndDomainsRecover : Prop :=
  ∀ (s : State) (m : Master) (d : Fin 37) (k : FaultKind) (unit votes : Byte) (row : BitVec 16) (pass : Bool) (n : BitVec 6),
    s.storesWf →
    let lat := Instr.faultLatch d k unit row votes
    let on := s.power = .run ∧ s.islandOn (domIsland d) = true
    let voted := fun t : State => t.reg fltVoteCnt = s.reg fltVoteCnt + votes.setWidth 32
    let can := (d.val < 10 ∨ (23 ≤ d.val ∧ d.val < 27)) ∧ (k = .compare ∨ k = .memUe) ∨
      (10 ≤ d.val ∧ d.val < 18) ∧ (k = .parity ∨ k = .memUe) ∨ (18 ≤ d.val ∧ d.val < 20) ∧ (k = .parity ∨ k = .compare) ∨
      (d.val = 20 ∨ d.val = 31) ∧ k = .compare ∨ (27 ≤ d.val ∧ d.val < 29) ∧ (k = .parity ∨ k = .compare ∨ k = .memUe) ∨
      (29 ≤ d.val ∧ d.val < 31) ∧ (k = .parity ∨ k = .compare) ∨ d.val = 36 ∧ k ≠ .parity
    let cause : Byte := match k with
      | .parity => 3
      | .compare => 4
      | .memUe => 5
      | .watchdog => 6
    let base := [fltFaultCnt, fltVoteCnt, fltCmd]
    let fences := fun (c : Byte) (t : State) => NewlyFenced d.val c s t ∧
      (d.val = 36 → Framed [.flt] base faultLogWords s t) ∧
      (∀ p : Fin 8, d.val = 10 + p.val → t.eth[p].up = false ∧ (s.eth[p].up = true → t.eth[p].tx = none)) ∧
      (d.val = 18 ∨ d.val = 19 → ∀ q ∈ t.swc.queues, q ∈ s.swc.queues ∧ ∀ f, s.storedOf q.fid = some f →
        f.sliceB = decide (d.val = 19) → f.cls = .crit) ∧
      (d.val = 20 → ∀ q ∈ t.swc.queues, q ∈ s.swc.queues ∧ ∀ f, s.storedOf q.fid = some f → f.cells0 + f.cells1 = 0) ∧
      (∀ p : Fin 4, d.val = 23 + p.val → t.can[p].tries = [] ∧ t.can[p].sending = none ∧
        t.can[p].integ = false ∧ t.can[p].foreign = false ∧ t.can[p].sync = s.can[p].sync ∧
        (s.can[p].tries = [] → s.can[p].sending = none → Framed [.can, .flt] base faultLogWords s t)) ∧
      (∀ p : Fin 2, d.val = 27 + p.val → Framed [.psq, .flt] base faultLogWords s t ∧ ∀ c : Fin 64,
        let ran := s.psq.ch[c].st ≠ .stopped ∧ s.psq.ch[c].st ≠ .fault
        (c.val / 32 = p.val → (t.psq.again.getLsbD c.val = decide ran) ∧ (ran → t.psq.ch[c].st = .stopped)) ∧
        (c.val / 32 ≠ p.val ∨ ¬ ran → t.psq.ch[c] = s.psq.ch[c])) ∧
      (∀ link, d.val = (if link then 30 else 29) → t.linkUp link = false ∧ (s.linkUp link = true →
        EndpointReset (if link then 0x20 else 0x10) s t ∧ ∀ c : Fin 256, s.ctxLink c = link → s.ctxState c ≠ 0 →
          t.ctxState c = 2 ∧ (t.hctx c).mute = true)) ∧
      (d.val = 31 → t.xpb.queue = [] ∧ t.xpb.busy = false ∧ t.xpb.gnt = false ∧
        (s.xpb.queue = [] → EndpointReset 0x50 s t ∧
          Framed [.xpb, .flt, .mbx] (mbxAbortCnt :: base ++ payloadWords) faultLogWords s t))
    (¬ on ∨ ¬ can → Ends lat s fun t => voted t ∧ Framed [] [fltVoteCnt] [] s t) ∧
    (¬ on ∨ ¬ can → votes = 0 → Idle lat s) ∧
    (on → can → 10 ≤ d.val → InService d.val s → Ends lat s fun t => fences cause t ∧ voted t) ∧
    (on → can → 10 ≤ d.val → d.val ≠ 36 → s.fenced d.val = true → s.flt.perm.getLsbD d.val = false →
      Ends lat s fun t => NewlyPermanent d.val cause s t ∧ voted t ∧ Framed [.flt] [fltPermCnt, fltVoteCnt] faultLogWords s t) ∧
    (on → can → 10 ≤ d.val → s.fenced d.val = true → s.flt.perm.getLsbD d.val = true → Ends lat s fun t => voted t ∧
      t.flt = { s.flt with testing := setBit s.flt.testing d.val false, readmit := setBit s.flt.readmit d.val false } ∧
      Framed [.flt] [fltVoteCnt] [] s t) ∧
    (∀ (e r : Fin 10) (i : Inst), on → can → d.val = e.val → votes = 0 → InService e.val s → s.eng[e].st = .active →
      s.eng[e].role = some r → s.insts[r] = some i →
      Ends lat s (HandedOver e r i (if k = .compare then 8 else if unit = 0 then 2 else 4) s)) ∧
    (let rcv := Instr.domainRecovered d pass
     let due := s.fenced d.val = true ∧ (s.flt.perm.getLsbD d.val = false ∨ s.flt.readmit.getLsbD d.val = true) ∧
       ((10 ≤ d.val ∧ d.val ≤ 20) ∨ (23 ≤ d.val ∧ d.val ≤ 31))
     let fails := ((d.val = 18 ∨ d.val = 19) ∧ pass = false) ∨ (d.val = 20 ∧ s.retired 0 = true ∧ s.retired 1 = true)
     let psq := d.val = 27 ∨ d.val = 28
     (¬ due → Idle rcv s) ∧
     (due → fails → Ends rcv s fun t => NewlyPermanent d.val 0x09 s t ∧ Framed [.flt] [fltPermCnt] faultLogWords s t) ∧
     (due → ¬ fails → Ends rcv s (FenceLeft d s)) ∧
     (due → ¬ fails → ¬ psq → Ends rcv s fun t => Framed [.flt, .can] [fltReadmitCnt] faultLogWords s t ∧
       (∀ p : Fin 4, d.val = 23 + p.val → t.can[p] = { s.can[p] with
         integ := false
         busOff := false
         prog := 0
         txErr := 0
         rxErr := 0
         foreign := false }) ∧
       ∀ p : Fin 4, d.val ≠ 23 + p.val → t.can[p] = s.can[p]) ∧
     (∀ p : Fin 2, due → d.val = 27 + p.val → s.sec.seqImg[p] = none → s.en .psq = true → s.inHold .psq = false →
       Ends rcv s fun t => Framed [.flt, .psq] [fltReadmitCnt] faultLogWords s t ∧ ∀ c : Fin 64, c.val / 32 = p.val →
         t.psq.again.getLsbD c.val = false ∧
         (s.psq.again.getLsbD c.val = false → t.psq.ch[c] = s.psq.ch[c]) ∧
         (s.psq.again.getLsbD c.val = true → s.psq.ch[c].st = .stopped ∨ s.psq.ch[c].st = .fault →
           t.psq.ch[c].st = .running ∧ t.psq.ch[c].pc = (s.reg (psqChEntry c.val)).setWidth 10))) ∧
    (Open s m true fltCmd →
      let cmd := Instr.fence m n
      let back := Instr.readmit m n
      let x := n.toNat
      let shows := fun (st : Byte) (t : State) => fieldOf (t.reg fltCmd) 0 6 = x ∧ fieldOf (t.reg fltCmd) 16 8 = st.toNat
      let refused := fun c st => Ends c s fun t => shows st t ∧ Framed [] [fltCmd] [] s t
      let last := (x = 18 ∧ s.fenced 19 = true) ∨ (x = 19 ∧ s.fenced 18 = true) ∨
        (x = 21 ∧ s.retired 1 = true) ∨ (x = 22 ∧ s.retired 0 = true) ∨
        (∃ e : Fin 10, x = e.val ∧ s.eng[e].st = .active ∧ s.pickEngine = none)
      (37 ≤ x → refused cmd stBusError ∧ refused back stBusError) ∧
      (x < 37 → 32 ≤ x → refused cmd stPolicy) ∧
      (x < 32 → s.fenced x = true → refused cmd stBusError) ∧
      (x < 32 → s.fenced x = false → last → refused cmd stPolicy) ∧
      (x < 32 → x = d.val → 10 ≤ x → x ≠ 21 → x ≠ 22 → InService x s → ¬ last → Ends cmd s fun t => shows stOk t ∧ fences 0x0D t) ∧
      (x = 21 ∨ x = 22 → InService x s → ¬ last → s.retired (x - 21) = false → Ends cmd s fun t => shows stOk t ∧
        NewlyFenced x 0x0D s t ∧ t.swc.retired.getLsbD (x - 21) = true) ∧
      (∀ e : Fin 10, x = e.val → InService x s → s.eng[e].st = .spare → Ends cmd s fun t => shows stOk t ∧
        t.eng[e] = stoppedEngine s.eng[e] .fenced ∧ NewlyFenced x 0x0D s t ∧ ∀ f : Fin 10, f ≠ e → t.eng[f] = s.eng[f]) ∧
      (x < 37 → x = 21 ∨ x = 22 ∨ 32 ≤ x → refused back stPolicy) ∧
      (x < 32 → x ≠ 21 → x ≠ 22 → s.fenced x = false → refused back stBusError) ∧
      (x < 32 → x ≠ 21 → x ≠ 22 → s.fenced x = true → x = d.val → Ends back s fun t => shows stOk t ∧
        t.flt.readmit = setBit s.flt.readmit x true ∧ t.flt.recs[d].info8 = (if m = .jtag then 1 else 0) ∧
        t.flt.fenced = s.flt.fenced ∧ t.flt.perm = s.flt.perm ∧ Framed [.flt, .eng] [fltCmd] [] s t ∧
        ∀ e : Fin 10,
          (x = e.val ∧ s.eng[e].st = .fenced → t.eng[e].st = .test ∧ t.flt.testing.getLsbD x = true) ∧
          (x ≠ e.val ∨ s.eng[e].st ≠ .fenced → t.eng[e] = s.eng[e]))) ∧
    (let due := s.power = .run ∧ ((s.fenced 36 = true ∧ s.sec.restarted = false) ∨ s.sec.supNext.isSome = true)
     let named := match s.sec.supNext with
       | some h => some h
       | none => s.sec.supRunning
     let rst := Instr.supervisorRestart
     let mbx := mbxAbortCnt :: payloadWords
     (¬ due → Idle rst s) ∧
     (∀ h g, due → named = some h → s.imageOf h = some g → s.firmwareOk g = true → Ends rst s fun t =>
       t.sec = { s.sec with supRunning := some g.handle, supNext := none, romServes := false, restarted := s.fenced 36, replies := [] } ∧
       EndpointReset 0x30 s t ∧ Framed [.sec, .mbx] mbx [] s t) ∧
     (due → (∀ h g, named = some h → s.imageOf h = some g → s.firmwareOk g = false) → Ends rst s fun t =>
       t.sec = { s.sec with supRunning := none, supNext := none, romServes := named.isSome, restarted := false, replies := [] } ∧
       EndpointReset 0x30 s t ∧ (s.fenced 36 = true → FenceLeft 36 s t) ∧
       (s.fenced 36 = false → Framed [.sec, .mbx] mbx [] s t) ∧
       Framed [.sec, .mbx, .flt] (fltReadmitCnt :: mbx) faultLogWords s t))

/-- FLT_TWIN_CFG changes CAK and PREF_LEAD only in OFF, and EN falls in no SYNCING or PAIRED twin; EN opens DOWN, its end OFF. A ready device in DOWN or ALONE pairs with a partner that authenticates: its identity kept, the role by the cell role, preference, then identity (a tie falls to the next criterion, log 32); one that fails counts and is noted. SYNCING ends PAIRED, or counts at a SHADOW whose mirrored store fails. In PAIRED a FAIL message, and LOS with the ring's, leave this device ALONE; LOS alone and missed heartbeats take it DOWN in its role, counted; each is noted. HANDOVER at a PAIRED LEAD schedules tick B, the first whole millisecond at least 100 µs ahead; there the roles are exchanged. -/
def Obligations.TwinsPairLoseAndExchange : Prop :=
  ∀ (s : State) (m : Master) (v : Word) (ok own other pref ring : Bool) (peer : BitVec 64), s.storesWf →
    let tw := s.flt.twin
    let sh := s.flt.shadow
    let cfg := s.reg fltTwinCfg
    let goes := fun st shadow (t : State) => t.flt.twin = st ∧ t.flt.shadow = shadow ∧ t.flt.handover = none ∧
      t.flt.fenced = s.flt.fenced ∧ t.flt.perm = s.flt.perm
    let noted := fun (info : Nat) (t : State) => Logged 0x44 0x0C 5 s t ∧
      let q : BitVec 16 := if s.flt.logAny then s.flt.logSeq + 1 else 0
      fieldOf (t.tab .flt 0 (q.toNat % 64 * 4 + 1)) 16 8 = info
    let quiet := fun c st shadow regs => Ends c s fun t => goes st shadow t ∧ Framed [.flt] regs [] s t
    let falls := fun c info => Ends c s fun t => goes .down sh t ∧ noted info t ∧ t.reg fltTwinLossCnt = s.reg fltTwinLossCnt + 1 ∧
      Framed [.flt] [fltTwinLossCnt] faultLogWords s t
    let alone := fun c info => Ends c s fun t => goes .alone false t ∧ noted info t ∧ Framed [.flt] [] faultLogWords s t
    (Open s m true fltTwinCfg →
      let new := v &&& 0x81010000#32
      let changes := bitOf cfg 24 ≠ bitOf new 24 ∨ bitOf cfg 16 ≠ bitOf new 16
      let bad := (tw ≠ .off ∧ changes) ∨ (bitOf v 31 = false ∧ (tw = .syncing ∨ tw = .paired))
      let w := Instr.twinCfgWrite m v
      (bad → Ends w s (Rejected .flt fltTwinCfg s)) ∧
      (¬ bad → Ends w s fun t => t.reg fltTwinCfg = new ∧ Framed [.flt] [fltTwinCfg] [] s t ∧
        (bitOf v 31 = false → goes .off false t) ∧ (bitOf v 31 = true → tw = .off → goes .down false t) ∧
        (bitOf v 31 = true → tw ≠ .off → t.flt = s.flt))) ∧
    (let r : Fin 2 := if bitOf cfg 24 then 1 else 0
     let ready := s.power = .run ∧ s.sec.lifecycle = lcOwned ∧ s.ringEn r.val = true ∧ (s.ringCak r).isSome = true ∧
       (tw = .down ∨ tw = .alone)
     let mine := own || decide (tw = .alone)
     let shadow := if mine ≠ other then other else if bitOf cfg 16 ≠ pref then pref else decide (peer.toNat < s.sec.eui.toNat)
     (¬ ready → Idle (.twinPairing ok peer own other pref) s) ∧
     (ready → Ends (.twinPairing false peer own other pref) s fun t => t.flt.twin = tw ∧ t.flt.shadow = sh ∧ noted 3 t ∧
       t.reg fltTwinAuthCnt = s.reg fltTwinAuthCnt + 1 ∧ Framed [.flt] [fltTwinAuthCnt] faultLogWords s t) ∧
     (ready → Ends (.twinPairing true peer own other pref) s fun t => goes .syncing shadow t ∧
       t.reg fltTwinPeerLo = peer.setWidth 32 ∧ t.reg fltTwinPeerHi = (peer >>> 32).setWidth 32 ∧
       Framed [.flt] [fltTwinPeerLo, fltTwinPeerHi] [] s t)) ∧
    (tw ≠ .syncing → Idle (.twinPaired ok) s) ∧
    (tw = .syncing → quiet (.twinPaired true) .paired sh [] ∧ (sh = false → Idle (.twinPaired false) s) ∧
      (sh = true → Ends (.twinPaired false) s fun t => t.reg fltTwinAuthCnt = s.reg fltTwinAuthCnt + 1 ∧
        Framed [] [fltTwinAuthCnt] [] s t)) ∧
    (tw ≠ .syncing → tw ≠ .paired → Idle .twinFailMessage s ∧ Idle (.twinLos ring) s ∧ Idle .twinHeartbeatMiss s) ∧
    (tw = .syncing → quiet .twinFailMessage .down sh [] ∧ falls (.twinLos ring) 0 ∧ falls .twinHeartbeatMiss 1) ∧
    (tw = .paired → alone .twinFailMessage 2 ∧ alone (.twinLos true) 0 ∧ falls (.twinLos false) 0 ∧
      falls .twinHeartbeatMiss 1) ∧
    (Open s m true fltTwinCmd →
      (tw = .paired → sh = false → Ends (.handover m) s fun t => Framed [.flt] [] [] s t ∧ t.flt.twin = .paired ∧
        t.flt.shadow = false ∧ ∃ b, t.flt.handover = some b ∧ dtVal b % (1000000 * 2 ^ 32) = 0 ∧
          (dtVal (s.time 0) + 1100000 * 2 ^ 32 ≤ dtWrap →
            dtVal (s.time 0) + 100000 * 2 ^ 32 ≤ dtVal b ∧ dtVal b < dtVal (s.time 0) + 1100000 * 2 ^ 32)) ∧
      (tw ≠ .paired ∨ sh = true → Ends (.handover m) s (Rejected .flt fltTwinCmd s))) ∧
    (let due := tw = .paired ∧ match s.flt.handover with
       | some b => dtVal b ≤ dtVal (s.time 0)
       | none => sh = true
     (¬ due → Idle .twinHandoverTick s) ∧ (due → quiet .twinHandoverTick .paired (!sh) []))
end

