-- ==== Sys2Proof/Laws/State.lean ====
section
/-! SUPPORT. What each update of State leaves: one lemma per field per update, true by unfolding. -/

namespace Sys2Proof.Machine

/-! setReg. -/

@[simp] theorem State.setReg_pending (s : State) (a : Nat) (v : Word) : (s.setReg a v).pending = s.pending := rfl
@[simp] theorem State.setReg_regs (s : State) (a : Nat) (v : Word) : (s.setReg a v).regs = amPut regReset s.regs a v := rfl
@[simp] theorem State.setReg_tabs (s : State) (a : Nat) (v : Word) : (s.setReg a v).tabs = s.tabs := rfl
@[simp] theorem State.setReg_ind (s : State) (a : Nat) (v : Word) : (s.setReg a v).ind = s.ind := rfl
@[simp] theorem State.setReg_latches (s : State) (a : Nat) (v : Word) : (s.setReg a v).latches = s.latches := rfl
@[simp] theorem State.setReg_hold (s : State) (a : Nat) (v : Word) : (s.setReg a v).hold = s.hold := rfl
@[simp] theorem State.setReg_power (s : State) (a : Nat) (v : Word) : (s.setReg a v).power = s.power := rfl
@[simp] theorem State.setReg_clk (s : State) (a : Nat) (v : Word) : (s.setReg a v).clk = s.clk := rfl
@[simp] theorem State.setReg_dom (s : State) (a : Nat) (v : Word) : (s.setReg a v).dom = s.dom := rfl
@[simp] theorem State.setReg_stepSeq (s : State) (a : Nat) (v : Word) : (s.setReg a v).stepSeq = s.stepSeq := rfl
@[simp] theorem State.setReg_ttu (s : State) (a : Nat) (v : Word) : (s.setReg a v).ttu = s.ttu := rfl
@[simp] theorem State.setReg_tcu (s : State) (a : Nat) (v : Word) : (s.setReg a v).tcu = s.tcu := rfl
@[simp] theorem State.setReg_mfpExt (s : State) (a : Nat) (v : Word) : (s.setReg a v).mfpExt = s.mfpExt := rfl
@[simp] theorem State.setReg_mfpIn (s : State) (a : Nat) (v : Word) : (s.setReg a v).mfpIn = s.mfpIn := rfl
@[simp] theorem State.setReg_eng (s : State) (a : Nat) (v : Word) : (s.setReg a v).eng = s.eng := rfl
@[simp] theorem State.setReg_insts (s : State) (a : Nat) (v : Word) : (s.setReg a v).insts = s.insts := rfl
@[simp] theorem State.setReg_images (s : State) (a : Nat) (v : Word) : (s.setReg a v).images = s.images := rfl
@[simp] theorem State.setReg_bindSeq (s : State) (a : Nat) (v : Word) : (s.setReg a v).bindSeq = s.bindSeq := rfl
@[simp] theorem State.setReg_rotation (s : State) (a : Nat) (v : Word) : (s.setReg a v).rotation = s.rotation := rfl
@[simp] theorem State.setReg_mbx (s : State) (a : Nat) (v : Word) : (s.setReg a v).mbx = s.mbx := rfl
@[simp] theorem State.setReg_mem (s : State) (a : Nat) (v : Word) : (s.setReg a v).mem = s.mem := rfl
@[simp] theorem State.setReg_flt (s : State) (a : Nat) (v : Word) : (s.setReg a v).flt = s.flt := rfl
@[simp] theorem State.setReg_eth (s : State) (a : Nat) (v : Word) : (s.setReg a v).eth = s.eth := rfl
@[simp] theorem State.setReg_swc (s : State) (a : Nat) (v : Word) : (s.setReg a v).swc = s.swc := rfl
@[simp] theorem State.setReg_ring (s : State) (a : Nat) (v : Word) : (s.setReg a v).ring = s.ring := rfl
@[simp] theorem State.setReg_can (s : State) (a : Nat) (v : Word) : (s.setReg a v).can = s.can := rfl
@[simp] theorem State.setReg_psq (s : State) (a : Nat) (v : Word) : (s.setReg a v).psq = s.psq := rfl
@[simp] theorem State.setReg_hif (s : State) (a : Nat) (v : Word) : (s.setReg a v).hif = s.hif := rfl
@[simp] theorem State.setReg_xpb (s : State) (a : Nat) (v : Word) : (s.setReg a v).xpb = s.xpb := rfl
@[simp] theorem State.setReg_sgm (s : State) (a : Nat) (v : Word) : (s.setReg a v).sgm = s.sgm := rfl
@[simp] theorem State.setReg_sec (s : State) (a : Nat) (v : Word) : (s.setReg a v).sec = s.sec := rfl
@[simp] theorem State.setReg_free (s : State) (a : Nat) (v : Word) : (s.setReg a v).free = s.free := rfl
@[simp] theorem State.setReg_out (s : State) (a : Nat) (v : Word) : (s.setReg a v).out = s.out := rfl

/-! setTab. -/

@[simp] theorem State.setTab_pending (s : State) (b : Blk) (sp w : Nat) (v : Word) : (s.setTab b sp w v).pending = s.pending := rfl
@[simp] theorem State.setTab_regs (s : State) (b : Blk) (sp w : Nat) (v : Word) : (s.setTab b sp w v).regs = s.regs := rfl
@[simp] theorem State.setTab_tabs (s : State) (b : Blk) (sp w : Nat) (v : Word) : (s.setTab b sp w v).tabs = amPut tabReset s.tabs (tabKey (blkIdx b) sp w) v := rfl
@[simp] theorem State.setTab_ind (s : State) (b : Blk) (sp w : Nat) (v : Word) : (s.setTab b sp w v).ind = s.ind := rfl
@[simp] theorem State.setTab_latches (s : State) (b : Blk) (sp w : Nat) (v : Word) : (s.setTab b sp w v).latches = s.latches := rfl
@[simp] theorem State.setTab_hold (s : State) (b : Blk) (sp w : Nat) (v : Word) : (s.setTab b sp w v).hold = s.hold := rfl
@[simp] theorem State.setTab_power (s : State) (b : Blk) (sp w : Nat) (v : Word) : (s.setTab b sp w v).power = s.power := rfl
@[simp] theorem State.setTab_clk (s : State) (b : Blk) (sp w : Nat) (v : Word) : (s.setTab b sp w v).clk = s.clk := rfl
@[simp] theorem State.setTab_dom (s : State) (b : Blk) (sp w : Nat) (v : Word) : (s.setTab b sp w v).dom = s.dom := rfl
@[simp] theorem State.setTab_stepSeq (s : State) (b : Blk) (sp w : Nat) (v : Word) : (s.setTab b sp w v).stepSeq = s.stepSeq := rfl
@[simp] theorem State.setTab_ttu (s : State) (b : Blk) (sp w : Nat) (v : Word) : (s.setTab b sp w v).ttu = s.ttu := rfl
@[simp] theorem State.setTab_tcu (s : State) (b : Blk) (sp w : Nat) (v : Word) : (s.setTab b sp w v).tcu = s.tcu := rfl
@[simp] theorem State.setTab_mfpExt (s : State) (b : Blk) (sp w : Nat) (v : Word) : (s.setTab b sp w v).mfpExt = s.mfpExt := rfl
@[simp] theorem State.setTab_mfpIn (s : State) (b : Blk) (sp w : Nat) (v : Word) : (s.setTab b sp w v).mfpIn = s.mfpIn := rfl
@[simp] theorem State.setTab_eng (s : State) (b : Blk) (sp w : Nat) (v : Word) : (s.setTab b sp w v).eng = s.eng := rfl
@[simp] theorem State.setTab_insts (s : State) (b : Blk) (sp w : Nat) (v : Word) : (s.setTab b sp w v).insts = s.insts := rfl
@[simp] theorem State.setTab_images (s : State) (b : Blk) (sp w : Nat) (v : Word) : (s.setTab b sp w v).images = s.images := rfl
@[simp] theorem State.setTab_bindSeq (s : State) (b : Blk) (sp w : Nat) (v : Word) : (s.setTab b sp w v).bindSeq = s.bindSeq := rfl
@[simp] theorem State.setTab_rotation (s : State) (b : Blk) (sp w : Nat) (v : Word) : (s.setTab b sp w v).rotation = s.rotation := rfl
@[simp] theorem State.setTab_mbx (s : State) (b : Blk) (sp w : Nat) (v : Word) : (s.setTab b sp w v).mbx = s.mbx := rfl
@[simp] theorem State.setTab_mem (s : State) (b : Blk) (sp w : Nat) (v : Word) : (s.setTab b sp w v).mem = s.mem := rfl
@[simp] theorem State.setTab_flt (s : State) (b : Blk) (sp w : Nat) (v : Word) : (s.setTab b sp w v).flt = s.flt := rfl
@[simp] theorem State.setTab_eth (s : State) (b : Blk) (sp w : Nat) (v : Word) : (s.setTab b sp w v).eth = s.eth := rfl
@[simp] theorem State.setTab_swc (s : State) (b : Blk) (sp w : Nat) (v : Word) : (s.setTab b sp w v).swc = s.swc := rfl
@[simp] theorem State.setTab_ring (s : State) (b : Blk) (sp w : Nat) (v : Word) : (s.setTab b sp w v).ring = s.ring := rfl
@[simp] theorem State.setTab_can (s : State) (b : Blk) (sp w : Nat) (v : Word) : (s.setTab b sp w v).can = s.can := rfl
@[simp] theorem State.setTab_psq (s : State) (b : Blk) (sp w : Nat) (v : Word) : (s.setTab b sp w v).psq = s.psq := rfl
@[simp] theorem State.setTab_hif (s : State) (b : Blk) (sp w : Nat) (v : Word) : (s.setTab b sp w v).hif = s.hif := rfl
@[simp] theorem State.setTab_xpb (s : State) (b : Blk) (sp w : Nat) (v : Word) : (s.setTab b sp w v).xpb = s.xpb := rfl
@[simp] theorem State.setTab_sgm (s : State) (b : Blk) (sp w : Nat) (v : Word) : (s.setTab b sp w v).sgm = s.sgm := rfl
@[simp] theorem State.setTab_sec (s : State) (b : Blk) (sp w : Nat) (v : Word) : (s.setTab b sp w v).sec = s.sec := rfl
@[simp] theorem State.setTab_free (s : State) (b : Blk) (sp w : Nat) (v : Word) : (s.setTab b sp w v).free = s.free := rfl
@[simp] theorem State.setTab_out (s : State) (b : Blk) (sp w : Nat) (v : Word) : (s.setTab b sp w v).out = s.out := rfl

/-! emit. -/

@[simp] theorem State.emit_pending (s : State) (o : Output) : (s.emit o).pending = s.pending := rfl
@[simp] theorem State.emit_regs (s : State) (o : Output) : (s.emit o).regs = s.regs := rfl
@[simp] theorem State.emit_tabs (s : State) (o : Output) : (s.emit o).tabs = s.tabs := rfl
@[simp] theorem State.emit_ind (s : State) (o : Output) : (s.emit o).ind = s.ind := rfl
@[simp] theorem State.emit_latches (s : State) (o : Output) : (s.emit o).latches = s.latches := rfl
@[simp] theorem State.emit_hold (s : State) (o : Output) : (s.emit o).hold = s.hold := rfl
@[simp] theorem State.emit_power (s : State) (o : Output) : (s.emit o).power = s.power := rfl
@[simp] theorem State.emit_clk (s : State) (o : Output) : (s.emit o).clk = s.clk := rfl
@[simp] theorem State.emit_dom (s : State) (o : Output) : (s.emit o).dom = s.dom := rfl
@[simp] theorem State.emit_stepSeq (s : State) (o : Output) : (s.emit o).stepSeq = s.stepSeq := rfl
@[simp] theorem State.emit_ttu (s : State) (o : Output) : (s.emit o).ttu = s.ttu := rfl
@[simp] theorem State.emit_tcu (s : State) (o : Output) : (s.emit o).tcu = s.tcu := rfl
@[simp] theorem State.emit_mfpExt (s : State) (o : Output) : (s.emit o).mfpExt = s.mfpExt := rfl
@[simp] theorem State.emit_mfpIn (s : State) (o : Output) : (s.emit o).mfpIn = s.mfpIn := rfl
@[simp] theorem State.emit_eng (s : State) (o : Output) : (s.emit o).eng = s.eng := rfl
@[simp] theorem State.emit_insts (s : State) (o : Output) : (s.emit o).insts = s.insts := rfl
@[simp] theorem State.emit_images (s : State) (o : Output) : (s.emit o).images = s.images := rfl
@[simp] theorem State.emit_bindSeq (s : State) (o : Output) : (s.emit o).bindSeq = s.bindSeq := rfl
@[simp] theorem State.emit_rotation (s : State) (o : Output) : (s.emit o).rotation = s.rotation := rfl
@[simp] theorem State.emit_mbx (s : State) (o : Output) : (s.emit o).mbx = s.mbx := rfl
@[simp] theorem State.emit_mem (s : State) (o : Output) : (s.emit o).mem = s.mem := rfl
@[simp] theorem State.emit_flt (s : State) (o : Output) : (s.emit o).flt = s.flt := rfl
@[simp] theorem State.emit_eth (s : State) (o : Output) : (s.emit o).eth = s.eth := rfl
@[simp] theorem State.emit_swc (s : State) (o : Output) : (s.emit o).swc = s.swc := rfl
@[simp] theorem State.emit_ring (s : State) (o : Output) : (s.emit o).ring = s.ring := rfl
@[simp] theorem State.emit_can (s : State) (o : Output) : (s.emit o).can = s.can := rfl
@[simp] theorem State.emit_psq (s : State) (o : Output) : (s.emit o).psq = s.psq := rfl
@[simp] theorem State.emit_hif (s : State) (o : Output) : (s.emit o).hif = s.hif := rfl
@[simp] theorem State.emit_xpb (s : State) (o : Output) : (s.emit o).xpb = s.xpb := rfl
@[simp] theorem State.emit_sgm (s : State) (o : Output) : (s.emit o).sgm = s.sgm := rfl
@[simp] theorem State.emit_sec (s : State) (o : Output) : (s.emit o).sec = s.sec := rfl
@[simp] theorem State.emit_free (s : State) (o : Output) : (s.emit o).free = s.free := rfl
@[simp] theorem State.emit_out (s : State) (o : Output) : (s.emit o).out = s.out ++ [o] := rfl

/-! setHold. -/

@[simp] theorem State.setHold_pending (s : State) (b : Blk) (h : Bool) : (s.setHold b h).pending = s.pending := rfl
@[simp] theorem State.setHold_regs (s : State) (b : Blk) (h : Bool) : (s.setHold b h).regs = s.regs := rfl
@[simp] theorem State.setHold_tabs (s : State) (b : Blk) (h : Bool) : (s.setHold b h).tabs = s.tabs := rfl
@[simp] theorem State.setHold_ind (s : State) (b : Blk) (h : Bool) : (s.setHold b h).ind = s.ind := rfl
@[simp] theorem State.setHold_latches (s : State) (b : Blk) (h : Bool) : (s.setHold b h).latches = s.latches := rfl
@[simp] theorem State.setHold_hold (s : State) (b : Blk) (h : Bool) : (s.setHold b h).hold = setBit s.hold (blkIdx b) h := rfl
@[simp] theorem State.setHold_power (s : State) (b : Blk) (h : Bool) : (s.setHold b h).power = s.power := rfl
@[simp] theorem State.setHold_clk (s : State) (b : Blk) (h : Bool) : (s.setHold b h).clk = s.clk := rfl
@[simp] theorem State.setHold_dom (s : State) (b : Blk) (h : Bool) : (s.setHold b h).dom = s.dom := rfl
@[simp] theorem State.setHold_stepSeq (s : State) (b : Blk) (h : Bool) : (s.setHold b h).stepSeq = s.stepSeq := rfl
@[simp] theorem State.setHold_ttu (s : State) (b : Blk) (h : Bool) : (s.setHold b h).ttu = s.ttu := rfl
@[simp] theorem State.setHold_tcu (s : State) (b : Blk) (h : Bool) : (s.setHold b h).tcu = s.tcu := rfl
@[simp] theorem State.setHold_mfpExt (s : State) (b : Blk) (h : Bool) : (s.setHold b h).mfpExt = s.mfpExt := rfl
@[simp] theorem State.setHold_mfpIn (s : State) (b : Blk) (h : Bool) : (s.setHold b h).mfpIn = s.mfpIn := rfl
@[simp] theorem State.setHold_eng (s : State) (b : Blk) (h : Bool) : (s.setHold b h).eng = s.eng := rfl
@[simp] theorem State.setHold_insts (s : State) (b : Blk) (h : Bool) : (s.setHold b h).insts = s.insts := rfl
@[simp] theorem State.setHold_images (s : State) (b : Blk) (h : Bool) : (s.setHold b h).images = s.images := rfl
@[simp] theorem State.setHold_bindSeq (s : State) (b : Blk) (h : Bool) : (s.setHold b h).bindSeq = s.bindSeq := rfl
@[simp] theorem State.setHold_rotation (s : State) (b : Blk) (h : Bool) : (s.setHold b h).rotation = s.rotation := rfl
@[simp] theorem State.setHold_mbx (s : State) (b : Blk) (h : Bool) : (s.setHold b h).mbx = s.mbx := rfl
@[simp] theorem State.setHold_mem (s : State) (b : Blk) (h : Bool) : (s.setHold b h).mem = s.mem := rfl
@[simp] theorem State.setHold_flt (s : State) (b : Blk) (h : Bool) : (s.setHold b h).flt = s.flt := rfl
@[simp] theorem State.setHold_eth (s : State) (b : Blk) (h : Bool) : (s.setHold b h).eth = s.eth := rfl
@[simp] theorem State.setHold_swc (s : State) (b : Blk) (h : Bool) : (s.setHold b h).swc = s.swc := rfl
@[simp] theorem State.setHold_ring (s : State) (b : Blk) (h : Bool) : (s.setHold b h).ring = s.ring := rfl
@[simp] theorem State.setHold_can (s : State) (b : Blk) (h : Bool) : (s.setHold b h).can = s.can := rfl
@[simp] theorem State.setHold_psq (s : State) (b : Blk) (h : Bool) : (s.setHold b h).psq = s.psq := rfl
@[simp] theorem State.setHold_hif (s : State) (b : Blk) (h : Bool) : (s.setHold b h).hif = s.hif := rfl
@[simp] theorem State.setHold_xpb (s : State) (b : Blk) (h : Bool) : (s.setHold b h).xpb = s.xpb := rfl
@[simp] theorem State.setHold_sgm (s : State) (b : Blk) (h : Bool) : (s.setHold b h).sgm = s.sgm := rfl
@[simp] theorem State.setHold_sec (s : State) (b : Blk) (h : Bool) : (s.setHold b h).sec = s.sec := rfl
@[simp] theorem State.setHold_free (s : State) (b : Blk) (h : Bool) : (s.setHold b h).free = s.free := rfl
@[simp] theorem State.setHold_out (s : State) (b : Blk) (h : Bool) : (s.setHold b h).out = s.out := rfl

/-! setDom. -/

@[simp] theorem State.setDom_pending (s : State) (d : Fin 4) (x : Domain) : (s.setDom d x).pending = s.pending := rfl
@[simp] theorem State.setDom_regs (s : State) (d : Fin 4) (x : Domain) : (s.setDom d x).regs = s.regs := rfl
@[simp] theorem State.setDom_tabs (s : State) (d : Fin 4) (x : Domain) : (s.setDom d x).tabs = s.tabs := rfl
@[simp] theorem State.setDom_ind (s : State) (d : Fin 4) (x : Domain) : (s.setDom d x).ind = s.ind := rfl
@[simp] theorem State.setDom_latches (s : State) (d : Fin 4) (x : Domain) : (s.setDom d x).latches = s.latches := rfl
@[simp] theorem State.setDom_hold (s : State) (d : Fin 4) (x : Domain) : (s.setDom d x).hold = s.hold := rfl
@[simp] theorem State.setDom_power (s : State) (d : Fin 4) (x : Domain) : (s.setDom d x).power = s.power := rfl
@[simp] theorem State.setDom_clk (s : State) (d : Fin 4) (x : Domain) : (s.setDom d x).clk = s.clk := rfl
@[simp] theorem State.setDom_dom (s : State) (d : Fin 4) (x : Domain) : (s.setDom d x).dom = vset s.dom d x := rfl
@[simp] theorem State.setDom_stepSeq (s : State) (d : Fin 4) (x : Domain) : (s.setDom d x).stepSeq = s.stepSeq := rfl
@[simp] theorem State.setDom_ttu (s : State) (d : Fin 4) (x : Domain) : (s.setDom d x).ttu = s.ttu := rfl
@[simp] theorem State.setDom_tcu (s : State) (d : Fin 4) (x : Domain) : (s.setDom d x).tcu = s.tcu := rfl
@[simp] theorem State.setDom_mfpExt (s : State) (d : Fin 4) (x : Domain) : (s.setDom d x).mfpExt = s.mfpExt := rfl
@[simp] theorem State.setDom_mfpIn (s : State) (d : Fin 4) (x : Domain) : (s.setDom d x).mfpIn = s.mfpIn := rfl
@[simp] theorem State.setDom_eng (s : State) (d : Fin 4) (x : Domain) : (s.setDom d x).eng = s.eng := rfl
@[simp] theorem State.setDom_insts (s : State) (d : Fin 4) (x : Domain) : (s.setDom d x).insts = s.insts := rfl
@[simp] theorem State.setDom_images (s : State) (d : Fin 4) (x : Domain) : (s.setDom d x).images = s.images := rfl
@[simp] theorem State.setDom_bindSeq (s : State) (d : Fin 4) (x : Domain) : (s.setDom d x).bindSeq = s.bindSeq := rfl
@[simp] theorem State.setDom_rotation (s : State) (d : Fin 4) (x : Domain) : (s.setDom d x).rotation = s.rotation := rfl
@[simp] theorem State.setDom_mbx (s : State) (d : Fin 4) (x : Domain) : (s.setDom d x).mbx = s.mbx := rfl
@[simp] theorem State.setDom_mem (s : State) (d : Fin 4) (x : Domain) : (s.setDom d x).mem = s.mem := rfl
@[simp] theorem State.setDom_flt (s : State) (d : Fin 4) (x : Domain) : (s.setDom d x).flt = s.flt := rfl
@[simp] theorem State.setDom_eth (s : State) (d : Fin 4) (x : Domain) : (s.setDom d x).eth = s.eth := rfl
@[simp] theorem State.setDom_swc (s : State) (d : Fin 4) (x : Domain) : (s.setDom d x).swc = s.swc := rfl
@[simp] theorem State.setDom_ring (s : State) (d : Fin 4) (x : Domain) : (s.setDom d x).ring = s.ring := rfl
@[simp] theorem State.setDom_can (s : State) (d : Fin 4) (x : Domain) : (s.setDom d x).can = s.can := rfl
@[simp] theorem State.setDom_psq (s : State) (d : Fin 4) (x : Domain) : (s.setDom d x).psq = s.psq := rfl
@[simp] theorem State.setDom_hif (s : State) (d : Fin 4) (x : Domain) : (s.setDom d x).hif = s.hif := rfl
@[simp] theorem State.setDom_xpb (s : State) (d : Fin 4) (x : Domain) : (s.setDom d x).xpb = s.xpb := rfl
@[simp] theorem State.setDom_sgm (s : State) (d : Fin 4) (x : Domain) : (s.setDom d x).sgm = s.sgm := rfl
@[simp] theorem State.setDom_sec (s : State) (d : Fin 4) (x : Domain) : (s.setDom d x).sec = s.sec := rfl
@[simp] theorem State.setDom_free (s : State) (d : Fin 4) (x : Domain) : (s.setDom d x).free = s.free := rfl
@[simp] theorem State.setDom_out (s : State) (d : Fin 4) (x : Domain) : (s.setDom d x).out = s.out := rfl

/-! setEng. -/

@[simp] theorem State.setEng_pending (s : State) (e : Fin 10) (x : Engine) : (s.setEng e x).pending = s.pending := rfl
@[simp] theorem State.setEng_regs (s : State) (e : Fin 10) (x : Engine) : (s.setEng e x).regs = s.regs := rfl
@[simp] theorem State.setEng_tabs (s : State) (e : Fin 10) (x : Engine) : (s.setEng e x).tabs = s.tabs := rfl
@[simp] theorem State.setEng_ind (s : State) (e : Fin 10) (x : Engine) : (s.setEng e x).ind = s.ind := rfl
@[simp] theorem State.setEng_latches (s : State) (e : Fin 10) (x : Engine) : (s.setEng e x).latches = s.latches := rfl
@[simp] theorem State.setEng_hold (s : State) (e : Fin 10) (x : Engine) : (s.setEng e x).hold = s.hold := rfl
@[simp] theorem State.setEng_power (s : State) (e : Fin 10) (x : Engine) : (s.setEng e x).power = s.power := rfl
@[simp] theorem State.setEng_clk (s : State) (e : Fin 10) (x : Engine) : (s.setEng e x).clk = s.clk := rfl
@[simp] theorem State.setEng_dom (s : State) (e : Fin 10) (x : Engine) : (s.setEng e x).dom = s.dom := rfl
@[simp] theorem State.setEng_stepSeq (s : State) (e : Fin 10) (x : Engine) : (s.setEng e x).stepSeq = s.stepSeq := rfl
@[simp] theorem State.setEng_ttu (s : State) (e : Fin 10) (x : Engine) : (s.setEng e x).ttu = s.ttu := rfl
@[simp] theorem State.setEng_tcu (s : State) (e : Fin 10) (x : Engine) : (s.setEng e x).tcu = s.tcu := rfl
@[simp] theorem State.setEng_mfpExt (s : State) (e : Fin 10) (x : Engine) : (s.setEng e x).mfpExt = s.mfpExt := rfl
@[simp] theorem State.setEng_mfpIn (s : State) (e : Fin 10) (x : Engine) : (s.setEng e x).mfpIn = s.mfpIn := rfl
@[simp] theorem State.setEng_eng (s : State) (e : Fin 10) (x : Engine) : (s.setEng e x).eng = vset s.eng e x := rfl
@[simp] theorem State.setEng_insts (s : State) (e : Fin 10) (x : Engine) : (s.setEng e x).insts = s.insts := rfl
@[simp] theorem State.setEng_images (s : State) (e : Fin 10) (x : Engine) : (s.setEng e x).images = s.images := rfl
@[simp] theorem State.setEng_bindSeq (s : State) (e : Fin 10) (x : Engine) : (s.setEng e x).bindSeq = s.bindSeq := rfl
@[simp] theorem State.setEng_rotation (s : State) (e : Fin 10) (x : Engine) : (s.setEng e x).rotation = s.rotation := rfl
@[simp] theorem State.setEng_mbx (s : State) (e : Fin 10) (x : Engine) : (s.setEng e x).mbx = s.mbx := rfl
@[simp] theorem State.setEng_mem (s : State) (e : Fin 10) (x : Engine) : (s.setEng e x).mem = s.mem := rfl
@[simp] theorem State.setEng_flt (s : State) (e : Fin 10) (x : Engine) : (s.setEng e x).flt = s.flt := rfl
@[simp] theorem State.setEng_eth (s : State) (e : Fin 10) (x : Engine) : (s.setEng e x).eth = s.eth := rfl
@[simp] theorem State.setEng_swc (s : State) (e : Fin 10) (x : Engine) : (s.setEng e x).swc = s.swc := rfl
@[simp] theorem State.setEng_ring (s : State) (e : Fin 10) (x : Engine) : (s.setEng e x).ring = s.ring := rfl
@[simp] theorem State.setEng_can (s : State) (e : Fin 10) (x : Engine) : (s.setEng e x).can = s.can := rfl
@[simp] theorem State.setEng_psq (s : State) (e : Fin 10) (x : Engine) : (s.setEng e x).psq = s.psq := rfl
@[simp] theorem State.setEng_hif (s : State) (e : Fin 10) (x : Engine) : (s.setEng e x).hif = s.hif := rfl
@[simp] theorem State.setEng_xpb (s : State) (e : Fin 10) (x : Engine) : (s.setEng e x).xpb = s.xpb := rfl
@[simp] theorem State.setEng_sgm (s : State) (e : Fin 10) (x : Engine) : (s.setEng e x).sgm = s.sgm := rfl
@[simp] theorem State.setEng_sec (s : State) (e : Fin 10) (x : Engine) : (s.setEng e x).sec = s.sec := rfl
@[simp] theorem State.setEng_free (s : State) (e : Fin 10) (x : Engine) : (s.setEng e x).free = s.free := rfl
@[simp] theorem State.setEng_out (s : State) (e : Fin 10) (x : Engine) : (s.setEng e x).out = s.out := rfl

/-! setInst. -/

@[simp] theorem State.setInst_pending (s : State) (r : Fin 10) (i : Option Inst) : (s.setInst r i).pending = s.pending := rfl
@[simp] theorem State.setInst_regs (s : State) (r : Fin 10) (i : Option Inst) : (s.setInst r i).regs = s.regs := rfl
@[simp] theorem State.setInst_tabs (s : State) (r : Fin 10) (i : Option Inst) : (s.setInst r i).tabs = s.tabs := rfl
@[simp] theorem State.setInst_ind (s : State) (r : Fin 10) (i : Option Inst) : (s.setInst r i).ind = s.ind := rfl
@[simp] theorem State.setInst_latches (s : State) (r : Fin 10) (i : Option Inst) : (s.setInst r i).latches = s.latches := rfl
@[simp] theorem State.setInst_hold (s : State) (r : Fin 10) (i : Option Inst) : (s.setInst r i).hold = s.hold := rfl
@[simp] theorem State.setInst_power (s : State) (r : Fin 10) (i : Option Inst) : (s.setInst r i).power = s.power := rfl
@[simp] theorem State.setInst_clk (s : State) (r : Fin 10) (i : Option Inst) : (s.setInst r i).clk = s.clk := rfl
@[simp] theorem State.setInst_dom (s : State) (r : Fin 10) (i : Option Inst) : (s.setInst r i).dom = s.dom := rfl
@[simp] theorem State.setInst_stepSeq (s : State) (r : Fin 10) (i : Option Inst) : (s.setInst r i).stepSeq = s.stepSeq := rfl
@[simp] theorem State.setInst_ttu (s : State) (r : Fin 10) (i : Option Inst) : (s.setInst r i).ttu = s.ttu := rfl
@[simp] theorem State.setInst_tcu (s : State) (r : Fin 10) (i : Option Inst) : (s.setInst r i).tcu = s.tcu := rfl
@[simp] theorem State.setInst_mfpExt (s : State) (r : Fin 10) (i : Option Inst) : (s.setInst r i).mfpExt = s.mfpExt := rfl
@[simp] theorem State.setInst_mfpIn (s : State) (r : Fin 10) (i : Option Inst) : (s.setInst r i).mfpIn = s.mfpIn := rfl
@[simp] theorem State.setInst_eng (s : State) (r : Fin 10) (i : Option Inst) : (s.setInst r i).eng = s.eng := rfl
@[simp] theorem State.setInst_insts (s : State) (r : Fin 10) (i : Option Inst) : (s.setInst r i).insts = vset s.insts r i := rfl
@[simp] theorem State.setInst_images (s : State) (r : Fin 10) (i : Option Inst) : (s.setInst r i).images = s.images := rfl
@[simp] theorem State.setInst_bindSeq (s : State) (r : Fin 10) (i : Option Inst) : (s.setInst r i).bindSeq = s.bindSeq := rfl
@[simp] theorem State.setInst_rotation (s : State) (r : Fin 10) (i : Option Inst) : (s.setInst r i).rotation = s.rotation := rfl
@[simp] theorem State.setInst_mbx (s : State) (r : Fin 10) (i : Option Inst) : (s.setInst r i).mbx = s.mbx := rfl
@[simp] theorem State.setInst_mem (s : State) (r : Fin 10) (i : Option Inst) : (s.setInst r i).mem = s.mem := rfl
@[simp] theorem State.setInst_flt (s : State) (r : Fin 10) (i : Option Inst) : (s.setInst r i).flt = s.flt := rfl
@[simp] theorem State.setInst_eth (s : State) (r : Fin 10) (i : Option Inst) : (s.setInst r i).eth = s.eth := rfl
@[simp] theorem State.setInst_swc (s : State) (r : Fin 10) (i : Option Inst) : (s.setInst r i).swc = s.swc := rfl
@[simp] theorem State.setInst_ring (s : State) (r : Fin 10) (i : Option Inst) : (s.setInst r i).ring = s.ring := rfl
@[simp] theorem State.setInst_can (s : State) (r : Fin 10) (i : Option Inst) : (s.setInst r i).can = s.can := rfl
@[simp] theorem State.setInst_psq (s : State) (r : Fin 10) (i : Option Inst) : (s.setInst r i).psq = s.psq := rfl
@[simp] theorem State.setInst_hif (s : State) (r : Fin 10) (i : Option Inst) : (s.setInst r i).hif = s.hif := rfl
@[simp] theorem State.setInst_xpb (s : State) (r : Fin 10) (i : Option Inst) : (s.setInst r i).xpb = s.xpb := rfl
@[simp] theorem State.setInst_sgm (s : State) (r : Fin 10) (i : Option Inst) : (s.setInst r i).sgm = s.sgm := rfl
@[simp] theorem State.setInst_sec (s : State) (r : Fin 10) (i : Option Inst) : (s.setInst r i).sec = s.sec := rfl
@[simp] theorem State.setInst_free (s : State) (r : Fin 10) (i : Option Inst) : (s.setInst r i).free = s.free := rfl
@[simp] theorem State.setInst_out (s : State) (r : Fin 10) (i : Option Inst) : (s.setInst r i).out = s.out := rfl

/-! setTtu. -/

@[simp] theorem State.setTtu_pending (s : State) (n : Fin 24) (x : Ttu) : (s.setTtu n x).pending = s.pending := rfl
@[simp] theorem State.setTtu_regs (s : State) (n : Fin 24) (x : Ttu) : (s.setTtu n x).regs = s.regs := rfl
@[simp] theorem State.setTtu_tabs (s : State) (n : Fin 24) (x : Ttu) : (s.setTtu n x).tabs = s.tabs := rfl
@[simp] theorem State.setTtu_ind (s : State) (n : Fin 24) (x : Ttu) : (s.setTtu n x).ind = s.ind := rfl
@[simp] theorem State.setTtu_latches (s : State) (n : Fin 24) (x : Ttu) : (s.setTtu n x).latches = s.latches := rfl
@[simp] theorem State.setTtu_hold (s : State) (n : Fin 24) (x : Ttu) : (s.setTtu n x).hold = s.hold := rfl
@[simp] theorem State.setTtu_power (s : State) (n : Fin 24) (x : Ttu) : (s.setTtu n x).power = s.power := rfl
@[simp] theorem State.setTtu_clk (s : State) (n : Fin 24) (x : Ttu) : (s.setTtu n x).clk = s.clk := rfl
@[simp] theorem State.setTtu_dom (s : State) (n : Fin 24) (x : Ttu) : (s.setTtu n x).dom = s.dom := rfl
@[simp] theorem State.setTtu_stepSeq (s : State) (n : Fin 24) (x : Ttu) : (s.setTtu n x).stepSeq = s.stepSeq := rfl
@[simp] theorem State.setTtu_ttu (s : State) (n : Fin 24) (x : Ttu) : (s.setTtu n x).ttu = vset s.ttu n x := rfl
@[simp] theorem State.setTtu_tcu (s : State) (n : Fin 24) (x : Ttu) : (s.setTtu n x).tcu = s.tcu := rfl
@[simp] theorem State.setTtu_mfpExt (s : State) (n : Fin 24) (x : Ttu) : (s.setTtu n x).mfpExt = s.mfpExt := rfl
@[simp] theorem State.setTtu_mfpIn (s : State) (n : Fin 24) (x : Ttu) : (s.setTtu n x).mfpIn = s.mfpIn := rfl
@[simp] theorem State.setTtu_eng (s : State) (n : Fin 24) (x : Ttu) : (s.setTtu n x).eng = s.eng := rfl
@[simp] theorem State.setTtu_insts (s : State) (n : Fin 24) (x : Ttu) : (s.setTtu n x).insts = s.insts := rfl
@[simp] theorem State.setTtu_images (s : State) (n : Fin 24) (x : Ttu) : (s.setTtu n x).images = s.images := rfl
@[simp] theorem State.setTtu_bindSeq (s : State) (n : Fin 24) (x : Ttu) : (s.setTtu n x).bindSeq = s.bindSeq := rfl
@[simp] theorem State.setTtu_rotation (s : State) (n : Fin 24) (x : Ttu) : (s.setTtu n x).rotation = s.rotation := rfl
@[simp] theorem State.setTtu_mbx (s : State) (n : Fin 24) (x : Ttu) : (s.setTtu n x).mbx = s.mbx := rfl
@[simp] theorem State.setTtu_mem (s : State) (n : Fin 24) (x : Ttu) : (s.setTtu n x).mem = s.mem := rfl
@[simp] theorem State.setTtu_flt (s : State) (n : Fin 24) (x : Ttu) : (s.setTtu n x).flt = s.flt := rfl
@[simp] theorem State.setTtu_eth (s : State) (n : Fin 24) (x : Ttu) : (s.setTtu n x).eth = s.eth := rfl
@[simp] theorem State.setTtu_swc (s : State) (n : Fin 24) (x : Ttu) : (s.setTtu n x).swc = s.swc := rfl
@[simp] theorem State.setTtu_ring (s : State) (n : Fin 24) (x : Ttu) : (s.setTtu n x).ring = s.ring := rfl
@[simp] theorem State.setTtu_can (s : State) (n : Fin 24) (x : Ttu) : (s.setTtu n x).can = s.can := rfl
@[simp] theorem State.setTtu_psq (s : State) (n : Fin 24) (x : Ttu) : (s.setTtu n x).psq = s.psq := rfl
@[simp] theorem State.setTtu_hif (s : State) (n : Fin 24) (x : Ttu) : (s.setTtu n x).hif = s.hif := rfl
@[simp] theorem State.setTtu_xpb (s : State) (n : Fin 24) (x : Ttu) : (s.setTtu n x).xpb = s.xpb := rfl
@[simp] theorem State.setTtu_sgm (s : State) (n : Fin 24) (x : Ttu) : (s.setTtu n x).sgm = s.sgm := rfl
@[simp] theorem State.setTtu_sec (s : State) (n : Fin 24) (x : Ttu) : (s.setTtu n x).sec = s.sec := rfl
@[simp] theorem State.setTtu_free (s : State) (n : Fin 24) (x : Ttu) : (s.setTtu n x).free = s.free := rfl
@[simp] theorem State.setTtu_out (s : State) (n : Fin 24) (x : Ttu) : (s.setTtu n x).out = s.out := rfl

/-! setEth. -/

@[simp] theorem State.setEth_pending (s : State) (n : Fin 8) (x : EthState) : (s.setEth n x).pending = s.pending := rfl
@[simp] theorem State.setEth_regs (s : State) (n : Fin 8) (x : EthState) : (s.setEth n x).regs = s.regs := rfl
@[simp] theorem State.setEth_tabs (s : State) (n : Fin 8) (x : EthState) : (s.setEth n x).tabs = s.tabs := rfl
@[simp] theorem State.setEth_ind (s : State) (n : Fin 8) (x : EthState) : (s.setEth n x).ind = s.ind := rfl
@[simp] theorem State.setEth_latches (s : State) (n : Fin 8) (x : EthState) : (s.setEth n x).latches = s.latches := rfl
@[simp] theorem State.setEth_hold (s : State) (n : Fin 8) (x : EthState) : (s.setEth n x).hold = s.hold := rfl
@[simp] theorem State.setEth_power (s : State) (n : Fin 8) (x : EthState) : (s.setEth n x).power = s.power := rfl
@[simp] theorem State.setEth_clk (s : State) (n : Fin 8) (x : EthState) : (s.setEth n x).clk = s.clk := rfl
@[simp] theorem State.setEth_dom (s : State) (n : Fin 8) (x : EthState) : (s.setEth n x).dom = s.dom := rfl
@[simp] theorem State.setEth_stepSeq (s : State) (n : Fin 8) (x : EthState) : (s.setEth n x).stepSeq = s.stepSeq := rfl
@[simp] theorem State.setEth_ttu (s : State) (n : Fin 8) (x : EthState) : (s.setEth n x).ttu = s.ttu := rfl
@[simp] theorem State.setEth_tcu (s : State) (n : Fin 8) (x : EthState) : (s.setEth n x).tcu = s.tcu := rfl
@[simp] theorem State.setEth_mfpExt (s : State) (n : Fin 8) (x : EthState) : (s.setEth n x).mfpExt = s.mfpExt := rfl
@[simp] theorem State.setEth_mfpIn (s : State) (n : Fin 8) (x : EthState) : (s.setEth n x).mfpIn = s.mfpIn := rfl
@[simp] theorem State.setEth_eng (s : State) (n : Fin 8) (x : EthState) : (s.setEth n x).eng = s.eng := rfl
@[simp] theorem State.setEth_insts (s : State) (n : Fin 8) (x : EthState) : (s.setEth n x).insts = s.insts := rfl
@[simp] theorem State.setEth_images (s : State) (n : Fin 8) (x : EthState) : (s.setEth n x).images = s.images := rfl
@[simp] theorem State.setEth_bindSeq (s : State) (n : Fin 8) (x : EthState) : (s.setEth n x).bindSeq = s.bindSeq := rfl
@[simp] theorem State.setEth_rotation (s : State) (n : Fin 8) (x : EthState) : (s.setEth n x).rotation = s.rotation := rfl
@[simp] theorem State.setEth_mbx (s : State) (n : Fin 8) (x : EthState) : (s.setEth n x).mbx = s.mbx := rfl
@[simp] theorem State.setEth_mem (s : State) (n : Fin 8) (x : EthState) : (s.setEth n x).mem = s.mem := rfl
@[simp] theorem State.setEth_flt (s : State) (n : Fin 8) (x : EthState) : (s.setEth n x).flt = s.flt := rfl
@[simp] theorem State.setEth_eth (s : State) (n : Fin 8) (x : EthState) : (s.setEth n x).eth = vset s.eth n x := rfl
@[simp] theorem State.setEth_swc (s : State) (n : Fin 8) (x : EthState) : (s.setEth n x).swc = s.swc := rfl
@[simp] theorem State.setEth_ring (s : State) (n : Fin 8) (x : EthState) : (s.setEth n x).ring = s.ring := rfl
@[simp] theorem State.setEth_can (s : State) (n : Fin 8) (x : EthState) : (s.setEth n x).can = s.can := rfl
@[simp] theorem State.setEth_psq (s : State) (n : Fin 8) (x : EthState) : (s.setEth n x).psq = s.psq := rfl
@[simp] theorem State.setEth_hif (s : State) (n : Fin 8) (x : EthState) : (s.setEth n x).hif = s.hif := rfl
@[simp] theorem State.setEth_xpb (s : State) (n : Fin 8) (x : EthState) : (s.setEth n x).xpb = s.xpb := rfl
@[simp] theorem State.setEth_sgm (s : State) (n : Fin 8) (x : EthState) : (s.setEth n x).sgm = s.sgm := rfl
@[simp] theorem State.setEth_sec (s : State) (n : Fin 8) (x : EthState) : (s.setEth n x).sec = s.sec := rfl
@[simp] theorem State.setEth_free (s : State) (n : Fin 8) (x : EthState) : (s.setEth n x).free = s.free := rfl
@[simp] theorem State.setEth_out (s : State) (n : Fin 8) (x : EthState) : (s.setEth n x).out = s.out := rfl

/-! setSwc. -/

@[simp] theorem State.setSwc_pending (s : State) (x : SwcState) : (s.setSwc x).pending = s.pending := rfl
@[simp] theorem State.setSwc_regs (s : State) (x : SwcState) : (s.setSwc x).regs = s.regs := rfl
@[simp] theorem State.setSwc_tabs (s : State) (x : SwcState) : (s.setSwc x).tabs = s.tabs := rfl
@[simp] theorem State.setSwc_ind (s : State) (x : SwcState) : (s.setSwc x).ind = s.ind := rfl
@[simp] theorem State.setSwc_latches (s : State) (x : SwcState) : (s.setSwc x).latches = s.latches := rfl
@[simp] theorem State.setSwc_hold (s : State) (x : SwcState) : (s.setSwc x).hold = s.hold := rfl
@[simp] theorem State.setSwc_power (s : State) (x : SwcState) : (s.setSwc x).power = s.power := rfl
@[simp] theorem State.setSwc_clk (s : State) (x : SwcState) : (s.setSwc x).clk = s.clk := rfl
@[simp] theorem State.setSwc_dom (s : State) (x : SwcState) : (s.setSwc x).dom = s.dom := rfl
@[simp] theorem State.setSwc_stepSeq (s : State) (x : SwcState) : (s.setSwc x).stepSeq = s.stepSeq := rfl
@[simp] theorem State.setSwc_ttu (s : State) (x : SwcState) : (s.setSwc x).ttu = s.ttu := rfl
@[simp] theorem State.setSwc_tcu (s : State) (x : SwcState) : (s.setSwc x).tcu = s.tcu := rfl
@[simp] theorem State.setSwc_mfpExt (s : State) (x : SwcState) : (s.setSwc x).mfpExt = s.mfpExt := rfl
@[simp] theorem State.setSwc_mfpIn (s : State) (x : SwcState) : (s.setSwc x).mfpIn = s.mfpIn := rfl
@[simp] theorem State.setSwc_eng (s : State) (x : SwcState) : (s.setSwc x).eng = s.eng := rfl
@[simp] theorem State.setSwc_insts (s : State) (x : SwcState) : (s.setSwc x).insts = s.insts := rfl
@[simp] theorem State.setSwc_images (s : State) (x : SwcState) : (s.setSwc x).images = s.images := rfl
@[simp] theorem State.setSwc_bindSeq (s : State) (x : SwcState) : (s.setSwc x).bindSeq = s.bindSeq := rfl
@[simp] theorem State.setSwc_rotation (s : State) (x : SwcState) : (s.setSwc x).rotation = s.rotation := rfl
@[simp] theorem State.setSwc_mbx (s : State) (x : SwcState) : (s.setSwc x).mbx = s.mbx := rfl
@[simp] theorem State.setSwc_mem (s : State) (x : SwcState) : (s.setSwc x).mem = s.mem := rfl
@[simp] theorem State.setSwc_flt (s : State) (x : SwcState) : (s.setSwc x).flt = s.flt := rfl
@[simp] theorem State.setSwc_eth (s : State) (x : SwcState) : (s.setSwc x).eth = s.eth := rfl
@[simp] theorem State.setSwc_swc (s : State) (x : SwcState) : (s.setSwc x).swc = x := rfl
@[simp] theorem State.setSwc_ring (s : State) (x : SwcState) : (s.setSwc x).ring = s.ring := rfl
@[simp] theorem State.setSwc_can (s : State) (x : SwcState) : (s.setSwc x).can = s.can := rfl
@[simp] theorem State.setSwc_psq (s : State) (x : SwcState) : (s.setSwc x).psq = s.psq := rfl
@[simp] theorem State.setSwc_hif (s : State) (x : SwcState) : (s.setSwc x).hif = s.hif := rfl
@[simp] theorem State.setSwc_xpb (s : State) (x : SwcState) : (s.setSwc x).xpb = s.xpb := rfl
@[simp] theorem State.setSwc_sgm (s : State) (x : SwcState) : (s.setSwc x).sgm = s.sgm := rfl
@[simp] theorem State.setSwc_sec (s : State) (x : SwcState) : (s.setSwc x).sec = s.sec := rfl
@[simp] theorem State.setSwc_free (s : State) (x : SwcState) : (s.setSwc x).free = s.free := rfl
@[simp] theorem State.setSwc_out (s : State) (x : SwcState) : (s.setSwc x).out = s.out := rfl

/-! setRing. -/

@[simp] theorem State.setRing_pending (s : State) (r : Fin 2) (x : RingState) : (s.setRing r x).pending = s.pending := rfl
@[simp] theorem State.setRing_regs (s : State) (r : Fin 2) (x : RingState) : (s.setRing r x).regs = s.regs := rfl
@[simp] theorem State.setRing_tabs (s : State) (r : Fin 2) (x : RingState) : (s.setRing r x).tabs = s.tabs := rfl
@[simp] theorem State.setRing_ind (s : State) (r : Fin 2) (x : RingState) : (s.setRing r x).ind = s.ind := rfl
@[simp] theorem State.setRing_latches (s : State) (r : Fin 2) (x : RingState) : (s.setRing r x).latches = s.latches := rfl
@[simp] theorem State.setRing_hold (s : State) (r : Fin 2) (x : RingState) : (s.setRing r x).hold = s.hold := rfl
@[simp] theorem State.setRing_power (s : State) (r : Fin 2) (x : RingState) : (s.setRing r x).power = s.power := rfl
@[simp] theorem State.setRing_clk (s : State) (r : Fin 2) (x : RingState) : (s.setRing r x).clk = s.clk := rfl
@[simp] theorem State.setRing_dom (s : State) (r : Fin 2) (x : RingState) : (s.setRing r x).dom = s.dom := rfl
@[simp] theorem State.setRing_stepSeq (s : State) (r : Fin 2) (x : RingState) : (s.setRing r x).stepSeq = s.stepSeq := rfl
@[simp] theorem State.setRing_ttu (s : State) (r : Fin 2) (x : RingState) : (s.setRing r x).ttu = s.ttu := rfl
@[simp] theorem State.setRing_tcu (s : State) (r : Fin 2) (x : RingState) : (s.setRing r x).tcu = s.tcu := rfl
@[simp] theorem State.setRing_mfpExt (s : State) (r : Fin 2) (x : RingState) : (s.setRing r x).mfpExt = s.mfpExt := rfl
@[simp] theorem State.setRing_mfpIn (s : State) (r : Fin 2) (x : RingState) : (s.setRing r x).mfpIn = s.mfpIn := rfl
@[simp] theorem State.setRing_eng (s : State) (r : Fin 2) (x : RingState) : (s.setRing r x).eng = s.eng := rfl
@[simp] theorem State.setRing_insts (s : State) (r : Fin 2) (x : RingState) : (s.setRing r x).insts = s.insts := rfl
@[simp] theorem State.setRing_images (s : State) (r : Fin 2) (x : RingState) : (s.setRing r x).images = s.images := rfl
@[simp] theorem State.setRing_bindSeq (s : State) (r : Fin 2) (x : RingState) : (s.setRing r x).bindSeq = s.bindSeq := rfl
@[simp] theorem State.setRing_rotation (s : State) (r : Fin 2) (x : RingState) : (s.setRing r x).rotation = s.rotation := rfl
@[simp] theorem State.setRing_mbx (s : State) (r : Fin 2) (x : RingState) : (s.setRing r x).mbx = s.mbx := rfl
@[simp] theorem State.setRing_mem (s : State) (r : Fin 2) (x : RingState) : (s.setRing r x).mem = s.mem := rfl
@[simp] theorem State.setRing_flt (s : State) (r : Fin 2) (x : RingState) : (s.setRing r x).flt = s.flt := rfl
@[simp] theorem State.setRing_eth (s : State) (r : Fin 2) (x : RingState) : (s.setRing r x).eth = s.eth := rfl
@[simp] theorem State.setRing_swc (s : State) (r : Fin 2) (x : RingState) : (s.setRing r x).swc = s.swc := rfl
@[simp] theorem State.setRing_ring (s : State) (r : Fin 2) (x : RingState) : (s.setRing r x).ring = vset s.ring r x := rfl
@[simp] theorem State.setRing_can (s : State) (r : Fin 2) (x : RingState) : (s.setRing r x).can = s.can := rfl
@[simp] theorem State.setRing_psq (s : State) (r : Fin 2) (x : RingState) : (s.setRing r x).psq = s.psq := rfl
@[simp] theorem State.setRing_hif (s : State) (r : Fin 2) (x : RingState) : (s.setRing r x).hif = s.hif := rfl
@[simp] theorem State.setRing_xpb (s : State) (r : Fin 2) (x : RingState) : (s.setRing r x).xpb = s.xpb := rfl
@[simp] theorem State.setRing_sgm (s : State) (r : Fin 2) (x : RingState) : (s.setRing r x).sgm = s.sgm := rfl
@[simp] theorem State.setRing_sec (s : State) (r : Fin 2) (x : RingState) : (s.setRing r x).sec = s.sec := rfl
@[simp] theorem State.setRing_free (s : State) (r : Fin 2) (x : RingState) : (s.setRing r x).free = s.free := rfl
@[simp] theorem State.setRing_out (s : State) (r : Fin 2) (x : RingState) : (s.setRing r x).out = s.out := rfl

/-! setCan. -/

@[simp] theorem State.setCan_pending (s : State) (n : Fin 4) (x : CanState) : (s.setCan n x).pending = s.pending := rfl
@[simp] theorem State.setCan_regs (s : State) (n : Fin 4) (x : CanState) : (s.setCan n x).regs = s.regs := rfl
@[simp] theorem State.setCan_tabs (s : State) (n : Fin 4) (x : CanState) : (s.setCan n x).tabs = s.tabs := rfl
@[simp] theorem State.setCan_ind (s : State) (n : Fin 4) (x : CanState) : (s.setCan n x).ind = s.ind := rfl
@[simp] theorem State.setCan_latches (s : State) (n : Fin 4) (x : CanState) : (s.setCan n x).latches = s.latches := rfl
@[simp] theorem State.setCan_hold (s : State) (n : Fin 4) (x : CanState) : (s.setCan n x).hold = s.hold := rfl
@[simp] theorem State.setCan_power (s : State) (n : Fin 4) (x : CanState) : (s.setCan n x).power = s.power := rfl
@[simp] theorem State.setCan_clk (s : State) (n : Fin 4) (x : CanState) : (s.setCan n x).clk = s.clk := rfl
@[simp] theorem State.setCan_dom (s : State) (n : Fin 4) (x : CanState) : (s.setCan n x).dom = s.dom := rfl
@[simp] theorem State.setCan_stepSeq (s : State) (n : Fin 4) (x : CanState) : (s.setCan n x).stepSeq = s.stepSeq := rfl
@[simp] theorem State.setCan_ttu (s : State) (n : Fin 4) (x : CanState) : (s.setCan n x).ttu = s.ttu := rfl
@[simp] theorem State.setCan_tcu (s : State) (n : Fin 4) (x : CanState) : (s.setCan n x).tcu = s.tcu := rfl
@[simp] theorem State.setCan_mfpExt (s : State) (n : Fin 4) (x : CanState) : (s.setCan n x).mfpExt = s.mfpExt := rfl
@[simp] theorem State.setCan_mfpIn (s : State) (n : Fin 4) (x : CanState) : (s.setCan n x).mfpIn = s.mfpIn := rfl
@[simp] theorem State.setCan_eng (s : State) (n : Fin 4) (x : CanState) : (s.setCan n x).eng = s.eng := rfl
@[simp] theorem State.setCan_insts (s : State) (n : Fin 4) (x : CanState) : (s.setCan n x).insts = s.insts := rfl
@[simp] theorem State.setCan_images (s : State) (n : Fin 4) (x : CanState) : (s.setCan n x).images = s.images := rfl
@[simp] theorem State.setCan_bindSeq (s : State) (n : Fin 4) (x : CanState) : (s.setCan n x).bindSeq = s.bindSeq := rfl
@[simp] theorem State.setCan_rotation (s : State) (n : Fin 4) (x : CanState) : (s.setCan n x).rotation = s.rotation := rfl
@[simp] theorem State.setCan_mbx (s : State) (n : Fin 4) (x : CanState) : (s.setCan n x).mbx = s.mbx := rfl
@[simp] theorem State.setCan_mem (s : State) (n : Fin 4) (x : CanState) : (s.setCan n x).mem = s.mem := rfl
@[simp] theorem State.setCan_flt (s : State) (n : Fin 4) (x : CanState) : (s.setCan n x).flt = s.flt := rfl
@[simp] theorem State.setCan_eth (s : State) (n : Fin 4) (x : CanState) : (s.setCan n x).eth = s.eth := rfl
@[simp] theorem State.setCan_swc (s : State) (n : Fin 4) (x : CanState) : (s.setCan n x).swc = s.swc := rfl
@[simp] theorem State.setCan_ring (s : State) (n : Fin 4) (x : CanState) : (s.setCan n x).ring = s.ring := rfl
@[simp] theorem State.setCan_can (s : State) (n : Fin 4) (x : CanState) : (s.setCan n x).can = vset s.can n x := rfl
@[simp] theorem State.setCan_psq (s : State) (n : Fin 4) (x : CanState) : (s.setCan n x).psq = s.psq := rfl
@[simp] theorem State.setCan_hif (s : State) (n : Fin 4) (x : CanState) : (s.setCan n x).hif = s.hif := rfl
@[simp] theorem State.setCan_xpb (s : State) (n : Fin 4) (x : CanState) : (s.setCan n x).xpb = s.xpb := rfl
@[simp] theorem State.setCan_sgm (s : State) (n : Fin 4) (x : CanState) : (s.setCan n x).sgm = s.sgm := rfl
@[simp] theorem State.setCan_sec (s : State) (n : Fin 4) (x : CanState) : (s.setCan n x).sec = s.sec := rfl
@[simp] theorem State.setCan_free (s : State) (n : Fin 4) (x : CanState) : (s.setCan n x).free = s.free := rfl
@[simp] theorem State.setCan_out (s : State) (n : Fin 4) (x : CanState) : (s.setCan n x).out = s.out := rfl

/-! setCh. -/

@[simp] theorem State.setCh_pending (s : State) (c : Fin 64) (x : Chan) : (s.setCh c x).pending = s.pending := rfl
@[simp] theorem State.setCh_regs (s : State) (c : Fin 64) (x : Chan) : (s.setCh c x).regs = s.regs := rfl
@[simp] theorem State.setCh_tabs (s : State) (c : Fin 64) (x : Chan) : (s.setCh c x).tabs = s.tabs := rfl
@[simp] theorem State.setCh_ind (s : State) (c : Fin 64) (x : Chan) : (s.setCh c x).ind = s.ind := rfl
@[simp] theorem State.setCh_latches (s : State) (c : Fin 64) (x : Chan) : (s.setCh c x).latches = s.latches := rfl
@[simp] theorem State.setCh_hold (s : State) (c : Fin 64) (x : Chan) : (s.setCh c x).hold = s.hold := rfl
@[simp] theorem State.setCh_power (s : State) (c : Fin 64) (x : Chan) : (s.setCh c x).power = s.power := rfl
@[simp] theorem State.setCh_clk (s : State) (c : Fin 64) (x : Chan) : (s.setCh c x).clk = s.clk := rfl
@[simp] theorem State.setCh_dom (s : State) (c : Fin 64) (x : Chan) : (s.setCh c x).dom = s.dom := rfl
@[simp] theorem State.setCh_stepSeq (s : State) (c : Fin 64) (x : Chan) : (s.setCh c x).stepSeq = s.stepSeq := rfl
@[simp] theorem State.setCh_ttu (s : State) (c : Fin 64) (x : Chan) : (s.setCh c x).ttu = s.ttu := rfl
@[simp] theorem State.setCh_tcu (s : State) (c : Fin 64) (x : Chan) : (s.setCh c x).tcu = s.tcu := rfl
@[simp] theorem State.setCh_mfpExt (s : State) (c : Fin 64) (x : Chan) : (s.setCh c x).mfpExt = s.mfpExt := rfl
@[simp] theorem State.setCh_mfpIn (s : State) (c : Fin 64) (x : Chan) : (s.setCh c x).mfpIn = s.mfpIn := rfl
@[simp] theorem State.setCh_eng (s : State) (c : Fin 64) (x : Chan) : (s.setCh c x).eng = s.eng := rfl
@[simp] theorem State.setCh_insts (s : State) (c : Fin 64) (x : Chan) : (s.setCh c x).insts = s.insts := rfl
@[simp] theorem State.setCh_images (s : State) (c : Fin 64) (x : Chan) : (s.setCh c x).images = s.images := rfl
@[simp] theorem State.setCh_bindSeq (s : State) (c : Fin 64) (x : Chan) : (s.setCh c x).bindSeq = s.bindSeq := rfl
@[simp] theorem State.setCh_rotation (s : State) (c : Fin 64) (x : Chan) : (s.setCh c x).rotation = s.rotation := rfl
@[simp] theorem State.setCh_mbx (s : State) (c : Fin 64) (x : Chan) : (s.setCh c x).mbx = s.mbx := rfl
@[simp] theorem State.setCh_mem (s : State) (c : Fin 64) (x : Chan) : (s.setCh c x).mem = s.mem := rfl
@[simp] theorem State.setCh_flt (s : State) (c : Fin 64) (x : Chan) : (s.setCh c x).flt = s.flt := rfl
@[simp] theorem State.setCh_eth (s : State) (c : Fin 64) (x : Chan) : (s.setCh c x).eth = s.eth := rfl
@[simp] theorem State.setCh_swc (s : State) (c : Fin 64) (x : Chan) : (s.setCh c x).swc = s.swc := rfl
@[simp] theorem State.setCh_ring (s : State) (c : Fin 64) (x : Chan) : (s.setCh c x).ring = s.ring := rfl
@[simp] theorem State.setCh_can (s : State) (c : Fin 64) (x : Chan) : (s.setCh c x).can = s.can := rfl
@[simp] theorem State.setCh_hif (s : State) (c : Fin 64) (x : Chan) : (s.setCh c x).hif = s.hif := rfl
@[simp] theorem State.setCh_xpb (s : State) (c : Fin 64) (x : Chan) : (s.setCh c x).xpb = s.xpb := rfl
@[simp] theorem State.setCh_sgm (s : State) (c : Fin 64) (x : Chan) : (s.setCh c x).sgm = s.sgm := rfl
@[simp] theorem State.setCh_sec (s : State) (c : Fin 64) (x : Chan) : (s.setCh c x).sec = s.sec := rfl
@[simp] theorem State.setCh_free (s : State) (c : Fin 64) (x : Chan) : (s.setCh c x).free = s.free := rfl
@[simp] theorem State.setCh_out (s : State) (c : Fin 64) (x : Chan) : (s.setCh c x).out = s.out := rfl

/-! setXpb. -/

@[simp] theorem State.setXpb_pending (s : State) (x : XpbState) : (s.setXpb x).pending = s.pending := rfl
@[simp] theorem State.setXpb_regs (s : State) (x : XpbState) : (s.setXpb x).regs = s.regs := rfl
@[simp] theorem State.setXpb_tabs (s : State) (x : XpbState) : (s.setXpb x).tabs = s.tabs := rfl
@[simp] theorem State.setXpb_ind (s : State) (x : XpbState) : (s.setXpb x).ind = s.ind := rfl
@[simp] theorem State.setXpb_latches (s : State) (x : XpbState) : (s.setXpb x).latches = s.latches := rfl
@[simp] theorem State.setXpb_hold (s : State) (x : XpbState) : (s.setXpb x).hold = s.hold := rfl
@[simp] theorem State.setXpb_power (s : State) (x : XpbState) : (s.setXpb x).power = s.power := rfl
@[simp] theorem State.setXpb_clk (s : State) (x : XpbState) : (s.setXpb x).clk = s.clk := rfl
@[simp] theorem State.setXpb_dom (s : State) (x : XpbState) : (s.setXpb x).dom = s.dom := rfl
@[simp] theorem State.setXpb_stepSeq (s : State) (x : XpbState) : (s.setXpb x).stepSeq = s.stepSeq := rfl
@[simp] theorem State.setXpb_ttu (s : State) (x : XpbState) : (s.setXpb x).ttu = s.ttu := rfl
@[simp] theorem State.setXpb_tcu (s : State) (x : XpbState) : (s.setXpb x).tcu = s.tcu := rfl
@[simp] theorem State.setXpb_mfpExt (s : State) (x : XpbState) : (s.setXpb x).mfpExt = s.mfpExt := rfl
@[simp] theorem State.setXpb_mfpIn (s : State) (x : XpbState) : (s.setXpb x).mfpIn = s.mfpIn := rfl
@[simp] theorem State.setXpb_eng (s : State) (x : XpbState) : (s.setXpb x).eng = s.eng := rfl
@[simp] theorem State.setXpb_insts (s : State) (x : XpbState) : (s.setXpb x).insts = s.insts := rfl
@[simp] theorem State.setXpb_images (s : State) (x : XpbState) : (s.setXpb x).images = s.images := rfl
@[simp] theorem State.setXpb_bindSeq (s : State) (x : XpbState) : (s.setXpb x).bindSeq = s.bindSeq := rfl
@[simp] theorem State.setXpb_rotation (s : State) (x : XpbState) : (s.setXpb x).rotation = s.rotation := rfl
@[simp] theorem State.setXpb_mbx (s : State) (x : XpbState) : (s.setXpb x).mbx = s.mbx := rfl
@[simp] theorem State.setXpb_mem (s : State) (x : XpbState) : (s.setXpb x).mem = s.mem := rfl
@[simp] theorem State.setXpb_flt (s : State) (x : XpbState) : (s.setXpb x).flt = s.flt := rfl
@[simp] theorem State.setXpb_eth (s : State) (x : XpbState) : (s.setXpb x).eth = s.eth := rfl
@[simp] theorem State.setXpb_swc (s : State) (x : XpbState) : (s.setXpb x).swc = s.swc := rfl
@[simp] theorem State.setXpb_ring (s : State) (x : XpbState) : (s.setXpb x).ring = s.ring := rfl
@[simp] theorem State.setXpb_can (s : State) (x : XpbState) : (s.setXpb x).can = s.can := rfl
@[simp] theorem State.setXpb_psq (s : State) (x : XpbState) : (s.setXpb x).psq = s.psq := rfl
@[simp] theorem State.setXpb_hif (s : State) (x : XpbState) : (s.setXpb x).hif = s.hif := rfl
@[simp] theorem State.setXpb_xpb (s : State) (x : XpbState) : (s.setXpb x).xpb = x := rfl
@[simp] theorem State.setXpb_sgm (s : State) (x : XpbState) : (s.setXpb x).sgm = s.sgm := rfl
@[simp] theorem State.setXpb_sec (s : State) (x : XpbState) : (s.setXpb x).sec = s.sec := rfl
@[simp] theorem State.setXpb_free (s : State) (x : XpbState) : (s.setXpb x).free = s.free := rfl
@[simp] theorem State.setXpb_out (s : State) (x : XpbState) : (s.setXpb x).out = s.out := rfl

/-! setSec. -/

@[simp] theorem State.setSec_pending (s : State) (x : SecState) : (s.setSec x).pending = s.pending := rfl
@[simp] theorem State.setSec_regs (s : State) (x : SecState) : (s.setSec x).regs = s.regs := rfl
@[simp] theorem State.setSec_tabs (s : State) (x : SecState) : (s.setSec x).tabs = s.tabs := rfl
@[simp] theorem State.setSec_ind (s : State) (x : SecState) : (s.setSec x).ind = s.ind := rfl
@[simp] theorem State.setSec_latches (s : State) (x : SecState) : (s.setSec x).latches = s.latches := rfl
@[simp] theorem State.setSec_hold (s : State) (x : SecState) : (s.setSec x).hold = s.hold := rfl
@[simp] theorem State.setSec_power (s : State) (x : SecState) : (s.setSec x).power = s.power := rfl
@[simp] theorem State.setSec_clk (s : State) (x : SecState) : (s.setSec x).clk = s.clk := rfl
@[simp] theorem State.setSec_dom (s : State) (x : SecState) : (s.setSec x).dom = s.dom := rfl
@[simp] theorem State.setSec_stepSeq (s : State) (x : SecState) : (s.setSec x).stepSeq = s.stepSeq := rfl
@[simp] theorem State.setSec_ttu (s : State) (x : SecState) : (s.setSec x).ttu = s.ttu := rfl
@[simp] theorem State.setSec_tcu (s : State) (x : SecState) : (s.setSec x).tcu = s.tcu := rfl
@[simp] theorem State.setSec_mfpExt (s : State) (x : SecState) : (s.setSec x).mfpExt = s.mfpExt := rfl
@[simp] theorem State.setSec_mfpIn (s : State) (x : SecState) : (s.setSec x).mfpIn = s.mfpIn := rfl
@[simp] theorem State.setSec_eng (s : State) (x : SecState) : (s.setSec x).eng = s.eng := rfl
@[simp] theorem State.setSec_insts (s : State) (x : SecState) : (s.setSec x).insts = s.insts := rfl
@[simp] theorem State.setSec_images (s : State) (x : SecState) : (s.setSec x).images = s.images := rfl
@[simp] theorem State.setSec_bindSeq (s : State) (x : SecState) : (s.setSec x).bindSeq = s.bindSeq := rfl
@[simp] theorem State.setSec_rotation (s : State) (x : SecState) : (s.setSec x).rotation = s.rotation := rfl
@[simp] theorem State.setSec_mbx (s : State) (x : SecState) : (s.setSec x).mbx = s.mbx := rfl
@[simp] theorem State.setSec_mem (s : State) (x : SecState) : (s.setSec x).mem = s.mem := rfl
@[simp] theorem State.setSec_flt (s : State) (x : SecState) : (s.setSec x).flt = s.flt := rfl
@[simp] theorem State.setSec_eth (s : State) (x : SecState) : (s.setSec x).eth = s.eth := rfl
@[simp] theorem State.setSec_swc (s : State) (x : SecState) : (s.setSec x).swc = s.swc := rfl
@[simp] theorem State.setSec_ring (s : State) (x : SecState) : (s.setSec x).ring = s.ring := rfl
@[simp] theorem State.setSec_can (s : State) (x : SecState) : (s.setSec x).can = s.can := rfl
@[simp] theorem State.setSec_psq (s : State) (x : SecState) : (s.setSec x).psq = s.psq := rfl
@[simp] theorem State.setSec_hif (s : State) (x : SecState) : (s.setSec x).hif = s.hif := rfl
@[simp] theorem State.setSec_xpb (s : State) (x : SecState) : (s.setSec x).xpb = s.xpb := rfl
@[simp] theorem State.setSec_sgm (s : State) (x : SecState) : (s.setSec x).sgm = s.sgm := rfl
@[simp] theorem State.setSec_sec (s : State) (x : SecState) : (s.setSec x).sec = x := rfl
@[simp] theorem State.setSec_free (s : State) (x : SecState) : (s.setSec x).free = s.free := rfl
@[simp] theorem State.setSec_out (s : State) (x : SecState) : (s.setSec x).out = s.out := rfl

/-! setInd. -/

@[simp] theorem State.setInd_pending (s : State) (b : Blk) (sup : Bool) (x : IndSet) : (s.setInd b sup x).pending = s.pending := rfl
@[simp] theorem State.setInd_regs (s : State) (b : Blk) (sup : Bool) (x : IndSet) : (s.setInd b sup x).regs = s.regs := rfl
@[simp] theorem State.setInd_tabs (s : State) (b : Blk) (sup : Bool) (x : IndSet) : (s.setInd b sup x).tabs = s.tabs := rfl
@[simp] theorem State.setInd_latches (s : State) (b : Blk) (sup : Bool) (x : IndSet) : (s.setInd b sup x).latches = s.latches := rfl
@[simp] theorem State.setInd_hold (s : State) (b : Blk) (sup : Bool) (x : IndSet) : (s.setInd b sup x).hold = s.hold := rfl
@[simp] theorem State.setInd_power (s : State) (b : Blk) (sup : Bool) (x : IndSet) : (s.setInd b sup x).power = s.power := rfl
@[simp] theorem State.setInd_clk (s : State) (b : Blk) (sup : Bool) (x : IndSet) : (s.setInd b sup x).clk = s.clk := rfl
@[simp] theorem State.setInd_dom (s : State) (b : Blk) (sup : Bool) (x : IndSet) : (s.setInd b sup x).dom = s.dom := rfl
@[simp] theorem State.setInd_stepSeq (s : State) (b : Blk) (sup : Bool) (x : IndSet) : (s.setInd b sup x).stepSeq = s.stepSeq := rfl
@[simp] theorem State.setInd_ttu (s : State) (b : Blk) (sup : Bool) (x : IndSet) : (s.setInd b sup x).ttu = s.ttu := rfl
@[simp] theorem State.setInd_tcu (s : State) (b : Blk) (sup : Bool) (x : IndSet) : (s.setInd b sup x).tcu = s.tcu := rfl
@[simp] theorem State.setInd_mfpExt (s : State) (b : Blk) (sup : Bool) (x : IndSet) : (s.setInd b sup x).mfpExt = s.mfpExt := rfl
@[simp] theorem State.setInd_mfpIn (s : State) (b : Blk) (sup : Bool) (x : IndSet) : (s.setInd b sup x).mfpIn = s.mfpIn := rfl
@[simp] theorem State.setInd_eng (s : State) (b : Blk) (sup : Bool) (x : IndSet) : (s.setInd b sup x).eng = s.eng := rfl
@[simp] theorem State.setInd_insts (s : State) (b : Blk) (sup : Bool) (x : IndSet) : (s.setInd b sup x).insts = s.insts := rfl
@[simp] theorem State.setInd_images (s : State) (b : Blk) (sup : Bool) (x : IndSet) : (s.setInd b sup x).images = s.images := rfl
@[simp] theorem State.setInd_bindSeq (s : State) (b : Blk) (sup : Bool) (x : IndSet) : (s.setInd b sup x).bindSeq = s.bindSeq := rfl
@[simp] theorem State.setInd_rotation (s : State) (b : Blk) (sup : Bool) (x : IndSet) : (s.setInd b sup x).rotation = s.rotation := rfl
@[simp] theorem State.setInd_mbx (s : State) (b : Blk) (sup : Bool) (x : IndSet) : (s.setInd b sup x).mbx = s.mbx := rfl
@[simp] theorem State.setInd_mem (s : State) (b : Blk) (sup : Bool) (x : IndSet) : (s.setInd b sup x).mem = s.mem := rfl
@[simp] theorem State.setInd_flt (s : State) (b : Blk) (sup : Bool) (x : IndSet) : (s.setInd b sup x).flt = s.flt := rfl
@[simp] theorem State.setInd_eth (s : State) (b : Blk) (sup : Bool) (x : IndSet) : (s.setInd b sup x).eth = s.eth := rfl
@[simp] theorem State.setInd_swc (s : State) (b : Blk) (sup : Bool) (x : IndSet) : (s.setInd b sup x).swc = s.swc := rfl
@[simp] theorem State.setInd_ring (s : State) (b : Blk) (sup : Bool) (x : IndSet) : (s.setInd b sup x).ring = s.ring := rfl
@[simp] theorem State.setInd_can (s : State) (b : Blk) (sup : Bool) (x : IndSet) : (s.setInd b sup x).can = s.can := rfl
@[simp] theorem State.setInd_psq (s : State) (b : Blk) (sup : Bool) (x : IndSet) : (s.setInd b sup x).psq = s.psq := rfl
@[simp] theorem State.setInd_hif (s : State) (b : Blk) (sup : Bool) (x : IndSet) : (s.setInd b sup x).hif = s.hif := rfl
@[simp] theorem State.setInd_xpb (s : State) (b : Blk) (sup : Bool) (x : IndSet) : (s.setInd b sup x).xpb = s.xpb := rfl
@[simp] theorem State.setInd_sgm (s : State) (b : Blk) (sup : Bool) (x : IndSet) : (s.setInd b sup x).sgm = s.sgm := rfl
@[simp] theorem State.setInd_sec (s : State) (b : Blk) (sup : Bool) (x : IndSet) : (s.setInd b sup x).sec = s.sec := rfl
@[simp] theorem State.setInd_free (s : State) (b : Blk) (sup : Bool) (x : IndSet) : (s.setInd b sup x).free = s.free := rfl
@[simp] theorem State.setInd_out (s : State) (b : Blk) (sup : Bool) (x : IndSet) : (s.setInd b sup x).out = s.out := rfl

/-! latchFor. -/

@[simp] theorem State.latchFor_pending (s : State) (who a : Nat) (v : Word) : (s.latchFor who a v).pending = s.pending := rfl
@[simp] theorem State.latchFor_regs (s : State) (who a : Nat) (v : Word) : (s.latchFor who a v).regs = s.regs := rfl
@[simp] theorem State.latchFor_tabs (s : State) (who a : Nat) (v : Word) : (s.latchFor who a v).tabs = s.tabs := rfl
@[simp] theorem State.latchFor_ind (s : State) (who a : Nat) (v : Word) : (s.latchFor who a v).ind = s.ind := rfl
@[simp] theorem State.latchFor_hold (s : State) (who a : Nat) (v : Word) : (s.latchFor who a v).hold = s.hold := rfl
@[simp] theorem State.latchFor_power (s : State) (who a : Nat) (v : Word) : (s.latchFor who a v).power = s.power := rfl
@[simp] theorem State.latchFor_clk (s : State) (who a : Nat) (v : Word) : (s.latchFor who a v).clk = s.clk := rfl
@[simp] theorem State.latchFor_dom (s : State) (who a : Nat) (v : Word) : (s.latchFor who a v).dom = s.dom := rfl
@[simp] theorem State.latchFor_stepSeq (s : State) (who a : Nat) (v : Word) : (s.latchFor who a v).stepSeq = s.stepSeq := rfl
@[simp] theorem State.latchFor_ttu (s : State) (who a : Nat) (v : Word) : (s.latchFor who a v).ttu = s.ttu := rfl
@[simp] theorem State.latchFor_tcu (s : State) (who a : Nat) (v : Word) : (s.latchFor who a v).tcu = s.tcu := rfl
@[simp] theorem State.latchFor_mfpExt (s : State) (who a : Nat) (v : Word) : (s.latchFor who a v).mfpExt = s.mfpExt := rfl
@[simp] theorem State.latchFor_mfpIn (s : State) (who a : Nat) (v : Word) : (s.latchFor who a v).mfpIn = s.mfpIn := rfl
@[simp] theorem State.latchFor_eng (s : State) (who a : Nat) (v : Word) : (s.latchFor who a v).eng = s.eng := rfl
@[simp] theorem State.latchFor_insts (s : State) (who a : Nat) (v : Word) : (s.latchFor who a v).insts = s.insts := rfl
@[simp] theorem State.latchFor_images (s : State) (who a : Nat) (v : Word) : (s.latchFor who a v).images = s.images := rfl
@[simp] theorem State.latchFor_bindSeq (s : State) (who a : Nat) (v : Word) : (s.latchFor who a v).bindSeq = s.bindSeq := rfl
@[simp] theorem State.latchFor_rotation (s : State) (who a : Nat) (v : Word) : (s.latchFor who a v).rotation = s.rotation := rfl
@[simp] theorem State.latchFor_mbx (s : State) (who a : Nat) (v : Word) : (s.latchFor who a v).mbx = s.mbx := rfl
@[simp] theorem State.latchFor_mem (s : State) (who a : Nat) (v : Word) : (s.latchFor who a v).mem = s.mem := rfl
@[simp] theorem State.latchFor_flt (s : State) (who a : Nat) (v : Word) : (s.latchFor who a v).flt = s.flt := rfl
@[simp] theorem State.latchFor_eth (s : State) (who a : Nat) (v : Word) : (s.latchFor who a v).eth = s.eth := rfl
@[simp] theorem State.latchFor_swc (s : State) (who a : Nat) (v : Word) : (s.latchFor who a v).swc = s.swc := rfl
@[simp] theorem State.latchFor_ring (s : State) (who a : Nat) (v : Word) : (s.latchFor who a v).ring = s.ring := rfl
@[simp] theorem State.latchFor_can (s : State) (who a : Nat) (v : Word) : (s.latchFor who a v).can = s.can := rfl
@[simp] theorem State.latchFor_psq (s : State) (who a : Nat) (v : Word) : (s.latchFor who a v).psq = s.psq := rfl
@[simp] theorem State.latchFor_hif (s : State) (who a : Nat) (v : Word) : (s.latchFor who a v).hif = s.hif := rfl
@[simp] theorem State.latchFor_xpb (s : State) (who a : Nat) (v : Word) : (s.latchFor who a v).xpb = s.xpb := rfl
@[simp] theorem State.latchFor_sgm (s : State) (who a : Nat) (v : Word) : (s.latchFor who a v).sgm = s.sgm := rfl
@[simp] theorem State.latchFor_sec (s : State) (who a : Nat) (v : Word) : (s.latchFor who a v).sec = s.sec := rfl
@[simp] theorem State.latchFor_free (s : State) (who a : Nat) (v : Word) : (s.latchFor who a v).free = s.free := rfl
@[simp] theorem State.latchFor_out (s : State) (who a : Nat) (v : Word) : (s.latchFor who a v).out = s.out := rfl

/-! setBankByte. -/

@[simp] theorem State.setBankByte_pending (s : State) (b off : Nat) (v : Byte) : (s.setBankByte b off v).pending = s.pending := rfl
@[simp] theorem State.setBankByte_regs (s : State) (b off : Nat) (v : Byte) : (s.setBankByte b off v).regs = s.regs := rfl
@[simp] theorem State.setBankByte_tabs (s : State) (b off : Nat) (v : Byte) : (s.setBankByte b off v).tabs = s.tabs := rfl
@[simp] theorem State.setBankByte_ind (s : State) (b off : Nat) (v : Byte) : (s.setBankByte b off v).ind = s.ind := rfl
@[simp] theorem State.setBankByte_latches (s : State) (b off : Nat) (v : Byte) : (s.setBankByte b off v).latches = s.latches := rfl
@[simp] theorem State.setBankByte_hold (s : State) (b off : Nat) (v : Byte) : (s.setBankByte b off v).hold = s.hold := rfl
@[simp] theorem State.setBankByte_power (s : State) (b off : Nat) (v : Byte) : (s.setBankByte b off v).power = s.power := rfl
@[simp] theorem State.setBankByte_clk (s : State) (b off : Nat) (v : Byte) : (s.setBankByte b off v).clk = s.clk := rfl
@[simp] theorem State.setBankByte_dom (s : State) (b off : Nat) (v : Byte) : (s.setBankByte b off v).dom = s.dom := rfl
@[simp] theorem State.setBankByte_stepSeq (s : State) (b off : Nat) (v : Byte) : (s.setBankByte b off v).stepSeq = s.stepSeq := rfl
@[simp] theorem State.setBankByte_ttu (s : State) (b off : Nat) (v : Byte) : (s.setBankByte b off v).ttu = s.ttu := rfl
@[simp] theorem State.setBankByte_tcu (s : State) (b off : Nat) (v : Byte) : (s.setBankByte b off v).tcu = s.tcu := rfl
@[simp] theorem State.setBankByte_mfpExt (s : State) (b off : Nat) (v : Byte) : (s.setBankByte b off v).mfpExt = s.mfpExt := rfl
@[simp] theorem State.setBankByte_mfpIn (s : State) (b off : Nat) (v : Byte) : (s.setBankByte b off v).mfpIn = s.mfpIn := rfl
@[simp] theorem State.setBankByte_eng (s : State) (b off : Nat) (v : Byte) : (s.setBankByte b off v).eng = s.eng := rfl
@[simp] theorem State.setBankByte_insts (s : State) (b off : Nat) (v : Byte) : (s.setBankByte b off v).insts = s.insts := rfl
@[simp] theorem State.setBankByte_images (s : State) (b off : Nat) (v : Byte) : (s.setBankByte b off v).images = s.images := rfl
@[simp] theorem State.setBankByte_bindSeq (s : State) (b off : Nat) (v : Byte) : (s.setBankByte b off v).bindSeq = s.bindSeq := rfl
@[simp] theorem State.setBankByte_rotation (s : State) (b off : Nat) (v : Byte) : (s.setBankByte b off v).rotation = s.rotation := rfl
@[simp] theorem State.setBankByte_mbx (s : State) (b off : Nat) (v : Byte) : (s.setBankByte b off v).mbx = s.mbx := rfl
@[simp] theorem State.setBankByte_flt (s : State) (b off : Nat) (v : Byte) : (s.setBankByte b off v).flt = s.flt := rfl
@[simp] theorem State.setBankByte_eth (s : State) (b off : Nat) (v : Byte) : (s.setBankByte b off v).eth = s.eth := rfl
@[simp] theorem State.setBankByte_swc (s : State) (b off : Nat) (v : Byte) : (s.setBankByte b off v).swc = s.swc := rfl
@[simp] theorem State.setBankByte_ring (s : State) (b off : Nat) (v : Byte) : (s.setBankByte b off v).ring = s.ring := rfl
@[simp] theorem State.setBankByte_can (s : State) (b off : Nat) (v : Byte) : (s.setBankByte b off v).can = s.can := rfl
@[simp] theorem State.setBankByte_psq (s : State) (b off : Nat) (v : Byte) : (s.setBankByte b off v).psq = s.psq := rfl
@[simp] theorem State.setBankByte_hif (s : State) (b off : Nat) (v : Byte) : (s.setBankByte b off v).hif = s.hif := rfl
@[simp] theorem State.setBankByte_xpb (s : State) (b off : Nat) (v : Byte) : (s.setBankByte b off v).xpb = s.xpb := rfl
@[simp] theorem State.setBankByte_sgm (s : State) (b off : Nat) (v : Byte) : (s.setBankByte b off v).sgm = s.sgm := rfl
@[simp] theorem State.setBankByte_sec (s : State) (b off : Nat) (v : Byte) : (s.setBankByte b off v).sec = s.sec := rfl
@[simp] theorem State.setBankByte_free (s : State) (b off : Nat) (v : Byte) : (s.setBankByte b off v).free = s.free := rfl
@[simp] theorem State.setBankByte_out (s : State) (b off : Nat) (v : Byte) : (s.setBankByte b off v).out = s.out := rfl

/-! setRoute. -/

@[simp] theorem State.setRoute_pending (s : State) (k : Nat) (x : RouteSt) : (s.setRoute k x).pending = s.pending := rfl
@[simp] theorem State.setRoute_regs (s : State) (k : Nat) (x : RouteSt) : (s.setRoute k x).regs = s.regs := rfl
@[simp] theorem State.setRoute_tabs (s : State) (k : Nat) (x : RouteSt) : (s.setRoute k x).tabs = s.tabs := rfl
@[simp] theorem State.setRoute_ind (s : State) (k : Nat) (x : RouteSt) : (s.setRoute k x).ind = s.ind := rfl
@[simp] theorem State.setRoute_latches (s : State) (k : Nat) (x : RouteSt) : (s.setRoute k x).latches = s.latches := rfl
@[simp] theorem State.setRoute_hold (s : State) (k : Nat) (x : RouteSt) : (s.setRoute k x).hold = s.hold := rfl
@[simp] theorem State.setRoute_power (s : State) (k : Nat) (x : RouteSt) : (s.setRoute k x).power = s.power := rfl
@[simp] theorem State.setRoute_clk (s : State) (k : Nat) (x : RouteSt) : (s.setRoute k x).clk = s.clk := rfl
@[simp] theorem State.setRoute_dom (s : State) (k : Nat) (x : RouteSt) : (s.setRoute k x).dom = s.dom := rfl
@[simp] theorem State.setRoute_stepSeq (s : State) (k : Nat) (x : RouteSt) : (s.setRoute k x).stepSeq = s.stepSeq := rfl
@[simp] theorem State.setRoute_ttu (s : State) (k : Nat) (x : RouteSt) : (s.setRoute k x).ttu = s.ttu := rfl
@[simp] theorem State.setRoute_tcu (s : State) (k : Nat) (x : RouteSt) : (s.setRoute k x).tcu = s.tcu := rfl
@[simp] theorem State.setRoute_mfpExt (s : State) (k : Nat) (x : RouteSt) : (s.setRoute k x).mfpExt = s.mfpExt := rfl
@[simp] theorem State.setRoute_mfpIn (s : State) (k : Nat) (x : RouteSt) : (s.setRoute k x).mfpIn = s.mfpIn := rfl
@[simp] theorem State.setRoute_eng (s : State) (k : Nat) (x : RouteSt) : (s.setRoute k x).eng = s.eng := rfl
@[simp] theorem State.setRoute_insts (s : State) (k : Nat) (x : RouteSt) : (s.setRoute k x).insts = s.insts := rfl
@[simp] theorem State.setRoute_images (s : State) (k : Nat) (x : RouteSt) : (s.setRoute k x).images = s.images := rfl
@[simp] theorem State.setRoute_bindSeq (s : State) (k : Nat) (x : RouteSt) : (s.setRoute k x).bindSeq = s.bindSeq := rfl
@[simp] theorem State.setRoute_rotation (s : State) (k : Nat) (x : RouteSt) : (s.setRoute k x).rotation = s.rotation := rfl
@[simp] theorem State.setRoute_mbx (s : State) (k : Nat) (x : RouteSt) : (s.setRoute k x).mbx = s.mbx := rfl
@[simp] theorem State.setRoute_mem (s : State) (k : Nat) (x : RouteSt) : (s.setRoute k x).mem = s.mem := rfl
@[simp] theorem State.setRoute_flt (s : State) (k : Nat) (x : RouteSt) : (s.setRoute k x).flt = s.flt := rfl
@[simp] theorem State.setRoute_eth (s : State) (k : Nat) (x : RouteSt) : (s.setRoute k x).eth = s.eth := rfl
@[simp] theorem State.setRoute_swc (s : State) (k : Nat) (x : RouteSt) : (s.setRoute k x).swc = s.swc := rfl
@[simp] theorem State.setRoute_ring (s : State) (k : Nat) (x : RouteSt) : (s.setRoute k x).ring = s.ring := rfl
@[simp] theorem State.setRoute_can (s : State) (k : Nat) (x : RouteSt) : (s.setRoute k x).can = s.can := rfl
@[simp] theorem State.setRoute_psq (s : State) (k : Nat) (x : RouteSt) : (s.setRoute k x).psq = s.psq := rfl
@[simp] theorem State.setRoute_hif (s : State) (k : Nat) (x : RouteSt) : (s.setRoute k x).hif = s.hif := rfl
@[simp] theorem State.setRoute_xpb (s : State) (k : Nat) (x : RouteSt) : (s.setRoute k x).xpb = s.xpb := rfl
@[simp] theorem State.setRoute_sec (s : State) (k : Nat) (x : RouteSt) : (s.setRoute k x).sec = s.sec := rfl
@[simp] theorem State.setRoute_free (s : State) (k : Nat) (x : RouteSt) : (s.setRoute k x).free = s.free := rfl
@[simp] theorem State.setRoute_out (s : State) (k : Nat) (x : RouteSt) : (s.setRoute k x).out = s.out := rfl

/-! setFull. -/

@[simp] theorem State.setFull_pending (s : State) (b : Fin 64) (f : Bool) : (s.setFull b f).pending = s.pending := rfl
@[simp] theorem State.setFull_regs (s : State) (b : Fin 64) (f : Bool) : (s.setFull b f).regs = s.regs := rfl
@[simp] theorem State.setFull_tabs (s : State) (b : Fin 64) (f : Bool) : (s.setFull b f).tabs = s.tabs := rfl
@[simp] theorem State.setFull_ind (s : State) (b : Fin 64) (f : Bool) : (s.setFull b f).ind = s.ind := rfl
@[simp] theorem State.setFull_latches (s : State) (b : Fin 64) (f : Bool) : (s.setFull b f).latches = s.latches := rfl
@[simp] theorem State.setFull_hold (s : State) (b : Fin 64) (f : Bool) : (s.setFull b f).hold = s.hold := rfl
@[simp] theorem State.setFull_power (s : State) (b : Fin 64) (f : Bool) : (s.setFull b f).power = s.power := rfl
@[simp] theorem State.setFull_clk (s : State) (b : Fin 64) (f : Bool) : (s.setFull b f).clk = s.clk := rfl
@[simp] theorem State.setFull_dom (s : State) (b : Fin 64) (f : Bool) : (s.setFull b f).dom = s.dom := rfl
@[simp] theorem State.setFull_stepSeq (s : State) (b : Fin 64) (f : Bool) : (s.setFull b f).stepSeq = s.stepSeq := rfl
@[simp] theorem State.setFull_ttu (s : State) (b : Fin 64) (f : Bool) : (s.setFull b f).ttu = s.ttu := rfl
@[simp] theorem State.setFull_tcu (s : State) (b : Fin 64) (f : Bool) : (s.setFull b f).tcu = s.tcu := rfl
@[simp] theorem State.setFull_mfpExt (s : State) (b : Fin 64) (f : Bool) : (s.setFull b f).mfpExt = s.mfpExt := rfl
@[simp] theorem State.setFull_mfpIn (s : State) (b : Fin 64) (f : Bool) : (s.setFull b f).mfpIn = s.mfpIn := rfl
@[simp] theorem State.setFull_eng (s : State) (b : Fin 64) (f : Bool) : (s.setFull b f).eng = s.eng := rfl
@[simp] theorem State.setFull_insts (s : State) (b : Fin 64) (f : Bool) : (s.setFull b f).insts = s.insts := rfl
@[simp] theorem State.setFull_images (s : State) (b : Fin 64) (f : Bool) : (s.setFull b f).images = s.images := rfl
@[simp] theorem State.setFull_bindSeq (s : State) (b : Fin 64) (f : Bool) : (s.setFull b f).bindSeq = s.bindSeq := rfl
@[simp] theorem State.setFull_rotation (s : State) (b : Fin 64) (f : Bool) : (s.setFull b f).rotation = s.rotation := rfl
@[simp] theorem State.setFull_mem (s : State) (b : Fin 64) (f : Bool) : (s.setFull b f).mem = s.mem := rfl
@[simp] theorem State.setFull_flt (s : State) (b : Fin 64) (f : Bool) : (s.setFull b f).flt = s.flt := rfl
@[simp] theorem State.setFull_eth (s : State) (b : Fin 64) (f : Bool) : (s.setFull b f).eth = s.eth := rfl
@[simp] theorem State.setFull_swc (s : State) (b : Fin 64) (f : Bool) : (s.setFull b f).swc = s.swc := rfl
@[simp] theorem State.setFull_ring (s : State) (b : Fin 64) (f : Bool) : (s.setFull b f).ring = s.ring := rfl
@[simp] theorem State.setFull_can (s : State) (b : Fin 64) (f : Bool) : (s.setFull b f).can = s.can := rfl
@[simp] theorem State.setFull_psq (s : State) (b : Fin 64) (f : Bool) : (s.setFull b f).psq = s.psq := rfl
@[simp] theorem State.setFull_hif (s : State) (b : Fin 64) (f : Bool) : (s.setFull b f).hif = s.hif := rfl
@[simp] theorem State.setFull_xpb (s : State) (b : Fin 64) (f : Bool) : (s.setFull b f).xpb = s.xpb := rfl
@[simp] theorem State.setFull_sgm (s : State) (b : Fin 64) (f : Bool) : (s.setFull b f).sgm = s.sgm := rfl
@[simp] theorem State.setFull_sec (s : State) (b : Fin 64) (f : Bool) : (s.setFull b f).sec = s.sec := rfl
@[simp] theorem State.setFull_free (s : State) (b : Fin 64) (f : Bool) : (s.setFull b f).free = s.free := rfl
@[simp] theorem State.setFull_out (s : State) (b : Fin 64) (f : Bool) : (s.setFull b f).out = s.out := rfl

/-! setNotice. -/

@[simp] theorem State.setNotice_pending (s : State) (b : Fin 64) (f : Bool) : (s.setNotice b f).pending = s.pending := rfl
@[simp] theorem State.setNotice_regs (s : State) (b : Fin 64) (f : Bool) : (s.setNotice b f).regs = s.regs := rfl
@[simp] theorem State.setNotice_tabs (s : State) (b : Fin 64) (f : Bool) : (s.setNotice b f).tabs = s.tabs := rfl
@[simp] theorem State.setNotice_ind (s : State) (b : Fin 64) (f : Bool) : (s.setNotice b f).ind = s.ind := rfl
@[simp] theorem State.setNotice_latches (s : State) (b : Fin 64) (f : Bool) : (s.setNotice b f).latches = s.latches := rfl
@[simp] theorem State.setNotice_hold (s : State) (b : Fin 64) (f : Bool) : (s.setNotice b f).hold = s.hold := rfl
@[simp] theorem State.setNotice_power (s : State) (b : Fin 64) (f : Bool) : (s.setNotice b f).power = s.power := rfl
@[simp] theorem State.setNotice_clk (s : State) (b : Fin 64) (f : Bool) : (s.setNotice b f).clk = s.clk := rfl
@[simp] theorem State.setNotice_dom (s : State) (b : Fin 64) (f : Bool) : (s.setNotice b f).dom = s.dom := rfl
@[simp] theorem State.setNotice_stepSeq (s : State) (b : Fin 64) (f : Bool) : (s.setNotice b f).stepSeq = s.stepSeq := rfl
@[simp] theorem State.setNotice_ttu (s : State) (b : Fin 64) (f : Bool) : (s.setNotice b f).ttu = s.ttu := rfl
@[simp] theorem State.setNotice_tcu (s : State) (b : Fin 64) (f : Bool) : (s.setNotice b f).tcu = s.tcu := rfl
@[simp] theorem State.setNotice_mfpExt (s : State) (b : Fin 64) (f : Bool) : (s.setNotice b f).mfpExt = s.mfpExt := rfl
@[simp] theorem State.setNotice_mfpIn (s : State) (b : Fin 64) (f : Bool) : (s.setNotice b f).mfpIn = s.mfpIn := rfl
@[simp] theorem State.setNotice_eng (s : State) (b : Fin 64) (f : Bool) : (s.setNotice b f).eng = s.eng := rfl
@[simp] theorem State.setNotice_insts (s : State) (b : Fin 64) (f : Bool) : (s.setNotice b f).insts = s.insts := rfl
@[simp] theorem State.setNotice_images (s : State) (b : Fin 64) (f : Bool) : (s.setNotice b f).images = s.images := rfl
@[simp] theorem State.setNotice_bindSeq (s : State) (b : Fin 64) (f : Bool) : (s.setNotice b f).bindSeq = s.bindSeq := rfl
@[simp] theorem State.setNotice_rotation (s : State) (b : Fin 64) (f : Bool) : (s.setNotice b f).rotation = s.rotation := rfl
@[simp] theorem State.setNotice_mem (s : State) (b : Fin 64) (f : Bool) : (s.setNotice b f).mem = s.mem := rfl
@[simp] theorem State.setNotice_flt (s : State) (b : Fin 64) (f : Bool) : (s.setNotice b f).flt = s.flt := rfl
@[simp] theorem State.setNotice_eth (s : State) (b : Fin 64) (f : Bool) : (s.setNotice b f).eth = s.eth := rfl
@[simp] theorem State.setNotice_swc (s : State) (b : Fin 64) (f : Bool) : (s.setNotice b f).swc = s.swc := rfl
@[simp] theorem State.setNotice_ring (s : State) (b : Fin 64) (f : Bool) : (s.setNotice b f).ring = s.ring := rfl
@[simp] theorem State.setNotice_can (s : State) (b : Fin 64) (f : Bool) : (s.setNotice b f).can = s.can := rfl
@[simp] theorem State.setNotice_psq (s : State) (b : Fin 64) (f : Bool) : (s.setNotice b f).psq = s.psq := rfl
@[simp] theorem State.setNotice_hif (s : State) (b : Fin 64) (f : Bool) : (s.setNotice b f).hif = s.hif := rfl
@[simp] theorem State.setNotice_xpb (s : State) (b : Fin 64) (f : Bool) : (s.setNotice b f).xpb = s.xpb := rfl
@[simp] theorem State.setNotice_sgm (s : State) (b : Fin 64) (f : Bool) : (s.setNotice b f).sgm = s.sgm := rfl
@[simp] theorem State.setNotice_sec (s : State) (b : Fin 64) (f : Bool) : (s.setNotice b f).sec = s.sec := rfl
@[simp] theorem State.setNotice_free (s : State) (b : Fin 64) (f : Bool) : (s.setNotice b f).free = s.free := rfl
@[simp] theorem State.setNotice_out (s : State) (b : Fin 64) (f : Bool) : (s.setNotice b f).out = s.out := rfl

/-! setMbxWritten. -/

@[simp] theorem State.setMbxWritten_pending (s : State) (b : Fin 64) (m : BitVec 16) : (s.setMbxWritten b m).pending = s.pending := rfl
@[simp] theorem State.setMbxWritten_regs (s : State) (b : Fin 64) (m : BitVec 16) : (s.setMbxWritten b m).regs = s.regs := rfl
@[simp] theorem State.setMbxWritten_tabs (s : State) (b : Fin 64) (m : BitVec 16) : (s.setMbxWritten b m).tabs = s.tabs := rfl
@[simp] theorem State.setMbxWritten_ind (s : State) (b : Fin 64) (m : BitVec 16) : (s.setMbxWritten b m).ind = s.ind := rfl
@[simp] theorem State.setMbxWritten_latches (s : State) (b : Fin 64) (m : BitVec 16) : (s.setMbxWritten b m).latches = s.latches := rfl
@[simp] theorem State.setMbxWritten_hold (s : State) (b : Fin 64) (m : BitVec 16) : (s.setMbxWritten b m).hold = s.hold := rfl
@[simp] theorem State.setMbxWritten_power (s : State) (b : Fin 64) (m : BitVec 16) : (s.setMbxWritten b m).power = s.power := rfl
@[simp] theorem State.setMbxWritten_clk (s : State) (b : Fin 64) (m : BitVec 16) : (s.setMbxWritten b m).clk = s.clk := rfl
@[simp] theorem State.setMbxWritten_dom (s : State) (b : Fin 64) (m : BitVec 16) : (s.setMbxWritten b m).dom = s.dom := rfl
@[simp] theorem State.setMbxWritten_stepSeq (s : State) (b : Fin 64) (m : BitVec 16) : (s.setMbxWritten b m).stepSeq = s.stepSeq := rfl
@[simp] theorem State.setMbxWritten_ttu (s : State) (b : Fin 64) (m : BitVec 16) : (s.setMbxWritten b m).ttu = s.ttu := rfl
@[simp] theorem State.setMbxWritten_tcu (s : State) (b : Fin 64) (m : BitVec 16) : (s.setMbxWritten b m).tcu = s.tcu := rfl
@[simp] theorem State.setMbxWritten_mfpExt (s : State) (b : Fin 64) (m : BitVec 16) : (s.setMbxWritten b m).mfpExt = s.mfpExt := rfl
@[simp] theorem State.setMbxWritten_mfpIn (s : State) (b : Fin 64) (m : BitVec 16) : (s.setMbxWritten b m).mfpIn = s.mfpIn := rfl
@[simp] theorem State.setMbxWritten_eng (s : State) (b : Fin 64) (m : BitVec 16) : (s.setMbxWritten b m).eng = s.eng := rfl
@[simp] theorem State.setMbxWritten_insts (s : State) (b : Fin 64) (m : BitVec 16) : (s.setMbxWritten b m).insts = s.insts := rfl
@[simp] theorem State.setMbxWritten_images (s : State) (b : Fin 64) (m : BitVec 16) : (s.setMbxWritten b m).images = s.images := rfl
@[simp] theorem State.setMbxWritten_bindSeq (s : State) (b : Fin 64) (m : BitVec 16) : (s.setMbxWritten b m).bindSeq = s.bindSeq := rfl
@[simp] theorem State.setMbxWritten_rotation (s : State) (b : Fin 64) (m : BitVec 16) : (s.setMbxWritten b m).rotation = s.rotation := rfl
@[simp] theorem State.setMbxWritten_mem (s : State) (b : Fin 64) (m : BitVec 16) : (s.setMbxWritten b m).mem = s.mem := rfl
@[simp] theorem State.setMbxWritten_flt (s : State) (b : Fin 64) (m : BitVec 16) : (s.setMbxWritten b m).flt = s.flt := rfl
@[simp] theorem State.setMbxWritten_eth (s : State) (b : Fin 64) (m : BitVec 16) : (s.setMbxWritten b m).eth = s.eth := rfl
@[simp] theorem State.setMbxWritten_swc (s : State) (b : Fin 64) (m : BitVec 16) : (s.setMbxWritten b m).swc = s.swc := rfl
@[simp] theorem State.setMbxWritten_ring (s : State) (b : Fin 64) (m : BitVec 16) : (s.setMbxWritten b m).ring = s.ring := rfl
@[simp] theorem State.setMbxWritten_can (s : State) (b : Fin 64) (m : BitVec 16) : (s.setMbxWritten b m).can = s.can := rfl
@[simp] theorem State.setMbxWritten_psq (s : State) (b : Fin 64) (m : BitVec 16) : (s.setMbxWritten b m).psq = s.psq := rfl
@[simp] theorem State.setMbxWritten_hif (s : State) (b : Fin 64) (m : BitVec 16) : (s.setMbxWritten b m).hif = s.hif := rfl
@[simp] theorem State.setMbxWritten_xpb (s : State) (b : Fin 64) (m : BitVec 16) : (s.setMbxWritten b m).xpb = s.xpb := rfl
@[simp] theorem State.setMbxWritten_sgm (s : State) (b : Fin 64) (m : BitVec 16) : (s.setMbxWritten b m).sgm = s.sgm := rfl
@[simp] theorem State.setMbxWritten_sec (s : State) (b : Fin 64) (m : BitVec 16) : (s.setMbxWritten b m).sec = s.sec := rfl
@[simp] theorem State.setMbxWritten_free (s : State) (b : Fin 64) (m : BitVec 16) : (s.setMbxWritten b m).free = s.free := rfl
@[simp] theorem State.setMbxWritten_out (s : State) (b : Fin 64) (m : BitVec 16) : (s.setMbxWritten b m).out = s.out := rfl

end Sys2Proof.Machine
end

