-- ==== Sys2Proof/Laws/Store.lean ====
section
/-! SUPPORT. Laws of sparse data: what is read after a write, and that every operation keeps the canonical form. -/

namespace Sys2Proof.Machine

variable {α : Type}

theorem amFind_insert_same (m : AMap α) (k : Nat) (v : α) : amFind (amInsert m k v) k = some v := by
  induction m with
  | nil => simp [amInsert, amFind]
  | cons e r ih =>
    obtain ⟨k', v'⟩ := e
    simp only [amInsert]
    split
    · simp [amFind]
    · split
      · simp [amFind]
      · rename_i h1 h2
        simp [amFind, Ne.symm h2, ih]

theorem amFind_insert_other (m : AMap α) (k j : Nat) (v : α) (h : j ≠ k) :
    amFind (amInsert m k v) j = amFind m j := by
  induction m with
  | nil => simp [amInsert, amFind, Ne.symm h]
  | cons e r ih =>
    obtain ⟨k', v'⟩ := e
    simp only [amInsert]
    split
    · simp [amFind, Ne.symm h]
    · split
      · rename_i h1 h2
        subst h2
        simp [amFind, Ne.symm h]
      · simp [amFind, ih]

theorem amFind_lt_none (m : AMap α) (k : Nat) (h : ∀ e ∈ m, k < e.1) : amFind m k = none := by
  induction m with
  | nil => rfl
  | cons e r ih =>
    obtain ⟨k', v'⟩ := e
    have hk : k < k' := h (k', v') (by simp)
    simp [amFind, Nat.ne_of_gt hk]
    exact ih fun e he => h e (by simp [he])

theorem amFind_erase_other (m : AMap α) (k j : Nat) (h : j ≠ k) : amFind (amErase m k) j = amFind m j := by
  induction m with
  | nil => rfl
  | cons e r ih =>
    obtain ⟨k', v'⟩ := e
    simp only [amErase]
    split
    · rename_i h1
      subst h1
      simp [amFind, Ne.symm h]
    · simp [amFind, ih]

theorem amFind_erase_same (m : AMap α) (k : Nat) (hw : m.Pairwise (fun a b => a.1 < b.1)) :
    amFind (amErase m k) k = none := by
  induction m with
  | nil => rfl
  | cons e r ih =>
    obtain ⟨k', v'⟩ := e
    rw [List.pairwise_cons] at hw
    simp only [amErase]
    split
    · rename_i h1
      subst h1
      exact amFind_lt_none r k' fun e he => hw.1 e he
    · rename_i h1
      simp [amFind, h1, ih hw.2]

variable [DecidableEq α]

/-- A read of the key just written gives the value, in a canonical store. -/
theorem amGet_put_same (d : Nat → α) (m : AMap α) (k : Nat) (v : α) (hw : amWf d m) :
    amGet d (amPut d m k v) k = v := by
  unfold amGet amPut
  split
  · rename_i h
    simp [amFind_erase_same m k hw.1, h]
  · simp [amFind_insert_same]

/-- A write leaves every other key as it was. -/
theorem amGet_put_other (d : Nat → α) (m : AMap α) (k j : Nat) (v : α) (h : j ≠ k) :
    amGet d (amPut d m k v) j = amGet d m j := by
  unfold amGet amPut
  split
  · rw [amFind_erase_other m k j h]
  · rw [amFind_insert_other m k j v h]

theorem amErase_subset (m : AMap α) (k : Nat) : amErase m k ⊆ m := by
  induction m with
  | nil => simp [amErase]
  | cons e r ih =>
    obtain ⟨k', v'⟩ := e
    simp only [amErase]
    split
    · exact fun x hx => by simp [hx]
    · exact fun x hx => by
        rcases List.mem_cons.mp hx with h | h
        · simp [h]
        · simp [ih h]

theorem amErase_pairwise (m : AMap α) (k : Nat) (hw : m.Pairwise (fun a b => a.1 < b.1)) :
    (amErase m k).Pairwise (fun a b => a.1 < b.1) := by
  induction m with
  | nil => simp [amErase]
  | cons e r ih =>
    obtain ⟨k', v'⟩ := e
    rw [List.pairwise_cons] at hw
    simp only [amErase]
    split
    · exact hw.2
    · exact List.pairwise_cons.mpr ⟨fun e he => hw.1 e (amErase_subset r k he), ih hw.2⟩

theorem mem_amInsert (m : AMap α) (k : Nat) (v : α) (e : Nat × α) (h : e ∈ amInsert m k v) :
    e = (k, v) ∨ e ∈ m := by
  induction m with
  | nil => simpa [amInsert] using h
  | cons a r ih =>
    obtain ⟨k', v'⟩ := a
    simp only [amInsert] at h
    split at h
    · simpa using h
    · split at h
      · rcases List.mem_cons.mp h with h | h
        · exact Or.inl h
        · exact Or.inr (by simp [h])
      · rcases List.mem_cons.mp h with h | h
        · exact Or.inr (by simp [h])
        · rcases ih h with h | h
          · exact Or.inl h
          · exact Or.inr (by simp [h])

theorem amInsert_pairwise (m : AMap α) (k : Nat) (v : α) (hw : m.Pairwise (fun a b => a.1 < b.1)) :
    (amInsert m k v).Pairwise (fun a b => a.1 < b.1) := by
  induction m with
  | nil => simp [amInsert]
  | cons a r ih =>
    obtain ⟨k', v'⟩ := a
    have hw' := List.pairwise_cons.mp hw
    simp only [amInsert]
    split
    · rename_i h
      refine List.pairwise_cons.mpr ⟨fun e he => ?_, hw⟩
      rcases List.mem_cons.mp he with h1 | h1
      · subst h1; exact h
      · exact Nat.lt_trans h (hw'.1 e h1)
    · split
      · rename_i h1 h2
        subst h2
        exact List.pairwise_cons.mpr ⟨fun e he => hw'.1 e he, hw'.2⟩
      · rename_i h1 h2
        refine List.pairwise_cons.mpr ⟨fun e he => ?_, ih hw'.2⟩
        rcases mem_amInsert r k v e he with h3 | h3
        · subst h3; show k' < k; omega
        · exact hw'.1 e h3

/-- A write keeps the canonical form. -/
theorem amPut_wf (d : Nat → α) (m : AMap α) (k : Nat) (v : α) (hw : amWf d m) : amWf d (amPut d m k v) := by
  unfold amPut
  split
  · exact ⟨amErase_pairwise m k hw.1, fun e he => hw.2 e (amErase_subset m k he)⟩
  · rename_i h
    refine ⟨amInsert_pairwise m k v hw.1, fun e he => ?_⟩
    rcases mem_amInsert m k v e he with h1 | h1
    · subst h1; exact h
    · exact hw.2 e h1

/-- Leaving out entries keeps the canonical form. -/
theorem amFilter_wf (d : Nat → α) (m : AMap α) (p : Nat × α → Bool) (hw : amWf d m) : amWf d (m.filter p) :=
  ⟨hw.1.filter p, fun e he => hw.2 e (List.mem_filter.mp he).1⟩

/-- The empty store is canonical. -/
theorem amWf_nil (d : Nat → α) : amWf d ([] : AMap α) := ⟨List.Pairwise.nil, by simp⟩

end Sys2Proof.Machine
end

