-- ==== Sys2Proof/Laws/Settle.lean ====
section
/-! SUPPORT. What `settle`, with which every meaning ends, adds to an effect: GLB_INT_CNT, MSI-X pending bits, and
entries at the end of the output record; of an effect that changes nothing, nothing. -/

namespace Sys2Proof.Machine

/-! Registers. -/

theorem State.reg_setReg_other (s : State) (a b : Nat) (v : Word) (h : b ≠ a) : (s.setReg a v).reg b = s.reg b :=
  amGet_put_other regReset s.regs a b v h

theorem State.reg_setReg_same (s : State) (a : Nat) (v : Word) (hw : amWf regReset s.regs) :
    (s.setReg a v).reg a = v :=
  amGet_put_same regReset s.regs a v hw

theorem State.tab_setTab_same (s : State) (b : Blk) (sp w : Nat) (v : Word) (hw : amWf tabReset s.tabs) :
    (s.setTab b sp w v).tab b sp w = v :=
  amGet_put_same tabReset s.tabs _ v hw

theorem State.reg_emit (s : State) (o : Output) (a : Nat) : (s.emit o).reg a = s.reg a := rfl

/-! The canonical form (its memory part among it) is kept by every operation on a store. -/

theorem State.storesWf_iff (s : State) : s.storesWf ↔ s.sharedWf = true ∧ s.blocksWf = true := Bool.and_eq_true_iff

theorem State.sharedWf_iff (s : State) : s.sharedWf = true ↔ amWf regReset s.regs ∧ amWf tabReset s.tabs ∧
    amWf (fun _ => indReset) s.ind ∧ amWf (fun _ => 0) s.latches := by
  simp only [State.sharedWf, Bool.and_eq_true, decide_eq_true_eq, and_assoc]

/-- The canonical form of memory. -/
theorem State.storesWf_banks (s : State) (h : s.storesWf) : amWf bankReset s.mem.banks := by
  have := ((State.storesWf_iff s).1 h).2
  simp only [State.blocksWf, Bool.and_eq_true, decide_eq_true_eq] at this
  exact this.1.1.1.1.1.1.1.1.1.1

theorem State.storesWf_setReg (s : State) (a : Nat) (v : Word) (h : s.storesWf) : (s.setReg a v).storesWf := by
  have h0 := (State.storesWf_iff s).1 h
  have h1 := (State.sharedWf_iff s).1 h0.1
  exact (State.storesWf_iff _).2 ⟨(State.sharedWf_iff _).2 ⟨amPut_wf _ _ _ _ h1.1, h1.2⟩, h0.2⟩

theorem State.storesWf_setTab (s : State) (b : Blk) (sp w : Nat) (v : Word) (h : s.storesWf) :
    (s.setTab b sp w v).storesWf := by
  have h0 := (State.storesWf_iff s).1 h
  have h1 := (State.sharedWf_iff s).1 h0.1
  exact (State.storesWf_iff _).2 ⟨(State.sharedWf_iff _).2 ⟨h1.1, amPut_wf _ _ _ _ h1.2.1, h1.2.2⟩, h0.2⟩

theorem State.storesWf_setInd (s : State) (b : Blk) (sup : Bool) (x : IndSet) (h : s.storesWf) :
    (s.setInd b sup x).storesWf := by
  have h0 := (State.storesWf_iff s).1 h
  have h1 := (State.sharedWf_iff s).1 h0.1
  exact (State.storesWf_iff _).2
    ⟨(State.sharedWf_iff _).2 ⟨h1.1, h1.2.1, amPut_wf _ _ _ _ h1.2.2.1, h1.2.2.2⟩, h0.2⟩

theorem State.storesWf_latchFor (s : State) (who a : Nat) (v : Word) (h : s.storesWf) :
    (s.latchFor who a v).storesWf := by
  have h0 := (State.storesWf_iff s).1 h
  have h1 := (State.sharedWf_iff s).1 h0.1
  exact (State.storesWf_iff _).2
    ⟨(State.sharedWf_iff _).2 ⟨h1.1, h1.2.1, h1.2.2.1, amPut_wf _ _ _ _ h1.2.2.2⟩, h0.2⟩

/-- A byte stored in a bank keeps the canonical form of memory. -/
theorem State.storesWf_setBankByte (s : State) (b off : Nat) (v : Byte) (h : s.storesWf) :
    (s.setBankByte b off v).storesWf := by
  have h0 := (State.storesWf_iff s).1 h
  refine (State.storesWf_iff _).2 ⟨h0.1, ?_⟩
  have h1 := h0.2
  simp only [State.blocksWf, Bool.and_eq_true, decide_eq_true_eq] at h1 ⊢
  exact ⟨⟨⟨⟨⟨⟨⟨⟨⟨⟨amPut_wf _ _ _ _ h1.1.1.1.1.1.1.1.1.1.1, h1.1.1.1.1.1.1.1.1.1.2⟩, h1.1.1.1.1.1.1.1.1.2⟩,
    h1.1.1.1.1.1.1.1.2⟩, h1.1.1.1.1.1.1.2⟩, h1.1.1.1.1.1.2⟩, h1.1.1.1.1.2⟩, h1.1.1.1.2⟩, h1.1.1.2⟩, h1.1.2⟩, h1.2⟩

/-- A byte stored in a bank is read back, and every other byte is as it was. -/
theorem State.bankByte_set_same (s : State) (b off : Nat) (v : Byte) (h : s.storesWf) :
    (s.setBankByte b off v).bankByte b off = v :=
  amGet_put_same bankReset s.mem.banks _ v (s.storesWf_banks h)

theorem State.bankByte_set_other (s : State) (b off b' off' : Nat) (v : Byte) (h : bankKey b' off' ≠ bankKey b off) :
    (s.setBankByte b off v).bankByte b' off' = s.bankByte b' off' :=
  amGet_put_other bankReset s.mem.banks _ _ v h

theorem length_overwrite (bs : List Byte) (k : Nat) (v : Byte) (h : k < bs.length) :
    (overwrite bs k [v]).length = bs.length := by
  induction bs generalizing k with
  | nil => simp at h
  | cons b r ih =>
    cases k with
    | zero => simp [overwrite]
    | succ k => simpa [overwrite] using ih k (by simpa using h)

/-- A byte of the Skimmer's scratch row stored keeps the canonical form. -/
theorem State.storesWf_scratch (s : State) (w : SkmWindow) (k : Nat) (v : Byte) (hw : s.mem.window = some w)
    (hk : k < 256) (h : s.storesWf) :
    ({ s with mem := { s.mem with window := some { w with scratch := overwrite w.scratch k [v] } } } : State).storesWf := by
  have h0 := (State.storesWf_iff s).1 h
  refine (State.storesWf_iff _).2 ⟨h0.1, ?_⟩
  have h1 := h0.2
  simp only [State.blocksWf, Bool.and_eq_true, decide_eq_true_eq, hw, Option.all_some] at h1 ⊢
  exact ⟨h1.1, by rw [length_overwrite _ _ _ (h1.2 ▸ hk)]; exact h1.2⟩

/-- An owner's write of bytes keeps the canonical form. -/
theorem State.storesWf_ownerWrite (bs : List Byte) (t : Nat) :
    ∀ (s : State) (b off : Nat), s.storesWf → (s.ownerWrite b off bs t).storesWf := by
  induction bs with
  | nil => intro s b off h; exact h
  | cons v r ih =>
    intro s b off h
    refine ih _ b (off + 1) ?_
    unfold State.setOwnerByte
    split
    · rename_i w hr
      have hw : s.mem.window = some w := by
        unfold State.redirects at hr
        split at hr
        · split at hr
          · simpa using hr ▸ ‹s.mem.window = some _›
          · cases hr
        · cases hr
      have h1 := State.storesWf_scratch s w (off % bankSize b % 256) v hw (Nat.mod_lt _ (by decide)) h
      simp only
      split
      · exact State.storesWf_setBankByte _ _ _ _ h1
      · exact h1
    · exact State.storesWf_setBankByte _ _ _ _ h

/-! One interrupt. -/

/-- What raising interrupts may change. -/
def Raised (s t : State) : Prop := Framed [] [] [] s t ∧ (s.storesWf → t.storesWf)

theorem Raised.refl (s : State) : Raised s s :=
  ⟨⟨fun p _ => by cases p <;> simp [Part.same], fun _ _ _ => rfl, fun _ _ => rfl, List.prefix_refl _⟩, id⟩

theorem Part.same_trans {s t u : State} (p : Part) (h1 : p.same s t) (h2 : p.same t u) : p.same s u := by
  cases p <;> simp only [Part.same] at h1 h2 ⊢
  case images => exact ⟨h2.1.trans h1.1, h2.2.trans h1.2⟩
  case mfpIn => exact ⟨h2.1.trans h1.1, h2.2.trans h1.2⟩
  case hif =>
    rw [← h1]
    have := congrArg (fun x : HifState => ({ x with msixPend := s.hif.msixPend } : HifState)) h2
    simpa using this
  all_goals exact h2.trans h1

theorem Framed.trans {ps : List Part} {rs ts : List Nat} {s t u : State} (h1 : Framed ps rs ts s t)
    (h2 : Framed ps rs ts t u) : Framed ps rs ts s u :=
  ⟨fun p hp => Part.same_trans p (h1.parts p hp) (h2.parts p hp),
    fun a ha hb => (h2.regs a ha hb).trans (h1.regs a ha hb),
    fun k hk => (h2.tabs k hk).trans (h1.tabs k hk), h1.out.trans h2.out⟩

theorem Framed.mono {ps ps' : List Part} {rs rs' ts ts' : List Nat} {s t : State} (h : Framed ps rs ts s t)
    (hp : ps ⊆ ps') (hr : rs ⊆ rs') (ht : ts ⊆ ts') : Framed ps' rs' ts' s t :=
  ⟨fun p hq => h.parts p fun hc => hq (hp hc), fun a ha hb => h.regs a (fun hc => ha (hr hc)) hb,
    fun k hk => h.tabs k fun hc => hk (ht hc), h.out⟩

theorem Raised.trans {s t u : State} (h1 : Raised s t) (h2 : Raised t u) : Raised s u :=
  ⟨h1.1.trans h2.1, fun h => h2.2 (h1.2 h)⟩

theorem raised_count (s : State) : Raised s (s.count glbIntCnt) :=
  ⟨⟨fun p _ => by cases p <;> simp [Part.same, State.count],
    fun a _ h => State.reg_setReg_other _ _ _ _ h, fun _ _ => rfl, List.prefix_refl _⟩,
    State.storesWf_setReg _ _ _⟩

theorem raised_emit (s : State) (o : Output) : Raised s (s.emit o) :=
  ⟨⟨fun p _ => by cases p <;> simp [Part.same], fun _ _ _ => rfl, fun _ _ => rfl, List.prefix_append _ _⟩, id⟩

theorem raised_pend (s : State) (x : Vector (BitVec 272) 2) :
    Raised s { s with hif := { s.hif with msixPend := x } } :=
  ⟨⟨fun p _ => by cases p <;> simp [Part.same], fun _ _ _ => rfl, fun _ _ => rfl, List.prefix_refl _⟩, id⟩

theorem raised_msix (s : State) (link : Bool) (v : Nat) : Raised s (s.msix link v) := by
  unfold State.msix
  split
  · exact raised_pend s _
  · exact raised_emit s _

theorem raised_irq (s : State) (n : Nat) : Raised s (s.raiseIrq n) :=
  (raised_count s).trans (raised_msix _ _ _)

theorem raised_fold (s : State) (l : List Nat) (p : Nat → Bool) :
    ∀ t, Raised t (l.foldl (fun t n => if p n then t.raiseIrq n else t) t) := by
  induction l with
  | nil => exact fun t => Raised.refl t
  | cons n r ih =>
    intro t
    simp only [List.foldl_cons]
    split
    · exact (raised_irq t n).trans (ih _)
    · exact ih t

/-- What `settle` adds to an effect. -/
theorem raised_settle (s t : State) : Raised t (settle s t) := by
  refine Raised.trans (t := faultPin s t) ?_ (raised_fold s _ _ _)
  unfold faultPin
  split
  · exact Raised.refl t
  · exact raised_emit t _

/-! What a statement asks of the state after `settle`, part by part. -/

theorem settle_reg (s t : State) (a : Nat) (h : a ≠ glbIntCnt) : (settle s t).reg a = t.reg a :=
  (raised_settle s t).1.regs a (by simp) h

theorem settle_tab (s t : State) (b : Blk) (sp w : Nat) : (settle s t).tab b sp w = t.tab b sp w :=
  (raised_settle s t).1.tabs _ (by simp)

theorem settle_part (s t : State) (p : Part) : p.same t (settle s t) := (raised_settle s t).1.parts p (by simp)

theorem settle_out (s t : State) : t.out <+: (settle s t).out := (raised_settle s t).1.out

theorem settle_storesWf (s t : State) (h : t.storesWf) : (settle s t).storesWf := (raised_settle s t).2 h

/-- A frame of the effect is a frame of the command. -/
theorem framed_settle {ps : List Part} {rs ts : List Nat} {s t : State} (h : Framed ps rs ts s t) :
    Framed ps rs ts s (settle s t) :=
  h.trans ((raised_settle s t).1.mono (by simp) (by simp) (by simp))

/-! An effect that changes nothing raises nothing. -/

theorem and_not_self (w : Word) : w &&& ~~~w = 0 := by
  ext i
  simp

theorem irqRises_self (s : State) (n : Nat) : irqRises s s n = false := by
  unfold irqRises
  rw [List.any_eq_false]
  intro p hp
  have h : p.1 = p.2 := by
    rw [List.mem_iff_getElem] at hp
    obtain ⟨i, hi, rfl⟩ := hp
    simp
  simp [h, and_not_self]

theorem settle_self (s : State) : settle s s = s := by
  have h : ∀ (l : List Nat) (t : State),
      l.foldl (fun t n => if irqRises s s n then t.raiseIrq n else t) t = t := by
    intro l
    induction l with
    | nil => exact fun t => rfl
    | cons n r ih =>
      intro t
      rw [List.foldl_cons, irqRises_self]
      exact ih t
  simp [settle, raiseIrqs, faultPin, h]

theorem commit_self (s : State) : commit s s = .next s := by simp [commit, settle_self]

end Sys2Proof.Machine
end

