-- ==== Sys2Proof/WellFormed.lean ====
section
/-! DEFINITION. Which operands a command of the block can come with: the lengths of the data it carries. A command
that is not well formed still has a meaning (missing bytes read 0); nothing outside the device sends one. -/

namespace Sys2Proof

/-- Bytes of an owner token (Table SEC-2). -/
abbrev tokenBytes : Nat := 336

/-- Data bytes of a CAN FD frame by its DLC (ISO 11898-1; Table CAN-6). -/
def dlcBytes (fdf : Bool) (dlc : Nat) : Nat :=
  if dlc ≤ 8 then dlc else if fdf then [12, 16, 20, 24, 32, 48, 64].getD (dlc - 9) 0 else 8

/-- A CAN frame holds what its DLC says: none in a remote frame, which is no FD frame. -/
def CanFrame.wf (f : CanFrame) : Bool :=
  if f.rtr then !f.fdf && f.data.isEmpty else f.data.length = dlcBytes f.fdf f.dlc.toNat

/-- A write of BAR4 lies within the 16 MiB of the BAR. -/
def bar4Fits (off : BitVec 24) (n : Nat) : Bool := decide (1 ≤ n) && decide (off.toNat + n ≤ 2 ^ 24)

/-- An inbound write of the expansion host carries LEN words, a read none (R324). -/
def inboundFits (op : XpbOp) (len : Fin 16) (data : List Word) : Bool :=
  match op with
  | .read => data.isEmpty
  | _ => data.length = len.val + 1

/-- A bank access writes 1 to 8 bytes or reads as many (R350). -/
def BankOp.wf : BankOp → Bool
  | .read n => decide (1 ≤ n.val)
  | .write bs => decide (1 ≤ bs.length) && decide (bs.length ≤ 8)

/-- Whether a command's operands fit together. -/
def Instr.wf : Instr → Bool
  | .registerWrite _ a _ _ _ => decide (a.toNat % 4 = 0)
  | .ownerKeyLoad _ data => data.all (fun d => d.length = 96)
  | .ownerCmd _ data => data.all (fun d => d.length = tokenBytes)
  | .enroll _ data => data.length = tokenBytes
  | .revoke _ data => data.length = tokenBytes
  | .rollbackSet _ data => data.length = tokenBytes
  | .decommission _ data => data.length = tokenBytes
  | .cakSet _ data => data.length = tokenBytes
  | .debugToken data => data.length = tokenBytes
  | .dbgToken data => data.length = tokenBytes
  | .takeOwnership _ data => data.all (fun d => d.length = 192)
  | .frameReceive _ _ bytes _ _ _ _ => decide (1 ≤ bytes.length)
  | .ringPassReceive _ _ bytes _ _ => decide (14 ≤ bytes.length)
  | .canFrameStore _ f _ => f.wf
  | .bar4Write _ off bytes => bar4Fits off bytes.length
  | .bar4Commit _ off _ => decide (off.toNat % 4 = 0) && bar4Fits off 4
  | .xpbInbound op _ len data => inboundFits op len data
  | .bankAccess _ _ _ op _ _ => op.wf
  | _ => true

end Sys2Proof
end

