-- ==== Sys2Proof/Tests/Slice0.lean ====
section
/-! SUPPORT. Tests of the model on fixed values, and for every statement states and operands that meet its premises. -/

namespace Sys2Proof.Tests

-- The tests are checked one after another: side by side their kernel evaluations take much memory at once.
set_option Elab.async false

open Sys2Proof Sys2Proof.Machine

/-- The device running: powered, every island on, DTM and TTC enabled. -/
def live : State := { State.reset with
  power := .run
  regs := [(clkIslOn, 0x7FFFF), (0x20000, 1), (0x30000, 1)] }

/-! Well-formedness: for each check of WellFormed.lean a term it refuses, and one it takes. -/

theorem test_wf_registerWrite : (Instr.registerWrite .h0 0x10002 0xF 0 []).wf = false ∧
    (Instr.registerWrite .h0 0x10004 0xF 0 []).wf = true := by decide

theorem test_wf_tokens : (Instr.ownerKeyLoad 1 (some [0])).wf = false ∧ (Instr.ownerCmd 1 (some [0])).wf = false ∧
    (Instr.ownerCmd 1 none).wf = true ∧ (Instr.enroll 1 []).wf = false ∧ (Instr.revoke 1 []).wf = false ∧
    (Instr.rollbackSet 1 []).wf = false ∧ (Instr.decommission 1 []).wf = false ∧ (Instr.cakSet 1 []).wf = false ∧
    (Instr.debugToken []).wf = false ∧ (Instr.dbgToken []).wf = false ∧ (Instr.takeOwnership 0 (some [])).wf = false := by
  decide

theorem test_wf_token_length : (Instr.debugToken (List.replicate 336 0)).wf = true := by decide +kernel

theorem test_wf_frames : (Instr.frameReceive 0 true [] 0 false true 0).wf = false ∧
    (Instr.ringPassReceive 0 0 (List.replicate 13 0) true 0).wf = false ∧
    (Instr.ringPassReceive 0 0 (List.replicate 14 0) true 0).wf = true := by decide

theorem test_wf_can : (Instr.canFrameStore 0 ⟨false, true, false, false, false, 0, 9, []⟩ 0).wf = false ∧
    (Instr.canFrameStore 0 ⟨false, true, false, false, false, 0, 9, List.replicate 12 0⟩ 0).wf = true ∧
    (Instr.canFrameStore 0 ⟨false, true, false, false, true, 0, 0, []⟩ 0).wf = false := by decide

theorem test_wf_windows : (Instr.bar4Write false 0xFFFFFF [0, 0]).wf = false ∧ (Instr.bar4Commit false 2 0).wf = false ∧
    (Instr.bar4Commit true 0xFFFFFC 0).wf = true ∧ (Instr.xpbInbound .read 0 1 [0]).wf = false ∧
    (Instr.xpbInbound .write 0 1 [0]).wf = false := by decide

theorem test_wf_bank : (Instr.bankAccess .dma 0 0 (.read 0) .clean 0).wf = false ∧
    (Instr.bankAccess .dma 0 0 (.write (List.replicate 9 0)) .clean 0).wf = false ∧
    (Instr.bankAccess .dma 0 0 (.write [1]) .clean 0).wf = true := by decide

/-! Values the manual computes. -/

/-- 00, worked example: a Datum time and one tick at the nominal increment. -/
theorem test_datum_tick : dtAdd (dtMk 12 500 0x80000000) (2 * 2 ^ 32) = dtMk 12 502 0x80000000 := by decide +kernel

/-- 04, worked example: a receive stamp on 2500BASE-X; RX_TRIM +128 is half a ns. -/
theorem test_rx_stamp :
    let s := (live.setReg (ethMode 5) 3).setReg (dtmPRxTrim 5) 128
    let t := dtMk 7 123456 0
    let s1 := s.setDom 0 { s.dom[(0 : Fin 4)] with c0 := t, c1 := t, c2 := t }
    (s1.rxStamp 5 5).t = dtMk 7 123402 0xB999999A := by decide +kernel

/-- 06, worked example: MULF by 0.5 with 3, truncate, half-up, half-even, toward zero. -/
theorem test_mulf_pos : [0, 1, 2, 3].map (fun r => (mulOp 0 false r 3 0x40000000).v) = [1, 2, 2, 1] := by decide +kernel

/-- 06, worked example: the same with −3 and −5. -/
theorem test_mulf_neg : [0, 1, 2, 3].map (fun r => (mulOp 0 false r 0xFFFFFFFD 0x40000000).v) =
      [0xFFFFFFFE, 0xFFFFFFFF, 0xFFFFFFFE, 0xFFFFFFFF] ∧
    [0, 1, 2, 3].map (fun r => (mulOp 0 false r 0xFFFFFFFB 0x40000000).v) =
      [0xFFFFFFFD, 0xFFFFFFFE, 0xFFFFFFFE, 0xFFFFFFFE] := by decide +kernel

/-- 06, worked example: the second MACF of 0.75 × 0.75 passes the Q1.31 range, MRES saturates, the guard bits carry. -/
theorem test_guard_bits : (accumulate true 0x48000000 0x48000000).1 = 0x90000000 ∧
    (accumulate true 0x48000000 0x48000000).2.v = 0x7FFFFFFF ∧ (accumulate false 0x48000000 0x48000000).2.v = 0x90000000 ∧
    (accumulate true 0x90000000 (-0x48000000)).2 = ⟨0x48000000, 0⟩ := by decide +kernel

/-- 07, worked example: the compute budget of the controller of Table GLB-7. -/
theorem test_budget : budget 62500 14000 7800 = 56300 ∧ budgetOk 6000 62500 14000 7800 = true := by decide

/-- 08, worked example: a TCP send, H = 54, L = 10,000, MSS = 1,448: seven frames. -/
theorem test_seg_count : segCount ⟨54, 1448, none, 14, 34, false, true, 1⟩ 10054 = 7 := by decide

/-- 10, worked example: a node cut at the edge of its slot leaves 913 bytes of the frame. -/
theorem test_cut : cutLen 40100000 43064000 3200 = 913 := by decide

/-- 11, worked example: both timing sets meet Table CAN-1. -/
theorem test_can_timing : bitTimingOk 0x003E0F0F 8 80 = true ∧ bitTimingOk 0x000A0303 5 10 = true ∧
    bitTimingOk 0x000A0303 8 80 = false := by decide +kernel

/-- 12, worked example: the instruction words of the encoder link. -/
theorem test_psq_words : psqDecode 0x20000100 = .dir 1 0 ∧ psqDecode 0x10010000 = .pins 1 0 0 ∧
    psqDecode 0xB0000000 = .waitev ∧
    psqDecode 0x3201A030 = .shift ⟨false, true, 0, 0, 1, true, false, true, false, 48⟩ ∧
    psqDecode 0x50000000 = .push ∧ psqDecode 0x90000002 = .jmp 0 0 2 := by decide +kernel

/-- 13, worked example: Z of an input region with LEN 256 and of an image region with LEN 1,024. -/
theorem test_slots : slotSize 256 = 320 ∧ slotSize 1024 = 1088 := by decide

/-- 15, worked example: a window on row 17 of bank 40, whose march fails, takes spare 0. -/
theorem test_skimmer :
    let s := { (live.setReg (blkBase .mem) 1) with hold := 0, mem := { live.mem with walkBank := 40, walkRow := 17 } }
    let t := doSkimmerWindow true 0 0 s
    let u := doSkimmerWindowEnd t
    t.reg memSkmPos = 0x80280011 ∧ (u.tab .mem 0 160, u.tab .mem 0 161) = (1, 0x03FF0011) ∧
      u.reg memSkmFailCnt = 1 ∧ u.reg memRepairCnt = 1 := by decide +kernel

/-- 08, worked example: index 0x9A3 of the group-address filter. -/
theorem test_group_index : fieldOf (0x9A3C51E7 : Word) 20 12 = 2467 ∧ 2467 / 32 = 77 ∧ 2467 % 32 = 3 := by decide +kernel

/-- 04, worked example: the servo writes INC_NS = 1, then INC_FRAC = 0xFFFE_5C92. -/
theorem test_servo : ((doIncWrite .sup 1 0xFFFE5C92 (live.setReg (dtmDIncNs 1) 1)).dom[(1 : Fin 4)]).inc =
    0x1FFFE5C92 := by decide +kernel

/-- R389, R450: the word IDCODE shifts out. -/
theorem test_idcode : (doIdcode live).out = live.out ++ [.tdo [0xB8600B9B]] := by decide +kernel


/-! StepRunsTheFrontCommand. -/

theorem wit_StepIdle : State.reset.pending = [] ∧ State.reset.power = .held := by decide +kernel

/-! StoresStayCanonical. -/

theorem wit_StoresStayCanonical : live.storesWf ∧ step live ≠ .next State.reset := by
  refine ⟨by decide +kernel, ?_⟩
  intro h
  have : (match step live with | .next t => t.power | _ => .held) = (Power.held) := by rw [h]; decide +kernel
  revert this
  decide +kernel

/-! DecommissionedIsNeverLeft. -/

theorem wit_Decommissioned :
    ({ live with sec := { live.sec with lifecycle := 3 }, pending := [.lcAdvance] } : State).decommissioned := by
  decide +kernel

/-! RefusedAccessesHaveOneEffect. -/

/-- Island PE0 gated, domain 23 fenced. -/
def gatedPe : State := { live with
  flt := { live.flt with fenced := 1 <<< 23 }
  regs := amPut regReset live.regs clkIslOn 0x7FFF7 }

theorem wit_RefusedAccesses : gatedPe.storesWf ∧
    gatedPe.access .h0 true (pecImem 0) = .err stIslandOff ∧ portOf (Instr.pecImemSwap .h0 0) = some (.h0, true, pecImem 0) ∧
    gatedPe.access .h1 false 0x3FFFFC = .err stBusError ∧
    portOf (Instr.wideLowRead .h1 0x3FFFFC) = some (.h1, false, 0x3FFFFC) ∧
    gatedPe.access .sup true (blkBase (.can 0) + 0x50) = .err stFenced ∧ gatedPe.access .jtag true dtmCmd = .err stPolicy ∧
    gatedPe.access .h0 true glbResetCmd = .supOnly .glb ∧ portOf (Instr.glbResetCold .h0) = some (.h0, true, glbResetCmd) ∧
    gatedPe.hif.buserr.length < 16 := by
  decide +kernel

/-! RegisterWritesFollowTheFieldKinds. -/

theorem wit_RegisterWrites :
    let kind (a : Nat) : Option RKind := match live.access .sup true a with | .ok _ _ r => some r.kind | _ => none
    live.storesWf ∧ kind glbId = some .st ∧ kind glbIntEn = some .rw ∧ kind fltStartLimit = some .rw ∧
      kind (blkBase .glb + 8) = some .ct ∧ kind (blkBase .mem + 0x20) = some .cf ∧ live.en .mem = false ∧
      live.quiesced .mem = true ∧ live.cfTakes .mem 0x20 1 = true ∧ live.cfTakes .mem 0x20 0 = false ∧
      kind (ethMode 0) = some .cf ∧ live.en (.eth 0) = false ∧ live.quiesced (.eth 0) = true ∧
      live.cfTakes (.eth 0) 0x20 0 = true ∧ hostLink .h1 = some true ∧
      (∀ k ∈ [Blk.glb, .flt, .mem, .eth 0], live.fencedMask k 0x20 = 0) ∧
      cmBits .glb 0x54 = 0 ∧ live.fencedMask .glb 0x54 = 0 ∧
      (∀ m ∈ [Master.h1, .h0, .sup], live.access m true glbIntEn = live.access .sup true glbIntEn ∧
        (live.setReg glbIntEn 5).access m true glbIntEn = live.access .sup true glbIntEn) ∧
      (let s := { live with flt := { live.flt with fenced := 1 <<< 30 } }
       s.storesWf ∧ s.fencedMask .hif 0x60 = 0xFFFF0000 ∧ s.en .hif = false ∧ s.quiesced .hif = true ∧
       (match s.access .sup true (blkBase .hif + 0x60) with | .ok _ _ r => r.kind = .cf && r.mask &&& 0xFFFF0000 ≠ 0 | _ => false) = true ∧
       s.cfTakes .hif 0x60 0 = true) := by
  decide +kernel

/-! RegisterReadsReturnTheStoredWord. -/

theorem wit_RegisterReads :
    let kind (a : Nat) : Option (Nat × RKind) :=
      match live.access .h0 false a with | .ok _ o r => some (o, r.kind) | _ => none
    live.storesWf ∧ kind (blkBase .flt) = some (0, .special) ∧ kind (blkBase .flt + 4) = some (4, .st) ∧
      kind glbIntEn = some (0x54, .rw) ∧ kind glbEui64Hi = some (0x28, .sh) ∧
      live.reservedAt .h1 0 0x3FFFFC = true ∧ live.reservedAt .h1 1 0x100000 = true ∧
      live.reservedAt .h0 0 glbId = false ∧ live.reservedAt .h0 1 0x1004 = false ∧
      live.reservedAt .h1 2 0xFF0000 = false ∧ (live.bar4Read true 0xFF0000).isSome = true ∧
      (live.setReg hifLinkStatus 0x8000).linkUp true = true ∧
      gatedPe.access .exp false (pecImem 0) = .err stIslandOff ∧
      gatedPe.access .exp false glbId ≠ .err stIslandOff := by
  decide +kernel

/-! EnableAndQuiesceOfABlock. -/

theorem wit_EnableAndQuiesce : live.storesWf ∧ live.inHold (.can 3) = true ∧ live.inHold .nrg = true ∧ live.inHold .mbx = true ∧
    live.en (.eth 7) = false ∧ live.ethQuiet 7 = true ∧ (live.setReg (blkBase (.eth 7)) 1).en (.eth 7) = true ∧ Open live .sup true (blkBase .glb) ∧ Open live .h0 true (blkBase .dtm) ∧
    Open live .exp true (blkBase .mem) ∧ live.en .mem = false ∧ (live.setReg (blkBase .mem) 1).en .mem = true ∧
    Open live .sup true (blkBase (.pec 9)) ∧ live.inHold (.eth 7) = true ∧ live.eth[(7 : Fin 8)].tx = none ∧
    (live.setEth 7 { live.eth[7] with tx := some ⟨[], 0, 0, 0, 0, true, false, 0⟩ }).eth[(7 : Fin 8)].tx ≠ none ∧
    ({ live with hold := 0 } : State).inHold .mem = false ∧ Open live .h0 true (blkBase (.eth 7)) := by
  decide +kernel

/-! IndirectAccessGoesThroughTheBuffer. -/

/-- The supervisor's SGM set at the last word of route 1023, the host's XPB set fetching, the host's MEM set at a word of
the read-only space 0. -/
def indirect : State :=
  let a := live.setInd .sgm true ⟨8191, 0, 0, false, some (0, 8184), [1, 2, 3, 4, 5, 6, 7, 8], true⟩
  let b := a.setInd .xpb false ⟨0x03000FFF, 0, 0, true, none, [], false⟩
  let c := b.setInd .mem false ⟨5, 0, 0, false, some (0, 4), [1, 2, 3, 4], false⟩
  c.setInd .swc false ⟨0x03000002, 0, 0, false, some (3, 0), [9, 9, 9, 9], false⟩

theorem wit_IndirectAccess : indirect.storesWf ∧ Open indirect .h0 true (blkBase .mem + 0x10) ∧
    (indirect.indOf .mem false).dirty = false ∧ (indirect.indOf .sgm true).dirty = true ∧
    heldHas (indirect.indOf .sgm true) 8184 = true ∧ Open indirect .sup true (blkBase .sgm + 0x10) ∧
    (indirect.indOf .xpb false).busy = true ∧ (indirect.spaceAt .xpb 3).isSome = true ∧ plainSpace .xpb 3 = true ∧
    Open indirect .h1 false (blkBase .mem + 0x14) ∧ indirect.indRefusal .h1 .mem 0 5 false = none ∧
    indirect.indRefusal .h1 .mem 0 5 true = some stBusError ∧
    Open indirect .exp true (blkBase .swc + 0x14) ∧ indirect.indRefusal .exp .swc 3 2 true = none ∧
    indirect.cfClosed .swc = false ∧ indirect.wordBar .swc 3 2 7 = none ∧ plainSpace .swc 3 = true ∧
    indirect.indRefusal .h0 (.pec 0) 0 0 false = some stPolicy := by
  decide +kernel

theorem wit_IndirectCommit :
    let s := indirect.setInd .swc false ⟨0x0300007F, 0, 0, false, some (3, 124), [9, 9, 9, 9], true⟩
    Open s .h0 true (blkBase .swc + 0x14) ∧ s.indRefusal .h0 .swc 3 127 true = none ∧ s.wordBar .swc 3 127 7 = none := by
  decide +kernel

/-! ColdStartsBeginAfresh. -/

theorem wit_ColdStarts : State.reset.storesWf ∧ State.reset.power = .held ∧ live.storesWf ∧ live.power ≠ .held ∧
    Open live .sup true glbResetCmd ∧ live.power ≠ .p2 := by
  decide +kernel

/-! WarmStartsKeepWhatTheManualKeeps. -/

/-- Asleep, woken by WAKE_N and by a timer that is due. -/
def asleep : State := { live with power := .p2, regs := amPut regReset live.regs clkWakeCfg 3 }

theorem wit_WarmStarts : live.storesWf ∧ (Open live .sup true glbResetCmd ∧
    live.power = .run ∧ live.flt.recovery = false ∧ live.reg clkDegraded = 0 ∧ live.sec.tamper = false ∧
    live.mem.window = none ∧ asleep.storesWf ∧ asleep.power = .p2 ∧ bitOf (asleep.reg clkWakeCfg) 1 = true ∧
    bitOf (asleep.reg clkWakeCfg) 0 = true ∧ asleep.wakeTimeDue = true ∧ State.reset.power ≠ .run ∧
    bitOf ((live.setReg clkWakeCfg 0).reg clkWakeCfg) 1 = false) := by
  decide +kernel

/-! StartsEndOrFail. -/

/-- A cold start in progress, two having failed. -/
def starting : State := { live with
  flt := { live.flt with starting := some .cold }
  regs := amPut regReset live.regs glbFailedStart 0x20 }

theorem wit_StartsEndOrFail : live.storesWf ∧ starting.storesWf ∧ Open live .sup true fltCmd ∧
    live.flt.starting = none ∧ Open starting .sup true fltCmd ∧ starting.flt.starting = some .cold ∧
    2 ≤ fieldOf (starting.reg glbFailedStart) 4 2 ∧ starting.eng[(9 : Fin 10)].st = .off ∧
    fieldOf ((starting.setReg glbFailedStart 0x10).reg glbFailedStart) 4 2 < 2 ∧
    fieldOf (starting.reg glbFailedStart) 0 2 < 2 ∧ 2 ≤ fieldOf (0x22 : Word) 0 2 := by
  decide +kernel

/-! PllLossAndRecovery. -/

/-- PLLs A and B in their roles, C spare and locked; in the second state A FAILED and B lost to a FAILED C. -/
def plls : State := live.setReg clkPllStatus 0x531

theorem wit_PllLossAndRecovery : plls.storesWf ∧ plls.pllRole 0 = 0 ∧ plls.pllRole 1 = 1 ∧ plls.pllRole 2 = 2 ∧
    plls.pllLock 2 = true ∧ (plls.setReg clkPllStatus 0x536).pllRole 0 = 3 ∧
    (plls.setReg clkPllStatus 0x536).pllLock 0 = false ∧ (plls.setReg clkPllStatus 0x537).pllLock 0 = true ∧
    (plls.setReg clkPllStatus 0x537).pllRole 0 = 3 ∧ live.clk.realign = 0 ∧
    (live.fenced 32 || live.fenced 33 || live.fenced 34 || live.fenced 35) = false ∧
    ({ live with clk := { live.clk with realign := 0x40001 } } : State).clk.realign ≠ 0 := by
  decide +kernel

/-! IslandsGateAndWake. -/

theorem wit_IslandsGateAndWake :
    let s := live.setReg clkGateReq 0x40000
    s.storesWf ∧ s.gates 18 = true ∧ gateable.getLsbD 0 = false ∧ gateable.getLsbD 18 = true ∧
      ({ gatedPe with clk := { gatedPe.clk with ramp := 8 } } : State).clk.ramp.getLsbD 3 = true ∧
      gatedPe.islandOn 3 = false ∧ live.clk.ramp.getLsbD 3 = false ∧ Open live .h0 true clkGateReq := by
  decide +kernel

/-! DatumIncrementAndOffsetRequests. -/

theorem wit_DatumIncrementAndOffsetRequests :
    live.storesWf ∧ Open live .h0 true (dtmDIncFrac 3) ∧ live.shadowSteered = false ∧
      Open live .sup true (dtmDAdjFrac 0) ∧ live.en .dtm = true ∧ live.power ≠ .p2 ∧ live.dom[(1 : Fin 4)].req = .none := by
  decide +kernel

/-- A request of exactly the limit, which the tick applies. -/
def adjDue : State := { live with
  dom := vset live.dom 2 { live.dom[2] with adj := 0x000003E800000000, req := .awaiting }
  regs := amPut regReset live.regs dtmJumpLimit 1000 }

theorem wit_DatumAdjApply : adjDue.storesWf ∧ adjDue.dom[(2 : Fin 4)].req ≠ .none ∧
    (sgn adjDue.dom[(2 : Fin 4)].adj).natAbs ≤ fieldOf (adjDue.reg dtmJumpLimit) 0 20 * 4294967296 := by
  decide +kernel

/-- The SHADOW of a pair; the supervisor's writes of INC and ADJ reach it and are ignored. -/
def shadowPaired : State := { live with flt := { live.flt with twin := .paired, shadow := true } }

theorem wit_DatumShadow : shadowPaired.storesWf ∧ Open shadowPaired .sup true (dtmDIncFrac 0) ∧
    Open shadowPaired .sup true (dtmDAdjFrac 3) ∧ shadowPaired.shadowSteered = true := by
  decide +kernel

/-! DatumStepsLoadTheWrittenTime. -/

theorem wit_DatumSteps : live.storesWf ∧ Open live .h1 true dtmCmd ∧ live.en .dtm = true ∧ live.power ≠ .p2 ∧
    live.shadowSteered = false ∧ (15#4).getLsbD 3 = true ∧ (live.reg (dtmDLoadNs 3)).toNat < 1000000000 ∧
    adjDue.dom[(2 : Fin 4)].adj ≠ 0 ∧ Open adjDue .sup true dtmCmd ∧ Open shadowPaired .sup true dtmCmd ∧
    (∀ d < 4, live.fenced (32 + d) = false) ∧
    (let s := { live with flt := { live.flt with fenced := 1 <<< 33 } }
     s.storesWf ∧ Open s .sup true dtmCmd ∧ s.fenced 33 = true) := by
  decide +kernel

/-! DatumVotingAndSyntonization. -/

theorem wit_DatumVoting :
    let a := live.dom[(3 : Fin 4)].c0 ^^^ 0
    let b := live.dom[(3 : Fin 4)].c1 ^^^ 0
    let c := live.dom[(3 : Fin 4)].c2 ^^^ (1 <<< 111)
    live.storesWf ∧ (a = b ∨ a = c ∨ b = c) ∧ ¬ (a = b ∧ b = c) ∧ live.fenced 35 = false ∧ live.en .dtm = true ∧
      live.power ≠ .p2 ∧ live.dom[(3 : Fin 4)].req = .none := by
  decide +kernel

theorem wit_DatumFence :
    let a := live.dom[(0 : Fin 4)].c0 ^^^ 0
    let b := live.dom[(0 : Fin 4)].c1 ^^^ 1
    let c := live.dom[(0 : Fin 4)].c2 ^^^ 2
    a ≠ b ∧ a ≠ c ∧ b ≠ c ∧ live.permFenced (Fin.ofNat 37 32) = false := by
  decide +kernel

/-- Domain 0 follows P7, in KR mode with its link up. -/
def synton : State := { live with
  dom := vset live.dom 0 { live.dom[0] with syntEn := true, syntPort := 7, clean := true, holdover := true }
  eth := vset live.eth 7 { live.eth[7] with up := true }
  regs := amPut regReset (amPut regReset live.regs (dtmDSynt 0) 0x107) (ethMode 7) 5 }

theorem wit_SyntWindowEnd : synton.storesWf ∧ bitOf (live.reg (dtmDSynt 3)) 8 = false ∧
    bitOf (synton.reg (dtmDSynt 0)) 8 = true ∧
    (true && synton.eth[(Fin.ofNat 8 (fieldOf (synton.reg (dtmDSynt 0)) 0 3) : Fin 8)].up &&
      serdesMode (synton.ethModeOf 7)) = true ∧ synton.dom[(0 : Fin 4)].syntEn = true ∧
    synton.dom[(0 : Fin 4)].clean = true ∧ synton.dom[(0 : Fin 4)].syntPort = 7 := by
  decide +kernel

/-! TriggerUnitsArmAndFire. -/

/-- TTC enabled and running, the domains at 1 s; unit 23 one-shot on the sequencer event of channel 63, unit 0
periodic on a pin, unit 5 pulsing. -/
def armable : State := { live with
  hold := 0
  dom := live.dom.map (fun x => { x with c0 := dtMk 1 0 0, c1 := dtMk 1 0 0, c2 := dtMk 1 0 0 })
  ttu := vset live.ttu 5 { live.ttu[5] with pulse := true }
  regs := [(ttuCfg 23, 0x023F0000), (ttuTimeNs 23, 500), (ttuTimeSecLo 23, 1), (ttuCfg 0, 0x90000007),
    (ttuPeriod 0, 100), (ttuWidth 0, 50)].foldl (fun r p => amPut regReset r p.1 p.2) live.regs }

theorem wit_TriggerArm :
    armable.storesWf ∧ Open armable .h0 true (ttuCtrl 23) ∧ live.armTaken 23 = false ∧ armable.armTaken 23 = true ∧
      armable.ttu[(23 : Fin 24)].armed = false ∧ armable.ttu[(23 : Fin 24)].pulse = false ∧
      armable.ttuLate 23 (armable.time (armable.ttuDom 23)) = false ∧ armable.armTaken 0 = true ∧
      armable.ttuLate 0 (armable.time (armable.ttuDom 0)) = true ∧ armable.ttuSkipLate 0 = false ∧
      armable.ttu[(5 : Fin 24)].pulse = true ∧ armable.armTaken 5 = true := by
  decide +kernel

/-- Unit 1 skips late firings. -/
theorem wit_TriggerSkipLate :
    let s := armable.setReg (ttuCfg 1) 0x40000000
    s.armTaken 1 = true ∧ s.ttuLate 1 (s.time (s.ttuDom 1)) = true ∧ s.ttuSkipLate 1 = true ∧
      s.ttu[(1 : Fin 24)].armed = false ∧ s.ttu[(1 : Fin 24)].pulse = false := by
  decide +kernel

theorem wit_TriggerFire :
    let s : State := { armable with ttu := vset (vset armable.ttu 23 ⟨true, false, some 0, 0⟩) 0 ⟨true, false, none, 0⟩ }
    s.ttuDue 23 = true ∧ s.ttuEvtKind 23 = 2 ∧ s.islandOn 17 = true ∧ s.fenced (27 + s.ttuEvtTarget 23 / 32) = false ∧
      s.ttuDue 0 = true ∧ s.ttuEvtKind 0 = 0 ∧ s.ttuPinEn 0 = true ∧ s.ttuPeriodic 0 = true ∧
      s.ttuTime 0 + (s.reg (ttuPeriod 0)).toNat < 2 ^ 48 * 1000000000 ∧ s.ttuDue 5 = false ∧
      s.ttu[(5 : Fin 24)].pulse = true ∧ s.ttu[(5 : Fin 24)].pulseLeft = 0 := by
  decide +kernel

/-! CapturesAndStampQueuesAreReadByHead. -/

/-- Capture unit 15 on both edges of MFP95, one capture waiting; P7 with a stamp waiting. -/
def captures : State := { armable with
  tcu := vset armable.tcu 15 ⟨[⟨7, 1, 0x80000000⟩], some 0⟩
  eth := vset armable.eth 7 { armable.eth[7] with tsq := [⟨0x1234, ⟨dtMk 1 2 3, 0, false⟩⟩] }
  clk := { armable.clk with tick := 100 }
  regs := amPut regReset armable.regs (tcuCfg 15) 0x8300005F }

theorem wit_Captures : captures.storesWf ∧ captures.tcuTakes 15 95 true 2 = true ∧
    captures.tcu[(15 : Fin 16)].fifo.length ≠ 4 ∧ captures.tcuTakes 14 95 true 2 = false ∧
    captures.tcuTakes 15 95 true 0xFFFF = true ∧ Open captures .h0 false (tcuCapNs 15) ∧
    captures.tcu[(15 : Fin 16)].fifo ≠ [] ∧ Open captures .exp false (ethTsqW0 7) ∧
    captures.eth[(7 : Fin 8)].tsq ≠ [] ∧ captures.eth[(0 : Fin 8)].tsq = [] := by
  decide +kernel

/-! TriggersEnterTheirUnits. -/

/-- An engine that runs an instance, its kernel at instruction 3, with two results of the kernel in flight. -/
def runningEngine : Engine := { Engine.reset with
  st := .active, role := some 2, kern := .running, kCount := some 7, pipe := 20, wall := 30, inCycle := true
  k := { Ctx.reset with pc := 3 }
  flight := [⟨false, 23, .res rAlu0 9 0, 0⟩, ⟨false, 38, .res rDiv 5 0, 0⟩] }

/-- Role 2 on engine 4, which runs its kernel. -/
def runningInst : Inst := ⟨1, some 4, 1000, 0, 0, 0, 3, false, true, false, none, none, 0⟩

def running : State := { live with
  hold := 0
  eng := live.eng.set 4 runningEngine
  insts := live.insts.set 2 (some runningInst) }

/-- The service context in place of the kernel. -/
def serving : State :=
  { running with eng := running.eng.set 4 { runningEngine with kern := .idle, svc := .run, kCount := none } }

theorem wit_IssuesKernel : running.storesWf ∧ running.issuer 4 ≠ some true ∧ Issues 4 false running :=
  ⟨by decide +kernel, by decide +kernel, ⟨by decide +kernel, by decide +kernel, by decide +kernel, by decide +kernel,
    by decide +kernel, by decide +kernel⟩⟩

theorem wit_IssuesService : serving.storesWf ∧ Issues 4 true serving :=
  ⟨by decide +kernel, ⟨by decide +kernel, by decide +kernel, by decide +kernel, by decide +kernel, by decide +kernel,
    by decide +kernel⟩⟩

/-! ArithmeticOfTheUnits. -/

theorem test_aluEdges : aluOp 1 false 0x7FFFFFFF 1 = ⟨0x80000000, flagOV⟩ ∧ aluOp 14 true 1 31 = ⟨0x7FFFFFFF, flagOV⟩ ∧
    aluOp 11 false 1 0xFFFFFFFF = ⟨0, 0⟩ ∧ aluOp 13 false 0x80000000 40 = ⟨0xFFFFFFFF, 0⟩ := by decide +kernel

theorem test_divEdges : divOp 0 true 0 0x80000000 0xFFFFFFFF = ⟨0x7FFFFFFF, flagOV⟩ ∧
    divOp 2 false 0 0x80000000 0xFFFFFFFF = ⟨0, 0⟩ ∧ divOp 4 true 0 1 0 = ⟨0x7FFFFFFF, flagDZ⟩ := by decide +kernel

/-! LoadsStoresAndWindowTransfers. -/

/-- Role 2 owns bank 5, mapped at window 0 of its engine; a valid descriptor of 14 bytes stands at 0x100 of its memory. -/
def mapped : State :=
  let d := dmemWrite [] 0x100 (leBytes 0x10000000 ++ leBytes 14 ++ leBytes 0x200 ++ leBytes 0 ++ leBytes 0 ++ leBytes 0 ++
    leBytes 0 ++ leBytes 77)
  let s := (running.setReg (memBankOwner 5) 0x201).setTab (.pec 4) 2 0 0x80000005
  s.setEng 4 { s.eng[4] with dmem := d }

theorem wit_LoadsStores : mapped.storesWf ∧
    mapped.espTarget 4 0x7FFC = .dmem 0x7FFC ∧ mapped.espTarget 4 0x01000040 = .bank 5 0x40 ∧
    mapped.owns (.role 2) 5 = true ∧ mapped.redirects 5 0x40 = none ∧ mapped.espTarget 4 0x01020000 = .bad ∧
    (mapped.setTab (.pec 4) 2 1 0x80000006).espTarget 4 0x01020000 = .bank 6 0 ∧ mapped.owns (.role 2) 6 = false ∧
    mapped.espTarget 4 0x03000004 = .mbx 0 1 ∧ lsuSize 6 ≠ 4 ∧ lsuStores 6 = true ∧ lsuStores 4 = false ∧
    mapped.espTarget 4 0 = .dmem 0 ∧ (mapped.stagingRead 4 0x100 32).isSome = true ∧
    (mapped.stagingRead 4 0x04000100 32) = none ∧
    fieldOf (le32At ((mapped.stagingRead 4 0x100 32).getD []) 0) 28 4 = 1 ∧
    txLenOk ((List.range 8).map (fun i => le32At ((mapped.stagingRead 4 0x100 32).getD []) (4 * i))) = true := by
  decide +kernel

/-- Role 2 sends by mailbox 7, receives by 8, and holds trigger unit 0. -/
def speaking : State :=
  ((mapped.setReg (mbxCfg 7) 0x4230).setReg (mbxCfg 8) 0x3042).setReg (pecTtuGrant 4) 1

theorem wit_LoadsStoresWords : speaking.storesWf ∧ speaking.espTarget 4 0x030001C4 = .mbx 7 1 ∧
    speaking.espTarget 4 0x030001FC = .mbx 7 15 ∧ speaking.isSender (.role 2) 7 = true ∧ speaking.mbxFullOf 7 = false ∧
    speaking.postFenced 7 = false ∧ speaking.espTarget 4 0x0300023C = .mbx 8 15 ∧
    speaking.isSender (.role 2) 8 = false ∧ speaking.isReceiver (.role 2) 8 = true ∧
    speaking.isReceiver (.role 2) 9 = false ∧ speaking.espTarget 4 0x04000104 = .ttc 0x104 ∧ lsuSize 5 = 4 ∧
    speaking.crossSlow 4 (espPath 0x03000200) = false ∧ (speaking.setFull 7 true).mbxFullOf 7 = true ∧
    speaking.engOf 2 = some 4 ∧
    fieldOf (le32At ((speaking.stagingRead 4 0x300 32).getD [1]) 0) 28 4 = 0 := by
  decide +kernel

theorem wit_LoadsStoresWordsIssue : Issues 4 false speaking :=
  ⟨by decide +kernel, by decide +kernel, by decide +kernel, by decide +kernel, by decide +kernel, by decide +kernel⟩

theorem wit_LoadsStoresIssue : Issues 4 false mapped :=
  ⟨by decide +kernel, by decide +kernel, by decide +kernel, by decide +kernel, by decide +kernel, by decide +kernel⟩

/-! BranchesKernelEndAndWait. -/

/-- The kernel in KEND's delay slot; the service context with a full return stack, a pending branch, an event. -/
def inDelay : State := running.setEng 4 { runningEngine with kern := .delay, kCount := none }
def branching : State := serving.setEng 4 { serving.eng[4] with
  s := { Ctx.reset with pc := 9, pend := some 0x40, depth := 8 }, evt := 2 }

theorem wit_BranchesDelay : Issues 4 false inDelay :=
  ⟨by decide +kernel, by decide +kernel, by decide +kernel, by decide +kernel, by decide +kernel, by decide +kernel⟩

theorem wit_BranchesStack : Issues 4 true branching :=
  ⟨by decide +kernel, by decide +kernel, by decide +kernel, by decide +kernel, by decide +kernel, by decide +kernel⟩

theorem wit_Branches : (inDelay.eng[(4 : Fin 10)]).kern = .delay ∧ (running.ctx 4 false).depth.val = 0 ∧
    (running.ctx 4 false).pend = none ∧ (branching.ctx 4 true).depth.val = 8 ∧ (branching.ctx 4 true).pend.isSome = true ∧
    inDelay.fenced 4 = false ∧ (serving.ctx 4 true).pend = none ∧ (serving.eng[(4 : Fin 10)]).evt &&& 2#4 = 0 := by
  decide +kernel

/-! ResultsLandAndMovesIssue. -/

/-- Nothing runs; a walk of three words of G1 to G9 runs; an instruction that moves G1, then 5, to G2. -/
def landing : State := running.setEng 4 { runningEngine with
  kern := .idle, kCount := none, flight := [⟨true, 24, .acc 1 7 true, 0⟩] }
def waiting : State := running.setEng 4 { runningEngine with kern := .idle, kCount := none, svc := .wait 6, evt := 2 }
def walking : State :=
  (running.setTabs (.pec 4) (imemSpace false) 12 [0x09010080, 0xFF000000, 0xFF000000, 0xFF000000]).setEng 4
    { runningEngine with k := { runningEngine.k with rptRun := true, rptCnt := 3, rptSrc := 1, rptDst := 9 } }
def moving : State := running.setTabs (.pec 4) (imemSpace false) 12 [0x02010000, 0x02E00005, 0x03018000, 0x04020000]

theorem wit_ResultsLand : landing.storesWf ∧ landing.engLive 4 = true ∧ (landing.eng[(4 : Fin 10)]).svc = .off ∧
    (landing.eng[(4 : Fin 10)]).flight = [⟨true, (landing.eng[(4 : Fin 10)]).pipe + 1 + 3, .acc 1 7 true, 0⟩] ∧
    (waiting.eng[(4 : Fin 10)]).evt &&& 6#4 = 2 ∧ waiting.inHold (.pec 4) = false ∧ walking.storesWf ∧
    walking.issuer 4 = some false := by decide +kernel

theorem wit_MovesIssue :
    (walking.ctx 4 false).rptRun = true ∧ walking.breakAt 4 false = none ∧
    ((slotsOf (walking.fetch 4 false)).1.find? (·.rpt)).bind rptClass = some .walk ∧ moving.storesWf ∧
    staticFault false (slotsOf (moving.fetch 4 false)).2 (slotsOf (moving.fetch 4 false)).1 0 = 0 ∧
    staticFault false (slotsOf (running.fetch 4 false)).2 (slotsOf (running.fetch 4 false)).1 0 = 0 ∧
    (slotsOf (moving.fetch 4 false)).1.all (fun sl => !sl.rpt && decide (sl.dst.toNat < 0x40) && sl.src ≠ 0x40) = true := by
  decide +kernel

theorem wit_ResultsLandIssue : Issues 4 false moving :=
  ⟨by decide +kernel, by decide +kernel, by decide +kernel, by decide +kernel, by decide +kernel, by decide +kernel⟩

/-! KernelCycleStartsAndHardFaults. -/

/-- An idle enabled kernel, spares 7 and 8, engine 7's island gated; a retry in its kernel cycle. -/
def idleKernel : State :=
  let s := running.setReg (blkBase (.pec 4)) 1
  let t := (s.setEng 4 { runningEngine with kern := .idle, kCount := none, swapPend := true }).setEng 7
    { Engine.reset with st := .spare }
  t.setEng 8 { Engine.reset with st := .spare }

theorem wit_KernelCycleStarts : idleKernel.storesWf ∧ (idleKernel.eng[(4 : Fin 10)]).role = some 2 ∧
    idleKernel.insts[(2 : Fin 10)] = some runningInst ∧ idleKernel.islandOn 7 = true ∧ idleKernel.en (.pec 4) = true ∧
    idleKernel.inHold (.pec 4) = false ∧ idleKernel.fenced 4 = false ∧ idleKernel.pickEngine = some 7 ∧
    running.pickEngine = none ∧ (running.eng[(4 : Fin 10)]).kern ≠ .idle ∧ (running.eng[(4 : Fin 10)]).kCount.isSome = true ∧
    live.islandOn 7 = true ∧ (running.eng[(4 : Fin 10)]).inCycle = true ∧ running.flt.testing.getLsbD 4 = false ∧
    (running.setReg clkIslOn 0x7FF7F).islandOn 7 = false ∧ running.engLive 4 = true ∧
    ((running.setEng 4 { runningEngine with wdog := 5 }).eng[(4 : Fin 10)]).wdog.toNat < 7 + 1 ∧ running.issuer 4 = some false ∧ (running.setTabs (.pec 4) (imemSpace false) 12 [0xFF001000]).issueFault 4 false none ≠ 0 ∧
    moving.issueFault 4 false none = 0 ∧ (idleKernel.eng[(7 : Fin 10)]).st ≠ .off ∧ idleKernel.spareFor 2 = some 7 ∧
    ((running.setEng 4 { runningEngine with kRetried := true }).eng[(4 : Fin 10)]).kRetried = true ∧
    (live.eng[(0 : Fin 10)]).st = .off := by decide +kernel

/-! CheckpointsCommitAndGatesOpen. -/

/-- Role 2 owns bank 99, dual-port window 3 of its engine, and has a snapshot of cycle 7. -/
def snapped : State :=
  let s := (running.setReg (memBankOwner 99) 0x201).setTab (.pec 4) 2 35 0x80000003
  s.setEng 4 { runningEngine with kern := .idle, flight := [], cyc := 7, ckpt := .taken 7 (ctxWords runningEngine.k) }

theorem wit_Checkpoints : snapped.storesWf ∧ snapped.dualBank 4 3 = some 99 ∧ snapped.owns (.role 2) 99 = true ∧
    snapped.mem.window = none ∧ (snapped.eng[(4 : Fin 10)]).ckpt = .taken 7 (ctxWords runningEngine.k) ∧
    (ctxWords runningEngine.k).length = 126 ∧ (snapped.setReg (memBankOwner 99) 0).owns (.role 2) 99 = false ∧
    snapped.engLive 4 = true ∧ snapped.insts[(2 : Fin 10)] = some runningInst ∧ runningInst.stopped = false ∧
    snapped.engOf 3 = none ∧ snapped.shadowed = false ∧ ({ snapped with mem := { snapped.mem with window := none } } : State).shadowed = false := by decide +kernel

/-! EngineCommandRegisters. -/

/-- Engine 4 in DEBUG at level D2, a breakpoint at its kernel's instruction 3; the same halted. -/
def debugging : State :=
  let s := (running.setReg glbLifecycle 0x200).setReg (pecDbgCtrl 4) 0x20000
  (s.setReg (pecBp 4 1) 3).setEng 4 { runningEngine with st := .debug }
def haltedEngine : State := debugging.setEng 4 { runningEngine with
  st := .debug, halted := true, kern := .idle, kCount := none, flight := [], sGap := 2, heldStart := true }

theorem wit_EngineCommands : debugging.storesWf ∧ Open debugging .sup true (pecImem 4) ∧ Open debugging .sup true (pecCmd 4) ∧
    Open debugging .sup true (pecDbgCtrl 4) ∧ debugging.fenced 4 = false ∧ 2 ≤ debugging.dbgLevel ∧
    running.dbgLevel < 2 ∧ Open running .sup true (pecDbgCtrl 4) ∧ haltedEngine.fenced 4 = false ∧
    ((haltedEngine.setEng 4 { haltedEngine.eng[(4 : Fin 10)] with halted := false, bpSkip := true }).engCycle 4
      none).eng[(4 : Fin 10)].st = .debug ∧
    gatedPe.islandOn 3 = false ∧ ({ live with flt := { live.flt with fenced := 1 } } : State).fenced 0 = true ∧
    debugging.issuer 4 = some false ∧ debugging.breakAt 4 false = some 1 ∧ running.breakAt 4 false = none := by
  decide +kernel

/-! TakeoversRotationsAndRetests. -/

/-- Engine 7 is the spare selected for role 2, its image in bank 5 and its last checkpoint in bank 99; then copied in. -/
def takeoverImage : Image := ⟨1, 5, none, 1, 3, 0, 0, 0, 2, 9, 100, 0, 0⟩
def selecting : State :=
  let s := snapped.setTab (.pec 7) 2 35 0x80000003
  { s with
    eng := (s.eng.set 7 { Engine.reset with st := .active, role := some 2, takeover := .selected true 4, svcOwed := true })
    insts := s.insts.set 2 (some { runningInst with engine := some 7, committed := some 7 }) }
def copied (b : Bool) : State :=
  (selecting.setReg (blkBase (.pec 7)) 1).setEng 7 { selecting.eng[(7 : Fin 10)] with takeover := .copied b 4 }
/-- A rotation of role 2 to engine 7; a fenced engine under its self-test; one to retest. -/
def rotating : State :=
  let s := (idleKernel.setReg fltRotPeriod 1).setEng 4
    { runningEngine with kern := .idle, kCount := none, inCycle := false, flight := [] }
  { s with rotation := some ⟨2, 7⟩ }
def testing (st : EngSt) : State :=
  { live with
    eng := live.eng.set 0 { Engine.reset with st := st }
    flt := { live.flt with fenced := 1, retest := live.flt.retest.set 0 (some 0), recs := live.flt.recs.set 0 ⟨0x01, 2, 4⟩ } }

theorem wit_Takeovers : selecting.storesWf ∧ selecting.dualBank 7 3 = some 99 ∧ selecting.islandOn 10 = true ∧
    (copied true).en (.pec 7) = true ∧ (copied true).inHold (.pec 7) = false ∧ rotating.engineSpares = 2 ∧
    ({ rotating with rotation := none } : State).longestHeld = some 2 ∧ rotating.pickEngine = some 7 ∧
    rotating.eng[(7 : Fin 10)].st = .spare ∧ (testing .test).fenced 0 = true ∧ (testing .fenced).flt.perm.getLsbD 0 = false ∧
    (testing .fenced).flt.retest[(0 : Fin 10)] = some 0 ∧ rotating.flt.rotDue ≤ 300000000000 ∧ live.flt.testing.getLsbD 0 = false := by decide +kernel

/-! TheSupervisorServesInTurn. -/

/-- A request of one OP, ID 7 and argument words waits in box 0 of a device in OWNED with an identity key. -/
def asking (op : Nat) (args : List Word) : State :=
  let s := live.setReg clkWakeCfg 2
  let t := (s.setReg (mbxW 0) (w32 (2 ^ 24 * op + 65536 * 7)))
  let u := args.zipIdx.foldl (fun (t : State) p => t.setReg (mbxW (p.2 + 1)) p.1) t
  { u with
    mbx := { u.mbx with full := 1 }
    sec := { u.sec with lifecycle := 2, ident := ⟨some 5, 0, 0⟩, agree := ⟨some 6, 0, 0⟩ } }

theorem asked_asking : ∀ op ∈ [0x01, 0x02, 0x03, 0x04, 0x05, 0x06, 0x07, 0x10, 0x11, 0x12, 0x13, 0x14, 0x15, 0x16, 0x20,
    0x21, 0x30, 0x3F], Asked 0 op (asking op []) := by
  intro op h
  simp only [List.mem_cons, List.not_mem_nil, or_false] at h
  rcases h with rfl | rfl | rfl | rfl | rfl | rfl | rfl | rfl | rfl | rfl | rfl | rfl | rfl | rfl | rfl | rfl | rfl | rfl <;>
    exact ⟨by decide +kernel, by decide +kernel, by decide +kernel, by decide +kernel, by decide +kernel⟩

theorem wit_ServesInTurn : (asking 0x15 []).storesWf ∧ live.nextBox ≠ some 0 ∧ knownOp 0x3F = false ∧
    (asking 0x20 []).reg clkWakeCfg &&& 3#32 ≠ 0 ∧ ((asking 0x20 []).setReg clkWakeCfg 0).reg clkWakeCfg &&& 3#32 = 0 ∧
    (asking 0x15 []).sec.ident.priv = some 5 ∧ live.sec.ident.priv = none ∧
    ({ asking 0x30 [] with sec := { (asking 0x30 []).sec with romServes := true } } : State).romOnly = true := by
  decide +kernel

/-! ImagesAreLoadedCheckedAndUsed. -/

/-- Images of a personality in bank 5, a sequencer program and firmware; the personality runs as role 2. -/
def holding (op : Nat) (args : List Word) : State :=
  let s := (asking op args).setReg (memBankOwner 5) 2
  { s with
    images := [takeoverImage, { takeoverImage with handle := 2, kind := 2 }, { takeoverImage with handle := 3, kind := 3 }]
    insts := s.insts.set 2 (some { runningInst with period := 4000, tRel := 3900 })
    eng := s.eng.set 4 { runningEngine with kern := .idle, kCount := none } }

/-- A personality package of 16 instructions, with no vendor signature. -/
def packageBytes : List Byte :=
  let h := leBytes 0x4556504B#32 ++ leBytes 0x01000001#32 ++ [1, 1, 0, 0] ++ leBytes 1 ++ leBytes 0 ++ leBytes 500 ++
    [16, 0, 0, 0] ++ leBytes 16 ++ leBytes 4000
  h ++ List.replicate (0x100 - h.length) 0 ++ List.replicate 352 9

theorem wit_Images : packageForm (slice packageBytes 0 256) = true ∧ packageLen (slice packageBytes 0 256) 608 = true ∧
    packageForm (slice (9 :: packageBytes) 0 256) = false ∧ packageLen (slice packageBytes 0 256) 609 = false ∧
    (asking 0x01 []).freeBanks.length = 96 ∧ (holding 0x05 [1]).storesWf ∧
    (holding 0x05 [1]).imageUsed 1 = true ∧ (holding 0x05 [2]).imageUsed 2 = false ∧ (holding 0x05 [2]).owner 5 = 2 ∧
    (holding 0x06 [2, 0]).islandOn 17 = true ∧ (holding 0x06 [2, 0]).fenced 27 = false ∧
    budgetOk 100 4000 0 3900 = true ∧ budgetOk 2000 4000 0 3900 = false ∧ (asking 0x01 []).mem.window.isNone = true ∧
    (holding 0x02 [2, 1]).imageOf 1 = some takeoverImage := by decide +kernel

theorem asked_holding : Asked 0 0x05 (holding 0x05 [2]) ∧ Asked 0 0x06 (holding 0x06 [2]) ∧ Asked 0 0x02 (holding 0x02 [2, 1]) :=
  ⟨⟨by decide +kernel, by decide +kernel, by decide +kernel, by decide +kernel, by decide +kernel⟩,
    ⟨by decide +kernel, by decide +kernel, by decide +kernel, by decide +kernel, by decide +kernel⟩,
    ⟨by decide +kernel, by decide +kernel, by decide +kernel, by decide +kernel, by decide +kernel⟩⟩

/-! InstancesAreAdmittedAndUnbound. -/

/-- A request to admit image 1 as role 3 with period 4,000 on engines 6 to 8, spare. -/
def admitting (args : List Word) : State :=
  let s := ((((holding 0x03 args).setReg (blkBase .ttc) 1).setTab (.pec 6) 2 35 0x80000004))
  { s with
    hold := 0
    images := [{ takeoverImage with w := 500, minCycle := 2000 }]
    eng := ((s.eng.set 6 { Engine.reset with st := .spare }).set 7 { Engine.reset with st := .spare }).set 8
      { Engine.reset with st := .spare } }

theorem asked_admitting : Asked 0 0x03 (admitting [0x03010000, 4000, 0, 3900, 1, 9]) ∧ Asked 0 0x04 (holding 0x04 [2]) :=
  ⟨⟨by decide +kernel, by decide +kernel, by decide +kernel, by decide +kernel, by decide +kernel⟩,
    ⟨by decide +kernel, by decide +kernel, by decide +kernel, by decide +kernel, by decide +kernel⟩⟩

theorem wit_Admission :
    let s := admitting [0x03010000, 4000, 0, 3900, 1, 9]
    let why := fun a g => (admitting a).admitReason { takeoverImage with w := g, minCycle := 2000 } ((admitting a).admitReq 0)
    s.storesWf ∧ s.freeEngine = some 6 ∧ s.engineSpares = 3 ∧ (s.dualBank 6 3).isSome = true ∧ s.en .ttc = true ∧
    why [0x03010000, 4000, 0, 3900, 1, 9] 500 = 0 ∧ why [0x03010000, 1999, 0, 1900, 1, 9] 100 = 1 ∧
    why [0x03010000, 4000, 0, 3900, 0x10F, 9] 500 = 2 ∧ why [0x03010000, 4000, 0, 3900, 1, 9] 2000 = 5 ∧
    ((admitting [0x03010000, 4000, 0, 3900, 1, 9]).setTab (.pec 6) 2 35 0).dualBank 6 3 = none ∧
    (holding 0x03 []).freeEngine = none ∧ (holding 0x04 [2]).insts[(2 : Fin 10)].isSome = true := by decide +kernel

/-! OwnerKeysAndTokens. -/

/-- A token of one OP for the device, with argument bytes; the request to deliver it; a device with its nonce and its
slot's key, for a signature that verifies. -/
def tokenBytes (op : Byte) (args : List Byte) : List Byte :=
  let h := leBytes 0x4556544B#32 ++ [op, 0, 0, 0] ++ List.replicate 8 0 ++ List.replicate 32 7 ++ args
  h ++ List.replicate (336 - h.length) 0
def delivering : State :=
  let s := asking 0x13 []
  { s with sec := { s.sec with
      nonces := Vector.replicate 4 (some (List.replicate 32 7))
      slots := Vector.replicate 4 ⟨5, true, false, some (1, 2)⟩ } }

/-- A token in its form is valid exactly if its signature verifies under its slot's key. -/
theorem tokenValid_of_form {s : State} {path : Fin 4} {t : List Byte} {k : BitVec 384 × BitVec 384}
    (magic : le32At t 0 = 0x4556544B#32) (device : slice t 8 8 = toBe 8 s.sec.eui.toNat)
    (nonce : s.sec.nonces[path] = some (slice t 0x10 32))
    (key : (s.sec.slots.toList[(byteAt t 5).toNat]?).bind (·.key) = some k) :
    s.tokenValid path t = ecdsaVerify k (sha384 (slice t 0 0xF0)) (sigOf t 0xF0) := by
  obtain ⟨o, ho, hk⟩ := Option.bind_eq_some_iff.mp key
  simp [State.tokenValid, magic, device, nonce, ho, hk]

theorem wit_TokenValid (op : Byte) (args : List Byte) (h : (op, args) ∈ [(1, [3]), (2, [1]), (3, [4, 9]), (4, []), (5, [2, 8]),
      (7, [2])]) :
    delivering.tokenValid 0 (tokenBytes op args) = ecdsaVerify (1, 2)
      (sha384 (slice (tokenBytes op args) 0 0xF0)) (sigOf (tokenBytes op args) 0xF0) := by
  simp only [List.mem_cons, List.not_mem_nil, or_false, Prod.mk.injEq] at h
  rcases h with ⟨rfl, rfl⟩ | ⟨rfl, rfl⟩ | ⟨rfl, rfl⟩ | ⟨rfl, rfl⟩ | ⟨rfl, rfl⟩ | ⟨rfl, rfl⟩ <;>
    exact tokenValid_of_form (by decide +kernel) (by decide +kernel) (by decide +kernel) (by decide +kernel)

/-- The token of OP 4 with a signature, its digest, and the key under which that signature verifies. -/
def tokenDigest : BitVec 384 :=
  0xf0ed1f06dc8c46f9d3ed9eae977831a71863922c0b209af8f9e9d8e5dea5fec7a0f30defe5637535f65ad87b7355a883
def tokenKey : BitVec 384 × BitVec 384 :=
  (0xb9426f708f646d2608c3b810d7c04cb67afb70dfeb1fe00b55e022e97bff6e58bc56ece5899834257543752f533947c6,
    0x89196306b9938f297d2ddda3707be30dea47cc81b364f64189c4e0f61743d78bb46c6aabb06cb48e280d250c23b3fa40)
def signedToken : List Byte :=
  (tokenBytes 4 []).take 0xF0 ++ toBe 48 tokenDigest.toNat ++ toBe 48 tokenDigest.toNat
def deliveringSigned : State :=
  { delivering with sec := { delivering.sec with slots := Vector.replicate 4 ⟨5, true, false, some tokenKey⟩ } }
theorem tokenDigest_eq : sha384 (slice signedToken 0 0xF0) = tokenDigest := by decide +kernel
theorem tokenSignature_verifies : ecdsaVerify tokenKey tokenDigest (sigOf signedToken 0xF0) = true := by decide +kernel
theorem wit_SignedToken : deliveringSigned.tokenValid 0 signedToken = true := by
  rw [tokenValid_of_form (k := tokenKey) (by decide +kernel) (by decide +kernel) (by decide +kernel) (by decide +kernel),
    tokenDigest_eq, tokenSignature_verifies]

theorem wit_OwnerTokens : delivering.storesWf ∧ delivering.nextBox = some 0 ∧ delivering.reqOp 0 = 0x13 ∧
    (tokenBytes 1 [3]).length = 336 ∧ tokOp (tokenBytes 3 [4, 9]) = 3 ∧ delivering.sec.nonces[(0 : Fin 4)].isSome = true ∧
    delivering.tokenValid 0 (tokenBytes 1 [3] |>.set 8 1) = false ∧ (asking 0x14 []).sec.lifecycle ≠ lcUnowned ∧
    delivering.ringSetHeld 0 false = false ∧ delivering.sec.agree.priv = some 6 ∧ delivering.sec.tap = .functional := by
  decide +kernel

theorem asked_delivering : Asked 0 0x13 delivering :=
  ⟨by decide +kernel, by decide +kernel, by decide +kernel, by decide +kernel, by decide +kernel⟩

/-! TapInstructionsAndTamper. -/

theorem wit_Tap :
    let d3 := live.setReg glbLifecycle 0x300
    let owned := { d3.setReg glbLifecycle 0x100 with sec := { live.sec with lifecycle := 2, dbgTok := some 3, armed := true } }
    live.storesWf ∧ live.sec.tap = .functional ∧ live.power = .run ∧ d3.dbgLevel = 3 ∧ d3.sec.lifecycle = lcManufacture ∧
    owned.dbgLevel = 1 ∧ owned.dbgMayOpen 3 = true ∧ owned.dbgMayOpen 2 = false ∧ live.dbgMayOpen 1 = true ∧
    owned.sec.armed = true ∧ asleep.power = .p2 ∧ State.reset.power = .held := by
  decide +kernel

/-! DebugAccessAndMka. -/

/-- Level D3; port 0 runs MKA. -/
def probing : State := live.setReg glbLifecycle 0x300
def keyed : State :=
  let s := live.setReg (ethMsecCfg 0) 1
  { s with sec := { s.sec with caks := s.sec.caks.set 0 (some ⟨3, [1]⟩) } }

theorem wit_DebugAccess : probing.storesWf ∧ probing.dbgLevel = 3 ∧ supArea 0x1007FFFC = .ram 0x7FFFC ∧
    supArea 0x20040000 = .retention 0 ∧ supArea 0x1FFFC = .rom 0x1FFFC ∧ supArea 0x20000 = .none ∧
    supArea 0x40000054 = .regs 0x54 ∧ supArea 0x2002FFFC = .priv ∧ probing.access .jtag false 0x3FFFFC = .err stBusError ∧
    (match probing.access .jtag false 0x54 with | .ok _ p r => some (p, r.kind) | _ => none) = some (0x54, .rw) ∧
    keyed.mkaRuns 0 = true ∧ live.mkaRuns 0 = false ∧ keyed.saHasKey 0 0 = false := by
  decide +kernel

/-! LinksPauseFramesAndMdio. -/

/-- P1 in SGMII with auto-negotiation, up at 1 Gb/s with a frame of its queue in transmission; P0's MDIO busy with a
Clause 45 read and a GO waiting. -/
def linked : State :=
  let s := (((live.setHold (.eth 1) false).setReg (blkBase (.eth 1)) 1).setReg (ethMode 1) 0x101).setReg (ethPfcCfg 1) 1
  let s := s.setEth 1 { s.eth[1] with up := true, speed := 2, xoff := 1, tx := some ⟨[1, 2], 0, 3, 1, 0, true, false, 0⟩ }
  s.setEth 0 { s.eth[0] with mdio := ⟨true, true, 0x38000000⟩ }
def unlinked : State :=
  let s := ((linked.setReg (ethPfcXoff 1 0) 1).setReg (ethPfcLimit 1 0) 9).setReg (ethPfcXon 1 0) 0
  let u := s.setEth 1 { s.eth[1] with up := false, tx := none }
  { u with swc := { u.swc with stored := [⟨0, ⟨[1], none, false, ⟨.none, 0, 0, none, none, none⟩, .wire⟩, 1, ⟨0, 0, false⟩, .data, 0,
    false, 0, 2, 0, none, 0, false, 0, false⟩] } }

theorem wit_Links : linked.storesWf ∧ unlinked.storesWf ∧ unlinked.en (.eth 1) = true ∧ unlinked.ethModeOf 1 = 1 ∧
    unlinked.portGated 1 = false ∧ unlinked.fenced 11 = false ∧ unlinked.pfcUse 1 0 = 2 ∧
    (unlinked.pfcTxEn 1 0 && !unlinked.pfcBadOf 1 0 && !unlinked.ringHolds 1) = true ∧ linked.eth[(1 : Fin 8)].up = true ∧
    Open linked .exp true (ethMdioCmd 1) ∧ linked.badHead = none ∧ linked.eth[(0 : Fin 8)].mdio.goWait = true := by
  decide +kernel

/-! FramesAreCheckedInOrder. -/

/-- A frame of 64 bytes with its FCS, EtherType et. -/
def goodFrame (et : List Byte) : List Byte :=
  let b := List.replicate 12 2 ++ et ++ List.replicate 46 0
  b ++ fcsBytes b

theorem wit_FrameReceive : linked.portRuns 1 = true ∧ linked.swcTakes = false ∧
    ((linked.setReg (blkBase .swc) 1).setHold .swc false).swcTakes = true ∧ bitOf (linked.reg (swcPPmacCfg 1)) 0 = false ∧ linked.inHold (.eth 1) = false ∧ linked.msecEn 1 = false ∧
    fieldOf (linked.reg (ethMaxlen 1)) 0 14 = 1522 ∧ (goodFrame [0x08, 0x00]).length = 64 ∧
    be16At (goodFrame [0x08, 0x00]) 12 ≠ 0x8808 ∧ bitOf (linked.reg (ethFilt 1)) 0 = false ∧
    bitOf ((linked.setReg (ethFilt 1) 1).reg (ethFilt 1)) 0 = true := by
  decide +kernel
theorem wit_FrameFcs : (goodFrame [0x08, 0x00]).drop 60 = fcsBytes ((goodFrame [0x08, 0x00]).take 60) := by decide +kernel

/-! MacControlFramesAreConsumed. -/

theorem wit_MacControl : linked.storesWf ∧ linked.portRuns 1 = true ∧ linked.inHold (.eth 1) = false ∧
    be16At (goodFrame [0x88, 0x08, 0x01, 0x01]) 14 = 0x0101 ∧ be16At (goodFrame [0x88, 0x08]) 14 ≠ 0x0101 ∧
    linked.ringHolds 1 = false ∧ (goodFrame [0x88, 0x08]).drop 60 = fcsBytes ((goodFrame [0x88, 0x08]).take 60) := by
  decide +kernel

/-! GatesAgingBufferErrorsAndDies. -/

/-- P3's list at entry 0 of 2, its next holding the MAC, a frame in transmission that holds cells of die 1;
two dynamic addresses learnt, one without HIT; aging and a die limit of 0 with one error. -/
def switching : State :=
  let s := ((live.setReg (swcPGateCtrl 3) 1).setReg (swcPGateOplen 3) 2).setReg (swcPPmacCfg 3) 3
  let s := ((s.setTab .swc 4 3074 0x1AA).setTab .swc 5 98 0x20).setTab .swc 4 3072 0xFF
  let s := (((s.setTab .swc 0 8 0xA0000001).setTab .swc 0 12 0x80000002).setReg swcAgeTime 300).setReg bfmDieUeLimit 0
  let s := s.setEth 3 { s.eth[3] with tx := some ⟨[1], 4, 5, 1, 0, true, false, 0⟩ }
  let f : Stored := ⟨4, ⟨[1], none, false, ⟨.none, 0, 0, none, none, none⟩, .wire⟩, 1, ⟨0, 0, false⟩, .be, 0, false, 0, 0, 2, none, 0, false, 0, false⟩
  { s with swc := { s.swc with
      gates := vset s.swc.gates 3 ⟨false, true, 0, 0, false, false, false, false⟩, stored := [f], ue1 := [0]
      queues := [⟨4, 3, 5, 1, false, false, 0, []⟩] } }

theorem wit_Gates : switching.storesWf ∧
    switching.gateEn 3 = true ∧ switching.swc.gates[(3 : Fin 8)].started = true ∧
    fieldOf (switching.reg (swcPGateOplen 3)) 0 9 = 2 ∧
    fieldOf (switching.tab .swc 4 ((256 * 6 + 1) * 2)) 8 2 = 1 ∧ (∀ f ∈ switching.swc.stored, f.bad = false) ∧ switching.badHead = none ∧
    Open switching .h1 true (swcPGateCtrl 3) ∧ Open switching .sup true bfmCmd ∧
    fieldOf (switching.reg swcAgeTime) 0 16 ≠ 0 ∧ switching.retired 0 = false ∧ InService 22 switching ∧
    fieldOf (switching.reg bfmDieUeLimit) 0 8 < 1 := by
  unfold InService
  decide +kernel

/-! FramesAreClassifiedAndAdmitted. -/

/-- A frame of 60 bytes at LP1, untagged, whose VLAN 5 has LP1, LP2 and LP3 as members and learns, and floods to LP2. -/
def arriving (pvid : Word) : State :=
  let s := (live.setReg (blkBase .swc) 1).setTab .swc 5 32 pvid
  let s := ((s.setTab .swc 1 20 0xC0000000).setTab .swc 1 21 0xE).setReg swcFlood 4
  let s := s.setTabs .swc 5 64 ((List.range 32).map fun _ => (0 : Word))
  let s := s.setTabs .swc 5 68 ((List.replicate 8 0x1000) ++ List.replicate 8 0x1000)
  let s := s.setEth 2 { s.eth[2] with up := true }
  let f : Frame := ⟨(goodFrame [0x08, 0x00]).take 60, none, false, ⟨.none, 0, 0, none, none, none⟩, .wire⟩
  { s with swc := { s.swc with ingress := [⟨1, f, true⟩] } }
/-- The same in stream 9 with MAX_SDU 20. -/
def streaming : State :=
  (arriving 5).setTabs .swc 2 72 [0x80000005, 0x02020202, 0x00140202]

theorem wit_Classify : (arriving 5).storesWf ∧ (takeIngress 1 false (arriving 5).swc.ingress).isSome = true ∧
    (arriving 5).egressDown 2 = false ∧ takeIngress 2 true (arriving 5).swc.ingress = none ∧ (arriving 5).fenced 20 = false ∧
    (arriving 5).isTpid 0x0800 = false ∧ bitOf ((arriving 0x4005).lpWord 1 0) 14 = true ∧
    bitOf ((arriving 6).tab .swc 1 24) 31 = false ∧ bitOf ((arriving 5).tab .swc 1 21) 1 = true ∧
    reservedDa (goodFrame [0x08, 0x00] |>.take 6) = false ∧ (arriving 5).eth[(2 : Fin 8)].up = true ∧
    bitOf ((arriving 5).lpWord 1 0) 15 = false ∧ bitOf ((arriving 0x8005).lpWord 1 0) 15 = true ∧
    unitsOf 64 + (arriving 5).halved (fieldOf ((arriving 5).reg bfmBeFloor) 0 19) ≤ (arriving 5).ipbFree := by
  decide +kernel
theorem wit_ClassifyStream : streaming.streamMatches 9 ((goodFrame [0x08, 0x00]).take 60) 5 = true ∧
    (arriving 5).streamMatches 9 ((goodFrame [0x08, 0x00]).take 60) 5 = false ∧
    fieldOf (streaming.tab .swc 2 74) 16 14 = 20 ∧ bitOf (streaming.tab .swc 2 72) 22 = false := by decide +kernel

/-! FramesLeaveAtFrameBoundaries. -/

/-- P2 up; a best-effort frame waits for it in queue 3, and one of the send's frames before it. -/
def queued (bad : Bool) (tx : Option TxNow) (seg : Option SegInfo) (mode : StampMode) : State :=
  let s := ((live.setHold (.eth 2) false).setReg (blkBase (.eth 2)) 1).setTab .swc 1 22 4
  let s := s.setEth 2 { s.eth[2] with up := true, speed := 2, tx := tx }
  let f : Frame := ⟨(goodFrame [0x08, 0x00]).take 60, none, false, ⟨mode, 0, 7, seg, none, none⟩, .wire⟩
  { s with swc := { s.swc with
      stored := [⟨0, f, 1, ⟨0, 0, false⟩, .be, 3, false, 0, 1, 0, none, 5, false, 0, bad⟩]
      queues := [⟨0, 2, 3, 1, false, false, if seg.isSome then 1 else 0, []⟩] } }
def sentNow : TxNow := ⟨List.replicate 120 1, 0, 3, 1, 0, true, false, 0⟩

theorem wit_Transmit : (queued false none none .none).storesWf ∧ (queued false none none .none).macRuns 2 = true ∧
    (queued false none none .none).eligible 2 3 = true ∧ (queued true none none .none).eligible 2 3 = true ∧
    (queued false none (some ⟨14, 64, none, 0, 0, false, false, 0⟩) .none).eligible 2 3 = true ∧
    (queued false none none .twoStep).eligible 2 7 = false ∧ (queued false none none .none).ethQuiet 2 = true ∧ (queued false (some sentNow) none .none).shadowPort 2 = false ∧
    (queued false (some sentNow) none .none).eth[(2 : Fin 8)].tx = some sentNow := by
  decide +kernel
def preempting : State :=
  let s := ((queued false (some { sentNow with fid := 9, tc := 1 }) none .none).setReg (swcPPmacCfg 2) 3).setTab .swc 5 66 2
  s
theorem wit_Preempt : preempting.storesWf ∧ preempting.pmacActive 2 = true ∧ preempting.preemptable 2 1 = true ∧
    preempting.preemptable 2 3 = false ∧ divides sentNow = true ∧ preempting.eligible 2 3 = true ∧ preempting.eth[(2 : Fin 8)].pre = none := by
  decide +kernel

/-! ClaimsBeaconsAndTheReturnToTheRing. -/

/-- A node of ring 0 on P0 and P1, with PORT_S P2 in a dual-plane cell, master-capable, as node 5; a hub with UPLINK P3. -/
def node (nst : NState) (stn : StnState) : State :=
  let s := ((live.setReg (blkBase .nrg) 1).setReg (nrgRingCfg 0) 0xE0120500).setReg (nrgRingPeriod 0) 1000000
  let s := ((s.setHold .nrg false).setReg (nrgRingClaim 0) 7).setReg glbEui64Lo 9
  { s with ring := vset s.ring 0 { RingState.reset with nst := nst, stn := stn, slotEnd := 900000 } }
def hubNode : State := ((node .member .active).setReg nrgHubCfg 0x80300300).setTab .nrg 3 16 0x80000001
def claimBytes (prio eui : Byte) : List Byte :=
  (List.replicate 17 0 ++ [prio] ++ List.replicate 7 0 ++ [eui] ++ toBe 4 1000000 ++ toBe 4 ((node .claiming .active).cfgHash 0).toNat ++
    List.replicate 26 0)

theorem wit_Claims : (node .listen .sync).storesWf ∧ NodePort (node .claiming .active) 0 1 ∧
    HubPort hubNode 0 3 ∧ hubNode.leaves = [4] ∧ (node .listen .sync).inHold .nrg = false ∧ (node .listen .sync).shadowed = false ∧
    hubNode.ringRuns 0 = true ∧
    (node .member .sync).masterCap 0 = true ∧ Open (node .benchmark .active) .h0 true (nrgRingCmd 0) ∧
    (node .listen .sync).portS 0 = 2 ∧ (node .listen .sync).dualPlane 0 = true ∧ (node .listen .sync).eui64 = 9 ∧
    outPort (node .listen .sync) 0 0 = 1 ∧ outPort (node .listen .sync) 0 2 = 2 := by
  unfold NodePort HubPort
  decide +kernel
theorem wit_ClaimBytes : be32At (claimBytes 3 4) 26 = 1000000 ∧ beNat (slice (claimBytes 3 4) 18 8) = 4 ∧
    (claimBytes 3 4).length = 60 ∧ be32At (claimBytes 3 4) 30 = ((node .claiming .active).cfgHash 0).toNat := by
  decide +kernel

/-! LossOfSignalStanchionAndEnvelopes. -/

/-- A pass that left P1 and came from P0; an envelope in transmission after two cuts; a frame queued at P0. -/
def passSent : PassSent := ⟨1, 0, List.replicate 64 0, 0, List.replicate 40 7, true, 16, true, 0, 200000⟩
def losing (env : Option EnvNow) : State :=
  let s := node .benchmark .active
  { s with
    clk := { s.clk with tick := 100 }
    ring := vset s.ring 0 { s.ring[0] with sent := [passSent], env := env, cuts := [0, 0], frags := [⟨0, [1], true⟩] } }
def enveloping : State :=
  let s := (node .member .active).setReg (blkBase (.eth 0)) 1
  let s := (s.setHold (.eth 0) false).setEth 0 { s.eth[0] with up := true, speed := 2 }
  let f : Frame := ⟨(goodFrame [0x08, 0x00]).take 60, none, false, ⟨.none, 0, 0, none, none, none⟩, .wire⟩
  { s with swc := { s.swc with
      stored := [⟨0, f, 1, ⟨0, 0, false⟩, .be, 3, false, 0, 1, 0, none, 5, false, 0, false⟩]
      queues := [⟨0, 0, 3, 1, false, false, 0, []⟩] } }

theorem wit_Stanchion : (losing none).storesWf ∧
    (losing none).ringRuns 0 = true ∧ 1 ∈ (losing none).ringPorts 0 ∧ NodePort (losing none) 0 1 ∧ HubPort hubNode 0 4 ∧
    passSent.hdr.length = 64 ∧ (losing (some ⟨[(0, [1, 2])], 0, 0⟩)).ring[(0 : Fin 2)].stn = .active ∧
    hubNode.isHub 0 = true ∧ (4 : Fin 8) ∈ hubNode.leaves ∧ (losing none).envHead 0 = none := by
  unfold NodePort HubPort
  decide +kernel
theorem wit_Envelopes : (enveloping.envHead 0).isSome = true ∧ enveloping.inHold .nrg = false ∧
    enveloping.ring[(0 : Fin 2)].slotStart ≤ enveloping.ringPhase 0 ∧
    1000 * enveloping.ringPhase 0 + (64 + 44 + 8) * enveloping.bytePs 0 ≤ 1000 * enveloping.ring[(0 : Fin 2)].slotEnd ∧
    enveloping.ringRuns 0 = true ∧ enveloping.ring[(0 : Fin 2)].stn = .active := by decide +kernel

/-! CycleBoundariesAndPasses. -/

/-- The node of ring 0 without PORT_S, and a pass of ring 0 with two area words; a Benchmark node with one window. -/
def ringed (nst : NState) : State :=
  let s := (node nst .active).setReg (nrgRingCfg 0) 0xC0100500
  s
def passBytes : List Byte :=
  List.replicate 14 1 ++ [0x11, 0, 0, 5] ++ toBe 4 7 ++ List.replicate 26 0 ++ toBe 2 20 ++ List.replicate 14 0 ++
    [0x87, 1, 2, 3] ++ List.replicate 32 0
def reading (gate : Bool) : State :=
  let s := ((ringed .member).setTab .nrg 0 0 0xC0000040).setTab .nrg 0 1 3
  let s := (s.setTab (.pec 4) 3 0 0x80000000).setTab (.pec 4) 3 2 0x100
  { s with
    eng := vset s.eng 4 { Engine.reset with role := some 2, fwuOn := 1 }
    insts := vset s.insts 2 (some { runningInst with engine := some 4, gate := gate, stopped := false }) }
def placing : State :=
  let s := ringed .member
  { s with ring := vset s.ring 0 { s.ring[0] with recs := [⟨1, 64, 3⟩], snaps := some [⟨1, 2, List.replicate 12 9⟩] } }

def hubbed : State := ((ringed .member).setReg nrgHubCfg 0x80010100).setTab .nrg 3 0 0x80000000

theorem wit_RingCycle : (ringed .member).storesWf ∧ (ringed .benchmark).dualPlane 0 = false ∧
    NodePort (ringed .member) 0 0 ∧ (ringed .benchmark).boundaryDue 0 = true ∧ (ringed .member).boundaryDue 0 = true ∧
    (ringed .member).shadowed = false ∧ (ringed .member).ring[(0 : Fin 2)].pair = false ∧ HubPort hubbed 0 1 ∧
    hubbed.uplink = 1 ∧ (ringed .member).isPass 0 passBytes = true ∧
    passBytes.length = 80 + be16At passBytes 48 ∧ (ringed .member).isPass 0 (passBytes.drop 1) = false ∧
    placing.ring[(0 : Fin 2)].recs = [⟨1, 64, 3⟩] ∧ be16At passBytes 48 = 20 ∧ (ringed .member).inHold .nrg = false := by
  unfold NodePort HubPort
  decide +kernel
theorem wit_RingReads : (reading true).ringWins 0 = [⟨0, true, 0, 64, 3⟩] ∧ (reading true).winEntries 0 false 0 = [(2, 4, 0)] ∧
    (reading true).espTarget 4 ((reading true).fwuStage 4 0) = .dmem 0x100 ∧ (reading true).gateOpen 2 = true ∧
    (reading false).gateOpen 2 = false ∧ (reading true).routeKeys = [] ∧ (byteAt (slice passBytes 64 12) 0).getLsbD 7 = true := by
  decide +kernel

/-! CanReceptionErrorsAndGateway. -/

/-- Channel 1 on the bus, object 3 of identifier 0x123 with GW; a commit of its buffer 9 at LP20. -/
def canOn (gw : Bool) : State :=
  let s := ((live.setReg (blkBase (.can 1)) 1).setReg (canNbt 1) 0x003E0F0F).setHold (.can 1) false
  let s := (s.setTab .swc 1 22 0x100000).setTab (.can 1) 0 72 (0x80000123 + if gw then 0x20000000 else 0)
  let s := s.setCan 1 { s.can[1] with integ := true, rxErr := 3, txErr := 250, events := [(1, 2)] }
  let f : Frame := ⟨List.replicate 14 0 ++ [0x12, 1, 0, 9, 0, 0, 1, 0x23, 2, 0x80] ++ List.replicate 16 0 ++ [7, 8], none, false,
    ⟨.none, 0, 0, none, none, none⟩, .wire⟩
  { (s.setReg (canGwEtype 1) 0) with swc := { s.swc with
      stored := [⟨0, f, 1, ⟨0, 0, false⟩, .be, 3, false, 0, 1, 0, none, 5, false, 0, false⟩], queues := [⟨0, 20, 3, 1, false, false, 0, []⟩] } }
def canFrame : CanFrame := ⟨false, false, false, false, false, 0x123, 2, [5, 6]⟩

theorem wit_CanRx : (canOn true).storesWf ∧ (canOn true).en (.can 1) = true ∧ (canOn true).canRole 1 ≠ 1 ∧
    objMatches ((canOn true).tab (.can 1) 0 72) false 0x123 = true ∧ objMatches ((canOn true).tab (.can 1) 0 0) false 0x123 = false ∧
    (canOn true).gwWaiting 1 < 8 ∧ (canOn true).routeKeys = [] ∧ ((canOn true).lpHead 20).isSome = true ∧
    (canOn true).swc.stored.all (fun f => !f.bad && (canOn true).gwTakes 1 ((canOn true).gatewayBytes ⟨0, 20, 3, 1, false, false, 0, []⟩ f)) = true ∧
    Open (canOn true) .h0 false (canTxevW0 1) ∧ (canOn true).canReceives 1 9 = true := by
  decide +kernel
theorem wit_CanOn : (canOn true).canOnBus 1 = true := by decide +kernel

/-! CanTimeTriggeredAttempts. -/

/-- A channel in a role with its cycle running, column 4 enabled with a ready buffer 9, attempts that wait and one in
transmission. -/
def canTt (role : Word) (ready : Bool) (sync : Bool) (tries : List CanTry) (sending : Option CanTry) : State :=
  let s := ((canOn false).setReg (canCfg 1) (0x80000003 + 16777216 * role)).setReg (canTtPeriod 1) 1000000
  let s := ((s.setTab (.can 1) 3 4 0).setTab (.can 1) 3 5 500000).setTab (.can 1) 2 4 0x80000009
  let s := s.setTab (.can 1) 1 181 (if ready then 0x108 else 8)
  s.setCan 1 { s.can[1] with sync := sync, tries := tries, sending := sending }
def canTry (closes : Nat) : CanTry := ⟨some 9, some 4, 0, true, [0x60000000], 0, closes⟩

theorem wit_CanTt : (canTt 2 true true [canTry 0] none).storesWf ∧ (canTt 2 true false [] none).canCycleDue 1 = true ∧
    (canTt 1 true true [] none).canRole 1 = 1 ∧ (canTt 2 true true [] none).markDue 1 4 = true ∧
    (canTt 2 true true [] none).markDue 1 5 = false ∧ (canTt 2 true true [] none).canCycleDue 1 = false ∧
    (canTt 2 true true [] none).fenced 24 = false ∧ (canTry 0).closes ≤ (canTt 2 true true [canTry 0] none).nsOf 0 ∧
    (canTt 2 true true [] (some (canTry 9))).canEnds 1 (canTry 9) .ok 0 = true ∧
    bitOf ((canTt 2 true true [] none).tab (.can 1) 2 4) 31 = true ∧ bitOf ((canTt 2 true true [] none).tab (.can 1) 1 181) 8 = true ∧
    bitOf ((canTt 2 false true [] none).tab (.can 1) 1 181) 8 = false ∧
    bitOf ((canTt 2 true true [] none).reg (canCfg 1)) 29 = false := by
  decide +kernel

/-! SequencerInstructions. -/

/-- Channel 33 runs, pins 0 and 1 mapped to MFP1 and MFP2, a word in its TX queue, an event held. -/
def sequencing (st : ChanSt) : State :=
  let s := ((live.setReg (blkBase .psq) 1).setHold .psq false).setReg (psqChPinmap0 33) 0x00008281
  let s := s.setReg (psqMfp 1) 0x10002100
  s.setCh 33 { s.psq.ch[33] with st := st, txq := [5], ev := some 0 }

theorem wit_Sequencing : (sequencing .running).storesWf ∧ (sequencing .running).psqRuns 33 = true ∧
    (sequencing .running).psq.swap = 0 ∧ (sequencing .running).pinValid 33 0 = true ∧
    (sequencing .running).pinOwned 33 0 = true ∧ (sequencing .running).pinOwned 33 1 = false ∧
    (sequencing .running).pinValid 33 2 = false ∧ (sequencing .running).txCap 33 = 4 ∧ (sequencing .running).rxCap 33 = 4 ∧
    ((sequencing .running).setReg (psqChCfg 33) 0x20000000).txCap 33 = 0 ∧
    ((sequencing .running).setReg (psqChCfg 33) 0x10000000).rxCap 33 = 0 ∧
    (sequencing .running).ticksToStamp 0 = some 0 ∧ (sequencing .running).ticksToStamp 1000 = some 500 := by
  decide +kernel

/-! SequencerHoldsShiftsQueuesAndBanks. -/

/-- Channel 33 holding for a tick; shifting out and in; its program PINS 1; moving to the other bank. -/
def holding_ (k : Nat) : State :=
  let s := (sequencing .waitAt).setTab .psq 0x42 0 0x10010000
  let s := s.setCh 33 { s.psq.ch[33] with holdFor := some k }
  { s with psq := { s.psq with events := [(33, 5)], swap := 0 } }
def shifting_ (out : Bool) (left : Nat) : State :=
  let s := sequencing .shifting
  s.setCh 33 { s.psq.ch[33] with
    shift := some ⟨⟨out, !out, 0, 1, 1, false, false, true, false, 8⟩, left, 0, [], 0, none⟩, osr := 0xA5000000, osrBits := 8, txq := [] }
def moving_ : State :=
  let s := sequencing .running
  let t := s.setCh 33 { s.psq.ch[33] with moving := true }
  { t with psq := { t.psq with swap := 2 } }

theorem wit_SequencerHolds : (holding_ 30).storesWf ∧ (holding_ 30).psqRuns 33 = true ∧ (holding_ 30).holdOver 33 = true ∧
    (holding_ 30).holdLeft 33 = some 30 ∧ (holding_ 3).holdOver 33 = true ∧ (holding_ 30).psqFetch 33 = .pins 1 0 0 ∧
    (holding_ 30).inHold .psq = false ∧ (shifting_ true 8).psq.ch[(33 : Fin 64)].st = .shifting ∧
    (shifting_ true 8).fenced 28 = false ∧ Open (holding_ 3) .sup true (psqChTxq 33) ∧
    Open (holding_ 3) .sup false (psqChRxq 33) ∧ Open (holding_ 3) .h0 true (psqChCtrl 33) ∧
    Open (holding_ 3) .sup true psqCmd ∧ (∀ e < 2, (holding_ 3).fenced (27 + e) = false) ∧
    (let s := { live with flt := { live.flt with fenced := 1 <<< 28 } }
     Open s .sup true psqCmd ∧ s.fenced 28 = true) ∧ moving_.psqRuns 33 = true ∧ moving_.psq.swap.getLsbD 1 = true := by
  decide +kernel

/-! IndexWritesOnDoorbells. -/

/-- The host interface on, link H0 up at 2.5 GT/s x4, and context 7 as given: rings of 16 at 0x10000, 0x20000, 0x30000,
vectors masked. -/
def hostOn (st : Nat) (x : HostCtx) : State :=
  let s := ((live.setHold .hif false).setReg (blkBase .hif) 1).setReg hifLinkStatus 0x94
  let s := s.setTabs .hif 0 112 [0x404, 4, 0x10000, 0, 0x20000, 0, 0x30000, 0, 0, w32 st, 0, 0x10000]
  s.setHctx 7 x

theorem wit_IndexWrites : (hostOn 1 { HostCtx.reset with txPi := 3 }).storesWf ∧
    (hostOn 1 HostCtx.reset).linkUp false = true ∧ (hostOn 1 HostCtx.reset).shadowed = false ∧
    (hostOn 1 HostCtx.reset).ctxState 7 = 1 ∧ (hostOn 1 HostCtx.reset).txSize 7 = 16 ∧
    (hostOn 1 HostCtx.reset).rxSize 7 = 16 ∧ (hostOn 1 HostCtx.reset).cqSize 7 = 16 ∧
    (hostOn 1 HostCtx.reset).ctxLink 7 = false ∧ (hostOn 2 HostCtx.reset).ctxState 7 = 2 ∧
    ((3 % 16 + 16 - 0) % 16 ≤ (15 % 16 + 16 - 0) % 16) ∧ ¬ ((3 % 16 + 16 - 0) % 16 ≤ (2 % 16 + 16 - 0) % 16) := by
  decide +kernel

/-! ContextsEnableDrainAndAbort. -/

/-- A TX descriptor in each of its phases, an RX descriptor, a full completion ring. -/
def txAt (i : Nat) (ph : TxPhase) : TxDesc := ⟨i, [0x10000005, 60, 0x5000, 0, 0, 0, 0, 0xC0], ph, 0, []⟩
def rxAt (i : Nat) (e : Option Byte) : RxDesc := ⟨i, [0x20000000, 2048, 0x6000, 0, 0, 0, 0, 0xD0], e⟩
def fullRing (x : HostCtx) : State := hostOn 1 { x with cqCi := 1 }

theorem wit_Contexts : let s := hostOn 1 { HostCtx.reset with txPi := 2, txq := [txAt 0 .reading], abort := some (0, 0) }
    s.storesWf ∧ Open s .h0 true hifCtxCmd ∧ (hostOn 0 HostCtx.reset).ctxState 7 = 0 ∧
    (hostOn 0 HostCtx.reset).en .hif = true ∧ s.inRing 7 false 0 = true ∧ s.inRing 7 true 0 = false ∧ s.cqRoom 7 = true ∧
    (fullRing HostCtx.reset).cqRoom 7 = false ∧ (txAt 0 .reading).whole = false ∧
    (hostOn 1 { HostCtx.reset with rxPi := 2, rxq := [rxAt 0 none] }).inRing 7 true 0 = true ∧
    2 ≤ idxDist 16 15 0 := by decide +kernel

/-! DescriptorsAreFetchedReadAndCompleted. -/

/-- Context 7 with 3 descriptors posted per ring; a read of the given kind outstanding; the words of a descriptor. -/
def posted : State := hostOn 1 { HostCtx.reset with txPi := 3, rxPi := 3 }
def awaiting (k : ReadKind) (x : HostCtx) : State :=
  let s := hostOn 1 x
  { s with hif := { s.hif with reads := [⟨4, 7, false, k⟩], nextTag := 5 } }
def descBytes (w0 len : Nat) : List Byte := [w32 w0, w32 len, 0x5000, 0, 0, 0, 0, 0xC0].flatMap leBytes
/-- A frame of context 7 that waits at LP8, which drops untagged frames. -/
def committing : State :=
  let s := hostOn 1 { HostCtx.reset with txPi := 1, txFetch := 1, txq := [txAt 0 .lookup] }
  let s := ((s.setReg (blkBase .swc) 1).setHold .swc false).setTab .swc 5 256 0x4005
  { s with swc := { s.swc with ingress :=
    [⟨8, ⟨(goodFrame [0x08, 0x00]).take 60, none, false, txReqOf (txAt 0 .lookup).words, .host 7 0⟩, false⟩] } }

theorem wit_Fetch : posted.storesWf ∧ posted.en .hif = true ∧ posted.inHold .hif = false ∧ posted.shadowed = false ∧
    posted.mayFetch 7 = true ∧ (∀ d : Fin 256, d ≠ 7 → posted.ctxState d ≠ 1) := by decide +kernel
theorem wit_Reads : (awaiting (.txRun 0 1) HostCtx.reset).storesWf ∧ (awaiting (.txRun 0 1) HostCtx.reset).ctxState 7 = 1 ∧
    (awaiting (.txRun 0 1) HostCtx.reset).cqRoom 7 = true ∧ (awaiting (.rxRun 0 1) HostCtx.reset).rxHead 7 = 0 ∧
    (awaiting .discard HostCtx.reset).hif.reads.find? (fun r => r.tag = 4) = some ⟨4, 7, false, .discard⟩ ∧
    fieldOf (le32At (descBytes 0x10000005 60) 0) 28 4 = 1 ∧ fieldOf (le32At (descBytes 0x10000005 60) 4) 0 19 = 60 ∧
    fieldOf (le32At (descBytes 0x20000000 9) 0) 28 4 = 2 := by decide +kernel
theorem wit_Commit : committing.storesWf ∧ committing.en .swc = true ∧ (takeIngress 8 committing.swcTakes committing.swc.ingress).isSome = true ∧
    bitOf (committing.lpWord 8 0) 14 = true ∧ committing.isTpid 0x0800 = false ∧ committing.txHead 7 = 0 ∧
    committing.cqRoom 7 = true := by decide +kernel

/-! FramesImagesVectorsAndTheWindowOfAHost. -/

/-- A frame of 60 bytes at the head of LP8's queues, in the stream given, for context 7 by default, with a descriptor. -/
def atHost (k : Option (Fin 256)) (x : HostCtx) : State :=
  let s := (hostOn 1 x).setReg hifRxDefault 0x107
  let s := s.setTabs .hif 2 16 [0x8009003C, 0, 0x40000, 0, 0, 0xFFFFFFFF]
  let f : Frame := ⟨(goodFrame [0x08, 0x00]).take 60, none, false, ⟨.none, 0, 0, none, none, none⟩, .wire⟩
  { s with swc := { s.swc with
      stored := [⟨0, f, 1, ⟨0, 0, false⟩, .be, 3, false, 0, 1, 0, k, 5, false, 0, false⟩]
      queues := [⟨0, 8, 3, 1, false, false, 0, []⟩] } }
/-- Input region 2 on H0: 8 bytes at BAR4 0x100, role 4, window 3, bank 20. -/
def windowed : State :=
  let s := { hostOn 1 HostCtx.reset with eng := vset live.eng 4 { live.eng[4] with st := .active, role := some 4 } }
  let s := s.setInst 4 (some runningInst)
  let s := (s.setTabs .hif 3 16 [0x80040008, 0x100, 3, 0x200]).setTab (.pec 4) 2 3 0x80000014
  s.setReg (memBankOwner 20) 0x401

theorem wit_AtHost : let x := { HostCtx.reset with rxPi := 1, rxFetch := 1, rxq := [rxAt 0 none] }
    (atHost none x).storesWf ∧ (atHost none x).lpHead 8 = some ⟨0, 8, 3, 1, false, false, 0, []⟩ ∧
    ((atHost none x).storedOf 0).isSome = true ∧ (atHost none x).rxHead 7 = 0 ∧ (atHost none x).cqRoom 7 = true ∧
    (atHost none x).inHold .hif = false ∧ (atHost none x).steer false 3 5 0x800 = some 7 ∧
    (atHost (some 9) x).imgRegions false 9 = [2] ∧ (atHost none x).imgRegions false 9 = [2] ∧
    (atHost none x).linkUp false = true ∧ (atHost none x).linkUp true = false := by decide +kernel
theorem wit_Windowed : windowed.storesWf ∧ windowed.inBank 2 = some (4, 20) ∧ windowed.owns (.role 4) 20 = true ∧
    windowed.inDataAt false 0x104 = some 2 ∧ windowed.inCommitAt false 0x108 = some 2 ∧ windowed.mem.window = none ∧
    Open windowed .h0 false hifBuserrW0 ∧ live.power = .run ∧ live.linkFenced false = false ∧ live.linkUp false = false ∧
    live.flt.recovery = false := by decide +kernel

/-! BridgeRequestsAndBusTransactions. -/

/-- The expansion port on in a role, its pins assigned, with requests queued. -/
def bridging (role : Nat) (busy : Bool) (qs : List XpbReq) : State :=
  let s := ((live.setHold .xpb false).setReg (blkBase .xpb) 1).setReg xpbCfg (w32 (2 ^ 30 * role))
  let s := (List.range 32).foldl (fun t m => t.setReg (psqMfp (64 + m)) 0x30000000) s
  { s with xpb := { s.xpb with queue := qs, busy := busy } }
/-- A bridge request of a kind from engine role 3 at the head of LP20. -/
def bridged (vk : Byte) : State :=
  let s := (bridging 2 false []).setReg xpbGwEtype 0x88B5
  let bs := List.replicate 6 0#8 ++ [2, 0, 0, 0, 0, 9, 0x88, 0xB5, vk, 1, 0, 7, 0, 0, 0x10, 0, 0, 0, 0, 0, 0, 0, 1, 2, 3, 4] ++
    List.replicate 28 0#8
  { s with swc := { s.swc with
      stored := [⟨0, ⟨bs, none, false, ⟨.none, 0, 0, none, none, none⟩, .wire⟩, 13, ⟨0, 0, false⟩, .be, 3, false, 0, 1, 0, none, 5, false, 0, false⟩]
      queues := [⟨0, 20, 3, 1, false, false, 0, []⟩] } }
def readOf (src : XpbSrc) (op : XpbOp) : XpbReq := ⟨src, op, 0x1000, 1, [5], 7, [2, 0, 0, 0, 0, 9], 0⟩

theorem wit_Bridge : (bridged 0x11).storesWf ∧ (bridged 0x11).lpHead 20 = some ⟨0, 20, 3, 1, false, false, 0, []⟩ ∧
    ((bridged 0x11).storedOf 0).map frameSrc = some (.role 3) ∧ (bridged 0x11).xpbRole = 2 ∧
    (∀ n : Fin 4, (bridged 0x11).gwTakes n (((bridged 0x11).storedOf 0).map
      ((bridged 0x11).gatewayBytes ⟨0, 20, 3, 1, false, false, 0, []⟩) |>.getD []) = false) ∧
    (bridged 0x11).fenced 31 = false ∧ (bridged 0x11).inHold .xpb = false := by decide +kernel
theorem wit_Transactions : (bridging 3 true [readOf .sup .read]).storesWf ∧ (bridging 3 true []).xpbRole = 3 ∧
    (bridging 3 true []).pinsBad = false ∧ (bridging 3 true []).islandOn 17 = true ∧ (bridging 3 true []).shadowed = false ∧
    (bridging 2 false [readOf (.poll 2) .read]).xpb.gnt = false ∧ (bridging 2 false []).en .xpb = true ∧
    (((bridging 2 false []).setTabs .xpb 1 16 [0x80000005, 10, 0]).instantNow 10 0) = true := by decide +kernel

/-! InboundAccessesAndRoutes. -/

/-- The expansion host may initiate; a route of one word, its value held. -/
def hosted : State := bridging 1 false []
def routed (w0 w1 w2 : Word) (y : RouteSt) : State :=
  let s := (((hosted.setHold .sgm false).setReg (blkBase .sgm) 1).setTabs .sgm 0 24 [w0, w1, w2, 10, 0]).setRoute 3 y
  { s with eng := vset s.eng 4 { s.eng[4] with st := .active, role := some 2 }
           insts := vset s.insts 2 (some runningInst) }

theorem wit_Inbound : hosted.storesWf ∧ hosted.inboundOpen = true ∧ hosted.inHold .xpb = false ∧
    ((hosted.setTab .xpb 2 0 0x80000005).setReg (memBankOwner 5) 3).owns .dma 5 = true ∧
    (hosted.setReg (mbxCfg 9) 0x5030).isSender (.bus .exp) 9 = true ∧
    (hosted.setReg (mbxCfg 9) 0x3050).isReceiver (.bus .exp) 9 = true ∧
    (match hosted.access .exp true xpbXirqEn with | .ok b o r => decide (r.kind = .rw ∧ blkBase b + o = xpbXirqEn) | _ => false) = true ∧
    (match hosted.access .exp true 0x3FFFFC with | .err st => decide (st ≠ stOk) | _ => false) = true := by decide +kernel
theorem wit_Routes : (routed 0x80000001 5 9 ⟨[], [], false, true⟩).storesWf ∧
    (routed 0x80000001 5 9 ⟨[], [], false, true⟩).routeRuns 3 = true ∧
    (routed 0x80000001 5 9 ⟨[], [], false, true⟩).routeSrc 3 = 0 ∧ (routed 0x90000001 5 9 ⟨[], [], false, true⟩).routeSrc 3 = 1 ∧
    (routed 0x90000001 5 9 ⟨[], [], false, true⟩).instantNow 10 0 = true ∧
    (routed 0xB8000001 0x20000 9 ⟨[], [], false, true⟩).routeSrc 3 = 3 ∧
    (routed 0xB8000001 0x20000 9 ⟨[], [], false, true⟩).engOf 2 = some 4 ∧
    (routed 0x88000001 0x20000 9 ⟨[], [7], true, false⟩).routeDst 3 = 4 ∧
    (routed 0x84000001 0x20000 9 ⟨[], [7], true, false⟩).routeDst 3 = 2 ∧
    (routed 0x80000001 5 9 ⟨[], [7], true, false⟩).inHold .sgm = false ∧
    (routed 0x88000001 0x20000 9 ⟨[], [7], true, false⟩).islandOn 18 = true := by decide +kernel

/-! SenderWritesPostAndAcknowledge. -/

/-- Mailbox 9 from a sender to a receiver. -/
def posting (cfg : Word) (full : Bool) : State :=
  let s := live.setReg (mbxCfg 9) cfg
  { s with mbx := { s.mbx with full := setBit 0 9 full, notice := 1 <<< 9 } }

theorem wit_SenderWrites : (posting 0x1042 false).storesWf ∧ (posting 0x1042 false).isSender (.bus .h0) 9 = true ∧
    (posting 0x4210 true).isSender (.role 2) 9 = true ∧ (posting 0x4210 true).mbxFullOf 9 = true ∧
    Open (posting 0x1042 false) .h0 true (mbxW 159) ∧ Open (posting 0x1042 false) .h0 true (mbxW 144) ∧
    { posting 0x1050 false with flt := { (posting 0x1050 false).flt with fenced := 1 <<< 31 } }.fenced 31 = true ∧
    Open (posting 0x1042 false) .h0 true mbxCmd ∧ (posting 0x1042 false).isSender (.bus .h1) 9 = false := by decide +kernel

/-! MailboxReadsAndBanks. -/

/-- Bank 5 owned as given; the Skimmer on, with the row in turn. -/
def skimming (bank : Fin 112) (row : Nat) (owner : Word) (w : Option SkmWindow) : State :=
  let s := ((live.setHold .mem false).setReg (blkBase .mem) 1).setReg (memBankOwner bank.val) owner
  { s with mem := { s.mem with walkBank := bank, walkRow := row, window := w } }
def openWin : SkmWindow := ⟨5, 3, false, true, List.replicate 256 7, some 1⟩

theorem wit_BankOwners : (skimming 5 3 0x401 none).storesWf ∧ (skimming 5 3 0x401 none).owns (.role 4) 5 = true ∧
    (skimming 5 3 0x401 none).owns .dma 5 = false ∧ Open (skimming 5 3 0x401 none) .sup true (memBankOwner 5) ∧
    Open (skimming 5 3 3 none) .h0 true (memBankOwner 5) ∧ (skimming 5 3 3 none).dbgLevel = 0 ∧
    Open live .sup true (mbxCfg 9) ∧ Open (posting 0x1042 false) .exp false (mbxW 159) ∧
    (posting 0x1042 false).isReceiver (.role 2) 9 = true ∧ (posting 0x1042 false).isSender (.role 2) 9 = false := by
  decide +kernel
theorem wit_Skimmer : (skimming 5 3 0x401 none).nextRegion = (5, false, 3) ∧ (skimming 5 3 0x401 none).en .mem = true ∧
    (skimming 5 3 0x401 none).inHold .mem = false ∧ (skimming 5 512 0x401 none).nextRegion = (5, true, 0) ∧
    (skimming 5 3 0x401 (some openWin)).redirects 5 768 = some openWin ∧ openWin.scratch.length = 256 ∧
    (skimming 5 3 0 none).pickSpare 5 = some 0 ∧ ((skimming 5 3 0x401 none).setTab .mem 0 20 0xF00).pickSpare 5 = none := by
  decide +kernel

/-! FaultsFenceAndDomainsRecover. -/

/-- Domains fenced, fenced for good, under a READMIT; the sequencers on with a channel that ran. -/
def fencing (fenced perm re : BitVec 37) : State :=
  let s := sequencing .running
  { s with flt := { s.flt with fenced := fenced, perm := perm, readmit := re }
           psq := { s.psq with again := 1 <<< 40 } }

theorem wit_Faults : (fencing 0 0 0).storesWf ∧ (fencing 0 0 0).power = .run ∧ (∀ i < 19, (fencing 0 0 0).islandOn i = true) ∧
    (fencing (1 <<< 28) 0 0).fenced 28 = true ∧ (fencing (1 <<< 28) (1 <<< 28) (1 <<< 28)).flt.perm.getLsbD 28 = true ∧
    (fencing 0 0 0).en .psq = true ∧ (fencing 0 0 0).inHold .psq = false ∧ (fencing 0 0 0).retired 0 = false ∧ (fencing 0 0 0).sec.seqImg[(1 : Fin 2)] = none ∧
    (fencing (1 <<< 28) 0 0).psq.ch[(40 : Fin 64)].st = .stopped ∧ Open (fencing 0 0 0) .sup true fltCmd ∧
    (fencing (1 <<< 36) 0 0).sec.supNext = none ∧ (fencing (1 <<< 36) 0 0).sec.restarted = false := by decide +kernel
theorem wit_FaultsEngine : running.eng[(4 : Fin 10)].st = .active ∧ running.eng[(4 : Fin 10)].role = some 2 ∧
    running.insts[(2 : Fin 10)].isSome = true ∧ running.fenced 4 = false ∧ running.islandOn 7 = true := by decide +kernel
theorem wit_InService : InService 28 (fencing 0 0 0) ∧ InService 4 running := by
  unfold InService
  decide +kernel

/-! TwinsPairLoseAndExchange. -/

/-- A twin in a state and role, owned, on ring 0 with its key. -/
def twinned (st : TwinState) (shadow : Bool) : State :=
  let s := live.setReg fltTwinCfg 0x80000000
  { s with flt := { s.flt with twin := st, shadow := shadow } }

theorem wit_Twins : (twinned .paired false).storesWf ∧ Open (twinned .paired false) .h0 true fltTwinCmd ∧
    Open (twinned .paired false) .h0 true fltTwinCfg ∧ Open (twinned .paired true) .sup true fltTwinCmd ∧
    dtVal ((twinned .paired false).time 0) + 1100000 * 2 ^ 32 ≤ dtWrap ∧ (twinned .syncing true).storesWf ∧
    Open (twinned .off false) .sup true fltTwinCfg := by decide +kernel

end Sys2Proof.Tests
end

section
/-! SUPPORT. What every command ends in, and what reset leaves. -/

namespace Sys2Proof.Machine

/-- Every meaning ends in `commit`: the command's own effect, then the interrupts and FAULT_N it brings about. -/
theorem exec_eq_commit (c : Instr) (s : State) : ∃ u, exec c s = commit s u := by
  cases c <;> exact ⟨_, rfl⟩

/-- Settles O2: whatever a command's effect is, `commit` answers a next state and only adds to the output record. -/
theorem everyCommandCompletes : Obligations.EveryCommandCompletes := by
  intro c s
  obtain ⟨u, hu⟩ := exec_eq_commit c s
  exact ⟨u, hu, settle_out s u⟩

/-! What reads return right after reset: no store has an entry, so each reads its default. -/

theorem State.reset_reg (a : Nat) : State.reset.reg a = regReset a := rfl

theorem State.reset_tab (b : Blk) (sp w : Nat) : State.reset.tab b sp w = tabReset (tabKey (blkIdx b) sp w) := rfl

theorem State.reset_bankByte (b off : Nat) : State.reset.bankByte b off = 0 := rfl

/-- MEM_BANKb_OWNER resets to 0 for every bank (R351). -/
theorem State.reset_owner : ∀ b < 112, State.reset.owner b = 0 := by
  simp only [State.owner, State.reset_reg]
  decide +kernel

/-- No context of the host interface is ON (R297). -/
theorem State.reset_ctxState : ∀ c : Fin 256, State.reset.ctxState c = 0 := by
  simp only [State.ctxState, State.ctxWord, State.reset_tab]
  decide +kernel

/-- Settles O3: every field by its reset value, every register and indirect word by the default its store reads as. -/
theorem resetStateIsTheManualsReset : Obligations.ResetStateIsTheManualsReset := by
  have glbIdWord : State.reset.reg glbId = 0x8600B001 := by rw [State.reset_reg]; decide +kernel
  have endpoints : State.reset.reg (mbxCfg 0) = 0x1030 ∧ State.reset.reg (mbxCfg 5) = 0x3050 := ⟨rfl, rfl⟩
  have islands : State.reset.reg clkIslOn = 0 := by rw [State.reset_reg]; decide +kernel
  have datum : ∀ d : Fin 4, State.reset.time d = 0 ∧ State.reset.dom[d].standby = 0 ∧ State.reset.dom[d].req = .none := by
    decide +kernel
  have ports : ∀ n : Fin 8, State.reset.eth[n].up = false ∧ State.reset.eth[n].tx.isNone = true := by decide +kernel
  have roles : ∀ r : Fin 10, State.reset.insts[r] = none := by decide +kernel
  have queues : ∀ n : Fin 4, State.reset.can[n].events = [] := by decide +kernel
  have sequencers : ∀ c : Fin 64, State.reset.psq.ch[c].st = .stopped ∧ State.reset.psq.ch[c].txq = [] ∧
      State.reset.psq.ch[c].rxq = [] := by decide +kernel
  exact ⟨rfl, rfl, rfl, glbIdWord, endpoints.1, endpoints.2, State.reset_owner, islands, rfl, rfl, datum, ports, roles,
    queues, sequencers, State.reset_ctxState, rfl, rfl, State.reset_bankByte⟩

end Sys2Proof.Machine
end

section
/-! SUPPORT. What commands end in, what frames allow, and the bits of merged words: rules that proofs about single commands use. -/

namespace Sys2Proof.Machine

/-! Stores and commands. -/

theorem State.reg_of_regs_eq {s t : State} {a : Nat} (h : t.regs = s.regs) : t.reg a = s.reg a :=
  congrArg (amGet regReset · a) h

theorem State.storesWf_regs {s : State} (hw : s.storesWf) : amWf regReset s.regs :=
  ((State.sharedWf_iff s).1 ((State.storesWf_iff s).1 hw).1).1

/-- A command that ends in `commit` of an effect ends in what holds of the settled effect. -/
theorem ends_of_commit {c : Instr} {s u : State} {P : State → Prop} (hc : exec c s = commit s u) (hp : P (settle s u)) :
    Ends c s P := ⟨_, hc, hp⟩

theorem settle_sends {l : List Output} {s t : State} (h : Sends l s t) : Sends l s (settle s t) :=
  h.trans (settle_out s t)

theorem settle_flt (s t : State) : (settle s t).flt = t.flt := settle_part s t .flt

theorem settle_swc (s t : State) : (settle s t).swc = t.swc := settle_part s t .swc

theorem settle_eth (s t : State) : (settle s t).eth = t.eth := settle_part s t .eth

/-! Frames, extended by one update after another. -/

section
variable {ps : List Part} {rs ts : List Nat} {s t : State}

theorem Framed.refl (ps : List Part) (rs ts : List Nat) (s : State) : Framed ps rs ts s s :=
  (Raised.refl s).1.mono (by simp) (by simp) (by simp)

theorem Framed.setReg (h : Framed ps rs ts s t) {a : Nat} (v : Word) (ha : a ∈ rs) : Framed ps rs ts s (t.setReg a v) :=
  h.trans ⟨fun p _ => by cases p <;> simp [Part.same],
    fun _ hb _ => State.reg_setReg_other _ _ _ _ fun e => hb (e ▸ ha), fun _ _ => rfl, List.prefix_refl _⟩

theorem Framed.count (h : Framed ps rs ts s t) {a : Nat} (ha : a ∈ rs) : Framed ps rs ts s (t.count a) := h.setReg _ ha

theorem Framed.count64 (h : Framed ps rs ts s t) {a : Nat} (n : Nat) (ha : a ∈ rs) (hb : a + 4 ∈ rs) :
    Framed ps rs ts s (t.count64 a n) := (h.setReg _ ha).setReg _ hb

theorem Framed.setTab (h : Framed ps rs ts s t) {b : Blk} {sp w : Nat} (v : Word) (hk : tabKey (blkIdx b) sp w ∈ ts) :
    Framed ps rs ts s (t.setTab b sp w v) :=
  h.trans ⟨fun p _ => by cases p <;> simp [Part.same], fun _ _ _ => rfl,
    fun _ hj => amGet_put_other _ _ _ _ _ fun e => hj (e ▸ hk), List.prefix_refl _⟩

theorem Framed.emit (h : Framed ps rs ts s t) (o : Output) : Framed ps rs ts s (t.emit o) :=
  h.trans ((raised_emit t o).1.mono (by simp) (by simp) (by simp))

/-- An update of one part of the state, which leaves registers, indirect spaces and outputs as they were. -/
theorem Framed.update (h : Framed ps rs ts s t) {u : State} {q : Part} (hq : q ∈ ps) (hs : ∀ p, p ≠ q → p.same t u)
    (hr : u.regs = t.regs) (ht : u.tabs = t.tabs) (ho : u.out = t.out) : Framed ps rs ts s u :=
  h.trans ⟨fun p hp => hs p fun e => hp (e ▸ hq), fun _ _ _ => State.reg_of_regs_eq hr,
    fun k _ => congrArg (amGet tabReset · k) ht, ho ▸ List.prefix_refl _⟩

theorem Framed.setEth (h : Framed ps rs ts s t) (hq : .eth ∈ ps) (n : Fin 8) (x : EthState) :
    Framed ps rs ts s (t.setEth n x) :=
  h.update hq (fun p hp => by cases p <;> simp_all [Part.same]) rfl rfl rfl

theorem Framed.setSwc (h : Framed ps rs ts s t) (hq : .swc ∈ ps) (x : SwcState) : Framed ps rs ts s (t.setSwc x) :=
  h.update hq (fun p hp => by cases p <;> simp_all [Part.same]) rfl rfl rfl

theorem Framed.setFlt (h : Framed ps rs ts s t) (hq : .flt ∈ ps) (x : FltState) :
    Framed ps rs ts s { t with flt := x } :=
  h.update hq (fun p hp => by cases p <;> simp_all [Part.same]) rfl rfl rfl

theorem Framed.setHif (h : Framed ps rs ts s t) (hq : .hif ∈ ps) (x : HifState) :
    Framed ps rs ts s { t with hif := x } :=
  h.update hq (fun p hp => by cases p <;> simp_all [Part.same]) rfl rfl rfl

theorem Framed.draw (h : Framed ps rs ts s t) (hq : .free ∈ ps) : Framed ps rs ts s t.draw.2 :=
  h.update hq (fun p hp => by cases p <;> simp_all [Part.same, State.draw]) rfl rfl rfl

end

theorem setReg_framed (s : State) (r : Nat) (w : Word) (ps : List Part) (ts : List Nat) :
    Framed ps [r] ts s (s.setReg r w) := (Framed.refl _ _ _ s).setReg _ (by simp)

theorem getElem_vset_same {α : Type} {n : Nat} (v : Vector α n) (i : Fin n) (x : α) : (vset v i x)[i] = x := by
  simp [vset]

/-! Bits. -/

/-- The number `bitsFrom` forms of the first n bits of a function. -/
theorem bitsFrom_sum (f : Nat → Bool) (n : Nat) :
    (List.range n).foldl (fun a i => a + (if f i then 2 ^ i else 0)) 0 < 2 ^ n ∧
      ∀ i < n, ((List.range n).foldl (fun a i => a + (if f i then 2 ^ i else 0)) 0).testBit i = f i := by
  induction n with
  | zero => simp
  | succ n ih =>
    obtain ⟨hlt, hbit⟩ := ih
    rw [List.range_succ, List.foldl_append]
    generalize (List.range n).foldl (fun a i => a + (if f i then 2 ^ i else 0)) 0 = x at hlt hbit
    cases hf : f n with
    | false =>
      refine ⟨by simp [hf, Nat.pow_succ]; omega, fun i hi => ?_⟩
      rcases Nat.lt_succ_iff_lt_or_eq.mp hi with h | rfl
      · simpa [hf] using hbit i h
      · simpa [hf] using Nat.testBit_lt_two_pow hlt
    | true =>
      refine ⟨by simp [hf, Nat.pow_succ]; omega, fun i hi => ?_⟩
      simp only [List.foldl_cons, List.foldl_nil, hf, if_true, Nat.add_comm x]
      rcases Nat.lt_succ_iff_lt_or_eq.mp hi with h | rfl
      · rw [Nat.testBit_two_pow_add_gt h, hbit i h]
      · rw [Nat.testBit_two_pow_add_eq, Nat.testBit_lt_two_pow hlt, hf]; rfl

theorem getLsbD_bitsFrom (w : Nat) (f : Nat → Bool) (i : Nat) (h : i < w) : (bitsFrom w f).getLsbD i = f i := by
  rw [bitsFrom, BitVec.getLsbD_ofNat, (bitsFrom_sum f w).2 i h, decide_eq_true h, Bool.true_and]

/-- A word written keeps the masked bits of the old one where it does not change them. -/
theorem merge_of_unchanged {v old k : Word} (h : (v ^^^ old) &&& k = 0) : (v &&& ~~~k) ||| (old &&& k) = v := by
  ext i hi
  have hbit := congrArg (·[i]) h
  simp only [BitVec.getElem_and, BitVec.getElem_xor] at hbit
  simp only [BitVec.getElem_or, BitVec.getElem_and, BitVec.getElem_not]
  cases hk : k[i] <;> simp_all

/-- The masked bits of a merged word are the old ones, the others the written ones. -/
theorem merge_masked {v old k mask : Word} (h : old &&& ~~~mask = 0) :
    (((v &&& ~~~k) ||| (old &&& k)) &&& mask) &&& k = old &&& k ∧
      (((v &&& ~~~k) ||| (old &&& k)) &&& mask) &&& ~~~k = v &&& mask &&& ~~~k := by
  constructor <;>
  · ext i hi
    have hbit := congrArg (·[i]) h
    simp only [BitVec.getElem_and, BitVec.getElem_not] at hbit
    simp only [BitVec.getElem_or, BitVec.getElem_and, BitVec.getElem_not]
    cases hk : k[i] <;> cases hm : mask[i] <;> simp_all

end Sys2Proof.Machine
end

section
/-! SUPPORT. A write of GLB_INT_CNT raises no interrupt. -/

namespace Sys2Proof.Machine

/-! GLB_INT_CNT is read by no cause of an interrupt, so a write of it raises none. -/

/-- An effect that leaves every cause of an interrupt and the level of FAULT_N as they were raises nothing. -/
theorem settle_of_causesOf_eq {s t : State} (hc : ∀ n, t.causesOf n = s.causesOf n) (hf : t.faultLow = s.faultLow) :
    settle s t = t := by
  have quiet (n : Nat) : irqRises s t n = false := by
    rw [← irqRises_self s n]
    simp only [irqRises, hc]
  simp [settle, raiseIrqs, faultPin, hf, quiet]

section
variable (s : State) (v : Word)

theorem State.reg_setIntCnt (a : Nat) (h : a ≠ 0x58) : (s.setReg glbIntCnt v).reg a = s.reg a :=
  State.reg_setReg_other s _ a v h

theorem State.tab_setReg (a : Nat) (b : Blk) (sp w : Nat) : (s.setReg a v).tab b sp w = s.tab b sp w := rfl

theorem State.fenced_setReg (a d : Nat) : (s.setReg a v).fenced d = s.fenced d := rfl

theorem State.anyExhausted_setReg (a : Nat) : (s.setReg a v).anyExhausted = s.anyExhausted := rfl

theorem State.sparePlls_setIntCnt : (s.setReg glbIntCnt v).sparePlls = s.sparePlls := by
  simp (disch := omega) only [State.sparePlls, State.pllRole, clkPllStatus, State.reg_setIntCnt]
  rfl

theorem State.claimsLapsed_setIntCnt : (s.setReg glbIntCnt v).claimsLapsed = s.claimsLapsed := by
  simp (disch := omega) only [State.claimsLapsed, State.noRedundancy, State.engineSpares, fltTwinCfg,
    State.sparePlls_setIntCnt, State.anyExhausted_setReg, State.reg_setIntCnt, State.fenced_setReg, State.setReg_power,
    State.setReg_flt, State.setReg_eng]
  rfl

theorem State.en_setIntCnt (b : Blk) : (s.setReg glbIntCnt v).en b = s.en b := by
  have : blkBase b ≠ 0x58 := by cases b <;> simp only [blkBase] <;> omega
  rw [State.en, State.reg_setIntCnt s v _ this, State.en]

theorem State.ethStatus_setIntCnt (n : Fin 8) : (s.setReg glbIntCnt v).ethStatus n = s.ethStatus n := by
  simp (disch := omega) only [State.ethStatus, State.pfcTxEn, State.pfcBadOf, State.saPn, State.ethQuiet,
    ethPfcCfg, ethPfcXon, ethPfcXoff, ethPfcLimit, ethMsecTxsa, State.en_setIntCnt, State.reg_setIntCnt, State.tab_setReg,
    State.setReg_eth, State.setReg_swc]
  rfl

theorem State.ringCfgBad_setIntCnt (r : Nat) : (s.setReg glbIntCnt v).ringCfgBad r = s.ringCfgBad r := by
  simp (disch := omega) only [State.ringCfgBad, State.ringPorts, State.ringEn, State.ringLen, State.ringWins,
    State.winsOk, State.ethModeOf, nrgRingCfg, nrgRingNodes, ethMode, ethMaxlen, State.reg_setIntCnt, State.tab_setReg]
  rfl

/-- STATUS of no block shows GLB_INT_CNT. -/
theorem State.statusOf_setIntCnt (b : Blk) : (s.setReg glbIntCnt v).statusOf b = s.statusOf b := by
  cases b with
  | glb => simp only [State.statusOf, State.glbStatus, State.claimsLapsed_setIntCnt]; rfl
  | clk =>
    simp (disch := omega) only [State.statusOf, State.clkStatus, State.sparePlls_setIntCnt, clkDegraded,
      State.reg_setIntCnt]
    rfl
  | dtm =>
    simp (disch := omega) only [State.statusOf, State.dtmStatus, State.stepRefused, State.adjExceeds, dtmJumpLimit,
      State.reg_setIntCnt]
    rfl
  | ttc => rfl
  | hif => simp (disch := omega) only [State.statusOf, State.hifStatus, hifLinkStatus, State.reg_setIntCnt]; rfl
  | eth n => exact State.ethStatus_setIntCnt s v n
  | swc =>
    simp (disch := omega) only [State.statusOf, State.swcStatus, State.smpFull, swcSmpCfg, swcSmpPi, swcSmpCi,
      State.reg_setIntCnt]
    rfl
  | bfm =>
    simp (disch := omega) only [State.statusOf, State.bfmStatus, State.halved, bfmBeFloor, bfmExpRsv,
      State.reg_setIntCnt]
    rfl
  | nrg =>
    simp only [State.statusOf, State.nrgStatus, State.ringBits, State.ringRuns, State.en_setIntCnt,
      State.ringCfgBad_setIntCnt]
    rfl
  | can n =>
    simp (disch := omega) only [State.statusOf, State.canStatus, State.canRole, State.canTimingBad, canCfg, canNbt,
      canDbt, State.en_setIntCnt, State.reg_setIntCnt]
    rfl
  | psq => rfl
  | pec n =>
    simp (disch := omega) only [State.statusOf, State.pecStatus, State.pecBusy, State.islandOn, clkIslOn,
      State.reg_setIntCnt]
    rfl
  | mbx => simp (disch := omega) only [State.statusOf, State.mbxStatus, mbxFullEn, State.reg_setIntCnt]; rfl
  | mem => rfl
  | xpb =>
    simp (disch := omega) only [State.statusOf, State.xpbStatus, State.pinsBad, State.xpbRole, xpbCfg, psqMfp, xpbPelPi,
      xpbPelCi, xpbPollAct, xpbPollEn, State.en_setIntCnt, State.reg_setIntCnt]
    rfl
  | sgm => rfl
  | sec =>
    simp (disch := omega) only [State.statusOf, State.secStatus, State.noOwnerKey, State.lifecycle, glbLifecycle,
      State.reg_setIntCnt]
    rfl
  | flt =>
    simp (disch := omega) only [State.statusOf, State.fltStatus, fltTwinCfg, State.claimsLapsed_setIntCnt,
      State.reg_setIntCnt]
    rfl

theorem State.enabledCauses_setIntCnt (b : Blk) : (s.setReg glbIntCnt v).enabledCauses b = s.enabledCauses b := by
  have status := s.statusOf_setIntCnt v b
  have own : blkBase b + intEnOff b ≠ 0x58 := by cases b <;> simp only [blkBase, intEnOff] <;> omega
  cases b with
  | glb => simp only [State.statusOf] at status; simp only [State.enabledCauses, status]
  | psq =>
    simp only [State.statusOf] at status
    simp (disch := omega) only [State.enabledCauses, status, psqIntEn, psqRxneEn, State.reg_setIntCnt]
    rfl
  | _ => simp only [State.enabledCauses, status, State.reg_setIntCnt s v _ own]

theorem State.causesOf_setIntCnt (n : Nat) : (s.setReg glbIntCnt v).causesOf n = s.causesOf n := by
  simp (disch := omega) only [State.causesOf, State.enabledCauses_setIntCnt, glbIntEn, State.reg_setIntCnt]

/-- A write of GLB_INT_CNT raises no interrupt, so the value written stands. -/
theorem settle_setIntCnt : settle s (s.setReg glbIntCnt v) = s.setReg glbIntCnt v :=
  settle_of_causesOf_eq (s.causesOf_setIntCnt v) rfl

end

end Sys2Proof.Machine
end

section
/-! SUPPORT. The register port: where registers stand, what a write does by the kind of its register, and what it brings about. -/

namespace Sys2Proof.Machine

/-! Where a register stands, and what a write of it that is let through does. -/

/-- What holds of the value of both branches holds of the value of a choice. -/
theorem forall_some_ite {β : Type} {c : Prop} [Decidable c] {x y : Option β} {P : β → Prop}
    (hx : c → ∀ b, x = some b → P b) (hy : ¬ c → ∀ b, y = some b → P b) :
    ∀ b, (if c then x else y) = some b → P b := by
  by_cases h : c
  · simpa only [if_pos h] using hx h
  · simpa only [if_neg h] using hy h

theorem blkBase_le_of_blkAt {a : Nat} : ∀ b, blkAt a = some b → blkBase b ≤ a ∧ a < 0x200000 := by
  unfold blkAt
  repeat' refine forall_some_ite (fun _ => ?_) (fun _ => ?_)
  all_goals rintro b ⟨⟩ <;> simp only [blkBase, Fin.val_ofNat] <;> omega

/-- A register stands at its block's base and its offset, inside BAR0. -/
theorem regAt_addr {a o : Nat} {b : Blk} {row : RegRow} (h : regAt a = some (b, o, row)) :
    blkBase b + o = a ∧ a < 0x200000 := by
  unfold regAt at h
  split at h
  · cases h
  · rename_i b' hb
    split at h
    · cases h
    · obtain ⟨rfl, rfl, rfl⟩ := by simpa using h
      have := blkBase_le_of_blkAt _ hb
      omega

theorem State.regAt_of_access {s : State} {m : Master} {w : Bool} {a o : Nat} {b : Blk} {row : RegRow}
    (h : s.access m w a = .ok b o row) : regAt a = some (b, o, row) := by
  unfold State.access at h
  split at h
  · cases h
  · rename_i b' o' row' hr
    split_ifs at h
    obtain ⟨rfl, rfl, rfl⟩ := Access.ok.inj h
    exact hr

/-- A register of another kind is not the CT register at a given offset. -/
theorem addr_ne_of_kind_ne_ct {a c o : Nat} {b : Blk} {row : RegRow} (hc : (regAt c).map (·.2.2.kind) = some .ct)
    (h : regAt a = some (b, o, row)) (hk : row.kind ≠ .ct) : a ≠ c := by
  rintro rfl
  rw [h] at hc
  exact hk (Option.some.inj hc)

theorem glbIntCnt_isCt : (regAt glbIntCnt).map (·.2.2.kind) = some .ct := by decide +kernel

theorem glbSupBuserrCnt_isCt : (regAt glbSupBuserrCnt).map (·.2.2.kind) = some .ct := by decide +kernel

theorem hifBuserrDropCnt_isCt : (regAt hifBuserrDropCnt).map (·.2.2.kind) = some .ct := by decide +kernel

theorem State.writeReg_taken (s : State) (m : Master) (b : Blk) (o : Nat) (row : RegRow) (v : Word)
    (hk : row.kind ≠ .special) : (s.writeReg m b o row v).1 = true := by
  cases h : row.kind with
  | special => exact absurd h hk
  | _ => simp only [State.writeReg, h]

section
variable {s : State} {m : Master} {a : Nat} {v : Word} {b : Blk} {o : Nat} {row : RegRow}

/-- A write that changes no field of a fenced domain is the write of its kind (R398). -/
theorem doRegWrite_of_access (hacc : s.access m true a = .ok b o row) (hk : row.kind ≠ .special)
    (hf : (v ^^^ s.reg (blkBase b + o)) &&& s.fencedMask b o = 0) :
    doRegWrite m a 0xF v s = (s.writeReg m b o row v).2 := by
  have ok : (v ^^^ s.reg (blkBase b + o)) &&& row.mask &&& s.fencedMask b o = 0 := by
    rw [BitVec.and_assoc, BitVec.and_comm row.mask, ← BitVec.and_assoc, hf]
    exact BitVec.zero_and
  simp [doRegWrite, State.regWrite, hacc, merge_of_unchanged hf, s.writeReg_taken m b o row v hk, ok]

/-- A write that would change fields of a fenced domain keeps their bits, and is answered FENCED (R398). -/
theorem doRegWrite_of_fenced (hacc : s.access m true a = .ok b o row) (hk : row.kind ≠ .special)
    (hf : (v ^^^ s.reg (blkBase b + o)) &&& row.mask &&& s.fencedMask b o ≠ 0) :
    doRegWrite m a 0xF v s = (s.writeReg m b o row
      ((v &&& ~~~s.fencedMask b o) ||| (s.reg (blkBase b + o) &&& s.fencedMask b o))).2.accessErr m true 0 a stFenced := by
  have taken := s.writeReg_taken m b o row
    ((v &&& ~~~s.fencedMask b o) ||| (s.reg (blkBase b + o) &&& s.fencedMask b o)) hk
  simp only [doRegWrite, State.regWrite, hacc, taken, Bool.not_true, Bool.false_eq_true, if_false, if_neg hf, ne_eq,
    not_true_eq_false]
  rfl

theorem doRegWrite_partial {be : BitVec 4} (h : be ≠ 0xF) : doRegWrite m a be v s = s.accessErr m true 0 a stBusError :=
  if_pos h
end

/-! What the write of a CF register brings about. -/

theorem State.cfAfter_ethMode (t : State) (n : Fin 8) (old new : Word) :
    t.cfAfter (.eth n) 0x20 old new = (t.tuneDefaults n).ringsCheck := rfl

theorem State.cfAfter_ethMaxlen (t : State) (n : Fin 8) (old new : Word) :
    t.cfAfter (.eth n) 0x24 old new = t.ringsCheck := rfl

theorem State.cfAfter_smpBase (t : State) (old new : Word) :
    t.cfAfter .swc 0x40 old new = t.setSwc { t.swc with smpBase := t.reg swcSmpBaseHi ++ new } := rfl

theorem State.cfAfter_xpbCfg (t : State) (old new : Word) : t.cfAfter .xpb 0x20 old new = t.xpbRoleChange old new := rfl

/-- The PFC registers of a port whose write brings its priorities into or out of XOFF (R185). -/
theorem State.cfAfter_pfc (t : State) (n : Fin 8) {o : Nat} (old new : Word)
    (ho : o = 0x60 ∨ (0x80 ≤ o ∧ o < 0x100 ∧ o % 16 < 8)) : t.cfAfter (.eth n) o old new = t.pfcEval n := by
  unfold State.cfAfter
  split <;> simp_all

theorem State.cfAfter_eth_other (t : State) (n : Fin 8) {o : Nat} (old new : Word) (h20 : o ≠ 0x20) (h24 : o ≠ 0x24)
    (ho : ¬ (o = 0x60 ∨ (0x80 ≤ o ∧ o < 0x100 ∧ o % 16 < 8))) : t.cfAfter (.eth n) o old new = t := by
  unfold State.cfAfter
  split <;> simp_all

theorem State.cfAfter_other (t : State) {b : Blk} {o : Nat} (old new : Word) (he : ∀ n, b ≠ .eth n)
    (hx : ¬ (b = .xpb ∧ o = 0x20)) (hs : ¬ (b = .swc ∧ o = 0x40)) : t.cfAfter b o old new = t := by
  unfold State.cfAfter
  split <;> simp_all

/-! The rings follow their ports' registers, and change no register. -/

theorem State.envDone_regs (s : State) (r : Fin 2) : (s.envDone r).regs = s.regs := by
  unfold State.envDone
  split
  · rfl
  · refine List.foldlRecOn (motive := fun t : State => t.regs = s.regs) _ _ rfl fun t ht c _ => ?_
    unfold State.ringRelay
    split <;> exact ht

theorem State.ringStart_regs (s : State) (r : Fin 2) : (s.ringStart r).regs = s.regs := by
  unfold State.ringStart
  dsimp only
  split <;> rfl

theorem State.ringCheck_regs (s : State) (r : Fin 2) : (s.ringCheck r).regs = s.regs := by
  unfold State.ringCheck
  dsimp only
  split_ifs
  · rfl
  · exact s.ringStart_regs r
  · exact s.envDone_regs r
  · rfl

theorem State.ringsCheck_reg (s : State) (a : Nat) : s.ringsCheck.reg a = s.reg a :=
  State.reg_of_regs_eq (((s.ringCheck 0).ringCheck_regs 1).trans (s.ringCheck_regs 0))

theorem State.ringCheck_of_disabled {s : State} (r : Fin 2) (h : s.en .nrg = false) : s.ringCheck r = s := by
  simp [State.ringCheck, h]

theorem State.ringsCheck_of_disabled {s : State} (h : s.en .nrg = false) : s.ringsCheck = s := by
  rw [State.ringsCheck, State.ringCheck_of_disabled 0 h, State.ringCheck_of_disabled 1 h]

/-- A new mode draws the port's tuning words and changes nothing else (R444). -/
theorem State.tuneDefaults_framed (s : State) (n : Fin 8) :
    Framed [.free] [] (words (.eth n) 2 0 6) s (s.tuneDefaults n) := by
  refine List.foldlRecOn (motive := Framed _ _ _ s) _ _ (Framed.refl _ _ _ s) fun t ht w hw => ?_
  exact (ht.draw (by simp)).setTab _ (List.mem_map.2 ⟨w, hw, by rw [Nat.zero_add]⟩)

/-! XOFF of a port. -/

theorem ethTx_mem_pfcRegs (n : Fin 8) :
    ethTxPfcCnt n.val ∈ pfcRegs ∧ ethTxFramesLo n.val ∈ pfcRegs ∧ ethTxFramesLo n.val + 4 ∈ pfcRegs ∧
      ethTxBytesLo n.val ∈ pfcRegs ∧ ethTxBytesLo n.val + 4 ∈ pfcRegs := by
  revert n
  decide

theorem pfcRegs_offset : ∀ a ∈ pfcRegs, 0x80110 ≤ a ∧ 0x110 ≤ (a - 0x80000) % 0x4000 := by decide

theorem State.pfcFlush_framed (s : State) (n : Fin 8) : Framed [.eth] pfcRegs [] s (s.pfcFlush n) := by
  obtain ⟨hcnt, hf, hf4, hb, hb4⟩ := ethTx_mem_pfcRegs n
  unfold State.pfcFlush
  dsimp only
  split
  · exact Framed.refl _ _ _ s
  · exact (((((Framed.refl _ _ _ s).emit _).count64 _ hf hf4).count64 _ hb hb4).count hcnt).setEth (by simp) n _

theorem State.pfcFlush_xoff (s : State) (n : Fin 8) : (s.pfcFlush n).eth[n].xoff = s.eth[n].xoff := by
  unfold State.pfcFlush
  dsimp only
  split
  · rfl
  · simp only [State.setEth_eth, getElem_vset_same]

theorem State.pfcEval_framed (s : State) (n : Fin 8) : Framed [.eth] pfcRegs [] s (s.pfcEval n) :=
  ((Framed.refl _ _ _ s).setEth (by simp) n _).trans (State.pfcFlush_framed _ n)

theorem State.pfcEval_xoff (s : State) (n p : Fin 8) :
    (s.pfcEval n).eth[n].xoff.getLsbD p.val = s.xoffNow n p.val := by
  unfold State.pfcEval
  rw [State.pfcFlush_xoff, State.setEth_eth, getElem_vset_same]
  exact getLsbD_bitsFrom 8 _ p.val p.isLt

/-! The reset of an endpoint writes payload words and MBX_ABORT_CNT alone of the registers (R345). -/

section
variable (s : State) {a : Nat}

theorem State.clearMbxWords_reg (b : Fin 64) (mask : BitVec 16) (ha : a < 0x1A1000 ∨ 0x1A2000 ≤ a) :
    (s.clearMbxWords b mask).reg a = s.reg a := by
  refine List.foldlRecOn (motive := fun t : State => t.reg a = s.reg a) _ _ rfl fun t ht w hw => ?_
  have := List.mem_range.1 hw
  split
  · exact (State.reg_setReg_other _ _ _ _ (by simp only [mbxW]; omega)).trans ht
  · exact ht

theorem State.resetReceived_reg (b : Fin 64) (ha : a < 0x1A1000 ∨ 0x1A2000 ≤ a) (hc : a ≠ mbxAbortCnt) :
    (s.resetReceived b).reg a = s.reg a := by
  have cleared := s.clearMbxWords_reg b (BitVec.allOnes 16) ha
  unfold State.resetReceived
  dsimp only
  split
  · rw [State.count, State.reg_setReg_other _ _ _ _ hc, State.reg, State.setNotice_regs, State.setFull_regs]
    exact cleared
  · exact cleared

theorem State.resetSent_reg (b : Fin 64) (ha : a < 0x1A1000 ∨ 0x1A2000 ≤ a) : (s.resetSent b).reg a = s.reg a := by
  rw [State.resetSent, State.reg, State.setMbxWritten_regs]
  exact s.clearMbxWords_reg b _ ha

theorem State.resetEndpoint_reg (code : Byte) (ha : a < 0x1A1000 ∨ 0x1A2000 ≤ a) (hc : a ≠ mbxAbortCnt) :
    (s.resetEndpoint code).reg a = s.reg a := by
  refine List.foldlRecOn (motive := fun t : State => t.reg a = s.reg a) _ _ rfl fun t ht k _ => ?_
  dsimp only
  split_ifs
  · exact ht
  · exact (State.resetReceived_reg _ _ ha hc).trans ht
  · exact (State.resetSent_reg _ _ ha).trans ht
  · exact ht

theorem State.xpbRoleChange_reg (old new : Word) (ha : a < 0x1A1000 ∨ 0x1A2000 ≤ a) (hc : a ≠ mbxAbortCnt) :
    (s.xpbRoleChange old new).reg a = s.reg a := by
  unfold State.xpbRoleChange
  dsimp only
  split
  · exact s.resetEndpoint_reg _ ha hc
  · rfl
end

/-- What the write of a CF register brings about leaves the register itself as written. -/
theorem State.cfAfter_reg (t : State) {b : Blk} {o : Nat} (old new : Word) (hi : blkBase b + o ≠ glbIntCnt) :
    (t.cfAfter b o old new).reg (blkBase b + o) = t.reg (blkBase b + o) := by
  by_cases he : ∃ n, b = .eth n
  · obtain ⟨n, rfl⟩ := he
    by_cases h20 : o = 0x20
    · subst h20
      rw [State.cfAfter_ethMode, State.ringsCheck_reg]
      exact (t.tuneDefaults_framed n).regs _ (by simp) hi
    by_cases h24 : o = 0x24
    · subst h24
      rw [State.cfAfter_ethMaxlen, State.ringsCheck_reg]
    by_cases hp : o = 0x60 ∨ (0x80 ≤ o ∧ o < 0x100 ∧ o % 16 < 8)
    · rw [State.cfAfter_pfc t n old new hp]
      refine (t.pfcEval_framed n).regs _ (fun hm => ?_) hi
      have := pfcRegs_offset _ hm
      simp only [blkBase] at this
      omega
    · rw [State.cfAfter_eth_other t n old new h20 h24 hp]
  by_cases hx : b = .xpb ∧ o = 0x20
  · obtain ⟨rfl, rfl⟩ := hx
    exact t.xpbRoleChange_reg old new (by simp [blkBase]) (by decide)
  by_cases hs : b = .swc ∧ o = 0x40
  · obtain ⟨rfl, rfl⟩ := hs
    rfl
  · rw [State.cfAfter_other t old new (fun n hn => he ⟨n, hn⟩) hx hs]

/-! What a refused access leaves behind (R39, R40, R319). -/

section
variable (s : State) (write : Bool) (bar a : Nat) (status : Byte)

theorem State.logBusErr_framed (link : Bool) :
    Framed [.hif] [hifBuserrDropCnt] [] s (s.logBusErr link write bar a status) := by
  unfold State.logBusErr
  split
  · exact (Framed.refl _ _ _ s).setHif (by simp) _
  · exact (Framed.refl _ _ _ s).count (by simp)

theorem State.logBusErr_out (link : Bool) : (s.logBusErr link write bar a status).out = s.out := by
  unfold State.logBusErr
  split <;> rfl

theorem State.hostErr_framed (link : Bool) :
    Framed [.hif] [hifBuserrDropCnt] [] s (s.hostErr link write bar a status) := by
  have log := s.logBusErr_framed write bar a status link
  unfold State.hostErr
  dsimp only
  split_ifs
  · exact log.emit _
  · exact log.emit _
  · exact log.emit _
  · exact log.emit _
  · exact log

/-- A host's write that is dropped sends an AER message if AER is enabled on its link, and nothing else. -/
theorem State.hostErr_sends (link : Bool) :
    Sends (if s.hif.aer.getLsbD (b2n link) then [.aerNonFatal (if link then .h1 else .h0)] else []) s
      (s.hostErr link true bar a status) := by
  have out := s.logBusErr_out true bar a status link
  unfold Sends State.hostErr
  split <;> simp [out]

theorem State.accessErr_framed (m : Master) :
    Framed [.hif] [glbSupBuserrCnt, hifBuserrDropCnt] [] s (s.accessErr m write bar a status) := by
  have host (link : Bool) := (s.hostErr_framed write bar a status link).mono (ps' := [.hif])
    (rs' := [glbSupBuserrCnt, hifBuserrDropCnt]) (ts' := []) (by simp) (by simp) (by simp)
  cases m with
  | h0 => exact host false
  | h1 => exact host true
  | sup => exact ((Framed.refl _ _ _ s).count (by simp)).emit _
  | exp => exact (Framed.refl _ _ _ s).emit _
  | jtag => exact (Framed.refl _ _ _ s).emit _

theorem State.accessErr_sup_count (hw : s.storesWf) :
    (s.accessErr .sup write bar a status).reg glbSupBuserrCnt = s.reg glbSupBuserrCnt + 1 :=
  s.reg_setReg_same _ _ (State.storesWf_regs hw)
end

/-- A register written reads as written, and nothing else changes. -/
theorem settle_setReg_stored {s : State} (hw : s.storesWf) (base : State) {r : Nat} (v : Word) (hr : r ≠ glbIntCnt) :
    (settle base (s.setReg r v)).reg r = v := by
  rw [settle_reg _ _ _ hr, s.reg_setReg_same _ _ (State.storesWf_regs hw)]

theorem blkBase_add_ne_glbIntCnt (b : Blk) {k : Nat} (hk : k < 0x58) : blkBase b + k ≠ glbIntCnt := by
  cases b <;> simp only [blkBase, glbIntCnt] <;> omega

/-- A rejection that names a direct register is counted, its address recorded, and nothing else (R46). -/
theorem rejReg_rejected {s : State} (hw : s.storesWf) (b : Blk) {r : Nat} (hr : r < 2 ^ 22) :
    Rejected b r s (settle s (s.rejReg b r)) := by
  have cnt : blkBase b + 8 ≠ glbIntCnt := blkBase_add_ne_glbIntCnt b (by decide)
  have addr : blkBase b + 12 ≠ glbIntCnt := blkBase_add_ne_glbIntCnt b (by decide)
  have word : r % 2 ^ 22 % 2 ^ 31 + 0 = r := by omega
  have eq : s.rejReg b r = (s.count (blkBase b + 8)).setReg (blkBase b + 12) (w32 r) := by
    simp only [State.rejReg, State.cfgRej, Bool.false_eq_true, if_false, word]
  rw [eq]
  refine ⟨?_, settle_setReg_stored (State.storesWf_setReg _ _ _ hw) s _ addr, framed_settle ?_⟩
  · rw [settle_reg _ _ _ cnt, State.reg_setReg_other _ _ _ _ (by omega), State.count,
      State.reg_setReg_same _ _ _ (State.storesWf_regs hw)]
  · exact ((Framed.refl _ _ _ s).count (by simp [rejRegs])).setReg _ (by simp [rejRegs])

/-! The kinds of registers whose write is not a command of its own. -/

section
variable {s : State} {b : Blk} {o : Nat} {row : RegRow} {v : Word}

theorem State.cfWrite_of_open (hen : s.en b = false) (hq : s.quiesced b = true)
    (ht : s.cfTakes b o (v &&& row.mask) = true) : s.cfWrite b o row v =
      (s.setReg (blkBase b + o) (v &&& row.mask)).cfAfter b o (s.reg (blkBase b + o)) (v &&& row.mask) := by
  simp [State.cfWrite, State.cfClosed, hen, hq, ht]

theorem State.cfWrite_of_refused
    (h : s.en b = true ∨ s.quiesced b = false ∨ s.cfTakes b o (v &&& row.mask) = false) :
    s.cfWrite b o row v = s.rejReg b (blkBase b + o) := by
  rcases h with h | h | h <;> simp [State.cfWrite, State.cfClosed, h]

theorem State.rwWrite_plain (hp : blkBase b + o ≠ fltRotPeriod)
    (hl : ¬ (blkBase b + o = fltStartLimit ∧ (v &&& row.mask).toNat < 200)) :
    s.rwWrite b o row v = s.setReg (blkBase b + o) (v &&& row.mask) := by
  simp only [State.rwWrite, if_neg hl, if_neg hp]

theorem State.rwWrite_rotPeriod (h : blkBase b + o = fltRotPeriod) :
    s.rwWrite b o row v = (s.setReg fltRotPeriod (v &&& row.mask)).rotAgain := by
  have hl : ¬ (fltRotPeriod = fltStartLimit ∧ (v &&& row.mask).toNat < 200) := fun e => absurd e.1 (by decide)
  simp only [State.rwWrite, h, if_neg hl, if_true]

theorem State.rwWrite_startLimit (h : blkBase b + o = fltStartLimit) (hl : (v &&& row.mask).toNat < 200) :
    s.rwWrite b o row v = s.rejReg b (blkBase b + o) := by
  simp only [State.rwWrite, if_pos (And.intro h hl)]

theorem State.clearCnt_framed (s : State) (b : Blk) (r : Nat) : Framed [] [r, r + 4] [] s (s.clearCnt b r) := by
  unfold State.clearCnt
  dsimp only
  split
  · rename_i h
    exact ((Framed.refl _ _ _ s).setReg _ (by simp)).setReg _ (by simp [h])
  · exact (Framed.refl _ _ _ s).setReg _ (by simp)

theorem State.clearCnt_reg (hw : s.storesWf) (b : Blk) (r : Nat) : (s.clearCnt b r).reg r = 0 := by
  unfold State.clearCnt
  dsimp only
  split
  · rename_i h
    rw [State.reg_setReg_other _ _ _ _ (by omega), State.reg_setReg_same _ _ _ (State.storesWf_regs hw)]
  · exact State.reg_setReg_same _ _ _ (State.storesWf_regs hw)

/-- The clear of CFGREJ_CNT clears CFGREJ_ADDR (R46). -/
theorem State.clearCnt_cfgRej (hw : s.storesWf) (b : Blk) : (s.clearCnt b (blkBase b + 8)).reg (blkBase b + 12) = 0 := by
  rw [State.clearCnt, if_pos rfl]
  exact State.reg_setReg_same _ _ _ (State.storesWf_regs (State.storesWf_setReg _ _ _ hw))

/-- A write of 0 to a CT register clears it, and at most the word above it (R9, R46, R48). -/
theorem State.ctWrite_zero (hw : s.storesWf) (b : Blk) (o : Nat) :
    (s.ctWrite b o 0).reg (blkBase b + o) = 0 ∧ (o = 8 → (s.ctWrite b o 0).reg (blkBase b + o + 4) = 0) ∧
      Framed [] [blkBase b + o, blkBase b + o + 4] [] s (s.ctWrite b o 0) := by
  have plain : (s.clearCnt b (blkBase b + o)).reg (blkBase b + o) = 0 ∧
      (o = 8 → (s.clearCnt b (blkBase b + o)).reg (blkBase b + o + 4) = 0) ∧
      Framed [] [blkBase b + o, blkBase b + o + 4] [] s (s.clearCnt b (blkBase b + o)) :=
    ⟨State.clearCnt_reg hw _ _, fun h => h ▸ State.clearCnt_cfgRej hw b, State.clearCnt_framed s _ _⟩
  by_cases hwide : (∃ n, b = .eth n) ∧ [0x100, 0x108, 0x110, 0x118].contains o = true
  · obtain ⟨⟨n, rfl⟩, ho⟩ := hwide
    have eq : s.ctWrite (.eth n) o 0 =
        (s.clearCnt (.eth n) (blkBase (.eth n) + o)).setReg (blkBase (.eth n) + o + 4) 0 := by
      simp only [State.ctWrite, ne_eq, not_true_eq_false, if_false, if_pos ho]
    rw [eq]
    refine ⟨(State.reg_setReg_other _ _ _ _ (by omega)).trans plain.1, fun h => ?_, plain.2.2.setReg _ (by simp)⟩
    subst h
    cases ho
  · have eq : s.ctWrite b o 0 = s.clearCnt b (blkBase b + o) := by
      unfold State.ctWrite
      simp only [ne_eq, not_true_eq_false, if_false]
      split
      · rename_i n
        rw [if_neg fun ho => hwide ⟨⟨n, rfl⟩, ho⟩]
      · rfl
    rw [eq]
    exact plain

theorem fencedMask_blk (h : s.fencedMask b o ≠ 0) : b = .dtm ∨ b = .psq ∨ b = .hif := by
  unfold State.fencedMask at h
  split at h <;> simp_all
end

end Sys2Proof.Machine
end

section
/-! SUPPORT. REGISTER_WRITE: what it ends in, by the kind of the register. -/

namespace Sys2Proof.Machine

/-! REGISTER_WRITE. -/

/-- A REGISTER_WRITE of one master ends in what holds of the settled write. -/
theorem ends_registerWrite {s u : State} {m : Master} {a v : Word} {be : BitVec 4} {P : State → Prop}
    (hu : doRegWrite m a.toNat be v s = u) (hp : P (settle s u)) : Ends (.registerWrite m a be v []) s P :=
  ends_of_commit (congrArg (commit s) hu) hp

theorem idle_registerWrite {s : State} {m : Master} {a v : Word} {be : BitVec 4}
    (hu : doRegWrite m a.toNat be v s = s) : Idle (.registerWrite m a be v []) s :=
  (congrArg (commit s) hu).trans (commit_self s)

section
variable {s : State} {m : Master} {a v : Word} {b : Blk} {o : Nat} {row : RegRow}

/-- A register let through is none of the CT registers unless it is CT itself, and stands inside BAR0. -/
theorem access_addr_ne {c : Nat} (hacc : s.access m true a.toNat = .ok b o row) (hk : row.kind ≠ .ct)
    (hc : (regAt c).map (·.2.2.kind) = some .ct) : blkBase b + o ≠ c := by
  have hr := State.regAt_of_access hacc
  rw [(regAt_addr hr).1]
  exact addr_ne_of_kind_ne_ct hc hr hk

/-- A CF write that would change fields of a fenced domain (R398). -/
theorem registerWrite_cf_fenced (hw : s.storesWf) (hacc : s.access m true a.toNat = .ok b o row) (hk : row.kind = .cf)
    (hf : (v ^^^ s.reg (blkBase b + o)) &&& row.mask &&& s.fencedMask b o ≠ 0)
    (hen : s.en b = false) (hq : s.quiesced b = true)
    (ht : s.cfTakes b o (((v &&& ~~~s.fencedMask b o) ||| (s.reg (blkBase b + o) &&& s.fencedMask b o)) &&& row.mask) =
      true) (hmask : s.reg (blkBase b + o) &&& ~~~row.mask = 0) :
    Ends (.registerWrite m a 0xF v []) s fun t =>
      t.reg (blkBase b + o) &&& s.fencedMask b o = s.reg (blkBase b + o) &&& s.fencedMask b o ∧
        t.reg (blkBase b + o) &&& ~~~s.fencedMask b o = v &&& row.mask &&& ~~~s.fencedMask b o ∧
        (m = .sup → t.reg glbSupBuserrCnt = s.reg glbSupBuserrCnt + 1) := by
  have hct : row.kind ≠ .ct := by simp [hk]
  have notInt : blkBase b + o ≠ glbIntCnt := access_addr_ne hacc hct glbIntCnt_isCt
  have notSup : blkBase b + o ≠ glbSupBuserrCnt := access_addr_ne hacc hct glbSupBuserrCnt_isCt
  have notDrop : blkBase b + o ≠ hifBuserrDropCnt := access_addr_ne hacc hct hifBuserrDropCnt_isCt
  have shared : b = .dtm ∨ b = .psq ∨ b = .hif :=
    fencedMask_blk (s := s) (o := o) fun h0 => hf (by rw [h0]; exact BitVec.and_zero)
  obtain ⟨x, hx⟩ : ∃ x, x = ((v &&& ~~~s.fencedMask b o) ||| (s.reg (blkBase b + o) &&& s.fencedMask b o)) := ⟨_, rfl⟩
  rw [← hx] at ht
  have stored : (s.writeReg m b o row x).2 = s.setReg (blkBase b + o) (x &&& row.mask) := by
    have open_ : (s.writeReg m b o row x).2 = s.cfWrite b o row x := by simp only [State.writeReg, hk]
    rw [open_, State.cfWrite_of_open hen hq ht]
    exact State.cfAfter_other _ _ _ (by rintro n rfl; simp at shared) (by rintro ⟨rfl, -⟩; simp at shared)
      (by rintro ⟨rfl, -⟩; simp at shared)
  have write := doRegWrite_of_fenced (a := a.toNat) hacc (by simp [hk]) hf
  rw [← hx, stored] at write
  refine ends_registerWrite write ?_
  have word : (settle s ((s.setReg (blkBase b + o) (x &&& row.mask)).accessErr m true 0 a.toNat stFenced)).reg
      (blkBase b + o) = x &&& row.mask := by
    rw [settle_reg _ _ _ notInt, (State.accessErr_framed _ _ _ _ _ m).regs _ (by simp [notSup, notDrop]) notInt,
      State.reg_setReg_same _ _ _ (State.storesWf_regs hw)]
  rw [word, hx]
  refine ⟨(merge_masked hmask).1, (merge_masked hmask).2, ?_⟩
  rintro rfl
  rw [settle_reg _ _ _ (by decide), State.accessErr_sup_count _ _ _ _ _ (State.storesWf_setReg _ _ _ hw),
    State.reg_setReg_other _ _ _ _ notSup.symm]

/-! Of writes that change no field of a fenced domain. -/

section
variable (hacc : s.access m true a.toNat = .ok b o row) (hf : (v ^^^ s.reg (blkBase b + o)) &&& s.fencedMask b o = 0)
include hacc hf

theorem registerWrite_readOnly (hk : row.kind = .st ∨ row.kind = .sh ∨ row.kind = .pi) :
    Idle (.registerWrite m a 0xF v []) s := by
  refine idle_registerWrite ((doRegWrite_of_access hacc (by rcases hk with h | h | h <;> simp [h]) hf).trans ?_)
  rcases hk with h | h | h <;> simp only [State.writeReg, h]

theorem registerWrite_stored (hw : s.storesWf) (hk : row.kind = .ci ∨ (row.kind = .rw ∧ blkBase b + o ≠ fltRotPeriod ∧
      ¬ (blkBase b + o = fltStartLimit ∧ (v &&& row.mask).toNat < 200))) :
    Ends (.registerWrite m a 0xF v []) s fun t =>
      t.reg (blkBase b + o) = v &&& row.mask ∧ Framed [] [blkBase b + o] [] s t := by
  have notInt : blkBase b + o ≠ glbIntCnt :=
    access_addr_ne hacc (by rcases hk with h | ⟨h, -⟩ <;> simp [h]) glbIntCnt_isCt
  have stored : (s.writeReg m b o row v).2 = s.setReg (blkBase b + o) (v &&& row.mask) := by
    rcases hk with h | ⟨h, hp, hl⟩
    · simp only [State.writeReg, h]
    · simp only [State.writeReg, h, State.rwWrite_plain hp hl]
  refine ends_registerWrite
    ((doRegWrite_of_access hacc (by rcases hk with h | ⟨h, -⟩ <;> simp [h]) hf).trans stored) ⟨?_, ?_⟩
  · exact settle_setReg_stored hw s _ notInt
  · exact framed_settle (setReg_framed s _ _ _ _)

/-- After a write of FLT_ROT_PERIOD the next rotation decision is a period away (R419). -/
theorem registerWrite_rotPeriod (hw : s.storesWf) (hk : row.kind = .rw) (hr : blkBase b + o = fltRotPeriod) :
    Ends (.registerWrite m a 0xF v []) s fun t => t.reg (blkBase b + o) = v &&& row.mask ∧
      t.flt = { s.flt with rotDue := s.clk.tick + 500000000 * fieldOf (v &&& row.mask) 0 16 } ∧
      Framed [.flt] [blkBase b + o] [] s t := by
  have stored : (s.writeReg m b o row v).2 = (s.setReg fltRotPeriod (v &&& row.mask)).rotAgain := by
    simp only [State.writeReg, hk, State.rwWrite_rotPeriod hr]
  have word : (s.setReg fltRotPeriod (v &&& row.mask)).reg fltRotPeriod = v &&& row.mask :=
    State.reg_setReg_same _ _ _ (State.storesWf_regs hw)
  refine ends_registerWrite ((doRegWrite_of_access hacc (by simp [hk]) hf).trans stored) ?_
  rw [hr]
  refine ⟨?_, ?_, framed_settle (((Framed.refl _ _ _ s).setReg _ (by simp)).setFlt (by simp) _)⟩
  · rw [settle_reg _ _ _ (by decide)]
    exact word
  · rw [settle_flt, State.rotAgain, word]
    rfl

theorem registerWrite_startLimit_low (hw : s.storesWf) (hk : row.kind = .rw) (hr : blkBase b + o = fltStartLimit)
    (hl : (v &&& row.mask).toNat < 200) :
    Ends (.registerWrite m a 0xF v []) s (Rejected b (blkBase b + o) s) := by
  refine ends_registerWrite (doRegWrite_of_access hacc (by simp [hk]) hf) ?_
  simp only [State.writeReg, hk, State.rwWrite_startLimit hr hl]
  exact rejReg_rejected hw b (by rw [hr]; decide)

theorem registerWrite_cf_refused (hw : s.storesWf) (hk : row.kind = .cf)
    (h : s.en b = true ∨ s.quiesced b = false ∨ s.cfTakes b o (v &&& row.mask) = false) :
    Ends (.registerWrite m a 0xF v []) s (Rejected b (blkBase b + o) s) := by
  have inBar0 := regAt_addr (State.regAt_of_access hacc)
  refine ends_registerWrite (doRegWrite_of_access hacc (by simp [hk]) hf) ?_
  simp only [State.writeReg, hk, State.cfWrite_of_refused h]
  exact rejReg_rejected hw b (by omega)

/-- A CF register of a block that is disabled and quiesced takes an allowed value, and what follows is settled. -/
theorem registerWrite_cf_taken (hk : row.kind = .cf) (hen : s.en b = false) (hq : s.quiesced b = true)
    (ht : s.cfTakes b o (v &&& row.mask) = true) {P : State → Prop}
    (hp : P (settle s ((s.setReg (blkBase b + o) (v &&& row.mask)).cfAfter b o (s.reg (blkBase b + o)) (v &&& row.mask)))) :
    Ends (.registerWrite m a 0xF v []) s P := by
  refine ends_registerWrite ((doRegWrite_of_access hacc (by simp [hk]) hf).trans ?_) hp
  simp only [State.writeReg, hk, State.cfWrite_of_open hen hq ht]

theorem registerWrite_ct_ignored (hk : row.kind = .ct) (hv : v ≠ 0) : Idle (.registerWrite m a 0xF v []) s := by
  refine idle_registerWrite ((doRegWrite_of_access hacc (by simp [hk]) hf).trans ?_)
  simp only [State.writeReg, hk, State.ctWrite, if_pos hv]

theorem registerWrite_ct_cleared (hw : s.storesWf) (hk : row.kind = .ct) (hv : v = 0) :
    Ends (.registerWrite m a 0xF v []) s fun t => t.reg (blkBase b + o) = 0 ∧
      (o = 8 → t.reg (blkBase b + o + 4) = 0) ∧ Framed [] [blkBase b + o, blkBase b + o + 4] [] s t := by
  subst hv
  have cleared := State.ctWrite_zero hw b o
  have write : doRegWrite m a.toNat 0xF 0 s = s.ctWrite b o 0 := by
    refine (doRegWrite_of_access hacc (by simp [hk]) hf).trans ?_
    simp only [State.writeReg, hk]
  refine ends_registerWrite write ?_
  by_cases hi : blkBase b + o = glbIntCnt
  · have quiet : settle s (s.ctWrite b o 0) = s.ctWrite b o 0 := by
      obtain ⟨rfl, rfl⟩ : b = .glb ∧ o = 0x58 := by
        cases b <;> simp only [blkBase, glbIntCnt, reduceCtorEq, false_and, true_and] at hi ⊢ <;> omega
      exact settle_setIntCnt s 0
    rw [quiet]
    exact cleared
  · obtain ⟨low, high, frame⟩ := cleared
    refine ⟨(settle_reg _ _ _ hi).trans low, fun h8 => ?_, framed_settle frame⟩
    have notInt : blkBase b + 12 ≠ glbIntCnt := blkBase_add_ne_glbIntCnt b (by decide)
    exact (settle_reg _ _ _ (by subst h8; exact notInt)).trans (high h8)
end

end

/-! What a CF write brings about beside the register, block by block. -/

section
variable {s : State} {w : Word}

theorem State.en_nrg_setReg_eth (n : Fin 8) {o : Nat} (ho : o < 0x4000) (w : Word) :
    (s.setReg (blkBase (.eth n) + o) w).en .nrg = s.en .nrg := by
  have : blkBase .nrg ≠ blkBase (.eth n) + o := by simp only [blkBase]; omega
  rw [State.en, State.reg_setReg_other _ _ _ _ this, State.en]

theorem ethMode_framed (n : Fin 8) (h : s.en .nrg = false) (old : Word) :
    Framed [.free] [blkBase (.eth n) + 0x20] (words (.eth n) 2 0 6) s
      ((s.setReg (blkBase (.eth n) + 0x20) w).cfAfter (.eth n) 0x20 old w) := by
  have tuned := (s.setReg (blkBase (.eth n) + 0x20) w).tuneDefaults_framed n
  have off : ((s.setReg (blkBase (.eth n) + 0x20) w).tuneDefaults n).en .nrg = false := by
    rw [State.en, tuned.regs _ (by simp) (by decide), ← State.en, State.en_nrg_setReg_eth n (by decide) w, h]
  rw [State.cfAfter_ethMode, State.ringsCheck_of_disabled off]
  exact (setReg_framed s _ w _ _).trans (tuned.mono (by simp) (by simp) (by simp))

theorem ethMaxlen_framed (n : Fin 8) (h : s.en .nrg = false) (old : Word) :
    Framed [] [blkBase (.eth n) + 0x24] [] s ((s.setReg (blkBase (.eth n) + 0x24) w).cfAfter (.eth n) 0x24 old w) := by
  rw [State.cfAfter_ethMaxlen, State.ringsCheck_of_disabled ((State.en_nrg_setReg_eth n (by decide) w).trans h)]
  exact setReg_framed s _ w _ _

theorem pfc_framed (n : Fin 8) {o : Nat} (ho : o = 0x60 ∨ (0x80 ≤ o ∧ o < 0x100 ∧ o % 16 < 8)) (old : Word) :
    Framed [.eth] ((blkBase (.eth n) + o) :: pfcRegs) [] s
      ((s.setReg (blkBase (.eth n) + o) w).cfAfter (.eth n) o old w) := by
  rw [State.cfAfter_pfc _ n old w ho]
  exact ((Framed.refl _ _ _ s).setReg _ (by simp)).trans ((State.pfcEval_framed _ n).mono (by simp) (by simp) (by simp))

end

section
variable {s : State} {m : Master} {a v : Word} {b : Blk} {o : Nat} {row : RegRow}

/-- Two writes of one plain RW register, one after the other, leave the word of the later. -/
theorem doRegWrite_twice {m' : Master} {v' : Word} (hacc : s.access m true a.toNat = .ok b o row) (hk : row.kind = .rw)
    (hp : blkBase b + o ≠ fltRotPeriod) (hl : blkBase b + o ≠ fltStartLimit) (hm : s.fencedMask b o = 0)
    (hacc' : (s.setReg (blkBase b + o) (v &&& row.mask)).access m' true a.toNat = .ok b o row) :
    doRegWrite m' a.toNat 0xF v' (doRegWrite m a.toNat 0xF v s) =
      (s.setReg (blkBase b + o) (v &&& row.mask)).setReg (blkBase b + o) (v' &&& row.mask) := by
  have write {t : State} {n : Master} {x : Word} (hacc : t.access n true a.toNat = .ok b o row)
      (hm : t.fencedMask b o = 0) : doRegWrite n a.toNat 0xF x t = t.setReg (blkBase b + o) (x &&& row.mask) := by
    rw [doRegWrite_of_access hacc (by simp [hk]) (by rw [hm]; exact BitVec.and_zero)]
    simp only [State.writeReg, hk, State.rwWrite_plain hp fun h => hl h.1]
  rw [write hacc hm, write hacc' hm]

/-- A port without CM bits takes the writes of a cycle one after the other (R41). -/
theorem State.portWrite_pair (hr : regAt a.toNat = some (b, o, row)) (hcm : cmBits b o = 0) (w w' : PortWrite) :
    s.portWrite a.toNat [w, w'] = doRegWrite w'.1 a.toNat w'.2.1 w'.2.2 (doRegWrite w.1 a.toNat w.2.1 w.2.2 s) := by
  simp only [State.portWrite, hr, hcm, if_true, List.foldl_cons, List.foldl_nil]

/-- The port takes link 1's write before link 0's and the supervisor's, and link 0's before the supervisor's, however
they are listed (R41). -/
theorem portOrder_pair {m' : Master} (h : (m, m') ∈ [(Master.h1, Master.h0), (.h1, .sup), (.h0, .sup)])
    (x y : BitVec 4 × Word) :
    portOrder [(m, x), (m', y)] = [(m, x), (m', y)] ∧ portOrder [(m', y), (m, x)] = [(m, x), (m', y)] := by
  simp only [List.mem_cons, Prod.mk.injEq, List.not_mem_nil, or_false] at h
  rcases h with ⟨rfl, rfl⟩ | ⟨rfl, rfl⟩ | ⟨rfl, rfl⟩ <;> exact ⟨rfl, rfl⟩

theorem registerWrite_two_masters {m' : Master} {v' : Word} (hw : s.storesWf)
    (hacc : s.access m true a.toNat = .ok b o row)
    (hmm : (m, m') ∈ [(Master.h1, Master.h0), (.h1, .sup), (.h0, .sup)]) (hk : row.kind = .rw)
    (hp : blkBase b + o ≠ fltRotPeriod) (hl : blkBase b + o ≠ fltStartLimit) (hcm : cmBits b o = 0)
    (hm : s.fencedMask b o = 0)
    (hacc' : (s.setReg (blkBase b + o) (v &&& row.mask)).access m' true a.toNat = .ok b o row) :
    ∀ c ∈ [Instr.registerWrite m a 0xF v [(m', 0xF, v')], .registerWrite m' a 0xF v' [(m, 0xF, v)]],
      Ends c s fun t => t.reg (blkBase b + o) = v' &&& row.mask ∧ Framed [] [blkBase b + o] [] s t := by
  intro c hc
  have hr := State.regAt_of_access hacc
  have order := portOrder_pair hmm ((0xF : BitVec 4), v) ((0xF : BitVec 4), v')
  have both : s.portWrite a.toNat [(m, 0xF, v), (m', 0xF, v')] =
      (s.setReg (blkBase b + o) (v &&& row.mask)).setReg (blkBase b + o) (v' &&& row.mask) :=
    (State.portWrite_pair hr hcm _ _).trans (doRegWrite_twice hacc hk hp hl hm hacc')
  have ends : exec c s = commit s
      ((s.setReg (blkBase b + o) (v &&& row.mask)).setReg (blkBase b + o) (v' &&& row.mask)) := by
    rw [← both]
    simp only [List.mem_cons, List.not_mem_nil, or_false] at hc
    rcases hc with rfl | rfl
    · exact congrArg (fun l => commit s (s.portWrite a.toNat l)) order.1
    · exact congrArg (fun l => commit s (s.portWrite a.toNat l)) order.2
  have notInt : blkBase b + o ≠ glbIntCnt := access_addr_ne hacc (by simp [hk]) glbIntCnt_isCt
  refine ends_of_commit ends ⟨?_, framed_settle ((setReg_framed s _ _ _ _).setReg _ (by simp))⟩
  exact settle_setReg_stored (State.storesWf_setReg _ _ _ hw) s _ notInt

/-- A host link's write without all four byte enables is dropped (R38, R39). -/
theorem registerWrite_partial {be : BitVec 4} (hbe : be ≠ 0xF) {link : Bool} (hl : hostLink m = some link) :
    Ends (.registerWrite m a be v []) s fun t =>
      Sends (if s.hif.aer.getLsbD (b2n link) then [.aerNonFatal m] else []) s t ∧
      Framed [.hif] [hifBuserrDropCnt] [] s t := by
  refine ends_registerWrite (doRegWrite_partial hbe) ?_
  have host (link : Bool) := s.hostErr_sends 0 a.toNat stBusError link
  have frame (link : Bool) := s.hostErr_framed true 0 a.toNat stBusError link
  cases m with
  | h0 => obtain rfl := Option.some.inj hl; exact ⟨settle_sends (host false), framed_settle (frame false)⟩
  | h1 => obtain rfl := Option.some.inj hl; exact ⟨settle_sends (host true), framed_settle (frame true)⟩
  | _ => cases hl

end

/-- Settles O9, by the kind of the register. -/
theorem registerWritesFollowTheFieldKinds : Obligations.RegisterWritesFollowTheFieldKinds := by
  intro s m a v b o row hw hacc
  refine ⟨?fenced, fun hf => ⟨?readOnly, ?stored, ?rotPeriod, ?startLimit, ?refused, ?taken, ?ignored, ?cleared⟩,
    ?masters, ?part⟩
  case fenced => exact fun h hk hen hq ht hmask => registerWrite_cf_fenced hw hacc hk h hen hq ht hmask
  case readOnly => exact registerWrite_readOnly hacc hf
  case stored => exact registerWrite_stored hacc hf hw
  case rotPeriod => exact registerWrite_rotPeriod hacc hf hw
  case startLimit => exact registerWrite_startLimit_low hacc hf hw
  case refused => exact registerWrite_cf_refused hacc hf hw
  case taken =>
    intro hk hen hq ht
    have notInt : blkBase b + o ≠ glbIntCnt := access_addr_ne hacc (by simp [hk]) glbIntCnt_isCt
    refine registerWrite_cf_taken hacc hf hk hen hq ht ⟨?_, ?_, ?_, ?_, ?_, ?_, ?_⟩
    · rw [settle_reg _ _ _ notInt, State.cfAfter_reg _ _ _ notInt, State.reg_setReg_same _ _ _ (State.storesWf_regs hw)]
    · intro he hx hs
      rw [State.cfAfter_other _ _ _ he hx hs]
      exact framed_settle (setReg_framed s _ _ _ _)
    · rintro rfl rfl
      rw [State.cfAfter_smpBase, settle_swc]
      refine ⟨?_, framed_settle ((setReg_framed s _ _ _ _).setSwc (by simp) _)⟩
      rw [State.setSwc_swc, State.reg_setReg_other _ _ _ _ (by decide)]
    · rintro n rfl rfl hn
      exact framed_settle (ethMode_framed n hn _)
    · rintro n rfl rfl hn
      exact framed_settle (ethMaxlen_framed n hn _)
    · rintro n rfl ho
      refine ⟨fun p => ?_, framed_settle (pfc_framed n ho _)⟩
      rw [settle_eth, State.cfAfter_pfc _ n _ _ ho, State.pfcEval_xoff]
    · rintro n rfl h20 h24 ho
      rw [State.cfAfter_eth_other _ n _ _ h20 h24 ho]
      exact framed_settle (setReg_framed s _ _ _ _)
  case ignored => exact registerWrite_ct_ignored hacc hf
  case cleared => exact registerWrite_ct_cleared hacc hf hw
  case masters =>
    intro m' v' hmm r hk hp hl hcm hm _ hacc'
    exact registerWrite_two_masters hw hacc hmm hk hp hl hcm hm hacc'
  case part => exact fun be hbe link hl => registerWrite_partial hbe hl

end Sys2Proof.Machine
end

section
/-! SUPPORT. Bits and fields of a word written, and what a settled effect leaves in each part of the state. -/

namespace Sys2Proof.Machine

/-! Bits and fields of a word written. -/

section
variable {w : Nat} (x : BitVec w)

theorem getLsbD_setBit {i : Nat} (hi : i < w) (b : Bool) (j : Nat) :
    (setBit x i b).getLsbD j = if j = i then b else x.getLsbD j := by
  have pow : (BitVec.ofNat w (2 ^ i)).getLsbD j = decide (j = i) := by
    rw [BitVec.getLsbD_ofNat, Nat.testBit_two_pow]
    by_cases h : j = i
    · simp [h, hi]
    · simp [h, Ne.symm h]
  have out (hj : ¬ j < w) : x.getLsbD j = false := BitVec.getLsbD_of_ge x j (Nat.le_of_not_lt hj)
  cases b with
  | false =>
    rw [setBit, if_neg (by decide), BitVec.getLsbD_and, BitVec.getLsbD_not, pow]
    by_cases h : j = i
    · simp [h]
    · by_cases hj : j < w
      · simp [h, hj]
      · simp [h, out hj]
  | true =>
    rw [setBit, if_pos rfl, BitVec.getLsbD_or, pow]
    by_cases h : j = i
    · simp [h]
    · simp [h]

theorem testBit_fieldOf (lo len i : Nat) :
    (fieldOf x lo len).testBit i = (decide (i < len) && x.getLsbD (lo + i)) := by
  rw [fieldOf, Nat.testBit_mod_two_pow, Nat.testBit_shiftRight, BitVec.testBit_toNat]

theorem fieldOf_lt (lo len : Nat) : fieldOf x lo len < 2 ^ len := Nat.mod_lt _ (Nat.two_pow_pos len)

theorem getLsbD_setField {lo len : Nat} (h : lo + len ≤ w) (v j : Nat) :
    (setField x lo len v).getLsbD j = if lo ≤ j ∧ j < lo + len then v.testBit (j - lo) else x.getLsbD j := by
  have out (hj : ¬ j < w) : x.getLsbD j = false := BitVec.getLsbD_of_ge x j (Nat.le_of_not_lt hj)
  rw [setField, BitVec.getLsbD_or, BitVec.getLsbD_and, BitVec.getLsbD_not, BitVec.getLsbD_ofNat, BitVec.getLsbD_ofNat,
    Nat.testBit_shiftLeft, Nat.testBit_shiftLeft, Nat.testBit_two_pow_sub_one, Nat.testBit_mod_two_pow]
  by_cases hin : lo ≤ j ∧ j < lo + len
  · have hj : j < w := by omega
    have hlen : j - lo < len := by omega
    simp [hin, hj, hlen]
  · have hlen : (decide (lo ≤ j) && decide (j - lo < len)) = false := by simp; omega
    by_cases hj : j < w
    · rw [if_neg hin]
      simp [hj, hlen, ← Bool.and_assoc]
    · simp [hin, hj, out hj]

/-- Fields that agree bit by bit are equal. -/
theorem fieldOf_congr {y : BitVec w} {lo len : Nat} (h : ∀ i < len, x.getLsbD (lo + i) = y.getLsbD (lo + i)) :
    fieldOf x lo len = fieldOf y lo len := by
  refine Nat.eq_of_testBit_eq fun i => ?_
  rw [testBit_fieldOf, testBit_fieldOf]
  by_cases hi : i < len
  · rw [h i hi]
  · simp [hi]

theorem fieldOf_setField_same {lo len : Nat} (h : lo + len ≤ w) {v : Nat} (hv : v < 2 ^ len) :
    fieldOf (setField x lo len v) lo len = v := by
  refine Nat.eq_of_testBit_eq fun i => ?_
  rw [testBit_fieldOf, getLsbD_setField x h]
  by_cases hi : i < len
  · simp [hi]
  · simp [hi, Nat.testBit_lt_two_pow (Nat.lt_of_lt_of_le hv (Nat.pow_le_pow_right (by decide) (Nat.le_of_not_lt hi)))]

theorem fieldOf_setField_other {lo len lo' len' : Nat} (h : lo + len ≤ w) (v : Nat)
    (hd : lo' + len' ≤ lo ∨ lo + len ≤ lo') : fieldOf (setField x lo len v) lo' len' = fieldOf x lo' len' :=
  fieldOf_congr _ fun i hi => by rw [getLsbD_setField x h, if_neg (by omega)]

theorem bitOf_setField_other {lo len : Nat} (h : lo + len ≤ w) (v : Nat) {j : Nat} (hd : j < lo ∨ lo + len ≤ j) :
    bitOf (setField x lo len v) j = bitOf x j := by
  rw [bitOf, getLsbD_setField x h, if_neg (by omega), bitOf]

theorem fieldOf_setBit_other {i : Nat} (hi : i < w) (b : Bool) {lo len : Nat} (hd : i < lo ∨ lo + len ≤ i) :
    fieldOf (setBit x i b) lo len = fieldOf x lo len :=
  fieldOf_congr _ fun j hj => by rw [getLsbD_setBit x hi, if_neg (by omega)]

theorem bitOf_setBit {i : Nat} (hi : i < w) (b : Bool) (j : Nat) :
    bitOf (setBit x i b) j = if j = i then b else bitOf x j := getLsbD_setBit x hi b j

end

theorem getElem_vset_other {α : Type} {n : Nat} (v : Vector α n) {i j : Fin n} (x : α) (h : j ≠ i) :
    (vset v i x)[j] = v[j] := by
  simp [vset, Fin.val_ne_of_ne (Ne.symm h)]

/-! Registers written. -/

section
variable {s : State} {a : Nat}

theorem State.regsWf_setReg (hw : amWf regReset s.regs) (v : Word) : amWf regReset (s.setReg a v).regs :=
  amPut_wf regReset s.regs a v hw

theorem State.regsWf_count (hw : amWf regReset s.regs) (a : Nat) : amWf regReset (s.count a).regs :=
  State.regsWf_setReg hw _

end

/-! What `settle` leaves, part by part. -/

section
variable (s t : State)

theorem settle_power : (settle s t).power = t.power := settle_part s t .power
theorem settle_hold : (settle s t).hold = t.hold := settle_part s t .hold
theorem settle_clk : (settle s t).clk = t.clk := settle_part s t .clk
theorem settle_dom : (settle s t).dom = t.dom := settle_part s t .dom
theorem settle_ring : (settle s t).ring = t.ring := settle_part s t .ring
theorem settle_can : (settle s t).can = t.can := settle_part s t .can
theorem settle_sec : (settle s t).sec = t.sec := settle_part s t .sec
theorem settle_pending : (settle s t).pending = t.pending := settle_part s t .pending

end

/-! Frames, extended by an update of one part. -/

section
variable {ps : List Part} {rs ts : List Nat} {s t : State}

theorem Framed.setClk (h : Framed ps rs ts s t) (hq : .clk ∈ ps) (x : ClkState) :
    Framed ps rs ts s { t with clk := x } :=
  h.update hq (fun p hp => by cases p <;> simp_all [Part.same]) rfl rfl rfl

theorem Framed.setHold (h : Framed ps rs ts s t) (hq : .hold ∈ ps) (b : Blk) (x : Bool) :
    Framed ps rs ts s (t.setHold b x) :=
  h.update hq (fun p hp => by cases p <;> simp_all [Part.same]) rfl rfl rfl

theorem Framed.setDom (h : Framed ps rs ts s t) (hq : .dom ∈ ps) (d : Fin 4) (x : Domain) :
    Framed ps rs ts s (t.setDom d x) :=
  h.update hq (fun p hp => by cases p <;> simp_all [Part.same]) rfl rfl rfl

theorem Framed.setTtu (h : Framed ps rs ts s t) (hq : .ttu ∈ ps) (n : Fin 24) (x : Ttu) :
    Framed ps rs ts s (t.setTtu n x) :=
  h.update hq (fun p hp => by cases p <;> simp_all [Part.same]) rfl rfl rfl

theorem Framed.setCan (h : Framed ps rs ts s t) (hq : .can ∈ ps) (n : Fin 4) (x : CanState) :
    Framed ps rs ts s (t.setCan n x) :=
  h.update hq (fun p hp => by cases p <;> simp_all [Part.same]) rfl rfl rfl

end

/-! Commands. -/

/-- A command whose effect changes nothing leaves the block as it is. -/
theorem idle_of_commit {c : Instr} {s u : State} (hc : exec c s = commit s u) (hu : u = s) : Idle c s := by
  rw [Idle, hc, hu, commit_self]

/-- A command of a register that is let through does what its register does. -/
theorem State.guarded_of_open {s : State} {m : Master} {a : Nat} (h : Open s m true a) (f : State → State) :
    s.guarded m a f = f s := by
  unfold State.guarded
  unfold Open at h
  cases hacc : s.access m true a with
  | ok b o row => rfl
  | err st => rw [hacc] at h; cases h
  | supOnly b => rw [hacc] at h; cases h

end Sys2Proof.Machine
end

section
/-! SUPPORT. Gating and waking of islands (R32-R34): what the operations leave of the islands' bits, and what the four
commands end in. -/

namespace Sys2Proof.Machine

/-! The bits of an island. -/

section
variable {s : State} (hw : amWf regReset s.regs) {i : Nat} (hi : i < 19) (on deg : Bool) (j : Nat)
include hw hi

theorem State.islandOn_setIsland :
    ((s.setRegBit clkIslOn i on).setRegBit clkDegraded i deg).islandOn j = if j = i then on else s.islandOn j := by
  rw [State.islandOn, State.setRegBit, State.reg_setReg_other _ _ _ _ (by decide), State.setRegBit,
    State.reg_setReg_same _ _ _ hw, bitOf_setBit _ (by omega), State.islandOn]

theorem State.degraded_setIsland :
    ((s.setRegBit clkIslOn i on).setRegBit clkDegraded i deg).degraded j = if j = i then deg else s.degraded j := by
  have wf : amWf regReset (s.setRegBit clkIslOn i on).regs := State.regsWf_setReg hw _
  rw [State.degraded, State.setRegBit, State.reg_setReg_same _ _ _ wf, State.setRegBit,
    State.reg_setReg_other _ _ _ _ (by decide), bitOf_setBit _ (by omega), State.degraded]

end

theorem State.setIsland_framed (s : State) (i : Nat) (on deg : Bool) :
    Framed [] [clkIslOn, clkDegraded] [] s ((s.setRegBit clkIslOn i on).setRegBit clkDegraded i deg) :=
  ((Framed.refl _ _ _ s).setReg _ (by simp)).setReg _ (by simp)

theorem settle_islandOn (s t : State) (j : Nat) : (settle s t).islandOn j = t.islandOn j :=
  congrArg (bitOf · j) (settle_reg s t clkIslOn (by decide))

theorem settle_degraded (s t : State) (j : Nat) : (settle s t).degraded j = t.degraded j :=
  congrArg (bitOf · j) (settle_reg s t clkDegraded (by decide))

/-! ISLAND_GATE. -/

theorem islandGate_gates {s : State} (hw : s.storesWf) (i : Fin 19) (hg : s.gates i = true) :
    Ends (.islandGate i) s fun t =>
      t.islandOn i.val = false ∧ t.degraded i.val = false ∧ t.clk.realign.getLsbD i.val = false ∧
      (∀ j : Fin 19, j ≠ i → t.islandOn j.val = s.islandOn j.val ∧ t.degraded j.val = s.degraded j.val) ∧
      Framed [.clk] [clkIslOn, clkDegraded] [] s t := by
  have hr := State.storesWf_regs hw
  have on (j : Nat) : (settle s (s.islandDown i.val)).islandOn j = if j = i.val then false else s.islandOn j :=
    (settle_islandOn _ _ j).trans (State.islandOn_setIsland hr i.isLt _ _ j)
  have deg (j : Nat) : (settle s (s.islandDown i.val)).degraded j = if j = i.val then false else s.degraded j :=
    (settle_degraded _ _ j).trans (State.degraded_setIsland hr i.isLt _ _ j)
  refine ends_of_commit (congrArg (commit s) (if_pos hg)) ⟨?_, ?_, ?_, fun j hj => ?_, ?_⟩
  · rw [on, if_pos rfl]
  · rw [deg, if_pos rfl]
  · rw [settle_clk]
    exact (getLsbD_setBit _ i.isLt _ _).trans (if_pos rfl)
  · have hj := Fin.val_ne_of_ne hj
    rw [on, deg, if_neg hj, if_neg hj]
    exact ⟨rfl, rfl⟩
  · exact framed_settle (((s.setIsland_framed i.val false false).mono (by simp) (by simp) (by simp)).setClk (by simp) _)

/-- Each condition of R32 and R387 that fails keeps an island from gating. -/
theorem State.gates_eq_false {s : State} {i : Fin 19}
    (h : gateable.getLsbD i.val = false ∨ s.islandOn i.val = false ∨ bitOf (s.reg clkGateReq) i.val = false ∨
        s.clk.wakeLatch.getLsbD i.val = true ∨ s.debugHolds i.val = true ∨
        (∃ b ∈ islandBlks i.val, s.quiesced b = false) ∨
        (i.val = 15 ∧ (bitOf (s.reg hifLinkStatus) 7 = true ∨ bitOf (s.reg hifLinkStatus) 15 = true))) :
    s.gates i = false := by
  unfold State.gates
  rcases h with h | h | h | h | h | ⟨b, hb, hq⟩ | ⟨h15, hl⟩
  case inr.inr.inr.inr.inr.inl =>
    have : (islandBlks i.val).all (fun b => s.quiesced b) = false := List.all_eq_false.2 ⟨b, hb, by simp [hq]⟩
    simp only [this, Bool.and_false, Bool.false_and]
  case inr.inr.inr.inr.inr.inr =>
    have : (decide (i.val ≠ 15) || !(bitOf (s.reg hifLinkStatus) 7 || bitOf (s.reg hifLinkStatus) 15)) = false := by
      rcases hl with hl | hl <;> simp [h15, hl]
    simp only [this, Bool.and_false]
  all_goals simp only [h, Bool.not_true, Bool.and_false, Bool.false_and]

/-! WAKE_EVENT. -/

section
variable {s : State} {k : Nat}

theorem State.wake_of_not_gateable (h : gateable.getLsbD k = false) : s.wake k = s :=
  if_neg (by simp [h])

theorem State.wake_framed (s : State) (k : Nat) : Framed [.clk] [clkWakeCnt] [] s (s.wake k) := by
  unfold State.wake
  split
  · exact ((Framed.refl _ _ _ s).count (by simp)).setClk (by simp) _
  · exact Framed.refl _ _ _ s

/-- A wake event of a gateable island sets its latch, and no other (R33). -/
theorem State.wake_latch (hk : k < 19) (i : Nat) : (s.wake k).clk.wakeLatch.getLsbD i =
    (s.clk.wakeLatch.getLsbD i || (decide (i = k) && gateable.getLsbD k)) := by
  unfold State.wake
  split
  · next h =>
    refine (getLsbD_setBit s.clk.wakeLatch hk true i).trans ?_
    by_cases hik : i = k
    · simp [hik, h]
    · simp [hik]
  · next h => simp [h]

end

theorem wakeEvent_gateable {s : State} (hw : s.storesWf) {i : Fin 19} (hg : gateable.getLsbD i.val = true) :
    Ends (.wakeEvent i) s fun t =>
      t.clk.wakeLatch.getLsbD i.val = true ∧ t.reg clkWakeCnt = s.reg clkWakeCnt + 1 ∧
      (s.islandOn i.val = false → t.clk.ramp.getLsbD i.val = true) ∧
      (s.islandOn i.val = true → t.clk.ramp = s.clk.ramp) ∧ Framed [.clk] [clkWakeCnt] [] s t := by
  have ramp : (s.wake i.val).clk.ramp = if s.islandOn i.val then s.clk.ramp else setBit s.clk.ramp i.val true := by
    have on : (s.count clkWakeCnt).islandOn i.val = s.islandOn i.val :=
      congrArg (bitOf · i.val) (State.reg_setReg_other s _ _ _ (by decide))
    rw [State.wake, if_pos hg, ← on]
    rfl
  refine ends_of_commit rfl ⟨?_, ?_, fun hoff => ?_, fun hon => ?_, framed_settle (s.wake_framed _)⟩
  · rw [settle_clk, State.wake_latch i.isLt, hg]
    simp
  · rw [settle_reg _ _ _ (by decide), State.wake, if_pos hg]
    exact State.reg_setReg_same _ _ _ (State.storesWf_regs hw)
  · rw [settle_clk, ramp, hoff, if_neg Bool.false_ne_true]
    exact (getLsbD_setBit _ i.isLt _ _).trans (if_pos rfl)
  · rw [settle_clk, ramp, if_pos hon]

/-! ISLAND_CLOCK_START. -/

theorem islandClockStart_ramped {s : State} (hw : s.storesWf) (i : Fin 19) (hr : s.clk.ramp.getLsbD i.val = true)
    (hoff : s.islandOn i.val = false) :
    Ends (.islandClockStart i) s fun t =>
      t.islandOn i.val = true ∧ t.clk.ramp.getLsbD i.val = false ∧
      t.degraded i.val = !s.groupDriven (groupOf i.val) ∧
      t.reg clkRealignCnt = s.reg clkRealignCnt + w32 (b2n (s.groupDriven (groupOf i.val))) ∧
      Framed [.clk] [clkIslOn, clkDegraded, clkRealignCnt] [] s t := by
  have hregs := State.storesWf_regs hw
  have frame := s.setIsland_framed i.val true (!s.groupDriven (groupOf i.val))
  refine ends_of_commit (congrArg (commit s) (if_pos (by rw [hr, hoff]; rfl))) ⟨?_, ?_, ?_, ?_, ?_⟩
  · rw [settle_islandOn]
    refine (congrArg (bitOf · i.val) (State.reg_setReg_other _ _ clkIslOn _ (by decide))).trans ?_
    exact (State.islandOn_setIsland hregs i.isLt _ _ _).trans (if_pos rfl)
  · rw [settle_clk]
    exact (getLsbD_setBit _ i.isLt _ _).trans (if_pos rfl)
  · rw [settle_degraded]
    refine (congrArg (bitOf · i.val) (State.reg_setReg_other _ _ clkDegraded _ (by decide))).trans ?_
    exact (State.degraded_setIsland hregs i.isLt _ _ _).trans (if_pos rfl)
  · rw [settle_reg _ _ _ (by decide)]
    refine (State.reg_setReg_same (s.islandUp i.val) _ _ (State.regsWf_setReg (State.regsWf_setReg hregs _) _)).trans ?_
    exact congrArg (· + _) (frame.regs clkRealignCnt (by decide) (by decide))
  · exact framed_settle (((frame.mono (by simp) (by simp) (by simp)).setReg _ (by simp)).setClk (by simp) _)

/-! CLK_GATE_REQ_WRITE. -/

/-- The wake events of one cycle, those of the first n islands. -/
theorem State.wakes_latch_framed (wakes : BitVec 19) (s : State) {n : Nat} (hn : n ≤ 19) :
    let t := (List.range n).foldl (fun t i => if wakes.getLsbD i then t.wake i else t) s
    Framed [.clk] [clkWakeCnt] [] s t ∧ ∀ i, t.clk.wakeLatch.getLsbD i =
      (s.clk.wakeLatch.getLsbD i || (decide (i < n) && (wakes.getLsbD i && gateable.getLsbD i))) := by
  induction n with
  | zero => exact ⟨Framed.refl _ _ _ s, fun i => by simp⟩
  | succ n ih =>
    obtain ⟨frame, latch⟩ := ih (by omega)
    simp only [List.range_succ, List.foldl_append, List.foldl_cons, List.foldl_nil]
    split
    · next hwake =>
      refine ⟨frame.trans (State.wake_framed _ _), fun i => ?_⟩
      rw [State.wake_latch (by omega), latch]
      by_cases h : i = n
      · simp [h, hwake]
      · have : (i < n + 1) ↔ i < n := by omega
        simp [h, this]
    · next hwake =>
      refine ⟨frame, fun i => ?_⟩
      rw [latch]
      by_cases h : i = n
      · simp [h, hwake]
      · have : (i < n + 1) ↔ i < n := by omega
        simp [this]

/-- CLK_GATE_REQ written, and the wake latches of the bits written 1 cleared (R32, R33). -/
def State.gateReq (s : State) (w : BitVec 19) : State :=
  { s.setReg clkGateReq (w.setWidth 32) with clk := { s.clk with wakeLatch := s.clk.wakeLatch &&& ~~~w } }

theorem State.gateReq_framed (s : State) (w : BitVec 19) : Framed [.clk] [clkGateReq] [] s (s.gateReq w) :=
  ((Framed.refl _ _ _ s).setReg _ (by simp)).setClk (by simp) _

theorem State.gateReq_latch (s : State) (w : BitVec 19) {i : Nat} (hi : i < 19) :
    (s.gateReq w).clk.wakeLatch.getLsbD i = (s.clk.wakeLatch.getLsbD i && !w.getLsbD i) := by
  rw [State.gateReq, BitVec.getLsbD_and, BitVec.getLsbD_not, decide_eq_true hi, Bool.true_and]

/-- What a write of CLK_GATE_REQ ends in: the bits written, then the wake events of its cycle. -/
theorem exec_clkGateReqWrite {s : State} {m : Master} (ho : Open s m true clkGateReq) (v : Word) (wakes : BitVec 19) :
    exec (.clkGateReqWrite m v wakes) s = commit s ((List.range 19).foldl
      (fun t i => if wakes.getLsbD i then t.wake i else t) (s.gateReq (v.setWidth 19 &&& gateable))) :=
  congrArg (commit s) (State.guarded_of_open ho _)

theorem clkGateReqWrite_open {s : State} (hw : s.storesWf) {m : Master} (i : Fin 19) (v : Word) (wakes : BitVec 19)
    (ho : Open s m true clkGateReq) :
    Ends (.clkGateReqWrite m v wakes) s fun t =>
      t.reg clkGateReq = (v.setWidth 19 &&& gateable).setWidth 32 ∧
      (wakes.getLsbD i.val = true → gateable.getLsbD i.val = true → t.clk.wakeLatch.getLsbD i.val = true) ∧
      (wakes.getLsbD i.val = false → gateable.getLsbD i.val = true → v.getLsbD i.val = true →
        t.clk.wakeLatch.getLsbD i.val = false) ∧
      (wakes.getLsbD i.val = false → v.getLsbD i.val = false →
        t.clk.wakeLatch.getLsbD i.val = s.clk.wakeLatch.getLsbD i.val) ∧
      Framed [.clk] [clkGateReq, clkWakeCnt] [] s t := by
  have written := (s.gateReq_framed (v.setWidth 19 &&& gateable)).mono (ps' := [.clk])
    (rs' := [clkGateReq, clkWakeCnt]) (ts' := []) (by simp) (by simp) (by simp)
  have cleared := s.gateReq_latch (v.setWidth 19 &&& gateable) i.isLt
  obtain ⟨frame, latch⟩ := (s.gateReq (v.setWidth 19 &&& gateable)).wakes_latch_framed wakes (n := 19) (Nat.le_refl _)
  have vbit : (v.setWidth 19 &&& gateable).getLsbD i.val = (v.getLsbD i.val && gateable.getLsbD i.val) := by
    rw [BitVec.getLsbD_and, BitVec.getLsbD_setWidth, decide_eq_true i.isLt, Bool.true_and]
  refine ends_of_commit (exec_clkGateReqWrite ho v wakes) ⟨?_, ?_, ?_, ?_,
    framed_settle (written.trans (frame.mono (by simp) (by simp) (by simp)))⟩
  · rw [settle_reg _ _ _ (by decide), frame.regs _ (by decide) (by decide)]
    exact State.reg_setReg_same _ _ _ (State.storesWf_regs hw)
  all_goals rw [settle_clk, latch, cleared, vbit, decide_eq_true i.isLt]
  · intro hwake hg
    rw [hwake, hg, Bool.true_and, Bool.true_and, Bool.or_true]
  · intro hwake hg hv
    rw [hwake, hg, hv, Bool.and_true, Bool.not_true, Bool.and_false, Bool.false_and, Bool.and_false, Bool.or_false]
  · intro hwake hv
    rw [hwake, hv, Bool.false_and, Bool.not_false, Bool.and_true, Bool.and_false, Bool.or_false]

/-- Settles O17, command by command. -/
theorem islandsGateAndWake : Obligations.IslandsGateAndWake := by
  intro s m i v wakes hw
  refine ⟨islandGate_gates hw i, fun h => ?_, wakeEvent_gateable hw, fun h => ?_, islandClockStart_ramped hw i,
    fun h => ?_, clkGateReqWrite_open hw i v wakes⟩
  · exact idle_of_commit rfl (if_neg (by simp [State.gates_eq_false h]))
  · exact idle_of_commit rfl (State.wake_of_not_gateable h)
  · have undue : (s.clk.ramp.getLsbD i.val && !s.islandOn i.val) = false := by
      rcases h with h | h
      · rw [h, Bool.false_and]
      · rw [h, Bool.not_true, Bool.and_false]
    exact idle_of_commit rfl (if_neg (Bool.eq_false_iff.1 undue))

end Sys2Proof.Machine
end

section
/-! SUPPORT. The fault log (R404): what writing an entry leaves, and that the entry reads as written. -/

namespace Sys2Proof.Machine

theorem State.storesWf_tabs {s : State} (hw : s.storesWf) : amWf tabReset s.tabs :=
  ((State.sharedWf_iff s).1 ((State.storesWf_iff s).1 hw).1).2.1

theorem State.tab_setTab_other (s : State) {b b' : Blk} {sp sp' w w' : Nat} (v : Word)
    (h : tabKey (blkIdx b') sp' w' ≠ tabKey (blkIdx b) sp w) : (s.setTab b sp w v).tab b' sp' w' = s.tab b' sp' w' :=
  amGet_put_other tabReset s.tabs _ _ v h

/-- Words after those written in a space are as they were. -/
theorem State.tab_setTabs_before (s : State) (b : Blk) {sp w j : Nat} (hj : j < w) (l : List Word) :
    (s.setTabs b sp w l).tab b sp j = s.tab b sp j := by
  induction l generalizing s w with
  | nil => rfl
  | cons v r ih =>
    rw [State.setTabs, ih _ (Nat.lt_succ_of_lt hj)]
    exact State.tab_setTab_other s v (by simp only [tabKey]; omega)

/-- The words written in a space read as written. -/
theorem State.tab_setTabs (s : State) (b : Blk) (sp w : Nat) (hw : amWf tabReset s.tabs) (l : List Word) {k : Nat}
    (hk : k < l.length) : (s.setTabs b sp w l).tab b sp (w + k) = l[k] := by
  induction l generalizing s w k with
  | nil => cases hk
  | cons v r ih =>
    cases k with
    | zero => exact (State.tab_setTabs_before _ b (Nat.lt_succ_self w) r).trans (State.tab_setTab_same s b sp w v hw)
    | succ k =>
      rw [State.setTabs, show w + (k + 1) = w + 1 + k by omega]
      exact ih _ _ (amPut_wf _ _ _ _ hw) (Nat.lt_of_succ_lt_succ hk)

theorem Framed.setTabs {ps : List Part} {rs ts : List Nat} {s t : State} (h : Framed ps rs ts s t) (b : Blk)
    (sp w : Nat) (l : List Word) (hk : ∀ k < l.length, tabKey (blkIdx b) sp (w + k) ∈ ts) :
    Framed ps rs ts s (t.setTabs b sp w l) := by
  induction l generalizing t w with
  | nil => exact h
  | cons v r ih =>
    refine ih (h.setTab v (hk 0 (by simp))) _ fun k hr => ?_
    rw [show w + 1 + k = w + (k + 1) by omega]
    exact hk (k + 1) (Nat.succ_lt_succ hr)

theorem State.setTabs_regs (s : State) (b : Blk) (sp w : Nat) (l : List Word) : (s.setTabs b sp w l).regs = s.regs := by
  induction l generalizing s w with
  | nil => rfl
  | cons v r ih => exact ih _ _

theorem State.setTabs_flt (s : State) (b : Blk) (sp w : Nat) (l : List Word) : (s.setTabs b sp w l).flt = s.flt := by
  induction l generalizing s w with
  | nil => rfl
  | cons v r ih => exact ih _ _

section
variable (s : State) (domain : Nat) (cause : Byte) (act : LogAction) (i8 : Byte) (i16 : Nat)

theorem State.fltLog_framed : Framed [.flt] [] faultLogWords s (s.fltLog domain cause act i8 i16) := by
  refine Framed.setFlt (Framed.setTabs (Framed.refl _ _ _ s) _ _ _ _ fun k hk => ?_) (by simp) _
  have : k < 4 := hk
  exact List.mem_map.2 ⟨_, List.mem_range.2 (by omega), congrArg _ (Nat.zero_add _)⟩

theorem State.fltLog_regs : (s.fltLog domain cause act i8 i16).regs = s.regs := s.setTabs_regs _ _ _ _

/-- Of the fault manager an entry changes SEQ alone. -/
theorem State.fltLog_flt : (s.fltLog domain cause act i8 i16).flt =
    { s.flt with logSeq := if s.flt.logAny then s.flt.logSeq + 1 else 0, logAny := true } := by
  rw [← State.setTabs_flt s .flt 0 _ _]
  rfl

/-- The fields of an entry's first word (Table FLT-3). -/
theorem fieldOf_logWord (hd : domain < 256) (seq : BitVec 16) :
    let w := w32 (2 ^ 24 * domain + 2 ^ 16 * cause.toNat + seq.toNat)
    fieldOf w 24 8 = domain ∧ fieldOf w 16 8 = cause.toNat ∧ fieldOf w 0 16 = seq.toNat := by
  have hc := cause.isLt
  have hs := seq.isLt
  simp only [fieldOf, w32, BitVec.toNat_ofNat, Nat.shiftRight_eq_div_pow]
  omega

/-- ACTION of an entry's second word (Table FLT-3). -/
theorem fieldOf_logInfo (deg : Bool) :
    fieldOf (w32 (2 ^ 28 * act.code + 2 ^ 27 * b2n deg + 2 ^ 16 * i8.toNat + i16 % 2 ^ 16)) 28 4 = act.code := by
  have hi := i8.isLt
  have hact : act.code ≤ 5 := by cases act <;> decide
  have hdeg : b2n deg ≤ 1 := by cases deg <;> decide
  simp only [fieldOf, w32, BitVec.toNat_ofNat, Nat.shiftRight_eq_div_pow]
  omega

/-- SEQ of the next entry: the first carries 0 (R404). -/
def State.nextSeq (s : State) : BitVec 16 := if s.flt.logAny then s.flt.logSeq + 1 else 0

/-- The four words of an entry (Table FLT-3). -/
def State.logEntry (s : State) (domain : Nat) (cause : Byte) (act : LogAction) (i8 : Byte) (i16 : Nat) : List Word :=
  [w32 (2 ^ 24 * domain + 2 ^ 16 * cause.toNat + s.nextSeq.toNat),
    w32 (2 ^ 28 * act.code + 2 ^ 27 * b2n (s.stampDeg 0) + 2 ^ 16 * i8.toNat + i16 % 2 ^ 16),
    w32 (dtNs (s.time 0)), w32 (dtSec (s.time 0))]

theorem State.fltLog_tabs : (s.fltLog domain cause act i8 i16).tabs =
    (s.setTabs .flt 0 (s.nextSeq.toNat % 64 * 4) (s.logEntry domain cause act i8 i16)).tabs := rfl

/-- The words of the entry stand in the log at its SEQ. -/
theorem State.fltLog_tab (hw : amWf tabReset s.tabs) {k : Nat} (hk : k < 4) :
    (s.fltLog domain cause act i8 i16).tab .flt 0 (s.nextSeq.toNat % 64 * 4 + k) =
      (s.logEntry domain cause act i8 i16)[k] := by
  rw [State.tab, State.fltLog_tabs]
  exact s.tab_setTabs .flt 0 _ hw _ hk

theorem State.fltLog_logged (hw : amWf tabReset s.tabs) (hd : domain < 256) :
    Logged domain cause act.code s (s.fltLog domain cause act i8 i16) := by
  have word := s.fltLog_tab domain cause act i8 i16 hw (k := 0) (by decide)
  have info := s.fltLog_tab domain cause act i8 i16 hw (k := 1) (by decide)
  obtain ⟨hdom, hcause, hseq⟩ := fieldOf_logWord domain cause hd s.nextSeq
  rw [Nat.add_zero] at word
  unfold Logged
  rw [← State.nextSeq]
  dsimp only
  rw [word, info]
  exact ⟨congrArg FltState.logSeq (s.fltLog_flt domain cause act i8 i16),
    congrArg FltState.logAny (s.fltLog_flt domain cause act i8 i16), hdom, hcause, hseq, fieldOf_logInfo act i8 i16 _⟩

end

/-- An entry is that of an earlier state with the same SEQ. -/
theorem Logged.of_flt {domain action : Nat} {cause : Byte} {s u t : State} (h : Logged domain cause action u t)
    (hf : u.flt = s.flt) : Logged domain cause action s t := by
  unfold Logged at h ⊢
  rwa [hf] at h

theorem Logged.settled {domain action : Nat} {cause : Byte} {s t : State} (h : Logged domain cause action s t)
    (base : State) : Logged domain cause action s (settle base t) := by
  simpa only [Logged, settle_flt, settle_tab] using h

end Sys2Proof.Machine
end

section
/-! SUPPORT. Loss and recovery of PLLs (R28-R31, R451): ROLE and LOCK of a PLL after each operation, and what the
commands about PLLs end in. -/

namespace Sys2Proof.Machine

/-! ROLE and LOCK. -/

theorem State.pllRole_lt (s : State) (q : Nat) : s.pllRole q < 4 := fieldOf_lt _ _ _

section
variable {s : State}

theorem State.pllRole_of_reg {t : State} (h : t.reg clkPllStatus = s.reg clkPllStatus) (q : Nat) :
    t.pllRole q = s.pllRole q := congrArg (fieldOf · (4 * q + 1) 2) h

theorem State.pllLock_of_reg {t : State} (h : t.reg clkPllStatus = s.reg clkPllStatus) (q : Nat) :
    t.pllLock q = s.pllLock q := congrArg (bitOf · (4 * q)) h

section
variable (hr : amWf regReset s.regs) {p : Nat} (hp : p < 3) (q : Nat)
include hr hp

theorem State.pllRole_setLock (b : Bool) : (s.setLock p b).pllRole q = s.pllRole q := by
  rw [State.pllRole, State.setLock, State.setRegBit, State.reg_setReg_same _ _ _ hr,
    fieldOf_setBit_other _ (by omega) _ (by omega), State.pllRole]

theorem State.pllLock_setLock (b : Bool) : (s.setLock p b).pllLock q = if q = p then b else s.pllLock q := by
  rw [State.pllLock, State.setLock, State.setRegBit, State.reg_setReg_same _ _ _ hr, bitOf_setBit _ (by omega),
    State.pllLock]
  exact if_congr (by omega) rfl rfl

theorem State.pllRole_setRole {r : Nat} (h4 : r < 4) :
    (s.setRole p r).pllRole q = if q = p then r else s.pllRole q := by
  rw [State.pllRole, State.setRole, State.setRegField, State.reg_setReg_same _ _ _ hr]
  split
  · next h => rw [h, fieldOf_setField_same _ (by omega) h4]
  · exact fieldOf_setField_other _ (by omega) _ (by omega)

theorem State.pllLock_setRole (r : Nat) : (s.setRole p r).pllLock q = s.pllLock q := by
  rw [State.pllLock, State.setRole, State.setRegField, State.reg_setReg_same _ _ _ hr,
    bitOf_setField_other _ (by omega) _ (by omega), State.pllLock]

end

theorem settle_pllRole (s t : State) (q : Nat) : (settle s t).pllRole q = t.pllRole q :=
  State.pllRole_of_reg (settle_reg s t _ (by decide)) q

theorem settle_pllLock (s t : State) (q : Nat) : (settle s t).pllLock q = t.pllLock q :=
  State.pllLock_of_reg (settle_reg s t _ (by decide)) q

/-- The spare that takes over is the first that is locked (R28). -/
theorem State.lockedSpare_of_first {q : Fin 3} (hq : s.pllRole q.val = 2) (hl : s.pllLock q.val = true)
    (first : ∀ r : Fin 3, r < q → ¬ (s.pllRole r.val = 2 ∧ s.pllLock r.val = true)) : s.lockedSpare = some q.val := by
  refine List.find?_range_eq_some.2 ⟨by simp [hq, hl], List.mem_range.2 q.isLt, fun j hj => ?_⟩
  rw [Bool.not_eq_true', Bool.and_eq_false_iff, decide_eq_false_iff_not, ← Bool.not_eq_true, ← not_and_or]
  exact first ⟨j, by omega⟩ hj

theorem State.pllRole_of_lockedSpare {q : Nat} (h : s.lockedSpare = some q) :
    q < 3 ∧ s.pllRole q = 2 ∧ s.pllLock q = true := by
  have found := List.find?_some h
  have range := List.mem_range.1 (List.mem_of_find?_eq_some h)
  simp only [Bool.and_eq_true, decide_eq_true_eq] at found
  exact ⟨range, found⟩

end

/-! The parts of a loss. -/

/-- A PLL in service becomes FAILED, counted (R28, R31). -/
def State.failPll (s : State) (p : Nat) : State := ((s.dropLock p).count clkPllLossCnt).setRole p 3

/-- A group that has lost its PLL runs on its ring oscillators, with no re-alignment requested (R28, R29). -/
def State.undriven (s : State) (g : Nat) : State := (s.degradeGroup g).cancelRealign g

/-- The locked spare, if there is one, takes the group's role and requests its re-alignment (R28). -/
def State.handOver (s : State) (g : Nat) : State :=
  match s.lockedSpare with
  | some q => (s.setRole q g).requestRealign g
  | none => s

section
variable {s : State} {p : Nat}

theorem State.losePll_of_failed (h : s.pllRole p = 3) : s.losePll p = s.dropLock p := if_pos h

theorem State.losePll_of_spare (h : s.pllRole p = 2) :
    s.losePll p = (s.failPll p).fltLog (0x40 + p) 0x0A .noted 0xFF 0 := by
  rw [State.losePll, h]
  rfl

theorem State.losePll_of_driving (h : s.pllRole p < 2) : ∃ i8, s.losePll p =
    (((s.failPll p).undriven (s.pllRole p)).handOver (s.pllRole p)).fltLog (0x40 + p) 0x0A .noted i8 0 := by
  have failed : s.pllRole p ≠ 3 := by omega
  have spare : s.pllRole p ≠ 2 := by omega
  have eq : s.losePll p = match ((s.failPll p).undriven (s.pllRole p)).lockedSpare with
      | some q => ((((s.failPll p).undriven (s.pllRole p)).setRole q (s.pllRole p)).requestRealign
          (s.pllRole p)).fltLog (0x40 + p) 0x0A .noted (BitVec.ofNat 8 (s.pllRole p)) 0
      | none => ((s.failPll p).undriven (s.pllRole p)).fltLog (0x40 + p) 0x0A .noted 0xFF 0 := by
    rw [State.losePll, if_neg failed, if_neg spare]
    rfl
  rw [eq, State.handOver]
  split
  · exact ⟨_, rfl⟩
  · exact ⟨_, rfl⟩

theorem State.dropLock_framed (s : State) (p : Nat) : Framed [.clk] [clkPllStatus] [] s (s.dropLock p) :=
  ((Framed.refl _ _ _ s).setReg _ (by simp)).setClk (by simp) _

theorem State.failPll_framed (s : State) (p : Nat) : Framed [.clk] [clkPllStatus, clkPllLossCnt] [] s (s.failPll p) :=
  (((s.dropLock_framed p).mono (by simp) (by simp) (by simp)).count (by simp)).setReg _ (by simp)

theorem State.undriven_framed (s : State) (g : Nat) : Framed [.clk] [clkDegraded] [] s (s.undriven g) :=
  ((Framed.refl _ _ _ s).setReg _ (by simp)).setClk (by simp) _

theorem State.handOver_framed (s : State) (g : Nat) : Framed [.clk] [clkPllStatus] [] s (s.handOver g) := by
  unfold State.handOver
  split
  · exact ((Framed.refl _ _ _ s).setReg _ (by simp)).setClk (by simp) _
  · exact Framed.refl _ _ _ s

section
variable (hr : amWf regReset s.regs)
include hr

theorem State.dropLock_count_regsWf : amWf regReset ((s.dropLock p).count clkPllLossCnt).regs :=
  State.regsWf_setReg (s := s.dropLock p) (State.regsWf_setReg hr _) _

theorem State.failPll_regsWf : amWf regReset (s.failPll p).regs :=
  State.regsWf_setReg (State.dropLock_count_regsWf hr) _

theorem State.failPll_lossCnt : (s.failPll p).reg clkPllLossCnt = s.reg clkPllLossCnt + 1 := by
  refine (State.reg_setReg_other _ _ _ _ (by decide)).trans ?_
  refine (State.reg_setReg_same (s.dropLock p) _ _ (State.regsWf_setReg hr _)).trans ?_
  exact congrArg (· + 1) ((s.dropLock_framed p).regs _ (by decide) (by decide))

theorem State.undriven_regsWf (g : Nat) : amWf regReset (s.undriven g).regs := State.regsWf_setReg hr _

theorem State.undriven_degraded (g : Nat) :
    (s.undriven g).reg clkDegraded = s.reg clkDegraded ||| (groupMask g &&& s.islOn).setWidth 32 :=
  State.reg_setReg_same s _ _ hr

theorem State.dropLock_pllRole (hp : p < 3) (q : Nat) : (s.dropLock p).pllRole q = s.pllRole q :=
  State.pllRole_setLock hr hp q false

theorem State.dropLock_pllLock (hp : p < 3) (q : Nat) :
    (s.dropLock p).pllLock q = if q = p then false else s.pllLock q := State.pllLock_setLock hr hp q false

theorem State.failPll_pllRole (hp : p < 3) (q : Nat) : (s.failPll p).pllRole q = if q = p then 3 else s.pllRole q := by
  have counted : ((s.dropLock p).count clkPllLossCnt).pllRole q = (s.dropLock p).pllRole q :=
    State.pllRole_of_reg (State.reg_setReg_other _ _ _ _ (by decide)) q
  rw [State.failPll, State.pllRole_setRole (State.dropLock_count_regsWf hr) hp q (by decide), counted,
    State.dropLock_pllRole hr hp]

theorem State.failPll_pllLock (hp : p < 3) (q : Nat) :
    (s.failPll p).pllLock q = if q = p then false else s.pllLock q := by
  rw [State.failPll, State.pllLock_setRole (State.dropLock_count_regsWf hr) hp]
  exact (State.pllLock_of_reg (State.reg_setReg_other _ _ _ _ (by decide)) q).trans (State.dropLock_pllLock hr hp q)

/-- A group's role goes to the locked spare alone. -/
theorem State.handOver_pllRole {g : Nat} (hg : g < 4) (q : Nat) :
    (s.handOver g).pllRole q = if s.lockedSpare = some q then g else s.pllRole q := by
  unfold State.handOver
  split
  · next x hx =>
    obtain ⟨hlt, -⟩ := State.pllRole_of_lockedSpare hx
    refine (State.pllRole_setRole hr hlt q hg).trans ?_
    refine if_congr ?_ rfl rfl
    rw [hx, Option.some.injEq, eq_comm]
  · next hx => rw [hx, if_neg (by simp)]

theorem State.handOver_pllLock (g q : Nat) : (s.handOver g).pllLock q = s.pllLock q := by
  unfold State.handOver
  split
  · next x hx => exact State.pllLock_setRole hr (State.pllRole_of_lockedSpare hx).1 q g
  · rfl

end

/-- A re-alignment requested of a group whose earlier request is cancelled is one of its powered islands. -/
theorem State.handOver_realign (s : State) {g q : Nat} (h : (s.undriven g).lockedSpare = some q) :
    ((s.undriven g).handOver g).clk.realign &&& groupMask g = groupMask g &&& s.islOn := by
  have on : ((s.undriven g).setRole q g).islOn = s.islOn := congrArg (BitVec.setWidth 19)
    ((State.reg_setReg_other (s.undriven g) _ clkIslOn _ (by decide)).trans
      ((s.undriven_framed g).regs clkIslOn (by decide) (by decide)))
  have realign : ((s.undriven g).handOver g).clk.realign =
      (s.clk.realign &&& ~~~groupMask g) ||| (groupMask g &&& s.islOn) := by
    rw [State.handOver, h, ← on]
    rfl
  rw [realign]
  ext i hi
  simp only [BitVec.getElem_and, BitVec.getElem_or, BitVec.getElem_not]
  cases (groupMask g)[i] <;> simp

end

end Sys2Proof.Machine
end

section
/-! SUPPORT. PLL_LOST and the recovery of a FAILED PLL (R28-R31, R451): what the commands end in. -/

namespace Sys2Proof.Machine

/-! PLL_LOST. -/

/-- A PLL in service is lost, up to the entry in the fault log. -/
def State.lossMoves (s : State) (p : Nat) : State :=
  if s.pllRole p = 2 then s.failPll p else ((s.failPll p).undriven (s.pllRole p)).handOver (s.pllRole p)

section
variable {s : State} {p : Nat}

theorem State.lossMoves_of_spare (h : s.pllRole p = 2) : s.lossMoves p = s.failPll p := if_pos h

theorem State.lossMoves_of_driving (h : s.pllRole p < 2) :
    s.lossMoves p = ((s.failPll p).undriven (s.pllRole p)).handOver (s.pllRole p) := if_neg (by omega)

theorem State.pllRole_spare_or_driving (h : s.pllRole p ≠ 3) : s.pllRole p = 2 ∨ s.pllRole p < 2 := by
  have := s.pllRole_lt p
  omega

/-- The loss of a PLL in service is one entry in the fault log, whatever else it moves (R31). -/
theorem State.losePll_eq_fltLog (h : s.pllRole p ≠ 3) :
    ∃ i8, s.losePll p = (s.lossMoves p).fltLog (0x40 + p) 0x0A .noted i8 0 := by
  rcases State.pllRole_spare_or_driving h with h | h
  · exact ⟨_, by rw [State.losePll_of_spare h, State.lossMoves_of_spare h]⟩
  · obtain ⟨i8, eq⟩ := State.losePll_of_driving h
    exact ⟨i8, by rw [eq, State.lossMoves_of_driving h]⟩

theorem State.lossMoves_framed (s : State) (p : Nat) :
    Framed [.clk] [clkPllStatus, clkPllLossCnt, clkDegraded] [] s (s.lossMoves p) := by
  have failed := (s.failPll_framed p).mono (ps' := [.clk]) (rs' := [clkPllStatus, clkPllLossCnt, clkDegraded])
    (ts' := []) (by simp) (by simp) (by simp)
  unfold State.lossMoves
  split
  · exact failed
  · exact (failed.trans ((State.undriven_framed _ _).mono (by simp) (by simp) (by simp))).trans
      ((State.handOver_framed _ _).mono (by simp) (by simp) (by simp))

/-- A loss writes nothing but the clocks' registers and the fault log. -/
theorem State.losePll_framed (s : State) (p : Nat) :
    Framed [.clk, .flt] [clkPllStatus, clkPllLossCnt, clkDegraded] faultLogWords s (s.losePll p) := by
  by_cases h : s.pllRole p = 3
  · rw [State.losePll_of_failed h]
    exact (s.dropLock_framed p).mono (by simp) (by simp) (by simp)
  · obtain ⟨i8, eq⟩ := State.losePll_eq_fltLog h
    rw [eq]
    exact ((s.lossMoves_framed p).mono (by simp) (by simp) (by simp)).trans
      ((State.fltLog_framed _ _ _ _ _ _).mono (by simp) (by simp) (by simp))

/-- A register after the loss of a PLL in service is that of its moves. -/
theorem State.losePll_reg (h : s.pllRole p ≠ 3) (a : Nat) : (s.losePll p).reg a = (s.lossMoves p).reg a := by
  obtain ⟨i8, eq⟩ := State.losePll_eq_fltLog h
  rw [eq]
  exact State.reg_of_regs_eq (State.fltLog_regs _ _ _ _ _ _)

theorem State.losePll_clk (h : s.pllRole p ≠ 3) : (s.losePll p).clk = (s.lossMoves p).clk := by
  obtain ⟨i8, eq⟩ := State.losePll_eq_fltLog h
  rw [eq]
  exact (State.fltLog_framed _ _ _ _ _ _).parts .clk (by decide)

theorem State.losePll_logged (hw : s.storesWf) (h : s.pllRole p ≠ 3) (hp : p < 3) :
    Logged (0x40 + p) 0x0A 5 s (s.losePll p) := by
  have frame := s.lossMoves_framed p
  have tabs : (s.lossMoves p).tabs = s.tabs := by
    unfold State.lossMoves State.handOver
    split
    · rfl
    · split
      · rfl
      · rfl
  obtain ⟨i8, eq⟩ := State.losePll_eq_fltLog h
  rw [eq]
  exact (State.fltLog_logged _ _ _ .noted _ _ (tabs ▸ State.storesWf_tabs hw) (by omega)).of_flt
    (frame.parts .flt (by decide))

section
variable (hr : amWf regReset s.regs) (hp : p < 3)
include hr

theorem State.lossMoves_lossCnt : (s.lossMoves p).reg clkPllLossCnt = s.reg clkPllLossCnt + 1 := by
  have failed := State.failPll_lossCnt (p := p) hr
  unfold State.lossMoves
  split
  · exact failed
  · rw [(State.handOver_framed _ _).regs _ (by decide) (by decide),
      (State.undriven_framed _ _).regs _ (by decide) (by decide), failed]

include hp

/-- A loss leaves the PLL FAILED, the locked spare of a driven group in its role, and the others in theirs. -/
theorem State.lossMoves_pllRole_of_driving (h : s.pllRole p < 2) (q : Nat) : (s.lossMoves p).pllRole q =
    if ((s.failPll p).undriven (s.pllRole p)).lockedSpare = some q then s.pllRole p
    else if q = p then 3 else s.pllRole q := by
  have status := State.pllRole_of_reg ((State.undriven_framed (s.failPll p) (s.pllRole p)).regs clkPllStatus
    (by decide) (by decide)) q
  rw [State.lossMoves_of_driving h,
    State.handOver_pllRole (State.undriven_regsWf (State.failPll_regsWf hr) _) (by omega), status,
    State.failPll_pllRole hr hp]

theorem State.losePll_pllRole : (s.losePll p).pllRole p = 3 := by
  by_cases h : s.pllRole p = 3
  · rw [State.losePll_of_failed h, State.dropLock_pllRole hr hp, h]
  · rw [State.pllRole_of_reg (State.losePll_reg h clkPllStatus)]
    rcases State.pllRole_spare_or_driving h with h | h
    · rw [State.lossMoves_of_spare h, State.failPll_pllRole hr hp, if_pos rfl]
    · have notSpare : ((s.failPll p).undriven (s.pllRole p)).lockedSpare ≠ some p := by
        intro hsp
        have role := (State.pllRole_of_lockedSpare hsp).2.1
        rw [State.pllRole_of_reg ((State.undriven_framed _ _).regs clkPllStatus (by decide) (by decide)),
          State.failPll_pllRole hr hp, if_pos rfl] at role
        cases role
      rw [State.lossMoves_pllRole_of_driving hr hp h, if_neg notSpare, if_pos rfl]

theorem State.losePll_pllLock : (s.losePll p).pllLock p = false := by
  by_cases h : s.pllRole p = 3
  · rw [State.losePll_of_failed h, State.dropLock_pllLock hr hp, if_pos rfl]
  · rw [State.pllLock_of_reg (State.losePll_reg h clkPllStatus)]
    unfold State.lossMoves
    split
    · rw [State.failPll_pllLock hr hp, if_pos rfl]
    · rw [State.handOver_pllLock (State.undriven_regsWf (State.failPll_regsWf hr) _),
        State.pllLock_of_reg ((State.undriven_framed _ _).regs clkPllStatus (by decide) (by decide)),
        State.failPll_pllLock hr hp, if_pos rfl]

omit hp in
/-- The powered islands of the group that lost its PLL degrade (R28). -/
theorem State.losePll_degraded (h : s.pllRole p < 2) : (s.losePll p).reg clkDegraded =
    s.reg clkDegraded ||| (groupMask (s.pllRole p) &&& s.islOn).setWidth 32 := by
  have failed (a : Nat) (ha : a ∉ [clkPllStatus, clkPllLossCnt]) (hb : a ≠ glbIntCnt) :=
    (s.failPll_framed p).regs a ha hb
  rw [State.losePll_reg (by omega), State.lossMoves_of_driving h,
    (State.handOver_framed _ _).regs _ (by decide) (by decide), State.undriven_degraded (State.failPll_regsWf hr),
    failed _ (by decide) (by decide), State.islOn, failed _ (by decide) (by decide), ← State.islOn]

/-- The first locked spare takes the role of a lost PLL and requests the group's re-alignment (R28). -/
theorem State.losePll_takenOver (h : s.pllRole p < 2) {q : Fin 3} (hqp : q.val ≠ p) (hq : s.pllRole q.val = 2)
    (hl : s.pllLock q.val = true)
    (first : ∀ r : Fin 3, r < q → r.val ≠ p → ¬ (s.pllRole r.val = 2 ∧ s.pllLock r.val = true)) :
    (s.losePll p).pllRole q.val = s.pllRole p ∧ (s.losePll p).clk.realign &&& groupMask (s.pllRole p) =
      groupMask (s.pllRole p) &&& s.islOn := by
  have status := (State.undriven_framed (s.failPll p) (s.pllRole p)).regs clkPllStatus (by decide) (by decide)
  have role (r : Nat) : ((s.failPll p).undriven (s.pllRole p)).pllRole r = if r = p then 3 else s.pllRole r :=
    (State.pllRole_of_reg status r).trans (State.failPll_pllRole hr hp r)
  have lock (r : Nat) : ((s.failPll p).undriven (s.pllRole p)).pllLock r = if r = p then false else s.pllLock r :=
    (State.pllLock_of_reg status r).trans (State.failPll_pllLock hr hp r)
  have spare : ((s.failPll p).undriven (s.pllRole p)).lockedSpare = some q.val := by
    refine State.lockedSpare_of_first ?_ ?_ fun r hrq => ?_
    · rw [role, if_neg hqp, hq]
    · rw [lock, if_neg hqp, hl]
    · rw [role, lock]
      by_cases hrp : r.val = p
      · simp [hrp]
      · rw [if_neg hrp, if_neg hrp]
        exact first r hrq hrp
  have on : (s.failPll p).islOn = s.islOn :=
    congrArg (BitVec.setWidth 19) ((s.failPll_framed p).regs clkIslOn (by decide) (by decide))
  constructor
  · rw [State.pllRole_of_reg (State.losePll_reg (by omega) clkPllStatus),
      State.lossMoves_pllRole_of_driving hr hp h, if_pos spare]
  · rw [State.losePll_clk (by omega), State.lossMoves_of_driving h, State.handOver_realign _ spare, on]

end

/-- The loss of a spare leaves every island with its clock. -/
theorem State.losePll_of_spare_keeps (h : s.pllRole p = 2) :
    (s.losePll p).reg clkDegraded = s.reg clkDegraded ∧ (s.losePll p).clk.realign = s.clk.realign := by
  rw [State.losePll_reg (by omega), State.losePll_clk (by omega), State.lossMoves_of_spare h]
  exact ⟨(s.failPll_framed p).regs _ (by decide) (by decide), rfl⟩

end

theorem doPllLost_single (p : Fin 3) (s : State) : doPllLost (1#3 <<< p.val) s = s.losePll p.val := by
  match p with
  | 0 => rfl
  | 1 => rfl
  | 2 => rfl

theorem pllLost_ends {s : State} (hw : s.storesWf) (p : Fin 3) : Ends (.pllLost (1#3 <<< p.val)) s fun t =>
      t.pllLock p.val = false ∧ t.pllRole p.val = 3 ∧
      (s.pllRole p.val = 3 → Framed [.clk] [clkPllStatus] [] s t) ∧
      (s.pllRole p.val ≠ 3 → t.reg clkPllLossCnt = s.reg clkPllLossCnt + 1 ∧ Logged (0x40 + p.val) 0x0A 5 s t) ∧
      (s.pllRole p.val < 2 →
        t.reg clkDegraded = s.reg clkDegraded ||| (groupMask (s.pllRole p.val) &&& s.islOn).setWidth 32 ∧
        ∀ q : Fin 3, q ≠ p → s.pllRole q.val = 2 → s.pllLock q.val = true →
          (∀ r : Fin 3, r < q → r ≠ p → ¬ (s.pllRole r.val = 2 ∧ s.pllLock r.val = true)) →
          t.pllRole q.val = s.pllRole p.val ∧
            t.clk.realign &&& groupMask (s.pllRole p.val) = groupMask (s.pllRole p.val) &&& s.islOn) ∧
      (s.pllRole p.val = 2 → t.reg clkDegraded = s.reg clkDegraded ∧ t.clk.realign = s.clk.realign) ∧
      Framed [.clk, .flt] [clkPllStatus, clkPllLossCnt, clkDegraded] faultLogWords s t := by
  have hr := State.storesWf_regs hw
  refine ends_of_commit (congrArg (commit s) (doPllLost_single p s)) ⟨?lock, ?role, fun h => ?failed, fun h => ?counted,
    fun h => ⟨?degraded, fun q hqp hq hl first => ?taken⟩, fun h => ?spare, framed_settle (s.losePll_framed _)⟩
  case lock => rw [settle_pllLock, State.losePll_pllLock hr p.isLt]
  case role => rw [settle_pllRole, State.losePll_pllRole hr p.isLt]
  case failed =>
    rw [State.losePll_of_failed h]
    exact framed_settle (s.dropLock_framed _)
  case counted =>
    rw [settle_reg _ _ _ (by decide), State.losePll_reg h, State.lossMoves_lossCnt hr]
    exact ⟨rfl, (State.losePll_logged hw h p.isLt).settled s⟩
  case degraded => rw [settle_reg _ _ _ (by decide), State.losePll_degraded hr h]
  case taken =>
    rw [settle_pllRole, settle_clk]
    exact State.losePll_takenOver hr p.isLt h (Fin.val_ne_of_ne hqp) hq hl
      fun r hrq hrp => first r hrq fun e => hrp (congrArg Fin.val e)
  case spare =>
    rw [settle_reg _ _ _ (by decide), settle_clk]
    exact State.losePll_of_spare_keeps h

/-! PLL_RELOCK_ATTEMPT, PLL_LOCKED, PLL_BECOMES_SPARE. -/

section
variable {s : State} {p : Fin 3}

theorem pllRelockAttempt_unlocked (hrole : s.pllRole p.val = 3) (hlock : s.pllLock p.val = false) :
    Ends (.pllRelockAttempt p) s fun t => t.clk.attempt.getLsbD p.val = true ∧ Framed [.clk] [] [] s t := by
  have due : (s.pllRole p.val = 3 && !s.pllLock p.val) = true := by simp [hrole, hlock]
  refine ends_of_commit (congrArg (commit s) (if_pos due))
    ⟨?_, framed_settle ((Framed.refl _ _ _ s).setClk (by simp) _)⟩
  rw [settle_clk]
  exact (getLsbD_setBit _ p.isLt _ _).trans (if_pos rfl)

theorem pllLocked_unlocked (hw : s.storesWf) (hrole : s.pllRole p.val = 3) (hlock : s.pllLock p.val = false) :
    Ends (.pllLocked p) s fun t => t.pllLock p.val = true ∧ t.pllRole p.val = 3 ∧
      t.clk.lockCount.getLsbD p.val = true ∧ t.clk.attempt.getLsbD p.val = false ∧
      Framed [.clk] [clkPllStatus] [] s t := by
  have hr := State.storesWf_regs hw
  have due : (s.pllRole p.val = 3 && !s.pllLock p.val) = true := by simp [hrole, hlock]
  refine ends_of_commit (congrArg (commit s) (if_pos due)) ⟨?_, ?_, ?_, ?_, framed_settle
    ((setReg_framed s _ _ _ _).setClk (by simp) _)⟩
  · rw [settle_pllLock]
    exact (State.pllLock_setLock hr p.isLt _ true).trans (if_pos rfl)
  · rw [settle_pllRole]
    exact (State.pllRole_setLock hr p.isLt _ true).trans hrole
  · rw [settle_clk]
    exact (getLsbD_setBit _ p.isLt _ _).trans (if_pos rfl)
  · rw [settle_clk]
    exact (getLsbD_setBit _ p.isLt _ _).trans (if_pos rfl)

/-- A PLL in service, or one that has its lock, makes no attempt (R451). -/
theorem pllRelock_idle (h : s.pllRole p.val ≠ 3 ∨ s.pllLock p.val = true) :
    Idle (.pllRelockAttempt p) s ∧ Idle (.pllLocked p) s := by
  have undue : (decide (s.pllRole p.val = 3) && !s.pllLock p.val) = false := by
    rcases h with h | h
    · rw [decide_eq_false h, Bool.false_and]
    · rw [h, Bool.not_true, Bool.and_false]
  exact ⟨idle_of_commit rfl (if_neg (Bool.eq_false_iff.1 undue)),
    idle_of_commit rfl (if_neg (Bool.eq_false_iff.1 undue))⟩

/-- The role a PLL takes after 1 s of lock: that of the first group with none, else SPARE (R28, R29). -/
def State.roleDue (s : State) : Nat := if s.groupDriven 0 = false then 0 else if s.groupDriven 1 = false then 1 else 2

/-- It takes that role, its count ends, and the re-alignment of the group it drives is requested. -/
theorem State.becomesSpare_eq (hrole : s.pllRole p.val = 3) (hlock : s.pllLock p.val = true)
    (hcount : s.clk.lockCount.getLsbD p.val = true) :
    ∃ x : ClkState, doPllBecomesSpare p s = { s.setRole p.val s.roleDue with clk := x } := by
  have due : (s.pllRole p.val = 3 && s.pllLock p.val && s.clk.lockCount.getLsbD p.val) = true := by
    rw [hrole, hlock, hcount]
    rfl
  unfold doPllBecomesSpare State.roleDue
  rw [if_pos due]
  have driven (g : Nat) (x : ClkState) : ({ s with clk := x } : State).groupDriven g = s.groupDriven g := rfl
  simp only [driven]
  cases s.groupDriven 0 with
  | false => exact ⟨_, rfl⟩
  | true =>
    cases s.groupDriven 1 with
    | false => exact ⟨_, rfl⟩
    | true => exact ⟨_, rfl⟩

theorem pllBecomesSpare_due (hw : s.storesWf) (hrole : s.pllRole p.val = 3) (hlock : s.pllLock p.val = true)
    (hcount : s.clk.lockCount.getLsbD p.val = true) :
    Ends (.pllBecomesSpare p) s fun t => t.pllRole p.val = s.roleDue ∧ t.pllLock p.val = true ∧
      Framed [.clk] [clkPllStatus] [] s t := by
  have hr := State.storesWf_regs hw
  obtain ⟨x, eq⟩ := State.becomesSpare_eq hrole hlock hcount
  have role : s.roleDue < 4 := by
    unfold State.roleDue
    split
    · decide
    · split <;> decide
  refine ends_of_commit (congrArg (commit s) eq) ⟨?_, ?_, framed_settle ((setReg_framed s _ _ _ _).setClk (by simp) x)⟩
  · rw [settle_pllRole]
    exact (State.pllRole_setRole hr p.isLt _ role).trans (if_pos rfl)
  · rw [settle_pllLock]
    exact (State.pllLock_setRole hr p.isLt _ _).trans hlock

theorem pllBecomesSpare_idle (h : s.pllRole p.val ≠ 3 ∨ s.pllLock p.val = false ∨
    s.clk.lockCount.getLsbD p.val = false) : Idle (.pllBecomesSpare p) s := by
  have undue : (decide (s.pllRole p.val = 3) && s.pllLock p.val && s.clk.lockCount.getLsbD p.val) = false := by
    rcases h with h | h | h
    · rw [decide_eq_false h, Bool.false_and, Bool.false_and]
    · rw [h, Bool.and_false, Bool.false_and]
    · rw [h, Bool.and_false]
  exact idle_of_commit rfl (if_neg (Bool.eq_false_iff.1 undue))

end

end Sys2Proof.Machine
end

section
/-! SUPPORT. The alignment window (R23, R28, R30, R61): what the re-check of the trigger units, a domain's end of its
fence, a reload and the re-alignment of islands leave, and what ALIGNMENT_WINDOW ends in. -/

namespace Sys2Proof.Machine

/-! The trigger units (R78, R80). -/

theorem ttuTime_mem (n : Fin 24) : ttuTimeNs n.val ∈ ttuTimeRegs ∧ ttuTimeSecLo n.val ∈ ttuTimeRegs ∧
    ttuTimeSecHi n.val ∈ ttuTimeRegs ∧ ttuLateCnt n.val ∈ ttuTimeRegs := by
  have unit (a : Nat) (ha : a ∈ [ttuTimeNs n.val, ttuTimeSecLo n.val, ttuTimeSecHi n.val, ttuLateCnt n.val]) :
      a ∈ ttuTimeRegs := List.mem_flatMap.2 ⟨n.val, List.mem_range.2 n.isLt, ha⟩
  exact ⟨unit _ (by simp), unit _ (by simp), unit _ (by simp), unit _ (by simp)⟩

/-- The trigger units' registers lie in TTC. -/
theorem ttuTimeRegs_bounds : ∀ a ∈ ttuTimeRegs, 0x30000 ≤ a ∧ a < 0x40000 := by
  intro a ha
  obtain ⟨n, hn, ha⟩ := List.mem_flatMap.1 ha
  have := List.mem_range.1 hn
  simp only [ttuTimeNs, ttuTimeSecLo, ttuTimeSecHi, ttuLateCnt, List.mem_cons, List.not_mem_nil, or_false] at ha
  omega

theorem State.setTtuTime_framed (s : State) (n : Fin 24) (t : Nat) :
    Framed [.ttu] ttuTimeRegs [] s (s.setTtuTime n t) := by
  obtain ⟨hns, hlo, hhi, -⟩ := ttuTime_mem n
  exact (((Framed.refl _ _ _ s).setReg _ hns).setReg _ hlo).setReg _ hhi

theorem State.setTtuTime_regsWf {s : State} (hr : amWf regReset s.regs) (n : Fin 24) (t : Nat) :
    amWf regReset (s.setTtuTime n t).regs := by
  unfold State.setTtuTime
  exact State.regsWf_setReg (State.regsWf_setReg (State.regsWf_setReg hr _) _) _

/-- What R78 can make of an armed unit: it stands, or is late, and then skips to a later TIME or not. -/
theorem State.ttuAccept_cases (s : State) (n : Fin 24) (d : DTime) : ∃ x,
    s.ttuAccept n d = s.setTtu n x ∨ s.ttuAccept n d = (s.count (ttuLateCnt n.val)).setTtu n x ∨
      ∃ t, s.ttuAccept n d = ((s.count (ttuLateCnt n.val)).setTtuTime n t).setTtu n x := by
  unfold State.ttuAccept
  dsimp only
  split_ifs
  · exact ⟨_, .inr (.inr ⟨_, rfl⟩)⟩
  · exact ⟨_, .inr (.inl rfl)⟩
  · exact ⟨_, .inr (.inl rfl)⟩
  · exact ⟨_, .inl rfl⟩

theorem State.ttuAccept_framed (s : State) (n : Fin 24) (d : DTime) :
    Framed [.ttu] ttuTimeRegs [] s (s.ttuAccept n d) := by
  obtain ⟨-, -, -, hlate⟩ := ttuTime_mem n
  have late := (Framed.refl [.ttu] ttuTimeRegs [] s).count hlate
  obtain ⟨x, eq | eq | ⟨t, eq⟩⟩ := s.ttuAccept_cases n d <;> rw [eq]
  · exact (Framed.refl _ _ _ s).setTtu (by simp) n x
  · exact late.setTtu (by simp) n x
  · exact (late.trans (State.setTtuTime_framed _ n t)).setTtu (by simp) n x

theorem State.ttuAccept_regsWf {s : State} (hr : amWf regReset s.regs) (n : Fin 24) (d : DTime) :
    amWf regReset (s.ttuAccept n d).regs := by
  have late := State.regsWf_count hr (ttuLateCnt n.val)
  obtain ⟨x, eq | eq | ⟨t, eq⟩⟩ := s.ttuAccept_cases n d <;> rw [eq, State.setTtu_regs]
  · exact hr
  · exact late
  · exact State.setTtuTime_regsWf late n t

theorem State.recheck_framed (s : State) (d : Fin 4) : Framed [.ttu] ttuTimeRegs [] s (s.recheck d) := by
  refine List.foldlRecOn (motive := Framed _ _ _ s) _ _ (Framed.refl _ _ _ s) fun t ht k _ => ?_
  dsimp only
  split
  · exact ht.trans (t.ttuAccept_framed _ _)
  · exact ht

theorem State.recheck_regsWf {s : State} (hr : amWf regReset s.regs) (d : Fin 4) :
    amWf regReset (s.recheck d).regs := by
  refine List.foldlRecOn (motive := fun t : State => amWf regReset t.regs) _ _ hr fun t ht k _ => ?_
  dsimp only
  split
  · exact State.ttuAccept_regsWf ht _ _
  · exact ht

/-! A domain leaves its fence (R61, R397). -/

theorem State.fltLeave_framed (s : State) (d : Fin 37) :
    Framed [.flt] [fltReadmitCnt] faultLogWords s (s.fltLeave d) := by
  have logged (cause : Byte) (act : LogAction) (i8 : Byte) (i16 : Nat) :=
    (s.fltLog_framed d.val cause act i8 i16).mono (ps' := [.flt]) (rs' := [fltReadmitCnt]) (ts' := faultLogWords)
      (by simp) (by simp) (by simp)
  unfold State.fltLeave
  dsimp only
  split
  · exact ((logged _ _ _ _).count (by simp)).setFlt (by simp) _
  · exact (logged _ _ _ _).setFlt (by simp) _

theorem State.fltLeave_regsWf {s : State} (hr : amWf regReset s.regs) (d : Fin 37) :
    amWf regReset (s.fltLeave d).regs := by
  have logged (cause : Byte) (act : LogAction) (i8 : Byte) (i16 : Nat) :
      amWf regReset (s.fltLog d.val cause act i8 i16).regs := (s.fltLog_regs d.val cause act i8 i16).symm ▸ hr
  unfold State.fltLeave
  dsimp only
  split
  · exact State.regsWf_setReg (logged _ _ _ _) _
  · exact logged _ _ _ _

/-- A domain that leaves its fence is not fenced, and every other is as it was. -/
theorem State.fltLeave_fenced (s : State) (d : Fin 37) (e : Nat) :
    (s.fltLeave d).fenced e = if e = d.val then false else s.fenced e := by
  have logged (cause : Byte) (act : LogAction) (i8 : Byte) (i16 : Nat) :
      (s.fltLog d.val cause act i8 i16).flt.fenced = s.flt.fenced := by rw [State.fltLog_flt]
  have eq : (s.fltLeave d).flt.fenced = setBit s.flt.fenced d.val false := by
    unfold State.fltLeave
    dsimp only
    split
    · rw [State.count, State.setReg_flt, logged]
    · rw [logged]
  rw [State.fenced, eq, getLsbD_setBit _ d.isLt, State.fenced]

section
variable (s : State) (d : Fin 4)

theorem State.resolveDom_framed :
    Framed [.dom, .flt, .ttu] (fltReadmitCnt :: ttuTimeRegs) faultLogWords s (s.resolveDom d) := by
  unfold State.resolveDom
  split
  · exact (((Framed.refl _ _ _ s).setDom (by simp) d _).trans
      ((State.fltLeave_framed _ _).mono (by simp) (by simp) (by simp))).trans
      ((State.recheck_framed _ d).mono (by simp) (by simp) (by simp))
  · exact Framed.refl _ _ _ s

theorem State.resolveDom_regsWf {s : State} (hr : amWf regReset s.regs) (d : Fin 4) :
    amWf regReset (s.resolveDom d).regs := by
  unfold State.resolveDom
  split
  · exact State.recheck_regsWf (State.fltLeave_regsWf (s := s.setDom d _) hr _) d
  · exact hr

/-- A Datum domain is out of its fence after the window, and no other fence domain is touched. -/
theorem State.resolveDom_fenced (e : Nat) :
    (s.resolveDom d).fenced e = if e = 32 + d.val then false else s.fenced e := by
  have index : (Fin.ofNat 37 (32 + d.val)).val = 32 + d.val := Nat.mod_eq_of_lt (by omega)
  unfold State.resolveDom
  split
  · rw [State.fenced, (State.recheck_framed _ d).parts .flt (by decide)]
    exact (State.fltLeave_fenced _ _ e).trans (by rw [index]; rfl)
  · next h =>
    split
    · next he => rw [he, Bool.eq_false_iff.2 h]
    · rfl

end

/-! Reloads from the standby copies (R30, R59). -/

/-- Every copy of a domain holds the value of the standby copy. -/
def Domain.onStandby (x : Domain) : Prop := x.c0 = x.standby ∧ x.c1 = x.standby ∧ x.c2 = x.standby

theorem State.reloadDom_framed (s : State) (d : Fin 4) : Framed [.dom, .ttu] ttuTimeRegs [] s (s.reloadDom d) :=
  ((Framed.refl _ _ _ s).setDom (by simp) d _).trans ((State.recheck_framed _ d).mono (by simp) (by simp) (by simp))

theorem State.reloadDom_onStandby (s : State) (d e : Fin 4) (h : e = d ∨ s.dom[e].onStandby) :
    (s.reloadDom d).dom[e].onStandby := by
  have dom : (s.reloadDom d).dom = vset s.dom d (s.dom[d].loadAll s.dom[d].standby) :=
    (State.recheck_framed _ d).parts .dom (by decide)
  rw [dom]
  by_cases hed : e = d
  · rw [hed, getElem_vset_same]
    exact ⟨rfl, rfl, rfl⟩
  · rw [getElem_vset_other _ _ hed]
    exact h.resolve_left hed

theorem State.reloadAll_framed (s : State) :
    Framed [.dom, .ttu] (clkDtmReloadCnt :: ttuTimeRegs) [] s s.reloadAll := by
  have reload (t : State) (d : Fin 4) := (t.reloadDom_framed d).mono (ps' := [.dom, .ttu])
    (rs' := clkDtmReloadCnt :: ttuTimeRegs) (ts' := []) (by simp) (by simp) (by simp)
  exact (((((Framed.refl _ _ _ s).count (by simp)).trans (reload _ 0)).trans (reload _ 1)).trans (reload _ 2)).trans
    (reload _ 3)

theorem State.reloadAll_count {s : State} (hr : amWf regReset s.regs) :
    s.reloadAll.reg clkDtmReloadCnt = s.reg clkDtmReloadCnt + 1 := by
  have keep (t : State) (d : Fin 4) : (t.reloadDom d).reg clkDtmReloadCnt = t.reg clkDtmReloadCnt :=
    (t.reloadDom_framed d).regs _ (fun h => absurd (ttuTimeRegs_bounds _ h) (by decide)) (by decide)
  rw [State.reloadAll, keep, keep, keep, keep]
  exact State.reg_setReg_same _ _ _ hr

theorem State.reloadAll_onStandby (s : State) (d : Fin 4) : s.reloadAll.dom[d].onStandby := by
  have step (t : State) (e : Fin 4) (h : d = e ∨ t.dom[d].onStandby) := t.reloadDom_onStandby e d h
  have cases : d = 0 ∨ d = 1 ∨ d = 2 ∨ d = 3 := by omega
  refine step _ 3 (or_iff_not_imp_left.2 fun h3 => step _ 2 (or_iff_not_imp_left.2 fun h2 =>
    step _ 1 (or_iff_not_imp_left.2 fun h1 => step _ 0 (.inl ?_))))
  exact cases.resolve_right fun h => h.elim h1 fun h => h.elim h2 h3

/-! The window. -/

theorem State.refEdge_framed (s : State) : Framed [.dom, .clk] [] [] s s.refEdge :=
  ((((Framed.refl _ _ _ s).setDom (by simp) _ _).setDom (by simp) _ _).setDom (by simp) _ _).setDom (by simp) _ _
    |>.setClk (by simp) _

/-- What every window does before the islands change to their PLLs: the REF edge, and the end of every fence of a Datum
domain (R30, R61). -/
def State.windowDomains (s : State) : State :=
  (((s.refEdge.resolveDom 0).resolveDom 1).resolveDom 2).resolveDom 3

theorem State.windowDomains_framed (s : State) :
    Framed [.clk, .dom, .flt, .ttu] (fltReadmitCnt :: ttuTimeRegs) faultLogWords s s.windowDomains := by
  have resolve (t : State) (d : Fin 4) := (t.resolveDom_framed d).mono (ps' := [.clk, .dom, .flt, .ttu])
    (rs' := fltReadmitCnt :: ttuTimeRegs) (ts' := faultLogWords) (by simp) (by simp) (by simp)
  exact ((((s.refEdge_framed.mono (by simp) (by simp) (by simp)).trans (resolve _ 0)).trans (resolve _ 1)).trans
    (resolve _ 2)).trans (resolve _ 3)

theorem State.windowDomains_regsWf {s : State} (hr : amWf regReset s.regs) : amWf regReset s.windowDomains.regs :=
  State.resolveDom_regsWf (State.resolveDom_regsWf (State.resolveDom_regsWf (State.resolveDom_regsWf
    (s := s.refEdge) hr 0) 1) 2) 3

theorem State.windowDomains_realign (s : State) : s.windowDomains.clk.realign = s.clk.realign := by
  have resolve (t : State) (d : Fin 4) : (t.resolveDom d).clk = t.clk := (t.resolveDom_framed d).parts .clk (by decide)
  rw [State.windowDomains, resolve, resolve, resolve, resolve]
  rfl

theorem State.windowDomains_fenced (s : State) (e : Nat) :
    s.windowDomains.fenced e = if 32 ≤ e ∧ e < 36 then false else s.fenced e := by
  simp only [State.windowDomains, State.resolveDom_fenced]
  by_cases he : 32 ≤ e ∧ e < 36
  · have : e = 32 ∨ e = 33 ∨ e = 34 ∨ e = 35 := by omega
    rw [if_pos he]
    rcases this with rfl | rfl | rfl | rfl <;> rfl
  · have other (d : Fin 4) : e ≠ 32 + d.val := by omega
    rw [if_neg he, if_neg (other 3), if_neg (other 2), if_neg (other 1), if_neg (other 0)]
    rfl

/-- A register outside TTC and FLT_READMIT_CNT is as it was. -/
theorem State.windowDomains_reg (s : State) {a : Nat} (h : a < 0x30000) (hi : a ≠ glbIntCnt) :
    s.windowDomains.reg a = s.reg a := by
  refine s.windowDomains_framed.regs a (fun hm => ?_) hi
  rcases List.mem_cons.1 hm with hm | hm
  · rw [hm] at h
    exact absurd h (by decide)
  · exact absurd (ttuTimeRegs_bounds a hm).1 (by omega)

theorem State.realignIslands_framed (s : State) :
    Framed [.clk] [clkDegraded, clkRealignCnt] [] s s.realignIslands :=
  (((Framed.refl _ _ _ s).setReg _ (by simp)).setReg _ (by simp)).setClk (by simp) _

theorem State.realignIslands_regsWf {s : State} (hr : amWf regReset s.regs) : amWf regReset s.realignIslands.regs :=
  State.regsWf_setReg (State.regsWf_setReg hr _) _

theorem State.realignIslands_degraded {s : State} (hr : amWf regReset s.regs) :
    s.realignIslands.reg clkDegraded = s.reg clkDegraded &&& ~~~(s.clk.realign.setWidth 32) :=
  (State.reg_setReg_other _ _ clkDegraded _ (by decide)).trans (State.reg_setReg_same s _ _ hr)

theorem State.realignIslands_count {s : State} (hr : amWf regReset s.regs) :
    s.realignIslands.reg clkRealignCnt = s.reg clkRealignCnt + w32 (popCount s.clk.realign) :=
  (State.reg_setReg_same _ _ _ (State.regsWf_setReg hr _)).trans
    (congrArg (· + _) (State.reg_setReg_other s _ clkRealignCnt _ (by decide)))

/-- Islands that asked for it re-align; the Port island's change reloads every domain (R30). -/
def State.windowEnds (s : State) : State :=
  if s.clk.realign.getLsbD 0 then s.windowDomains.realignIslands.reloadAll else s.windowDomains.realignIslands

/-- What waits for a window: fenced Datum domains (R61). -/
def State.domWaits (s : State) : Bool := s.fenced 32 || s.fenced 33 || s.fenced 34 || s.fenced 35

theorem doAlignmentWindow_of_waiting {s : State} (h : s.clk.realign ≠ 0 ∨ s.domWaits = true) :
    doAlignmentWindow s = s.windowEnds := by
  have due : (decide (s.clk.realign = 0) && !s.domWaits) = false := by
    rcases h with h | h
    · rw [decide_eq_false h, Bool.false_and]
    · rw [h, Bool.not_true, Bool.and_false]
  exact if_neg (Bool.eq_false_iff.1 due)

/-- A clock register the reload does not count is that of the islands' change. -/
theorem State.windowEnds_reg (s : State) {a : Nat} (h : a < 0x30000) (hi : a ≠ glbIntCnt) (hd : a ≠ clkDtmReloadCnt) :
    s.windowEnds.reg a = s.windowDomains.realignIslands.reg a := by
  unfold State.windowEnds
  split
  · refine (State.reloadAll_framed _).regs a (fun hm => ?_) hi
    rcases List.mem_cons.1 hm with hm | hm
    · exact hd hm
    · exact absurd (ttuTimeRegs_bounds a hm).1 (by omega)
  · rfl

theorem State.windowEnds_part (s : State) {p : Part} (h : p ∉ [Part.dom, .ttu]) :
    p.same s.windowDomains.realignIslands s.windowEnds := by
  unfold State.windowEnds
  split
  · exact (State.reloadAll_framed _).parts p h
  · exact (Framed.refl [] [] [] _).parts p (by simp)

theorem State.windowEnds_framed (s : State) : Framed [.clk, .dom, .flt, .ttu]
    (clkDegraded :: clkRealignCnt :: clkDtmReloadCnt :: fltReadmitCnt :: ttuTimeRegs) faultLogWords s s.windowEnds := by
  have domains := (s.windowDomains_framed).mono (ps' := [.clk, .dom, .flt, .ttu])
    (rs' := clkDegraded :: clkRealignCnt :: clkDtmReloadCnt :: fltReadmitCnt :: ttuTimeRegs) (ts' := faultLogWords)
    (by simp) (by intro a ha; simp only [List.mem_cons] at ha ⊢; tauto) (by simp)
  have islands := domains.trans ((State.realignIslands_framed s.windowDomains).mono (by simp) (by simp) (by simp))
  have reload := (State.reloadAll_framed s.windowDomains.realignIslands).mono (ps' := [.clk, .dom, .flt, .ttu])
    (rs' := clkDegraded :: clkRealignCnt :: clkDtmReloadCnt :: fltReadmitCnt :: ttuTimeRegs) (ts' := faultLogWords)
    (by simp) (by intro a ha; simp only [List.mem_cons] at ha ⊢; tauto) (by simp)
  unfold State.windowEnds
  split
  · exact islands.trans reload
  · exact islands

theorem alignmentWindow_waiting {s : State} (hw : s.storesWf) (h : s.clk.realign ≠ 0 ∨ s.domWaits = true) :
    Ends .alignmentWindow s fun t =>
      t.clk.realign = 0 ∧ t.reg clkDegraded = s.reg clkDegraded &&& ~~~(s.clk.realign.setWidth 32) ∧
      t.reg clkRealignCnt = s.reg clkRealignCnt + w32 (popCount s.clk.realign) ∧
      (∀ d : Fin 4, t.fenced (32 + d.val) = false) ∧ (∀ d < 32, t.fenced d = s.fenced d) ∧
      (s.clk.realign.getLsbD 0 = true → t.reg clkDtmReloadCnt = s.reg clkDtmReloadCnt + 1 ∧
        ∀ d : Fin 4, t.dom[d].c0 = t.dom[d].standby ∧ t.dom[d].c1 = t.dom[d].standby ∧ t.dom[d].c2 = t.dom[d].standby) ∧
      Framed [.clk, .dom, .flt, .ttu]
        (clkDegraded :: clkRealignCnt :: clkDtmReloadCnt :: fltReadmitCnt :: ttuTimeRegs) faultLogWords s t := by
  have hr := State.windowDomains_regsWf (State.storesWf_regs hw)
  have clk : s.windowEnds.clk = s.windowDomains.realignIslands.clk := s.windowEnds_part (p := .clk) (by decide)
  have flt : s.windowEnds.flt = s.windowDomains.flt := s.windowEnds_part (p := .flt) (by decide)
  have fences (e : Nat) : (settle s s.windowEnds).fenced e = if 32 ≤ e ∧ e < 36 then false else s.fenced e := by
    rw [State.fenced, settle_flt, flt, ← State.fenced, State.windowDomains_fenced]
  refine ends_of_commit (congrArg (commit s) (doAlignmentWindow_of_waiting h)) ⟨?_, ?_, ?_, fun d => ?_, fun d hd => ?_,
    fun hport => ⟨?_, fun d => ?_⟩, framed_settle s.windowEnds_framed⟩
  · rw [settle_clk, clk]
    rfl
  · rw [settle_reg _ _ _ (by decide), s.windowEnds_reg (by decide) (by decide) (by decide),
      State.realignIslands_degraded hr, State.windowDomains_realign, s.windowDomains_reg (by decide) (by decide)]
  · rw [settle_reg _ _ _ (by decide), s.windowEnds_reg (by decide) (by decide) (by decide),
      State.realignIslands_count hr, State.windowDomains_realign, s.windowDomains_reg (by decide) (by decide)]
  · rw [fences, if_pos (by omega)]
  · rw [fences, if_neg (by omega)]
  · rw [settle_reg _ _ _ (by decide), State.windowEnds, if_pos hport,
      State.reloadAll_count (State.realignIslands_regsWf hr),
      (State.realignIslands_framed _).regs _ (by decide) (by decide), s.windowDomains_reg (by decide) (by decide)]
  · rw [settle_dom, State.windowEnds, if_pos hport]
    exact State.reloadAll_onStandby _ d

/-- Settles O16, command by command. -/
theorem pllLossAndRecovery : Obligations.PllLossAndRecovery := by
  intro s p hw
  refine ⟨pllLost_ends hw p, idle_of_commit rfl rfl, fun hrole hlock => ⟨pllRelockAttempt_unlocked hrole hlock,
    pllLocked_unlocked hw hrole hlock⟩, pllRelock_idle, pllBecomesSpare_due hw, pllBecomesSpare_idle,
    fun hnone hfence => ?_, alignmentWindow_waiting hw⟩
  exact idle_of_commit rfl (if_pos (by rw [hnone, hfence]; rfl))

end Sys2Proof.Machine
end

section
/-! SUPPORT. Cold starts and the held device (R415, R440, Table FLT-7): what `State.fresh` keeps, what a cold start adds
to it, and what POR_N and COLD end in. -/

namespace Sys2Proof.Machine

/-! The fresh device. -/

/-- On entry to a start the twin's messages and state are all that changes (R413). -/
theorem State.twinFail_framed (s : State) : Framed [.flt] [] [] s s.twinFail := by
  have sent : Framed [.flt] [] [] s (if s.flt.twin = .paired then s.emit (.twin 0 []) else s) := by
    split
    · exact (Framed.refl _ _ _ s).emit _
    · exact Framed.refl _ _ _ s
  unfold State.twinFail
  dsimp only
  split
  · exact sent
  · exact sent.setFlt (by simp) _

theorem State.twinFail_reg (s : State) {a : Nat} (h : a ≠ glbIntCnt) : s.twinFail.reg a = s.reg a :=
  s.twinFail_framed.regs a (by simp) h

section
variable (s : State) (p : Power)

theorem State.fresh_reset : ∀ q ∈ coldParts, q.same State.reset (s.fresh p) := by
  intro q hq
  simp only [coldParts, List.mem_cons, List.not_mem_nil, or_false] at hq
  rcases hq with rfl | rfl | rfl | rfl | rfl | rfl | rfl | rfl | rfl | rfl | rfl | rfl | rfl | rfl | rfl | rfl | rfl |
    rfl | rfl | rfl
  case inr.inr.inr.inr.inr.inr.inr.inr.inl => exact ⟨rfl, rfl⟩
  all_goals exact rfl

theorem State.fresh_regsWf : amWf regReset (s.fresh p).regs :=
  State.regsWf_setReg (State.regsWf_setReg (amWf_nil regReset) _) _

theorem State.fresh_failedStart : (s.fresh p).reg glbFailedStart = s.reg glbFailedStart :=
  (State.reg_setReg_other _ _ _ _ (by decide)).trans (State.reg_setReg_same _ _ _ (amWf_nil regReset))

theorem State.fresh_wakeCause : (s.fresh p).reg clkWakeCause = s.reg clkWakeCause :=
  State.reg_setReg_same _ _ _ (State.regsWf_setReg (amWf_nil regReset) _)

/-- The registers a fresh device does not keep read their reset values. -/
theorem State.fresh_reg {a : Nat} (hf : a ≠ glbFailedStart) (hc : a ≠ clkWakeCause) : (s.fresh p).reg a = regReset a :=
  (State.reg_setReg_other _ _ _ _ hc).trans (State.reg_setReg_other _ _ _ _ hf)

end

/-! What a start adds. -/

/-- The registers a cold start writes. -/
def coldRegs : List Nat :=
  [glbEui64Lo, glbEui64Hi, glbLifecycle, clkPllStatus, clkIslOn, blkBase .clk, clkRefStatus, hifLinkStatus, psqIobank,
    glbColdStartCnt]

/-- The words a cold start writes: calibration words and public keys (R395, R452). -/
def coldTabs : List Nat := words .clk 0 0 19 ++ words .sec 0 0 48

theorem keyWords_length (k : BitVec 384 × BitVec 384) : (keyWords k).length = 24 := by
  simp [keyWords, beWords]

theorem clkWord_mem_coldTabs {k : Nat} (h : k < 19) : tabKey (blkIdx .clk) 0 k ∈ coldTabs :=
  List.mem_append_left _ (List.mem_map.2 ⟨k, List.mem_range.2 h, by rw [Nat.zero_add]⟩)

theorem keyWord_mem_coldTabs {k : Nat} (h : k < 48) : tabKey (blkIdx .sec) 0 k ∈ coldTabs :=
  List.mem_append_right _ (List.mem_map.2 ⟨k, List.mem_range.2 h, by rw [Nat.zero_add]⟩)

section
variable {ps : List Part} {s t : State}

theorem Framed.loadFuses (h : Framed ps coldRegs coldTabs s t) : Framed ps coldRegs coldTabs s t.loadFuses := by
  have regs := ((h.setReg (a := glbEui64Lo) (t.sec.eui.extractLsb' 0 32) (by decide)).setReg (a := glbEui64Hi)
    (t.sec.eui.extractLsb' 32 32) (by decide)).setReg (a := glbLifecycle)
  refine Framed.setTabs (Framed.setTabs (regs _ (by decide)) _ _ _ _ fun k hk => ?_) _ _ _ _ fun k hk => ?_
  · rw [keyWords_length] at hk
    exact keyWord_mem_coldTabs (by omega)
  · rw [keyWords_length] at hk
    exact keyWord_mem_coldTabs (by omega)

theorem Framed.clocksUp (h : Framed ps coldRegs coldTabs s t) (hc : .clk ∈ ps) (hh : .hold ∈ ps) (isl : Word) :
    Framed ps coldRegs coldTabs s (t.clocksUp isl) :=
  ((((h.setReg _ (by decide)).setReg _ (by decide)).setReg _ (by decide)).setHold hh _ _).setClk hc _

theorem Framed.calibrateMask (h : Framed ps coldRegs coldTabs s t) (hf : .free ∈ ps) (m : BitVec 19) :
    Framed ps coldRegs coldTabs s (t.calibrateMask m) := by
  refine List.foldlRecOn (motive := Framed _ _ _ s) _ _ h fun u hu i hi => ?_
  split
  · exact (hu.draw hf).setTab _ (clkWord_mem_coldTabs (List.mem_range.1 hi))
  · exact hu

end

theorem State.calibrateMask_regs (s : State) (m : BitVec 19) : (s.calibrateMask m).regs = s.regs := by
  refine List.foldlRecOn (motive := fun t : State => t.regs = s.regs) _ _ rfl fun t ht i _ => ?_
  split
  · exact ht
  · exact ht

/-- The calibration words of an earlier state are kept (R452). -/
theorem State.calibrationKept_framed (s : State) (ps : List Part) (rs : List Nat) (u : State) :
    Framed ps rs coldTabs u (u.setTabs .clk 0 0 (s.tabWords .clk 0 0 19)) := by
  refine Framed.setTabs (Framed.refl _ _ _ u) _ _ _ _ fun k hk => ?_
  rw [Nat.zero_add]
  exact clkWord_mem_coldTabs (by simpa [State.tabWords] using hk)

/-- The fresh device with its calibration words, fuses and clocks: a cold start up to its straps. -/
def State.coldClocks (s : State) (isl : Word) : State :=
  ((s.twinFail.fresh .run).setTabs .clk 0 0 (s.tabWords .clk 0 0 19)).loadFuses.clocksUp isl

/-- The straps sampled at POR_N (R19, R441), or what an earlier sampling left, and the count of cold starts. -/
def State.strapped (u s : State) (straps : Option (Bool × Bool × BitVec 6)) : State :=
  match straps with
  | some (ref, wide, iobank) =>
    (((u.setReg clkRefStatus (w32 (2 * b2n ref + 1))).setReg hifLinkStatus (w32 (2 ^ 31 * b2n wide))).setReg psqIobank
      (iobank.setWidth 32)).setReg glbColdStartCnt 0
  | none =>
    (((u.setReg psqIobank (s.reg psqIobank)).setReg clkRefStatus (s.reg clkRefStatus)).setReg hifLinkStatus
      (s.reg hifLinkStatus &&& 0x80000000#32)).setReg glbColdStartCnt (s.reg glbColdStartCnt)

section
variable (s : State) (straps : Option (Bool × Bool × BitVec 6))

theorem State.coldBase_eq (isl cal : Word) : s.coldBase straps isl cal =
    { ((s.coldClocks isl).strapped s straps).calibrateMask (cal.setWidth 19) with
      flt := { FltState.reset with
        startDoneSeen := straps.isNone && s.flt.startDoneSeen
        rotDue := s.clk.tick + FltState.reset.rotDue } } := by
  cases straps with
  | none => rfl
  | some x => rfl

theorem State.strapped_framed (u : State) {ps : List Part} :
    Framed ps [clkRefStatus, hifLinkStatus, psqIobank, glbColdStartCnt] coldTabs u (u.strapped s straps) := by
  have start := Framed.refl ps [clkRefStatus, hifLinkStatus, psqIobank, glbColdStartCnt] coldTabs u
  cases straps with
  | none => exact (((start.setReg _ (by simp)).setReg _ (by simp)).setReg _ (by simp)).setReg _ (by simp)
  | some x => exact (((start.setReg _ (by simp)).setReg _ (by simp)).setReg _ (by simp)).setReg _ (by simp)

theorem State.coldClocks_framed (isl : Word) :
    Framed [.hold, .clk, .flt, .free] coldRegs coldTabs (s.twinFail.fresh .run) (s.coldClocks isl) := by
  exact (s.calibrationKept_framed _ _ _).loadFuses.clocksUp (by simp) (by simp) isl

theorem State.coldBase_framed (isl cal : Word) :
    Framed [.hold, .clk, .flt, .free] coldRegs coldTabs (s.twinFail.fresh .run) (s.coldBase straps isl cal) := by
  have strapped := (s.coldClocks_framed isl).trans ((s.strapped_framed straps (s.coldClocks isl)).mono
    (List.Subset.refl _) (by decide) (List.Subset.refl _))
  rw [State.coldBase_eq]
  exact (strapped.calibrateMask (by simp) _).setFlt (by simp) _

/-- A cold start writes nothing but its clocks' part and the registers and words named. -/
theorem State.coldStart_framed :
    Framed [.hold, .clk, .flt, .free] coldRegs coldTabs (s.twinFail.fresh .run) (s.coldStart straps) :=
  (((s.coldBase_framed straps startIslands 0x7FFFF).count (by decide)).setFlt (by simp) _).emit _

end

end Sys2Proof.Machine
end

section
/-! SUPPORT. The registers of a cold start, and what POR_N and COLD end in. -/

namespace Sys2Proof.Machine

section
variable (s : State) (isl : Word) (straps : Option (Bool × Bool × BitVec 6))

/-! Registers. -/

theorem State.loadFuses_reg (s : State) (a : Nat) : s.loadFuses.reg a =
    (((s.setReg glbEui64Lo (s.sec.eui.extractLsb' 0 32)).setReg glbEui64Hi (s.sec.eui.extractLsb' 32 32)).setRegField
      glbLifecycle 0 2 s.sec.lifecycle.toNat).reg a := by
  refine State.reg_of_regs_eq ?_
  rw [State.loadFuses, State.setTabs_regs, State.setTabs_regs]

theorem State.loadFuses_regsWf {s : State} (hr : amWf regReset s.regs) : amWf regReset s.loadFuses.regs := by
  rw [State.loadFuses, State.setTabs_regs, State.setTabs_regs]
  exact State.regsWf_setReg (State.regsWf_setReg (State.regsWf_setReg hr _) _) _

/-- GLB_LIFECYCLE shows the lifecycle of the fuses, and keeps its other fields (R367). -/
theorem State.loadFuses_lifecycle {s : State} (hr : amWf regReset s.regs) :
    s.loadFuses.reg glbLifecycle = setField (s.reg glbLifecycle) 0 2 s.sec.lifecycle.toNat := by
  have wf := State.regsWf_setReg (a := glbEui64Hi) (State.regsWf_setReg (a := glbEui64Lo) hr
    (s.sec.eui.extractLsb' 0 32)) (s.sec.eui.extractLsb' 32 32)
  rw [State.loadFuses_reg, State.setRegField, State.reg_setReg_same _ _ _ wf,
    State.reg_setReg_other _ _ _ _ (by decide), State.reg_setReg_other _ _ _ _ (by decide)]

theorem State.clocksUp_regsWf {s : State} (hr : amWf regReset s.regs) : amWf regReset (s.clocksUp isl).regs :=
  State.regsWf_setReg (State.regsWf_setReg (State.regsWf_setReg hr _) _) _

theorem State.clocksUp_islOn {s : State} (hr : amWf regReset s.regs) : (s.clocksUp isl).reg clkIslOn = isl :=
  (State.reg_setReg_other _ _ _ _ (by decide)).trans (State.reg_setReg_same _ _ _ (State.regsWf_setReg hr _))

theorem State.clocksUp_lifecycle (s : State) : (s.clocksUp isl).reg glbLifecycle = s.reg glbLifecycle :=
  (State.reg_setReg_other _ _ _ _ (by decide)).trans
    ((State.reg_setReg_other _ _ _ _ (by decide)).trans (State.reg_setReg_other _ _ _ _ (by decide)))

theorem State.coldFresh_regsWf :
    amWf regReset ((s.twinFail.fresh .run).setTabs .clk 0 0 (s.tabWords .clk 0 0 19)).regs := by
  rw [State.setTabs_regs]
  exact State.fresh_regsWf _ _

theorem State.coldClocks_regsWf : amWf regReset (s.coldClocks isl).regs :=
  State.clocksUp_regsWf isl (State.loadFuses_regsWf s.coldFresh_regsWf)

theorem State.coldClocks_islOn : (s.coldClocks isl).reg clkIslOn = isl :=
  State.clocksUp_islOn isl (State.loadFuses_regsWf s.coldFresh_regsWf)

theorem State.coldClocks_lifecycle :
    (s.coldClocks isl).reg glbLifecycle = setField (0 : Word) 0 2 s.sec.lifecycle.toNat := by
  have sec : ((s.twinFail.fresh .run).setTabs .clk 0 0 (s.tabWords .clk 0 0 19)).sec.lifecycle = s.sec.lifecycle := by
    rw [(s.calibrationKept_framed [] [] (s.twinFail.fresh .run)).parts .sec (by decide)]
    exact congrArg (fun x => (fusedSec x).lifecycle) (s.twinFail_framed.parts .sec (by decide))
  have reset : regReset glbLifecycle = 0 := by decide +kernel
  rw [State.coldClocks, State.clocksUp_lifecycle, State.loadFuses_lifecycle s.coldFresh_regsWf, sec,
    State.reg_of_regs_eq (State.setTabs_regs _ _ _ _ _), State.fresh_reg _ _ (by decide) (by decide), reset]

theorem State.coldBase_regs (cal : Word) :
    (s.coldBase straps isl cal).regs = ((s.coldClocks isl).strapped s straps).regs := by
  rw [State.coldBase_eq]
  exact State.calibrateMask_regs _ _

/-- After the straps a cold start writes its count alone of the registers. -/
theorem State.coldStart_regs : (s.coldStart straps).regs =
    (((s.coldClocks startIslands).strapped s straps).count glbColdStartCnt).regs := by
  change ((s.coldBase straps startIslands 0x7FFFF).count glbColdStartCnt).regs = _
  rw [State.count, State.setReg_regs, State.count, State.setReg_regs, State.reg, State.reg, State.coldBase_regs]

/-- The straps' registers read as sampled. -/
theorem State.coldStart_strapReg {a : Nat} (h : a ≠ glbColdStartCnt) :
    (s.coldStart straps).reg a = ((s.coldClocks startIslands).strapped s straps).reg a :=
  (State.reg_of_regs_eq (s.coldStart_regs straps)).trans (State.reg_setReg_other _ _ _ _ h)

/-- A register that is none of the straps' reads as the clocks' step leaves it. -/
theorem State.coldStart_reg {a : Nat} (h : a ∉ [clkRefStatus, hifLinkStatus, psqIobank, glbColdStartCnt])
    (hi : a ≠ glbIntCnt) : (s.coldStart straps).reg a = (s.coldClocks startIslands).reg a :=
  (s.coldStart_strapReg straps fun e => h (by simp [e])).trans
    ((State.strapped_framed (ps := []) s straps _).regs a h hi)

theorem State.strapped_regsWf {u : State} (hr : amWf regReset u.regs) : amWf regReset (u.strapped s straps).regs := by
  cases straps with
  | none => exact State.regsWf_setReg (State.regsWf_setReg (State.regsWf_setReg (State.regsWf_setReg hr _) _) _) _
  | some x => exact State.regsWf_setReg (State.regsWf_setReg (State.regsWf_setReg (State.regsWf_setReg hr _) _) _) _

/-- The count of cold starts goes up by one. -/
theorem State.coldStart_count : (s.coldStart straps).reg glbColdStartCnt =
    ((s.coldClocks startIslands).strapped s straps).reg glbColdStartCnt + 1 :=
  (State.reg_of_regs_eq (s.coldStart_regs straps)).trans
    (State.reg_setReg_same _ _ _ (State.strapped_regsWf s straps (s.coldClocks_regsWf _)))

/-! What a cold start has begun. -/

theorem State.coldStart_flt : (s.coldStart straps).flt = { FltState.reset with
    startDoneSeen := straps.isNone && s.flt.startDoneSeen
    rotDue := s.clk.tick + FltState.reset.rotDue
    starting := some .cold } := by
  rw [State.coldStart, State.coldBase_eq]
  rfl

/-- The record of outputs goes on with the start, whatever went out before it. -/
theorem State.coldStart_sends : ∃ l, Sends (l ++ [.start 0]) s (s.coldStart straps) := by
  have last : (s.coldStart straps).out =
      ((s.coldBase straps startIslands 0x7FFFF).count glbColdStartCnt).out ++ [.start 0] := by
    rw [State.coldStart, State.emit_out]
  rw [State.count, State.setReg_out] at last
  obtain ⟨l, hl⟩ := s.twinFail_framed.out.trans (s.coldBase_framed straps startIslands 0x7FFFF).out
  refine ⟨l, ?_⟩
  rw [Sends, last, ← hl, List.append_assoc]

/-- What both kinds of cold start leave (R415, Table FLT-7). -/
theorem coldStarted_settle (base : State) : ColdStarted s (settle base (s.coldStart straps)) := by
  have frame := s.coldStart_framed straps
  have entry := s.twinFail_framed
  have kept (p : Part) (h : p ∉ [Part.hold, .clk, .flt, .free]) :
      p.same (s.twinFail.fresh .run) (settle base (s.coldStart straps)) :=
    p.same_trans (frame.parts p h) (settle_part base _ p)
  have reset (p : Part) (hp : p ∈ coldParts) : p.same State.reset (settle base (s.coldStart straps)) :=
    p.same_trans (State.fresh_reset _ _ p hp) (kept p fun hc => by
      simp only [List.mem_cons, List.not_mem_nil, or_false] at hc
      rcases hc with rfl | rfl | rfl | rfl <;> exact absurd hp (by decide))
  have flt := (settle_flt base (s.coldStart straps)).trans (s.coldStart_flt straps)
  have sec : (settle base (s.coldStart straps)).sec = fusedSec s.sec :=
    (kept .sec (by decide)).trans (congrArg fusedSec (entry.parts .sec (by decide)))
  obtain ⟨inLevel, extLevel⟩ := kept .mfpIn (by decide)
  obtain ⟨inEntry, extEntry⟩ := entry.parts .mfpIn (by decide)
  have lifecycle : (settle base (s.coldStart straps)).reg glbLifecycle =
      setField (0 : Word) 0 2 s.sec.lifecycle.toNat := by
    rw [settle_reg _ _ _ (by decide), State.coldStart_reg _ _ (by decide) (by decide), State.coldClocks_lifecycle]
  obtain ⟨l, sent⟩ := s.coldStart_sends straps
  refine ⟨kept .power (by decide), reset, (kept .pending (by decide)).trans (entry.parts .pending (by decide)),
    inLevel.trans inEntry, extLevel.trans extEntry, ?_, ?_, ?_, ?_, ?_, ?_, ?_, ?_, ?_, ?_, ?_, ?_, l,
    sent.trans (settle_out base _)⟩
  · rw [flt]; rfl
  · rw [flt]; rfl
  · rw [flt]; rfl
  · rw [flt]
  · rw [sec]; rfl
  · rw [sec]; rfl
  · rw [sec]; rfl
  · rw [sec]; rfl
  · rw [sec]; rfl
  · rw [settle_reg _ _ _ (by decide), State.coldStart_reg _ _ (by decide) (by decide), State.coldClocks_islOn]
    rfl
  · rw [lifecycle, fieldOf_setField_same _ (by decide) s.sec.lifecycle.isLt]
  · rw [lifecycle, fieldOf_setField_other _ (by decide) _ (.inr (by decide))]
    rfl

end

/-! POR_N_RISE and COLD. -/

section
variable {s : State}

theorem porNRise_held (ref wide : Bool) (iobank : BitVec 6) (h : s.power = .held) :
    Ends (.porNRise ref wide iobank) s fun t => ColdStarted s t ∧ t.reg glbColdStartCnt = 1 ∧
      bitOf (t.reg clkRefStatus) 1 = ref ∧ bitOf (t.reg hifLinkStatus) 31 = wide ∧
      t.reg psqIobank = iobank.setWidth 32 ∧ t.flt.startDoneSeen = false ∧ t.faultLow = true := by
  have hr := s.coldClocks_regsWf startIslands
  have regsRef := State.regsWf_setReg (a := clkRefStatus) hr (w32 (2 * b2n ref + 1))
  have regsLink := State.regsWf_setReg (a := hifLinkStatus) regsRef (w32 (2 ^ 31 * b2n wide))
  have regsBank := State.regsWf_setReg (a := psqIobank) regsLink (iobank.setWidth 32)
  have flt := (settle_flt s (s.coldStart (some (ref, wide, iobank)))).trans (s.coldStart_flt _)
  have unseen : (settle s (s.coldStart (some (ref, wide, iobank)))).flt.startDoneSeen = false := by rw [flt]; rfl
  refine ends_of_commit (congrArg (commit s) (if_pos h)) ⟨coldStarted_settle s _ s, ?_, ?_, ?_, ?_, unseen, ?_⟩
  · rw [settle_reg _ _ _ (by decide), State.coldStart_count, State.strapped, State.reg_setReg_same _ _ _ regsBank]
    rfl
  · rw [settle_reg _ _ _ (by decide), State.coldStart_strapReg _ _ (by decide), State.strapped,
      State.reg_setReg_other _ _ _ _ (by decide), State.reg_setReg_other _ _ _ _ (by decide),
      State.reg_setReg_other _ _ _ _ (by decide), State.reg_setReg_same _ _ _ hr]
    cases ref <;> rfl
  · rw [settle_reg _ _ _ (by decide), State.coldStart_strapReg _ _ (by decide), State.strapped,
      State.reg_setReg_other _ _ _ _ (by decide), State.reg_setReg_other _ _ _ _ (by decide),
      State.reg_setReg_same _ _ _ regsRef]
    cases wide <;> rfl
  · rw [settle_reg _ _ _ (by decide), State.coldStart_strapReg _ _ (by decide), State.strapped,
      State.reg_setReg_other _ _ _ _ (by decide), State.reg_setReg_same _ _ _ regsLink]
  · rw [State.faultLow, unseen]
    rfl

theorem glbResetCold_open {m : Master} (ho : Open s m true glbResetCmd) :
    Ends (.glbResetCold m) s fun t => ColdStarted s t ∧ t.reg glbColdStartCnt = s.reg glbColdStartCnt + 1 ∧
      t.reg clkRefStatus = s.reg clkRefStatus ∧ bitOf (t.reg hifLinkStatus) 31 = bitOf (s.reg hifLinkStatus) 31 ∧
      t.reg psqIobank = s.reg psqIobank ∧ t.reg glbFailedStart = s.reg glbFailedStart := by
  have hr := s.coldClocks_regsWf startIslands
  have regsBank := State.regsWf_setReg (a := psqIobank) hr (s.reg psqIobank)
  have regsRef := State.regsWf_setReg (a := clkRefStatus) regsBank (s.reg clkRefStatus)
  have regsLink := State.regsWf_setReg (a := hifLinkStatus) regsRef (s.reg hifLinkStatus &&& 0x80000000#32)
  refine ends_of_commit (congrArg (commit s) (State.guarded_of_open ho _))
    ⟨coldStarted_settle s _ s, ?_, ?_, ?_, ?_, ?_⟩
  · rw [settle_reg _ _ _ (by decide), State.coldStart_count, State.strapped, State.reg_setReg_same _ _ _ regsLink]
  · rw [settle_reg _ _ _ (by decide), State.coldStart_strapReg _ _ (by decide), State.strapped,
      State.reg_setReg_other _ _ _ _ (by decide), State.reg_setReg_other _ _ _ _ (by decide),
      State.reg_setReg_same _ _ _ regsBank]
  · rw [settle_reg _ _ _ (by decide), State.coldStart_strapReg _ _ (by decide), State.strapped,
      State.reg_setReg_other _ _ _ _ (by decide), State.reg_setReg_same _ _ _ regsRef, bitOf, BitVec.getLsbD_and]
    exact Bool.and_true _
  · rw [settle_reg _ _ _ (by decide), State.coldStart_strapReg _ _ (by decide), State.strapped,
      State.reg_setReg_other _ _ _ _ (by decide), State.reg_setReg_other _ _ _ _ (by decide),
      State.reg_setReg_other _ _ _ _ (by decide), State.reg_setReg_same _ _ _ hr]
  · rw [settle_reg _ _ _ (by decide), State.coldStart_reg _ _ (by decide) (by decide),
      (s.coldClocks_framed startIslands).regs _ (by decide) (by decide), State.fresh_failedStart,
      s.twinFail_reg (by decide)]

/-! POR_N_ASSERT. -/

theorem porNAssert_ends (hw : s.storesWf) : Ends .porNAssert s fun t => t.power = .held ∧
      (∀ p ∈ coldParts, p.same State.reset t) ∧ t.pending = s.pending ∧ t.sec.lifecycle = s.sec.lifecycle ∧
      t.sec.rollback = s.sec.rollback ∧ t.flt = FltState.reset ∧
      (∀ a, a ≠ glbFailedStart → a ≠ clkWakeCause → a ≠ glbIntCnt → t.reg a = regReset a) ∧
      t.reg clkWakeCause = (if s.power = .p2 then 8 else s.reg clkWakeCause) := by
  obtain ⟨u, hu⟩ : ∃ u, u = if s.power = .p2 then s.setReg clkWakeCause 8 else s := ⟨_, rfl⟩
  have kept : u.pending = s.pending ∧ u.sec = s.sec := by
    rw [hu]
    split
    · exact ⟨rfl, rfl⟩
    · exact ⟨rfl, rfl⟩
  have cause : u.reg clkWakeCause = if s.power = .p2 then 8 else s.reg clkWakeCause := by
    rw [hu]
    split
    · exact State.reg_setReg_same _ _ _ (State.storesWf_regs hw)
    · rfl
  have held : s.holdReset = u.fresh .held := by rw [hu]; rfl
  refine ends_of_commit (congrArg (commit s) held) ⟨settle_power _ _, fun p hp => ?_, ?_, ?_, ?_, settle_flt _ _,
    fun a hf hc hi => ?_, ?_⟩
  · exact p.same_trans (State.fresh_reset u .held p hp) (settle_part _ _ p)
  · rw [settle_pending, ← kept.1]
    rfl
  · rw [settle_sec, ← kept.2]
    rfl
  · rw [settle_sec, ← kept.2]
    rfl
  · rw [settle_reg _ _ _ hi, State.fresh_reg _ _ hf hc]
  · rw [settle_reg _ _ _ (by decide), State.fresh_wakeCause, cause]

end

/-- Settles O13, command by command. -/
theorem coldStartsBeginAfresh : Obligations.ColdStartsBeginAfresh := by
  intro s m ref wide iobank hw
  exact ⟨porNRise_held ref wide iobank, fun h => idle_of_commit rfl (if_neg h), glbResetCold_open, porNAssert_ends hw⟩

end Sys2Proof.Machine
end

section
/-! SUPPORT. EN, QUIESCE and hold (R43, R44): the bits, the blocks whose hold is nothing else, and what QUIESCE and
EN_WRITE end in. -/

namespace Sys2Proof.Machine

/-! EN and hold of a block. -/

section
variable {s : State}

theorem blkIdx_lt (b : Blk) : blkIdx b < 37 := by
  cases b <;> simp only [blkIdx] <;> omega

theorem blkBase_ne_glbIntCnt (b : Blk) : blkBase b ≠ glbIntCnt := blkBase_add_ne_glbIntCnt b (k := 0) (by decide)

theorem State.inHold_setHold (s : State) (b c : Blk) (h : Bool) :
    (s.setHold b h).inHold c = if blkIdx c = blkIdx b then h else s.inHold c :=
  getLsbD_setBit s.hold (blkIdx_lt b) h (blkIdx c)

theorem State.en_setRegBit (hr : amWf regReset s.regs) (b : Blk) (x : Bool) :
    (s.setRegBit (blkBase b) 0 x).en b = x := by
  rw [State.en, State.setRegBit, State.reg_setReg_same _ _ _ hr, bitOf_setBit _ (by decide), if_pos rfl]

theorem settle_inHold (s t : State) (b : Blk) : (settle s t).inHold b = t.inHold b :=
  congrArg (fun h : BitVec 37 => h.getLsbD (blkIdx b)) (settle_hold s t)

theorem settle_en (s t : State) (b : Blk) : (settle s t).en b = t.en b :=
  congrArg (bitOf · 0) (settle_reg s t _ (blkBase_ne_glbIntCnt b))

end

/-! Blocks whose hold is nothing but a bit, and their CTRL. -/

/-- A block that takes EN and QUIESCE, and whose hold and enable bring about nothing else (R43, R44). -/
def PlainHold (b : Blk) : Prop :=
  b = .mem ∨ b = .hif ∨ b = .bfm ∨ b = .swc ∨ b = .xpb ∨ b = .sgm ∨ ∃ e, b = .pec e

section
variable {s : State} {b : Blk} (hp : PlainHold b)
include hp

theorem PlainHold.takes : fixedEn b = false ∧ stickyEn b = false := by
  rcases hp with rfl | rfl | rfl | rfl | rfl | rfl | ⟨e, rfl⟩ <;> exact ⟨rfl, rfl⟩

theorem PlainHold.holdEffect (t : State) : t.holdEffect b = t := by
  rcases hp with rfl | rfl | rfl | rfl | rfl | rfl | ⟨e, rfl⟩ <;> rfl

theorem PlainHold.quiesceBlk : s.quiesceBlk b = if s.inHold b then s else s.setHold b true := by
  rw [State.quiesceBlk, hp.takes.1, hp.takes.2, hp.holdEffect, Bool.false_or, Bool.false_or]

theorem PlainHold.disableBlk : s.disableBlk b = (s.setRegBit (blkBase b) 0 false).setHold b true := by
  have held (t : State) : (if s.inHold b then t else t.holdEffect b) = t := by rw [hp.holdEffect, ite_self]
  rcases hp with rfl | rfl | rfl | rfl | rfl | rfl | ⟨e, rfl⟩ <;> exact held _

theorem PlainHold.enableBlk : s.enableBlk b = (s.setRegBit (blkBase b) 0 true).setHold b false := by
  rcases hp with rfl | rfl | rfl | rfl | rfl | rfl | ⟨e, rfl⟩ <;> rfl

/-- CTRL of such a block: EN that rises enables, EN that falls disables, and one that stays quiesces or not
(R43, R44). -/
theorem PlainHold.ctrlWrite (en q : Bool) : s.ctrlWrite b en q =
    if s.en b = en then (if q then s.quiesceBlk b else s) else if en then s.enableBlk b else s.disableBlk b := by
  unfold State.ctrlWrite
  rw [hp.takes.1, hp.takes.2]
  cases s.en b <;> cases en <;> rfl

end

/-! What QUIESCE and EN_WRITE end in. -/

section
variable {s : State} {m : Master} {b : Blk} (ho : Open s m true (blkBase b))
include ho

theorem exec_quiesce : exec (.quiesce m b) s = commit s (s.quiesceBlk b) :=
  congrArg (commit s) (State.guarded_of_open ho _)

theorem exec_enWrite (en q : Bool) : exec (.enWrite m b en q) s = commit s (s.ctrlWrite b en q) :=
  congrArg (commit s) (State.guarded_of_open ho _)

/-- In GLB, MBX, SEC and FLT neither has an effect. -/
theorem ctrl_idle_of_fixed (hb : b = .glb ∨ b = .mbx ∨ b = .sec ∨ b = .flt) (en q : Bool) :
    Idle (.enWrite m b en q) s ∧ Idle (.quiesce m b) s := by
  have fixed : fixedEn b = true := by rcases hb with rfl | rfl | rfl | rfl <;> rfl
  refine ⟨idle_of_commit (exec_enWrite ho en q) ?_, idle_of_commit (exec_quiesce ho) ?_⟩
  · unfold State.ctrlWrite
    exact if_pos fixed
  · rw [State.quiesceBlk, fixed, Bool.true_or, Bool.true_or, if_pos rfl]

/-- In CLK and DTM EN once 1 stays 1, and QUIESCE holds nothing (R35, R58). -/
theorem ctrl_of_sticky (hw : s.storesWf) (hb : b = .clk ∨ b = .dtm) (q : Bool) :
    Idle (.quiesce m b) s ∧ Idle (.enWrite m b false q) s ∧
      Ends (.enWrite m b true q) s fun t => t.en b = true ∧ Framed [] [blkBase b] [] s t := by
  obtain ⟨free, sticky⟩ : fixedEn b = false ∧ stickyEn b = true := by rcases hb with rfl | rfl <;> exact ⟨rfl, rfl⟩
  have write (en : Bool) : s.ctrlWrite b en q = if en then s.setRegBit (blkBase b) 0 true else s := by
    unfold State.ctrlWrite
    rw [free, sticky]
    rfl
  refine ⟨idle_of_commit (exec_quiesce ho) ?_, idle_of_commit (exec_enWrite ho false q) (write false),
    ends_of_commit ((exec_enWrite ho true q).trans (congrArg (commit s) (write true))) ⟨?_, ?_⟩⟩
  · rw [State.quiesceBlk, sticky, Bool.or_true, Bool.true_or, if_pos rfl]
  · rw [settle_en]
    exact State.en_setRegBit (State.storesWf_regs hw) b true
  · exact framed_settle (setReg_framed s _ _ _ _)

section
variable (hp : PlainHold b)
include hp

omit ho in
/-- QUIESCE puts the block in hold, and nothing else (R43). -/
theorem PlainHold.settle_quiesceBlk :
    (settle s (s.quiesceBlk b)).inHold b = true ∧
      (∀ c, blkIdx c ≠ blkIdx b → (settle s (s.quiesceBlk b)).inHold c = s.inHold c) ∧
      Framed [.hold] [] [] s (settle s (s.quiesceBlk b)) := by
  rw [hp.quiesceBlk]
  split
  · next held =>
    rw [settle_self]
    exact ⟨held, fun _ _ => rfl, Framed.refl _ _ _ s⟩
  · refine ⟨?_, fun c hc => ?_, framed_settle ((Framed.refl _ _ _ s).setHold (by simp) b true)⟩
    · rw [settle_inHold, State.inHold_setHold, if_pos rfl]
    · rw [settle_inHold, State.inHold_setHold, if_neg hc]

/-- EN that changes takes hold with it: 1 to 0 begins it, 0 to 1 ends it, whatever QUIESCE is written (R43, R44). -/
theorem PlainHold.enWrite_changes (hw : s.storesWf) (en q : Bool) (hen : s.en b = !en) :
    Ends (.enWrite m b en q) s fun t => t.en b = en ∧ t.inHold b = !en ∧ Framed [.hold] [blkBase b] [] s t := by
  have write : s.ctrlWrite b en q = (s.setRegBit (blkBase b) 0 en).setHold b (!en) := by
    rw [hp.ctrlWrite, hen, if_neg (by cases en <;> decide)]
    cases en with
    | true => exact hp.enableBlk
    | false => exact hp.disableBlk
  refine ends_of_commit ((exec_enWrite ho en q).trans (congrArg (commit s) write)) ⟨?_, ?_, ?_⟩
  · rw [settle_en]
    exact State.en_setRegBit (State.storesWf_regs hw) b en
  · rw [settle_inHold, State.inHold_setHold, if_pos rfl]
  · exact framed_settle (((Framed.refl _ _ _ s).setReg _ (by simp)).setHold (by simp) b _)

/-- EN that stays leaves QUIESCE to decide (R43). -/
theorem PlainHold.enWrite_stays (en q : Bool) (hen : s.en b = en) :
    exec (.enWrite m b en q) s = commit s (if q then s.quiesceBlk b else s) := by
  rw [exec_enWrite ho, hp.ctrlWrite, if_pos hen]

end

end

end Sys2Proof.Machine
end

section
/-! SUPPORT. The frame in transmission of a port (R176, R193, R210): no operation of the switch's queues starts one, and
with the end of the last one a port with EN = 0 goes down. -/

namespace Sys2Proof.Machine

section
variable (s : State) (n : Fin 8)

/-! Operations that leave every port's frame as it is. -/

theorem State.setEth_tx (m : Fin 8) (x : EthState) (h : x.tx = s.eth[m].tx) :
    (s.setEth m x).eth[n].tx = s.eth[n].tx := by
  rw [State.setEth_eth]
  by_cases hnm : n = m
  · rw [hnm, getElem_vset_same, h]
  · rw [getElem_vset_other _ _ hnm]

theorem State.count_eth (a : Nat) : (s.count a).eth = s.eth := rfl

theorem State.sendFrame_eth (m : Fin 8) (bs : List Byte) : (s.sendFrame m bs).eth = s.eth := rfl

theorem State.pfcFlush_tx (m : Fin 8) : (s.pfcFlush m).eth[n].tx = s.eth[n].tx := by
  unfold State.pfcFlush
  dsimp only
  split
  · rfl
  · have sent : ((s.sendFrame m (s.pfcFrame m s.eth[m].pfcPend)).count (ethTxPfcCnt m.val)).eth = s.eth := by
      rw [State.count_eth, State.sendFrame_eth]
    refine (State.setEth_tx _ n m _ ?_).trans ?_ <;> rw [sent]

theorem State.pfcEval_tx (m : Fin 8) : (s.pfcEval m).eth[n].tx = s.eth[n].tx := by
  unfold State.pfcEval
  exact (State.pfcFlush_tx _ n m).trans (s.setEth_tx n m _ rfl)

theorem State.pfcEvalAll_tx : s.pfcEvalAll.eth[n].tx = s.eth[n].tx :=
  List.foldlRecOn (motive := fun t : State => t.eth[n].tx = s.eth[n].tx) _ _ rfl fun t ht k _ =>
    (t.pfcEval_tx n _).trans ht

theorem State.freeBad_eth (fuel : Nat) (s : State) : (State.freeBad fuel s).eth = s.eth := by
  induction fuel generalizing s with
  | zero => rfl
  | succ fuel ih =>
    unfold State.freeBad
    split
    · rw [ih, State.unqueue, State.setSwc_eth, State.dropAt, State.setTab_eth]
    · rfl

theorem State.sweep_tx : s.sweep.eth[n].tx = s.eth[n].tx := by
  have eth : (State.freeBad s.swc.queues.length s).eth = s.eth := State.freeBad_eth _ s
  refine (State.pfcEvalAll_tx _ n).trans ?_
  rw [State.setSwc_eth, eth]

theorem State.leaveQueue_tx (lp : Fin 22) (fid : Nat) (last : Bool) :
    (s.leaveQueue lp fid last).eth[n].tx = s.eth[n].tx := by
  unfold State.leaveQueue
  split
  · exact State.sweep_tx _ n
  · rfl

theorem State.endOne_eth (m : Fin 8) (counted : Bool) (x : Option TxNow) : (s.endOne m counted x).eth = s.eth := by
  unfold State.endOne
  split
  · rfl
  · dsimp only
    split
    · rfl
    · rfl

/-! Operations that only end frames. -/

variable {s n}

theorem State.endTx_tx (h : s.eth[n].tx = none) (m : Fin 8) (counted tx pre : Bool) :
    (s.endTx m counted tx pre).eth[n].tx = none := by
  unfold State.endTx
  dsimp only
  rw [State.endOne_eth, State.endOne_eth, State.setEth_eth]
  by_cases hnm : n = m
  · subst hnm
    rw [getElem_vset_same]
    dsimp only
    rw [h, ite_self]
  · rw [getElem_vset_other _ _ hnm, h]

theorem State.freeWhere_tx (h : s.eth[n].tx = none) (reason : Nat) (counted : Bool) (p : QEntry → Bool) :
    (s.freeWhere reason counted p).eth[n].tx = none := by
  unfold State.freeWhere
  dsimp only
  refine (State.sweep_tx _ n).trans ?_
  refine List.foldlRecOn (motive := fun t : State => t.eth[n].tx = none) _ _ ?_ fun t ht k _ =>
    State.endTx_tx ht _ _ _ _
  refine List.foldlRecOn (motive := fun t : State => t.eth[n].tx = none) _ _ h fun t ht q _ => ht

/-! QUIESCE_COMPLETE of a port. -/

/-- A port with its frames freed and ended. -/
def State.portFreed (s : State) (n : Fin 8) : State :=
  (s.freeWhere 6 true (fun q => q.lp.val = n.val)).endTx n true true true

/-- The frames of a port whose link falls are freed and ended, with one in reception counted (R170). -/
def State.linkFreed (s : State) (n : Fin 8) (receiving : Bool) : State :=
  if receiving then ((s.portFreed n).count (ethLinkDownCnt n.val)).count (ethRxCodeCnt n.val)
  else (s.portFreed n).count (ethLinkDownCnt n.val)

theorem State.linkFreed_tx (h : s.eth[n].tx = none) (receiving : Bool) :
    (s.linkFreed n receiving).eth[n].tx = none := by
  have ended : (s.portFreed n).eth[n].tx = none := by
    unfold State.portFreed
    exact State.endTx_tx (State.freeWhere_tx h 6 true _) n true true true
  cases receiving with
  | false => rw [State.linkFreed, if_neg Bool.false_ne_true, State.count_eth, ended]
  | true => rw [State.linkFreed, if_pos rfl, State.count_eth, State.count_eth, ended]

/-- A link that is up falls: its port reads down, its pauses end (R170, R187). -/
theorem State.linkFalls_of_up (h : s.eth[n].up = true) (lock receiving : Bool) : ∃ w,
    s.linkFalls n lock receiving = (((s.linkFreed n receiving).setEth n { (s.linkFreed n receiving).eth[n] with
      up := false, paused := 0, pauseQ := Vector.replicate 8 0, pfcPend := 0 }).setReg
        (ethLink n.val) w).holdoverPort n := by
  unfold State.linkFalls
  rw [if_neg (by rw [h]; decide)]
  exact ⟨_, rfl⟩

/-- After its link falls a port has no frame in transmission and reads down (R170). -/
theorem State.linkFalls_eth (h : s.eth[n].tx = none) (lock receiving : Bool) :
    (s.linkFalls n lock receiving).eth[n].tx = none ∧ (s.linkFalls n lock receiving).eth[n].up = false := by
  by_cases hup : s.eth[n].up = true
  · obtain ⟨w, eq⟩ := State.linkFalls_of_up hup lock receiving
    rw [eq, State.holdoverPort, State.setReg_eth, State.setEth_eth, getElem_vset_same]
    exact ⟨State.linkFreed_tx h receiving, rfl⟩
  · rw [State.linkFalls, if_pos (by rw [Bool.eq_false_iff.2 hup]; rfl), State.setRegBit, State.setReg_eth]
    exact ⟨h, Bool.eq_false_iff.2 hup⟩

theorem State.restPort_tx (h : s.eth[n].tx = none) : (s.restPort n).eth[n].tx = none := by
  unfold State.restPort
  split
  · exact (State.linkFalls_eth h _ _).1
  · exact h

theorem State.tx_of_ethQuiet (hq : s.ethQuiet n = true) : s.eth[n].tx = none := by
  rw [State.ethQuiet, Bool.and_eq_true, Bool.and_eq_true] at hq
  obtain ⟨⟨tx, -⟩, -⟩ := hq
  exact Option.isNone_iff_eq_none.1 tx

/-- With EN = 0 and nothing in progress the link goes down (R193). -/
theorem State.restPort_up (hen : s.en (.eth n) = false) (hq : s.ethQuiet n = true) :
    (s.restPort n).eth[n].up = false := by
  rw [State.restPort, hen, hq]
  split
  · exact (State.linkFalls_eth (State.tx_of_ethQuiet hq) _ _).2
  · next h => exact Bool.eq_false_iff.2 h

theorem State.finishTx_of_idle (h : s.eth[n].tx = none) : s.finishTx n = s := by
  rw [State.finishTx, h]

/-- Once the frame in transmission has left there is none (R210). -/
theorem State.finishTx_tx : (s.finishTx n).eth[n].tx = none := by
  unfold State.finishTx
  split
  · next h => exact h
  · have sent (c : Bool) (t : State) (bs : List Byte) : (if c then t else t.sendFrame n bs).eth = t.eth := by
      cases c with
      | false => exact State.sendFrame_eth t n bs
      | true => rfl
    dsimp only
    rw [State.leaveQueue_tx, sent, State.setEth_eth, getElem_vset_same]

end

/-! A ring's own envelope. -/

section
variable (s : State)

theorem State.ringRelay_ring (n : Fin 8) (bs : List Byte) (whole : Bool) : (s.ringRelay n bs whole).ring = s.ring := by
  unfold State.ringRelay
  split
  · rfl
  · rfl

/-- The own envelope of a ring is over, and the other ring is as it was. -/
theorem State.envDone_ring (r q : Fin 2) :
    (s.envDone r).ring[q].env = if q = r then none else s.ring[q].env := by
  have relayed (l : List (Fin 8 × List Byte)) (t : State) :
      (l.foldl (fun t c => t.ringRelay c.1 c.2 true) t).ring = t.ring :=
    List.foldlRecOn (motive := fun u : State => u.ring = t.ring) _ _ rfl fun u hu c _ =>
      (u.ringRelay_ring c.1 c.2 true).trans hu
  unfold State.envDone
  split
  · next h =>
    split
    · next hq => rw [hq, h]
    · rfl
  · dsimp only
    rw [State.modRing, State.setRing_ring, relayed]
    split
    · next hq => rw [hq, getElem_vset_same]
    · next hq => rw [getElem_vset_other _ _ hq]

end

/-! What QUIESCE_COMPLETE ends in. -/

section
variable {s : State}

theorem doQuiesceComplete_outside_hold {b : Blk} (h : s.inHold b = false) : doQuiesceComplete b s = s := by
  unfold doQuiesceComplete
  exact if_pos (by rw [h]; rfl)

theorem doQuiesceComplete_eth {n : Fin 8} (h : s.inHold (.eth n) = true) :
    doQuiesceComplete (.eth n) s = (s.finishTx n).restPort n := by
  unfold doQuiesceComplete
  exact if_neg (by rw [h]; decide)

theorem doQuiesceComplete_can {n : Fin 4} (h : s.inHold (.can n) = true) :
    doQuiesceComplete (.can n) s = s.canQuiet n := by
  unfold doQuiesceComplete
  exact if_neg (by rw [h]; decide)

theorem doQuiesceComplete_nrg (h : s.inHold .nrg = true) : doQuiesceComplete .nrg s = (s.envDone 0).envDone 1 := by
  unfold doQuiesceComplete
  exact if_neg (by rw [h]; decide)

/-- A block with no work of its own under way. -/
theorem doQuiesceComplete_other {b : Blk} (he : ∀ n, b ≠ .eth n) (hn : b ≠ .nrg) (hc : ∀ n, b ≠ .can n) :
    doQuiesceComplete b s = s := by
  unfold doQuiesceComplete
  split
  · rfl
  · split
    · exact absurd rfl (he _)
    · exact absurd rfl hn
    · exact absurd rfl (hc _)
    · rfl

/-- A port that is enabled and sends nothing has nothing to complete. -/
theorem doQuiesceComplete_eth_idle {n : Fin 8} (h : s.inHold (.eth n) = true) (hen : s.en (.eth n) = true)
    (htx : s.eth[n].tx = none) : doQuiesceComplete (.eth n) s = s := by
  rw [doQuiesceComplete_eth h, State.finishTx_of_idle htx, State.restPort, hen]
  exact if_neg (by simp)

theorem quiesceComplete_eth {n : Fin 8} (h : s.inHold (.eth n) = true) :
    Ends (.quiesceComplete (.eth n)) s fun t => t.eth[n].tx = none ∧
      (s.en (.eth n) = false → s.ethQuiet n = true → t.eth[n].up = false) := by
  refine ends_of_commit (congrArg (commit s) (doQuiesceComplete_eth h)) ⟨?_, fun hen hq => ?_⟩
  · rw [settle_eth, State.restPort_tx State.finishTx_tx]
  · rw [settle_eth, State.finishTx_of_idle (State.tx_of_ethQuiet hq), State.restPort_up hen hq]

theorem quiesceComplete_can {n : Fin 4} (h : s.inHold (.can n) = true) :
    Ends (.quiesceComplete (.can n)) s fun t =>
      t.can = vset s.can n { s.can[n] with foreign := false } ∧ Framed [.can] [] [] s t :=
  ends_of_commit (congrArg (commit s) (doQuiesceComplete_can h))
    ⟨settle_can _ _, framed_settle ((Framed.refl _ _ _ s).setCan (by simp) n _)⟩

theorem quiesceComplete_nrg (h : s.inHold .nrg = true) :
    Ends (.quiesceComplete .nrg) s fun t => ∀ r : Fin 2, t.ring[r].env = none := by
  refine ends_of_commit (congrArg (commit s) (doQuiesceComplete_nrg h)) fun r => ?_
  rw [settle_ring, State.envDone_ring]
  split
  · rfl
  · next h1 => rw [State.envDone_ring, if_pos (by omega)]

end

/-- Settles O11, block by block. -/
theorem enableAndQuiesceOfABlock : Obligations.EnableAndQuiesceOfABlock := by
  intro s m b en q hw ho
  refine ⟨fun hb => ctrl_idle_of_fixed ho hb en q, fun hb => ctrl_of_sticky ho hw hb q, fun (hp : PlainHold b) =>
    ⟨?quiesce, fun hen => hp.enWrite_changes ho hw false q hen, fun hen => hp.enWrite_changes ho hw true q hen,
      fun hen hq => ?keeps, fun hen hq => ?quiesces⟩,
    fun h => idle_of_commit rfl (doQuiesceComplete_outside_hold h),
    fun _ he hn hc => idle_of_commit rfl (doQuiesceComplete_other he hn hc), ?idlePort, ?port, ?channel, ?rings⟩
  case quiesce => exact ends_of_commit (exec_quiesce ho) hp.settle_quiesceBlk
  case keeps => exact idle_of_commit (hp.enWrite_stays ho en q hen) (by rw [hq]; rfl)
  case quiesces =>
    obtain ⟨held, -, frame⟩ := hp.settle_quiesceBlk (s := s)
    subst hq
    exact ends_of_commit (hp.enWrite_stays ho en true hen) ⟨held, frame⟩
  case idlePort =>
    rintro n rfl h hen htx
    exact idle_of_commit rfl (doQuiesceComplete_eth_idle h hen htx)
  case port =>
    rintro n rfl h
    exact quiesceComplete_eth h
  case channel =>
    rintro n rfl h
    exact quiesceComplete_can h
  case rings =>
    rintro rfl h
    exact quiesceComplete_nrg h

end Sys2Proof.Machine
end

section
/-! SUPPORT. The canonical form of the stores (O5): what it says store by store, and that every operation of the machine
keeps it. `h.op : (s.op …).storesWf` for each operation `op`, so that the proof for a composed operation is read off its
definition: the operations in the order in which it applies them. -/

namespace Sys2Proof.Machine

/-! The stores of a state one by one, and the rules of the record updates that touch them. -/

/-- `State.storesWf`, store by store. -/
structure State.Canonical (s : State) : Prop where
  regs : amWf regReset s.regs
  tabs : amWf tabReset s.tabs
  ind : amWf (fun _ => indReset) s.ind
  latches : amWf (fun _ => 0) s.latches
  banks : amWf bankReset s.mem.banks
  dmem : ∀ e : Fin 10, amWf (fun _ => 0) s.eng[e].dmem
  written : amWf (fun _ => 0) s.mbx.written
  streams : amWf (fun _ => ⟨true, 0, 0, 0, 0⟩) s.swc.streams
  elim : amWf (fun _ => []) s.swc.elim
  history : ∀ r : Fin 2, amWf (fun _ => []) s.ring[r].history
  ctx : amWf (fun _ => HostCtx.reset) s.hif.ctx
  routes : amWf (fun _ => RouteSt.reset) s.sgm.routes
  ram : amWf (fun _ => 0) s.sec.ram
  retention : amWf (fun _ => 0) s.sec.retention
  scratch : (s.mem.window.all fun y => y.scratch.length = 256) = true

theorem State.storesWf_iff_canonical (s : State) : s.storesWf ↔ s.Canonical := by
  simp only [State.sharedWf_iff, State.blocksWf, Bool.and_eq_true, decide_eq_true_eq]
  exact ⟨fun ⟨⟨h1, h2, h3, h4⟩, ⟨⟨⟨⟨⟨⟨⟨⟨⟨⟨h5, h6⟩, h7⟩, h8⟩, h9⟩, h10⟩, h11⟩, h12⟩, h13⟩, h14⟩, h15⟩⟩ =>
      ⟨h1, h2, h3, h4, h5, h6, h7, h8, h9, h10, h11, h12, h13, h14, h15⟩,
    fun ⟨h1, h2, h3, h4, h5, h6, h7, h8, h9, h10, h11, h12, h13, h14, h15⟩ =>
      ⟨⟨h1, h2, h3, h4⟩, ⟨⟨⟨⟨⟨⟨⟨⟨⟨⟨h5, h6⟩, h7⟩, h8⟩, h9⟩, h10⟩, h11⟩, h12⟩, h13⟩, h14⟩, h15⟩⟩⟩

theorem State.storesWf.canonical {s : State} (h : s.storesWf) : s.Canonical := (storesWf_iff_canonical s).1 h

theorem State.Canonical.wf {s : State} (h : s.Canonical) : s.storesWf := (storesWf_iff_canonical s).2 h

section
variable {s t : State}

/-! Control: a branch, the second part of a pair, a loop over a list. -/

theorem State.storesWf.ite {c : Prop} {i : Decidable c} (hs : s.storesWf) (ht : t.storesWf) :
    (if c then s else t).storesWf := by
  split
  · exact hs
  · exact ht

theorem State.storesWf.iteSnd {α : Type} {c : Prop} {i : Decidable c} {p q : α × State} (hp : p.2.storesWf)
    (hq : q.2.storesWf) : (if c then p else q).2.storesWf := by
  split
  · exact hp
  · exact hq

theorem State.storesWf.iteSnd2 {α β : Type} {c : Prop} {i : Decidable c} {p q : α × β × State} (hp : p.2.2.storesWf)
    (hq : q.2.2.storesWf) : (if c then p else q).2.2.storesWf := by
  split
  · exact hp
  · exact hq

theorem State.storesWf.iteFst {α : Type} {c : Prop} {i : Decidable c} {p q : State × α} (hp : p.1.storesWf)
    (hq : q.1.storesWf) : (if c then p else q).1.storesWf := by
  split
  · exact hp
  · exact hq

theorem State.storesWf.iteSt {c : Prop} {i : Decidable c} {p q : SupRes} (hp : p.st.storesWf) (hq : q.st.storesWf) :
    (if c then p else q).st.storesWf := by
  split
  · exact hp
  · exact hq

theorem State.storesWf.foldl {α : Type} {l : List α} {f : State → α → State} (h : s.storesWf)
    (hf : ∀ t, t.storesWf → ∀ a, (f t a).storesWf) : (l.foldl f s).storesWf := by
  induction l generalizing s with
  | nil => exact h
  | cons a l ih => exact ih (hf s h a)

/-! The updates that write a store. -/

theorem State.storesWf.setReg (h : s.storesWf) {a : Nat} {v : Word} : (s.setReg a v).storesWf :=
  storesWf_setReg s a v h

theorem State.storesWf.setTab (h : s.storesWf) {b : Blk} {sp w : Nat} {v : Word} : (s.setTab b sp w v).storesWf :=
  storesWf_setTab s b sp w v h

theorem State.storesWf.setInd (h : s.storesWf) {b : Blk} {sup : Bool} {x : IndSet} : (s.setInd b sup x).storesWf :=
  storesWf_setInd s b sup x h

theorem State.storesWf.latchFor (h : s.storesWf) {who a : Nat} {v : Word} : (s.latchFor who a v).storesWf :=
  storesWf_latchFor s who a v h

theorem State.storesWf.setBankByte (h : s.storesWf) {b off : Nat} {v : Byte} : (s.setBankByte b off v).storesWf :=
  storesWf_setBankByte s b off v h

theorem State.storesWf.ownerWrite (h : s.storesWf) {b off t : Nat} {bs : List Byte} :
    (s.ownerWrite b off bs t).storesWf :=
  storesWf_ownerWrite bs t s b off h

theorem State.storesWf.setMbxWritten (h : s.storesWf) {b : Fin 64} {m : BitVec 16} : (s.setMbxWritten b m).storesWf :=
  State.Canonical.wf { h.canonical with written := amPut_wf _ _ _ _ h.canonical.written }

theorem State.storesWf.setHctx (h : s.storesWf) {c : Fin 256} {x : HostCtx} : (s.setHctx c x).storesWf :=
  State.Canonical.wf { h.canonical with ctx := amPut_wf _ _ _ _ h.canonical.ctx }

theorem State.storesWf.setRoute (h : s.storesWf) {k : Nat} {x : RouteSt} : (s.setRoute k x).storesWf :=
  State.Canonical.wf { h.canonical with routes := amPut_wf _ _ _ _ h.canonical.routes }

theorem State.storesWf.withTabs (h : s.storesWf) {x : AMap Word} (hx : amWf tabReset x) :
    ({ s with tabs := x } : State).storesWf :=
  State.Canonical.wf { h.canonical with tabs := hx }

theorem State.storesWf.setVecWord (h : s.storesWf) {link : Bool} {v k : Nat} {x : Word} :
    (s.setVecWord link v k x).storesWf :=
  have put {w : Word} := h.withTabs (amPut_wf tabReset s.tabs (tabKey (msixUnit link) 0 (v * 4 + k)) w h.canonical.tabs)
  .ite put put

/-! Updates of a part that has no store, or whose stores they leave as they were. -/

theorem State.storesWf.withPending (h : s.storesWf) {x : List Instr} : ({ s with pending := x } : State).storesWf := h
theorem State.storesWf.withHold (h : s.storesWf) {x : BitVec 37} : ({ s with hold := x } : State).storesWf := h
theorem State.storesWf.withPower (h : s.storesWf) {x : Power} : ({ s with power := x } : State).storesWf := h
theorem State.storesWf.withClk (h : s.storesWf) {x : ClkState} : ({ s with clk := x } : State).storesWf := h
theorem State.storesWf.withDom (h : s.storesWf) {x : Vector Domain 4} : ({ s with dom := x } : State).storesWf := h
theorem State.storesWf.withStepSeq (h : s.storesWf) {x : BitVec 8} : ({ s with stepSeq := x } : State).storesWf := h
theorem State.storesWf.withTtu (h : s.storesWf) {x : Vector Ttu 24} : ({ s with ttu := x } : State).storesWf := h
theorem State.storesWf.withTcu (h : s.storesWf) {x : Vector Tcu 16} : ({ s with tcu := x } : State).storesWf := h
theorem State.storesWf.withMfpExt (h : s.storesWf) {x : BitVec 96} : ({ s with mfpExt := x } : State).storesWf := h
theorem State.storesWf.withMfpIn (h : s.storesWf) {x : BitVec 96} : ({ s with mfpIn := x } : State).storesWf := h
theorem State.storesWf.withInsts (h : s.storesWf) {x : Vector (Option Inst) 10} : ({ s with insts := x } : State).storesWf := h
theorem State.storesWf.withImages (h : s.storesWf) {x : List Image} : ({ s with images := x } : State).storesWf := h
theorem State.storesWf.withBindSeq (h : s.storesWf) {x : Nat} : ({ s with bindSeq := x } : State).storesWf := h
theorem State.storesWf.withRotation (h : s.storesWf) {x : Option Rotation} : ({ s with rotation := x } : State).storesWf := h
theorem State.storesWf.withFlt (h : s.storesWf) {x : FltState} : ({ s with flt := x } : State).storesWf := h
theorem State.storesWf.withEth (h : s.storesWf) {x : Vector EthState 8} : ({ s with eth := x } : State).storesWf := h
theorem State.storesWf.withCan (h : s.storesWf) {x : Vector CanState 4} : ({ s with can := x } : State).storesWf := h
theorem State.storesWf.withPsq (h : s.storesWf) {x : PsqState} : ({ s with psq := x } : State).storesWf := h
theorem State.storesWf.withXpb (h : s.storesWf) {x : XpbState} : ({ s with xpb := x } : State).storesWf := h
theorem State.storesWf.withFree (h : s.storesWf) {x : Nat} : ({ s with free := x } : State).storesWf := h
theorem State.storesWf.withOut (h : s.storesWf) {x : List Output} : ({ s with out := x } : State).storesWf := h

theorem State.storesWf.withSecOf (h : s.storesWf) {x : SecState} (hr : amWf (fun _ => 0) x.ram)
    (ht : amWf (fun _ => 0) x.retention) : ({ s with sec := x } : State).storesWf :=
  State.Canonical.wf { h.canonical with ram := hr, retention := ht }

theorem State.storesWf.withMem (h : s.storesWf) {x : MemState} (hb : x.banks = s.mem.banks := by dsimp only)
    (hw : x.window = s.mem.window := by dsimp only) : ({ s with mem := x } : State).storesWf :=
  State.Canonical.wf { h.canonical with banks := hb ▸ h.canonical.banks, scratch := hw ▸ h.canonical.scratch }

theorem State.storesWf.withMbx (h : s.storesWf) {x : MbxState} (hw : x.written = s.mbx.written := by dsimp only) :
    ({ s with mbx := x } : State).storesWf :=
  State.Canonical.wf { h.canonical with written := hw ▸ h.canonical.written }

theorem State.storesWf.withHif (h : s.storesWf) {x : HifState} (hc : x.ctx = s.hif.ctx := by dsimp only) :
    ({ s with hif := x } : State).storesWf :=
  State.Canonical.wf { h.canonical with ctx := hc ▸ h.canonical.ctx }

theorem State.storesWf.withSgm (h : s.storesWf) {x : SgmState} (hr : x.routes = s.sgm.routes := by dsimp only) :
    ({ s with sgm := x } : State).storesWf :=
  State.Canonical.wf { h.canonical with routes := hr ▸ h.canonical.routes }

theorem State.storesWf.withSwc (h : s.storesWf) {x : SwcState} (hs : x.streams = s.swc.streams := by dsimp only)
    (he : x.elim = s.swc.elim := by dsimp only) : ({ s with swc := x } : State).storesWf :=
  State.Canonical.wf { h.canonical with streams := hs ▸ h.canonical.streams, elim := he ▸ h.canonical.elim }

theorem State.storesWf.withSec (h : s.storesWf) {x : SecState} (hr : x.ram = s.sec.ram := by rfl)
    (ht : x.retention = s.sec.retention := by rfl) : ({ s with sec := x } : State).storesWf :=
  State.Canonical.wf { h.canonical with ram := hr ▸ h.canonical.ram, retention := ht ▸ h.canonical.retention }

theorem State.storesWf.setSwc (h : s.storesWf) {x : SwcState} (hs : x.streams = s.swc.streams := by dsimp only)
    (he : x.elim = s.swc.elim := by dsimp only) : (s.setSwc x).storesWf :=
  h.withSwc hs he

theorem State.storesWf.setSec (h : s.storesWf) {x : SecState} (hr : x.ram = s.sec.ram := by rfl)
    (ht : x.retention = s.sec.retention := by rfl) : (s.setSec x).storesWf :=
  h.withSec hr ht

theorem State.storesWf.modSec (h : s.storesWf) {f : SecState → SecState} 
    (hr : ∀ x, (f x).ram = x.ram := by exact fun _ => rfl)
    (ht : ∀ x, (f x).retention = x.retention := by exact fun _ => rfl) : (s.modSec f).storesWf :=
  h.setSec (hr _) (ht _)

/-- An update of one ring whose history of claims is canonical. -/
theorem State.storesWf.setRingOf (h : s.storesWf) {r : Fin 2} {x : RingState} (hx : amWf (fun _ => []) x.history) :
    (s.setRing r x).storesWf :=
  State.Canonical.wf { h.canonical with
    history := fun q => by
      by_cases hq : q = r
      · subst hq; simpa [State.setRing, vset] using hx
      · have : r.val ≠ q.val := fun e => hq (Fin.ext e.symm)
        simpa [State.setRing, vset, this] using h.canonical.history q }

theorem State.storesWf.setRing (h : s.storesWf) {r : Fin 2} {x : RingState} (hx : x.history = s.ring[r].history := by rfl) :
    (s.setRing r x).storesWf :=
  h.setRingOf (hx ▸ h.canonical.history r)

theorem State.storesWf.modRing (h : s.storesWf) {r : Fin 2} {f : RingState → RingState}
    (hf : ∀ x, (f x).history = x.history := by exact fun _ => rfl) : (s.modRing r f).storesWf :=
  h.setRing (hf _)

/-- An update of one engine whose data memory is canonical. -/
theorem State.storesWf.setEngOf (h : s.storesWf) {e : Fin 10} {x : Engine} (hx : amWf (fun _ => 0) x.dmem) :
    (s.setEng e x).storesWf :=
  State.Canonical.wf { h.canonical with
    dmem := fun q => by
      by_cases hq : q = e
      · subst hq; simpa [State.setEng, vset] using hx
      · have : e.val ≠ q.val := fun i => hq (Fin.ext i.symm)
        simpa [State.setEng, vset, this] using h.canonical.dmem q }

theorem State.storesWf.setEng (h : s.storesWf) {e : Fin 10} {x : Engine} (hx : x.dmem = s.eng[e].dmem := by rfl) :
    (s.setEng e x).storesWf :=
  h.setEngOf (hx ▸ h.canonical.dmem e)

/-! Guarded accesses. -/

theorem State.storesWf.setTabs (h : s.storesWf) {b : Blk} {sp w : Nat} {vs : List Word} :
    (s.setTabs b sp w vs).storesWf := by
  induction vs generalizing s w with
  | nil => exact h
  | cons v r ih => exact ih h.setTab

theorem State.storesWf.bankWrite (h : s.storesWf) {b off : Nat} {bs : List Byte} : (s.bankWrite b off bs).storesWf := by
  induction bs generalizing s off with
  | nil => exact h
  | cons v r ih => exact ih h.setBankByte

theorem State.storesWf.drawN (h : s.storesWf) {n : Nat} : (State.drawN n s).2.storesWf := by
  induction n generalizing s with
  | zero => exact h
  | succ n ih => exact ih h

theorem State.storesWf.latchSnaps (h : s.storesWf) : s.latchSnaps.storesWf :=
  State.Canonical.wf { h.canonical with dmem := fun e => by simpa [State.latchSnaps] using h.canonical.dmem e }

theorem State.storesWf.bankZero (h : s.storesWf) {b : Nat} : (s.bankZero b).storesWf :=
  State.Canonical.wf { h.canonical with banks := amFilter_wf _ _ _ h.canonical.banks }

theorem State.storesWf.wipeSpace (h : s.storesWf) {u sp : Nat} : (s.wipeSpace u sp).storesWf :=
  State.Canonical.wf { h.canonical with tabs := amFilter_wf _ _ _ h.canonical.tabs }

theorem State.storesWf.zeroScratch (h : s.storesWf) {b : Nat} : (s.zeroScratch b).storesWf := by
  unfold State.zeroScratch
  split
  next w hw =>
    have hs := h.canonical.scratch
    rw [hw] at hs
    exact .ite (State.Canonical.wf { h.canonical with scratch := by simpa using hs }) h
  · exact h

end

end Sys2Proof.Machine
end

section
/-! SUPPORT. Every operation of the machine keeps its stores canonical, chapter by chapter in the order of the model.
The side conditions of the rules for records are default arguments, which Lean runs against the whole environment: with the
proofs elaborated one after another none waits for the others. -/

namespace Sys2Proof.Machine

set_option Elab.async false

variable {s : State}

/-! Ops. -/

theorem State.storesWf.count (h : s.storesWf) {a : Nat} : (s.count a).storesWf := h.setReg

theorem State.storesWf.countN (h : s.storesWf) {a n : Nat} : (s.countN a n).storesWf := h.setReg

theorem State.storesWf.count64 (h : s.storesWf) {a n : Nat} : (s.count64 a n).storesWf := h.setReg.setReg

theorem State.storesWf.setRegField (h : s.storesWf) {a lo len v : Nat} : (s.setRegField a lo len v).storesWf :=
  h.setReg

theorem State.storesWf.setRegBit (h : s.storesWf) {a i : Nat} {b : Bool} : (s.setRegBit a i b).storesWf :=
  h.setReg

theorem State.storesWf.setHold (h : s.storesWf) {b : Blk} {k : Bool} : (s.setHold b k).storesWf := h.withHold

theorem State.storesWf.clearTab (h : s.storesWf) {b : Blk} {space word n : Nat} :
    (s.clearTab b space word n).storesWf :=
  h.foldl fun _ ht _ => ht.setTab

theorem State.storesWf.draw (h : s.storesWf) : s.draw.2.storesWf := h.withFree

theorem State.storesWf.emit (h : s.storesWf) {o : Output} : (s.emit o).storesWf := h.withOut

theorem State.storesWf.cfgRej (h : s.storesWf) {b : Blk} {viaInd : Bool} {addr : Nat} :
    (s.cfgRej b viaInd addr).storesWf :=
  h.count.setReg

theorem State.storesWf.rejReg (h : s.storesWf) {b : Blk} {a : Nat} : (s.rejReg b a).storesWf := h.cfgRej

theorem State.storesWf.clearCnt (h : s.storesWf) {b : Blk} {a : Nat} : (s.clearCnt b a).storesWf :=
  h.setReg.setReg.ite h.setReg

theorem State.storesWf.fltLog (h : s.storesWf) {domain : Nat} {cause : Byte} {act : LogAction} {i8 : Byte}
    {i16 : Nat} : (s.fltLog domain cause act i8 i16).storesWf :=
  h.setTabs.withFlt

theorem State.storesWf.fltLatch (h : s.storesWf) {d : Fin 37} {cause i8 : Byte} {i16 : Nat} :
    (s.fltLatch d cause i8 i16).storesWf :=
  h.withFlt.ite (h.fltLog.count.withFlt.ite h.fltLog.count.withFlt)

theorem State.storesWf.fltPermanent (h : s.storesWf) {d : Fin 37} {cause : Byte} :
    (s.fltPermanent d cause).storesWf :=
  h.fltLog.count.withFlt

theorem State.storesWf.fltLeave (h : s.storesWf) {d : Fin 37} : (s.fltLeave d).storesWf := by
  unfold State.fltLeave
  extract_lets +onlyGivenNames _ _ s1
  have hs1 : s1.storesWf := h.fltLog.count.ite h.fltLog
  exact hs1.withFlt

/-! Guard. -/

theorem State.storesWf.logBusErr (h : s.storesWf) {link write : Bool} {bar a : Nat} {status : Byte} :
    (s.logBusErr link write bar a status).storesWf :=
  h.withHif.ite h.count

theorem State.storesWf.hostErr (h : s.storesWf) {link write : Bool} {bar a : Nat} {status : Byte} :
    (s.hostErr link write bar a status).storesWf :=
  h.logBusErr.emit.ite (h.logBusErr.emit.ite h.logBusErr)

theorem State.storesWf.accessErr (h : s.storesWf) {m : Master} {write : Bool} {bar a : Nat} {status : Byte} :
    (s.accessErr m write bar a status).storesWf := by
  unfold State.accessErr
  split
  exacts [h.hostErr, h.hostErr, h.count.emit, h.emit, h.emit]

theorem State.storesWf.guarded (h : s.storesWf) {m : Master} {a : Nat} {f : State → State}
    (hf : ∀ t : State, t.storesWf → (f t).storesWf) : (s.guarded m a f).storesWf := by
  unfold State.guarded
  split
  exacts [hf s h, h.accessErr, h.rejReg]

theorem State.storesWf.sharedCmd (h : s.storesWf) {m : Master} {b : Blk} {o : Nat} {v : Word} {f : Word → State → State}
    (hf : ∀ (w : Word) (t : State), t.storesWf → (f w t).storesWf) : (s.sharedCmd m b o v f).storesWf :=
  (hf _ _ h).ite (h.accessErr.ite (hf _ _ h.accessErr))

theorem State.storesWf.guardedRead (h : s.storesWf) {m : Master} {a : Nat} {f : State → State}
    (hf : ∀ t : State, t.storesWf → (f t).storesWf) : (s.guardedRead m a f).storesWf := by
  unfold State.guardedRead
  split
  exacts [hf s h, h.accessErr, h.rejReg]

theorem State.storesWf.latch (h : s.storesWf) {m : Master} {a : Nat} {v : Word} : (s.latch m a v).storesWf :=
  h.latchFor

theorem State.storesWf.msix (h : s.storesWf) {link : Bool} {vector : Nat} : (s.msix link vector).storesWf :=
  h.withHif.ite h.emit

/-! Irq. -/

theorem State.storesWf.raiseIrq (h : s.storesWf) {n : Nat} : (s.raiseIrq n).storesWf := h.count.msix

theorem State.storesWf.raiseIrqs {s' s : State} (h : s'.storesWf) : (raiseIrqs s s').storesWf :=
  h.foldl fun _ ht _ => ht.raiseIrq.ite ht

theorem State.storesWf.faultPin {s' s : State} (h : s'.storesWf) : (faultPin s s').storesWf := h.ite h.emit

theorem State.storesWf.settle {s' s : State} (h : s'.storesWf) : (settle s s').storesWf :=
  h.faultPin.raiseIrqs

/-! Ttu. -/

theorem State.storesWf.setTtuTime (h : s.storesWf) {n : Fin 24} {t : Nat} : (s.setTtuTime n t).storesWf :=
  h.setReg.setReg.setReg

theorem State.storesWf.setTtu (h : s.storesWf) {n : Fin 24} {t : Ttu} : (s.setTtu n t).storesWf := h.withTtu

theorem State.storesWf.ttuAccept (h : s.storesWf) {n : Fin 24} {d : DTime} : (s.ttuAccept n d).storesWf :=
  ((h.count.setTtuTime.setTtu.ite h.count.setTtu).ite h.count.setTtu).ite h.setTtu

theorem State.storesWf.armUnit (h : s.storesWf) {n : Fin 24} : (s.armUnit n).storesWf :=
  h.rejReg.ite (h.ite h.ttuAccept)

theorem State.storesWf.disarmUnit (h : s.storesWf) {n : Fin 24} : (s.disarmUnit n).storesWf := h.setTtu

theorem State.storesWf.doTtuArm (h : s.storesWf) {m : Master} {n : Fin 24} : (doTtuArm m n s).storesWf :=
  h.guarded fun _ ht => ht.armUnit

theorem State.storesWf.doTtuDisarm (h : s.storesWf) {m : Master} {n : Fin 24} : (doTtuDisarm m n s).storesWf :=
  h.guarded fun _ ht => ht.disarmUnit

theorem State.storesWf.disarmAll (h : s.storesWf) : s.disarmAll.storesWf := h.withTtu

theorem State.storesWf.quiesceTtc (h : s.storesWf) : s.quiesceTtc.storesWf :=
  h.foldl fun _ ht _ => ht.setTtu.ite ht

theorem State.storesWf.recheck (h : s.storesWf) {d : Fin 4} : (s.recheck d).storesWf :=
  h.foldl fun _ ht _ => ht.ttuAccept.ite ht

theorem State.storesWf.ttuWrite (h : s.storesWf) {n : Fin 24} {a : Nat} {v : Word} : (s.ttuWrite n a v).storesWf :=
  h.rejReg.ite (h.rejReg.ite h.setReg)

theorem State.storesWf.tcuWrite (h : s.storesWf) {n : Fin 16} {v : Word} : (s.tcuWrite n v).storesWf :=
  h.rejReg.ite (h.rejReg.setRegBit.ite h.setReg)

theorem State.storesWf.captureRead (h : s.storesWf) {who : Nat} {n : Fin 16} : (s.captureRead who n).2.storesWf := by
  unfold State.captureRead
  extract_lets +onlyGivenNames _
  split
  exacts [h.latchFor.latchFor, h.withTcu.latchFor.latchFor]

theorem State.storesWf.ttcUnitWrite (h : s.storesWf) {o : Nat} {v : Word} : (s.ttcUnitWrite o v).storesWf := by
  unfold State.ttcUnitWrite
  split
  · extract_lets +onlyGivenNames _ _
    split
    exacts [h.disarmUnit.ite (h.armUnit.ite h), h.clearCnt.ite h, h.ttuWrite, h.ttuWrite, h.ttuWrite, h.ttuWrite]
  · extract_lets +onlyGivenNames _
    split
    exacts [h.tcuWrite, h.clearCnt.ite h, h]

theorem State.storesWf.ttcUnitRead (h : s.storesWf) {who o : Nat} : (s.ttcUnitRead who o).2.storesWf := by
  unfold State.ttcUnitRead
  split
  · exact h
  · extract_lets +onlyGivenNames _
    split
    exacts [h.captureRead, h, h, h, h]

/-! Dtm. -/

theorem State.storesWf.setDom (h : s.storesWf) {d : Fin 4} {x : Domain} : (s.setDom d x).storesWf := h.withDom

theorem State.storesWf.clearAdj (h : s.storesWf) {d : Fin 4} : (s.clearAdj d).storesWf := h.setDom.setReg.setReg

theorem State.storesWf.tickClock (h : s.storesWf) : s.tickClock.storesWf := h

theorem State.storesWf.afterTick (h : s.storesWf) {applied : Bool} {d : Fin 4} : (s.afterTick applied d).storesWf :=
  h.clearAdj.count.recheck.ite (h.setDom.ite h)

theorem State.storesWf.dtmTick (h : s.storesWf) {step : Fin 4 → Option (DTime → DTime)} : (s.dtmTick step).storesWf :=
  h.tickClock.latchSnaps.ite h.withDom.tickClock.afterTick.afterTick.afterTick.afterTick.latchSnaps

theorem State.storesWf.plainTick (h : s.storesWf) : s.plainTick.storesWf := h.dtmTick

theorem State.storesWf.doIncWrite (h : s.storesWf) {m : Master} {d : Fin 4} {frac : Word} :
    (doIncWrite m d frac s).storesWf := by
  unfold Machine.doIncWrite
  refine h.guarded fun t ht => ht.ite ?_
  have hs1 {x : Domain} {r : Nat} {v : Word} : ((t.setDom d x).setReg r v).storesWf := ht.setDom.setReg
  exact hs1.count.ite hs1

theorem State.storesWf.doAdjRequest (h : s.storesWf) {m : Master} {d : Fin 4} {frac : Word} :
    (doAdjRequest m d frac s).storesWf :=
  h.guarded fun _ ht => ht.ite ht.setDom.setReg

theorem State.storesWf.doAdjApply (h : s.storesWf) {d : Fin 4} : (doAdjApply d s).storesWf := h.plainTick.ite h

theorem State.storesWf.logStep (h : s.storesWf) {m : Master} {d : Fin 4} {kind : Nat} {before : DTime} {corr : Int} :
    (s.logStep m d kind before corr).storesWf :=
  h.setTabs.withStepSeq

theorem State.storesWf.afterStep {s0 : State} (h : s.storesWf) {m : Master} {loads forced : BitVec 4} {d : Fin 4} :
    (s0.afterStep m loads forced s d).storesWf := by
  unfold State.afterStep
  split
  · exact h
  · extract_lets +onlyGivenNames _ _ s1
    have hs1 : s1.storesWf := h.count.logStep
    exact (hs1.ite hs1.clearAdj).recheck

theorem State.storesWf.stepTick (h : s.storesWf) {m : Master} {loads forced : BitVec 4} :
    (s.stepTick m loads forced).storesWf :=
  h.ite (h.dtmTick.foldl fun _ ht _ => ht.afterStep)

theorem State.storesWf.dtmSteps (h : s.storesWf) {m : Master} {v : Word} : (s.dtmSteps m v).storesWf :=
  h.ite h.stepTick

theorem State.storesWf.doForceStep (h : s.storesWf) {m : Master} {domains : BitVec 4} :
    (doForceStep m domains s).storesWf :=
  h.guarded fun _ ht => ht.sharedCmd fun _ _ ht => ht.dtmSteps

theorem State.storesWf.doLoad (h : s.storesWf) {m : Master} {domains forced : BitVec 4} :
    (doLoad m domains forced s).storesWf :=
  h.guarded fun _ ht => ht.sharedCmd fun _ _ ht => ht.dtmSteps

theorem State.storesWf.doVoteReload (h : s.storesWf) {d : Fin 4} {u0 u1 u2 : BitVec 112} :
    (doVoteReload d u0 u1 u2 s).storesWf :=
  h.ite h.setDom.count.plainTick

theorem State.storesWf.doDatumFence (h : s.storesWf) {d : Fin 4} {u0 u1 u2 : BitVec 112} :
    (doDatumFence d u0 u1 u2 s).storesWf :=
  h.ite h.setDom.fltLatch

theorem State.storesWf.standbyEdge (h : s.storesWf) {d : Fin 4} : (s.standbyEdge d).storesWf := h.setDom

theorem State.storesWf.refEdge (h : s.storesWf) : s.refEdge.storesWf := by
  unfold State.refEdge
  extract_lets +onlyGivenNames s1
  have hs1 : s1.storesWf := h.standbyEdge.standbyEdge.standbyEdge.standbyEdge
  exact hs1.withClk

theorem State.storesWf.reloadDom (h : s.storesWf) {d : Fin 4} : (s.reloadDom d).storesWf := h.setDom.recheck

theorem State.storesWf.reloadAll (h : s.storesWf) : s.reloadAll.storesWf :=
  h.count.reloadDom.reloadDom.reloadDom.reloadDom

theorem State.storesWf.resolveDom (h : s.storesWf) {d : Fin 4} : (s.resolveDom d).storesWf :=
  h.setDom.fltLeave.recheck.ite h

theorem State.storesWf.holdoverPort (h : s.storesWf) {n : Fin 8} : (s.holdoverPort n).storesWf := h.withDom

theorem State.storesWf.doSyntWindowEnd (h : s.storesWf) {d : Fin 4} {measured : Word} {lock : Bool} :
    (doSyntWindowEnd d measured lock s).storesWf := by
  unfold Machine.doSyntWindowEnd
  extract_lets +onlyGivenNames _ _ _ _
  split
  · exact h.setDom.setReg
  · split
    · extract_lets +onlyGivenNames _ s1
      have hs1 : s1.storesWf := h.setDom.setReg
      exact hs1.count.ite hs1
    · exact h.setDom

/-! Clk. -/

theorem State.storesWf.setRole (h : s.storesWf) {p r : Nat} : (s.setRole p r).storesWf := h.setRegField

theorem State.storesWf.setLock (h : s.storesWf) {p : Nat} {b : Bool} : (s.setLock p b).storesWf := h.setRegBit

theorem State.storesWf.requestRealign (h : s.storesWf) {g : Nat} : (s.requestRealign g).storesWf := h.withClk

theorem State.storesWf.cancelRealign (h : s.storesWf) {g : Nat} : (s.cancelRealign g).storesWf := h.withClk

theorem State.storesWf.degradeGroup (h : s.storesWf) {g : Nat} : (s.degradeGroup g).storesWf := h.setReg

theorem State.storesWf.dropLock (h : s.storesWf) {p : Nat} : (s.dropLock p).storesWf := h.setLock.withClk

theorem State.storesWf.losePll (h : s.storesWf) {p : Nat} : (s.losePll p).storesWf := by
  unfold State.losePll
  extract_lets +onlyGivenNames _
  split
  · exact h.dropLock
  · extract_lets +onlyGivenNames s1
    have hs1 : s1.storesWf := h.dropLock.count.setRole
    split
    · exact hs1.fltLog
    · extract_lets +onlyGivenNames s2
      have hs2 : s2.storesWf := hs1.degradeGroup.cancelRealign
      split
      exacts [hs2.setRole.requestRealign.fltLog, hs2.fltLog]

theorem State.storesWf.doPllLost (h : s.storesWf) {lost : BitVec 3} : (doPllLost lost s).storesWf :=
  h.foldl fun _ ht _ => ht.losePll.ite ht

theorem State.storesWf.realignIslands (h : s.storesWf) : s.realignIslands.storesWf := by
  unfold State.realignIslands
  extract_lets +onlyGivenNames _ s1
  have hs1 : s1.storesWf := h.setReg.countN
  exact hs1.withClk

theorem State.storesWf.doAlignmentWindow (h : s.storesWf) : (doAlignmentWindow s).storesWf := by
  unfold Machine.doAlignmentWindow
  extract_lets +onlyGivenNames _
  split
  · exact h
  · extract_lets +onlyGivenNames _ _ _ s3
    have hs3 : s3.storesWf := h.refEdge.resolveDom.resolveDom.resolveDom.resolveDom.realignIslands
    exact hs3.reloadAll.ite hs3

theorem State.storesWf.doPllRelockAttempt (h : s.storesWf) {p : Fin 3} : (doPllRelockAttempt p s).storesWf :=
  h.withClk.ite h

theorem State.storesWf.doPllLocked (h : s.storesWf) {p : Fin 3} : (doPllLocked p s).storesWf :=
  h.setLock.withClk.ite h

theorem State.storesWf.doPllBecomesSpare (h : s.storesWf) {p : Fin 3} : (doPllBecomesSpare p s).storesWf :=
  (h.withClk.setRole.requestRealign.ite (h.withClk.setRole.requestRealign.ite h.withClk.setRole)).ite h

theorem State.storesWf.islandUp (h : s.storesWf) {i : Nat} : (s.islandUp i).storesWf := h.setRegBit.setRegBit

theorem State.storesWf.islandDown (h : s.storesWf) {i : Nat} : (s.islandDown i).storesWf := by
  unfold State.islandDown
  extract_lets +onlyGivenNames s1
  have hs1 : s1.storesWf := h.setRegBit.setRegBit
  exact hs1.withClk

theorem State.storesWf.doIslandGate (h : s.storesWf) {i : Fin 19} : (doIslandGate i s).storesWf :=
  h.islandDown.ite h

theorem State.storesWf.wake (h : s.storesWf) {i : Nat} : (s.wake i).storesWf := h.count.withClk.ite h

theorem State.storesWf.doIslandClockStart (h : s.storesWf) {i : Fin 19} : (doIslandClockStart i s).storesWf := by
  unfold Machine.doIslandClockStart
  split
  · extract_lets +onlyGivenNames s1
    have hs1 : s1.storesWf := h.islandUp.countN
    exact hs1.withClk
  · exact h

theorem State.storesWf.doClkGateReqWrite (h : s.storesWf) {m : Master} {v : Word} {wakes : BitVec 19} :
    (doClkGateReqWrite m v wakes s).storesWf :=
  h.guarded fun _ ht => ht.setReg.withClk.foldl fun _ ht _ => ht.wake.ite ht

/-! Mem. -/

theorem State.storesWf.nonOwner (h : s.storesWf) {m : BankMaster} {b : Nat} : (s.nonOwner m b).storesWf :=
  h.count.setReg

theorem State.storesWf.bankUe (h : s.storesWf) {b off : Nat} : (s.bankUe b off).storesWf := h.count.withMem

theorem State.storesWf.bankServe (h : s.storesWf) {m : BankMaster} {b off t : Nat} {op : BankOp} {ecc : Ecc} :
    (s.bankServe m b off op ecc t).2.2.storesWf := by
  unfold State.bankServe
  split
  · exact h.nonOwner
  · extract_lets s1
    have hs1 : s1.storesWf := h.count.ite h
    split
    · split
      exacts [hs1.bankUe, hs1]
    · exact hs1.ownerWrite

theorem State.storesWf.doBankAccess (h : s.storesWf) {m : BankMaster} {b : Fin 112} {off : BitVec 17}
    {op : BankOp} {ecc : Ecc} {t : BitVec 10} : (doBankAccess m b off op ecc t s).storesWf :=
  h.bankServe.emit

theorem State.storesWf.setFill (h : s.storesWf) {b : Nat} {w : Option Word} : (s.setFill b w).storesWf := h.withMem

theorem State.storesWf.releaseBank (h : s.storesWf) {b : Nat} {inflight : Bool} :
    (s.releaseBank b inflight).storesWf :=
  h.setReg.setFill.ite h.setReg

theorem State.storesWf.writeNone (h : s.storesWf) {b : Nat} {inflight : Bool} : (s.writeNone b inflight).storesWf :=
  h.setReg.setFill.ite (h.ite h.releaseBank)

theorem State.storesWf.assignBank (h : s.storesWf) {b : Nat} {v : Word} : (s.assignBank b v).storesWf :=
  h.rejReg.ite (h.rejReg.ite (h.setReg.setFill.ite h.setReg))

theorem State.storesWf.ownerRegWrite (h : s.storesWf) {m : Master} {b : Fin 112} {v : Word} {inflight : Bool} :
    (s.ownerRegWrite m b v inflight).storesWf :=
  h.guarded fun _ ht => ht.rejReg.ite (ht.rejReg.ite (ht.writeNone.ite ht.assignBank))

theorem State.storesWf.doBankDrainDone (h : s.storesWf) {b : Fin 112} : (doBankDrainDone b s).storesWf :=
  h.setRegBit

theorem State.storesWf.doBankFillDone (h : s.storesWf) {b : Fin 112} : (doBankFillDone b s).storesWf := by
  unfold Machine.doBankFillDone
  extract_lets +onlyGivenNames _
  split
  · exact h
  · extract_lets +onlyGivenNames _ s1
    have hs1 : s1.storesWf := h.bankZero.zeroScratch.setReg
    exact hs1.withMem

theorem State.storesWf.setSpareRow (h : s.storesWf) {b k v : Nat} : (s.setSpareRow b k v).storesWf := h.setTab

theorem State.storesWf.recountSpares (h : s.storesWf) {b : Nat} : (s.recountSpares b).storesWf := h.setTab

theorem State.storesWf.repairRow (h : s.storesWf) {b row k : Nat} : (s.repairRow b row k).storesWf := by
  unfold State.repairRow
  extract_lets +onlyGivenNames s1
  have hs1 : s1.storesWf := by
    unfold s1
    split
    exacts [h.setSpareRow.setTab, h]
  exact hs1.setSpareRow.recountSpares.count

theorem State.storesWf.advanceWalk (h : s.storesWf) : s.advanceWalk.storesWf := by
  unfold State.advanceWalk
  split
  exacts [h.withMem, h.withMem.ite (h.withMem.count.ite h.withMem)]

theorem State.storesWf.marchRow (h : s.storesWf) {b row : Nat} : (s.marchRow b row).storesWf :=
  h.drawN.bankWrite

theorem State.storesWf.skmVerdict (h : s.storesWf) {b : Nat} {spare : Bool} {row : Nat} {fails : Bool} :
    (s.skmVerdict b spare row fails).1.storesWf := by
  unfold State.skmVerdict
  split
  · exact h.setTab.count.ite h.setTab
  · split
    · exact h
    · extract_lets +onlyGivenNames _
      split
      exacts [h.count, h.count.setTab.fltLog]

/-- An open window whose scratch row is a row. -/
theorem State.storesWf.openWindow (h : s.storesWf) {w : SkmWindow} {k : Nat} (hw : w.scratch.length = 256) :
    ({ s with mem := { s.mem with window := some w, due := k } } : State).storesWf :=
  State.Canonical.wf { h.canonical with scratch := by simpa using hw }

theorem State.bankRead_length (s : State) (b off n : Nat) : (s.bankRead b off n).length = n := by simp [State.bankRead]

theorem State.storesWf.doSkimmerWindow (h : s.storesWf) {fails : Bool} {ce ue : Fin 33} :
    (doSkimmerWindow fails ce ue s).storesWf := by
  unfold Machine.doSkimmerWindow
  extract_lets reg b
  split
  · exact h
  · have hw : s.advanceWalk.storesWf := h.advanceWalk
    exact (hw.setReg.countN.countN.ite (hw.setReg.ite hw.setReg.marchRow)).skmVerdict.openWindow
      (State.bankRead_length ..)

theorem State.storesWf.doSkimmerWindowEnd (h : s.storesWf) : (doSkimmerWindowEnd s).storesWf := by
  unfold Machine.doSkimmerWindowEnd
  split
  · exact h
  · extract_lets s1 s2 s3
    have hs1 : s1.storesWf := h.bankWrite.ite h
    have hs2 : s2.storesWf := by
      unfold s2
      split
      exacts [hs1.repairRow, hs1]
    exact State.Canonical.wf { hs2.setRegBit.canonical with scratch := rfl }

/-! Mbx. -/

theorem State.storesWf.setInst (h : s.storesWf) {r : Fin 10} {i : Option Inst} : (s.setInst r i).storesWf :=
  h.withInsts

theorem State.storesWf.modInst (h : s.storesWf) {r : Fin 10} {f : Inst → Inst} : (s.modInst r f).storesWf := by
  unfold State.modInst
  split
  exacts [h.setInst, h]

theorem State.storesWf.postEvt (h : s.storesWf) {e : Fin 10} {b : Fin 4} : (s.postEvt e b).storesWf := h.setEng

theorem State.storesWf.roleEvt (h : s.storesWf) {r : Fin 10} {b : Fin 4} : (s.roleEvt r b).storesWf := by
  unfold State.roleEvt
  split
  exacts [h.postEvt, h]

theorem State.storesWf.setMbxWord (h : s.storesWf) {b : Fin 64} {w : Nat} {v : Word} :
    (s.setMbxWord b w v).storesWf :=
  h.setReg

theorem State.storesWf.setFull (h : s.storesWf) {b : Fin 64} {f : Bool} : (s.setFull b f).storesWf := h.withMbx

theorem State.storesWf.setNotice (h : s.storesWf) {b : Fin 64} {f : Bool} : (s.setNotice b f).storesWf := h.withMbx

theorem State.storesWf.clearMbxWords (h : s.storesWf) {b : Fin 64} {mask : BitVec 16} :
    (s.clearMbxWords b mask).storesWf :=
  h.foldl fun _ ht _ => ht.setMbxWord.ite ht

theorem State.storesWf.notifyPost (h : s.storesWf) {b : Fin 64} : (s.notifyPost b).storesWf := by
  unfold State.notifyPost
  extract_lets +onlyGivenNames _ s1
  have hs1 : s1.storesWf := by
    unfold s1
    split
    exacts [h.emit, h.roleEvt, h]
  split
  exacts [hs1.ite hs1.wake, hs1]

theorem State.storesWf.mbxSend (h : s.storesWf) {b : Fin 64} {w : Nat} {v : Word} : (s.mbxSend b w v).2.storesWf := by
  unfold State.mbxSend
  split
  · exact h.count
  · split
    · exact h
    · extract_lets +onlyGivenNames s1
      have hs1 : s1.storesWf := h.setMbxWord.setNotice
      exact .iteSnd hs1.setMbxWritten.setFull.count.notifyPost hs1.setMbxWritten

theorem State.storesWf.mbxWrite (h : s.storesWf) {p : MbxPeer} {b : Fin 64} {w : Nat} {v : Word} :
    (s.mbxWrite p b w v).2.storesWf :=
  .iteSnd h.mbxSend h.count

theorem State.storesWf.mbxRead (h : s.storesWf) {p : MbxPeer} {b : Fin 64} {w : Nat} : (s.mbxRead p b w).2.storesWf :=
  .iteSnd h (.iteSnd (h.setFull.ite h) h.count)

theorem State.storesWf.doMbxWrite (h : s.storesWf) {p : MbxPeer} {b : Fin 64} {w : Nat} {v : Word} :
    (doMbxWrite p b w v s).storesWf := by
  unfold Machine.doMbxWrite
  split
  exacts [h.guarded fun _ ht => ht.mbxWrite.ite ht.mbxWrite.accessErr, h.mbxWrite.emit]

theorem State.storesWf.doMbxRead (h : s.storesWf) {p : MbxPeer} {b : Fin 64} {w : Nat} :
    (doMbxRead p b w s).storesWf := by
  unfold Machine.doMbxRead
  split
  next m =>
    refine h.guardedRead fun t ht => ?_
    have hv : (t.mbxRead (.bus m) b w).2.storesWf := ht.mbxRead
    dsimp only
    split
    next heq =>
      rw [heq] at hv
      exact hv.emit
    next heq =>
      rw [heq] at hv
      exact hv.accessErr
  next r =>
    have hv : (s.mbxRead (.role r) b w).2.storesWf := h.mbxRead
    split
    next heq =>
      rw [heq] at hv
      exact hv.emit
    next heq =>
      rw [heq] at hv
      exact hv.emit

theorem State.storesWf.resetReceived (h : s.storesWf) {b : Fin 64} : (s.resetReceived b).storesWf := by
  unfold State.resetReceived
  extract_lets +onlyGivenNames s1
  have hs1 : s1.storesWf := h.clearMbxWords
  exact hs1.setFull.setNotice.count.ite hs1

theorem State.storesWf.resetSent (h : s.storesWf) {b : Fin 64} : (s.resetSent b).storesWf :=
  h.clearMbxWords.setMbxWritten

theorem State.storesWf.resetEndpoint (h : s.storesWf) {code : Byte} : (s.resetEndpoint code).storesWf :=
  h.foldl fun _ ht _ => ht.ite (ht.resetReceived.ite (ht.resetSent.ite ht))

theorem State.storesWf.resetRole (h : s.storesWf) {r : Fin 10} : (s.resetRole r).storesWf := h.resetEndpoint

theorem State.storesWf.doMbxAck (h : s.storesWf) {m : Master} {b : Fin 64} : (doMbxAck m b s).storesWf :=
  h.guarded fun _ ht => ht.setReg.setNotice.ite ht.setReg.rejReg

theorem State.storesWf.doMbxCfgWrite (h : s.storesWf) {m : Master} {b : Fin 64} {v : Word} :
    (doMbxCfgWrite m b v s).storesWf :=
  h.guarded fun _ ht => ht.rejReg.ite ht.setReg.clearMbxWords.setMbxWritten

/-! Esp. -/

theorem State.storesWf.espPieceRead (h : s.storesWf) {e : Fin 10} {a n : Nat} :
    (s.espPieceRead e a n).2.storesWf := by
  unfold State.espPieceRead
  extract_lets +onlyGivenNames _
  split
  · exact h
  · split
    exacts [h.bankServe, h]
  · split
    · exact h
    · split
      exacts [h.mbxRead, h]
  · split
    · exact h
    · split
      exacts [h.ttcUnitRead, h]
  · exact h

theorem State.storesWf.espRead (h : s.storesWf) {e : Fin 10} {a n : Nat} : (s.espRead e a n).2.storesWf := by
  unfold State.espRead
  split
  · extract_lets r
    split
    exacts [h.espPieceRead.espPieceRead, h.espPieceRead]
  · exact h.espPieceRead

theorem dmemWrite_wf (bs : List Byte) : ∀ (d : AMap Byte) (off : Nat), amWf (fun _ => 0) d →
    amWf (fun _ => 0) (dmemWrite d off bs) := by
  induction bs with
  | nil => exact fun _ _ h => h
  | cons v r ih => exact fun d off h => ih _ _ (amPut_wf _ _ _ _ h)

/-- Bytes stored in an engine's local data memory. -/
theorem State.storesWf.setDmem (h : s.storesWf) {e : Fin 10} {x : Engine} {off : Nat} {bs : List Byte}
    (hx : x.dmem = dmemWrite s.eng[e].dmem off bs := by rfl) : (s.setEng e x).storesWf :=
  h.setEngOf (hx ▸ dmemWrite_wf bs _ _ (h.canonical.dmem e))

theorem State.storesWf.espPieceWrite (h : s.storesWf) {e : Fin 10} {a : Nat} {bs : List Byte} :
    (s.espPieceWrite e a bs).2.storesWf := by
  unfold State.espPieceWrite
  extract_lets x
  split
  · exact h.setDmem
  · split
    exacts [h.bankServe, h]
  · split
    · exact h
    · split
      exacts [h.mbxWrite, h]
  · exact h.iteSnd (h.iteSnd h.ttcUnitWrite)
  · exact h

theorem State.storesWf.espWrite (h : s.storesWf) {e : Fin 10} {a : Nat} {bs : List Byte} :
    (s.espWrite e a bs).2.storesWf := by
  unfold State.espWrite
  split
  · extract_lets t r
    have ht : t.2.storesWf := h.espPieceWrite
    split
    · split
      exacts [ht.espPieceWrite, h.espPieceWrite]
    · exact ht
  · exact h.espPieceWrite

theorem State.storesWf.stagingPieceWrite (h : s.storesWf) {e : Fin 10} {a : Nat} {bs : List Byte} :
    (s.stagingPieceWrite e a bs).storesWf := by
  unfold State.stagingPieceWrite
  split
  · exact h.setDmem
  · split
    exacts [h.ownerWrite.ite h, h]
  · exact h

theorem State.storesWf.stagingWrite (h : s.storesWf) {e : Fin 10} {a : Nat} {bs : List Byte} :
    (s.stagingWrite e a bs).storesWf :=
  (h.foldl fun _ ht _ => ht.stagingPieceWrite).ite h

/-! SgmOps. -/

theorem State.storesWf.sgmMark (h : s.storesWf) {kind : Nat} {feeds : Word → Nat → Bool} :
    (s.sgmMark kind feeds).storesWf :=
  h.foldl fun _ ht _ => ht.setRoute

/-! Macsec. -/

theorem State.storesWf.setPn (h : s.storesWf) {n : Fin 8} {word pn : Nat} : (s.setPn n word pn).storesWf :=
  h.setTab.setTab

theorem State.storesWf.msecProtect (h : s.storesWf) {n : Fin 8} {bs : List Byte} : (s.msecProtect n bs).2.storesWf :=
  .iteSnd h (.iteSnd h.count (.iteSnd h.setPn h.setPn))

theorem State.storesWf.msecFail (h : s.storesWf) {n : Fin 8} {cnt : Nat} {encrypted : Bool} {plain : List Byte} :
    (s.msecFail n cnt encrypted plain).2.storesWf :=
  .iteSnd h.count h.count

theorem State.storesWf.msecValidate (h : s.storesWf) {n : Fin 8} {bs : List Byte} :
    (s.msecValidate n bs).2.storesWf := by
  unfold State.msecValidate
  extract_lets +onlyGivenNames _
  split
  · exact h
  · split
    · exact .iteSnd h (.iteSnd h.count h.count)
    · split
      · exact h
      · extract_lets +onlyGivenNames _ _ _ _ _ _ _ _ _
        split
        exacts [h.msecFail, .iteSnd h.msecFail (.iteSnd h.msecFail (.iteSnd h.msecFail h.setPn.setPn))]

/-! Eth. -/

theorem State.storesWf.setEth (h : s.storesWf) {n : Fin 8} {e : EthState} : (s.setEth n e).storesWf := h.withEth

theorem State.storesWf.sendFrame (h : s.storesWf) {n : Fin 8} {bs : List Byte} : (s.sendFrame n bs).storesWf :=
  h.emit.count64.count64

theorem State.storesWf.pfcFlush (h : s.storesWf) {n : Fin 8} : (s.pfcFlush n).storesWf :=
  h.ite h.sendFrame.count.setEth

theorem State.storesWf.pfcEval (h : s.storesWf) {n : Fin 8} : (s.pfcEval n).storesWf := h.setEth.pfcFlush

theorem State.storesWf.pfcEvalAll (h : s.storesWf) : s.pfcEvalAll.storesWf := h.foldl fun _ ht _ => ht.pfcEval

theorem State.storesWf.doPfcRefresh (h : s.storesWf) {n : Fin 8} : (doPfcRefresh n s).storesWf :=
  h.ite h.setEth.pfcFlush

theorem State.storesWf.pfcReceive (h : s.storesWf) {n : Fin 8} {bs : List Byte} : (s.pfcReceive n bs).storesWf :=
  h.count.count.ite (h.count.setEth.count.ite h.count.setEth)

theorem State.storesWf.doPauseTimerExpire (h : s.storesWf) {n p : Fin 8} : (doPauseTimerExpire n p s).storesWf :=
  h.setEth

theorem State.storesWf.toSwitch (h : s.storesWf) {lp : Fin 22} {f : Frame} : (s.toSwitch lp f).storesWf :=
  h.ite h.withSwc

theorem State.storesWf.receiveGood (h : s.storesWf) {n : Fin 8} {line : List Byte} {ph : Fin 16} {frag : Bool} :
    (s.receiveGood n line ph frag).storesWf := by
  unfold State.receiveGood
  have hv : (s.msecValidate n line).2.storesWf := h.msecValidate
  split
  next heq =>
    rw [heq] at hv
    exact hv
  next heq =>
    rw [heq] at hv
    exact (hv.pfcReceive.ite hv.count).ite (hv.count.ite (hv.toSwitch.count64.count64.ite hv))

theorem State.storesWf.mdioAccept (h : s.storesWf) {i : Fin 2} {v : Word} : (s.mdioAccept i v).storesWf :=
  h.setEth.count.ite h.setEth.emit

theorem State.storesWf.doMdioGo (h : s.storesWf) {m : Master} {i : Fin 2} {v : Word} : (doMdioGo m i v s).storesWf :=
  h.guarded fun _ ht => ht.setReg.ite (ht.setReg.setEth.ite ht.setReg.mdioAccept)

theorem State.storesWf.doMdioDone (h : s.storesWf) {i : Fin 2} {data : BitVec 16} :
    (doMdioDone i data s).storesWf := by
  unfold Machine.doMdioDone
  extract_lets +onlyGivenNames _ _
  split
  · exact h
  · extract_lets +onlyGivenNames _ _ s2
    have hs2 : s2.storesWf := h.setEth.setReg.ite h.setEth
    exact hs2.mdioAccept.ite hs2

theorem State.storesWf.tsqPush (h : s.storesWf) {n : Fin 8} {tag : BitVec 16} {st : Stamp} :
    (s.tsqPush n tag st).storesWf :=
  h.setEth.ite h.count

theorem State.storesWf.tsqPop (h : s.storesWf) {m : Master} {n : Fin 8} : (s.tsqPop m n).2.storesWf := by
  unfold State.tsqPop
  extract_lets +onlyGivenNames _
  split
  exacts [h.latch.latch.latch, h.setEth.latch.latch.latch]

theorem State.storesWf.doTsqRead (h : s.storesWf) {m : Master} {n : Fin 8} : (doTsqRead m n s).storesWf :=
  h.guardedRead fun _ ht => ht.tsqPop.emit

theorem State.storesWf.doHalfDuplexNegotiated (h : s.storesWf) {n : Fin 8} : (doHalfDuplexNegotiated n s).storesWf :=
  h.setEth.ite h

/-! HifOps. -/

theorem State.storesWf.setCtxWord (h : s.storesWf) {c : Fin 256} {w : Nat} {v : Word} :
    (s.setCtxWord c w v).storesWf :=
  h.setTab

theorem State.storesWf.sendVector (h : s.storesWf) {c : Fin 256} : (s.sendVector c).storesWf := h.setHctx.msix

theorem State.storesWf.moderate (h : s.storesWf) {c : Fin 256} {irq : Bool} : (s.moderate c irq).storesWf :=
  h.setHctx.sendVector.ite h.setHctx

theorem State.storesWf.writeCqe (h : s.storesWf) {c : Fin 256} {w0 w1 w2 w3 : Word} {irq : Bool} :
    (s.writeCqe c w0 w1 w2 w3 irq).storesWf :=
  h.emit.setCtxWord.moderate

theorem State.storesWf.writeLoose (h : s.storesWf) {c : Fin 256} {w0 w1 w2 w3 : Word} :
    (s.writeLoose c w0 w1 w2 w3).storesWf :=
  h.writeCqe.ite h.count

theorem State.storesWf.hostEvent (h : s.storesWf) {c : Fin 256} {code : Byte} {info : Word} :
    (s.hostEvent c code info).storesWf :=
  h.writeLoose.ite h.count

theorem State.storesWf.txCqe (h : s.storesWf) {c : Fin 256} {d : TxDesc} {status : Byte} {verdict : Nat} :
    (s.txCqe c d status verdict).storesWf :=
  h.writeCqe.setCtxWord

theorem State.storesWf.txFlush (h : s.storesWf) {n : Nat} {c : Fin 256} : (State.txFlush n s c).storesWf := by
  induction n generalizing s with
  | zero => exact h
  | succ n ih =>
    unfold State.txFlush
    extract_lets x
    split
    · exact h
    · split
      exacts [(ih h.txCqe.setHctx).ite h, h]

theorem State.storesWf.txResult (h : s.storesWf) {c : Fin 256} {idx : Nat} {status : Byte} {verdict : Nat} :
    (s.txResult c idx status verdict).storesWf :=
  h.setHctx.txFlush

/-! Fwu. -/

theorem State.storesWf.setFresh (h : s.storesWf) {e : Fin 10} {k : Nat} : (s.setFresh e k).storesWf := h.setEng

theorem State.storesWf.fwuDeposit (h : s.storesWf) {role : Fin 10} {stream : Fin 256} {bs : List Byte} :
    (s.fwuDeposit role stream bs).2.storesWf := by
  unfold State.fwuDeposit
  split
  exacts [h, h.foldl fun _ ht _ => ht.stagingWrite.setFresh.ite ht.count]

theorem State.storesWf.foldlSnd {α β : Type} {l : List α} {f : β × State → α → β × State} {p : β × State}
    (h : p.2.storesWf) (hf : ∀ q, q.2.storesWf → ∀ a, (f q a).2.storesWf) : (l.foldl f p).2.storesWf := by
  induction l generalizing p with
  | nil => exact h
  | cons a l ih => exact ih (hf p h a)

theorem State.storesWf.fwuPlace (h : s.storesWf) {role : Fin 10} {stream : Fin 256} {bs : List Byte} :
    (s.fwuPlace role stream bs).2.storesWf := by
  unfold State.fwuPlace
  split
  · exact h
  · refine State.storesWf.foldlSnd h fun q hq a => ?_
    split
    · split
      exacts [hq, hq]
    · exact hq.count

theorem State.storesWf.fwuTxDone (h : s.storesWf) {role : Fin 10} {tag : BitVec 16} {cookie : Word}
    {status : Byte} {verdict : Nat} : (s.fwuTxDone role tag cookie status verdict).storesWf := by
  unfold State.fwuTxDone
  split
  exacts [h, h.stagingWrite.setEng.postEvt]

theorem State.storesWf.fwuRxDone (h : s.storesWf) {e : Fin 10} {status : Byte} {w1 : Nat} {info cookie : Word} :
    (s.fwuRxDone e status w1 info cookie).storesWf :=
  h.stagingWrite.setEng.postEvt

theorem State.storesWf.fwuRxPost (h : s.storesWf) {role : Fin 10} {bs : List Byte} {w1 : Nat} {info : Word} :
    (s.fwuRxPost role bs w1 info).storesWf := by
  unfold State.fwuRxPost
  split
  · exact h
  · split
    · exact h
    · split
      exacts [h, h.fwuRxDone.ite (h.ite (h.fwuRxDone.ite h.stagingWrite.fwuRxDone))]

/-! SwcOps. -/

theorem State.storesWf.dropAt (h : s.storesWf) {lp reason : Nat} : (s.dropAt lp reason).storesWf := h.setTab

theorem State.storesWf.unqueue (h : s.storesWf) {p : QEntry → Bool} : (s.unqueue p).storesWf := h.setSwc

theorem State.storesWf.freeBad (h : s.storesWf) {n : Nat} : (State.freeBad n s).storesWf := by
  induction n generalizing s with
  | zero => exact h
  | succ n ih =>
    unfold State.freeBad
    split
    exacts [ih h.dropAt.unqueue, h]

theorem State.storesWf.sweep (h : s.storesWf) : s.sweep.storesWf := h.freeBad.setSwc.pfcEvalAll

theorem State.storesWf.dequeue (h : s.storesWf) {lp : Fin 22} {fid : Nat} : (s.dequeue lp fid).storesWf :=
  h.unqueue.sweep

theorem State.storesWf.leaveQueue (h : s.storesWf) {lp : Fin 22} {fid : Nat} {last : Bool} :
    (s.leaveQueue lp fid last).storesWf :=
  h.dequeue.ite h.setSwc

theorem State.storesWf.abortLine (h : s.storesWf) {n : Fin 8} {bs : List Byte} : (s.abortLine n bs).storesWf :=
  h.draw.emit

theorem State.storesWf.endOne (h : s.storesWf) {n : Fin 8} {counted : Bool} {x : Option TxNow} :
    (s.endOne n counted x).storesWf := by
  unfold State.endOne
  split
  exacts [h, h.abortLine.count.ite h.abortLine]

theorem State.storesWf.endTx (h : s.storesWf) {n : Fin 8} {counted tx pre : Bool} :
    (s.endTx n counted tx pre).storesWf :=
  h.setEth.endOne.endOne

theorem State.storesWf.freeWhere (h : s.storesWf) {reason : Nat} {counted : Bool} {p : QEntry → Bool} :
    (s.freeWhere reason counted p).storesWf :=
  (((((h.foldl fun _ ht _ => ht.dropAt)).foldl fun _ ht _ => ht.endTx)).unqueue).sweep

theorem State.storesWf.setGate (h : s.storesWf) {n : Fin 8} {g : Gate} : (s.setGate n g).storesWf := h.setSwc

theorem State.storesWf.preemptNow (h : s.storesWf) {n : Fin 8} : (s.preemptNow n).storesWf := by
  unfold State.preemptNow
  extract_lets +onlyGivenNames _
  split
  exacts [h.setEth.count.ite h, h]

theorem State.storesWf.gateEnter (h : s.storesWf) {n : Fin 8} {g : Gate} {e : Nat} : (s.gateEnter n g e).storesWf :=
  h.setGate

theorem State.storesWf.gateListStart (h : s.storesWf) {n : Fin 8} : (s.gateListStart n).storesWf :=
  h.ite ((((((h.count.ite h)).setReg).ite ((h.count.ite h)))).gateEnter)

theorem State.storesWf.doGateEntryExpire (h : s.storesWf) {n : Fin 8} : (doGateEntryExpire n s).storesWf :=
  h.ite (h.setGate.ite h.gateEnter)

theorem State.storesWf.writeGateEn (h : s.storesWf) {n : Fin 8} {en : Bool} : (s.writeGateEn n en).storesWf :=
  h.setRegBit.setGate.ite (h.setRegBit.setGate.ite h.setRegBit)

theorem State.storesWf.doGateSwap (h : s.storesWf) {m : Master} {n : Fin 8} {en : Bool} :
    (doGateSwap m n en s).storesWf :=
  h.guarded fun _ ht => ht.writeGateEn.setGate.ite ht.writeGateEn.setGate.setReg

theorem State.storesWf.sliceFenceEffect (h : s.storesWf) {b : Bool} : (s.sliceFenceEffect b).storesWf := h.freeWhere

theorem State.storesWf.bfmFenceEffect (h : s.storesWf) : s.bfmFenceEffect.storesWf := h.freeWhere

theorem State.storesWf.retireDie (h : s.storesWf) {d : Fin 2} {cause i8 : Byte} {i16 : Nat} :
    (s.retireDie d cause i8 i16).storesWf := by
  unfold State.retireDie
  split
  · exact h
  · extract_lets s1 lost _ s2 s3
    have hs1 : s1.storesWf := h.fltLatch
    have hs2 : s2.storesWf := State.storesWf.setSwc hs1 rfl rfl
    have hs3 : s3.storesWf := hs2.freeWhere
    clear_value s3
    exact hs3.fltPermanent.bfmFenceEffect.ite hs3

theorem State.storesWf.doDieRetire (h : s.storesWf) {d : Fin 2} {interface : Bool} :
    (doDieRetire d interface s).storesWf :=
  h.retireDie.ite (h.retireDie.ite h)

theorem State.storesWf.doBfmRetire (h : s.storesWf) {m : Master} {dies : BitVec 2} :
    (doBfmRetire m dies s).storesWf :=
  h.guarded fun _ ht => ht.foldl fun _ ht _ => ht.ite (ht.rejReg.ite ht.retireDie)

theorem State.storesWf.doBufferUe (h : s.storesWf) {frame : Nat} {place : BufPlace} {corrected : Bool} :
    (doBufferUe frame place corrected s).storesWf := by
  unfold Machine.doBufferUe
  split
  · exact h.count
  · exact h.count
  · exact h.count.freeWhere
  · refine State.storesWf.freeWhere (State.storesWf.setSwc h.count ?_ ?_)
    · split <;> rfl
    · split <;> rfl

theorem State.storesWf.ageEntry (h : s.storesWf) {word : Nat} : (s.ageEntry word).storesWf :=
  h.ite (h.setTab.ite h.setTab)

theorem State.storesWf.doFdbAgeSweep (h : s.storesWf) : (doFdbAgeSweep s).storesWf :=
  h.ite (h.foldl fun _ ht _ => ht.ageEntry)

theorem State.storesWf.setStreamSt (h : s.storesWf) {k : Fin 256} {x : StreamSt} : (s.setStreamSt k x).storesWf :=
  State.Canonical.wf { h.canonical with streams := amPut_wf _ _ _ _ h.canonical.streams }

theorem State.storesWf.doSeqRecTimeout (h : s.storesWf) {k : Fin 256} : (doSeqRecTimeout k s).storesWf :=
  h.setStreamSt

/-! Swc. -/

theorem State.storesWf.dropIn (h : s.storesWf) {lp : Fin 22} {w : Work} {reason : Nat} :
    (dropIn s lp w reason).1.storesWf :=
  h.dropAt

theorem State.storesWf.stepTag (h : s.storesWf) {lp : Fin 22} {w : Work} : (stepTag lp s w).1.storesWf :=
  .iteFst h.dropIn h

theorem State.storesWf.stepVlan (h : s.storesWf) {lp : Fin 22} {w : Work} : (stepVlan lp s w).1.storesWf :=
  .iteFst h h.dropIn

theorem State.storesWf.stepSeqRec (h : s.storesWf) {lp : Fin 22} {k : Fin 256} {w : Work} :
    (stepSeqRec lp k s w).1.storesWf := by
  unfold Machine.stepSeqRec
  split
  · extract_lets +onlyGivenNames _ _ s1
    have hs1 : s1.storesWf := h.setStreamSt.setTab
    exact .iteFst hs1 hs1.dropIn
  · exact h

theorem State.storesWf.stepSdu (h : s.storesWf) {lp : Fin 22} {k : Fin 256} {w : Work} :
    (stepSdu lp k s w).1.storesWf :=
  .iteFst h.dropIn h

theorem State.storesWf.stepGate (h : s.storesWf) {lp : Fin 22} {k : Fin 256} {w : Work} :
    (stepGate lp k s w).1.storesWf :=
  .iteFst h.dropIn h

theorem State.storesWf.stepMeter (h : s.storesWf) {lp : Fin 22} {k : Fin 256} {w : Work} :
    (stepMeter lp k s w).1.storesWf :=
  .iteFst h (.iteFst h.setStreamSt h.setStreamSt.dropIn)

theorem State.storesWf.stepSeqGen (h : s.storesWf) {k : Fin 256} {w : Work} : (stepSeqGen k s w).1.storesWf :=
  .iteFst h.setTab h

theorem State.storesWf.thenStep {p : Pass} {f : State → Work → Pass} (h : p.1.storesWf)
    (hf : ∀ t : State, t.storesWf → ∀ w, (f t w).1.storesWf) : (thenStep p f).1.storesWf := by
  unfold Machine.thenStep
  split
  exacts [hf _ h _, h]

theorem State.storesWf.stepStream (h : s.storesWf) {lp : Fin 22} {w : Work} : (stepStream lp s w).1.storesWf := by
  unfold Machine.stepStream
  split
  · exact h
  · exact (((h.setTab.stepSeqRec.thenStep fun _ ht _ => ht.stepSdu).thenStep fun _ ht _ => ht.stepGate).thenStep
      fun _ ht _ => ht.stepMeter).thenStep fun _ ht _ => ht.stepSeqGen

theorem State.storesWf.stepMask (h : s.storesWf) {lp : Fin 22} {w : Work} : (stepMask lp s w).1.storesWf := by
  unfold Machine.stepMask
  extract_lets +onlyGivenNames _ _ _ _ s1 _
  have hs1 : s1.storesWf := h.foldl fun _ ht _ => ht.dropAt.ite ht
  exact .iteFst hs1.dropIn hs1

theorem State.storesWf.stepLearn (h : s.storesWf) {lp : Fin 22} {w : Work} : (stepLearn lp s w).1.storesWf := by
  unfold Machine.stepLearn
  extract_lets +onlyGivenNames _
  split
  · exact h
  · extract_lets +onlyGivenNames _ _ _
    split
    · exact .iteFst h (.iteFst h.setTab h.setTab.setTab.count)
    · extract_lets +onlyGivenNames _
      split
      exacts [h.setTabs, h.count]

theorem State.storesWf.enqueue (h : s.storesWf) {w : Work} {len : Nat} {ct : Bool} {lp : Nat} :
    (s.enqueue w len ct lp).storesWf :=
  h.dropAt.ite (h.setSwc.count.ite h.setSwc)

theorem State.storesWf.critCopy (h : s.storesWf) {k : Fin 256} {tag : BitVec 16} {lp : Nat} {take : State → State}
    (ht : ∀ t : State, t.storesWf → (take t).storesWf) : (s.critCopy k tag lp take).storesWf :=
  have put {key : Nat} {v : List (BitVec 16)} :
      (s.setSwc { s.swc with elim := amPut (fun _ => []) s.swc.elim key v }).storesWf :=
    State.Canonical.wf { h.canonical with elim := amPut_wf _ _ _ _ h.canonical.elim }
  h.count.ite (ht _ put)

theorem State.storesWf.toEngine (h : s.storesWf) {w : Work} {role : Fin 10} {bs : List Byte} :
    (s.toEngine w role bs).storesWf := by
  unfold State.toEngine
  extract_lets +onlyGivenNames _ _
  split
  exacts [h.fwuRxPost, h.fwuDeposit.ite h.fwuDeposit.fwuRxPost]

theorem State.storesWf.deliverAt (h : s.storesWf) {w : Work} {len : Nat} {cts : BitVec 22} {lp : Nat} :
    (s.deliverAt w len cts lp).storesWf :=
  (h.foldl fun _ ht _ => ht.toEngine).ite ((h.foldl fun _ ht _ => ht.emit).ite h.enqueue)

theorem State.storesWf.deliver (h : s.storesWf) {w : Work} {len : Nat} {cts : BitVec 22} {copies : Nat} :
    (s.deliver w len cts copies).storesWf := by
  unfold State.deliver
  refine h.foldl fun _ ht _ => ht.ite ?_
  split
  · exact ht.foldl fun _ ht _ => ht.critCopy fun _ ht => ht.deliverAt
  · exact ht.deliverAt

theorem State.storesWf.store (h : s.storesWf) {lp : Fin 22} {w : Work} {len express ipb : Nat} {cts : BitVec 22}
    {copies : Nat} : (s.store lp w len express ipb cts copies).storesWf := by
  unfold State.store
  extract_lets +onlyGivenNames _ _ _ _ _ _ s2 s3
  have hs2 : s2.storesWf := h.draw.setSwc.deliver
  have hs3 : s3.storesWf := by
    unfold s3
    split
    exacts [hs2.setStreamSt, hs2]
  exact hs3.sweep

theorem State.storesWf.smpStep (h : s.storesWf) {r : Nat} : (s.smpStep r).2.storesWf := h.setTab

theorem State.storesWf.smpWrite (h : s.storesWf) {lp : Fin 22} {f0 : Frame} {w : Work} {rule : Nat} :
    (s.smpWrite lp f0 w rule).storesWf :=
  h.count.ite (State.storesWf.setSwc h.emit.setReg rfl rfl)

theorem State.storesWf.foldlFst {α β : Type} {l : List α} {f : State × β → α → State × β} {p : State × β}
    (h : p.1.storesWf) (hf : ∀ q, q.1.storesWf → ∀ a, (f q a).1.storesWf) : (l.foldl f p).1.storesWf := by
  induction l generalizing p with
  | nil => exact h
  | cons a l ih => exact ih (hf p h a)

theorem State.storesWf.sample (h : s.storesWf) {lp : Fin 22} {f0 : Frame} {w : Work} :
    (s.sample lp f0 w).storesWf := by
  unfold State.sample
  extract_lets rules run
  have hrun : run.1.storesWf := State.storesWf.foldlFst h fun q hq r => hq.smpStep
  clear_value run
  split
  exacts [hrun, hrun.smpWrite.countN]

theorem State.storesWf.txVerdict (h : s.storesWf) {w : Work} : (s.txVerdict w).storesWf := by
  unfold State.txVerdict
  split
  exacts [h.txResult.ite (h.txResult.ite h.txResult), h.fwuTxDone.ite h.fwuTxDone, h]

theorem State.storesWf.routeIn (h : s.storesWf) {lp : Fin 22} {f : Frame} : (s.routeIn lp f).1.storesWf := by
  unfold State.routeIn
  exact .iteFst h ((((h.stepTag.thenStep fun _ ht _ => ht.stepVlan).thenStep fun _ ht _ => ht.stepStream).thenStep
    fun _ ht _ => ht.stepMask).thenStep fun _ ht _ => ht.stepLearn)

theorem State.storesWf.stepAdmit (h : s.storesWf) {lp : Fin 22} {w : Work} {p : Pass}
    (hp : stepAdmit lp s w = some p) : p.1.storesWf := by
  unfold Machine.stepAdmit at hp
  extract_lets +onlyGivenNames w0 len cts copies at hp
  clear_value w0 len cts copies
  split at hp
  · obtain rfl := Option.some.inj hp
    dsimp only
    exact h.store
  · cases hp
  · split at hp
    · obtain rfl := Option.some.inj hp
      exact h.count
    · obtain rfl := Option.some.inj hp
      exact h.dropIn
  · split at hp
    · obtain rfl := Option.some.inj hp
      exact h.count
    · obtain rfl := Option.some.inj hp
      dsimp only
      exact State.storesWf.store (h.count.ite h)

theorem State.storesWf.classify (h : s.storesWf) {lp : Fin 22} {f : Frame} : ∀ t ∈ s.classify lp f, t.storesWf := by
  unfold State.classify
  extract_lets +onlyGivenNames w pre
  have hpre : pre.1.storesWf := h.routeIn
  clear_value w pre
  split
  · intro t ht
    rw [← Option.some.inj ht]
    exact h.txVerdict
  · extract_lets +onlyGivenNames _ post
    have hpost : ∀ p ∈ post, p.1.storesWf := by
      unfold post
      split
      · exact fun p hp => hpre.stepAdmit hp
      · intro p hp
        rw [← Option.some.inj hp]
        exact hpre
    clear_value post
    split
    · rintro t ⟨⟩
    next p =>
      intro t ht
      have hp : p.1.storesWf := hpost p rfl
      rw [← Option.some.inj ht]
      exact hp.sample.txVerdict

theorem State.storesWf.doFrameClassify (h : s.storesWf) {lp : Fin 22} : (doFrameClassify lp s).storesWf := by
  unfold Machine.doFrameClassify
  split
  · exact h
  · split
    next t ht => exact State.storesWf.classify h.setSwc t ht
    · exact h

/-! SwcTx. -/

theorem State.storesWf.placeWindows (h : s.storesWf) {st : Stored} {bs : List Byte} :
    (s.placeWindows st bs).2.storesWf := by
  unfold State.placeWindows
  split
  exacts [h.fwuPlace, h]

theorem State.storesWf.cutFrame (h : s.storesWf) {n : Fin 8} {q : QEntry} {st : Stored} :
    (s.cutFrame n q st).2.storesWf :=
  h.placeWindows

theorem State.storesWf.applyStamp (h : s.storesWf) {n : Fin 8} {ph : Fin 16} {st : Stored} {off : Nat}
    {bs : List Byte} : (s.applyStamp n ph st off bs).2.storesWf := by
  unfold State.applyStamp
  extract_lets +onlyGivenNames _ _
  split
  · exact h
  · split
    · exact h
    · exact h.tsqPush
    · exact .iteSnd h h.tsqPush
    · split
      exacts [.iteSnd h h.tsqPush, h.tsqPush]

theorem State.storesWf.startSend (h : s.storesWf) {n : Fin 8} {q : QEntry} {g : SegInfo} :
    (s.startSend n q g).2.storesWf :=
  h.setSwc.count.ite h.setSwc

theorem State.storesWf.startFrame (h : s.storesWf) {n : Fin 8} {ph : Fin 16} {q : QEntry} {st : Stored} :
    (s.startFrame n ph q st).storesWf := by
  unfold State.startFrame
  split
  · exact h.dropAt.dequeue
  · extract_lets +onlyGivenNames r _ a _ s1
    have hr : r.2.storesWf := by
      unfold r
      split
      exacts [.iteSnd h.startSend h, h]
    have ha : a.2.storesWf := hr.cutFrame.applyStamp
    have hs1 : s1.storesWf := ha.msecProtect.count.ite ha.msecProtect
    split
    exacts [hs1.leaveQueue, hs1.setEth]

theorem State.storesWf.finishTx (h : s.storesWf) {n : Fin 8} : (s.finishTx n).storesWf := by
  unfold State.finishTx
  split
  exacts [h, ((h.setEth.ite h.setEth.sendFrame)).leaveQueue]

theorem State.storesWf.startNext (h : s.storesWf) {k : Nat} {n : Fin 8} {ph : Fin 16} :
    (State.startNext k s n ph).storesWf := by
  induction k generalizing s with
  | zero => exact h
  | succ k ih =>
    unfold State.startNext
    split
    · split
      · exact h
      · split
        exacts [h, h.startFrame.ite (ih h.startFrame)]
    · split
      exacts [h.ite h.setEth, h]

theorem State.storesWf.linkFalls (h : s.storesWf) {n : Fin 8} {lock receiving : Bool} :
    (s.linkFalls n lock receiving).storesWf := by
  unfold State.linkFalls
  split
  · exact h.setRegBit
  · extract_lets +onlyGivenNames s1 s2 _ _
    have hs1 : s1.storesWf := h.freeWhere.endTx.count
    have hs2 : s2.storesWf := hs1.count.ite hs1
    exact hs2.setEth.setReg.holdoverPort

theorem State.storesWf.restPort (h : s.storesWf) {n : Fin 8} : (s.restPort n).storesWf := h.linkFalls.ite h

theorem State.storesWf.doFrameTransmit (h : s.storesWf) {n : Fin 8} {ph : Fin 16} {preempt : Bool} :
    (doFrameTransmit n ph preempt s).storesWf := by
  unfold Machine.doFrameTransmit
  split
  · exact h
  · extract_lets +onlyGivenNames _ _ s1
    have hs1 : s1.storesWf := (h.preemptNow.ite h).ite h.finishTx
    exact hs1.ite hs1.pfcFlush.startNext.restPort

/-- An update of every ring that keeps the histories of claims. -/
theorem State.storesWf.mapRing (h : s.storesWf) {f : RingState → RingState}
    (hf : ∀ x, (f x).history = x.history := by exact fun _ => rfl) : ({ s with ring := s.ring.map f } : State).storesWf :=
  State.Canonical.wf { h.canonical with history := fun r => by simpa [hf] using h.canonical.history r }

theorem State.storesWf.doLinkUp (h : s.storesWf) {n : Fin 8} {speed : Fin 5} {verified : Bool} :
    (doLinkUp n speed verified s).storesWf :=
  h.ite (h.mapRing.ite (h.linkFalls.ite h).setEth.setReg.mapRing.setGate.pfcFlush)

theorem State.storesWf.abortStarted (h : s.storesWf) {w : Work} {e : Fin 8} : (s.abortStarted w e).storesWf :=
  h.count.abortLine.count

theorem State.storesWf.failStarted (h : s.storesWf) {n : Fin 8} {bytes : List Byte} {ph : Fin 16} {frag : Bool}
    {started : BitVec 8} : (s.failStarted n bytes ph frag started).storesWf := by
  unfold State.failStarted
  extract_lets +onlyGivenNames _ _ _ _ _
  split
  exacts [h, (h.routeIn.foldl fun _ ht _ => ht.abortStarted).sample]

theorem State.storesWf.doFrameReceive (h : s.storesWf) {n : Fin 8} {codeOk : Bool} {bytes : List Byte}
    {ph : Fin 16} {fragments reasmOk : Bool} {started : BitVec 8} :
    (doFrameReceive n codeOk bytes ph fragments reasmOk started s).storesWf := by
  unfold Machine.doFrameReceive
  split
  · exact h
  · split
    · exact h.count
    · split
      · exact h.count
      · exact h.count.ite (h.count.failStarted.ite (h.count.failStarted.ite (h.count.ite h.receiveGood)))

/-! NrgOps. -/

theorem State.storesWf.ringRelay (h : s.storesWf) {n : Fin 8} {bs : List Byte} {whole : Bool} :
    (s.ringRelay n bs whole).storesWf :=
  h.emit.ite h.emit

theorem State.storesWf.ringOut (h : s.storesWf) {r : Fin 2} {n : Fin 8} {bs : List Byte} {tagOk : Bool}
    {came : Nat} {whole : Bool} : (s.ringOut r n bs tagOk came whole).storesWf :=
  h.ringRelay

theorem State.storesWf.winAuthFail (h : s.storesWf) {r : Fin 2} {win : Nat} : (s.winAuthFail r win).storesWf :=
  h.count.foldl fun _ ht _ => ht.setTab

theorem State.storesWf.winDeposit (h : s.storesWf) {r : Fin 2} {win : Nat} {rec : List Byte} {n : Nat} :
    (s.winDeposit r win rec n).storesWf :=
  h.foldl fun _ ht _ => ht.stagingWrite.setTab.setFresh.modRing.sgmMark.ite ht.count

theorem State.storesWf.winMerge (h : s.storesWf) {r : Fin 2} {w : RingWin} {rec : List Byte}
    {copyB joined frag : Bool} : (s.winMerge r w rec copyB joined frag).storesWf :=
  (h.ite h.count).ite h.modRing.setTab

theorem State.storesWf.mergeClose (h : s.storesWf) {r : Fin 2} : (s.mergeClose r).storesWf :=
  h.foldl fun _ ht _ => ht.ite (ht.setTab.ite ht.setTab.count)

theorem State.storesWf.winSource (h : s.storesWf) {r : Fin 2} {k : List Byte} {w : RingWin} {rec : List Byte}
    {joined : Bool} : (s.winSource r k w rec joined).storesWf := by
  unfold State.winSource
  extract_lets +onlyGivenNames _ _
  split
  · exact h
  · split
    · exact h.winAuthFail
    · extract_lets +onlyGivenNames s1
      have hs1 : s1.storesWf := h.winMerge.ite h
      exact hs1.winDeposit.ite hs1

theorem State.storesWf.winSources (h : s.storesWf) {r : Fin 2} {bs : List Byte} : (s.winSources r bs).storesWf :=
  h.setRing.foldl fun _ ht _ => by
    split
    · exact ht.winSource
    · split
      exacts [ht.winSource, ht]

theorem State.storesWf.placeOwn (h : s.storesWf) {r : Fin 2} {cyc start : Nat} {area : List Byte} :
    (s.placeOwn r cyc start area).2.storesWf := by
  refine State.storesWf.foldlSnd h fun p hp q => ?_
  split
  · exact hp
  · split
    · split
      · split
        exacts [hp, hp]
      · split
        exacts [hp, hp.count]
    · split
      exacts [hp, hp]

theorem State.storesWf.listenOnly (h : s.storesWf) {r : Fin 2} : (s.listenOnly r).storesWf := h.modRing.count

theorem State.storesWf.stnMeasure (h : s.storesWf) {r : Fin 2} {off : Int} : (s.stnMeasure r off).storesWf := by
  unfold State.stnMeasure
  extract_lets +onlyGivenNames sat s1 x within y s2
  have hs1 : s1.storesWf := h.setReg
  have hy : y.history = s1.ring[r].history := by
    unfold y
    split <;> rfl
  clear_value s1 y
  have hs2 : s2.storesWf := hs1.setRing hy
  have hy2 : y.history = s2.ring[r].history := by simp [s2, State.setRing, vset]
  clear_value s2
  have hs3 : (s2.setRing r { y with stn := .active }).storesWf := hs2.setRing hy2
  split
  exacts [hs2.listenOnly.ite hs2, hs3.ite hs2, hs3.ite hs2, hs2]

theorem State.storesWf.headerSeen (h : s.storesWf) {r : Fin 2} {hd : List Byte} : (s.headerSeen r hd).storesWf :=
  h.setReg.modRing fun x => by dsimp only; split <;> rfl

theorem State.storesWf.bmSeen (h : s.storesWf) {r : Fin 2} {hd : List Byte} : (s.bmSeen r hd).storesWf :=
  h.modRing fun x => by dsimp only; split <;> rfl

theorem State.storesWf.deferOwn (h : s.storesWf) {r : Fin 2} {n : Fin 8} {ticks : Nat} :
    (s.deferOwn r n ticks).2.storesWf := by
  unfold State.deferOwn
  split
  · exact h
  · split
    exacts [h, .iteSnd h.modRing.ringRelay h.modRing.ringRelay.count]

theorem State.storesWf.envDone (h : s.storesWf) {r : Fin 2} : (s.envDone r).storesWf := by
  unfold State.envDone
  split
  exacts [h, ((h.foldl fun _ ht _ => ht.ringRelay)).modRing]

theorem State.storesWf.envCut (h : s.storesWf) {r : Fin 2} : (s.envCut r).storesWf := by
  unfold State.envCut
  split
  · exact h
  · extract_lets +onlyGivenNames _ _ s2 _ _ _
    have hs2 : s2.storesWf := ((h.foldl fun _ ht _ => ht.ringRelay)).count
    exact hs2.setRing.listenOnly.ite hs2.setRing

theorem State.storesWf.ringStart (h : s.storesWf) {r : Fin 2} : (s.ringStart r).storesWf :=
  (h.setRingOf (amWf_nil _)).ite (h.setRingOf (amWf_nil _))

theorem State.storesWf.ringStop (h : s.storesWf) {r : Fin 2} : (s.ringStop r).storesWf :=
  h.envDone.setRingOf (amWf_nil _)

theorem State.storesWf.ringCheck (h : s.storesWf) {r : Fin 2} : (s.ringCheck r).storesWf :=
  h.ite (h.ringStart.ite (h.ringStop.ite h))

theorem State.storesWf.ringsCheck (h : s.storesWf) : s.ringsCheck.storesWf := h.ringCheck.ringCheck

/-! Nrg. -/

theorem State.storesWf.passCounts (h : s.storesWf) {r : Fin 2} {bs : List Byte} {ok : Bool} :
    (s.passCounts r bs ok).storesWf :=
  (((h.ite h.count)).count).ite ((h.ite h.count))

theorem State.storesWf.passOn (h : s.storesWf) {r : Fin 2} {n : Fin 8} {bs area : List Byte} {ok : Bool}
    {q : PassRoute} : (s.passOn r n bs area ok q).storesWf := by
  unfold State.passOn
  extract_lets +onlyGivenNames _ _ _ _ _ s1 _ _
  have hs1 : s1.storesWf := h.deferOwn.ringOut
  exact ((hs1.count.ite hs1)).modRing

theorem State.storesWf.verified (h : s.storesWf) {r : Fin 2} {n : Fin 8} {bs : List Byte} {off : Int} :
    (s.verified r n bs off).storesWf := by
  unfold State.verified
  extract_lets +onlyGivenNames t
  have ht : t.storesWf := h.stnMeasure.headerSeen
  exact ht.bmSeen.ite ht

theorem State.storesWf.firstPass (h : s.storesWf) {r : Fin 2} {bs : List Byte} : (s.firstPass r bs).storesWf :=
  h.modRing.ite h

theorem State.storesWf.nodePass (h : s.storesWf) {r : Fin 2} {n : Fin 8} {bs : List Byte} {ok : Bool} {ph : Fin 16} :
    (s.nodePass r n bs ok ph).storesWf := by
  unfold State.nodePass
  extract_lets +onlyGivenNames _ p s2
  have hp : p.2.storesWf := h.passCounts.firstPass.winSources.placeOwn
  have hs2 : s2.storesWf := by
    unfold s2
    split
    exacts [hp, hp.passOn]
  exact hs2.verified.ite hs2

theorem State.storesWf.modLeaf (h : s.storesWf) {r : Fin 2} {n : Fin 8} {f : LeafStn → LeafStn} :
    (s.modLeaf r n f).storesWf :=
  h.modRing

theorem State.storesWf.hubOn (h : s.storesWf) {r : Fin 2} {inn : Fin 8} {after : Option (Fin 8)}
    {bs k area : List Byte} {ok : Bool} : (s.hubOn r inn after bs k area ok).storesWf :=
  h.modRing.ringOut

theorem State.storesWf.hubSeen (h : s.storesWf) {r : Fin 2} {k : List Byte} : (s.hubSeen r k).storesWf := h.modRing

theorem State.storesWf.hubPass (h : s.storesWf) {r : Fin 2} {n : Fin 8} {bs : List Byte} {ok : Bool} {ph : Fin 16} :
    (s.hubPass r n bs ok ph).storesWf := by
  unfold State.hubPass
  extract_lets +onlyGivenNames _ s1
  have hs1 : s1.storesWf := h.passCounts.hubSeen.ite h.passCounts
  split
  · exact hs1.hubOn
  · split
    · split
      · exact hs1
      · extract_lets +onlyGivenNames _ _ s2 _
        have hs2 : s2.storesWf := hs1.ite hs1.count
        exact ((hs2.modLeaf.ite hs2)).hubOn
    · exact hs1

theorem State.storesWf.relayOn (h : s.storesWf) {r : Fin 2} {n : Fin 8} {bs : List Byte} {ok : Bool} :
    (s.relayOn r n bs ok).storesWf :=
  h.deferOwn.ringRelay

theorem State.storesWf.hubRelay (h : s.storesWf) {r : Fin 2} {n : Fin 8} {bs : List Byte} {ok : Bool} :
    (s.hubRelay r n bs ok).storesWf :=
  (h.ite h.count).ringRelay

theorem State.storesWf.signalBack (h : s.storesWf) {r : Fin 2} {n : Fin 8} : (s.signalBack r n).storesWf :=
  h.modRing.ite h

theorem State.storesWf.doRingPassReceive (h : s.storesWf) {r : Fin 2} {n : Fin 8} {bytes : List Byte}
    {ok : Bool} {ph : Fin 16} : (doRingPassReceive r n bytes ok ph s).storesWf :=
  (h.hubPass.ite h.hubRelay).ite (h.ite (h.signalBack.nodePass.ite ((h.signalBack.ite h.signalBack.count).relayOn)))

theorem State.storesWf.announceStar (h : s.storesWf) {r : Fin 2} : (s.announceStar r).storesWf :=
  h.ite h.setRing.ringRelay

theorem State.storesWf.applyTopo (h : s.storesWf) {r : Fin 2} {t : BitVec 2} {due : Bool} :
    (s.applyTopo r t due).storesWf :=
  h.setRing.count.ite h.setRing

theorem State.storesWf.bmArea (h : s.storesWf) {r : Fin 2} : (s.bmArea r).2.storesWf := h.placeOwn

theorem State.storesWf.bmCopy (h : s.storesWf) {r : Fin 2} {n : Fin 8} {copyB : Bool} :
    (s.bmCopy r n copyB).storesWf :=
  h.bmArea.ringOut

theorem imagePuts_history {α : Type} (o : α → Nat) (bs : α → List Byte) (l : List α) (x : RingState) :
    (l.foldl (fun y q => imagePut y (o q) (bs q)) x).history = x.history := by
  induction l generalizing x with
  | nil => rfl
  | cons q l ih => exact ih _

theorem State.storesWf.bmSend (h : s.storesWf) {r : Fin 2} : (s.bmSend r).storesWf :=
  (State.storesWf.bmCopy h.bmCopy).modRing fun _ => imagePuts_history ..

theorem State.storesWf.doRingBmSnapshot (h : s.storesWf) {r : Fin 2} : (doRingBmSnapshot r s).storesWf :=
  h.ite ((h.ite h.setRing.bmSend).ite h.setRing)

theorem State.storesWf.beacons (h : s.storesWf) {r : Fin 2} {bm : Bool} : (s.beacons r bm).storesWf :=
  h.ite (h.ringRelay.ringRelay.ringRelay.ite h.ringRelay)

theorem RingState.pairRole_history (x : RingState) (shadow paired : Bool) (own : Nat) :
    (x.pairRole shadow paired own).history = x.history := by
  unfold RingState.pairRole
  split
  · rfl
  · split <;> rfl

theorem State.storesWf.doRingCycleBoundary (h : s.storesWf) {r : Fin 2} : (doRingCycleBoundary r s).storesWf := by
  unfold Machine.doRingCycleBoundary
  split
  · exact h
  · extract_lets s0 bm first star s1 key s2 x s3 y t s4 s5
    have hs0 : s0.storesWf := h.modRing fun x => RingState.pairRole_history x _ _ _
    have hs1 : s1.storesWf := hs0.mergeClose.ite hs0
    have hs2 : s2.storesWf := hs1.setRing
    have hs3 : s3.storesWf := hs2.announceStar.ite hs2
    have hs4 : s4.storesWf := by
      unfold s4
      clear_value t
      split
      exacts [hs3.applyTopo.ite (hs3.applyTopo.ite hs3), hs3]
    exact (hs4.bmSend.ite hs4).beacons

theorem State.storesWf.doRingLos (h : s.storesWf) {r : Fin 2} {n : Fin 8} : (doRingLos r n s).storesWf :=
  h.ite h.count.modRing

theorem State.storesWf.doRingFragmentEmit (h : s.storesWf) {r : Fin 2} : (doRingFragmentEmit r s).storesWf := by
  unfold Machine.doRingFragmentEmit
  extract_lets +onlyGivenNames _
  split
  exacts [h, h.setRing.deferOwn.ringRelay.count]

theorem State.storesWf.leafCutCount (h : s.storesWf) {r : Fin 2} {n : Fin 8} : (s.leafCutCount r n).storesWf :=
  h.count.modLeaf

theorem State.storesWf.leafCut (h : s.storesWf) {r : Fin 2} {n : Fin 8} : (s.leafCut r n).storesWf := by
  unfold State.leafCut
  extract_lets +onlyGivenNames _
  split
  exacts [h, h.ringRelay.leafCutCount]

theorem State.storesWf.doStanchionCut (h : s.storesWf) {r : Fin 2} {leaf : Option (Fin 8)} :
    (doStanchionCut r leaf s).storesWf := by
  unfold Machine.doStanchionCut
  split
  exacts [h.leafCut.ite h, h.envCut]

theorem State.storesWf.doStanchionSelfCheck (h : s.storesWf) {r : Fin 2} {edges : Nat} {parityOk : Bool} :
    (doStanchionSelfCheck r edges parityOk s).storesWf :=
  h.ite h.setRing

theorem State.storesWf.innerFrame (h : s.storesWf) {n : Fin 8} {ph : Fin 16} {q : QEntry} {st : Stored} :
    (s.innerFrame n ph q st).2.storesWf := by
  unfold State.innerFrame
  extract_lets +onlyGivenNames p _
  have hp : p.2.storesWf := by
    unfold p
    split
    exacts [.iteSnd h.startSend h, h]
  exact hp.cutFrame.applyStamp

theorem State.storesWf.doEnvelopeSend (h : s.storesWf) {r : Fin 2} {ph : Fin 16} :
    (doEnvelopeSend r ph s).storesWf := by
  unfold Machine.doEnvelopeSend
  split
  · exact h
  · extract_lets s0 a b head
    clear_value head
    split
    · exact h.envDone
    · extract_lets w
      have hw : w.2.storesWf := h.envDone.innerFrame
      exact h.envDone.ite (hw.modRing.modRing.leaveQueue.leaveQueue.ite hw.modRing.modRing.leaveQueue)

theorem State.storesWf.leafEnvelope (h : s.storesWf) {r : Fin 2} {n : Fin 8} {bs : List Byte} {ok : Bool} :
    (s.leafEnvelope r n bs ok).storesWf :=
  h.leafCut.leafCutCount.ite (h.leafCut.ringRelay.ite h.leafCut.modLeaf)

theorem State.storesWf.nodeEnvelope (h : s.storesWf) {r : Fin 2} {n : Fin 8} {bs : List Byte} {ok : Bool} :
    (s.nodeEnvelope r n bs ok).storesWf := by
  have heard {t : State} (ht : t.storesWf) {k : Nat} {v : List (BitVec 16)} :
      (t.modRing r fun x => { x with history := amPut (fun _ => []) x.history k v }).storesWf :=
    ht.setRingOf (amPut_wf _ _ _ _ (ht.canonical.history r))
  exact (h.relayOn.ite h).ite (h.relayOn.ite (heard h.relayOn).toSwitch)

theorem State.storesWf.doEnvelopeReceive (h : s.storesWf) {r : Fin 2} {n : Fin 8} {bytes : List Byte} {ok : Bool} :
    (doEnvelopeReceive r n bytes ok s).storesWf := by
  unfold Machine.doEnvelopeReceive
  split
  · exact (h.foldl fun _ ht _ => ht.ringRelay).ite h.leafEnvelope
  · exact h.ite (h.signalBack.relayOn.ite h.signalBack.nodeEnvelope)

theorem State.storesWf.claimStart (h : s.storesWf) {r : Fin 2} : (s.claimStart r).storesWf := h.modRing.ite h

theorem State.storesWf.doClaimTimeout (h : s.storesWf) {r : Fin 2} : (doClaimTimeout r s).storesWf :=
  h.claimStart.ite h

theorem State.storesWf.claimNow (h : s.storesWf) {r : Fin 2} : (s.claimNow r).storesWf := h.ite h.claimStart

theorem State.storesWf.doClaimNow (h : s.storesWf) {m : Master} {r : Fin 2} : (doClaimNow m r s).storesWf :=
  h.guarded fun _ ht => ht.claimNow

theorem State.storesWf.doClaimSend (h : s.storesWf) {r : Fin 2} : (doClaimSend r s).storesWf :=
  h.ite h.modRing.ringRelay.ringRelay

theorem State.storesWf.claimCompare (h : s.storesWf) {r : Fin 2} {bs : List Byte} {ok : Bool} :
    (s.claimCompare r bs ok).storesWf :=
  h.count.ite ((h.setRing.count.ite h.setRing).ite h)

theorem State.storesWf.claimReturned (h : s.storesWf) {r : Fin 2} {bs : List Byte} {ok : Bool} :
    (s.claimReturned r bs ok).storesWf :=
  h.count.ite (h.ite (h.setRing.ite h.setRing))

theorem State.storesWf.hubClaim (h : s.storesWf) {r : Fin 2} {n : Fin 8} {bs : List Byte} {ok : Bool} :
    (s.hubClaim r n bs ok).storesWf :=
  h.modRing.ite (h.modRing.foldl fun _ ht _ => ht.ringRelay)

theorem State.storesWf.doClaimReceive (h : s.storesWf) {r : Fin 2} {n : Fin 8} {bytes : List Byte} {ok : Bool} :
    (doClaimReceive r n bytes ok s).storesWf := by
  unfold Machine.doClaimReceive
  split
  · exact h.hubClaim
  · exact h.ite (h.signalBack.relayOn.ite (h.signalBack.claimReturned.ite
      (h.signalBack.ite h.signalBack.count).claimCompare.relayOn))

theorem State.storesWf.hubBeacon (h : s.storesWf) {r : Fin 2} {n : Fin 8} {bs : List Byte} {ok : Bool} :
    (s.hubBeacon r n bs ok).storesWf := by
  unfold State.hubBeacon
  extract_lets +onlyGivenNames s1
  have hs1 : s1.storesWf := h.modRing.ite h
  exact (hs1.foldl fun _ ht _ => ht.ringRelay).ite hs1.ringRelay

theorem State.storesWf.nodeBeacon (h : s.storesWf) {r : Fin 2} {n : Fin 8} {bs : List Byte} {ok : Bool} :
    (s.nodeBeacon r n bs ok).storesWf := by
  unfold State.nodeBeacon
  extract_lets +onlyGivenNames _ _
  split
  · exact h.announceStar.ite h
  · extract_lets +onlyGivenNames s1
    have hs1 : s1.storesWf := h.modRing.ite h
    exact hs1.ite hs1.relayOn

theorem State.storesWf.doBeaconReceive (h : s.storesWf) {r : Fin 2} {n : Fin 8} {bytes : List Byte} {ok : Bool} :
    (doBeaconReceive r n bytes ok s).storesWf :=
  h.hubBeacon.ite (h.ite h.signalBack.nodeBeacon)

theorem State.storesWf.ringReturn (h : s.storesWf) {r : Fin 2} : (s.ringReturn r).storesWf := h.setRing.ite h

theorem State.storesWf.doRingReturn (h : s.storesWf) {m : Master} {r : Fin 2} : (doRingReturn m r s).storesWf :=
  h.guarded fun _ ht => ht.ringReturn

@[simp] theorem withCtx_dmem (x : Engine) (svc : Bool) (c : Ctx) : (withCtx x svc c).dmem = x.dmem := by
  cases svc <;> rfl

/-! Ctx. -/

theorem State.storesWf.setCtx (h : s.storesWf) {e : Fin 10} {svc : Bool} {c : Ctx} : (s.setCtx e svc c).storesWf :=
  h.setEng (withCtx_dmem ..)

theorem State.storesWf.writeSlot (h : s.storesWf) {b : Nat} {ver : BitVec 16} {role : Fin 10} {cyc : Word}
    {ws : List Word} : (s.writeSlot b ver role cyc ws).storesWf :=
  h.ownerWrite.ownerWrite.ownerWrite

/-- No word of a space of an engine holds other than 0 at reset. -/
theorem tabReset_pec {k e sp : Nat} (he : e < 10) (hsp : sp < 128) (hk : k / 2 ^ 24 = 128 * (21 + e) + sp) :
    tabReset k = 0 := by
  unfold tabReset
  simp only [hk]
  rw [if_neg (by omega), if_neg (by omega), if_neg (by omega)]

theorem tabKey_space (u sp w : Nat) : tabKey u sp (w % 2 ^ 24) / 2 ^ 24 = 128 * u + sp := by
  unfold tabKey
  omega

theorem amInsert_wf {α : Type} [DecidableEq α] (d : Nat → α) (m : AMap α) (k : Nat) (v : α) (hw : amWf d m)
    (hv : v ≠ d k) : amWf d (amInsert m k v) := by
  have := amPut_wf d m k v hw
  rwa [amPut, if_neg hv] at this

/-! Bind. -/

theorem State.storesWf.copySpace (h : s.storesWf) {e f : Fin 10} {sp sp' : Nat} (hsp : sp < 128) (hsp' : sp' < 128) :
    (s.copySpace (blkIdx (.pec e)) sp (blkIdx (.pec f)) sp').storesWf := by
  have copied (l : AMap Word) (hl : ∀ x ∈ l, x.2 ≠ 0) : ∀ m : AMap Word, amWf tabReset m →
      amWf tabReset (l.foldl (fun t x => amInsert t (tabKey (blkIdx (.pec f)) sp' (x.1 % 2 ^ 24)) x.2) m) := by
    induction l with
    | nil => exact fun _ hm => hm
    | cons x l ih =>
      refine fun m hm => ih (fun y hy => hl y (List.mem_cons_of_mem _ hy)) _ (amInsert_wf _ _ _ _ hm ?_)
      have h0 : tabReset (tabKey (blkIdx (.pec f)) sp' (x.1 % 2 ^ 24)) = 0 := tabReset_pec f.isLt hsp' (tabKey_space ..)
      rw [h0]
      exact hl x List.mem_cons_self
  refine State.Canonical.wf { h.canonical with tabs := copied _ (fun x hx => ?_) _ (amFilter_wf _ _ _ h.canonical.tabs) }
  obtain ⟨hm, hk⟩ := List.mem_filter.mp hx
  have := h.canonical.tabs.2 x hm
  rwa [tabReset_pec e.isLt hsp (of_decide_eq_true hk)] at this

theorem State.storesWf.loadImem (h : s.storesWf) {e : Fin 10} {bank : Bool} {img : Image} {lo n : Nat} :
    (s.loadImem e bank img lo n).storesWf :=
  h.setTabs

theorem State.storesWf.loadWhole (h : s.storesWf) {e : Fin 10} {bank : Bool} {img : Image} :
    (s.loadWhole e bank img).storesWf :=
  h.wipeSpace.loadImem

theorem State.storesWf.copyReg (h : s.storesWf) {a a' : Nat} : (s.copyReg a a').storesWf := h.setReg

theorem State.storesWf.moveBindings (h : s.storesWf) {f t : Fin 10} : (s.moveBindings f t).storesWf := by
  have h1 := ((h.copySpace (e := f) (f := t) (sp := 2) (sp' := 2) (by omega) (by omega)).copySpace (e := f) (f := t)
    (sp := 3) (sp' := 3) (by omega) (by omega)).copySpace (e := f) (f := t) (sp := 6) (sp' := 6) (by omega) (by omega)
  exact h1.wipeSpace.wipeSpace.wipeSpace.copyReg.copyReg.copyReg.copyReg.setReg.setReg.setRegBit.setHold

theorem State.storesWf.stopInst (h : s.storesWf) {r : Fin 10} : (s.stopInst r).storesWf := h.modInst.resetRole

theorem State.storesWf.dropRotation (h : s.storesWf) {e : Fin 10} : (s.dropRotation e).storesWf := by
  unfold State.dropRotation
  split
  exacts [h.withRotation.ite h, h]

theorem State.storesWf.dropRotationOf (h : s.storesWf) {r : Fin 10} : (s.dropRotationOf r).storesWf := by
  unfold State.dropRotationOf
  split
  exacts [h.withRotation.ite h, h]

theorem State.storesWf.takeOver (h : s.storesWf) {f r : Fin 10} {rerun : Bool} : (s.takeOver f r rerun).storesWf := by
  unfold State.takeOver
  split
  · exact h.stopInst.dropRotationOf
  · extract_lets old s1 _ x s2 s3
    have hs1 : s1.storesWf := h.dropRotation.dropRotationOf.moveBindings
    have hx : x.dmem = [] := rfl
    clear_value s1 x
    have hs2 : s2.storesWf := (hs1.setEngOf (hx ▸ amWf_nil _)).modInst
    clear_value s2
    exact hs2.withBindSeq.ite hs2.withBindSeq.wake

theorem State.storesWf.fenceEngine (h : s.storesWf) {e : Fin 10} {cause i8 : Byte} {i16 : Nat} :
    (s.fenceEngine e cause i8 i16).storesWf := by
  unfold State.fenceEngine
  extract_lets +onlyGivenNames _ _
  split
  · exact h
  · exact h.setEng.fltLatch
  · exact h.setEng.dropRotation.fltLatch
  · exact h.setEng.fltLatch.ite h.setEng.fltLatch
  · extract_lets +onlyGivenNames _ _ s2
    have hs2 : s2.storesWf := by
      unfold s2
      split
      exacts [h.setEng.modInst.resetRole, h.setEng]
    exact hs2.fltLatch
  · extract_lets +onlyGivenNames s1
    have hs1 : s1.storesWf := h.setEng.fltLatch
    split
    exacts [hs1.takeOver, hs1]

theorem State.storesWf.hardFaultBits (h : s.storesWf) {e : Fin 10} {bits : Nat} : (s.hardFaultBits e bits).storesWf :=
  h.ite h.setReg.fenceEngine

theorem State.storesWf.hardFault (h : s.storesWf) {e : Fin 10} {bit : Nat} : (s.hardFault e bit).storesWf :=
  h.hardFaultBits

theorem State.storesWf.programFault (h : s.storesWf) {e : Fin 10} {code bits : Nat} :
    (s.programFault e code bits).storesWf := by
  unfold State.programFault
  extract_lets +onlyGivenNames _ _ s1 s2
  have hs1 : s1.storesWf := h.setReg.setEng
  have hs2 : s2.storesWf := by
    unfold s2
    split
    exacts [hs1.stopInst.dropRotationOf, hs1]
  exact hs2.fltLatch

/-! Evman. -/

theorem State.storesWf.landOne (h : s.storesWf) {e : Fin 10} {f : InFlight} : (s.landOne e f).1.storesWf := by
  unfold State.landOne
  extract_lets +onlyGivenNames _
  split
  exacts [h.setCtx, h.setCtx, h.setCtx, h.setCtx, h.espWrite.setCtx, h.setCtx, h.setCtx, h.setCtx]

theorem State.storesWf.landList (h : s.storesWf) {e : Fin 10} {l : List InFlight} : (s.landList e l).1.storesWf := by
  induction l generalizing s with
  | nil => exact h
  | cons f r ih => exact ih h.landOne

theorem State.storesWf.landDue (h : s.storesWf) {e : Fin 10} : (s.landDue e).1.storesWf := h.setEng.countN.landList

theorem State.storesWf.launchLate (h : s.storesWf) {e : Fin 10} {svc : Bool} {lat late : Nat} {w : Landing} :
    (s.launchLate e svc lat late w).storesWf :=
  h.setEng

theorem State.storesWf.launch (h : s.storesWf) {e : Fin 10} {svc : Bool} {lat : Nat} {w : Landing} :
    (s.launch e svc lat w).storesWf :=
  h.launchLate

theorem State.storesWf.launchFar (h : s.storesWf) {e : Fin 10} {svc : Bool} {lat : Nat} {path : List Nat}
    {w : Landing} : (s.launchFar e svc lat path w).storesWf :=
  h.draw.launchLate.ite h.launch

theorem State.storesWf.storeOver (h : s.storesWf) {e : Fin 10} {a : Nat} {bs : List Byte} :
    (s.storeOver e a bs).storesWf :=
  h.setEng

theorem State.storesWf.lsu (h : s.storesWf) {e : Fin 10} {svc : Bool} {code : Nat} {t : Word} :
    (s.lsu e svc code t).storesWf := by
  unfold State.lsu
  extract_lets +onlyGivenNames c n pi a0 a _ _ s1
  have hs1 : s1.storesWf := by
    unfold s1
    clear_value c n pi a0 a
    split
    · exact h.espWrite.storeOver.ite h.espWrite.launch
    · have hr : (s.espRead e a n).2.storesWf := h.espRead
      split
      next heq =>
        rw [heq] at hr
        exact hr.launchFar
      next heq =>
        rw [heq] at hr
        exact hr.launchFar
  exact hs1.setCtx.ite hs1

theorem State.storesWf.crcTrig (h : s.storesWf) {e : Fin 10} {svc : Bool} {code : Nat} {t : Word} :
    (s.crcTrig e svc code t).storesWf := by
  unfold State.crcTrig
  extract_lets +onlyGivenNames _ _ _ _
  split
  exacts [h.setCtx, h.setCtx, h.setCtx, h.setCtx, h.launch, h.launch]

theorem State.storesWf.fwuCopy (h : s.storesWf) {e : Fin 10} {svc : Bool} : (s.fwuCopy e svc).storesWf := by
  unfold State.fwuCopy
  extract_lets +onlyGivenNames _ _ _ _ _ _ _ s1 _
  have hs1 : s1.storesWf := h.espRead.storeOver.launch
  exact hs1.setCtx

/-! Fwu. -/

theorem State.storesWf.fwuTxPost (h : s.storesWf) {e : Fin 10} {a : Nat} : ∀ t ∈ s.fwuTxPost e a, t.storesWf := by
  unfold State.fwuTxPost
  split
  · rintro t ⟨⟩
  · split
    · rintro t ⟨⟩
    · extract_lets d q cookie
      split
      · rintro t ⟨⟩
        exact h.fwuTxDone
      · split
        · rintro t ⟨⟩
          exact h.fwuTxDone
        · split
          · rintro t ⟨⟩
            exact h.fwuTxDone
          · rintro t ⟨⟩
            exact h.toSwitch

/-! Evman. -/

theorem State.storesWf.fwuTrig (h : s.storesWf) {e : Fin 10} {svc : Bool} {code : Nat} {t : Word} :
    (s.fwuTrig e svc code t).storesWf := by
  unfold State.fwuTrig
  extract_lets x k
  split
  · exact h.fwuCopy
  · exact h.setEng
  · exact h.setEng
  · split
    next u hu => exact h.fwuTxPost u hu
    · exact h.launch
  · exact h.launchFar

theorem State.storesWf.dtpSnap (h : s.storesWf) {e : Fin 10} {svc : Bool} {t : Word} : (s.dtpSnap e svc t).storesWf :=
  h.launchFar

theorem State.storesWf.trigger (h : s.storesWf) {e : Fin 10} {svc : Bool} {sl : Slot} {d : Dest} {t : Word} :
    (s.trigger e svc sl d t).storesWf := by
  unfold State.trigger
  extract_lets +onlyGivenNames _
  split
  · exact h.launch
  · split
    exacts [h.launch, h.launch]
  · exact h.launch
  · exact h.lsu
  · exact h.crcTrig
  · exact h.fwuTrig
  · exact h.dtpSnap
  · exact h

theorem State.storesWf.kendIssue (h : s.storesWf) {e : Fin 10} : (s.kendIssue e).storesWf := by
  unfold State.kendIssue
  extract_lets +onlyGivenNames _ _ _ _ s2 s3 _
  have hs2 : s2.storesWf := h.setReg.setReg.ite h.setReg
  have hs3 : s3.storesWf := by
    unfold s3
    split
    exacts [hs2.setReg, hs2]
  exact hs3.setEng.postEvt

theorem State.storesWf.waitIssue (h : s.storesWf) {e : Fin 10} {t : Word} : (s.waitIssue e t).storesWf :=
  h.setEng.ite h.setEng

@[simp] theorem kernelDone_dmem (x : Engine) : (kernelDone x).dmem = x.dmem := by
  unfold kernelDone
  extract_lets y
  split <;> rfl

theorem State.storesWf.repAfter (h : s.storesWf) {e : Fin 10} {svc : Bool} {sl : Slot} :
    (s.repAfter e svc sl).storesWf := by
  unfold State.repAfter
  extract_lets +onlyGivenNames c
  split
  · extract_lets +onlyGivenNames d s1
    have hs1 : s1.storesWf := h.setCtx
    exact (hs1.setEng (kernelDone_dmem _)).ite hs1
  · exact h.setCtx

theorem State.storesWf.iterate (h : s.storesWf) {e : Fin 10} {svc : Bool} {sl : Slot} :
    (s.iterate e svc sl).storesWf := by
  unfold State.iterate
  extract_lets +onlyGivenNames _ cls v s1
  clear_value cls v
  have hs1 : s1.storesWf := by
    unfold s1
    split
    exacts [h.setCtx, h.fwuTrig, h.lsu]
  exact hs1.repAfter

theorem State.storesWf.perform (h : s.storesWf) {e : Fin 10} {svc : Bool} {flg0 : BitVec 3} {ls : List Landed}
    {ms : List Move} : (s.perform e svc flg0 ls ms).storesWf := by
  unfold State.perform
  extract_lets +onlyGivenNames x rep once dec vs s1 s2
  have hs2 : s2.storesWf := State.storesWf.foldl h.setCtx fun _ ht _ => ht.trigger
  clear_value s2 rep vs dec x
  extract_lets +onlyGivenNames c2
  split
  · exact hs2.setCtx.repAfter
  · extract_lets +onlyGivenNames cu b s3 wasDelay s4
    have hs3 : s3.storesWf := hs2.setCtx
    have hs4 : s4.storesWf := (hs3.setEng (kernelDone_dmem _)).ite hs3
    clear_value s4 cu
    split
    exacts [hs4.kendIssue, hs4.waitIssue, hs4]

theorem State.storesWf.issueSlots (h : s.storesWf) {e : Fin 10} {svc : Bool} {flg0 : BitVec 3}
    {ls : List Landed} {sls : List Slot} {enc : Bool} : (s.issueSlots e svc flg0 ls sls enc).storesWf :=
  h.programFault.ite (((h.count.ite h)).perform)

theorem State.storesWf.issue (h : s.storesWf) {e : Fin 10} {svc : Bool} {flg0 : BitVec 3} {ls : List Landed}
    {ov : Option Slot} : (s.issue e svc flg0 ls ov).storesWf := by
  unfold State.issue
  extract_lets +onlyGivenNames _ _
  split
  · exact h.iterate
  · extract_lets +onlyGivenNames _
    split
    exacts [((h.setCtx.ite h)).issueSlots, ((h.setCtx.ite h)).issueSlots]

@[simp] theorem swapBanks_dmem (x : Engine) : (swapBanks x).dmem = x.dmem := by
  unfold swapBanks
  split <;> rfl

@[simp] theorem fromLead_dmem (x : Engine) : (fromLead x).dmem = x.dmem := by
  unfold fromLead
  split <;> rfl

theorem State.storesWf.takeStart (h : s.storesWf) {e : Fin 10} {again : Bool} : (s.takeStart e again).storesWf := by
  unfold State.takeStart
  extract_lets x wd wc swapped y _ s1 s2
  have hs1 : s1.storesWf := h.setEng (by simp [y, x])
  split
  exacts [hs1.count, hs1.count.modInst]

theorem State.storesWf.kernelStart (h : s.storesWf) {e : Fin 10} {again : Bool} : (s.kernelStart e again).storesWf :=
  h.count.ite ((h.count.ite h.setEng).ite (h.count.hardFault.ite h.takeStart))

theorem State.storesWf.wdogFault (h : s.storesWf) {e : Fin 10} {ov : Option Slot} : (s.wdogFault e ov).storesWf :=
  h.programFault.ite h.hardFault

theorem State.storesWf.frozenCycle (h : s.storesWf) {e : Fin 10} : (s.frozenCycle e).storesWf :=
  h.setEng.hardFault.ite h.setEng

@[simp] theorem stallLate_dmem (x : Engine) : (stallLate x).dmem = x.dmem := rfl

@[simp] theorem idleCycle_dmem (x : Engine) (hold : Bool) : (idleCycle x hold).dmem = x.dmem := by
  unfold idleCycle
  split
  · rfl
  · extract_lets y
    split
    · split <;> rfl
    · rfl
  · rfl

theorem State.storesWf.engCycle (h : s.storesWf) {e : Fin 10} {ov : Option Slot} : (s.engCycle e ov).storesWf := by
  unfold State.engCycle
  extract_lets +onlyGivenNames x
  refine h.ite (h.frozenCycle.ite (State.storesWf.ite (h.setEng (stallLate_dmem _)).frozenCycle ?_))
  split
  · extract_lets +onlyGivenNames r
    have hr : r.1.storesWf := (h.setEng (x := tickEngine x)).landDue
    exact hr.setEng (idleCycle_dmem ..)
  · split
    · exact h.setEng
    · extract_lets +onlyGivenNames y
      split
      · exact h.wdogFault
      · extract_lets +onlyGivenNames z flg0 r
        have hr : r.1.storesWf := (h.setEng (x := z)).landDue
        exact hr.issue

theorem State.storesWf.engCycles (h : s.storesWf) {e : Fin 10} {n : Nat} : (s.engCycles e n).storesWf := by
  induction n generalizing s with
  | zero => exact h
  | succ n ih => exact ih h.engCycle

/-! Pec. -/

theorem State.storesWf.oneMove (h : s.storesWf) {e : Fin 10} {svc : Bool} {sl : Slot} :
    (s.oneMove e svc sl).storesWf :=
  h.engCycle.ite h

theorem State.storesWf.eccCe (h : s.storesWf) {e : Fin 10} {ce : Bool} : (s.eccCe e ce).storesWf := h.count.ite h

theorem State.storesWf.doWaitResume (h : s.storesWf) {e : Fin 10} : (doWaitResume e s).storesWf := by
  unfold Machine.doWaitResume
  extract_lets +onlyGivenNames _
  split
  exacts [h.setEng.ite h, h]

theorem State.storesWf.doRepeatIteration (h : s.storesWf) {e : Fin 10} : (doRepeatIteration e s).storesWf := by
  unfold Machine.doRepeatIteration
  split
  exacts [h.engCycle.ite h, h]

theorem State.storesWf.doWatchdogExpire (h : s.storesWf) {e : Fin 10} : (doWatchdogExpire e s).storesWf :=
  h.wdogFault.ite h

theorem State.storesWf.doMoveRetry (h : s.storesWf) {e : Fin 10} {svc : Bool} : (doMoveRetry e svc s).storesWf :=
  h.ite (h.hardFaultBits.ite h.setEng.count)

theorem State.storesWf.doCheckpointSnapshot (h : s.storesWf) {e : Fin 10} : (doCheckpointSnapshot e s).storesWf := by
  unfold Machine.doCheckpointSnapshot
  extract_lets +onlyGivenNames _
  split
  · exact h
  · extract_lets +onlyGivenNames r _
    have hr : r.1.storesWf := h.setEng.landList
    exact hr.setEng

theorem State.storesWf.compareLead (h : s.storesWf) {e : Fin 10} {own : Word × List Word}
    {lead : Option (Word × List Word)} : (s.compareLead e own lead).storesWf := by
  unfold State.compareLead
  split
  exacts [h.setEng.count.ite h, h]

theorem State.storesWf.doCheckpointCommit (h : s.storesWf) {e : Fin 10} {lead : Option (Word × List Word)} :
    (doCheckpointCommit e lead s).storesWf := by
  unfold Machine.doCheckpointCommit
  extract_lets +onlyGivenNames _
  split
  · split
    exacts [h.writeSlot.setEng.modInst.compareLead.ite h.nonOwner.setEng, h.setEng]
  · exact h

theorem State.storesWf.doWindowGateOpen (h : s.storesWf) {r : Fin 10} : (doWindowGateOpen r s).storesWf := by
  unfold Machine.doWindowGateOpen
  split
  exacts [h.modInst, h]

theorem State.storesWf.swapImem (h : s.storesWf) {e : Fin 10} : (s.swapImem e).storesWf :=
  h.setEng (by split <;> rfl)

theorem State.storesWf.setDbgStatus (h : s.storesWf) {e : Fin 10} {c : Byte} : (s.setDbgStatus e c).storesWf :=
  h.setEng

theorem State.storesWf.dbgAccept (h : s.storesWf) {e : Fin 10} {f : Engine → Engine}
    (hf : (f s.eng[e]).dmem = s.eng[e].dmem := by rfl) : (s.dbgAccept e f).storesWf :=
  (h.setEng hf).setDbgStatus.ite h.setDbgStatus

theorem State.storesWf.dbgRefused (h : s.storesWf) {e : Fin 10} : (s.dbgRefused e).storesWf :=
  h.setDbgStatus.ite (h.setDbgStatus.ite h)

theorem haltNow_dmem (x : Engine) : (haltNow x).dmem = x.dmem := by
  unfold haltNow
  split <;> rfl

theorem State.storesWf.haltCmd (h : s.storesWf) {e : Fin 10} : (s.haltCmd e).storesWf := h.dbgAccept (haltNow_dmem _)

theorem State.storesWf.stepCmd (h : s.storesWf) {e : Fin 10} : (s.stepCmd e).storesWf := by
  unfold State.stepCmd
  extract_lets +onlyGivenNames _ _
  split
  · extract_lets +onlyGivenNames s2
    have hs2 : s2.storesWf := h.dbgAccept.setEng.engCycle
    exact hs2.setEng.ite hs2
  · exact h.dbgAccept

theorem State.storesWf.resumeCmd (h : s.storesWf) {e : Fin 10} : (s.resumeCmd e).storesWf := by
  unfold State.resumeCmd
  extract_lets +onlyGivenNames _ _
  split
  · extract_lets +onlyGivenNames s2
    have hs2 : s2.storesWf := h.dbgAccept.setEng
    exact hs2.kernelStart.ite hs2
  · exact h.dbgAccept

theorem State.storesWf.doBreakpointHit (h : s.storesWf) {e : Fin 10} : (doBreakpointHit e s).storesWf := by
  unfold Machine.doBreakpointHit
  split
  · split
    exacts [h.setEng, h]
  · exact h

theorem State.storesWf.dbgCtrlWrite (h : s.storesWf) {e : Fin 10} {v : Word} : (s.dbgCtrlWrite e v).storesWf := by
  unfold State.dbgCtrlWrite
  extract_lets +onlyGivenNames _ s2 s3
  have hs2 : s2.storesWf := h.setReg.haltCmd.ite h.setReg
  have hs3 : s3.storesWf := hs2.stepCmd.ite hs2
  exact hs3.resumeCmd.ite hs3

/-! Keys. -/

theorem State.storesWf.writeRingSet (h : s.storesWf) {r : Fin 2} {slot : Bool} :
    (s.writeRingSet r slot).storesWf := by
  unfold State.writeRingSet
  split
  exacts [h.setTabs, h]

theorem State.storesWf.installRing (h : s.storesWf) {r : Fin 2} : (s.installRing r).storesWf :=
  h.writeRingSet.ite h.writeRingSet

theorem State.storesWf.installSa (h : s.storesWf) {n : Fin 8} {entry : Nat} {ws : List Word} :
    (s.installSa n entry ws).storesWf :=
  h.setTabs.setPn.setPn

theorem State.storesWf.installRx (h : s.storesWf) {n : Fin 8} {an : Nat} {ks : List Word} {l : List Nat} :
    (State.installRx n an ks l s).storesWf := by
  induction l generalizing s with
  | nil => exact h
  | cons c r ih => exact ih h.draw.installSa

theorem State.storesWf.installSak (h : s.storesWf) {n : Fin 8} : (s.installSak n).storesWf :=
  h.drawN.draw.installSa.installRx.setRegField

theorem State.storesWf.sendMkpdu (h : s.storesWf) {n : Fin 8} : (s.sendMkpdu n).storesWf := h.withFree.toSwitch

theorem State.storesWf.doMkaTimerExpire (h : s.storesWf) {n : Fin 8} {hello server : Bool} :
    (doMkaTimerExpire n hello server s).storesWf := by
  unfold Machine.doMkaTimerExpire
  split
  · exact h
  · extract_lets +onlyGivenNames _ _
    split
    · extract_lets +onlyGivenNames s2
      have hs2 : s2.storesWf := h.modSec.sendMkpdu
      exact hs2.installSak.ite hs2
    · exact h.modSec.installSak.ite h.modSec

theorem State.storesWf.zeroKeyBanks (h : s.storesWf) : s.zeroKeyBanks.storesWf :=
  h.foldl fun _ ht _ => ht.bankZero.zeroScratch.ite ht

theorem State.storesWf.zeroSession (h : s.storesWf) : s.zeroSession.storesWf :=
  have hf : ({ s with tabs := s.tabs.filter (fun e => !isSessionKey e.1) } : State).storesWf :=
    State.Canonical.wf { h.canonical with tabs := amFilter_wf _ _ _ h.canonical.tabs }
  hf.zeroKeyBanks.count

theorem State.storesWf.zeroize (h : s.storesWf) : s.zeroize.storesWf := h.zeroSession.modSec

theorem State.storesWf.restoreKeys (h : s.storesWf) : s.restoreKeys.storesWf :=
  h.writeRingSet.writeRingSet.writeRingSet.writeRingSet.foldl fun _ ht _ => ht.installSak.ite ht

theorem State.storesWf.releaseHalt (h : s.storesWf) {e : Fin 10} : (s.releaseHalt e).storesWf :=
  (h.setEng.kernelStart.ite h.setEng).ite h

theorem State.storesWf.clearBps (h : s.storesWf) {e : Fin 10} : (s.clearBps e).storesWf :=
  ((h.foldl fun _ ht _ => ht.setReg)).setReg

theorem State.storesWf.endDebug (h : s.storesWf) : s.endDebug.storesWf := by
  unfold State.endDebug
  split
  · exact h.modSec
  · extract_lets +onlyGivenNames _ s2 _
    have hs2 : s2.storesWf := ((h.foldl fun _ ht _ => ht.releaseHalt.clearBps)).setRegField
    exact ((hs2.restoreKeys.ite hs2)).modSec

/-! Takeover. -/

theorem State.storesWf.loadSection (h : s.storesWf) {e r : Fin 10} : (s.loadSection e r).storesWf := by
  unfold State.loadSection
  split
  exacts [h.wipeSpace.loadImem, h]

theorem State.storesWf.loadRole (h : s.storesWf) {e r : Fin 10} : (s.loadRole e r).storesWf := by
  unfold State.loadRole
  split
  exacts [h.loadWhole, h]

theorem State.storesWf.restoreCkpt (h : s.storesWf) {e r : Fin 10} : (s.restoreCkpt e r).storesWf := by
  unfold State.restoreCkpt
  split
  · split
    exacts [h.setEng, h]
  · exact h

theorem State.storesWf.doTakeoverCopyBegin (h : s.storesWf) {e : Fin 10} : (doTakeoverCopyBegin e s).storesWf := by
  unfold Machine.doTakeoverCopyBegin
  extract_lets +onlyGivenNames _
  split
  · split
    · extract_lets +onlyGivenNames s1
      have hs1 : s1.storesWf := h.loadSection.restoreCkpt
      exact hs1.setEng
    · exact h
  · exact h

theorem State.storesWf.doTakeoverKernelStart (h : s.storesWf) {e : Fin 10} :
    (doTakeoverKernelStart e s).storesWf := by
  unfold Machine.doTakeoverKernelStart
  extract_lets +onlyGivenNames _
  split
  · extract_lets +onlyGivenNames s1
    have hs1 : s1.storesWf := h.setEng.fltLog
    exact hs1.kernelStart.ite hs1
  · exact h

theorem State.storesWf.doTakeoverCopyDone (h : s.storesWf) {e : Fin 10} : (doTakeoverCopyDone e s).storesWf := by
  unfold Machine.doTakeoverCopyDone
  extract_lets x due
  split
  · split
    · exact h
    · extract_lets s1 _ y z s2
      have hz : z.dmem = [] := by unfold z; split <;> rfl
      have hs2 : s2.storesWf := h.loadRole.setEngOf (hz ▸ amWf_nil _)
      split
      · split
        exacts [hs2.loadWhole.swapImem, hs2]
      · exact hs2
  · exact h

theorem State.storesWf.rotate (h : s.storesWf) : s.rotate.storesWf := by
  unfold State.rotate
  split
  · exact h
  · split
    exacts [h.withRotation.ite h.withRotation.wake, h]

theorem State.storesWf.rotAgain (h : s.storesWf) : s.rotAgain.storesWf := h.withFlt

theorem State.storesWf.doRotationTimer (h : s.storesWf) : (doRotationTimer s).storesWf := h.ite h.rotAgain.rotate

theorem State.storesWf.doRotationMove (h : s.storesWf) : (doRotationMove s).storesWf := by
  unfold Machine.doRotationMove
  split
  · exact h
  · split
    · exact h
    next f _ =>
      extract_lets +onlyGivenNames x0 r x t
      have hr : r.1.storesWf := h.setEng.landList
      clear_value r
      split
      · exact h
      · extract_lets +onlyGivenNames s1 _ s2 s3
        have hs1 : s1.storesWf := hr.moveBindings
        have hd : amWf (fun _ => 0) x.dmem := hr.canonical.dmem f
        clear_value s1 x
        have ht : (s1.setEng t (rotatedEngine s1.eng[t] x)).storesWf := hs1.setEngOf hd
        have hs2 : s2.storesWf := ht.setEngOf hd
        clear_value s2
        have hs3 : s3.storesWf := hs2.loadRole.modInst
        clear_value s3
        have hs4 : ({ s3 with bindSeq := s3.bindSeq + 1, rotation := none } : State).storesWf := hs3
        exact hs4.count

theorem State.storesWf.doSelfTestDone (h : s.storesWf) {e : Fin 10} {pass : Bool} :
    (doSelfTestDone e pass s).storesWf := by
  unfold Machine.doSelfTestDone
  extract_lets +onlyGivenNames _ _
  split
  · exact h
  · split
    · extract_lets +onlyGivenNames _ s1
      have hs1 : s1.storesWf := h.setEng.setReg
      exact hs1.fltLeave.ite hs1
    · exact h.setEng.fltPermanent.ite h.setEng.fltLatch

theorem State.storesWf.startTest (h : s.storesWf) {e : Fin 10} : (s.startTest e).storesWf := h.setEng.withFlt

theorem State.storesWf.doRetestStart (h : s.storesWf) {e : Fin 10} : (doRetestStart e s).storesWf := by
  unfold Machine.doRetestStart
  split
  exacts [h.startTest.ite h, h]

/-! Can. -/

theorem State.storesWf.setCan (h : s.storesWf) {n : Fin 4} {x : CanState} : (s.setCan n x).storesWf := h.withCan

theorem State.storesWf.gwSend (h : s.storesWf) {n : Fin 4} {kind num : Nat} {idw : Word} {dlc stat : Nat}
    {stamp : List Byte} {info : Nat} {data : List Byte} :
    (s.gwSend n kind num idw dlc stat stamp info data).storesWf :=
  h.count.ite h.toSwitch

theorem State.storesWf.canBusOff (h : s.storesWf) {n : Fin 4} : (s.canBusOff n).storesWf := h.setCan.count.ite h

theorem State.storesWf.canErr (h : s.storesWf) {n : Fin 4} {k : CanErrKind} {r : CanErrRule} :
    (s.canErr n k r).storesWf :=
  h.count.setCan.canBusOff

theorem State.storesWf.canNext (h : s.storesWf) {n : Fin 4} : (s.canNext n).storesWf := by
  unfold State.canNext
  extract_lets +onlyGivenNames _
  split
  · exact h
  · split
    exacts [h, h.setCan]

theorem State.storesWf.canFree (h : s.storesWf) {n : Fin 4} : (s.canFree n).storesWf := h.setCan.canNext

theorem State.storesWf.doCanError (h : s.storesWf) {n : Fin 4} {k : CanErrKind} {r : CanErrRule} :
    (doCanError n k r s).storesWf :=
  h.canErr.canFree.ite h

theorem State.storesWf.doCanBusoffRecover (h : s.storesWf) {n : Fin 4} {occurrences : BitVec 8} :
    (doCanBusoffRecover n occurrences s).storesWf :=
  h.ite (h.setCan.ite h.setCan.canNext)

theorem State.storesWf.doCanBusIntegrated (h : s.storesWf) {n : Fin 4} : (doCanBusIntegrated n s).storesWf :=
  h.setCan.canNext.ite h

theorem State.storesWf.doCanProtocolException (h : s.storesWf) {n : Fin 4} : (doCanProtocolException n s).storesWf :=
  h.ite (h.setCan.count.ite h.canErr.canFree)

theorem State.storesWf.objStore (h : s.storesWf) {n : Fin 4} {k : Nat} {f : CanFrame} {st : Stamp} :
    (s.objStore n k f st).storesWf := by
  unfold State.objStore
  extract_lets +onlyGivenNames _ _ _ _ _ _ _ s1 s2
  have hs1 : s1.storesWf := h.setTabs.count
  have hs2 : s2.storesWf := hs1.count.ite hs1
  exact hs2.gwSend.ite hs2

theorem State.storesWf.objRead (h : s.storesWf) {n : Fin 4} {k : Nat} : (s.objRead n k).storesWf := h.setTab

theorem State.storesWf.objCommit (h : s.storesWf) {n : Fin 4} {k : Nat} {v : Word} : (s.objCommit n k v).storesWf :=
  h.setTab.ite h.setTab.clearTab

theorem State.storesWf.canGoodRx (h : s.storesWf) {n : Fin 4} : (s.canGoodRx n).storesWf :=
  h.ite (h.setCan.ite h.draw.setCan)

theorem State.storesWf.canRef (h : s.storesWf) {n : Fin 4} {f : CanFrame} {sof : Stamp} :
    (s.canRef n f sof).storesWf :=
  h.setCan.ite h

theorem State.storesWf.canKeep (h : s.storesWf) {n : Fin 4} {f : CanFrame} {sof : Stamp} :
    (s.canKeep n f sof).storesWf := by
  unfold State.canKeep
  split
  · exact h.count
  · split
    exacts [h.objStore.sgmMark, h.count]

theorem State.storesWf.doCanFrameStore (h : s.storesWf) {n : Fin 4} {f : CanFrame} {ago : Nat} :
    (doCanFrameStore n f ago s).storesWf :=
  h.ite (h.canErr.canFree.ite h.canGoodRx.canRef.canKeep.canFree)

theorem State.storesWf.txEvent (h : s.storesWf) {n : Fin 4} {t : CanTry} {status : Byte} {err : Nat}
    {sof : Option Stamp} : (s.txEvent n t status err sof).storesWf := by
  unfold State.txEvent
  extract_lets +onlyGivenNames _ _ _ s0 _ _ _ s1
  have hs0 : s0.storesWf := by
    unfold s0
    split
    exacts [h, h.draw]
  have hs1 : s1.storesWf := hs0.setCan.ite hs0.count
  exact hs1.gwSend.ite hs1

theorem State.storesWf.txOutcome (h : s.storesWf) {n : Fin 4} {t : CanTry} {status : Byte} {err : Nat}
    {sof : Option Stamp} : (s.txOutcome n t status err sof).storesWf := by
  unfold State.txOutcome
  extract_lets +onlyGivenNames s1
  have hs1 : s1.storesWf := by
    unfold s1
    split
    exacts [h.setTab, h.ite h.count]
  exact hs1.txEvent

theorem State.storesWf.txFail (h : s.storesWf) {n : Fin 4} {t : CanTry} {status : Byte} {err : Nat}
    {sof : Option Stamp} : (s.txFail n t status err sof).storesWf :=
  h.count.txOutcome

theorem State.storesWf.readyDone (h : s.storesWf) {n : Fin 4} {b : Fin 64} : (s.readyDone n b).storesWf :=
  h.ite h.setTab

theorem State.storesWf.tryStart (h : s.storesWf) {n : Fin 4} {busy : Bool} {t : CanTry} :
    (s.tryStart n busy t).storesWf :=
  h.txFail.ite (h.txFail.ite h.setCan.canNext)

theorem State.storesWf.doCanTtCycleStart (h : s.storesWf) {n : Fin 4} {busy : Bool} :
    (doCanTtCycleStart n busy s).storesWf :=
  h.ite h.setCan.tryStart

theorem State.storesWf.doCanTtRefMiss (h : s.storesWf) {n : Fin 4} : (doCanTtRefMiss n s).storesWf :=
  h.setCan.count.ite h

theorem State.storesWf.doCanTimeMark (h : s.storesWf) {n : Fin 4} {col : Fin 32} {busy : Bool} :
    (doCanTimeMark n col busy s).storesWf :=
  h.ite (h.setCan.ite (h.setCan.count.ite h.setCan.readyDone.tryStart))

theorem State.storesWf.doCanTxLate (h : s.storesWf) {n : Fin 4} {col : Option (Fin 32)} :
    (doCanTxLate n col s).storesWf := by
  unfold Machine.doCanTxLate
  extract_lets +onlyGivenNames _
  split
  exacts [h, h.setCan.txFail]

theorem State.storesWf.measureTdc (h : s.storesWf) {n : Fin 4} {t : CanTry} {loop : Nat} :
    (s.measureTdc n t loop).storesWf :=
  (h.setCan.count.ite h.setCan).ite h

theorem State.storesWf.canOutcome (h : s.storesWf) {n : Fin 4} {t : CanTry} {o : CanEnd} {sof : Option Stamp} :
    (s.canOutcome n t o sof).storesWf := by
  unfold State.canOutcome
  split
  · exact h.setCan.count.txOutcome
  · exact (h.count.count.ite h.count).txOutcome
  · exact h.canErr.count.txFail
  · exact h.txFail
  · exact h.txFail
  · exact h.txFail
  · exact h.txFail
  · exact h.txFail

theorem State.storesWf.doCanTxEnd (h : s.storesWf) {n : Fin 4} {o : CanEnd} {ago loop : Nat} :
    (doCanTxEnd n o ago loop s).storesWf := by
  unfold Machine.doCanTxEnd
  split
  · exact h
  · split
    · exact h
    · extract_lets +onlyGivenNames _ _ _ s1
      have hs1 : s1.storesWf := h.setCan.ite h.setCan.measureTdc
      exact hs1.canOutcome.canNext

theorem State.storesWf.txevRead (h : s.storesWf) {who : Nat} {n : Fin 4} : (s.txevRead who n).2.storesWf := by
  unfold State.txevRead
  extract_lets +onlyGivenNames _
  split
  exacts [h.latchFor, h.setCan.latchFor]

theorem State.storesWf.doCanTxevRead (h : s.storesWf) {m : Master} {n : Fin 4} : (doCanTxevRead m n s).storesWf :=
  h.guardedRead fun _ ht => ht.txevRead.emit

theorem State.storesWf.gwCommit (h : s.storesWf) {n : Fin 4} {bs : List Byte} : (s.gwCommit n bs).storesWf :=
  h.count.ite h.setTabs.setTabs

theorem State.storesWf.doCanGwReceive (h : s.storesWf) {n : Fin 4} : (doCanGwReceive n s).storesWf := by
  unfold Machine.doCanGwReceive
  split
  · exact h
  · split
    exacts [h, h.leaveQueue.gwCommit.ite h]

theorem State.storesWf.canJoin (h : s.storesWf) {n : Fin 4} : (s.canJoin n).storesWf := h.setCan

theorem State.storesWf.canRejoin (h : s.storesWf) {n : Fin 4} : (s.canRejoin n).storesWf := h.setCan

theorem State.storesWf.canHold (h : s.storesWf) {n : Fin 4} : (s.canHold n).storesWf := h.setCan

theorem State.storesWf.canQuiet (h : s.storesWf) {n : Fin 4} : (s.canQuiet n).storesWf := h.setCan

/-! Hif. -/

theorem State.storesWf.rxCqe (h : s.storesWf) {c : Fin 256} {idx : Nat} {status : Byte} {w1 w2 cookie : Word} :
    (s.rxCqe c idx status w1 w2 cookie).storesWf :=
  h.writeCqe.setCtxWord

theorem State.storesWf.rxFlush (h : s.storesWf) {n : Nat} {c : Fin 256} : (State.rxFlush n s c).storesWf := by
  induction n generalizing s with
  | zero => exact h
  | succ n ih =>
    unfold State.rxFlush
    extract_lets x
    split
    · exact h
    · split
      exacts [(ih h.rxCqe.setHctx).ite h, h]

theorem State.storesWf.issueRead (h : s.storesWf) {c : Fin 256} {kind : ReadKind} {addr len : Nat} :
    (s.issueRead c kind addr len).storesWf :=
  h.withHif.emit

theorem State.storesWf.modTx (h : s.storesWf) {c : Fin 256} {i : Nat} {f : TxDesc → TxDesc} :
    (s.modTx c i f).storesWf :=
  h.setHctx

theorem State.storesWf.pumpReads (h : s.storesWf) {n : Nat} {c : Fin 256} : (State.pumpReads n s c).storesWf := by
  induction n generalizing s with
  | zero => exact h
  | succ n ih =>
    unfold State.pumpReads
    extract_lets x
    split
    · exact h
    · split
      exacts [h, ih h.modTx.issueRead]

theorem State.storesWf.feed (h : s.storesWf) {n : Nat} {c : Fin 256} : (State.feed n s c).storesWf := by
  induction n generalizing s with
  | zero => exact h
  | succ n ih =>
    unfold State.feed
    split
    exacts [h, (ih h.modTx.toSwitch).ite h]

theorem State.storesWf.advance (h : s.storesWf) {c : Fin 256} : (s.advance c).storesWf :=
  h.feed.pumpReads.txFlush.rxFlush

theorem State.storesWf.discardReads (h : s.storesWf) {c : Fin 256} {p : ReadKind → Bool} :
    (s.discardReads c p).storesWf :=
  h.withHif

theorem State.storesWf.setCtxState (h : s.storesWf) {c : Fin 256} {st : Nat} : (s.setCtxState c st).storesWf :=
  h.setCtxWord

theorem State.storesWf.ctxCmdDone (h : s.storesWf) {c : Fin 256} {status : Byte} : (s.ctxCmdDone c status).storesWf :=
  h.setReg

theorem State.storesWf.doCtxEnable (h : s.storesWf) {m : Master} {c : Fin 256} : (doCtxEnable m c s).storesWf :=
  h.guarded fun _ ht => ht.setCtxWord.setCtxWord.setCtxState.setHctx.ctxCmdDone.ite ht.ctxCmdDone

theorem State.storesWf.endReading (h : s.storesWf) {c : Fin 256} : (s.endReading c).storesWf :=
  h.setHctx.discardReads

theorem State.storesWf.ctxDrain (h : s.storesWf) {c : Fin 256} : (s.ctxDrain c).storesWf :=
  h.setCtxState.endReading.feed.txFlush

theorem State.storesWf.doCtxDisable (h : s.storesWf) {m : Master} {c : Fin 256} : (doCtxDisable m c s).storesWf :=
  h.guarded fun _ ht => (ht.ctxDrain.ite ht).ctxCmdDone

theorem State.storesWf.unreadWords (h : s.storesWf) : s.unreadWords.2.storesWf := h.drawN

theorem State.storesWf.drainRings (h : s.storesWf) {n : Nat} {c : Fin 256} : (State.drainRings n s c).storesWf := by
  induction n generalizing s with
  | zero => exact h
  | succ n ih =>
    unfold State.drainRings
    extract_lets x
    split
    · exact h
    · split
      · split
        exacts [(ih h.txCqe.setHctx).ite (ih h.unreadWords.txCqe), ih h.unreadWords.txCqe]
      · split
        · split
          exacts [(ih h.rxCqe.setHctx).ite (ih h.unreadWords.rxCqe), ih h.unreadWords.rxCqe]
        · exact h

theorem State.storesWf.ctxOff (h : s.storesWf) {c : Fin 256} : (s.ctxOff c).storesWf :=
  h.setCtxState.setHctx.discardReads

theorem State.storesWf.doCtxDrainDone (h : s.storesWf) {c : Fin 256} {stalls : BitVec 16} :
    (doCtxDrainDone c stalls s).storesWf := by
  unfold Machine.doCtxDrainDone
  extract_lets +onlyGivenNames _
  split
  · exact h
  · split
    · exact h.ctxOff
    · split
      · exact h
      · extract_lets +onlyGivenNames s1
        have hs1 : s1.storesWf := h.countN.drainRings
        exact hs1.ctxOff.ite hs1

theorem State.storesWf.doorbell (h : s.storesWf) {link : Bool} {c : Fin 256} {w : Nat} {v : Word} {f : State → State}
    (hf : ∀ t : State, t.storesWf → (f t).storesWf) : (s.doorbell link c w v f).storesWf :=
  h.ite (h.emit.ite ((hf s h).ite h.count))

theorem State.storesWf.doTxProducerWrite (h : s.storesWf) {link : Bool} {c : Fin 256} {v : Word} :
    (doTxProducerWrite link c v s).storesWf :=
  h.doorbell fun _ ht => ht.setHctx.ite ht.count

theorem State.storesWf.doRxProducerWrite (h : s.storesWf) {link : Bool} {c : Fin 256} {v : Word} :
    (doRxProducerWrite link c v s).storesWf :=
  h.doorbell fun _ ht => ht.setHctx.ite ht.count

theorem State.storesWf.doCqConsumerWrite (h : s.storesWf) {link : Bool} {c : Fin 256} {v : Word} :
    (doCqConsumerWrite link c v s).storesWf :=
  h.doorbell fun _ ht => ht.setHctx.advance.ite ht.count

theorem State.storesWf.abortReply (h : s.storesWf) {c : Fin 256} {status : Byte} {at_ : BitVec 2 × BitVec 16} :
    (s.abortReply c status at_).storesWf :=
  h.setHctx.ite h.setHctx.writeLoose

theorem State.storesWf.doAbortRequest (h : s.storesWf) {link : Bool} {c : Fin 256} {v : Word} :
    (doAbortRequest link c v s).storesWf :=
  h.doorbell fun _ ht => ht.abortReply.ite (ht.abortReply.ite ht.setHctx)

theorem State.storesWf.dropWaiting (h : s.storesWf) {c : Fin 256} {i : Nat} : (s.dropWaiting c i).storesWf := h.setSwc

theorem State.storesWf.abortTx (h : s.storesWf) {c : Fin 256} {i : Nat} : (s.abortTx c i).2.storesWf := by
  unfold State.abortTx
  extract_lets +onlyGivenNames _
  split
  · exact h.setHctx
  · split
    exacts [h, h.modTx.discardReads.dropWaiting]

theorem State.storesWf.abortRx (h : s.storesWf) {c : Fin 256} {i : Nat} : (s.abortRx c i).2.storesWf := by
  unfold State.abortRx
  extract_lets +onlyGivenNames _
  split
  · exact h.setHctx
  · split
    exacts [h, h.setHctx]

theorem State.storesWf.doAbortEvaluate (h : s.storesWf) {c : Fin 256} : (doAbortEvaluate c s).storesWf := by
  unfold Machine.doAbortEvaluate
  extract_lets +onlyGivenNames _
  split
  · exact h
  · extract_lets +onlyGivenNames _
    split
    · exact h.setHctx.abortReply
    · split
      · exact h.setHctx.abortReply
      · extract_lets +onlyGivenNames r
        have hr : r.2.storesWf := .iteSnd h.setHctx.abortRx h.setHctx.abortTx
        exact hr.abortReply.advance

theorem State.storesWf.fetchRun (h : s.storesWf) {c : Fin 256} {rx : Bool} : (s.fetchRun c rx).storesWf :=
  h.setHctx.issueRead.ite h.setHctx.issueRead

theorem State.storesWf.doDescriptorFetch (h : s.storesWf) {rx : Bool} : (doDescriptorFetch rx s).storesWf := by
  unfold Machine.doDescriptorFetch
  split
  · exact h
  · split
    · exact h.withHif.fetchRun
    · split
      exacts [h.withHif.fetchRun, h]

theorem State.storesWf.takeTxRun (h : s.storesWf) {c : Fin 256} {i n : Nat} {data : Option (List Byte)} :
    (s.takeTxRun c i n data).storesWf := by
  refine h.foldl fun t ht k => ?_
  cases data
  exacts [ht.unreadWords.setHctx, ht.setHctx]

theorem State.storesWf.takeRxRun (h : s.storesWf) {c : Fin 256} {i n : Nat} {data : Option (List Byte)} :
    (s.takeRxRun c i n data).storesWf := by
  refine h.foldl fun t ht k => ?_
  cases data
  exacts [ht.unreadWords.setHctx, ht.setHctx]

theorem State.storesWf.takeFramePart (h : s.storesWf) {c : Fin 256} {i off : Nat} {data : Option (List Byte)} :
    (s.takeFramePart c i off data).storesWf := by
  unfold State.takeFramePart
  split
  exacts [h.modTx, h.modTx.discardReads]

theorem State.storesWf.readEnds (h : s.storesWf) {tag : Nat} {data : Option (List Byte)} :
    (s.readEnds tag data).storesWf := by
  unfold State.readEnds
  split
  · exact h
  · extract_lets +onlyGivenNames _ _ s2
    have hs2 : s2.storesWf := h.withHif.ite h.withHif.count
    split
    exacts [hs2, hs2.takeTxRun.advance, hs2.takeRxRun.advance, hs2.takeFramePart.advance]

theorem State.storesWf.doTxCommit (h : s.storesWf) {c : Fin 256} : (doTxCommit c s).storesWf :=
  (h.doFrameClassify.ite h).txFlush

theorem State.storesWf.imageWrite (h : s.storesWf) {link : Bool} {bs : List Byte} {x : Stamp} {r : Nat} :
    (s.imageWrite link bs x r).storesWf := by
  unfold State.imageWrite
  extract_lets +onlyGivenNames _ _ _
  split
  · exact h.count
  · extract_lets +onlyGivenNames _ _
    split
    · exact h.setTab
    · extract_lets +onlyGivenNames _ _ _ s3 _
      have hs3 : s3.storesWf := h.setTab.emit.emit
      exact hs3.writeLoose.ite hs3

theorem State.storesWf.rxDrop (h : s.storesWf) {c : Fin 256} : (s.rxDrop c).storesWf := h.setCtxWord

theorem State.storesWf.rxInto (h : s.storesWf) {link : Bool} {c : Fin 256} {st : Stored} {bs : List Byte}
    {d : RxDesc} : (s.rxInto link c st bs d).storesWf :=
  h.count.ite h.emit.rxCqe.setHctx.rxFlush

theorem State.storesWf.rxFrame (h : s.storesWf) {link : Bool} {st : Stored} {bs : List Byte} :
    ∀ t ∈ s.rxFrame link st bs, t.storesWf := by
  unfold State.rxFrame
  split
  · rintro t ⟨⟩
    exact h.count
  · split
    · rintro t ⟨⟩
      exact h.count
    · split
      · rintro t ⟨⟩
        exact h.rxDrop
      · split
        · split
          · rintro t ⟨⟩
          · rintro t ⟨⟩
            exact h.rxInto
        · rintro t ⟨⟩

theorem State.storesWf.doRxDeliver (h : s.storesWf) {link : Bool} : (doRxDeliver link s).storesWf := by
  unfold Machine.doRxDeliver
  split
  · exact h
  · split
    · exact h
    · extract_lets bs gone regs
      split
      · exact h.dropAt.dequeue
      · split
        · exact ((h.foldl fun _ ht _ => ht.imageWrite).ite h).leaveQueue
        · split
          · exact h.leaveQueue
          · split
            next t ht => exact (h.rxFrame t ht).leaveQueue
            · exact h

theorem State.storesWf.doMsixTimerExpire (h : s.storesWf) {c : Fin 256} : (doMsixTimerExpire c s).storesWf :=
  h.sendVector.ite h

theorem State.storesWf.inWrite (h : s.storesWf) {k off : Nat} {bs : List Byte} : (s.inWrite k off bs).storesWf := by
  unfold State.inWrite
  split
  exacts [h.bankServe, h]

theorem State.storesWf.setInPend (h : s.storesWf) {k : Fin 32} {p : Word × Bool × Nat} :
    (s.setInPend k p).storesWf := by
  unfold State.setInPend
  extract_lets +onlyGivenNames s1
  have hs1 : s1.storesWf := h.setTab.setTab
  exact hs1.withHif

theorem State.storesWf.inPut (h : s.storesWf) {k : Fin 32} {off : Nat} {bs : List Byte} {v : Option Word} :
    (s.inPut k off bs v).storesWf := by
  unfold State.inPut
  extract_lets +onlyGivenNames _
  split
  exacts [h.inWrite, h.inWrite.setInPend]

theorem State.storesWf.inTake (h : s.storesWf) {k : Fin 32} {off : Nat} {bs : List Byte} {v : Option Word} :
    (s.inTake k off bs v).storesWf :=
  h.inPut.withHif

theorem State.storesWf.bar4Word (h : s.storesWf) {link : Bool} {a : Nat} {bs : List Byte} :
    ∀ t ∈ s.bar4Word link a bs, t.storesWf := by
  unfold State.bar4Word
  split
  · rintro t ⟨⟩
    exact h
  · split
    · rintro t ⟨⟩
      exact h.setVecWord
    · split
      · split
        · rintro t ⟨⟩
          exact h.inTake
        · rintro t ⟨⟩
      · split
        · split
          · rintro t ⟨⟩
            exact h.inTake
          · rintro t ⟨⟩
        · rintro t ⟨⟩

theorem State.storesWf.bar4Words (h : s.storesWf) {n : Nat} {link : Bool} {a : Nat} {bs : List Byte} :
    ∀ t ∈ State.bar4Words n s link a bs, t.storesWf := by
  induction n generalizing s a bs with
  | zero =>
    rintro t ⟨⟩
    exact h
  | succ n ih =>
    unfold State.bar4Words
    split
    next u hu => exact ih (h.bar4Word u hu)
    · rintro t ⟨⟩

theorem State.storesWf.doBar4Write (h : s.storesWf) {link : Bool} {off : BitVec 24} {bs : List Byte} :
    (doBar4Write link off bs s).storesWf := by
  unfold Machine.doBar4Write
  refine h.ite (h.emit.ite (h.accessErr.ite ?_))
  split
  next t ht => exact h.bar4Words t ht
  · exact h.accessErr

theorem State.storesWf.inSwap (h : s.storesWf) {k : Fin 32} : (s.inSwap k).storesWf := h.setTab.inWrite.ite h

theorem State.storesWf.inUndo (h : s.storesWf) {w : BarWrite} : (s.inUndo w).storesWf := by
  unfold State.inUndo
  extract_lets +onlyGivenNames _
  split
  exacts [h.inPut, h.inPut.setInPend]

theorem State.storesWf.foldr {α : Type} {l : List α} {f : α → State → State} (h : s.storesWf)
    (hf : ∀ t, t.storesWf → ∀ a, (f a t).storesWf) : (l.foldr f s).storesWf := by
  induction l with
  | nil => exact h
  | cons a l ih => exact hf _ ih a

theorem State.storesWf.inFire (h : s.storesWf) {k : Fin 32} : (s.inFire k).storesWf := by
  unfold State.inFire
  extract_lets now t
  have ht : t.storesWf := (h.foldr fun _ ht _ => ht.inUndo).inSwap
  clear_value t
  exact ht.foldl fun _ ht _ => ht.inPut

theorem State.storesWf.inputSwap (h : s.storesWf) {r : Fin 10} : (s.inputSwap r).storesWf :=
  h.foldl fun _ ht _ => ht.inFire.ite ht

theorem State.storesWf.hostLinkGone (h : s.storesWf) {link : Bool} : (s.hostLinkGone link).storesWf := by
  unfold State.hostLinkGone
  extract_lets +onlyGivenNames s1 l _ s2
  have hs1 : s1.storesWf := by
    refine h.foldl fun t ht k => ?_
    extract_lets +onlyGivenNames c
    split
    · exact ht.setCtxState.endReading.feed.setHctx
    · exact ht
  clear_value s1
  have hf := amFilter_wf tabReset s1.tabs (fun e => e.1 / 2 ^ 24 ≠ 128 * msixUnit link) hs1.canonical.tabs
  have hs2 : s2.storesWf := State.Canonical.wf { hs1.withHif.canonical with tabs := hf }
  exact hs2.resetEndpoint

theorem State.storesWf.doHostLinkDown (h : s.storesWf) {link : Bool} {why : LinkEnd} :
    (doHostLinkDown link why s).storesWf :=
  h.ite ((h.ite h.setRegField).hostLinkGone)

theorem State.storesWf.doHostLinkUp (h : s.storesWf) {link : Bool} {gen : Fin 4} {width : Fin 5} {aer : Bool} :
    (doHostLinkUp link gen width aer s).storesWf := by
  unfold Machine.doHostLinkUp
  split
  · exact h
  · extract_lets +onlyGivenNames s1
    have hs1 : s1.storesWf := h.ite h.setRegField
    exact hs1.withHif

theorem State.storesWf.buserrPop (h : s.storesWf) {m : Master} : (s.buserrPop m).2.storesWf := by
  unfold State.buserrPop
  split
  exacts [h.latch.latch, h.withHif.latch.latch]

theorem State.storesWf.doHifBuserrRead (h : s.storesWf) {m : Master} : (doHifBuserrRead m s).storesWf :=
  h.guardedRead fun _ ht => ht.buserrPop.emit

/-! PsqOps. -/

theorem State.storesWf.setCh (h : s.storesWf) {c : Fin 64} {x : Chan} : (s.setCh c x).storesWf := h.withPsq

theorem State.storesWf.countRej (h : s.storesWf) {c : Fin 64} {pins : List Nat} : (s.countRej c pins).storesWf :=
  h.count.ite h

theorem State.storesWf.psqSet (h : s.storesWf) {c : Fin 64} {r : Nat} {v : Word} : (s.psqSet c r v).storesWf := by
  unfold State.psqSet
  split
  exacts [h.setReg, h.setReg, h.setReg, h.setCh, h.setCh]

theorem State.storesWf.swapEnd (h : s.storesWf) {e : Nat} : (s.swapEnd e).storesWf := h.withPsq.ite h

theorem State.storesWf.chMoved (h : s.storesWf) {c : Fin 64} : (s.chMoved c).storesWf := h.setCh.swapEnd

theorem State.storesWf.chStop (h : s.storesWf) {c : Fin 64} : (s.chStop c).storesWf := by
  unfold State.chStop
  extract_lets x fresh y s1
  have hs1 : s1.storesWf := h.setCh.chMoved
  clear_value fresh
  split
  exacts [hs1.emit, hs1]

theorem State.storesWf.chStart (h : s.storesWf) {c : Fin 64} : (s.chStart c).storesWf :=
  h.rejReg.ite (h.setCh.ite h)

theorem State.storesWf.chFault (h : s.storesWf) {c : Fin 64} {code : Byte} : (s.chFault c code).storesWf :=
  h.setCh.chMoved

theorem State.storesWf.psqHold (h : s.storesWf) : s.psqHold.storesWf :=
  h.foldl fun _ ht _ => by
    dsimp only
    split
    exacts [ht, ht, ht, ht.chStop]

theorem State.storesWf.txqPush (h : s.storesWf) {c : Fin 64} {v : Word} : (s.txqPush c v).storesWf :=
  h.setCh.ite h.count

theorem State.storesWf.rxqPop (h : s.storesWf) {c : Fin 64} : (s.rxqPop c).2.storesWf := by
  unfold State.rxqPop
  extract_lets +onlyGivenNames _
  split
  exacts [h.count, h.setCh]

theorem State.storesWf.chStall (h : s.storesWf) {c : Fin 64} {push : Bool} {at_ : Nat} :
    (s.chStall c push at_).storesWf :=
  h.setCh.count

theorem State.storesWf.bitStart (h : s.storesWf) {c : Fin 64} {sh : Shift} : (s.bitStart c sh).storesWf :=
  h.chStall.ite (h.setCh.chStall.ite (h.setCh.emit.ite h.setCh))

theorem State.storesWf.stalledSamples (h : s.storesWf) {n : Nat} {c : Fin 64} :
    (State.stalledSamples n s c).storesWf := by
  induction n generalizing s with
  | zero => exact h
  | succ n ih =>
    unfold State.stalledSamples
    extract_lets x
    split
    exacts [(ih h.setCh).ite h, h]

theorem State.storesWf.bitSample (h : s.storesWf) {c : Fin 64} {sh : Shift} {v : Bool} :
    (s.bitSample c sh v).storesWf :=
  h.chStall.ite (h.setCh.ite (h.setCh.ite h.setCh.chStall))

theorem State.storesWf.chShiftDone (h : s.storesWf) {c : Fin 64} : (s.chShiftDone c).storesWf :=
  h.setCh.chStop.ite h.setCh

theorem State.storesWf.shiftRun (h : s.storesWf) {n : Nat} {c : Fin 64} {lim : Option Nat} {smp : List Bool} :
    (State.shiftRun n s c lim smp).storesWf := by
  induction n generalizing s smp with
  | zero => exact h
  | succ n ih =>
    unfold State.shiftRun
    extract_lets x reached
    split
    exacts [((ih h.bitSample).ite h).ite ((h.chShiftDone.ite h).ite ((ih h.bitStart).ite h)), h]

theorem State.storesWf.shiftTo (h : s.storesWf) {c : Fin 64} : (s.shiftTo c).storesWf := h.shiftRun

theorem State.storesWf.chWait (h : s.storesWf) {c : Fin 64} {holdFor : Option Nat} :
    (s.chWait c holdFor).storesWf := by
  unfold State.chWait
  extract_lets +onlyGivenNames _ _
  split
  exacts [h.setCh.count.ite h.setCh, h.setCh]

theorem State.storesWf.chRelease (h : s.storesWf) {c : Fin 64} : (s.chRelease c).storesWf :=
  h.setCh.count.ite h.setCh

/-! Psq. -/

theorem State.storesWf.chNext (h : s.storesWf) {c : Fin 64} : (s.chNext c).storesWf := h.setCh

theorem State.storesWf.pinEffect (h : s.storesWf) {c : Fin 64} {lv dir : BitVec 8} :
    (s.pinEffect c lv dir).storesWf :=
  h.setCh.emit

theorem State.storesWf.takeEvent (h : s.storesWf) {c : Fin 64} : (s.takeEvent c).storesWf := by
  unfold State.takeEvent
  extract_lets +onlyGivenNames _
  split
  exacts [h.setCh.chWait, h.setCh]

theorem State.storesWf.psqPerform (h : s.storesWf) {c : Fin 64} {op : PsqOp} : (s.psqPerform c op).storesWf := by
  unfold State.psqPerform
  extract_lets +onlyGivenNames _
  split
  · exact h.chNext
  · exact h.countRej.pinEffect.chNext
  · exact h.countRej.pinEffect.chNext
  · exact h.countRej.setCh.chNext
  · exact h.setCh.ite h.setCh.chNext
  · exact h.setCh.ite h.setCh.chNext
  · exact h.psqSet.chNext
  · exact h.psqSet.chNext
  · exact h.psqSet.chNext
  · exact (((h.psqSet.ite h)).setCh).ite h.chNext
  · exact h.chNext.chWait
  · exact h.chNext.takeEvent
  · exact h.chNext.chStop
  · exact h

theorem State.storesWf.psqIssue (h : s.storesWf) {c : Fin 64} {op : PsqOp} : (s.psqIssue c op).storesWf := by
  unfold State.psqIssue
  split
  exacts [h.chFault, h.psqPerform]

theorem State.storesWf.doPsqOne (h : s.storesWf) {c : Fin 64} {op : PsqOp} : (doPsqOne c op s).storesWf :=
  h.psqIssue.ite h

theorem State.storesWf.doPsqHoldRelease (h : s.storesWf) {c : Fin 64} : (doPsqHoldRelease c s).storesWf :=
  h.chRelease.psqIssue.ite h

theorem State.storesWf.doPsqEventLatch (h : s.storesWf) {c : Fin 64} : (doPsqEventLatch c s).storesWf := by
  unfold Machine.doPsqEventLatch
  split
  · exact h
  · extract_lets +onlyGivenNames _ _ _
    split
    · exact h.withPsq.count
    · extract_lets +onlyGivenNames s2
      have hs2 : s2.storesWf := h.withPsq.setCh
      exact hs2.takeEvent.ite hs2

theorem State.storesWf.doShiftDone (h : s.storesWf) {c : Fin 64} {samples : List Bool} :
    (doShiftDone c samples s).storesWf :=
  h.shiftRun.ite h

theorem State.storesWf.shiftResume (h : s.storesWf) {c : Fin 64} : (s.shiftResume c).storesWf := by
  unfold State.shiftResume
  extract_lets +onlyGivenNames _ _
  split
  exacts [h.setCh, h]

theorem State.storesWf.doPsqQueueResume (h : s.storesWf) {c : Fin 64} : (doPsqQueueResume c s).storesWf := by
  unfold Machine.doPsqQueueResume
  extract_lets +onlyGivenNames _ _
  split
  · exact h
  · split
    exacts [h.setCh.chNext.ite h, h.shiftResume.ite h, h]

theorem State.storesWf.doPsqTxqWrite (h : s.storesWf) {m : Master} {c : Fin 64} {v : Word} :
    (doPsqTxqWrite m c v s).storesWf :=
  h.guarded fun _ ht => ht.txqPush

theorem State.storesWf.doPsqRxqRead (h : s.storesWf) {m : Master} {c : Fin 64} : (doPsqRxqRead m c s).storesWf :=
  h.guardedRead fun _ ht => ht.rxqPop.emit

theorem State.storesWf.doPsqStart (h : s.storesWf) {m : Master} {c : Fin 64} : (doPsqStart m c s).storesWf :=
  h.guarded fun _ ht => ht.chStart

theorem State.storesWf.doPsqStop (h : s.storesWf) {m : Master} {c : Fin 64} : (doPsqStop m c s).storesWf :=
  h.guarded fun _ ht => ht.chStop

theorem State.storesWf.swapStart (h : s.storesWf) {e : Nat} : (s.swapStart e).storesWf :=
  h.ite (((h.withPsq.foldl fun _ ht _ => ht.setCh)).swapEnd)

theorem State.storesWf.psqSwaps (h : s.storesWf) {v : Word} : (s.psqSwaps v).storesWf := by
  unfold State.psqSwaps
  extract_lets +onlyGivenNames s1
  have hs1 : s1.storesWf := h.swapStart.ite h
  exact hs1.swapStart.ite hs1

theorem State.storesWf.doPsqSwap (h : s.storesWf) {m : Master} {engines : BitVec 2} :
    (doPsqSwap m engines s).storesWf :=
  h.guarded fun _ ht => ht.sharedCmd fun _ _ ht => ht.psqSwaps

theorem State.storesWf.doPsqChannelBankMove (h : s.storesWf) {c : Fin 64} : (doPsqChannelBankMove c s).storesWf :=
  h.setCh.chMoved.ite h

theorem State.storesWf.psqTurn (h : s.storesWf) {c : Fin 64} : (s.psqTurn c).storesWf := by
  unfold State.psqTurn
  extract_lets +onlyGivenNames s1
  have hs1 : s1.storesWf := h.doPsqChannelBankMove
  split
  · exact hs1.doPsqHoldRelease
  · split
    exacts [hs1.doPsqOne, hs1.doPsqQueueResume, hs1.doPsqQueueResume, hs1]

theorem State.storesWf.psqTick (h : s.storesWf) : s.psqTick.storesWf := by
  unfold State.psqTick
  extract_lets +onlyGivenNames _ s1 _
  have hs1 : s1.storesWf :=
    ((h.foldl fun _ ht _ => ht.doPsqEventLatch.ite ht)).foldl fun _ ht _ => ht.ite (ht.shiftTo.ite ht.stalledSamples)
  exact hs1.psqTurn.psqTurn

theorem State.storesWf.psqChanWrite (h : s.storesWf) {c : Fin 64} {o : Nat} {v : Word} :
    (s.psqChanWrite c o v).storesWf := by
  unfold State.psqChanWrite
  extract_lets +onlyGivenNames _ _ _
  split
  · exact h.rejReg.ite (h.setReg.ite h.setReg.setCh)
  · exact h.setReg.ite h.rejReg
  · exact h.chStop.ite (h.chStart.ite h)
  · exact h.setReg.ite h.rejReg
  · exact h.setReg.ite h.rejReg
  · exact h.setReg.ite h.rejReg
  · exact h.setReg.ite h.rejReg
  · exact h.setReg.ite h.rejReg
  · exact h.txqPush
  · exact h.clearCnt.ite h

theorem State.storesWf.psqChanRead (h : s.storesWf) {c : Fin 64} {o : Nat} : (s.psqChanRead c o).2.storesWf := by
  unfold State.psqChanRead
  extract_lets +onlyGivenNames _
  split
  exacts [h, h, h, h, h, h, h, h.rxqPop, h, h]

theorem State.storesWf.mfpWrite (h : s.storesWf) {a : Nat} {v : Word} : (s.mfpWrite a v).storesWf :=
  h.rejReg.ite h.setReg

/-! Ttc. -/

theorem State.storesWf.ttuEvent (h : s.storesWf) {n : Fin 24} : (s.ttuEvent n).storesWf := by
  unfold State.ttuEvent
  extract_lets +onlyGivenNames _
  split
  exacts [h, h.inputSwap.ite h.inputSwap.count, h.withPsq.ite h.count, h.gateListStart.ite h.count]

theorem State.storesWf.pinEdge {s0 : State} (h : s.storesWf) {m : Nat} : (s0.pinEdge s m).storesWf := h.emit.ite h

theorem State.storesWf.ttuFired (h : s.storesWf) {n : Fin 24} : (s.ttuFired n).storesWf :=
  h.setTtu.setTtuTime.ite h.setTtu

theorem State.storesWf.doTriggerFire (h : s.storesWf) {n : Fin 24} : (doTriggerFire n s).storesWf :=
  h.ttuFired.ttuEvent.pinEdge.ite h

theorem State.storesWf.doTriggerPulseEnd (h : s.storesWf) {n : Fin 24} : (doTriggerPulseEnd n s).storesWf :=
  h.setTtu.pinEdge.ite h

theorem State.storesWf.tcuCapture (h : s.storesWf) {n : Fin 16} {falling : Bool} {ago : Nat} :
    (s.tcuCapture n falling ago).storesWf :=
  h.count.ite h.withTcu

theorem State.storesWf.driveBall (h : s.storesWf) {pin : Fin 96} {v : Bool} : (s.driveBall pin v).storesWf := h.ite h

theorem State.storesWf.doCaptureEdge (h : s.storesWf) {pin : Fin 96} {falling : Bool} {ago : BitVec 16} :
    (doCaptureEdge pin falling ago s).storesWf :=
  h.driveBall.foldl fun _ ht _ => ht.tcuCapture.ite ht

theorem State.storesWf.doCaptureRead (h : s.storesWf) {m : Master} {n : Fin 16} : (doCaptureRead m n s).storesWf :=
  h.guardedRead fun _ ht => ht.captureRead.emit

/-! Xpb. -/

theorem State.storesWf.setXpb (h : s.storesWf) {x : XpbState} : (s.setXpb x).storesWf := h.withXpb

theorem State.storesWf.pelLog (h : s.storesWf) {status : Byte} {src id : Nat} {addr : Word} :
    (s.pelLog status src id addr).2.storesWf :=
  .iteSnd h.count h.setTabs.setReg.setXpb

theorem State.storesWf.xpbReply (h : s.storesWf) {q : XpbReq} {status : Byte} {data : List Word} :
    (s.xpbReply q status data).storesWf :=
  h.toSwitch

theorem State.storesWf.postedError (h : s.storesWf) {q : XpbReq} {status : Byte} :
    (s.postedError q status).storesWf := by
  unfold State.postedError
  extract_lets +onlyGivenNames _ _ _ _ r
  have hr : r.2.storesWf := ((h.draw.ite h)).pelLog
  split
  exacts [(hr.hostEvent.ite hr.count).ite hr, hr.xpbReply, hr.xpbReply, hr]

theorem State.storesWf.xpbRefuse (h : s.storesWf) {q : XpbReq} {status logStatus : Byte} :
    (s.xpbRefuse q status logStatus).storesWf :=
  h.postedError.ite h.xpbReply

theorem State.storesWf.xpbQueue (h : s.storesWf) {q : XpbReq} : (s.xpbQueue q).storesWf :=
  h.xpbRefuse.ite (h.xpbRefuse.ite (h.count.xpbRefuse.ite h.setXpb))

theorem State.storesWf.doBridge (h : s.storesWf) {op : XpbOp} : (doBridge op s).storesWf := by
  unfold Machine.doBridge
  split
  · exact h
  · split
    · exact h
    · extract_lets +onlyGivenNames _
      split
      · exact h
      · extract_lets +onlyGivenNames _
        split
        · exact h.leaveQueue.count
        · split
          exacts [h.leaveQueue.count, h.leaveQueue.xpbQueue.ite h]

theorem State.storesWf.doXpbTransactionStart (h : s.storesWf) : (doXpbTransactionStart s).storesWf := by
  unfold Machine.doXpbTransactionStart
  split
  · exact h
  · split
    exacts [h, h.setXpb.emit]

theorem State.storesWf.routeStatus (h : s.storesWf) {k : Nat} {status : Byte} : (s.routeStatus k status).storesWf :=
  h.setTab.ite h.setTab.count

theorem State.storesWf.xpbFinish (h : s.storesWf) {q : XpbReq} {status : Byte} {data : List Word} :
    (s.xpbFinish q status data).storesWf := by
  unfold State.xpbFinish
  split
  · exact h.setTab.setRegBit.ite h
  · exact h.setRoute.ite h.setRoute
  · exact h.routeStatus.ite h.postedError.routeStatus
  · exact (h.ite h.postedError).ite h.xpbReply

theorem State.storesWf.xpbPop (h : s.storesWf) : s.xpbPop.storesWf := h.setXpb

theorem State.storesWf.doXpbTransactionEnd (h : s.storesWf) {status : Byte} {data : List Word} {err : Bool} :
    (doXpbTransactionEnd status data err s).storesWf := by
  unfold Machine.doXpbTransactionEnd
  split
  exacts [h, h.ite (h.xpbPop.count.xpbFinish.ite (((h.xpbPop.count.ite h.xpbPop.count.count)).xpbFinish))]

theorem State.storesWf.doXpbWaitTimeout (h : s.storesWf) : (doXpbWaitTimeout s).storesWf := by
  unfold Machine.doXpbWaitTimeout
  split
  exacts [h, h.xpbPop.count.xpbFinish.ite h]

theorem State.storesWf.doXpbPeerRequest (h : s.storesWf) {ctrlEnd : Bool} : (doXpbPeerRequest ctrlEnd s).storesWf :=
  h.ite (h.setXpb.ite (h.setXpb.count.ite h))

theorem State.storesWf.doXpReqLow (h : s.storesWf) : (doXpReqLow s).storesWf := h.setXpb.ite h

theorem State.storesWf.xpbFence (h : s.storesWf) : s.xpbFence.storesWf :=
  (h.setXpb.foldl fun _ ht _ => ht.xpbFinish).resetEndpoint

theorem State.storesWf.xpbRoleChange (h : s.storesWf) {old new : Word} : (s.xpbRoleChange old new).storesWf :=
  h.resetEndpoint.ite h

theorem State.storesWf.xpbPush (h : s.storesWf) {qs : List XpbReq} : (s.xpbPush qs).storesWf :=
  h.setXpb.ite h.setXpb

theorem State.storesWf.doXpbPoll (h : s.storesWf) {i : Fin 16} : (doXpbPoll i s).storesWf :=
  h.ite ((h.ite h.xpbPush).ite h.setRegBit)

theorem State.storesWf.routeTake (h : s.storesWf) {k : Nat} {v : List Word} : (s.routeTake k v).storesWf := by
  unfold State.routeTake
  extract_lets +onlyGivenNames _ s1
  have hs1 : s1.storesWf := h.setTab.setRoute
  exact hs1.setTab.count.ite hs1

theorem State.storesWf.doRouteFarPoll (h : s.storesWf) {k : Fin 1024} : (doRouteFarPoll k s).storesWf :=
  h.ite h.setRoute.xpbPush

theorem State.storesWf.doRouteSourceUpdate (h : s.storesWf) {k : Fin 1024} : (doRouteSourceUpdate k s).storesWf := by
  unfold Machine.doRouteSourceUpdate
  extract_lets +onlyGivenNames _ _ _
  split
  · exact h
  · split
    · exact h.routeTake.ite h
    · exact h.routeTake.ite h
    · exact h.routeTake.ite h
    · split
      · split
        · split
          exacts [h.routeTake, h]
        · exact h
      · exact h
    · exact h.setCh.routeTake.ite h.setCh.setRoute

theorem State.storesWf.routeWrite (h : s.storesWf) {b : Blk} {space word : Nat} {v : List Word} :
    (s.routeWrite b space word v).storesWf :=
  h.setTabs

theorem State.storesWf.routeDest (h : s.storesWf) {k : Fin 1024} {v : List Word} {t : State}
    (ht : s.routeDest k v = .made t) : t.storesWf := by
  unfold State.routeDest at ht
  extract_lets a q _ n b s1 c at ht
  split at ht
  · obtain ⟨⟩ := ht
    exact h.routeWrite
  · split at ht
    · cases ht
    · split at ht
      · cases ht
      · split at ht
        · obtain ⟨⟩ := ht
          exact h.xpbFinish
        · obtain ⟨⟩ := ht
          exact h.setXpb
  · split at ht
    · cases ht
    · split at ht
      · cases ht
      · obtain ⟨⟩ := ht
        exact h.routeWrite.setTab
  · split at ht
    · cases ht
    · split at ht
      · cases ht
      · split at ht
        · cases ht
        · obtain ⟨⟩ := ht
          exact h.stagingWrite
  · split at ht
    · cases ht
    · split at ht
      · cases ht
      · obtain ⟨⟩ := ht
        exact h.setCh

theorem State.storesWf.doRouteDelivery (h : s.storesWf) {k : Fin 1024} : (doRouteDelivery k s).storesWf := by
  unfold Machine.doRouteDelivery
  extract_lets x
  split
  · exact h
  · split
    · exact h
    · exact h.routeStatus
    next t ht =>
      have := (h.routeDest ht).setRoute (k := k.val) (x := { t.route k.val with fresh := false })
      exact this.ite this.routeStatus

/-! Start. -/

theorem State.storesWf.twinFail (h : s.storesWf) : s.twinFail.storesWf :=
  ((h.emit.ite h)).ite (((h.emit.ite h)).withFlt)

theorem State.storesWf.calibrate (h : s.storesWf) {i : Nat} : (s.calibrate i).storesWf := h.draw.setTab

theorem State.storesWf.calibrateMask (h : s.storesWf) {m : BitVec 19} : (s.calibrateMask m).storesWf :=
  h.foldl fun _ ht _ => ht.calibrate.ite ht

theorem State.storesWf.loadFuses (h : s.storesWf) : s.loadFuses.storesWf :=
  h.setReg.setReg.setRegField.setTabs.setTabs

theorem State.storesWf.keepRegs {old : State} (h : s.storesWf) {l : List Nat} : (s.keepRegs old l).storesWf :=
  h.foldl fun _ ht _ => ht.setReg

/-- Right after reset every store is empty. -/
theorem State.reset_storesWf : State.reset.storesWf := by decide +kernel

theorem State.storesWf.fresh (h : s.storesWf) {p : Power} : (s.fresh p).storesWf := by
  unfold State.fresh
  extract_lets _ _ t
  have hr := State.reset_storesWf.canonical
  have ht : t.Canonical := ⟨hr.regs, hr.tabs, hr.ind, hr.latches, hr.banks, hr.dmem, hr.written, hr.streams, hr.elim,
    hr.history, hr.ctx, hr.routes, h.canonical.ram, h.canonical.retention, hr.scratch⟩
  clear_value t
  exact ht.wf.keepRegs

theorem State.storesWf.clocksUp (h : s.storesWf) {isl : Word} : (s.clocksUp isl).storesWf := by
  unfold State.clocksUp
  extract_lets +onlyGivenNames s1
  have hs1 : s1.storesWf := h.setReg.setReg.setRegBit.setHold
  exact hs1.withClk

theorem State.storesWf.coldBase (h : s.storesWf) {straps : Option (Bool × Bool × BitVec 6)} {isl cal : Word} :
    (s.coldBase straps isl cal).storesWf := by
  unfold State.coldBase
  extract_lets +onlyGivenNames _ s2 s3 _ __src
  have hs2 : s2.storesWf := h.twinFail.fresh.setTabs.loadFuses.clocksUp
  have hs3 : s3.storesWf := by
    unfold s3
    split
    exacts [hs2.setReg.setReg.setReg, hs2.setReg.setReg.setReg]
  have h__src : __src.storesWf := hs3.setReg.calibrateMask
  exact h__src.withFlt

theorem State.storesWf.coldStart (h : s.storesWf) {straps : Option (Bool × Bool × BitVec 6)} :
    (s.coldStart straps).storesWf := by
  unfold State.coldStart
  extract_lets +onlyGivenNames s1
  have hs1 : s1.storesWf := h.coldBase.count
  exact hs1.withFlt.emit

theorem State.storesWf.enterRecovery (h : s.storesWf) : s.enterRecovery.storesWf := by
  unfold State.enterRecovery
  extract_lets +onlyGivenNames _ s2
  have hs2 : s2.storesWf := h.coldBase.setReg.setRegField
  exact hs2.withFlt

theorem State.storesWf.restartSup (h : s.storesWf) : s.restartSup.storesWf := by
  unfold State.restartSup
  extract_lets +onlyGivenNames s1 _ _ _
  have hs1 : s1.storesWf := h.resetEndpoint
  exact hs1.modSec.fltLeave.ite hs1.modSec

theorem State.storesWf.releaseEngine (h : s.storesWf) {e : Fin 10} {st : EngSt} : (s.releaseEngine e st).storesWf :=
  h.setEng.setRegBit.setHold

theorem State.storesWf.unbindRole (h : s.storesWf) {r : Fin 10} : (s.unbindRole r).storesWf := by
  unfold State.unbindRole
  split
  · exact h
  · extract_lets +onlyGivenNames s1 s2
    have hs1 : s1.storesWf := h.setInst.resetRole
    have hs2 : s2.storesWf := by
      unfold s2
      split
      exacts [hs1.withRotation.ite hs1, hs1]
    split
    exacts [hs2, hs2.releaseEngine]

theorem State.storesWf.freeStore (h : s.storesWf) {g : Image} : (s.freeStore g).storesWf := by
  unfold State.freeStore
  extract_lets +onlyGivenNames _
  split
  exacts [h.writeNone.writeNone, h.writeNone]

theorem State.storesWf.dropImage (h : s.storesWf) {g : Image} : (s.dropImage g).storesWf := by
  unfold State.dropImage
  extract_lets +onlyGivenNames s1
  have hs1 : s1.storesWf := h.freeStore.modSec
  exact hs1.withImages

theorem State.storesWf.dropAll (h : s.storesWf) : s.dropAll.storesWf := by
  unfold State.dropAll
  extract_lets s1
  have hs1 : s1.storesWf := h.foldl fun _ ht _ => ht.unbindRole
  clear_value s1
  have hs2 : (s1.images.foldl (fun t g => t.dropImage g) s1).storesWf := hs1.foldl fun _ ht _ => ht.dropImage
  exact hs2.modSec

theorem State.storesWf.resumeInst (h : s.storesWf) {r : Fin 10} : (s.resumeInst r).storesWf := by
  unfold State.resumeInst
  split
  · exact h
  · split
    · exact h
    · split
      · exact h
      · extract_lets +onlyGivenNames _ x s1 s2
        have hx : x.dmem = [] := rfl
        clear_value x
        have hs1 : s1.storesWf := (State.storesWf.setEngOf h (hx ▸ amWf_nil _)).modInst
        clear_value s1
        have hs2 : s2.storesWf := hs1.loadRole.restoreCkpt
        clear_value s2
        split
        exacts [hs2.loadWhole.swapImem, hs2]

theorem State.storesWf.parkEngine (h : s.storesWf) {e : Fin 10} : (s.parkEngine e).storesWf := by
  unfold State.parkEngine
  split
  exacts [h, h, h.setEng.ite h.releaseEngine.islandDown]

theorem State.storesWf.discardFrames (h : s.storesWf) : s.discardFrames.storesWf := by
  unfold State.discardFrames
  extract_lets s1
  have hs1 : s1.storesWf := h.foldl fun _ ht _ => ht.endTx.setEth
  clear_value s1
  exact hs1.setSwc

theorem State.storesWf.contextsOff (h : s.storesWf) : s.contextsOff.storesWf := by
  unfold State.contextsOff
  extract_lets s1
  have hs1 : s1.storesWf := h.foldl fun _ ht _ => ht.ite ht.setCtxState
  clear_value s1
  exact State.Canonical.wf { hs1.canonical with ctx := amWf_nil _ }

theorem State.storesWf.rejoin (h : s.storesWf) : s.rejoin.storesWf :=
  have ring {t : State} (ht : t.storesWf) {r : Fin 2} :
      (if t.ring[r].nst = .disabled then t else t.ringStart r).storesWf :=
    ht.ite ht.ringStart
  (ring (ring h)).foldl fun _ ht _ => ht.canJoin.setCan

theorem State.storesWf.stopChannels (h : s.storesWf) : s.stopChannels.storesWf := by
  unfold State.stopChannels
  extract_lets +onlyGivenNames s1
  have hs1 : s1.storesWf := h.foldl fun _ ht _ => ht.chStop
  exact hs1.withPsq

theorem State.storesWf.realignDegraded (h : s.storesWf) : s.realignDegraded.storesWf := by
  unfold State.realignDegraded
  extract_lets +onlyGivenNames _ _
  split
  · exact h
  · extract_lets +onlyGivenNames _ _ _ s2
    have hs2 : s2.storesWf := h.refEdge.withClk.realignIslands.calibrateMask
    exact hs2.reloadAll.ite hs2

theorem State.storesWf.warmStart (h : s.storesWf) : s.warmStart.storesWf := by
  unfold State.warmStart
  extract_lets +onlyGivenNames s1 s2 _ _ s3 tamper s4 s5 s6 s7
  have hs1 : s1.storesWf := h.twinFail.endDebug
  clear_value s1
  have hs2 : s2.storesWf := hs1.discardFrames.contextsOff.rejoin.stopChannels.doSkimmerWindowEnd.realignDegraded
  clear_value s2
  have hs3 : s3.storesWf := State.Canonical.wf { hs2.canonical with routes := amWf_nil _ }
  clear_value s3
  have hs4 : s4.storesWf := (hs3.dropAll.ite hs3).restartSup
  clear_value s4
  have hs5 : s5.storesWf := hs4.foldl fun _ ht _ => ht.resumeInst
  clear_value s5
  have hs6 : s6.storesWf := hs5.foldl fun _ ht _ => ht.parkEngine
  clear_value s6
  have hs7 : s7.storesWf := hs6.modSec
  clear_value s7
  exact hs7.setReg.count.emit

theorem State.storesWf.enterP2 (h : s.storesWf) : s.enterP2.storesWf := by
  unfold State.enterP2
  extract_lets +onlyGivenNames s1 t _ _ s2
  have hs1 : s1.storesWf := h.twinFail.endDebug
  have ht : t.storesWf := hs1.fresh
  have hf := amFilter_wf tabReset s1.tabs (fun e => p2Tab e.1) hs1.canonical.tabs
  have hr := hs1.canonical.retention
  clear_value t s1
  have hs2 : s2.storesWf :=
    (((ht.withTabs hf).withSecOf (x := retained s1.sec) (amWf_nil _) hr).withClk.withDom.withFlt).keepRegs.setReg
  clear_value s2
  exact hs2.setRegField.setReg

theorem State.storesWf.enterP3 (h : s.storesWf) : s.enterP3.storesWf := h.twinFail.endDebug.zeroSession.fresh

theorem State.storesWf.warmFromP2 (h : s.storesWf) {cause : Word} : (s.warmFromP2 cause).storesWf :=
  h.clocksUp.withPower.calibrateMask.refEdge.reloadAll.setReg.setReg.count.withFlt.rotAgain.modSec.emit

theorem State.storesWf.holdReset (h : s.storesWf) : s.holdReset.storesWf := ((h.setReg.ite h)).fresh

theorem State.storesWf.doP2Exit (h : s.storesWf) {why : WakeCause} : (doP2Exit why s).storesWf := by
  unfold Machine.doP2Exit
  split
  · exact h
  · split
    exacts [h.warmFromP2.ite h, h.warmFromP2.ite h, h.warmFromP2, h.holdReset]

theorem State.storesWf.doPorNRise (h : s.storesWf) {refSel pcieBif : Bool} {iobank : BitVec 6} :
    (doPorNRise refSel pcieBif iobank s).storesWf :=
  h.coldStart.ite h

theorem State.storesWf.warmIfRunning (h : s.storesWf) : s.warmIfRunning.storesWf := h.warmStart.ite h

theorem State.storesWf.doWarmNAssert (h : s.storesWf) : (doWarmNAssert s).storesWf := h.doP2Exit.ite h.warmIfRunning

theorem State.storesWf.startDone (h : s.storesWf) : s.startDone.storesWf := by
  unfold State.startDone
  split
  · exact h
  · exact ((h.setReg.ite h.setRegField).foldl fun _ ht _ => ht.setEng.islandUp.ite ht).withFlt.modSec

theorem State.storesWf.logStartFail (h : s.storesWf) {why : StartFailCause} {kind : Nat} :
    (s.logStartFail why kind).storesWf :=
  h.fltLog

theorem State.storesWf.doStartFail (h : s.storesWf) {why : StartFailCause} : (doStartFail why s).storesWf := by
  unfold Machine.doStartFail
  split
  · exact h
  · exact (h.setRegField.enterRecovery.ite h.setRegField.coldStart).logStartFail
  · exact (h.setRegField.coldStart.ite h.setRegField.warmStart).logStartFail

/-! Sup. -/

theorem State.storesWf.supFail (h : s.storesWf) {status : Byte} : (supFail s status).st.storesWf := h

theorem State.storesWf.supOk (h : s.storesWf) : (supOk s).st.storesWf := h

theorem State.storesWf.postReply (h : s.storesWf) {box : Fin 3} {ws : List Word} : (s.postReply box ws).storesWf :=
  h.foldl fun _ ht _ => ht.mbxWrite

theorem State.storesWf.reply (h : s.storesWf) {box : Fin 3} {ws : List Word} : (s.reply box ws).storesWf :=
  h.modSec.ite h.postReply

theorem State.storesWf.flushReplies (h : s.storesWf) : s.flushReplies.storesWf := by
  unfold State.flushReplies
  split
  exacts [h, h.ite h.modSec.postReply]

theorem State.storesWf.takeRequest (h : s.storesWf) {box : Fin 3} : (s.takeRequest box).storesWf := by
  unfold State.takeRequest
  extract_lets +onlyGivenNames _ s2
  have hs2 : s2.storesWf := h.mbxRead.modSec
  exact hs2.fltLeave.ite hs2

theorem State.storesWf.afterReply (h : s.storesWf) {x : SupAfter} : (s.afterReply x).storesWf := by
  cases x
  exacts [h, h.coldStart, h.enterP2, h.enterP3]

theorem State.storesWf.serve (h : s.storesWf) {box : Fin 3} {due : State → Bool} {f : State → SupRes}
    (hf : ∀ t : State, t.storesWf → (f t).st.storesWf) : (s.serve box due f).storesWf := by
  unfold State.serve
  split
  · exact h
  · extract_lets w0 t r u
    have ht : t.storesWf := h.takeRequest
    have hr : r.st.storesWf := .iteSt ht (hf t ht)
    exact hr.reply.afterReply

theorem State.storesWf.serveOp (h : s.storesWf) {box : Fin 3} {op : Nat} {f : State → SupRes}
    (hf : ∀ t : State, t.storesWf → (f t).st.storesWf) : (s.serveOp box op f).storesWf :=
  h.serve hf

theorem State.storesWf.supBankRead (h : s.storesWf) {b n : Nat} : (s.supBankRead b n).2.storesWf :=
  .iteSnd h (.iteSnd h h.nonOwner)

theorem State.storesWf.supRead (h : s.storesWf) {box : Fin 3} {bank : Bool} {lo : Word}
    {data : Option (List Byte)} {n : Nat} : (s.supRead box bank lo data n).2.storesWf := by
  unfold State.supRead
  split
  · exact h.supBankRead
  · split
    · exact h
    · split
      exacts [.iteSnd h h, h]

theorem State.storesWf.storeBody (h : s.storesWf) {b : Fin 96} {bs : List Byte} : (s.storeBody b bs).storesWf :=
  h.assignBank.ownerWrite

theorem State.storesWf.keepPackage (h : s.storesWf) {bs : List Byte} {b : Fin 96} {more : Option (Fin 96)} :
    (s.keepPackage bs b more).st.storesWf := by
  unfold State.keepPackage
  extract_lets +onlyGivenNames _ _ _ _ s2 _ _ _
  have hs2 : s2.storesWf := by
    unfold s2
    split
    exacts [h.storeBody.storeBody, h.storeBody]
  exact hs2.modSec.withImages

theorem State.storesWf.authFail (h : s.storesWf) : (authFail s).st.storesWf := h.count.supFail

theorem State.storesWf.loadPackage (h : s.storesWf) {bs : List Byte} {len : Nat} :
    (s.loadPackage bs len).st.storesWf := by
  unfold State.loadPackage
  extract_lets +onlyGivenNames _
  split
  · exact h.supFail
  · split
    · exact h.authFail
    · split
      · exact h.supFail
      · split
        · exact h.supFail
        · split
          · exact h.authFail
          · split
            · exact h.authFail
            · extract_lets +onlyGivenNames _
              split
              exacts [h.keepPackage, .iteSt h.supFail h.keepPackage, h.supFail]

theorem State.storesWf.doImgLoad (h : s.storesWf) {box : Fin 3} {data : Option (List Byte)} :
    (doImgLoad box data s).storesWf := by
  unfold Machine.doImgLoad
  extract_lets len bank lo rom
  refine h.serveOp fun t ht => .iteSt ht ?_
  have hr : (t.supRead box bank lo data len).2.storesWf := ht.supRead
  split
  next heq =>
    rw [heq] at hr
    exact hr.loadPackage
  next heq =>
    rw [heq] at hr
    exact hr

theorem State.storesWf.doImgDrop (h : s.storesWf) {box : Fin 3} : (doImgDrop box s).storesWf :=
  h.serveOp fun _ ht => by
    split
    exacts [ht.supFail, .iteSt ht.supFail ht.dropImage.supOk]

theorem State.storesWf.armKernel (h : s.storesWf) {n : Fin 24} {r : Fin 10} {period tKst : Nat} :
    (s.armKernel n r period tKst).storesWf :=
  h.disarmUnit.setReg.setReg.setTtuTime.armUnit

theorem State.storesWf.bindInst (h : s.storesWf) {g : Image} {e r : Fin 10} {n : Fin 24} {q : AdmitReq} :
    (s.bindInst g e r n q).storesWf := by
  unfold State.bindInst
  extract_lets +onlyGivenNames i s1 _ x s2 s3 s4 s5
  have hs1 : s1.storesWf := h.withBindSeq.dropRotation.setInst
  have hx : x.dmem = [] := rfl
  clear_value x s1
  have hs2 : s2.storesWf := (State.storesWf.setEngOf hs1 (hx ▸ amWf_nil _)).loadRole
  clear_value s2
  have hs4 : s4.storesWf := hs2.setReg.setReg.setRegBit.setHold
  have hs5 : s5.storesWf := hs4.ite hs4.wake
  clear_value s5
  exact hs5.armKernel

theorem State.storesWf.supAdmit (h : s.storesWf) {q : AdmitReq} : (s.supAdmit q).st.storesWf := by
  unfold State.supAdmit
  split
  · exact h.supFail
  · extract_lets +onlyGivenNames _
    split
    · exact h.supFail
    · extract_lets +onlyGivenNames _
      split
      exacts [h.bindInst, h]

theorem State.storesWf.doAdmit (h : s.storesWf) {box : Fin 3} : (doAdmit box s).storesWf :=
  h.serveOp fun _ ht => ht.supAdmit

theorem State.storesWf.doUnbind (h : s.storesWf) {box : Fin 3} : (doUnbind box s).storesWf :=
  h.serveOp fun _ ht => .iteSt ht.unbindRole.supOk ht.supFail

theorem State.storesWf.imgUpdate (h : s.storesWf) {role : Nat} {k : Byte} : (s.imgUpdate role k).st.storesWf := by
  unfold State.imgUpdate
  extract_lets +onlyGivenNames _
  split
  · split
    · split
      · exact h.supFail
      · split
        · exact h.supFail
        · split
          · exact h.supFail
          · extract_lets +onlyGivenNames _ _ s2 _ _
            have hs2 : s2.storesWf := h.loadWhole.setReg.setReg
            exact hs2.setEng.modInst.swapImem.supOk
    · exact h.supFail
  · exact h.supFail

theorem State.storesWf.doImgUpdate (h : s.storesWf) {box : Fin 3} : (doImgUpdate box s).storesWf :=
  h.serveOp fun _ ht => ht.imgUpdate

theorem State.storesWf.loadSeq (h : s.storesWf) {e : Nat} {bank : Bool} {g : Image} : (s.loadSeq e bank g).storesWf :=
  h.setTabs

theorem State.storesWf.seqLoad (h : s.storesWf) {k : Byte} {e : Fin 2} {swap : Bool} :
    (s.seqLoad k e swap).st.storesWf := by
  unfold State.seqLoad
  split
  · exact h.supFail
  · split
    · exact h.supFail
    · split
      · exact h.supFail
      · split
        · exact h.supFail
        · split
          · exact h.supFail
          · extract_lets +onlyGivenNames s1
            have hs1 : s1.storesWf := h.loadSeq.modSec
            exact (hs1.swapStart.ite hs1).supOk

theorem State.storesWf.doSeqLoad (h : s.storesWf) {box : Fin 3} : (doSeqLoad box s).storesWf :=
  h.serveOp fun _ ht => ht.seqLoad

theorem State.storesWf.doSupUpdate (h : s.storesWf) {box : Fin 3} : (doSupUpdate box s).storesWf :=
  h.serveOp fun _ ht => by
    split
    exacts [.iteSt ht.supFail ht.modSec, ht.supFail]

theorem State.storesWf.doGetIdentity (h : s.storesWf) {box : Fin 3} : (doGetIdentity box s).storesWf :=
  h.serveOp fun _ ht => ht

theorem State.storesWf.newNonce (h : s.storesWf) {path : Fin 4} : (s.newNonce path).2.storesWf := h.drawN.modSec

theorem State.storesWf.doChallenge (h : s.storesWf) {box : Fin 3} : (doChallenge box s).storesWf :=
  h.serveOp fun _ ht => ht.newNonce

theorem State.storesWf.supWrite (h : s.storesWf) {box : Fin 3} {lo hi : Word} {bs : List Byte} :
    ∀ t ∈ s.supWrite box lo hi bs, t.storesWf := by
  unfold State.supWrite
  split
  · extract_lets b
    split
    · rintro t ⟨⟩
    · split
      · rintro t ⟨⟩
        exact h.ownerWrite
      · rintro t ⟨⟩
  · rintro t ⟨⟩
    exact h.emit

theorem State.storesWf.doAttest (h : s.storesWf) {box : Fin 3} : (doAttest box s).storesWf := by
  unfold Machine.doAttest
  extract_lets nonce lo hi
  refine h.serveOp fun t ht => ?_
  split
  · exact ht
  · extract_lets bs sg all
    clear_value all
    split
    next u hu => exact ht.supWrite u hu
    · exact ht.nonOwner.ite ht

theorem State.storesWf.doPwrStandby (h : s.storesWf) {box : Fin 3} : (doPwrStandby box s).storesWf :=
  h.serveOp fun _ ht => .iteSt ht ht.supFail

theorem State.storesWf.doPwrOff (h : s.storesWf) {box : Fin 3} : (doPwrOff box s).storesWf :=
  h.serveOp fun _ ht => ht

theorem State.storesWf.doRingKeysel (h : s.storesWf) {box : Fin 3} : (doRingKeysel box s).storesWf :=
  h.serveOp fun _ ht => ht.setRegBit.supOk

theorem State.storesWf.doUnknownCommand (h : s.storesWf) {box : Fin 3} : (doUnknownCommand box s).storesWf :=
  h.serve fun _ ht => ht.supFail

/-! Sec. -/

theorem State.storesWf.fuseLifecycle (h : s.storesWf) {lc : BitVec 2} : (s.fuseLifecycle lc).storesWf :=
  h.endDebug.modSec

theorem State.storesWf.retire (h : s.storesWf) : s.retire.storesWf := h.fuseLifecycle.zeroize

theorem State.storesWf.advanceLc (h : s.storesWf) : s.advanceLc.storesWf := h.drawN.drawN.fuseLifecycle.modSec

theorem State.storesWf.doOwnerKeyLoad (h : s.storesWf) {box : Fin 3} {data : Option (List Byte)} :
    (doOwnerKeyLoad box data s).storesWf := by
  unfold Machine.doOwnerKeyLoad
  extract_lets k lo
  refine h.serveOp fun t ht => ?_
  have hr : (t.supRead box (box = 2) lo data 96).2.storesWf := ht.supRead
  split
  next heq =>
    rw [heq] at hr
    exact .iteSt hr.modSec hr
  next heq =>
    rw [heq] at hr
    exact hr

theorem State.storesWf.takeOwner (h : s.storesWf) {path : Fin 4} {bs : List Byte} :
    (s.takeOwner path bs).st.storesWf := by
  unfold State.takeOwner
  extract_lets +onlyGivenNames key nonce s1
  have hs1 : s1.storesWf := h.modSec
  clear_value nonce s1
  split
  exacts [hs1.supFail, .iteSt hs1.fuseLifecycle.modSec hs1.supFail]

theorem State.storesWf.doTakeOwnership (h : s.storesWf) {box : Fin 3} {data : Option (List Byte)} :
    (doTakeOwnership box data s).storesWf := by
  unfold Machine.doTakeOwnership
  extract_lets lo
  refine h.serveOp fun t ht => .iteSt ht ?_
  have hr : (t.supRead box (box = 2) lo data 192).2.storesWf := ht.supRead
  split
  next heq =>
    rw [heq] at hr
    exact hr.takeOwner
  next heq =>
    rw [heq] at hr
    exact hr

theorem State.storesWf.doDecommissionUnowned (h : s.storesWf) {box : Fin 3} :
    (doDecommissionUnowned box s).storesWf :=
  h.serveOp fun _ ht => .iteSt ht.retire ht.supFail

theorem State.storesWf.tokEnroll (h : s.storesWf) {t : List Byte} : (s.tokEnroll t).st.storesWf :=
  .iteSt h.authFail (.iteSt h.supFail h.modSec.supOk)

theorem State.storesWf.tokRevoke (h : s.storesWf) {t : List Byte} : (s.tokRevoke t).st.storesWf :=
  .iteSt h.authFail (.iteSt h.supFail h.modSec.supOk)

theorem State.storesWf.tokRollback (h : s.storesWf) {t : List Byte} : (s.tokRollback t).st.storesWf :=
  .iteSt h.authFail (.iteSt h.supFail (.iteSt h.supOk h.modSec.supOk))

theorem State.storesWf.tokCak (h : s.storesWf) {t : List Byte} : (s.tokCak t).st.storesWf := by
  unfold State.tokCak
  extract_lets +onlyGivenNames _ _ _ _ _ _ _
  split
  · exact h.supFail
  · split
    exacts [h.authFail, .iteSt h.authFail ((h.modSec.installRing.ite (h.modSec.installRing.ite h.modSec)).supOk)]

theorem State.storesWf.tokRun (h : s.storesWf) {path : Fin 4} {t : List Byte} : (s.tokRun path t).st.storesWf := by
  unfold State.tokRun
  split
  · exact h.tokEnroll
  · exact h.tokRevoke
  · exact h.tokRollback
  · exact h.retire
  · exact h.tokCak
  · exact .iteSt h.supFail (.iteSt h.modSec.supOk h.authFail)
  · exact h.authFail

theorem State.storesWf.token (h : s.storesWf) {path : Fin 4} {t : List Byte} : (s.token path t).st.storesWf :=
  .iteSt h.modSec.tokRun h.modSec.authFail

theorem State.storesWf.doOwnerCmd (h : s.storesWf) {box : Fin 3} {data : Option (List Byte)}
    {due : List Byte → Bool} :
    (doOwnerCmd box data due s).storesWf := by
  unfold Machine.doOwnerCmd
  extract_lets lo ready
  refine h.serve fun t ht => ?_
  have hr : (t.supRead box (box = 2) lo data 336).2.storesWf := ht.supRead
  split
  next heq =>
    rw [heq] at hr
    exact hr.token
  next heq =>
    rw [heq] at hr
    exact hr

theorem State.storesWf.doTokenCmd (h : s.storesWf) {op : Nat} {box : Fin 3} {data : List Byte} :
    (doTokenCmd op box data s).storesWf :=
  h.doOwnerCmd

theorem State.storesWf.doTamperEvent (h : s.storesWf) : (doTamperEvent s).storesWf := h.count.modSec.ite h

theorem State.storesWf.tapLeave (h : s.storesWf) : s.tapLeave.storesWf := h.ite h.coldStart.emit

theorem State.storesWf.dbgSay (h : s.storesWf) {c : Byte} : (s.dbgSay c).storesWf := h.modSec

theorem State.storesWf.tapRun (h : s.storesWf) {f : State → State} (hf : ∀ t : State, t.storesWf → (f t).storesWf) :
    (s.tapRun f).storesWf :=
  (hf _ h.tapLeave).ite h

theorem State.storesWf.doIdcode (h : s.storesWf) : (doIdcode s).storesWf := h.tapLeave.emit.ite h

theorem State.storesWf.doBypass (h : s.storesWf) : (doBypass s).storesWf := h.tapLeave.emit.ite h

theorem State.storesWf.doSamplePreload (h : s.storesWf) {cells : List Bool} : (doSamplePreload cells s).storesWf :=
  h.tapRun fun _ ht => ht.drawN.emit.modSec

theorem State.storesWf.takeBalls (h : s.storesWf) {m : TapMode} {cells : List Bool} :
    (s.takeBalls m cells).storesWf :=
  h.modSec.emit.ite h

theorem State.storesWf.doDbgStatus (h : s.storesWf) : (doDbgStatus s).storesWf := h.tapRun fun _ ht => ht.emit

theorem State.storesWf.doDbgChallenge (h : s.storesWf) : (doDbgChallenge s).storesWf :=
  h.tapRun fun _ ht => ht.newNonce.modSec.emit.dbgSay

theorem State.storesWf.doDbgToken (h : s.storesWf) {data : List Byte} : (doDbgToken data s).storesWf :=
  h.tapRun fun _ ht => ht.token.dbgSay.afterReply

theorem State.storesWf.dbgOpenLevel (h : s.storesWf) {level : Fin 4} : (s.dbgOpenLevel level).storesWf :=
  h.dbgSay.ite (((((h.zeroSession.modSec.ite h)).setRegField).count).dbgSay)

theorem State.storesWf.doDbgOpen (h : s.storesWf) {level : Fin 4} : (doDbgOpen level s).storesWf :=
  h.dbgSay.ite (h.tapRun fun _ ht => ht.dbgOpenLevel)

theorem State.storesWf.doDbgClose (h : s.storesWf) : (doDbgClose s).storesWf :=
  h.tapRun fun _ ht => ht.endDebug.dbgSay

theorem State.storesWf.lcAtTap (h : s.storesWf) {f : State → State} (hf : ∀ t : State, t.storesWf → (f t).storesWf) :
    (s.lcAtTap f).storesWf :=
  h.tapRun fun t ht => (hf t ht).coldStart.ite ht.dbgSay

theorem State.storesWf.doJtagTrst (h : s.storesWf) : (doJtagTrst s).storesWf := (h.tapLeave.endDebug.ite h).modSec

/-! Flt. -/

theorem State.storesWf.canFence (h : s.storesWf) {n : Fin 4} : (s.canFence n).storesWf :=
  h.setCan.foldl fun _ ht _ => ht.txFail

theorem State.storesWf.psqFence (h : s.storesWf) {e : Fin 2} : (s.psqFence e).storesWf := by
  unfold State.psqFence
  refine h.foldl fun _ ht _ => ?_
  extract_lets +onlyGivenNames _ _ _ u
  have hu : u.storesWf := ht.ite ht.chStop
  exact hu.withPsq

theorem State.storesWf.hifFence (h : s.storesWf) {link : Bool} : (s.hifFence link).storesWf :=
  h.setRegField.hostLinkGone.ite h

theorem State.storesWf.fenceEffect (h : s.storesWf) {d : Fin 37} : (s.fenceEffect d).storesWf := by
  unfold State.fenceEffect
  split
  · exact h
  · split
    · exact h.linkFalls
    · split
      · exact h.sliceFenceEffect
      · exact h.bfmFenceEffect.ite (h.ite (h.canFence.ite (h.psqFence.ite (h.hifFence.ite (h.xpbFence.ite h)))))

theorem State.storesWf.latchDomain (h : s.storesWf) {d : Fin 37} {r : FaultRec} : (s.latchDomain d r).storesWf :=
  h.fltLatch.fenceEffect.ite (h.fltLatch.warmIfRunning.ite h.fltLatch)

theorem State.storesWf.doFaultLatch (h : s.storesWf) {d : Fin 37} {k : FaultKind} {unit : Byte}
    {row : BitVec 16} {votes : Byte} : (doFaultLatch d k unit row votes s).storesWf :=
  ((h.ite h.countN)).ite ((((h.ite h.countN)).hardFault).ite (((h.ite h.countN)).latchDomain))

theorem State.storesWf.psqRecover (h : s.storesWf) {e : Fin 2} : (s.psqRecover e).storesWf := by
  unfold State.psqRecover
  extract_lets +onlyGivenNames s1
  have hs1 : s1.storesWf := by
    unfold s1
    split
    exacts [h.loadSeq, h]
  exact hs1.foldl fun _ ht _ => ht.withPsq.chStart.ite ht.withPsq

theorem State.storesWf.doDomainRecovered (h : s.storesWf) {d : Fin 37} {pass : Bool} :
    (doDomainRecovered d pass s).storesWf :=
  h.ite (h.fltPermanent.ite (h.fltLeave.canRejoin.ite (h.fltLeave.psqRecover.ite h.fltLeave)))

theorem State.storesWf.fenceCmd (h : s.storesWf) {m : Master} {n : Nat} : (s.fenceCmd m n).2.storesWf := by
  unfold State.fenceCmd
  split
  · exact .iteSnd h (.iteSnd h (.iteSnd h (.iteSnd h (.iteSnd (.iteSnd h h.fenceEngine)
      (.iteSnd h.retireDie h.latchDomain)))))
  · exact h

theorem State.storesWf.readmitCmd (h : s.storesWf) {m : Master} {n : Nat} : (s.readmitCmd m n).2.storesWf := by
  unfold State.readmitCmd
  split
  · exact .iteSnd h (.iteSnd h (h.withFlt.startTest.ite h.withFlt))
  · exact h

theorem State.storesWf.fltCmdWrite (h : s.storesWf) {m : Master} {v : Word} : (s.fltCmdWrite m v).storesWf := by
  unfold State.fltCmdWrite
  extract_lets +onlyGivenNames _ _ s2
  have hs2 : s2.storesWf := h.setRegField.setRegField.startDone.ite h.setRegField
  exact hs2.fenceCmd.setRegField.ite (hs2.readmitCmd.setRegField.ite hs2)

theorem State.storesWf.doSupervisorRestart (h : s.storesWf) : (doSupervisorRestart s).storesWf := h.restartSup.ite h

theorem State.storesWf.setTwin (h : s.storesWf) {st : TwinState} {shadow : Bool} : (s.setTwin st shadow).storesWf :=
  h.withFlt

theorem State.storesWf.logTwin (h : s.storesWf) {info : Byte} : (s.logTwin info).storesWf := h.fltLog

theorem State.storesWf.twinCfg (h : s.storesWf) {v : Word} : (s.twinCfg v).storesWf :=
  h.rejReg.ite (h.setReg.setTwin.ite (h.setReg.setTwin.ite h.setReg))

theorem State.storesWf.doTwinPairing (h : s.storesWf) {ok : Bool} {peer : BitVec 64} {own other pref : Bool} :
    (doTwinPairing ok peer own other pref s).storesWf :=
  h.ite (h.count.logTwin.ite h.setReg.setReg.setTwin)

theorem State.storesWf.doTwinPaired (h : s.storesWf) {ok : Bool} : (doTwinPaired ok s).storesWf :=
  h.ite (h.setTwin.ite (h.count.ite h))

theorem State.storesWf.twinAlone (h : s.storesWf) {info : Byte} : (s.twinAlone info).storesWf := h.setTwin.logTwin

theorem State.storesWf.twinDown (h : s.storesWf) {info : Byte} : (s.twinDown info).storesWf :=
  h.setTwin.logTwin.count

theorem State.storesWf.doTwinFailMessage (h : s.storesWf) : (doTwinFailMessage s).storesWf := by
  unfold Machine.doTwinFailMessage
  split
  exacts [h.twinAlone, h.setTwin, h]

theorem State.storesWf.doTwinLos (h : s.storesWf) {ring : Bool} : (doTwinLos ring s).storesWf := by
  unfold Machine.doTwinLos
  split
  exacts [h.twinAlone.ite h.twinDown, h.twinDown, h]

theorem State.storesWf.doTwinHeartbeatMiss (h : s.storesWf) : (doTwinHeartbeatMiss s).storesWf := by
  unfold Machine.doTwinHeartbeatMiss
  split
  exacts [h.twinDown, h.twinDown, h]

theorem State.storesWf.twinCmd (h : s.storesWf) {v : Word} : (s.twinCmd v).storesWf :=
  h.ite (h.withFlt.ite h.rejReg)

theorem State.storesWf.doTwinHandoverTick (h : s.storesWf) : (doTwinHandoverTick s).storesWf := h.setTwin.ite h

/-! Spaces. -/

theorem State.storesWf.spaceGet (h : s.storesWf) {b : Blk} {sp first e : Nat} :
    (s.spaceGet b sp first e).2.storesWf := by
  unfold State.spaceGet
  split
  case h_3 =>
    split
    exacts [h.draw, h]
  case h_5 => exact h.ite h.objRead
  all_goals exact h

theorem State.storesWf.ctxPoke (h : s.storesWf) {e : Fin 10} {w : Nat} {v : Word} : (s.ctxPoke e w v).storesWf :=
  h.ite h.setCtx

theorem State.storesWf.spacePut (h : s.storesWf) {b : Blk} {sp first : Nat} {ws : List Word} :
    (s.spacePut b sp first ws).2.storesWf := by
  unfold State.spacePut
  extract_lets v t
  have ht : t.storesWf := h.withFree.ite h
  split
  · exact .iteSnd h h.setTab
  · exact h.objCommit
  · exact .iteSnd h.setTabs h
  · exact h.setTabs
  · exact h.setTabs
  · exact .iteSnd h h.setTab
  · exact h.ctxPoke
  · exact h.setDmem
  · exact .iteSnd h h.setTabs
  · exact .iteSnd ht.setTabs ht
  · exact h.setTabs

theorem State.storesWf.modInd (h : s.storesWf) {b : Blk} {sup : Bool} {f : IndSet → IndSet} :
    (s.modInd b sup f).storesWf :=
  h.setInd

theorem State.storesWf.indReject (h : s.storesWf) {b : Blk} {sup : Bool} {a : Word} {status : Byte} :
    (s.indReject b sup a status).storesWf :=
  h.cfgRej.modInd

theorem State.storesWf.indCommit (h : s.storesWf) {b : Blk} {sup : Bool} : (s.indCommit b sup).storesWf := by
  unfold State.indCommit
  extract_lets +onlyGivenNames x s1
  have hs1 : s1.storesWf := h.setInd
  clear_value s1
  split
  · exact hs1
  · refine h.ite (hs1.modInd.ite (hs1.indReject.ite ?_))
    extract_lets +onlyGivenNames r
    have hr : r.2.storesWf := hs1.spacePut
    exact hr.ite hr.indReject

theorem State.storesWf.indFill (h : s.storesWf) {b : Blk} {sup : Bool} : (s.indFill b sup).storesWf := by
  unfold State.indFill
  extract_lets +onlyGivenNames _ _ _
  split
  · exact h
  · split
    exacts [h.setInd, h.spaceGet.setInd.ite h.setInd]

theorem State.storesWf.indFetch (h : s.storesWf) {b : Blk} {sup : Bool} {a : Word} : (s.indFetch b sup a).storesWf :=
  h.indCommit.modInd

theorem State.storesWf.indAddr (h : s.storesWf) {b : Blk} {sup : Bool} {v : Word} : (s.indAddr b sup v).storesWf :=
  h.setInd.ite h.indFetch

theorem State.storesWf.indAdvance (h : s.storesWf) {b : Blk} {sup : Bool} : (s.indAdvance b sup).storesWf :=
  h.ite (h.setInd.ite h.indFetch)

theorem State.storesWf.indDataReject (h : s.storesWf) {b : Blk} {sup : Bool} {x : IndSet} :
    (s.indDataReject b sup x).storesWf :=
  h.indReject.modInd

theorem State.storesWf.indRead (h : s.storesWf) {m : Master} {b : Blk} : (s.indRead m b).2.storesWf := by
  unfold State.indRead
  extract_lets +onlyGivenNames _ _ _ _ _
  split
  exacts [h.indFill.setInd.indAdvance, h.indFill.setInd.indAdvance]

theorem State.storesWf.indWrite (h : s.storesWf) {m : Master} {b : Blk} {v : Word} : (s.indWrite m b v).storesWf := by
  unfold State.indWrite
  extract_lets +onlyGivenNames sup s1 x sp w first k s3 s2
  have hs1 : s1.storesWf := h.indFill
  clear_value s1
  have hs3 : s3.storesWf := by
    unfold s3
    split
    exacts [hs1.setInd, hs1.setInd]
  clear_value s3
  have hs2 : s2.storesWf := by
    unfold s2
    split
    · exact hs1.indReject.ite hs1.setInd
    · refine hs1.indDataReject.ite ?_
      split
      exacts [hs1.indDataReject, hs1.setInd, hs3.indCommit.ite hs3]
  exact hs2.indAdvance

theorem State.storesWf.doIndDataRead (h : s.storesWf) {m : Master} {b : Blk} : (doIndDataRead m b s).storesWf :=
  h.guardedRead fun _ ht => ht.indRead.emit

/-! RegAccess. -/

theorem State.storesWf.holdEffect (h : s.storesWf) {xy : Blk} : (s.holdEffect xy).storesWf := by
  unfold State.holdEffect
  split
  exacts [h.quiesceTtc, h.psqHold, h.canHold, h]

theorem State.storesWf.quiesceBlk (h : s.storesWf) {b : Blk} : (s.quiesceBlk b).storesWf :=
  h.ite h.setHold.holdEffect

theorem State.storesWf.disableBlk (h : s.storesWf) {b : Blk} : (s.disableBlk b).storesWf := by
  unfold State.disableBlk
  extract_lets +onlyGivenNames s0 s1
  have hs0 : s0.storesWf := h.setRegBit.setHold
  have hs1 : s1.storesWf := hs0.ite hs0.holdEffect
  split
  exacts [hs1.disarmAll, hs1.setEth.restPort, hs1.ringStop.ringStop, hs1]

theorem State.storesWf.enableBlk (h : s.storesWf) {b : Blk} : (s.enableBlk b).storesWf := by
  unfold State.enableBlk
  extract_lets +onlyGivenNames s1
  have hs1 : s1.storesWf := h.setRegBit.setHold
  split
  exacts [hs1.ringStart.ringStart, hs1.canJoin, hs1]

theorem State.storesWf.ctrlWrite (h : s.storesWf) {b : Blk} {en quiesce : Bool} :
    (s.ctrlWrite b en quiesce).storesWf := by
  unfold State.ctrlWrite
  split
  · exact h
  · split
    · exact h.setRegBit.ite h
    · split
      exacts [h.enableBlk, h.disableBlk, h.quiesceBlk.ite h]

theorem State.storesWf.doQuiesceComplete (h : s.storesWf) {b : Blk} : (doQuiesceComplete b s).storesWf := by
  unfold Machine.doQuiesceComplete
  split
  · exact h
  · split
    exacts [h.finishTx.restPort, h.envDone.envDone, h.canQuiet, h]

theorem State.storesWf.latchAll (h : s.storesWf) {m : Master} {l : List (Nat × Word)} : (s.latchAll m l).storesWf :=
  h.foldl fun _ ht _ => ht.latch

theorem State.storesWf.viewReg (h : s.storesWf) {m : Master} {b : Blk} {o : Nat} : (s.viewReg m b o).2.storesWf := by
  unfold State.viewReg
  split
  · exact .iteSnd h (.iteSnd h (.iteSnd h (.iteSnd h h)))
  · exact .iteSnd h (.iteSnd h h)
  · exact .iteSnd h (.iteSnd h h)
  · exact .iteSnd h (.iteSnd h.ttcUnitRead h)
  · exact .iteSnd h.buserrPop (.iteSnd h (.iteSnd h h))
  · exact .iteSnd h.tsqPop (.iteSnd h (.iteSnd h (.iteSnd h h)))
  · exact .iteSnd h h
  · exact .iteSnd h (.iteSnd h (.iteSnd h h))
  · exact .iteSnd h (.iteSnd h (.iteSnd h h))
  · exact .iteSnd h (.iteSnd h (.iteSnd h (.iteSnd h (.iteSnd h.txevRead (.iteSnd h h)))))
  · exact .iteSnd h (.iteSnd h (.iteSnd h (.iteSnd h (.iteSnd h.psqChanRead h))))
  · exact .iteSnd h (.iteSnd h (.iteSnd h (.iteSnd h (.iteSnd h h))))
  · exact .iteSnd h (.iteSnd h (.iteSnd h.mbxRead h))
  · exact h
  · exact h
  · exact h
  · exact .iteSnd h (.iteSnd h h)
  · split
    · exact h
    · exact .iteSnd h (.iteSnd h (.iteSnd h (.iteSnd h (.iteSnd h (.iteSnd h (.iteSnd h.draw h))))))

theorem State.storesWf.readReg (h : s.storesWf) {m : Master} {b : Blk} {o : Nat} {row : RegRow} :
    (s.readReg m b o row).2.storesWf :=
  .iteSnd h (.iteSnd h (.iteSnd h (.iteSnd h.indRead (.iteSnd h (.iteSnd h h.latchAll.viewReg)))))

theorem State.storesWf.regRead (h : s.storesWf) {m : Master} {a : Nat} : (s.regRead m a).2.2.storesWf := by
  unfold State.regRead
  split
  · exact h
  · exact h
  next b o row _ =>
    have hr : (s.readReg m b o row).2.storesWf := h.readReg
    split
    next heq =>
      rw [heq] at hr
      exact hr
    next heq =>
      rw [heq] at hr
      exact hr

theorem State.storesWf.doRegRead (h : s.storesWf) {m : Master} {a : Nat} : (doRegRead m a s).storesWf :=
  h.regRead.emit.ite h.regRead.accessErr

theorem State.storesWf.tuneDefaults (h : s.storesWf) {n : Fin 8} : (s.tuneDefaults n).storesWf :=
  h.foldl fun _ ht _ => ht.draw.setTab

theorem State.storesWf.cfAfter (h : s.storesWf) {b : Blk} {o : Nat} {old new : Word} :
    (s.cfAfter b o old new).storesWf := by
  unfold State.cfAfter
  split
  exacts [h.tuneDefaults.ringsCheck, h.ringsCheck, h.pfcEval.ite h, h.setSwc, h.xpbRoleChange, h]

theorem State.storesWf.cfWrite (h : s.storesWf) {b : Blk} {o : Nat} {row : RegRow} {v : Word} :
    (s.cfWrite b o row v).storesWf :=
  h.rejReg.ite h.setReg.cfAfter

theorem State.storesWf.rwWrite (h : s.storesWf) {b : Blk} {o : Nat} {row : RegRow} {v : Word} :
    (s.rwWrite b o row v).storesWf :=
  h.rejReg.ite (h.setReg.rotAgain.ite h.setReg)

theorem State.storesWf.ctWrite (h : s.storesWf) {b : Blk} {o : Nat} {v : Word} : (s.ctWrite b o v).storesWf := by
  unfold State.ctWrite
  extract_lets +onlyGivenNames _
  split
  · exact h
  · split
    exacts [h.clearCnt.setReg.ite h.clearCnt, h.clearCnt]

theorem State.storesWf.ctxCmd (h : s.storesWf) {m : Master} {v : Word} : (s.ctxCmd m v).storesWf :=
  h.doCtxDisable.ite (h.doCtxEnable.ite h.setRegField)

theorem State.storesWf.gateCtrl (h : s.storesWf) {m : Master} {n : Fin 8} {v : Word} : (s.gateCtrl m n v).storesWf :=
  h.doGateSwap.ite h.writeGateEn

theorem State.storesWf.ringCmd (h : s.storesWf) {m : Master} {r : Fin 2} {v : Word} : (s.ringCmd m r v).storesWf := by
  unfold State.ringCmd
  extract_lets +onlyGivenNames s1
  have hs1 : s1.storesWf := h.doClaimNow.ite h
  exact hs1.doRingReturn.ite hs1

theorem State.storesWf.pwrCmd (h : s.storesWf) {v : Word} : (s.pwrCmd v).storesWf := h.enterP3.ite (h.enterP2.ite h)

theorem State.storesWf.resetCmd (h : s.storesWf) {v : Word} : (s.resetCmd v).storesWf :=
  h.coldStart.ite (h.warmIfRunning.ite h)

theorem State.storesWf.dtmCmdWrite (h : s.storesWf) {m : Master} {v : Word} : (s.dtmCmdWrite m v).storesWf :=
  h.ite h.dtmSteps

theorem State.storesWf.mbxCmdWrite (h : s.storesWf) {m : Master} {v : Word} : (s.mbxCmdWrite m v).storesWf :=
  h.doMbxAck.ite h.setReg

theorem State.storesWf.opWrite (h : s.storesWf) {m : Master} {b : Blk} {o : Nat} {v : Word} :
    (s.opWrite m b o v).2.storesWf := by
  unfold State.opWrite
  extract_lets +onlyGivenNames _ _
  split
  · exact h.ctrlWrite
  · split
    · exact h.indAddr
    · split
      · exact h.indWrite
      · split
        · exact h.modInd
        · split
          · exact h.resetCmd
          · exact h.doClkGateReqWrite.ite h.pwrCmd
          · exact .iteSnd h.dtmCmdWrite (h.doIncWrite.ite h.doAdjRequest)
          · exact h.ttcUnitWrite
          · exact h.ctxCmd
          · exact h.doMdioGo
          · exact h.gateCtrl
          · exact h.doBfmRetire
          · exact h.ringCmd
          · exact .iteSnd h.psqSwaps (.iteSnd h.mfpWrite h.psqChanWrite)
          · exact .iteSnd (h.swapImem.ite h) (.iteSnd (h.setReg.ite h) (.iteSnd h.dbgCtrlWrite h.setReg))
          · exact .iteSnd h.mbxCmdWrite (.iteSnd h.doMbxCfgWrite h.mbxWrite)
          · exact h.ownerRegWrite
          · exact .iteSnd h.fltCmdWrite (.iteSnd h.twinCfg h.twinCmd)
          · exact h

theorem State.storesWf.writeReg (h : s.storesWf) {m : Master} {b : Blk} {o : Nat} {row : RegRow} {v : Word} :
    (s.writeReg m b o row v).2.storesWf := by
  unfold State.writeReg
  split
  exacts [h.rwWrite, h.cfWrite, h.ctWrite, h.setReg, h.opWrite, h, h, h]

theorem State.storesWf.regWrite (h : s.storesWf) {m : Master} {a : Nat} {v : Word} :
    (s.regWrite m a v).2.storesWf := by
  unfold State.regWrite
  split
  exacts [h, h.rejReg, h.writeReg]

theorem State.storesWf.doRegWrite (h : s.storesWf) {m : Master} {a : Nat} {be : BitVec 4} {v : Word} :
    (doRegWrite m a be v s).storesWf :=
  h.accessErr.ite (h.regWrite.ite h.regWrite.accessErr)

theorem State.storesWf.portWrite (h : s.storesWf) {a : Nat} {ws : List PortWrite} : (s.portWrite a ws).storesWf := by
  unfold State.portWrite
  extract_lets each cm good t
  have heach (l : List PortWrite) : (each l).storesWf := h.foldl fun _ ht _ => ht.doRegWrite
  split
  · exact heach _
  · split
    exacts [heach _, (heach _).doRegWrite]

theorem State.storesWf.barRead (h : s.storesWf) {link : Bool} {bar : BitVec 2} {a : Nat} :
    (s.barRead link bar a).storesWf := by
  unfold State.barRead
  split
  · exact h.emit
  · split
    exacts [h.emit, h.accessErr]

theorem State.storesWf.doReservedAccess (h : s.storesWf) {m : Master} {write : Bool} {bar : BitVec 2} {a : Word}
    {whole : Bool} : (doReservedAccess m write bar a whole s).storesWf := by
  unfold Machine.doReservedAccess
  split
  · exact h.accessErr
  · split
    exacts [h.ite h.barRead, h]

theorem State.storesWf.doGatedAccess (h : s.storesWf) {m : Master} {write : Bool} {a : Word} :
    (doGatedAccess m write a s).storesWf := by
  unfold Machine.doGatedAccess
  split
  exacts [h.accessErr.ite h, h]

/-! Inbound. -/

theorem State.storesWf.inboundReg (h : s.storesWf) {write : Bool} {a : Nat} {v : Word} :
    (s.inboundReg write a v).2.2.storesWf :=
  .iteSnd2 h.regWrite h.regRead

theorem State.storesWf.inboundXrf (h : s.storesWf) {write : Bool} {i : Nat} {v : Word} :
    (s.inboundXrf write i v).2.2.storesWf :=
  .iteSnd2 h.setTab h

theorem State.storesWf.inboundMbx (h : s.storesWf) {write : Bool} {w : Nat} {v : Word} :
    (s.inboundMbx write w v).2.2.storesWf := by
  unfold State.inboundMbx
  extract_lets b
  have hr : (s.mbxRead (.bus .exp) b (w % 16)).2.storesWf := h.mbxRead
  split
  · exact h.mbxWrite
  · split
    next heq =>
      rw [heq] at hr
      exact hr
    next heq =>
      rw [heq] at hr
      exact hr

theorem State.storesWf.inboundBank (h : s.storesWf) {write : Bool} {off : Nat} {v : Word} :
    (s.inboundBank write off v).2.2.storesWf :=
  .iteSnd2 h h.bankServe

theorem State.storesWf.inboundWord (h : s.storesWf) {write : Bool} {a : Nat} {v : Word} :
    (s.inboundWord write a v).2.2.storesWf :=
  .iteSnd2 h (.iteSnd2 h.inboundReg (.iteSnd2 h.inboundXrf (.iteSnd2 h.inboundMbx (.iteSnd2 h.inboundBank h))))

theorem State.storesWf.inboundWords (h : s.storesWf) {write : Bool} {a k n : Nat} {data got : List Word} :
    (s.inboundWords write a k n data got).2.2.storesWf := by
  induction n generalizing s k got with
  | zero => exact h
  | succ n ih =>
    unfold State.inboundWords
    have hw : (s.inboundWord write (a + 4 * k) (data.getD k 0)).2.2.storesWf := h.inboundWord
    exact .iteSnd2 (ih hw) hw

theorem State.storesWf.inboundMark (h : s.storesWf) {write : Bool} {a n : Nat} : (s.inboundMark write a n).storesWf :=
  h.sgmMark.ite h

theorem State.storesWf.inboundEnd (h : s.storesWf) {op : XpbOp} {a : Word} {n : Nat} {st : Byte} {got : List Word} :
    (s.inboundEnd op a n st got).storesWf := by
  unfold State.inboundEnd
  split
  exacts [h.drawN.emit, h.emit, h.ite h.pelLog]

theorem State.storesWf.doXpbInbound (h : s.storesWf) {op : XpbOp} {a : Word} {len : Fin 16} {data : List Word} :
    (doXpbInbound op a len data s).storesWf :=
  h.ite (h.inboundEnd.ite h.inboundWords.inboundMark.inboundEnd)

theorem amSetWord_wf (m : AMap (BitVec 8)) (o : Nat) (v : Word) (hm : amWf (fun _ => 0) m) :
    amWf (fun _ => 0) (amSetWord m o v) := by
  have put (l : List Nat) : ∀ t : AMap (BitVec 8), amWf (fun _ => 0) t →
      amWf (fun _ => 0) (l.foldl (fun t k => amPut (fun _ => 0) t (o + k) (byteAt (leBytes v) k)) t) := by
    induction l with
    | nil => exact fun _ h => h
    | cons k l ih => exact fun t h => ih _ (amPut_wf _ _ _ _ h)
  exact put _ m hm

/-! DbgAccess. -/

theorem State.storesWf.dbgPut (h : s.storesWf) {a : Nat} {v : Word} : (s.dbgPut a v).2.storesWf := by
  unfold State.dbgPut
  split
  · exact h
  · exact State.Canonical.wf { h.canonical with ram := amSetWord_wf _ _ _ h.canonical.ram }
  · exact h
  · exact State.Canonical.wf { h.canonical with retention := amSetWord_wf _ _ _ h.canonical.retention }
  · exact h.regWrite
  · exact h

theorem State.storesWf.dbgGet (h : s.storesWf) {a : Nat} : (s.dbgGet a).2.2.storesWf := by
  unfold State.dbgGet
  split
  exacts [h, h, h.withFree, h, h.regRead, h]

theorem State.storesWf.dbgGo (h : s.storesWf) {write : Bool} {a : Nat} {v : Word} : (s.dbgGo write a v).storesWf := by
  unfold State.dbgGo
  split
  exacts [h.dbgSay, h.dbgPut.dbgSay.ite (h.dbgGet.modSec.dbgSay.ite h.dbgGet.dbgSay)]

theorem State.storesWf.doDbgAccess (h : s.storesWf) {write go : Bool} {a v : Word} :
    (doDbgAccess write go a v s).storesWf :=
  h.tapRun fun _ ht => ht.emit.dbgGo.ite ht.emit

/-! Tick. -/

theorem State.storesWf.engTick (h : s.storesWf) {n : Nat} : (s.engTick n).storesWf :=
  h.foldl fun _ ht _ => ht.engCycles

theorem State.storesWf.tickOnce (h : s.storesWf) : s.tickOnce.storesWf := by
  unfold State.tickOnce
  split
  exacts [h, h, h.plainTick, h.plainTick.engTick.psqTick.flushReplies]

end Sys2Proof.Machine
end

section
/-! SUPPORT. Every step keeps the stores canonical. -/

namespace Sys2Proof.Machine

/-- Every command ends in a state whose stores are canonical if those it starts from are. -/
theorem State.storesWf.exec {s : State} (h : s.storesWf) (c : Instr) : ∃ u, exec c s = commit s u ∧ u.storesWf := by
  cases c with
  | porNRise => exact ⟨_, rfl, h.doPorNRise⟩
  | warmNAssert => exact ⟨_, rfl, h.doWarmNAssert⟩
  | glbResetCold => exact ⟨_, rfl, h.guarded fun _ ht => ht.coldStart⟩
  | glbResetWarm => exact ⟨_, rfl, h.guarded fun _ ht => ht.warmIfRunning⟩
  | startDone => exact ⟨_, rfl, h.guarded fun _ ht => ht.setRegField.startDone⟩
  | startFail => exact ⟨_, rfl, h.doStartFail⟩
  | pllLost => exact ⟨_, rfl, h.doPllLost⟩
  | alignmentWindow => exact ⟨_, rfl, h.doAlignmentWindow⟩
  | pllRelockAttempt => exact ⟨_, rfl, h.doPllRelockAttempt⟩
  | pllBecomesSpare => exact ⟨_, rfl, h.doPllBecomesSpare⟩
  | islandGate => exact ⟨_, rfl, h.doIslandGate⟩
  | wakeEvent => exact ⟨_, rfl, h.wake⟩
  | islandClockStart => exact ⟨_, rfl, h.doIslandClockStart⟩
  | clkGateReqWrite => exact ⟨_, rfl, h.doClkGateReqWrite⟩
  | registerWrite m a be v also =>
    cases also with
    | nil => exact ⟨_, rfl, h.doRegWrite⟩
    | cons => exact ⟨_, rfl, h.portWrite⟩
  | reservedAccess => exact ⟨_, rfl, h.doReservedAccess⟩
  | gatedIslandAccess => exact ⟨_, rfl, h.doGatedAccess⟩
  | quiesce => exact ⟨_, rfl, h.guarded fun _ ht => ht.quiesceBlk⟩
  | quiesceComplete => exact ⟨_, rfl, h.doQuiesceComplete⟩
  | enWrite => exact ⟨_, rfl, h.guarded fun _ ht => ht.ctrlWrite⟩
  | indAddrWrite => exact ⟨_, rfl, h.guarded fun _ ht => ht.indAddr⟩
  | indFetchDone => exact ⟨_, rfl, h.indFill⟩
  | indDataRead => exact ⟨_, rfl, h.doIndDataRead⟩
  | indDataWrite => exact ⟨_, rfl, h.guarded fun _ ht => ht.indWrite⟩
  | wideLowRead => exact ⟨_, rfl, h.doRegRead⟩
  | incWrite => exact ⟨_, rfl, h.doIncWrite⟩
  | adjRequest => exact ⟨_, rfl, h.doAdjRequest⟩
  | adjApply => exact ⟨_, rfl, h.doAdjApply⟩
  | forceStep => exact ⟨_, rfl, h.doForceStep⟩
  | load => exact ⟨_, rfl, h.doLoad⟩
  | voteReload => exact ⟨_, rfl, h.doVoteReload⟩
  | datumFence => exact ⟨_, rfl, h.doDatumFence⟩
  | syntWindowEnd => exact ⟨_, rfl, h.doSyntWindowEnd⟩
  | ttuArm => exact ⟨_, rfl, h.doTtuArm⟩
  | ttuDisarm => exact ⟨_, rfl, h.doTtuDisarm⟩
  | triggerFire => exact ⟨_, rfl, h.doTriggerFire⟩
  | triggerPulseEnd => exact ⟨_, rfl, h.doTriggerPulseEnd⟩
  | captureEdge => exact ⟨_, rfl, h.doCaptureEdge⟩
  | captureRead => exact ⟨_, rfl, h.doCaptureRead⟩
  | tsqRead => exact ⟨_, rfl, h.doTsqRead⟩
  | registerMove => exact ⟨_, rfl, h.engCycle.eccCe⟩
  | aluTrigger => exact ⟨_, rfl, h.oneMove⟩
  | macTrigger => exact ⟨_, rfl, h.oneMove⟩
  | divTrigger => exact ⟨_, rfl, h.oneMove⟩
  | lsuTrigger => exact ⟨_, rfl, h.oneMove.eccCe⟩
  | crcInit => exact ⟨_, rfl, h.oneMove⟩
  | crcFold => exact ⟨_, rfl, h.oneMove⟩
  | crcFin => exact ⟨_, rfl, h.oneMove⟩
  | crcHash => exact ⟨_, rfl, h.oneMove⟩
  | fwuCpy => exact ⟨_, rfl, h.oneMove⟩
  | fwuEna => exact ⟨_, rfl, h.oneMove⟩
  | fwuDis => exact ⟨_, rfl, h.oneMove⟩
  | fwuTxpost => exact ⟨_, rfl, h.oneMove⟩
  | fwuStsel => exact ⟨_, rfl, h.oneMove⟩
  | dtpSnap => exact ⟨_, rfl, h.oneMove⟩
  | unitResultLand => exact ⟨_, rfl, h.engCycles⟩
  | jmp => exact ⟨_, rfl, h.oneMove⟩
  | br => exact ⟨_, rfl, h.oneMove⟩
  | call => exact ⟨_, rfl, h.oneMove⟩
  | ret => exact ⟨_, rfl, h.oneMove⟩
  | kend => exact ⟨_, rfl, h.oneMove⟩
  | wait => exact ⟨_, rfl, h.oneMove⟩
  | waitResume => exact ⟨_, rfl, h.doWaitResume⟩
  | repeatIteration => exact ⟨_, rfl, h.doRepeatIteration⟩
  | kernelCycleStart => exact ⟨_, rfl, h.kernelStart.ite h⟩
  | watchdogExpire => exact ⟨_, rfl, h.doWatchdogExpire⟩
  | moveRetry => exact ⟨_, rfl, h.doMoveRetry⟩
  | hardFault => exact ⟨_, rfl, h.hardFault⟩
  | checkpointSnapshot => exact ⟨_, rfl, h.doCheckpointSnapshot⟩
  | checkpointCommit => exact ⟨_, rfl, h.doCheckpointCommit⟩
  | pecImemSwap => exact ⟨_, rfl, h.guarded fun _ ht => ht.swapImem⟩
  | kmaxClr => exact ⟨_, rfl, h.guarded fun _ ht => ht.setReg⟩
  | halt => exact ⟨_, rfl, (h.guarded fun _ ht => ht.haltCmd).dbgRefused⟩
  | step => exact ⟨_, rfl, (h.guarded fun _ ht => ht.stepCmd).dbgRefused⟩
  | resume => exact ⟨_, rfl, (h.guarded fun _ ht => ht.resumeCmd).dbgRefused⟩
  | breakpointHit => exact ⟨_, rfl, h.doBreakpointHit⟩
  | takeoverCopyBegin => exact ⟨_, rfl, h.doTakeoverCopyBegin⟩
  | takeoverKernelStart => exact ⟨_, rfl, h.doTakeoverKernelStart⟩
  | takeoverCopyDone => exact ⟨_, rfl, h.doTakeoverCopyDone⟩
  | rotationTimer => exact ⟨_, rfl, h.doRotationTimer⟩
  | rotationMove => exact ⟨_, rfl, h.doRotationMove⟩
  | selfTestDone => exact ⟨_, rfl, h.doSelfTestDone⟩
  | retestStart => exact ⟨_, rfl, h.doRetestStart⟩
  | imgLoad => exact ⟨_, rfl, h.doImgLoad⟩
  | imgUpdate => exact ⟨_, rfl, h.doImgUpdate⟩
  | admitRole => exact ⟨_, rfl, h.doAdmit⟩
  | unbind => exact ⟨_, rfl, h.doUnbind⟩
  | imgDrop => exact ⟨_, rfl, h.doImgDrop⟩
  | seqLoad => exact ⟨_, rfl, h.doSeqLoad⟩
  | supUpdate => exact ⟨_, rfl, h.doSupUpdate⟩
  | getIdentity => exact ⟨_, rfl, h.doGetIdentity⟩
  | challenge => exact ⟨_, rfl, h.doChallenge⟩
  | ownerKeyLoad => exact ⟨_, rfl, h.doOwnerKeyLoad⟩
  | ownerCmd => exact ⟨_, rfl, h.doOwnerCmd⟩
  | enroll => exact ⟨_, rfl, h.doTokenCmd⟩
  | revoke => exact ⟨_, rfl, h.doTokenCmd⟩
  | rollbackSet => exact ⟨_, rfl, h.doTokenCmd⟩
  | decommission => exact ⟨_, rfl, h.doTokenCmd⟩
  | cakSet => exact ⟨_, rfl, h.doTokenCmd⟩
  | debugToken => exact ⟨_, rfl, h.doDbgToken.ite h⟩
  | takeOwnership => exact ⟨_, rfl, h.doTakeOwnership⟩
  | attest => exact ⟨_, rfl, h.doAttest⟩
  | decommissionUnowned => exact ⟨_, rfl, h.doDecommissionUnowned⟩
  | pwrStandby => exact ⟨_, rfl, h.doPwrStandby⟩
  | pwrOff => exact ⟨_, rfl, h.doPwrOff⟩
  | p2Exit => exact ⟨_, rfl, h.doP2Exit⟩
  | ringKeysel => exact ⟨_, rfl, h.doRingKeysel⟩
  | unknownCommand => exact ⟨_, rfl, h.doUnknownCommand⟩
  | tamperEvent => exact ⟨_, rfl, h.doTamperEvent⟩
  | idcode => exact ⟨_, rfl, h.doIdcode⟩
  | samplePreload => exact ⟨_, rfl, h.doSamplePreload⟩
  | extest => exact ⟨_, rfl, h.takeBalls⟩
  | clamp => exact ⟨_, rfl, h.takeBalls⟩
  | highz => exact ⟨_, rfl, h.takeBalls⟩
  | bypass => exact ⟨_, rfl, h.doBypass⟩
  | dbgStatus => exact ⟨_, rfl, h.doDbgStatus⟩
  | dbgChallenge => exact ⟨_, rfl, h.doDbgChallenge⟩
  | dbgToken => exact ⟨_, rfl, h.doDbgToken⟩
  | dbgOpen => exact ⟨_, rfl, h.doDbgOpen⟩
  | dbgClose => exact ⟨_, rfl, h.doDbgClose⟩
  | dbgAccess => exact ⟨_, rfl, h.doDbgAccess⟩
  | lcAdvance => exact ⟨_, rfl, h.lcAtTap fun _ ht => ht.advanceLc⟩
  | lcKill => exact ⟨_, rfl, h.lcAtTap fun _ ht => ht.retire⟩
  | jtagTrst => exact ⟨_, rfl, h.doJtagTrst⟩
  | linkUp => exact ⟨_, rfl, h.doLinkUp⟩
  | linkDown => exact ⟨_, rfl, h.linkFalls⟩
  | frameReceive => exact ⟨_, rfl, h.doFrameReceive⟩
  | pfcRefresh => exact ⟨_, rfl, h.doPfcRefresh⟩
  | pauseTimerExpire => exact ⟨_, rfl, h.doPauseTimerExpire⟩
  | mdioGo => exact ⟨_, rfl, h.doMdioGo⟩
  | mdioDone => exact ⟨_, rfl, h.doMdioDone⟩
  | frameTransmit => exact ⟨_, rfl, h.doFrameTransmit⟩
  | frameClassify => exact ⟨_, rfl, h.doFrameClassify⟩
  | fdbAgeSweep => exact ⟨_, rfl, h.doFdbAgeSweep⟩
  | gateEntryExpire => exact ⟨_, rfl, h.doGateEntryExpire⟩
  | gateSwap => exact ⟨_, rfl, h.doGateSwap⟩
  | bufferUe => exact ⟨_, rfl, h.doBufferUe⟩
  | dieRetire => exact ⟨_, rfl, h.doDieRetire⟩
  | bfmRetire => exact ⟨_, rfl, h.doBfmRetire⟩
  | ringCycleBoundary => exact ⟨_, rfl, h.doRingCycleBoundary⟩
  | ringBmSnapshot => exact ⟨_, rfl, h.doRingBmSnapshot⟩
  | ringPassReceive => exact ⟨_, rfl, h.doRingPassReceive⟩
  | ringLos => exact ⟨_, rfl, h.doRingLos⟩
  | ringFragmentEmit => exact ⟨_, rfl, h.doRingFragmentEmit⟩
  | stanchionCut => exact ⟨_, rfl, h.doStanchionCut⟩
  | stanchionSelfCheck => exact ⟨_, rfl, h.doStanchionSelfCheck⟩
  | envelopeSend => exact ⟨_, rfl, h.doEnvelopeSend⟩
  | envelopeReceive => exact ⟨_, rfl, h.doEnvelopeReceive⟩
  | claimTimeout => exact ⟨_, rfl, h.doClaimTimeout⟩
  | claimNow => exact ⟨_, rfl, h.doClaimNow⟩
  | claimSend => exact ⟨_, rfl, h.doClaimSend⟩
  | claimReceive => exact ⟨_, rfl, h.doClaimReceive⟩
  | beaconReceive => exact ⟨_, rfl, h.doBeaconReceive⟩
  | ringReturn => exact ⟨_, rfl, h.doRingReturn⟩
  | canFrameStore => exact ⟨_, rfl, h.doCanFrameStore⟩
  | canError => exact ⟨_, rfl, h.doCanError⟩
  | canBusoffRecover => exact ⟨_, rfl, h.doCanBusoffRecover⟩
  | canGwReceive => exact ⟨_, rfl, h.doCanGwReceive⟩
  | canTtCycleStart => exact ⟨_, rfl, h.doCanTtCycleStart⟩
  | canTtRefMiss => exact ⟨_, rfl, h.doCanTtRefMiss⟩
  | canTimeMark => exact ⟨_, rfl, h.doCanTimeMark⟩
  | canTxLate => exact ⟨_, rfl, h.doCanTxLate⟩
  | canTxEnd => exact ⟨_, rfl, h.doCanTxEnd⟩
  | canTxevRead => exact ⟨_, rfl, h.doCanTxevRead⟩
  | psqNop => exact ⟨_, rfl, h.doPsqOne⟩
  | psqPins => exact ⟨_, rfl, h.doPsqOne⟩
  | psqDir => exact ⟨_, rfl, h.doPsqOne⟩
  | psqShift => exact ⟨_, rfl, h.doPsqOne⟩
  | psqPull => exact ⟨_, rfl, h.doPsqOne⟩
  | psqPush => exact ⟨_, rfl, h.doPsqOne⟩
  | psqMov => exact ⟨_, rfl, h.doPsqOne⟩
  | psqLdi => exact ⟨_, rfl, h.doPsqOne⟩
  | psqAdd => exact ⟨_, rfl, h.doPsqOne⟩
  | psqJmp => exact ⟨_, rfl, h.doPsqOne⟩
  | psqAt => exact ⟨_, rfl, h.doPsqOne⟩
  | psqWaitev => exact ⟨_, rfl, h.doPsqOne⟩
  | psqStopInstruction => exact ⟨_, rfl, h.doPsqOne⟩
  | psqHoldRelease => exact ⟨_, rfl, h.doPsqHoldRelease⟩
  | psqEventLatch => exact ⟨_, rfl, h.doPsqEventLatch⟩
  | shiftDone => exact ⟨_, rfl, h.doShiftDone⟩
  | psqQueueResume => exact ⟨_, rfl, h.doPsqQueueResume⟩
  | psqTxqWrite => exact ⟨_, rfl, h.doPsqTxqWrite⟩
  | psqRxqRead => exact ⟨_, rfl, h.doPsqRxqRead⟩
  | psqStart => exact ⟨_, rfl, h.doPsqStart⟩
  | psqStop => exact ⟨_, rfl, h.doPsqStop⟩
  | psqSwap => exact ⟨_, rfl, h.doPsqSwap⟩
  | psqChannelBankMove => exact ⟨_, rfl, h.doPsqChannelBankMove⟩
  | ctxEnable => exact ⟨_, rfl, h.doCtxEnable⟩
  | ctxDisable => exact ⟨_, rfl, h.doCtxDisable⟩
  | ctxDrainDone => exact ⟨_, rfl, h.doCtxDrainDone⟩
  | txProducerWrite => exact ⟨_, rfl, h.doTxProducerWrite⟩
  | rxProducerWrite => exact ⟨_, rfl, h.doRxProducerWrite⟩
  | cqConsumerWrite => exact ⟨_, rfl, h.doCqConsumerWrite⟩
  | abortRequest => exact ⟨_, rfl, h.doAbortRequest⟩
  | abortEvaluate => exact ⟨_, rfl, h.doAbortEvaluate⟩
  | descriptorFetch => exact ⟨_, rfl, h.doDescriptorFetch⟩
  | hostReadCompletion => exact ⟨_, rfl, h.readEnds⟩
  | txCommit => exact ⟨_, rfl, h.doTxCommit⟩
  | rxDeliver => exact ⟨_, rfl, h.doRxDeliver⟩
  | msixTimerExpire => exact ⟨_, rfl, h.doMsixTimerExpire⟩
  | msixUnmask => exact ⟨_, rfl, h.setVecWord.ite h⟩
  | bar4Write => exact ⟨_, rfl, h.doBar4Write⟩
  | bar4Commit => exact ⟨_, rfl, h.doBar4Write⟩
  | hostLinkDown => exact ⟨_, rfl, h.doHostLinkDown⟩
  | hifBuserrRead => exact ⟨_, rfl, h.doHifBuserrRead⟩
  | xpbInbound => exact ⟨_, rfl, h.doXpbInbound⟩
  | bridgeRead => exact ⟨_, rfl, h.doBridge⟩
  | bridgeWriteNp => exact ⟨_, rfl, h.doBridge⟩
  | bridgeWritePosted => exact ⟨_, rfl, h.doBridge⟩
  | xpbTransactionStart => exact ⟨_, rfl, h.doXpbTransactionStart⟩
  | xpbTransactionEnd => exact ⟨_, rfl, h.doXpbTransactionEnd⟩
  | xpbWaitTimeout => exact ⟨_, rfl, h.doXpbWaitTimeout⟩
  | xpbPeerRequest => exact ⟨_, rfl, h.doXpbPeerRequest⟩
  | xpbPoll => exact ⟨_, rfl, h.doXpbPoll⟩
  | routeFarPoll => exact ⟨_, rfl, h.doRouteFarPoll⟩
  | routeSourceUpdate => exact ⟨_, rfl, h.doRouteSourceUpdate⟩
  | routeDelivery => exact ⟨_, rfl, h.doRouteDelivery⟩
  | mbxSenderWrite => exact ⟨_, rfl, h.doMbxWrite⟩
  | mbxPost => exact ⟨_, rfl, h.doMbxWrite⟩
  | mbxReceive => exact ⟨_, rfl, h.doMbxRead⟩
  | mbxAck => exact ⟨_, rfl, h.doMbxAck⟩
  | mbxCfgWrite => exact ⟨_, rfl, h.doMbxCfgWrite⟩
  | bankAccess => exact ⟨_, rfl, h.doBankAccess⟩
  | bankRelease => exact ⟨_, rfl, h.ownerRegWrite⟩
  | bankDrainDone => exact ⟨_, rfl, h.doBankDrainDone⟩
  | bankAssign => exact ⟨_, rfl, h.ownerRegWrite⟩
  | bankFillDone => exact ⟨_, rfl, h.doBankFillDone⟩
  | skimmerWindow => exact ⟨_, rfl, h.doSkimmerWindow⟩
  | faultLatch => exact ⟨_, rfl, h.doFaultLatch⟩
  | domainRecovered => exact ⟨_, rfl, h.doDomainRecovered⟩
  | fence => exact ⟨_, rfl, h.guarded fun _ ht => ht.fltCmdWrite⟩
  | readmit => exact ⟨_, rfl, h.guarded fun _ ht => ht.fltCmdWrite⟩
  | supervisorRestart => exact ⟨_, rfl, h.doSupervisorRestart⟩
  | twinCfgWrite => exact ⟨_, rfl, h.guarded fun _ ht => ht.twinCfg⟩
  | twinPairing => exact ⟨_, rfl, h.doTwinPairing⟩
  | twinPaired => exact ⟨_, rfl, h.doTwinPaired⟩
  | twinFailMessage => exact ⟨_, rfl, h.doTwinFailMessage⟩
  | twinLos => exact ⟨_, rfl, h.doTwinLos⟩
  | twinHeartbeatMiss => exact ⟨_, rfl, h.doTwinHeartbeatMiss⟩
  | handover => exact ⟨_, rfl, h.guarded fun _ ht => ht.twinCmd⟩
  | twinHandoverTick => exact ⟨_, rfl, h.doTwinHandoverTick⟩
  | seqRecTimeout => exact ⟨_, rfl, h.doSeqRecTimeout⟩
  | halfDuplexNegotiated => exact ⟨_, rfl, h.doHalfDuplexNegotiated⟩
  | pllLocked => exact ⟨_, rfl, h.doPllLocked⟩
  | skimmerWindowEnd => exact ⟨_, rfl, h.doSkimmerWindowEnd⟩
  | windowGateOpen => exact ⟨_, rfl, h.doWindowGateOpen⟩
  | canBusIntegrated => exact ⟨_, rfl, h.doCanBusIntegrated⟩
  | canProtocolException => exact ⟨_, rfl, h.doCanProtocolException⟩
  | hostLinkUp => exact ⟨_, rfl, h.doHostLinkUp⟩
  | completionTimeout => exact ⟨_, rfl, h.readEnds⟩
  | xpReqLow => exact ⟨_, rfl, h.doXpReqLow⟩
  | porNAssert => exact ⟨_, rfl, h.holdReset⟩
  | mkaTimerExpire => exact ⟨_, rfl, h.doMkaTimerExpire⟩

/-- Settles O4: right after reset every store is empty. -/
theorem resetKeepsTheCanonicalForm : Obligations.ResetKeepsTheCanonicalForm := State.reset_storesWf

/-- Settles O5: a tick and the effect of every command keep the stores canonical, and so do the interrupts that follow. -/
theorem storesStayCanonical : Obligations.StoresStayCanonical := by
  intro s t hs ht
  unfold step at ht
  split at ht
  · obtain rfl : settle s s.tickOnce = t := by simpa [tick, commit] using ht
    exact settle_storesWf _ _ hs.tickOnce
  next c rest _ =>
    obtain ⟨u, hu, hw⟩ := State.storesWf.exec (s := { s with pending := rest }) hs c
    rw [hu] at ht
    obtain rfl : settle { s with pending := rest } u = t := by simpa [commit] using ht
    exact settle_storesWf _ _ hw

end Sys2Proof.Machine
end

section
/-! SUPPORT. Commands that are one register access, and what refusing one leaves behind: what O8 and O10 say of refused
accesses. -/

namespace Sys2Proof.Machine

/-- The command's effect is that of the refusal of its register access where the access is refused (R38-R42). -/
def Refusing (c : Instr) (s : State) (m : Master) (w : Bool) (a : Nat) : Prop :=
  ∃ u, exec c s = commit s u ∧ (∀ st, s.access m w a = .err st → u = s.accessErr m w 0 a st) ∧
    ∀ b, w = true → s.access m w a = .supOnly b → u = s.rejReg b a

section
variable {c : Instr} {s : State} {m : Master} {a : Nat}

theorem refusing_of_guarded {f : State → State} (hc : exec c s = commit s (s.guarded m a f)) : Refusing c s m true a :=
  ⟨_, hc, fun st h => by simp only [State.guarded, h], fun b _ h => by simp only [State.guarded, h]⟩

theorem refusing_of_guardedRead {f : State → State} (hc : exec c s = commit s (s.guardedRead m a f)) :
    Refusing c s m false a :=
  ⟨_, hc, fun st h => by simp only [State.guardedRead, h], fun _ h => by cases h⟩

theorem State.access_err_ne_ok {w : Bool} {st : Byte} (h : s.access m w a = .err st) : st ≠ stOk := by
  unfold State.access at h
  split at h
  · cases h
    decide
  · split_ifs at h <;> cases h <;> decide

theorem State.addr_lt_of_supOnly {w : Bool} {b : Blk} (h : s.access m w a = .supOnly b) : a < 0x200000 := by
  unfold State.access at h
  split at h
  · cases h
  next hr => exact (regAt_addr hr).2

theorem refusing_registerWrite {x v : Word} : Refusing (.registerWrite m x 0xF v []) s m true x.toNat := by
  refine ⟨doRegWrite m x.toNat 0xF v s, rfl, fun st h => ?_, fun b _ h => ?_⟩
  · have hst := State.access_err_ne_ok h
    simp only [doRegWrite, State.regWrite, h, ne_eq, not_true_eq_false, if_false, if_neg hst]
  · simp only [doRegWrite, State.regWrite, h, ne_eq, not_true_eq_false, if_false, if_true]

theorem refusing_wideLowRead {x : Word} : Refusing (.wideLowRead m x) s m false x.toNat := by
  refine ⟨doRegRead m x.toNat s, rfl, fun st h => ?_, fun _ h => by cases h⟩
  have hst := State.access_err_ne_ok h
  simp only [doRegRead, State.regRead, h, if_neg hst]

end

/-- Every command that is one register access is refused as its register port refuses it. -/
theorem refusing_of_portOf {c : Instr} {s : State} {m : Master} {w : Bool} {a : Nat} (h : portOf c = some (m, w, a)) :
    Refusing c s m w a := by
  unfold portOf at h
  split at h
  case h_8 | h_16 | h_17 | h_41 | h_42 =>
    cases h
    exact refusing_of_guardedRead rfl
  case h_39 =>
    split at h
    next hbe =>
      cases h
      subst hbe
      exact refusing_registerWrite
    · cases h
  case h_40 =>
    cases h
    exact refusing_wideLowRead
  case h_45 => cases h
  all_goals
    cases h
    exact refusing_of_guarded rfl

/-! The bus-error log (R319). -/

theorem hostLink_eq_some {m : Master} {link : Bool} (h : hostLink m = some link) : m = if link then .h1 else .h0 := by
  cases m <;> cases h <;> rfl

theorem settle_buserr (s t : State) : (settle s t).hif.buserr = t.hif.buserr := by
  have h : ({ (settle s t).hif with msixPend := t.hif.msixPend } : HifState) = t.hif := settle_part s t .hif
  simpa using congrArg HifState.buserr h

/-- The bits of the word of a log entry: status, link, direction and BAR (Table HIF-12). -/
theorem busErrWord_fields (status : Byte) (link write : Bool) {bar : Nat} (hb : bar < 4) :
    let w := w32 (2 ^ 24 * status.toNat + 2 ^ 23 * b2n link + 2 ^ 22 * b2n write + 2 ^ 20 * bar + 2 ^ 15)
    fieldOf w 24 8 = status.toNat ∧ bitOf w 23 = link ∧ bitOf w 22 = write ∧ fieldOf w 20 2 = bar := by
  have hs := status.isLt
  have hn : 2 ^ 24 * status.toNat + 2 ^ 23 * b2n link + 2 ^ 22 * b2n write + 2 ^ 20 * bar + 2 ^ 15 < 2 ^ 32 := by
    cases link <;> cases write <;> simp [b2n] <;> omega
  simp only [fieldOf, bitOf, w32, BitVec.getLsbD_ofNat, BitVec.toNat_ofNat, Nat.mod_eq_of_lt hn, Nat.testBit,
    Nat.shiftRight_eq_div_pow]
  cases link <;> cases write <;> simp [b2n] <;> omega

section
variable {s : State} {m : Master} {link w : Bool} {bar a : Nat} {status : Byte}

theorem State.accessErr_of_hostLink (h : hostLink m = some link) :
    s.accessErr m w bar a status = s.hostErr link w bar a status := by
  cases m <;> cases h <;> rfl

theorem State.hostErr_buserr : (s.hostErr link w bar a status).hif.buserr = (s.logBusErr link w bar a status).hif.buserr := by
  unfold State.hostErr
  dsimp only
  split_ifs <;> rfl

theorem State.hostErr_reg (r : Nat) : (s.hostErr link w bar a status).reg r = (s.logBusErr link w bar a status).reg r := by
  unfold State.hostErr
  dsimp only
  split_ifs <;> rfl

/-- A refused access of a host link is entered in the log while it has room. -/
theorem State.hostErr_logged (h : s.hif.buserr.length < 16) (hb : bar < 4) : ∃ e,
    (s.hostErr link w bar a status).hif.buserr = s.hif.buserr ++ [e] ∧ e.w1 = w32 a ∧
      fieldOf e.w0 24 8 = status.toNat ∧ bitOf e.w0 23 = link ∧ bitOf e.w0 22 = w ∧ fieldOf e.w0 20 2 = bar := by
  rw [State.hostErr_buserr, State.logBusErr, if_pos h]
  exact ⟨_, rfl, rfl, busErrWord_fields status link w hb⟩

/-- With the log full the drop alone is counted. -/
theorem State.hostErr_dropped (hw : s.storesWf) (h : 16 ≤ s.hif.buserr.length) :
    (s.hostErr link w bar a status).hif.buserr = s.hif.buserr ∧
      (s.hostErr link w bar a status).reg hifBuserrDropCnt = s.reg hifBuserrDropCnt + 1 := by
  rw [State.hostErr_buserr, State.hostErr_reg, State.logBusErr, if_neg (Nat.not_lt.2 h)]
  exact ⟨rfl, s.reg_setReg_same _ _ (State.storesWf_regs hw)⟩

/-- What a host link sees of a refused access: of a read Completer Abort, of a write an AER message if enabled. -/
theorem State.hostErr_answers (h : hostLink m = some link) :
    Sends (if w then if s.hif.aer.getLsbD (b2n link) then [.aerNonFatal m] else [] else [.completerAbort m (w32 a)]) s
      (s.hostErr link w bar a status) := by
  obtain rfl := hostLink_eq_some h
  cases w with
  | true => exact s.hostErr_sends bar a status link
  | false => simp [Sends, State.hostErr, State.logBusErr_out]

/-- What the other masters see of it: the status, with nothing in the log. -/
theorem State.accessErr_answers (h : m = .sup ∨ m = .exp ∨ m = .jtag) :
    Sends [.busError m (w32 a) status] s (s.accessErr m w bar a status) ∧
      (s.accessErr m w bar a status).hif.buserr = s.hif.buserr := by
  obtain rfl | rfl | rfl := h <;> exact ⟨List.prefix_refl _, rfl⟩

end

/-- Settles O8: by the rules of a refused access, whatever command makes it. -/
theorem refusedAccessesHaveOneEffect : Obligations.RefusedAccessesHaveOneEffect := by
  intro c s m w a hw hp
  obtain ⟨u, hc, herr, hsup⟩ := refusing_of_portOf hp
  refine ⟨fun st hst => ?_, fun b hwr hacc => ?_⟩
  · obtain rfl := herr st hst
    refine ends_of_commit hc ⟨framed_settle (s.accessErr_framed w 0 a st m), fun hm => ?_, fun hm => ?_, fun link hl => ?_⟩
    · subst hm
      rw [settle_reg _ _ _ (by decide), s.accessErr_sup_count _ _ _ _ hw]
    · rw [settle_buserr]
      exact ⟨settle_sends (State.accessErr_answers hm).1, (State.accessErr_answers hm).2⟩
    · rw [settle_buserr, settle_reg _ _ _ (by decide), State.accessErr_of_hostLink hl]
      refine ⟨settle_sends (State.hostErr_answers hl), fun hlt => ?_, State.hostErr_dropped hw⟩
      obtain ⟨e, happ, haddr, hst', hlink, hwrite, -⟩ := State.hostErr_logged hlt (by decide : 0 < 4)
      exact ⟨e, happ, haddr, hst', hlink, hwrite⟩
  · obtain rfl := hsup b hwr hacc
    have ha := State.addr_lt_of_supOnly hacc
    exact ends_of_commit hc (rejReg_rejected hw b (by omega))

end Sys2Proof.Machine
end

section
/-! SUPPORT. Reads of registers (O10): which offsets of a block a read answers with something other than the word stored,
and that no register of kind RW, CF or CT is among them. -/

namespace Sys2Proof.Machine

/-! The rows of an offset. -/

theorem RegRow.covers_iff {r : RegRow} {o : Nat} (h : r.covers o = true) : ∃ i < r.cnt, o = r.off + r.stride * i := by
  simp only [RegRow.covers, Bool.and_eq_true, decide_eq_true_eq] at h
  obtain ⟨⟨hle, hmod⟩, hlt⟩ := h
  have := Nat.div_add_mod (o - r.off) r.stride
  exact ⟨_, hlt, by omega⟩

/-- The row of an offset is one of the header's or of the block's own, and covers it. -/
theorem rowAt_mem {b : Blk} {o : Nat} {r : RegRow} (h : rowAt b o = some r) :
    r ∈ rowsHeader b ++ rowsOf b ∧ ∃ i < r.cnt, o = r.off + r.stride * i := by
  unfold rowAt at h
  split at h
  next hf =>
    cases h
    have hc := List.find?_some hf
    exact ⟨List.mem_append_left _ (List.mem_of_find?_eq_some hf), RegRow.covers_iff hc⟩
  · split at h
    · cases h
    · have hc := List.find?_some h
      exact ⟨List.mem_append_right _ (List.mem_of_find?_eq_some h), RegRow.covers_iff hc⟩

/-- The header's offsets that a read answers with no word of the register store. -/
def headerLive (o : Nat) : Bool := [0x10, 0x14, 0x18].contains o

/-- The offsets of a block that a read answers with something other than the word stored. -/
def liveView : Blk → Nat → Bool
  | .glb, o => [0x34, 0x40, 0x44, 0x50].contains o
  | .clk, o => o = 0x100 || o = 0x104
  | .dtm, o => o = 0x20 || (0x100 ≤ o && o < 0x200 && o % 0x40 = 0)
  | .ttc, o => o = 0x24 || (0x100 ≤ o && o < 0x400 && o % 32 = 0x18) ||
      (0x400 ≤ o && [0x04, 0x08, 0x0C, 0x14].contains (o % 32))
  | .hif, o => o = 0x30 || o = 0x3C || 0x100 ≤ o
  | .eth _, o => [0x40, 0x50, 0x304].contains o || (0x80 ≤ o && o < 0x100 && o % 0x10 = 0xC)
  | .swc, o => 0x100 ≤ o && o % 0x20 = 8
  | .bfm, o => [0x20, 0x24, 0x34].contains o
  | .nrg, o => (0x100 ≤ o ∧ o < 0x300 ∧ o % 0x100 = 0x38) || (0x100 ≤ o ∧ o < 0x300 ∧ o % 0x100 = 0x40) ||
      (0x100 ≤ o ∧ o < 0x300 ∧ o % 0x100 = 0x4C)
  | .can _, o => [0x30, 0x44, 0x48, 0x4C, 0x70, 0x78].contains o
  | .psq, o => [0x20, 0x24, 0x30, 0x34, 0x40, 0x44].contains o || 0x3000 ≤ o ||
      (0x1000 ≤ o && [0x08, 0x0C, 0x1C, 0x20, 0x24, 0x30, 0x34, 0x38, 0x3C].contains (o % 0x80))
  | .pec _, o => [0x20, 0x24, 0x38, 0x64, 0x68].contains o
  | .mbx, o => [0x28, 0x2C, 0x38, 0x3C].contains o || 0x1000 ≤ o
  | .sec, o => o = 0x20 || (0x40 ≤ o && o < 0x80)
  | .flt, o => [0x2C, 0x30, 0x34, 0x38, 0x40, 0x64, 0x68, 0x6C].contains o
  | _, _ => false

section
variable {s : State} {o : Nat}

theorem State.ttcUnitRead_of_not_live {who : Nat} (ho : 0x100 ≤ o) (h : liveView .ttc o = false) :
    s.ttcUnitRead who o = (s.reg (0x30000 + o), s) := by
  simp only [liveView, Bool.or_eq_false_iff, Bool.and_eq_false_iff, decide_eq_false_iff_not] at h
  obtain ⟨⟨-, hctrl⟩, hcap⟩ := h
  unfold State.ttcUnitRead
  split
  next hlt =>
    have hc : o % 32 ≠ 0x18 := by omega
    simp [hc]
  next hge =>
    have hm : [0x04, 0x08, 0x0C, 0x14].contains (o % 32) = false := by simpa [Nat.not_lt.1 hge] using hcap
    split <;> simp_all

theorem State.psqChanRead_of_not_live (ho : 0x1000 ≤ o) (h : liveView .psq o = false) :
    s.psqChanRead (Fin.ofNat 64 ((o - 0x1000) / 0x80)) (o % 0x80) = (s.reg (0xF0000 + o), s) := by
  simp only [liveView, Bool.or_eq_false_iff, decide_eq_false_iff_not] at h
  obtain ⟨⟨-, hlt⟩, hchan⟩ := h
  have hm : [0x08, 0x0C, 0x1C, 0x20, 0x24, 0x30, 0x34, 0x38, 0x3C].contains (o % 0x80) = false := by
    simpa [ho] using hchan
  have addr : psqChCfg (Fin.ofNat 64 ((o - 0x1000) / 0x80)).val + o % 0x80 = 0xF0000 + o := by
    simp only [psqChCfg, Fin.val_ofNat]
    omega
  unfold State.psqChanRead
  split <;> simp_all

theorem State.viewReg_of_not_live {m : Master} {b : Blk} (h : liveView b o = false) :
    s.viewReg m b o = (some (s.reg (blkBase b + o)), s) := by
  cases b with
  | ttc =>
    by_cases ho : 0x100 ≤ o
    · have hc := s.ttcUnitRead_of_not_live (who := masterIdx m) ho h
      have hne : o ≠ 0x24 := by omega
      simp only [State.viewReg, hc, blkBase, if_neg hne, if_pos ho]
    · simp_all [liveView, State.viewReg, blkBase]
  | psq =>
    by_cases ho : 0x1000 ≤ o
    · have hc := s.psqChanRead_of_not_live ho h
      have hcmd : o ≠ 0x20 ∧ o ≠ 0x24 := by omega
      have hbits : ¬(o = 0x30 ∨ o = 0x34) ∧ ¬(o = 0x40 ∨ o = 0x44) := by omega
      simp only [State.viewReg, hc, blkBase, if_neg hcmd.1, if_neg hcmd.2, if_neg hbits.1, if_neg hbits.2, if_pos ho]
    · simp_all [liveView, State.viewReg, blkBase]
  | nrg =>
    simp only [liveView, Bool.or_eq_false_iff, decide_eq_false_iff_not] at h
    simp only [State.viewReg, blkBase, if_neg h.1.1, if_neg h.1.2, if_neg h.2]
  | _ => simp_all [liveView, State.viewReg, blkBase]

end

/-- Whether reads return the word stored in a register of the kind. -/
def storedKind (k : RKind) : Bool := k = .rw || k = .cf || k = .ct

/-- What a row says of each of its offsets: one of a stored kind has no live view, a shadow register stands above the
header. -/
def rowReads (b : Blk) (r : RegRow) (o : Nat) : Bool :=
  (!storedKind r.kind || (!liveView b o && !headerLive o)) && (r.kind ≠ .sh || 0x20 ≤ o)

theorem rowReads_of_mem (b : Blk) : ∀ r ∈ rowsHeader b ++ rowsOf b, ∀ i < r.cnt,
    rowReads b r (r.off + r.stride * i) = true := by
  cases b with
  | eth n => revert n; decide +kernel
  | can n => revert n; decide +kernel
  | pec n => revert n; decide +kernel
  | _ => decide +kernel

theorem rowReads_of_rowAt {b : Blk} {o : Nat} {r : RegRow} (h : rowAt b o = some r) :
    (storedKind r.kind = true → liveView b o = false ∧ headerLive o = false) ∧ (r.kind = .sh → 0x20 ≤ o) := by
  obtain ⟨hmem, i, hi, rfl⟩ := rowAt_mem h
  have hr := rowReads_of_mem b r hmem i hi
  simp only [rowReads, Bool.and_eq_true, Bool.or_eq_true, Bool.not_eq_true', decide_eq_true_eq] at hr
  exact ⟨fun hk => hr.1.resolve_left (by simp [hk]), fun hk => hr.2.resolve_left (by simp [hk])⟩

section
variable {s : State} {m : Master} {b : Blk} {o : Nat} {row : RegRow}

theorem rowAt_of_regAt {a : Nat} (h : regAt a = some (b, o, row)) : rowAt b o = some row := by
  unfold regAt at h
  split at h
  · cases h
  · split at h
    · cases h
    next hr =>
      obtain ⟨rfl, rfl, rfl⟩ := by simpa using h
      exact hr

/-! What a read returns and changes. -/

theorem State.latchAll_regs (s : State) (m : Master) (l : List (Nat × Word)) : (s.latchAll m l).regs = s.regs :=
  List.foldlRecOn (motive := fun t : State => t.regs = s.regs) _ _ rfl fun _ ht _ _ => ht

theorem State.latchAll_out (s : State) (m : Master) (l : List (Nat × Word)) : (s.latchAll m l).out = s.out :=
  List.foldlRecOn (motive := fun t : State => t.out = s.out) _ _ rfl fun _ ht _ _ => ht

theorem Framed.latchAll {ps : List Part} {rs ts : List Nat} (hl : .latches ∈ ps) (l : List (Nat × Word)) :
    Framed ps rs ts s (s.latchAll m l) := by
  refine List.foldlRecOn (motive := Framed ps rs ts s) _ _ (Framed.refl _ _ _ s) fun t ht p _ => ?_
  exact ht.update hl (fun q hq => by cases q <;> simp_all [Part.same, State.latch, State.latchFor]) rfl rfl rfl

/-- A register of a stored kind reads as the word stored, with the high words of a wide value latched (R47). -/
theorem State.readReg_stored (hr : rowAt b o = some row) (h0 : o ≠ 0) (h4 : o ≠ 4) (hk : storedKind row.kind = true) :
    s.readReg m b o row = (some (s.reg (blkBase b + o)), s.latchAll m (s.wideWords b o)) := by
  obtain ⟨hlive, hhead⟩ := (rowReads_of_rowAt hr).1 hk
  have hsh : row.kind ≠ .sh := by
    rintro e
    simp [storedKind, e] at hk
  simp only [headerLive, List.contains_eq_mem, List.mem_cons, List.not_mem_nil, or_false, decide_eq_false_iff_not,
    not_or] at hhead
  simp only [State.readReg, if_neg h0, if_neg h4, if_neg hhead.1, if_neg hhead.2.1, if_neg hhead.2.2, if_neg hsh,
    State.viewReg_of_not_live hlive, State.reg_of_regs_eq (State.latchAll_regs ..)]

/-- A shadow register reads as the word latched for its master. -/
theorem State.readReg_shadow (hr : rowAt b o = some row) (hk : row.kind = .sh) :
    s.readReg m b o row = (some (s.latched m (blkBase b + o)), s) := by
  have ho := (rowReads_of_rowAt hr).2 hk
  have hne : o ≠ 0 ∧ o ≠ 4 ∧ o ≠ 0x10 ∧ o ≠ 0x14 ∧ o ≠ 0x18 := by omega
  simp only [State.readReg, if_neg hne.1, if_neg hne.2.1, if_neg hne.2.2.1, if_neg hne.2.2.2.1, if_neg hne.2.2.2.2,
    if_pos hk]

/-- A read that is let through sends its master the word. -/
theorem wideLowRead_ends {a v : Word} {t : State} {ps : List Part} (hacc : s.access m false a.toNat = .ok b o row)
    (hr : s.readReg m b o row = (some v, t)) (hf : Framed ps [] [] s t) (ho : t.out = s.out) :
    Ends (.wideLowRead m a) s fun u => Sends [.readData m a v] s u ∧ Framed ps [] [] s u := by
  have hdo : doRegRead m a.toNat s = t.emit (.readData m a v) := by
    simp [doRegRead, State.regRead, hacc, hr, w32]
  refine ends_of_commit (u := doRegRead m a.toNat s) rfl ⟨settle_sends ?_, framed_settle ?_⟩
  · simp [hdo, Sends, ho]
  · rw [hdo]
    exact hf.emit _

end

/-! Accesses of the rows RESERVED_ACCESS and GATED_ISLAND_ACCESS (R39, R40). -/

section
variable {s : State} {m : Master} {w : Bool} {bar : BitVec 2} {a : Word}

/-- An access that is refused is answered as its master sees it, and logged if it is a host link's. -/
theorem refused_ends {c : Instr} {status : Byte} {k : Nat} (hc : exec c s = commit s (s.accessErr m w k a.toNat status))
    (hk : k < 4) : Ends c s fun t =>
      (m = .sup ∨ m = .exp ∨ m = .jtag → Sends [.busError m a status] s t) ∧
      (∀ link, hostLink m = some link →
        Sends (if w then if s.hif.aer.getLsbD (b2n link) then [.aerNonFatal m] else [] else [.completerAbort m a]) s t ∧
        (s.hif.buserr.length < 16 → ∃ e, t.hif.buserr = s.hif.buserr ++ [e] ∧ fieldOf e.w0 24 8 = status.toNat ∧
          fieldOf e.w0 20 2 = k)) ∧
      Framed [.hif] [glbSupBuserrCnt, hifBuserrDropCnt] [] s t := by
  have word : w32 a.toNat = a := by simp [w32]
  refine ends_of_commit hc ⟨fun hm => ?_, fun link hl => ?_, framed_settle (s.accessErr_framed w k a.toNat status m)⟩
  · have ans := (State.accessErr_answers (s := s) (w := w) (bar := k) (a := a.toNat) (status := status) hm).1
    rw [word] at ans
    exact settle_sends ans
  · rw [settle_buserr, State.accessErr_of_hostLink hl]
    have ans := State.hostErr_answers (s := s) (w := w) (bar := k) (a := a.toNat) (status := status) hl
    rw [word] at ans
    refine ⟨settle_sends ans, fun hlt => ?_⟩
    obtain ⟨e, happ, -, hst, -, -, hbar⟩ := State.hostErr_logged hlt hk
    exact ⟨e, happ, hst, hbar⟩

theorem reservedAccess_idle (h : s.reservedAt m bar a.toNat = false)
    (hb : bar = 0 ∨ bar = 3 ∨ hostLink m = none ∨ w = true) :
    Idle (.reservedAccess m w bar a true) s := by
  have hdo : doReservedAccess m w bar a true s = s := by
    unfold doReservedAccess
    rw [h]
    cases hl : hostLink m with
    | none => rfl
    | some l => obtain rfl | rfl | h' | rfl := hb <;> simp_all
  exact (congrArg (commit s) hdo).trans (commit_self s)

/-- A whole read of a word that BAR2 or BAR4 holds. -/
theorem exec_barRead {link : Bool} (hl : hostLink m = some link) (hb : bar ≠ 0) (hb3 : bar ≠ 3)
    (h : s.reservedAt m bar a.toNat = false) (hup : s.linkUp link = true) :
    exec (.reservedAccess m false bar a true) s = commit s (s.barRead link bar a.toNat) := by
  have hdo : doReservedAccess m false bar a true s = s.barRead link bar a.toNat := by
    have hn : ¬(bar = 0 ∨ bar = 3) := fun e => e.elim hb hb3
    simpa [doReservedAccess, h, hl, hup] using fun e => absurd e hn
  exact congrArg (commit s) hdo

theorem ends_of_emit {c : Instr} {o : Output} (hc : exec c s = commit s (s.emit o)) :
    Ends c s fun t => Sends [o] s t ∧ Framed [] [] [] s t :=
  ends_of_commit hc ⟨settle_sends (List.prefix_refl _), framed_settle ((Framed.refl _ _ _ s).emit o)⟩

theorem reservedAccess_refused {whole : Bool} (h : s.reservedAt m bar a.toNat = true ∨
    (whole = false ∧ (bar = 0 ∨ (bar ≠ 3 ∧ hostLink m ≠ none)))) :
    exec (.reservedAccess m w bar a whole) s = commit s (s.accessErr m w bar.toNat a.toNat stBusError) := by
  have hdo : doReservedAccess m w bar a whole s = s.accessErr m w bar.toNat a.toNat stBusError := by
    refine if_pos ?_
    obtain h | ⟨rfl, rfl | ⟨h3, hm⟩⟩ := h
    · simp [h]
    · simp
    · simpa [Option.isSome_iff_ne_none.2 hm] using .inr (.inr h3)
  exact congrArg (commit s) hdo

theorem gatedAccess_idle (h : s.access m w a.toNat ≠ .err stIslandOff) : Idle (.gatedIslandAccess m w a) s := by
  have hdo : doGatedAccess m w a s = s := by
    unfold doGatedAccess
    split
    next st hst => exact if_neg (by rintro rfl; exact h hst)
    · rfl
  exact (congrArg (commit s) hdo).trans (commit_self s)

theorem gatedAccess_refused (h : s.access m w a.toNat = .err stIslandOff) :
    exec (.gatedIslandAccess m w a) s = commit s (s.accessErr m w 0 a.toNat stIslandOff) := by
  have hdo : doGatedAccess m w a s = s.accessErr m w 0 a.toNat stIslandOff := by simp [doGatedAccess, h]
  exact congrArg (commit s) hdo

end

/-- Settles O10: reads by the rows of their offsets, refused accesses by the rules of O8. -/
theorem registerReadsReturnTheStoredWord : Obligations.RegisterReadsReturnTheStoredWord := by
  intro s m a w bar _
  refine ⟨fun b o row hacc => ?_, fun h hb => ?_, fun h hw => ?_, fun link hl hb hw h hup => ?_,
    fun link v hl hb hw h hup hv => ?_, fun whole h => ?_, gatedAccess_idle, fun h => ?_⟩
  · have hr := rowAt_of_regAt (State.regAt_of_access hacc)
    refine ⟨fun h0 => ?_, fun h4 => ?_, fun h0 h4 hk => ?_, fun hk => ?_⟩
    · subst h0
      have hread : s.readReg m b 0 row = (some (if s.en b then 1 else 0), s) := by
        cases h : s.en b <;> simp [State.readReg, h, b2n, w32]
      exact wideLowRead_ends hacc hread (Framed.refl _ _ _ s) rfl
    · subst h4
      exact wideLowRead_ends hacc rfl (Framed.refl _ _ _ s) rfl
    · have hst : storedKind row.kind = true := by simpa [storedKind, or_assoc] using hk
      exact wideLowRead_ends hacc (State.readReg_stored hr h0 h4 hst) (Framed.latchAll (by simp) _) (State.latchAll_out ..)
    · exact wideLowRead_ends hacc (State.readReg_shadow hr hk) (Framed.refl _ _ _ s) rfl
  · exact reservedAccess_idle h (by tauto)
  · exact reservedAccess_idle h (by tauto)
  · subst hb hw
    have hread : s.barRead link 1 a.toNat = s.emit (.barData link 1 a
        (s.doorbellRead (Fin.ofNat 256 (a.toNat / 4096)) (Fin.ofNat 4 (a.toNat / 4)))) := by simp [State.barRead, w32]
    exact ends_of_emit (hread ▸ exec_barRead hl (by decide) (by decide) h hup)
  · subst hb hw
    have hread : s.barRead link 2 a.toNat = s.emit (.barData link 2 a v) := by simp [State.barRead, w32, hv]
    exact ends_of_emit (hread ▸ exec_barRead hl (by decide) (by decide) h hup)
  · exact refused_ends (reservedAccess_refused h) bar.isLt
  · obtain ⟨t, ht, hbus, hhost, hframe⟩ := refused_ends (gatedAccess_refused h) (by decide)
    refine ⟨t, ht, hbus, fun link hl => ⟨(hhost link hl).1, fun hlt => ?_⟩, hframe⟩
    obtain ⟨e, happ, hst, -⟩ := (hhost link hl).2 hlt
    exact ⟨e, happ, hst⟩

end Sys2Proof.Machine
end

section
/-! SUPPORT. Datum's increments and offset requests (R48, R57, R62): what a write of INC_FRAC or ADJ_FRAC leaves, and what
the tick that applies a request does to its domain. -/

namespace Sys2Proof.Machine

/-! INC_FRAC (R48, R57). -/

/-- R57's clamp acts on the sum exactly where the sum lies outside the range. -/
theorem incClamped_iff (inc : BitVec 64) (fofs : Int) : incClamped inc fofs = true ↔
    ¬ (0x1FFBE76C9 ≤ (inc.toNat : Int) + fofs ∧ (inc.toNat : Int) + fofs ≤ 0x200418937) := by
  unfold incClamped incEff clampInt incMin incMax
  rw [decide_eq_true_iff]
  split_ifs <;> omega

section
variable {s : State} {m : Master} {d : Fin 4} {frac : Word}

theorem exec_incWrite (ho : Open s m true (dtmDIncFrac d.val)) :
    exec (.incWrite m d frac) s = commit s (if s.shadowSteered then s else
      let inc : BitVec 64 := s.reg (dtmDIncNs d.val) ++ frac
      let s1 := (s.setDom d { s.dom[d] with inc := inc }).setReg (dtmDIncFrac d.val) frac
      if incClamped inc (s.fofs d) then s1.count dtmIncClampCnt else s1) :=
  congrArg (commit s) (State.guarded_of_open ho _)

theorem incWrite_ends (hw : s.storesWf) (ho : Open s m true (dtmDIncFrac d.val)) (hs : s.shadowSteered = false) :
    Ends (.incWrite m d frac) s fun t =>
      t.dom[d] = { s.dom[d] with inc := s.reg (dtmDIncNs d.val) ++ frac } ∧
      (∀ e : Fin 4, e ≠ d → t.dom[e] = s.dom[e]) ∧ t.reg (dtmDIncFrac d.val) = frac ∧
      t.reg dtmIncClampCnt = s.reg dtmIncClampCnt +
        (let v : Int := ((s.reg (dtmDIncNs d.val) ++ frac).toNat : Int) + s.fofs d
         if 0x1FFBE76C9 ≤ v ∧ v ≤ 0x200418937 then 0 else 1) ∧
      Framed [.dom] [dtmDIncFrac d.val, dtmIncClampCnt] [] s t := by
  obtain ⟨x, hx⟩ : ∃ x, x = { s.dom[d] with inc := s.reg (dtmDIncNs d.val) ++ frac } := ⟨_, rfl⟩
  obtain ⟨s1, hs1⟩ : ∃ s1, s1 = (s.setDom d x).setReg (dtmDIncFrac d.val) frac := ⟨_, rfl⟩
  have base : amWf regReset (s.setDom d x).regs := State.storesWf_regs hw
  have wf : amWf regReset s1.regs := hs1 ▸ State.regsWf_setReg base _
  have apart : dtmIncClampCnt ≠ dtmDIncFrac d.val := by simp only [dtmIncClampCnt, dtmDIncFrac]; omega
  have dom : s1.dom = vset s.dom d x := by rw [hs1]; rfl
  have stored : s1.reg (dtmDIncFrac d.val) = frac := by rw [hs1]; exact State.reg_setReg_same _ _ _ base
  have cnt : s1.reg dtmIncClampCnt = s.reg dtmIncClampCnt := by
    rw [hs1]; exact State.reg_setReg_other _ _ _ _ apart
  have framed : Framed [.dom] [dtmDIncFrac d.val, dtmIncClampCnt] [] s s1 := by
    rw [hs1]; exact ((Framed.refl _ _ _ s).setDom (by simp) d x).setReg _ (by simp)
  have same : x = (vset s.dom d x)[d] := (getElem_vset_same _ _ _).symm
  have other (e : Fin 4) (he : e ≠ d) : (vset s.dom d x)[e] = s.dom[e] := getElem_vset_other _ _ he
  rw [← hx]
  have out : exec (.incWrite m d frac) s =
      commit s (if incClamped (s.reg (dtmDIncNs d.val) ++ frac) (s.fofs d) then s1.count dtmIncClampCnt else s1) := by
    rw [exec_incWrite ho, hs, hs1, hx]
    rfl
  have hi : dtmDIncFrac d.val ≠ glbIntCnt := by simp only [glbIntCnt, dtmDIncFrac]; omega
  by_cases hc : incClamped (s.reg (dtmDIncNs d.val) ++ frac) (s.fofs d) = true
  · rw [if_pos hc] at out
    refine ends_of_commit out ⟨?_, fun e he => ?_, ?_, ?_, framed_settle (framed.count (by simp))⟩
    · rw [settle_dom, State.count, State.setReg_dom, dom, ← same]
    · rw [settle_dom, State.count, State.setReg_dom, dom, other e he]
    · rw [settle_reg _ _ _ hi, State.count, State.reg_setReg_other _ _ _ _ apart.symm, stored]
    · rw [settle_reg _ _ _ (by decide), State.count, State.reg_setReg_same _ _ _ wf, cnt]
      dsimp only
      rw [if_neg ((incClamped_iff _ _).1 hc)]
  · rw [if_neg hc] at out
    refine ends_of_commit out ⟨?_, fun e he => ?_, ?_, ?_, framed_settle framed⟩
    · rw [settle_dom, dom, ← same]
    · rw [settle_dom, dom, other e he]
    · rw [settle_reg _ _ _ hi, stored]
    · rw [settle_reg _ _ _ (by decide), cnt]
      dsimp only
      rw [if_pos (not_not.1 (mt (incClamped_iff _ _).2 hc))]
      exact (BitVec.add_zero _).symm

/-! ADJ_FRAC (R62). -/

/-- The request that a write of ADJ leaves: one issued or replaced, or, for ADJ = 0, none but one that awaits its tick. -/
def adjWritten (adj : BitVec 64) (r : AdjReq) : AdjReq :=
  if adj = 0 then (match r with | .awaiting => .awaiting | _ => .none)
  else (match r with | .held => .held | _ => .awaiting)

theorem adjWritten_ne_none {adj : BitVec 64} (h : adj ≠ 0) (r : AdjReq) : adjWritten adj r ≠ .none := by
  unfold adjWritten
  rw [if_neg h]
  cases r <;> decide

theorem adjWritten_zero {r : AdjReq} (h : r ≠ .awaiting) : adjWritten 0 r = .none := by
  unfold adjWritten
  cases r
  case awaiting => exact absurd rfl h
  all_goals rfl

theorem exec_adjRequest (ho : Open s m true (dtmDAdjFrac d.val)) :
    exec (.adjRequest m d frac) s = commit s (if s.shadowSteered then s else
      let adj : BitVec 64 := s.reg (dtmDAdjNs d.val) ++ frac
      (s.setDom d { s.dom[d] with adj := adj, req := adjWritten adj s.dom[d].req }).setReg (dtmDAdjFrac d.val) frac) :=
  congrArg (commit s) (State.guarded_of_open ho _)

theorem adjRequest_ends (hw : s.storesWf) (ho : Open s m true (dtmDAdjFrac d.val)) (hs : s.shadowSteered = false) :
    Ends (.adjRequest m d frac) s fun t =>
      t.dom[d].adj = s.reg (dtmDAdjNs d.val) ++ frac ∧ t.reg (dtmDAdjFrac d.val) = frac ∧
      (t.dom[d].adj ≠ 0 → t.dom[d].req ≠ .none) ∧
      (t.dom[d].adj = 0 → s.dom[d].req ≠ .awaiting → t.dom[d].req = .none) ∧
      t.dom[d] = { s.dom[d] with adj := t.dom[d].adj, req := t.dom[d].req } ∧
      (∀ e : Fin 4, e ≠ d → t.dom[e] = s.dom[e]) ∧ Framed [.dom] [dtmDAdjFrac d.val] [] s t := by
  obtain ⟨adj, hadj⟩ : ∃ adj : BitVec 64, adj = s.reg (dtmDAdjNs d.val) ++ frac := ⟨_, rfl⟩
  obtain ⟨x, hx⟩ : ∃ x, x = { s.dom[d] with adj := adj, req := adjWritten adj s.dom[d].req } := ⟨_, rfl⟩
  have out : exec (.adjRequest m d frac) s = commit s ((s.setDom d x).setReg (dtmDAdjFrac d.val) frac) := by
    rw [exec_adjRequest ho, hs, hx, hadj]
    rfl
  refine ends_of_commit out ?_
  have dom : (settle s ((s.setDom d x).setReg (dtmDAdjFrac d.val) frac)).dom = vset s.dom d x :=
    (settle_dom _ _).trans rfl
  have same : (vset s.dom d x)[d] = x := getElem_vset_same _ _ _
  rw [dom, same, ← hadj]
  refine ⟨by rw [hx], ?_, ?_, ?_, by rw [hx], fun e he => getElem_vset_other _ _ he, ?_⟩
  · rw [settle_reg _ _ _ (by simp only [glbIntCnt, dtmDAdjFrac]; omega)]
    exact State.reg_setReg_same _ _ _ (State.storesWf_regs hw)
  · rw [hx]
    exact fun h => adjWritten_ne_none h _
  · rw [hx]
    intro h hr
    change adj = 0 at h
    rw [h]
    exact adjWritten_zero hr
  · exact framed_settle (((Framed.refl _ _ _ s).setDom (by simp) d x).setReg _ (by simp))

end

/-! The tick that applies a request (R57, R62). -/

/-- The registers of a domain's ADJ and the count of its applied requests. -/
def adjRegs (e : Nat) : List Nat := [dtmDAdjNs e, dtmDAdjFrac e, dtmDAdjCnt e]

/-- Two registers of a domain at different offsets are apart. -/
theorem adjReg_ne {a b : Nat} (k : Nat) (h : a ≠ b) : a + k ≠ b + k := fun hk => h (Nat.add_right_cancel hk)

/-- The registers that a tick may change. -/
def tickRegs : List Nat := ttuTimeRegs ++ (List.range 4).flatMap adjRegs

theorem adjRegs_subset_tickRegs (e : Fin 4) : ∀ a ∈ adjRegs e.val ++ ttuTimeRegs, a ∈ tickRegs := by
  intro a ha
  rcases List.mem_append.1 ha with ha | ha
  · exact List.mem_append_right _ (List.mem_flatMap.2 ⟨e.val, List.mem_range.2 e.isLt, ha⟩)
  · exact List.mem_append_left _ ha

/-- ADJ's registers of one domain are neither another's nor a trigger unit's. -/
theorem adjRegs_apart {d e : Fin 4} (h : d ≠ e) : ∀ a ∈ adjRegs d.val, a ∉ adjRegs e.val ++ ttuTimeRegs := by
  intro a ha hm
  have ne : d.val ≠ e.val := fun hv => h (Fin.ext hv)
  simp only [adjRegs, dtmDAdjNs, dtmDAdjFrac, dtmDAdjCnt, List.mem_cons, List.not_mem_nil, or_false] at ha
  rcases List.mem_append.1 hm with hm | hm
  · simp only [adjRegs, dtmDAdjNs, dtmDAdjFrac, dtmDAdjCnt, List.mem_cons, List.not_mem_nil, or_false] at hm
    omega
  · have := ttuTimeRegs_bounds a hm
    omega

theorem adjRegs_ne_glbIntCnt {d : Fin 4} : ∀ a ∈ adjRegs d.val, a ≠ glbIntCnt := by
  intro a ha
  simp only [adjRegs, dtmDAdjNs, dtmDAdjFrac, dtmDAdjCnt, List.mem_cons, List.not_mem_nil, or_false] at ha
  simp only [glbIntCnt]
  omega

/-- ADJ of a domain, its request, its registers and the rest of the domain are as they were. -/
structure AdjKept (d : Fin 4) (s t : State) : Prop where
  dom : t.dom[d] = s.dom[d]
  regs : ∀ a ∈ adjRegs d.val, t.reg a = s.reg a

/-- A request of a domain has been applied: ADJ reads 0, no request stands, and ADJ_CNT has counted. -/
structure AdjApplied (d : Fin 4) (s t : State) : Prop where
  dom : t.dom[d] = { s.dom[d] with adj := 0, req := .none }
  ns : t.reg (dtmDAdjNs d.val) = 0
  frac : t.reg (dtmDAdjFrac d.val) = 0
  cnt : t.reg (dtmDAdjCnt d.val) = s.reg (dtmDAdjCnt d.val) + 1

section
variable {d : Fin 4} {s t u : State}

theorem adjRegs_mem : dtmDAdjNs d.val ∈ adjRegs d.val ∧ dtmDAdjFrac d.val ∈ adjRegs d.val ∧
    dtmDAdjCnt d.val ∈ adjRegs d.val := by simp [adjRegs]

theorem AdjKept.applied (h : AdjKept d s t) (ha : AdjApplied d t u) : AdjApplied d s u :=
  ⟨ha.dom.trans (by rw [h.dom]), ha.ns, ha.frac, ha.cnt.trans (by rw [h.regs _ adjRegs_mem.2.2])⟩

theorem AdjApplied.kept (ha : AdjApplied d s t) (h : AdjKept d t u) : AdjApplied d s u :=
  ⟨h.dom.trans ha.dom, (h.regs _ adjRegs_mem.1).trans ha.ns, (h.regs _ adjRegs_mem.2.1).trans ha.frac,
    (h.regs _ adjRegs_mem.2.2).trans ha.cnt⟩

end

section
variable (s : State) (applied : Bool) (d e : Fin 4)

theorem State.clearAdj_framed : Framed [.dom] (adjRegs d.val) [] s (s.clearAdj d) :=
  (((Framed.refl _ _ _ s).setDom (by simp) d _).setReg _ adjRegs_mem.2.1).setReg _ adjRegs_mem.1

theorem State.afterTick_framed :
    Framed [.dom, .ttu] (adjRegs e.val ++ ttuTimeRegs) [] s (s.afterTick applied e) := by
  unfold State.afterTick
  split_ifs
  · exact (((s.clearAdj_framed e).mono (by simp) (by simp) (by simp)).count
      (List.mem_append_left _ adjRegs_mem.2.2)).trans ((State.recheck_framed _ e).mono (by simp) (by simp) (by simp))
  · exact (Framed.refl _ _ _ s).setDom (by simp) e _
  · exact Framed.refl _ _ _ s

theorem State.afterTick_regsWf {s : State} (hr : amWf regReset s.regs) : amWf regReset (s.afterTick applied e).regs := by
  unfold State.afterTick
  split_ifs
  · exact State.recheck_regsWf (State.regsWf_count (State.regsWf_setReg (State.regsWf_setReg
      (s := s.setDom e _) hr _) _) _) e
  · exact hr
  · exact hr

/-- The re-check of the trigger units leaves the domains. -/
theorem State.recheck_dom : (s.recheck e).dom = s.dom := (s.recheck_framed e).parts .dom (by decide)

theorem State.afterTick_dom_other (h : d ≠ e) : (s.afterTick applied e).dom[d] = s.dom[d] := by
  unfold State.afterTick
  split_ifs
  · exact (congrArg (·[d]) (State.recheck_dom _ e)).trans (getElem_vset_other _ _ h)
  · exact getElem_vset_other _ _ h
  · rfl

/-- The tick of another domain leaves this one's ADJ. -/
theorem State.afterTick_kept (h : d ≠ e) : AdjKept d s (s.afterTick applied e) :=
  ⟨s.afterTick_dom_other applied d e h, fun a ha =>
    (s.afterTick_framed applied e).regs a (adjRegs_apart h a ha) (adjRegs_ne_glbIntCnt a ha)⟩

theorem State.afterTick_applied {s : State} (hr : amWf regReset s.regs) : AdjApplied d s (s.afterTick true d) := by
  have domWf : amWf regReset (s.setDom d { s.dom[d] with adj := 0, req := .none }).regs := hr
  have fracWf := State.regsWf_setReg (a := dtmDAdjFrac d.val) domWf 0
  have clearWf : amWf regReset (s.clearAdj d).regs := State.regsWf_setReg fracWf _
  have rechecked (u : State) (a : Nat) (ha : a ∈ adjRegs d.val) : (u.recheck d).reg a = u.reg a := by
    refine (u.recheck_framed d).regs a (fun hm => ?_) (adjRegs_ne_glbIntCnt a ha)
    have := ttuTimeRegs_bounds a hm
    simp only [adjRegs, dtmDAdjNs, dtmDAdjFrac, dtmDAdjCnt, List.mem_cons, List.not_mem_nil, or_false] at ha
    omega
  obtain ⟨memNs, memFrac, memCnt⟩ := adjRegs_mem (d := d)
  have eq : s.afterTick true d = ((s.clearAdj d).count (dtmDAdjCnt d.val)).recheck d := if_pos rfl
  rw [eq]
  refine ⟨?_, ?_, ?_, ?_⟩
  · exact (congrArg (·[d]) (State.recheck_dom _ d)).trans (getElem_vset_same _ _ _)
  · rw [rechecked _ _ memNs, State.count, State.reg_setReg_other _ _ _ _ (adjReg_ne _ (by decide))]
    exact State.reg_setReg_same _ _ _ fracWf
  · rw [rechecked _ _ memFrac, State.count, State.reg_setReg_other _ _ _ _ (adjReg_ne _ (by decide)), State.clearAdj,
      State.reg_setReg_other _ _ _ _ (adjReg_ne _ (by decide))]
    exact State.reg_setReg_same _ _ _ domWf
  · rw [rechecked _ _ memCnt, State.count, State.reg_setReg_same _ _ _ clearWf, State.clearAdj,
      State.reg_setReg_other _ _ _ _ (adjReg_ne _ (by decide)), State.reg_setReg_other _ _ _ _ (adjReg_ne _ (by decide))]
    rfl

end

/-- What the tick makes of the four domains' requests. -/
def State.afterTicks (s : State) (due : Fin 4 → Bool) : State :=
  (((s.afterTick (due 0) 0).afterTick (due 1) 1).afterTick (due 2) 2).afterTick (due 3) 3

section
variable {s : State} (due : Fin 4 → Bool)

theorem State.afterTicks_framed : Framed [.dom, .ttu] tickRegs [] s (s.afterTicks due) := by
  have step (t : State) (e : Fin 4) := (t.afterTick_framed (due e) e).mono (ps' := [.dom, .ttu]) (rs' := tickRegs)
    (ts' := []) (fun _ h => h) (adjRegs_subset_tickRegs e) (fun _ h => h)
  exact (((step s 0).trans (step _ 1)).trans (step _ 2)).trans (step _ 3)

theorem State.afterTicks_applied (hr : amWf regReset s.regs) {d : Fin 4} (h : due d = true) :
    AdjApplied d s (s.afterTicks due) := by
  have kept (t : State) (e : Fin 4) (he : d ≠ e) := t.afterTick_kept (due e) d e he
  have wf (t : State) (e : Fin 4) (ht : amWf regReset t.regs) := State.afterTick_regsWf (due e) e ht
  have own (t : State) (ht : amWf regReset t.regs) : AdjApplied d t (t.afterTick (due d) d) := by
    rw [h]
    exact State.afterTick_applied d ht
  have wf1 := wf s 0 hr
  have wf2 := wf _ 1 wf1
  have cases : d = 0 ∨ d = 1 ∨ d = 2 ∨ d = 3 := by omega
  rcases cases with rfl | rfl | rfl | rfl
  · exact (((own _ hr).kept (kept _ 1 (by decide))).kept (kept _ 2 (by decide))).kept (kept _ 3 (by decide))
  · exact (((kept _ 0 (by decide)).applied (own _ wf1)).kept (kept _ 2 (by decide))).kept (kept _ 3 (by decide))
  · exact (kept _ 0 (by decide)).applied (((kept _ 1 (by decide)).applied (own _ wf2)).kept (kept _ 3 (by decide)))
  · exact (kept _ 0 (by decide)).applied ((kept _ 1 (by decide)).applied
      ((kept _ 2 (by decide)).applied (own _ (wf _ 2 wf2))))

end

/-- What a domain makes of its time on a tick with no step: nothing, or the request that is due. -/
def State.adjUpd (s : State) (d : Fin 4) : Option (DTime → DTime) :=
  if s.adjDue d then some (fun t => dtAdd t (s.incEff d + sgn s.dom[d].adj)) else none

/-- Every domain after a tick with no step, before its request is settled. -/
def State.tickedDoms (s : State) : Vector Domain 4 :=
  #v[s.tickDom 0 (s.adjUpd 0), s.tickDom 1 (s.adjUpd 1), s.tickDom 2 (s.adjUpd 2), s.tickDom 3 (s.adjUpd 3)]

theorem State.tickedDoms_get (s : State) (d : Fin 4) : s.tickedDoms[d] = s.tickDom d (s.adjUpd d) := by
  have cases : d = 0 ∨ d = 1 ∨ d = 2 ∨ d = 3 := by omega
  rcases cases with rfl | rfl | rfl | rfl <;> rfl

theorem State.plainTick_of_en {s : State} (h : s.en .dtm = true) :
    s.plainTick = ((({ s with dom := s.tickedDoms } : State).tickClock).afterTicks s.adjDue).latchSnaps := by
  simp only [State.plainTick, State.dtmTick, h, Bool.not_true, Bool.false_eq_true, if_false, Option.isNone_none,
    Bool.true_and, State.tickedDoms, State.afterTicks, State.adjUpd]

theorem State.tickDom_due {s : State} {d : Fin 4} (hd : s.adjDue d = true) (hp : s.power ≠ .p2) :
    let x := s.tickDom d (s.adjUpd d)
    let g := fun c => dtAdd c (s.incEff d + sgn s.dom[d].adj)
    x.c0 = g s.dom[d].c0 ∧ x.c1 = g s.dom[d].c1 ∧ x.c2 = g s.dom[d].c2 := by
  simp only [State.tickDom, State.adjUpd, hd, if_true, hp, ne_eq, not_false_eq_true, and_self]

/-- A snapshot's latch takes nothing of the state but the domains, the fences and whether the Port island is degraded. -/
theorem State.snapEdge_congr {s t : State} (hd : t.dom = s.dom) (hf : t.flt = s.flt) (h0 : t.degraded 0 = s.degraded 0) :
    t.snapEdge = s.snapEdge := by
  funext f
  unfold State.snapEdge State.dtpSnapOf State.stampDeg State.time State.fenced
  rw [hd, hf, h0]

theorem State.tickClock_framed (s : State) : Framed [.clk, .ttu] [] [] s s.tickClock :=
  ((Framed.refl [.clk, .ttu] [] [] s).setClk (by simp) s.tickClock.clk).update (q := .ttu) (by simp)
    (fun p hp => by cases p <;> simp_all [Part.same, State.tickClock]) rfl rfl rfl

theorem State.latchSnaps_framed (s : State) : Framed [.eng] [] [] s s.latchSnaps :=
  (Framed.refl _ _ _ s).update (q := .eng) (by simp) (fun p hp => by cases p <;> simp_all [Part.same, State.latchSnaps])
    rfl rfl rfl

theorem adjApply_ends {s : State} {d : Fin 4} (hw : s.storesWf) (hen : s.en .dtm = true) (hp : s.power ≠ .p2)
    (hreq : s.dom[d].req ≠ .none)
    (hlim : (sgn s.dom[d].adj).natAbs ≤ fieldOf (s.reg dtmJumpLimit) 0 20 * 4294967296) :
    Ends (.adjApply d) s fun t =>
      t.dom[d].c0 = dtAdd s.dom[d].c0 (s.incEff d + sgn s.dom[d].adj) ∧
      t.dom[d].c1 = dtAdd s.dom[d].c1 (s.incEff d + sgn s.dom[d].adj) ∧
      t.dom[d].c2 = dtAdd s.dom[d].c2 (s.incEff d + sgn s.dom[d].adj) ∧
      t.dom[d].adj = 0 ∧ t.dom[d].req = .none ∧ t.reg (dtmDAdjNs d.val) = 0 ∧ t.reg (dtmDAdjFrac d.val) = 0 ∧
      t.reg (dtmDAdjCnt d.val) = s.reg (dtmDAdjCnt d.val) + 1 ∧ t.clk.tick = s.clk.tick + 1 ∧
      (∀ e : Fin 10, t.eng[e] = { s.eng[e] with flight := s.eng[e].flight.map t.snapEdge }) ∧
      Framed [.dom, .clk, .ttu, .eng]
        (ttuTimeRegs ++ (List.range 4).flatMap (fun e => [dtmDAdjNs e, dtmDAdjFrac e, dtmDAdjCnt e])) [] s t := by
  have due : s.adjDue d = true := by
    rw [State.adjDue, State.adjExceeds, decide_eq_true hreq, decide_eq_false (Nat.not_lt.2 hlim)]
    rfl
  obtain ⟨u, hu⟩ : ∃ u, u = ({ s with dom := s.tickedDoms } : State).tickClock := ⟨_, rfl⟩
  obtain ⟨v, hv⟩ : ∃ v, v = u.afterTicks s.adjDue := ⟨_, rfl⟩
  have out : exec (.adjApply d) s = commit s v.latchSnaps := by
    refine congrArg (commit s) ?_
    rw [doAdjApply, hen, due, hv, hu, State.plainTick_of_en hen]
    rfl
  have udom : u.dom = s.tickedDoms := by rw [hu]; rfl
  have ureg (a : Nat) : u.reg a = s.reg a := by rw [hu]; rfl
  have ueng : u.eng = s.eng := by rw [hu]; rfl
  have utick : u.clk.tick = s.clk.tick + 1 := by rw [hu]; rfl
  have uwf : amWf regReset u.regs := by rw [hu]; exact State.storesWf_regs hw
  have applied : AdjApplied d u v := hv ▸ State.afterTicks_applied _ uwf due
  have after : Framed [.dom, .ttu] tickRegs [] u v := hv ▸ State.afterTicks_framed _
  have before : Framed [.dom, .clk, .ttu, .eng] tickRegs [] s u := by
    have doms : Framed [.dom, .clk, .ttu, .eng] tickRegs [] s { s with dom := s.tickedDoms } :=
      (Framed.refl _ _ _ s).update (q := .dom) (by simp) (fun p hp => by cases p <;> simp_all [Part.same]) rfl rfl rfl
    rw [hu]
    exact doms.trans ((State.tickClock_framed _).mono (by simp) (by simp) (by simp))
  have doms : v.dom[d] = { s.tickDom d (s.adjUpd d) with adj := 0, req := .none } := by
    rw [applied.dom, udom, State.tickedDoms_get]
  obtain ⟨hc0, hc1, hc2⟩ := State.tickDom_due due hp
  have hdom : (settle s v.latchSnaps).dom = v.dom := settle_dom _ _
  have hreg (a : Nat) (ha : a ∈ adjRegs d.val) : (settle s v.latchSnaps).reg a = v.reg a :=
    settle_reg _ _ _ (adjRegs_ne_glbIntCnt a ha)
  have snaps : (settle s v.latchSnaps).snapEdge = v.snapEdge :=
    State.snapEdge_congr hdom (settle_flt _ _) (settle_degraded _ _ 0)
  obtain ⟨memNs, memFrac, memCnt⟩ := adjRegs_mem (d := d)
  refine ends_of_commit out ?_
  rw [hdom, doms, snaps]
  refine ⟨hc0, hc1, hc2, rfl, rfl, (hreg _ memNs).trans applied.ns, (hreg _ memFrac).trans applied.frac, ?_, ?_,
    fun e => ?_, ?_⟩
  · rw [hreg _ memCnt, applied.cnt, ureg]
  · rw [settle_clk]
    exact (congrArg ClkState.tick (after.parts .clk (by decide))).trans utick
  · have veng : v.eng = s.eng := (after.parts .eng (by decide)).trans ueng
    have heng : (settle s v.latchSnaps).eng = v.latchSnaps.eng := settle_part _ _ .eng
    rw [heng, State.latchSnaps, veng]
    exact Vector.getElem_map _ _
  · exact framed_settle ((before.trans (after.mono (by simp) (by simp) (by simp))).trans
      (v.latchSnaps_framed.mono (by simp) (by simp) (by simp)))

theorem adjApply_idle {s : State} {d : Fin 4} (h : s.dom[d].req = .none) : Idle (.adjApply d) s := by
  refine idle_of_commit rfl (if_neg ?_)
  rw [State.adjDue, h]
  simp

/-- Settles O18, command by command. -/
theorem datumIncrementAndOffsetRequests : Obligations.DatumIncrementAndOffsetRequests := by
  intro s m d frac hw
  exact ⟨incWrite_ends hw, fun ho hs => idle_of_commit (exec_incWrite ho) (if_pos hs), adjRequest_ends hw,
    fun ho hs => idle_of_commit (exec_adjRequest ho) (if_pos hs), adjApply_ends hw, adjApply_idle⟩

end Sys2Proof.Machine
end

section
/-! SUPPORT. Captures and the queues that are read by their head (R47, R75, R83, R84): what an edge at a ball leaves of
every ball and of every capture unit, and what a read of a head returns, removes and latches. -/

namespace Sys2Proof.Machine

/-! What the device drives at a ball takes nothing of the capture units (R83, R278). -/

/-- What the device drives at a ball is made of: registers outside the capture units, the pins of the sequencer, the
trigger units, the expansion port, the fences and the clock. -/
structure PinsKept (s t : State) : Prop where
  regs : ∀ a, a < 0x30400 ∨ 0x30600 ≤ a → a ≠ glbIntCnt → t.reg a = s.reg a
  clk : t.clk = s.clk
  ttu : t.ttu = s.ttu
  flt : t.flt = s.flt
  psq : t.psq = s.psq
  xpb : t.xpb = s.xpb

section
variable {s t : State} (h : PinsKept s t) (m : Nat)
include h

theorem PinsKept.mfp : t.reg (psqMfp m) = s.reg (psqMfp m) := by
  refine h.regs _ (.inr ?_) ?_ <;> simp only [psqMfp, glbIntCnt] <;> omega

theorem PinsKept.pinMap (c : Fin 64) (p : Nat) : t.pinMap c p = s.pinMap c p := by
  have reg (i : Nat) (hi : 0xF1000 ≤ i) : t.reg i = s.reg i :=
    h.regs i (.inr (by omega)) (by simp only [glbIntCnt]; omega)
  unfold State.pinMap
  rw [reg _ (by simp only [psqChPinmap0]; omega), reg _ (by simp only [psqChPinmap1]; omega)]

theorem PinsKept.ballPins (c : Fin 64) : t.ballPins c = s.ballPins c := by
  have div : t.psqDiv c = s.psqDiv c := by
    refine congrArg (fieldOf · 0 16) (h.regs _ (.inr ?_) ?_) <;> simp only [psqChCfg, glbIntCnt] <;> omega
  unfold State.ballPins State.chLevels
  rw [div, h.psq, h.clk]

theorem PinsKept.seqDrive : t.seqDrive m = s.seqDrive m := by
  unfold State.seqDrive State.pinValid State.pinMfp
  simp only [h.mfp, h.pinMap, h.ballPins]

theorem PinsKept.trigDrive : t.trigDrive m = s.trigDrive m := by
  have cfg (n : Fin 24) : t.reg (ttuCfg n.val) = s.reg (ttuCfg n.val) := by
    refine h.regs _ (.inl ?_) ?_ <;> simp only [ttuCfg, glbIntCnt] <;> omega
  unfold State.trigDrive State.ttuPinEn State.ttuPin State.ttuPol
  simp only [h.mfp, h.ttu, cfg]

theorem PinsKept.xpbDrive : t.xpbDrive m = s.xpbDrive m := by
  have reg (a : Nat) (ha : a < 0x30400 ∨ 0x30600 ≤ a) (hi : a ≠ glbIntCnt) := h.regs a ha hi
  unfold State.xpbDrive State.xpbRole State.en State.fenced
  rw [reg (blkBase .xpb) (by decide) (by decide), reg xpbCfg (by decide) (by decide),
    reg glbIntSummary (by decide) (by decide), reg xpbXirqEn (by decide) (by decide), h.flt, h.xpb, h.clk]

theorem PinsKept.ownDrive : t.ownDrive m = s.ownDrive m := by
  unfold State.ownDrive State.shadowed
  rw [h.flt, h.mfp, h.seqDrive, h.trigDrive, h.xpbDrive]

end

/-! The outside's level at a ball (R83, R278). -/

section
variable (s : State) (pin : Fin 96) (v : Bool)

theorem State.driveBall_framed : Framed [.mfpIn] [] [] s (s.driveBall pin v) := by
  unfold State.driveBall
  split
  · exact Framed.refl _ _ _ s
  · exact (Framed.refl _ _ _ s).update (q := .mfpIn) (by simp) (fun p hp => by cases p <;> simp_all [Part.same])
      rfl rfl rfl

variable {s pin}

theorem State.driveBall_driven {x : Bool} (h : s.ownDrive pin.val = some x) : s.driveBall pin v = s :=
  if_pos (by rw [h]; rfl)

theorem State.driveBall_free (h : s.ownDrive pin.val = none) : s.driveBall pin v =
    { s with mfpIn := setBit s.mfpIn pin.val v, mfpExt := setBit s.mfpExt pin.val true } :=
  if_neg (by rw [h]; exact Bool.false_ne_true)

end

/-- The outside's levels at the balls are those after the outside has driven one. -/
def BallDriven (pin : Fin 96) (v : Bool) (s t : State) : Prop :=
  t.mfpIn = (s.driveBall pin v).mfpIn ∧ t.mfpExt = (s.driveBall pin v).mfpExt

section
variable {s t : State} {pin : Fin 96} {v : Bool}

/-- A ball reads what the device drives there, else the outside's new level; every other ball reads as before. -/
theorem ballLevel_of_driven (hp : PinsKept s t) (hb : BallDriven pin v s t) {k : Nat} (hk : k < 96) :
    t.ballLevel k = if k = pin.val then (s.ownDrive k).getD v else s.ballLevel k := by
  obtain ⟨hin, hext⟩ := hb
  unfold State.ballLevel
  rw [hp.ownDrive, hp.mfp, hp.clk, hin, hext, if_pos hk, if_pos hk]
  cases hd : s.ownDrive pin.val with
  | some x =>
    rw [State.driveBall_driven v hd]
    by_cases he : k = pin.val
    · subst he
      rw [if_pos rfl, hd]
      rfl
    · rw [if_neg he]
  | none =>
    rw [State.driveBall_free v hd]
    simp only [getLsbD_setBit _ pin.isLt]
    by_cases he : k = pin.val
    · subst he
      rw [if_pos rfl, if_pos rfl, if_pos rfl, if_pos rfl, hd]
      rfl
    · rw [if_neg he, if_neg he, if_neg he]

end

/-! The capture units (R83). -/

/-- Whether a unit's last capture lies within 8 ns before an edge (R83). -/
def State.tcuNear (s : State) (n : Fin 16) (ago : Nat) : Bool :=
  match s.tcu[n].last with
  | some x => decide (2 * s.clk.tick - ago < x + 8)
  | none => false

/-- The units' counts of misses. -/
def missRegs : List Nat := (List.range 16).map tcuMissCnt

theorem tcuMissCnt_mem (n : Fin 16) : tcuMissCnt n.val ∈ missRegs :=
  List.mem_map.2 ⟨n.val, List.mem_range.2 n.isLt, rfl⟩

theorem missRegs_form {a : Nat} (h : a ∈ missRegs) : ∃ k < 16, a = 0x30410 + k * 0x20 := by
  obtain ⟨k, hk, rfl⟩ := List.mem_map.1 h
  exact ⟨k, List.mem_range.1 hk, rfl⟩

/-- What an edge leaves as it was: all but the units, their counts of misses, and the outside's levels. -/
abbrev CapFramed (s t : State) : Prop := Framed [.tcu, .mfpIn] missRegs [] s t

theorem CapFramed.cfg {s t : State} (h : CapFramed s t) (n : Fin 16) :
    t.reg (tcuCfg n.val) = s.reg (tcuCfg n.val) := by
  refine h.regs _ (fun hm => ?_) (by simp only [tcuCfg, glbIntCnt]; omega)
  obtain ⟨k, -, hk⟩ := missRegs_form hm
  simp only [tcuCfg] at hk
  omega

theorem Framed.pinsKept {s t : State} (h : CapFramed s t) : PinsKept s t := by
  refine ⟨fun a ha hi => h.regs a (fun hm => ?_) hi, h.parts .clk (by decide), h.parts .ttu (by decide),
    h.parts .flt (by decide), h.parts .psq (by decide), h.parts .xpb (by decide)⟩
  obtain ⟨k, hk, rfl⟩ := missRegs_form hm
  omega

theorem CapFramed.takes {s t : State} (h : CapFramed s t) (n : Fin 16) (pin : Fin 96) (falling : Bool) (ago : Nat) :
    t.tcuTakes n pin falling ago = s.tcuTakes n pin falling ago := by
  have en : t.en .ttc = s.en .ttc := congrArg (bitOf · 0) (h.regs _ (by decide) (by decide))
  unfold State.tcuTakes
  rw [h.cfg, en]

section
variable (s : State) (n : Fin 16) (falling : Bool) (ago : Nat)

theorem State.tcuCapture_miss (h : s.tcu[n].fifo.length = 4 ∨ s.tcuNear n ago = true) :
    s.tcuCapture n falling ago = s.count (tcuMissCnt n.val) :=
  if_pos (c := (decide (s.tcu[n].fifo.length = 4) || s.tcuNear n ago) = true) (by simpa using h)

/-- The time a unit captures: its domain's at the crossing. -/
def State.crossTime : DTime :=
  dtAdd (s.time (Fin.ofNat 4 (fieldOf (s.reg (tcuCfg n.val)) 26 2))) (-(4294967296 * (ago : Int)))

theorem State.tcuCapture_taken (hf : s.tcu[n].fifo.length ≠ 4) (hn : s.tcuNear n ago = false) :
    ∃ c last, c.ns = w32 (dtNs (s.crossTime n ago)) ∧ c.sec = w32 (dtSec (s.crossTime n ago)) ∧
      s.tcuCapture n falling ago = { s with tcu := vset s.tcu n ⟨s.tcu[n].fifo ++ [c], last⟩ } :=
  have free : ¬ (decide (s.tcu[n].fifo.length = 4) || s.tcuNear n ago) = true := by
    rw [hn, Bool.or_false, decide_eq_true_iff]
    exact hf
  ⟨_, _, rfl, rfl, if_neg free⟩

/-- A unit that selects an edge counts a miss, or appends a capture and changes nothing else. -/
theorem State.tcuCapture_cases : s.tcuCapture n falling ago = s.count (tcuMissCnt n.val) ∨
    ∃ x, s.tcuCapture n falling ago = { s with tcu := vset s.tcu n x } := by
  by_cases h : s.tcu[n].fifo.length = 4 ∨ s.tcuNear n ago = true
  · exact .inl (s.tcuCapture_miss n falling ago h)
  · obtain ⟨c, last, -, -, eq⟩ := s.tcuCapture_taken n falling ago (fun hf => h (.inl hf))
      (Bool.eq_false_iff.2 fun hn => h (.inr hn))
    exact .inr ⟨_, eq⟩

theorem State.tcuCapture_framed : Framed [.tcu] missRegs [] s (s.tcuCapture n falling ago) := by
  obtain eq | ⟨x, eq⟩ := s.tcuCapture_cases n falling ago <;> rw [eq]
  · exact (Framed.refl _ _ _ s).count (tcuMissCnt_mem n)
  · exact (Framed.refl _ _ _ s).update (q := .tcu) (by simp) (fun p hp => by cases p <;> simp_all [Part.same])
      rfl rfl rfl

theorem State.tcuCapture_regsWf {s : State} (hr : amWf regReset s.regs) :
    amWf regReset (s.tcuCapture n falling ago).regs := by
  obtain eq | ⟨x, eq⟩ := s.tcuCapture_cases n falling ago <;> rw [eq]
  · exact State.regsWf_count hr _
  · exact hr

/-- A capture of another unit leaves this one and its count. -/
theorem State.tcuCapture_other {k : Fin 16} (hk : n ≠ k) : (s.tcuCapture k falling ago).tcu[n] = s.tcu[n] ∧
    (s.tcuCapture k falling ago).reg (tcuMissCnt n.val) = s.reg (tcuMissCnt n.val) := by
  have ne : n.val ≠ k.val := fun e => hk (Fin.ext e)
  obtain eq | ⟨x, eq⟩ := s.tcuCapture_cases k falling ago <;> rw [eq]
  · exact ⟨rfl, State.reg_setReg_other _ _ _ _ (by simp only [tcuMissCnt]; omega)⟩
  · exact ⟨getElem_vset_other _ _ hk, rfl⟩

end

/-! An edge at every unit. -/

/-- What an edge does at one unit. -/
def State.tcuEdge (pin : Fin 96) (falling : Bool) (ago : Nat) (t : State) (k : Nat) : State :=
  let n := Fin.ofNat 16 k
  if t.tcuTakes n pin falling ago then t.tcuCapture n falling ago else t

theorem State.tcuEdge_self (t : State) (n : Fin 16) (pin : Fin 96) (falling : Bool) (ago : Nat) :
    t.tcuEdge pin falling ago n.val = if t.tcuTakes n pin falling ago then t.tcuCapture n falling ago else t := by
  have own : Fin.ofNat 16 n.val = n := Fin.ext (Nat.mod_eq_of_lt n.isLt)
  unfold State.tcuEdge
  rw [own]

/-- A unit and its count are as they were, after captures of others. -/
structure CapKept (n : Fin 16) (s t : State) : Prop where
  unit : t.tcu[n] = s.tcu[n]
  miss : t.reg (tcuMissCnt n.val) = s.reg (tcuMissCnt n.val)
  frame : CapFramed s t

section
variable {n : Fin 16} {s t u : State} (pin : Fin 96) (falling : Bool) (ago : Nat)

theorem CapKept.refl : CapKept n s s := ⟨rfl, rfl, Framed.refl _ _ _ s⟩

theorem CapKept.trans (h : CapKept n s t) (h' : CapKept n t u) : CapKept n s u :=
  ⟨h'.unit.trans h.unit, h'.miss.trans h.miss, h.frame.trans h'.frame⟩

theorem State.tcuEdge_kept (s : State) {k : Nat} (hk : n ≠ Fin.ofNat 16 k) :
    CapKept n s (s.tcuEdge pin falling ago k) := by
  unfold State.tcuEdge
  dsimp only
  split
  · obtain ⟨unit, miss⟩ := s.tcuCapture_other n falling ago hk
    exact ⟨unit, miss, (s.tcuCapture_framed _ _ _).mono (by simp) (by simp) (by simp)⟩
  · exact CapKept.refl

theorem State.tcuEdge_framed (s : State) (k : Nat) : Framed [.tcu] missRegs [] s (s.tcuEdge pin falling ago k) := by
  unfold State.tcuEdge
  dsimp only
  split
  · exact s.tcuCapture_framed _ _ _
  · exact Framed.refl _ _ _ s

theorem State.tcuEdge_regsWf (s : State) (k : Nat) (hr : amWf regReset s.regs) :
    amWf regReset (s.tcuEdge pin falling ago k).regs := by
  unfold State.tcuEdge
  dsimp only
  split
  · exact State.tcuCapture_regsWf _ _ _ hr
  · exact hr

theorem tcuEdges_kept (l : List Nat) (hl : ∀ k ∈ l, n ≠ Fin.ofNat 16 k) (s : State) :
    CapKept n s (l.foldl (State.tcuEdge pin falling ago) s) :=
  List.foldlRecOn (motive := CapKept n s) _ _ CapKept.refl fun t ht k hk =>
    ht.trans (t.tcuEdge_kept pin falling ago (hl k hk))

/-- Of an edge at every unit a unit meets its own part alone. -/
theorem tcuEdges_own (n : Fin 16) (s : State) (hr : amWf regReset s.regs) : ∃ t, amWf regReset t.regs ∧ CapKept n s t ∧
    CapKept n (t.tcuEdge pin falling ago n.val) ((List.range 16).foldl (State.tcuEdge pin falling ago) s) := by
  have ofVal (k : Nat) (hk : k < 16) (h : n = Fin.ofNat 16 k) : n.val = k := by
    rw [h]
    exact Nat.mod_eq_of_lt hk
  have parts : List.range 16 = List.range n.val ++ n.val :: List.range' (n.val + 1) (15 - n.val) := by
    revert n
    decide
  have before (k : Nat) (hk : k ∈ List.range n.val) : n ≠ Fin.ofNat 16 k := fun h => by
    have := List.mem_range.1 hk
    have := ofVal k (by omega) h
    omega
  have after (k : Nat) (hk : k ∈ List.range' (n.val + 1) (15 - n.val)) : n ≠ Fin.ofNat 16 k := fun h => by
    have := List.mem_range'_1.1 hk
    have := ofVal k (by omega) h
    omega
  rw [parts, List.foldl_append, List.foldl_cons]
  exact ⟨_, List.foldlRecOn (motive := fun t : State => amWf regReset t.regs) _ _ hr fun t ht k _ =>
    t.tcuEdge_regsWf pin falling ago k ht, tcuEdges_kept pin falling ago _ before s,
    tcuEdges_kept pin falling ago _ after _⟩

theorem tcuEdges_framed (s : State) :
    Framed [.tcu] missRegs [] s ((List.range 16).foldl (State.tcuEdge pin falling ago) s) :=
  List.foldlRecOn (motive := Framed _ _ _ s) _ _ (Framed.refl _ _ _ s) fun t ht k _ =>
    ht.trans (t.tcuEdge_framed pin falling ago k)

end

/-- What an edge leaves of a unit: one that does not select it as it was; else a miss counted, or one capture of the
domain's time at the crossing. -/
structure EdgeAt (pin : Fin 96) (falling : Bool) (ago : Nat) (n : Fin 16) (s t : State) : Prop where
  other : s.tcuTakes n pin falling ago = false →
    t.tcu[n] = s.tcu[n] ∧ t.reg (tcuMissCnt n.val) = s.reg (tcuMissCnt n.val)
  miss : s.tcuTakes n pin falling ago = true → s.tcu[n].fifo.length = 4 ∨ s.tcuNear n ago = true →
    t.tcu[n] = s.tcu[n] ∧ t.reg (tcuMissCnt n.val) = s.reg (tcuMissCnt n.val) + 1
  taken : s.tcuTakes n pin falling ago = true → s.tcu[n].fifo.length ≠ 4 → s.tcuNear n ago = false →
    ∃ c : Capture, t.tcu[n].fifo = s.tcu[n].fifo ++ [c] ∧ c.ns = w32 (dtNs (s.crossTime n ago)) ∧
      c.sec = w32 (dtSec (s.crossTime n ago))

section
variable {n : Fin 16} {s t u : State} {pin : Fin 96} {falling : Bool} {ago : Nat}

/-- What a unit makes of an edge is as the state before says, where the captures of others come between. -/
theorem edgeAt_of_kept (hr : amWf regReset t.regs) (h : CapKept n s t)
    (h' : CapKept n (t.tcuEdge pin falling ago n.val) u) : EdgeAt pin falling ago n s u := by
  have takes := h.frame.takes n pin falling ago
  have near : t.tcuNear n ago = s.tcuNear n ago := by
    unfold State.tcuNear
    rw [h.unit, h.frame.parts .clk (by decide)]
  have time : t.crossTime n ago = s.crossTime n ago := by
    unfold State.crossTime State.time State.fenced
    rw [h.frame.cfg, h.frame.parts .flt (by decide), h.frame.parts .dom (by decide)]
  obtain ⟨unit', miss', -⟩ := h'
  rw [State.tcuEdge_self, takes] at unit' miss'
  refine ⟨fun no => ?_, fun yes hm => ?_, fun yes hf hn => ?_⟩
  · rw [if_neg (Bool.eq_false_iff.1 no)] at unit' miss'
    exact ⟨unit'.trans h.unit, miss'.trans h.miss⟩
  · rw [← h.unit, ← near] at hm
    rw [if_pos yes, t.tcuCapture_miss n falling ago hm] at unit' miss'
    refine ⟨unit'.trans h.unit, miss'.trans ?_⟩
    rw [State.count, State.reg_setReg_same _ _ _ hr, h.miss]
  · rw [← h.unit] at hf
    obtain ⟨c, last, hns, hsec, eq⟩ := t.tcuCapture_taken n falling ago hf (near.trans hn)
    rw [if_pos yes, eq] at unit'
    refine ⟨c, ?_, hns.trans (by rw [time]), hsec.trans (by rw [time])⟩
    rw [unit', ← h.unit]
    exact congrArg Tcu.fifo (getElem_vset_same _ _ _)

end

theorem captureEdge_ends {s : State} (hw : s.storesWf) (n : Fin 16) (pin : Fin 96) (falling : Bool) (ago : BitVec 16) :
    Ends (.captureEdge pin falling ago) s fun t =>
      BallDriven pin (!falling) s t ∧ PinsKept s t ∧ EdgeAt pin falling ago.toNat n s t ∧
        Framed [.tcu, .mfpIn] missRegs [] s t := by
  obtain ⟨s1, hs1⟩ : ∃ s1, s1 = s.driveBall pin (!falling) := ⟨_, rfl⟩
  obtain ⟨u, hu⟩ : ∃ u, u = (List.range 16).foldl (State.tcuEdge pin falling ago.toNat) s1 := ⟨_, rfl⟩
  have driven : CapFramed s s1 := hs1 ▸ (s.driveBall_framed pin _).mono (by simp) (by simp) (by simp)
  have regs1 : s1.regs = s.regs := by
    rw [hs1, State.driveBall]
    split <;> rfl
  have tcu1 : s1.tcu = s.tcu := hs1 ▸ (s.driveBall_framed pin _).parts .tcu (by decide)
  have first : CapKept n s s1 := ⟨by rw [tcu1], State.reg_of_regs_eq regs1, driven⟩
  have caught : Framed [.tcu] missRegs [] s1 u := hu ▸ tcuEdges_framed pin falling _ s1
  obtain ⟨t, wf, before, after⟩ := tcuEdges_own pin falling ago.toNat n s1 (regs1.symm ▸ State.storesWf_regs hw)
  rw [← hu] at after
  have tcuSettled : (settle s u).tcu = u.tcu := settle_part s u .tcu
  have last : CapKept n u (settle s u) :=
    ⟨by rw [tcuSettled], settle_reg _ _ _ (by simp only [tcuMissCnt, glbIntCnt]; omega),
      (raised_settle s u).1.mono (by simp) (by simp) (by simp)⟩
  have framed : Framed [.tcu, .mfpIn] missRegs [] s (settle s u) :=
    framed_settle (driven.trans (caught.mono (by simp) (by simp) (by simp)))
  have out : exec (.captureEdge pin falling ago) s = commit s u := by rw [hu, hs1]; rfl
  refine ends_of_commit out ⟨?_, framed.pinsKept, edgeAt_of_kept wf (first.trans before) (after.trans last), framed⟩
  obtain ⟨mfpIn, mfpExt⟩ := caught.parts .mfpIn (by decide)
  obtain ⟨mfpIn', mfpExt'⟩ := settle_part s u .mfpIn
  exact ⟨mfpIn'.trans (mfpIn.trans (by rw [hs1])), mfpExt'.trans (mfpExt.trans (by rw [hs1]))⟩

/-! Reads of a head (R47, R75, R84). -/

/-- A read of a register that is let through does what its register does. -/
theorem State.guardedRead_of_open {s : State} {m : Master} {a : Nat} (h : Open s m false a) (f : State → State) :
    s.guardedRead m a f = f s := by
  unfold State.guardedRead
  unfold Open at h
  cases hacc : s.access m false a with
  | ok b o row => rfl
  | err st => rw [hacc] at h; cases h
  | supOnly b => rw [hacc] at h; cases h

section
variable {s : State} (m : Master) (a : Nat) (v : Word)

theorem State.latched_latch_same (hl : amWf (fun _ => 0) s.latches) : (s.latch m a v).latched m a = v :=
  amGet_put_same _ _ _ _ hl

theorem State.latched_latch_other {b : Nat} (h : b ≠ a) : (s.latch m a v).latched m b = s.latched m b := by
  have key : latchKey (masterIdx m) b ≠ latchKey (masterIdx m) a := by unfold latchKey; omega
  exact amGet_put_other (fun _ => (0 : Word)) s.latches _ _ v key

theorem State.latched_latchAll_other {b : Nat} (l : List (Nat × Word)) (h : b ∉ l.map Prod.fst) :
    (s.latchAll m l).latched m b = s.latched m b := by
  induction l generalizing s with
  | nil => rfl
  | cons p l ih =>
    rw [List.map_cons, List.mem_cons, not_or] at h
    exact (ih h.2).trans (s.latched_latch_other m p.1 p.2 h.1)

/-- Words latched at different registers read as latched. -/
theorem State.latched_latchAll (l : List (Nat × Word)) (hl : amWf (fun _ => 0) s.latches)
    (hk : (l.map Prod.fst).Nodup) : ∀ p ∈ l, (s.latchAll m l).latched m p.1 = p.2 := by
  induction l generalizing s with
  | nil => exact fun _ h => nomatch h
  | cons x l ih =>
    obtain ⟨hx, hk⟩ := List.nodup_cons.1 hk
    intro p hp
    rcases List.mem_cons.1 hp with rfl | hp
    · exact (State.latched_latchAll_other m l hx).trans (State.latched_latch_same m _ _ hl)
    · exact ih (s := s.latch m x.1 x.2) (amPut_wf _ _ _ _ hl) hk p hp

theorem settle_latched (t : State) : (settle s t).latched m a = t.latched m a :=
  congrArg (fun l => amGet (fun _ => 0) l (latchKey (masterIdx m) a)) (settle_part s t .latches)

end

section
variable {s : State} {m : Master}

/-- A read that leaves the state b but for words latched and the word sent ends so. -/
theorem headRead_ends {c : Instr} {a v : Word} {b : State} {l : List (Nat × Word)} {ps : List Part} (hw : s.storesWf)
    (hc : exec c s = commit s ((b.latchAll m l).emit (.readData m a v))) (hk : (l.map Prod.fst).Nodup)
    (hl : b.latches = s.latches) (ho : b.out = s.out) (hp : .latches ∈ ps) (hf : Framed ps [] [] s b) :
    Ends c s fun t => (t.tcu = b.tcu ∧ t.eth = b.eth) ∧ Sends [.readData m a v] s t ∧
      (∀ p ∈ l, t.latched m p.1 = p.2) ∧ Framed ps [] [] s t := by
  have wf : amWf (fun _ => 0) b.latches := hl ▸ (State.storesWf.canonical hw).latches
  have latched : Framed [.latches] [] [] b (b.latchAll m l) := Framed.latchAll (by simp) l
  have all : Framed [.latches] [] [] b ((b.latchAll m l).emit (.readData m a v)) := latched.emit _
  refine ends_of_commit hc ⟨⟨?_, ?_⟩, settle_sends ?_, fun p hp => ?_, ?_⟩
  · exact (settle_part _ _ .tcu).trans (all.parts .tcu (by decide))
  · exact (settle_part _ _ .eth).trans (all.parts .eth (by decide))
  · simp [Sends, State.latchAll_out, ho]
  · rw [settle_latched]
    exact State.latched_latchAll m l wf hk p hp
  · exact framed_settle (hf.trans (all.mono (by simpa using hp) (by simp) (by simp)))

theorem captureRead_ends {n : Fin 16} (hw : s.storesWf) (ho : Open s m false (tcuCapNs n.val)) :
    Ends (.captureRead m n) s fun t =>
      (∀ c r, s.tcu[n].fifo = c :: r →
        t.tcu[n].fifo = r ∧ Sends [.readData m (w32 (tcuCapNs n.val)) c.ns] s t ∧
        t.latched m (tcuCapSec n.val) = c.sec ∧ t.latched m (tcuCapFlags n.val) = c.flags) ∧
      (s.tcu[n].fifo = [] → t.tcu = s.tcu ∧ Sends [.readData m (w32 (tcuCapNs n.val)) 0] s t ∧
        t.latched m (tcuCapSec n.val) = 0 ∧ t.latched m (tcuCapFlags n.val) = 0) ∧
      (∀ k : Fin 16, k ≠ n → t.tcu[k] = s.tcu[k]) ∧ Framed [.tcu, .latches] [] [] s t := by
  have out : exec (.captureRead m n) s = commit s
      ((s.captureRead (masterIdx m) n).2.emit (.readData m (w32 (tcuCapNs n.val)) (s.captureRead (masterIdx m) n).1)) :=
    congrArg (commit s) (State.guardedRead_of_open ho _)
  have keys (x y : Word) : ([(tcuCapSec n.val, x), (tcuCapFlags n.val, y)].map Prod.fst).Nodup := by
    simp [tcuCapSec, tcuCapFlags]
  cases hq : s.tcu[n].fifo with
  | nil =>
    have read : s.captureRead (masterIdx m) n = (0, s.latchAll m [(tcuCapSec n.val, 0), (tcuCapFlags n.val, 0)]) := by
      unfold State.captureRead
      dsimp only
      rw [hq]
      rfl
    rw [read] at out
    obtain ⟨t, ht, ⟨htcu, -⟩, hs, hl, hf⟩ :=
      headRead_ends (ps := [.tcu, .latches]) hw out (keys 0 0) rfl rfl (by simp) (Framed.refl _ _ _ s)
    have first := hl _ (List.mem_cons_self)
    have second := hl _ (List.mem_cons_of_mem _ List.mem_cons_self)
    exact ⟨t, ht, (fun c r h => nomatch h), fun _ => ⟨htcu, hs, first, second⟩, fun k _ => by rw [htcu], hf⟩
  | cons c r =>
    have read : s.captureRead (masterIdx m) n = (c.ns, ({ s with tcu := vset s.tcu n { s.tcu[n] with fifo := r } }
        : State).latchAll m [(tcuCapSec n.val, c.sec), (tcuCapFlags n.val, c.flags)]) := by
      unfold State.captureRead
      dsimp only
      rw [hq]
      rfl
    rw [read] at out
    have popped : Framed [.tcu, .latches] [] [] s { s with tcu := vset s.tcu n { s.tcu[n] with fifo := r } } :=
      (Framed.refl _ _ _ s).update (q := .tcu) (by simp) (fun p hp => by cases p <;> simp_all [Part.same]) rfl rfl rfl
    obtain ⟨t, ht, ⟨htcu, -⟩, hs, hl, hf⟩ :=
      headRead_ends (ps := [.tcu, .latches]) hw out (keys c.sec c.flags) rfl rfl (by simp) popped
    have first := hl _ (List.mem_cons_self)
    have second := hl _ (List.mem_cons_of_mem _ List.mem_cons_self)
    refine ⟨t, ht, fun c' r' h => ?_, (fun h => nomatch h), fun k hk => ?_, hf⟩
    · obtain ⟨rfl, rfl⟩ := List.cons.inj h
      refine ⟨?_, hs, first, second⟩
      rw [htcu]
      exact congrArg Tcu.fifo (getElem_vset_same _ _ _)
    · rw [htcu]
      exact getElem_vset_other _ _ hk

theorem tsqRead_ends {p : Fin 8} (hw : s.storesWf) (ho : Open s m false (ethTsqW0 p.val)) :
    Ends (.tsqRead m p) s fun t =>
      (∀ x r, s.eth[p].tsq = x :: r →
        t.eth[p] = { s.eth[p] with tsq := r } ∧ Sends [.readData m (w32 (ethTsqW0 p.val)) x.w0] s t ∧
        t.latched m (ethTsqW1 p.val) = w32 (dtFrac x.stamp.t) ∧
        t.latched m (ethTsqW2 p.val) = w32 (dtNs x.stamp.t) ∧ t.latched m (ethTsqW3 p.val) = w32 (dtSec x.stamp.t)) ∧
      (s.eth[p].tsq = [] → t.eth = s.eth ∧ Sends [.readData m (w32 (ethTsqW0 p.val)) 0] s t ∧
        t.latched m (ethTsqW1 p.val) = 0 ∧ t.latched m (ethTsqW2 p.val) = 0 ∧ t.latched m (ethTsqW3 p.val) = 0) ∧
      (∀ k : Fin 8, k ≠ p → t.eth[k] = s.eth[k]) ∧ Framed [.eth, .latches] [] [] s t := by
  have out : exec (.tsqRead m p) s = commit s
      ((s.tsqPop m p).2.emit (.readData m (w32 (ethTsqW0 p.val)) (s.tsqPop m p).1)) :=
    congrArg (commit s) (State.guardedRead_of_open ho _)
  have keys (x y z : Word) :
      ([(ethTsqW1 p.val, x), (ethTsqW2 p.val, y), (ethTsqW3 p.val, z)].map Prod.fst).Nodup := by
    simp [ethTsqW1, ethTsqW2, ethTsqW3]
  cases hq : s.eth[p].tsq with
  | nil =>
    have read : s.tsqPop m p =
        (0, s.latchAll m [(ethTsqW1 p.val, 0), (ethTsqW2 p.val, 0), (ethTsqW3 p.val, 0)]) := by
      unfold State.tsqPop
      dsimp only
      rw [hq]
      rfl
    rw [read] at out
    obtain ⟨t, ht, ⟨-, heth⟩, hs, hl, hf⟩ :=
      headRead_ends (ps := [.eth, .latches]) hw out (keys 0 0 0) rfl rfl (by simp) (Framed.refl _ _ _ s)
    have first := hl _ (List.mem_cons_self)
    have second := hl _ (List.mem_cons_of_mem _ List.mem_cons_self)
    have third := hl _ (List.mem_cons_of_mem _ (List.mem_cons_of_mem _ List.mem_cons_self))
    exact ⟨t, ht, (fun x r h => nomatch h), fun _ => ⟨heth, hs, first, second, third⟩,
      fun k _ => by rw [heth], hf⟩
  | cons x r =>
    have read : s.tsqPop m p = (x.w0, (s.setEth p { s.eth[p] with tsq := r }).latchAll m
        [(ethTsqW1 p.val, w32 (dtFrac x.stamp.t)), (ethTsqW2 p.val, w32 (dtNs x.stamp.t)),
          (ethTsqW3 p.val, w32 (dtSec x.stamp.t))]) := by
      unfold State.tsqPop
      dsimp only
      rw [hq]
      rfl
    rw [read] at out
    have popped : Framed [.eth, .latches] [] [] s (s.setEth p { s.eth[p] with tsq := r }) :=
      (Framed.refl _ _ _ s).setEth (by simp) p _
    obtain ⟨t, ht, ⟨-, heth⟩, hs, hl, hf⟩ :=
      headRead_ends (ps := [.eth, .latches]) hw out (keys _ _ _) rfl rfl (by simp) popped
    have first := hl _ (List.mem_cons_self)
    have second := hl _ (List.mem_cons_of_mem _ List.mem_cons_self)
    have third := hl _ (List.mem_cons_of_mem _ (List.mem_cons_of_mem _ List.mem_cons_self))
    refine ⟨t, ht, fun x' r' h => ?_, (fun h => nomatch h), fun k hk => ?_, hf⟩
    · obtain ⟨rfl, rfl⟩ := List.cons.inj h
      refine ⟨?_, hs, first, second, third⟩
      rw [heth]
      exact getElem_vset_same _ _ _
    · rw [heth]
      exact getElem_vset_other _ _ hk

end

/-- Settles O22: an edge by its balls and units, a read of a head by the queue it finds. -/
theorem capturesAndStampQueuesAreReadByHead : Obligations.CapturesAndStampQueuesAreReadByHead := by
  intro s m n p pin falling ago hw
  refine ⟨?_, captureRead_ends hw, tsqRead_ends hw⟩
  obtain ⟨t, ht, ⟨hin, hext⟩, hpins, ⟨hother, hmiss, htaken⟩, hframe⟩ := captureEdge_ends hw n pin falling ago
  refine ⟨t, ht, fun hd => ?_, fun v hd => ?_, fun k hk => ballLevel_of_driven hpins ⟨hin, hext⟩ hk,
    ⟨hother, hmiss, fun ht hf hn => ?_⟩, hframe⟩
  · rw [hin, hext, State.driveBall_free _ hd]
    simp only [getLsbD_setBit _ pin.isLt, if_true, and_self]
  · rw [hin, State.driveBall_driven _ hd]
  · exact htaken ht hf hn

end Sys2Proof.Machine
end

section
/-! SUPPORT. Indirect access (R49-R52): the two sets of IND registers, what a fetch and a commit do in a plain space, and
what the four commands end in. -/

namespace Sys2Proof.Machine

/-! The sets. -/

section
variable {s : State} {b : Blk} {sup : Bool} {x : IndSet}

theorem State.indOf_setInd_same (hi : amWf (fun _ => indReset) s.ind) : (s.setInd b sup x).indOf b sup = x :=
  amGet_put_same _ _ _ _ hi

theorem State.indOf_setInd_other : (s.setInd b sup x).indOf b (!sup) = s.indOf b (!sup) := by
  have key : indKey b (!sup) ≠ indKey b sup := by cases sup <;> simp [indKey, b2n]
  exact amGet_put_other (fun _ => indReset) s.ind _ _ x key

theorem State.indWf_setInd (hi : amWf (fun _ => indReset) s.ind) : amWf (fun _ => indReset) (s.setInd b sup x).ind :=
  amPut_wf _ _ _ _ hi

theorem settle_indOf (s t : State) (b : Blk) (sup : Bool) : (settle s t).indOf b sup = t.indOf b sup :=
  congrArg (fun l => amGet (fun _ => indReset) l (indKey b sup)) (settle_part s t .ind)

theorem Framed.setInd {ps : List Part} {rs ts : List Nat} {t : State} (h : Framed ps rs ts s t) (hq : .ind ∈ ps)
    (b : Blk) (sup : Bool) (x : IndSet) : Framed ps rs ts s (t.setInd b sup x) :=
  h.update hq (fun p hp => by cases p <;> simp_all [Part.same]) rfl rfl rfl

/-- A command that replaces a set ends with it. -/
theorem ends_of_setInd {c : Instr} (hi : amWf (fun _ => indReset) s.ind) (hc : exec c s = commit s (s.setInd b sup x)) :
    Ends c s fun t => t.indOf b sup = x ∧ t.indOf b (!sup) = s.indOf b (!sup) ∧ Framed [.ind] [] [] s t :=
  ends_of_commit hc ⟨(settle_indOf _ _ _ _).trans (State.indOf_setInd_same hi),
    (settle_indOf _ _ _ _).trans State.indOf_setInd_other, framed_settle ((Framed.refl _ _ _ s).setInd (by simp) b sup x)⟩

end

/-! Commits and advances of a set (R50, R51). -/

section
variable {s : State} {b : Blk} {sup : Bool}

/-- A clean buffer has nothing to commit. -/
theorem State.indCommit_clean (h : (s.indOf b sup).dirty = false) :
    s.indCommit b sup = s ∨ s.indCommit b sup = s.setInd b sup (s.indOf b sup) := by
  unfold State.indCommit
  dsimp only
  split
  · refine .inr (congrArg (s.setInd b sup) ?_)
    rw [← h]
  · exact .inl (if_pos (by rw [h]; rfl))

theorem State.indCommit_held {p : Nat × Nat} (h : (s.indOf b sup).dirty = false) (hh : (s.indOf b sup).held = some p) :
    s.indCommit b sup = s := by
  unfold State.indCommit
  dsimp only
  rw [hh]
  exact if_pos (by rw [h]; rfl)

/-- With INC 0 the address stays (Table GLB-14). -/
theorem State.indAdvance_of_inc_zero (h : (s.indOf b sup).inc = 0) : s.indAdvance b sup = s := by
  have step : s.indStep b (s.indOf b sup) = 0 := by
    unfold State.indStep
    rw [h]
    rfl
  exact if_pos step

theorem State.indFill_idle (h : (s.indOf b sup).busy = false) : s.indFill b sup = s := if_pos (by rw [h]; rfl)

end

/-! Plain spaces. -/

theorem State.spacePut_plain {s : State} {b : Blk} {sp first : Nat} {ws : List Word} (h : plainSpace b sp = true) :
    s.spacePut b sp first ws = (true, s.setTabs b sp first ws) := by
  unfold State.spacePut
  dsimp only
  split
  case h_11 => rfl
  all_goals cases h

theorem State.spaceGet_plain {s : State} {b : Blk} {sp first e : Nat} (h : plainSpace b sp = true) (hg : b ≠ .glb)
    (hd : b ≠ .dtm) (hs : b ≠ .swc) (hp : ∀ e, b ≠ .pec e) : s.spaceGet b sp first e = (s.tabWords b sp first e, s) := by
  unfold State.spaceGet
  dsimp only
  split
  case h_12 => rfl
  all_goals simp_all [plainSpace]

/-! IND_ADDR (R49, R50). -/

section
variable {s : State} {m : Master} {b : Blk} {v : Word}

theorem exec_indAddrWrite (ho : Open s m true (blkBase b + 0x10)) :
    exec (.indAddrWrite m b v) s = commit s (s.indAddr b (supSet m) v) :=
  congrArg (commit s) (State.guarded_of_open ho _)

theorem indAddrWrite_fetches (hi : amWf (fun _ => indReset) s.ind) (ho : Open s m true (blkBase b + 0x10))
    (hd : (s.indOf b (supSet m)).dirty = false) : Ends (.indAddrWrite m b v) s fun t =>
      t.indOf b (supSet m) = { s.indOf b (supSet m) with
        addr := v &&& 0x7FFFFFFF#32, busy := true, held := none, words := [], dirty := false } ∧
      t.indOf b (!supSet m) = s.indOf b (!supSet m) ∧ Framed [.ind] [] [] s t := by
  obtain ⟨sup, hsup⟩ : ∃ sup, sup = supSet m := ⟨_, rfl⟩
  have out := exec_indAddrWrite (v := v) ho
  rw [← hsup] at out hd ⊢
  have fetch : s.indAddr b sup v = s.indFetch b sup (v &&& 0x7FFFFFFF#32) := by
    refine if_neg ?_
    rw [hd]
    exact Bool.false_ne_true
  rw [fetch, State.indFetch, State.modInd] at out
  rcases State.indCommit_clean hd with hc | hc
  · rw [hc] at out
    exact ends_of_setInd hi out
  · rw [hc, State.indOf_setInd_same hi] at out
    refine ends_of_commit out ⟨?_, ?_, ?_⟩
    · rw [settle_indOf]
      exact State.indOf_setInd_same (State.indWf_setInd hi)
    · rw [settle_indOf, State.indOf_setInd_other, State.indOf_setInd_other]
    · exact framed_settle (((Framed.refl _ _ _ s).setInd (by simp) b sup _).setInd (by simp) b sup _)

theorem indAddrWrite_within (hi : amWf (fun _ => indReset) s.ind) (ho : Open s m true (blkBase b + 0x10))
    (hd : (s.indOf b (supSet m)).dirty = true) (hh : heldHas (s.indOf b (supSet m)) (v &&& 0x7FFFFFFF#32) = true) :
    Ends (.indAddrWrite m b v) s fun t =>
      t.indOf b (supSet m) = { s.indOf b (supSet m) with addr := v &&& 0x7FFFFFFF#32 } ∧ Framed [.ind] [] [] s t := by
  have within : s.indAddr b (supSet m) v =
      s.setInd b (supSet m) { s.indOf b (supSet m) with addr := v &&& 0x7FFFFFFF#32 } := if_pos (by rw [hd, hh]; rfl)
  obtain ⟨t, ht, hx, -, hf⟩ := ends_of_setInd hi ((exec_indAddrWrite ho).trans (congrArg (commit s) within))
  exact ⟨t, ht, hx, hf⟩

end

/-! The end of a fetch (R50). -/

theorem indFetchDone_fills {s : State} {b : Blk} {sup : Bool} {row : SpaceRow}
    (hi : amWf (fun _ => indReset) s.ind) (hb : (s.indOf b sup).busy = true)
    (hr : s.spaceAt b (indSpace (s.indOf b sup).addr) = some row) (hw : indWord (s.indOf b sup).addr < row.size)
    (hp : plainSpace b (indSpace (s.indOf b sup).addr) = true) (hg : b ≠ .glb) (hd : b ≠ .dtm) (hs : b ≠ .swc)
    (he : ∀ e, b ≠ .pec e) : Ends (.indFetchDone b sup) s fun t =>
      (t.indOf b sup).busy = false ∧ (t.indOf b sup).dirty = false ∧
      (t.indOf b sup).held =
        some (indSpace (s.indOf b sup).addr, indWord (s.indOf b sup).addr / row.e * row.e) ∧
      (t.indOf b sup).words = s.tabWords b (indSpace (s.indOf b sup).addr)
        (indWord (s.indOf b sup).addr / row.e * row.e) row.e ∧ Framed [.ind] [] [] s t := by
  obtain ⟨sp, hsp⟩ : ∃ sp, sp = indSpace (s.indOf b sup).addr := ⟨_, rfl⟩
  obtain ⟨first, hfirst⟩ : ∃ f, f = indWord (s.indOf b sup).addr / row.e * row.e := ⟨_, rfl⟩
  rw [← hsp] at hr hp ⊢
  rw [← hfirst]
  have fill : s.indFill b sup = s.setInd b sup { s.indOf b sup with
      busy := false, held := some (sp, first), words := s.tabWords b sp first row.e, dirty := false } := by
    unfold State.indFill
    dsimp only
    rw [hb, ← hsp, hr]
    dsimp only
    rw [← hfirst, State.spaceGet_plain hp hg hd hs he]
    exact if_pos hw
  obtain ⟨t, ht, hx, -, hf⟩ := ends_of_setInd (c := .indFetchDone b sup) hi (congrArg (commit s) fill)
  rw [Ends]
  exact ⟨t, ht, by rw [hx], by rw [hx], by rw [hx], by rw [hx], hf⟩

/-! IND_DATA (R50-R52). -/

section
variable {s : State} {m : Master} {b : Blk} {v : Word} {sup : Bool} {x : IndSet}

/-- A master's access of IND_DATA finds its set with no fetch in progress and INC 0. -/
structure IndReady (s : State) (m : Master) (b : Blk) (x : IndSet) : Prop where
  wf : s.storesWf
  set : s.indOf b (supSet m) = x
  busy : x.busy = false
  inc : x.inc = 0

theorem IndReady.ind (h : IndReady s m b x) : amWf (fun _ => indReset) s.ind := (State.storesWf.canonical h.wf).ind

theorem IndReady.fill (h : IndReady s m b x) : s.indFill b (supSet m) = s :=
  State.indFill_idle (by rw [h.set, h.busy])

/-- With INC 0 a set that the access has replaced does not advance. -/
theorem IndReady.advance (h : IndReady s m b x) {y : IndSet} (hy : y.inc = 0) :
    (s.setInd b (supSet m) y).indAdvance b (supSet m) = s.setInd b (supSet m) y :=
  State.indAdvance_of_inc_zero (by rw [State.indOf_setInd_same h.ind, hy])

theorem exec_indDataRead (ho : Open s m false (blkBase b + 0x14)) {w : Word} {t : State} (hr : s.indRead m b = (w, t)) :
    exec (.indDataRead m b) s = commit s (t.emit (.readData m (w32 (blkBase b + 0x14)) w)) := by
  have read := congrArg (commit s) (State.guardedRead_of_open ho fun s =>
    let r := s.indRead m b
    r.2.emit (.readData m (w32 (blkBase b + 0x14)) r.1))
  dsimp only at read
  rw [hr] at read
  exact read

theorem exec_indDataWrite (ho : Open s m true (blkBase b + 0x14)) :
    exec (.indDataWrite m b v) s = commit s (s.indWrite m b v) :=
  congrArg (commit s) (State.guarded_of_open ho _)

/-- A read that replaces the set and sends a word ends so. -/
theorem indDataRead_ends (h : IndReady s m b x) (ho : Open s m false (blkBase b + 0x14)) {w : Word} {y : IndSet}
    (hr : s.indRead m b = (w, s.setInd b (supSet m) y)) : Ends (.indDataRead m b) s fun t =>
      Sends [.readData m (w32 (blkBase b + 0x14)) w] s t ∧ t.indOf b (supSet m) = y ∧ Framed [.ind] [] [] s t :=
  ends_of_commit (exec_indDataRead ho hr) ⟨settle_sends (List.prefix_refl _),
    (settle_indOf _ _ _ _).trans (State.indOf_setInd_same h.ind),
    framed_settle (((Framed.refl _ _ _ s).setInd (by simp) b _ y).emit _)⟩

theorem indRead_refused (h : IndReady s m b x) {st : Byte}
    (hr : s.indRefusal m b (indSpace x.addr) (indWord x.addr) false = some st) :
    s.indRead m b = (0, s.setInd b (supSet m) { x with status := st }) := by
  unfold State.indRead
  dsimp only
  rw [h.fill, h.set, hr]
  exact congrArg (Prod.mk 0) (h.advance h.inc)

theorem indRead_buffered (h : IndReady s m b x) {first : Nat} (hh : x.held = some (indSpace x.addr, first))
    (hr : s.indRefusal m b (indSpace x.addr) (indWord x.addr) false = none) :
    s.indRead m b = (if keyWordAt b (indSpace x.addr) (indWord x.addr) then 0
      else x.words.getD (indWord x.addr - first) 0, s.setInd b (supSet m) { x with status := stOk }) := by
  unfold State.indRead
  dsimp only
  rw [h.fill, h.set, hr, hh]
  exact congrArg (Prod.mk _) (h.advance h.inc)

theorem indWrite_refused (h : IndReady s m b x) {st : Byte}
    (hr : s.indRefusal m b (indSpace x.addr) (indWord x.addr) true = some st)
    (hst : st ≠ stPolicy ∨ supSpace b (indSpace x.addr) = false) :
    s.indWrite m b v = s.setInd b (supSet m) { x with status := st } := by
  have ignored : ¬ (decide (st = stPolicy) && supSpace b (indSpace x.addr)) = true := by
    rw [Bool.and_eq_true, decide_eq_true_iff, not_and_or, Bool.not_eq_true]
    exact hst
  unfold State.indWrite
  dsimp only
  rw [h.fill, h.set, hr]
  dsimp only
  rw [if_neg ignored]
  exact h.advance h.inc

end

/-- A write of IND_DATA to a word of the entry held, which nothing refuses on its arrival. -/
structure IndTaken (s : State) (m : Master) (b : Blk) (x : IndSet) (sp w first : Nat) (v : Word) : Prop where
  ready : IndReady s m b x
  space : sp = indSpace x.addr
  word : w = indWord x.addr
  held : x.held = some (sp, first)
  refusal : s.indRefusal m b sp w true = none
  closed : s.spaceClosed b sp = false
  bar : s.wordBar b sp w v = none

section
variable {s : State} {m : Master} {b : Blk} {x : IndSet} {sp w first : Nat} {v : Word}

/-- What such a write makes of the set: the word in the buffer, dirty, or as it was where the word ignores it. -/
def indStored (b : Blk) (x : IndSet) (sp w first : Nat) (v : Word) : IndSet :=
  match bufferWord b sp w v with
  | some u => { x with words := x.words.set (w - first) u, dirty := true, status := stOk }
  | none => { x with status := stOk }

theorem indStored_inc : (indStored b x sp w first v).inc = x.inc := by
  unfold indStored
  split <;> rfl

theorem IndTaken.indWrite (h : IndTaken s m b x sp w first v) : s.indWrite m b v =
    (if w - first + 1 = x.words.length then
      (s.setInd b (supSet m) (indStored b x sp w first v)).indCommit b (supSet m)
    else s.setInd b (supSet m) (indStored b x sp w first v)).indAdvance b (supSet m) := by
  obtain ⟨ready, rfl, rfl, held, refusal, closed, bar⟩ := h
  unfold State.indWrite indStored
  dsimp only
  rw [ready.fill, ready.set, refusal]
  dsimp only
  rw [closed, bar]
  cases bufferWord b (indSpace x.addr) (indWord x.addr) v <;> dsimp only <;> rw [held] <;> rfl

theorem IndTaken.exec (h : IndTaken s m b x sp w first v) (ho : Open s m true (blkBase b + 0x14)) {y : IndSet} {t : State}
    (hy : indStored b x sp w first v = y) (ht : (if w - first + 1 = x.words.length then
      (s.setInd b (supSet m) y).indCommit b (supSet m) else s.setInd b (supSet m) y) = t)
    (hinc : (t.indOf b (supSet m)).inc = 0) : exec (.indDataWrite m b v) s = commit s t := by
  rw [exec_indDataWrite ho, h.indWrite, hy, ht, State.indAdvance_of_inc_zero hinc]

/-- A write that neither commits nor advances leaves the set that it stores. -/
theorem IndTaken.stored (h : IndTaken s m b x sp w first v) (ho : Open s m true (blkBase b + 0x14)) {y : IndSet}
    (hy : indStored b x sp w first v = y) (hc : w - first + 1 = x.words.length → y.dirty = false ∧ y.held ≠ none) :
    Ends (.indDataWrite m b v) s fun t => t.indOf b (supSet m) = y ∧ Framed [.ind] [] [] s t := by
  have same : (s.setInd b (supSet m) y).indOf b (supSet m) = y := State.indOf_setInd_same h.ready.ind
  have inc : y.inc = 0 := by rw [← hy, indStored_inc, h.ready.inc]
  have left : (if w - first + 1 = x.words.length then (s.setInd b (supSet m) y).indCommit b (supSet m)
      else s.setInd b (supSet m) y) = s.setInd b (supSet m) y := by
    split
    next hlast =>
      obtain ⟨clean, held⟩ := hc hlast
      obtain ⟨p, hp⟩ := Option.ne_none_iff_exists'.1 held
      exact State.indCommit_held (by rw [same, clean]) (p := p) (by rw [same, hp])
    next => rfl
  obtain ⟨t, ht, hx, -, hf⟩ := ends_of_setInd h.ready.ind (h.exec ho hy left (by rw [same, inc]))
  exact ⟨t, ht, hx, hf⟩

theorem IndTaken.ignored (h : IndTaken s m b x sp w first v) (ho : Open s m true (blkBase b + 0x14))
    (hb : bufferWord b sp w v = none) (hd : x.dirty = false) : Ends (.indDataWrite m b v) s fun t =>
      t.indOf b (supSet m) = { x with status := stOk } ∧ Framed [.ind] [] [] s t := by
  refine h.stored ho (by rw [indStored, hb]) fun _ => ⟨hd, ?_⟩
  rw [h.held]
  exact Option.some_ne_none _

theorem IndTaken.buffered (h : IndTaken s m b x sp w first v) (ho : Open s m true (blkBase b + 0x14)) {u : Word}
    (hb : bufferWord b sp w v = some u) (hn : w - first + 1 ≠ (x.words.set (w - first) u).length) :
    Ends (.indDataWrite m b v) s fun t => t.indOf b (supSet m) =
      { x with words := x.words.set (w - first) u, dirty := true, status := stOk } ∧ Framed [.ind] [] [] s t := by
  rw [List.length_set] at hn
  exact h.stored ho (by rw [indStored, hb]) fun hlast => absurd hlast hn

/-- Whether the fence domain of a word is fenced (R398). -/
def State.spaceFenced (s : State) (b : Blk) (sp w : Nat) : Bool :=
  match spaceDomain b sp w with
  | some d => s.fenced d
  | none => false

/-- An access that is not refused is of a space that exists and is not fenced; a write, of one that takes writes. -/
theorem State.indRefusal_none {write : Bool} (h : s.indRefusal m b sp w write = none) : ∃ row,
    s.spaceAt b sp = some row ∧ s.spaceFenced b sp w = false ∧ (write = true → row.kind ≠ .ro) := by
  unfold State.indRefusal at h
  split at h
  · cases h
  next row hrow =>
    split_ifs at h with hsup hdbg hfen hro
    refine ⟨row, hrow, Bool.eq_false_iff.2 hfen, fun hwr hk => hro ?_⟩
    rw [hwr, hk]
    exact Bool.or_true _

/-- The fence domain of an entry written is the word's: the one space where they could differ takes no writes. -/
theorem State.spaceFenced_of_written (h : s.indRefusal m b sp w true = none) : s.spaceFenced b sp first = false := by
  obtain ⟨row, hrow, hfen, hro⟩ := State.indRefusal_none h
  have domain : spaceDomain b sp first = spaceDomain b sp w := by
    by_cases hd : b = .dtm ∧ sp = 1
    · obtain ⟨rfl, rfl⟩ := hd
      obtain rfl := Option.some.inj hrow
      exact absurd rfl (hro rfl)
    · cases b
      case dtm => exact (if_neg fun e => hd ⟨rfl, e⟩).trans (if_neg fun e => hd ⟨rfl, e⟩).symm
      all_goals rfl
  rw [State.spaceFenced, domain]
  exact hfen

/-- A dirty buffer of a plain space that nothing bars commits its words (R51). -/
theorem State.indCommit_plain {sup : Bool} {y : IndSet} (hset : s.indOf b sup = y) (hd : y.dirty = true)
    (hh : y.held = some (sp, first)) (hf : s.spaceFenced b sp first = false) (hc : s.spaceClosed b sp = false)
    (hb : s.commitBar b sp first y.words = false) (hp : plainSpace b sp = true) :
    s.indCommit b sup = (s.setInd b sup { y with dirty := false }).setTabs b sp first y.words := by
  have dirty : ¬ (!y.dirty) = true := by
    rw [hd]
    exact Bool.false_ne_true
  have barred : ¬ (s.spaceClosed b sp || s.commitBar b sp first y.words) = true := by
    rw [hc, hb]
    exact Bool.false_ne_true
  unfold State.indCommit
  dsimp only
  rw [hset, hh]
  dsimp only
  rw [if_neg dirty, if_neg barred, State.spacePut_plain hp]
  exact if_neg (Bool.eq_false_iff.1 hf)

theorem State.setTabs_ind (s : State) (b : Blk) (sp w : Nat) (l : List Word) : (s.setTabs b sp w l).ind = s.ind := by
  induction l generalizing s w with
  | nil => rfl
  | cons v r ih => exact ih _ _

theorem IndTaken.committed (h : IndTaken s m b x sp w first v) (ho : Open s m true (blkBase b + 0x14)) {u : Word}
    (hb : bufferWord b sp w v = some u) (hl : w - first + 1 = (x.words.set (w - first) u).length)
    (hp : plainSpace b sp = true) (hbar : s.commitBar b sp first (x.words.set (w - first) u) = false) :
    Ends (.indDataWrite m b v) s fun t => (t.indOf b (supSet m)).dirty = false ∧
      (∀ j < (x.words.set (w - first) u).length, t.tab b sp (first + j) = (x.words.set (w - first) u).getD j 0) ∧
      Framed [.ind] [] (words b sp first (x.words.set (w - first) u).length) s t := by
  obtain ⟨ws, hws⟩ : ∃ ws, ws = x.words.set (w - first) u := ⟨_, rfl⟩
  rw [← hws] at hl hbar ⊢
  obtain ⟨y, hy⟩ : ∃ y : IndSet, y = { x with words := ws, dirty := true, status := stOk } := ⟨_, rfl⟩
  obtain ⟨t, ht⟩ : ∃ t, t = (s.setInd b (supSet m) y).setInd b (supSet m) { y with dirty := false } := ⟨_, rfl⟩
  have stored : indStored b x sp w first v = y := by rw [indStored, hb, hy, hws]
  have ind : amWf (fun _ => indReset) (s.setInd b (supSet m) y).ind := State.indWf_setInd h.ready.ind
  have same : (s.setInd b (supSet m) y).indOf b (supSet m) = y := State.indOf_setInd_same h.ready.ind
  have commits : (s.setInd b (supSet m) y).indCommit b (supSet m) = t.setTabs b sp first ws := by
    have words : y.words = ws := by rw [hy]
    rw [State.indCommit_plain same (by rw [hy]) (by rw [hy]; exact h.held) (State.spaceFenced_of_written h.refusal)
      h.closed (words ▸ hbar) hp, ← ht, words]
  have setOf : (t.setTabs b sp first ws).indOf b (supSet m) = { y with dirty := false } := by
    rw [State.indOf, State.setTabs_ind, ht]
    exact State.indOf_setInd_same ind
  have last : w - first + 1 = x.words.length := by rw [hl, hws, List.length_set]
  have inc : y.inc = 0 := by rw [hy]; exact h.ready.inc
  refine ends_of_commit (h.exec ho stored ((if_pos last).trans commits) (by rw [setOf]; exact inc)) ⟨?_, fun j hj => ?_, ?_⟩
  · rw [settle_indOf, setOf]
  · have wf : amWf tabReset t.tabs := ht ▸ (State.storesWf.canonical h.ready.wf).tabs
    rw [settle_tab, State.tab_setTabs t b sp first wf ws hj, List.getD_eq_getElem _ _ hj]
  · have sets : Framed [.ind] [] (words b sp first ws.length) s t := by
      rw [ht]
      exact ((Framed.refl _ _ _ s).setInd (by simp) b _ _).setInd (by simp) b _ _
    exact framed_settle (sets.setTabs b sp first ws fun k hk => List.mem_map.2 ⟨k, List.mem_range.2 hk, rfl⟩)

end

/-- Settles O12, command by command. -/
theorem indirectAccessGoesThroughTheBuffer : Obligations.IndirectAccessGoesThroughTheBuffer := by
  intro s m b v hw
  have ind : amWf (fun _ => indReset) s.ind := (State.storesWf.canonical hw).ind
  refine ⟨indAddrWrite_fetches ind, indAddrWrite_within ind, fun hb => idle_of_commit rfl (State.indFill_idle hb),
    fun row => indFetchDone_fills ind, fun first ho hb hh hinc hr => ?_, fun st ho hb hinc hr => ?_,
    fun first row ho hb hh hinc hr hrow hcf hbar _ _ => ?_, fun st ho hb hinc hr hst => ?_⟩
  · exact indDataRead_ends ⟨hw, rfl, hb, hinc⟩ ho (indRead_buffered ⟨hw, rfl, hb, hinc⟩ hh hr)
  · exact indDataRead_ends ⟨hw, rfl, hb, hinc⟩ ho (indRead_refused ⟨hw, rfl, hb, hinc⟩ hr)
  · have closed : s.spaceClosed b (indSpace (s.indOf b (supSet m)).addr) = false := by
      rw [State.spaceClosed, hrow]
      simpa using hcf
    have taken : IndTaken s m b (s.indOf b (supSet m)) _ _ first v :=
      ⟨⟨hw, rfl, hb, hinc⟩, rfl, rfl, hh, hr, closed, hbar⟩
    exact ⟨taken.ignored ho, fun u hu => ⟨taken.buffered ho hu, taken.committed ho hu⟩⟩
  · obtain ⟨t, ht, hx, -, hf⟩ := ends_of_setInd ind ((exec_indDataWrite (v := v) ho).trans
      (congrArg (commit s) (indWrite_refused ⟨hw, rfl, hb, hinc⟩ hr hst)))
    exact ⟨t, ht, hx, hf⟩

end Sys2Proof.Machine
end

section
/-! SUPPORT. Gateway commits (R268, Table CAN-3): a buffer write carries READY and KEEP in CHAN, byte 15. -/

namespace Sys2Proof.Machine

/-- A buffer write of Table CAN-3 to channel 0: NUM 9 and a DLC of 2, READY in CHAN, and STAT 0. -/
def readyWrite : List Byte :=
  List.replicate 14 0 ++ [0x12, 0x80, 0, 9] ++ toBe 4 0x123 ++ [2, 0] ++ List.replicate 36 0

/-- The frame as the switch holds it, of VLAN 5. -/
def readyStored : Stored :=
  { fid := 0, f := ⟨readyWrite, none, false, ⟨.none, 0, 0, none, none, none⟩, .wire⟩, ingress := 1,
    stamp := ⟨0, 0, false⟩, cls := .be, tc := 3, sliceB := false, ecells := 0, cells0 := 1, cells1 := 0, stream := none,
    vid := 5, tagged := false, pcp := 0, bad := false }

/-- Its place at the head of the queues of LP20. -/
def readyEntry : QEntry := ⟨0, 20, 3, 1, false, false, 0, []⟩

/-- The reset state with that frame at LP20, which sends VLAN 5 untagged, and the gateway's EtherType 0. -/
def readyAtGateway : State :=
  let s := (State.reset.setTab .swc 1 22 0x100000).setReg (canGwEtype 0) 0
  s.setSwc { s.swc with stored := [readyStored], queues := [readyEntry] }

theorem readyAtGateway_storesWf : readyAtGateway.storesWf := by decide +kernel

/-- The frame heads LP20, holds no IPB error, and leaves as it is stored. -/
theorem readyAtGateway_heads : readyAtGateway.lpHead 20 = some readyEntry ∧
    readyAtGateway.storedOf readyEntry.fid = some readyStored ∧ (∀ f ∈ readyAtGateway.swc.stored, f.bad = false) ∧
    readyAtGateway.gatewayBytes readyEntry readyStored = readyWrite := by decide +kernel

/-- It is channel 0's, and a buffer write of buffer 9. -/
theorem readyWrite_fields : be16At readyWrite 0 = fieldOf (readyAtGateway.reg (canGwOwnHi 0)) 0 16 ∧
    be32At readyWrite 2 = (readyAtGateway.reg (canGwOwnLo 0)).toNat ∧
    be16At readyWrite 12 = fieldOf (readyAtGateway.reg (canGwEtype 0)) 0 16 ∧
    byteAt readyWrite 14 = 0x12 ∧ be16At readyWrite 16 = 9 := by decide +kernel

/-- The commit sets READY of the buffer's word 1 from CHAN. -/
theorem readyWrite_commits : (doCanGwReceive 0 readyAtGateway).tab (.can 0) 1 181 = 0x102 := by decide +kernel

/-- Refutes O47: READY of a committed buffer comes from bit 7 of CHAN, byte 15 (Table CAN-3), and not, as the last clause
of CAN_GW_RECEIVE has it, from bit 7 of STAT, byte 23. -/
theorem not_canReceptionErrorsAndGateway : ¬ Obligations.CanReceptionErrorsAndGateway := by
  unfold Obligations.CanReceptionErrorsAndGateway
  intro h
  obtain ⟨-, -, -, -, -, -, -, -, -, -, -, -, receive, -⟩ :=
    h readyAtGateway .sup 0 ⟨false, false, false, false, false, 0, 0, []⟩ 0 .bit 0 readyAtGateway_storesWf
  obtain ⟨head, held, sound, leaves⟩ := readyAtGateway_heads
  obtain ⟨daHi, daLo, etype, kind, num⟩ := readyWrite_fields
  obtain ⟨-, -, commits⟩ := receive readyEntry readyStored head held sound
  rw [leaves, num] at commits
  obtain ⟨t, ht, -, -, -, ⟨-, ready, -⟩, -⟩ := commits ⟨daHi, daLo, etype⟩ kind (by decide)
  have settled : settle readyAtGateway (doCanGwReceive 0 readyAtGateway) = t := Host.Outcome.next.inj ht
  have word : t.tab (.can 0) 1 181 = 0x102 := by rw [← settled, settle_tab, readyWrite_commits]
  rw [word] at ready
  exact absurd ready (by decide)

end Sys2Proof.Machine
end

section
/-! SUPPORT. The tick of Datum with the steps and requests of its domains (R57-R63): what it leaves of every part, of a
domain's copies, and of its ADJ. -/

namespace Sys2Proof.Machine

/-- What a domain makes of its time on a tick: its step, else the request that is due, else nothing. -/
def State.tickUpd (s : State) (step : Fin 4 → Option (DTime → DTime)) (d : Fin 4) : Option (DTime → DTime) :=
  match step d with
  | some g => some g
  | none => s.adjUpd d

/-- A tick up to what follows from it for the requests: every domain has counted, and the clock. -/
def State.ticked (s : State) (step : Fin 4 → Option (DTime → DTime)) : State :=
  ({ s with dom := #v[s.tickDom 0 (s.tickUpd step 0), s.tickDom 1 (s.tickUpd step 1), s.tickDom 2 (s.tickUpd step 2),
    s.tickDom 3 (s.tickUpd step 3)] } : State).tickClock

/-- The domains whose request a tick applies: those due that take no step. -/
def State.tickDue (s : State) (step : Fin 4 → Option (DTime → DTime)) (d : Fin 4) : Bool := (step d).isNone && s.adjDue d

/-- The copies of a domain. -/
def Domain.copies (x : Domain) : DTime × DTime × DTime := (x.c0, x.c1, x.c2)

/-- ADJ of a domain and its registers are as they were. -/
structure AdjUntaken (d : Fin 4) (s t : State) : Prop where
  adj : t.dom[d].adj = s.dom[d].adj
  regs : ∀ a ∈ adjRegs d.val, t.reg a = s.reg a

theorem AdjUntaken.trans {d : Fin 4} {s t u : State} (h : AdjUntaken d s t) (h' : AdjUntaken d t u) :
    AdjUntaken d s u := ⟨h'.adj.trans h.adj, fun a ha => (h'.regs a ha).trans (h.regs a ha)⟩

section
variable (s : State) (step : Fin 4 → Option (DTime → DTime)) (d : Fin 4)

theorem State.dtmTick_of_en (h : s.en .dtm = true) :
    s.dtmTick step = ((s.ticked step).afterTicks (s.tickDue step)).latchSnaps := by
  rw [State.dtmTick, h]
  rfl

theorem State.ticked_dom : (s.ticked step).dom[d] = s.tickDom d (s.tickUpd step d) := by
  have cases : d = 0 ∨ d = 1 ∨ d = 2 ∨ d = 3 := by omega
  rcases cases with rfl | rfl | rfl | rfl <;> rfl

theorem State.ticked_framed : Framed [.dom, .clk, .ttu] [] [] s (s.ticked step) := by
  have doms (x : Vector Domain 4) : Framed [.dom, .clk, .ttu] [] [] s { s with dom := x } :=
    (Framed.refl _ _ _ s).update (q := .dom) (by simp) (fun p hp => by cases p <;> simp_all [Part.same]) rfl rfl rfl
  exact (doms _).trans ((State.tickClock_framed _).mono (by simp) (by simp) (by simp))

/-- In a running device each copy of a domain counts, or takes what its step or its request makes of it. -/
theorem State.tickDom_copies (upd : Option (DTime → DTime)) (hp : s.power ≠ .p2) :
    let g : DTime → DTime := upd.getD fun t => dtAdd t (s.incEff d)
    (s.tickDom d upd).copies = (g s.dom[d].c0, g s.dom[d].c1, g s.dom[d].c2) := by
  intro g
  simp only [Domain.copies, State.tickDom, hp, ne_eq, not_false_eq_true, if_true]
  cases upd <;> rfl

/-- A domain whose copies are as they were leaves every domain's so. -/
theorem copies_vset {v : Vector Domain 4} {e : Fin 4} {x : Domain} (h : x.copies = v[e].copies) :
    (vset v e x)[d].copies = v[d].copies := by
  by_cases hd : d = e
  · rw [hd, getElem_vset_same, h]
  · rw [getElem_vset_other _ _ hd]

/-- What follows from a tick for the requests leaves the copies. -/
theorem State.afterTick_copies (applied : Bool) (e : Fin 4) :
    (s.afterTick applied e).dom[d].copies = s.dom[d].copies := by
  unfold State.afterTick
  split
  · exact (congrArg (fun v : Vector Domain 4 => v[d].copies) (State.recheck_dom _ e)).trans
      (copies_vset (x := { s.dom[e] with adj := 0, req := .none }) d rfl)
  · split
    · exact copies_vset (x := { s.dom[e] with req := .held }) d rfl
    · rfl

theorem State.afterTicks_copies (due : Fin 4 → Bool) : (s.afterTicks due).dom[d].copies = s.dom[d].copies := by
  simp only [State.afterTicks, State.afterTick_copies]

/-- A request that is not applied leaves ADJ; one that awaited its tick is held. -/
theorem State.afterTick_untaken : AdjUntaken d s (s.afterTick false d) := by
  unfold State.afterTick
  rw [if_neg (by decide)]
  split
  · exact ⟨by rw [State.setDom, getElem_vset_same], fun _ _ => rfl⟩
  · exact ⟨rfl, fun _ _ => rfl⟩

theorem State.afterTicks_untaken {due : Fin 4 → Bool} (h : due d = false) : AdjUntaken d s (s.afterTicks due) := by
  have one (t : State) (e : Fin 4) : AdjUntaken d t (t.afterTick (due e) e) := by
    by_cases he : d = e
    · rw [← he, h]
      exact t.afterTick_untaken d
    · obtain ⟨dom, regs⟩ := t.afterTick_kept (due e) d e he
      exact ⟨by rw [dom], regs⟩
  exact (((one s 0).trans (one _ 1)).trans (one _ 2)).trans (one _ 3)

/-- The parts that a tick may change. -/
theorem State.dtmTick_framed (h : s.en .dtm = true) :
    Framed [.dom, .clk, .ttu, .eng] tickRegs [] s (s.dtmTick step) := by
  rw [s.dtmTick_of_en step h]
  exact ((s.ticked_framed step).mono (by simp) (by simp) (by simp)).trans
    (((State.afterTicks_framed _).mono (by simp) (by simp) (by simp)).trans
      ((State.latchSnaps_framed _).mono (by simp) (by simp) (by simp)))

theorem State.dtmTick_copies (h : s.en .dtm = true) (hp : s.power ≠ .p2) :
    let g : DTime → DTime := (s.tickUpd step d).getD fun t => dtAdd t (s.incEff d)
    (s.dtmTick step).dom[d].copies = (g s.dom[d].c0, g s.dom[d].c1, g s.dom[d].c2) := by
  rw [s.dtmTick_of_en step h]
  refine (State.afterTicks_copies _ d _).trans ?_
  rw [State.ticked_dom]
  exact s.tickDom_copies d _ hp

/-- A tick that applies no request of a domain leaves its ADJ. -/
theorem State.dtmTick_untaken (h : s.en .dtm = true) (hd : s.tickDue step d = false) :
    AdjUntaken d s (s.dtmTick step) := by
  rw [s.dtmTick_of_en step h]
  obtain ⟨adj, regs⟩ := (s.ticked step).afterTicks_untaken d hd
  refine ⟨adj.trans ?_, fun a ha => (regs a ha).trans rfl⟩
  rw [State.ticked_dom]
  rfl

/-- A snapshot's latch takes of a domain its copies alone. -/
theorem State.snapEdge_of_copies {s t : State} (hd : ∀ d : Fin 4, t.dom[d].copies = s.dom[d].copies)
    (hf : t.flt = s.flt) (h0 : t.degraded 0 = s.degraded 0) : t.snapEdge = s.snapEdge := by
  have time (d : Fin 4) : t.time d = s.time d := by
    obtain ⟨hc0, hc1, hc2⟩ := by simpa only [Domain.copies, Prod.mk.injEq] using hd d
    rw [State.time, State.time, State.fenced, State.fenced, hf, hc0, hc1, hc2]
  funext f
  unfold State.snapEdge State.dtpSnapOf State.stampDeg State.fenced
  simp only [time, hf, h0]

/-- The engines' snapshots in flight have seen the tick's edge of a state. -/
def SnapsLatched (s t u : State) : Prop :=
  ∀ e : Fin 10, t.eng[e] = { s.eng[e] with flight := s.eng[e].flight.map u.snapEdge }

theorem State.dtmTick_snaps (h : s.en .dtm = true) : SnapsLatched s (s.dtmTick step) (s.dtmTick step) := by
  have eng : ((s.ticked step).afterTicks (s.tickDue step)).eng = s.eng :=
    (State.afterTicks_framed _).parts .eng (by decide)
  rw [s.dtmTick_of_en step h]
  intro e
  rw [State.latchSnaps, eng]
  exact Vector.getElem_map _ _

end

end Sys2Proof.Machine
end

section
/-! SUPPORT. Voting of a domain's copies and the windows of line syntonization (R60, R61, R65, R66). -/

namespace Sys2Proof.Machine

/-! VOTE_RELOAD (R60). -/

section
variable {s : State} {d : Fin 4} {u0 u1 u2 : BitVec 112}

/-- Two copies agree and the third does not. -/
theorem Domain.oneOut_iff (x : Domain) :
    x.oneOut = true ↔ (x.c0 = x.c1 ∨ x.c0 = x.c2 ∨ x.c1 = x.c2) ∧ ¬ (x.c0 = x.c1 ∧ x.c1 = x.c2) := by
  simp only [Domain.oneOut, Bool.or_eq_true, Bool.and_eq_true, decide_eq_true_eq, ne_eq, decide_not, Bool.not_eq_true',
    decide_eq_false_iff_not]
  constructor
  · rintro ((⟨h, k⟩ | ⟨h, k⟩) | ⟨h, k⟩)
    · exact ⟨.inl h, fun c => k c.2⟩
    · exact ⟨.inr (.inl h), fun c => k c.2⟩
    · exact ⟨.inr (.inr h), fun c => k c.1⟩
  · rintro ⟨h | h | h, k⟩
    · exact .inl (.inl ⟨h, fun c => k ⟨h, c⟩⟩)
    · exact .inl (.inr ⟨h, fun c => k ⟨h.trans c.symm, c⟩⟩)
    · exact .inr ⟨h, fun c => k ⟨c, h⟩⟩

theorem Domain.noneAgree_iff (x : Domain) : x.noneAgree = true ↔ ¬ (x.c0 = x.c1 ∨ x.c0 = x.c2 ∨ x.c1 = x.c2) := by
  simp only [Domain.noneAgree, Bool.and_eq_true, decide_eq_true_eq, ne_eq, not_or, and_assoc]

/-- The domain whose wrong copy has been reloaded from the majority, counted (R60). -/
def State.voted (s : State) (d : Fin 4) (x : Domain) : State :=
  (s.setDom d (x.loadAll (dtMajority x.c0 x.c1 x.c2))).count (dtmDVoteCnt d.val)

theorem dtmDVoteCnt_notMem (d : Fin 4) : dtmDVoteCnt d.val ∉ tickRegs := by
  intro h
  rcases List.mem_append.1 h with h | h
  · have := ttuTimeRegs_bounds _ h
    simp only [dtmDVoteCnt] at this
    omega
  · obtain ⟨e, -, h⟩ := List.mem_flatMap.1 h
    simp only [dtmDVoteCnt, adjRegs, dtmDAdjNs, dtmDAdjFrac, dtmDAdjCnt, List.mem_cons, List.not_mem_nil, or_false] at h
    omega

theorem voteReload_ends (hw : s.storesWf)
    (hone : (s.dom[d].upset u0 u1 u2).oneOut = true) (hf : s.fenced (32 + d.val) = false) (hen : s.en .dtm = true)
    (hp : s.power ≠ .p2) (hreq : s.dom[d].req = .none) :
    let x := s.dom[d].upset u0 u1 u2
    Ends (.voteReload d u0 u1 u2) s fun t =>
      t.dom[d].c0 = dtAdd (dtMajority x.c0 x.c1 x.c2) (s.incEff d) ∧ t.dom[d].c1 = t.dom[d].c0 ∧
      t.dom[d].c2 = t.dom[d].c0 ∧ t.reg (dtmDVoteCnt d.val) = s.reg (dtmDVoteCnt d.val) + 1 ∧
      (∀ e : Fin 10, t.eng[e] = { s.eng[e] with flight := s.eng[e].flight.map t.snapEdge }) ∧
      Framed [.dom, .clk, .ttu, .eng]
        (dtmDVoteCnt d.val :: ttuTimeRegs ++ (List.range 4).flatMap (fun e =>
          [dtmDAdjNs e, dtmDAdjFrac e, dtmDAdjCnt e])) [] s t := by
  intro x
  have hi : dtmDVoteCnt d.val ≠ glbIntCnt := by simp only [glbIntCnt, dtmDVoteCnt]; omega
  obtain ⟨u, hu⟩ : ∃ u, u = s.voted d x := ⟨_, rfl⟩
  have out : exec (.voteReload d u0 u1 u2) s = commit s u.plainTick := by
    refine congrArg (commit s) (Eq.trans (if_neg ?_) (by rw [hu]; rfl))
    rw [hone, hf]
    decide
  have cnt (a : Nat) (ha : a ≠ dtmDVoteCnt d.val) : u.reg a = s.reg a := by
    rw [hu]; exact State.reg_setReg_other _ _ _ _ ha
  have en : u.en .dtm = true := by
    rw [State.en, cnt _ (by simp only [blkBase, dtmDVoteCnt]; omega)]; exact hen
  have own : u.dom[d] = x.loadAll (dtMajority x.c0 x.c1 x.c2) := by rw [hu]; exact getElem_vset_same _ _ _
  have inc : u.incEff d = s.incEff d := by
    rw [State.incEff, State.incEff, State.fofs, State.fofs, own, cnt _ (by simp only [dtmDSyntFofs, dtmDVoteCnt]; omega)]
    rfl
  have upd : u.tickUpd (fun _ => none) d = none := by
    have idle : u.adjDue d = false := by
      rw [State.adjDue, own, show (x.loadAll (dtMajority x.c0 x.c1 x.c2)).req = .none from hreq]
      rfl
    rw [State.tickUpd, State.adjUpd, idle]
    rfl
  have framed : Framed [.dom, .clk, .ttu, .eng] (dtmDVoteCnt d.val :: tickRegs) [] s u.plainTick := by
    refine Framed.trans (t := u) ?_ ((u.dtmTick_framed _ en).mono (by simp) (by simp) (by simp))
    rw [hu]
    exact ((Framed.refl _ _ _ s).setDom (by simp) d _).count (by simp)
  have copies := u.dtmTick_copies (fun _ => none) d en (by rw [hu]; exact hp)
  rw [upd, own, inc] at copies
  have counted : u.plainTick.reg (dtmDVoteCnt d.val) = s.reg (dtmDVoteCnt d.val) + 1 := by
    rw [State.plainTick, (u.dtmTick_framed _ en).regs _ (dtmDVoteCnt_notMem d) hi, hu]
    exact State.reg_setReg_same _ _ _ (State.storesWf_regs hw)
  refine ends_of_commit out ?_
  have snaps : (settle s u.plainTick).snapEdge = u.plainTick.snapEdge :=
    State.snapEdge_congr (settle_dom _ _) (settle_flt _ _) (settle_degraded _ _ 0)
  have heng : (settle s u.plainTick).eng = u.plainTick.eng := settle_part _ _ .eng
  rw [settle_dom, snaps, heng]
  obtain ⟨hc0, hc1, hc2⟩ := by simpa only [Domain.copies, Prod.mk.injEq] using copies
  refine ⟨hc0, hc1.trans hc0.symm, hc2.trans hc0.symm, ?_, fun e => ?_, framed_settle framed⟩
  · rw [settle_reg _ _ _ hi, counted]
  · rw [State.plainTick, u.dtmTick_snaps _ en e, hu]
    rfl

end

/-! DATUM_FENCE (R61, R397). -/

section
variable (s : State) (d : Fin 37) (cause i8 : Byte) (i16 : Nat)

/-- A fault report writes the fault log, its counters and the fault manager alone. -/
theorem State.fltLatch_framed :
    Framed [.flt] [fltFaultCnt, fltPermCnt] faultLogWords s (s.fltLatch d cause i8 i16) := by
  have logged (act : LogAction) := (s.fltLog_framed d.val cause act i8 i16).mono (ps' := [.flt])
    (rs' := [fltFaultCnt, fltPermCnt]) (ts' := faultLogWords) (by simp) (by simp) (by simp)
  unfold State.fltLatch
  split
  · exact (Framed.refl _ _ _ s).setFlt (by simp) _
  · split
    · exact ((logged _).count (by simp)).setFlt (by simp) _
    · exact ((logged _).count (by simp)).setFlt (by simp) _

/-- A domain not permanently fenced is fenced by a fault report. -/
theorem State.fltLatch_fenced (h : s.permFenced d = false) : (s.fltLatch d cause i8 i16).fenced d.val = true := by
  have set (x : BitVec 37) : (setBit x d.val true).getLsbD d.val = true := by rw [getLsbD_setBit _ d.isLt, if_pos rfl]
  unfold State.fltLatch
  rw [h, if_neg (by decide)]
  split <;> exact set _

end

section
variable {s : State} {d : Fin 4} {u0 u1 u2 : BitVec 112}

theorem datumFence_ends (hnone : (s.dom[d].upset u0 u1 u2).noneAgree = true)
    (hperm : s.permFenced (Fin.ofNat 37 (32 + d.val)) = false) :
    let x := s.dom[d].upset u0 u1 u2
    Ends (.datumFence d u0 u1 u2) s fun t =>
      t.fenced (32 + d.val) = true ∧ t.time d = x.c0 ∧ t.dom[d] = x ∧ (∀ e : Fin 4, e ≠ d → t.dom[e] = s.dom[e]) ∧
      Framed [.dom, .flt] [fltFaultCnt, fltPermCnt] faultLogWords s t := by
  intro x
  obtain ⟨u, hu⟩ : ∃ u, u = (s.setDom d x).fltLatch (Fin.ofNat 37 (32 + d.val)) 0x07 (BitVec.ofNat 8 d.val) 0 := ⟨_, rfl⟩
  have out : exec (.datumFence d u0 u1 u2) s = commit s u := by
    refine congrArg (commit s) (Eq.trans (if_neg ?_) hu.symm)
    rw [hnone]
    decide
  have latched := (s.setDom d x).fltLatch_framed (Fin.ofNat 37 (32 + d.val)) 0x07 (BitVec.ofNat 8 d.val) 0
  rw [← hu] at latched
  have dom : (settle s u).dom = vset s.dom d x := (settle_dom s u).trans (latched.parts .dom (by decide))
  have fenced : (settle s u).fenced (32 + d.val) = true := by
    have index : (Fin.ofNat 37 (32 + d.val)).val = 32 + d.val := Nat.mod_eq_of_lt (by omega)
    have latch := (s.setDom d x).fltLatch_fenced _ 0x07 (BitVec.ofNat 8 d.val) 0 hperm
    rw [← hu, index] at latch
    rw [State.fenced, settle_flt]
    exact latch
  have own : (settle s u).dom[d] = x := by rw [dom]; exact getElem_vset_same _ _ _
  refine ends_of_commit out ⟨fenced, by rw [State.time, if_pos fenced, own], own, fun e he => ?_, ?_⟩
  · rw [dom]
    exact getElem_vset_other _ _ he
  · exact framed_settle (((Framed.refl _ _ _ s).setDom (by simp) d x).trans (latched.mono (by simp) (by simp) (by simp)))

end

/-! SYNT_WINDOW_END (R65, R66). -/

section
variable {s : State} {d : Fin 4} {w : Word} {lock : Bool}

theorem syntWindowEnd_off (hw : s.storesWf) (h : bitOf (s.reg (dtmDSynt d.val)) 8 = false) :
    Ends (.syntWindowEnd d w lock) s fun t =>
      t.reg (dtmDSyntFofs d.val) = 0 ∧ t.dom[d].holdover = false ∧ t.dom[d].syntEn = false ∧
      (∀ e : Fin 4, e ≠ d → t.dom[e] = s.dom[e]) ∧ Framed [.dom] [dtmDSyntFofs d.val] [] s t := by
  obtain ⟨x, hx⟩ : ∃ x : Domain, x = { s.dom[d] with
      syntEn := false, syntPort := Fin.ofNat 8 (fieldOf (s.reg (dtmDSynt d.val)) 0 3), holdover := false, clean := false } :=
    ⟨_, rfl⟩
  have out : exec (.syntWindowEnd d w lock) s = commit s ((s.setDom d x).setReg (dtmDSyntFofs d.val) 0) := by
    refine congrArg (commit s) ((if_pos ?_).trans (by rw [hx]))
    rw [h]
    rfl
  have dom : (settle s ((s.setDom d x).setReg (dtmDSyntFofs d.val) 0)).dom = vset s.dom d x := settle_dom _ _
  refine ends_of_commit out ?_
  rw [dom, getElem_vset_same]
  refine ⟨?_, by rw [hx], by rw [hx], fun e he => getElem_vset_other _ _ he, ?_⟩
  · rw [settle_reg _ _ _ (by simp only [glbIntCnt, dtmDSyntFofs]; omega)]
    exact State.reg_setReg_same _ _ _ (State.storesWf_regs hw)
  · exact framed_settle (((Framed.refl _ _ _ s).setDom (by simp) d x).setReg _ (by simp))

/-- A window in which syntonization is asked for, with its port's lock, before and throughout: FOFS follows (R65). -/
def State.syntFollows (s : State) (d : Fin 4) (f : Word) : State :=
  let s1 := (s.setDom d { s.dom[d] with holdover := false }).setReg (dtmDSyntFofs d.val) f
  if incClamped s.dom[d].inc (sgn f) then s1.count dtmIncClampCnt else s1

theorem State.syntFollows_framed (s : State) (d : Fin 4) (f : Word) :
    Framed [.dom] [dtmDSyntFofs d.val, dtmIncClampCnt] [] s (s.syntFollows d f) := by
  have moved := ((Framed.refl [.dom] [dtmDSyntFofs d.val, dtmIncClampCnt] [] s).setDom (by simp) d
    { s.dom[d] with holdover := false }).setReg (a := dtmDSyntFofs d.val) f (by simp)
  unfold State.syntFollows
  dsimp only
  split
  · exact moved.count (by simp)
  · exact moved

theorem State.syntFollows_dom (s : State) (d : Fin 4) (f : Word) :
    (s.syntFollows d f).dom = vset s.dom d { s.dom[d] with holdover := false } := by
  unfold State.syntFollows
  dsimp only
  split <;> rfl

theorem syntWindowEnd_on (h : bitOf (s.reg (dtmDSynt d.val)) 8 = true) :
    let port : Fin 8 := Fin.ofNat 8 (fieldOf (s.reg (dtmDSynt d.val)) 0 3)
    let live := lock && s.eth[port].up && serdesMode (s.ethModeOf port)
    Ends (.syntWindowEnd d w lock) s fun t =>
      t.dom[d].syntEn = true ∧ t.dom[d].syntPort = port ∧
      (live = false → t.dom[d].holdover = true ∧ t.reg (dtmDSyntFofs d.val) = s.reg (dtmDSyntFofs d.val)) ∧
      (live = true → s.dom[d].syntEn = true → s.dom[d].clean = true → s.dom[d].syntPort = port →
        t.dom[d].holdover = false) ∧
      t.dom[d].c0 = s.dom[d].c0 ∧ t.dom[d].c1 = s.dom[d].c1 ∧ t.dom[d].c2 = s.dom[d].c2 ∧
      (∀ e : Fin 4, e ≠ d → t.dom[e] = s.dom[e]) ∧
      Framed [.dom] [dtmDSyntFofs d.val, dtmIncClampCnt] [] s t := by
  intro port live
  have out : exec (.syntWindowEnd d w lock) s = commit s
      (if live && s.dom[d].syntEn && s.dom[d].clean && s.dom[d].syntPort = port then
        s.syntFollows d (Config.loopFilter (s.reg (dtmDSyntFofs d.val)) w)
      else s.setDom d { s.dom[d] with
        syntEn := true, syntPort := port, holdover := s.dom[d].holdover || !live, clean := live }) := by
    refine congrArg (commit s) ((if_neg ?_).trans rfl)
    rw [h]
    decide
  have hi : dtmDSyntFofs d.val ≠ glbIntCnt := by simp only [glbIntCnt, dtmDSyntFofs]; omega
  by_cases hc : (live && s.dom[d].syntEn && s.dom[d].clean && s.dom[d].syntPort = port) = true
  · rw [if_pos hc] at out
    obtain ⟨⟨⟨hlive, hen⟩, -⟩, hport⟩ := by simpa only [Bool.and_eq_true, decide_eq_true_eq] using hc
    refine ends_of_commit out ?_
    rw [settle_dom, State.syntFollows_dom, getElem_vset_same]
    exact ⟨hen, hport, fun hf => absurd hlive (by rw [hf]; decide), fun _ _ _ _ => rfl, rfl, rfl, rfl,
      fun e he => getElem_vset_other _ _ he, framed_settle (s.syntFollows_framed d _)⟩
  · rw [if_neg hc] at out
    have dom (x : Domain) : (settle s (s.setDom d x)).dom = vset s.dom d x := settle_dom _ _
    refine ends_of_commit out ?_
    rw [dom, getElem_vset_same]
    refine ⟨rfl, rfl, fun hf => ⟨by rw [hf]; exact Bool.or_true _, settle_reg _ _ _ hi⟩, fun hl he hcl hp => ?_, rfl, rfl,
      rfl, fun e he => getElem_vset_other _ _ he, framed_settle ((Framed.refl _ _ _ s).setDom (by simp) d _)⟩
    exact absurd (by rw [hl, he, hcl, decide_eq_true hp]; rfl) hc

end

/-- Settles O20, command by command. -/
theorem datumVotingAndSyntonization : Obligations.DatumVotingAndSyntonization := by
  intro s d u0 u1 u2 w lock hw
  have one := (s.dom[d].upset u0 u1 u2).oneOut_iff
  have none := (s.dom[d].upset u0 u1 u2).noneAgree_iff
  refine ⟨⟨fun hpair hdiff => voteReload_ends hw (one.2 ⟨hpair, hdiff⟩), fun hnot => ?_, fun hab hac hbc => ?_,
    fun hpair => ?_⟩, syntWindowEnd_off hw, syntWindowEnd_on⟩
  · refine idle_of_commit rfl (if_pos ?_)
    have out : (s.dom[d].upset u0 u1 u2).oneOut = false := by
      refine Bool.eq_false_iff.2 fun h => ?_
      obtain ⟨hpair, hdiff⟩ := one.1 h
      exact hnot.elim (fun hn => hn hpair) hdiff
    rw [out]
    rfl
  · exact datumFence_ends (none.2 fun h => h.elim hab fun h => h.elim hac hbc)
  · refine idle_of_commit rfl (if_pos ?_)
    rw [Bool.eq_false_iff.2 fun h => none.1 h hpair]
    rfl

end Sys2Proof.Machine
end

section
/-! SUPPORT. Steps of Datum (R63, R86): what DTM_CMD does on its tick, domain by domain, and what FORCE_STEP and LOAD
end in. -/

namespace Sys2Proof.Machine

/-! What a step leaves besides the time (R63, R64, R86). -/

/-- The registers that the steps of a write may change. -/
def stepRegs : List Nat :=
  ttuTimeRegs ++ (List.range 4).flatMap (fun e => [dtmDAdjNs e, dtmDAdjFrac e, dtmDAdjCnt e, dtmDStepCnt e])

/-- The words of the step log. -/
abbrev stepLogWords : List Nat := words .dtm 0 0 32

theorem stepRegs_own (e : Fin 4) : ∀ a ∈ dtmDStepCnt e.val :: adjRegs e.val, a ∈ stepRegs := by
  intro a ha
  refine List.mem_append_right _ (List.mem_flatMap.2 ⟨e.val, List.mem_range.2 e.isLt, ?_⟩)
  simp only [adjRegs, List.mem_cons, List.not_mem_nil, or_false] at ha ⊢
  tauto

theorem tickRegs_subset_stepRegs : tickRegs ⊆ stepRegs := by
  intro a ha
  rcases List.mem_append.1 ha with ha | ha
  · exact List.mem_append_left _ ha
  · obtain ⟨e, he, ha⟩ := List.mem_flatMap.1 ha
    exact stepRegs_own ⟨e, List.mem_range.1 he⟩ a (List.mem_cons_of_mem _ ha)

section
variable (s0 s : State) (m : Master) (l f : BitVec 4) (d e : Fin 4)

theorem State.logStep_framed (kind : Nat) (before : DTime) (corr : Int) :
    Framed [.stepSeq] [] stepLogWords s (s.logStep m d kind before corr) := by
  have logged := Framed.setTabs (Framed.refl [.stepSeq] [] stepLogWords s) .dtm 0 (s.stepSeq.toNat % 8 * 4)
    [w32 (2 ^ 24 * kind + 2 ^ 16 * d.val + 2 ^ 8 * stepMaster m + s.stepSeq.toNat), w32 (dtNs before), w32 (dtSec before),
      BitVec.ofInt 32 corr] fun k hk => ?_
  · exact logged.update (q := .stepSeq) (by simp) (fun p hp => by cases p <;> simp_all [Part.same, State.logStep]) rfl rfl rfl
  · have : k < 4 := hk
    exact List.mem_map.2 ⟨_, List.mem_range.2 (by omega), congrArg _ (Nat.zero_add _)⟩

/-- A step counted and logged. -/
def State.stepLogged (s0 s : State) (m : Master) (l : BitVec 4) (d : Fin 4) (g : DTime → DTime) : State :=
  (s.count (dtmDStepCnt d.val)).logStep m d (if l.getLsbD d.val then 2 else 1) (s0.time d)
    (stepCorr (dtAdd (s0.time d) (s0.incEff d)) (g (s0.time d)))

theorem State.afterStep_none (h : s0.stepOf l f d = none) : s0.afterStep m l f s d = s := by
  rw [State.afterStep, h]

theorem State.afterStep_some {g : DTime → DTime} (h : s0.stepOf l f d = some g) : s0.afterStep m l f s d =
    (if l.getLsbD d.val then s0.stepLogged s m l d g else (s0.stepLogged s m l d g).clearAdj d).recheck d := by
  rw [State.afterStep, h]
  rfl

section
variable (g : DTime → DTime)

theorem State.stepLogged_framed :
    Framed [.stepSeq] [dtmDStepCnt d.val] stepLogWords s (s0.stepLogged s m l d g) :=
  ((Framed.refl _ _ _ s).count (by simp)).trans ((State.logStep_framed _ m d _ _ _).mono (by simp) (by simp) (by simp))

theorem State.stepLogged_stepSeq : (s0.stepLogged s m l d g).stepSeq = s.stepSeq + 1 := by
  have keep (t : State) (w : Nat) (ws : List Word) : (t.setTabs .dtm 0 w ws).stepSeq = t.stepSeq :=
    (Framed.setTabs (ts := (List.range ws.length).map fun k => tabKey (blkIdx .dtm) 0 (w + k)) (Framed.refl [] [] _ t)
      .dtm 0 w ws fun k hk => List.mem_map.2 ⟨k, List.mem_range.2 hk, rfl⟩).parts .stepSeq (by simp)
  exact congrArg (· + 1) (keep _ _ _)

theorem State.stepLogged_reg (a : Nat) : (s0.stepLogged s m l d g).reg a = (s.count (dtmDStepCnt d.val)).reg a :=
  State.reg_of_regs_eq (State.setTabs_regs _ _ _ _ _)

end

/-- The re-check of the trigger units leaves Datum's registers. -/
theorem State.recheck_dtmReg {a : Nat} (h : 0x20000 ≤ a ∧ a < 0x30000) : (s.recheck e).reg a = s.reg a :=
  (s.recheck_framed e).regs a (fun hm => by have := ttuTimeRegs_bounds a hm; omega) (by simp only [glbIntCnt]; omega)

/-- What a step makes of its domain beside the copies: FORCE_STEP takes ADJ and its request. -/
def State.stepTakes (s0 : State) (l f : BitVec 4) (d : Fin 4) (x : Domain) : Domain :=
  if (s0.stepOf l f d).isSome && !l.getLsbD d.val then { x with adj := 0, req := .none } else x

theorem State.stepTakes_copies (x : Domain) : (s0.stepTakes l f d x).copies = x.copies := by
  unfold State.stepTakes
  split <;> rfl

theorem State.afterStep_framed :
    Framed [.dom, .ttu, .stepSeq] stepRegs stepLogWords s (s0.afterStep m l f s e) := by
  have recheck (t : State) := (t.recheck_framed e).mono (ps' := [.dom, .ttu, .stepSeq]) (rs' := stepRegs)
    (ts' := stepLogWords) (by simp) (List.subset_append_left _ _) (by simp)
  cases h : s0.stepOf l f e with
  | none => rw [State.afterStep_none _ _ _ _ _ _ h]; exact Framed.refl _ _ _ s
  | some g =>
    have logged := (s0.stepLogged_framed s m l e g).mono (ps' := [.dom, .ttu, .stepSeq]) (rs' := stepRegs)
      (ts' := stepLogWords) (by simp) (fun a ha => stepRegs_own e a (by simp_all)) (fun _ h => h)
    rw [State.afterStep_some _ _ _ _ _ _ h]
    split
    · exact logged.trans (recheck _)
    · exact (logged.trans ((State.clearAdj_framed _ e).mono (by simp)
        (fun a ha => stepRegs_own e a (List.mem_cons_of_mem _ ha)) (by simp))).trans (recheck _)

theorem State.afterStep_dom : (s0.afterStep m l f s e).dom[d] =
    if d = e then s0.stepTakes l f d s.dom[d] else s.dom[d] := by
  cases h : s0.stepOf l f e with
  | none =>
    rw [State.afterStep_none _ _ _ _ _ _ h]
    split
    · next hd => rw [hd, State.stepTakes, h]; rfl
    · rfl
  | some g =>
    have logged : (s0.stepLogged s m l e g).dom = s.dom := (s0.stepLogged_framed s m l e g).parts .dom (by decide)
    rw [State.afterStep_some _ _ _ _ _ _ h, State.recheck_dom]
    by_cases hl : l.getLsbD e.val = true
    · rw [if_pos hl, logged]
      split
      · next hd => rw [hd, State.stepTakes, hl, Bool.not_true, Bool.and_false]; rfl
      · rfl
    · rw [if_neg hl]
      have clear : ((s0.stepLogged s m l e g).clearAdj e).dom =
          vset s.dom e { s.dom[e] with adj := 0, req := .none } := by
        rw [← logged]; rfl
      rw [clear]
      split
      · next hd => rw [hd, getElem_vset_same, State.stepTakes, h, Bool.eq_false_iff.2 hl]; rfl
      · next hd => exact getElem_vset_other _ _ hd

/-- Of Datum's registers a step changes its domain's STEP_CNT, and FORCE_STEP the halves of ADJ. -/
theorem State.afterStep_reg {a : Nat} (h : 0x20000 ≤ a ∧ a < 0x30000) (hn : ∀ k : Fin 4, a ≠ dtmDAdjNs k.val)
    (hf : ∀ k : Fin 4, a ≠ dtmDAdjFrac k.val) : (s0.afterStep m l f s e).reg a =
      if (s0.stepOf l f e).isSome then (s.count (dtmDStepCnt e.val)).reg a else s.reg a := by
  cases ho : s0.stepOf l f e with
  | none => rw [State.afterStep_none _ _ _ _ _ _ ho]; rfl
  | some g =>
    rw [State.afterStep_some _ _ _ _ _ _ ho, State.recheck_dtmReg _ _ h]
    split
    · exact s0.stepLogged_reg s m l e g a
    · rw [State.clearAdj, State.reg_setReg_other _ _ _ _ (hn e), State.reg_setReg_other _ _ _ _ (hf e)]
      exact s0.stepLogged_reg s m l e g a

theorem State.afterStep_adjCnt : (s0.afterStep m l f s e).reg (dtmDAdjCnt d.val) = s.reg (dtmDAdjCnt d.val) := by
  rw [State.afterStep_reg]
  · split
    · exact State.reg_setReg_other _ _ _ _ (by simp only [dtmDAdjCnt, dtmDStepCnt]; omega)
    · rfl
  all_goals intros; simp only [dtmDAdjCnt, dtmDAdjNs, dtmDAdjFrac]; omega

theorem State.afterStep_stepCnt (hw : s.storesWf) : (s0.afterStep m l f s e).reg (dtmDStepCnt d.val) =
    s.reg (dtmDStepCnt d.val) + if d = e ∧ (s0.stepOf l f d).isSome then 1 else 0 := by
  rw [State.afterStep_reg]
  · by_cases hd : d = e
    · subst hd
      simp only [true_and]
      split
      · exact State.reg_setReg_same _ _ _ (State.storesWf_regs hw)
      · exact (BitVec.add_zero _).symm
    · simp only [hd, false_and, if_false]
      rw [show s.reg (dtmDStepCnt d.val) + 0 = _ from BitVec.add_zero _]
      split
      · exact State.reg_setReg_other _ _ _ _ (by simp only [dtmDStepCnt]; omega)
      · rfl
  all_goals intros; simp only [dtmDStepCnt, dtmDAdjNs, dtmDAdjFrac]; omega

theorem State.afterStep_stepSeq : (s0.afterStep m l f s e).stepSeq =
    s.stepSeq + if (s0.stepOf l f e).isSome then 1 else 0 := by
  cases h : s0.stepOf l f e with
  | none => rw [State.afterStep_none _ _ _ _ _ _ h]; exact (BitVec.add_zero _).symm
  | some g =>
    have recheck (t : State) : (t.recheck e).stepSeq = t.stepSeq := (t.recheck_framed e).parts .stepSeq (by decide)
    rw [State.afterStep_some _ _ _ _ _ _ h, recheck]
    split <;> exact s0.stepLogged_stepSeq s m l e g

/-! The steps of one write of DTM_CMD, domains in ascending order. -/

/-- What the steps of a write leave besides the time. -/
def State.afterSteps (s0 : State) (m : Master) (l f : BitVec 4) (s : State) : State :=
  s0.afterStep m l f (s0.afterStep m l f (s0.afterStep m l f (s0.afterStep m l f s 0) 1) 2) 3

theorem State.stepTick_of_en (h : s.en .dtm = true) :
    s.stepTick m l f = s.afterSteps m l f (s.dtmTick (s.stepOf l f)) := by
  rw [State.stepTick, h]
  rfl

theorem State.afterSteps_framed :
    Framed [.dom, .ttu, .stepSeq] stepRegs stepLogWords s (s0.afterSteps m l f s) :=
  (((s0.afterStep_framed s m l f 0).trans (s0.afterStep_framed _ m l f 1)).trans
    (s0.afterStep_framed _ m l f 2)).trans (s0.afterStep_framed _ m l f 3)

theorem State.afterSteps_dom : (s0.afterSteps m l f s).dom[d] = s0.stepTakes l f d s.dom[d] := by
  simp only [State.afterSteps, State.afterStep_dom]
  have cases : d = 0 ∨ d = 1 ∨ d = 2 ∨ d = 3 := by omega
  rcases cases with rfl | rfl | rfl | rfl <;> rfl

theorem State.afterSteps_adjCnt : (s0.afterSteps m l f s).reg (dtmDAdjCnt d.val) = s.reg (dtmDAdjCnt d.val) := by
  simp only [State.afterSteps, State.afterStep_adjCnt]

theorem State.afterSteps_stepCnt (hw : s.storesWf) : (s0.afterSteps m l f s).reg (dtmDStepCnt d.val) =
    s.reg (dtmDStepCnt d.val) + if (s0.stepOf l f d).isSome then 1 else 0 := by
  have h0 := hw.afterStep (s0 := s0) (m := m) (loads := l) (forced := f) (d := 0)
  have h1 := h0.afterStep (s0 := s0) (m := m) (loads := l) (forced := f) (d := 1)
  have h2 := h1.afterStep (s0 := s0) (m := m) (loads := l) (forced := f) (d := 2)
  rw [State.afterSteps, State.afterStep_stepCnt _ _ _ _ _ _ _ h2, State.afterStep_stepCnt _ _ _ _ _ _ _ h1,
    State.afterStep_stepCnt _ _ _ _ _ _ _ h0, State.afterStep_stepCnt _ _ _ _ _ _ _ hw]
  have cases : d = 0 ∨ d = 1 ∨ d = 2 ∨ d = 3 := by omega
  rcases cases with rfl | rfl | rfl | rfl <;> simp

theorem State.afterSteps_stepSeq : ((s0.afterSteps m l f s).stepSeq).toNat =
    (s.stepSeq.toNat + ((List.finRange 4).filter fun e => (s0.stepOf l f e).isSome).length) % 256 := by
  have all : List.finRange 4 = [0, 1, 2, 3] := by decide
  have one (x : BitVec 8) (b : Bool) : (x + if b then 1 else 0).toNat = (x.toNat + if b then 1 else 0) % 256 := by
    cases b <;> simp [BitVec.toNat_add, Nat.mod_eq_of_lt x.isLt]
  simp only [State.afterSteps, State.afterStep_stepSeq, one, all, ← List.countP_eq_length_filter, List.countP_cons,
    List.countP_nil]
  omega

end

/-! The tick after DTM_CMD (R63, R64, R86). -/

section
variable {s : State} {m : Master} {l f : BitVec 4}

/-- What the steps of a write leave, a settled effect included. -/
structure StepsTaken (s : State) (l f : BitVec 4) (t : State) : Prop where
  copies : ∀ d : Fin 4, ∀ g, s.stepOf l f d = some g →
    t.dom[d].copies = (g s.dom[d].c0, g s.dom[d].c1, g s.dom[d].c2)
  adj : ∀ d : Fin 4, ∀ g, s.stepOf l f d = some g → l.getLsbD d.val = true → t.dom[d].adj = s.dom[d].adj
  cleared : ∀ d : Fin 4, ∀ g, s.stepOf l f d = some g → l.getLsbD d.val = false →
    t.dom[d].adj = 0 ∧ t.dom[d].req = .none
  adjCnt : ∀ d : Fin 4, ∀ g, s.stepOf l f d = some g → t.reg (dtmDAdjCnt d.val) = s.reg (dtmDAdjCnt d.val)
  stepCnt : ∀ d : Fin 4, t.reg (dtmDStepCnt d.val) =
    s.reg (dtmDStepCnt d.val) + if (s.stepOf l f d).isSome then 1 else 0
  stepSeq : t.stepSeq.toNat =
    (s.stepSeq.toNat + ((List.finRange 4).filter fun e => (s.stepOf l f e).isSome).length) % 256
  snaps : ∀ e : Fin 10, t.eng[e] = { s.eng[e] with flight := s.eng[e].flight.map t.snapEdge }
  framed : Framed [.dom, .clk, .ttu, .stepSeq, .eng] stepRegs stepLogWords s t

theorem dtmDStepCnt_notMem (d : Fin 4) : dtmDStepCnt d.val ∉ tickRegs := by
  intro h
  rcases List.mem_append.1 h with h | h
  · have := ttuTimeRegs_bounds _ h
    simp only [dtmDStepCnt] at this
    omega
  · obtain ⟨e, -, h⟩ := List.mem_flatMap.1 h
    simp only [dtmDStepCnt, adjRegs, dtmDAdjNs, dtmDAdjFrac, dtmDAdjCnt, List.mem_cons, List.not_mem_nil, or_false] at h
    omega

theorem StepsTaken.of_stepTick (hw : s.storesWf) (hen : s.en .dtm = true) (hp : s.power ≠ .p2) :
    StepsTaken s l f (settle s (s.stepTick m l f)) := by
  obtain ⟨u, hu⟩ : ∃ u, u = s.dtmTick (s.stepOf l f) := ⟨_, rfl⟩
  obtain ⟨v, hv⟩ : ∃ v, v = s.afterSteps m l f u := ⟨_, rfl⟩
  rw [s.stepTick_of_en m l f hen, ← hu, ← hv]
  have wf : u.storesWf := hu ▸ hw.dtmTick
  have ticked := s.dtmTick_framed (s.stepOf l f) hen
  have after := s.afterSteps_framed u m l f
  rw [← hu] at ticked
  rw [← hv] at after
  have dom (d : Fin 4) : v.dom[d] = s.stepTakes l f d u.dom[d] := by rw [hv, State.afterSteps_dom]
  have copies (d : Fin 4) : v.dom[d].copies = u.dom[d].copies := by rw [dom, State.stepTakes_copies]
  have untaken (d : Fin 4) (g) (h : s.stepOf l f d = some g) : AdjUntaken d s u := by
    rw [hu]
    exact s.dtmTick_untaken _ d hen (by rw [State.tickDue, h]; rfl)
  constructor
  case copies =>
    intro d g h
    rw [settle_dom, copies, hu, State.dtmTick_copies _ _ _ hen hp, State.tickUpd, h]
    rfl
  case adj =>
    intro d g h hl
    rw [settle_dom, dom, State.stepTakes, hl, Bool.not_true, Bool.and_false]
    exact (untaken d g h).adj
  case cleared =>
    intro d g h hl
    rw [settle_dom, dom, State.stepTakes, h, hl]
    exact ⟨rfl, rfl⟩
  case adjCnt =>
    intro d g h
    rw [settle_reg _ _ _ (by simp only [glbIntCnt, dtmDAdjCnt]; omega), hv, State.afterSteps_adjCnt]
    exact (untaken d g h).regs _ adjRegs_mem.2.2
  case stepCnt =>
    intro d
    have hi : dtmDStepCnt d.val ≠ glbIntCnt := by simp only [glbIntCnt, dtmDStepCnt]; omega
    rw [settle_reg _ _ _ hi, hv, State.afterSteps_stepCnt _ _ _ _ _ _ wf, ticked.regs _ (dtmDStepCnt_notMem d) hi]
  case stepSeq =>
    have seq : u.stepSeq = s.stepSeq := ticked.parts .stepSeq (by decide)
    have settled : (settle s v).stepSeq = v.stepSeq := settle_part s v .stepSeq
    rw [settled, hv, State.afterSteps_stepSeq, seq]
  case snaps =>
    have deg : v.degraded 0 = u.degraded 0 := congrArg (bitOf · 0) (after.regs clkDegraded (by decide) (by decide))
    have snaps : (settle s v).snapEdge = u.snapEdge :=
      State.snapEdge_of_copies (fun d => by rw [settle_dom, copies])
        ((settle_flt s v).trans (after.parts .flt (by decide))) ((settle_degraded s v 0).trans deg)
    have eng : (settle s v).eng = u.eng := (settle_part s v .eng).trans (after.parts .eng (by decide))
    intro e
    rw [snaps, eng, hu]
    exact s.dtmTick_snaps _ hen e
  case framed =>
    exact framed_settle ((ticked.mono (by simp) tickRegs_subset_stepRegs (by simp)).trans
      (after.mono (by simp) (fun _ h => h) (fun _ h => h)))

end

/-! FORCE_STEP and LOAD (R63, R398). -/

section
variable {s : State} {m : Master} {l f : BitVec 4}

/-- Bit k of a command names a domain in FORCE_STEP, or four bits up in LOAD. -/
theorem dtmCmd_bit (l f : BitVec 4) (k : Nat) : ((l ++ f).setWidth 32 : Word).getLsbD k =
    if k < 4 then f.getLsbD k else l.getLsbD (k - 4) := by
  rw [BitVec.getLsbD_setWidth, BitVec.getLsbD_append]
  by_cases h : k < 32
  · simp [h]
  · rw [decide_eq_false h, Bool.false_and, if_neg (by omega), BitVec.getLsbD_of_ge l _ (by omega)]

theorem dtmCmd_fields (l f : BitVec 4) :
    ((l ++ f).setWidth 32 : Word).extractLsb' 4 4 = l ∧ ((l ++ f).setWidth 32 : Word).extractLsb' 0 4 = f := by
  constructor <;>
  · refine BitVec.eq_of_getLsbD_eq fun k hk => ?_
    rw [BitVec.getLsbD_extractLsb', dtmCmd_bit]
    simp [hk]

/-- A command of FORCE_STEP alone is one with no LOAD. -/
theorem dtmCmd_force (f : BitVec 4) : (f.setWidth 32 : Word) = ((0 : BitVec 4) ++ f).setWidth 32 := by
  revert f
  decide

/-- The bits of DTM_CMD that name fenced domains. -/
theorem State.dtmMask_bit (s : State) (k : Nat) : (s.fencedMask .dtm 0x20).getLsbD k =
    (decide (k < 8) && s.fenced (32 + k % 4)) := by
  by_cases h : k < 32
  · exact getLsbD_bitsFrom 32 _ k h
  · rw [BitVec.getLsbD_of_ge _ _ (by omega), decide_eq_false (by omega : ¬ k < 8), Bool.false_and]

/-- The domains named are not fenced. -/
abbrev State.live (s : State) (g : BitVec 4) : Prop := ∀ e < 4, g.getLsbD e = true → s.fenced (32 + e) = false

theorem State.dtmMask_live (hl : s.live l) (hf : s.live f) :
    ((l ++ f).setWidth 32 : Word) &&& s.fencedMask .dtm 0x20 = 0 := by
  refine BitVec.eq_of_getLsbD_eq fun k _ => ?_
  rw [BitVec.getLsbD_and, dtmCmd_bit, State.dtmMask_bit]
  refine Eq.trans ?_ BitVec.getLsbD_zero.symm
  rw [Bool.and_eq_false_iff]
  by_cases h : k < 4
  · rw [if_pos h, Nat.mod_eq_of_lt h]
    cases hb : f.getLsbD k with
    | false => exact .inl rfl
    | true => exact .inr (by rw [hf k h hb, Bool.and_false])
  · rw [if_neg h]
    by_cases h8 : k < 8
    · cases hb : l.getLsbD (k - 4) with
      | false => exact .inl rfl
      | true => exact .inr (by rw [show k % 4 = k - 4 by omega, hl _ (by omega) hb, Bool.and_false])
    · exact .inr (by rw [decide_eq_false h8, Bool.false_and])

/-- FORCE_STEP of fenced domains alone: every bit written is one of a fenced domain's (R398). -/
theorem State.dtmMask_fenced (hf : ∀ e < 4, f.getLsbD e = true → s.fenced (32 + e) = true) :
    ((f.setWidth 32 : Word) &&& s.fencedMask .dtm 0x20) = f.setWidth 32 := by
  refine BitVec.eq_of_getLsbD_eq fun k _ => ?_
  rw [dtmCmd_force, BitVec.getLsbD_and, dtmCmd_bit, State.dtmMask_bit]
  by_cases h : k < 4
  · rw [if_pos h, Nat.mod_eq_of_lt h, decide_eq_true (by omega : k < 8), Bool.true_and]
    cases hb : f.getLsbD k with
    | false => rfl
    | true => rw [hf k h hb]; rfl
  · rw [if_neg h]
    simp

theorem exec_load (ho : Open s m true dtmCmd) (hl : s.live l) (hf : s.live f) :
    exec (.load m l f) s = commit s (if s.shadowSteered then s else s.stepTick m l f) := by
  refine congrArg (commit s) ((State.guarded_of_open ho _).trans ((if_pos (State.dtmMask_live hl hf)).trans ?_))
  obtain ⟨hload, hforce⟩ := dtmCmd_fields l f
  rw [State.dtmSteps, hload, hforce]

theorem exec_forceStep (ho : Open s m true dtmCmd) (hf : s.live f) :
    exec (.forceStep m f) s = commit s (if s.shadowSteered then s else s.stepTick m 0 f) := by
  have none : s.live 0 := fun e _ h => by simp at h
  obtain ⟨hload, hforce⟩ := dtmCmd_fields 0 f
  refine congrArg (commit s) ((State.guarded_of_open ho _).trans ?_)
  rw [dtmCmd_force]
  refine (if_pos (State.dtmMask_live none hf)).trans ?_
  rw [State.dtmSteps, hload, hforce]

theorem forceStep_fenced (hw : s.storesWf) (ho : Open s m true dtmCmd) (hne : f ≠ 0)
    (hf : ∀ e < 4, f.getLsbD e = true → s.fenced (32 + e) = true) :
    Ends (.forceStep m f) s fun t =>
      (m = .sup → t.reg glbSupBuserrCnt = s.reg glbSupBuserrCnt + 1) ∧
      Framed [.hif] [glbSupBuserrCnt, hifBuserrDropCnt] [] s t := by
  have mask := State.dtmMask_fenced hf
  have nonzero : (f.setWidth 32 : Word) ≠ 0 := by
    clear mask hf
    revert f
    decide
  have out : exec (.forceStep m f) s = commit s (s.accessErr m true 0 dtmCmd stFenced) := by
    refine congrArg (commit s) ((State.guarded_of_open ho _).trans ?_)
    rw [State.sharedCmd, mask]
    exact (if_neg nonzero).trans (if_pos rfl)
  refine ends_of_commit out ⟨fun hm => ?_, framed_settle (s.accessErr_framed _ _ _ _ m)⟩
  rw [settle_reg _ _ _ (by decide), hm]
  exact s.accessErr_sup_count _ _ _ _ hw

theorem dtMk_of_load (sec ns : Nat) (hsec : sec < 2 ^ 48) (hns : ns < 1000000000) :
    dtNorm ((4294967296 * (1000000000 * sec + ns) : Nat) : Int) = dtMk sec ns 0 := by
  have hn : (4294967296 * (1000000000 * sec + ns)) % dtWrap = 4294967296 * (1000000000 * sec + ns) :=
    Nat.mod_eq_of_lt (by unfold dtWrap; omega)
  rw [dtNorm, if_neg (by omega)]
  simp only [Int.toNat_natCast, hn]
  congr 1 <;> omega

/-- The time that a LOAD of less than one second of NS writes (R63). -/
theorem State.loadTime_eq (s : State) (d : Fin 4) (h : (s.reg (dtmDLoadNs d.val)).toNat < 1000000000) : s.loadTime d =
    dtMk ((s.reg (dtmDLoadSecLo d.val)).toNat + 4294967296 * fieldOf (s.reg (dtmDLoadSecHi d.val)) 0 16)
      (s.reg (dtmDLoadNs d.val)).toNat 0 := by
  have lo := (s.reg (dtmDLoadSecLo d.val)).isLt
  have hi := fieldOf_lt (s.reg (dtmDLoadSecHi d.val)) 0 16
  exact dtMk_of_load _ _ (by omega) h

end

/-- Settles O19, command by command. -/
theorem datumStepsLoadTheWrittenTime : Obligations.DatumStepsLoadTheWrittenTime := by
  intro s m l f d hw ho live
  refine ⟨forceStep_fenced hw ho, fun hl hf hen hp hs => ?_, fun hf hen hp hs => ?_, fun hl hf hoff => ?_⟩
  · have out := exec_load ho hl hf
    rw [hs, if_neg Bool.false_ne_true] at out
    have taken := StepsTaken.of_stepTick (m := m) (l := l) (f := f) hw hen hp
    have named (hd : l.getLsbD d.val = true) : s.stepOf l f d = some fun _ => s.loadTime d := if_pos hd
    refine ends_of_commit out ⟨fun hd hns => ?_, fun hd => ⟨taken.adj d _ (named hd) hd, ?_⟩, taken.snaps, taken.framed⟩
    · rw [← s.loadTime_eq d hns]
      simpa only [Domain.copies, Prod.mk.injEq] using taken.copies d _ (named hd)
    · exact (taken.stepCnt d).trans (by rw [named hd]; rfl)
  · have out := exec_forceStep ho hf
    rw [hs, if_neg Bool.false_ne_true] at out
    have taken := StepsTaken.of_stepTick (m := m) (l := 0) (f := f) hw hen hp
    have step (e : Fin 4) : s.stepOf 0 f e = if f.getLsbD e.val && s.dom[e].adj ≠ 0 then
        some (fun t => dtAdd t (s.incEff e + sgn s.dom[e].adj)) else none := if_neg (by simp)
    have taken_iff (e : Fin 4) : (s.stepOf 0 f e).isSome = (f.getLsbD e.val && s.dom[e].adj ≠ 0) := by
      rw [step]
      split
      · next h => rw [h]; rfl
      · next h => rw [Bool.eq_false_iff.2 h]; rfl
    refine ends_of_commit out ⟨fun hd hadj => ?_, fun hadj => ?_, ?_, taken.snaps, taken.framed⟩
    · have named : s.stepOf 0 f d = some fun t => dtAdd t (s.incEff d + sgn s.dom[d].adj) := by
        rw [step, hd, decide_eq_true hadj]
        rfl
      obtain ⟨hc0, hc1, hc2⟩ := by simpa only [Domain.copies, Prod.mk.injEq] using taken.copies d _ named
      obtain ⟨hadj0, hreq⟩ := taken.cleared d _ named (by simp)
      exact ⟨hc0, hc1, hc2, hadj0, hreq, taken.adjCnt d _ named, (taken.stepCnt d).trans (by rw [named]; rfl)⟩
    · refine (taken.stepCnt d).trans ?_
      rw [taken_iff, hadj]
      simp
    · rw [taken.stepSeq]
      simp only [taken_iff]
  · have still (g : BitVec 4) : (if s.shadowSteered then s else s.stepTick m g f) = s := by
      rcases hoff with hen | hs
      · split
        · rfl
        · rw [State.stepTick, hen]; rfl
      · rw [if_pos hs]
    exact ⟨idle_of_commit (exec_load ho hl hf) (still l), idle_of_commit (exec_forceStep ho hf) (still 0)⟩

end Sys2Proof.Machine
end

section
/-! SUPPORT. Trigger units armed and disarmed by their register (R76, R78, R81, R87). -/

namespace Sys2Proof.Machine

section
variable {s : State} {m : Master} {n : Fin 24}

theorem settle_ttu (s t : State) : (settle s t).ttu = t.ttu := settle_part s t .ttu

theorem exec_ttuArm (ho : Open s m true (ttuCtrl n.val)) : exec (.ttuArm m n) s = commit s (s.armUnit n) := by
  change commit s (doTtuArm m n s) = _
  rw [doTtuArm, State.guarded_of_open ho]

theorem State.armUnit_taken (ht : s.armTaken n = true) (ha : s.ttu[n].armed = false) (hp : s.ttu[n].pulse = false) :
    s.armUnit n = s.ttuAccept n (s.time (s.ttuDom n)) := by
  rw [State.armUnit, ht, ha, hp]
  exact (if_neg (by decide)).trans (if_neg (by decide))

/-- What a unit that R78 leaves with a value holds, and the others. -/
theorem ttu_setTtu (base u : State) (hu : u.ttu = s.ttu) (x : Ttu) :
    (settle base (u.setTtu n x)).ttu[n] = x ∧ ∀ k : Fin 24, k ≠ n → (settle base (u.setTtu n x)).ttu[k] = s.ttu[k] := by
  have eq : (settle base (u.setTtu n x)).ttu = vset s.ttu n x := by rw [settle_ttu, ← hu]; rfl
  rw [eq]
  exact ⟨getElem_vset_same _ _ _, fun k hk => getElem_vset_other _ _ hk⟩

theorem ttuArm_refused (hw : s.storesWf) (ho : Open s m true (ttuCtrl n.val)) (ht : s.armTaken n = false) :
    Ends (.ttuArm m n) s (Rejected .ttc (ttuCtrl n.val) s) := by
  have out : exec (.ttuArm m n) s = commit s (s.rejReg .ttc (ttuCtrl n.val)) := by
    rw [exec_ttuArm ho, State.armUnit, ht]
    rfl
  exact ends_of_commit out (rejReg_rejected hw .ttc (by simp only [ttuCtrl]; omega))

theorem ttuArm_idle (ho : Open s m true (ttuCtrl n.val)) (ht : s.armTaken n = true)
    (hb : s.ttu[n].armed = true ∨ s.ttu[n].pulse = true) : Idle (.ttuArm m n) s := by
  refine idle_of_commit (exec_ttuArm ho) ?_
  rw [State.armUnit, ht]
  exact (if_neg (by decide)).trans (if_pos (Bool.or_eq_true_iff.2 hb))

theorem ttuArm_armed (ho : Open s m true (ttuCtrl n.val)) (ht : s.armTaken n = true) (ha : s.ttu[n].armed = false)
    (hp : s.ttu[n].pulse = false) (hl : s.ttuLate n (s.time (s.ttuDom n)) = false) :
    Ends (.ttuArm m n) s fun t => t.ttu[n] = { s.ttu[n] with armed := true, late := none } ∧
      (∀ k : Fin 24, k ≠ n → t.ttu[k] = s.ttu[k]) ∧ Framed [.ttu] [] [] s t := by
  have out : exec (.ttuArm m n) s = commit s (s.setTtu n { s.ttu[n] with armed := true, late := none }) := by
    rw [exec_ttuArm ho, State.armUnit_taken ht ha hp, State.ttuAccept, hl]
    rfl
  obtain ⟨own, other⟩ := ttu_setTtu (n := n) s s rfl { s.ttu[n] with armed := true, late := none }
  exact ends_of_commit out ⟨own, other, framed_settle ((Framed.refl _ _ _ s).setTtu (by simp) _ _)⟩

theorem ttuLateCnt_ne (n : Fin 24) : ttuLateCnt n.val ≠ glbIntCnt := by simp only [ttuLateCnt, glbIntCnt]; omega

theorem ttuArm_late (hw : s.storesWf) (ho : Open s m true (ttuCtrl n.val)) (ht : s.armTaken n = true)
    (ha : s.ttu[n].armed = false) (hp : s.ttu[n].pulse = false) (hl : s.ttuLate n (s.time (s.ttuDom n)) = true)
    (hs : s.ttuSkipLate n = false) :
    Ends (.ttuArm m n) s fun t => t.ttu[n] = { s.ttu[n] with armed := true, late := some (s.clk.tick + 40) } ∧
      t.reg (ttuLateCnt n.val) = s.reg (ttuLateCnt n.val) + 1 ∧
      (∀ k : Fin 24, k ≠ n → t.ttu[k] = s.ttu[k]) ∧ Framed [.ttu] [ttuLateCnt n.val] [] s t := by
  have out : exec (.ttuArm m n) s = commit s
      ((s.count (ttuLateCnt n.val)).setTtu n { s.ttu[n] with armed := true, late := some (s.clk.tick + 40) }) := by
    rw [exec_ttuArm ho, State.armUnit_taken ht ha hp, State.ttuAccept, hl, hs]
    rfl
  obtain ⟨own, other⟩ := ttu_setTtu (n := n) s (s.count (ttuLateCnt n.val)) rfl
    { s.ttu[n] with armed := true, late := some (s.clk.tick + 40) }
  refine ends_of_commit out ⟨own, ?_, other, framed_settle (((Framed.refl _ _ _ s).count (by simp)).setTtu (by simp) _ _)⟩
  rw [settle_reg _ _ _ (ttuLateCnt_ne n)]
  exact State.reg_setReg_same _ _ _ (State.storesWf_regs hw)

theorem setTtuTime_framed_own (s : State) (n : Fin 24) (t : Nat) :
    Framed [.ttu] [ttuTimeNs n.val, ttuTimeSecLo n.val, ttuTimeSecHi n.val] [] s (s.setTtuTime n t) :=
  (((Framed.refl _ _ _ s).setReg _ (by simp)).setReg _ (by simp)).setReg _ (by simp)

theorem ttuArm_skipped (hw : s.storesWf) (ho : Open s m true (ttuCtrl n.val)) (ht : s.armTaken n = true)
    (ha : s.ttu[n].armed = false) (hp : s.ttu[n].pulse = false) (hl : s.ttuLate n (s.time (s.ttuDom n)) = true)
    (hs : s.ttuSkipLate n = true) :
    Ends (.ttuArm m n) s fun t => t.ttu[n] = { s.ttu[n] with armed := s.ttuPeriodic n, late := none } ∧
      t.reg (ttuLateCnt n.val) = s.reg (ttuLateCnt n.val) + 1 ∧ (∀ k : Fin 24, k ≠ n → t.ttu[k] = s.ttu[k]) ∧
      Framed [.ttu] [ttuLateCnt n.val, ttuTimeNs n.val, ttuTimeSecLo n.val, ttuTimeSecHi n.val] [] s t := by
  obtain ⟨t0, ht0⟩ : ∃ t0, t0 = nextPhase (s.ttuTime n) (s.reg (ttuPeriod n.val)).toNat
    (eightyNs (s.time (s.ttuDom n))) 0 := ⟨_, rfl⟩
  obtain ⟨u, hu⟩ : ∃ u, u = if s.ttuPeriodic n then (s.count (ttuLateCnt n.val)).setTtuTime n t0
    else s.count (ttuLateCnt n.val) := ⟨_, rfl⟩
  have out : exec (.ttuArm m n) s = commit s (u.setTtu n { s.ttu[n] with armed := s.ttuPeriodic n, late := none }) := by
    rw [exec_ttuArm ho, State.armUnit_taken ht ha hp, State.ttuAccept, hl, hs, hu]
    simp only [if_true, ← ht0]
    cases s.ttuPeriodic n <;> rfl
  have counted : Framed [.ttu] [ttuLateCnt n.val, ttuTimeNs n.val, ttuTimeSecLo n.val, ttuTimeSecHi n.val] [] s
      (s.count (ttuLateCnt n.val)) := (Framed.refl _ _ _ s).count (by simp)
  have facts : u.ttu = s.ttu ∧ u.reg (ttuLateCnt n.val) = (s.count (ttuLateCnt n.val)).reg (ttuLateCnt n.val) ∧
      Framed [.ttu] [ttuLateCnt n.val, ttuTimeNs n.val, ttuTimeSecLo n.val, ttuTimeSecHi n.val] [] s u := by
    rw [hu]
    split
    · refine ⟨rfl, (setTtuTime_framed_own _ n _).regs _ ?_ (ttuLateCnt_ne n),
        counted.trans ((setTtuTime_framed_own _ n _).mono (by simp) (by simp) (by simp))⟩
      simp only [ttuLateCnt, ttuTimeNs, ttuTimeSecLo, ttuTimeSecHi, List.mem_cons, List.not_mem_nil, or_false]
      omega
    · exact ⟨rfl, rfl, counted⟩
  obtain ⟨ttu, late, framed⟩ := facts
  obtain ⟨own, other⟩ := ttu_setTtu (n := n) s u ttu { s.ttu[n] with armed := s.ttuPeriodic n, late := none }
  refine ends_of_commit out ⟨own, ?_, other, framed_settle (framed.setTtu (by simp) _ _)⟩
  rw [settle_reg _ _ _ (ttuLateCnt_ne n)]
  exact late.trans (State.reg_setReg_same _ _ _ (State.storesWf_regs hw))

theorem ttuDisarm_ends (ho : Open s m true (ttuCtrl n.val)) (arm : Bool) :
    Ends (.ttuDisarm m n arm) s fun t =>
      t.ttu[n] = { s.ttu[n] with armed := false, late := none } ∧ (∀ k : Fin 24, k ≠ n → t.ttu[k] = s.ttu[k]) ∧
      Framed [.ttu] [] [] s t := by
  have out : exec (.ttuDisarm m n arm) s = commit s (s.setTtu n { s.ttu[n] with armed := false, late := none }) :=
    congrArg (commit s) (State.guarded_of_open ho fun s => s.disarmUnit n)
  obtain ⟨own, other⟩ := ttu_setTtu (n := n) s s rfl { s.ttu[n] with armed := false, late := none }
  exact ends_of_commit out ⟨own, other, framed_settle ((Framed.refl _ _ _ s).setTtu (by simp) _ _)⟩

end

end Sys2Proof.Machine
end

section
/-! SUPPORT. What a firing does beside its unit (R77, R318): a kernel cycle start's swap of input regions, a gate list's
start, an event of a sequencer. -/

namespace Sys2Proof.Machine

/-! Banks. -/

theorem Framed.setMem {ps : List Part} {rs ts : List Nat} {s t : State} (h : Framed ps rs ts s t) (hq : .mem ∈ ps)
    (x : MemState) : Framed ps rs ts s { t with mem := x } :=
  h.update hq (fun p hp => by cases p <;> simp_all [Part.same]) rfl rfl rfl

theorem Framed.setPsq {ps : List Part} {rs ts : List Nat} {s t : State} (h : Framed ps rs ts s t) (hq : .psq ∈ ps)
    (x : PsqState) : Framed ps rs ts s { t with psq := x } :=
  h.update hq (fun p hp => by cases p <;> simp_all [Part.same]) rfl rfl rfl

theorem State.setOwnerByte_framed (s : State) (b off t : Nat) (v : Byte) :
    Framed [.mem] [] [] s (s.setOwnerByte b off t v) := by
  unfold State.setOwnerByte
  split
  · dsimp only
    split
    · exact ((Framed.refl _ _ _ s).setMem (by simp) _).setMem (by simp) _
    · exact (Framed.refl _ _ _ s).setMem (by simp) _
  · exact (Framed.refl _ _ _ s).setMem (by simp) _

theorem State.ownerWrite_framed (s : State) (b off : Nat) (bs : List Byte) (t : Nat) :
    Framed [.mem] [] [] s (s.ownerWrite b off bs t) := by
  induction bs generalizing s off with
  | nil => exact Framed.refl _ _ _ s
  | cons v r ih => exact (s.setOwnerByte_framed b _ t v).trans (ih _ _)

/-- A write at a bank's arbiter stores its bytes, or counts and records a master that does not own the bank (R351). -/
theorem State.bankServe_write_framed (s : State) (m : BankMaster) (b off : Nat) (bs : List Byte) (t : Nat) :
    Framed [.mem] [memNonownCnt, memNonownLast] [] s (s.bankServe m b off (.write bs) .clean t).2.2 := by
  unfold State.bankServe
  split
  · exact ((Framed.refl _ _ _ s).count (by simp)).setReg _ (by simp)
  · exact (s.ownerWrite_framed b off bs t).mono (by simp) (by simp) (by simp)

/-! The swaps at a firing tick (R318). -/

/-- The frame of what the input regions' swaps may change. -/
abbrev SwapFramed (s t : State) : Prop :=
  Framed [.mem, .hif] [memNonownCnt, memNonownLast] (words .hif 3 0 256) s t

theorem inWord_mem (k : Fin 32) {w : Nat} (hw : w < 8) : tabKey (blkIdx .hif) 3 (k.val * 8 + w) ∈ words .hif 3 0 256 :=
  List.mem_map.2 ⟨k.val * 8 + w, List.mem_range.2 (by omega), congrArg _ (Nat.zero_add _)⟩

section
variable (s : State) (k : Fin 32)

theorem State.inWrite_framed (j off : Nat) (bs : List Byte) : SwapFramed s (s.inWrite j off bs) := by
  unfold State.inWrite
  split
  · exact (s.bankServe_write_framed _ _ _ _ _).mono (by simp) (by simp) (by simp)
  · exact Framed.refl _ _ _ s

theorem State.setInPend_framed (p : Word × Bool × Nat) : SwapFramed s (s.setInPend k p) :=
  (((Framed.refl _ _ _ s).setTab _ (inWord_mem k (by decide))).setTab _ (inWord_mem k (by decide))).setHif (by simp) _

theorem State.inPut_framed (off : Nat) (bs : List Byte) (v : Option Word) : SwapFramed s (s.inPut k off bs v) := by
  have write := s.inWrite_framed k.val (s.inHalfOff k.val (!s.inHalf k.val) + off) bs
  cases v with
  | none => exact write
  | some x => exact write.trans (State.setInPend_framed _ k _)

theorem State.inUndo_framed (w : BarWrite) : SwapFramed s (s.inUndo w) := by
  have put := s.inPut_framed w.region w.off w.old none
  unfold State.inUndo
  dsimp only
  split
  · exact put
  · exact put.trans (State.setInPend_framed _ _ _)

theorem State.inSwap_framed : SwapFramed s (s.inSwap k) := by
  have base : SwapFramed s s := Framed.refl _ _ _ s
  unfold State.inSwap
  extract_lets wait h
  split
  · exact (base.setTab _ (inWord_mem k (w := 5) (by decide))).trans (State.inWrite_framed _ _ _ _)
  · exact base

theorem State.inFire_framed : SwapFramed s (s.inFire k) := by
  unfold State.inFire
  dsimp only
  generalize s.hif.barNow.filter _ = now
  have undone : SwapFramed s (now.foldr (fun w u => u.inUndo w) s) := by
    induction now with
    | nil => exact Framed.refl _ _ _ s
    | cons w r ih => exact ih.trans (State.inUndo_framed _ w)
  refine List.foldlRecOn (motive := SwapFramed s) _ _ (undone.trans (State.inSwap_framed _ k)) fun t ht w _ => ?_
  exact ht.trans (t.inPut_framed k _ _ _)

theorem State.inputSwap_framed (r : Fin 10) : SwapFramed s (s.inputSwap r) := by
  refine List.foldlRecOn (motive := SwapFramed s) _ _ (Framed.refl _ _ _ s) fun t ht k _ => ?_
  split
  · exact ht.trans (t.inFire_framed k)
  · exact ht

/-- With no commit pending and no write of the window in this tick, no region swaps. -/
theorem State.inputSwap_quiet (r : Fin 10) (hp : ∀ k < 32, bitOf (s.inWord k 5) 1 = false)
    (hn : ∀ w ∈ s.hif.barNow, w.tick ≠ s.clk.tick) : s.inputSwap r = s := by
  have none (k : Fin 32) : s.hif.barNow.filter (fun w => w.tick = s.clk.tick && w.region = k) = [] :=
    List.filter_eq_nil_iff.2 fun w hw => by simp [hn w hw]
  have fire (k : Fin 32) : s.inFire k = s := by
    rw [State.inFire, none k]
    change s.inSwap k = s
    rw [State.inSwap, hp k.val k.isLt]
    rfl
  refine List.foldlRecOn (motive := (· = s)) _ _ rfl fun t ht k _ => ?_
  rw [ht]
  split
  · exact fire k
  · rfl

end

/-- A gate list's start writes its port's gate control alone (R212). -/
theorem State.gateListStart_framed (s : State) (n : Fin 8) :
    Framed [.swc] [swcPGclOvrCnt n.val, swcPGateOplen n.val] [] s (s.gateListStart n) := by
  have base := Framed.refl [.swc] [swcPGclOvrCnt n.val, swcPGateOplen n.val] [] s
  have counted : Framed [.swc] [swcPGclOvrCnt n.val, swcPGateOplen n.val] [] s
      (if s.swc.gates[n].started && !s.swc.gates[n].done then s.count (swcPGclOvrCnt n.val) else s) := by
    split
    · exact base.count (by simp)
    · exact base
  unfold State.gateListStart
  split
  · exact base
  · dsimp only
    split
    · exact (counted.setReg _ (by simp)).setSwc (by simp) _
    · exact counted.setSwc (by simp) _

end Sys2Proof.Machine
end

section
/-! SUPPORT. Firings and pulses of trigger units (R77, R79). -/

namespace Sys2Proof.Machine

/-- The TIME of a unit. -/
abbrev ttuTimes (n : Fin 24) : List Nat := [ttuTimeNs n.val, ttuTimeSecLo n.val, ttuTimeSecHi n.val]

/-- What a firing makes of the unit. -/
def State.firedUnit (s : State) (n : Fin 24) : Ttu :=
  { armed := s.ttuPeriodic n
    pulse := s.ttu[n].pulse || s.ttuPinEn n
    late := none
    pulseLeft := if s.ttuPinEn n then fieldOf (s.reg (ttuWidth n.val)) 0 24 else s.ttu[n].pulseLeft }

/-- A time below 2^48 seconds that a unit is set to is its TIME. -/
theorem State.ttuTime_setTtuTime {s : State} (hr : amWf regReset s.regs) (n : Fin 24) {t : Nat}
    (ht : t < 2 ^ 48 * 1000000000) : (s.setTtuTime n t).ttuTime n = t := by
  have wf1 := State.regsWf_setReg (a := ttuTimeNs n.val) hr (w32 (t % 1000000000))
  have wf2 := State.regsWf_setReg (a := ttuTimeSecLo n.val) wf1 (w32 (t / 1000000000))
  have hhi : (s.setTtuTime n t).reg (ttuTimeSecHi n.val) = w32 (t / 1000000000 / 4294967296 % 65536) :=
    State.reg_setReg_same _ _ _ wf2
  have hlo : (s.setTtuTime n t).reg (ttuTimeSecLo n.val) = w32 (t / 1000000000) :=
    (State.reg_setReg_other _ _ _ _ (by simp only [ttuTimeSecLo, ttuTimeSecHi]; omega)).trans
      (State.reg_setReg_same _ _ _ wf1)
  have hns : (s.setTtuTime n t).reg (ttuTimeNs n.val) = w32 (t % 1000000000) :=
    (State.reg_setReg_other _ _ _ _ (by simp only [ttuTimeNs, ttuTimeSecHi]; omega)).trans
      ((State.reg_setReg_other _ _ _ _ (by simp only [ttuTimeNs, ttuTimeSecLo]; omega)).trans
        (State.reg_setReg_same _ _ _ hr))
  rw [State.ttuTime, hhi, hlo, hns]
  simp only [fieldOf, w32, BitVec.toNat_ofNat, Nat.shiftRight_zero]
  omega

section
variable (s : State) (n : Fin 24)

theorem State.ttuFired_cases : s.ttuFired n = s.setTtu n (s.firedUnit n) ∧ s.ttuPeriodic n = false ∨
    s.ttuPeriodic n = true ∧ ∃ t, s.ttuFired n = (s.setTtu n (s.firedUnit n)).setTtuTime n t ∧
      (s.ttu[n].late = none → t = s.ttuTime n + (s.reg (ttuPeriod n.val)).toNat) := by
  cases hp : s.ttuPeriodic n with
  | false => exact .inl ⟨if_neg (Bool.eq_false_iff.1 hp), rfl⟩
  | true => exact .inr ⟨rfl, _, if_pos hp, fun hl => if_neg (by rw [hl]; decide)⟩

theorem State.ttuFired_framed : Framed [.ttu] (ttuTimes n) [] s (s.ttuFired n) := by
  have unit : Framed [.ttu] (ttuTimes n) [] s (s.setTtu n (s.firedUnit n)) :=
    (Framed.refl _ _ _ s).setTtu (by simp) _ _
  rcases s.ttuFired_cases n with ⟨eq, -⟩ | ⟨-, t, eq, -⟩
  · rw [eq]; exact unit
  · rw [eq]; exact unit.trans (setTtuTime_framed_own _ n t)

theorem State.ttuFired_ttu : (s.ttuFired n).ttu = vset s.ttu n (s.firedUnit n) := by
  rcases s.ttuFired_cases n with ⟨eq, -⟩ | ⟨-, t, eq, -⟩ <;> rw [eq] <;> rfl

/-- A periodic unit's TIME moves on by PERIOD (R79). -/
theorem State.ttuFired_time {s : State} {n : Fin 24} (hr : amWf regReset s.regs) (hp : s.ttuPeriodic n = true)
    (hl : s.ttu[n].late = none) (ht : s.ttuTime n + (s.reg (ttuPeriod n.val)).toNat < 2 ^ 48 * 1000000000) :
    (s.ttuFired n).ttuTime n = s.ttuTime n + (s.reg (ttuPeriod n.val)).toNat := by
  rcases s.ttuFired_cases n with ⟨-, hf⟩ | ⟨-, t, eq, time⟩
  · exact absurd (hp.symm.trans hf) (by decide)
  · rw [eq, ← time hl]
    exact State.ttuTime_setTtuTime (s := s.setTtu n _) hr n (time hl ▸ ht)

end

/-! The event of a firing, by its kind. -/

section
variable {s : State} {n : Fin 24}

theorem State.ttuEvtKind_lt (s : State) (n : Fin 24) : s.ttuEvtKind n < 4 := fieldOf_lt _ _ _

theorem State.ttuEvent_none (h : s.ttuEvtKind n = 0) : s.ttuEvent n = s := by rw [State.ttuEvent, h]; rfl

theorem State.ttuEvent_start (h : s.ttuEvtKind n = 1) : s.ttuEvent n =
    if s.startReaches (Fin.ofNat 10 (s.ttuEvtTarget n)) then s.inputSwap (Fin.ofNat 10 (s.ttuEvtTarget n))
    else (s.inputSwap (Fin.ofNat 10 (s.ttuEvtTarget n))).count ttcEvtDropCnt := by rw [State.ttuEvent, h]; rfl

theorem State.ttuEvent_seq (h : s.ttuEvtKind n = 2) : s.ttuEvent n =
    if s.islandOn 17 && !s.fenced (27 + s.ttuEvtTarget n / 32) then
      { s with psq := { s.psq with events := s.psq.events ++ [(Fin.ofNat 64 (s.ttuEvtTarget n), s.clk.tick)] } }
    else s.count ttcEvtDropCnt := by rw [State.ttuEvent, h]; rfl

theorem State.ttuEvent_gate (h : s.ttuEvtKind n = 3) :
    s.ttuEvent n = s.gateListStart (Fin.ofNat 8 (s.ttuEvtTarget n)) ∨ s.ttuEvent n = s.count ttcEvtDropCnt := by
  obtain ⟨taken, eq⟩ : ∃ taken : Bool, s.ttuEvent n =
      if taken then s.gateListStart (Fin.ofNat 8 (s.ttuEvtTarget n)) else s.count ttcEvtDropCnt :=
    ⟨_, by rw [State.ttuEvent, h]; rfl⟩
  cases taken with
  | false => exact .inr eq
  | true => exact .inl eq

theorem State.ttuEvent_start_framed (h : s.ttuEvtKind n = 1) :
    Framed [.mem, .hif] [ttcEvtDropCnt, memNonownCnt, memNonownLast] (words .hif 3 0 256) s (s.ttuEvent n) := by
  have swap := (s.inputSwap_framed (Fin.ofNat 10 (s.ttuEvtTarget n))).mono (ps' := [.mem, .hif])
    (rs' := [ttcEvtDropCnt, memNonownCnt, memNonownLast]) (ts' := words .hif 3 0 256) (by simp) (by simp) (fun _ h => h)
  rw [State.ttuEvent_start h]
  split
  · exact swap
  · exact swap.count (by simp)

theorem State.ttuEvent_start_dropped (hw : s.storesWf) (h : s.ttuEvtKind n = 1) :
    (s.ttuEvent n).reg ttcEvtDropCnt = s.reg ttcEvtDropCnt +
      if s.startReaches (Fin.ofNat 10 (s.ttuEvtTarget n)) then 0 else 1 := by
  have swap := (s.inputSwap_framed (Fin.ofNat 10 (s.ttuEvtTarget n))).regs ttcEvtDropCnt (by decide) (by decide)
  rw [State.ttuEvent_start h]
  split
  · exact swap.trans (BitVec.add_zero _).symm
  · refine (State.reg_setReg_same _ _ _ (State.storesWf_regs hw.inputSwap)).trans ?_
    rw [swap]

theorem State.ttuEvent_gate_framed (h : s.ttuEvtKind n = 3) :
    let p := (Fin.ofNat 8 (s.ttuEvtTarget n)).val
    Framed [.swc] [ttcEvtDropCnt, swcPGclOvrCnt p, swcPGateOplen p] [] s (s.ttuEvent n) := by
  intro p
  rcases State.ttuEvent_gate h with eq | eq <;> rw [eq]
  · exact (s.gateListStart_framed _).mono (by simp) (List.subset_cons_self _ _) (by simp)
  · exact (Framed.refl _ _ _ s).count (by simp)

theorem State.ttuEvent_seq_framed (h : s.ttuEvtKind n = 2) :
    Framed [.psq] [ttcEvtDropCnt] [] s (s.ttuEvent n) := by
  rw [State.ttuEvent_seq h]
  split
  · exact (Framed.refl _ _ _ s).setPsq (by simp) _
  · exact (Framed.refl _ _ _ s).count (by simp)

/-- Whatever its kind, an event leaves the units and their TIME. -/
theorem State.ttuEvent_units (s : State) (n : Fin 24) : (s.ttuEvent n).ttu = s.ttu ∧
    (s.ttuEvent n).ttuTime n = s.ttuTime n := by
  have of {ps : List Part} {rs ts : List Nat} (hf : Framed ps rs ts s (s.ttuEvent n)) (hp : .ttu ∉ ps)
      (hr : ∀ a ∈ rs, a = ttcEvtDropCnt ∨ 0x40000 ≤ a) :
      (s.ttuEvent n).ttu = s.ttu ∧ (s.ttuEvent n).ttuTime n = s.ttuTime n := by
    have time (a : Nat) (ha : a ∈ ttuTimes n) : (s.ttuEvent n).reg a = s.reg a := by
      have bound : 0x30100 ≤ a ∧ a < 0x40000 := by
        simp only [ttuTimes, ttuTimeNs, ttuTimeSecLo, ttuTimeSecHi, List.mem_cons, List.not_mem_nil, or_false] at ha
        omega
      refine hf.regs a (fun hm => ?_) (by simp only [glbIntCnt]; omega)
      have := hr a hm
      simp only [ttcEvtDropCnt] at this
      omega
    refine ⟨hf.parts .ttu hp, ?_⟩
    rw [State.ttuTime, State.ttuTime, time _ (by simp), time _ (by simp), time _ (by simp)]
  have kind := s.ttuEvtKind_lt n
  have cases : s.ttuEvtKind n = 0 ∨ s.ttuEvtKind n = 1 ∨ s.ttuEvtKind n = 2 ∨ s.ttuEvtKind n = 3 := by omega
  rcases cases with h | h | h | h
  · rw [State.ttuEvent_none h]
    exact ⟨rfl, rfl⟩
  · exact of (State.ttuEvent_start_framed h) (by simp) (by decide)
  · exact of (State.ttuEvent_seq_framed h) (by simp) (by decide)
  · refine of (State.ttuEvent_gate_framed h) (by simp) fun a ha => ?_
    simp only [swcPGclOvrCnt, swcPGateOplen, List.mem_cons, List.not_mem_nil, or_false] at ha
    omega

end

/-! TRIGGER_FIRE and TRIGGER_PULSE_END. -/

/-- A pin's edge is an output alone. -/
theorem pinEdge_framed (s0 s : State) (p : Nat) : Framed [] [] [] s (State.pinEdge s0 s p) := by
  unfold State.pinEdge
  split
  · exact (Framed.refl _ _ _ s).emit _
  · exact Framed.refl _ _ _ s

section
variable {s : State} {n : Fin 24}

theorem triggerFire_ends (hw : s.storesWf) (hd : s.ttuDue n = true) :
    Ends (.triggerFire n) s fun t =>
      t.ttu[n].armed = s.ttuPeriodic n ∧ t.ttu[n].late = none ∧
      (s.ttuPinEn n = true → t.ttu[n].pulse = true ∧ t.ttu[n].pulseLeft = fieldOf (s.reg (ttuWidth n.val)) 0 24) ∧
      (s.ttuPinEn n = false → t.ttu[n].pulse = s.ttu[n].pulse ∧ t.ttu[n].pulseLeft = s.ttu[n].pulseLeft) ∧
      (s.ttuPeriodic n = true → s.ttu[n].late = none →
        s.ttuTime n + (s.reg (ttuPeriod n.val)).toNat < 2 ^ 48 * 1000000000 →
        t.ttuTime n = s.ttuTime n + (s.reg (ttuPeriod n.val)).toNat) ∧
      (∀ k : Fin 24, k ≠ n → t.ttu[k] = s.ttu[k]) ∧
      (let times := [ttcEvtDropCnt, ttuTimeNs n.val, ttuTimeSecLo n.val, ttuTimeSecHi n.val]
       (s.ttuEvtKind n = 0 → Framed [.ttu] times [] s t) ∧
       (s.ttuEvtKind n = 1 → Framed [.ttu, .mem, .hif] (memNonownCnt :: memNonownLast :: times) (words .hif 3 0 256) s t ∧
         t.reg ttcEvtDropCnt = s.reg ttcEvtDropCnt +
           if s.startReaches (Fin.ofNat 10 (s.ttuEvtTarget n)) then 0 else 1) ∧
       (s.ttuEvtKind n = 1 → (∀ k < 32, bitOf (s.inWord k 5) 1 = false) → (∀ w ∈ s.hif.barNow, w.tick ≠ s.clk.tick) →
         Framed [.ttu] times [] s t) ∧
       (s.ttuEvtKind n = 2 → s.islandOn 17 = true → s.fenced (27 + s.ttuEvtTarget n / 32) = false →
         t.psq.events = s.psq.events ++ [(Fin.ofNat 64 (s.ttuEvtTarget n), s.clk.tick)] ∧
         Framed [.ttu, .psq] times [] s t) ∧
       (s.ttuEvtKind n = 2 → s.islandOn 17 = false ∨ s.fenced (27 + s.ttuEvtTarget n / 32) = true →
         t.reg ttcEvtDropCnt = s.reg ttcEvtDropCnt + 1 ∧ Framed [.ttu] times [] s t) ∧
       (s.ttuEvtKind n = 3 →
         let p := (Fin.ofNat 8 (s.ttuEvtTarget n)).val
         Framed [.ttu, .swc, .eth] (swcPGclOvrCnt p :: swcPGateOplen p :: swcPPreemptCnt p :: times) [] s t)) := by
  obtain ⟨v, hv⟩ : ∃ v, v = s.ttuFired n := ⟨_, rfl⟩
  obtain ⟨u, hu⟩ : ∃ u, u = v.ttuEvent n := ⟨_, rfl⟩
  have out : exec (.triggerFire n) s = commit s (State.pinEdge s u (s.ttuPin n)) := by
    change commit s (doTriggerFire n s) = _
    rw [doTriggerFire, if_pos hd, hu, hv]
  have edge := pinEdge_framed s u (s.ttuPin n)
  have fired : Framed [.ttu] (ttuTimes n) [] s v := hv ▸ s.ttuFired_framed n
  have ttu : (settle s (State.pinEdge s u (s.ttuPin n))).ttu = vset s.ttu n (s.firedUnit n) := by
    rw [settle_ttu, edge.parts .ttu (by simp), hu, (v.ttuEvent_units n).1, hv, State.ttuFired_ttu]
  have reg (a : Nat) (ha : a ≠ glbIntCnt) : (settle s (State.pinEdge s u (s.ttuPin n))).reg a = u.reg a :=
    (settle_reg _ _ _ ha).trans (edge.regs a (by simp) ha)
  have cfg : v.reg (ttuCfg n.val) = s.reg (ttuCfg n.val) := by
    refine fired.regs _ ?_ (by simp only [ttuCfg, glbIntCnt]; omega)
    simp only [ttuCfg, ttuTimes, ttuTimeNs, ttuTimeSecLo, ttuTimeSecHi, List.mem_cons, List.not_mem_nil, or_false]
    omega
  have kind : v.ttuEvtKind n = s.ttuEvtKind n := by rw [State.ttuEvtKind, cfg, State.ttuEvtKind]
  have target : v.ttuEvtTarget n = s.ttuEvtTarget n := by rw [State.ttuEvtTarget, cfg, State.ttuEvtTarget]
  have drop : v.reg ttcEvtDropCnt = s.reg ttcEvtDropCnt := by
    refine fired.regs _ ?_ (by decide)
    simp only [ttcEvtDropCnt, ttuTimes, ttuTimeNs, ttuTimeSecLo, ttuTimeSecHi, List.mem_cons, List.not_mem_nil, or_false]
    omega
  have island (i : Nat) : v.islandOn i = s.islandOn i :=
    congrArg (bitOf · i) (fired.regs clkIslOn (by
      simp only [clkIslOn, ttuTimes, ttuTimeNs, ttuTimeSecLo, ttuTimeSecHi, List.mem_cons, List.not_mem_nil, or_false]
      omega) (by decide))
  have flt : v.flt = s.flt := fired.parts .flt (by decide)
  have fenced (d : Nat) : v.fenced d = s.fenced d := by rw [State.fenced, flt, State.fenced]
  have wf : v.storesWf := by rw [hv]; exact hw.ttuFired
  have frame {ps : List Part} {rs ts : List Nat} (hp : .ttu ∈ ps) (hr : ttuTimes n ⊆ rs) (h : Framed ps rs ts v u) :
      Framed ps rs ts s (settle s (State.pinEdge s u (s.ttuPin n))) :=
    framed_settle (((fired.mono (by simpa using hp) hr (by simp)).trans h).trans (edge.mono (by simp) (by simp) (by simp)))
  have times : ttuTimes n ⊆ [ttcEvtDropCnt, ttuTimeNs n.val, ttuTimeSecLo n.val, ttuTimeSecHi n.val] :=
    List.subset_cons_self _ _
  refine ends_of_commit out ?_
  rw [ttu, getElem_vset_same]
  refine ⟨rfl, rfl, fun hp => ?_, fun hp => ?_, fun hper hl ht => ?_, fun k hk => getElem_vset_other _ _ hk,
    fun h => ?_, fun h => ⟨?_, ?_⟩, fun h hpend hnow => ?_, fun h hi hf => ⟨?_, ?_⟩, fun h hor => ?_, fun h => ?_⟩
  · exact ⟨by rw [State.firedUnit, hp]; exact Bool.or_true _, if_pos hp⟩
  · exact ⟨by rw [State.firedUnit, hp]; exact Bool.or_false _, if_neg (by rw [hp]; decide)⟩
  · have time (a : Nat) (ha : a ≠ glbIntCnt) := reg a ha
    rw [← State.ttuFired_time (State.storesWf_regs hw) hper hl ht, ← hv, ← (v.ttuEvent_units n).2, ← hu, State.ttuTime,
      time _ (by simp only [ttuTimeSecLo, glbIntCnt]; omega), time _ (by simp only [ttuTimeSecHi, glbIntCnt]; omega),
      time _ (by simp only [ttuTimeNs, glbIntCnt]; omega), State.ttuTime]
  · rw [← kind] at h
    refine frame (by simp) times ?_
    rw [hu, State.ttuEvent_none h]
    exact Framed.refl _ _ _ v
  · rw [← kind] at h
    refine frame (by simp) (by simp) ?_
    rw [hu]
    exact (State.ttuEvent_start_framed h).mono (by simp) (by simp) (fun _ h => h)
  · have starts : v.startReaches (Fin.ofNat 10 (v.ttuEvtTarget n)) = s.startReaches (Fin.ofNat 10 (s.ttuEvtTarget n)) := by
      have insts : v.insts = s.insts := fired.parts .insts (by decide)
      rw [target, State.startReaches, State.startReaches, insts]
      simp only [island, fenced]
    rw [← kind] at h
    rw [reg _ (by decide), hu, State.ttuEvent_start_dropped wf h, drop, starts]
  · have hif : v.hif = s.hif := by rw [hv]; rcases s.ttuFired_cases n with ⟨eq, -⟩ | ⟨-, t, eq, -⟩ <;> rw [eq] <;> rfl
    have clk : v.clk = s.clk := fired.parts .clk (by decide)
    have quiet : v.inputSwap (Fin.ofNat 10 (v.ttuEvtTarget n)) = v := by
      refine v.inputSwap_quiet _ (fun k hk => ?_) (by rw [hif, clk]; exact hnow)
      rw [State.inWord, State.tab, fired.tabs _ (by simp)]
      exact hpend k hk
    rw [← kind] at h
    refine frame (by simp) times ?_
    rw [hu, State.ttuEvent_start h, quiet]
    split
    · exact Framed.refl _ _ _ v
    · exact (Framed.refl _ _ _ v).count (by simp)
  · have psq : v.psq = s.psq := fired.parts .psq (by decide)
    have clk : v.clk = s.clk := fired.parts .clk (by decide)
    have settled : (settle s (State.pinEdge s u (s.ttuPin n))).psq = u.psq :=
      (settle_part s _ .psq).trans (edge.parts .psq (by simp))
    rw [← kind] at h
    rw [settled, hu, State.ttuEvent_seq h, target, island, fenced, hi, hf, psq, clk]
    rfl
  · rw [← kind] at h
    refine frame (by simp) times ?_
    rw [hu]
    exact (State.ttuEvent_seq_framed h).mono (by simp) (by simp) (by simp)
  · rw [← kind] at h
    have eq : u = v.count ttcEvtDropCnt := by
      rw [hu, State.ttuEvent_seq h, target, island, fenced]
      refine if_neg fun hb => ?_
      obtain ⟨hon, hun⟩ := Bool.and_eq_true_iff.1 hb
      rcases hor with hoff | hf
      · exact absurd (hoff.symm.trans hon) (by decide)
      · rw [hf] at hun
        exact absurd hun (by decide)
    refine ⟨?_, frame (by simp) times (by rw [eq]; exact (Framed.refl _ _ _ v).count (by simp))⟩
    rw [reg _ (by decide), eq, ← drop]
    exact State.reg_setReg_same _ _ _ (State.storesWf_regs wf)
  · rw [← kind] at h
    refine frame (by simp) (fun a ha => by simp only [ttuTimes, List.mem_cons] at ha ⊢; tauto) ?_
    rw [hu, ← target]
    exact (State.ttuEvent_gate_framed h).mono (by simp) (by simp) (by simp)

theorem triggerPulseEnd_ends (hp : s.ttu[n].pulse = true) (hl : s.ttu[n].pulseLeft = 0) :
    Ends (.triggerPulseEnd n) s fun t => t.ttu[n] = { s.ttu[n] with pulse := false } ∧
      (∀ k : Fin 24, k ≠ n → t.ttu[k] = s.ttu[k]) ∧ Framed [.ttu] [] [] s t := by
  obtain ⟨u, hu⟩ : ∃ u, u = s.setTtu n { s.ttu[n] with pulse := false } := ⟨_, rfl⟩
  have out : exec (.triggerPulseEnd n) s = commit s (State.pinEdge s u (s.ttuPin n)) := by
    change commit s (doTriggerPulseEnd n s) = _
    rw [doTriggerPulseEnd, hp, hl, hu]
    rfl
  have edge := pinEdge_framed s u (s.ttuPin n)
  have ttu : (settle s (State.pinEdge s u (s.ttuPin n))).ttu = vset s.ttu n { s.ttu[n] with pulse := false } := by
    rw [settle_ttu, edge.parts .ttu (by simp), hu]
    rfl
  have unit : Framed [.ttu] [] [] s u := by
    rw [hu]
    exact (Framed.refl _ _ _ s).setTtu (by simp) _ _
  refine ends_of_commit out ?_
  rw [ttu, getElem_vset_same]
  exact ⟨rfl, fun k hk => getElem_vset_other _ _ hk,
    framed_settle (unit.trans (edge.mono (by simp) (by simp) (by simp)))⟩

end

/-- Settles O21, command by command. -/
theorem triggerUnitsArmAndFire : Obligations.TriggerUnitsArmAndFire := by
  intro s m n arm hw
  refine ⟨fun ho => ⟨ttuArm_refused hw ho, ttuArm_idle ho, ttuArm_armed ho, ttuArm_late hw ho, ttuArm_skipped hw ho,
    ttuDisarm_ends ho arm⟩, fun hd => ?_, triggerFire_ends hw, triggerPulseEnd_ends, fun hend => ?_⟩
  · refine idle_of_commit rfl (if_neg ?_)
    rw [hd]
    decide
  · refine idle_of_commit rfl (if_neg fun h => ?_)
    obtain ⟨hp, hl⟩ := Bool.and_eq_true_iff.1 h
    rcases hend with hq | hq
    · exact absurd (hq.symm.trans hp) (by decide)
    · exact hq (of_decide_eq_true hl)

end Sys2Proof.Machine
end

section
/-! SUPPORT. A warm start that ends a debug session (R112, R122, R388, R416): a kernel start held in a halt is delivered
by the release, and is a hard fault where the kernel still runs. -/

namespace Sys2Proof.Machine

/-- Engine 0 in DEBUG, halted by a breakpoint inside its kernel, with the next kernel start event held (R122). -/
def haltedInKernel : Engine :=
  { Engine.reset with st := .debug, kern := .running, halted := true, heldStart := true }

/-- The running device in a debug session at level D2, engine 0 enabled, out of hold and so halted. -/
def haltedSession : State :=
  let s := ({ State.reset with power := .run } : State).setReg clkIslOn 0x7FFFF
  (((s.setRegField glbLifecycle 8 2 2).setReg (blkBase (.pec 0)) 1).setHold (.pec 0) false).setEng 0 haltedInKernel

theorem haltedSession_storesWf : haltedSession.storesWf := by decide +kernel

/-- A warm start takes effect there, and fence domain 0 is not fenced. -/
theorem haltedSession_runs : haltedSession.power = .run ∧ haltedSession.flt.recovery = false ∧
    haltedSession.fenced 0 = false := by decide +kernel

/-- The release of the halt finds the kernel running: engine 0 is fenced by its hard fault. -/
theorem releaseHalt_haltedSession_fenced : (haltedSession.releaseHalt 0).fenced 0 = true := by decide +kernel

/-- Host contexts that all read OFF already are left so. -/
theorem State.contextsOff_of_off {s : State} (h : ∀ c, s.ctxState c = 0) :
    s.contextsOff = { s with hif := { s.hif with ctx := [], reads := [] } } := by
  have unchanged : ∀ l : List Nat, l.foldl (fun t k =>
      if t.ctxState (Fin.ofNat 256 k) = 0 then t else t.setCtxState (Fin.ofNat 256 k) 0) s = s := by
    intro l
    induction l with
    | nil => rfl
    | cons k ks ih => rw [List.foldl_cons, if_pos (h _), ih]
  rw [State.contextsOff]
  dsimp only
  rw [unchanged]

/-- The state in which the warm start's channels, rings and buses have stopped. -/
def haltedSessionStopped : State :=
  let s := haltedSession.twinFail.endDebug.discardFrames
  ({ s with hif := { s.hif with ctx := [], reads := [] } } : State).rejoin.stopChannels

theorem haltedSession_stops :
    haltedSession.twinFail.endDebug.discardFrames.contextsOff.rejoin.stopChannels = haltedSessionStopped :=
  congrArg (fun t : State => t.rejoin.stopChannels) (State.contextsOff_of_off (by decide +kernel))

/-- The fence stands to the end of the warm start. -/
theorem warmStart_haltedSession_fenced : (doWarmNAssert haltedSession).fenced 0 = true := by
  have runs : doWarmNAssert haltedSession = haltedSession.warmStart := by
    obtain ⟨power, recovery, -⟩ := haltedSession_runs
    rw [doWarmNAssert, State.warmIfRunning, power, recovery]
    rfl
  rw [runs, State.warmStart, haltedSession_stops]
  decide +kernel

/-- Refutes O14: the fences of domains 0 to 35 need not stand. The debug session ends with the warm start (R416) and
releases every halt (R388); the kernel start event held in the halt of a running kernel is then a hard fault of its
engine (R112), whose domain is fenced. -/
theorem not_warmStartsKeepWhatTheManualKeeps : ¬ Obligations.WarmStartsKeepWhatTheManualKeeps := by
  unfold Obligations.WarmStartsKeepWhatTheManualKeeps
  intro h
  obtain ⟨runs, noRecovery, unfenced⟩ := haltedSession_runs
  obtain ⟨⟨-, -, warm, -⟩, -⟩ := h haltedSession .sup .warmN haltedSession_storesWf
  obtain ⟨t, ht, -, -, -, -, -, -, -, -, -, -, -, fences, -⟩ := warm runs noRecovery
  have settled : settle haltedSession (doWarmNAssert haltedSession) = t := Host.Outcome.next.inj ht
  have fenced : t.fenced 0 = true := by
    rw [← settled, State.fenced, settle_flt, ← State.fenced, warmStart_haltedSession_fenced]
  rw [fences 0 (by decide), unfenced] at fenced
  exact absurd fenced (by decide)

end Sys2Proof.Machine
end

section
/-! SUPPORT. The channels of the pin sequencers (R277, R282-R290): one channel replaced by another, the end of a hold, the
event latch, the queues, START, STOP and the move to the new bank. -/

namespace Sys2Proof.Machine

/-! One channel replaced. -/

section
variable (s : State) (c : Fin 64)

theorem settle_psq (s t : State) : (settle s t).psq = t.psq := settle_part s t .psq

theorem State.setCh_psq (x : Chan) : (s.setCh c x).psq = { s.psq with ch := vset s.psq.ch c x } := rfl

theorem State.setCh_same (x : Chan) : (s.setCh c x).psq.ch[c] = x := getElem_vset_same _ _ _

theorem State.setCh_other (x : Chan) {k : Fin 64} (h : k ≠ c) : (s.setCh c x).psq.ch[k] = s.psq.ch[k] :=
  getElem_vset_other _ _ h

theorem vset_vset {α : Type} {n : Nat} (v : Vector α n) (i : Fin n) (x y : α) : vset (vset v i x) i y = vset v i y := by
  simp [vset]

theorem vset_getElem_self {α : Type} {n : Nat} (v : Vector α n) (i : Fin n) : vset v i v[i] = v := by
  simp [vset]

theorem State.setCh_setCh (x y : Chan) : (s.setCh c x).setCh c y = s.setCh c y := by
  rw [State.setCh, State.setCh_psq, vset_vset]
  rfl

theorem State.setCh_self : s.setCh c s.psq.ch[c] = s := by
  rw [State.setCh, vset_getElem_self]

theorem State.setCh_count (x : Chan) (a : Nat) : (s.setCh c x).count a = (s.count a).setCh c x := rfl

variable {s c}

theorem Framed.setCh {ps : List Part} {rs ts : List Nat} {t : State} (h : Framed ps rs ts s t) (hq : .psq ∈ ps)
    (x : Chan) : Framed ps rs ts s (t.setCh c x) := h.setPsq hq _

/-- A command that replaces the channel, and sends what it sends, ends so. -/
theorem ends_of_setCh {i : Instr} {x : Chan} (hc : exec i s = commit s (s.setCh c x)) :
    Ends i s fun t => t.psq = { s.psq with ch := vset s.psq.ch c x } ∧ Framed [.psq] [] [] s t :=
  ends_of_commit hc ⟨settle_psq _ _, framed_settle ((Framed.refl _ _ _ s).setCh (by simp) x)⟩

/-- A command that replaces the channel and counts once ends so. -/
theorem ends_of_setCh_count {i : Instr} {x : Chan} {a : Nat} (hw : s.storesWf) (ha : a ≠ glbIntCnt)
    (hc : exec i s = commit s ((s.setCh c x).count a)) :
    Ends i s fun t => t.psq = { s.psq with ch := vset s.psq.ch c x } ∧ t.reg a = s.reg a + 1 ∧
      Framed [.psq] [a] [] s t := by
  refine ends_of_commit hc ⟨settle_psq _ _, ?_, framed_settle (((Framed.refl _ _ _ s).setCh (by simp) x).count (by simp))⟩
  rw [settle_reg _ _ _ ha]
  exact State.reg_setReg_same _ _ _ (State.storesWf_regs hw)

theorem State.inHold_of_psqRuns (h : s.psqRuns c = true) : s.inHold .psq = false := by
  simp only [State.psqRuns, Bool.and_eq_true] at h
  obtain ⟨⟨⟨-, hold⟩, -⟩, -⟩ := h
  simpa using hold

/-- A command that only counts once ends so. -/
theorem ends_of_count {i : Instr} {a : Nat} (hw : s.storesWf) (ha : a ≠ glbIntCnt)
    (hc : exec i s = commit s (s.count a)) :
    Ends i s fun t => t.reg a = s.reg a + 1 ∧ Framed [] [a] [] s t := by
  refine ends_of_commit hc ⟨?_, framed_settle ((Framed.refl _ _ _ s).count (by simp))⟩
  rw [settle_reg _ _ _ ha]
  exact State.reg_setReg_same _ _ _ (State.storesWf_regs hw)

/-- The counters of a channel are not GLB_INT_CNT. -/
theorem psqChCnt_ne_glbIntCnt : psqChLateCnt c.val ≠ glbIntCnt ∧ psqChStallCnt c.val ≠ glbIntCnt ∧
    psqChEvovrCnt c.val ≠ glbIntCnt ∧ psqChTxqDropCnt c.val ≠ glbIntCnt ∧ psqChRxqEmptyCnt c.val ≠ glbIntCnt := by
  simp only [psqChLateCnt, psqChStallCnt, psqChEvovrCnt, psqChTxqDropCnt, psqChRxqEmptyCnt, glbIntCnt]
  omega

/-! PSQ_HOLD_RELEASE: the next instruction is PINS. -/

/-- The levels PINS leaves (Table PSQ-1). -/
def pinsLevels (x : Chan) (a b g : Byte) : BitVec 8 := ((x.lv ||| a) &&& ~~~b) ^^^ g

/-- The channel once PINS has issued, its effect landing at a tick. -/
def State.pinsDone (s : State) (c : Fin 64) (a b g : Byte) (land : Nat) : Chan :=
  { s.psq.ch[c] with
    lv := pinsLevels s.psq.ch[c] a b g
    fx := s.pendFx c land
    pc := s.psq.ch[c].pc + 1
    landAt := none }

/-- PINS on pins mapped and owned has its effect at its landing tick, and counts nothing (R279, R280). -/
theorem State.psqIssue_pins {a b g : Byte}
    (hp : ∀ p < 8, (a ||| b ||| g).getLsbD p = true → s.pinValid c p = true ∧ s.pinOwned c p = true) :
    s.psqIssue c (.pins a b g) = (s.setCh c (s.pinsDone c a b g (s.landTick c))).emit
      (.pinEffect c (s.landTick c) (pinsLevels s.psq.ch[c] a b g) s.psq.ch[c].dir) := by
  have named : ∀ p ∈ maskPins (a ||| b ||| g), s.pinValid c p = true ∧ s.pinOwned c p = true := fun p hm =>
    hp p (List.mem_range.1 (List.mem_filter.1 hm).1) (List.mem_filter.1 hm).2
  have mapped : (namedPins (.pins a b g)).any (fun p => !s.pinValid c p) = false :=
    List.any_eq_false.2 fun p hm => by simp [(named p hm).1]
  have owned : (outPins (.pins a b g)).any (fun p => s.pinValid c p && !s.pinOwned c p) = false :=
    List.any_eq_false.2 fun p hm => by simp [(named p hm).2]
  have sound : s.psqFault c (.pins a b g) = none := by
    rw [State.psqFault, mapped]
    rfl
  rw [State.psqIssue, sound]
  simp only [State.psqPerform, State.countRej, owned, Bool.false_eq_true, if_false, State.pinEffect, State.chNext,
    State.emit_psq, State.setCh_same]
  exact congrArg (fun t : State => t.emit _) (s.setCh_setCh c _ _)

/-- The end of a hold moves neither the program nor the effects that wait. -/
theorem State.pendFx_of_waitAt {y : Chan} {u : State} (hst : s.psq.ch[c].st = .waitAt) (hy : y.st = .running)
    (hlv : y.lv = s.psq.ch[c].lv) (hdir : y.dir = s.psq.ch[c].dir) (hfx : y.fx = s.psq.ch[c].fx)
    (hch : u.psq.ch[c] = y) (hclk : u.clk = s.clk) (land : Nat) : u.pendFx c land = s.pendFx c land := by
  simp only [State.pendFx, State.ballPins, State.chLevels, hch, hclk, hy, hlv, hdir, hfx, hst]

/-- A channel whose hold ends, with the tick its next effect lands at (R282). -/
def heldOff (x : Chan) (land : Option Nat) : Chan := { x with st := .running, holdFor := none, landAt := land }

theorem State.chRelease_early {k : Nat} (hk : s.holdLeft c = some k) (h : 16 ≤ k) :
    s.chRelease c = s.setCh c (heldOff s.psq.ch[c] (some (s.clk.tick + k))) := by
  rw [State.chRelease, hk]
  exact if_neg (by simpa using h)

theorem State.chRelease_late {k : Nat} (hk : s.holdLeft c = some k) (h : k < 16) :
    s.chRelease c = (s.setCh c (heldOff s.psq.ch[c] none)).count (psqChLateCnt c.val) := by
  rw [State.chRelease, hk]
  exact if_pos (by simpa using h)

/-- What PINS at the end of a hold makes of the channel. -/
theorem State.pinsDone_heldOff {a b g : Byte} {u : State} {land : Nat} {l : Option Nat} (hst : s.psq.ch[c].st = .waitAt)
    (hch : u.psq.ch[c] = heldOff s.psq.ch[c] l) (hclk : u.clk = s.clk) :
    u.pinsDone c a b g land = { s.psq.ch[c] with
      st := .running
      holdFor := none
      landAt := none
      lv := pinsLevels s.psq.ch[c] a b g
      fx := s.pendFx c land
      pc := s.psq.ch[c].pc + 1 } := by
  rw [State.pinsDone, State.pendFx_of_waitAt (y := heldOff s.psq.ch[c] l) hst rfl rfl rfl rfl hch hclk, hch]
  rfl

/-- The instruction to issue, and the pins of a channel, are as they were once the channel holds no more and LATE has
counted. -/
theorem State.pins_heldOff {u : State} {l : Option Nat} (hq : u.psq = (s.setCh c (heldOff s.psq.ch[c] l)).psq)
    (ht : u.tabs = s.tabs) (hr : ∀ a, a ≠ psqChLateCnt c.val → u.reg a = s.reg a) :
    u.psqFetch c = s.psqFetch c ∧
      ∀ p < 8, s.pinValid c p = true ∧ s.pinOwned c p = true → u.pinValid c p = true ∧ u.pinOwned c p = true := by
  have bank : u.chBank c = s.chBank c := by
    rw [State.chBank, hq, State.setCh_same]
    rfl
  have map (p : Nat) : u.pinMap c p = s.pinMap c p := by
    rw [State.pinMap, State.pinMap, hr _ (by simp only [psqChPinmap0, psqChLateCnt]; omega),
      hr _ (by simp only [psqChPinmap1, psqChLateCnt]; omega)]
  refine ⟨?_, fun p _ ⟨valid, owned⟩ => ⟨?_, ?_⟩⟩
  · rw [State.psqFetch, bank, hq, State.setCh_same, State.tab, ht]
    rfl
  · rw [State.pinValid, map]
    exact valid
  · have lt : s.pinMfp c p < 96 := by
      simp only [State.pinOwned, Bool.and_eq_true, decide_eq_true_eq] at owned
      exact owned.1.1
    have mfp : u.pinMfp c p = s.pinMfp c p := by rw [State.pinMfp, map, State.pinMfp]
    rw [State.pinOwned, mfp, hr _ (by simp only [psqMfp, psqChLateCnt]; omega)]
    exact owned

section
variable {a b g : Byte} {k : Nat} (hmay : s.psqRuns c = true) (hover : s.holdOver c = true)
  (hk : s.holdLeft c = some k) (hf : s.psqFetch c = .pins a b g)
  (hp : ∀ p < 8, (a ||| b ||| g).getLsbD p = true → s.pinValid c p = true ∧ s.pinOwned c p = true)
include hmay hover hk hf hp

omit hk in
theorem psqHoldRelease_eq {u : State} {l : Option Nat} (hu : s.chRelease c = u)
    (hq : u.psq = (s.setCh c (heldOff s.psq.ch[c] l)).psq) (ht : u.tabs = s.tabs) (hclk : u.clk = s.clk)
    (hr : ∀ a, a ≠ psqChLateCnt c.val → u.reg a = s.reg a) :
    let land := l.getD (s.clk.tick + 16)
    exec (.psqHoldRelease c) s = commit s ((u.setCh c { s.psq.ch[c] with
      st := .running
      holdFor := none
      landAt := none
      lv := pinsLevels s.psq.ch[c] a b g
      fx := s.pendFx c land
      pc := s.psq.ch[c].pc + 1 }).emit (.pinEffect c land (pinsLevels s.psq.ch[c] a b g) s.psq.ch[c].dir)) := by
  have hst : s.psq.ch[c].st = .waitAt := by
    rw [State.holdOver, Bool.and_eq_true, decide_eq_true_eq] at hover
    exact hover.1
  obtain ⟨fetch, pins⟩ := State.pins_heldOff hq ht hr
  have hch : u.psq.ch[c] = heldOff s.psq.ch[c] l := by rw [hq, State.setCh_same]
  have land : u.landTick c = l.getD (s.clk.tick + 16) := by rw [State.landTick, hch, hclk]; rfl
  change commit s (doPsqHoldRelease c s) = _
  rw [doPsqHoldRelease, hmay, hover, Bool.and_self, if_pos rfl]
  simp only [hu, fetch, hf]
  rw [State.psqIssue_pins fun p h8 hb => pins p h8 (hp p h8 hb), State.pinsDone_heldOff hst hch hclk, land, hch]
  rfl

/-- With S at least 32 ns ahead the effect of the next instruction lands at S (R282). -/
theorem psqHoldRelease_early (h : 16 ≤ k) : Ends (.psqHoldRelease c) s fun t =>
    t.psq = { s.psq with ch := vset s.psq.ch c { s.psq.ch[c] with
      st := .running
      holdFor := none
      landAt := none
      lv := pinsLevels s.psq.ch[c] a b g
      fx := s.pendFx c (s.clk.tick + k)
      pc := s.psq.ch[c].pc + 1 } } ∧
    Sends [.pinEffect c (s.clk.tick + k) (pinsLevels s.psq.ch[c] a b g) s.psq.ch[c].dir] s t ∧
    Framed [.psq] [] [] s t := by
  refine ends_of_commit (psqHoldRelease_eq hmay hover hf hp (State.chRelease_early hk h) rfl rfl rfl fun _ _ => rfl)
    ⟨?_, settle_sends (List.prefix_refl _), framed_settle ?_⟩
  · rw [settle_psq]
    exact congrArg State.psq (s.setCh_setCh c _ _)
  · exact (((Framed.refl _ _ _ s).setCh (by simp) _).setCh (by simp) _).emit _

/-- With S less than 32 ns ahead the outcome is LATE, and the next instruction is not held (R282). -/
theorem psqHoldRelease_late (hw : s.storesWf) (h : k < 16) : Ends (.psqHoldRelease c) s fun t =>
    t.psq = { s.psq with ch := vset s.psq.ch c { s.psq.ch[c] with
      st := .running
      holdFor := none
      landAt := none
      lv := pinsLevels s.psq.ch[c] a b g
      fx := s.pendFx c (s.clk.tick + 16)
      pc := s.psq.ch[c].pc + 1 } } ∧
    Sends [.pinEffect c (s.clk.tick + 16) (pinsLevels s.psq.ch[c] a b g) s.psq.ch[c].dir] s t ∧
    t.reg (psqChLateCnt c.val) = s.reg (psqChLateCnt c.val) + 1 ∧ Framed [.psq] [psqChLateCnt c.val] [] s t := by
  refine ends_of_commit (psqHoldRelease_eq hmay hover hf hp (State.chRelease_late hk h) rfl rfl rfl fun a ha =>
    State.reg_setReg_other _ _ _ _ ha) ⟨?_, settle_sends (List.prefix_refl _), ?_, framed_settle ?_⟩
  · rw [settle_psq]
    exact congrArg State.psq (s.setCh_setCh c _ _)
  · rw [settle_reg _ _ _ psqChCnt_ne_glbIntCnt.1]
    exact State.reg_setReg_same _ _ _ (State.storesWf_regs hw)
  · exact ((((Framed.refl _ _ _ s).setCh (by simp) _).count (by simp)).setCh (by simp) _).emit _

end

theorem psqHoldRelease_idle (h : ¬ s.psqRuns c = true ∨ s.holdOver c = false) : Idle (.psqHoldRelease c) s := by
  refine idle_of_commit (u := doPsqHoldRelease c s) rfl ?_
  rw [doPsqHoldRelease, if_neg]
  rw [Bool.and_eq_true]
  rintro ⟨runs, ended⟩
  rcases h with h | h
  · exact h runs
  · exact Bool.false_ne_true (h.symm.trans ended)

/-! PSQ_EVENT_LATCH. -/

/-- The sequencers with the oldest event fired latched. -/
def State.eventTaken (s : State) (rest : List (Fin 64 × Nat)) : State := { s with psq := { s.psq with events := rest } }

theorem psqEventLatch_idle (h : ∀ p ∈ s.psq.events, p.1 ≠ c) : Idle (.psqEventLatch c) s := by
  have none_ : s.firedFor c = none := by
    rw [State.firedFor, List.find?_eq_none.2 fun p hp => by simpa using h p hp]
    rfl
  refine idle_of_commit (u := doPsqEventLatch c s) rfl ?_
  rw [doPsqEventLatch, none_]

section
variable {f : Nat} {rest : List (Fin 64 × Nat)} (he : s.psq.events = (c, f) :: rest)
include he

/-- The oldest event of the channel comes to it (R283). -/
theorem doPsqEventLatch_eq : doPsqEventLatch c s =
    let s1 := s.eventTaken rest
    if s.psq.ch[c].ev.isSome || s.inHold .psq then s1.count (psqChEvovrCnt c.val)
    else
      let s2 := s1.setCh c { s.psq.ch[c] with ev := some f }
      if s.psq.ch[c].st = .waitEv && s.psqRuns c then s2.takeEvent c else s2 := by
  have fired : s.firedFor c = some f := by
    rw [State.firedFor, he, List.find?_cons_of_pos (by simp)]
    rfl
  have dropped : dropFired c s.psq.events = rest := by
    rw [he, dropFired, if_pos rfl]
  rw [doPsqEventLatch, fired]
  simp only [dropped]
  rfl

theorem psqEventLatch_counts (hw : s.storesWf) (h : s.psq.ch[c].ev.isSome = true ∨ s.inHold .psq = true) :
    Ends (.psqEventLatch c) s fun t =>
      t.psq = { s.psq with events := rest, ch := vset s.psq.ch c s.psq.ch[c] } ∧
      t.reg (psqChEvovrCnt c.val) = s.reg (psqChEvovrCnt c.val) + 1 ∧ Framed [.psq] [psqChEvovrCnt c.val] [] s t := by
  have counts : doPsqEventLatch c s = (s.eventTaken rest).count (psqChEvovrCnt c.val) := by
    rw [doPsqEventLatch_eq he]
    exact if_pos (by simpa using h)
  refine ends_of_commit (congrArg (commit s) counts) ⟨?_, ?_, framed_settle ?_⟩
  · rw [settle_psq, vset_getElem_self]
    rfl
  · rw [settle_reg _ _ _ psqChCnt_ne_glbIntCnt.2.2.1]
    exact State.reg_setReg_same _ _ _ (State.storesWf_regs hw)
  · exact ((Framed.refl _ _ _ s).setPsq (by simp) _).count (by simp)

section
variable (hev : s.psq.ch[c].ev = none) (hhold : s.inHold .psq = false)
include hev hhold

theorem doPsqEventLatch_latches : doPsqEventLatch c s =
    let s2 := (s.eventTaken rest).setCh c { s.psq.ch[c] with ev := some f }
    if s.psq.ch[c].st = .waitEv && s.psqRuns c then s2.takeEvent c else s2 := by
  rw [doPsqEventLatch_eq he]
  exact if_neg (by rw [hev, hhold]; decide)

theorem psqEventLatch_held (h : s.psq.ch[c].st ≠ .waitEv ∨ ¬ s.psqRuns c = true) : Ends (.psqEventLatch c) s fun t =>
    t.psq = { s.psq with events := rest, ch := vset s.psq.ch c { s.psq.ch[c] with ev := some f } } ∧
      Framed [.psq] [] [] s t := by
  have held : doPsqEventLatch c s = (s.eventTaken rest).setCh c { s.psq.ch[c] with ev := some f } := by
    rw [doPsqEventLatch_latches he hev hhold]
    refine if_neg ?_
    rw [Bool.and_eq_true, decide_eq_true_eq]
    rintro ⟨waits, runs⟩
    exact h.elim (fun h => h waits) fun h => h runs
  refine ends_of_commit (congrArg (commit s) held) ⟨?_, framed_settle ?_⟩
  · rw [settle_psq]
    rfl
  · exact ((Framed.refl _ _ _ s).setPsq (by simp) _).setCh (by simp) _

/-- A channel that holds for a tick (R282). -/
def heldFor (x : Chan) (t : Nat) : Chan := { x with st := .waitAt, holdFor := some t, landAt := none }

/-- A channel in WAIT_EV takes the event it latches: it holds for the tick 72 on, or finds it too near (R282, R283). -/
theorem doPsqEventLatch_takes (hst : s.psq.ch[c].st = .waitEv) (hmay : s.psqRuns c = true) : doPsqEventLatch c s =
    if f + 72 - s.clk.tick < 48 then
      ((s.eventTaken rest).setCh c (heldOff s.psq.ch[c] none)).count (psqChLateCnt c.val)
    else (s.eventTaken rest).setCh c (heldFor s.psq.ch[c] (f + 72)) := by
  rw [doPsqEventLatch_latches he hev hhold]
  refine (if_pos (by rw [hst, hmay]; decide)).trans ?_
  simp only [State.takeEvent, State.chWait, State.holdLeft, State.setCh_same, State.setCh_setCh]
  rw [heldOff, heldFor, hev]
  rfl

end

section
variable (hev : s.psq.ch[c].ev = none) (hst : s.psq.ch[c].st = .waitEv) (hmay : s.psqRuns c = true)
include hev hst hmay

theorem psqEventLatch_waits (h : s.clk.tick + 48 ≤ f + 72) : Ends (.psqEventLatch c) s fun t =>
    Framed [.psq] [] [] s t ∧
      t.psq = { s.psq with events := rest, ch := vset s.psq.ch c (heldFor s.psq.ch[c] (f + 72)) } := by
  refine ends_of_commit (congrArg (commit s) ((doPsqEventLatch_takes he hev (State.inHold_of_psqRuns hmay) hst
    hmay).trans (if_neg (by omega)))) ⟨framed_settle ?_, settle_psq _ _⟩
  exact ((Framed.refl _ _ _ s).setPsq (by simp) _).setCh (by simp) _

theorem psqEventLatch_late (hw : s.storesWf) (h : f + 72 < s.clk.tick + 48) : Ends (.psqEventLatch c) s fun t =>
    t.psq = { s.psq with events := rest, ch := vset s.psq.ch c (heldOff s.psq.ch[c] none) } ∧
      t.reg (psqChLateCnt c.val) = s.reg (psqChLateCnt c.val) + 1 ∧ Framed [.psq] [psqChLateCnt c.val] [] s t := by
  refine ends_of_commit (congrArg (commit s) ((doPsqEventLatch_takes he hev (State.inHold_of_psqRuns hmay) hst
    hmay).trans (if_pos (by omega)))) ⟨settle_psq _ _, ?_, framed_settle ?_⟩
  · rw [settle_reg _ _ _ psqChCnt_ne_glbIntCnt.1]
    exact State.reg_setReg_same _ _ _ (State.storesWf_regs hw)
  · exact (((Framed.refl _ _ _ s).setPsq (by simp) _).setCh (by simp) _).count (by simp)

end

end

/-! Queues (R286). -/

/-- Whether the queue that a channel waits for is served: room for its PUSH, a word for its PULL. -/
def State.served (s : State) (c : Fin 64) : Bool :=
  if s.psq.ch[c].push then decide (s.psq.ch[c].rxq.length < s.rxCap c) else decide (s.psq.ch[c].txq ≠ [])

theorem State.served_iff : s.served c = true ↔ (s.psq.ch[c].push = true ∧ s.psq.ch[c].rxq.length < s.rxCap c) ∨
    (s.psq.ch[c].push = false ∧ s.psq.ch[c].txq ≠ []) := by
  unfold State.served
  cases s.psq.ch[c].push with
  | false => simp
  | true => simp

/-- What a served queue does: with its queue not served the channel waits on. -/
theorem doPsqQueueResume_eq : doPsqQueueResume c s =
    if !s.served c then s
    else match s.psq.ch[c].st with
      | .waitQueue =>
        let y := if s.psq.ch[c].push then chPush s.psq.ch[c] else chPull s.psq.ch[c]
        if s.psqRuns c then (s.setCh c { y with st := .running }).chNext c else s
      | .shiftStalled => if s.psqCompletes c then s.shiftResume c else s
      | _ => s := rfl

theorem psqQueueResume_unserved (h : ¬ s.served c = true) : Idle (.psqQueueResume c) s := by
  refine idle_of_commit (u := doPsqQueueResume c s) rfl ?_
  rw [doPsqQueueResume_eq, Bool.eq_false_iff.2 h]
  rfl

theorem psqQueueResume_idle (hq : ¬ (s.psq.ch[c].st = .waitQueue ∧ s.psqRuns c = true))
    (hs : ¬ (s.psq.ch[c].st = .shiftStalled ∧ s.psqCompletes c = true)) : Idle (.psqQueueResume c) s := by
  refine idle_of_commit (u := doPsqQueueResume c s) rfl ?_
  rw [doPsqQueueResume_eq]
  split
  · rfl
  · split
    · next hst => exact if_neg fun hr => hq ⟨hst, hr⟩
    · next hst => exact if_neg fun hc => hs ⟨hst, hc⟩
    · rfl

/-- A channel past the wait on its queue. -/
def queueDone (x y : Chan) : Chan := { y with st := .running, pc := x.pc + 1, landAt := none }

section
variable (hserved : s.served c = true)
include hserved

theorem psqQueueResume_waits (hst : s.psq.ch[c].st = .waitQueue) (hmay : s.psqRuns c = true) :
    exec (.psqQueueResume c) s = commit s (s.setCh c (queueDone s.psq.ch[c]
      (if s.psq.ch[c].push then chPush s.psq.ch[c] else chPull s.psq.ch[c]))) := by
  have pc : (if s.psq.ch[c].push then chPush s.psq.ch[c] else chPull s.psq.ch[c]).pc = s.psq.ch[c].pc := by
    split
    · rfl
    · unfold chPull
      split <;> rfl
  change commit s (doPsqQueueResume c s) = _
  rw [doPsqQueueResume_eq, hserved, hst, hmay]
  simp only [Bool.not_true, Bool.false_eq_true, if_false, if_true, State.chNext, State.setCh_same, State.setCh_setCh, pc,
    queueDone]

theorem psqQueueResume_stalled {h : Shift} (hst : s.psq.ch[c].st = .shiftStalled) (hmay : s.psqCompletes c = true)
    (hsh : s.psq.ch[c].shift = some h) :
    exec (.psqQueueResume c) s = commit s (s.setCh c { (if s.psq.ch[c].push then chPush s.psq.ch[c] else s.psq.ch[c]) with
      st := .shifting
      shift := some { h with next := s.clk.tick + 16 } }) := by
  have kept : (if s.psq.ch[c].push then chPush s.psq.ch[c] else s.psq.ch[c]).shift = some h := by
    split
    · exact hsh
    · exact hsh
  change commit s (doPsqQueueResume c s) = _
  rw [doPsqQueueResume_eq, hserved, hst, hmay]
  simp only [Bool.not_true, Bool.false_eq_true, if_false, if_true, State.shiftResume, kept]

end

/-! The queues' registers (R286). -/

section
variable {m : Master} {v : Word}

theorem exec_psqTxqWrite (ho : Open s m true (psqChTxq c.val)) :
    exec (.psqTxqWrite m c v) s = commit s (s.txqPush c v) := by
  change commit s (doPsqTxqWrite m c v s) = _
  rw [doPsqTxqWrite, State.guarded_of_open ho]

theorem exec_psqRxqRead (ho : Open s m false (psqChRxq c.val)) : exec (.psqRxqRead m c) s =
    commit s ((s.rxqPop c).2.emit (.readData m (w32 (psqChRxq c.val)) (s.rxqPop c).1)) := by
  change commit s (doPsqRxqRead m c s) = _
  rw [doPsqRxqRead, State.guardedRead_of_open ho]

theorem psqTxqWrite_taken (ho : Open s m true (psqChTxq c.val)) (h : s.psq.ch[c].txq.length < s.txCap c) :
    exec (.psqTxqWrite m c v) s = commit s (s.setCh c { s.psq.ch[c] with txq := s.psq.ch[c].txq ++ [v] }) := by
  rw [exec_psqTxqWrite ho, State.txqPush, if_pos h]

theorem psqTxqWrite_dropped (ho : Open s m true (psqChTxq c.val)) (h : s.txCap c ≤ s.psq.ch[c].txq.length) :
    exec (.psqTxqWrite m c v) s = commit s (s.count (psqChTxqDropCnt c.val)) := by
  rw [exec_psqTxqWrite ho, State.txqPush, if_neg (by omega)]

theorem psqRxqRead_pops (ho : Open s m false (psqChRxq c.val)) {w : Word} {q : List Word}
    (h : s.psq.ch[c].rxq = w :: q) : Ends (.psqRxqRead m c) s fun t =>
      t.psq = { s.psq with ch := vset s.psq.ch c { s.psq.ch[c] with rxq := q } } ∧
      Sends [.readData m (w32 (psqChRxq c.val)) w] s t ∧ Framed [.psq] [] [] s t := by
  have popped : s.rxqPop c = (w, s.setCh c { s.psq.ch[c] with rxq := q }) := by rw [State.rxqPop, h]
  refine ends_of_commit (exec_psqRxqRead ho) ?_
  rw [popped]
  exact ⟨settle_psq _ _, settle_sends (List.prefix_refl _),
    framed_settle (((Framed.refl _ _ _ s).setCh (by simp) _).emit _)⟩

theorem psqRxqRead_empty (hw : s.storesWf) (ho : Open s m false (psqChRxq c.val)) (h : s.psq.ch[c].rxq = []) :
    Ends (.psqRxqRead m c) s fun t => Sends [.readData m (w32 (psqChRxq c.val)) 0] s t ∧
      t.reg (psqChRxqEmptyCnt c.val) = s.reg (psqChRxqEmptyCnt c.val) + 1 ∧
      Framed [] [psqChRxqEmptyCnt c.val] [] s t := by
  have popped : s.rxqPop c = (0, s.count (psqChRxqEmptyCnt c.val)) := by rw [State.rxqPop, h]
  refine ends_of_commit (exec_psqRxqRead ho) ?_
  rw [popped]
  refine ⟨settle_sends (List.prefix_refl _), ?_, framed_settle (((Framed.refl _ _ _ s).count (by simp)).emit _)⟩
  rw [settle_reg _ _ _ psqChCnt_ne_glbIntCnt.2.2.2.2]
  exact State.reg_setReg_same _ _ _ (State.storesWf_regs hw)

/-! START and STOP (R288, R290). -/

theorem exec_psqStart (ho : Open s m true (psqChCtrl c.val)) : exec (.psqStart m c) s = commit s (s.chStart c) := by
  change commit s (doPsqStart m c s) = _
  rw [doPsqStart, State.guarded_of_open ho]

theorem psqStart_rejected (hw : s.storesWf) (ho : Open s m true (psqChCtrl c.val)) (hen : s.en .psq = false) :
    Ends (.psqStart m c) s (Rejected .psq (psqChCtrl c.val % 2 ^ 22) s) := by
  have lt : psqChCtrl c.val < 2 ^ 22 := by
    simp only [psqChCtrl]
    omega
  have rejects : s.chStart c = s.rejReg .psq (psqChCtrl c.val) := by
    rw [State.chStart, hen]
    rfl
  rw [Nat.mod_eq_of_lt lt]
  exact ends_of_commit ((exec_psqStart ho).trans (congrArg (commit s) rejects)) (rejReg_rejected hw _ lt)

theorem psqStart_idle (ho : Open s m true (psqChCtrl c.val)) (hen : s.en .psq = true) (hs : s.psq.ch[c].st ≠ .stopped)
    (hf : s.psq.ch[c].st ≠ .fault) : Idle (.psqStart m c) s := by
  refine idle_of_commit (exec_psqStart ho) ?_
  simp only [State.chStart, hen, hs, hf, decide_false, Bool.or_self, Bool.not_true, Bool.false_eq_true, if_false]

theorem psqStart_starts (ho : Open s m true (psqChCtrl c.val)) (hen : s.en .psq = true)
    (hst : s.psq.ch[c].st = .stopped ∨ s.psq.ch[c].st = .fault) : exec (.psqStart m c) s =
      commit s (s.setCh c { clearShift s.psq.ch[c] (s.psqKeep c) with
        st := if s.inHold .psq then .stopped else .running
        fault := 0
        pc := (s.reg (psqChEntry c.val)).setWidth 10
        landAt := none }) := by
  rw [exec_psqStart ho, State.chStart, hen]
  refine congrArg (commit s) (if_neg Bool.false_ne_true |>.trans (if_pos ?_))
  simpa using hst

/-- A channel stopped, with levels and effects that wait (R288). -/
def stoppedChan (x : Chan) (lv : BitVec 8) (fx : List (Nat × BitVec 8 × BitVec 8)) : Chan :=
  { x with st := .stopped, lv := lv, fx := fx, shift := none, holdFor := none, landAt := none, moving := false }

/-- The shift of a channel that has issued and not begun. -/
def State.unbegun (s : State) (c : Fin 64) : Option Shift :=
  match s.psq.ch[c].shift with
  | some sh => if s.psq.ch[c].st = .shifting ∧ sh.left = sh.op.n ∧ s.clk.tick < sh.next then some sh else none
  | none => none

/-- With no swap pending a channel moves by itself alone. -/
theorem State.chMoved_of_noSwap (h : s.psq.swap = 0) (x : Chan) :
    (s.setCh c x).chMoved c = s.setCh c { x with moving := false } := by
  rw [State.chMoved, State.setCh_same, State.setCh_setCh, State.swapEnd, State.setCh_psq]
  refine if_neg ?_
  simp [h]

/-- A stop with the shift that has not begun given. -/
def State.stopWith (s : State) (c : Fin 64) (fresh : Option Shift) : State :=
  let x := s.psq.ch[c]
  let y : Chan := match fresh with
    | some sh => { x with lv := firstLevels x sh.op, fx := s.pendFx c sh.next }
    | none => { x with lv := s.chLevels c }
  let s1 := (s.setCh c { y with st := .stopped, shift := none, holdFor := none, landAt := none }).chMoved c
  match fresh with
  | some sh => s1.emit (.pinEffect c sh.next y.lv y.dir)
  | none => s1

theorem State.chStop_eq : s.chStop c = s.stopWith c (s.unbegun c) := rfl

theorem State.chStop_of_begun (hswap : s.psq.swap = 0) (h : s.unbegun c = none) :
    s.chStop c = s.setCh c (stoppedChan s.psq.ch[c] (s.chLevels c) s.psq.ch[c].fx) := by
  rw [State.chStop_eq, h]
  exact State.chMoved_of_noSwap hswap _

theorem State.chStop_of_unbegun {sh : Shift} (hswap : s.psq.swap = 0) (h : s.unbegun c = some sh) :
    s.chStop c = (s.setCh c (stoppedChan s.psq.ch[c] (firstLevels s.psq.ch[c] sh.op) (s.pendFx c sh.next))).emit
      (.pinEffect c sh.next (firstLevels s.psq.ch[c] sh.op) s.psq.ch[c].dir) := by
  rw [State.chStop_eq, h]
  exact congrArg (fun t : State => t.emit _) (State.chMoved_of_noSwap hswap _)

/-- What a stop leaves. -/
theorem State.chStop_leaves (hswap : s.psq.swap = 0) : Framed [.psq] [] [] s (s.chStop c) ∧ ∃ lv fx,
    (s.chStop c).psq = { s.psq with ch := vset s.psq.ch c (stoppedChan s.psq.ch[c] lv fx) } := by
  cases h : s.unbegun c with
  | none =>
    rw [State.chStop_of_begun hswap h]
    exact ⟨(Framed.refl _ _ _ s).setCh (by simp) _, _, _, rfl⟩
  | some sh =>
    rw [State.chStop_of_unbegun hswap h]
    exact ⟨((Framed.refl _ _ _ s).setCh (by simp) _).emit _, _, _, rfl⟩

theorem psqStop_ends (hswap : s.psq.swap = 0) (ho : Open s m true (psqChCtrl c.val)) (st : Bool) :
    Ends (.psqStop m c st) s fun t => Framed [.psq] [] [] s t ∧
      t.psq = { s.psq with ch := vset s.psq.ch c (stoppedChan s.psq.ch[c] t.psq.ch[c].lv t.psq.ch[c].fx) } ∧
      (s.psq.ch[c].st ≠ .shifting → t.psq.ch[c].lv = s.psq.ch[c].lv ∧ t.psq.ch[c].fx = s.psq.ch[c].fx) ∧
      (∀ h, s.psq.ch[c].st = .shifting → s.psq.ch[c].shift = some h → h.left = h.op.n → s.clk.tick < h.next →
        t.psq.ch[c].lv = firstLevels s.psq.ch[c] h.op ∧ t.psq.ch[c].fx = s.pendFx c h.next ∧
        Sends [.pinEffect c h.next (firstLevels s.psq.ch[c] h.op) s.psq.ch[c].dir] s t) := by
  have stops : exec (.psqStop m c st) s = commit s (s.chStop c) := by
    change commit s (doPsqStop m c s) = _
    rw [doPsqStop, State.guarded_of_open ho]
  obtain ⟨framed, lv, fx, left⟩ := State.chStop_leaves (c := c) hswap
  refine ends_of_commit stops ⟨framed_settle framed, ?_, fun hst => ?_, fun h hst hsh hleft hnext => ?_⟩
  · rw [settle_psq, left, getElem_vset_same]
    rfl
  · have begun : s.unbegun c = none := by
      unfold State.unbegun
      split
      · exact if_neg fun h => hst h.1
      · rfl
    have levels : s.chLevels c = s.psq.ch[c].lv := by
      unfold State.chLevels
      dsimp only
      split
      · next h _ => exact absurd h hst
      · rfl
    rw [settle_psq, State.chStop_of_begun hswap begun, State.setCh_same, levels]
    exact ⟨rfl, rfl⟩
  · have unbegun : s.unbegun c = some h := by
      rw [State.unbegun, hsh]
      exact if_pos ⟨hst, hleft, hnext⟩
    rw [settle_psq, State.chStop_of_unbegun hswap unbegun, State.emit_psq, State.setCh_same]
    exact ⟨rfl, rfl, settle_sends (List.prefix_refl _)⟩

end

/-! The bank swap (R289). -/

/-- The channels of an engine. -/
def engChans (e : Nat) : List (Fin 64) := (List.range 32).map fun k => Fin.ofNat 64 (32 * e + k)

theorem mem_engChans {e : Nat} (he : e < 2) (k : Fin 64) : k ∈ engChans e ↔ k.val / 32 = e := by
  rw [engChans, List.mem_map]
  constructor
  · rintro ⟨j, hj, rfl⟩
    have := List.mem_range.1 hj
    simp only [Fin.ofNat]
    omega
  · intro h
    refine ⟨k.val % 32, List.mem_range.2 (Nat.mod_lt _ (by decide)), Fin.ext ?_⟩
    simp only [Fin.ofNat]
    omega

theorem State.swapEnd_of_moving (e : Nat) (h : s.psq.swap.getLsbD e = false ∨ ∃ k ∈ engChans e, s.psq.ch[k].moving = true) :
    s.swapEnd e = s := by
  refine if_neg ?_
  rw [Bool.and_eq_true, List.all_eq_true]
  rintro ⟨swaps, all⟩
  rcases h with h | ⟨k, hk, moving⟩
  · exact Bool.false_ne_true (h.symm.trans swaps)
  · obtain ⟨j, hj, rfl⟩ := List.mem_map.1 hk
    have still := all j hj
    rw [moving] at still
    exact Bool.false_ne_true still

theorem State.swapEnd_of_moved {e : Nat} (hs : s.psq.swap.getLsbD e = true)
    (h : ∀ k ∈ engChans e, s.psq.ch[k].moving = false) : s.swapEnd e = { s with psq := { s.psq with
      active := setBit s.psq.active e (!s.psq.active.getLsbD e)
      swap := setBit s.psq.swap e false } } := by
  refine if_pos ?_
  rw [Bool.and_eq_true, List.all_eq_true]
  refine ⟨hs, fun j hj => ?_⟩
  rw [h _ (List.mem_map.2 ⟨j, hj, rfl⟩)]
  rfl

/-- STOPPED and FAULT: a channel that a swap does not wait for. -/
def freeChan (x : Chan) : Prop := x.st = .stopped ∨ x.st = .fault

/-- A channel as a swap of its engine finds it: one that runs has its move pending. -/
def marked (x : Chan) : Chan := { x with moving := !(x.st = .stopped || x.st = .fault) }

theorem marked_of_free {x : Chan} (h : freeChan x) : (marked x).moving = false := by
  rcases h with h | h
  · simp [marked, h]
  · simp [marked, h]

theorem marked_of_busy {x : Chan} (h : ¬ freeChan x) : (marked x).moving = true := by
  simpa [marked, freeChan, not_or] using h

theorem marked_eq (x : Chan) : marked x = { x with moving := decide (¬ (x.st = .stopped ∨ x.st = .fault)) } := by
  rw [marked, decide_not, Bool.decide_or]

theorem foldl_marked (l : List (Fin 64)) (s : State) :
    let t := l.foldl (fun t k => t.setCh k (marked t.psq.ch[k])) s
    Framed [.psq] [] [] s t ∧ t.psq = { s.psq with ch := t.psq.ch } ∧
      ∀ k, t.psq.ch[k] = if k ∈ l then marked s.psq.ch[k] else s.psq.ch[k] := by
  induction l generalizing s with
  | nil => exact ⟨Framed.refl _ _ _ s, rfl, fun k => (if_neg List.not_mem_nil).symm⟩
  | cons j l ih =>
    obtain ⟨framed, psq, chans⟩ := ih (s.setCh j (marked s.psq.ch[j]))
    refine ⟨((Framed.refl _ _ _ s).setCh (by simp) _).trans framed, psq, fun k => (chans k).trans ?_⟩
    by_cases hk : k = j
    · subst hk
      rw [State.setCh_same, if_pos List.mem_cons_self]
      exact ite_self _
    · rw [State.setCh_other _ _ _ hk]
      simp only [List.mem_cons, hk, false_or]

/-- What the swap of an engine begins, where a bit of PSQ_CMD asks for it: its channels are marked, and with none of them
running the new bank is active. -/
structure SwapStep (e : Nat) (b : Bool) (s t : State) : Prop where
  framed : Framed [.psq] [] [] s t
  events : t.psq.events = s.psq.events
  again : t.psq.again = s.psq.again
  chans : ∀ k : Fin 64, t.psq.ch[k] = if k.val / 32 = e ∧ b = true then marked s.psq.ch[k] else s.psq.ch[k]
  moved : b = true → (∀ k : Fin 64, k.val / 32 = e → freeChan s.psq.ch[k]) →
    t.psq.active.getLsbD e = !s.psq.active.getLsbD e ∧ t.psq.swap.getLsbD e = false
  waits : b = true → ∀ k : Fin 64, k.val / 32 = e → ¬ freeChan s.psq.ch[k] →
    t.psq.active.getLsbD e = s.psq.active.getLsbD e ∧ t.psq.swap.getLsbD e = true
  others : ∀ j, j ≠ e ∨ b = false →
    t.psq.active.getLsbD j = s.psq.active.getLsbD j ∧ t.psq.swap.getLsbD j = s.psq.swap.getLsbD j

/-- The state of a swap whose channels are marked and not yet moved. -/
def State.swapMarked (s : State) (e : Nat) : State :=
  (engChans e).foldl (fun t k => t.setCh k (marked t.psq.ch[k])) { s with psq := { s.psq with swap := setBit s.psq.swap e true } }

theorem State.swapStart_eq {e : Nat} (hs : s.psq.swap.getLsbD e = false) :
    s.swapStart e = (s.swapMarked e).swapEnd e := by
  rw [State.swapStart, hs, State.swapMarked, engChans, List.foldl_map]
  rfl

theorem State.swapStart_step {e : Nat} (he : e < 2) (hs : s.psq.swap.getLsbD e = false) :
    SwapStep e true s (s.swapStart e) := by
  obtain ⟨framed, psq, chans⟩ := foldl_marked (engChans e) { s with psq := { s.psq with swap := setBit s.psq.swap e true } }
  obtain ⟨u, hu⟩ : ∃ u, u = s.swapMarked e := ⟨_, rfl⟩
  rw [State.swapStart_eq hs, ← hu]
  change Framed _ _ _ _ (s.swapMarked e) at framed
  change (s.swapMarked e).psq = { s.psq with swap := setBit s.psq.swap e true, ch := (s.swapMarked e).psq.ch } at psq
  change ∀ k, (s.swapMarked e).psq.ch[k] = if k ∈ engChans e then marked s.psq.ch[k] else s.psq.ch[k] at chans
  rw [← hu] at framed psq chans
  have begun : Framed [.psq] [] [] s u := ((Framed.refl _ _ _ s).setPsq (by simp) _).trans framed
  have swaps : u.psq.swap.getLsbD e = true := by
    rw [psq]
    exact (getLsbD_setBit _ he _ _).trans (if_pos rfl)
  have chan (k : Fin 64) : u.psq.ch[k] = if k.val / 32 = e ∧ true = true then marked s.psq.ch[k] else s.psq.ch[k] := by
    simp only [chans, mem_engChans he, and_true]
  have other (j : Nat) (hj : j ≠ e ∨ true = false) :
      u.psq.active.getLsbD j = s.psq.active.getLsbD j ∧ u.psq.swap.getLsbD j = s.psq.swap.getLsbD j := by
    rw [psq]
    exact ⟨rfl, (getLsbD_setBit _ he _ _).trans (if_neg (hj.resolve_right (by decide)))⟩
  by_cases hfree : ∀ k : Fin 64, k.val / 32 = e → freeChan s.psq.ch[k]
  · have still : ∀ k ∈ engChans e, u.psq.ch[k].moving = false := fun k hk => by
      rw [chans, if_pos hk]
      exact marked_of_free (hfree k ((mem_engChans he k).1 hk))
    rw [State.swapEnd_of_moved swaps still]
    refine ⟨begun.setPsq (by simp) _, ?_, ?_, chan, fun _ _ => ⟨?_, ?_⟩, fun _ k hk hb => absurd (hfree k hk) hb,
      fun j hj => ⟨?_, ?_⟩⟩
    · rw [psq]
    · rw [psq]
    · refine ((getLsbD_setBit _ he _ _).trans (if_pos rfl)).trans ?_
      rw [psq]
    · exact (getLsbD_setBit _ he _ _).trans (if_pos rfl)
    · exact ((getLsbD_setBit _ he _ _).trans (if_neg (hj.resolve_right (by decide)))).trans (other j hj).1
    · exact ((getLsbD_setBit _ he _ _).trans (if_neg (hj.resolve_right (by decide)))).trans (other j hj).2
  · obtain ⟨k, hk, busy⟩ : ∃ k : Fin 64, k.val / 32 = e ∧ ¬ freeChan s.psq.ch[k] := by simpa using hfree
    have runs : u.psq.ch[k].moving = true := by
      rw [chans, if_pos ((mem_engChans he k).2 hk)]
      exact marked_of_busy busy
    rw [State.swapEnd_of_moving e (.inr ⟨k, (mem_engChans he k).2 hk, runs⟩)]
    refine ⟨begun, ?_, ?_, chan, fun _ h => absurd (h k hk) busy, fun _ _ _ _ => ⟨?_, swaps⟩, other⟩
    · rw [psq]
    · rw [psq]
    · rw [psq]

theorem State.swapStep_of_unasked (e : Nat) : SwapStep e false s s :=
  ⟨Framed.refl _ _ _ s, rfl, rfl, fun _ => (if_neg fun h => Bool.false_ne_true h.2).symm,
    fun h => absurd h Bool.false_ne_true, fun h => absurd h Bool.false_ne_true, fun _ _ => ⟨rfl, rfl⟩⟩

theorem State.swapStep {e : Nat} (he : e < 2) (b : Bool) (hs : s.psq.swap.getLsbD e = false) :
    SwapStep e b s (if b then s.swapStart e else s) := by
  cases b with
  | false => exact State.swapStep_of_unasked e
  | true => exact State.swapStart_step he hs

end

end Sys2Proof.Machine
end

section
/-! SUPPORT. PSQ_SWAP and the move of a channel to the new bank (R289, R398). -/

namespace Sys2Proof.Machine

section
variable {s : State} {c : Fin 64} {m : Master} {es : BitVec 2}

/-! PSQ_SWAP. -/

/-- The bits of PSQ_CMD that name fenced engines. -/
theorem State.psqMask_bit (s : State) (k : Nat) : (s.fencedMask .psq 0x20).getLsbD k =
    (decide (k < 2) && s.fenced (27 + k)) := by
  by_cases h : k < 32
  · exact getLsbD_bitsFrom 32 _ k h
  · rw [BitVec.getLsbD_of_ge _ _ (by omega), decide_eq_false (by omega : ¬ k < 2), Bool.false_and]

theorem psqCmd_bit (es : BitVec 2) (k : Nat) : (es.setWidth 32 : Word).getLsbD k = es.getLsbD k := by
  rw [BitVec.getLsbD_setWidth]
  by_cases h : k < 32
  · rw [decide_eq_true h, Bool.true_and]
  · rw [decide_eq_false h, BitVec.getLsbD_of_ge _ _ (by omega), Bool.and_false]

theorem State.psqMask_live (hf : ∀ e < 2, es.getLsbD e = true → s.fenced (27 + e) = false) :
    (es.setWidth 32 : Word) &&& s.fencedMask .psq 0x20 = 0 := by
  refine BitVec.eq_of_getLsbD_eq fun k _ => ?_
  rw [BitVec.getLsbD_and, psqCmd_bit, State.psqMask_bit]
  refine Eq.trans ?_ BitVec.getLsbD_zero.symm
  rw [Bool.and_eq_false_iff]
  by_cases h : k < 2
  · cases hb : es.getLsbD k with
    | false => exact .inl rfl
    | true => exact .inr (by rw [hf k h hb, Bool.and_false])
  · exact .inl (BitVec.getLsbD_of_ge _ _ (by omega))

/-- A swap of fenced engines alone: every bit written is one of a fenced engine's (R398). -/
theorem State.psqMask_fenced (hf : ∀ e < 2, es.getLsbD e = true → s.fenced (27 + e) = true) :
    (es.setWidth 32 : Word) &&& s.fencedMask .psq 0x20 = es.setWidth 32 := by
  refine BitVec.eq_of_getLsbD_eq fun k _ => ?_
  rw [BitVec.getLsbD_and, psqCmd_bit, State.psqMask_bit]
  cases hb : es.getLsbD k with
  | false => rfl
  | true =>
    have h : k < 2 := by
      by_contra hk
      rw [BitVec.getLsbD_of_ge _ _ (by omega)] at hb
      exact Bool.false_ne_true hb
    rw [hf k h hb, decide_eq_true h]
    rfl

theorem psqSwap_fenced (hw : s.storesWf) (ho : Open s m true psqCmd) (hne : es ≠ 0)
    (hf : ∀ e < 2, es.getLsbD e = true → s.fenced (27 + e) = true) :
    Ends (.psqSwap m es) s fun t => Framed [.hif] [glbSupBuserrCnt, hifBuserrDropCnt] [] s t ∧
      (m = .sup → t.reg glbSupBuserrCnt = s.reg glbSupBuserrCnt + 1) := by
  have mask := State.psqMask_fenced hf
  have nonzero : (es.setWidth 32 : Word) ≠ 0 := by
    clear mask hf
    revert es
    decide
  have out : exec (.psqSwap m es) s = commit s (s.accessErr m true 0 psqCmd stFenced) := by
    refine congrArg (commit s) ((State.guarded_of_open ho _).trans ?_)
    rw [State.sharedCmd, mask]
    exact (if_neg nonzero).trans (if_pos rfl)
  refine ends_of_commit out ⟨framed_settle (s.accessErr_framed _ _ _ _ m), fun hm => ?_⟩
  rw [settle_reg _ _ _ (by decide), hm]
  exact s.accessErr_sup_count _ _ _ _ hw

theorem exec_psqSwap (ho : Open s m true psqCmd) (hf : ∀ e < 2, es.getLsbD e = true → s.fenced (27 + e) = false) :
    exec (.psqSwap m es) s = commit s
      (let u := if es.getLsbD 0 then s.swapStart 0 else s
       if es.getLsbD 1 then u.swapStart 1 else u) := by
  refine congrArg (commit s) ((State.guarded_of_open ho _).trans ((if_pos (State.psqMask_live hf)).trans ?_))
  rw [State.psqSwaps, bitOf, bitOf, psqCmd_bit, psqCmd_bit]

/-- The swaps of both engines, as PSQ_SWAP begins them with none pending. -/
structure SwapsBegun (es : BitVec 2) (s t : State) : Prop where
  framed : Framed [.psq] [] [] s t
  events : t.psq.events = s.psq.events
  again : t.psq.again = s.psq.again
  moved : ∀ e < 2, es.getLsbD e = true → (∀ k : Fin 64, k.val / 32 = e → freeChan s.psq.ch[k]) →
    t.psq.active.getLsbD e = !s.psq.active.getLsbD e ∧ t.psq.swap.getLsbD e = false
  waits : ∀ e < 2, ∀ j : Fin 64, es.getLsbD e = true → j.val / 32 = e → ¬ freeChan s.psq.ch[j] →
    t.psq.active.getLsbD e = s.psq.active.getLsbD e ∧ t.psq.swap.getLsbD e = true
  chans : ∀ k : Fin 64, es.getLsbD (k.val / 32) = true → t.psq.ch[k] = marked s.psq.ch[k]
  unasked : ∀ e < 2, es.getLsbD e = false →
    t.psq.active.getLsbD e = s.psq.active.getLsbD e ∧ t.psq.swap.getLsbD e = false
  others : ∀ k : Fin 64, es.getLsbD (k.val / 32) = false → t.psq.ch[k] = s.psq.ch[k]

/-- The swap of engine 0 and then that of engine 1 keep apart. -/
theorem SwapStep.both {u t : State} (hs : s.psq.swap = 0) (h0 : SwapStep 0 (es.getLsbD 0) s u)
    (h1 : SwapStep 1 (es.getLsbD 1) u t) : SwapsBegun es s t := by
  have pending (j : Nat) : s.psq.swap.getLsbD j = false := by simp [hs]
  have first (k : Fin 64) (hk : k.val / 32 = 0) : t.psq.ch[k] = u.psq.ch[k] :=
    (h1.chans k).trans (if_neg fun h => by omega)
  have second (k : Fin 64) (hk : k.val / 32 = 1) : u.psq.ch[k] = s.psq.ch[k] :=
    (h0.chans k).trans (if_neg fun h => by omega)
  have engine (k : Fin 64) : k.val / 32 = 0 ∨ k.val / 32 = 1 := by omega
  have bits0 := h1.others 0 (.inl (by decide))
  have bits1 := h0.others 1 (.inl (by decide))
  refine ⟨h0.framed.trans h1.framed, h1.events.trans h0.events, h1.again.trans h0.again, fun e he hb hfree => ?_,
    fun e he j hb hj busy => ?_, fun k hb => ?_, fun e he hb => ?_, fun k hb => ?_⟩
  · obtain rfl | rfl : e = 0 ∨ e = 1 := by omega
    · rw [bits0.1, bits0.2]
      exact h0.moved hb hfree
    · rw [← bits1.1]
      exact h1.moved hb fun k hk => by rw [second k hk]; exact hfree k hk
  · obtain rfl | rfl : e = 0 ∨ e = 1 := by omega
    · rw [bits0.1, bits0.2]
      exact h0.waits hb j hj busy
    · rw [← bits1.1]
      exact h1.waits hb j hj (by rw [second j hj]; exact busy)
  · rcases engine k with hk | hk
    · rw [first k hk, h0.chans k, if_pos ⟨hk, hk ▸ hb⟩]
    · rw [h1.chans k, if_pos ⟨hk, hk ▸ hb⟩, second k hk]
  · obtain rfl | rfl : e = 0 ∨ e = 1 := by omega
    · rw [bits0.1, bits0.2, ← pending 0]
      exact h0.others 0 (.inr hb)
    · rw [(h1.others 1 (.inr hb)).1, (h1.others 1 (.inr hb)).2, ← pending 1]
      exact bits1
  · rcases engine k with hk | hk
    · rw [first k hk, h0.chans k]
      exact if_neg fun h => Bool.false_ne_true ((hk ▸ hb).symm.trans h.2)
    · rw [h1.chans k, second k hk]
      exact if_neg fun h => Bool.false_ne_true ((hk ▸ hb).symm.trans h.2)

theorem psqSwap_ends (ho : Open s m true psqCmd) (hf : ∀ e < 2, es.getLsbD e = true → s.fenced (27 + e) = false)
    (hs : s.psq.swap = 0) : Ends (.psqSwap m es) s (SwapsBegun es s) := by
  have h0 := State.swapStep (by decide : 0 < 2) (es.getLsbD 0) (by rw [hs]; rfl : s.psq.swap.getLsbD 0 = false)
  have pending := (h0.others 1 (.inl (by decide))).2.trans (by rw [hs]; rfl : s.psq.swap.getLsbD 1 = false)
  have both := SwapStep.both hs h0 (State.swapStep (by decide) (es.getLsbD 1) pending)
  refine ends_of_commit (exec_psqSwap ho hf) ?_
  obtain ⟨framed, events, again, moved, waits, chans, unasked, others⟩ := both
  constructor
  · exact framed_settle framed
  all_goals rw [settle_psq]; assumption

/-! PSQ_CHANNEL_BANK_MOVE. -/

/-- The channel as it starts in the new bank. -/
def State.movedChan (s : State) (c : Fin 64) : Chan :=
  { clearShift s.psq.ch[c] (s.psqKeep c) with
    st := .running
    pc := (s.reg (psqChEntry c.val)).setWidth 10
    holdFor := none
    landAt := none
    moving := false }

/-- A channel moves with its move pending, at an instruction boundary. -/
abbrev State.moves (s : State) (c : Fin 64) : Prop :=
  s.psq.ch[c].moving = true ∧ s.psqRuns c = true ∧ (s.psq.ch[c].st = .running ∨ s.psq.ch[c].st = .waitAt ∨
    s.psq.ch[c].st = .waitEv ∨ s.psq.ch[c].st = .waitQueue)

/-- The instruction boundaries of a channel (R289). -/
def atBoundary : ChanSt → Bool
  | .running => true
  | .waitAt => true
  | .waitEv => true
  | .waitQueue => true
  | _ => false

theorem atBoundary_iff (x : ChanSt) :
    atBoundary x = true ↔ x = .running ∨ x = .waitAt ∨ x = .waitEv ∨ x = .waitQueue := by
  cases x <;> decide

theorem State.chMoved_setCh (y : Chan) :
    (s.setCh c y).chMoved c = (s.setCh c { y with moving := false }).swapEnd (c.val / 32) := by
  rw [State.chMoved, State.setCh_same, State.setCh_setCh]
  rfl

theorem doPsqChannelBankMove_eq : doPsqChannelBankMove c s =
    if s.psq.ch[c].moving && atBoundary s.psq.ch[c].st && s.psqRuns c then
      (s.setCh c (s.movedChan c)).swapEnd (c.val / 32)
    else s := by
  exact if_congr Iff.rfl (State.chMoved_setCh _) rfl

theorem psqChannelBankMove_idle (h : ¬ s.moves c) : Idle (.psqChannelBankMove c) s := by
  refine idle_of_commit (u := doPsqChannelBankMove c s) rfl ?_
  rw [doPsqChannelBankMove_eq]
  refine if_neg fun hm => h ?_
  rw [Bool.and_eq_true, Bool.and_eq_true, atBoundary_iff] at hm
  exact ⟨hm.1.1, hm.2, hm.1.2⟩

section
variable (h : s.moves c)
include h

theorem exec_psqChannelBankMove :
    exec (.psqChannelBankMove c) s = commit s ((s.setCh c (s.movedChan c)).swapEnd (c.val / 32)) := by
  obtain ⟨moving, may, boundary⟩ := h
  change commit s (doPsqChannelBankMove c s) = _
  rw [doPsqChannelBankMove_eq, moving, may, (atBoundary_iff _).2 boundary]
  rfl

/-- Once the last channel has moved the new bank is active (R289). -/
theorem psqChannelBankMove_ends : Ends (.psqChannelBankMove c) s fun t => Framed [.psq] [] [] s t ∧
    t.psq.ch[c] = s.movedChan c ∧ (∀ k : Fin 64, k ≠ c → t.psq.ch[k] = s.psq.ch[k]) ∧
    (s.psq.swap.getLsbD (c.val / 32) = true →
      (let last := ∀ k : Fin 64, k.val / 32 = c.val / 32 → k ≠ c → s.psq.ch[k].moving = false
       (last → t.psq.swap.getLsbD (c.val / 32) = false ∧
         t.psq.active.getLsbD (c.val / 32) = !s.psq.active.getLsbD (c.val / 32)) ∧
       (¬ last → t.psq.swap = s.psq.swap ∧ t.psq.active = s.psq.active))) := by
  have he : c.val / 32 < 2 := by omega
  have framed : Framed [.psq] [] [] s (s.setCh c (s.movedChan c)) := (Framed.refl _ _ _ s).setCh (by simp) _
  have ended (e : Nat) : Framed [.psq] [] [] s ((s.setCh c (s.movedChan c)).swapEnd e) ∧
      ((s.setCh c (s.movedChan c)).swapEnd e).psq.ch = (s.setCh c (s.movedChan c)).psq.ch := by
    unfold State.swapEnd
    split
    · exact ⟨framed.setPsq (by simp) _, rfl⟩
    · exact ⟨framed, rfl⟩
  refine ends_of_commit (exec_psqChannelBankMove h) ⟨framed_settle (ended _).1, ?_, fun k hk => ?_, fun hs =>
    ⟨fun hlast => ?_, fun hwait => ?_⟩⟩
  · rw [settle_psq, (ended _).2]
    exact s.setCh_same c _
  · rw [settle_psq, (ended _).2]
    exact s.setCh_other c _ hk
  · have still : ∀ k ∈ engChans (c.val / 32), (s.setCh c (s.movedChan c)).psq.ch[k].moving = false := fun k hk => by
      by_cases hkc : k = c
      · rw [hkc, State.setCh_same]
        rfl
      · rw [State.setCh_other _ _ _ hkc]
        exact hlast k ((mem_engChans he k).1 hk) hkc
    rw [settle_psq, State.swapEnd_of_moved (s := s.setCh c (s.movedChan c)) hs still]
    exact ⟨(getLsbD_setBit _ he _ _).trans (if_pos rfl), (getLsbD_setBit _ he _ _).trans (if_pos rfl)⟩
  · obtain ⟨k, hk, hkc, busy⟩ : ∃ k : Fin 64, k.val / 32 = c.val / 32 ∧ k ≠ c ∧ s.psq.ch[k].moving = true := by
      simpa using hwait
    have runs : (s.setCh c (s.movedChan c)).psq.ch[k].moving = true := by
      rw [State.setCh_other _ _ _ hkc]
      exact busy
    rw [settle_psq, State.swapEnd_of_moving _ (.inr ⟨k, (mem_engChans he k).2 hk, runs⟩)]
    exact ⟨rfl, rfl⟩

end

end

end Sys2Proof.Machine
end

section
/-! SUPPORT. Shifts without reload (R284, R285): from bit to bit to the end, or to the stall with no word for OSR. -/

namespace Sys2Proof.Machine

section
variable {s : State} {c : Fin 64} {o : ShiftOp}

/-! The bits of a shift out. -/

/-- The channel once the next bit of a shift out without reload has left (R284). -/
def outBit (div : Nat) (x : Chan) (h : Shift) : Chan :=
  let b := shiftOut h.op.msb x.osr
  let lv := setBit (restLevels x) h.op.clk.val (!h.op.cpol)
  { x with
    shift := some { h with
      left := h.left - 1
      next := h.next + 2 * div
      ends := h.next + 2 * div
      dbit := if h.op.cpha then some b.1 else none }
    osr := b.2
    osrBits := x.osrBits - 1
    lv := if h.op.cpha then lv else setBit lv h.op.dout.val b.1 }

theorem State.bitStart_out {h : Shift} (hout : h.op.out = true) (hinp : h.op.inp = false) (hclk : h.op.noclk = false)
    (hbits : 0 < s.psq.ch[c].osrBits) : ∃ out, s.bitStart c h =
      (s.setCh c (outBit (s.psqDiv c) s.psq.ch[c] h)).emit out := by
  have loaded : ¬ s.psq.ch[c].osrBits = 0 := by omega
  refine ⟨.shiftBit c (if h.op.cpha then h.next + s.psqDiv c else h.next) (shiftOut h.op.msb s.psq.ch[c].osr).1, ?_⟩
  simp only [State.bitStart, hout, hinp, hclk, loaded, decide_false, Bool.false_and, Bool.true_and, Bool.false_eq_true,
    if_false, if_true, outBit]

/-- The level of DOUT once the n bits left of a shift out have left: that of the last of them, with none that of the bit
before them (R284). -/
def lastOut (x : Chan) (h : Shift) : Nat → Bool
  | 0 => h.dbit.getD (x.lv.getLsbD h.op.dout.val)
  | n + 1 => if h.op.msb then x.osr.getLsbD (31 - n) else x.osr.getLsbD n

/-- The channel at the end of a shift of n bits out. -/
structure ShiftedOut (n : Nat) (h : Shift) (x y : Chan) : Prop where
  chan : y = { x with
    st := .running
    shift := none
    osr := if h.op.msb then x.osr <<< n else x.osr >>> n
    osrBits := x.osrBits - n
    lv := y.lv }
  clk : y.lv.getLsbD h.op.clk.val = h.op.cpol
  dout : n ≤ 32 → y.lv.getLsbD h.op.dout.val = lastOut x h n
  others : ∀ p < 8, p ≠ h.op.clk.val → p ≠ h.op.dout.val → y.lv.getLsbD p = x.lv.getLsbD p

section
variable {x : Chan} {h : Shift} (hsh : x.shift = some h) (hclk : h.op.noclk = false)
include hsh hclk

theorem restLevels_out (hout : h.op.out = true) (hne : h.op.clk ≠ h.op.dout) :
    (restLevels x).getLsbD h.op.clk.val = h.op.cpol ∧
    (restLevels x).getLsbD h.op.dout.val = h.dbit.getD (x.lv.getLsbD h.op.dout.val) ∧
    ∀ p < 8, p ≠ h.op.clk.val → p ≠ h.op.dout.val → (restLevels x).getLsbD p = x.lv.getLsbD p := by
  have hne' : h.op.clk.val ≠ h.op.dout.val := fun h => hne (Fin.ext h)
  rw [restLevels, hsh]
  simp only [hclk, hout, Bool.false_eq_true, if_false, if_true]
  cases h.dbit with
  | none =>
    refine ⟨(getLsbD_setBit _ h.op.clk.isLt _ _).trans (if_pos rfl),
      (getLsbD_setBit _ h.op.clk.isLt _ _).trans (if_neg hne'.symm), fun p _ hp _ =>
      (getLsbD_setBit _ h.op.clk.isLt _ _).trans (if_neg hp)⟩
  | some v =>
    refine ⟨(getLsbD_setBit _ h.op.dout.isLt _ _).trans ((if_neg hne').trans ((getLsbD_setBit _ h.op.clk.isLt _ _).trans
      (if_pos rfl))), (getLsbD_setBit _ h.op.dout.isLt _ _).trans (if_pos rfl), fun p _ hp hd =>
      (getLsbD_setBit _ h.op.dout.isLt _ _).trans ((if_neg hd).trans ((getLsbD_setBit _ h.op.clk.isLt _ _).trans
        (if_neg hp)))⟩

/-- A shift with no bit left ends: CLK at CPOL, DOUT at its last bit (R284). -/
theorem shiftedOut_zero (hout : h.op.out = true) (hne : h.op.clk ≠ h.op.dout) :
    ShiftedOut 0 h x { x with st := .running, lv := restLevels x, shift := none } := by
  obtain ⟨clk, dout, others⟩ := restLevels_out hsh hclk hout hne
  refine ⟨?_, clk, fun _ => dout, others⟩
  cases h.op.msb <;> simp

/-- The levels that a bit leaving sets: with CPHA = 0 DOUT takes it at once (R284). -/
theorem outBit_lv (div : Nat) (hout : h.op.out = true) (hne : h.op.clk ≠ h.op.dout) :
    (h.op.cpha = false → (outBit div x h).lv.getLsbD h.op.dout.val = (shiftOut h.op.msb x.osr).1) ∧
    ∀ p < 8, p ≠ h.op.clk.val → p ≠ h.op.dout.val → (outBit div x h).lv.getLsbD p = x.lv.getLsbD p := by
  obtain ⟨-, -, others⟩ := restLevels_out hsh hclk hout hne
  rw [outBit]
  refine ⟨fun hcpha => ?_, fun p h8 hp hd => ?_⟩
  · rw [hcpha]
    exact (getLsbD_setBit _ h.op.dout.isLt _ _).trans (if_pos rfl)
  · have kept := (getLsbD_setBit (restLevels x) h.op.clk.isLt (!h.op.cpol) p).trans ((if_neg hp).trans (others p h8 hp hd))
    split
    · exact kept
    · exact (getLsbD_setBit _ h.op.dout.isLt _ _).trans ((if_neg hd).trans kept)

omit hsh hclk in
/-- The last of n + 1 bits is the last of the n that follow the first. -/
theorem lastOut_succ {n div : Nat} {h' : Shift} (hn : n + 1 ≤ 32) (hh : (outBit div x h).shift = some h')
    (hlv : h.op.cpha = false → (outBit div x h).lv.getLsbD h.op.dout.val = (shiftOut h.op.msb x.osr).1) :
    lastOut (outBit div x h) h' n = lastOut x h (n + 1) := by
  cases hh
  cases n with
  | zero =>
    have first : (shiftOut h.op.msb x.osr).1 = lastOut x h 1 := by
      rw [shiftOut, lastOut]
      split <;> rfl
    rw [← first, lastOut]
    cases hcpha : h.op.cpha with
    | false => exact hlv hcpha
    | true => rfl
  | succ n =>
    simp only [lastOut, outBit, shiftOut]
    cases h.op.msb with
    | false =>
      rw [if_neg Bool.false_ne_true, if_neg Bool.false_ne_true, if_neg Bool.false_ne_true, BitVec.getLsbD_ushiftRight,
        Nat.add_comm]
    | true =>
      rw [if_pos rfl, if_pos rfl, if_pos rfl, BitVec.getLsbD_shiftLeft]
      have lt : 31 - n < 32 := by omega
      have ge : ¬ 31 - n < 1 := by omega
      rw [decide_eq_true lt, decide_eq_false ge, Bool.not_false, Bool.true_and, Bool.true_and,
        show 31 - n - 1 = 31 - (n + 1) by omega]

/-- One bit more before a shift of n bits. -/
theorem ShiftedOut.succ {n div : Nat} {h' : Shift} {y : Chan} (hout : h.op.out = true) (hne : h.op.clk ≠ h.op.dout)
    (hh : (outBit div x h).shift = some h') (hd : ShiftedOut n h' (outBit div x h) y) : ShiftedOut (n + 1) h x y := by
  obtain ⟨first, kept⟩ := outBit_lv hsh hclk div hout hne
  have op : h'.op = h.op := by cases hh; rfl
  obtain ⟨chan, clk, dout, others⟩ := hd
  rw [op] at chan clk dout others
  refine ⟨chan.trans ?_, clk, fun hn => (dout (by omega)).trans (lastOut_succ hn hh first), fun p h8 hp hd =>
    (others p h8 hp hd).trans (kept p h8 hp hd)⟩
  have osr : (if h.op.msb then (outBit div x h).osr <<< n else (outBit div x h).osr >>> n) =
      if h.op.msb then x.osr <<< (n + 1) else x.osr >>> (n + 1) := by
    rw [outBit, shiftOut]
    cases h.op.msb with
    | false => exact (BitVec.shiftRight_add _ _ _).symm.trans (by rw [Nat.add_comm]; rfl)
    | true => exact (BitVec.shiftLeft_add _ _ _).symm.trans (by rw [Nat.add_comm]; rfl)
  have bits : (outBit div x h).osrBits - n = x.osrBits - (n + 1) := by
    change x.osrBits - 1 - n = _
    omega
  rw [osr, bits]
  rfl

end

/-- A shift that ends outside of hold lets its channel run (R284). -/
theorem State.chShiftDone_of_unheld (h : s.inHold .psq = false) : s.chShiftDone c =
    s.setCh c { s.psq.ch[c] with st := .running, lv := restLevels s.psq.ch[c], shift := none } :=
  if_neg (Bool.eq_false_iff.1 h)

/-- A shift out without reload goes to its end (R284). -/
theorem State.shiftRun_out (n fuel : Nat) (smp : List Bool) {s : State} {h : Shift} (hfuel : n < fuel)
    (hst : s.psq.ch[c].st = .shifting) (hsh : s.psq.ch[c].shift = some h) (hleft : h.left = n) (hdue : h.due = [])
    (hhold : s.inHold .psq = false) (hclk : h.op.noclk = false) (hne : h.op.clk ≠ h.op.dout) (hout : h.op.out = true)
    (hinp : h.op.inp = false) (hbits : n ≤ s.psq.ch[c].osrBits) : ∃ y, ShiftedOut n h s.psq.ch[c] y ∧
      (s.shiftRun fuel c none smp).psq = { s.psq with ch := vset s.psq.ch c y } ∧
      Framed [.psq] [] [] s (s.shiftRun fuel c none smp) := by
  induction n generalizing s h fuel with
  | zero =>
    obtain ⟨fuel, rfl⟩ := Nat.exists_eq_succ_of_ne_zero (by omega : fuel ≠ 0)
    have done : s.shiftRun (fuel + 1) c none smp = s.chShiftDone c := by
      rw [State.shiftRun, hst, hsh]
      simp only [hdue, hleft, Bool.false_eq_true, if_false, if_true]
    rw [done, State.chShiftDone_of_unheld hhold]
    exact ⟨_, shiftedOut_zero hsh hclk hout hne, rfl, (Framed.refl _ _ _ s).setCh (by simp) _⟩
  | succ n ih =>
    obtain ⟨fuel, rfl⟩ := Nat.exists_eq_succ_of_ne_zero (by omega : fuel ≠ 0)
    obtain ⟨out, started⟩ := State.bitStart_out (s := s) (c := c) hout hinp hclk (by omega)
    have step : s.shiftRun (fuel + 1) c none smp =
        ((s.setCh c (outBit (s.psqDiv c) s.psq.ch[c] h)).emit out).shiftRun fuel c none smp := by
      rw [← started, State.shiftRun, hst, hsh]
      simp only [hdue, hleft, Nat.succ_ne_zero, Bool.false_eq_true, if_false, if_true]
    have chan : ((s.setCh c (outBit (s.psqDiv c) s.psq.ch[c] h)).emit out).psq.ch[c] =
        outBit (s.psqDiv c) s.psq.ch[c] h := s.setCh_same c _
    obtain ⟨y, shifted, psq, framed⟩ := ih fuel (by omega) (s := (s.setCh c (outBit (s.psqDiv c) s.psq.ch[c] h)).emit out)
      (h := { h with
        left := h.left - 1
        next := h.next + 2 * s.psqDiv c
        ends := h.next + 2 * s.psqDiv c
        dbit := if h.op.cpha then some (shiftOut h.op.msb s.psq.ch[c].osr).1 else none })
      (by rw [chan]; exact hst) (by rw [chan]; rfl) (by simp [hleft]) hdue hhold hclk hne hout hinp
      (by rw [chan]; exact Nat.le_sub_of_add_le hbits)
    rw [step]
    rw [chan] at shifted
    refine ⟨y, shifted.succ hsh hclk hout hne rfl, psq.trans ?_, (((Framed.refl _ _ _ s).setCh (by simp) _).emit _).trans
      framed⟩
    rw [State.emit_psq, State.setCh_psq, vset_vset]

/-! The bits of a shift in. -/

/-- The channel once the next bit of a shift in has begun, its sample due at an instant (R284). -/
def inBit (div due : Nat) (x : Chan) (h : Shift) : Chan :=
  { x with
    shift := some { h with
      left := h.left - 1
      next := h.next + 2 * div
      due := h.due ++ [due]
      ends := h.next + 2 * div
      dbit := none }
    lv := setBit (restLevels x) h.op.clk.val (!h.op.cpol) }

/-- The channel once a bit has been sampled, ISR not full (R284). -/
def sampledBit (x : Chan) (h : Shift) (v : Bool) : Chan :=
  { x with
    isr := shiftIn h.op.msb x.isr v
    isrBits := x.isrBits + 1
    shift := some { h with due := h.due.drop 1 } }

/-- Whether the next instant of a shift is a sample (R284). -/
def samplesNext (h : Shift) : Bool :=
  match h.due with
  | d :: _ => decide (h.left = 0) || decide (d ≤ h.next)
  | [] => false

section
variable {h : Shift}

theorem State.bitStart_in (hout : h.op.out = false) (hinp : h.op.inp = true) (hclk : h.op.noclk = false)
    (hbits : s.psq.ch[c].isrBits < 32) :
    ∃ due, s.bitStart c h = s.setCh c (inBit (s.psqDiv c) due s.psq.ch[c] h) := by
  have room : ¬ 32 ≤ s.psq.ch[c].isrBits := by omega
  refine ⟨h.next + (if h.op.cpha then 2 * s.psqDiv c else s.psqDiv c) + s.psqDly c, ?_⟩
  simp only [State.bitStart, hout, hinp, hclk, room, decide_false, Bool.and_false, Bool.false_and, Bool.false_eq_true,
    if_false, if_true, inBit]

theorem State.bitSample_in (hbits : s.psq.ch[c].isrBits + 1 < 32) (v : Bool) :
    s.bitSample c h v = s.setCh c (sampledBit s.psq.ch[c] h v) := by
  have room : ¬ 32 ≤ s.psq.ch[c].isrBits := by omega
  simp only [State.bitSample, room, false_and, if_false, hbits, if_true, sampledBit]

/-- The channel at the end of a shift in of the bits sampled. -/
structure ShiftedIn (smp : List Bool) (h : Shift) (x y : Chan) : Prop where
  chan : y = { x with
    st := .running
    shift := none
    isr := smp.foldl (shiftIn h.op.msb) x.isr
    isrBits := x.isrBits + smp.length
    lv := y.lv }
  clk : y.lv.getLsbD h.op.clk.val = h.op.cpol
  others : ∀ p < 8, p ≠ h.op.clk.val → y.lv.getLsbD p = x.lv.getLsbD p

theorem restLevels_in {x : Chan} (hsh : x.shift = some h) (hclk : h.op.noclk = false) (hout : h.op.out = false) :
    restLevels x = setBit x.lv h.op.clk.val h.op.cpol := by
  rw [restLevels, hsh]
  simp only [hclk, hout, Bool.false_eq_true, if_false]
  cases h.dbit <;> rfl

theorem shiftedIn_nil {x : Chan} (hsh : x.shift = some h) (hclk : h.op.noclk = false) (hout : h.op.out = false) :
    ShiftedIn [] h x { x with st := .running, lv := restLevels x, shift := none } := by
  rw [restLevels_in hsh hclk hout]
  exact ⟨rfl, (getLsbD_setBit _ h.op.clk.isLt _ _).trans (if_pos rfl), fun p _ hp =>
    (getLsbD_setBit _ h.op.clk.isLt _ _).trans (if_neg hp)⟩

theorem ShiftedIn.sampled {x y : Chan} {v : Bool} {smp : List Bool}
    (hd : ShiftedIn smp { h with due := h.due.drop 1 } (sampledBit x h v) y) : ShiftedIn (v :: smp) h x y := by
  obtain ⟨chan, clk, others⟩ := hd
  refine ⟨chan.trans ?_, clk, others⟩
  have bits : (sampledBit x h v).isrBits + smp.length = x.isrBits + (v :: smp).length := by
    change x.isrBits + 1 + smp.length = _
    rw [List.length_cons]
    omega
  rw [bits]
  rfl

theorem ShiftedIn.started {x y : Chan} {div due : Nat} {smp : List Bool} {h' : Shift} (hsh : x.shift = some h)
    (hclk : h.op.noclk = false) (hout : h.op.out = false) (hh : (inBit div due x h).shift = some h')
    (hd : ShiftedIn smp h' (inBit div due x h) y) : ShiftedIn smp h x y := by
  have op : h'.op = h.op := by cases hh; rfl
  obtain ⟨chan, clk, others⟩ := hd
  rw [op] at chan clk others
  refine ⟨chan, clk, fun p h8 hp => (others p h8 hp).trans ?_⟩
  rw [inBit, restLevels_in hsh hclk hout]
  exact (getLsbD_setBit _ h.op.clk.isLt _ _).trans ((if_neg hp).trans
    ((getLsbD_setBit _ h.op.clk.isLt _ _).trans (if_neg hp)))

end

/-- A shift in takes a bit per sample and goes to its end, ISR never full (R284). -/
theorem State.shiftRun_in (fuel : Nat) (smp : List Bool) {s : State} {h : Shift}
    (hfuel : 2 * h.left + h.due.length < fuel) (hst : s.psq.ch[c].st = .shifting) (hsh : s.psq.ch[c].shift = some h)
    (hsmp : smp.length = h.left + h.due.length) (hhold : s.inHold .psq = false) (hclk : h.op.noclk = false)
    (hout : h.op.out = false) (hinp : h.op.inp = true) (hbits : s.psq.ch[c].isrBits + smp.length < 32) :
    ∃ y, ShiftedIn smp h s.psq.ch[c] y ∧
      (s.shiftRun fuel c none smp).psq = { s.psq with ch := vset s.psq.ch c y } ∧
      Framed [.psq] [] [] s (s.shiftRun fuel c none smp) := by
  induction fuel generalizing s h smp with
  | zero => omega
  | succ fuel ih =>
    have psqs {u : State} {x y : Chan} (hu : u.psq = { (s.setCh c x).psq with ch := vset (s.setCh c x).psq.ch c y }) :
        u.psq = { s.psq with ch := vset s.psq.ch c y } := by
      rw [hu, State.setCh_psq, vset_vset]
    have begins (hleft : h.left ≠ 0) (step : s.shiftRun (fuel + 1) c none smp = (s.bitStart c h).shiftRun fuel c none smp) :
        ∃ y, ShiftedIn smp h s.psq.ch[c] y ∧
          (s.shiftRun (fuel + 1) c none smp).psq = { s.psq with ch := vset s.psq.ch c y } ∧
          Framed [.psq] [] [] s (s.shiftRun (fuel + 1) c none smp) := by
      obtain ⟨due, start⟩ := State.bitStart_in (s := s) (c := c) hout hinp hclk (by omega)
      rw [step, start]
      have chan := s.setCh_same c (inBit (s.psqDiv c) due s.psq.ch[c] h)
      obtain ⟨y, shifted, psq, framed⟩ := ih smp (s := s.setCh c (inBit (s.psqDiv c) due s.psq.ch[c] h))
        (h := { h with
          left := h.left - 1
          next := h.next + 2 * s.psqDiv c
          due := h.due ++ [due]
          ends := h.next + 2 * s.psqDiv c
          dbit := none })
        (by simp only [List.length_append, List.length_singleton]; omega) (by rw [chan]; exact hst) (by rw [chan]; rfl)
        (by simp only [List.length_append, List.length_singleton]; omega) hhold hclk hout hinp (by rw [chan]; exact hbits)
      rw [chan] at shifted
      exact ⟨y, shifted.started hsh hclk hout rfl, psqs psq, ((Framed.refl _ _ _ s).setCh (by simp) _).trans framed⟩
    have first : s.shiftRun (fuel + 1) c none smp =
        if samplesNext h then
          (s.bitSample c h (smp.headD (s.pinLevel c h.op.din.val))).shiftRun fuel c none (smp.drop 1)
        else if h.left = 0 then s.chShiftDone c
        else (s.bitStart c h).shiftRun fuel c none smp := by
      rw [State.shiftRun, hst, hsh]
      simp only [if_true]
      cases smp <;> rfl
    cases hdue : h.due with
    | nil =>
      have starts : ¬ samplesNext h = true := by
        rw [samplesNext, hdue]
        exact Bool.false_ne_true
      by_cases hleft : h.left = 0
      · have nil : smp = [] := List.eq_nil_of_length_eq_zero (by rw [hsmp, hleft, hdue]; rfl)
        have done := first.trans ((if_neg starts).trans (if_pos hleft))
        rw [done, State.chShiftDone_of_unheld hhold, nil]
        exact ⟨_, shiftedIn_nil hsh hclk hout, rfl, (Framed.refl _ _ _ s).setCh (by simp) _⟩
      · exact begins hleft (first.trans ((if_neg starts).trans (if_neg hleft)))
    | cons d ds =>
      have samples : samplesNext h = true ↔ h.left = 0 ∨ d ≤ h.next := by
        rw [samplesNext, hdue]
        simp
      by_cases hfirst : h.left = 0 ∨ d ≤ h.next
      · obtain ⟨v, vs, rfl⟩ : ∃ v vs, smp = v :: vs :=
          List.exists_cons_of_length_pos (by rw [hsmp, hdue, List.length_cons]; omega)
        rw [List.length_cons] at hbits hsmp
        have step := first.trans (if_pos (samples.2 hfirst))
        rw [step, List.headD_cons, State.bitSample_in (by omega), List.drop_one, List.tail_cons]
        have chan := s.setCh_same c (sampledBit s.psq.ch[c] h v)
        have rest : (h.due.drop 1).length + 1 = h.due.length := by rw [hdue]; rfl
        obtain ⟨y, shifted, psq, framed⟩ := ih vs (s := s.setCh c (sampledBit s.psq.ch[c] h v))
          (h := { h with due := h.due.drop 1 }) (by dsimp only; omega) (by rw [chan]; exact hst) (by rw [chan]; rfl)
          (by dsimp only; omega) hhold hclk hout hinp
          (by
            rw [chan]
            change s.psq.ch[c].isrBits + 1 + vs.length < 32
            omega)
        rw [chan] at shifted
        exact ⟨y, shifted.sampled, psqs psq, ((Framed.refl _ _ _ s).setCh (by simp) _).trans framed⟩
      · have hleft : h.left ≠ 0 := fun h0 => hfirst (.inl h0)
        exact begins hleft (first.trans ((if_neg (mt samples.1 hfirst)).trans (if_neg hleft)))

/-! SHIFT_DONE. -/

section
variable {samples : List Bool}

theorem shiftDone_idle (h : s.psq.ch[c].st ≠ .shifting ∨ s.fenced (27 + c.val / 32) = true) :
    Idle (.shiftDone c samples) s := by
  refine idle_of_commit (u := doShiftDone c samples s) rfl ?_
  rw [doShiftDone]
  refine if_neg ?_
  rw [Bool.and_eq_true, decide_eq_true_eq]
  rintro ⟨hst, hf⟩
  rcases h with h | h
  · exact h hst
  · rw [chEng, h] at hf
    exact Bool.false_ne_true hf

section
variable {h : Shift} (hst : s.psq.ch[c].st = .shifting) (hf : s.fenced (27 + c.val / 32) = false)
  (hsh : s.psq.ch[c].shift = some h) (hdue : h.due = [])
include hst hf hsh hdue

theorem exec_shiftDone :
    exec (.shiftDone c samples) s = commit s (s.shiftRun (2 * h.left + 2) c none samples) := by
  have fuel : shiftFuel s.psq.ch[c] = 2 * h.left + 2 := by
    rw [shiftFuel, hsh]
    change 2 * h.left + h.due.length + 2 = _
    rw [hdue]
    rfl
  change commit s (doShiftDone c samples s) = _
  rw [doShiftDone, chEng, hf, hst, fuel]
  rfl

section
variable (hhold : s.inHold .psq = false) (hclk : h.op.noclk = false)
include hhold hclk

theorem shiftDone_out (hne : h.op.clk ≠ h.op.dout) (hout : h.op.out = true) (hinp : h.op.inp = false)
    (hbits : h.left ≤ s.psq.ch[c].osrBits) : Ends (.shiftDone c samples) s fun t =>
      Framed [.psq] [] [] s t ∧ t.psq = { s.psq with ch := vset s.psq.ch c t.psq.ch[c] } ∧
      ShiftedOut h.left h s.psq.ch[c] t.psq.ch[c] := by
  obtain ⟨y, shifted, psq, framed⟩ := State.shiftRun_out h.left (2 * h.left + 2) samples (by omega) hst hsh rfl hdue
    hhold hclk hne hout hinp hbits
  refine ends_of_commit (exec_shiftDone hst hf hsh hdue) ?_
  rw [settle_psq, psq, getElem_vset_same]
  exact ⟨framed_settle framed, rfl, shifted⟩

theorem shiftDone_in (hout : h.op.out = false) (hinp : h.op.inp = true) (hsmp : samples.length = h.left)
    (hbits : s.psq.ch[c].isrBits + h.left < 32) : Ends (.shiftDone c samples) s fun t =>
      Framed [.psq] [] [] s t ∧ t.psq = { s.psq with ch := vset s.psq.ch c t.psq.ch[c] } ∧
      ShiftedIn samples h s.psq.ch[c] t.psq.ch[c] := by
  obtain ⟨y, shifted, psq, framed⟩ := State.shiftRun_in (c := c) (2 * h.left + 2) samples (by rw [hdue]; simp) hst hsh
    (by rw [hsmp, hdue]; rfl) hhold hclk hout hinp (by rw [hsmp]; exact hbits)
  refine ends_of_commit (exec_shiftDone hst hf hsh hdue) ?_
  rw [settle_psq, psq, getElem_vset_same]
  exact ⟨framed_settle framed, rfl, shifted⟩

end

/-- The channel stalled with no word for OSR (R285). -/
def State.stalledChan (s : State) (c : Fin 64) (h : Shift) : Chan :=
  let x := s.psq.ch[c]
  let lv := setBit x.lv h.op.clk.val h.op.cpol
  { x with
    st := .shiftStalled
    push := false
    lv := (match h.dbit with
      | some v => if h.ends ≤ h.next + s.psqDiv c then setBit lv h.op.dout.val v else lv
      | none => lv)
    shift := some { h with dbit := none } }

/-- A shift out that finds no word for OSR stalls at once, counted (R285). -/
theorem shiftDone_stalls (hw : s.storesWf) (hclk : h.op.noclk = false) (hout : h.op.out = true)
    (hin : h.op.inp = false ∨ s.psq.ch[c].isrBits < 32) (hleft : 0 < h.left) (hosr : s.psq.ch[c].osrBits = 0)
    (htxq : s.psq.ch[c].txq = []) : Ends (.shiftDone c samples) s fun t =>
      t.psq = { s.psq with ch := vset s.psq.ch c (s.stalledChan c h) } ∧
      t.reg (psqChStallCnt c.val) = s.reg (psqChStallCnt c.val) + 1 ∧ Framed [.psq] [psqChStallCnt c.val] [] s t := by
  have unfull : (h.op.inp && decide (32 ≤ s.psq.ch[c].isrBits)) = false := by
    rw [Bool.and_eq_false_iff, decide_eq_false_iff_not]
    exact hin.imp id fun h => by omega
  have levels : s.stallLevels c h.next = (s.stalledChan c h).lv := by
    simp only [State.stallLevels, State.stalledChan, restLevels, hsh, hclk, hout, Bool.false_eq_true, if_false, if_true]
    cases h.dbit with
    | none => exact ite_self _
    | some v => rfl
  have stall : s.chStall c false h.next = (s.setCh c (s.stalledChan c h)).count (psqChStallCnt c.val) := by
    rw [State.chStall, levels, hsh]
    rfl
  have start : s.bitStart c h = (s.setCh c (s.stalledChan c h)).count (psqChStallCnt c.val) := by
    simp only [State.bitStart, unfull, hout, hosr, htxq, Bool.false_and, Bool.false_eq_true, if_false, decide_true,
      Bool.and_self, if_true, State.setCh_self]
    exact stall
  have run : s.shiftRun (2 * h.left + 2) c none samples = (s.setCh c (s.stalledChan c h)).count (psqChStallCnt c.val) := by
    have step : s.shiftRun (2 * h.left + 2) c none samples =
        (s.bitStart c h).shiftRun (2 * h.left + 1) c none samples := by
      rw [State.shiftRun, hst, hsh]
      simp only [hdue, Nat.ne_of_gt hleft, Bool.false_eq_true, if_false, if_true]
    have stopped : ((s.setCh c (s.stalledChan c h)).count (psqChStallCnt c.val)).psq.ch[c].st = .shiftStalled := by
      change (s.setCh c (s.stalledChan c h)).psq.ch[c].st = _
      rw [State.setCh_same]
      rfl
    rw [step, start, State.shiftRun]
    simp only [stopped]
  exact ends_of_setCh_count hw psqChCnt_ne_glbIntCnt.2.1 ((exec_shiftDone hst hf hsh hdue).trans (congrArg (commit s) run))

end

end

theorem lastOut_of_pos (x : Chan) (h : Shift) {n : Nat} (hn : 0 < n) (hn32 : n ≤ 32) :
    lastOut x h n = if h.op.msb then x.osr.getLsbD (32 - n) else x.osr.getLsbD (n - 1) := by
  obtain ⟨n, rfl⟩ := Nat.exists_eq_succ_of_ne_zero (by omega : n ≠ 0)
  rw [lastOut, show 32 - n.succ = 31 - n by omega]
  rfl

end

/-- Settles O50, operation by operation: holds, the event latch, queues, START and STOP by what each makes of its one
channel; a shift by induction on the bits left and the samples due; a swap engine by engine. -/
theorem sequencerHoldsShiftsQueuesAndBanks : Obligations.SequencerHoldsShiftsQueuesAndBanks := by
  unfold Obligations.SequencerHoldsShiftsQueuesAndBanks
  intro s m c v st es a b g samples hw
  dsimp only
  have put_chan {x y : Chan} (h : y = x) :
      { s.psq with ch := vset s.psq.ch c y } = { s.psq with ch := vset s.psq.ch c x } := by rw [h]
  refine ⟨psqHoldRelease_idle, fun k may ended left fetch pins => ⟨?_, ?_⟩, psqEventLatch_idle,
    fun f rest he => ⟨?_, ?_, fun hev may hst => ⟨?_, ?_⟩⟩, shiftDone_idle,
    fun h hst hf hsh hdue hhold hclk hne => ⟨fun hout hinp hpos hbits => ?_, fun hout hinp hpos hsmp hbits => ?_,
      fun hout hin hpos hosr htxq => ?_⟩, ⟨fun hq hs => ?_, fun hserved => ?_, fun may hserved hst => ⟨fun hpush => ?_,
        fun w q hpush htxq => ?_⟩, fun h may hserved hst hsh => ?_⟩,
    fun ho => ⟨fun h => ?_, fun h => ?_⟩, fun ho => ⟨fun w q h => ?_, fun h => ?_⟩,
    fun ho => ⟨fun hen => ?_, fun hen => ⟨fun hst => ?_, fun hs hf => ?_⟩, fun hswap => ?_⟩,
    fun ho hne hf => ?_, fun ho hf hswap => ?_, psqChannelBankMove_idle, fun hmoves => ?_⟩
  · exact psqHoldRelease_early may ended left fetch pins
  · exact psqHoldRelease_late may ended left fetch pins hw
  · exact psqEventLatch_counts he hw
  · exact fun hev hhold => psqEventLatch_held he hev hhold
  · exact psqEventLatch_waits he hev hst may
  · exact psqEventLatch_late he hev hst may hw
  · obtain ⟨t, ht, framed, psq, shifted⟩ := shiftDone_out (samples := samples) hst hf hsh hdue hhold hclk hne hout hinp hbits
    refine ⟨t, ht, framed, psq.trans (put_chan shifted.chan), shifted.clk, fun h32 => ?_, shifted.others⟩
    rw [shifted.dout h32, lastOut_of_pos _ _ hpos h32]
  · obtain ⟨t, ht, framed, psq, shifted⟩ := shiftDone_in hst hf hsh hdue hhold hclk hout hinp hsmp hbits
    refine ⟨t, ht, framed, shifted.others, shifted.clk, psq.trans ?_⟩
    rw [← hsmp]
    exact put_chan shifted.chan
  · exact shiftDone_stalls hst hf hsh hdue hw hclk hout hin hpos hosr htxq
  · exact psqQueueResume_idle hq hs
  · exact psqQueueResume_unserved (mt State.served_iff.1 hserved)
  · have done := psqQueueResume_waits (State.served_iff.2 hserved) hst may
    rw [hpush] at done
    exact ends_of_setCh done
  · have done := psqQueueResume_waits (State.served_iff.2 hserved) hst may
    rw [hpush, if_neg Bool.false_ne_true, chPull, htxq] at done
    exact ends_of_setCh done
  · exact ends_of_setCh (psqQueueResume_stalled (State.served_iff.2 hserved) hst may hsh)
  · exact ends_of_setCh (psqTxqWrite_taken ho h)
  · exact ends_of_count hw psqChCnt_ne_glbIntCnt.2.2.2.1 (psqTxqWrite_dropped ho h)
  · exact psqRxqRead_pops ho h
  · exact psqRxqRead_empty hw ho h
  · exact psqStart_rejected hw ho hen
  · exact ends_of_setCh (psqStart_starts ho hen hst)
  · exact psqStart_idle ho hen hs hf
  · exact psqStop_ends hswap ho st
  · exact psqSwap_fenced hw ho hne hf
  · obtain ⟨t, ht, begun⟩ := psqSwap_ends ho hf hswap
    refine ⟨t, ht, begun.framed, begun.events, begun.again, begun.moved, begun.waits, fun k hb =>
      (begun.chans k hb).trans (marked_eq _), begun.unasked, begun.others⟩
  · exact psqChannelBankMove_ends hmoves

end Sys2Proof.Machine
end

section
/-! SUPPORT. PFC frames (R185, R187): their bytes, and what sending one leaves. -/

namespace Sys2Proof.Machine

/-! Bytes of a frame put together of fields. -/

section
variable (a b : List Byte) (i n : Nat)

theorem slice_append_right : slice (a ++ b) (a.length + i) n = slice b i n := by
  refine List.map_congr_left fun k _ => ?_
  rw [byteAt, byteAt, Nat.add_assoc, List.getD_append_right _ _ _ _ (by omega), Nat.add_sub_cancel_left]

theorem slice_append_left : slice (a ++ b) 0 a.length = a := by
  refine List.ext_getElem (by simp [slice]) fun k hk _ => ?_
  have lt : k < a.length := by simpa [slice] using hk
  simp [slice, byteAt, List.getElem?_append_left lt, lt]

/-- The block at a place in a row of blocks of one length. -/
theorem slice_flatten (f : Nat → List Byte) {len m p : Nat} (hf : ∀ i, (f i).length = len) (hp : p < m) (z : List Byte) :
    slice (((List.range m).map f).flatten ++ z) (len * p) len = f p := by
  obtain ⟨r, rfl⟩ : ∃ r, m = p + (1 + r) := ⟨m - p - 1, by omega⟩
  have before : (((List.range p).map f).flatten).length = len * p := by
    simp [List.length_flatten, Function.comp_def, hf, Nat.mul_comm]
  rw [List.range_add, List.map_append, List.flatten_append, List.append_assoc, ← before]
  have at_ := slice_append_right ((List.range p).map f).flatten
    ((((List.range (1 + r)).map (p + ·)).map f).flatten ++ z) 0 len
  rw [Nat.add_zero] at at_
  rw [at_, List.range_add]
  simp only [List.range_one, List.singleton_append, List.map_cons, List.flatten_cons, Nat.add_zero, List.append_assoc]
  have first := slice_append_left (f p) ((((List.map (fun x => 1 + x) (List.range r)).map (p + ·)).map f).flatten ++ z)
  rwa [hf] at first

theorem length_toBe : (toBe n i).length = n := by
  rw [toBe, List.length_reverse]
  induction n generalizing i with
  | zero => rfl
  | succ n ih => rw [toLe, List.length_cons, ih]

theorem beNat_toBe_two {x : Nat} (h : x < 65536) : beNat (toBe 2 x) = x := by
  simp only [beNat, toBe, toLe, List.reverse_cons, List.reverse_nil, List.nil_append, List.singleton_append,
    List.foldl_cons, List.foldl_nil, BitVec.toNat_ofNat]
  omega

end

/-! The PFC frame. -/

/-- The bytes of a PFC frame (R185): the priorities named pause for TIME where they are in XOFF. -/
def pfcBytes (addr : List Byte) (time : Nat) (ps xoff : BitVec 8) : List Byte :=
  [0x01#8, 0x80, 0xC2, 0x00, 0x00, 0x01] ++ (addr ++ ([0x88#8, 0x08, 0x01, 0x01] ++ (toBe 2 ps.toNat ++
    (((List.range 8).map fun p => toBe 2 (if ps.getLsbD p && xoff.getLsbD p then time else 0)).flatten ++
      List.replicate 26 0))))

theorem State.length_portAddr (s : State) (n : Fin 8) : (s.portAddr n).length = 6 := by
  rw [State.portAddr, List.length_append, length_toBe, length_toBe]

theorem length_pauseBlocks (f : Nat → Nat) : (((List.range 8).map fun p => toBe 2 (f p)).flatten).length = 16 := by
  simp [List.length_flatten, Function.comp_def, length_toBe]

theorem State.pfcFrame_eq (s : State) (n : Fin 8) (ps : BitVec 8) :
    s.pfcFrame n ps = pfcBytes (s.portAddr n) (fieldOf (s.reg (ethPfcTime n.val)) 0 16) ps s.eth[n].xoff := by
  simp only [State.pfcFrame, pfcBytes, List.length_append, s.length_portAddr n, length_toBe, length_pauseBlocks,
    List.append_assoc]
  rfl

section
variable {addr z : List Byte} {time : Nat} {ps xoff : BitVec 8} (haddr : addr.length = 6)
include haddr

theorem length_pfcBytes : (pfcBytes addr time ps xoff).length = 60 := by
  simp only [pfcBytes, List.length_append, haddr, length_toBe, length_pauseBlocks, List.length_replicate]
  rfl

/-- The fields of a PFC frame (R185). -/
theorem pfcBytes_fields (htime : time < 65536) : let bs := pfcBytes addr time ps xoff ++ z
    slice bs 0 6 = [0x01, 0x80, 0xC2, 0x00, 0x00, 0x01] ∧ slice bs 6 6 = addr ∧ be16At bs 12 = 0x8808 ∧
      be16At bs 14 = 0x0101 ∧ be16At bs 16 = ps.toNat ∧
      ∀ p < 8, be16At bs (18 + 2 * p) = if ps.getLsbD p && xoff.getLsbD p then time else 0 := by
  have past {a b : List Byte} {m : Nat} (ha : a.length = m) (i n : Nat) : slice (a ++ b) (m + i) n = slice b i n := by
    rw [← ha, slice_append_right]
  have head {a b : List Byte} {m : Nat} (ha : a.length = m) : slice (a ++ b) 0 m = a := by
    rw [← ha, slice_append_left]
  simp only [pfcBytes, List.append_assoc, be16At]
  refine ⟨head rfl, ?_, ?_, ?_, ?_, fun p hp => ?_⟩
  · exact (past (m := 6) rfl 0 6).trans (head haddr)
  · refine (congrArg beNat ((past (m := 6) rfl 6 2).trans (past haddr 0 2))).trans ?_
    rfl
  · refine (congrArg beNat ((past (m := 6) rfl 8 2).trans (past haddr 2 2))).trans ?_
    rfl
  · refine (congrArg beNat ((past (m := 6) rfl 10 2).trans ((past haddr 4 2).trans ((past (m := 4) rfl 0 2).trans
      (head (length_toBe _ _)))))).trans (beNat_toBe_two ?_)
    have := ps.isLt
    omega
  · have at_ := slice_flatten (fun p => toBe 2 (if ps.getLsbD p && xoff.getLsbD p then time else 0)) (len := 2)
      (fun _ => length_toBe _ _) hp (List.replicate 26 0 ++ z)
    rw [show 18 + 2 * p = 6 + (6 + (4 + (2 + 2 * p))) by omega]
    refine (congrArg beNat ((past (m := 6) rfl _ 2).trans ((past haddr _ 2).trans ((past (m := 4) rfl _ 2).trans
      ((past (length_toBe _ _) _ 2).trans at_))))).trans (beNat_toBe_two ?_)
    split
    · exact htime
    · decide

end

/-! What sending a PFC frame leaves. -/

section
variable {s u : State} {n : Fin 8}

/-- A PFC frame of the priorities named has been sent, its times by the registers of the state before. -/
def PauseSent (s : State) (n : Fin 8) (ps xoff : BitVec 8) (t : State) : Prop :=
  ∃ bs, Sends [.frame n bs] s t ∧ bs.length = 64 ∧
    slice bs 0 6 = [0x01, 0x80, 0xC2, 0x00, 0x00, 0x01] ∧ slice bs 6 6 = s.portAddr n ∧ be16At bs 12 = 0x8808 ∧
    be16At bs 14 = 0x0101 ∧ be16At bs 16 = ps.toNat ∧
    ∀ p < 8, be16At bs (18 + 2 * p) =
      if ps.getLsbD p && xoff.getLsbD p then fieldOf (s.reg (ethPfcTime n.val)) 0 16 else 0

/-- The counters of a port's PFC frames and of what it sends. -/
abbrev pauseCounts (n : Fin 8) : List Nat :=
  [ethTxPfcCnt n.val, ethTxFramesLo n.val, ethTxFramesLo n.val + 4, ethTxBytesLo n.val, ethTxBytesLo n.val + 4]

/-- A flush with nothing that waits, a frame in transmission or no link does nothing. -/
theorem State.pfcFlush_idle (h : u.eth[n].pfcPend = 0 ∨ u.eth[n].tx.isSome = true) : u.pfcFlush n = u := by
  refine if_pos ?_
  rw [Bool.or_eq_true, Bool.or_eq_true, decide_eq_true_eq]
  exact .inl h

/-- The state after the flush of what waits. -/
def State.pauseSent (u : State) (n : Fin 8) : State :=
  ((u.sendFrame n (u.pfcFrame n u.eth[n].pfcPend)).count (ethTxPfcCnt n.val)).setEth n { u.eth[n] with pfcPend := 0 }

theorem State.pfcFlush_sends (hpend : u.eth[n].pfcPend ≠ 0) (htx : u.eth[n].tx = none) (hup : u.eth[n].up = true) :
    u.pfcFlush n = u.pauseSent n := by
  refine if_neg ?_
  rw [htx, hup]
  simpa using hpend

theorem State.pauseSent_framed {ps : List Part} {rs ts : List Nat} (h : Framed ps rs ts s u) (hp : .eth ∈ ps)
    (hr : ∀ a ∈ pauseCounts n, a ∈ rs) : Framed ps rs ts s (u.pauseSent n) :=
  ((((h.emit _).count64 _ (hr _ (by simp)) (hr _ (by simp))).count64 _ (hr _ (by simp)) (hr _ (by simp))).count
    (hr _ (by simp))).setEth hp n _

theorem State.pauseSent_counts (hw : amWf regReset u.regs) :
    (u.pauseSent n).reg (ethTxPfcCnt n.val) = u.reg (ethTxPfcCnt n.val) + 1 := by
  obtain ⟨v, hv⟩ : ∃ v, v = u.sendFrame n (u.pfcFrame n u.eth[n].pfcPend) := ⟨_, rfl⟩
  have wf : amWf regReset v.regs := by
    rw [hv]
    exact State.regsWf_setReg (State.regsWf_setReg (State.regsWf_setReg (State.regsWf_setReg hw _) _) _) _
  have kept : v.reg (ethTxPfcCnt n.val) = u.reg (ethTxPfcCnt n.val) := by
    rw [hv, State.sendFrame, State.count64, State.count64]
    refine (State.reg_setReg_other _ _ _ _ ?_).trans ((State.reg_setReg_other _ _ _ _ ?_).trans
      ((State.reg_setReg_other _ _ _ _ ?_).trans (State.reg_setReg_other _ _ _ _ ?_)))
    all_goals simp only [ethTxPfcCnt, ethTxFramesLo, ethTxBytesLo]; omega
  rw [← kept, State.pauseSent, ← hv]
  exact State.reg_setReg_same v _ _ wf

/-- The frame of a flush is the one of the state it comes from, where the registers it reads stand. -/
theorem State.pauseSent_sends {xoff : BitVec 8} (hout : u.out = s.out) (haddr : u.portAddr n = s.portAddr n)
    (htime : u.reg (ethPfcTime n.val) = s.reg (ethPfcTime n.val)) (hxoff : u.eth[n].xoff = xoff) :
    PauseSent s n u.eth[n].pfcPend xoff (settle s (u.pauseSent n)) := by
  have lt : fieldOf (s.reg (ethPfcTime n.val)) 0 16 < 65536 := Nat.mod_lt _ (by decide)
  have bytes := u.pfcFrame_eq n u.eth[n].pfcPend
  rw [haddr, htime, hxoff] at bytes
  refine ⟨u.pfcFrame n u.eth[n].pfcPend ++ fcsBytes (u.pfcFrame n u.eth[n].pfcPend), settle_sends ?_, ?_, ?_⟩
  · rw [Sends, ← hout]
    exact List.prefix_refl _
  · rw [List.length_append, bytes, length_pfcBytes (s.length_portAddr n)]
    rfl
  · rw [bytes]
    exact pfcBytes_fields (s.length_portAddr n) lt

end

end Sys2Proof.Machine
end

section
/-! SUPPORT. Ports (R66, R168-R173, R185-R187): the refresh of a pause, negotiation, pause timers, MDIO, and the link
coming up and going down. -/

namespace Sys2Proof.Machine

section
variable {s : State} {n : Fin 8}

theorem State.setEth_same (x : EthState) : (s.setEth n x).eth[n] = x := getElem_vset_same _ _ _

theorem State.setEth_setEth (x y : EthState) : (s.setEth n x).setEth n y = s.setEth n y := by
  rw [State.setEth, State.setEth_eth, vset_vset]
  rfl

theorem State.setEth_self : s.setEth n s.eth[n] = s := by
  rw [State.setEth, vset_getElem_self]

/-- A command that replaces the port ends so. -/
theorem ends_of_setEth {i : Instr} {x : EthState} (hc : exec i s = commit s (s.setEth n x)) :
    Ends i s fun t => t.eth = vset s.eth n x ∧ Framed [.eth] [] [] s t :=
  ends_of_commit hc ⟨settle_eth _ _, framed_settle ((Framed.refl _ _ _ s).setEth (by simp) n x)⟩

/-! PFC_REFRESH. -/

/-- The priorities whose pause is sent again (R185). -/
def State.stillPaused (s : State) (n : Fin 8) : BitVec 8 :=
  bitsFrom 8 fun p => s.eth[n].xoff.getLsbD p && s.pfcTxEn n p && !s.pfcBadOf n p

theorem pfcRefresh_onRing (h : s.ringHolds n.val = true) : Idle (.pfcRefresh n) s :=
  idle_of_commit (u := doPfcRefresh n s) rfl (if_pos h)

section
variable (hring : s.ringHolds n.val = false)
include hring

theorem exec_pfcRefresh : exec (.pfcRefresh n) s =
    commit s ((s.setEth n { s.eth[n] with pfcPend := s.eth[n].pfcPend ||| s.stillPaused n }).pfcFlush n) :=
  congrArg (commit s) (if_neg (Bool.eq_false_iff.1 hring))

theorem pfcRefresh_idle (hagain : s.stillPaused n = 0) (hpend : s.eth[n].pfcPend = 0) : Idle (.pfcRefresh n) s := by
  have nothing : s.eth[n].pfcPend ||| s.stillPaused n = s.eth[n].pfcPend := by rw [hagain, hpend]; rfl
  refine idle_of_commit (exec_pfcRefresh hring) ?_
  rw [nothing]
  change (s.setEth n s.eth[n]).pfcFlush n = s
  rw [State.setEth_self, State.pfcFlush_idle (.inl hpend)]

theorem pfcRefresh_waits (htx : s.eth[n].tx.isSome = true) : Ends (.pfcRefresh n) s fun t =>
    t.eth = vset s.eth n { s.eth[n] with pfcPend := s.eth[n].pfcPend ||| s.stillPaused n } ∧ Framed [.eth] [] [] s t := by
  refine ends_of_setEth ((exec_pfcRefresh hring).trans (congrArg (commit s) (State.pfcFlush_idle (.inr ?_))))
  rw [State.setEth_same]
  exact htx

theorem pfcRefresh_sends (hw : s.storesWf) (htx : s.eth[n].tx = none) (hup : s.eth[n].up = true)
    (hpend : s.eth[n].pfcPend ||| s.stillPaused n ≠ 0) : Ends (.pfcRefresh n) s fun t =>
      t.eth = vset s.eth n { s.eth[n] with pfcPend := 0 } ∧
      PauseSent s n (s.eth[n].pfcPend ||| s.stillPaused n) s.eth[n].xoff t ∧
      t.reg (ethTxPfcCnt n.val) = s.reg (ethTxPfcCnt n.val) + 1 ∧ Framed [.eth] (pauseCounts n) [] s t := by
  obtain ⟨u, hu⟩ : ∃ u, u = s.setEth n { s.eth[n] with pfcPend := s.eth[n].pfcPend ||| s.stillPaused n } := ⟨_, rfl⟩
  have port : u.eth[n] = { s.eth[n] with pfcPend := s.eth[n].pfcPend ||| s.stillPaused n } := by
    rw [hu, State.setEth_same]
  have regs (a : Nat) : u.reg a = s.reg a := by rw [hu]; rfl
  have sent : u.pfcFlush n = u.pauseSent n :=
    State.pfcFlush_sends (by rw [port]; exact hpend) (by rw [port]; exact htx) (by rw [port]; exact hup)
  have paused := State.pauseSent_sends (s := s) (u := u) (n := n) (xoff := s.eth[n].xoff) (by rw [hu]; rfl)
    (by rw [hu]; rfl) (regs _) (by rw [port])
  rw [port] at paused
  refine ends_of_commit ((exec_pfcRefresh hring).trans (congrArg (commit s) ((congrArg (State.pfcFlush · n) hu.symm).trans
    sent))) ⟨?_, paused, ?_, framed_settle (State.pauseSent_framed ?_ (by simp) fun _ h => h)⟩
  · rw [settle_eth, State.pauseSent, State.setEth_eth, port, State.count_eth, State.sendFrame_eth, hu, State.setEth_eth,
      vset_vset]
  · rw [settle_reg _ _ _ (by simp only [ethTxPfcCnt, glbIntCnt]; omega), State.pauseSent_counts, regs]
    rw [hu]
    exact State.storesWf_regs hw
  · rw [hu]
    exact (Framed.refl _ _ _ s).setEth (by simp) n _

end

/-! HALF_DUPLEX_NEGOTIATED and PAUSE_TIMER_EXPIRE. -/

/-- Auto-negotiation runs on an enabled port whose link is down (R168, R169). -/
abbrev State.negotiates (s : State) (n : Fin 8) : Prop :=
  s.en (.eth n) = true ∧ bitOf (s.reg (ethMode n.val)) 8 = true ∧
    (s.ethModeOf n = 1 ∨ s.ethModeOf n = 2 ∨ s.ethModeOf n = 6) ∧ s.eth[n].up = false

theorem State.negotiates_iff : (s.en (.eth n) && s.anRuns n && !s.eth[n].up) = true ↔ s.negotiates n := by
  simp only [State.negotiates, State.anRuns, State.ethModeOf, Bool.and_eq_true, Bool.or_eq_true, decide_eq_true_eq,
    Bool.not_eq_true', or_assoc, and_assoc]

theorem halfDuplexNegotiated_marks (h : s.negotiates n) : Ends (.halfDuplexNegotiated n) s fun t =>
    t.eth = vset s.eth n { s.eth[n] with hdRefused := true } ∧ Framed [.eth] [] [] s t :=
  ends_of_setEth (congrArg (commit s) (if_pos (State.negotiates_iff.2 h)))

theorem halfDuplexNegotiated_idle (h : ¬ s.negotiates n) : Idle (.halfDuplexNegotiated n) s :=
  idle_of_commit (u := doHalfDuplexNegotiated n s) rfl (if_neg (mt State.negotiates_iff.1 h))

/-! MDIO. -/

/-- An operation of Clause 22 with no frame (R172, Table ETH-2). -/
def noMdioFrame (w : Word) : Prop := bitOf w 29 = false ∧ (fieldOf w 27 2 = 0 ∨ fieldOf w 27 2 = 3)

theorem noMdioFrame_iff (w : Word) : (!bitOf w 29 && (decide (fieldOf w 27 2 = 0) || decide (fieldOf w 27 2 = 3))) = true ↔
    noMdioFrame w := by
  rw [noMdioFrame, Bool.and_eq_true, Bool.or_eq_true, decide_eq_true_eq, decide_eq_true_eq, Bool.not_eq_true']

/-- The port that carries an MDIO bus. -/
abbrev mdioPort (i : Fin 2) : Fin 8 := Fin.ofNat 8 i.val

section
variable {i : Fin 2} {v : Word}

/-- The command register is neither GLB_INT_CNT nor the port's counter of rejected writes. -/
theorem mdioRegs : ethMdioCmd i.val ≠ glbIntCnt ∧ ethMdioCmd i.val ≠ blkBase (.eth (mdioPort i)) + 8 := by
  revert i
  decide

theorem State.mdioAccept_framed (h : ¬ noMdioFrame v) : s.mdioAccept i v =
    (s.setEth (mdioPort i) { s.eth[mdioPort i] with mdio := ⟨true, false, v⟩ }).emit (.mdio i v) :=
  if_neg (mt (noMdioFrame_iff v).1 h)

theorem State.mdioAccept_unframed (h : noMdioFrame v) : s.mdioAccept i v =
    (s.setEth (mdioPort i) { s.eth[mdioPort i] with
      mdio := { s.eth[mdioPort i].mdio with goWait := false } }).count (blkBase (.eth (mdioPort i)) + 8) :=
  if_pos ((noMdioFrame_iff v).2 h)

section
variable {m : Master} (ho : Open s m true (ethMdioCmd i.val))
include ho

theorem exec_mdioGo : exec (.mdioGo m i v) s = commit s
    (let s1 := s.setReg (ethMdioCmd i.val) (v &&& 0x3FFEFFFF#32)
     if !bitOf v 31 then s1
     else if s.eth[mdioPort i].mdio.busy then
       s1.setEth (mdioPort i) { s1.eth[mdioPort i] with mdio := { s1.eth[mdioPort i].mdio with goWait := true } }
     else s1.mdioAccept i (v &&& 0x3FFEFFFF#32)) := by
  change commit s (doMdioGo m i v s) = _
  rw [doMdioGo, State.guarded_of_open ho]

/-- The fields of a command as they are stored (R173). -/
abbrev mdioFields (v : Word) : Word := v &&& 0x3FFEFFFF#32

theorem mdioGo_stores (hw : s.storesWf) (h : bitOf v 31 = false) : Ends (.mdioGo m i v) s fun t =>
    t.reg (ethMdioCmd i.val) = mdioFields v ∧ Framed [] [ethMdioCmd i.val] [] s t := by
  refine ends_of_commit ((exec_mdioGo ho).trans (congrArg (commit s) (if_pos (by rw [h]; rfl)))) ⟨?_, framed_settle ?_⟩
  · rw [settle_reg _ _ _ mdioRegs.1]
    exact State.reg_setReg_same _ _ _ (State.storesWf_regs hw)
  · exact (Framed.refl _ _ _ s).setReg _ (by simp)

theorem mdioGo_waits (hw : s.storesWf) (h : bitOf v 31 = true) (hb : s.eth[mdioPort i].mdio.busy = true) :
    Ends (.mdioGo m i v) s fun t => t.reg (ethMdioCmd i.val) = mdioFields v ∧
      t.eth = vset s.eth (mdioPort i) { s.eth[mdioPort i] with mdio := { s.eth[mdioPort i].mdio with goWait := true } } ∧
      Framed [.eth] [ethMdioCmd i.val] [] s t := by
  refine ends_of_commit ((exec_mdioGo ho).trans (congrArg (commit s) ((if_neg (by rw [h]; decide)).trans (if_pos hb))))
    ⟨?_, settle_eth _ _, framed_settle ?_⟩
  · rw [settle_reg _ _ _ mdioRegs.1]
    exact State.reg_setReg_same s _ _ (State.storesWf_regs hw)
  · exact ((Framed.refl _ _ _ s).setReg _ (by simp)).setEth (by simp) _ _

/-- A GO that is accepted. -/
theorem exec_mdioGo_accepted (h : bitOf v 31 = true) (hb : s.eth[mdioPort i].mdio.busy = false) :
    exec (.mdioGo m i v) s =
      commit s ((s.setReg (ethMdioCmd i.val) (mdioFields v)).mdioAccept i (mdioFields v)) :=
  (exec_mdioGo ho).trans (congrArg (commit s) ((if_neg (by rw [h]; decide)).trans (if_neg (Bool.eq_false_iff.1 hb))))

theorem mdioGo_starts (hw : s.storesWf) (h : bitOf v 31 = true) (hb : s.eth[mdioPort i].mdio.busy = false)
    (hf : ¬ noMdioFrame (mdioFields v)) : Ends (.mdioGo m i v) s fun t => t.reg (ethMdioCmd i.val) = mdioFields v ∧
      t.eth = vset s.eth (mdioPort i) { s.eth[mdioPort i] with mdio := ⟨true, false, mdioFields v⟩ } ∧
      Sends [.mdio i (mdioFields v)] s t ∧ Framed [.eth] [ethMdioCmd i.val] [] s t := by
  refine ends_of_commit ((exec_mdioGo_accepted ho h hb).trans (congrArg (commit s) (State.mdioAccept_framed hf)))
    ⟨?_, settle_eth _ _, settle_sends (List.prefix_refl _), framed_settle ?_⟩
  · rw [settle_reg _ _ _ mdioRegs.1]
    exact State.reg_setReg_same s _ _ (State.storesWf_regs hw)
  · exact (((Framed.refl _ _ _ s).setReg _ (by simp)).setEth (by simp) _ _).emit _

theorem mdioGo_counts (hw : s.storesWf) (h : bitOf v 31 = true) (hb : s.eth[mdioPort i].mdio.busy = false)
    (hf : noMdioFrame (mdioFields v)) : Ends (.mdioGo m i v) s fun t => t.reg (ethMdioCmd i.val) = mdioFields v ∧
      t.eth = vset s.eth (mdioPort i) { s.eth[mdioPort i] with mdio := { s.eth[mdioPort i].mdio with goWait := false } } ∧
      t.reg (blkBase (.eth (mdioPort i)) + 8) = s.reg (blkBase (.eth (mdioPort i)) + 8) + 1 ∧
      Framed [.eth] [ethMdioCmd i.val, blkBase (.eth (mdioPort i)) + 8] [] s t := by
  have rejNe : blkBase (.eth (mdioPort i)) + 8 ≠ glbIntCnt := blkBase_add_ne_glbIntCnt _ (by decide)
  obtain ⟨cmdNe, apart⟩ := mdioRegs (i := i)
  have wf : amWf regReset (s.setReg (ethMdioCmd i.val) (mdioFields v)).regs := State.regsWf_setReg (State.storesWf_regs hw) _
  refine ends_of_commit ((exec_mdioGo_accepted ho h hb).trans (congrArg (commit s) (State.mdioAccept_unframed hf)))
    ⟨?_, settle_eth _ _, ?_, framed_settle ?_⟩
  · rw [settle_reg _ _ _ cmdNe]
    refine (State.reg_setReg_other _ _ _ _ apart).trans ?_
    exact State.reg_setReg_same s _ _ (State.storesWf_regs hw)
  · rw [settle_reg _ _ _ rejNe]
    refine (State.reg_setReg_same _ _ _ wf).trans ?_
    exact congrArg (· + 1) (State.reg_setReg_other s _ _ _ apart.symm)
  · exact (((Framed.refl _ _ _ s).setReg _ (by simp)).setEth (by simp) _ _).count (by simp)

end

/-! MDIO_DONE. -/

/-- Whether the command in progress reads (Table ETH-2). -/
abbrev mdioIsRead (w : Word) : Prop :=
  if bitOf w 29 then fieldOf w 27 2 = 2 ∨ fieldOf w 27 2 = 3 else fieldOf w 27 2 = 2

theorem mdioReads_iff (w : Word) : mdioReads w = true ↔ mdioIsRead w := by
  unfold mdioReads mdioIsRead
  cases bitOf w 29 with
  | false => simp
  | true => simp [or_comm]

theorem mdioDone_idle {data : BitVec 16} (h : s.eth[mdioPort i].mdio.busy = false) : Idle (.mdioDone i data) s :=
  idle_of_commit (u := doMdioDone i data s) rfl (if_pos (by rw [h]; rfl))

section
variable {data : BitVec 16} (hb : s.eth[mdioPort i].mdio.busy = true)

/-- The state with the data of a read stored, BUSY as it was (R173). -/
def State.mdioStored (s : State) (i : Fin 2) (data : BitVec 16) : State :=
  if mdioReads s.eth[mdioPort i].mdio.cmd then s.setReg (ethMdioRdata i.val) (data.setWidth 32) else s

theorem State.mdioStored_eth (s : State) (i : Fin 2) (data : BitVec 16) : (s.mdioStored i data).eth = s.eth := by
  unfold State.mdioStored
  split <;> rfl

/-- The port changes and the data is stored in either order. -/
theorem State.setEth_ite (b : Bool) (k : Fin 8) (x : EthState) (a : Nat) (w : Word) :
    (if b then (s.setEth k x).setReg a w else s.setEth k x) = (if b then s.setReg a w else s).setEth k x := by
  cases b <;> rfl

theorem State.mdioStored_framed (s : State) (i : Fin 2) (data : BitVec 16) :
    Framed [.eth] [ethMdioRdata i.val] [] s (s.mdioStored i data) := by
  unfold State.mdioStored
  split
  · exact (Framed.refl _ _ _ s).setReg _ (by simp)
  · exact Framed.refl _ _ _ s

theorem State.mdioStored_data (hw : s.storesWf) (data : BitVec 16) : (s.mdioStored i data).reg (ethMdioRdata i.val) =
    if mdioIsRead s.eth[mdioPort i].mdio.cmd then data.setWidth 32 else s.reg (ethMdioRdata i.val) := by
  unfold State.mdioStored
  by_cases h : mdioIsRead s.eth[mdioPort i].mdio.cmd
  · rw [if_pos h, if_pos ((mdioReads_iff _).2 h)]
    exact State.reg_setReg_same _ _ _ (State.storesWf_regs hw)
  · rw [if_neg h, if_neg (mt (mdioReads_iff _).1 h)]

theorem State.mdioStored_out (s : State) (i : Fin 2) (data : BitVec 16) : (s.mdioStored i data).out = s.out := by
  unfold State.mdioStored
  split <;> rfl

include hb

/-- An MDIO frame ends (R173). -/
theorem exec_mdioDone : exec (.mdioDone i data) s = commit s
    (let s2 := (s.mdioStored i data).setEth (mdioPort i) { s.eth[mdioPort i] with
       mdio := { s.eth[mdioPort i].mdio with busy := false } }
     if s.eth[mdioPort i].mdio.goWait then s2.mdioAccept i (s2.reg (ethMdioCmd i.val)) else s2) := by
  refine congrArg (commit s) ((if_neg (by rw [hb]; decide)).trans ?_)
  rw [State.mdioStored, ← State.setEth_ite]

theorem mdioDone_rests (hw : s.storesWf) (hg : s.eth[mdioPort i].mdio.goWait = false) :
    Ends (.mdioDone i data) s fun t =>
      t.eth = vset s.eth (mdioPort i) { s.eth[mdioPort i] with mdio := { s.eth[mdioPort i].mdio with busy := false } } ∧
      t.reg (ethMdioRdata i.val) =
        (if mdioIsRead s.eth[mdioPort i].mdio.cmd then data.setWidth 32 else s.reg (ethMdioRdata i.val)) ∧
      Framed [.eth] [ethMdioRdata i.val] [] s t := by
  refine ends_of_commit ((exec_mdioDone hb).trans (congrArg (commit s) (if_neg (Bool.eq_false_iff.1 hg)))) ⟨?_, ?_,
    framed_settle ((s.mdioStored_framed i data).setEth (by simp) _ _)⟩
  · rw [settle_eth, State.setEth_eth, State.mdioStored_eth]
  · rw [settle_reg _ _ _ (by simp only [ethMdioRdata, glbIntCnt]; omega)]
    exact State.mdioStored_data hw data

theorem mdioDone_starts (hw : s.storesWf) (hg : s.eth[mdioPort i].mdio.goWait = true)
    (hf : ¬ noMdioFrame (s.reg (ethMdioCmd i.val))) : Ends (.mdioDone i data) s fun t =>
      t.eth = vset s.eth (mdioPort i) { s.eth[mdioPort i] with mdio := ⟨true, false, s.reg (ethMdioCmd i.val)⟩ } ∧
      t.reg (ethMdioRdata i.val) =
        (if mdioIsRead s.eth[mdioPort i].mdio.cmd then data.setWidth 32 else s.reg (ethMdioRdata i.val)) ∧
      Sends [.mdio i (s.reg (ethMdioCmd i.val))] s t ∧ Framed [.eth] [ethMdioRdata i.val] [] s t := by
  obtain ⟨u, hu⟩ : ∃ u, u = (s.mdioStored i data).setEth (mdioPort i) { s.eth[mdioPort i] with
    mdio := { s.eth[mdioPort i].mdio with busy := false } } := ⟨_, rfl⟩
  have stored : Framed [.eth] [ethMdioRdata i.val] [] s u := hu ▸ (s.mdioStored_framed i data).setEth (by simp) _ _
  have cmd : u.reg (ethMdioCmd i.val) = s.reg (ethMdioCmd i.val) :=
    stored.regs _ (by simp) mdioRegs.1
  have port : u.eth[mdioPort i] = { s.eth[mdioPort i] with mdio := { s.eth[mdioPort i].mdio with busy := false } } := by
    rw [hu, State.setEth_same]
  have done : exec (.mdioDone i data) s = commit s ((u.setEth (mdioPort i)
      { s.eth[mdioPort i] with mdio := ⟨true, false, s.reg (ethMdioCmd i.val)⟩ }).emit (.mdio i (s.reg (ethMdioCmd i.val)))) := by
    refine (exec_mdioDone hb).trans (congrArg (commit s) ((if_pos hg).trans ?_))
    rw [← hu, cmd, State.mdioAccept_framed hf, port]
  refine ends_of_commit done ⟨?_, ?_, settle_sends ?_, framed_settle ((stored.setEth (by simp) _ _).emit _)⟩
  · rw [settle_eth, State.emit_eth, State.setEth_eth, hu, State.setEth_eth, State.mdioStored_eth, vset_vset]
  · have kept : u.reg (ethMdioRdata i.val) = (s.mdioStored i data).reg (ethMdioRdata i.val) := by
      rw [hu]
      exact State.reg_of_regs_eq rfl
    rw [settle_reg _ _ _ (by simp only [ethMdioRdata, glbIntCnt]; omega), ← State.mdioStored_data hw data, ← kept]
    exact State.reg_of_regs_eq rfl
  · have out : u.out = s.out := by
      rw [hu]
      exact s.mdioStored_out i data
    rw [Sends, ← out]
    exact List.prefix_refl _

end

end

end

end Sys2Proof.Machine
end

section
/-! SUPPORT. The end of a port's frames and the fall of its link (R66, R170, R176, R185, R201, R210). -/

namespace Sys2Proof.Machine

/-! XOFF alone changes at a port. -/

/-- A port but for its XOFF and the changes of it that wait. -/
def PfcOnly (x y : EthState) : Prop := ∃ a b, y = { x with xoff := a, pfcPend := b }

theorem PfcOnly.refl (x : EthState) : PfcOnly x x := ⟨_, _, rfl⟩

theorem PfcOnly.trans {x y z : EthState} (h1 : PfcOnly x y) (h2 : PfcOnly y z) : PfcOnly x z := by
  obtain ⟨a, b, rfl⟩ := h1
  obtain ⟨a', b', rfl⟩ := h2
  exact ⟨a', b', rfl⟩

theorem State.setEth_pfcOnly (s : State) (n : Fin 8) {x : EthState} (h : PfcOnly s.eth[n] x) (k : Fin 8) :
    PfcOnly s.eth[k] (s.setEth n x).eth[k] := by
  by_cases hk : k = n
  · rw [hk, State.setEth_same]
    exact h
  · rw [State.setEth_eth, getElem_vset_other _ _ hk]
    exact PfcOnly.refl _

theorem State.pfcFlush_pfcOnly (s : State) (n k : Fin 8) : PfcOnly s.eth[k] (s.pfcFlush n).eth[k] := by
  unfold State.pfcFlush
  dsimp only
  split
  · exact PfcOnly.refl _
  · obtain ⟨u, hu⟩ : ∃ u, u = (s.sendFrame n (s.pfcFrame n s.eth[n].pfcPend)).count (ethTxPfcCnt n.val) := ⟨_, rfl⟩
    have sent : u.eth = s.eth := by rw [hu, State.count_eth, State.sendFrame_eth]
    have flushed := u.setEth_pfcOnly n (x := { s.eth[n] with pfcPend := 0 }) (by rw [sent]; exact ⟨_, _, rfl⟩) k
    rw [sent] at flushed
    rwa [← hu]

theorem State.pfcEval_pfcOnly (s : State) (n k : Fin 8) : PfcOnly s.eth[k] (s.pfcEval n).eth[k] :=
  (s.setEth_pfcOnly n ⟨_, _, rfl⟩ k).trans (State.pfcFlush_pfcOnly _ n k)

theorem State.pfcEvalAll_pfcOnly (s : State) (k : Fin 8) : PfcOnly s.eth[k] s.pfcEvalAll.eth[k] :=
  List.foldlRecOn (motive := fun t : State => PfcOnly s.eth[k] t.eth[k]) _ _ (PfcOnly.refl _) fun t ht n _ =>
    ht.trans (t.pfcEval_pfcOnly _ k)

theorem State.pfcEvalAll_framed (s : State) : Framed [.eth] pfcRegs [] s s.pfcEvalAll :=
  List.foldlRecOn (motive := fun t : State => Framed [.eth] pfcRegs [] s t) _ _ (Framed.refl _ _ _ s) fun t ht _ _ =>
    ht.trans (t.pfcEval_framed _)

/-! A sweep (R210, R215). -/

section
variable {s : State}

theorem State.freeBad_of_sound (h : s.badHead = none) (fuel : Nat) : State.freeBad fuel s = s := by
  cases fuel with
  | zero => rfl
  | succ fuel => rw [State.freeBad, h]

theorem State.freeBad_regs (fuel : Nat) (s : State) : (State.freeBad fuel s).regs = s.regs := by
  induction fuel generalizing s with
  | zero => rfl
  | succ fuel ih =>
    unfold State.freeBad
    split
    · rw [ih]
      rfl
    · rfl

/-- A sweep leaves every port as it is but for its XOFF. -/
theorem State.sweep_pfcOnly (k : Fin 8) : PfcOnly s.eth[k] s.sweep.eth[k] := by
  have eth : (State.freeBad s.swc.queues.length s).eth = s.eth := State.freeBad_eth _ s
  have all := State.pfcEvalAll_pfcOnly ((State.freeBad s.swc.queues.length s).setSwc
    { (State.freeBad s.swc.queues.length s).swc with
      stored := (State.freeBad s.swc.queues.length s).swc.stored.filter fun f =>
        (State.freeBad s.swc.queues.length s).swc.queues.any fun q => q.fid = f.fid }) k
  rw [State.setSwc_eth, eth] at all
  exact all

theorem State.sweep_reg {a : Nat} (h : a ∉ pfcRegs) (hg : a ≠ glbIntCnt) : s.sweep.reg a = s.reg a := by
  unfold State.sweep
  refine ((State.pfcEvalAll_framed _).regs a h hg).trans ?_
  exact State.reg_of_regs_eq (State.freeBad_regs _ s)

/-- With no lost frame at a queue's head a sweep leaves the queues. -/
theorem State.sweep_of_sound (h : s.badHead = none) :
    Framed [.eth, .swc] pfcRegs [] s s.sweep ∧ s.sweep.swc.queues = s.swc.queues := by
  have swc (u : State) : u.pfcEvalAll.swc = u.swc := u.pfcEvalAll_framed.parts .swc (by decide)
  unfold State.sweep
  rw [State.freeBad_of_sound h]
  refine ⟨((Framed.refl _ _ _ s).setSwc (by simp) _).trans ((State.pfcEvalAll_framed _).mono (by simp) (by simp)
    (by simp)), ?_⟩
  dsimp only
  rw [swc]
  rfl

/-! Frames ended at a port (R170, R176). -/

section
variable (s : State) (n : Fin 8) (counted a b : Bool)

theorem State.endOne_framed (x : Option TxNow) :
    Framed [.free] [ethTxAbortCnt n.val] [] s (s.endOne n counted x) := by
  have cut (bs : List Byte) : Framed [.free] [ethTxAbortCnt n.val] [] s (s.abortLine n bs) :=
    ((Framed.refl _ _ _ s).draw (by simp)).emit _
  unfold State.endOne
  split
  · exact Framed.refl _ _ _ s
  · dsimp only
    split
    · exact (cut _).count (by simp)
    · exact cut _

/-- The port with the frames ended taken off. -/
def portEnded (e : EthState) (a b : Bool) : EthState :=
  { e with tx := if a then none else e.tx, pre := if b then none else e.pre }

/-- What is ended at a port: first the frame in transmission, then the preempted one. -/
theorem State.endTx_eq : s.endTx n counted a b = ((s.setEth n (portEnded s.eth[n] a b)).endOne n counted
    (if a then s.eth[n].tx else none)).endOne n counted (if b then s.eth[n].pre else none) := rfl

theorem State.endTx_eth : (s.endTx n counted a b).eth = vset s.eth n (portEnded s.eth[n] a b) := by
  rw [State.endTx_eq, State.endOne_eth, State.endOne_eth]
  rfl

theorem State.endTx_framed : Framed [.eth, .free] [ethTxAbortCnt n.val] [] s (s.endTx n counted a b) := by
  have ended (u : State) (x : Option TxNow) : Framed [.eth, .free] [ethTxAbortCnt n.val] [] u (u.endOne n counted x) :=
    (u.endOne_framed n counted x).mono (by simp) (by simp) (by simp)
  rw [State.endTx_eq]
  exact (((Framed.refl _ _ _ s).setEth (by simp) n _).trans (ended _ _)).trans (ended _ _)

/-- Nothing is ended at a port. -/
theorem State.endTx_nothing : s.endTx n counted false false = s := by
  have port : s.setEth n { s.eth[n] with tx := s.eth[n].tx, pre := s.eth[n].pre } = s := State.setEth_self
  exact port

variable {s}

theorem State.endOne_count (hw : amWf regReset s.regs) (x : Option TxNow) :
    (s.endOne n true x).reg (ethTxAbortCnt n.val) = s.reg (ethTxAbortCnt n.val) + w32 (b2n x.isSome) := by
  cases x with
  | none => exact (BitVec.add_zero _).symm
  | some t => exact State.reg_setReg_same _ _ _ hw

theorem State.endOne_regsWf (hw : amWf regReset s.regs) (x : Option TxNow) :
    amWf regReset (s.endOne n counted x).regs := by
  unfold State.endOne
  split
  · exact hw
  · dsimp only
    split
    · exact State.regsWf_count (s := s.abortLine n _) hw _
    · exact hw

theorem State.endTx_regsWf (hw : amWf regReset s.regs) : amWf regReset (s.endTx n counted a b).regs := by
  rw [State.endTx_eq]
  exact State.endOne_regsWf n counted (State.endOne_regsWf n counted (s := s.setEth n _) hw _) _

/-- Every frame ended at a port is counted (R176). -/
theorem State.endTx_count (hw : amWf regReset s.regs) : (s.endTx n true a b).reg (ethTxAbortCnt n.val) =
    s.reg (ethTxAbortCnt n.val) + w32 (b2n (a && s.eth[n].tx.isSome) + b2n (b && s.eth[n].pre.isSome)) := by
  have ended (c : Bool) (x : Option TxNow) : (if c then x else none).isSome = (c && x.isSome) := by cases c <;> rfl
  have first := State.endOne_count n (s := s.setEth n (portEnded s.eth[n] a b)) hw (if a then s.eth[n].tx else none)
  rw [State.endTx_eq, State.endOne_count n (State.endOne_regsWf n true (s := s.setEth n _) hw _), first, ended, ended,
    w32, w32, w32, BitVec.add_assoc, ← BitVec.ofNat_add]
  rfl

end

/-! Places freed at one port (R170, R201). -/

section
variable {n : Fin 8}

/-- The places of a port's queues. -/
abbrev atPort (n : Fin 8) (q : QEntry) : Bool := decide (q.lp.val = n.val)

/-- The state with other indirect spaces. -/
def State.withTabs (s : State) (T : AMap Word) : State := { s with tabs := T }

/-- The places of the port whose frames are not being sent count as drops there (R201). -/
theorem foldl_dropAt (reason : Nat) (l : List QEntry) (hl : ∀ q ∈ l, q.lp.val = n.val) (s : State)
    (hw : amWf tabReset s.tabs) : ∃ T, l.foldl (fun t q => t.dropAt q.lp.val reason) s = s.withTabs T ∧
      Framed [] [] [tabKey (blkIdx .swc) 6 (16 * n.val + reason)] s (s.withTabs T) ∧
      (s.withTabs T).tab .swc 6 (16 * n.val + reason) =
        s.tab .swc 6 (16 * n.val + reason) + w32 l.length := by
  induction l generalizing s with
  | nil => exact ⟨s.tabs, rfl, Framed.refl _ _ _ s, (BitVec.add_zero _).symm⟩
  | cons q l ih =>
    have lp : q.lp.val * 16 + reason = 16 * n.val + reason := by rw [hl q List.mem_cons_self, Nat.mul_comm]
    have drop : s.dropAt q.lp.val reason =
        s.setTab .swc 6 (16 * n.val + reason) (s.tab .swc 6 (16 * n.val + reason) + 1) := by rw [State.dropAt, lp]
    obtain ⟨T, eq, framed, count⟩ := ih (fun p hp => hl p (List.mem_cons_of_mem _ hp)) (s.dropAt q.lp.val reason)
      (amPut_wf _ _ _ _ hw)
    refine ⟨T, eq, ?_, ?_⟩
    · exact (drop ▸ (Framed.refl _ _ _ s).setTab _ (by simp)).trans framed
    · refine count.trans ?_
      rw [drop, State.tab_setTab_same _ _ _ _ _ hw, List.length_cons, w32, w32, BitVec.add_assoc, Nat.add_comm l.length,
        BitVec.ofNat_add]
      rfl

theorem foldl_unchanged {α β : Type} {f : β → α → β} {s : β} (l : List α) (h : ∀ k ∈ l, f s k = s) : l.foldl f s = s := by
  induction l with
  | nil => rfl
  | cons k l ih =>
    rw [List.foldl_cons, h k List.mem_cons_self]
    exact ih fun j hj => h j (List.mem_cons_of_mem _ hj)

/-- A fold of which one step alone does anything. -/
theorem foldl_one {α β : Type} {f : β → α → β} {l : List α} {k : α} (hk : k ∈ l) (hl : l.Nodup)
    (h : ∀ t, ∀ j ∈ l, j ≠ k → f t j = t) (s : β) : l.foldl f s = f s k := by
  obtain ⟨l1, l2, rfl⟩ := List.append_of_mem hk
  obtain ⟨-, nodup, apart⟩ := List.nodup_append.1 hl
  obtain ⟨fresh, -⟩ := List.nodup_cons.1 nodup
  rw [List.foldl_append, List.foldl_cons,
    foldl_unchanged l1 fun j hj => h s j (List.mem_append_left _ hj) (apart j hj k List.mem_cons_self)]
  exact foldl_unchanged l2 fun j hj => h _ j (List.mem_append_right _ (List.mem_cons_of_mem _ hj)) fun e =>
    fresh (e ▸ hj)

/-- Whether a frame is that of a place of port k among those of port n. -/
def State.holdsAt (s : State) (n k : Fin 8) (x : Option TxNow) : Bool :=
  ((s.swc.queues.filter (atPort n)).filter fun q => decide (q.lp.val = k.val)).any fun q => isOf q x

/-- The places of a port freed with LINK_DOWN: each that is not being sent counts, and the port ends the frames of its
places. -/
theorem State.freeWhere_atPort (hw : s.storesWf) (n : Fin 8) : ∃ T a b,
    s.freeWhere 6 true (atPort n) = (((s.withTabs T).endTx n true a b).unqueue (atPort n)).sweep ∧
    Framed [] [] [tabKey (blkIdx .swc) 6 (16 * n.val + 6)] s (s.withTabs T) ∧
    (s.withTabs T).tab .swc 6 (16 * n.val + 6) = s.tab .swc 6 (16 * n.val + 6) +
      w32 (s.swc.queues.filter fun q => decide (q.lp.val = n.val) && !s.sending q).length := by
  have dropped : ((s.swc.queues.filter (atPort n)).filter fun q => 6 = 9 || !s.sending q) =
      s.swc.queues.filter fun q => decide (q.lp.val = n.val) && !s.sending q := by
    rw [List.filter_filter]
    refine List.filter_congr fun q _ => ?_
    rw [Bool.and_comm]
    rfl
  obtain ⟨T, eq, framed, count⟩ := foldl_dropAt (n := n) 6
    (s.swc.queues.filter fun q => decide (q.lp.val = n.val) && !s.sending q)
    (fun q hq => of_decide_eq_true (Bool.and_elim_left (List.mem_filter.1 hq).2)) s (State.storesWf_tabs hw)
  have ended (u : State) : (List.finRange 8).foldl (fun t k =>
      t.endTx k true (s.holdsAt n k t.eth[k].tx) (s.holdsAt n k t.eth[k].pre)) u =
      u.endTx n true (s.holdsAt n n u.eth[n].tx) (s.holdsAt n n u.eth[n].pre) := by
    refine foldl_one (List.mem_finRange n) (List.nodup_finRange 8) (fun t k _ hk => ?_) u
    have none_ : ((s.swc.queues.filter (atPort n)).filter fun q => decide (q.lp.val = k.val)) = [] := by
      rw [List.filter_filter]
      refine List.filter_eq_nil_iff.2 fun q _ => ?_
      rw [Bool.and_eq_true, decide_eq_true_eq, decide_eq_true_eq]
      exact fun h => hk (Fin.ext (h.1.symm.trans h.2))
    rw [State.holdsAt, State.holdsAt, none_]
    exact t.endTx_nothing k true
  refine ⟨T, s.holdsAt n n s.eth[n].tx, s.holdsAt n n s.eth[n].pre, ?_, framed, count⟩
  unfold State.freeWhere
  dsimp only
  rw [dropped, eq]
  exact congrArg (fun t : State => (t.unqueue (atPort n)).sweep) (ended (s.withTabs T))

/-- With the places of one port gone no other queue has a new head. -/
theorem State.badHead_freed {u : State} (h : s.badHead = none)
    (hq : u.swc.queues = s.swc.queues.filter fun q => !atPort n q) (hs : u.swc.stored = s.swc.stored)
    (he : ∀ k, k ≠ n → u.eth[k] = s.eth[k]) : u.badHead = none := by
  have sound := List.find?_eq_none.1 h
  refine List.find?_eq_none.2 fun q hmem => ?_
  rw [hq] at hmem ⊢
  obtain ⟨mem, away⟩ := List.mem_filter.1 hmem
  have lp : q.lp.val ≠ n.val := by simpa using away
  have head : (s.swc.queues.filter fun q => !atPort n q).find? (fun p => p.lp = q.lp && p.tc = q.tc) =
      s.swc.queues.find? (fun p => p.lp = q.lp && p.tc = q.tc) := by
    rw [List.find?_filter]
    congr 1
    funext p
    by_cases hp : p.lp = q.lp
    · simp [hp, lp]
    · simp [hp]
  have lost : u.lostAt q = s.lostAt q := by rw [State.lostAt, State.storedOf, hs, State.lostAt, State.storedOf]
  have sends : u.sending q = s.sending q := by
    unfold State.sending
    split
    · next h8 =>
      have apart : (⟨q.lp.val, h8⟩ : Fin 8) ≠ n := fun e => lp (congrArg Fin.val e)
      rw [he _ apart]
    · rfl
  rw [head, lost, sends]
  exact sound q mem

/-! A port freed. -/

/-- The register counting a port's frames ended is none of PFC's. -/
theorem abort_not_mem_pfcRegs : ethTxAbortCnt n.val ∉ pfcRegs ∧ ethTxAbortCnt n.val ≠ glbIntCnt := by
  revert n
  decide

/-- The port whose places are freed and whose frames end, where no lost frame heads a queue. -/
structure PortFreed (n : Fin 8) (s t : State) : Prop where
  framed : Framed [.eth, .swc, .free] (ethTxAbortCnt n.val :: pfcRegs) [tabKey (blkIdx .swc) 6 (16 * n.val + 6)] s t
  queues : t.swc.queues = s.swc.queues.filter fun q => !atPort n q
  drops : t.tab .swc 6 (16 * n.val + 6) = s.tab .swc 6 (16 * n.val + 6) +
    w32 (s.swc.queues.filter fun q => decide (q.lp.val = n.val) && !s.sending q).length

section
variable (hw : s.storesWf)
include hw

/-- What freeing a port leaves of its MAC, its counter and the other registers, whatever else the queues hold. -/
theorem State.portFreed_mac (n : Fin 8) : PfcOnly (portEnded s.eth[n] true true) (s.portFreed n).eth[n] ∧
    (s.portFreed n).reg (ethTxAbortCnt n.val) =
      s.reg (ethTxAbortCnt n.val) + w32 (b2n s.eth[n].tx.isSome + b2n s.eth[n].pre.isSome) ∧
    ∀ a, a ∉ pfcRegs → a ≠ glbIntCnt → a ≠ ethTxAbortCnt n.val → (s.portFreed n).reg a = s.reg a := by
  obtain ⟨T, a, b, eq, -, -⟩ := State.freeWhere_atPort hw n
  obtain ⟨u, hu⟩ : ∃ u, u = (s.withTabs T).endTx n true a b := ⟨_, rfl⟩
  obtain ⟨v, hv⟩ : ∃ v, v = (u.unqueue (atPort n)).sweep := ⟨_, rfl⟩
  have freed : s.portFreed n = v.endTx n true true true := by
    rw [hv, hu, ← eq]
    rfl
  have wf : amWf regReset s.regs := State.storesWf_regs hw
  have wfv : v.storesWf := by
    rw [hv, hu, ← eq]
    exact State.storesWf.freeWhere hw
  have portU : u.eth[n] = portEnded s.eth[n] a b := by
    rw [hu, State.endTx_eth, getElem_vset_same]
    rfl
  have portV : PfcOnly (portEnded s.eth[n] a b) v.eth[n] := by
    rw [hv, ← portU]
    exact State.sweep_pfcOnly (s := u.unqueue (atPort n)) n
  have regV (r : Nat) (h : r ∉ pfcRegs) (hg : r ≠ glbIntCnt) : v.reg r = u.reg r := by
    rw [hv]
    exact State.sweep_reg (s := u.unqueue (atPort n)) h hg
  have regU (r : Nat) (hg : r ≠ glbIntCnt) (hr : r ≠ ethTxAbortCnt n.val) : u.reg r = s.reg r := by
    rw [hu]
    exact ((s.withTabs T).endTx_framed n true a b).regs r (by simpa using hr) hg
  have countU : u.reg (ethTxAbortCnt n.val) =
      s.reg (ethTxAbortCnt n.val) + w32 (b2n (a && s.eth[n].tx.isSome) + b2n (b && s.eth[n].pre.isSome)) := by
    rw [hu]
    exact State.endTx_count (s := s.withTabs T) n a b wf
  obtain ⟨x, y, port⟩ := portV
  rw [freed]
  refine ⟨?_, ?_, fun r h hg hr => ?_⟩
  · rw [State.endTx_eth, getElem_vset_same, port]
    exact ⟨x, y, rfl⟩
  · rw [State.endTx_count n true true (State.storesWf_regs wfv), regV _ abort_not_mem_pfcRegs.1 abort_not_mem_pfcRegs.2,
      countU, port, w32, w32, w32, BitVec.add_assoc, ← BitVec.ofNat_add]
    have once (c : Bool) (z : Option TxNow) :
        b2n (c && z.isSome) + b2n (if c then none else z : Option TxNow).isSome = b2n z.isSome := by
      cases c with
      | false => exact Nat.zero_add _
      | true => rfl
    have tx := once a s.eth[n].tx
    have pre := once b s.eth[n].pre
    simp only [portEnded, Bool.true_and]
    rw [show ∀ p q r s : Nat, p + q + (r + s) = p + r + (q + s) by omega, tx, pre]
  · rw [(v.endTx_framed n true true true).regs r (by simpa using hr) hg, regV r h hg, regU r hg hr]

theorem State.portFreed_sound (hs : s.badHead = none) (n : Fin 8) : PortFreed n s (s.portFreed n) := by
  obtain ⟨T, a, b, eq, framed, count⟩ := State.freeWhere_atPort hw n
  obtain ⟨u, hu⟩ : ∃ u, u = ((s.withTabs T).endTx n true a b).unqueue (atPort n) := ⟨_, rfl⟩
  have freed : s.portFreed n = u.sweep.endTx n true true true := by
    rw [hu, ← eq]
    rfl
  have ended := (s.withTabs T).endTx_framed n true a b
  have swc : ((s.withTabs T).endTx n true a b).swc = s.swc := ended.parts .swc (by decide)
  have sound : u.badHead = none := by
    refine State.badHead_freed (n := n) hs ?_ ?_ fun k hk => ?_
    · rw [hu, State.unqueue, State.setSwc_swc, swc]
    · rw [hu, State.unqueue, State.setSwc_swc, swc]
    · rw [hu, State.unqueue, State.setSwc_eth, State.endTx_eth, getElem_vset_other _ _ hk]
      rfl
  obtain ⟨swept, queues⟩ := State.sweep_of_sound sound
  have last := u.sweep.endTx_framed n true true true
  have begun : Framed [.eth, .swc, .free] (ethTxAbortCnt n.val :: pfcRegs) [tabKey (blkIdx .swc) 6 (16 * n.val + 6)] s u := by
    rw [hu]
    exact ((framed.mono (by simp) (by simp) (by simp)).trans (ended.mono (by simp) (by simp) (by simp))).setSwc (by simp) _
  rw [freed]
  refine ⟨(begun.trans (swept.mono (by simp) (fun r hr => List.mem_cons_of_mem _ hr) (by simp))).trans
    (last.mono (by simp) (by simp) (by simp)), ?_, ?_⟩
  · rw [last.parts .swc (by decide), queues, hu, State.unqueue, State.setSwc_swc, swc]
  · have tab : (u.sweep.endTx n true true true).tab .swc 6 (16 * n.val + 6) =
        (s.withTabs T).tab .swc 6 (16 * n.val + 6) := by
      refine (last.tabs _ (by simp)).trans ((swept.tabs _ (by simp)).trans ?_)
      rw [hu]
      exact ended.tabs _ (by simp)
    rw [tab, count]

end

end

end

end Sys2Proof.Machine
end

section
/-! SUPPORT. LINK_DOWN and LINK_UP (R66, R168-R170, R185, R187, R240). -/

namespace Sys2Proof.Machine

section
variable {s : State} {n : Fin 8}

/-! LINK_DOWN. -/

/-- The registers that the fall of a link writes are apart, and none is of PFC's counters. -/
theorem linkRegs_apart : ethLinkDownCnt n.val ∉ pfcRegs ∧ ethRxCodeCnt n.val ∉ pfcRegs ∧ ethLink n.val ∉ pfcRegs ∧
    [ethLink n.val, ethLinkDownCnt n.val, ethTxAbortCnt n.val, ethRxCodeCnt n.val, glbIntCnt].Nodup := by
  revert n
  decide

/-- ETH_LINK of a port whose link is down (R170). -/
def downWord (lock : Bool) (mode : Nat) (speed : Fin 5) : Word := w32 (2 ^ 29 * b2n (lock && serdesMode mode) + speed.val)

theorem downWord_up (lock : Bool) (mode : Nat) (speed : Fin 5) : bitOf (downWord lock mode speed) 31 = false := by
  rw [downWord]
  cases lock && serdesMode mode <;> revert speed <;> decide

/-- The port once its link has fallen. -/
def fallenPort (e : EthState) : EthState :=
  { e with up := false, paused := 0, pauseQ := Vector.replicate 8 0, pfcPend := 0 }

theorem State.linkFalls_eq (h : s.eth[n].up = true) (lock rx : Bool) : s.linkFalls n lock rx =
    (((s.linkFreed n rx).setEth n (fallenPort (s.linkFreed n rx).eth[n])).setReg (ethLink n.val)
      (downWord lock (s.ethModeOf n) (s.linkFreed n rx).eth[n].speed)).holdoverPort n := by
  unfold State.linkFalls
  exact if_neg (by rw [h]; decide)

theorem State.linkFreed_framed (rx : Bool) :
    Framed [] [ethLinkDownCnt n.val, ethRxCodeCnt n.val] [] (s.portFreed n) (s.linkFreed n rx) := by
  unfold State.linkFreed
  split
  · exact ((Framed.refl _ _ _ _).count (by simp)).count (by simp)
  · exact (Framed.refl _ _ _ _).count (by simp)

theorem State.linkFreed_regsWf (hw : s.storesWf) (rx : Bool) : amWf regReset (s.linkFreed n rx).regs := by
  have wf : amWf regReset (s.portFreed n).regs :=
    State.storesWf_regs (State.storesWf.endTx (State.storesWf.freeWhere hw))
  unfold State.linkFreed
  split
  · exact State.regsWf_count (State.regsWf_count wf _) _
  · exact State.regsWf_count wf _

/-- What the freed port counts as its link falls (R170, R176). -/
theorem State.linkFreed_counts (hw : s.storesWf) (rx : Bool) :
    (s.linkFreed n rx).reg (ethLinkDownCnt n.val) = s.reg (ethLinkDownCnt n.val) + 1 ∧
    (s.linkFreed n rx).reg (ethTxAbortCnt n.val) =
      s.reg (ethTxAbortCnt n.val) + w32 (b2n s.eth[n].tx.isSome + b2n s.eth[n].pre.isSome) ∧
    (s.linkFreed n rx).reg (ethRxCodeCnt n.val) = s.reg (ethRxCodeCnt n.val) + w32 (b2n rx) := by
  obtain ⟨-, abort, others⟩ := State.portFreed_mac hw n
  obtain ⟨downPfc, rxPfc, -, apart⟩ := linkRegs_apart (n := n)
  simp only [List.nodup_cons, List.mem_cons, List.not_mem_nil, or_false, not_or] at apart
  obtain ⟨-, ⟨downAbort, downRx, downInt⟩, ⟨abortRx, abortInt⟩, rxInt, -⟩ := apart
  have wf : amWf regReset (s.portFreed n).regs :=
    State.storesWf_regs (State.storesWf.endTx (State.storesWf.freeWhere hw))
  have down := others _ downPfc downInt downAbort
  have code := others _ rxPfc rxInt (Ne.symm abortRx)
  obtain ⟨u, hu⟩ : ∃ u, u = (s.portFreed n).count (ethLinkDownCnt n.val) := ⟨_, rfl⟩
  have downU : u.reg (ethLinkDownCnt n.val) = s.reg (ethLinkDownCnt n.val) + 1 := by
    rw [hu, ← down]
    exact State.reg_setReg_same _ _ _ wf
  have abortU : u.reg (ethTxAbortCnt n.val) =
      s.reg (ethTxAbortCnt n.val) + w32 (b2n s.eth[n].tx.isSome + b2n s.eth[n].pre.isSome) := by
    rw [hu, ← abort]
    exact State.reg_setReg_other _ _ _ _ (Ne.symm downAbort)
  have codeU : u.reg (ethRxCodeCnt n.val) = s.reg (ethRxCodeCnt n.val) := by
    rw [hu, ← code]
    exact State.reg_setReg_other _ _ _ _ (Ne.symm downRx)
  cases rx with
  | false =>
    rw [State.linkFreed, if_neg Bool.false_ne_true, ← hu]
    exact ⟨downU, abortU, codeU.trans (BitVec.add_zero _).symm⟩
  | true =>
    rw [State.linkFreed, if_pos rfl, ← hu]
    refine ⟨?_, ?_, ?_⟩
    · rw [← downU]
      exact State.reg_setReg_other _ _ _ _ downRx
    · rw [← abortU]
      exact State.reg_setReg_other _ _ _ _ abortRx
    · rw [← codeU]
      exact State.reg_setReg_same _ _ _ (by rw [hu]; exact State.regsWf_count wf _)

/-- The port and its counters once its link has fallen, whatever the queues hold. -/
theorem State.linkFalls_port (hw : s.storesWf) (h : s.eth[n].up = true) (lock rx : Bool) :
    PfcOnly (fallenPort (portEnded s.eth[n] true true)) (s.linkFalls n lock rx).eth[n] ∧
    ∀ a, a ≠ ethLink n.val → (s.linkFalls n lock rx).reg a = (s.linkFreed n rx).reg a := by
  obtain ⟨⟨x, y, port⟩, -, -⟩ := State.portFreed_mac hw n
  rw [State.linkFalls_eq h]
  refine ⟨?_, fun a ha => State.reg_setReg_other ((s.linkFreed n rx).setEth n _) _ _ _ ha⟩
  change PfcOnly _ ((s.linkFreed n rx).setEth n _).eth[n]
  rw [State.setEth_same, (State.linkFreed_framed rx).parts .eth (by decide), port]
  exact ⟨x, 0, rfl⟩

theorem linkDown_down (hw : s.storesWf) (h : s.eth[n].up = false) (lock rx : Bool) :
    Ends (.linkDown n lock rx) s fun t =>
      t.reg (ethLink n.val) = setBit (s.reg (ethLink n.val)) 29 (lock && serdesMode (s.ethModeOf n)) ∧
      Framed [] [ethLink n.val] [] s t := by
  have falls : s.linkFalls n lock rx = s.setRegBit (ethLink n.val) 29 (lock && serdesMode (s.ethModeOf n)) :=
    if_pos (by rw [h]; rfl)
  refine ends_of_commit (congrArg (commit s) falls) ⟨?_, framed_settle ((Framed.refl _ _ _ s).setReg _ (by simp))⟩
  rw [settle_reg _ _ _ (by simp only [ethLink, glbIntCnt]; omega)]
  exact State.reg_setReg_same _ _ _ (State.storesWf_regs hw)

theorem linkDown_falls (hw : s.storesWf) (h : s.eth[n].up = true) (hs : s.badHead = none) (lock rx : Bool) :
    Ends (.linkDown n lock rx) s fun t =>
      (t.eth[n].up = false ∧ t.eth[n].tx = none ∧ t.eth[n].pre = none ∧ t.eth[n].paused = 0 ∧
        t.eth[n].speed = s.eth[n].speed ∧ t.eth[n].tsq = s.eth[n].tsq) ∧
      bitOf (t.reg (ethLink n.val)) 31 = false ∧
      (t.reg (ethLinkDownCnt n.val) = s.reg (ethLinkDownCnt n.val) + 1 ∧
      t.reg (ethTxAbortCnt n.val) =
        s.reg (ethTxAbortCnt n.val) + w32 (b2n s.eth[n].tx.isSome + b2n s.eth[n].pre.isSome) ∧
      t.reg (ethRxCodeCnt n.val) = s.reg (ethRxCodeCnt n.val) + w32 (b2n rx)) ∧
      t.swc.queues = s.swc.queues.filter (fun q => !atPort n q) ∧
      t.tab .swc 6 (16 * n.val + 6) = s.tab .swc 6 (16 * n.val + 6) +
        w32 (s.swc.queues.filter (fun q => decide (q.lp.val = n.val) && !s.sending q)).length ∧
      (∀ d : Fin 4, t.dom[d] = if s.dom[d].syntEn = true ∧ s.dom[d].syntPort = n then
        { s.dom[d] with holdover := true, clean := false } else s.dom[d]) ∧
      Framed [.eth, .swc, .dom, .free]
        (ethLink n.val :: ethLinkDownCnt n.val :: ethTxAbortCnt n.val :: ethRxCodeCnt n.val :: pfcRegs)
        [tabKey (blkIdx .swc) 6 (16 * n.val + 6)] s t := by
  obtain ⟨-, -, -, apart⟩ := linkRegs_apart (n := n)
  simp only [List.nodup_cons, List.mem_cons, List.not_mem_nil, or_false, not_or] at apart
  obtain ⟨⟨linkDown, linkAbort, linkRx, linkInt⟩, ⟨-, -, downInt⟩, ⟨-, abortInt⟩, rxInt, -⟩ := apart
  obtain ⟨⟨x, y, port⟩, others⟩ := State.linkFalls_port hw h lock rx
  obtain ⟨down, abort, code⟩ := State.linkFreed_counts hw rx (n := n)
  obtain ⟨freed, queues, drops⟩ := State.portFreed_sound hw hs n
  have kept : Framed [.eth, .swc, .dom, .free]
      (ethLink n.val :: ethLinkDownCnt n.val :: ethTxAbortCnt n.val :: ethRxCodeCnt n.val :: pfcRegs)
      [tabKey (blkIdx .swc) 6 (16 * n.val + 6)] s (s.portFreed n) :=
    freed.mono (by simp) (fun r hr => by
      simp only [List.mem_cons] at hr ⊢
      exact hr.elim (fun h => .inr (.inr (.inl h))) fun h => .inr (.inr (.inr (.inr h)))) (by simp)
  have last := State.linkFreed_framed (s := s) (n := n) rx
  have counted := kept.trans (last.mono (ps' := [.eth, .swc, .dom, .free])
    (rs' := ethLink n.val :: ethLinkDownCnt n.val :: ethTxAbortCnt n.val :: ethRxCodeCnt n.val :: pfcRegs)
    (ts' := [tabKey (blkIdx .swc) 6 (16 * n.val + 6)]) (by simp) (by simp) (by simp))
  have dom : (s.linkFreed n rx).dom = s.dom :=
    Eq.trans (last.parts .dom (by decide)) (freed.parts .dom (by decide))
  have falls := State.linkFalls_eq h lock rx
  refine ends_of_commit (u := s.linkFalls n lock rx) rfl ⟨?_, ?_, ⟨?_, ?_, ?_⟩, ?_, ?_, fun d => ?_, framed_settle ?_⟩
  · rw [settle_eth, port]
    exact ⟨rfl, rfl, rfl, rfl, rfl, rfl⟩
  · rw [settle_reg _ _ _ linkInt, falls, ← downWord_up lock (s.ethModeOf n) (s.linkFreed n rx).eth[n].speed]
    exact congrArg (bitOf · 31) (State.reg_setReg_same ((s.linkFreed n rx).setEth n _) _ _ (State.linkFreed_regsWf hw rx))
  · rw [settle_reg _ _ _ downInt, others _ (Ne.symm linkDown), down]
  · rw [settle_reg _ _ _ abortInt, others _ (Ne.symm linkAbort), abort]
  · rw [settle_reg _ _ _ rxInt, others _ (Ne.symm linkRx), code]
  · rw [settle_swc, ← queues, ← last.parts .swc (by decide), falls]
    rfl
  · rw [settle_tab, ← drops, falls]
    exact last.tabs _ (by simp)
  · rw [settle_dom, falls, ← dom]
    refine (Vector.getElem_map _ d.isLt).trans ?_
    simp only [Bool.and_eq_true, decide_eq_true_eq]
    rfl
  · rw [falls]
    exact ((counted.setEth (by simp) n _).setReg _ (by simp)).update (q := .dom) (by simp)
      (fun p hp => by cases p <;> simp_all [Part.same, State.holdoverPort]) rfl rfl rfl

/-! LINK_UP. -/

/-- The priorities that send XOFF as a link comes up (R185, R187). -/
def State.hotPriorities (s : State) (n : Fin 8) : BitVec 8 :=
  bitsFrom 8 fun p => s.pfcTxEn n p && !s.pfcBadOf n p && !s.ringHolds n.val &&
    decide (fieldOf (s.reg (ethPfcXoff n.val p)) 0 19 ≤ s.pfcUse n p)

/-- A port as its link comes up at a speed. -/
def risenPort (e : EthState) (speed : Fin 5) (again : BitVec 8) : EthState :=
  { e with up := true, speed := speed, hdRefused := false, xoff := e.xoff ||| again, pfcPend := again }

/-- A ring that sees no loss of signal at a port (R240). -/
def losCleared (n : Fin 8) (x : RingState) : RingState := { x with los := setBit x.los n.val false }

/-- ETH_LINK of a port whose link is up. -/
def upWord (an : Bool) (mode : Nat) (speed : Fin 5) : Word :=
  w32 (2 ^ 31 + 2 ^ 30 * b2n an + 2 ^ 29 * b2n (serdesMode mode) + speed.val)

theorem upWord_fields (an : Bool) (mode : Nat) (speed : Fin 5) : bitOf (upWord an mode speed) 31 = true ∧
    fieldOf (upWord an mode speed) 0 3 = speed.val ∧ bitOf (upWord an mode speed) 29 = serdesMode mode := by
  rw [upWord]
  cases serdesMode mode <;> cases an <;> revert speed <;> decide

/-- The state of a port whose link comes up, its pauses not yet sent. -/
def State.risen (s : State) (n : Fin 8) (speed : Fin 5) (w : Word) (ver : Bool) : State :=
  let s3 := (s.setEth n (risenPort s.eth[n] speed (s.hotPriorities n))).setReg (ethLink n.val) w
  let s4 := { s3 with ring := s3.ring.map (losCleared n) }
  s4.setGate n { s4.swc.gates[n] with verified := ver }

/-- A port may come up: enabled, with a mode, neither gated nor fenced (R168, R193). -/
abbrev State.mayRise (s : State) (n : Fin 8) : Prop :=
  s.en (.eth n) = true ∧ s.ethModeOf n ≠ 0 ∧ s.portGated n.val = false ∧ s.fenced (10 + n.val) = false

theorem Framed.setRings {ps : List Part} {rs ts : List Nat} {t : State} (h : Framed ps rs ts s t) (hq : .ring ∈ ps)
    (x : Vector RingState 2) : Framed ps rs ts s { t with ring := x } :=
  h.update hq (fun p hp => by cases p <;> simp_all [Part.same]) rfl rfl rfl

section
variable {sp : Fin 5} {ver : Bool}

theorem linkUp_idle (h : s.en (.eth n) = false ∨ s.ethModeOf n = 0 ∨ s.portGated n.val = true ∨
    s.fenced (10 + n.val) = true) : Idle (.linkUp n sp ver) s := by
  refine idle_of_commit (u := doLinkUp n sp ver s) rfl (if_pos ?_)
  rw [Bool.or_eq_true, Bool.or_eq_true, Bool.or_eq_true, Bool.not_eq_true', decide_eq_true_eq, or_assoc, or_assoc]
  exact h

theorem doLinkUp_eq (h : s.mayRise n) : doLinkUp n sp ver s =
    if s.eth[n].up && s.eth[n].speed = s.speedFor n sp then { s with ring := s.ring.map (losCleared n) }
    else ((if s.eth[n].up then s.linkFalls n true false else s).risen n (s.speedFor n sp)
      (upWord (s.anRuns n) (s.ethModeOf n) (s.speedFor n sp)) ver).pfcFlush n := by
  obtain ⟨en, mode, gate, fence⟩ := h
  refine if_neg ?_
  rw [Bool.or_eq_true, Bool.or_eq_true, Bool.or_eq_true, en, gate, fence, decide_eq_true_eq]
  simp [mode]

theorem losCleared_map (s : State) (n : Fin 8) (k : Fin 2) :
    (s.ring.map (losCleared n))[k] = { s.ring[k] with los := setBit s.ring[k].los n.val false } :=
  Vector.getElem_map _ k.isLt

theorem linkUp_stays (h : s.mayRise n) (hup : s.eth[n].up = true) (hsp : s.eth[n].speed = s.speedFor n sp) :
    Ends (.linkUp n sp ver) s fun t =>
      (∀ k : Fin 2, t.ring[k] = { s.ring[k] with los := setBit s.ring[k].los n.val false }) ∧ Framed [.ring] [] [] s t := by
  refine ends_of_commit (congrArg (commit s) ((doLinkUp_eq h).trans (if_pos ?_))) ⟨fun k => ?_, framed_settle ?_⟩
  · rw [hup, hsp, decide_eq_true rfl]
    rfl
  · rw [settle_ring]
    exact losCleared_map s n k
  · exact (Framed.refl _ _ _ s).setRings (by simp) _

theorem State.risen_framed (u : State) (v : Fin 5) (w : Word) :
    Framed [.eth, .swc, .ring] [ethLink n.val] [] u (u.risen n v w ver) :=
  ((((Framed.refl _ _ _ u).setEth (by simp) n _).setReg w (by simp)).setRings (by simp) _).setSwc (by simp) _

theorem State.risen_eth (u : State) (v : Fin 5) (w : Word) :
    (u.risen n v w ver).eth = vset u.eth n (risenPort u.eth[n] v (u.hotPriorities n)) := rfl

/-- A change of speed takes the link down and up again (R168). -/
theorem linkUp_changes (hw : s.storesWf) (h : s.mayRise n) (hup : s.eth[n].up = true)
    (hsp : s.eth[n].speed ≠ s.speedFor n sp) : Ends (.linkUp n sp ver) s fun t =>
      t.eth[n].up = true ∧ t.eth[n].speed = s.speedFor n sp ∧
        t.reg (ethLinkDownCnt n.val) = s.reg (ethLinkDownCnt n.val) + 1 := by
  obtain ⟨downPfc, -, -, apart⟩ := linkRegs_apart (n := n)
  simp only [List.nodup_cons, List.mem_cons, List.not_mem_nil, or_false, not_or] at apart
  obtain ⟨⟨linkDown, -⟩, ⟨-, -, downInt⟩, -⟩ := apart
  obtain ⟨-, others⟩ := State.linkFalls_port hw hup true false
  obtain ⟨down, -⟩ := State.linkFreed_counts hw false (n := n)
  obtain ⟨u, hu⟩ : ∃ u, u = s.linkFalls n true false := ⟨_, rfl⟩
  obtain ⟨r, hr⟩ : ∃ r, r = u.risen n (s.speedFor n sp) (upWord (s.anRuns n) (s.ethModeOf n) (s.speedFor n sp)) ver :=
    ⟨_, rfl⟩
  have rises : doLinkUp n sp ver s = r.pfcFlush n := by
    rw [doLinkUp_eq h, hr, hu, hup]
    exact if_neg (by rw [Bool.true_and, decide_eq_true_eq]; exact hsp)
  obtain ⟨x, y, port⟩ := r.pfcFlush_pfcOnly n n
  have risenAt : r.eth[n] = risenPort u.eth[n] (s.speedFor n sp) (u.hotPriorities n) := by
    rw [hr, State.risen_eth, getElem_vset_same]
  refine ends_of_commit (congrArg (commit s) rises) ⟨?_, ?_, ?_⟩
  · rw [settle_eth, port, risenAt]
    rfl
  · rw [settle_eth, port, risenAt]
    rfl
  · rw [settle_reg _ _ _ downInt, (r.pfcFlush_framed n).regs _ downPfc downInt, hr,
      (u.risen_framed _ _).regs _ (by simp) downInt, hu, others _ (Ne.symm linkDown), down]

section
variable (hw : s.storesWf) (h : s.mayRise n) (hup : s.eth[n].up = false) (htx : s.eth[n].tx = none)
include hw h hup htx

omit hw h hup htx in
/-- The registers of ETH_LINK and of PFC frames are not GLB_INT_CNT, and a PFC frame does not count in ETH_LINK. -/
theorem pauseRegs : ethLink n.val ≠ glbIntCnt ∧ ethLink n.val ∉ pauseCounts n ∧ ethTxPfcCnt n.val ≠ glbIntCnt ∧
    ethMacAddrHi n.val ≠ glbIntCnt ∧ ethMacAddrLo n.val ≠ glbIntCnt ∧ ethPfcTime n.val ≠ glbIntCnt := by
  revert n
  decide

/-- A link that was down comes up: XOFF goes first, in one PFC frame (R168, R185). -/
theorem linkUp_rises : Ends (.linkUp n sp ver) s fun t =>
    t.eth = vset s.eth n { risenPort s.eth[n] (s.speedFor n sp) (s.hotPriorities n) with pfcPend := 0 } ∧
    t.reg (ethLink n.val) = upWord (s.anRuns n) (s.ethModeOf n) (s.speedFor n sp) ∧
    t.swc = { s.swc with gates := vset s.swc.gates n { s.swc.gates[n] with verified := ver } } ∧
    (∀ k : Fin 2, t.ring[k] = { s.ring[k] with los := setBit s.ring[k].los n.val false }) ∧
    (s.hotPriorities n = 0 → Framed [.eth, .swc, .ring] [ethLink n.val] [] s t) ∧
    (s.hotPriorities n ≠ 0 → PauseSent s n (s.hotPriorities n) (s.eth[n].xoff ||| s.hotPriorities n) t ∧
      t.reg (ethTxPfcCnt n.val) = s.reg (ethTxPfcCnt n.val) + 1) ∧
    Framed [.eth, .swc, .ring] (ethLink n.val :: pauseCounts n) [] s t := by
  obtain ⟨r, hr⟩ : ∃ r, r = s.risen n (s.speedFor n sp) (upWord (s.anRuns n) (s.ethModeOf n) (s.speedFor n sp)) ver :=
    ⟨_, rfl⟩
  have rises : exec (.linkUp n sp ver) s = commit s (r.pfcFlush n) := by
    refine congrArg (commit s) ?_
    rw [doLinkUp_eq h, hr, hup]
    rfl
  have port : r.eth[n] = risenPort s.eth[n] (s.speedFor n sp) (s.hotPriorities n) := by
    rw [hr, State.risen_eth, getElem_vset_same]
  have framed : Framed [.eth, .swc, .ring] [ethLink n.val] [] s r := hr ▸ s.risen_framed _ _
  obtain ⟨linkInt, linkCounts, pfcInt, hiInt, loInt, timeInt⟩ := pauseRegs (n := n)
  have link : r.reg (ethLink n.val) = upWord (s.anRuns n) (s.ethModeOf n) (s.speedFor n sp) := by
    rw [hr]
    exact State.reg_setReg_same (s.setEth n _) _ _ (State.storesWf_regs hw)
  have rings (k : Fin 2) : r.ring[k] = { s.ring[k] with los := setBit s.ring[k].los n.val false } := by
    rw [hr]
    exact losCleared_map s n k
  have swc : r.swc = { s.swc with gates := vset s.swc.gates n { s.swc.gates[n] with verified := ver } } := by
    rw [hr]
    rfl
  have eth : r.eth = vset s.eth n (risenPort s.eth[n] (s.speedFor n sp) (s.hotPriorities n)) := by rw [hr, State.risen_eth]
  by_cases hot : s.hotPriorities n = 0
  · rw [State.pfcFlush_idle (.inl (by rw [port]; exact hot))] at rises
    refine ends_of_commit rises ⟨?_, ?_, ?_, fun k => ?_, fun _ => framed_settle framed, fun h => absurd hot h,
      framed_settle (framed.mono (by simp) (by simp) (by simp))⟩
    · rw [settle_eth, eth, hot]
      rfl
    · rw [settle_reg _ _ _ linkInt, link]
    · rw [settle_swc, swc]
    · rw [settle_ring, rings k]
  · rw [State.pfcFlush_sends (by rw [port]; exact hot) (by rw [port]; exact htx) (by rw [port]; rfl)] at rises
    have sent : Framed [.eth] (pauseCounts n) [] r (r.pauseSent n) :=
      State.pauseSent_framed (Framed.refl _ _ _ r) (by simp) fun _ ha => ha
    have paused := State.pauseSent_sends (s := s) (u := r) (n := n)
      (xoff := s.eth[n].xoff ||| s.hotPriorities n) (by rw [hr]; rfl) ?_ ?_ (by rw [port]; rfl)
    · rw [port] at paused
      refine ends_of_commit rises ⟨?_, ?_, ?_, fun k => ?_, fun h => absurd h hot, fun _ => ⟨paused, ?_⟩, framed_settle
        ((framed.mono (by simp) (by simp) (by simp)).trans (sent.mono (by simp) (fun a ha => List.mem_cons_of_mem _ ha)
          (by simp)))⟩
      · rw [settle_eth, State.pauseSent, State.setEth_eth, State.count_eth, State.sendFrame_eth, port, eth, vset_vset]
      · rw [settle_reg _ _ _ linkInt, sent.regs _ linkCounts linkInt, link]
      · rw [settle_swc, sent.parts .swc (by decide), swc]
      · rw [settle_ring, sent.parts .ring (by decide), rings k]
      · rw [settle_reg _ _ _ pfcInt, State.pauseSent_counts, framed.regs _ (by simp) pfcInt]
        rw [hr]
        exact State.regsWf_setReg (s := s.setEth n _) (State.storesWf_regs hw) _
    · rw [State.portAddr, State.portAddr, framed.regs _ (by simp) hiInt,
        framed.regs _ (by simp) loInt]
    · exact framed.regs _ (by simp) timeInt

end

/-- The speed in force, mode by mode (R168). -/
theorem State.speedFor_eq (h0 : 0 < s.ethModeOf n) (h7 : s.ethModeOf n < 7) : s.speedFor n sp =
    if bitOf (s.reg (ethMode n.val)) 8 = true ∧ (s.ethModeOf n = 1 ∨ s.ethModeOf n = 6) then sp
    else if s.ethModeOf n = 2 then 2 else if s.ethModeOf n = 3 then 3 else if s.ethModeOf n = 5 then 4
    else Fin.ofNat 5 (fieldOf (s.reg (ethMode n.val)) 4 3) := by
  have field : fieldOf (s.reg (ethMode n.val)) 0 4 = s.ethModeOf n := rfl
  unfold State.speedFor
  dsimp only
  rw [field]
  generalize s.ethModeOf n = mode at h0 h7 ⊢
  interval_cases mode <;> simp

end

end

/-- Settles O38: each command of a port by what it makes of the port, PFC frames byte by byte, and the fall of a link by
the places it frees, none of which gives another queue a lost head. -/
theorem linksPauseFramesAndMdio : Obligations.LinksPauseFramesAndMdio := by
  unfold Obligations.LinksPauseFramesAndMdio
  intro s m n i sp p ver lock rx v data hw
  dsimp only
  refine ⟨linkUp_idle, fun en h0 h7 gate fence up speed => ?_, fun en h0 h7 gate fence => ⟨fun up tx => ?_, fun up speed => ?_⟩,
    fun up => linkDown_down hw up lock rx, fun up sound => ?_, ⟨halfDuplexNegotiated_marks, halfDuplexNegotiated_idle⟩,
    ⟨pfcRefresh_onRing, pfcRefresh_idle, pfcRefresh_waits, fun ring tx up pend => pfcRefresh_sends ring hw tx up pend⟩,
    ends_of_setEth rfl,
    fun ho => ⟨mdioGo_stores ho hw, mdioGo_waits ho hw, mdioGo_starts ho hw, mdioGo_counts ho hw⟩, mdioDone_idle,
    fun busy => ⟨mdioDone_rests busy hw, mdioDone_starts busy hw⟩⟩
  · rw [← State.speedFor_eq h0 h7] at speed
    exact linkUp_stays ⟨en, Nat.ne_of_gt h0, gate, fence⟩ up speed
  · obtain ⟨t, ht, eth, link, swc, rings, quiet, paused, framed⟩ :=
      linkUp_rises (sp := sp) (ver := ver) hw ⟨en, Nat.ne_of_gt h0, gate, fence⟩ up tx
    obtain ⟨bit, field, serdes⟩ := upWord_fields (s.anRuns n) (s.ethModeOf n) (s.speedFor n sp)
    rw [← State.speedFor_eq h0 h7]
    exact ⟨t, ht, eth, link ▸ bit, link ▸ field, link ▸ serdes, swc, rings, quiet, paused, framed⟩
  · rw [← State.speedFor_eq h0 h7] at speed ⊢
    exact linkUp_changes hw ⟨en, Nat.ne_of_gt h0, gate, fence⟩ up speed
  · obtain ⟨t, ht, ⟨hup, htx, hpre, hpaused, hspeed, htsq⟩, link, ⟨down, abort, code⟩, rest⟩ :=
      linkDown_falls hw up sound lock rx
    exact ⟨t, ht, hup, htx, hpre, hpaused, hspeed, htsq, link, down, abort, code, rest⟩

end Sys2Proof.Machine
end

section
/-! SUPPORT. A frame boundary of a MAC (R193, R209, R210): what a port that rests does, which queue is next, and what the
departure of a frame adds to what the device sends. -/

namespace Sys2Proof.Machine

/-! The boundary. -/

section
variable {s u v : State} {n : Fin 8} {ph : Fin 16}

/-- A port whose MAC works and is not held by a ring. -/
abbrev State.sendsOn (s : State) (n : Fin 8) : Prop :=
  s.eth[n].up = true ∧ s.portGated n.val = false ∧ s.fenced (10 + n.val) = false ∧ s.ringHolds n.val = false

theorem State.macRuns_iff : s.macRuns n = true ↔ s.sendsOn n := by
  simp [State.macRuns, State.portRuns, and_assoc]

/-- What follows the end of a frame at a port (R185, R193, R209): PFC first, then the next frame, or rest. -/
def State.next (u : State) (n : Fin 8) (ph : Fin 16) : State :=
  if u.eth[n].tx.isSome then u else ((u.pfcFlush n).startNext (u.sendsLeft + 1) n ph).restPort n

/-- Whether the MAC is held or an express frame may start (R213). -/
def State.yields (s : State) (n : Fin 8) : Bool :=
  s.swc.gates[n].holdMac || (List.range 8).any (fun q => !s.preemptable n q && s.eligible n q)

theorem transmit_idle (h : ¬ s.sendsOn n) (pre : Bool) : Idle (.frameTransmit n ph pre) s := by
  refine idle_of_commit (u := doFrameTransmit n ph pre s) rfl (if_pos ?_)
  rw [Bool.eq_false_iff.2 (mt State.macRuns_iff.1 h)]
  rfl

section
variable (h : s.sendsOn n)
include h

theorem exec_transmit_boundary : exec (.frameTransmit n ph false) s = commit s ((s.finishTx n).next n ph) :=
  congrArg (commit s) (if_neg (by rw [State.macRuns_iff.2 h]; decide))

theorem exec_transmit_inside : exec (.frameTransmit n ph true) s =
    commit s ((if s.yields n then s.preemptNow n else s).next n ph) :=
  congrArg (commit s) (if_neg (by rw [State.macRuns_iff.2 h]; decide))

end

theorem State.next_busy (h : u.eth[n].tx.isSome = true) : u.next n ph = u := if_pos h

theorem State.next_free (h : u.eth[n].tx = none) (hp : u.eth[n].pfcPend = 0) :
    u.next n ph = (u.startNext (u.sendsLeft + 1) n ph).restPort n := by
  rw [State.next, h, State.pfcFlush_idle (.inl hp)]
  exact if_neg Bool.false_ne_true

theorem State.restPort_enabled (h : u.en (.eth n) = true) : u.restPort n = u := by
  refine if_neg ?_
  rw [h]
  simp

/-! Which frame is next. -/

theorem State.nextQueue_none (h : ∀ q < 8, u.eligible n q = false) : u.nextQueue n = none := by
  refine List.find?_eq_none.2 fun q hq => ?_
  rw [h q (by simp at hq; omega)]
  decide

/-- The highest eligible queue is the next. -/
theorem State.nextQueue_some {q : Nat} (hq : q < 8) (h : u.eligible n q = true)
    (above : ∀ p, q < p → p < 8 → u.eligible n p = false) : u.nextQueue n = some q := by
  have splits : ∀ q < 8, [7, 6, 5, 4, 3, 2, 1, 0] =
      (List.range (7 - q)).map (7 - ·) ++ q :: (List.range q).map (q - 1 - ·) := by decide
  have lower (l r : List Nat) (hl : [7, 6, 5, 4, 3, 2, 1, 0] = l ++ q :: r) (hp : ∀ p ∈ l, q < p ∧ p < 8) :
      u.nextQueue n = some q := by
    refine List.find?_eq_some_iff_append.2 ⟨h, l, r, hl, fun p mem => ?_⟩
    rw [above p (hp p mem).1 (hp p mem).2]
    rfl
  refine lower ((List.range (7 - q)).map (7 - ·)) ((List.range q).map (q - 1 - ·)) (splits q hq) fun p hp => ?_
  simp only [List.mem_map, List.mem_range] at hp
  obtain ⟨k, hk, rfl⟩ := hp
  omega

theorem State.eligible_of_empty (h : ∀ p ∈ u.swc.queues, p.lp.val ≠ n.val) (q : Nat) : u.eligible n q = false := by
  have head : u.headOf n.val q = none := List.find?_eq_none.2 fun p hp => by simp [h p hp]
  rw [State.eligible, head]

/-- With no queue eligible and no frame preempted nothing starts. -/
theorem State.startNext_rests (h : ∀ q < 8, u.eligible n q = false) (hpre : u.eth[n].pre = none) (fuel : Nat) :
    u.startNext fuel n ph = u := by
  cases fuel with
  | zero => rfl
  | succ fuel => rw [State.startNext, State.nextQueue_none h, hpre]

theorem State.startNext_held (h : ∀ q < 8, u.eligible n q = false) (hh : u.swc.gates[n].holdMac = true) (fuel : Nat) :
    u.startNext fuel n ph = u := by
  cases fuel with
  | zero => rfl
  | succ fuel =>
    rw [State.startNext, State.nextQueue_none h]
    split
    · contradiction
    · split
      · exact if_pos hh
      · rfl

/-- With no queue eligible a preempted frame goes on (R213). -/
theorem State.startNext_resumes {x : TxNow} (h : ∀ q < 8, u.eligible n q = false) (hpre : u.eth[n].pre = some x)
    (hh : u.swc.gates[n].holdMac = false) (fuel : Nat) :
    u.startNext (fuel + 1) n ph = u.setEth n { u.eth[n] with tx := some x, pre := none } := by
  rw [State.startNext, State.nextQueue_none h, hpre]
  exact if_neg (by rw [hh]; decide)

section
variable {q : Nat} {h : QEntry} {st : Stored} (hq : u.nextQueue n = some q) (hh : u.headOf n.val q = some h)
  (hs : u.storedOf h.fid = some st) (hv : u.startFrame n ph h st = v)
include hq hh hs hv

theorem State.startNext_starts (ht : v.eth[n].tx.isSome = true) (fuel : Nat) : u.startNext (fuel + 1) n ph = v := by
  rw [State.startNext, hq]
  simp only [hh, hs, hv]
  exact if_pos ht

theorem State.startNext_retries (ht : v.eth[n].tx = none) (fuel : Nat) :
    u.startNext (fuel + 1) n ph = v.startNext fuel n ph := by
  rw [State.startNext, hq]
  simp only [hh, hs, hv, ht]
  exact if_neg Bool.false_ne_true

end

/-- Without gates, preemption or hold a head may start unless its class is paused (R184, R209). -/
theorem State.eligible_ungated {q : Nat} {h : QEntry} {st : Stored} (hg : s.gateEn n.val = false)
    (hp : bitOf (s.reg (swcPPmacCfg n.val)) 0 = false) (hold : s.inHold (.eth n) = false) (hq : q < 8)
    (hh : s.headOf n.val q = some h) (hs : s.storedOf h.fid = some st) :
    s.eligible n q = !(s.eth[n].paused.getLsbD q && decide (st.cls = .data)) := by
  have tc : h.tc.val = q := by
    have := List.find?_some hh
    simp only [Bool.and_eq_true, decide_eq_true_eq] at this
    exact this.2
  have open8 : (s.gates8 n).testBit q = true := by
    have all : ∀ q < 8, (255).testBit q = true := by decide
    rw [State.gates8, hg]
    exact all q hq
  have inactive : s.pmacActive n = false := by
    rw [State.pmacActive, hp]
    rfl
  have holds (ps : Nat) : s.gateHolds n q ps = true := by
    rw [State.gateHolds, hg]
    rfl
  have pauses : s.pauses n h = (s.eth[n].paused.getLsbD q && decide (st.cls = .data)) := by
    rw [State.pauses, hs, tc]
  simp [State.eligible, hh, inactive, open8, holds, hold, pauses]

/-- The gate of a queue that may start is open (R212). -/
theorem State.gate_of_eligible {q : Nat} (h : s.eligible n q = true) : (s.gates8 n).testBit q = true := by
  unfold State.eligible at h
  split at h
  · cases h
  · simp only [Bool.and_eq_true] at h
    obtain ⟨⟨⟨⟨-, opened⟩, -⟩, -⟩, -⟩ := h
    exact opened

end

/-! What the departure of a frame leaves standing. -/

/-- What is sent goes on from before, and the registers but for some are as before. -/
structure Emits (rs : List Nat) (s t : State) : Prop where
  out : s.out <+: t.out
  regs : ∀ a, a ∉ rs → t.reg a = s.reg a

/-- The registers that the start of a port's next frame may write (R74, R182, R185, R191, R206, R210). -/
def startRegs (n : Fin 8) : List Nat :=
  swcWinLateCnt :: ethTsqDropCnt n.val :: ethMsecTxExhCnt n.val :: swcCtCnt :: ethTsoSkipCnt n.val :: pfcRegs

theorem Emits.refl (rs : List Nat) (s : State) : Emits rs s s := ⟨List.prefix_refl _, fun _ _ => rfl⟩

section
variable {rs : List Nat} {s t u : State} (h : Emits rs s t)
include h

theorem Emits.trans (h' : Emits rs t u) : Emits rs s u :=
  ⟨h.out.trans h'.out, fun a ha => (h'.regs a ha).trans (h.regs a ha)⟩

theorem Emits.setReg {a : Nat} {v : Word} (ha : a ∈ rs) : Emits rs s (t.setReg a v) :=
  h.trans ⟨List.prefix_refl _, fun b hb => State.reg_setReg_other t a b v fun e => hb (e ▸ ha)⟩

theorem Emits.count {a : Nat} (ha : a ∈ rs) : Emits rs s (t.count a) := h.setReg ha

theorem Emits.emit {o : Output} : Emits rs s (t.emit o) := h.trans ⟨List.prefix_append _ _, fun _ _ => rfl⟩

/-- An update of parts other than the registers and the record. -/
theorem Emits.update (hr : u.regs = t.regs) (ho : u.out = t.out) : Emits rs s u :=
  h.trans ⟨ho ▸ List.prefix_refl _, fun _ _ => State.reg_of_regs_eq hr⟩

theorem Emits.setEth {k : Fin 8} {x : EthState} : Emits rs s (t.setEth k x) := h.update rfl rfl

theorem Emits.setSwc {x : SwcState} : Emits rs s (t.setSwc x) := h.update rfl rfl

theorem Emits.setTab {b : Blk} {sp w : Nat} {v : Word} : Emits rs s (t.setTab b sp w v) := h.update rfl rfl

theorem Emits.dropAt {lp reason : Nat} : Emits rs s (t.dropAt lp reason) := h.setTab

theorem Emits.unqueue {p : QEntry → Bool} : Emits rs s (t.unqueue p) := h.setSwc

theorem Emits.freeBad {fuel : Nat} : Emits rs s (t.freeBad fuel) := by
  induction fuel generalizing t with
  | zero => exact h
  | succ fuel ih =>
    unfold State.freeBad
    split
    · exact ih h.dropAt.unqueue
    · exact h

theorem Emits.ite {c : Prop} [Decidable c] (hu : Emits rs s u) : Emits rs s (if c then t else u) := by
  split
  exacts [h, hu]

/-- The second part of a choice of pairs. -/
theorem Emits.iteSnd {α : Type} {c : Prop} [Decidable c] {x y : α × State} (hx : x.2 = t) (hy : Emits rs s y.2) :
    Emits rs s (if c then x else y).2 := by
  subst hx
  split
  exacts [h, hy]

theorem Emits.foldl {α : Type} {f : State → α → State} (l : List α) (hf : ∀ t x, Emits rs s t → Emits rs s (f t x)) :
    Emits rs s (l.foldl f t) :=
  List.foldlRecOn (motive := Emits rs s) _ _ h fun t ht x _ => hf t x ht

end

section
variable {s t : State} {n : Fin 8} (h : Emits (startRegs n) s t)

theorem pfcRegs_subset_startRegs : ∀ a ∈ pfcRegs, a ∈ startRegs n := fun a ha => by
  simp only [startRegs, List.mem_cons]
  exact .inr (.inr (.inr (.inr (.inr ha))))

include h

theorem Emits.sendFrame {k : Fin 8} {bs : List Byte} : Emits (startRegs n) s (t.sendFrame k bs) := by
  have counts (a : Nat) (ha : a ∈ pfcRegs) : a ∈ startRegs n := pfcRegs_subset_startRegs a ha
  obtain ⟨-, f, f4, b, b4⟩ := ethTx_mem_pfcRegs k
  exact (((h.emit.setReg (counts _ f)).setReg (counts _ f4)).setReg (counts _ b)).setReg (counts _ b4)

theorem Emits.pfcFlush {k : Fin 8} : Emits (startRegs n) s (t.pfcFlush k) := by
  unfold State.pfcFlush
  dsimp only
  split
  · exact h
  · exact (h.sendFrame.count (pfcRegs_subset_startRegs _ (ethTx_mem_pfcRegs k).1)).setEth

theorem Emits.pfcEval {k : Fin 8} : Emits (startRegs n) s (t.pfcEval k) := h.setEth.pfcFlush

theorem Emits.pfcEvalAll : Emits (startRegs n) s t.pfcEvalAll := h.foldl _ fun _ _ ht => ht.pfcEval

theorem Emits.sweep : Emits (startRegs n) s t.sweep := h.freeBad.setSwc.pfcEvalAll

theorem Emits.dequeue {lp : Fin 22} {fid : Nat} : Emits (startRegs n) s (t.dequeue lp fid) := h.unqueue.sweep

theorem Emits.leaveQueue {lp : Fin 22} {fid : Nat} {last : Bool} : Emits (startRegs n) s (t.leaveQueue lp fid last) :=
  h.dequeue.ite h.setSwc

theorem Emits.tsqPush {tag : BitVec 16} {x : Stamp} : Emits (startRegs n) s (t.tsqPush n tag x) :=
  h.setEth.ite (h.count (by simp [startRegs]))

theorem Emits.fwuPlace {r : Fin 10} {k : Fin 256} {bs : List Byte} : Emits (startRegs n) s (t.fwuPlace r k bs).2 := by
  unfold State.fwuPlace
  split
  · exact h
  · refine List.foldlRecOn (motive := fun p : List Byte × State => Emits (startRegs n) s p.2) _ _ h fun p hp q _ => ?_
    split
    · split
      exacts [hp, hp]
    · exact hp.count (by simp [startRegs])

theorem Emits.cutFrame {q : QEntry} {st : Stored} : Emits (startRegs n) s (t.cutFrame n q st).2 := by
  unfold State.cutFrame State.placeWindows
  dsimp only
  split
  exacts [h.fwuPlace, h]

theorem Emits.applyStamp {ph : Fin 16} {st : Stored} {off : Nat} {bs : List Byte} :
    Emits (startRegs n) s (t.applyStamp n ph st off bs).2 := by
  unfold State.applyStamp
  extract_lets +onlyGivenNames _ _
  split
  · exact h
  · split
    · exact h
    · exact h.tsqPush
    · exact h.iteSnd rfl h.tsqPush
    · split
      exacts [h.iteSnd rfl h.tsqPush, h.tsqPush]

theorem Emits.msecProtect {bs : List Byte} : Emits (startRegs n) s (t.msecProtect n bs).2 :=
  h.iteSnd rfl ((h.count (by simp [startRegs])).iteSnd rfl (h.setTab.setTab.iteSnd rfl h.setTab.setTab))

theorem Emits.startSend {q : QEntry} {g : SegInfo} : Emits (startRegs n) s (t.startSend n q g).2 :=
  (h.setSwc.count (by simp [startRegs])).ite h.setSwc

theorem Emits.startFrame {ph : Fin 16} {q : QEntry} {st : Stored} :
    Emits (startRegs n) s (t.startFrame n ph q st) := by
  unfold State.startFrame
  split
  · exact h.dropAt.dequeue
  · extract_lets +onlyGivenNames r _ a _ s1
    have hr : Emits (startRegs n) s r.2 := by
      unfold r
      split
      exacts [h.startSend.iteSnd rfl h, h]
    have ha : Emits (startRegs n) s a.2 := hr.cutFrame.applyStamp
    have hs1 : Emits (startRegs n) s s1 := (ha.msecProtect.count (by simp [startRegs])).ite ha.msecProtect
    split
    exacts [hs1.leaveQueue, hs1.setEth]

theorem Emits.startNext {k : Nat} {ph : Fin 16} : Emits (startRegs n) s (t.startNext k n ph) := by
  induction k generalizing t with
  | zero => exact h
  | succ k ih =>
    unfold State.startNext
    split
    · split
      · exact h
      · split
        exacts [h, h.startFrame.ite (ih h.startFrame)]
    · split
      exacts [h.ite h.setEth, h]

end

/-- Neither EN of a port nor its count of preempted frames is among the registers of a start. -/
theorem startRegs_apart (n : Fin 8) : blkBase (.eth n) ∉ startRegs n ∧ swcPPreemptCnt n.val ∉ startRegs n := by
  revert n
  decide

/-- While its port is enabled, what follows a boundary only starts frames. -/
theorem State.next_emits {u : State} {n : Fin 8} (h : u.en (.eth n) = true) (ph : Fin 16) :
    Emits (startRegs n) u (u.next n ph) := by
  have started : Emits (startRegs n) u ((u.pfcFlush n).startNext (u.sendsLeft + 1) n ph) :=
    (Emits.refl _ u).pfcFlush.startNext
  have enabled : ((u.pfcFlush n).startNext (u.sendsLeft + 1) n ph).en (.eth n) = true := by
    rw [State.en, started.regs _ (startRegs_apart n).1]
    exact h
  rw [State.next, State.restPort_enabled enabled]
  exact (Emits.refl _ u).ite started

end Sys2Proof.Machine
end

section
/-! SUPPORT. A frame that has left its MAC (R179, R180, R193, R210, Table FLT-5): it is sent and counted, or withheld by
the SHADOW of a pair, and its place is freed. -/

namespace Sys2Proof.Machine

/-! The interrupts of a command send no frame. -/

/-- The indirect spaces stand, and what is sent holds no frame of a port. -/
def FrameFree (s t : State) : Prop := t.tabs = s.tabs ∧ ∃ l, t.out = s.out ++ l ∧ ∀ k bs, Output.frame k bs ∉ l

theorem FrameFree.refl (s : State) : FrameFree s s := ⟨rfl, [], (List.append_nil _).symm, fun _ _ => List.not_mem_nil⟩

theorem FrameFree.trans {s t u : State} (h : FrameFree s t) (h' : FrameFree t u) : FrameFree s u := by
  obtain ⟨tabs, l, out, none⟩ := h
  obtain ⟨tabs', l', out', none'⟩ := h'
  refine ⟨tabs'.trans tabs, l ++ l', by rw [out', out, List.append_assoc], fun k bs mem => ?_⟩
  rcases List.mem_append.1 mem with mem | mem
  exacts [none k bs mem, none' k bs mem]

theorem FrameFree.emit {s t : State} (h : FrameFree s t) {o : Output} (ho : ∀ k bs, Output.frame k bs ≠ o) :
    FrameFree s (t.emit o) :=
  h.trans ⟨rfl, [o], rfl, fun k bs mem => ho k bs (List.mem_singleton.1 mem)⟩

theorem FrameFree.raiseIrq {s t : State} (h : FrameFree s t) (n : Nat) : FrameFree s (t.raiseIrq n) := by
  unfold State.raiseIrq State.msix
  split
  · exact h
  · exact FrameFree.emit (t := t.count glbIntCnt) h fun _ _ => nofun

theorem settle_frameFree (s t : State) : FrameFree t (settle s t) := by
  unfold settle raiseIrqs
  refine List.foldlRecOn (motive := FrameFree t) _ _ ?_ fun u hu n _ => ?_
  · unfold faultPin
    split
    · exact FrameFree.refl t
    · exact (FrameFree.refl t).emit fun _ _ => nofun
  · split
    · exact hu.raiseIrq n
    · exact hu

/-! A 64-bit counter. -/

/-- A 64-bit counter, its low word first. -/
def State.wide (s : State) (a : Nat) : Nat := (s.reg a).toNat + 2 ^ 32 * (s.reg (a + 4)).toNat

theorem State.wide_count64_same {s : State} (hw : amWf regReset s.regs) (a k : Nat) :
    (s.count64 a k).wide a = (s.wide a + k) % 2 ^ 64 := by
  have low (v v' : Word) : ((s.setReg a v).setReg (a + 4) v').reg a = v := by
    rw [State.reg_setReg_other _ _ _ _ (by omega), State.reg_setReg_same _ _ _ hw]
  have high (v v' : Word) : ((s.setReg a v).setReg (a + 4) v').reg (a + 4) = v' :=
    State.reg_setReg_same _ _ _ (State.regsWf_setReg hw _)
  rw [State.wide, State.count64, low, high, State.wide, w32, w32, BitVec.toNat_ofNat, BitVec.toNat_ofNat]
  omega

theorem State.wide_count64_other (s : State) {a b k : Nat} (h1 : b ≠ a) (h2 : b ≠ a + 4) (h3 : b + 4 ≠ a) :
    (s.count64 a k).wide b = s.wide b := by
  have other (c : Nat) (hc : c ≠ a) (hc' : c ≠ a + 4) : (s.count64 a k).reg c = s.reg c := by
    rw [State.count64, State.reg_setReg_other _ _ _ _ hc', State.reg_setReg_other _ _ _ _ hc]
  rw [State.wide, other b h1 h2, other (b + 4) h3 (by omega), State.wide]

theorem State.wide_congr {s t : State} {a : Nat} (h : t.reg a = s.reg a) (h4 : t.reg (a + 4) = s.reg (a + 4)) :
    t.wide a = s.wide a := by
  rw [State.wide, h, h4, State.wide]

/-! A sweep with PFC off and no frame lost. -/

/-- No port sends pauses, and none has one waiting. -/
def State.pausesOff (s : State) : Prop := ∀ k : Fin 8, s.eth[k].pfcPend = 0 ∧ ∀ p < 8, s.pfcTxEn k p = false

/-- The state with ports and stored frames replaced. -/
def State.withPorts (s : State) (E : Vector EthState 8) (S : List Stored) : State :=
  { s with eth := E, swc := { s.swc with stored := S } }

theorem Framed.withPorts {s t : State} {ps : List Part} {rs ts : List Nat} (h : Framed ps rs ts s t) (he : .eth ∈ ps)
    (hs : .swc ∈ ps) (E : Vector EthState 8) (S : List Stored) : Framed ps rs ts s (t.withPorts E S) :=
  (h.setSwc hs { t.swc with stored := S }).update he (fun p hp => by cases p <;> simp_all [Part.same, State.withPorts])
    rfl rfl rfl

theorem bitsFrom_none {w : Nat} {f : Nat → Bool} (h : ∀ p < w, f p = false) : bitsFrom w f = 0 := by
  refine BitVec.eq_of_getLsbD_eq fun i hi => ?_
  rw [getLsbD_bitsFrom w f i hi, h i hi]
  simp

theorem State.pfcEval_off {s : State} (h : s.pausesOff) (k : Fin 8) : ∃ E, s.pfcEval k = s.withPorts E s.swc.stored ∧
    (s.pfcEval k).pausesOff := by
  obtain ⟨x, hx⟩ : ∃ x : BitVec 8, x = bitsFrom 8 (fun p => s.xoffNow k p) := ⟨_, rfl⟩
  have changes : bitsFrom 8 (fun p => x.getLsbD p ≠ s.eth[k].xoff.getLsbD p && s.pfcTxEn k p &&
      !s.pfcBadOf k p && !s.ringHolds k.val) = 0 :=
    bitsFrom_none fun p hp => by rw [(h k).2 p hp]; simp
  have eq : s.pfcEval k = s.setEth k { s.eth[k] with xoff := x, pfcPend := 0 } := by
    unfold State.pfcEval
    dsimp only
    rw [← hx, changes, (h k).1]
    exact State.pfcFlush_idle (.inl (by rw [State.setEth_same]; rfl))
  rw [eq]
  refine ⟨_, rfl, fun j => ⟨?_, (h j).2⟩⟩
  by_cases hj : j = k
  · rw [hj, State.setEth_same]
  · rw [State.setEth_eth, getElem_vset_other _ _ hj]
    exact (h j).1

theorem State.pfcEvalAll_off {s : State} (h : s.pausesOff) :
    ∃ E, s.pfcEvalAll = s.withPorts E s.swc.stored ∧ s.pfcEvalAll.pausesOff := by
  refine List.foldlRecOn (motive := fun t : State => ∃ E, t = s.withPorts E s.swc.stored ∧ t.pausesOff) _ _
    ⟨s.eth, rfl, h⟩ fun t ⟨E, eq, off⟩ k _ => ?_
  obtain ⟨E', eq', off'⟩ := State.pfcEval_off off (Fin.ofNat 8 k)
  exact ⟨E', eq'.trans (by rw [eq]; rfl), off'⟩

theorem State.badHead_none {s : State} (h : ∀ q ∈ s.swc.queues, s.lostAt q = false) : s.badHead = none := by
  refine List.find?_eq_none.2 fun q hq => ?_
  rw [h q hq]
  simp

theorem State.sweep_off {s : State} (h : s.pausesOff) (hs : s.badHead = none) :
    ∃ E S, s.sweep = s.withPorts E S ∧ s.sweep.pausesOff := by
  unfold State.sweep
  rw [State.freeBad_of_sound hs]
  obtain ⟨E, eq, off⟩ := State.pfcEvalAll_off (s := s.setSwc { s.swc with
    stored := s.swc.stored.filter (fun f => s.swc.queues.any (fun q => q.fid = f.fid)) }) h
  exact ⟨E, _, eq, off⟩

theorem State.lostAt_sound {s : State} (h : ∀ f ∈ s.swc.stored, f.bad = false) (q : QEntry) : s.lostAt q = false := by
  unfold State.lostAt
  split
  · next f hf => exact h f (List.mem_of_find?_eq_some hf)
  · rfl

/-! The frame in transmission has left. -/

section
variable {s : State} {n : Fin 8} {ph : Fin 16} {x : TxNow}

/-- The port with its frame taken off the line, and that frame sent or withheld. -/
def State.departed (s : State) (n : Fin 8) (x : TxNow) : State :=
  if s.shadowPort n && be16At x.bytes 12 ≠ 0x888E then s.setEth n { s.eth[n] with tx := none }
  else (s.setEth n { s.eth[n] with tx := none }).sendFrame n x.bytes

/-- The places of a frame at a port. -/
abbrev placeOf (n : Fin 8) (fid : Nat) (q : QEntry) : Bool := decide (q.lp.val = n.val ∧ q.fid = fid)

theorem dequeue_eq (u : State) (lp : Fin 22) (fid : Nat) (hlp : lp.val = n.val) :
    u.dequeue lp fid = (u.unqueue (placeOf n fid)).sweep := by
  have same : (fun q : QEntry => decide (q.lp = lp) && decide (q.fid = fid)) = placeOf n fid := by
    funext q
    simp [placeOf, Fin.ext_iff, hlp]
  rw [State.dequeue, same]

theorem ofNat22_val (n : Fin 8) : (Fin.ofNat 22 n.val).val = n.val := Nat.mod_eq_of_lt (by omega)

theorem State.finishTx_eq (hx : s.eth[n].tx = some x) :
    s.finishTx n = (s.departed n x).leaveQueue (Fin.ofNat 22 n.val) x.fid x.last := by
  rw [State.finishTx, hx]
  rfl

theorem State.departed_sent (h : s.shadowPort n = false ∨ be16At x.bytes 12 = 0x888E) :
    s.departed n x = (s.setEth n { s.eth[n] with tx := none }).sendFrame n x.bytes := by
  refine if_neg ?_
  rcases h with h | h <;> simp [h]

theorem State.departed_withheld (h : s.shadowPort n = true) (he : be16At x.bytes 12 ≠ 0x888E) :
    s.departed n x = s.setEth n { s.eth[n] with tx := none } := by
  refine if_pos ?_
  simp [h, he]

/-- What a frame sent adds to the registers. -/
theorem State.sendFrame_reg (u : State) (k : Fin 8) (bs : List Byte) {a : Nat}
    (h : a ∉ [ethTxFramesLo k.val, ethTxFramesLo k.val + 4, ethTxBytesLo k.val, ethTxBytesLo k.val + 4]) :
    (u.sendFrame k bs).reg a = u.reg a := by
  simp only [List.mem_cons, List.not_mem_nil, or_false, not_or] at h
  obtain ⟨f, f4, b, b4⟩ := h
  rw [State.sendFrame, State.count64, State.reg_setReg_other _ _ _ _ b4, State.reg_setReg_other _ _ _ _ b, State.count64,
    State.reg_setReg_other _ _ _ _ f4, State.reg_setReg_other _ _ _ _ f]
  rfl

/-- Which registers a frame sent leaves. -/
theorem sendRegs_apart (n : Fin 8) : let sent := [ethTxFramesLo n.val, ethTxFramesLo n.val + 4, ethTxBytesLo n.val,
      ethTxBytesLo n.val + 4]
    blkBase (.eth n) ∉ sent ∧ (∀ k : Fin 8, ethPfcCfg k.val ∉ sent) ∧ ∀ a ∈ sent, a ≠ glbIntCnt := by
  revert n
  decide

theorem State.sendFrame_framed (u : State) (k : Fin 8) (bs : List Byte) : Framed [.swc, .eth] [ethTxFramesLo k.val,
    ethTxFramesLo k.val + 4, ethTxBytesLo k.val, ethTxBytesLo k.val + 4] [] u (u.sendFrame k bs) :=
  (((Framed.refl _ _ _ u).emit _).count64 _ (by simp) (by simp)).count64 _ (by simp) (by simp)

theorem State.sendFrame_wide {u : State} (hw : amWf regReset u.regs) (k : Fin 8) (bs : List Byte) :
    (u.sendFrame k bs).wide (ethTxFramesLo k.val) = (u.wide (ethTxFramesLo k.val) + 1) % 2 ^ 64 ∧
    (u.sendFrame k bs).wide (ethTxBytesLo k.val) = (u.wide (ethTxBytesLo k.val) + frameLen bs) % 2 ^ 64 := by
  obtain ⟨e, he⟩ : ∃ e, e = u.emit (.frame k (bs ++ fcsBytes bs)) := ⟨_, rfl⟩
  have wf : amWf regReset e.regs := by rw [he]; exact hw
  have wide (a : Nat) : e.wide a = u.wide a := by rw [he]; rfl
  have wf' : amWf regReset (e.count64 (ethTxFramesLo k.val) 1).regs :=
    State.regsWf_setReg (State.regsWf_setReg wf _) _
  rw [State.sendFrame, ← he]
  refine ⟨?_, ?_⟩
  · rw [State.wide_count64_other _ (by simp only [ethTxFramesLo, ethTxBytesLo]; omega)
      (by simp only [ethTxFramesLo, ethTxBytesLo]; omega) (by simp only [ethTxFramesLo, ethTxBytesLo]; omega),
      State.wide_count64_same wf, wide]
  · rw [State.wide_count64_same wf', State.wide_count64_other _ (by simp only [ethTxFramesLo, ethTxBytesLo]; omega)
      (by simp only [ethTxFramesLo, ethTxBytesLo]; omega) (by simp only [ethTxFramesLo, ethTxBytesLo]; omega), wide]

/-! A boundary with a frame in transmission. -/

section
variable (hen : s.en (.eth n) = true) (hx : s.eth[n].tx = some x)
include hen hx

/-- The frame with its FCS goes first, whatever follows. -/
theorem transmit_sends (h : s.shadowPort n = false ∨ be16At x.bytes 12 = 0x888E) :
    Sends [.frame n (x.bytes ++ fcsBytes x.bytes)] s (settle s ((s.finishTx n).next n ph)) := by
  obtain ⟨u, hu⟩ : ∃ u, u = s.departed n x := ⟨_, rfl⟩
  have sent : u.out = s.out ++ [.frame n (x.bytes ++ fcsBytes x.bytes)] := by
    rw [hu, State.departed_sent h]
    rfl
  have left : Emits (startRegs n) u (s.finishTx n) := by
    rw [State.finishTx_eq hx, ← hu]
    exact (Emits.refl _ u).leaveQueue
  have enabled : (s.finishTx n).en (.eth n) = true := by
    rw [State.en, left.regs _ (startRegs_apart n).1, hu, State.departed_sent h, State.sendFrame_reg _ _ _
      (sendRegs_apart n).1]
    exact hen
  have next := State.next_emits enabled ph
  refine settle_sends ?_
  rw [Sends, ← sent]
  exact left.out.trans next.out

/-- A frame that is alone at its port, with nothing else to send anywhere. -/
structure Alone (s : State) (n : Fin 8) (x : TxNow) : Prop where
  places : ∀ q ∈ s.swc.queues, q.lp.val = n.val → q.fid = x.fid
  last : x.last = true
  pre : s.eth[n].pre = none
  sound : ∀ f ∈ s.swc.stored, f.bad = false
  pauses : s.pausesOff

omit hen hx in
theorem State.departed_parts (n : Fin 8) (x : TxNow) : (s.departed n x).swc = s.swc ∧ (s.departed n x).tabs = s.tabs ∧
    (s.departed n x).eth = vset s.eth n { s.eth[n] with tx := none } ∧
    ∀ a, a ∉ [ethTxFramesLo n.val, ethTxFramesLo n.val + 4, ethTxBytesLo n.val, ethTxBytesLo n.val + 4] →
      (s.departed n x).reg a = s.reg a := by
  unfold State.departed
  split
  · exact ⟨rfl, rfl, rfl, fun _ _ => rfl⟩
  · exact ⟨rfl, rfl, rfl, fun a ha => State.sendFrame_reg (s.setEth n { s.eth[n] with tx := none }) n x.bytes ha⟩

/-- The frame's place is freed and nothing else starts. -/
theorem transmit_alone (ha : Alone s n x) : ∃ E S, (s.finishTx n).next n ph =
    ((s.departed n x).unqueue (placeOf n x.fid)).withPorts E S ∧ E[n].tx = none := by
  obtain ⟨swc, -, eth, regs⟩ := s.departed_parts n x
  obtain ⟨u, hu⟩ : ∃ u, u = (s.departed n x).unqueue (placeOf n x.fid) := ⟨_, rfl⟩
  have off : u.pausesOff := fun k => by
    refine ⟨?_, fun p hp => ?_⟩
    · rw [hu, State.unqueue, State.setSwc_eth, eth]
      by_cases hk : k = n
      · rw [hk, getElem_vset_same]
        exact (ha.pauses n).1
      · rw [getElem_vset_other _ _ hk]
        exact (ha.pauses k).1
    · rw [State.pfcTxEn, hu]
      exact (congrArg (bitOf · p) (regs _ ((sendRegs_apart n).2.1 k))).trans ((ha.pauses k).2 p hp)
  have sound : u.badHead = none := State.badHead_none fun q _ => State.lostAt_sound (by
    rw [hu, State.unqueue, State.setSwc_swc, swc]
    exact ha.sound) q
  obtain ⟨E, S, eq, rests⟩ := State.sweep_off off sound
  have left : s.finishTx n = u.sweep := by
    rw [State.finishTx_eq hx, ha.last, State.leaveQueue, if_pos rfl, dequeue_eq _ _ _ (ofNat22_val n), hu]
  have tx : u.sweep.eth[n].tx = none := left ▸ State.finishTx_tx
  have none := State.eligible_of_empty (u := u.sweep) (n := n) fun p hp lp => by
    rw [eq, State.withPorts, hu, State.unqueue, State.setSwc_swc, swc] at hp
    obtain ⟨mem, away⟩ := List.mem_filter.1 hp
    simp only [Bool.not_eq_true', decide_eq_false_iff_not, not_and] at away
    exact away lp (ha.places p mem lp)
  have pre : u.sweep.eth[n].pre = .none := by
    obtain ⟨a, b, port⟩ := State.sweep_pfcOnly (s := u) n
    rw [port, hu, State.unqueue, State.setSwc_eth, eth, getElem_vset_same]
    exact ha.pre
  have enabled : u.sweep.en (.eth n) = true := by
    rw [eq, hu]
    exact (congrArg (bitOf · 0) (regs _ (sendRegs_apart n).1)).trans hen
  refine ⟨E, S, ?_, ?_⟩
  · rw [left, State.next_free tx (rests n).1, State.startNext_rests (fun q _ => none q) pre,
      State.restPort_enabled enabled, eq, hu]
  · rw [eq] at tx
    exact tx

end

section
variable (hw : s.storesWf) (hen : s.en (.eth n) = true) (hx : s.eth[n].tx = some x) (ha : Alone s n x)
include hen hx ha

/-- What both ways of leaving have in common. -/
theorem transmit_frees : ∃ u, (s.finishTx n).next n ph = u ∧ u.eth[n].tx = none ∧
    u.swc.queues = s.swc.queues.filter (fun q => !placeOf n x.fid q) ∧ u.tabs = s.tabs ∧
    u.out = (s.departed n x).out ∧ u.regs = (s.departed n x).regs ∧
    ∀ rs, Framed [.swc, .eth] rs [] s (s.departed n x) → Framed [.swc, .eth] rs [] s u := by
  obtain ⟨E, S, eq, tx⟩ := transmit_alone (ph := ph) hen hx ha
  obtain ⟨swc, tabs, -, -⟩ := s.departed_parts n x
  refine ⟨_, eq, tx, ?_, tabs, rfl, rfl, fun rs h => ?_⟩
  · rw [State.withPorts, State.unqueue, State.setSwc_swc, swc]
  · exact (Framed.setSwc h (by simp) _).withPorts (by simp) (by simp) E S

theorem transmit_withheld (hr : s.sendsOn n) (h : s.shadowPort n = true) (he : be16At x.bytes 12 ≠ 0x888E) :
    Ends (.frameTransmit n ph false) s fun t => (t.eth[n].tx = none ∧
      t.swc.queues = s.swc.queues.filter (fun q => !placeOf n x.fid q) ∧ t.tabs = s.tabs) ∧
      (∀ k bs, Output.frame k bs ∉ t.out.drop s.out.length) ∧ Framed [.swc, .eth] [] [] s t := by
  obtain ⟨u, eq, tx, queues, tabs, out, -, framed⟩ := transmit_frees (ph := ph) hen hx ha
  rw [State.departed_withheld h he] at out framed
  obtain ⟨tabs', l, out', none⟩ := settle_frameFree s u
  refine ends_of_commit ((exec_transmit_boundary hr).trans (congrArg _ eq)) ⟨⟨?_, ?_, tabs'.trans tabs⟩, ?_, ?_⟩
  · rw [settle_eth, tx]
  · rw [settle_swc, queues]
  · rw [out', out]
    simpa using none
  · exact framed_settle (framed [] ((Framed.refl _ _ _ s).setEth (by simp) n _))

include hw in
theorem transmit_departs (h : s.shadowPort n = false ∨ be16At x.bytes 12 = 0x888E) :
    let t := settle s ((s.finishTx n).next n ph)
    (t.eth[n].tx = none ∧ t.swc.queues = s.swc.queues.filter (fun q => !placeOf n x.fid q) ∧ t.tabs = s.tabs) ∧
    t.wide (ethTxFramesLo n.val) = (s.wide (ethTxFramesLo n.val) + 1) % 2 ^ 64 ∧
    t.wide (ethTxBytesLo n.val) = (s.wide (ethTxBytesLo n.val) + x.bytes.length + 4) % 2 ^ 64 ∧
    Framed [.swc, .eth] [ethTxFramesLo n.val, ethTxFramesLo n.val + 4, ethTxBytesLo n.val,
      ethTxBytesLo n.val + 4] [] s t := by
  obtain ⟨u, eq, tx, queues, tabs, -, regs, framed⟩ := transmit_frees (ph := ph) hen hx ha
  obtain ⟨frames, bytes⟩ := State.sendFrame_wide (u := s.setEth n { s.eth[n] with tx := none })
    (State.storesWf_regs hw) n x.bytes
  rw [State.departed_sent h] at regs framed
  have wide (a : Nat) (mem : a ∈ [ethTxFramesLo n.val, ethTxFramesLo n.val + 4, ethTxBytesLo n.val,
      ethTxBytesLo n.val + 4]) (mem' : a + 4 ∈ [ethTxFramesLo n.val, ethTxFramesLo n.val + 4, ethTxBytesLo n.val,
      ethTxBytesLo n.val + 4]) : (settle s u).wide a =
        ((s.setEth n { s.eth[n] with tx := none }).sendFrame n x.bytes).wide a :=
    State.wide_congr ((settle_reg _ _ _ ((sendRegs_apart n).2.2 _ mem)).trans (State.reg_of_regs_eq regs))
      ((settle_reg _ _ _ ((sendRegs_apart n).2.2 _ mem')).trans (State.reg_of_regs_eq regs))
  dsimp only
  rw [eq]
  refine ⟨⟨by rw [settle_eth, tx], by rw [settle_swc, queues], (settle_frameFree s u).1.trans tabs⟩, ?_, ?_, ?_⟩
  · rw [wide _ (by simp) (by simp), frames]
    rfl
  · rw [wide _ (by simp) (by simp), bytes]
    rfl
  · exact framed_settle (framed _ (((Framed.refl _ _ _ s).setEth (by simp) n _).trans (State.sendFrame_framed _ n x.bytes)))

end

/-! A port at rest. -/

theorem State.preemptNow_of_idle (h : s.eth[n].tx = none) : s.preemptNow n = s := by
  rw [State.preemptNow, h]

/-- With nothing in transmission a boundary and an inner point are the same. -/
theorem exec_transmit_of_idle (hr : s.sendsOn n) (h : s.eth[n].tx = none) (pre : Bool) :
    exec (.frameTransmit n ph pre) s = commit s (s.next n ph) := by
  cases pre with
  | false => rw [exec_transmit_boundary hr, State.finishTx_of_idle h]
  | true => rw [exec_transmit_inside hr, State.preemptNow_of_idle h, ite_self]

theorem transmit_rests (hw : s.storesWf) (hr : s.sendsOn n) (hen : s.en (.eth n) = false) (hq : s.ethQuiet n = true)
    (hp : s.eth[n].pfcPend = 0) (hno : ∀ q < 8, s.eligible n q = false) (pre : Bool) :
    Ends (.frameTransmit n ph pre) s fun t => t.eth[n].up = false ∧
      t.reg (ethLinkDownCnt n.val) = s.reg (ethLinkDownCnt n.val) + 1 := by
  have quiet := hq
  rw [State.ethQuiet, Bool.and_eq_true, Bool.and_eq_true, Option.isNone_iff_eq_none, Option.isNone_iff_eq_none] at quiet
  obtain ⟨⟨tx, preempted⟩, -⟩ := quiet
  have next : s.next n ph = s.restPort n := by
    rw [State.next_free tx hp, State.startNext_rests hno preempted]
  have falls : s.restPort n = s.linkFalls n false false := if_pos (by rw [hen, hq, hr.1]; rfl)
  refine ends_of_commit ((exec_transmit_of_idle hr tx pre).trans (congrArg _ next)) ⟨?_, ?_⟩
  · rw [settle_eth]
    exact State.restPort_up hen hq
  · rw [settle_reg _ _ _ (by simp only [ethLinkDownCnt, glbIntCnt]; omega), falls,
      (State.linkFalls_port hw hr.1 false false).2 _ (by simp only [ethLinkDownCnt, ethLink]; omega),
      (State.linkFreed_counts hw false).1]

theorem transmit_waits (hr : s.sendsOn n) (hen : s.en (.eth n) = true) (htx : s.eth[n].tx = none)
    (hp : s.eth[n].pfcPend = 0) (hpre : s.eth[n].pre = none) (hno : ∀ q < 8, s.eligible n q = false) (pre : Bool) :
    Idle (.frameTransmit n ph pre) s := by
  refine idle_of_commit (exec_transmit_of_idle hr htx pre) ?_
  rw [State.next_free htx hp, State.startNext_rests hno hpre, State.restPort_enabled hen]

/-- A preempted frame goes on where no other may start (R213). -/
theorem transmit_resumes (hr : s.sendsOn n) (hen : s.en (.eth n) = true) (htx : s.eth[n].tx = none)
    (hp : s.eth[n].pfcPend = 0) (hno : ∀ q < 8, s.eligible n q = false) (hpre : s.eth[n].pre = some x)
    (hh : s.swc.gates[n].holdMac = false) :
    Ends (.frameTransmit n ph false) s fun t =>
      t.eth = vset s.eth n { s.eth[n] with tx := some x, pre := none } ∧ Framed [.eth] [] [] s t := by
  have next : s.next n ph = s.setEth n { s.eth[n] with tx := some x, pre := none } := by
    rw [State.next_free htx hp, State.startNext_resumes hno hpre hh]
    exact State.restPort_enabled (u := s.setEth n _) hen
  exact ends_of_setEth ((exec_transmit_of_idle hr htx false).trans (congrArg _ next))

end

end Sys2Proof.Machine
end

section
/-! SUPPORT. The start of a frame (R72, R74, R179, R180, R182, R209, R215): what the head of the next queue puts on the
line of a port without MACsec. -/

namespace Sys2Proof.Machine

section
variable {s v w : State} {n : Fin 8} {ph : Fin 16} {h : QEntry} {st : Stored}

/-! The frame as it leaves. -/

/-- The frame of a queue place on its line, from its bytes before tag and padding. -/
def State.lineOf (s : State) (n : Fin 8) (h : QEntry) (st : Stored) (body : List Byte) (last : Bool) : TxNow :=
  ⟨padFrame (s.tagFor st.tagged st.vid.toNat st.pcp n.val body), h.fid, h.tc, h.units, h.seg, last,
    st.f.req.mode = .oneOrigin || st.f.req.mode = .oneCorr, 0⟩

theorem State.lineOf_unstamped (hm : st.f.req.mode = .none) {body : List Byte} {last : Bool} :
    s.lineOf n h st body last = ⟨padFrame (s.tagFor st.tagged st.vid.toNat st.pcp n.val body), h.fid, h.tc, h.units,
      h.seg, last, false, 0⟩ := by
  rw [State.lineOf, hm]
  rfl

/-- A stored frame that is whole, in no stream and not yet marked or begun (R206, R207, R210, R215). -/
abbrev plainHead (h : QEntry) (st : Stored) : Prop :=
  st.bad = false ∧ st.stream = none ∧ h.mark = false ∧ h.ct = false

/-- The place and the state with which a head starts: a send reads its template first (R182). -/
def State.sendOf (s : State) (n : Fin 8) (h : QEntry) (st : Stored) : QEntry × State :=
  match st.f.req.seg with
  | some g => if h.seg = 0 then s.startSend n h g else (h, s)
  | none => (h, s)

/-- How a head that is not lost starts, from that place and state. -/
def State.startWith (s : State) (n : Fin 8) (ph : Fin 16) (h : QEntry) (st : Stored) (r : QEntry × State) : State :=
  let c := r.2.cutFrame n r.1 st
  let a := c.2.applyStamp n ph st (s.ptpOff n r.1 st) c.1
  let p := a.2.msecProtect n a.1
  let s1 := if h.ct && h.seg = 0 then p.2.count swcCtCnt else p.2
  match p.1 with
  | none => s1.leaveQueue h.lp h.fid (lastOf h st)
  | some line => s1.setEth n { s1.eth[n] with
      tx := some ⟨line, h.fid, h.tc, h.units, h.seg, lastOf h st,
        st.f.req.mode = .oneOrigin || st.f.req.mode = .oneCorr, 0⟩ }

theorem State.startFrame_of_sound (hb : st.bad = false) :
    s.startFrame n ph h st = s.startWith n ph h st (s.sendOf n h st) := by
  unfold State.startFrame
  rw [if_neg (by rw [hb]; decide)]
  rfl

theorem State.cutFrame_outside (hst : st.stream = none) :
    w.cutFrame n h st = (padFrame (w.egressTag st n.val (w.leaving h st)), w) := by
  have place (bs : List Byte) : w.placeWindows st bs = (bs, w) := by
    unfold State.placeWindows
    rw [hst]
    split
    · contradiction
    · rfl
  rw [State.cutFrame, place]

theorem State.leaving_whole (hm : h.mark = false) (hs : st.f.req.seg = none) : w.leaving h st = st.f.bytes := by
  rw [State.leaving, hs, hm]
  rfl

theorem State.leaving_cut {g : SegInfo} (hm : h.mark = false) (hs : st.f.req.seg = some g) :
    w.leaving h st = segFrame g h.tpl st.f.bytes h.seg := by
  rw [State.leaving, hs, hm]
  rfl

theorem State.msecProtect_off {bs : List Byte} (hm : w.msecEn n = false) : w.msecProtect n bs = (some bs, w) := by
  refine if_pos ?_
  rw [hm]
  rfl

/-- A head that is plain starts with the bytes its place gives, once its stamp is seen to. -/
theorem State.startFrame_plain (hp : plainHead h st) {q : QEntry} (hr : s.sendOf n h st = (q, w))
    (ha : ∀ off bs, w.applyStamp n ph st off bs = (bs, v)) (hm : v.msecEn n = false) :
    s.startFrame n ph h st = v.setEth n { v.eth[n] with tx := some (w.lineOf n h st (w.leaving q st) (lastOf h st)) } := by
  obtain ⟨bad, stream, -, ct⟩ := hp
  rw [State.startFrame_of_sound bad, hr, State.startWith]
  dsimp only
  rw [State.cutFrame_outside stream]
  dsimp only
  rw [ha]
  dsimp only
  rw [State.msecProtect_off hm, ct]
  rfl

theorem State.applyStamp_none (hs : st.f.req.seg = none) (hm : st.f.req.mode = .none) (off : Nat) (bs : List Byte) :
    w.applyStamp n ph st off bs = (bs, w) := by
  rw [State.applyStamp, hs, hm]
  rfl

theorem State.applyStamp_twoStep (hs : st.f.req.seg = none) (hm : st.f.req.mode = .twoStep) (off : Nat)
    (bs : List Byte) : w.applyStamp n ph st off bs = (bs, w.tsqPush n st.f.req.tag (w.txStamp n ph)) := by
  rw [State.applyStamp, hs, hm]
  rfl

/-- A send takes no stamp (R180). -/
theorem State.applyStamp_send {g : SegInfo} (hs : st.f.req.seg = some g) (off : Nat) (bs : List Byte) :
    w.applyStamp n ph st off bs = (bs, w) := by
  rw [State.applyStamp, hs]
  rfl

theorem State.sendOf_whole (hs : st.f.req.seg = none) : s.sendOf n h st = (h, s) := by
  rw [State.sendOf, hs]

theorem lastOf_whole (hs : st.f.req.seg = none) : lastOf h st = true := by
  rw [lastOf, hs]

theorem lastOf_send {g : SegInfo} (hs : st.f.req.seg = some g) :
    lastOf h st = decide (segCount g st.f.bytes.length ≤ h.seg + 1) := by
  rw [lastOf, hs]

/-- A line depends on the state by its VLAN entries alone. -/
theorem State.lineOf_of_tabs (ht : w.tabs = s.tabs) {body : List Byte} {last : Bool} :
    w.lineOf n h st body last = s.lineOf n h st body last := by
  have vlan (v k : Nat) : w.vlanWord v k = s.vlanWord v k := by
    rw [State.vlanWord, State.vlanWord, State.tab, State.tab, ht]
  have tag (vid : Nat) : w.tagFor st.tagged vid st.pcp n.val body = s.tagFor st.tagged vid st.pcp n.val body := by
    unfold State.tagFor
    rw [vlan]
  rw [State.lineOf, tag]
  rfl

/-- The counter words of a send's template (R182). -/
def State.template (s : State) (n : Fin 8) (g : SegInfo) : List Word :=
  match g.template with
  | some k => s.tabWords (.eth n) 1 (4 * k.val) 4
  | none => []

/-- The switch with a send's template read. -/
def State.withTemplate (s : State) (h : QEntry) (tpl : List Word) : SwcState :=
  { s.swc with queues := s.swc.queues.map fun p => if p.lp = h.lp ∧ p.fid = h.fid then { h with tpl := tpl } else p }

theorem State.startSend_spec (hw : s.storesWf) (n : Fin 8) (h : QEntry) (g : SegInfo) :
    ∃ w, s.startSend n h g = ({ h with tpl := s.template n g }, w) ∧ w.tabs = s.tabs ∧
      w.swc = s.withTemplate h (s.template n g) ∧
      w.reg (ethTsoSkipCnt n.val) = s.reg (ethTsoSkipCnt n.val) + w32 (b2n (segSkips g (s.template n g))) ∧
      (∀ a, a ≠ ethTsoSkipCnt n.val → w.reg a = s.reg a) ∧ Framed [.eth, .swc] [ethTsoSkipCnt n.val] [] s w := by
  obtain ⟨u, hu⟩ : ∃ u, u = s.setSwc (s.withTemplate h (s.template n g)) := ⟨_, rfl⟩
  have send : s.startSend n h g = ({ h with tpl := s.template n g },
      if segSkips g (s.template n g) then u.count (ethTsoSkipCnt n.val) else u) := by
    rw [hu]
    unfold State.startSend State.template State.withTemplate
    rcases g.template with - | k
    · simp
    · simp [Nat.mul_comm]
  have framed : Framed [.eth, .swc] [ethTsoSkipCnt n.val] [] s u := by
    rw [hu]
    exact (Framed.refl _ _ _ s).setSwc (by simp) _
  have regs (a : Nat) : u.reg a = s.reg a := by
    rw [hu]
    rfl
  refine ⟨_, send, ?_⟩
  cases segSkips g (s.template n g) with
  | false =>
    refine ⟨by rw [hu]; rfl, by rw [hu]; rfl, ?_, fun a _ => regs a, framed⟩
    rw [if_neg Bool.false_ne_true, regs]
    exact (BitVec.add_zero _).symm
  | true =>
    refine ⟨by rw [hu]; rfl, by rw [hu]; rfl, ?_, fun a ha => ?_, framed.count (by simp)⟩
    · rw [if_pos rfl, ← regs]
      exact State.reg_setReg_same _ _ _ (by rw [hu]; exact State.storesWf_regs hw)
    · exact (State.reg_setReg_other _ _ _ _ ha).trans (regs a)

/-- The counters of a start are none of the registers it reads. -/
theorem tsqDrop_apart (n : Fin 8) : ethMsecCfg n.val ≠ ethTsqDropCnt n.val ∧ blkBase (.eth n) ≠ ethTsqDropCnt n.val ∧
    ethTsqDropCnt n.val ≠ glbIntCnt := by
  revert n
  decide

theorem tsoSkip_apart (n : Fin 8) : ethMsecCfg n.val ≠ ethTsoSkipCnt n.val ∧ blkBase (.eth n) ≠ ethTsoSkipCnt n.val ∧
    ethTsoSkipCnt n.val ≠ glbIntCnt := by
  revert n
  decide

/-! A lost head (R215). -/

/-- A lost frame's places at a port freed, and counted. -/
def State.lostFreed (s : State) (n : Fin 8) (fid : Nat) : State :=
  ((s.dropAt n.val 10).unqueue (placeOf n fid)).sweep

theorem State.lostFreed_port (s : State) (n : Fin 8) (fid : Nat) : PfcOnly s.eth[n] (s.lostFreed n fid).eth[n] :=
  State.sweep_pfcOnly (s := (s.dropAt n.val 10).unqueue (placeOf n fid)) n

/-- Where the port holds nothing else and no other port's frame is lost, its queues are empty after. -/
theorem State.lostFreed_sound (hw : s.storesWf) {fid : Nat}
    (hq : ∀ p ∈ s.swc.queues, if p.lp.val = n.val then p.fid = fid else s.lostAt p = false) :
    (s.lostFreed n fid).swc.queues = s.swc.queues.filter (fun p => !placeOf n fid p) ∧
    (∀ q, (s.lostFreed n fid).eligible n q = false) ∧
    (s.lostFreed n fid).tab .swc 6 (16 * n.val + 10) = s.tab .swc 6 (16 * n.val + 10) + 1 ∧
    Framed [.swc, .eth] pfcRegs [tabKey (blkIdx .swc) 6 (16 * n.val + 10)] s (s.lostFreed n fid) := by
  obtain ⟨u, hu⟩ : ∃ u, u = (s.dropAt n.val 10).unqueue (placeOf n fid) := ⟨_, rfl⟩
  have queues : u.swc.queues = s.swc.queues.filter (fun p => !placeOf n fid p) := by
    rw [hu]
    rfl
  have away (p : QEntry) (hp : p ∈ u.swc.queues) : p.lp.val ≠ n.val ∧ s.lostAt p = false := by
    rw [queues] at hp
    obtain ⟨mem, gone⟩ := List.mem_filter.1 hp
    have place := hq p mem
    simp only [Bool.not_eq_true', decide_eq_false_iff_not, not_and] at gone
    by_cases lp : p.lp.val = n.val
    · rw [if_pos lp] at place
      exact absurd place (gone lp)
    · rw [if_neg lp] at place
      exact ⟨lp, place⟩
  have sound : u.badHead = none := State.badHead_none fun p hp => by
    rw [hu]
    exact (away p hp).2
  have counted : Framed [.swc, .eth] pfcRegs [tabKey (blkIdx .swc) 6 (16 * n.val + 10)] s u := by
    rw [hu, State.dropAt, Nat.mul_comm]
    exact ((Framed.refl _ _ _ s).setTab _ (by simp)).setSwc (by simp) _
  obtain ⟨swept, kept⟩ := State.sweep_of_sound sound
  rw [State.lostFreed, ← hu]
  refine ⟨kept.trans queues, State.eligible_of_empty fun p hp => (away p (kept ▸ hp)).1, ?_,
    counted.trans (swept.mono (by simp) (by simp) (by simp))⟩
  refine (swept.tabs _ (by simp)).trans ?_
  rw [hu, Nat.mul_comm]
  exact State.tab_setTab_same s _ _ _ _ (State.storesWf_tabs hw)

/-! A boundary at which a head starts. -/

/-- A port that is enabled, with no frame in transmission, no pause to send and no MACsec. -/
structure Ready (s : State) (n : Fin 8) : Prop where
  enabled : s.en (.eth n) = true
  free : s.eth[n].tx = none
  quiet : s.eth[n].pfcPend = 0
  clear : s.msecEn n = false

/-- The head of the highest-numbered queue that may start (R209). -/
structure NextHead (s : State) (n : Fin 8) (h : QEntry) (st : Stored) : Prop where
  next : ∃ q, s.nextQueue n = some q ∧ s.headOf n.val q = some h
  stored : s.storedOf h.fid = some st

theorem State.next_starts (hr : Ready s n) (hh : NextHead s n h st) (hv : s.startFrame n ph h st = v)
    (ht : v.eth[n].tx.isSome = true) (hen : v.en (.eth n) = true) : s.next n ph = v := by
  obtain ⟨q, next, head⟩ := hh.next
  rw [State.next_free hr.free hr.quiet, State.startNext_starts next head hh.stored hv ht, State.restPort_enabled hen]

theorem State.startFrame_whole (hr : Ready s n) (hp : plainHead h st) (hs : st.f.req.seg = none)
    (hm : st.f.req.mode = .none) :
    s.startFrame n ph h st = s.setEth n { s.eth[n] with tx := some (s.lineOf n h st st.f.bytes true) } := by
  rw [State.startFrame_plain hp (State.sendOf_whole hs) (State.applyStamp_none (ph := ph) hs hm) hr.clear,
    State.leaving_whole hp.2.2.1 hs, lastOf_whole hs]

section
variable (ho : s.sendsOn n) (hr : Ready s n) (hh : NextHead s n h st)
include ho hr hh

theorem transmit_starts (hv : s.startFrame n ph h st = v) (ht : v.eth[n].tx.isSome = true)
    (hen : v.en (.eth n) = true) : exec (.frameTransmit n ph false) s = commit s v := by
  rw [exec_transmit_of_idle ho hr.free, State.next_starts hr hh hv ht hen]

/-- A head that changes its port alone, and perhaps a register, starts so. -/
theorem transmit_line {x : TxNow} (hv : s.startFrame n ph h st = v.setEth n { v.eth[n] with tx := some x })
    (hen : v.en (.eth n) = true) {ps : List Part} {rs : List Nat} (hf : Framed ps rs [] s v) (hp : .eth ∈ ps) :
    Ends (.frameTransmit n ph false) s fun t => t.eth = vset v.eth n { v.eth[n] with tx := some x } ∧
      t.swc = v.swc ∧ (∀ a, a ≠ glbIntCnt → t.reg a = v.reg a) ∧ Framed ps rs [] s t := by
  refine ends_of_commit (transmit_starts ho hr hh hv ?_ hen) ⟨settle_eth _ _, settle_swc _ _, fun a ha => ?_, ?_⟩
  · rw [State.setEth_same]
    rfl
  · exact settle_reg _ _ _ ha
  · exact framed_settle (hf.setEth hp n _)

/-- A whole frame without a stamp (R180). -/
theorem transmit_whole (hp : plainHead h st) (hs : st.f.req.seg = none) (hm : st.f.req.mode = .none) :
    Ends (.frameTransmit n ph false) s fun t => t.eth[n].tx = some (s.lineOf n h st st.f.bytes true) ∧
      t.swc = s.swc ∧ (∀ k : Fin 8, k ≠ n → t.eth[k] = s.eth[k]) ∧
      t.eth[n] = { s.eth[n] with tx := t.eth[n].tx } ∧ Framed [.eth] [] [] s t := by
  have start := State.startFrame_whole (ph := ph) hr hp hs hm
  obtain ⟨t, ht, eth, swc, -, framed⟩ := transmit_line ho hr hh start hr.enabled (Framed.refl [.eth] [] [] s) (by simp)
  refine ⟨t, ht, ?_, swc, fun k hk => ?_, ?_, framed⟩
  · rw [eth, getElem_vset_same]
  · rw [eth, getElem_vset_other _ _ hk]
  · rw [eth, getElem_vset_same]

/-- A whole frame of the two-step mode: its stamp is queued, or dropped and counted (R74). -/
theorem transmit_twoStep (hw : s.storesWf) (hp : plainHead h st) (hs : st.f.req.seg = none)
    (hm : st.f.req.mode = .twoStep) :
    Ends (.frameTransmit n ph false) s fun t => t.eth[n].tx = some (s.lineOf n h st st.f.bytes true) ∧
      (s.eth[n].tsq.length < 16 →
        t.eth[n].tsq = s.eth[n].tsq ++ [⟨st.f.req.tag, s.txStamp n ph⟩] ∧ Framed [.eth] [] [] s t) ∧
      (16 ≤ s.eth[n].tsq.length → t.eth[n].tsq = s.eth[n].tsq ∧
        t.reg (ethTsqDropCnt n.val) = s.reg (ethTsqDropCnt n.val) + 1 ∧
        Framed [.eth] [ethTsqDropCnt n.val] [] s t) := by
  have stamp := State.applyStamp_twoStep (ph := ph) (n := n) (w := s) hs hm
  have start (v : State) (hv : s.tsqPush n st.f.req.tag (s.txStamp n ph) = v) (clear : v.msecEn n = false) :
      s.startFrame n ph h st = v.setEth n { v.eth[n] with tx := some (s.lineOf n h st st.f.bytes true) } := by
    rw [State.startFrame_plain hp (State.sendOf_whole hs) (fun off bs => (stamp off bs).trans (by rw [hv])) clear,
      State.leaving_whole hp.2.2.1 hs, lastOf_whole hs]
  rcases Nat.lt_or_ge s.eth[n].tsq.length 16 with room | full
  · obtain ⟨t, ht, eth, -, -, framed⟩ := transmit_line ho hr hh (start _ (if_pos room) hr.clear) hr.enabled
      ((Framed.refl [.eth] [] [] s).setEth (by simp) n _) (by simp)
    refine ⟨t, ht, ?_, fun _ => ⟨?_, framed⟩, fun full => absurd room (by omega)⟩
    · rw [eth, getElem_vset_same]
    · rw [eth, getElem_vset_same, State.setEth_same]
  · obtain ⟨clear, enabled, int⟩ := tsqDrop_apart n
    have others (a : Nat) (ha : a ≠ ethTsqDropCnt n.val) : (s.count (ethTsqDropCnt n.val)).reg a = s.reg a :=
      State.reg_setReg_other _ _ _ _ ha
    obtain ⟨t, ht, eth, -, regs, framed⟩ := transmit_line ho hr hh
      (start (s.count (ethTsqDropCnt n.val)) (if_neg (by omega)) (by rw [State.msecEn, others _ clear]; exact hr.clear))
      (by rw [State.en, others _ enabled]; exact hr.enabled) ((Framed.refl [.eth] [ethTsqDropCnt n.val] [] s).count (by simp))
      (by simp)
    refine ⟨t, ht, ?_, fun room => absurd room (by omega), fun _ => ⟨?_, ?_, framed⟩⟩
    · rw [eth, getElem_vset_same]
    · rw [eth, getElem_vset_same]
      rfl
    · rw [regs _ int]
      exact State.reg_setReg_same _ _ _ (State.storesWf_regs hw)

/-- A later frame of a send (R179). -/
theorem transmit_segment {g : SegInfo} (hp : plainHead h st) (hs : st.f.req.seg = some g) (h0 : h.seg ≠ 0) :
    Ends (.frameTransmit n ph false) s fun t =>
      t.eth[n].tx = some (s.lineOf n h st (segFrame g h.tpl st.f.bytes h.seg)
        (decide (segCount g st.f.bytes.length ≤ h.seg + 1))) ∧ Framed [.eth] [] [] s t := by
  have send : s.sendOf n h st = (h, s) := by
    rw [State.sendOf, hs]
    exact if_neg h0
  have start := State.startFrame_plain hp send (State.applyStamp_send (ph := ph) hs) hr.clear
  rw [State.leaving_cut hp.2.2.1 hs, lastOf_send hs] at start
  obtain ⟨t, ht, eth, -, -, framed⟩ := transmit_line ho hr hh start hr.enabled (Framed.refl [.eth] [] [] s) (by simp)
  exact ⟨t, ht, by rw [eth, getElem_vset_same], framed⟩

/-- The first frame of a send: the template's words are read for all its frames (R182). -/
theorem transmit_send {g : SegInfo} (hw : s.storesWf) (hp : plainHead h st) (hs : st.f.req.seg = some g)
    (h0 : h.seg = 0) :
    Ends (.frameTransmit n ph false) s fun t =>
      t.eth[n].tx = some (s.lineOf n h st (segFrame g (s.template n g) st.f.bytes 0)
        (decide (segCount g st.f.bytes.length ≤ 1))) ∧
      t.swc = s.withTemplate h (s.template n g) ∧
      t.reg (ethTsoSkipCnt n.val) = s.reg (ethTsoSkipCnt n.val) + w32 (b2n (segSkips g (s.template n g))) ∧
      Framed [.eth, .swc] [ethTsoSkipCnt n.val] [] s t := by
  obtain ⟨w, hsend, tabs, swc, count, regs, framed⟩ := State.startSend_spec hw n h g
  obtain ⟨clear, enabled, int⟩ := tsoSkip_apart n
  have send : s.sendOf n h st = ({ h with tpl := s.template n g }, w) := by
    rw [State.sendOf, hs]
    exact (if_pos h0).trans hsend
  have start := State.startFrame_plain hp send (State.applyStamp_send (ph := ph) hs)
    (by rw [State.msecEn, regs _ clear]; exact hr.clear)
  rw [State.leaving_cut (h := { h with tpl := s.template n g }) hp.2.2.1 hs, lastOf_send hs,
    State.lineOf_of_tabs tabs] at start
  obtain ⟨t, ht, eth, swc', regs', framed'⟩ := transmit_line ho hr hh start
    (by rw [State.en, regs _ enabled]; exact hr.enabled) framed (by simp)
  refine ⟨t, ht, ?_, swc'.trans swc, (regs' _ int).trans count, framed'⟩
  rw [eth, getElem_vset_same, h0]

/-- A lost head is freed with BUF_UE, and its port starts nothing else (R215). -/
theorem transmit_lost (hw : s.storesWf) (hb : st.bad = true) (hlp : h.lp.val = n.val)
    (hq : ∀ p ∈ s.swc.queues, if p.lp.val = n.val then p.fid = h.fid else s.lostAt p = false)
    (hpre : s.eth[n].pre = none) :
    Ends (.frameTransmit n ph false) s fun t =>
      t.tab .swc 6 (16 * n.val + 10) = s.tab .swc 6 (16 * n.val + 10) + 1 ∧ t.eth[n].tx = none ∧
      t.swc.queues = s.swc.queues.filter (fun p => !placeOf n h.fid p) ∧
      Framed [.swc, .eth] pfcRegs [tabKey (blkIdx .swc) 6 (16 * n.val + 10)] s t := by
  obtain ⟨queues, none, drops, framed⟩ := State.lostFreed_sound hw hq
  obtain ⟨a, b, port⟩ := State.lostFreed_port s n h.fid
  obtain ⟨u, hu⟩ : ∃ u, u = s.lostFreed n h.fid := ⟨_, rfl⟩
  have start : s.startFrame n ph h st = u := by
    rw [State.startFrame, if_pos hb, dequeue_eq _ _ _ hlp, hu, State.lostFreed]
  have left : Emits (startRegs n) s u := by
    rw [hu]
    exact (Emits.refl _ s).dropAt.unqueue.sweep
  rw [← hu] at queues none drops framed port
  have free : u.eth[n].tx = .none := by
    rw [port]
    exact hr.free
  have enabled : u.en (.eth n) = true := by
    rw [State.en, left.regs _ (startRegs_apart n).1]
    exact hr.enabled
  obtain ⟨q, next, head⟩ := hh.next
  refine ends_of_commit (u := u) ?_ ⟨by rw [settle_tab, drops], by rw [settle_eth, free], by rw [settle_swc, queues],
    framed_settle framed⟩
  rw [exec_transmit_of_idle ho hr.free, State.next_free hr.free hr.quiet,
    State.startNext_retries next head hh.stored start free, State.startNext_rests (fun q _ => none q) (by
      rw [port]
      exact hpre), State.restPort_enabled enabled]

end

end

end Sys2Proof.Machine
end

section
/-! SUPPORT. Preemption (R209, R213): which queues may start once a frame is preempted. -/

namespace Sys2Proof.Machine

/-! States that differ in their ports and in two counters. -/

/-- The counters that a preemption and a late window write. -/
abbrev tallies (n : Fin 8) : List Nat := [swcWinLateCnt, swcPPreemptCnt n.val]

/-- A state with the ports and those counters of another. -/
def Alike (n : Fin 8) (s t : State) : Prop :=
  ∃ R E, t = { s with regs := R, eth := E } ∧ ∀ a, a ∉ tallies n → t.reg a = s.reg a

section
variable {s t : State} {n : Fin 8}

theorem Alike.count_late (h : Alike n s t) : Alike n s (t.count swcWinLateCnt) := by
  obtain ⟨R, E, rfl, regs⟩ := h
  exact ⟨_, E, rfl, fun a ha => (State.reg_setReg_other _ _ _ _ fun e => ha (by simp [e])).trans (regs a ha)⟩

theorem Alike.count_late_both (h : Alike n s t) : Alike n (s.count swcWinLateCnt) (t.count swcWinLateCnt) := by
  obtain ⟨R, E, eq, regs⟩ := h.count_late
  exact ⟨R, E, eq, fun a ha => (regs a ha).trans (State.reg_setReg_other _ _ _ _ fun e => ha (by simp [e])).symm⟩

variable (h : Alike n s t)
include h

theorem Alike.reg_away {a : Nat} (ha : a < swcWinLateCnt ∨ swcPPreemptCnt 7 < a) : t.reg a = s.reg a := by
  obtain ⟨R, E, -, regs⟩ := h
  refine regs a ?_
  simp only [tallies, List.mem_cons, List.not_mem_nil, or_false, swcWinLateCnt, swcPPreemptCnt] at ha ⊢
  omega

/-- A register of another block or another register of the port's gates is the same. -/
theorem Alike.reg_gate : t.reg (swcPGateCtrl n.val) = s.reg (swcPGateCtrl n.val) ∧
    t.reg (swcPGateOplen n.val) = s.reg (swcPGateOplen n.val) ∧
    t.reg (swcPPmacCfg n.val) = s.reg (swcPPmacCfg n.val) := by
  obtain ⟨R, E, -, regs⟩ := h
  refine ⟨regs _ ?_, regs _ ?_, regs _ ?_⟩ <;>
    simp only [tallies, List.mem_cons, List.not_mem_nil, or_false, swcWinLateCnt, swcPPreemptCnt, swcPGateCtrl, swcPGateOplen,
      swcPPmacCfg] <;> omega

theorem Alike.granted (e : Fin 10) : t.granted e = s.granted e := by
  funext o
  unfold State.granted
  rw [h.reg_away (.inr (by simp only [pecTtuGrant, swcPPreemptCnt]; omega)),
    h.reg_away (.inr (by simp only [pecTcuGrant, swcPPreemptCnt]; omega))]

theorem Alike.owns (m : BankMaster) (b : Nat) : t.owns m b = s.owns m b := by
  unfold State.owns State.owner
  rw [h.reg_away (.inr (by simp only [memBankOwner, swcPPreemptCnt]; omega))]

theorem Alike.espTarget (e : Fin 10) (a : Nat) : t.espTarget e a = s.espTarget e a := by
  have granted := h.granted e
  obtain ⟨R, E, rfl, regs⟩ := h
  unfold State.espTarget
  rw [granted]
  rfl

theorem Alike.stagingRead (e : Fin 10) (a k : Nat) : t.stagingRead e a k = s.stagingRead e a k := by
  have piece (a k : Nat) : t.stagingPiece e a k = s.stagingPiece e a k := by
    have owns := h.owns
    unfold State.stagingPiece
    rw [h.espTarget]
    obtain ⟨R, E, rfl, regs⟩ := h
    simp only [owns]
    rfl
  unfold State.stagingRead
  simp only [piece]

theorem Alike.fwuPlace (r : Fin 10) (k : Fin 256) (bs : List Byte) : (t.fwuPlace r k bs).1 = (s.fwuPlace r k bs).1 ∧
    Alike n (s.fwuPlace r k bs).2 (t.fwuPlace r k bs).2 := by
  have eng : t.engOf r = s.engOf r := by
    obtain ⟨R, E, rfl, -⟩ := h
    rfl
  have found (e : Fin 10) : t.fwuFind e true 2 k.val = s.fwuFind e true 2 k.val := by
    obtain ⟨R, E, rfl, -⟩ := h
    rfl
  unfold State.fwuPlace
  rw [eng]
  split
  · exact ⟨rfl, h⟩
  · next e _ =>
    rw [found]
    refine List.foldl_rel (r := fun p p' : List Byte × State => p'.1 = p.1 ∧ Alike n p.2 p'.2) ⟨rfl, h⟩
      fun i _ p p' ⟨bytes, alike⟩ => ?_
    have read := alike.stagingRead e
    have gate : p'.2.gateOpen r = p.2.gateOpen r ∧ p'.2.fwuStage e i = p.2.fwuStage e i ∧
        p'.2.fwuLen e i = p.2.fwuLen e i ∧ p'.2.fwuOff e i = p.2.fwuOff e i := by
      obtain ⟨R, E, eq, -⟩ := alike
      rw [eq]
      exact ⟨rfl, rfl, rfl, rfl⟩
    obtain ⟨opens, stage, len, off⟩ := gate
    rw [opens, stage, len, off, read, bytes]
    split
    · split
      · exact ⟨rfl, alike⟩
      · exact ⟨bytes, alike⟩
    · exact ⟨rfl, alike.count_late_both⟩

theorem Alike.headLen (q : QEntry) : t.headLen n q = s.headLen n q := by
  have place := h.fwuPlace
  have etype : t.isTpid = s.isTpid ∧ fieldOf (t.reg nrgEtype) 0 16 = fieldOf (s.reg nrgEtype) 0 16 := by
    refine ⟨?_, by rw [h.reg_away (.inr (by decide))]⟩
    funext v
    unfold State.isTpid
    rw [h.reg_away (.inl (by decide))]
  have stored : t.storedOf q.fid = s.storedOf q.fid := by
    obtain ⟨R, E, rfl, -⟩ := h
    rfl
  have tagged {u v : State} (hu : Alike n u v) (st : Stored) (bs : List Byte) :
      v.egressTag st n.val bs = u.egressTag st n.val bs := by
    obtain ⟨R, E, rfl, -⟩ := hu
    rfl
  have leaves (st : Stored) : t.leaving q st = s.leaving q st := by
    unfold State.leaving State.ecnMark State.etOff
    rw [etype.1, etype.2]
  unfold State.headLen
  rw [stored]
  split
  · rfl
  · next st _ =>
    unfold State.cutFrame State.placeWindows
    rw [leaves]
    dsimp only
    split
    · rw [(place _ _ _).1, tagged (place _ _ _).2]
    · rw [tagged h]

theorem Alike.openFor (q : Nat) (bank : Bool) (len fuel e left ps : Nat) :
    t.openFor n q bank len fuel e left ps = s.openFor n q bank len fuel e left ps := by
  have word (i w : Nat) : t.gclWord n.val bank i w = s.gclWord n.val bank i w := by
    obtain ⟨R, E, rfl, -⟩ := h
    rfl
  have interval (i : Nat) : t.gclInterval n.val bank i = s.gclInterval n.val bank i := by
    rw [State.gclInterval, word, State.gclInterval]
  induction fuel generalizing e left ps with
  | zero => rfl
  | succ fuel ih => rw [State.openFor, State.openFor, word, interval, ih]

theorem Alike.gates (q : Nat) (ps : Nat) : t.gates8 n = s.gates8 n ∧ t.gateHolds n q ps = s.gateHolds n q ps := by
  obtain ⟨ctrl, oplen, -⟩ := h.reg_gate
  have opens := h.openFor
  have en : t.gateEn n.val = s.gateEn n.val := by rw [State.gateEn, ctrl, State.gateEn]
  unfold State.gates8 State.gateHolds
  rw [en, oplen]
  simp only [opens]
  obtain ⟨R, E, rfl, -⟩ := h
  exact ⟨rfl, rfl⟩

/-- An express queue may start in one state as in the other, where the port's pauses and speed are the same. -/
theorem Alike.eligible {q : Nat} (hq : s.preemptable n q = false) (hp : t.eth[n].paused = s.eth[n].paused)
    (hs : t.eth[n].speed = s.eth[n].speed) : t.eligible n q = s.eligible n q := by
  have gates := h.gates q
  have len := h.headLen
  have msec : t.msecEn n = s.msecEn n := by
    rw [State.msecEn, h.reg_away (.inl (by simp only [ethMsecCfg, swcWinLateCnt]; omega)), State.msecEn]
  have same : t.headOf n.val q = s.headOf n.val q ∧ t.preemptable n q = s.preemptable n q ∧
      t.inHold (.eth n) = s.inHold (.eth n) ∧ ∀ fid, t.storedOf fid = s.storedOf fid := by
    obtain ⟨R, E, rfl, -⟩ := h
    exact ⟨rfl, rfl, rfl, fun _ => rfl⟩
  obtain ⟨head, preemptable, hold, stored⟩ := same
  have pauses (p : QEntry) : t.pauses n p = s.pauses n p := by rw [State.pauses, hp, stored, State.pauses]
  have wire (l : Nat) : t.wireTime n l = s.wireTime n l := by rw [State.wireTime, msec, hs, State.wireTime]
  unfold State.eligible
  rw [head, preemptable, hold, hq, (gates 0).1]
  split
  · rfl
  · simp only [Bool.false_and, pauses, len, wire, (gates _).2]

end

/-! A frame is preempted. -/

section
variable {s : State} {n : Fin 8} {ph : Fin 16} {x : TxNow}

/-- What lets a frame in transmission be preempted (R213). -/
abbrev State.divisible (s : State) (n : Fin 8) (x : TxNow) : Prop :=
  s.pmacActive n = true ∧ s.preemptable n x.tc.val = true ∧ x.fixed = false ∧ s.eth[n].pre = none ∧ divides x = true

/-- The frame once more divided. -/
def TxNow.cut (x : TxNow) : TxNow := { x with frags := x.frags + 1 }

/-- The state with the frame in transmission preempted and counted. -/
def State.preempted (s : State) (n : Fin 8) (x : TxNow) : State :=
  (s.setEth n { s.eth[n] with tx := none, pre := some x.cut }).count (swcPPreemptCnt n.val)

theorem State.yields_iff : s.yields n = true ↔
    s.swc.gates[n].holdMac = true ∨ ∃ q < 8, s.preemptable n q = false ∧ s.eligible n q = true := by
  simp [State.yields]

section
variable (hx : s.eth[n].tx = some x)
include hx

theorem State.preemptNow_cuts (h : s.divisible n x) : s.preemptNow n = s.preempted n x := by
  obtain ⟨active, preemptable, fixed, pre, divided⟩ := h
  rw [State.preemptable] at preemptable
  rw [State.preemptNow, hx]
  exact if_pos (by rw [active, preemptable, fixed, pre, divided]; rfl)

theorem State.preemptNow_stays (h : ¬ s.divisible n x) : s.preemptNow n = s := by
  rw [State.preemptNow, hx]
  refine if_neg fun all => h ?_
  simp only [Bool.and_eq_true, Bool.not_eq_true', Option.isNone_iff_eq_none] at all
  obtain ⟨⟨⟨⟨active, preemptable⟩, fixed⟩, pre⟩, divided⟩ := all
  exact ⟨active, preemptable, fixed, pre, divided⟩

end

theorem State.preempted_eth : (s.preempted n x).eth[n] = { s.eth[n] with tx := none, pre := some x.cut } :=
  State.setEth_same (s := s) _

theorem State.preempted_alike : Alike n s (s.preempted n x) :=
  ⟨_, _, rfl, fun a ha => State.reg_setReg_other _ _ _ _ fun e => ha (by simp [e])⟩

theorem State.preempted_framed : Framed [.eth] [swcPPreemptCnt n.val] [] s (s.preempted n x) :=
  ((Framed.refl _ _ _ s).setEth (by simp) n _).count (by simp)

/-- While a frame is preempted, the express queues alone may start. -/
theorem State.preempted_eligible (h : s.divisible n x) (q : Nat) :
    (s.preempted n x).eligible n q = (!s.preemptable n q && s.eligible n q) := by
  cases hq : s.preemptable n q with
  | false => exact State.preempted_alike.eligible hq (by rw [State.preempted_eth]) (by rw [State.preempted_eth])
  | true =>
    have still : (s.preempted n x).preemptable n q = true := hq
    have active : (s.preempted n x).pmacActive n = true := by
      obtain ⟨-, -, pmac⟩ := (State.preempted_alike (s := s) (n := n) (x := x)).reg_gate
      rw [State.pmacActive, pmac]
      exact h.1
    rw [State.eligible, still, active, State.preempted_eth]
    split
    · rfl
    · simp

theorem State.preempted_enabled (h : s.en (.eth n) = true) : (s.preempted n x).en (.eth n) = true := by
  rw [State.en, State.preempted_alike.reg_away (.inl (by simp only [blkBase, swcWinLateCnt]; omega))]
  exact h

section
variable (ho : s.sendsOn n) (hen : s.en (.eth n) = true) (hx : s.eth[n].tx = some x)
include ho hx

/-- Inside a frame that is not to be preempted nothing happens. -/
theorem transmit_continues (h : s.yields n = false ∨ ¬ s.divisible n x) : Idle (.frameTransmit n ph true) s := by
  have stays : (if s.yields n then s.preemptNow n else s) = s := by
    rcases h with h | h
    · rw [h]
      rfl
    · rw [State.preemptNow_stays hx h, ite_self]
  refine idle_of_commit (exec_transmit_inside ho) ?_
  rw [stays, State.next_busy (by rw [hx]; rfl)]

variable (hy : s.yields n = true) (hd : s.divisible n x)
include hy hd

theorem exec_transmit_preempts : exec (.frameTransmit n ph true) s = commit s ((s.preempted n x).next n ph) := by
  rw [exec_transmit_inside ho, hy, if_pos rfl, State.preemptNow_cuts hx hd]

include hen

theorem transmit_counts (hw : s.storesWf) : Ends (.frameTransmit n ph true) s fun t =>
    t.reg (swcPPreemptCnt n.val) = s.reg (swcPPreemptCnt n.val) + 1 := by
  refine ends_of_commit (exec_transmit_preempts ho hx hy hd) ?_
  rw [settle_reg _ _ _ (by simp only [swcPPreemptCnt, glbIntCnt]; omega),
    (State.next_emits (State.preempted_enabled hen) ph).regs _ (startRegs_apart n).2]
  exact State.reg_setReg_same _ _ _ (State.storesWf_regs hw)

/-- With the MAC held and no express frame the preempted one waits. -/
theorem transmit_holds (hp : s.eth[n].pfcPend = 0) (hno : ∀ q < 8, s.eligible n q = false) :
    Ends (.frameTransmit n ph true) s fun t =>
      t.eth = vset s.eth n { s.eth[n] with tx := none, pre := some x.cut } ∧
      Framed [.eth] [swcPPreemptCnt n.val] [] s t := by
  have held : s.swc.gates[n].holdMac = true := by
    rcases State.yields_iff.1 hy with held | ⟨q, hq, -, may⟩
    · exact held
    · rw [hno q hq] at may
      cases may
  have next : (s.preempted n x).next n ph = s.preempted n x := by
    rw [State.next_free (by rw [State.preempted_eth]) (by rw [State.preempted_eth]; exact hp),
      State.startNext_held (u := s.preempted n x) (fun q hq => by rw [State.preempted_eligible hd, hno q hq, Bool.and_false]) held,
      State.restPort_enabled (State.preempted_enabled hen)]
  exact ends_of_commit ((exec_transmit_preempts ho hx hy hd).trans (congrArg _ next))
    ⟨settle_eth _ _, framed_settle State.preempted_framed⟩

omit hy in
/-- The highest express queue that may start follows the preempted frame. -/
theorem transmit_express {q : Nat} {h : QEntry} {st : Stored} (hp : s.eth[n].pfcPend = 0) (hm : s.msecEn n = false)
    (hq : q < 8) (hh : s.headOf n.val q = some h) (hs : s.storedOf h.fid = some st) (he : s.preemptable n q = false)
    (hel : s.eligible n q = true)
    (above : ∀ p, q < p → p < 8 → s.preemptable n p = true ∨ s.eligible n p = false) (plain : plainHead h st)
    (seg : st.f.req.seg = none) (mode : st.f.req.mode = .none) :
    Ends (.frameTransmit n ph true) s fun t =>
      t.eth = vset s.eth n { s.eth[n] with
        pre := some x.cut
        tx := some ⟨padFrame (s.tagFor st.tagged st.vid.toNat st.pcp n.val st.f.bytes), h.fid, h.tc, h.units, h.seg,
          true, false, 0⟩ } ∧
      Framed [.eth] [swcPPreemptCnt n.val] [] s t := by
  have eligible := State.preempted_eligible hd
  have ready : Ready (s.preempted n x) n :=
    ⟨State.preempted_enabled hen, by rw [State.preempted_eth], by rw [State.preempted_eth]; exact hp, by
      rw [State.msecEn, State.preempted_alike.reg_away (.inl (by simp only [ethMsecCfg, swcWinLateCnt]; omega))]
      exact hm⟩
  have next : (s.preempted n x).nextQueue n = some q :=
    State.nextQueue_some hq (by rw [eligible, he, hel]; rfl) fun p hqp hp8 => by
      rw [eligible]
      rcases above p hqp hp8 with h | h <;> simp [h]
  have start := State.startFrame_whole (ph := ph) ready plain seg mode
  have starts := State.next_starts ready ⟨⟨q, next, hh⟩, hs⟩ start (by rw [State.setEth_same]; rfl)
    (State.preempted_enabled hen)
  refine ends_of_commit ((exec_transmit_preempts ho hx (State.yields_iff.2 (.inr ⟨q, hq, he, hel⟩)) hd).trans
    (congrArg _ starts)) ⟨?_, framed_settle (State.preempted_framed.setEth (by simp) n _)⟩
  rw [settle_eth, State.setEth_eth, State.preempted_eth, State.lineOf_unstamped mode]
  exact vset_vset _ _ _ _

end

end

end Sys2Proof.Machine
end

section
/-! FramesLeaveAtFrameBoundaries. -/

namespace Sys2Proof.Machine

/-- Settles O43, part by part: a port that rests, a frame that has left, the start of the next one in each of its forms,
and preemption. -/
theorem framesLeaveAtFrameBoundaries : Obligations.FramesLeaveAtFrameBoundaries := by
  unfold Obligations.FramesLeaveAtFrameBoundaries
  intro s n ph pre hw
  refine ⟨fun hr => transmit_idle hr pre, fun ho hen hq hp hno => transmit_rests hw ho hen hq hp hno pre,
    fun _ ⟨hg, hp, hold⟩ q hq h st hh hs => State.eligible_ungated hg hp hold hq hh hs,
    fun ⟨ho, hen⟩ x hx hp => ⟨fun hs => ⟨_, exec_transmit_boundary ho, transmit_sends hen hx hs, ?_⟩,
      fun hs he ⟨places, last, hpre, sound, pauses⟩ =>
        transmit_withheld hen hx ⟨places, last, hpre, sound, pauses⟩ ho hs he⟩,
    fun ⟨ho, hen⟩ htx hp hpre hno => transmit_waits ho hen htx hp hpre hno pre,
    fun ⟨ho, hen⟩ htx hp hno x hpre hh => transmit_resumes ho hen htx hp hno hpre hh,
    fun ⟨ho, hen⟩ htx hp hm q hq h st hh hs hel above => ?_, fun ⟨ho, hen⟩ x hx => ?_⟩
  · rintro ⟨places, last, hpre, sound, pauses⟩
    exact transmit_departs hw hen hx ⟨places, last, hpre, sound, pauses⟩ hs
  · have ready : Ready s n := ⟨hen, htx, hp, hm⟩
    have next : NextHead s n h st := ⟨⟨q, State.nextQueue_some hq hel above, hh⟩, hs⟩
    have lp : h.lp.val = n.val := by
      have place := List.find?_some hh
      simp only [Bool.and_eq_true, decide_eq_true_eq] at place
      exact place.1
    exact ⟨fun _ _ => State.gate_of_eligible hel, fun plain seg mode => transmit_whole ho ready next plain seg mode,
      fun plain seg mode => transmit_twoStep ho ready next hw plain seg mode,
      fun g plain seg h0 => transmit_segment ho ready next plain seg h0,
      fun g plain seg h0 => transmit_send ho ready next hw plain seg h0,
      fun bad places hpre => transmit_lost ho ready next hw bad lp places hpre⟩
  · refine ⟨fun h => transmit_continues ho hx ?_, fun hy hd =>
      transmit_counts ho hen hx (State.yields_iff.2 hy) hd hw,
      fun q hq h st hd hp hm hh hs he hel above bad stream mark ct seg mode =>
        transmit_express ho hen hx hd hp hm hq hh hs he hel above ⟨bad, stream, mark, ct⟩ seg mode,
      fun hy hd _ hp hno => transmit_holds ho hen hx (State.yields_iff.2 hy) hd hp hno⟩
    exact h.imp_left fun h => Bool.eq_false_iff.2 (mt State.yields_iff.1 h)

end Sys2Proof.Machine
end

section
/-! SUPPORT. The arithmetic of an engine's units (R131-R136, Tables PEC-5, PEC-6, PEC-18, PEC-19). -/

namespace Sys2Proof.Machine

/-! Results in a format (R134). -/

section
variable {w : Nat} {sat : Bool} {q : Int}

theorem fit_of_mem (lo : -(2 ^ (w - 1)) ≤ q) (hi : q < 2 ^ (w - 1)) : fit w sat q = (BitVec.ofInt w q, false) :=
  if_pos ⟨lo, Int.le_sub_one_of_lt hi⟩

theorem fit_of_not_mem (h : q < -(2 ^ (w - 1)) ∨ 2 ^ (w - 1) ≤ q) : fit w sat q =
    (if sat then BitVec.ofInt w (if q < 0 then -(2 ^ (w - 1)) else 2 ^ (w - 1) - 1) else BitVec.ofInt w q, true) :=
  if_neg (by omega)

/-- A signed number within the range of a format is read back from its bits. -/
theorem toInt_ofInt_of_mem (hw : 0 < w) (lo : -(2 ^ (w - 1)) ≤ q) (hi : q < 2 ^ (w - 1)) :
    (BitVec.ofInt w q).toInt = q := by
  rw [BitVec.toInt_ofInt]
  obtain ⟨k, rfl⟩ := Nat.exists_eq_add_of_lt hw
  simp only [Nat.zero_add, Nat.add_sub_cancel] at lo hi ⊢
  rw [Int.bmod_eq_of_le_mul_two] <;> push_cast <;> omega

end

/-- A result holds q as a signed number of 32 bits: exactly and with no flag where it fits; else with OV, saturated or
wrapped. -/
def FitsWord (sat : Bool) (u : URes) (q : Int) : Prop :=
  (-(2 ^ 31) ≤ q → q < 2 ^ 31 → u.v.toInt = q ∧ u.fl = 0) ∧
  (q < -(2 ^ 31) ∨ 2 ^ 31 ≤ q → u.fl = flagOV ∧ (sat = true → u.v = if q < 0 then 0x80000000#32 else 0x7FFFFFFF#32) ∧
    (sat = false → u.v = BitVec.ofInt 32 q))

/-- A half holds q as a signed number of 16 bits. -/
def FitsHalf (sat : Bool) (h : BitVec 16) (q : Int) : Prop :=
  (-(2 ^ 15) ≤ q → q < 2 ^ 15 → h.toInt = q) ∧
  (q < -(2 ^ 15) ∨ 2 ^ 15 ≤ q → (sat = true → h = if q < 0 then 0x8000#16 else 0x7FFF#16) ∧
    (sat = false → h = BitVec.ofInt 16 q))

/-- A result holds one number in each half, with OV where either does not fit. -/
def FitsHalves (sat : Bool) (u : URes) (h l : Int) : Prop :=
  FitsHalf sat (u.v.extractLsb' 16 16) h ∧ FitsHalf sat (u.v.extractLsb' 0 16) l ∧
  u.fl = if -(2 ^ 15) ≤ h ∧ h < 2 ^ 15 ∧ -(2 ^ 15) ≤ l ∧ l < 2 ^ 15 then 0 else flagOV

section
variable (sat : Bool)

theorem fit32_fits (q : Int) : FitsWord sat (fit32 sat q) q := by
  unfold fit32
  refine ⟨fun lo hi => ?_, fun out => ?_⟩
  · rw [fit_of_mem lo hi]
    exact ⟨toInt_ofInt_of_mem (by decide) lo hi, rfl⟩
  · rw [fit_of_not_mem out]
    refine ⟨rfl, ?_, ?_⟩
    · rintro rfl
      by_cases hq : q < 0 <;> simp [hq]
    · rintro rfl
      rfl

theorem fit16_fits (q : Int) : FitsHalf sat (fit 16 sat q).1 q := by
  refine ⟨fun lo hi => ?_, fun out => ?_⟩
  · rw [fit_of_mem lo hi]
    exact toInt_ofInt_of_mem (by decide) lo hi
  · rw [fit_of_not_mem out]
    refine ⟨?_, ?_⟩
    · rintro rfl
      by_cases hq : q < 0 <;> simp [hq]
    · rintro rfl
      rfl

theorem fit16_overflow (q : Int) : (fit 16 sat q).2 = !decide (-(2 ^ 15) ≤ q ∧ q < 2 ^ 15) := by
  by_cases h : -(2 ^ 15) ≤ q ∧ q < 2 ^ 15
  · rw [fit_of_mem h.1 h.2, decide_eq_true h]
    rfl
  · rw [fit_of_not_mem (by omega), decide_eq_false h]
    rfl

theorem fit16x2_fits (h l : Int) : FitsHalves sat (fit16x2 sat h l) h l := by
  have high : (fit16x2 sat h l).v.extractLsb' 16 16 = (fit 16 sat h).1 := BitVec.extractLsb'_append_eq_left
  have low : (fit16x2 sat h l).v.extractLsb' 0 16 = (fit 16 sat l).1 := BitVec.extractLsb'_append_eq_right
  refine ⟨high ▸ fit16_fits sat h, low ▸ fit16_fits sat l, ?_⟩
  change ovBits ((fit 16 sat h).2 || (fit 16 sat l).2) = _
  rw [fit16_overflow, fit16_overflow]
  by_cases hh : -(2 ^ 15) ≤ h ∧ h < 2 ^ 15
  · by_cases hl : -(2 ^ 15) ≤ l ∧ l < 2 ^ 15
    · rw [if_pos ⟨hh.1, hh.2, hl⟩, decide_eq_true hh, decide_eq_true hl]
      rfl
    · rw [if_neg fun c => hl c.2.2, decide_eq_true hh, decide_eq_false hl]
      rfl
  · rw [if_neg fun c => hh ⟨c.1, c.2.1⟩, decide_eq_false hh]
    rfl

end

/-! Shifts by any number (Table PEC-5). -/

section
variable (sat : Bool) (o t : Word)

theorem aluOp_shiftLeft : aluOp 11 sat o t = plain (o <<< t.toNat) := by
  change plain (if t.toNat < 32 then o <<< t.toNat else 0) = _
  split
  · rfl
  · rw [BitVec.shiftLeft_eq_zero (by omega)]
    rfl

theorem aluOp_shiftRight : aluOp 12 sat o t = plain (o >>> t.toNat) := by
  change plain (if t.toNat < 32 then o >>> t.toNat else 0) = _
  split
  · rfl
  · rw [BitVec.ushiftRight_eq_zero (by omega)]
    rfl

/-- Beyond 31 places only copies of the sign are left. -/
theorem sshiftRight_of_le {n : Nat} (h : 32 ≤ n) :
    o.sshiftRight n = if o.toInt < 0 then 0xFFFFFFFF#32 else 0 := by
  have bit (i : Nat) (hi : i < 32) : (o.sshiftRight n)[i] = decide (o.toInt < 0) := by
    rw [BitVec.getElem_sshiftRight, dif_neg (by omega), BitVec.msb_eq_toInt]
  ext i hi
  rw [bit i hi]
  split
  · next hneg => rw [decide_eq_true hneg, show (0xFFFFFFFF#32) = BitVec.allOnes 32 by decide, BitVec.getElem_allOnes]
  · next hneg => simpa using hneg

theorem aluOp_sshiftRight : aluOp 13 sat o t = plain (o.sshiftRight t.toNat) := by
  change plain (if t.toNat < 32 then o.sshiftRight t.toNat else if o.toInt < 0 then 0xFFFFFFFF#32 else 0) = _
  split
  · rfl
  · rw [sshiftRight_of_le o (by omega)]

/-- SLS is the product with a power of two in its format: beyond 31 places nothing but 0 fits, and the low bits of the
product are 0. -/
theorem aluSls_fits : FitsWord sat (aluSls sat o t) (o.toInt * 2 ^ t.toNat) := by
  unfold aluSls
  split
  · exact fit32_fits sat _
  · next h =>
    obtain ⟨k, hk⟩ := Nat.exists_eq_add_of_le (Nat.le_of_not_lt h)
    have pos : (1 : Int) ≤ 2 ^ k := one_le_pow₀ (by decide)
    rw [hk, pow_add]
    generalize (2 : Int) ^ k = p at pos
    split
    · next ho =>
      subst ho
      exact ⟨fun _ _ => ⟨by simp [plain], rfl⟩, fun out => by simp at out⟩
    · next ho =>
      have ho : o.toInt ≠ 0 := fun c => ho (BitVec.eq_of_toInt_eq c)
      have low : o.toInt < 0 → o.toInt * (2 ^ 32 * p) < -(2 ^ 31) := fun hneg => by nlinarith
      have high : 0 < o.toInt → 2 ^ 31 ≤ o.toInt * (2 ^ 32 * p) := fun hpos => by nlinarith
      have sign : o.toInt * (2 ^ 32 * p) < 0 ↔ o.toInt < 0 := by omega
      refine ⟨fun lo hi => by omega, fun _ => ⟨rfl, ?_, ?_⟩⟩
      · rintro rfl
        rw [if_congr sign rfl rfl]
        rfl
      · rintro rfl
        refine BitVec.eq_of_toInt_eq ?_
        rw [BitVec.toInt_ofInt, show o.toInt * (2 ^ 32 * p) = ((2 ^ 32 : Nat) : Int) * (o.toInt * p) by push_cast; ring,
          Int.mul_bmod_right]
        rfl

/-! The other results of the ALUs (Table PEC-5). -/

theorem aluOp_rotate : aluOp 15 sat o t = plain (o.rotateLeft t.toNat) :=
  congrArg plain BitVec.rotateLeft_mod_eq_rotateLeft

theorem aluOp_min : (aluOp 16 sat o t).v.toInt = min o.toInt t.toInt := by
  change (if o.toInt ≤ t.toInt then o else t).toInt = _
  rw [apply_ite BitVec.toInt, min_def]

theorem aluOp_max : (aluOp 17 sat o t).v.toInt = max o.toInt t.toInt := by
  change (if o.toInt ≤ t.toInt then t else o).toInt = _
  rw [apply_ite BitVec.toInt, max_def]

theorem aluOp_minU : (aluOp 18 sat o t).v.toNat = min o.toNat t.toNat := by
  change (if o.toNat ≤ t.toNat then o else t).toNat = _
  rw [apply_ite BitVec.toNat, min_def]

theorem aluOp_maxU : (aluOp 19 sat o t).v.toNat = max o.toNat t.toNat := by
  change (if o.toNat ≤ t.toNat then t else o).toNat = _
  rw [apply_ite BitVec.toNat, max_def]

theorem boolW_decide {p : Prop} [Decidable p] : boolW (decide p) = if p then 1 else 0 := by
  simp [boolW]

theorem boolW_decide_not {p : Prop} [Decidable p] : boolW (decide (¬ p)) = if p then 0 else 1 := by
  by_cases h : p <;> simp [boolW, h]

theorem abs_eq_natAbs (q : Int) : (if q < 0 then -q else q) = q.natAbs := by
  split <;> omega

/-- The ones and zeros before the highest one of a word. -/
theorem clz32_of_ne_zero (h : t ≠ 0) : clz32 t = 31 - Nat.log2 t.toNat := by
  have hne : t.toNat ≠ 0 := fun c => h (BitVec.eq_of_toNat_eq c)
  have hlog : Nat.log2 t.toNat < 32 := (Nat.log2_lt hne).2 t.isLt
  have above (i : Nat) (hi : Nat.log2 t.toNat < i) : t.getLsbD i = false :=
    Nat.testBit_lt_two_pow ((Nat.log2_lt hne).1 hi)
  have top : t.getLsbD (Nat.log2 t.toNat) = true := Nat.testBit_log2 hne
  have first : (List.range 32).findIdx (fun i => !!t.getLsbD (31 - i)) = 31 - Nat.log2 t.toNat := by
    refine (List.findIdx_eq (by rw [List.length_range]; omega)).2 ⟨?_, fun j hj => ?_⟩
    · rw [List.getElem_range, Bool.not_not, show 31 - (31 - Nat.log2 t.toNat) = Nat.log2 t.toNat by omega, top]
    · rw [List.getElem_range, Bool.not_not, above _ (by omega)]
  rw [clz32, List.takeWhile_eq_take_findIdx_not, first, List.length_take, List.length_range]
  omega

theorem aluOp_clz_zero : (aluOp 29 sat o 0).v = 32 := by
  change w32 (clz32 0) = 32
  decide

theorem aluOp_clz (h : t ≠ 0) : (aluOp 29 sat o t).v.toNat = 31 - Nat.log2 t.toNat := by
  change (w32 (clz32 t)).toNat = _
  rw [clz32_of_ne_zero t h, w32, BitVec.toNat_ofNat, Nat.mod_eq_of_lt (by omega)]

theorem fieldOf_eq_extract {w : Nat} (x : BitVec w) (lo len : Nat) : fieldOf x lo len = (x.extractLsb' lo len).toNat :=
  (BitVec.extractLsb'_toNat lo len x).symm

/-- Byte i of a reversed word is byte 3 - i. -/
theorem aluOp_byteReverse : ∀ i < 4, fieldOf (aluOp 30 sat o t).v (8 * i) 8 = fieldOf t (24 - 8 * i) 8 := by
  intro i hi
  have reversed : (aluOp 30 sat o t).v =
    t.extractLsb' 0 8 ++ t.extractLsb' 8 8 ++ t.extractLsb' 16 8 ++ t.extractLsb' 24 8 := rfl
  rw [reversed, fieldOf_eq_extract, fieldOf_eq_extract]
  obtain rfl | rfl | rfl | rfl : i = 0 ∨ i = 1 ∨ i = 2 ∨ i = 3 := by omega
  · rw [BitVec.extractLsb'_append_eq_right]
  · rw [BitVec.extractLsb'_append_eq_of_le (by decide), BitVec.extractLsb'_append_eq_right]
  · rw [BitVec.extractLsb'_append_eq_of_le (by decide), BitVec.extractLsb'_append_eq_of_le (by decide),
      BitVec.extractLsb'_append_eq_right]
  · rw [BitVec.extractLsb'_append_eq_of_le (by decide), BitVec.extractLsb'_append_eq_of_le (by decide),
      BitVec.extractLsb'_append_eq_left]

/-- A bit field of the width asked for, at the position asked for. -/
theorem aluOp_bitField : ∀ i < 32, bitOf (aluOp 31 sat o t).v i =
    (decide (i < fieldOf t 0 6) && bitOf (o >>> fieldOf t 8 5) i) := by
  intro i hi
  change bitOf (if fieldOf t 0 6 = 0 then (0 : Word) else if 32 ≤ fieldOf t 0 6 then o >>> fieldOf t 8 5
    else w32 (fieldOf o (fieldOf t 8 5) (fieldOf t 0 6))) i = _
  generalize fieldOf t 8 5 = pos
  generalize fieldOf t 0 6 = wid
  split
  · next h => simp [h, bitOf]
  · split
    · next h => simp [show i < wid by omega]
    · rw [bitOf, w32, BitVec.getLsbD_ofNat, testBit_fieldOf, decide_eq_true hi, Bool.true_and, bitOf,
        BitVec.getLsbD_ushiftRight]

end

/-! The MAC and the divider (Tables PEC-6, PEC-19). -/

section
variable (sat : Bool) (rnd : BitVec 2) (o t : Word)

theorem mulOp_low : mulOp 1 sat rnd o t = plain (o * t) := by
  refine congrArg plain ?_
  rw [BitVec.ofInt_mul, BitVec.ofInt_toInt, BitVec.ofInt_toInt]

theorem mulOp_high : mulOp 2 sat rnd o t = plain (BitVec.ofInt 32 (o.toInt * t.toInt / 2 ^ 32)) :=
  congrArg (fun q => plain (BitVec.ofInt 32 q)) (Int.fdiv_eq_ediv_of_nonneg _ (by decide))

variable {t} (ht : t ≠ 0)
include ht

theorem divOp_quotient : FitsWord sat (divOp 0 sat rnd o t) (Int.tdiv o.toInt t.toInt) := by
  rw [divOp, if_neg ht]
  exact fit32_fits sat _

theorem divOp_quotientU : divOp 1 sat rnd o t = plain (o / t) := by
  rw [divOp, if_neg ht]
  exact congrArg plain (BitVec.eq_of_toNat_eq (by
    rw [BitVec.toNat_ofNat, BitVec.toNat_udiv, Nat.mod_eq_of_lt (Nat.lt_of_le_of_lt (Nat.div_le_self _ _) o.isLt)]))

theorem divOp_remainder : (divOp 2 sat rnd o t).v.toInt = Int.tmod o.toInt t.toInt := by
  rw [divOp, if_neg ht]
  change (BitVec.ofInt 32 (Int.tmod o.toInt t.toInt)).toInt = _
  rw [← BitVec.toInt_srem, BitVec.ofInt_toInt]

theorem divOp_remainder_noFlag : (divOp 2 sat rnd o t).fl = 0 := by
  rw [divOp, if_neg ht]
  rfl

theorem divOp_remainderU : divOp 3 sat rnd o t = plain (o % t) := by
  rw [divOp, if_neg ht]
  exact congrArg plain (BitVec.eq_of_toNat_eq (by
    rw [BitVec.toNat_ofNat, BitVec.toNat_umod, Nat.mod_eq_of_lt (Nat.lt_of_le_of_lt (Nat.mod_le _ _) o.isLt)]))

theorem divOp_fraction :
    FitsWord sat (divOp 4 sat rnd o t) (roundQ rnd (o.toInt * 2 ^ 31 * Int.sign t.toInt) t.toInt.natAbs) := by
  have hne : t.toInt ≠ 0 := fun c => ht (BitVec.eq_of_toInt_eq c)
  have value : divOp 4 sat rnd o t = fit32 sat (if t.toInt < 0 then roundQ rnd (-(o.toInt * 2 ^ 31)) t.toInt.natAbs
      else roundQ rnd (o.toInt * 2 ^ 31) t.toInt.natAbs) := by
    rw [divOp, if_neg ht]
    rfl
  have signed : (if t.toInt < 0 then roundQ rnd (-(o.toInt * 2 ^ 31)) t.toInt.natAbs
      else roundQ rnd (o.toInt * 2 ^ 31) t.toInt.natAbs) =
      roundQ rnd (o.toInt * 2 ^ 31 * Int.sign t.toInt) t.toInt.natAbs := by
    split
    · next hneg => rw [Int.sign_eq_neg_one_of_neg hneg, Int.mul_neg_one]
    · next hneg => rw [Int.sign_eq_one_of_pos (by omega), Int.mul_one]
  rw [value, signed]
  exact fit32_fits sat _

end

/-- Division by zero: the ends, all ones or O, with DZ alone. -/
theorem divOp_zero (sat : Bool) (rnd : BitVec 2) (o : Word) :
    (∀ code, (divOp code sat rnd o 0).fl = flagDZ) ∧
    (o.toInt < 0 → (divOp 0 sat rnd o 0).v = 0x80000000#32 ∧ (divOp 4 sat rnd o 0).v = 0x80000000#32 ∧
      (divOp 1 sat rnd o 0).v = 0xFFFFFFFF#32) ∧
    (0 < o.toInt → (divOp 0 sat rnd o 0).v = 0x7FFFFFFF#32 ∧ (divOp 4 sat rnd o 0).v = 0x7FFFFFFF#32 ∧
      (divOp 1 sat rnd o 0).v = 0xFFFFFFFF#32) ∧
    (o = 0 → (divOp 0 sat rnd o 0).v = 0 ∧ (divOp 4 sat rnd o 0).v = 0 ∧ (divOp 1 sat rnd o 0).v = 0) ∧
    (divOp 2 sat rnd o 0).v = o ∧ (divOp 3 sat rnd o 0).v = o := by
  have signed : divOp 0 sat rnd o 0 =
      ⟨if o = 0 then 0 else if o.toInt < 0 then 0x80000000#32 else 0x7FFFFFFF#32, flagDZ⟩ := rfl
  have fraction : divOp 4 sat rnd o 0 =
      ⟨if o = 0 then 0 else if o.toInt < 0 then 0x80000000#32 else 0x7FFFFFFF#32, flagDZ⟩ := rfl
  have unsigned : divOp 1 sat rnd o 0 = ⟨if o = 0 then 0 else 0xFFFFFFFF#32, flagDZ⟩ := rfl
  have nonzero (h : o.toInt ≠ 0) : o ≠ 0 := fun c => h (by rw [c]; rfl)
  rw [signed, fraction, unsigned]
  refine ⟨fun _ => rfl, fun hneg => ?_, fun hpos => ?_, fun hz => ?_, rfl, rfl⟩
  · have hne := nonzero (by omega)
    simp only [if_neg hne, if_pos hneg, and_self]
  · have hne := nonzero (by omega)
    simp only [if_neg hne, if_neg (show ¬ o.toInt < 0 by omega), and_self]
  · simp [hz]

/-! Rounding (Table PEC-18). -/

/-- Rounding to the nearest goes down, up, or on a tie to the even neighbour. -/
theorem roundQ_even_cases (num : Int) (den : Nat) : let f := Int.fdiv num den
    (2 * (num - f * den) < den ∧ roundQ 2 num den = f) ∨ (den < 2 * (num - f * den) ∧ roundQ 2 num den = f + 1) ∨
    (2 * (num - f * den) = den ∧ roundQ 2 num den % 2 = 0 ∧ (roundQ 2 num den = f ∨ roundQ 2 num den = f + 1)) := by
  intro f
  have value : roundQ 2 num den = if 2 * (num - f * den) < den then f else
    if (den : Int) < 2 * (num - f * den) then f + 1 else if f % 2 = 0 then f else f + 1 := rfl
  rw [value]
  split_ifs <;> omega

section
variable {num : Int} {den : Nat} (hd : 0 < den)
include hd

theorem fdiv_bounds : num.fdiv den * den ≤ num ∧ num < (num.fdiv den + 1) * den := by
  have hd' : (0 : Int) < den := by exact_mod_cast hd
  rw [Int.fdiv_eq_ediv_of_nonneg _ hd'.le]
  exact ⟨Int.ediv_mul_le _ hd'.ne', Int.lt_ediv_add_one_mul_self _ hd'⟩

theorem roundQ_halfUp :
    (2 * roundQ 1 num den - 1) * den ≤ 2 * num ∧ 2 * num < (2 * roundQ 1 num den + 1) * den := by
  have h := fdiv_bounds (num := 2 * num + den) (den := 2 * den) (by omega)
  change (2 * Int.fdiv (2 * num + den) (2 * den) - 1) * den ≤ 2 * num ∧
    2 * num < (2 * Int.fdiv (2 * num + den) (2 * den) + 1) * den
  push_cast at h
  constructor <;> linarith [h.1, h.2]

theorem roundQ_halfEven :
    (2 * roundQ 2 num den - 1) * den ≤ 2 * num ∧ 2 * num ≤ (2 * roundQ 2 num den + 1) * den ∧
    (2 * num = (2 * roundQ 2 num den + 1) * den ∨ 2 * num = (2 * roundQ 2 num den - 1) * den →
      roundQ 2 num den % 2 = 0) := by
  obtain ⟨lo, hi⟩ := fdiv_bounds (num := num) hd
  have hd' : (0 : Int) < den := by exact_mod_cast hd
  obtain ⟨hr, hq⟩ | ⟨hr, hq⟩ | ⟨hr, even, hq | hq⟩ := roundQ_even_cases num den
  · rw [hq]
    exact ⟨by linarith, by linarith, fun h => by rcases h with h | h <;> linarith⟩
  · rw [hq]
    exact ⟨by linarith, by linarith, fun h => by rcases h with h | h <;> linarith⟩
  · refine ⟨?_, ?_, fun _ => even⟩ <;> rw [hq] <;> linarith
  · refine ⟨?_, ?_, fun _ => even⟩ <;> rw [hq] <;> linarith

end

/-- Settles O24, operation by operation. -/
theorem arithmeticOfTheUnits : Obligations.ArithmeticOfTheUnits := by
  intro sat o tv r fits half halves
  have absolute : fits (r 9) tv.toInt.natAbs := abs_eq_natAbs tv.toInt ▸ fit32_fits sat _
  refine ⟨fit32_fits sat _, fit32_fits sat _, fit32_fits sat _, absolute, aluSls_fits sat o tv, rfl, rfl, rfl,
    rfl, rfl, rfl, aluOp_shiftLeft sat o tv, aluOp_shiftRight sat o tv, aluOp_sshiftRight sat o tv,
    aluOp_rotate sat o tv, aluOp_min sat o tv, aluOp_max sat o tv, aluOp_minU sat o tv, aluOp_maxU sat o tv,
    congrArg plain boolW_decide, congrArg plain boolW_decide_not, congrArg plain boolW_decide,
    congrArg plain boolW_decide, congrArg plain boolW_decide, congrArg plain boolW_decide,
    fit16x2_fits sat _ _, fit16x2_fits sat _ _, fit16x2_fits sat _ _, 
    fun h => (congrArg (fun x => (aluOp 29 sat o x).v) h).trans (aluOp_clz_zero sat o), aluOp_clz sat o tv,
      aluOp_byteReverse sat o tv, aluOp_bitField sat o tv, rfl, rfl, rfl, rfl, rfl, rfl, rfl,
    fun rnd => ⟨fit32_fits sat _, mulOp_low sat rnd o tv, mulOp_high sat rnd o tv, fit16x2_fits sat _ _,
      fun ht => ⟨divOp_quotient sat rnd o ht, divOp_quotientU sat rnd o ht, divOp_remainder sat rnd o ht,
        divOp_remainder_noFlag sat rnd o ht, divOp_remainderU sat rnd o ht, divOp_fraction sat rnd o ht⟩,
      fun ht => ht ▸ divOp_zero sat rnd o⟩,
    fun a => fit32_fits sat _, fun num den hd => ?_⟩
  obtain ⟨nearLo, nearHi⟩ := roundQ_halfUp (num := num) hd
  obtain ⟨evenLo, evenHi, tie⟩ := roundQ_halfEven (num := num) hd
  obtain ⟨lo, hi⟩ := fdiv_bounds (num := num) hd
  exact ⟨lo, hi, nearLo, nearHi, evenLo, evenHi, tie, rfl⟩

end Sys2Proof.Machine
end

section
/-! SUPPORT. One cycle of an engine (R92-R97, R108-R110): replacing an engine, a cycle in which nothing lands, and the
issue of one unguarded move. -/

namespace Sys2Proof.Machine

/-! Writes that change nothing. -/

section
variable {α : Type} {d : Nat → α}

/-- In a canonical store what a key reads as is its entry, or the default where it has none. -/
theorem amFind_of_wf [DecidableEq α] {m : AMap α} (hw : amWf d m) (k : Nat) :
    amFind m k = if amGet d m k = d k then none else some (amGet d m k) := by
  have listed : ∀ m : AMap α, (∀ e ∈ m, e.2 ≠ d e.1) → ∀ v, amFind m k = some v → v ≠ d k := by
    intro m
    induction m with
    | nil => exact fun _ _ h => by cases h
    | cons e r ih =>
      intro hr v hv
      rw [amFind] at hv
      split at hv
      · next hk =>
        cases hv
        exact hk ▸ hr e List.mem_cons_self
      · exact ih (fun x hx => hr x (List.mem_cons_of_mem _ hx)) v hv
  unfold amGet
  cases hf : amFind m k with
  | none => simp
  | some v => simp [listed m hw.2 v hf]

theorem amErase_of_unlisted : ∀ {m : AMap α} {k : Nat}, amFind m k = none → amErase m k = m
  | [], _, _ => rfl
  | (k', v) :: r, k, h => by
    rw [amFind] at h
    split at h
    · cases h
    · next hk => rw [amErase, if_neg hk, amErase_of_unlisted h]

theorem amInsert_of_listed : ∀ {m : AMap α} {k : Nat} {v : α}, m.Pairwise (fun a b => a.1 < b.1) →
    amFind m k = some v → amInsert m k v = m
  | [], _, _, _, h => by cases h
  | (k', v') :: r, k, v, hs, h => by
    obtain ⟨below, hs⟩ := List.pairwise_cons.1 hs
    rw [amFind] at h
    split at h
    · next hk =>
      cases h
      rw [amInsert, if_neg (by omega), if_pos hk.symm, hk]
    · next hk =>
      have : k' < k := by
        by_contra hlt
        have := amFind_lt_none r k fun e he => by
          have := below e he
          dsimp only at this
          omega
        rw [this] at h
        cases h
      rw [amInsert, if_neg (by omega), if_neg (by omega), amInsert_of_listed hs h]

/-- Writing to a key of a canonical store what it reads as changes nothing. -/
theorem amPut_self [DecidableEq α] {m : AMap α} (hw : amWf d m) (k : Nat) : amPut d m k (amGet d m k) = m := by
  have find := amFind_of_wf hw k
  unfold amPut
  split
  · next h => exact amErase_of_unlisted (by rw [find, if_pos h])
  · next h => exact amInsert_of_listed hw.1 (by rw [find, if_neg h])

end

section
variable (s : State) (e f : Fin 10) (x y : Engine)

theorem State.setReg_self {s : State} (hw : s.storesWf) (a : Nat) : s.setReg a (s.reg a) = s := by
  rw [State.setReg, State.reg, amPut_self (State.storesWf_regs hw)]

theorem State.countN_zero {s : State} (hw : s.storesWf) (a : Nat) : s.countN a 0 = s := by
  have zero : s.reg a + w32 0 = s.reg a := BitVec.add_zero _
  rw [State.countN, zero, State.setReg_self hw]

@[simp] theorem State.eng_setEng_same : (s.setEng e x).eng[e] = x := getElem_vset_same _ _ _

theorem State.eng_setEng_other {e f : Fin 10} (h : f ≠ e) : (s.setEng e x).eng[f] = s.eng[f] :=
  getElem_vset_other _ _ h

@[simp] theorem State.setEng_setEng : (s.setEng e x).setEng e y = s.setEng e y := by
  simp [State.setEng, vset]

theorem State.setEng_self : s.setEng e s.eng[e] = s := by
  simp [State.setEng, vset]

theorem engineIs_setEng (base : State) : EngineIs e x s (settle base (s.setEng e x)) := by
  have heng : (settle base (s.setEng e x)).eng = (s.setEng e x).eng := settle_part _ _ .eng
  refine ⟨by rw [heng]; exact s.eng_setEng_same e x, fun f hf => ?_⟩
  rw [heng]
  exact s.eng_setEng_other x hf

theorem State.setEng_framed (ps : List Part) (rs ts : List Nat) (h : .eng ∈ ps) : Framed ps rs ts s (s.setEng e x) :=
  (Framed.refl ps rs ts s).update h (fun p hp => by cases p <;> simp_all [Part.same]) rfl rfl rfl

/-- A command whose effect is a new state of one engine ends in it. -/
theorem ends_setEng {c : Instr} (h : exec c s = commit s (s.setEng e x)) :
    Ends c s fun t => EngineIs e x s t ∧ Framed [.eng] [] [] s t :=
  ends_of_commit h ⟨engineIs_setEng s e x s, framed_settle (s.setEng_framed e x _ _ _ (by simp))⟩

end

/-! Contexts. -/

section
variable (x : Engine) (svc : Bool) (c c' : Ctx)

@[simp] theorem ctxOf_withCtx : ctxOf (withCtx x svc c) svc = c := by cases svc <;> rfl

@[simp] theorem withCtx_withCtx : withCtx (withCtx x svc c) svc c' = withCtx x svc c' := by cases svc <;> rfl

@[simp] theorem withCtx_ctxOf : withCtx x svc (ctxOf x svc) = x := by cases svc <;> rfl

@[simp] theorem withCtx_flight : (withCtx x svc c).flight = x.flight := by cases svc <;> rfl

@[simp] theorem withCtx_kern : (withCtx x svc c).kern = x.kern := by cases svc <;> rfl

@[simp] theorem withCtx_role : (withCtx x svc c).role = x.role := by cases svc <;> rfl

@[simp] theorem ctxOf_ticked : ctxOf (ticked x) svc = ctxOf x svc := by cases svc <;> rfl

@[simp] theorem ctxOf_flight (l : List InFlight) : ctxOf { x with flight := l } svc = ctxOf x svc := by
  cases svc <;> rfl

theorem withCtx_flight_comm (l : List InFlight) :
    withCtx { x with flight := l } svc c = { withCtx x svc c with flight := l } := by cases svc <;> rfl

end

theorem State.setCtx_eq (s : State) (e : Fin 10) (svc : Bool) (c : Ctx) :
    s.setCtx e svc c = s.setEng e (withCtx s.eng[e] svc c) := rfl

/-! A cycle in which nothing lands. -/

/-- The conditions under which a context issues, as `issuer` asks for them. -/
theorem State.issuer_some {s : State} {e : Fin 10} {svc : Bool} (h : s.issuer e = some svc) :
    s.engLive e = true ∧ s.eng[e].halted = false ∧ s.eng[e].freeze = 0 ∧ lateBy s.eng[e] = 0 ∧
      (svc = true → s.eng[e].kern = .idle) := by
  unfold State.issuer at h
  dsimp only at h
  split at h
  · cases h
  · next hc =>
    simp only [Bool.or_eq_true, decide_eq_true_eq, not_or, Bool.not_eq_true, Bool.not_eq_false'] at hc
    obtain ⟨⟨⟨live, halted⟩, freeze⟩, late⟩ := hc
    refine ⟨live, halted, by simpa using freeze, by simpa using late, ?_⟩
    rintro rfl
    split at h
    · cases h
    · cases h
    · split at h <;> cases h
    · assumption

/-- Where no operation in flight is due, nothing lands. -/
theorem State.landDue_quiet {s : State} (hw : s.storesWf) {e : Fin 10}
    (h : ∀ f ∈ s.eng[e].flight, s.eng[e].pipe < f.at_) : s.landDue e = (s, []) := by
  have due : s.eng[e].flight.filter (fun f => decide (f.at_ ≤ s.eng[e].pipe)) = [] :=
    List.filter_eq_nil_iff.2 fun f hf => by simpa only [decide_eq_true_eq, not_le] using h f hf
  have rest : s.eng[e].flight.filter (fun f => !decide (f.at_ ≤ s.eng[e].pipe)) = s.eng[e].flight :=
    List.filter_eq_self.2 fun f hf => by simpa only [Bool.not_eq_true', decide_eq_false_iff_not, not_le] using h f hf
  have kept : s.setEng e { s.eng[e] with flight := s.eng[e].flight } = s := s.setEng_self e
  unfold State.landDue
  dsimp only
  rw [due, rest, kept, show lostLoads [] = 0 from rfl, State.countN_zero hw]
  rfl

/-- The cycle in which a context issues: the counts of the cycle, then the issue. -/
theorem State.engCycle_issues {s : State} (hw : s.storesWf) {e : Fin 10} {svc : Bool} (hi : s.issuer e = some svc)
    (hb : s.breakAt e svc = none) (hd : wdogExpired (tickEngine s.eng[e]) = false)
    (hq : ∀ f ∈ s.eng[e].flight, s.eng[e].pipe + 1 < f.at_) (ov : Option Slot) :
    s.engCycle e ov = (s.setEng e (Machine.ticked s.eng[e])).issue e svc (s.ctx e svc).flg [] ov := by
  obtain ⟨live, halted, freeze, late, -⟩ := State.issuer_some hi
  have quiet : (s.setEng e (Machine.ticked s.eng[e])).landDue e = (s.setEng e (Machine.ticked s.eng[e]), []) :=
    State.landDue_quiet hw.setEng fun f hf => by
      rw [State.eng_setEng_same] at hf ⊢
      exact hq f hf
  have z : ({ tickEngine s.eng[e] with
      bpSkip := false
      kern := (match (tickEngine s.eng[e]).kern with | .entering => .running | q => q)
      kCount := (match (tickEngine s.eng[e]).kern with | .entering => some 0 | _ => (tickEngine s.eng[e]).kCount) } :
      Engine) = Machine.ticked s.eng[e] := rfl
  unfold State.engCycle
  dsimp only
  rw [live, halted, if_neg (by decide), if_neg (not_not_intro freeze), if_neg (not_not_intro late), hi]
  dsimp only
  rw [hb]
  dsimp only
  rw [hd, if_neg (by decide)]
  erw [z, quiet]
  rw [ctxOf_ticked]
  rfl

/-! One move. -/

/-- An engine after the issue of an instruction that branches nowhere; `delay`: it is KEND's delay slot. -/
def goneOn (x : Engine) (svc delay : Bool) : Engine :=
  let c := ctxOf x svc
  let y := withCtx x svc { c with pc := c.pend.getD (c.pc + 1), pend := none }
  if delay then kernelDone y else y

theorem cycled_eq (x : Engine) (svc : Bool) : cycled x svc = goneOn (ticked x) svc (!svc && x.kern = .delay) := by
  unfold cycled goneOn
  rw [ctxOf_ticked]

theorem goneOn_flight (x : Engine) (svc delay : Bool) (l : List InFlight) :
    goneOn { x with flight := l } svc delay = { goneOn x svc delay with flight := l } := by
  unfold goneOn
  dsimp only
  rw [ctxOf_flight, withCtx_flight_comm]
  cases delay with
  | false => rfl
  | true =>
    simp only [if_true, kernelDone]
    split
    · rfl
    · rfl

/-- An instruction that neither branches nor ends a loop moves the program counter on. -/
theorem advance_straight (c : Ctx) :
    advance c ⟨none, []⟩ none = { c with pc := c.pend.getD (c.pc + 1), pend := none } := by
  unfold advance
  cases h : c.pend <;> rfl

/-- With no loop ending at the instruction, its loop check passes. -/
theorem loopCheck_straight {lp : Vector LoopRegs 4} {pc : BitVec 12} :
    ∀ l : List (Fin 4), (∀ n ∈ l, lp[n].cnt = 0 ∨ lp[n].stop ≠ pc) → loopCheck lp pc l = .ok ⟨none, []⟩
  | [], _ => rfl
  | n :: r, h => by
    have here : (lp[n].cnt = 0 || lp[n].stop ≠ pc) = true := by simpa using h n List.mem_cons_self
    rw [loopCheck, if_pos here]
    exact loopCheck_straight r fun m hm => h m (List.mem_cons_of_mem _ hm)

theorem loopOf_straight {x : Engine} {svc : Bool} (ms : List Move)
    (h : svc = false → ∀ n : Fin 4, (ctxOf x svc).lp[n].cnt = 0 ∨ (ctxOf x svc).lp[n].stop ≠ (ctxOf x svc).pc) :
    loopOf x svc ms = .ok ⟨none, []⟩ := by
  unfold loopOf
  extract_lets c branches
  split
  · rfl
  · next hc =>
    simp only [Bool.or_eq_true, not_or, Bool.not_eq_true] at hc
    obtain ⟨⟨⟨hs, -⟩, -⟩, -⟩ := hc
    exact loopCheck_straight _ fun n _ => h hs n

/-! An issue with no repeated slot. -/

/-- The control-unit move performed, by its code, with its value. -/
def cuMoved (vs : List Moved) : Option (Nat × Word) :=
  (vs.find? (fun w => isCu w.m.dst)).map (fun w => ((match w.m.dst with | .cu k => k.val | _ => 6), w.v))

/-- What follows the triggers of an issue: the program goes on where the control unit says, KEND's delay slot ends the
kernel, and KEND and WAIT do what they are for. -/
def State.goOn (s : State) (e : Fin 10) (svc delay : Bool) (vs : List Moved) : State :=
  let b := branchOf (s.ctx e svc) (cuMoved vs)
  let y := withCtx s.eng[e] svc (Machine.advance b.2 ⟨none, []⟩ b.1)
  let t := s.setEng e (if delay then kernelDone y else y)
  match cuMoved vs with
  | some (4, _) => t.kendIssue e
  | some (5, v) => t.waitIssue e v
  | _ => t

/-- An issue with no repeated slot, at which no loop ends: the moves, their triggers, and what follows. -/
theorem State.perform_once {s : State} {e : Fin 10} {svc : Bool} {ms : List Move} (hr : ∀ m ∈ ms, m.sl.rpt = false)
    (hl : loopOf s.eng[e] svc ms = .ok ⟨none, []⟩) (flg0 : BitVec 3) :
    s.perform e svc flg0 [] ms =
      let vs := readMoves s.eng[e] svc ms
      (vs.foldl (fun t w => t.trigger e svc w.m.sl w.m.dst w.v)
        (s.setCtx e svc (afterMoves (s.ctx e svc) flg0 vs []))).goOn e svc (!svc && s.eng[e].kern = .delay) vs := by
  have none : ms.find? (fun m => m.sl.rpt) = none := List.find?_eq_none.2 fun m hm => by simp [hr m hm]
  have all : ms.filter (fun m => !m.sl.rpt) = ms := List.filter_eq_self.2 fun m hm => by simp [hr m hm]
  unfold State.perform
  extract_lets +onlyGivenNames x rep once dec vs s1 s2 c2
  have hrep : rep = Option.none := by unfold rep; rw [none]; rfl
  have honce : once = ms := by unfold once; rw [hrep]; exact all
  have hdec : dec = ⟨Option.none, []⟩ := by unfold dec; rw [hl]
  clear_value rep once dec
  subst hrep honce hdec
  dsimp -zeta only
  extract_lets +onlyGivenNames cu b s3 wasDelay s4
  have hs4 : s4 = s2.setEng e
      (if wasDelay then kernelDone (withCtx s2.eng[e] svc (Machine.advance b.2 ⟨Option.none, []⟩ b.1))
        else withCtx s2.eng[e] svc (Machine.advance b.2 ⟨Option.none, []⟩ b.1)) := by
    unfold s4
    cases wasDelay with
    | false => rfl
    | true => simp only [if_true, s3, State.setCtx_eq, State.setEng_setEng, State.eng_setEng_same]; rfl
  clear_value s4
  subst hs4
  rfl

theorem State.goOn_uncontrolled (s : State) (e : Fin 10) (svc delay : Bool) {vs : List Moved} (h : cuMoved vs = none) :
    s.goOn e svc delay vs = s.setEng e (goneOn s.eng[e] svc delay) := by
  unfold State.goOn goneOn
  rw [h]
  dsimp only [branchOf]
  rw [advance_straight]
  rfl

/-! A move of a literal value. -/

section
variable {n : Nat} (sat : Bool) (rnd : BitVec 2) (v : Word) {d : Dest}

theorem trueMoves_lit (hd : destOf (BitVec.ofNat 8 n) = some d) (p : BitVec 8) :
    trueMoves p [litSlot n sat rnd v] = [⟨litSlot n sat rnd v, d⟩] := by
  have taken : guardTrue p (litSlot n sat rnd v).guard = true := rfl
  have dest : destOf (litSlot n sat rnd v).dst = some d := hd
  rw [trueMoves, List.filterMap_cons, if_pos taken, dest]
  rfl

/-- A move of a literal to a port its context may use has the faults of the move performed alone. -/
theorem slotFault_lit (hd : destOf (BitVec.ofNat 8 n) = some d) {svc : Bool}
    (hp : privBad svc (litSlot n sat rnd v) = false) (x : Engine) :
    slotFault x svc [litSlot n sat rnd v] false = performFault x svc [⟨litSlot n sat rnd v, d⟩] := by
  have dest : destOf (litSlot n sat rnd v).dst = some d := hd
  have fault (cnt : Nat) : staticFault svc false [litSlot n sat rnd v] cnt = 0 := by
    simp only [staticFault, List.any_cons, List.any_nil, dest, hp]
    rfl
  rw [slotFault, fault, trueMoves_lit sat rnd v hd]
  rfl

/-- The first issue of such a move. -/
theorem State.issue_lit (hd : destOf (BitVec.ofNat 8 n) = some d) {svc : Bool}
    (hp : privBad svc (litSlot n sat rnd v) = false) {s : State} {e : Fin 10} (hr : (s.ctx e svc).rptRun = false)
    (flg0 : BitVec 3) :
    s.issue e svc flg0 [] (some (litSlot n sat rnd v)) =
      if performFault s.eng[e] svc [⟨litSlot n sat rnd v, d⟩] ≠ 0 then
        s.programFault e (performFault s.eng[e] svc [⟨litSlot n sat rnd v, d⟩]) 0
      else s.perform e svc flg0 [] [⟨litSlot n sat rnd v, d⟩] := by
  unfold State.issue
  dsimp only
  rw [hr]
  simp only [Bool.false_eq_true, if_false, State.issueSlots, slotFault_lit sat rnd v hd hp]
  rw [trueMoves_lit sat rnd v hd]
  rfl

theorem readMoves_lit (x : Engine) (svc : Bool) (d : Dest) :
    readMoves x svc [⟨litSlot n sat rnd v, d⟩] = [⟨⟨litSlot n sat rnd v, d⟩, v, 0⟩] := rfl

/-- A move to a port that is triggered writes nothing. -/
theorem afterMoves_unwritten {c : Ctx} {w : Moved} (hw : portWrite c w.m.dst w.v = c) (hf : w.m.dst ≠ .flg)
    (hl : w.fl = 0) : afterMoves c c.flg [w] [] = c := by
  have written : writeAll c [w] = c := by
    unfold writeAll
    cases ha : isAg w.m.dst <;> simp [ha, hw]
  have flags : c.flg ||| 0#3 ||| (0 ||| w.fl) = c.flg := by rw [hl]; simp
  simp only [afterMoves, written, List.any_cons, List.any_nil, hf, decide_false, Bool.or_false, Bool.false_eq_true,
    if_false, List.foldl_cons, List.foldl_nil]
  rw [flags]

/-- A move to a trigger: the operation enters its unit, and the program goes on. -/
theorem State.perform_trigger {s : State} {e : Fin 10} {svc : Bool}
    (hl : loopOf s.eng[e] svc [⟨litSlot n sat rnd v, d⟩] = .ok ⟨none, []⟩)
    (hw : ∀ c, Machine.portWrite c d v = c) (hf : d ≠ .flg) (hc : isCu d = false) :
    s.perform e svc (s.ctx e svc).flg [] [⟨litSlot n sat rnd v, d⟩] =
      let t := s.trigger e svc (litSlot n sat rnd v) d v
      t.setEng e (goneOn t.eng[e] svc (!svc && s.eng[e].kern = .delay)) := by
  have moved := afterMoves_unwritten (c := s.ctx e svc) (w := ⟨⟨litSlot n sat rnd v, d⟩, v, 0⟩) (hw _) hf rfl
  have same : s.setCtx e svc (s.ctx e svc) = s := by
    rw [State.setCtx_eq, State.ctx, withCtx_ctxOf, State.setEng_self]
  have free : cuMoved [⟨⟨litSlot n sat rnd v, d⟩, v, 0⟩] = none := by simp [cuMoved, hc]
  rw [State.perform_once (fun m hm => by rw [List.mem_singleton.1 hm]; rfl) hl]
  dsimp only
  rw [readMoves_lit, moved, same, State.goOn_uncontrolled _ _ _ _ free]
  rfl

/-- A move to the control unit: the program goes on as it says. -/
theorem State.perform_cu {s : State} {e : Fin 10} {svc : Bool} {k : Fin 6}
    (hl : loopOf s.eng[e] svc [⟨litSlot n sat rnd v, .cu k⟩] = .ok ⟨none, []⟩) :
    s.perform e svc (s.ctx e svc).flg [] [⟨litSlot n sat rnd v, .cu k⟩] =
      s.goOn e svc (!svc && s.eng[e].kern = .delay) [⟨⟨litSlot n sat rnd v, .cu k⟩, v, 0⟩] := by
  have moved := afterMoves_unwritten (c := s.ctx e svc) (w := ⟨⟨litSlot n sat rnd v, .cu k⟩, v, 0⟩) rfl (by simp) rfl
  have same : s.setCtx e svc (s.ctx e svc) = s := by
    rw [State.setCtx_eq, State.ctx, withCtx_ctxOf, State.setEng_self]
  rw [State.perform_once (fun m hm => by rw [List.mem_singleton.1 hm]; rfl) hl]
  dsimp only
  rw [readMoves_lit, moved, same]
  rfl

end

end Sys2Proof.Machine
end

section
/-! SUPPORT. The moves that trigger a unit (R94, R99, R100, R105-R107): what each leaves in its engine. -/

namespace Sys2Proof.Machine

/-- The ports whose write triggers a unit other than the control unit (Table PEC-3). -/
def Dest.triggers : Dest → Bool
  | .alu _ _ | .mac _ _ | .div _ | .lsu _ | .crc _ | .fwu _ | .snap => true
  | _ => false

section
variable {d : Dest} (h : d.triggers = true)
include h

theorem portWrite_triggers (c : Ctx) (v : Word) : portWrite c d v = c := by
  cases d <;> simp [Dest.triggers] at h <;> rfl

theorem ne_flg_of_triggers : d ≠ .flg := by
  rintro rfl
  cases h

theorem isCu_of_triggers : isCu d = false := by
  cases d <;> simp [Dest.triggers] at h <;> rfl

end

/-- No trigger is a loop register, KEND or WAIT, the ports that one context alone may use (R111). -/
theorem triggers_addr : ∀ n < 256, (destOf (BitVec.ofNat 8 n)).any Dest.triggers = true →
    ¬ (0x54 ≤ n ∧ n < 0x60) ∧ n ≠ 0xF4 ∧ n ≠ 0xF5 := by decide +kernel

theorem privBad_triggers {n : Nat} (hn : n < 256) {d : Dest} (hd : destOf (BitVec.ofNat 8 n) = some d)
    (ht : d.triggers = true) (svc sat : Bool) (rnd : BitVec 2) (v : Word) :
    privBad svc (litSlot n sat rnd v) = false := by
  obtain ⟨hl, h4, h5⟩ := triggers_addr n hn (by rw [hd]; exact ht)
  have addr : (litSlot n sat rnd v).dst.toNat = n := by
    rw [litSlot, BitVec.toNat_ofNat, Nat.mod_eq_of_lt hn]
  have ne {b : Byte} (hb : n ≠ b.toNat) : (litSlot n sat rnd v).dst ≠ b := fun c => hb (by rw [← addr, c])
  have n4 := ne (b := 0xF4#8) h4
  have n5 := ne (b := 0xF5#8) h5
  unfold privBad
  dsimp only
  have src : ¬ (0x54 ≤ (litSlot n sat rnd v).src.toNat ∧ (litSlot n sat rnd v).src.toNat < 0x60) := by
    rw [show (litSlot n sat rnd v).src = 0xF8#8 from rfl]
    decide
  rw [addr, decide_eq_false hl, decide_eq_false src]
  cases svc with
  | false => simpa using n5
  | true => simpa using n4

theorem ticked_kern_delay (x : Engine) : (ticked x).kern = .delay ↔ x.kern = .delay := by
  cases h : x.kern <;> simp [ticked, h]

/-! The issue of a one-move instruction. -/

section
variable {s : State} {e : Fin 10} {svc : Bool} {n : Nat} {d : Dest} (sat : Bool) (rnd : BitVec 2) (v : Word)

/-- A one-move instruction whose context issues meets the faults of its move, or performs it. -/
theorem State.oneMove_issues (hw : s.storesWf) (hi : Issues e svc s) (hd : destOf (BitVec.ofNat 8 n) = some d)
    (hp : privBad svc (litSlot n sat rnd v) = false) :
    s.oneMove e svc (litSlot n sat rnd v) =
      let u := s.setEng e (Machine.ticked s.eng[e])
      let m : Move := ⟨litSlot n sat rnd v, d⟩
      if performFault u.eng[e] svc [m] ≠ 0 then u.programFault e (performFault u.eng[e] svc [m]) 0
      else u.perform e svc (u.ctx e svc).flg [] [m] := by
  have same : (s.setEng e (Machine.ticked s.eng[e])).ctx e svc = s.ctx e svc := by
    rw [State.ctx, State.eng_setEng_same, ctxOf_ticked, State.ctx]
  rw [State.oneMove, if_pos hi.turn, State.engCycle_issues hw hi.turn hi.brk hi.wdog hi.quiet,
    State.issue_lit sat rnd v hd hp (by rw [same]; exact hi.once)]
  dsimp only
  rw [same]

theorem Issues.loopOf_ticked (hi : Issues e svc s) (ms : List Move) :
    loopOf (ticked s.eng[e]) svc ms = .ok ⟨none, []⟩ :=
  loopOf_straight ms (by rw [ctxOf_ticked]; exact hi.straight)

/-- A trigger meets no fault. -/
theorem performFault_triggers {x : Engine} (ht : d.triggers = true) {m : Move} (hm : m.dst = d)
    (hl : loopOf x svc [m] = .ok ⟨none, []⟩) : performFault x svc [m] = 0 := by
  have none : cuOf [m] = none := by
    simp [cuOf, hm, isCu_of_triggers ht]
  unfold performFault
  simp [none, hl]

/-- A trigger that issues: its operation enters its unit, and the program goes on. -/
theorem State.oneMove_triggers (hw : s.storesWf) (hi : Issues e svc s) (hn : n < 256)
    (hd : destOf (BitVec.ofNat 8 n) = some d) (ht : d.triggers = true) :
    s.oneMove e svc (litSlot n sat rnd v) =
      let t := (s.setEng e (Machine.ticked s.eng[e])).trigger e svc (litSlot n sat rnd v) d v
      t.setEng e (goneOn t.eng[e] svc (!svc && s.eng[e].kern = .delay)) := by
  have loop (ms : List Move) : loopOf (s.setEng e (Machine.ticked s.eng[e])).eng[e] svc ms = .ok ⟨none, []⟩ := by
    rw [State.eng_setEng_same]
    exact hi.loopOf_ticked ms
  have delay : decide ((s.setEng e (Machine.ticked s.eng[e])).eng[e].kern = .delay) =
      decide (s.eng[e].kern = .delay) := by
    rw [State.eng_setEng_same]
    exact decide_eq_decide.2 (ticked_kern_delay _)
  rw [State.oneMove_issues sat rnd v hw hi hd (privBad_triggers hn hd ht svc sat rnd v)]
  dsimp only
  rw [performFault_triggers ht rfl (loop _), if_neg (not_not_intro rfl),
    State.perform_trigger sat rnd v (loop _) (portWrite_triggers ht · v) (ne_flg_of_triggers ht) (isCu_of_triggers ht),
    delay]

/-! The operations of the units. -/

theorem State.ctx_ticked : (s.setEng e (Machine.ticked s.eng[e])).ctx e svc = s.ctx e svc := by
  rw [State.ctx, State.eng_setEng_same, ctxOf_ticked, State.ctx]

/-- The engine after an operation has entered its unit and the program has gone on. -/
theorem goneOn_launchLate (u : State) (lat late : Nat) (w : Landing) :
    let t := (u.setEng e (ticked s.eng[e])).launchLate e svc lat late w
    t.setEng e (goneOn t.eng[e] svc (!svc && s.eng[e].kern = .delay)) =
      u.setEng e (launchedLate s.eng[e] svc lat late w) := by
  intro t
  have entered : t = u.setEng e
      { ticked s.eng[e] with flight := s.eng[e].flight ++ [⟨svc, s.eng[e].pipe + 1 + lat, w, late⟩] } := by
    unfold t State.launchLate
    dsimp only
    rw [State.setEng_setEng, State.eng_setEng_same]
    rfl
  rw [entered, State.setEng_setEng, State.eng_setEng_same, goneOn_flight, ← cycled_eq]
  rfl

theorem State.oneMove_launch (hw : s.storesWf) (hi : Issues e svc s) (hn : n < 256)
    (hd : destOf (BitVec.ofNat 8 n) = some d) (ht : d.triggers = true) {lat : Nat} {w : Landing}
    (h : (s.setEng e (Machine.ticked s.eng[e])).trigger e svc (litSlot n sat rnd v) d v =
      (s.setEng e (Machine.ticked s.eng[e])).launch e svc lat w) :
    s.oneMove e svc (litSlot n sat rnd v) = s.setEng e (Machine.launched s.eng[e] svc lat w) := by
  rw [State.oneMove_triggers sat rnd v hw hi hn hd ht, h]
  exact goneOn_launchLate s lat 0 w

/-- A change of a context that neither reads nor writes where the program stands. -/
def FreeOfPc (f : Ctx → Ctx) : Prop :=
  ∀ c pc pend, f { c with pc := pc, pend := pend } = { f c with pc := pc, pend := pend }

theorem FreeOfPc.pc {f : Ctx → Ctx} (h : FreeOfPc f) (c : Ctx) : (f c).pc = c.pc ∧ (f c).pend = c.pend := by
  have := h c c.pc c.pend
  rw [show ({ c with pc := c.pc, pend := c.pend } : Ctx) = c from rfl] at this
  rw [this]
  exact ⟨rfl, rfl⟩

theorem kernelDone_withCtx (x : Engine) (c : Ctx) :
    kernelDone (withCtx x false c) = withCtx (kernelDone x) false c := by
  unfold kernelDone
  extract_lets y y'
  change (if y'.svcOwed && y'.imgDone then _ else _) = _
  split
  · rfl
  · rfl

/-- Such a change and the program's going on come to the same in either order. -/
theorem goneOn_inCtx {f : Ctx → Ctx} (h : FreeOfPc f) (x : Engine) (svc : Bool) {delay : Bool}
    (hd : delay = true → svc = false) : goneOn (inCtx x svc f) svc delay = inCtx (goneOn x svc delay) svc f := by
  obtain ⟨pc, pend⟩ := h.pc (ctxOf x svc)
  unfold goneOn inCtx
  dsimp only
  rw [ctxOf_withCtx, withCtx_withCtx, pc, pend, ← h]
  cases delay with
  | false => simp
  | true =>
    cases hd rfl
    simp only [if_true]
    rw [kernelDone_withCtx, kernelDone_withCtx, ctxOf_withCtx, withCtx_withCtx]

theorem State.oneMove_inCtx (hw : s.storesWf) (hi : Issues e svc s) (hn : n < 256)
    (hd : destOf (BitVec.ofNat 8 n) = some d) (ht : d.triggers = true) {f : Ctx → Ctx} (hf : FreeOfPc f)
    (h : (s.setEng e (Machine.ticked s.eng[e])).trigger e svc (litSlot n sat rnd v) d v =
      (s.setEng e (Machine.ticked s.eng[e])).setCtx e svc (f (s.ctx e svc))) :
    s.oneMove e svc (litSlot n sat rnd v) = s.setEng e (inCtx (Machine.cycled s.eng[e] svc) svc f) := by
  have changed : (s.setEng e (Machine.ticked s.eng[e])).setCtx e svc (f (s.ctx e svc)) =
      s.setEng e (inCtx (Machine.ticked s.eng[e]) svc f) := by
    rw [State.setCtx_eq, State.setEng_setEng, State.eng_setEng_same, inCtx, ctxOf_ticked, State.ctx]
  rw [State.oneMove_triggers sat rnd v hw hi hn hd ht, h, changed]
  dsimp only
  rw [State.setEng_setEng, State.eng_setEng_same, goneOn_inCtx hf _ _ (fun h => by cases svc <;> simp_all), ← cycled_eq]

theorem freeOfPc_setOp (i : Fin 12) (v : Ctx → Word) (hv : ∀ c pc pend, v { c with pc := pc, pend := pend } = v c) :
    FreeOfPc fun c => setOp c i (v c) := by
  intro c pc pend
  dsimp only
  rw [hv]
  rfl

/-- An operation whose answer crosses islands: in time where none is degraded, else late by a free value (R26, R104). -/
theorem oneMove_far {c : Instr} (hw : s.storesWf) (hi : Issues e svc s) (hn : n < 256)
    (hd : destOf (BitVec.ofNat 8 n) = some d) (ht : d.triggers = true) {lat : Nat} {path : List Nat} {w : Landing}
    (h : (s.setEng e (ticked s.eng[e])).trigger e svc (litSlot n sat rnd v) d v =
      (s.setEng e (ticked s.eng[e])).launchFar e svc lat path w)
    (hc : exec c s = commit s (s.oneMove e svc (litSlot n sat rnd v))) :
    Ends c s fun t => Framed [.eng, .free] [] [] s t ∧ FarLaunched e svc lat path w id s t := by
  rw [State.oneMove_triggers sat rnd v hw hi hn hd ht, h] at hc
  have cross : (s.setEng e (ticked s.eng[e])).crossSlow e path = s.crossSlow e path := rfl
  rw [State.launchFar, cross] at hc
  by_cases slow : s.crossSlow e path
  · rw [if_pos slow] at hc
    have drawn : (s.setEng e (ticked s.eng[e])).draw.2 = s.draw.2.setEng e (ticked s.eng[e]) := rfl
    rw [drawn, goneOn_launchLate (s := s) s.draw.2 _ _ _] at hc
    refine ends_of_commit hc ⟨framed_settle (((Framed.refl _ _ _ s).draw (by simp)).trans
      (s.draw.2.setEng_framed _ _ _ _ _ (by simp))), _, Nat.mod_lt _ (by decide), fun no => ?_,
      engineIs_setEng s.draw.2 e _ s⟩
    rw [slow] at no
    cases no
  · rw [if_neg slow, State.launch, goneOn_launchLate s _ _ _] at hc
    refine ends_of_commit hc ⟨framed_settle (s.setEng_framed _ _ _ _ _ (by simp)), 0, by decide,
      fun _ => ⟨rfl, settle_part _ _ .free⟩, engineIs_setEng s e _ s⟩

end

/-! Where each trigger stands (Table PEC-3). -/

theorem destOf_alu (unit : Bool) : ∀ op : Fin 31,
    destOf (BitVec.ofNat 8 ((if unit then 0x81 else 0x61) + op.val)) =
      some (.alu unit (Fin.ofNat 32 (op.val + 1))) := by
  cases unit <;> decide +kernel

theorem destOf_mac : ∀ (op : Fin 7) (lane : Fin 4),
    destOf (BitVec.ofNat 8 (0xA1 + 4 * op.val + lane.val)) = some (.mac op lane) := by decide +kernel

theorem destOf_div : ∀ op : Fin 5, destOf (BitVec.ofNat 8 (0xC1 + op.val)) = some (.div op) := by decide +kernel

theorem destOf_crcFold : ∀ op : Fin 3,
    destOf (BitVec.ofNat 8 (0xDB + op.val)) = some (.crc (Fin.ofNat 6 (op.val + 1))) := by
  decide +kernel

end Sys2Proof.Machine
end

section
/-! O23. The moves that trigger a unit. -/

namespace Sys2Proof.Machine

/-! Where the single ports stand (Table PEC-3). -/

theorem destOf_crcInit : destOf (BitVec.ofNat 8 0xDA) = some (.crc 0) := by decide

theorem destOf_crcFin : destOf (BitVec.ofNat 8 0xDE) = some (.crc 4) := by decide

theorem destOf_crcHash : destOf (BitVec.ofNat 8 0xDF) = some (.crc 5) := by decide

theorem destOf_fwuEna : destOf (BitVec.ofNat 8 0xE3) = some (.fwu 1) := by decide

theorem destOf_fwuDis : destOf (BitVec.ofNat 8 0xE4) = some (.fwu 2) := by decide

theorem destOf_fwuStsel : destOf (BitVec.ofNat 8 0xE6) = some (.fwu 4) := by decide

theorem destOf_dtpSnap : destOf (BitVec.ofNat 8 0xE8) = some .snap := by decide

/-! The multiplier's codes (Table PEC-6). -/

/-- The codes that do not accumulate have no increment of An. -/
theorem macDelta_plain {op : Fin 7} (h3 : op.val ≠ 3) (h4 : op.val ≠ 4) (h6 : op.val ≠ 6) (rnd : BitVec 2)
    (o t : Word) :
    macDelta op rnd o t = none := by
  unfold macDelta
  split
  · next h => exact absurd h h3
  · next h => exact absurd h h4
  · next h => exact absurd h h6
  · rfl

section
variable {s : State} {e : Fin 10} {svc : Bool} (sat : Bool) (rnd : BitVec 2) (tv : Word)

/-- A multiplication that does not accumulate enters with its result. -/
theorem State.trigger_mac_plain {op : Fin 7} (h : macDelta op rnd ((s.ctx e svc).ops[oMac]) tv = none) (n : Nat)
    (lane : Fin 4) :
    s.trigger e svc (litSlot n sat rnd tv) (.mac op lane) tv =
      s.launch e svc 4 (.res (rMres lane) (mulOp op sat rnd ((s.ctx e svc).ops[oMac]) tv).v
        (mulOp op sat rnd ((s.ctx e svc).ops[oMac]) tv).fl) := by
  unfold State.trigger
  dsimp only
  rw [show (litSlot n sat rnd tv).rnd = rnd from rfl, h]
  rfl

/-- One that accumulates enters with its increment. -/
theorem State.trigger_mac_acc {op : Fin 7} {dl : Int} (h : macDelta op rnd ((s.ctx e svc).ops[oMac]) tv = some dl)
    (n : Nat)
    (lane : Fin 4) :
    s.trigger e svc (litSlot n sat rnd tv) (.mac op lane) tv = s.launch e svc 4 (.acc lane dl sat) := by
  unfold State.trigger
  dsimp only
  rw [show (litSlot n sat rnd tv).rnd = rnd from rfl, h]
  rfl

/-- A fold of one, two or four bytes changes the CRC state at once (R105). -/
theorem State.crcTrig_fold (op : Fin 3) :
    s.crcTrig e svc (Fin.ofNat 6 (op.val + 1)).val tv = s.setCtx e svc (setOp (s.ctx e svc) oCrcState
      (crcUnitFold (s.ctx e svc).ops[oCrcSel] (s.ctx e svc).ops[oCrcPoly] (s.ctx e svc).ops[oCrcState] tv
        (2 ^ op.val))) := by
  fin_cases op <;> rfl

end

/-- A move that does not issue, and a count of corrected errors only of one that does. -/
theorem exec_oneMove {c : Instr} {e : Fin 10} {svc : Bool} (h : oneMoveOf c = some (e, svc)) (s : State) :
    ∃ sl ce, exec c s = commit s ((s.oneMove e svc sl).eccCe e ce) ∧ (s.issuer e ≠ some svc → ce = false) := by
  have plain (sl : Slot) (hc : exec c s = commit s (s.oneMove e svc sl)) :
      ∃ sl ce, exec c s = commit s ((s.oneMove e svc sl).eccCe e ce) ∧ (s.issuer e ≠ some svc → ce = false) :=
    ⟨sl, false, hc, fun _ => rfl⟩
  unfold oneMoveOf at h
  split at h <;> cases h
  case h_4 _ op t ce =>
    exact ⟨_, ce && s.readsDmem e svc op.val t, rfl, fun hi => by simp [State.readsDmem, hi]⟩
  all_goals exact plain _ rfl

/-- In a cycle that is not its context's a one-move command changes nothing. -/
theorem idle_oneMove {c : Instr} {e : Fin 10} {svc : Bool} {s : State} (h : oneMoveOf c = some (e, svc))
    (hi : s.issuer e ≠ some svc) : Idle c s := by
  obtain ⟨sl, ce, hc, no⟩ := exec_oneMove h s
  refine idle_of_commit hc ?_
  rw [no hi, State.oneMove, if_neg hi]
  rfl

/-! Activations of the frame-window unit (R106). -/

/-- The activation asked for a window. -/
def asked (x : Engine) (t : Word) (on : Bool) : Engine := { x with fwuNext := setBit x.fwuNext (fieldOf t 0 6) on }

theorem goneOn_asked (x : Engine) (svc delay : Bool) (t : Word) (on : Bool) :
    goneOn (asked x t on) svc delay = asked (goneOn x svc delay) t on := by
  have taken : goneOn (asked x t on) svc false = asked (goneOn x svc false) t on := by cases svc <;> rfl
  cases delay with
  | false => exact taken
  | true =>
    have done (y : Engine) : kernelDone (asked y t on) = asked (kernelDone y) t on := by
      unfold kernelDone
      extract_lets y1 y2
      change (if y2.svcOwed && y2.imgDone then _ else _) = _
      split <;> rfl
    have closed (z : Engine) : goneOn z svc true = kernelDone (goneOn z svc false) := rfl
    rw [closed, closed, taken, done]

theorem goneOn_fwuNext (x : Engine) (svc delay : Bool) : (goneOn x svc delay).fwuNext = x.fwuNext := by
  have taken : (goneOn x svc false).fwuNext = x.fwuNext := by cases svc <;> rfl
  cases delay with
  | false => exact taken
  | true =>
    have done (y : Engine) : (kernelDone y).fwuNext = y.fwuNext := by
      unfold kernelDone
      extract_lets y'
      split <;> rfl
    exact (done _).trans taken

section
variable {s : State} {e : Fin 10} {svc : Bool}

theorem State.oneMove_asked (hw : s.storesWf) (hi : Issues e svc s) {n : Nat} (hn : n < 256) {d : Dest}
    (hd : destOf (BitVec.ofNat 8 n) = some d) (ht : d.triggers = true) (tv : Word) (on : Bool)
    (h : ∀ u : State, u.trigger e svc (litSlot n false 0 tv) d tv = u.setEng e (asked u.eng[e] tv on)) :
    s.oneMove e svc (litSlot n false 0 tv) =
      s.setEng e { Machine.cycled s.eng[e] svc with fwuNext := setBit s.eng[e].fwuNext (fieldOf tv 0 6) on } := by
  have kept : (Machine.cycled s.eng[e] svc).fwuNext = s.eng[e].fwuNext := by
    rw [cycled_eq, goneOn_fwuNext]
    rfl
  rw [State.oneMove_triggers false 0 tv hw hi hn hd ht, h]
  dsimp only
  rw [State.setEng_setEng, State.setEng_setEng, State.eng_setEng_same, State.eng_setEng_same, goneOn_asked, ← cycled_eq,
    asked, kept]

/-- A trigger whose whole effect is an operation in its unit's pipeline. -/
theorem ends_launch {c : Instr} (hw : s.storesWf) (hi : Issues e svc s) {n : Nat} (hn : n < 256) {d : Dest}
    (hd : destOf (BitVec.ofNat 8 n) = some d) (ht : d.triggers = true) {sat : Bool} {rnd : BitVec 2} {tv : Word}
    {lat : Nat} {w : Landing} (hc : exec c s = commit s (s.oneMove e svc (litSlot n sat rnd tv)))
    (h : (s.setEng e (ticked s.eng[e])).trigger e svc (litSlot n sat rnd tv) d tv =
      (s.setEng e (ticked s.eng[e])).launch e svc lat w) :
    Ends c s fun t => EngineIs e (launched s.eng[e] svc lat w) s t ∧ Framed [.eng] [] [] s t :=
  ends_setEng s e _ (hc.trans (by rw [State.oneMove_launch sat rnd tv hw hi hn hd ht h]))

/-- One whose whole effect is a change of the context. -/
theorem ends_inCtx {c : Instr} (hw : s.storesWf) (hi : Issues e svc s) {n : Nat} (hn : n < 256) {d : Dest}
    (hd : destOf (BitVec.ofNat 8 n) = some d) (ht : d.triggers = true) {tv : Word} {f : Ctx → Ctx} (hf : FreeOfPc f)
    (hc : exec c s = commit s (s.oneMove e svc (litSlot n false 0 tv)))
    (h : (s.setEng e (ticked s.eng[e])).trigger e svc (litSlot n false 0 tv) d tv =
      (s.setEng e (ticked s.eng[e])).setCtx e svc (f (s.ctx e svc))) :
    Ends c s fun t => EngineIs e (inCtx (cycled s.eng[e] svc) svc f) s t ∧ Framed [.eng] [] [] s t :=
  ends_setEng s e _ (hc.trans (by rw [State.oneMove_inCtx false 0 tv hw hi hn hd ht hf h]))

end

/-! The edges of a snapshot (R107). -/

section
variable (s : State) (d : Fin 4) {f : InFlight}

theorem State.snapEdge_last (h : f.what = .snapAt d 1) :
    s.snapEdge f = { f with what := s.dtpSnapOf d (s.time d) } := by
  unfold State.snapEdge
  rw [h]
  rfl

theorem State.snapEdge_before {n : Nat} (hn : 2 ≤ n) (h : f.what = .snapAt d n) :
    s.snapEdge f = { f with what := .snapAt d (n - 1) } := by
  unfold State.snapEdge
  rw [h]
  dsimp only
  rw [if_neg (by omega)]

end

/-- Settles O23: a trigger is one move that meets no fault (`State.oneMove_triggers`), so its cycle leaves the engine
gone on by one instruction, with the operation in its unit's pipeline or its context changed. -/
theorem triggersEnterTheirUnits : Obligations.TriggersEnterTheirUnits := by
  intro s e svc tv hw
  refine ⟨fun c => idle_oneMove, ?_, fun d f h => s.snapEdge_last d h, fun d n f hn h => s.snapEdge_before d hn h⟩
  intro hi
  extract_lets x o becomes
  have operand : (s.setEng e (ticked s.eng[e])).ctx e svc = s.ctx e svc := State.ctx_ticked
  have acc (op : Fin 7) (lane : Fin 4) (sat : Bool) (rnd : BitVec 2) (dl : Int)
      (h : macDelta op rnd ((s.ctx e svc).ops[oMac]) tv = some dl) :
      becomes (.macTrigger e svc op lane sat rnd tv) (launched x svc 4 (.acc lane dl sat)) :=
    ends_launch hw hi (by omega) (destOf_mac op lane) rfl rfl
      (State.trigger_mac_acc sat rnd tv (by rw [operand]; exact h) _ lane)
  refine ⟨?alu, ?mac, ?accumulate, ?div, ?init, ?fold, ?fin, ?hash, ?ena, ?dis, ?stsel, ?snap⟩
  case alu =>
    intro unit op sat r
    have enters (u : State) (n : Nat) :
        u.trigger e svc (litSlot n sat 0 tv) (.alu unit (Fin.ofNat 32 (op.val + 1))) tv =
        u.launch e svc 1 (.res (if unit then rAlu1 else rAlu0)
          (aluOp (Fin.ofNat 32 (op.val + 1)) sat (u.ctx e svc).ops[if unit then oAlu1 else oAlu0] tv).v
          (aluOp (Fin.ofNat 32 (op.val + 1)) sat (u.ctx e svc).ops[if unit then oAlu1 else oAlu0] tv).fl) := rfl
    exact ends_launch hw hi (by cases unit <;> simp <;> omega) (destOf_alu unit op) rfl rfl
      ((enters _ _).trans (by rw [operand]; rfl))
  case mac =>
    intro op lane sat rnd h3 h4 h6 r
    refine ends_launch hw hi (by omega) (destOf_mac op lane) rfl rfl
      ((State.trigger_mac_plain sat rnd tv (macDelta_plain h3 h4 h6 _ _ _) _ lane).trans ?_)
    rw [operand]
    rfl
  case accumulate =>
    exact fun lane sat rnd => ⟨acc 3 lane sat rnd _ rfl, acc 4 lane sat rnd _ rfl, acc 6 lane sat rnd _ rfl⟩
  case div =>
    intro op sat rnd r
    have enters (u : State) (n : Nat) : u.trigger e svc (litSlot n sat rnd tv) (.div op) tv =
        u.launch e svc 18 (.res rDiv (divOp op sat rnd (u.ctx e svc).ops[oDiv] tv).v
          (divOp op sat rnd (u.ctx e svc).ops[oDiv] tv).fl) := rfl
    exact ends_launch hw hi (by omega) (destOf_div op) rfl rfl ((enters _ _).trans (by rw [operand]; rfl))
  case init =>
    have enters (u : State) (n : Nat) : u.trigger e svc (litSlot n false 0 tv) (.crc 0) tv =
        u.setCtx e svc (setOp (u.ctx e svc) oCrcState (crcMask (u.ctx e svc).ops[oCrcSel] tv)) := rfl
    exact ends_inCtx hw hi (by decide) destOf_crcInit rfl (freeOfPc_setOp _ _ fun _ _ _ => rfl) rfl
      ((enters _ _).trans (by rw [operand]; rfl))
  case fold =>
    intro op
    refine ends_inCtx hw hi (by omega) (destOf_crcFold op) rfl (freeOfPc_setOp _ _ fun _ _ _ => rfl) rfl
      ((State.crcTrig_fold tv op).trans ?_)
    rw [operand]
    rfl
  case fin =>
    have enters (u : State) (n : Nat) : u.trigger e svc (litSlot n false 0 tv) (.crc 4) tv =
        u.launch e svc 2 (.res rCrc (crcMask (u.ctx e svc).ops[oCrcSel] ((u.ctx e svc).ops[oCrcState] ^^^ tv)) 0) := rfl
    exact ends_launch hw hi (by decide) destOf_crcFin rfl rfl ((enters _ _).trans (by rw [operand]; rfl))
  case hash => exact ends_launch hw hi (by decide) destOf_crcHash rfl rfl rfl
  case ena =>
    exact ends_setEng s e _ (congrArg (commit s)
      (State.oneMove_asked hw hi (by decide) destOf_fwuEna rfl tv true fun _ => rfl))
  case dis =>
    exact ends_setEng s e _ (congrArg (commit s)
      (State.oneMove_asked hw hi (by decide) destOf_fwuDis rfl tv false fun _ => rfl))
  case stsel => exact oneMove_far false 0 tv hw hi (by decide) destOf_fwuStsel rfl rfl rfl
  case snap =>
    intro d hd
    have which : Fin.ofNat 4 (fieldOf tv 0 2) = d := by rw [hd]; exact Fin.ofNat_val_eq_self d
    exact oneMove_far false 0 tv hw hi (by decide) destOf_dtpSnap rfl (by rw [← which]; rfl) rfl

end Sys2Proof.Machine
end

section
/-! SUPPORT. What a fault of an engine leaves (R119, R145, R345, R397): the reset of an endpoint, an `Inst` stopped,
the report to the fault manager. -/

namespace Sys2Proof.Machine

/-! The reset of an endpoint (R345). -/

theorem mbxW_mem_payloadWords (b : Fin 64) {w : Nat} (hw : w < 16) : mbxW (b.val * 16 + w) ∈ payloadWords :=
  List.mem_map.2 ⟨_, List.mem_range.2 (by omega), rfl⟩

theorem notMem_payloadWords {a : Nat} (h : a < 0x1A1000 ∨ 0x1A2000 ≤ a) : a ∉ payloadWords := by
  intro hm
  obtain ⟨k, hk, rfl⟩ := List.mem_map.1 hm
  have := List.mem_range.1 hk
  simp only [mbxW] at h
  omega

section
variable (s : State)

theorem State.clearMbxWords_framed (b : Fin 64) (mask : BitVec 16) :
    Framed [] payloadWords [] s (s.clearMbxWords b mask) :=
  List.foldlRecOn (motive := Framed [] payloadWords [] s) _ _ (Framed.refl _ _ _ s) fun t ht w hw => by
    split
    · exact ht.setReg _ (mbxW_mem_payloadWords b (List.mem_range.1 hw))
    · exact ht

/-- An update of the mailboxes' flags. -/
theorem Framed.setMbx {ps : List Part} {rs ts : List Nat} {t : State} (h : Framed ps rs ts s t) (hq : .mbx ∈ ps)
    (x : MbxState) : Framed ps rs ts s { t with mbx := x } :=
  h.update hq (fun p hp => by cases p <;> simp_all [Part.same]) rfl rfl rfl

theorem State.resetReceived_framed (b : Fin 64) :
    Framed [.mbx] (mbxAbortCnt :: payloadWords) [] s (s.resetReceived b) := by
  have cleared := (s.clearMbxWords_framed b (BitVec.allOnes 16)).mono (ps' := [.mbx])
    (rs' := mbxAbortCnt :: payloadWords) (ts' := []) (by simp) (by simp) (by simp)
  unfold State.resetReceived
  dsimp only
  split
  · exact (Framed.setMbx s (Framed.setMbx s cleared (by simp) _) (by simp) _).count (by simp)
  · exact cleared

theorem State.resetSent_framed (b : Fin 64) : Framed [.mbx] (mbxAbortCnt :: payloadWords) [] s (s.resetSent b) :=
  Framed.setMbx s ((s.clearMbxWords_framed b _).mono (by simp) (by simp) (by simp)) (by simp) _

/-- The reset of an endpoint writes mailboxes alone. -/
theorem State.resetEndpoint_framed (code : Byte) :
    Framed [.mbx] (mbxAbortCnt :: payloadWords) [] s (s.resetEndpoint code) :=
  List.foldlRecOn (motive := Framed _ _ _ s) _ _ (Framed.refl _ _ _ s) fun t ht k _ => by
    dsimp only
    split_ifs
    · exact ht
    · exact ht.trans (t.resetReceived_framed _)
    · exact ht.trans (t.resetSent_framed _)
    · exact ht

end

/-! Instances. -/

section
variable (s : State) (r : Fin 10) (f : Inst → Inst)

theorem State.modInst_same {s : State} {r : Fin 10} {i : Inst} (h : s.insts[r] = some i) :
    (s.modInst r f).insts[r] = some (f i) := by
  unfold State.modInst
  rw [h]
  exact getElem_vset_same _ _ _

theorem State.modInst_other {q : Fin 10} (h : q ≠ r) : (s.modInst r f).insts[q] = s.insts[q] := by
  unfold State.modInst
  split
  · exact getElem_vset_other _ _ h
  · rfl

theorem State.setInst_framed (i : Option Inst) : Framed [.insts] [] [] s (s.setInst r i) :=
  (Framed.refl _ _ _ s).update (q := .insts) (by simp) (fun p hp => by cases p <;> simp_all [Part.same, State.setInst])
    rfl rfl rfl

theorem State.modInst_framed : Framed [.insts] [] [] s (s.modInst r f) := by
  unfold State.modInst
  split
  · exact s.setInst_framed r _
  · exact Framed.refl _ _ _ s

end

/-! An `Inst` stops with no takeover (R145, R161, R163). -/

/-- The registers that the reset of an endpoint writes. -/
abbrev endpointRegs : List Nat := mbxAbortCnt :: payloadWords

/-- An `Inst` as it stops. -/
def stoppedInst (i : Inst) : Inst := { i with stopped := true, engine := none, gate := false, due := false }

section
variable (s : State) (r : Fin 10)

theorem State.resetRole_framed : Framed [.mbx] endpointRegs [] s (s.resetRole r) := s.resetEndpoint_framed _

theorem State.stopInst_framed : Framed [.insts, .mbx] endpointRegs [] s (s.stopInst r) := by
  have changed : Framed [.insts, .mbx] endpointRegs [] s (s.modInst r stoppedInst) :=
    (s.modInst_framed r stoppedInst).mono (by simp) (List.nil_subset _) (List.nil_subset _)
  exact changed.trans ((State.resetRole_framed _ r).mono (by simp) (List.Subset.refl _) (List.nil_subset _))

theorem State.resetRole_insts : (s.resetRole r).insts = s.insts := (s.resetEndpoint_framed _).parts .insts (by simp)

theorem State.stopInst_same {s : State} {r : Fin 10} {i : Inst} (h : s.insts[r] = some i) :
    (s.stopInst r).insts[r] = some (stoppedInst i) := by
  rw [State.stopInst, State.resetRole_insts]
  exact State.modInst_same _ h

theorem State.stopInst_other {q : Fin 10} (h : q ≠ r) : (s.stopInst r).insts[q] = s.insts[q] := by
  rw [State.stopInst, State.resetRole_insts]
  exact s.modInst_other r _ h

theorem State.dropRotationOf_eq : s.dropRotationOf r = { s with rotation := s.rotationWithout (some r) } := by
  have same {q : Option Rotation} (h : s.rotation = q) : s = { s with rotation := q } :=
    congrArg (fun q => ({ s with rotation := q } : State)) h
  unfold State.dropRotationOf State.rotationWithout
  split
  · next q h =>
    by_cases hq : q.role = r
    · rw [if_pos hq, h, Option.filter_some, if_neg (by simp [hq])]
    · rw [if_neg hq, h, Option.filter_some, if_pos (by simpa using Ne.symm hq)]
      exact same h
  · next h =>
    rw [h, Option.filter_none]
    exact same h

theorem State.rotationWithout_none : s.rotationWithout none = s.rotation := by
  unfold State.rotationWithout
  cases s.rotation <;> rfl

/-- The `Inst` of an engine's role, if it has one, stops. -/
def State.stopRole (s : State) (role : Option (Fin 10)) : State :=
  match role with
  | some r => (s.stopInst r).dropRotationOf r
  | none => s

theorem State.setRotation_framed (q : Option Rotation) : Framed [.rotation] [] [] s { s with rotation := q } :=
  (Framed.refl _ _ _ s).update (q := .rotation) (by simp) (fun p hp => by cases p <;> simp_all [Part.same]) rfl rfl rfl

theorem State.stopRole_framed (role : Option (Fin 10)) :
    Framed [.insts, .mbx, .rotation] endpointRegs [] s (s.stopRole role) := by
  cases role with
  | none => exact Framed.refl _ _ _ s
  | some r =>
    rw [State.stopRole, State.dropRotationOf_eq]
    exact ((s.stopInst_framed r).mono (by simp) (List.Subset.refl _) (by simp)).trans
      ((State.setRotation_framed _ _).mono (by simp) (List.nil_subset _) (by simp))

theorem State.stopRole_rotation (role : Option (Fin 10)) : (s.stopRole role).rotation = s.rotationWithout role := by
  cases role with
  | none => exact s.rotationWithout_none.symm
  | some r =>
    have kept : (s.stopInst r).rotation = s.rotation := (s.stopInst_framed r).parts .rotation (by simp)
    rw [State.stopRole, State.dropRotationOf_eq]
    simp only [State.rotationWithout, kept]

theorem State.stopRole_same {s : State} {r : Fin 10} {i : Inst} (h : s.insts[r] = some i) :
    (s.stopRole (some r)).insts[r] = some (stoppedInst i) := by
  rw [State.stopRole, State.dropRotationOf_eq]
  exact State.stopInst_same h

theorem State.stopRole_other {q : Fin 10} {role : Option (Fin 10)} (h : role ≠ some q) :
    (s.stopRole role).insts[q] = s.insts[q] := by
  cases role with
  | none => rfl
  | some r =>
    rw [State.stopRole, State.dropRotationOf_eq]
    exact s.stopInst_other r fun hq => h (congrArg some hq.symm)

end

/-! The report of an engine's fault (R397, R408). -/

theorem fin37_val (e : Fin 10) : (Fin.ofNat 37 e.val).val = e.val := Nat.mod_eq_of_lt (by omega)

/-- An engine's domain is permanently fenced if its bit says so. -/
theorem State.permFenced_engine (s : State) (e : Fin 10) :
    s.permFenced (Fin.ofNat 37 e.val) = s.flt.perm.getLsbD e.val := by
  have die : decide (e.val = 21 ∨ e.val = 22) = false := decide_eq_false (by omega)
  rw [State.permFenced, fin37_val, die, Bool.false_and, Bool.or_false]

section
variable {s : State} (e : Fin 10) (cause i8 : Byte) (i16 : Nat)

theorem State.fltLatch_engine_fenced (h : s.flt.perm.getLsbD e.val = false) :
    (s.fltLatch (Fin.ofNat 37 e.val) cause i8 i16).fenced e.val = true := by
  have := s.fltLatch_fenced (Fin.ofNat 37 e.val) cause i8 i16 (by rw [State.permFenced_engine, h])
  rwa [fin37_val] at this

/-- A report of a domain in service: fenced, counted and logged. -/
theorem State.fltLatch_engine_newly (hw : s.storesWf) (h : InService e.val s) :
    NewlyFenced e.val cause s (s.fltLatch (Fin.ofNat 37 e.val) cause i8 i16) := by
  obtain ⟨hf, hp, ht⟩ := h
  have serves : (s.flt.fenced.getLsbD (Fin.ofNat 37 e.val).val || s.flt.testing.getLsbD (Fin.ofNat 37 e.val).val) =
      false := by
    rw [fin37_val]
    exact Bool.or_eq_false_iff.2 ⟨hf, ht⟩
  have logged := s.fltLog_logged e.val cause .fencedNow i8 i16 (State.storesWf_tabs hw) (by omega)
  have counted : ((s.fltLog e.val cause .fencedNow i8 i16).count fltFaultCnt).reg fltFaultCnt =
      s.reg fltFaultCnt + 1 := by
    have regs := s.fltLog_regs e.val cause .fencedNow i8 i16
    have kept : (s.fltLog e.val cause .fencedNow i8 i16).reg fltFaultCnt = s.reg fltFaultCnt :=
      State.reg_of_regs_eq regs
    rw [State.count, State.reg_setReg_same _ _ _ (by rw [regs]; exact State.storesWf_regs hw), kept]
  refine ⟨State.fltLatch_engine_fenced e cause i8 i16 hp, ?_⟩
  rw [State.fltLatch, State.permFenced_engine, hp, serves, if_neg (by decide), if_neg (by decide), fin37_val]
  exact ⟨counted, logged⟩

end

/-! A program fault (R145, R146). -/

/-- The registers that the fault of an engine writes. -/
abbrev faultRegs (e : Fin 10) : List Nat := pecFault e.val :: fltFaultCnt :: fltPermCnt :: endpointRegs

theorem endpointRegs_subset (e : Fin 10) : endpointRegs ⊆ faultRegs e := fun _ h =>
  List.mem_cons_of_mem _ (List.mem_cons_of_mem _ (List.mem_cons_of_mem _ h))

section
variable (s : State) (e : Fin 10) (code bits : Nat)

/-- An engine stopped by a program fault, up to the report. -/
def State.programStop (s : State) (e : Fin 10) (v : Nat) : State :=
  ((s.setReg (pecFault e.val) (w32 v)).setEng e (stoppedEngine s.eng[e] .fenced)).stopRole s.eng[e].role

theorem State.programFault_eq : s.programFault e code bits =
    (s.programStop e (256 * code + 1 + bits)).fltLatch (Fin.ofNat 37 e.val) 0x02 (roleInfo s.eng[e])
      (256 * code + 1 + bits) := by
  unfold State.programFault State.programStop State.stopRole
  rfl

theorem State.programStop_framed (v : Nat) :
    Framed [.eng, .insts, .mbx, .rotation] (pecFault e.val :: endpointRegs) [] s (s.programStop e v) :=
  (((Framed.refl _ _ _ s).setReg _ List.mem_cons_self).trans (State.setEng_framed _ _ _ _ _ _ (by simp))).trans
    ((State.stopRole_framed _ _).mono (by simp) (fun _ h => List.mem_cons_of_mem _ h) (by simp))

theorem State.programStop_flt (v : Nat) : (s.programStop e v).flt = s.flt :=
  (s.programStop_framed e v).parts .flt (by simp)

theorem State.programFault_framed :
    Framed [.eng, .insts, .mbx, .flt, .rotation] (faultRegs e) faultLogWords s (s.programFault e code bits) := by
  rw [State.programFault_eq]
  exact ((s.programStop_framed e _).mono (by simp)
      (List.cons_subset.2 ⟨List.mem_cons_self, endpointRegs_subset e⟩) (List.nil_subset _)).trans
    ((State.fltLatch_framed _ _ _ _ _).mono (by simp)
      (by simp only [List.cons_subset, List.mem_cons, true_or, or_true, List.nil_subset, and_true])
      (List.Subset.refl _))

theorem State.programStop_eng (v : Nat) :
    (s.programStop e v).eng = vset s.eng e (stoppedEngine s.eng[e] .fenced) :=
  (State.stopRole_framed _ _).parts .eng (by simp)

theorem State.programFault_eng :
    (s.programFault e code bits).eng = vset s.eng e (stoppedEngine s.eng[e] .fenced) := by
  rw [State.programFault_eq]
  exact ((State.fltLatch_framed _ _ _ _ _).parts .eng (by simp)).trans (s.programStop_eng e _)

theorem State.programFault_insts :
    (s.programFault e code bits).insts = (s.programStop e (256 * code + 1 + bits)).insts := by
  rw [State.programFault_eq]
  exact (State.fltLatch_framed _ _ _ _ _).parts .insts (by simp)

theorem State.programFault_rotation :
    (s.programFault e code bits).rotation = s.rotationWithout s.eng[e].role := by
  rw [State.programFault_eq]
  exact ((State.fltLatch_framed _ _ _ _ _).parts .rotation (by simp)).trans (State.stopRole_rotation _ _)

/-- PEC_FAULT is neither a register of the report nor one of the endpoint's reset. -/
theorem pecFault_apart : ∀ e : Fin 10, pecFault e.val ≠ glbIntCnt ∧ pecFault e.val ≠ fltFaultCnt ∧
    pecFault e.val ≠ fltPermCnt ∧ pecFault e.val ≠ mbxAbortCnt ∧ pecFault e.val < 0x1A1000 := by decide

theorem State.programStop_reg (hw : s.storesWf) (v : Nat) : (s.programStop e v).reg (pecFault e.val) = w32 v := by
  obtain ⟨hi, -, -, ha, hb⟩ := pecFault_apart e
  refine ((State.stopRole_framed _ _).regs _ ?_ hi).trans (State.reg_setReg_same _ _ _ (State.storesWf_regs hw))
  exact List.not_mem_cons_of_ne_of_not_mem ha (notMem_payloadWords (.inl hb))

theorem State.programFault_reg (hw : s.storesWf) :
    (s.programFault e code bits).reg (pecFault e.val) = w32 (256 * code + 1 + bits) := by
  obtain ⟨hi, hf, hp, -, -⟩ := pecFault_apart e
  rw [State.programFault_eq]
  exact ((State.fltLatch_framed _ _ _ _ _).regs _ (by simp [hf, hp]) hi).trans (s.programStop_reg e hw _)

theorem State.programFault_fenced {s : State} (h : s.flt.perm.getLsbD e.val = false) :
    (s.programFault e code bits).fenced e.val = true := by
  rw [State.programFault_eq]
  exact State.fltLatch_engine_fenced e _ _ _ (by rw [State.programStop_flt, h])

theorem State.programFault_newly {s : State} (hw : s.storesWf) (h : InService e.val s) :
    NewlyFenced e.val 0x02 s (s.programFault e code bits) := by
  have flt := s.programStop_flt e (256 * code + 1 + bits)
  have same : InService e.val (s.programStop e (256 * code + 1 + bits)) := by
    unfold InService State.fenced at h ⊢
    rwa [flt]
  have stopped : (s.programStop e (256 * code + 1 + bits)).storesWf := by
    unfold State.programStop State.stopRole
    cases s.eng[e].role with
    | none => exact hw.setReg.setEng
    | some r => exact hw.setReg.setEng.stopInst.dropRotationOf
  have counter : (s.programStop e (256 * code + 1 + bits)).reg fltFaultCnt = s.reg fltFaultCnt :=
    (s.programStop_framed e _).regs _ (List.not_mem_cons_of_ne_of_not_mem (Ne.symm (pecFault_apart e).2.1)
      (List.not_mem_cons_of_ne_of_not_mem (by decide) (notMem_payloadWords (.inr (by decide))))) (by decide)
  obtain ⟨hf, hc, hl⟩ := State.fltLatch_engine_newly e 0x02 (roleInfo s.eng[e]) (256 * code + 1 + bits) stopped same
  rw [State.programFault_eq]
  exact ⟨hf, by rw [hc, counter], hl.of_flt flt⟩

end

/-- A program fault of an engine that keeps its role until then leaves what R145 says. -/
theorem State.programFault_stops {s : State} (hw : s.storesWf) (e : Fin 10) {y : Engine} (hy : y.role = s.eng[e].role)
    (hd : y.dmem = s.eng[e].dmem) (code : Nat) :
    ProgramFaulted e code s (settle s ((s.setEng e y).programFault e code 0)) := by
  have hw' : (s.setEng e y).storesWf := hw.setEng hd
  have role : (s.setEng e y).eng[e].role = s.eng[e].role := by rw [State.eng_setEng_same, hy]
  have eng : (settle s ((s.setEng e y).programFault e code 0)).eng = _ :=
    (settle_part _ _ .eng).trans (State.programFault_eng _ e code 0)
  have insts : (settle s ((s.setEng e y).programFault e code 0)).insts = _ :=
    (settle_part _ _ .insts).trans (State.programFault_insts _ e code 0)
  unfold ProgramFaulted
  refine ⟨?fault, ?rotation, ?st, ?role, ?others, ?inst, ?insts, ?newly, ?frame⟩
  case fault => exact (settle_reg _ _ _ (pecFault_apart e).1).trans (State.programFault_reg _ e code 0 hw')
  case rotation =>
    refine ((settle_part _ _ .rotation).trans (State.programFault_rotation _ e code 0)).trans ?_
    rw [role]
    rfl
  case st => rw [eng, getElem_vset_same]; rfl
  case role => rw [eng, getElem_vset_same]; rfl
  case others =>
    intro f hf
    rw [eng, getElem_vset_other _ _ hf]
    exact s.eng_setEng_other y hf
  case inst =>
    intro r i hr hi
    rw [insts, State.programStop, role, hr]
    exact State.stopRole_same hi
  case insts =>
    intro r hr
    rw [insts, State.programStop, role]
    exact State.stopRole_other _ hr
  case newly =>
    intro hf hp ht
    obtain ⟨fenced, counted, logged⟩ :=
      State.programFault_newly e code 0 hw' (show InService e.val (s.setEng e y) from ⟨hf, hp, ht⟩)
    refine ⟨?_, (settle_reg _ _ _ (by decide)).trans counted, (logged.of_flt rfl).settled s⟩
    rwa [State.fenced, settle_flt]
  case frame =>
    refine framed_settle (((s.setEng_framed e y _ _ _ (by simp)).trans (State.programFault_framed _ e code 0)).mono
      (List.Subset.refl _) (fun a => ?_) (List.Subset.refl _))
    simp only [faultRegs, endpointRegs]
    generalize payloadWords = l
    simp only [List.mem_cons]
    tauto

end Sys2Proof.Machine
end

section
/-! O26. Branches, KEND and WAIT. -/

namespace Sys2Proof.Machine

theorem destOf_cu : ∀ k : Fin 6, destOf (BitVec.ofNat 8 (0xF0 + k.val)) = some (.cu k) := by decide

/-- Branches are moves that both contexts may use (R111). -/
theorem privBad_branch (svc : Bool) (v : Word) : ∀ k < 4, privBad svc (litSlot (0xF0 + k) false 0 v) = false := by
  intro k hk
  interval_cases k <;> cases svc <;> rfl

theorem privBad_kend (v : Word) : privBad false (litSlot 0xF4 false 0 v) = false := rfl

theorem privBad_wait (v : Word) : privBad true (litSlot 0xF5 false 0 v) = false := rfl

/-- The faults of a control-unit move at which no loop ends (R108, R110, R128). -/
theorem performFault_cu {x : Engine} {svc : Bool} {sl : Slot} {k : Fin 6}
    (hl : loopOf x svc [⟨sl, .cu k⟩] = .ok ⟨none, []⟩) :
    performFault x svc [⟨sl, .cu k⟩] =
      if k = 2 ∧ (ctxOf x svc).depth.val = 8 then 6
      else if k = 3 ∧ (ctxOf x svc).depth.val = 0 then 7
      else if svc = false ∧ x.kern = .delay then 9
      else if (k = 4 ∨ k = 5) ∧ (ctxOf x svc).pend.isSome = true then 9
      else 0 := by
  have code : (cuOf [⟨sl, .cu k⟩]).map (·.1) = some k.val := rfl
  have is (m : Nat) (n : Fin 6) (h : n.val = m) : some k.val = some m ↔ k = n := by
    rw [Option.some.injEq, ← h, Fin.val_inj]
  unfold performFault
  dsimp only
  rw [code, hl]
  simp only [Bool.and_eq_true, Bool.or_eq_true, decide_eq_true_eq, Option.isSome_some, Bool.true_and, Bool.not_eq_true',
    is 2 2 rfl, is 3 3 rfl, is 4 4 rfl, is 5 5 rfl, reduceCtorEq, if_false]

theorem advance_taken (c : Ctx) (taken : Option (BitVec 12)) :
    advance c ⟨none, []⟩ taken = { c with pc := c.pend.getD (c.pc + 1), pend := taken } := by
  unfold advance
  cases c.pend <;> rfl

theorem slotAddr_eq (c : Ctx) : slotAddr c = c.pend.getD (c.pc + 1) := by
  unfold slotAddr
  cases c.pend <;> rfl

section
variable {s : State} {e : Fin 10} {svc : Bool}

/-- A control-unit move that issues: its fault, or where the program goes on (R108, R110). -/
theorem State.oneMove_cu (hw : s.storesWf) (hi : Issues e svc s) (k : Fin 6) (v : Word)
    (hp : privBad svc (litSlot (0xF0 + k.val) false 0 v) = false) :
    s.oneMove e svc (litSlot (0xF0 + k.val) false 0 v) =
      let u := s.setEng e (Machine.ticked s.eng[e])
      let sl := litSlot (0xF0 + k.val) false 0 v
      let f := performFault (Machine.ticked s.eng[e]) svc [⟨sl, .cu k⟩]
      if f ≠ 0 then u.programFault e f 0
      else u.goOn e svc (!svc && s.eng[e].kern = .delay) [⟨⟨sl, .cu k⟩, v, 0⟩] := by
  have loop (ms : List Move) : loopOf (s.setEng e (Machine.ticked s.eng[e])).eng[e] svc ms = .ok ⟨none, []⟩ := by
    rw [State.eng_setEng_same]
    exact hi.loopOf_ticked ms
  have delay : decide ((s.setEng e (Machine.ticked s.eng[e])).eng[e].kern = .delay) =
      decide (s.eng[e].kern = .delay) := by
    rw [State.eng_setEng_same]
    exact decide_eq_decide.2 (ticked_kern_delay _)
  rw [State.oneMove_issues false 0 v hw hi (destOf_cu k) hp]
  dsimp only
  rw [State.perform_cu false 0 v (loop _), delay, State.eng_setEng_same]

/-- Where the move has a fault, the engine stops at it (R145). -/
theorem ends_cuFault {c : Instr} (hw : s.storesWf) (hi : Issues e svc s) (k : Fin 6) (v : Word) {f : Nat}
    (hp : privBad svc (litSlot (0xF0 + k.val) false 0 v) = false) (hf : f ≠ 0)
    (h : ∀ sl, performFault (ticked s.eng[e]) svc [⟨sl, .cu k⟩] = f)
    (hc : exec c s = commit s (s.oneMove e svc (litSlot (0xF0 + k.val) false 0 v))) :
    Ends c s (ProgramFaulted e f s) := by
  rw [State.oneMove_cu hw hi k v hp] at hc
  dsimp only at hc
  rw [h, if_pos hf] at hc
  exact ends_of_commit hc (State.programFault_stops hw e (y := ticked s.eng[e]) rfl rfl f)

/-- The engine after a branch outside KEND's delay slot: its target waits for the delay slot, its stack is as told. -/
def branched (x : Engine) (svc : Bool) (b : Option (BitVec 12) × Ctx) : Engine :=
  withCtx (ticked x) svc { b.2 with pc := b.2.pend.getD (b.2.pc + 1), pend := b.1 }

theorem ends_branch {c : Instr} (hw : s.storesWf) (hi : Issues e svc s) {k : Fin 6} (hk : k.val < 4) (v : Word)
    (hd : svc = true ∨ s.eng[e].kern ≠ .delay)
    (h2 : k = 2 → (ctxOf s.eng[e] svc).depth.val ≠ 8) (h3 : k = 3 → (ctxOf s.eng[e] svc).depth.val ≠ 0)
    (hc : exec c s = commit s (s.oneMove e svc (litSlot (0xF0 + k.val) false 0 v))) :
    Ends c s fun t => EngineIs e (branched s.eng[e] svc (branchOf (ctxOf s.eng[e] svc) (some (k.val, v)))) s t ∧
      Framed [.eng] [] [] s t := by
  have delay : ¬ (svc = false ∧ (ticked s.eng[e]).kern = .delay) := by
    rw [ticked_kern_delay]
    rintro ⟨rfl, hk⟩
    exact hd.elim (by simp) (fun h => h hk)
  have off : (!svc && decide (s.eng[e].kern = .delay)) = false := by
    rw [ticked_kern_delay] at delay
    cases svc <;> simp_all
  have none : performFault (ticked s.eng[e]) svc [⟨litSlot (0xF0 + k.val) false 0 v, .cu k⟩] = 0 := by
    rw [performFault_cu (hi.loopOf_ticked _), ctxOf_ticked, if_neg (fun h => h2 h.1 h.2), if_neg (fun h => h3 h.1 h.2),
      if_neg delay, if_neg]
    rintro ⟨rfl | rfl, -⟩ <;> exact absurd hk (by decide)
  have moved : cuMoved [⟨⟨litSlot (0xF0 + k.val) false 0 v, .cu k⟩, v, 0⟩] = some (k.val, v) := rfl
  refine ends_setEng s e _ (hc.trans (congrArg (commit s) ?_))
  rw [State.oneMove_cu hw hi k v (privBad_branch svc v _ hk)]
  dsimp only
  rw [none, if_neg (not_not_intro rfl), off, State.goOn, moved]
  rw [State.ctx_ticked, advance_taken, State.eng_setEng_same, State.setEng_setEng]
  obtain ⟨n, hn⟩ := k
  have hk : n < 4 := hk
  interval_cases n <;> rfl

/-! Their engines as the rule describes them. -/

/-- A target that waits, in the context of a program gone on. -/
theorem branched_target {x : Engine} (hd : svc = true ∨ x.kern ≠ .delay) (p : BitVec 12) :
    branched x svc (some p, ctxOf x svc) = inCtx (cycled x svc) svc fun c => { c with pend := some p } := by
  have off : (!svc && decide (x.kern = .delay)) = false := by cases svc <;> simp_all
  rw [cycled_eq, off]
  unfold branched goneOn inCtx
  rw [ctxOf_ticked]
  cases svc <;> rfl

/-- A change of the stack beside it. -/
theorem branched_stack (x : Engine) (p : BitVec 12) (f : Ctx → Ctx) (hf : FreeOfPc f) :
    branched x svc (some p, f (ctxOf x svc)) = inCtx (branched x svc (some p, ctxOf x svc)) svc f := by
  obtain ⟨pc, pend⟩ := hf.pc (ctxOf x svc)
  unfold branched inCtx
  dsimp only
  rw [ctxOf_withCtx, withCtx_withCtx, pc, pend, ← hf]

/-- A branch taken: its target waits for its delay slot, and its return stack has changed. -/
theorem ends_taken {c : Instr} (hw : s.storesWf) (hi : Issues e svc s) {k : Fin 6} (hk : k.val < 4) {v : Word}
    (hd : svc = true ∨ s.eng[e].kern ≠ .delay)
    (h2 : k = 2 → (ctxOf s.eng[e] svc).depth.val ≠ 8) (h3 : k = 3 → (ctxOf s.eng[e] svc).depth.val ≠ 0)
    {p : BitVec 12} {f : Ctx → Ctx} (hf : FreeOfPc f)
    (hb : branchOf (ctxOf s.eng[e] svc) (some (k.val, v)) = (some p, f (ctxOf s.eng[e] svc)))
    (hc : exec c s = commit s (s.oneMove e svc (litSlot (0xF0 + k.val) false 0 v))) :
    Ends c s fun t =>
      EngineIs e (inCtx (inCtx (cycled s.eng[e] svc) svc fun c => { c with pend := some p }) svc f) s t ∧
      Framed [.eng] [] [] s t := by
  have := ends_branch hw hi hk v hd h2 h3 hc
  rwa [hb, branched_stack _ _ _ hf, branched_target hd] at this

end

/-! KEND (R110, R112, R157). -/

section
variable {s : State} {e : Fin 10}

/-- The engine as KEND leaves it, but for the program's going on. -/
def kended (x : Engine) (newImage : Bool) : Engine :=
  { x with
    kern := .delay
    kCount := none
    ckpt := .due
    wExceeded := decide (x.wdecl.toNat < x.kCount.getD 0)
    wdogNext := if newImage then none else x.wdogNext
    evt := setBit x.evt 3 true }

/-- The registers that KEND writes: the kernel's length, its maximum, a watchdog limit that waited (R112, R165). -/
def State.kendRegs (s : State) (e : Fin 10) (n : Nat) : State :=
  let s1 := s.setReg (pecKlast e.val) (w32 n)
  let s2 := if (s1.reg (pecKmax e.val)).toNat < n then s1.setReg (pecKmax e.val) (w32 n) else s1
  match s.newImage e, s.eng[e].wdogNext with
  | true, some w => s2.setReg (pecWdog e.val) (w.setWidth 32)
  | _, _ => s2

theorem State.kendRegs_framed (n : Nat) :
    Framed [] [pecKlast e.val, pecKmax e.val, pecWdog e.val] [] s (s.kendRegs e n) := by
  have h1 := (Framed.refl [] [pecKlast e.val, pecKmax e.val, pecWdog e.val] [] s).setReg (a := pecKlast e.val) (w32 n)
    (by simp)
  unfold State.kendRegs
  extract_lets s1 s2
  have h2 : Framed [] [pecKlast e.val, pecKmax e.val, pecWdog e.val] [] s s2 := by
    unfold s2
    split
    · exact h1.setReg _ (by simp)
    · exact h1
  split
  · exact h2.setReg _ (by simp)
  · exact h2

theorem State.kendIssue_eq : s.kendIssue e =
    (s.kendRegs e (s.eng[e].kCount.getD 0 % 2 ^ 24)).setEng e (kended s.eng[e] (s.newImage e)) := by
  have eng : (s.kendRegs e (s.eng[e].kCount.getD 0 % 2 ^ 24)).eng = s.eng :=
    (State.kendRegs_framed _).parts .eng (by simp)
  unfold State.kendIssue
  extract_lets x n long s1 s2 s3 x3
  have hs3 : s3 = s.kendRegs e (s.eng[e].kCount.getD 0 % 2 ^ 24) := rfl
  have hx3 : x3 = s.eng[e] := by unfold x3; rw [hs3, eng]
  rw [State.postEvt, State.setEng_setEng, State.eng_setEng_same, hx3, hs3]
  rfl

theorem pecKernelRegs_apart : ∀ e : Fin 10, pecKmax e.val ≠ pecKlast e.val ∧ pecWdog e.val ≠ pecKlast e.val ∧
    pecWdog e.val ≠ pecKmax e.val ∧ pecKlast e.val ≠ glbIntCnt ∧ pecKmax e.val ≠ glbIntCnt ∧
    pecWdog e.val ≠ glbIntCnt := by decide

/-- The values of those registers. -/
theorem State.kendRegs_values (hw : s.storesWf) (n : Nat) :
    (s.kendRegs e n).reg (pecKlast e.val) = w32 n ∧
    (s.kendRegs e n).reg (pecKmax e.val) = w32 (max n (s.reg (pecKmax e.val)).toNat) ∧
    (∀ w, s.eng[e].wdogNext = some w → s.newImage e = true → (s.kendRegs e n).reg (pecWdog e.val) = w.setWidth 32) ∧
    (s.eng[e].wdogNext = none ∨ s.newImage e = false →
      (s.kendRegs e n).reg (pecWdog e.val) = s.reg (pecWdog e.val)) := by
  obtain ⟨hml, hwl, hwm, -, -, -⟩ := pecKernelRegs_apart e
  have wf := State.storesWf_regs hw
  unfold State.kendRegs
  extract_lets s1 s2
  have max1 : s1.reg (pecKmax e.val) = s.reg (pecKmax e.val) := State.reg_setReg_other _ _ _ _ hml
  have wf1 : amWf regReset s1.regs := State.regsWf_setReg wf _
  have last2 : s2.reg (pecKlast e.val) = w32 n := by
    have last1 : s1.reg (pecKlast e.val) = w32 n := State.reg_setReg_same _ _ _ wf
    unfold s2
    split
    · exact (State.reg_setReg_other _ _ _ _ hml.symm).trans last1
    · exact last1
  have max2 : s2.reg (pecKmax e.val) = w32 (max n (s.reg (pecKmax e.val)).toNat) := by
    unfold s2
    rw [max1]
    split
    · next h => rw [State.reg_setReg_same _ _ _ wf1, Nat.max_eq_left h.le]
    · next h => rw [max1, Nat.max_eq_right (not_lt.1 h), w32, BitVec.ofNat_toNat, BitVec.setWidth_eq]
  have wdog2 : s2.reg (pecWdog e.val) = s.reg (pecWdog e.val) := by
    have wdog1 : s1.reg (pecWdog e.val) = s.reg (pecWdog e.val) := State.reg_setReg_other _ _ _ _ hwl
    unfold s2
    split
    · exact (State.reg_setReg_other _ _ _ _ hwm).trans wdog1
    · exact wdog1
  have wf2 : amWf regReset s2.regs := by
    unfold s2
    split
    · exact State.regsWf_setReg wf1 _
    · exact wf1
  split
  · next w hnew hnext =>
    refine ⟨(State.reg_setReg_other _ _ _ _ hwl.symm).trans last2,
      (State.reg_setReg_other _ _ _ _ hwm.symm).trans max2, fun w' hw' _ => ?_, ?_⟩
    · rw [hnext] at hw'
      cases hw'
      exact State.reg_setReg_same _ _ _ wf2
    · rw [hnew, hnext]
      rintro (h | h) <;> cases h
  · next hno =>
    exact ⟨last2, max2, fun w hw' hnew => absurd hw' (hno w hnew), fun _ => wdog2⟩

/-- Outside KEND's delay slot the cycle of a move to the control unit only steps the program. -/
theorem cycled_of_not_delay {x : Engine} {svc : Bool} (h : svc = true ∨ x.kern ≠ .delay) :
    cycled x svc = goneOn (ticked x) svc false := by
  have off : (!svc && decide (x.kern = .delay)) = false := by cases svc <;> simp_all
  rw [cycled_eq, off]

/-- A move to KEND or WAIT that meets no fault: the program steps, then the unit does what it is for. -/
theorem State.oneMove_kendWait {svc : Bool} (hw : s.storesWf) (hi : Issues e svc s) {k : Fin 6} (hk : k = 4 ∨ k = 5)
    (v : Word) (hp : privBad svc (litSlot (0xF0 + k.val) false 0 v) = false) (hd : svc = true ∨ s.eng[e].kern ≠ .delay)
    (hn : (ctxOf s.eng[e] svc).pend = none) :
    s.oneMove e svc (litSlot (0xF0 + k.val) false 0 v) =
      if k = 4 then (s.setEng e (Machine.cycled s.eng[e] svc)).kendIssue e
      else (s.setEng e (Machine.cycled s.eng[e] svc)).waitIssue e v := by
  have delay : ¬ (svc = false ∧ (Machine.ticked s.eng[e]).kern = .delay) := by
    rw [ticked_kern_delay]
    rintro ⟨rfl, h⟩
    exact hd.elim (by simp) (fun hk => hk h)
  have off : (!svc && decide (s.eng[e].kern = .delay)) = false := by
    rw [ticked_kern_delay] at delay
    cases svc <;> simp_all
  have none : performFault (Machine.ticked s.eng[e]) svc [⟨litSlot (0xF0 + k.val) false 0 v, .cu k⟩] = 0 := by
    rw [performFault_cu (hi.loopOf_ticked _), ctxOf_ticked, if_neg, if_neg, if_neg delay, hn, if_neg (by simp)]
    · rintro ⟨rfl, -⟩
      exact hk.elim (by decide) (by decide)
    · rintro ⟨rfl, -⟩
      exact hk.elim (by decide) (by decide)
  have gone (b : Option (BitVec 12) × Ctx) (hb : b = (Option.none, s.ctx e svc)) :
      (s.setEng e (Machine.ticked s.eng[e])).setEng e
        (withCtx (Machine.ticked s.eng[e]) svc (Machine.advance b.2 ⟨Option.none, []⟩ b.1)) =
      s.setEng e (Machine.cycled s.eng[e] svc) := by
    rw [hb, State.setEng_setEng, advance_taken, cycled_of_not_delay hd, goneOn, ctxOf_ticked]
    rfl
  rw [State.oneMove_cu hw hi k v hp]
  dsimp only
  rw [none, if_neg (not_not_intro rfl), off, State.goOn]
  rcases hk with rfl | rfl
  · have moved : cuMoved [⟨⟨litSlot (0xF0 + (4 : Fin 6).val) false 0 v, .cu 4⟩, v, 0⟩] = some (4, v) := rfl
    rw [moved, if_pos rfl, ← gone (branchOf (s.ctx e svc) (some (4, v))) rfl, State.ctx_ticked, State.eng_setEng_same]
    rfl
  · have moved : cuMoved [⟨⟨litSlot (0xF0 + (5 : Fin 6).val) false 0 v, .cu 5⟩, v, 0⟩] = some (5, v) := rfl
    rw [moved, if_neg (by decide), ← gone (branchOf (s.ctx e svc) (some (5, v))) rfl, State.ctx_ticked,
      State.eng_setEng_same]
    rfl

/-- What KEND leaves where it meets no fault. -/
theorem ends_kend (hw : s.storesWf) (hi : Issues e false s) (hd : s.eng[e].kern ≠ .delay)
    (hn : (ctxOf s.eng[e] false).pend = none) :
    Ends (.kend e) s fun t =>
      let x := s.eng[e]
      let n := (ticked x).kCount.getD 0 % 2 ^ 24
      t.reg (pecKlast e.val) = w32 n ∧ t.reg (pecKmax e.val) = w32 (max n (s.reg (pecKmax e.val)).toNat) ∧
      EngineIs e (kended (cycled x false) (s.newImage e)) s t ∧
      (∀ w, x.wdogNext = some w → s.newImage e = true → t.reg (pecWdog e.val) = w.setWidth 32) ∧
      (x.wdogNext = none ∨ s.newImage e = false → t.reg (pecWdog e.val) = s.reg (pecWdog e.val)) ∧
      Framed [.eng] [pecKlast e.val, pecKmax e.val, pecWdog e.val] [] s t := by
  have issued : exec (.kend e) s = commit s ((s.setEng e (cycled s.eng[e] false)).kendIssue e) :=
    congrArg (commit s) (State.oneMove_kendWait hw hi (.inl rfl) 0 (privBad_kend 0) (.inr hd) hn)
  have cyc : cycled s.eng[e] false = goneOn (ticked s.eng[e]) false false := cycled_of_not_delay (.inr hd)
  have kCount : (cycled s.eng[e] false).kCount = (ticked s.eng[e]).kCount := by rw [cyc]; rfl
  have wdogNext : (cycled s.eng[e] false).wdogNext = s.eng[e].wdogNext := by rw [cyc]; rfl
  have image : (s.setEng e (cycled s.eng[e] false)).newImage e = s.newImage e := by
    have role : (cycled s.eng[e] false).role = s.eng[e].role := by rw [cyc]; rfl
    unfold State.newImage
    rw [State.eng_setEng_same, role]
    rfl
  have dmem : (cycled s.eng[e] false).dmem = s.eng[e].dmem := by rw [cyc]; rfl
  have wf : (s.setEng e (cycled s.eng[e] false)).storesWf := hw.setEng dmem
  obtain ⟨last, max, next, kept⟩ := State.kendRegs_values (e := e) wf
    ((ticked s.eng[e]).kCount.getD 0 % 2 ^ 24)
  obtain ⟨-, -, -, hl, hm, hwd⟩ := pecKernelRegs_apart e
  rw [State.eng_setEng_same, wdogNext, image] at next kept
  rw [State.kendIssue_eq, State.eng_setEng_same, kCount, image] at issued
  refine ends_of_commit issued ⟨(settle_reg _ _ _ hl).trans last, (settle_reg _ _ _ hm).trans max, ?_,
    fun w hw' hnew => (settle_reg _ _ _ hwd).trans (next w hw' hnew),
    fun h => (settle_reg _ _ _ hwd).trans (kept h), ?_⟩
  · have eng : ((s.setEng e (cycled s.eng[e] false)).kendRegs e ((ticked s.eng[e]).kCount.getD 0 % 2 ^ 24)).eng =
        vset s.eng e (cycled s.eng[e] false) := (State.kendRegs_framed _).parts .eng (by simp)
    refine ⟨(engineIs_setEng _ e _ s).1, fun f hf => ((engineIs_setEng _ e _ s).2 f hf).trans ?_⟩
    rw [eng]
    exact getElem_vset_other _ _ hf
  · exact framed_settle (((s.setEng_framed e _ _ _ _ (by simp)).trans
      ((State.kendRegs_framed _).mono (by simp) (by simp) (by simp))).trans (State.setEng_framed _ _ _ _ _ _ (by simp)))

/-- WAIT that meets no fault takes a pending selected event, or suspends the service context. -/
theorem ends_wait (hw : s.storesWf) (hi : Issues e true s) (hn : (ctxOf s.eng[e] true).pend = none) (tv : Word) :
    let x := s.eng[e]
    let becomes := fun y => Ends (.wait e tv) s fun t => EngineIs e y s t ∧ Framed [.eng] [] [] s t
    (x.evt &&& tv.setWidth 4 ≠ 0 → becomes (inCtx { cycled x true with evt := x.evt &&& ~~~(tv.setWidth 4) }
      true fun k => { k with evt := x.evt &&& tv.setWidth 4 })) ∧
    (x.evt &&& tv.setWidth 4 = 0 → becomes { cycled x true with svc := .wait (tv.setWidth 4) }) := by
  have issued : exec (.wait e tv) s = commit s ((s.setEng e (cycled s.eng[e] true)).waitIssue e tv) :=
    congrArg (commit s) (State.oneMove_kendWait hw hi (.inr rfl) tv (privBad_wait tv) (.inl rfl) hn)
  have evt : (cycled s.eng[e] true).evt = s.eng[e].evt := by rw [cycled_of_not_delay (.inl rfl)]; rfl
  unfold State.waitIssue at issued
  rw [State.eng_setEng_same] at issued
  dsimp only at issued
  rw [evt, State.setEng_setEng, State.setEng_setEng] at issued
  constructor
  · intro h
    rw [if_pos h] at issued
    exact ends_setEng s e _ issued
  · intro h
    rw [if_neg (not_not_intro h)] at issued
    exact ends_setEng s e _ issued

end

theorem freeOfPc_id : FreeOfPc fun c => c := fun _ _ _ => rfl

theorem inCtx_id (x : Engine) (svc : Bool) : (inCtx x svc fun c => c) = x := withCtx_ctxOf x svc

theorem freeOfPc_depth (d : Fin 9) : FreeOfPc fun c => { c with depth := d } := fun _ _ _ => rfl

theorem freeOfPc_stack (n : Fin 8) (a : BitVec 12) (d : Fin 9) :
    FreeOfPc fun c => { c with stack := vset c.stack n a, depth := d } := fun _ _ _ => rfl

/-- The kernel ends in the delay slot of KEND, and the service context goes on after three cycles (R110). -/
theorem kernelDone_idle (x : Engine) : (kernelDone x).kern = .idle ∧ (kernelDone x).sGap = 3 := by
  unfold kernelDone
  dsimp only
  split <;> exact ⟨rfl, rfl⟩

/-- Settles O26: a control-unit move is one move whose faults are those of its code (`performFault_cu`); with none the
program goes on as `branchOf` says, and KEND and WAIT then do what they are for. -/
theorem branchesKernelEndAndWait : Obligations.BranchesKernelEndAndWait := by
  intro s e svc tv hw hi x c target becomes
  have depth (k : Fin 6) (sl : Slot) := performFault_cu (sl := sl) (k := k) (hi.loopOf_ticked [⟨sl, .cu k⟩])
  simp only [ctxOf_ticked, ticked_kern_delay] at depth
  refine ⟨?branches, ?overflow, ?underflow, ?delay, ?kendSlot, ?waitSlot, ?kend, ?idle, ?wait⟩
  case branches =>
    intro hd
    have code (k m : Fin 6) (h : k ≠ m) (n : Nat) : k = m → c.depth.val ≠ n := fun hk => absurd hk h
    refine ⟨?_, ?_, fun d hdepth => ?_, fun d hdepth => ?_⟩
    · have := ends_taken (c := .jmp e svc tv) (k := 0) (v := tv) hw hi (by decide) hd (code _ _ (by decide) 8)
        (code _ _ (by decide) 0) freeOfPc_id rfl rfl
      rwa [inCtx_id] at this
    · have := ends_taken (c := .br e svc tv) (k := 1) (v := tv) hw hi (by decide) hd (code _ _ (by decide) 8)
        (code _ _ (by decide) 0) freeOfPc_id rfl rfl
      rwa [inCtx_id] at this
    · have top : Fin.ofNat 8 c.depth.val = d := by rw [hdepth]; exact Fin.ofNat_val_eq_self d
      have pushed : branchOf c (some ((2 : Fin 6).val, tv)) = (some (tv.setWidth 12), { c with
          stack := vset c.stack d (c.pend.getD (c.pc + 1) + 1), depth := Fin.ofNat 9 (d.val + 1) }) := by
        rw [← top, ← slotAddr_eq, top, ← hdepth, ← top]
        rfl
      exact ends_taken (k := 2) hw hi (by decide) hd
        (fun _ => by rw [show (ctxOf s.eng[e] svc).depth.val = d.val from hdepth]; omega)
        (code _ _ (by decide) 0) (freeOfPc_stack d (c.pend.getD (c.pc + 1) + 1) _) pushed rfl
    · have popped : branchOf c (some ((3 : Fin 6).val, 0)) =
          (some c.stack[d], { c with depth := Fin.ofNat 9 d.val }) := by
        have top : Fin.ofNat 8 (c.depth.val - 1) = d := by
          rw [hdepth, Nat.add_sub_cancel]
          exact Fin.ofNat_val_eq_self d
        show (some c.stack[Fin.ofNat 8 (c.depth.val - 1)],
          ({ c with depth := Fin.ofNat 9 (c.depth.val - 1) } : Ctx)) = _
        rw [congrArg (fun i : Fin 8 => c.stack[i]) top, hdepth, Nat.add_sub_cancel]
      exact ends_taken (k := 3) hw hi (by decide) hd (code _ _ (by decide) 8)
        (fun _ => by rw [show (ctxOf s.eng[e] svc).depth.val = d.val + 1 from hdepth]; omega)
          (freeOfPc_depth _) popped rfl
  case overflow =>
    intro h
    exact ends_cuFault hw hi 2 tv (privBad_branch svc tv 2 (by decide)) (by decide)
      (fun sl => by rw [depth, if_pos ⟨rfl, h⟩]) rfl
  case underflow =>
    intro h
    exact ends_cuFault hw hi 3 0 (privBad_branch svc 0 3 (by decide)) (by decide)
      (fun sl => by rw [depth, if_neg (by simp), if_pos ⟨rfl, h⟩]) rfl
  case delay =>
    rintro rfl hd
    have nine (k : Fin 6) (h2 : k ≠ 2) (h3 : k ≠ 3) (sl : Slot) :
        performFault (ticked s.eng[e]) false [⟨sl, .cu k⟩] = 9 := by
      rw [depth, if_neg fun h => h2 h.1, if_neg fun h => h3 h.1, if_pos ⟨rfl, hd⟩]
    exact ⟨ends_cuFault hw hi 0 tv (privBad_branch _ tv 0 (by decide)) (by decide) (nine 0 (by decide) (by decide)) rfl,
      ends_cuFault hw hi 1 tv (privBad_branch _ tv 1 (by decide)) (by decide) (nine 1 (by decide) (by decide)) rfl,
      ends_cuFault hw hi 4 0 (privBad_kend 0) (by decide) (nine 4 (by decide) (by decide)) rfl⟩
  case kendSlot =>
    rintro rfl hp
    refine ends_cuFault hw hi 4 0 (privBad_kend 0) (by decide) (fun sl => ?_) rfl
    rw [depth, if_neg (by simp), if_neg (by simp)]
    split
    · rfl
    · rw [if_pos ⟨.inl rfl, hp⟩]
  case waitSlot =>
    rintro rfl hp
    refine ends_cuFault hw hi 5 tv (privBad_wait tv) (by decide) (fun sl => ?_) rfl
    rw [depth, if_neg (by simp), if_neg (by simp), if_neg (by simp), if_pos ⟨.inr rfl, hp⟩]
  case kend =>
    rintro rfl hd hn
    have cyc : cycled x false = goneOn (ticked x) false false := cycled_of_not_delay (.inr hd)
    have engine : kended (cycled x false) (s.newImage e) = { cycled x false with
        kern := .delay
        kCount := none
        ckpt := .due
        wExceeded := decide (x.wdecl.toNat < (ticked x).kCount.getD 0)
        wdogNext := if s.newImage e then none else x.wdogNext
        evt := setBit x.evt 3 true } := by rw [cyc]; rfl
    have := ends_kend hw hi hd hn
    dsimp only at this
    rwa [show kended (cycled s.eng[e] false) (s.newImage e) = _ from engine] at this
  case idle =>
    rintro rfl hd
    have cyc : cycled x false = kernelDone (goneOn (ticked x) false false) := by
      rw [cycled_eq, decide_eq_true hd]
      rfl
    rw [cyc]
    exact kernelDone_idle _
  case wait =>
    rintro rfl hn
    exact ends_wait hw hi hn tv

end Sys2Proof.Machine
end

section
/-! SUPPORT. An engine at rest (R93): its cycles until a result lands, and what lands. -/

namespace Sys2Proof.Machine

/-! Local data memory. -/

section
variable {d : AMap Byte}

/-- Bytes stored in local data memory read back, and every other byte stays. -/
theorem amGet_dmemWrite (bs : List Byte) :
    ∀ {d : AMap Byte} (off : Nat), amWf (fun _ => 0) d → off + bs.length ≤ 0x8000 →
    ∀ i, amGet (fun _ => 0) (dmemWrite d off bs) i =
      if off ≤ i ∧ i < off + bs.length then bs.getD (i - off) 0 else amGet (fun _ => 0) d i := by
  induction bs with
  | nil =>
    intro d off _ _ i
    rw [if_neg (by simp)]
    rfl
  | cons v r ih =>
    intro d off hw hl i
    have len : (v :: r).length = r.length + 1 := rfl
    have here : off % 0x8000 = off := Nat.mod_eq_of_lt (by omega)
    rw [dmemWrite, ih _ (amPut_wf _ _ _ _ hw) (by omega), here]
    by_cases hi : i = off
    · subst hi
      rw [if_neg (by omega), amGet_put_same _ _ _ _ hw, if_pos (by omega), Nat.sub_self]
      rfl
    · rw [amGet_put_other _ _ _ _ _ hi]
      by_cases hr : off + 1 ≤ i ∧ i < off + 1 + r.length
      · rw [if_pos hr, if_pos (by omega), show i - off = i - (off + 1) + 1 by omega]
        rfl
      · rw [if_neg hr, if_neg (by omega)]

end

section
variable {s : State} {e : Fin 10}

/-- An address of local data memory is one below 0x8000, whatever the engine (Table PEC-7). -/
theorem State.espTarget_dmem {a off : Nat} (h : s.espTarget e a = .dmem off) : a < 0x8000 ∧ off = a := by
  unfold State.espTarget at h
  split at h
  · next ha => cases h; exact ⟨ha, rfl⟩
  · split_ifs at h
    · split at h <;> cases h
    · split at h <;> cases h
    · dsimp only at h
      split at h <;> cases h

theorem State.espTarget_of_low {a : Nat} (h : a < 0x8000) : s.espTarget e a = .dmem a := if_pos h

theorem State.espPieceWrite_dmem {a : Nat} (h : a < 0x8000) (bs : List Byte) :
    s.espPieceWrite e a bs = (true, s.setEng e { s.eng[e] with dmem := dmemWrite s.eng[e].dmem a bs }) := by
  unfold State.espPieceWrite
  rw [State.espTarget_of_low h]

/-- The four bytes of a word stored in local data memory, in one target or across two. -/
theorem State.espWrite_dmem (hw : s.storesWf) {a : Nat} (ha : a + 4 ≤ 0x8000) {bs : List Byte} (hl : bs.length = 4) :
    ∃ d, s.espWrite e a bs = (true, s.setEng e { s.eng[e] with dmem := d }) ∧
      ∀ k < 4, amGet (fun _ => 0) d ((a + k) % 0x8000) = bs.getD k 0 := by
  have wf : amWf (fun _ => 0) s.eng[e].dmem := hw.canonical.dmem e
  have here (k : Nat) (hk : k < 4) : (a + k) % 0x8000 = a + k := Nat.mod_eq_of_lt (by omega)
  by_cases one : 4 ≤ 1024 - a % 1024
  · have spans : espSpans 2 a 4 = [(a, 4)] := by rw [espSpans]; exact if_pos one
    refine ⟨dmemWrite s.eng[e].dmem a bs, ?_, fun k hk => ?_⟩
    · unfold State.espWrite
      rw [hl, spans]
      exact State.espPieceWrite_dmem (by omega) bs
    · rw [here k hk, amGet_dmemWrite bs a wf (by omega), if_pos (by omega), Nat.add_sub_cancel_left]
  · obtain ⟨n, hn⟩ : ∃ n, n = 1024 - a % 1024 := ⟨_, rfl⟩
    have pos : 0 < n ∧ n < 4 := by omega
    have spans : espSpans 2 a 4 = [(a, n), (a + n, 4 - n)] := by
      rw [espSpans, ← hn, if_neg (by omega), espSpans]
      exact congrArg _ (if_pos (by omega))
    have taken : (bs.take n).length = n := by rw [List.length_take, hl, Nat.min_eq_left (by omega)]
    have dropped : (bs.drop n).length = 4 - n := by rw [List.length_drop, hl]
    have wf' : amWf (fun _ => 0) (dmemWrite s.eng[e].dmem (a + n) (bs.drop n)) := dmemWrite_wf _ _ _ wf
    refine ⟨dmemWrite (dmemWrite s.eng[e].dmem (a + n) (bs.drop n)) a (bs.take n), ?_, fun k hk => ?_⟩
    · unfold State.espWrite
      rw [hl, spans]
      dsimp only
      rw [State.espPieceWrite_dmem (by omega)]
      dsimp only
      rw [if_pos rfl, State.espPieceWrite_dmem (by omega), State.setEng_setEng, State.eng_setEng_same]
      rfl
    · rw [here k hk, amGet_dmemWrite _ a wf' (by omega), taken]
      by_cases hk' : k < n
      · rw [if_pos (by omega), Nat.add_sub_cancel_left, List.getD_eq_getElem?_getD, List.getElem?_take, if_pos hk',
          List.getD_eq_getElem?_getD]
      · rw [if_neg (by omega), amGet_dmemWrite _ _ wf (by omega), dropped, if_pos (by omega),
          List.getD_eq_getElem?_getD, List.getElem?_drop, show n + (a + k - (a + n)) = k by omega,
            List.getD_eq_getElem?_getD]

end

/-! Cycles at rest. -/

/-- An engine that runs an `Inst` while neither context is due: its pipelines go on, and nothing issues. -/
structure Resting (e : Fin 10) (s : State) : Prop where
  live : s.engLive e = true
  halted : s.eng[e].halted = false
  freeze : s.eng[e].freeze = 0
  kern : s.eng[e].kern = .idle
  gap : s.eng[e].sGap = 0
  count : s.eng[e].kCount = none
  svc : s.eng[e].svc = .off

/-- An engine n cycles on. -/
def waited (x : Engine) (n : Nat) : Engine := { x with pipe := x.pipe + n, wall := x.wall + n }

section
variable {s : State} {e : Fin 10}

theorem State.engLive_setEng {x : Engine} (h : x.st = s.eng[e].st) : (s.setEng e x).engLive e = s.engLive e := by
  unfold State.engLive
  rw [State.eng_setEng_same, h]
  rfl

theorem lateBy_of_inTime {x : Engine} (h : ∀ f ∈ x.flight, f.late = 0) : lateBy x = 0 :=
  List.foldlRecOn (motive := fun n : Nat => n = 0) _ _ rfl fun n hn f hf => by
    rw [hn, h f (List.mem_of_mem_filter hf)]
    rfl

/-- What no issue leaves of a cycle is nothing, for an engine at rest. -/
theorem idleCycle_rest {x : Engine} (hk : x.kern = .idle) (hg : x.sGap = 0) (hs : x.svc = .off) (hold : Bool) :
    idleCycle x hold = x := by
  have gap : ({ x with sGap := x.sGap - 1 } : Engine) = x := by
    rw [hg]
    exact congrArg (fun n => ({ x with sGap := n } : Engine)) hg.symm
  unfold idleCycle
  split
  · next h => rw [hk] at h; cases h
  · split
    · next h => rw [hs] at h; cases h
    · exact gap
  · rfl

theorem Resting.tick (h : Resting e s) : tickEngine s.eng[e] = waited s.eng[e] 1 := by
  unfold tickEngine waited
  rw [h.count]
  rfl

/-- Nothing issues at rest. -/
theorem Resting.engCycle (h : Resting e s) (hl : ∀ f ∈ s.eng[e].flight, f.late = 0) :
    s.engCycle e none =
      let r := (s.setEng e (waited s.eng[e] 1)).landDue e
      r.1.setEng e (idleCycle r.1.eng[e] (s.inHold (.pec e))) := by
  have none : s.issuer e = none := by
    unfold State.issuer
    dsimp only
    rw [h.live, h.halted, h.freeze, lateBy_of_inTime hl, if_neg (by simp), h.kern]
    dsimp only
    rw [h.svc, if_pos (by simp)]
  unfold State.engCycle
  dsimp only
  rw [h.live, h.halted, if_neg (by decide), if_neg (not_not_intro h.freeze),
    if_neg (not_not_intro (lateBy_of_inTime hl)),
    none, ← h.tick]

theorem Resting.wait (h : Resting e s) (n : Nat) : Resting e (s.setEng e (waited s.eng[e] n)) := by
  refine ⟨(State.engLive_setEng (x := waited s.eng[e] n) rfl).trans h.live, ?_, ?_, ?_, ?_, ?_, ?_⟩ <;>
    rw [State.eng_setEng_same]
  exacts [h.halted, h.freeze, h.kern, h.gap, h.count, h.svc]

/-- Until the first result is due, cycles at rest only count. -/
theorem Resting.engCycles_wait : ∀ (n : Nat) {s : State}, s.storesWf → Resting e s →
    (∀ f ∈ s.eng[e].flight, f.late = 0 ∧ s.eng[e].pipe + n < f.at_) →
    s.engCycles e n = s.setEng e (waited s.eng[e] n)
  | 0, s, _, _, _ => (s.setEng_self e).symm
  | n + 1, s, hw, h, hq => by
    have wf : (s.setEng e (waited s.eng[e] 1)).storesWf := hw.setEng
    have quiet : (s.setEng e (waited s.eng[e] 1)).landDue e = (s.setEng e (waited s.eng[e] 1), []) :=
      State.landDue_quiet wf fun f hf => by
        rw [State.eng_setEng_same] at hf ⊢
        have : s.eng[e].pipe + (n + 1) < f.at_ := (hq f hf).2
        show s.eng[e].pipe + 1 < f.at_
        omega
    have one : s.engCycle e none = s.setEng e (waited s.eng[e] 1) := by
      rw [h.engCycle fun f hf => (hq f hf).1, quiet]
      dsimp only
      rw [State.eng_setEng_same, idleCycle_rest (x := waited s.eng[e] 1) h.kern h.gap h.svc, State.setEng_setEng]
    rw [State.engCycles, one, Resting.engCycles_wait n wf (h.wait 1) ?_, State.setEng_setEng, State.eng_setEng_same]
    · unfold waited
      dsimp only
      rw [show s.eng[e].pipe + 1 + n = s.eng[e].pipe + (n + 1) by omega,
        show s.eng[e].wall + 1 + n = s.eng[e].wall + (n + 1) by omega]
    · intro f hf
      rw [State.eng_setEng_same] at hf ⊢
      refine ⟨(hq f hf).1, ?_⟩
      have : s.eng[e].pipe + (n + 1) < f.at_ := (hq f hf).2
      show s.eng[e].pipe + 1 + n < f.at_
      omega

theorem State.engCycles_succ : ∀ (n : Nat) (s : State), s.engCycles e (n + 1) = (s.engCycles e n).engCycle e none
  | 0, _ => rfl
  | n + 1, s => by rw [State.engCycles, State.engCycles_succ n, State.engCycles]

/-- The engine in the cycle in which all of its results in flight land. -/
def landing (x : Engine) (n : Nat) : Engine := { x with pipe := x.pipe + 1 + n, wall := x.wall + 1 + n, flight := [] }

/-- The run to the cycle in which all results in flight land together. -/
theorem Resting.engCycles_land (hw : s.storesWf) (h : Resting e s) {n : Nat}
    (hf : ∀ f ∈ s.eng[e].flight, f.late = 0 ∧ f.at_ = s.eng[e].pipe + 1 + n) :
    s.engCycles e (n + 1) =
      let r := ((s.setEng e (Machine.landing s.eng[e] n)).countN (pecCollideCnt e.val)
        (lostLoads s.eng[e].flight)).landList e
        s.eng[e].flight
      r.1.setEng e (idleCycle r.1.eng[e] (s.inHold (.pec e))) := by
  have before := Resting.engCycles_wait n hw h fun f hm => ⟨(hf f hm).1, by rw [(hf f hm).2]; omega⟩
  have sum (a : Nat) : a + n + 1 = a + 1 + n := by omega
  have last : waited (waited s.eng[e] n) 1 = { s.eng[e] with
      pipe := s.eng[e].pipe + 1 + n, wall := s.eng[e].wall + 1 + n } := by
    unfold waited
    dsimp only
    rw [sum, sum]
  have due : s.eng[e].flight.filter (fun f => decide (f.at_ ≤ s.eng[e].pipe + 1 + n)) = s.eng[e].flight :=
    List.filter_eq_self.2 fun f hm => by rw [(hf f hm).2]; exact decide_eq_true le_rfl
  have rest : s.eng[e].flight.filter (fun f => !decide (f.at_ ≤ s.eng[e].pipe + 1 + n)) = [] :=
    List.filter_eq_nil_iff.2 fun f hm => by rw [(hf f hm).2]; simp
  rw [State.engCycles_succ, before, (h.wait n).engCycle fun f hm => ?_, State.setEng_setEng, State.eng_setEng_same,
    last]
  · unfold State.landDue
    rw [State.eng_setEng_same]
    dsimp only
    rw [due, rest, State.setEng_setEng]
    rfl
  · rw [State.eng_setEng_same] at hm
    exact (hf f hm).1

/-! What lands. -/

/-- The run of UNIT_RESULT_LAND where one result is in flight. -/
theorem Resting.exec_one (hw : s.storesWf) (h : Resting e s) {svc : Bool} {n : Nat} {w : Landing}
    (hx : s.eng[e].flight = [⟨svc, s.eng[e].pipe + 1 + n, w, 0⟩]) :
    exec (.unitResultLand e) s = commit s
      (let r := (s.setEng e (landing s.eng[e] n)).landOne e ⟨svc, s.eng[e].pipe + 1 + n, w, 0⟩
       r.1.setEng e (idleCycle r.1.eng[e] (s.inHold (.pec e)))) := by
  have until_ : untilLanding s.eng[e] = n + 1 := by
    unfold untilLanding
    rw [hx]
    show s.eng[e].pipe + 1 + n - s.eng[e].pipe = n + 1
    omega
  have none : lostLoads s.eng[e].flight = 0 := by
    rw [hx]
    unfold lostLoads
    have one (p : InFlight → Bool) (f : InFlight) : ([f].filter p).length - 1 = 0 := by
      have := List.length_filter_le p [f]
      rw [List.length_singleton] at this
      omega
    rw [one, one]
  have zero := State.countN_zero (s := s.setEng e (landing s.eng[e] n)) hw.setEng (pecCollideCnt e.val)
  show commit s (s.engCycles e (untilLanding s.eng[e])) = _
  rw [until_, Resting.engCycles_land hw h fun f hf => ?_, none, zero, hx]
  · rfl
  · rw [hx, List.mem_singleton] at hf
    rw [hf]
    exact ⟨rfl, rfl⟩

/-- A result that changes its context alone lands so. -/
theorem Resting.ends_lands (hw : s.storesWf) (h : Resting e s) {svc : Bool} {n : Nat} {w : Landing} {f : Ctx → Ctx}
    (hx : s.eng[e].flight = [⟨svc, s.eng[e].pipe + 1 + n, w, 0⟩])
    (hf : ((s.setEng e (landing s.eng[e] n)).landOne e ⟨svc, s.eng[e].pipe + 1 + n, w, 0⟩).1 =
      (s.setEng e (landing s.eng[e] n)).setCtx e svc (f (ctxOf s.eng[e] svc))) :
    Ends (.unitResultLand e) s fun t => Framed [.eng] [] [] s t ∧
      EngineIs e (inCtx (landing s.eng[e] n) svc f) s t := by
  have ctx : ctxOf (landing s.eng[e] n) svc = ctxOf s.eng[e] svc := by cases svc <;> rfl
  have landed : (s.setEng e (landing s.eng[e] n)).setCtx e svc (f (ctxOf s.eng[e] svc)) =
      s.setEng e (inCtx (landing s.eng[e] n) svc f) := by
    rw [State.setCtx_eq, State.setEng_setEng, State.eng_setEng_same, inCtx, ctx]
  have rest : idleCycle (inCtx (landing s.eng[e] n) svc f) (s.inHold (.pec e)) = inCtx (landing s.eng[e] n) svc f := by
    refine idleCycle_rest ?_ ?_ ?_ _
    · rw [inCtx, withCtx_kern]
      exact h.kern
    · cases svc <;> exact h.gap
    · cases svc <;> exact h.svc
  have run := Resting.exec_one hw h hx
  dsimp only at run
  rw [hf, landed, State.eng_setEng_same, rest, State.setEng_setEng] at run
  obtain ⟨t, ht, engine, frame⟩ := ends_setEng s e _ run
  exact ⟨t, ht, frame, engine⟩

end

end Sys2Proof.Machine
end

section
/-! SUPPORT. The landings of single operations (R93, R100, R103, R107), and the iteration of a walk (R137). -/

namespace Sys2Proof.Machine

theorem settle_eng (s t : State) : (settle s t).eng = t.eng := settle_part s t .eng

theorem pecCollideCnt_ne : ∀ e : Fin 10, pecCollideCnt e.val ≠ glbIntCnt := by decide

section
variable {s : State} {e : Fin 10}

/-- A window's status goes by the activity of the engine's windows, not by where its pipelines stand. -/
theorem State.fwuStat_setEng {x : Engine} (hon : x.fwuOn = s.eng[e].fwuOn) (hf : x.fwuFresh = s.eng[e].fwuFresh)
    (k : Nat) : (s.setEng e x).fwuStat e k = s.fwuStat e k := by
  unfold State.fwuStat State.fwuActive
  rw [State.eng_setEng_same, hon, hf]
  rfl

/-- An accumulate that fits An: the sum, narrowed into MRESn. -/
theorem accumulate_of_fits (sat : Bool) (a : BitVec 40) (d : Int) (lo : -(2 ^ 39) ≤ a.toInt + d)
    (hi : a.toInt + d < 2 ^ 39) :
    accumulate sat a d = (BitVec.ofInt 40 (a.toInt + d), narrow sat (BitVec.ofInt 40 (a.toInt + d))) := by
  unfold accumulate
  rw [fit_of_mem lo hi]
  have none (b : BitVec 3) : b ||| ovBits false = b := BitVec.or_zero
  simp only [none]

section
variable (hw : s.storesWf) (h : Resting e s) {svc : Bool} {n : Nat}
include hw h

/-- A landing accumulate adds to An as it stands. -/
theorem Resting.ends_acc {lane : Fin 4} {d : Int} {sat : Bool}
    (hx : s.eng[e].flight = [⟨svc, s.eng[e].pipe + 1 + n, .acc lane d sat, 0⟩])
    (lo : -(2 ^ 39) ≤ (ctxOf s.eng[e] svc).a[lane].toInt + d) (hi : (ctxOf s.eng[e] svc).a[lane].toInt + d < 2 ^ 39) :
    Ends (.unitResultLand e) s fun t => Framed [.eng] [] [] s t ∧
      EngineIs e (inCtx (landing s.eng[e] n) svc fun c =>
        let a := BitVec.ofInt 40 ((ctxOf s.eng[e] svc).a[lane].toInt + d)
        { c with a := vset c.a lane a, res := vset c.res (rMres lane) (narrow sat a).v
                 flg := c.flg ||| (narrow sat a).fl }) s t := by
  have ctx : (s.setEng e (landing s.eng[e] n)).ctx e svc = ctxOf s.eng[e] svc := by
    rw [State.ctx, State.eng_setEng_same]
    cases svc <;> rfl
  refine Resting.ends_lands hw h hx ?_
  unfold State.landOne
  dsimp only
  rw [ctx, accumulate_of_fits sat _ _ lo hi]
  rfl

/-- A copy lands as its four bytes in local data memory. -/
theorem Resting.ends_copy {dst v : Word} {off : Nat}
    (hx : s.eng[e].flight = [⟨svc, s.eng[e].pipe + 1 + n, .copy dst v 0, 0⟩])
    (ht : s.espTarget e dst.toNat = .dmem off) (ho : off + 4 ≤ 0x8000) :
    Ends (.unitResultLand e) s fun t => Framed [.eng] [] [] s t ∧
      ∀ k < 4, amGet (fun _ => 0) t.eng[e].dmem ((off + k) % 0x8000) = byteAt (leBytes v) k := by
  obtain ⟨-, rfl⟩ := State.espTarget_dmem ht
  have wf : (s.setEng e (landing s.eng[e] n)).storesWf := hw.setEng
  obtain ⟨d, hd, bytes⟩ := State.espWrite_dmem (e := e) wf ho (show (leBytes v).length = 4 from rfl)
  have run := Resting.exec_one hw h hx
  unfold State.landOne at run
  dsimp only at run
  rw [hd] at run
  dsimp only at run
  simp only [State.setCtx_eq, State.setEng_setEng, State.eng_setEng_same] at run
  refine ends_of_commit run ⟨framed_settle (s.setEng_framed e _ _ _ _ (by simp)), fun k hk => ?_⟩
  rw [settle_eng, State.eng_setEng_same, idleCycle_dmem, withCtx_dmem]
  exact bytes k hk

/-- Of two loads that land together the later is readable, and the collision counts (R103). -/
theorem Resting.ends_loads {v1 v2 : Word} (hx : s.eng[e].flight =
    [⟨svc, s.eng[e].pipe + 1 + n, .load v1 0, 0⟩, ⟨svc, s.eng[e].pipe + 1 + n, .load v2 0, 0⟩]) :
    Ends (.unitResultLand e) s fun t => (ctxOf t.eng[e] svc).res[rLsu] = v2 ∧
      t.reg (pecCollideCnt e.val) = s.reg (pecCollideCnt e.val) + 1 ∧ Framed [.eng] [pecCollideCnt e.val] [] s t := by
  have until_ : untilLanding s.eng[e] = n + 1 := by
    unfold untilLanding
    rw [hx]
    show min (s.eng[e].pipe + 1 + n) (s.eng[e].pipe + 1 + n) - s.eng[e].pipe = n + 1
    omega
  have lost : lostLoads s.eng[e].flight = 1 := by
    rw [hx]
    cases svc <;> rfl
  have run : exec (.unitResultLand e) s = commit s (s.engCycles e (untilLanding s.eng[e])) := rfl
  rw [until_, Resting.engCycles_land hw h fun f hf => ?_, lost, hx] at run
  · obtain ⟨u, hu⟩ : ∃ u, u = (s.setEng e (landing s.eng[e] n)).countN (pecCollideCnt e.val) 1 := ⟨_, rfl⟩
    have counted : u.reg (pecCollideCnt e.val) = s.reg (pecCollideCnt e.val) + 1 := by
      have wf : (s.setEng e (landing s.eng[e] n)).storesWf := hw.setEng
      rw [hu]
      exact State.reg_setReg_same _ _ _ (State.storesWf_regs wf)
    have framed : Framed [.eng] [pecCollideCnt e.val] [] s u := by
      rw [hu]
      exact (s.setEng_framed e _ _ _ _ (by simp)).setReg _ (by simp)
    rw [← hu] at run
    simp only [State.landList, State.landOne, State.setCtx_eq, State.setEng_setEng, State.eng_setEng_same, State.ctx,
      ctxOf_withCtx, withCtx_withCtx] at run
    refine ends_of_commit run ⟨?_, ?_, framed_settle (framed.trans (u.setEng_framed e _ _ _ _ (by simp)))⟩
    · have engine : u.eng[e] = landing s.eng[e] n := by
        rw [hu]
        exact State.eng_setEng_same _ _ _
      rw [settle_eng, State.eng_setEng_same, engine, idleCycle_rest, ctxOf_withCtx]
      · exact getElem_vset_same _ _ _
      · rw [withCtx_kern]; exact h.kern
      · cases svc <;> exact h.gap
      · cases svc <;> exact h.svc
    · exact (settle_reg _ _ _ (pecCollideCnt_ne e)).trans counted
  · rw [hx] at hf
    rcases List.mem_cons.1 hf with rfl | hf
    · exact ⟨rfl, rfl⟩
    · rw [List.mem_singleton.1 hf]
      exact ⟨rfl, rfl⟩

end

/-! The iteration of a walk (R137, Table PEC-20). -/

/-- A context after an iteration of a walk from register a to register b. -/
def walked (c : Ctx) (a b : Byte) (n : BitVec 16) (k : Ctx) : Ctx :=
  { k with
    g := vset k.g (Fin.ofNat 64 b.toNat) c.g[Fin.ofNat 64 a.toNat]
    rptCnt := n - 1
    rptSrc := a + 1
    rptDst := b + 1 }

theorem State.repAfter_of_next {svc : Bool} {sl : Slot} {k : Ctx} (hn : repNext (s.ctx e svc) sl = k)
    (hl : k.loopDec = none) (hr : k.rptRun = true) (hk : s.eng[e].kern ≠ .delay) :
    s.repAfter e svc sl = s.setEng e (withCtx s.eng[e] svc
      (if k.rptCnt = 0 then { k with rptRun := false, pc := k.pend.getD (k.pc + 1), pend := none } else k)) := by
  have step : ({ k with rptRun := false, loopDec := none, pc := k.pend.getD (k.pc + 1), pend := none } : Ctx) =
      { k with rptRun := false, pc := k.pend.getD (k.pc + 1), pend := none } := by
    rw [← hl]
  have run : ({ k with rptRun := true } : Ctx) = k := by
    rw [← hr]
  unfold State.repAfter
  extract_lets c d s1
  have hc : c = k := hn
  clear_value c
  subst hc
  have hd : d = ⟨none, []⟩ := by unfold d; rw [hl]; rfl
  have hs1 : s1 = s.setEng e (withCtx s.eng[e] svc
      { c with rptRun := false, pc := c.pend.getD (c.pc + 1), pend := none }) := by
    rw [← step]
    unfold s1
    rw [hd, advance_straight]
    rfl
  have kern : s1.eng[e].kern ≠ .delay := by
    rw [hs1, State.eng_setEng_same, withCtx_kern]
    exact hk
  split
  · rw [decide_eq_false kern, Bool.and_false, if_neg (by decide), hs1]
  · rw [State.setCtx_eq, run]

/-- An iteration of a walk: the register copied, the repeat state stepped, and after the last the program goes on. -/
theorem State.iterate_walk {svc : Bool} {sl : Slot} (hc : rptClass sl = some .walk) (hl : (s.ctx e svc).loopDec = none)
    (hr : (s.ctx e svc).rptRun = true) (hk : s.eng[e].kern ≠ .delay) :
    let c := s.ctx e svc
    let k := walked c c.rptSrc c.rptDst c.rptCnt c
    s.iterate e svc sl = s.setEng e (withCtx s.eng[e] svc
      (if c.rptCnt - 1 = 0 then { k with rptRun := false, pc := c.pend.getD (c.pc + 1), pend := none } else k)) := by
  intro c k
  obtain ⟨c', hc'⟩ : ∃ c', c' = { c with
      g := vset c.g (Fin.ofNat 64 c.rptDst.toNat) c.g[Fin.ofNat 64 c.rptSrc.toNat] } := ⟨_, rfl⟩
  have copied : s.iterate e svc sl = (s.setEng e (withCtx s.eng[e] svc c')).repAfter e svc sl := by
    unfold State.iterate
    dsimp only
    rw [hc, hc']
    rfl
  have stepped : repNext ((s.setEng e (withCtx s.eng[e] svc c')).ctx e svc) sl = k := by
    rw [State.ctx, State.eng_setEng_same, ctxOf_withCtx, hc', repNext]
    dsimp only
    rw [hc]
    rfl
  have kern : (s.setEng e (withCtx s.eng[e] svc c')).eng[e].kern ≠ .delay := by
    rw [State.eng_setEng_same, withCtx_kern]
    exact hk
  rw [copied, State.repAfter_of_next stepped hl hr kern, State.setEng_setEng, State.eng_setEng_same, withCtx_withCtx]
  rfl

end

end Sys2Proof.Machine
end

section
/-! SUPPORT. An instruction of moves into general registers (R92, R95, R96, R127). -/

namespace Sys2Proof.Machine

/-! Moves that collide (R95). -/

theorem mem_of_mem_keepHighest {m : Move} : ∀ {l : List Move}, m ∈ keepHighest l → m ∈ l
  | [], h => by cases h
  | x :: r, h => by
    rw [keepHighest] at h
    split at h
    · exact List.mem_cons_of_mem _ (mem_of_mem_keepHighest h)
    · exact (List.mem_cons.1 h).elim (fun e => e ▸ List.mem_cons_self)
        fun h => List.mem_cons_of_mem _ (mem_of_mem_keepHighest h)

theorem keepHighest_length_le : ∀ l : List Move, (keepHighest l).length ≤ l.length
  | [] => Nat.le_refl _
  | x :: r => by
    have := keepHighest_length_le r
    rw [keepHighest]
    split
    · rw [List.length_cons]; omega
    · rw [List.length_cons, List.length_cons]; omega

/-- Every move is left exactly where no two collide. -/
theorem keepHighest_length_eq_iff : ∀ l : List Move,
    (keepHighest l).length = l.length ↔ l.Pairwise fun x y => collide x.dst y.dst = false
  | [] => by simp [keepHighest]
  | x :: r => by
    have le := keepHighest_length_le r
    have ih := keepHighest_length_eq_iff r
    rw [keepHighest, List.pairwise_cons, ← ih]
    split
    · next h =>
      obtain ⟨y, hy, hc⟩ := List.any_eq_true.1 h
      refine iff_of_false (by rw [List.length_cons]; omega) fun ⟨hr, _⟩ => ?_
      rw [hr y hy] at hc
      cases hc
    · next h =>
      have apart : ∀ y ∈ r, collide x.dst y.dst = false := fun y hy => by
        by_contra hc
        exact h (List.any_eq_true.2 ⟨y, hy, by simpa using hc⟩)
      rw [List.length_cons, List.length_cons, Nat.add_right_cancel_iff]
      exact (and_iff_right apart).symm

/-! Moves into general registers. -/

/-- A slot that moves into a general register, as its move. -/
def gMove (sl : Slot) : Move := ⟨sl, .g (Fin.ofNat 64 sl.dst.toNat)⟩

/-- The value a slot's source has. -/
def slotVal (x : Engine) (svc : Bool) (sl : Slot) : Word :=
  match srcOf sl.src sl.immx with
  | some src => (srcRead x svc sl src).v
  | none => 0

theorem destOf_g {sl : Slot} (h : sl.dst.toNat < 0x40) : destOf sl.dst = some (.g (Fin.ofNat 64 sl.dst.toNat)) := by
  unfold destOf
  exact if_pos h

theorem trueMoves_g {p : BitVec 8} : ∀ {sls : List Slot}, (∀ sl ∈ sls, sl.dst.toNat < 0x40) →
    trueMoves p sls = (sls.filter fun sl => guardTrue p sl.guard).map gMove
  | [], _ => rfl
  | sl :: r, h => by
    have ih := trueMoves_g (p := p) fun x hx => h x (List.mem_cons_of_mem _ hx)
    unfold trueMoves at ih ⊢
    rw [List.filterMap_cons, List.filter_cons, ih]
    cases guardTrue p sl.guard with
    | false => rfl
    | true =>
      rw [if_pos rfl, destOf_g (h sl List.mem_cons_self)]
      rfl

theorem gIndex_inj {a b : Slot} (ha : a.dst.toNat < 0x40) (hb : b.dst.toNat < 0x40) :
    (Fin.ofNat 64 a.dst.toNat = Fin.ofNat 64 b.dst.toNat) ↔ a.dst = b.dst := by
  constructor
  · intro h
    have := congrArg Fin.val h
    rw [Fin.val_ofNat, Fin.val_ofNat, Nat.mod_eq_of_lt ha, Nat.mod_eq_of_lt hb] at this
    exact BitVec.eq_of_toNat_eq this
  · exact fun h => by rw [h]

theorem collide_g {a b : Slot} (ha : a.dst.toNat < 0x40) (hb : b.dst.toNat < 0x40) :
    collide (gMove a).dst (gMove b).dst = decide (a.dst = b.dst) := by
  show decide (Dest.g (Fin.ofNat 64 a.dst.toNat) = Dest.g (Fin.ofNat 64 b.dst.toNat)) = _
  refine decide_eq_decide.2 ?_
  rw [Dest.g.injEq, gIndex_inj ha hb]

/-- Moves into general registers collide where two name the same. -/
theorem keepHighest_g_length {l : List Slot} (h : ∀ sl ∈ l, sl.dst.toNat < 0x40) :
    (keepHighest (l.map gMove)).length = (l.map gMove).length ↔ (l.map (·.dst)).Nodup := by
  rw [keepHighest_length_eq_iff, List.Nodup, List.pairwise_map, List.pairwise_map]
  refine List.Pairwise.iff_of_mem fun {a b} ha hb => ?_
  rw [collide_g (h a ha) (h b hb), decide_eq_false_iff_not]

/-- The general registers after moves into them. -/
def gWrites (x : Engine) (svc : Bool) (ms : List Move) (g : Vector Word 64) : Vector Word 64 :=
  ms.foldl (fun g m => vset g (Fin.ofNat 64 m.sl.dst.toNat) (slotVal x svc m.sl)) g

/-- Of the moves left, each register takes the value of the highest slot that names it (R95). -/
theorem gWrites_keepHighest (x : Engine) (svc : Bool) (i : Fin 64) : ∀ (l : List Slot) (g : Vector Word 64),
    (∀ sl ∈ l, sl.dst.toNat < 0x40) →
    (gWrites x svc (keepHighest (l.map gMove)) g)[i] =
      match l.reverse.find? (fun sl => sl.dst.toNat = i.val) with
      | some sl => slotVal x svc sl
      | none => g[i]
  | [], _, _ => rfl
  | a :: r, g, h => by
    have hr : ∀ sl ∈ r, sl.dst.toNat < 0x40 := fun sl hsl => h sl (List.mem_cons_of_mem _ hsl)
    have ha := h a List.mem_cons_self
    have ih := gWrites_keepHighest x svc i r
    have names : Fin.ofNat 64 a.dst.toNat = i ↔ a.dst.toNat = i.val := by
      rw [Fin.ext_iff, Fin.val_ofNat, Nat.mod_eq_of_lt ha]
    rw [List.map_cons, keepHighest, List.reverse_cons, List.find?_append]
    split
    · next hc =>
      rw [ih g hr]
      obtain ⟨m, hm, hc⟩ := List.any_eq_true.1 hc
      obtain ⟨b, hb, rfl⟩ := List.mem_map.1 hm
      rw [collide_g ha (hr b hb), decide_eq_true_eq] at hc
      cases hf : r.reverse.find? (fun sl => decide (sl.dst.toNat = i.val)) with
      | some sl => rfl
      | none =>
        have : ¬ a.dst.toNat = i.val := fun hi => by
          have := List.find?_eq_none.1 hf b (List.mem_reverse.2 hb)
          exact this (by rw [decide_eq_true_eq, ← hc, hi])
        rw [Option.none_or, List.find?_cons_of_neg (by simpa using this)]
        rfl
    · next hc =>
      refine (ih (vset g (Fin.ofNat 64 a.dst.toNat) (slotVal x svc a)) hr).trans ?_
      cases hf : r.reverse.find? (fun sl => decide (sl.dst.toNat = i.val)) with
      | some sl => rfl
      | none =>
        rw [Option.none_or]
        dsimp only
        by_cases hi : a.dst.toNat = i.val
        · rw [List.find?_cons_of_pos (by simpa using hi), names.2 hi]
          exact getElem_vset_same _ _ _
        · rw [List.find?_cons_of_neg (by simpa using hi)]
          exact getElem_vset_other _ _ fun hc => hi (names.1 hc.symm)

/-! Their values. -/

/-- Whether a source is An. -/
def Src.isAcc : Src → Bool
  | .a _ => true
  | _ => false

/-- A source other than An sets no flag: only An is narrowed (R135). -/
theorem srcRead_fl {x : Engine} {svc : Bool} {sl : Slot} {src : Src} (h : ∀ i, src ≠ .a i) :
    (srcRead x svc sl src).fl = 0 := by
  cases src with
  | a i => exact absurd rfl (h i)
  | _ => rfl

theorem srcOf_ne_a {b : Byte} {immx : BitVec 7} (h : b.toNat < 0x40 ∨ 0x44 ≤ b.toNat) (i : Fin 4) :
    srcOf b immx ≠ some (.a i) := by
  have other : (srcOf b immx).any Src.isAcc = false := by
    have low : b.toNat < 0x40 ∨ ¬ b.toNat < 0x44 := h.imp_right not_lt.2
    unfold srcOf
    rcases low with low | low
    · rw [if_pos low]
      rfl
    · simp only [if_neg low, apply_ite (Option.any Src.isAcc), Option.any_some, Option.any_none, Src.isAcc, ite_self]
  intro hs
  rw [hs] at other
  cases other

/-- A source reads the same however far the engine's cycle count has come. -/
theorem srcRead_ticked (x : Engine) (svc : Bool) (sl : Slot) (src : Src) :
    srcRead (ticked x) svc sl src = srcRead x svc sl src := by
  unfold srcRead
  rw [ctxOf_ticked]
  rfl

theorem slotVal_ticked (x : Engine) (svc : Bool) (sl : Slot) : slotVal (ticked x) svc sl = slotVal x svc sl := by
  unfold slotVal
  split
  · rw [srcRead_ticked]
  · rfl

/-- The moves of slots that set no flag, with their values. -/
theorem readMoves_flagless {x : Engine} {svc : Bool} {ms : List Move}
    (h : ∀ m ∈ ms, m.sl.src.toNat < 0x40 ∨ 0x44 ≤ m.sl.src.toNat) :
    readMoves x svc ms = ms.map fun m => ⟨m, slotVal x svc m.sl, 0⟩ := by
  unfold readMoves
  refine List.map_congr_left fun m hm => ?_
  unfold slotVal
  cases hsrc : srcOf m.sl.src m.sl.immx with
  | some src =>
    have : (srcRead x svc m.sl src).fl = 0 := srcRead_fl fun i hi => srcOf_ne_a (h m hm) i (hi ▸ hsrc)
    dsimp only
    rw [this]
  | none => rfl

section
variable {x : Engine} {svc : Bool} {ms : List Move} (h : ∀ m ∈ ms, ∃ sl, sl.dst.toNat < 0x40 ∧ m = gMove sl)
include h

theorem foldl_portWrite_g (vs : List Move) (hv : ∀ m ∈ vs, m ∈ ms) (c : Ctx) :
    (vs.map fun m => (⟨m, slotVal x svc m.sl, 0⟩ : Moved)).foldl (fun c w => portWrite c w.m.dst w.v) c =
      { c with g := gWrites x svc vs c.g } := by
  induction vs generalizing c with
  | nil => rfl
  | cons m r ih =>
    obtain ⟨sl, -, rfl⟩ := h m (hv m List.mem_cons_self)
    rw [List.map_cons, List.foldl_cons, ih fun m hm => hv m (List.mem_cons_of_mem _ hm)]
    rfl

/-- The context after moves into general registers. -/
theorem afterMoves_g (c : Ctx) :
    afterMoves c c.flg (ms.map fun m => ⟨m, slotVal x svc m.sl, 0⟩) [] = { c with g := gWrites x svc ms c.g } := by
  have port (m : Moved) (hm : m ∈ ms.map fun m => (⟨m, slotVal x svc m.sl, 0⟩ : Moved)) :
      isAg m.m.dst = false ∧ m.m.dst ≠ .flg ∧ m.fl = 0 := by
    obtain ⟨m, hm', rfl⟩ := List.mem_map.1 hm
    obtain ⟨sl, -, rfl⟩ := h m hm'
    exact ⟨rfl, by simp [gMove], rfl⟩
  have written : writeAll c (ms.map fun m => ⟨m, slotVal x svc m.sl, 0⟩) = { c with g := gWrites x svc ms c.g } := by
    have late : (ms.map fun m => (⟨m, slotVal x svc m.sl, 0⟩ : Moved)).filter (fun w => isAg w.m.dst) = [] :=
      List.filter_eq_nil_iff.2 fun w hw => by simp [(port w hw).1]
    have once : (ms.map fun m => (⟨m, slotVal x svc m.sl, 0⟩ : Moved)).filter (fun w => !isAg w.m.dst) =
        ms.map fun m => (⟨m, slotVal x svc m.sl, 0⟩ : Moved) :=
      List.filter_eq_self.2 fun w hw => by simp [(port w hw).1]
    unfold writeAll
    rw [late, once]
    exact foldl_portWrite_g h ms (fun _ hm => hm) c
  have flags : (ms.map fun m => (⟨m, slotVal x svc m.sl, 0⟩ : Moved)).foldl (fun a w => a ||| w.fl) 0 = 0#3 :=
    List.foldlRecOn (motive := fun b : BitVec 3 => b = 0) _ _ rfl fun b hb w hw => by rw [hb, (port w hw).2.2]; rfl
  have noFlg : ((ms.map fun m => (⟨m, slotVal x svc m.sl, 0⟩ : Moved)).any fun w => decide (w.m.dst = .flg)) = false :=
    List.any_eq_false.2 fun w hw => by simpa using (port w hw).2.1
  unfold afterMoves
  dsimp only
  rw [written, noFlg, flags]
  simp

/-- None of them triggers a unit. -/
theorem State.foldl_trigger_g (s : State) (e : Fin 10) :
    (ms.map fun m => (⟨m, slotVal x svc m.sl, 0⟩ : Moved)).foldl
      (fun t w => t.trigger e svc w.m.sl w.m.dst w.v) s = s :=
  List.foldlRecOn (motive := fun t : State => t = s) _ _ rfl fun t ht w hw => by
    obtain ⟨m, hm, rfl⟩ := List.mem_map.1 hw
    obtain ⟨sl, -, rfl⟩ := h m hm
    exact ht

theorem cuOf_g : cuOf ms = none := by
  have none : ms.find? (fun m => isCu m.dst) = Option.none := List.find?_eq_none.2 fun m hm => by
    obtain ⟨sl, -, rfl⟩ := h m hm
    exact Bool.false_ne_true
  rw [cuOf, none]

theorem cuMoved_g : cuMoved (ms.map fun m => (⟨m, slotVal x svc m.sl, 0⟩ : Moved)) = none := by
  have none : (ms.map fun m => (⟨m, slotVal x svc m.sl, 0⟩ : Moved)).find? (fun w => isCu w.m.dst) = Option.none :=
    List.find?_eq_none.2 fun w hw => by
      obtain ⟨m, hm, rfl⟩ := List.mem_map.1 hw
      obtain ⟨sl, -, rfl⟩ := h m hm
      exact Bool.false_ne_true
  rw [cuMoved, none]
  rfl

end

theorem freeOfPc_g (g : Vector Word 64) : FreeOfPc fun c => { c with g := g } := fun _ _ _ => rfl

section
variable {s : State} {e : Fin 10} {svc : Bool}

/-- An instruction of moves into general registers, past its checks. -/
theorem State.perform_g {ms : List Move} (h : ∀ m ∈ ms, ∃ sl, sl.dst.toNat < 0x40 ∧ m = gMove sl)
    (hr : ∀ m ∈ ms, m.sl.rpt = false) (hs : ∀ m ∈ ms, m.sl.src.toNat < 0x40 ∨ 0x44 ≤ m.sl.src.toNat)
    (hl : loopOf s.eng[e] svc ms = .ok ⟨none, []⟩) :
    s.perform e svc (s.ctx e svc).flg [] ms =
      s.setEng e (inCtx (goneOn s.eng[e] svc (!svc && s.eng[e].kern = .delay)) svc
      fun c => { c with g := gWrites s.eng[e] svc ms (s.ctx e svc).g }) := by
  rw [State.perform_once hr hl]
  dsimp only
  rw [readMoves_flagless hs, afterMoves_g h, State.foldl_trigger_g h, State.goOn_uncontrolled _ _ _ _ (cuMoved_g h),
    State.setCtx_eq, State.eng_setEng_same, State.setEng_setEng]
  refine congrArg (s.setEng e) ((goneOn_inCtx (freeOfPc_g _) _ _ fun hd => ?_).symm ▸ rfl)
  cases svc <;> simp_all

/-- The first issue of the instruction fetched. -/
theorem State.issue_fetched (hr : (s.ctx e svc).rptRun = false) (flg0 : BitVec 3) :
    s.issue e svc flg0 [] none =
      s.issueSlots e svc flg0 [] (slotsOf (s.fetch e svc)).1 (slotsOf (s.fetch e svc)).2 := by
  unfold State.issue
  dsimp only
  rw [hr]
  rfl

/-- The cycle in which the instruction at the program counter issues. -/
theorem State.engCycle_fetched (hw : s.storesWf) (hi : Issues e svc s) :
    s.engCycle e none = (s.setEng e (Machine.ticked s.eng[e])).issueSlots e svc (s.ctx e svc).flg []
      (slotsOf (s.fetch e svc)).1 (slotsOf (s.fetch e svc)).2 := by
  have fetched : (s.setEng e (Machine.ticked s.eng[e])).fetch e svc = s.fetch e svc := by
    unfold State.fetch
    rw [State.ctx_ticked, State.eng_setEng_same]
    rfl
  rw [State.engCycle_issues hw hi.turn hi.brk hi.wdog hi.quiet,
    State.issue_fetched (by rw [State.ctx_ticked]; exact hi.once), fetched]

end

end Sys2Proof.Machine
end

section
/-! O27. Results landing, WAIT's end, a repeat's iteration and an instruction of moves. -/

namespace Sys2Proof.Machine

section
variable {s : State} {e : Fin 10} {svc : Bool}

/-! The end of WAIT (R110). -/

theorem ends_waitResume {m : BitVec 4} (hm : s.eng[e].svc = .wait m) (hp : s.eng[e].evt &&& m ≠ 0)
    (hh : s.inHold (.pec e) = false) (hl : s.engLive e = true) (ha : s.eng[e].halted = false) :
    let x := s.eng[e]
    Ends (.waitResume e) s fun t => Framed [.eng] [] [] s t ∧ EngineIs e { x with
      svc := .run, sGap := max x.sGap 3, evt := x.evt &&& ~~~m, s := { x.s with evt := x.evt &&& m } } s t := by
  intro x
  have done : doWaitResume e s = s.setEng e { x with
      svc := .run, sGap := max x.sGap 3, evt := x.evt &&& ~~~m, s := { x.s with evt := x.evt &&& m } } := by
    unfold doWaitResume
    dsimp only
    rw [hm]
    dsimp only
    rw [hh, hl, ha, decide_eq_true hp]
    rfl
  have run : exec (.waitResume e) s = commit s (s.setEng e _) := congrArg (commit s) done
  obtain ⟨t, ht, engine, frame⟩ := ends_setEng s e _ run
  exact ⟨t, ht, frame, engine⟩

/-- With no selected event pending, or in hold, WAIT goes on. -/
theorem idle_waitResume {m : BitVec 4} (hm : s.eng[e].svc = .wait m)
    (h : s.eng[e].evt &&& m = 0 ∨ s.inHold (.pec e) = true) : Idle (.waitResume e) s := by
  have off : (decide (s.eng[e].evt &&& m ≠ 0) && !s.inHold (.pec e)) = false := by
    rcases h with h | h
    · rw [decide_eq_false (not_not_intro h), Bool.false_and]
    · rw [h, Bool.not_true, Bool.and_false]
  refine idle_of_commit rfl ?_
  unfold doWaitResume
  dsimp only
  rw [hm]
  dsimp only
  rw [off, Bool.false_and, Bool.false_and, if_neg (by decide)]

/-- No WAIT ends where none stands. -/
theorem idle_waitResume_of_none (h : s.eng[e].svc = .run ∨ s.eng[e].svc = .off) : Idle (.waitResume e) s := by
  refine idle_of_commit rfl ?_
  unfold doWaitResume
  dsimp only
  rcases h with h | h <;> rw [h]

/-! The iteration of a repeat (R137). -/

theorem idle_repeatIteration (h : ∀ svc, s.issuer e = some svc → (s.ctx e svc).rptRun = false) :
    Idle (.repeatIteration e) s := by
  refine idle_of_commit rfl ?_
  unfold doRepeatIteration
  split
  · next svc hi => rw [h svc hi]; rfl
  · rfl

/-- A running repeat goes on with its slot alone. -/
theorem State.issue_iterates {sl : Slot} (hr : (s.ctx e svc).rptRun = true)
    (hs : (slotsOf (s.fetch e svc)).1.find? (·.rpt) = some sl) (flg0 : BitVec 3) :
    s.issue e svc flg0 [] none = s.iterate e svc sl := by
  unfold State.issue
  dsimp only
  rw [hr, if_pos rfl, hs]

theorem ends_walk {sl : Slot} (hw : s.storesWf) (hi : s.issuer e = some svc) (hr : (ctxOf s.eng[e] svc).rptRun = true)
    (hb : s.breakAt e svc = none) (hd : wdogExpired (tickEngine s.eng[e]) = false)
    (hq : ∀ f ∈ s.eng[e].flight, s.eng[e].pipe + 1 < f.at_)
    (hs : (slotsOf (s.fetch e svc)).1.find? (·.rpt) = some sl) (hc : rptClass sl = some .walk)
    (hl : (ctxOf s.eng[e] svc).loopDec = none) (hk : s.eng[e].kern ≠ .delay) :
    let x := s.eng[e]
    let c := ctxOf x svc
    let g := walked c c.rptSrc c.rptDst c.rptCnt
    Ends (.repeatIteration e) s fun t => Framed [.eng] [] [] s t ∧
      (c.rptCnt ≠ 1 → EngineIs e (inCtx (ticked x) svc g) s t) ∧
      (c.rptCnt = 1 → EngineIs e (inCtx (cycled x svc) svc fun k => { g k with rptRun := false }) s t) := by
  intro x c g
  have ctx : (s.setEng e (ticked x)).ctx e svc = c := State.ctx_ticked
  have fetched : (s.setEng e (ticked x)).fetch e svc = s.fetch e svc := by
    unfold State.fetch
    rw [ctx, State.eng_setEng_same]
    rfl
  have kern : (s.setEng e (ticked x)).eng[e].kern ≠ .delay := by
    rw [State.eng_setEng_same, Ne, ticked_kern_delay]
    exact hk
  have iterated := State.iterate_walk (s := s.setEng e (ticked x)) (e := e) hc (by rw [ctx]; exact hl)
    (by rw [ctx]; exact hr) kern
  dsimp only at iterated
  rw [ctx] at iterated
  have run : exec (.repeatIteration e) s = commit s (s.setEng e (withCtx (ticked x) svc
      (if c.rptCnt - 1 = 0 then { g c with rptRun := false, pc := c.pend.getD (c.pc + 1), pend := none }
        else g c))) := by
    have turn : doRepeatIteration e s = s.engCycle e none := by
      unfold doRepeatIteration
      rw [hi]
      exact if_pos hr
    show commit s (doRepeatIteration e s) = _
    rw [turn, State.engCycle_issues hw hi hb hd hq,
      State.issue_iterates (by rw [ctx]; exact hr) (by rw [fetched]; exact hs),
      iterated, State.setEng_setEng, State.eng_setEng_same]
  have last : c.rptCnt - 1 = 0 ↔ c.rptCnt = 1 := by bv_omega
  obtain ⟨t, ht, engine, frame⟩ := ends_setEng s e _ run
  refine ⟨t, ht, frame, fun h => ?_, fun h => ?_⟩
  · rw [if_neg (mt last.1 h)] at engine
    rwa [inCtx, ctxOf_ticked]
  · rw [if_pos (last.2 h)] at engine
    rw [cycled_of_not_delay (.inr hk), inCtx, goneOn, ctxOf_ticked]
    dsimp only
    rw [if_neg (by decide), ctxOf_withCtx, withCtx_withCtx]
    exact engine

/-! An instruction of moves (R92, R95, R127, R145). -/

theorem pecEcc_apart : ∀ e : Fin 10, pecEccCeCnt e.val ≠ glbIntCnt ∧ pecEccCeCnt e.val ≠ pecCollideCnt e.val ∧
    pecEccCeCnt e.val ≠ pecFault e.val ∧ pecEccCeCnt e.val ≠ fltFaultCnt ∧ pecEccCeCnt e.val ≠ fltPermCnt ∧
    pecEccCeCnt e.val ≠ mbxAbortCnt ∧ pecEccCeCnt e.val < 0x1A1000 := by decide

/-- The count of a corrected error beside an effect that leaves the counter alone (R117). -/
theorem State.eccCe_counts {t : State} (hw : t.storesWf) (h : t.reg (pecEccCeCnt e.val) = s.reg (pecEccCeCnt e.val))
    (ce : Bool) : (t.eccCe e ce).reg (pecEccCeCnt e.val) = s.reg (pecEccCeCnt e.val) + if ce then 1 else 0 := by
  cases ce with
  | false => exact h.trans (BitVec.add_zero _).symm
  | true => exact (State.reg_setReg_same _ _ _ (State.storesWf_regs hw)).trans (by rw [h]; rfl)

/-- An instruction whose encoding fails its checks is the program fault of the lowest code. -/
theorem ends_moveFault (hw : s.storesWf) (hi : Issues e svc s)
    (hf : let d := slotsOf (s.fetch e svc)
      staticFault svc d.2 d.1 (ctxOf s.eng[e] svc).rptCnt.toNat ≠ 0) :
    let d := slotsOf (s.fetch e svc)
    let fault := staticFault svc d.2 d.1 (ctxOf s.eng[e] svc).rptCnt.toNat
    Ends (.registerMove e false) s (ProgramFaulted e fault s) ∧
      Ends (.registerMove e true) s fun t => t.reg (pecFault e.val) = w32 (256 * fault + 1) ∧
        t.reg (pecEccCeCnt e.val) = s.reg (pecEccCeCnt e.val) + 1 := by
  intro d fault
  have met : slotFault (s.setEng e (ticked s.eng[e])).eng[e] svc d.1 d.2 = fault := by
    unfold slotFault
    rw [State.eng_setEng_same, ctxOf_ticked]
    exact if_pos hf
  have cycle : s.engCycle e none = (s.setEng e (ticked s.eng[e])).programFault e fault 0 := by
    rw [State.engCycle_fetched hw hi, State.issueSlots]
    dsimp only
    rw [met, if_pos hf]
  have issues : (s.issuer e).isSome = true := by rw [hi.turn]; rfl
  obtain ⟨hi0, -, hpf, hff, hfp, hma, hlt⟩ := pecEcc_apart e
  have wf : (s.setEng e (ticked s.eng[e])).storesWf := hw.setEng
  constructor
  · have run : exec (.registerMove e false) s = commit s ((s.setEng e (ticked s.eng[e])).programFault e fault 0) := by
      rw [← cycle]
      rfl
    exact ends_of_commit run (State.programFault_stops hw e (y := ticked s.eng[e]) rfl rfl fault)
  · have run : exec (.registerMove e true) s =
        commit s (((s.setEng e (ticked s.eng[e])).programFault e fault 0).eccCe e true) := by
      rw [← cycle]
      show commit s ((s.engCycle e none).eccCe e (true && (s.issuer e).isSome)) = _
      rw [issues]
      rfl
    have kept : ((s.setEng e (ticked s.eng[e])).programFault e fault 0).reg (pecEccCeCnt e.val) =
        s.reg (pecEccCeCnt e.val) :=
      (State.programFault_framed _ e fault 0).regs _ (List.not_mem_cons_of_ne_of_not_mem hpf
        (List.not_mem_cons_of_ne_of_not_mem hff (List.not_mem_cons_of_ne_of_not_mem hfp
          (List.not_mem_cons_of_ne_of_not_mem hma (notMem_payloadWords (.inl hlt)))))) hi0
    refine ends_of_commit run ⟨(settle_reg _ _ _ (pecFault_apart e).1).trans ?_,
      (settle_reg _ _ _ hi0).trans (State.eccCe_counts wf.programFault kept true)⟩
    exact (State.reg_setReg_other _ _ _ _ hpf.symm).trans (State.programFault_reg _ e fault 0 wf)

/-- The cycle of an instruction of moves into general registers: the collision counted, the registers written. -/
theorem State.engCycle_moves (hw : s.storesWf) (hi : Issues e svc s)
    (hf : let d := slotsOf (s.fetch e svc)
      staticFault svc d.2 d.1 (ctxOf s.eng[e] svc).rptCnt.toNat = 0)
    (hs : ∀ sl ∈ (slotsOf (s.fetch e svc)).1,
      sl.rpt = false ∧ sl.dst.toNat < 0x40 ∧ (sl.src.toNat < 0x40 ∨ 0x44 ≤ sl.src.toNat)) :
    let x := s.eng[e]
    let c := ctxOf x svc
    let does := (slotsOf (s.fetch e svc)).1.filter fun sl => guardTrue c.p sl.guard
    ∃ u : State, u.storesWf ∧ Framed [.eng] [pecCollideCnt e.val] [] s u ∧
      u.eng = (s.setEng e (Machine.ticked x)).eng ∧
      u.reg (pecCollideCnt e.val) = s.reg (pecCollideCnt e.val) + (if (does.map (·.dst)).Nodup then 0 else 1) ∧
      s.engCycle e none = u.setEng e (inCtx (Machine.cycled x svc) svc fun k =>
        { k with g := gWrites x svc (keepHighest (does.map gMove)) c.g }) := by
  intro x c does
  have hsd : ∀ sl ∈ does, sl.rpt = false ∧ sl.dst.toNat < 0x40 ∧ (sl.src.toNat < 0x40 ∨ 0x44 ≤ sl.src.toNat) :=
    fun sl h => hs sl (List.mem_of_mem_filter h)
  have left : ∀ m ∈ keepHighest (does.map gMove), ∃ sl ∈ does, m = gMove sl := fun m hm => by
    obtain ⟨sl, hsl, rfl⟩ := List.mem_map.1 (mem_of_mem_keepHighest hm)
    exact ⟨sl, hsl, rfl⟩
  have shape : ∀ m ∈ keepHighest (does.map gMove), ∃ sl, sl.dst.toNat < 0x40 ∧ m = gMove sl := fun m hm => by
    obtain ⟨sl, hsl, rfl⟩ := left m hm
    exact ⟨sl, (hsd sl hsl).2.1, rfl⟩
  have moves : trueMoves c.p (slotsOf (s.fetch e svc)).1 = does.map gMove := trueMoves_g fun sl h => (hs sl h).2.1
  have noFault : slotFault (s.setEng e (Machine.ticked x)).eng[e] svc (slotsOf (s.fetch e svc)).1
      (slotsOf (s.fetch e svc)).2 = 0 := by
    unfold slotFault
    rw [State.eng_setEng_same, ctxOf_ticked]
    dsimp only
    rw [hf, if_neg (not_not_intro rfl), moves]
    unfold performFault
    dsimp only
    rw [cuOf_g shape, hi.loopOf_ticked]
    simp
  obtain ⟨u, hu⟩ : ∃ u, u = if (keepHighest (does.map gMove)).length ≠ (does.map gMove).length then
      (s.setEng e (Machine.ticked x)).count (pecCollideCnt e.val) else s.setEng e (Machine.ticked x) := ⟨_, rfl⟩
  have engines : u.eng = (s.setEng e (Machine.ticked x)).eng := by
    rw [hu]
    split <;> rfl
  have engine : u.eng[e] = Machine.ticked x := by rw [engines, State.eng_setEng_same]
  have wf : (s.setEng e (Machine.ticked x)).storesWf := hw.setEng
  refine ⟨u, hu ▸ wf.count.ite wf, ?framed, engines, ?collides, ?cycle⟩
  case framed =>
    rw [hu]
    split
    · exact (s.setEng_framed e _ _ _ _ (by simp)).count (by simp)
    · exact s.setEng_framed e _ _ _ _ (by simp)
  case collides =>
    have apart := keepHighest_g_length fun sl h => (hsd sl h).2.1
    rw [hu]
    by_cases hn : (does.map (·.dst)).Nodup
    · rw [if_neg (not_not_intro (apart.2 hn)), if_pos hn]
      exact (BitVec.add_zero _).symm
    · rw [if_pos (mt apart.1 hn), if_neg hn]
      exact State.reg_setReg_same _ _ _ (State.storesWf_regs wf)
  case cycle =>
    have ctx : u.ctx e svc = c := by rw [State.ctx, engine, ctxOf_ticked]
    have values : gWrites (Machine.ticked x) svc (keepHighest (does.map gMove)) c.g =
        gWrites x svc (keepHighest (does.map gMove)) c.g := by
      unfold gWrites
      simp only [slotVal_ticked]
    have delay : decide ((Machine.ticked x).kern = .delay) = decide (x.kern = .delay) :=
      decide_eq_decide.2 (ticked_kern_delay x)
    have performed := State.perform_g (s := u) (e := e) (svc := svc) shape
      (fun m hm => by obtain ⟨sl, hsl, rfl⟩ := left m hm; exact (hsd sl hsl).1)
      (fun m hm => by obtain ⟨sl, hsl, rfl⟩ := left m hm; exact (hsd sl hsl).2.2)
      (by rw [engine]; exact hi.loopOf_ticked _)
    rw [ctx, engine, values, delay, ← cycled_eq] at performed
    rw [State.engCycle_fetched hw hi, State.issueSlots]
    dsimp only
    rw [noFault, if_neg (not_not_intro rfl), State.ctx_ticked, show s.ctx e svc = c from rfl, moves, ← hu]
    exact performed

/-- An instruction of moves into general registers. -/
theorem ends_moves (hw : s.storesWf) (hi : Issues e svc s)
    (hf : let d := slotsOf (s.fetch e svc)
      staticFault svc d.2 d.1 (ctxOf s.eng[e] svc).rptCnt.toNat = 0)
    (hs : ∀ sl ∈ (slotsOf (s.fetch e svc)).1,
      sl.rpt = false ∧ sl.dst.toNat < 0x40 ∧ (sl.src.toNat < 0x40 ∨ 0x44 ≤ sl.src.toNat)) (ce : Bool) :
    let x := s.eng[e]
    let c := ctxOf x svc
    let does := (slotsOf (s.fetch e svc)).1.filter fun sl => guardTrue c.p sl.guard
    Ends (.registerMove e ce) s fun t => Framed [.eng] [pecCollideCnt e.val, pecEccCeCnt e.val] [] s t ∧
      t.reg (pecEccCeCnt e.val) = s.reg (pecEccCeCnt e.val) + (if ce then 1 else 0) ∧
      t.reg (pecCollideCnt e.val) = s.reg (pecCollideCnt e.val) + (if (does.map (·.dst)).Nodup then 0 else 1) ∧
      EngineIs e (inCtx (cycled x svc) svc fun k =>
        { k with g := gWrites x svc (keepHighest (does.map gMove)) c.g }) s t := by
  intro x c does
  obtain ⟨u, wf, framed, others, collides, cycle⟩ := State.engCycle_moves hw hi hf hs
  obtain ⟨y, hy⟩ : ∃ y, y = inCtx (cycled x svc) svc fun k =>
      { k with g := gWrites x svc (keepHighest (does.map gMove)) c.g } := ⟨_, rfl⟩
  have cycle : s.engCycle e none = u.setEng e y := by rw [cycle, hy]
  have wfy : (u.setEng e y).storesWf := cycle ▸ hw.engCycle
  have issues : (s.issuer e).isSome = true := by rw [hi.turn]; rfl
  have run : exec (.registerMove e ce) s = commit s ((u.setEng e y).eccCe e ce) := by
    rw [← cycle]
    show commit s ((s.engCycle e none).eccCe e (ce && (s.issuer e).isSome)) = _
    rw [issues, Bool.and_true]
  obtain ⟨hi0, hec, -⟩ := pecEcc_apart e
  have moved : Framed [.eng] [pecCollideCnt e.val, pecEccCeCnt e.val] [] s (u.setEng e y) :=
    (framed.mono (by simp) (by simp) (by simp)).trans (u.setEng_framed e _ _ _ _ (by simp))
  have kept : (u.setEng e y).reg (pecEccCeCnt e.val) = s.reg (pecEccCeCnt e.val) := framed.regs _ (by simp) hi0
  have counted : ((u.setEng e y).eccCe e ce).reg (pecCollideCnt e.val) = u.reg (pecCollideCnt e.val) := by
    cases ce with
    | false => rfl
    | true => exact State.reg_setReg_other _ _ _ _ hec.symm
  have engines : ((u.setEng e y).eccCe e ce).eng = (u.setEng e y).eng := by cases ce <;> rfl
  rw [← hy]
  refine ends_of_commit run ⟨framed_settle ?_, (settle_reg _ _ _ hi0).trans (State.eccCe_counts wfy kept ce),
    (settle_reg _ _ _ (pecCollideCnt_ne e)).trans (counted.trans collides), ?_, fun f hf => ?_⟩
  · cases ce with
    | false => exact moved
    | true => exact moved.count (by simp)
  · rw [settle_eng, engines, State.eng_setEng_same]
  · rw [settle_eng, engines, State.eng_setEng_other _ _ hf, others, State.eng_setEng_other _ _ hf]

end

/-- A snapshot lands in the Datum port's results (R107). -/
theorem landSnap_res (c : Ctx) (ns fr sc i : Word) : landSnap c (.snap ns fr sc i) =
    { c with res := vset (vset (vset (vset c.res rDtpNs ns) rDtpFrac fr) rDtpSec sc) rDtpInfo i } := rfl

/-- A snapshot's time goes by its domain, not by the engine. -/
theorem State.snapIn_setEng (s : State) (e : Fin 10) (x : Engine) (d : Fin 4) (n : Nat) :
    (s.setEng e x).snapIn d n = s.dtpSnapOf d (dtAdd (s.time d) (n * s.incEff d)) := by
  have time : (s.setEng e x).time d = s.time d := rfl
  have step : (s.setEng e x).incEff d = s.incEff d := rfl
  have snap (t : DTime) : (s.setEng e x).dtpSnapOf d t = s.dtpSnapOf d t := rfl
  rw [State.snapIn, time, step, snap]

/-- Settles O27: at rest the engine's cycles only count until its results land (`Resting.engCycles_land`); a repeat's
iteration and an instruction of moves are the issue of one cycle (`State.engCycle_issues`). -/
theorem resultsLandAndMovesIssue : Obligations.ResultsLandAndMovesIssue := by
  intro s e hw
  refine ⟨?_, ?repeats, ?moves⟩
  · intro x
    refine ⟨?empty, ?lands, fun m hm hp hh hl ha => ends_waitResume hm hp hh hl ha, fun m hm h => idle_waitResume hm h,
      idle_waitResume_of_none, fun h => idle_repeatIteration fun svc hs => by rw [h] at hs; cases hs⟩
    case empty =>
      intro hx
      refine idle_of_commit rfl ?_
      have none : untilLanding s.eng[e] = 0 := by
        unfold untilLanding
        rw [show s.eng[e].flight = [] from hx]
      rw [none, State.engCycles]
    case lands =>
      intro live halted freeze kern gap count off
      have h : Resting e s := ⟨live, halted, freeze, kern, gap, count, off⟩
      refine ⟨fun svc n w hx => ?_, fun svc n v1 v2 hx => Resting.ends_loads hw h hx⟩
      have ctx : (s.setEng e (landing x n)).ctx e svc = ctxOf x svc := by
        rw [State.ctx, State.eng_setEng_same]
        cases svc <;> rfl
      have lands {f : Ctx → Ctx} := Resting.ends_lands (f := f) hw h hx
      refine ⟨?res, ?load, ?flag, ?acc, ?stat, ?snap, ?snapAt, ?copy⟩
      case res => rintro p v fl rfl; exact lands (by rw [← ctx]; rfl)
      case load => rintro v fl rfl; exact lands (by rw [← ctx]; rfl)
      case flag => rintro fl rfl; exact lands (by rw [← ctx]; rfl)
      case acc => rintro lane d sat rfl lo hi; exact Resting.ends_acc hw h hx lo hi
      case stat =>
        rintro k rfl
        refine lands ?_
        unfold State.landOne
        dsimp only
        rw [State.fwuStat_setEng (x := landing s.eng[e] n) rfl rfl, ← ctx]
        rfl
      case snap =>
        rintro ns fr sc i rfl
        refine lands ?_
        unfold State.landOne
        dsimp only
        rw [ctx, landSnap_res]
      case snapAt =>
        rintro d k rfl
        refine lands ?_
        unfold State.landOne
        dsimp only
        rw [State.snapIn_setEng, ctx]
      case copy => rintro dst v off rfl ht ho; exact Resting.ends_copy hw h hx ht ho
  case repeats =>
    intro svc hi x c
    refine ⟨fun hr => idle_repeatIteration fun svc' hs => ?_, fun sl hr hb hd hq hs hc hl hk =>
      ends_walk hw hi hr hb hd hq hs hc hl hk⟩
    rw [hi] at hs
    cases hs
    exact hr
  case moves =>
    intro svc hi x c d fault does
    refine ⟨fun hf => ends_moveFault hw hi hf, fun hf hs ce => ?_⟩
    obtain ⟨t, ht, framed, counted, collides, engine⟩ := ends_moves hw hi hf hs ce
    refine ⟨t, ht, framed, counted, collides, _, engine, fun i => ?_⟩
    exact gWrites_keepHighest x svc i does c.g fun sl h => (hs sl (List.mem_of_mem_filter h)).2.1

end Sys2Proof.Machine
end

section
/-! SUPPORT. A hard fault of an engine that is not ACTIVE (R119, R161, R164): what its state loses, and the report. -/

namespace Sys2Proof.Machine

/-- What becomes of an engine's `Inst` with its fence: in DEBUG it stops and stays with its engine. -/
def stayStopped (i : Inst) : Inst := { i with stopped := true, gate := false, due := false }

section
variable (s : State) (e : Fin 10) (cause i8 : Byte) (i16 : Nat)

/-- An engine in DEBUG as its fence leaves it: it keeps its role, whose `Inst` stops (R161). -/
def State.debugStop : State :=
  let s1 := s.setEng e { stoppedEngine s.eng[e] .fenced with role := s.eng[e].role }
  match s.eng[e].role with
  | some r => (s1.modInst r stayStopped).resetRole r
  | none => s1

/-- An engine as its fence leaves it, and with it the rotation that chose it and the `Inst` it debugs, up to the
report of the fault. -/
def State.fenceStop : State :=
  match s.eng[e].st with
  | .spare => (s.setEng e (stoppedEngine s.eng[e] .fenced)).dropRotation e
  | .debug => s.debugStop e
  | _ => s.setEng e (stoppedEngine s.eng[e] .fenced)

/-- What the report says of an engine that is not FENCED: one under its self-test has failed it (R164). -/
def fenceCause (st : EngSt) (cause : Byte) : Byte := if st = .test ∧ cause ≠ 0x0D then 0x09 else cause

theorem State.dropRotation_framed : Framed [.rotation] [] [] s (s.dropRotation e) := by
  unfold State.dropRotation
  split
  · split
    · exact State.setRotation_framed s none
    · exact Framed.refl _ _ _ s
  · exact Framed.refl _ _ _ s

/-- The fence of an engine that is neither FENCED nor ACTIVE: its stop, then the report. -/
theorem State.fenceEngine_idle {s : State} {e : Fin 10} (hf : s.eng[e].st ≠ .fenced) (ha : s.eng[e].st ≠ .active) :
    ∃ i8' i16', s.fenceEngine e cause i8 i16 =
      (s.fenceStop e).fltLatch (Fin.ofNat 37 e.val) (fenceCause s.eng[e].st cause) i8' i16' := by
  unfold State.fenceEngine State.fenceStop State.debugStop fenceCause
  dsimp only
  split
  case h_1 h => exact absurd h hf
  case h_2 h => rw [h]; exact ⟨i8, i16, rfl⟩
  case h_3 h => rw [h]; exact ⟨i8, i16, rfl⟩
  case h_4 h =>
    rw [h]
    by_cases hc : cause = 0x0D
    · subst hc
      exact ⟨i8, i16, rfl⟩
    · refine ⟨0, 0, ?_⟩
      rw [if_neg hc, if_pos ⟨rfl, hc⟩]
  case h_5 h => rw [h]; exact ⟨i8, i16, rfl⟩
  case h_6 h => exact absurd h ha

theorem State.debugStop_framed : Framed [.eng, .insts, .mbx] endpointRegs [] s (s.debugStop e) := by
  have stopped : Framed [.eng, .insts, .mbx] endpointRegs [] s
      (s.setEng e { stoppedEngine s.eng[e] .fenced with role := s.eng[e].role }) := s.setEng_framed _ _ _ _ _ (by simp)
  unfold State.debugStop
  dsimp only
  split
  · next r _ =>
    exact (stopped.trans ((State.modInst_framed _ r _).mono (by simp) (List.nil_subset _) (List.nil_subset _))).trans
      ((State.resetRole_framed _ r).mono (by simp) (List.Subset.refl _) (List.nil_subset _))
  · exact stopped

theorem State.debugStop_eng :
    (s.debugStop e).eng = vset s.eng e { stoppedEngine s.eng[e] .fenced with role := s.eng[e].role } := by
  unfold State.debugStop
  dsimp only
  split
  · exact ((State.resetRole_framed _ _).parts .eng (by simp)).trans ((State.modInst_framed _ _ _).parts .eng (by simp))
  · rfl

theorem State.fenceStop_framed : Framed [.eng, .insts, .mbx, .rotation] endpointRegs [] s (s.fenceStop e) := by
  have stopped : Framed [.eng, .insts, .mbx, .rotation] endpointRegs [] s
      (s.setEng e (stoppedEngine s.eng[e] .fenced)) := s.setEng_framed _ _ _ _ _ (by simp)
  unfold State.fenceStop
  split
  · exact stopped.trans ((State.dropRotation_framed _ e).mono (by simp) (List.nil_subset _) (List.nil_subset _))
  · exact (s.debugStop_framed e).mono (by simp) (List.Subset.refl _) (List.nil_subset _)
  · exact stopped

/-- An engine in DEBUG keeps its role in its fence (R161). -/
def keptRole (x : Engine) : Option (Fin 10) := if x.st = .debug then x.role else none

theorem State.fenceStop_eng :
    (s.fenceStop e).eng = vset s.eng e { stoppedEngine s.eng[e] .fenced with role := keptRole s.eng[e] } := by
  unfold State.fenceStop keptRole
  split
  · next h =>
    rw [h]
    exact (State.dropRotation_framed _ e).parts .eng (by simp)
  · next h =>
    rw [h]
    exact s.debugStop_eng e
  · next h =>
    rw [if_neg h]
    rfl

end

/-! The hard fault (R119). -/

section
variable (s : State) (e : Fin 10) (bits : Nat)

theorem State.hardFaultBits_eq {s : State} {e : Fin 10} (hf : s.eng[e].st ≠ .fenced) (ho : s.eng[e].st ≠ .off)
    (hon : s.islandOn (3 + e.val) = true) : s.hardFaultBits e bits =
      (s.setReg (pecFault e.val) (w32 bits)).fenceEngine e 0x01 (roleInfo s.eng[e]) bits := by
  unfold State.hardFaultBits
  rw [if_neg (by simpa [hon] using And.intro hf ho)]

theorem State.hardFaultBits_idle {s : State} {e : Fin 10} (hf : s.eng[e].st ≠ .fenced) (ho : s.eng[e].st ≠ .off)
    (ha : s.eng[e].st ≠ .active) (hon : s.islandOn (3 + e.val) = true) : ∃ i8 i16, s.hardFaultBits e bits =
      ((s.setReg (pecFault e.val) (w32 bits)).fenceStop e).fltLatch (Fin.ofNat 37 e.val) (fenceCause s.eng[e].st 0x01)
        i8 i16 := by
  rw [State.hardFaultBits_eq bits hf ho hon]
  exact State.fenceEngine_idle (s := s.setReg (pecFault e.val) (w32 bits)) _ _ _ hf ha

theorem State.hardFaultBits_idle_eng {s : State} {e : Fin 10} (hf : s.eng[e].st ≠ .fenced) (ho : s.eng[e].st ≠ .off)
    (ha : s.eng[e].st ≠ .active) (hon : s.islandOn (3 + e.val) = true) :
    (s.hardFaultBits e bits).eng = vset s.eng e { stoppedEngine s.eng[e] .fenced with role := keptRole s.eng[e] } := by
  obtain ⟨i8, i16, h⟩ := State.hardFaultBits_idle bits hf ho ha hon
  rw [h]
  exact ((State.fltLatch_framed _ _ _ _ _).parts .eng (by simp)).trans (State.fenceStop_eng _ e)

end

end Sys2Proof.Machine
end

section
/-! SUPPORT. The kernel cycle's start (R106, R109, R112, R114, R155): which engine takes it, and what it leaves. -/

namespace Sys2Proof.Machine

section
variable (s : State) (e : Fin 10) (again : Bool)

/-- An engine whose kernel has just been started. -/
def State.started : Engine :=
  let x := s.eng[e]
  let y := fromLead (swapBanks x)
  { y with
    cyc := y.cyc + 1
    kern := .entering
    kGap := 3
    kCount := none
    k := { y.k with pc := 0, pend := none }
    wdog := (s.reg (pecWdog e.val)).setWidth 24
    wdecl := (s.reg (pecWdecl e.val)).setWidth 24
    fwuOn := if again then y.fwuOn else y.fwuNext
    fwuFresh := 0
    inCycle := true
    kRetried := false }

/-- The `Inst` of an engine whose kernel has just been started. -/
def startedInst (x : Engine) (again : Bool) (i : Inst) : Inst :=
  let h := match i.update with
    | some u => if x.swapPend then u else i.handle
    | none => i.handle
  { i with gate := false, due := again && i.due, handle := h, update := if x.swapPend then none else i.update }

theorem State.takeStart_eq : s.takeStart e again =
    let s2 := (s.setEng e (s.started e again)).count (pecKstartCnt e.val)
    match s.eng[e].role with
    | none => s2
    | some r => s2.modInst r (startedInst s.eng[e] again) := rfl

theorem State.takeStart_framed : Framed [.eng, .insts] [pecKstartCnt e.val] [] s (s.takeStart e again) := by
  have counted : Framed [.eng, .insts] [pecKstartCnt e.val] [] s
      ((s.setEng e (s.started e again)).count (pecKstartCnt e.val)) :=
    (s.setEng_framed e _ _ _ _ (by simp)).count (by simp)
  rw [State.takeStart_eq]
  dsimp only
  split
  · exact counted
  · exact counted.trans ((State.modInst_framed _ _ _).mono (by simp) (by simp) (by simp))

theorem State.takeStart_eng : (s.takeStart e again).eng = vset s.eng e (s.started e again) := by
  rw [State.takeStart_eq]
  dsimp only
  split
  · rfl
  · exact (State.modInst_framed _ _ _).parts .eng (by simp)

theorem State.takeStart_eng_same : (s.takeStart e again).eng[e] = s.started e again := by
  rw [State.takeStart_eng, getElem_vset_same]

theorem State.takeStart_count {s : State} (hw : s.storesWf) :
    (s.takeStart e again).reg (pecKstartCnt e.val) = s.reg (pecKstartCnt e.val) + 1 := by
  have counted : ((s.setEng e (s.started e again)).count (pecKstartCnt e.val)).reg (pecKstartCnt e.val) =
      s.reg (pecKstartCnt e.val) + 1 := by
    have regs := State.storesWf_regs hw
    exact State.reg_setReg_same _ _ _ regs
  rw [State.takeStart_eq]
  dsimp only
  split
  · exact counted
  · refine ((State.modInst_framed _ _ _).regs _ (by simp) ?_).trans counted
    simp only [pecKstartCnt, glbIntCnt]
    omega

theorem State.takeStart_inst_same {s : State} {e r : Fin 10} {i : Inst} (hr : s.eng[e].role = some r)
    (hi : s.insts[r] = some i) : (s.takeStart e again).insts[r] = some (startedInst s.eng[e] again i) := by
  rw [State.takeStart_eq, hr]
  exact State.modInst_same _ hi

theorem State.takeStart_inst_other {s : State} {e q : Fin 10} (hr : s.eng[e].role ≠ some q) :
    (s.takeStart e again).insts[q] = s.insts[q] := by
  rw [State.takeStart_eq]
  dsimp only
  split
  · rfl
  · next r h => exact State.modInst_other _ r _ fun hq => hr (h.trans (congrArg some hq.symm))

end

/-! What a started engine keeps of the engine that stood, and what it takes from the LEAD's checkpoint (R114). -/

section
variable {x : Engine}

@[simp] theorem swapBanks_lead : (swapBanks x).lead = x.lead := by unfold swapBanks; split <;> rfl
@[simp] theorem swapBanks_cyc : (swapBanks x).cyc = x.cyc := by unfold swapBanks; split <;> rfl
@[simp] theorem swapBanks_halted : (swapBanks x).halted = x.halted := by unfold swapBanks; split <;> rfl
@[simp] theorem swapBanks_heldStart : (swapBanks x).heldStart = x.heldStart := by unfold swapBanks; split <;> rfl
@[simp] theorem swapBanks_fwuNext : (swapBanks x).fwuNext = x.fwuNext := by unfold swapBanks; split <;> rfl
@[simp] theorem fromLead_halted : (fromLead x).halted = x.halted := by unfold fromLead; split <;> rfl
@[simp] theorem fromLead_heldStart : (fromLead x).heldStart = x.heldStart := by unfold fromLead; split <;> rfl
@[simp] theorem fromLead_fwuNext : (fromLead x).fwuNext = x.fwuNext := by unfold fromLead; split <;> rfl
@[simp] theorem fromLead_bank : (fromLead x).bank = x.bank := by unfold fromLead; split <;> rfl
@[simp] theorem fromLead_s : (fromLead x).s = x.s := by unfold fromLead; split <;> rfl

theorem fromLead_of_none (h : x.lead = none) : fromLead x = x := by unfold fromLead; rw [h]

theorem fromLead_of_some {c : Word × List Word} (h : x.lead = some c) :
    fromLead x = { x with k := ctxFrom c.2, cyc := c.1, lead := none } := by unfold fromLead; rw [h]

theorem swapBanks_of_not (h : x.swapPend = false) : swapBanks x = x := if_neg (by simp [h])

end

/-! Which engine takes a start (R112, R122). -/

/-- An engine whose kernel cycle start events are looked at: ACTIVE or DEBUG, enabled, out of hold. -/
structure Heeds (e : Fin 10) (s : State) : Prop where
  st : s.eng[e].st = .active ∨ s.eng[e].st = .debug
  en : s.en (.pec e) = true
  hold : s.inHold (.pec e) = false

section
variable {s : State} {e : Fin 10} {again : Bool}

theorem Heeds.kernelStart (h : Heeds e s) : s.kernelStart e again =
    if s.eng[e].halted then
      if s.eng[e].heldStart then s.count (pecKovrCnt e.val) else s.setEng e { s.eng[e] with heldStart := true }
    else if s.eng[e].kern ≠ .idle then (s.count (pecKovrCnt e.val)).hardFault e 4
    else s.takeStart e again := by
  have takes : (!(decide (s.eng[e].st = .active) || decide (s.eng[e].st = .debug)) || !s.en (.pec e) ||
      s.inHold (.pec e)) = false := by
    rw [h.en, h.hold]
    simpa only [Bool.not_true, Bool.or_false, Bool.not_eq_false', Bool.or_eq_true, decide_eq_true_eq] using h.st
  unfold State.kernelStart
  dsimp only
  rw [takes, if_neg (by decide)]

/-- A start event of an engine that cannot take it counts in PEC_KOVR_CNT alone. -/
theorem State.kernelStart_refused (h : (s.eng[e].st ≠ .active ∧ s.eng[e].st ≠ .debug) ∨ s.en (.pec e) = false ∨
    s.inHold (.pec e) = true ∨ (s.eng[e].halted = true ∧ s.eng[e].heldStart = true)) :
    s.kernelStart e again = s.count (pecKovrCnt e.val) := by
  by_cases heeds : Heeds e s
  · obtain hst | hen | hh | ⟨halted, held⟩ := h
    · exact absurd heeds.st (by rintro (h | h); exacts [hst.1 h, hst.2 h])
    · rw [heeds.en] at hen; cases hen
    · rw [heeds.hold] at hh; cases hh
    · rw [heeds.kernelStart, if_pos halted, if_pos held]
  · have refused : (!(decide (s.eng[e].st = .active) || decide (s.eng[e].st = .debug)) || !s.en (.pec e) ||
        s.inHold (.pec e)) = true := by
      by_contra hn
      simp only [Bool.or_eq_true, Bool.not_eq_true', Bool.or_eq_false_iff, decide_eq_false_iff_not, not_or, not_and_or,
        not_not, Bool.not_eq_false, Bool.not_eq_true] at hn
      obtain ⟨⟨hst, hen⟩, hh⟩ := hn
      exact heeds ⟨hst, hen, hh⟩
    unfold State.kernelStart
    dsimp only
    rw [refused, if_pos rfl]

theorem Heeds.kernelStart_taken (h : Heeds e s) (hh : s.eng[e].halted = false) (hk : s.eng[e].kern = .idle) :
    s.kernelStart e again = s.takeStart e again := by
  rw [h.kernelStart, hh, if_neg (by decide), if_neg (not_not_intro hk)]

theorem Heeds.kernelStart_overrun (h : Heeds e s) (hh : s.eng[e].halted = false) (hk : s.eng[e].kern ≠ .idle) :
    s.kernelStart e again = (s.count (pecKovrCnt e.val)).hardFaultBits e 16 := by
  rw [h.kernelStart, hh, if_neg (by decide), if_pos hk]
  rfl

theorem Heeds.kernelStart_held (h : Heeds e s) (hh : s.eng[e].halted = true) (hs : s.eng[e].heldStart = false) :
    s.kernelStart e again = s.setEng e { s.eng[e] with heldStart := true } := by
  rw [h.kernelStart, if_pos hh, hs, if_neg (by decide)]

end

end Sys2Proof.Machine
end

section
/-! SUPPORT. A cycle of an engine leaves the fault manager and the islands alone, unless the engine is fenced. -/

namespace Sys2Proof.Machine

/-- The fault manager and the islands powered are as they were. -/
structure FencesKept (s t : State) : Prop where
  flt : t.flt = s.flt
  on : t.reg clkIslOn = s.reg clkIslOn

namespace FencesKept

theorem refl (s : State) : FencesKept s s := ⟨rfl, rfl⟩

theorem trans {s t u : State} (h : FencesKept s t) (h' : FencesKept t u) : FencesKept s u :=
  ⟨h'.flt.trans h.flt, h'.on.trans h.on⟩

theorem of_framed {ps : List Part} {rs ts : List Nat} {s t : State} (h : Framed ps rs ts s t) (hp : .flt ∉ ps)
    (hr : clkIslOn ∉ rs) : FencesKept s t :=
  ⟨h.parts .flt hp, h.regs _ hr (by decide)⟩

section
variable {b s : State} (h : FencesKept b s) {e : Fin 10} {svc : Bool}
include h

theorem setReg {a : Nat} {v : Word} (ha : clkIslOn ≠ a) : FencesKept b (s.setReg a v) :=
  ⟨h.flt, (State.reg_setReg_other _ _ _ _ ha).trans h.on⟩

/-- Registers above the clocks' block are not CLK_ISL_ON. -/
theorem setHigh {a : Nat} {v : Word} (ha : 0x20000 ≤ a) : FencesKept b (s.setReg a v) :=
  h.setReg (by simp only [clkIslOn]; omega)

theorem count {a : Nat} (ha : 0x20000 ≤ a) : FencesKept b (s.count a) := h.setHigh ha

theorem ite {t : State} {c : Prop} [Decidable c] (h' : FencesKept b t) : FencesKept b (if c then s else t) := by
  split
  · exact h
  · exact h'

theorem foldl {α : Type} {f : State → α → State} {l : List α}
    (hf : ∀ t : State, FencesKept b t → ∀ a, FencesKept b (f t a)) : FencesKept b (l.foldl f s) :=
  List.foldlRecOn (motive := FencesKept b) l f h fun t ht a _ => hf t ht a

theorem setEng {x : Engine} : FencesKept b (s.setEng e x) := ⟨h.flt, h.on⟩

theorem setCtx {c : Ctx} : FencesKept b (s.setCtx e svc c) := h.setEng

theorem launch {lat : Nat} {w : Landing} : FencesKept b (s.launch e svc lat w) := h.setEng

theorem launchFar {lat : Nat} {path : List Nat} {w : Landing} : FencesKept b (s.launchFar e svc lat path w) := by
  unfold State.launchFar
  split
  · exact ⟨h.flt, h.on⟩
  · exact h.launch

theorem storeOver {a : Nat} {bs : List Byte} : FencesKept b (s.storeOver e a bs) := h.setEng

/-! Targets of an engine's accesses (R101, R102). -/

theorem bankServe {m : BankMaster} {k off t : Nat} {op : BankOp} :
    FencesKept b (s.bankServe m k off op .clean t).2.2 := by
  have missed : FencesKept b (s.nonOwner m k) := (h.count (by decide)).setHigh (by decide)
  unfold State.bankServe
  split
  · exact missed
  · cases op with
    | read n => exact h
    | write bs => exact h.trans (.of_framed (s.ownerWrite_framed k off bs t) (by simp) (by simp))

theorem rejReg {a : Nat} : FencesKept b (s.rejReg .ttc a) := (h.count (by decide)).setHigh (by decide)

theorem clearCnt {a : Nat} (ha : 0x20000 ≤ a) : FencesKept b (s.clearCnt .ttc a) := by
  unfold State.clearCnt
  dsimp only
  split
  · exact (h.setHigh ha).setHigh (by decide)
  · exact h.setHigh ha

theorem armUnit {n : Fin 24} : FencesKept b (s.armUnit n) := by
  unfold State.armUnit
  split
  · exact h.rejReg
  · split
    · exact h
    · refine h.trans (.of_framed (s.ttuAccept_framed n _) (by simp) ?_)
      decide +kernel

theorem ttuWrite {n : Fin 24} {a : Nat} {v : Word} (ha : 0x20000 ≤ a) : FencesKept b (s.ttuWrite n a v) :=
  h.rejReg.ite (h.rejReg.ite (h.setHigh ha))

theorem tcuWrite {n : Fin 16} {v : Word} : FencesKept b (s.tcuWrite n v) := by
  have high : 0x20000 ≤ tcuCfg n.val := by simp only [tcuCfg]; omega
  exact h.rejReg.ite ((h.rejReg.setHigh high).ite (h.setHigh high))

theorem captureRead {who : Nat} {n : Fin 16} : FencesKept b (s.captureRead who n).2 := by
  unfold State.captureRead
  dsimp only
  split <;> exact ⟨h.flt, h.on⟩

theorem ttcUnitWrite {o : Nat} {v : Word} : FencesKept b (s.ttcUnitWrite o v) := by
  have high : 0x20000 ≤ 0x30000 + o := by omega
  unfold State.ttcUnitWrite
  split
  · extract_lets +onlyGivenNames _ _
    split
    exacts [(⟨h.flt, h.on⟩ : FencesKept b (s.disarmUnit _)).ite (h.armUnit.ite h), (h.clearCnt high).ite h,
      h.ttuWrite high, h.ttuWrite high, h.ttuWrite high, h.ttuWrite high]
  · extract_lets +onlyGivenNames _
    split
    exacts [h.tcuWrite, (h.clearCnt high).ite h, h]

theorem ttcUnitRead {who o : Nat} : FencesKept b (s.ttcUnitRead who o).2 := by
  unfold State.ttcUnitRead
  split
  · exact h
  · extract_lets +onlyGivenNames _
    split
    exacts [h.captureRead, h, h, h, h]

theorem roleEvt {r : Fin 10} {k : Fin 4} : FencesKept b (s.roleEvt r k) := by
  unfold State.roleEvt
  split
  exacts [h.setEng, h]

theorem wake {i : Nat} : FencesKept b (s.wake i) := h.trans (.of_framed (s.wake_framed i) (by simp) (by decide))

theorem notifyPost {k : Fin 64} : FencesKept b (s.notifyPost k) := by
  unfold State.notifyPost
  extract_lets +onlyGivenNames _ s1
  have hs1 : FencesKept b s1 := by
    unfold s1
    split
    exacts [⟨h.flt, h.on⟩, h.roleEvt, h]
  split
  exacts [hs1.ite hs1.wake, hs1]

theorem mbxSend {k : Fin 64} {w : Nat} {v : Word} : FencesKept b (s.mbxSend k w v).2 := by
  unfold State.mbxSend
  split
  · exact h.count (by decide)
  · split
    · exact h
    · extract_lets +onlyGivenNames s1
      have hs1 : FencesKept b s1 := by
        have := h.setHigh (a := mbxW (k.val * 16 + w)) (v := v) (by simp only [mbxW]; omega)
        exact ⟨this.flt, this.on⟩
      split
      · have posted : FencesKept b ((s1.setMbxWritten k 0).setFull k true) := ⟨hs1.flt, hs1.on⟩
        exact (posted.count (by decide)).notifyPost
      · exact ⟨hs1.flt, hs1.on⟩

theorem mbxWrite {p : MbxPeer} {k : Fin 64} {w : Nat} {v : Word} : FencesKept b (s.mbxWrite p k w v).2 := by
  unfold State.mbxWrite
  split
  · exact h.mbxSend
  · exact h.count (by decide)

theorem mbxRead {p : MbxPeer} {k : Fin 64} {w : Nat} : FencesKept b (s.mbxRead p k w).2 := by
  unfold State.mbxRead
  split
  · exact h
  · split
    · exact FencesKept.ite (s := s.setFull k false) ⟨h.flt, h.on⟩ h
    · exact h.count (by decide)

theorem espPieceRead {a n : Nat} : FencesKept b (s.espPieceRead e a n).2 := by
  unfold State.espPieceRead
  extract_lets +onlyGivenNames _
  split
  · exact h
  · split
    exacts [h.bankServe, h]
  · split
    · exact h
    · split
      exacts [h.mbxRead, h]
  · split
    · exact h
    · split
      exacts [h.ttcUnitRead, h]
  · exact h

theorem espRead {a n : Nat} : FencesKept b (s.espRead e a n).2 := by
  unfold State.espRead
  split
  · extract_lets r
    have hr : FencesKept b r.2 := h.espPieceRead
    split
    · exact hr.espPieceRead
    · exact hr
  · exact h.espPieceRead

theorem espPieceWrite {a : Nat} {bs : List Byte} : FencesKept b (s.espPieceWrite e a bs).2 := by
  unfold State.espPieceWrite
  extract_lets x
  split
  · exact h.setEng
  · split
    exacts [h.bankServe, h]
  · split
    · exact h
    · split
      exacts [h.mbxWrite, h]
  · split
    · exact h
    · split
      · exact h
      · exact h.ttcUnitWrite
  · exact h

theorem espWrite {a : Nat} {bs : List Byte} : FencesKept b (s.espWrite e a bs).2 := by
  unfold State.espWrite
  split
  · extract_lets t r
    have ht : FencesKept b t.2 := h.espPieceWrite
    split
    · split
      exacts [ht.espPieceWrite, h.espPieceWrite]
    · exact ht
  · exact h.espPieceWrite

/-! Units (R99-R107). -/

theorem lsu {code : Nat} {t : Word} : FencesKept b (s.lsu e svc code t) := by
  unfold State.lsu
  extract_lets +onlyGivenNames c n pi a0 a _ _ s1
  have hs1 : FencesKept b s1 := by
    unfold s1
    clear_value c n pi a0 a
    split
    · exact h.espWrite.storeOver.ite h.espWrite.launch
    · have hr : FencesKept b (s.espRead e a n).2 := h.espRead
      split
      next heq =>
        rw [heq] at hr
        exact hr.launchFar
      next heq =>
        rw [heq] at hr
        exact hr.launchFar
  exact hs1.setCtx.ite hs1

theorem crcTrig {code : Nat} {t : Word} : FencesKept b (s.crcTrig e svc code t) := by
  unfold State.crcTrig
  extract_lets +onlyGivenNames _ _ _ _
  split
  exacts [h.setCtx, h.setCtx, h.setCtx, h.setCtx, h.launch, h.launch]

theorem fwuCopy : FencesKept b (s.fwuCopy e svc) := by
  unfold State.fwuCopy
  extract_lets +onlyGivenNames _ _ _ _ _ _ _ s1 _
  have hs1 : FencesKept b s1 := h.espRead.storeOver.launch
  exact hs1.setCtx

theorem stagingPieceWrite {a : Nat} {bs : List Byte} : FencesKept b (s.stagingPieceWrite e a bs) := by
  unfold State.stagingPieceWrite
  split
  · exact h.setEng
  · split
    · exact (h.trans (.of_framed (s.ownerWrite_framed _ _ _ _) (by simp) (by simp))).ite h
    · exact h
  · exact h

theorem stagingWrite {a : Nat} {bs : List Byte} : FencesKept b (s.stagingWrite e a bs) :=
  (h.foldl fun _ ht _ => ht.stagingPieceWrite).ite h

theorem fwuTxDone {role : Fin 10} {tag : BitVec 16} {cookie : Word} {status : Byte} {verdict : Nat} :
    FencesKept b (s.fwuTxDone role tag cookie status verdict) := by
  unfold State.fwuTxDone
  split
  exacts [h, h.stagingWrite.setEng.setEng]

theorem toSwitch {lp : Fin 22} {f : Frame} : FencesKept b (s.toSwitch lp f) := by
  unfold State.toSwitch
  split
  · exact h
  · exact ⟨h.flt, h.on⟩

theorem fwuTxPost {a : Nat} : ∀ t ∈ s.fwuTxPost e a, FencesKept b t := by
  unfold State.fwuTxPost
  split
  · rintro t ⟨⟩
  · split
    · rintro t ⟨⟩
    · extract_lets d q cookie
      split
      · rintro t ⟨⟩
        exact h.fwuTxDone
      · split
        · rintro t ⟨⟩
          exact h.fwuTxDone
        · split
          · rintro t ⟨⟩
            exact h.fwuTxDone
          · rintro t ⟨⟩
            exact h.toSwitch

theorem fwuTrig {code : Nat} {t : Word} : FencesKept b (s.fwuTrig e svc code t) := by
  unfold State.fwuTrig
  extract_lets x k
  split
  · exact h.fwuCopy
  · exact h.setEng
  · exact h.setEng
  · split
    next u hu => exact h.fwuTxPost u hu
    · exact h.launch
  · exact h.launchFar

theorem trigger {sl : Slot} {d : Dest} {t : Word} : FencesKept b (s.trigger e svc sl d t) := by
  unfold State.trigger
  extract_lets +onlyGivenNames _
  split
  · exact h.launch
  · split
    exacts [h.launch, h.launch]
  · exact h.launch
  · exact h.lsu
  · exact h.crcTrig
  · exact h.fwuTrig
  · exact h.launchFar
  · exact h

/-! The cycle. -/

theorem kendIssue : FencesKept b (s.kendIssue e) := by
  have high (a : Nat) : 0x20000 ≤ 0x100000 + a := by omega
  unfold State.kendIssue
  extract_lets +onlyGivenNames _ _ _ s1 s2 s3 _
  have hs1 : FencesKept b s1 := h.setHigh (by simp only [pecKlast]; omega)
  have hs2 : FencesKept b s2 := (hs1.setHigh (by simp only [pecKmax]; omega)).ite hs1
  have hs3 : FencesKept b s3 := by
    unfold s3
    split
    exacts [hs2.setHigh (by simp only [pecWdog]; omega), hs2]
  exact hs3.setEng.setEng

theorem repAfter {sl : Slot} : FencesKept b (s.repAfter e svc sl) := by
  unfold State.repAfter
  extract_lets +onlyGivenNames c
  split
  · extract_lets +onlyGivenNames d s1
    have hs1 : FencesKept b s1 := h.setCtx
    exact hs1.setEng.ite hs1
  · exact h.setCtx

theorem iterate {sl : Slot} : FencesKept b (s.iterate e svc sl) := by
  unfold State.iterate
  extract_lets +onlyGivenNames _ cls v s1
  clear_value cls v
  have hs1 : FencesKept b s1 := by
    unfold s1
    split
    exacts [h.setCtx, h.fwuTrig, h.lsu]
  exact hs1.repAfter

theorem perform {flg0 : BitVec 3} {ls : List Landed} {ms : List Move} :
    FencesKept b (s.perform e svc flg0 ls ms) := by
  unfold State.perform
  extract_lets +onlyGivenNames x rep once dec vs s1 s2
  have hs2 : FencesKept b s2 := h.setCtx.foldl fun _ ht _ => ht.trigger
  clear_value s2 rep vs dec x
  extract_lets +onlyGivenNames c2
  split
  · exact hs2.setCtx.repAfter
  · extract_lets +onlyGivenNames cu k s3 wasDelay s4
    have hs3 : FencesKept b s3 := hs2.setCtx
    have hs4 : FencesKept b s4 := hs3.setEng.ite hs3
    clear_value s4 cu
    split
    exacts [hs4.kendIssue, hs4.setEng.ite hs4.setEng, hs4]

theorem landOne {f : InFlight} : FencesKept b (s.landOne e f).1 := by
  unfold State.landOne
  extract_lets +onlyGivenNames _
  split
  exacts [h.setCtx, h.setCtx, h.setCtx, h.setCtx, h.espWrite.setCtx, h.setCtx, h.setCtx, h.setCtx]

theorem landList {l : List InFlight} : FencesKept b (s.landList e l).1 := by
  induction l generalizing s with
  | nil => exact h
  | cons f r ih => exact ih h.landOne

theorem landDue : FencesKept b (s.landDue e).1 :=
  (h.setEng.setHigh (by simp only [pecCollideCnt]; omega)).landList

end

/-! A fault fences the engine. -/

theorem not_debug_of_programFault {s : State} {e : Fin 10} {code bits : Nat} :
    (s.programFault e code bits).eng[e].st ≠ .debug := by
  rw [State.programFault_eng, getElem_vset_same]
  simp [stoppedEngine]

section
variable {b s : State} (h : FencesKept b s) {e : Fin 10} {svc : Bool}
include h

theorem issueSlots {flg0 : BitVec 3} {ls : List Landed} {sls : List Slot} {enc : Bool}
    (hd : (s.issueSlots e svc flg0 ls sls enc).eng[e].st = .debug) :
    FencesKept b (s.issueSlots e svc flg0 ls sls enc) := by
  unfold State.issueSlots at hd ⊢
  dsimp only at hd ⊢
  split at hd
  · exact absurd hd not_debug_of_programFault
  · next hf =>
    rw [if_neg hf]
    exact ((h.count (by simp only [pecCollideCnt]; omega)).ite h).perform

theorem issue {flg0 : BitVec 3} {ls : List Landed} {ov : Option Slot}
    (hd : (s.issue e svc flg0 ls ov).eng[e].st = .debug) : FencesKept b (s.issue e svc flg0 ls ov) := by
  unfold State.issue at hd ⊢
  dsimp only at hd ⊢
  split at hd
  · exact h.iterate
  · split at hd
    exacts [(h.setCtx.ite h).issueSlots hd, (h.setCtx.ite h).issueSlots hd]

end

/-- An engine in DEBUG that meets a fault leaves DEBUG. -/
theorem not_debug_of_hardFault {s : State} {e : Fin 10} {bits : Nat} (hs : s.eng[e].st = .debug)
    (hon : s.islandOn (3 + e.val) = true) : (s.hardFaultBits e bits).eng[e].st ≠ .debug := by
  rw [State.hardFaultBits_idle_eng bits (by rw [hs]; decide) (by rw [hs]; decide) (by rw [hs]; decide) hon,
    getElem_vset_same]
  simp [stoppedEngine]

theorem frozenCycle {s : State} {e : Fin 10} (hs : s.eng[e].st = .debug) (hon : s.islandOn (3 + e.val) = true) :
    (s.frozenCycle e).eng[e].st = .debug → FencesKept s (s.frozenCycle e) := by
  unfold State.frozenCycle
  dsimp only
  split
  · exact fun hd => absurd hd (not_debug_of_hardFault (by rw [State.eng_setEng_same, hs]) hon)
  · exact fun _ => (refl s).setEng

theorem not_debug_of_wdogFault {s : State} {e : Fin 10} {ov : Option Slot} (hs : s.eng[e].st = .debug)
    (hon : s.islandOn (3 + e.val) = true) : (s.wdogFault e ov).eng[e].st ≠ .debug := by
  unfold State.wdogFault
  extract_lets f
  split
  exacts [not_debug_of_programFault, not_debug_of_hardFault hs hon]

/-- A cycle that leaves an engine in DEBUG fences nothing and gates nothing. -/
theorem engCycle {s : State} {e : Fin 10} {ov : Option Slot} (hs : s.eng[e].st = .debug) :
    (s.engCycle e ov).eng[e].st = .debug → FencesKept s (s.engCycle e ov) := by
  unfold State.engCycle
  dsimp only
  split
  · exact fun _ => refl s
  next live =>
  have hon : s.islandOn (3 + e.val) = true := by
    simp only [State.engLive, Bool.or_eq_true, Bool.not_eq_true', not_or, Bool.not_eq_false, Bool.and_eq_true] at live
    exact live.1.2
  split
  · exact frozenCycle hs hon
  split
  · exact fun hd => (refl s).setEng.trans (frozenCycle (by rw [State.eng_setEng_same]; exact hs) hon hd)
  split
  · exact fun _ => (refl s).setEng.landDue.setEng
  split
  · exact fun _ => (refl s).setEng
  split
  · exact fun hd => absurd hd (not_debug_of_wdogFault hs hon)
  · exact fun hd => (refl s).setEng.landDue.issue hd

end FencesKept

end Sys2Proof.Machine
end

section
/-! PROOFS. O30: the registers of an engine's commands and its breakpoints (R114, R122, R123). -/

namespace Sys2Proof.Machine

/-! PEC_DBG_CTRL at a gated or fenced engine. -/

theorem regAt_pecDbgCtrl : ∀ e : Fin 10, (regAt (pecDbgCtrl e.val)).map (fun p => (p.1, decide (p.2.1 ≤ 0x18))) =
    some (.pec e, false) := by decide +kernel

section
variable {s : State} {m : Master} {e : Fin 10}

/-- An access of PEC_DBG_CTRL at a gated or fenced engine is an error. -/
theorem State.access_dbgCtrl_err (h : s.islandOn (3 + e.val) = false ∨ s.fenced e.val = true) :
    ∃ st, s.access m true (pecDbgCtrl e.val) = .err st := by
  have at_ := regAt_pecDbgCtrl e
  unfold State.access
  cases hr : regAt (pecDbgCtrl e.val) with
  | none => exact ⟨_, rfl⟩
  | some p =>
    obtain ⟨b, o, row⟩ := p
    rw [hr] at at_
    obtain ⟨rfl, ho⟩ : b = .pec e ∧ ¬ o ≤ 0x18 := by simpa using at_
    dsimp only
    by_cases hon : s.islandOn (3 + e.val) = true
    · have hf := h.resolve_left (by simp [hon])
      rw [show blkIsland (.pec e) = 3 + e.val from rfl, hon, if_neg (by decide), if_neg (by decide), if_pos]
      · exact ⟨_, rfl⟩
      · have : (decide (0x10 ≤ o ∧ o ≤ 0x18)) = false := decide_eq_false fun h => ho h.2
        rw [this]
        exact hf
    · rw [show blkIsland (.pec e) = 3 + e.val from rfl, if_pos (by simpa using hon)]
      exact ⟨_, rfl⟩

theorem islandOn_of_open (h : Open s m true (pecDbgCtrl e.val)) : s.islandOn (3 + e.val) = true := by
  by_contra hn
  obtain ⟨st, hst⟩ := State.access_dbgCtrl_err (s := s) (m := m) (e := e) (.inl (by simpa using hn))
  unfold Open at h
  rw [hst] at h
  cases h

theorem State.guarded_dbgCtrl_framed (h : s.islandOn (3 + e.val) = false ∨ s.fenced e.val = true) (f : State → State) :
    Framed [.hif] [glbSupBuserrCnt, hifBuserrDropCnt] [] s (s.guarded m (pecDbgCtrl e.val) f) := by
  obtain ⟨st, hst⟩ := State.access_dbgCtrl_err (m := m) h
  unfold State.guarded
  rw [hst]
  exact s.accessErr_framed _ _ _ _ m

/-! Debug commands (R122, Table PEC-9). -/

/-- An engine with STATUS of its last debug command. -/
def withStatus (x : Engine) (c : Byte) : Engine := { x with dbgStatus := c }

theorem State.dbgRefused_served (hon : s.islandOn (3 + e.val) = true) (hf : s.fenced e.val = false) :
    s.dbgRefused e = s := by
  unfold State.dbgRefused
  rw [hon, hf, if_neg (by decide), if_neg (by decide)]

/-- A command at PEC_DBG_CTRL that is let through and leaves the engine powered and unfenced does what its register
does. -/
theorem exec_debug {c : Instr} {f : State → State}
    (hc : exec c s = commit s ((s.guarded m (pecDbgCtrl e.val) f).dbgRefused e)) (ho : Open s m true (pecDbgCtrl e.val))
    (hf : s.fenced e.val = false) (h : FencesKept s (f s)) : exec c s = commit s (f s) := by
  have on : (f s).islandOn (3 + e.val) = true := by
    rw [State.islandOn, h.on]
    exact islandOn_of_open ho
  rw [hc, State.guarded_of_open ho, State.dbgRefused_served on (by rw [State.fenced, h.flt]; exact hf)]

/-- A command at PEC_DBG_CTRL that is let through and writes its engine alone. -/
theorem ends_debug {c : Instr} {f : State → State} {y : Engine}
    (hc : exec c s = commit s ((s.guarded m (pecDbgCtrl e.val) f).dbgRefused e)) (ho : Open s m true (pecDbgCtrl e.val))
    (hf : s.fenced e.val = false) (h : f s = s.setEng e y) :
    Ends c s fun t => EngineIs e y s t ∧ Framed [.eng] [] [] s t := by
  refine ends_setEng s e y ?_
  rw [exec_debug hc ho hf, h]
  rw [h]
  exact (FencesKept.refl s).setEng

theorem State.dbgAccept_taken (hl : 2 ≤ s.dbgLevel) (hs : s.eng[e].st = .debug) (f : Engine → Engine) :
    s.dbgAccept e f = s.setEng e (withStatus (f s.eng[e]) stOk) := by
  unfold State.dbgAccept
  rw [if_pos ⟨hl, hs⟩, State.setDbgStatus, State.setEng_setEng, State.eng_setEng_same]
  rfl

theorem State.dbgAccept_refused (h : ¬ (2 ≤ s.dbgLevel ∧ s.eng[e].st = .debug)) (f : Engine → Engine) :
    s.dbgAccept e f = s.setEng e (withStatus s.eng[e] stPolicy) := if_neg h

/-- STEP or RESUME at an engine that they do not touch. -/
theorem State.stepCmd_refused (h : ¬ (2 ≤ s.dbgLevel ∧ s.eng[e].st = .debug)) :
    s.stepCmd e = s.setEng e (withStatus s.eng[e] stPolicy) := by
  unfold State.stepCmd
  dsimp only
  rw [State.dbgAccept_refused h, if_neg]
  rw [State.eng_setEng_same]
  exact fun ⟨hl, hs, _⟩ => h ⟨hl, hs⟩

theorem State.resumeCmd_refused (h : ¬ (2 ≤ s.dbgLevel ∧ s.eng[e].st = .debug)) :
    s.resumeCmd e = s.setEng e (withStatus s.eng[e] stPolicy) := by
  unfold State.resumeCmd
  dsimp only
  rw [State.dbgAccept_refused h, if_neg]
  rw [State.eng_setEng_same]
  exact fun ⟨hl, hs, _⟩ => h ⟨hl, hs⟩

theorem ends_refused {c : Instr} (ho : Open s m true (pecDbgCtrl e.val)) (hf : s.fenced e.val = false)
    (h : ¬ (2 ≤ s.dbgLevel ∧ s.eng[e].st = .debug)) (hc : c ∈ [Instr.halt m e, .step m e, .resume m e]) :
    Ends c s fun t => EngineIs e (withStatus s.eng[e] stPolicy) s t ∧ Framed [.eng] [] [] s t := by
  simp only [List.mem_cons, List.not_mem_nil, or_false] at hc
  obtain rfl | rfl | rfl := hc
  · exact ends_debug (f := fun s => s.haltCmd e) rfl ho hf (State.dbgAccept_refused h _)
  · exact ends_debug (f := fun s => s.stepCmd e) rfl ho hf (State.stepCmd_refused h)
  · exact ends_debug (f := fun s => s.resumeCmd e) rfl ho hf (State.resumeCmd_refused h)

/-- A debug command at a gated or fenced engine writes the STATUS that says so, beside the bus error. -/
theorem ends_unserved {c : Instr} {st : Byte}
    (h : s.islandOn (3 + e.val) = false ∧ st = stIslandOff ∨
      s.islandOn (3 + e.val) = true ∧ s.fenced e.val = true ∧ st = stFenced)
    (hc : c ∈ [Instr.halt m e, .step m e, .resume m e]) :
    Ends c s fun t => EngineIs e (withStatus s.eng[e] st) s t ∧
      Framed [.eng, .hif] [glbSupBuserrCnt, hifBuserrDropCnt] [] s t := by
  have run : ∃ f, exec c s = commit s ((s.guarded m (pecDbgCtrl e.val) f).dbgRefused e) := by
    simp only [List.mem_cons, List.not_mem_nil, or_false] at hc
    obtain rfl | rfl | rfl := hc <;> exact ⟨_, rfl⟩
  obtain ⟨f, hf⟩ := run
  have framed := State.guarded_dbgCtrl_framed (m := m) (h.imp And.left fun h => h.2.1) f
  have eng := framed.parts .eng (by simp)
  have flt := framed.parts .flt (by simp)
  have on := framed.regs clkIslOn (by decide) (by decide)
  generalize s.guarded m (pecDbgCtrl e.val) f = u at *
  have status : u.dbgRefused e = u.setEng e (withStatus s.eng[e] st) := by
    have here : u.eng[e] = s.eng[e] := congrArg (fun v => v[e]) eng
    have island : u.islandOn (3 + e.val) = s.islandOn (3 + e.val) := by rw [State.islandOn, on]; rfl
    have fence : u.fenced e.val = s.fenced e.val := by rw [State.fenced, flt]; rfl
    unfold State.dbgRefused State.setDbgStatus
    rw [island, fence, here]
    obtain ⟨hon, rfl⟩ | ⟨hon, hfn, rfl⟩ := h
    · rw [hon, if_pos (by decide)]
      rfl
    · rw [hon, hfn, if_neg (by decide), if_pos rfl]
      rfl
  refine ends_of_commit (hf.trans (congrArg _ status)) ⟨⟨?_, fun g hg => ?_⟩, ?_⟩
  · exact (congrArg (fun v => v[e]) (settle_part s _ .eng)).trans (State.eng_setEng_same _ _ _)
  · refine (congrArg (fun v => v[g]) (settle_part s _ .eng)).trans ((State.eng_setEng_other _ _ hg).trans ?_)
    exact congrArg (fun v => v[g]) eng
  · exact framed_settle ((framed.mono (by simp) (List.Subset.refl _) (List.nil_subset _)).trans
      (u.setEng_framed e _ _ _ _ (by simp)))

/-! Debug commands that are taken. -/

/-- A halted engine as RESUME lets it go on. -/
def resumed (x : Engine) : Engine :=
  { x with halted := false, heldStart := false, bpSkip := decide (x.bpHit ≠ 0), dbgStatus := stOk }

/-- A halted engine as STEP lets it advance by one cycle. -/
def stepping (x : Engine) : Engine := { x with halted := false, bpSkip := true, dbgStatus := stOk }

/-- The cycle of a STEP. -/
def State.stepCycle (s : State) (e : Fin 10) : State := (s.setEng e (stepping s.eng[e])).engCycle e none

/-- A halted engine. -/
def haltedAgain (x : Engine) : Engine := { x with halted := true }

section
variable (hl : 2 ≤ s.dbgLevel) (hs : s.eng[e].st = .debug)
include hl hs

theorem State.haltCmd_halts (hh : s.eng[e].halted = false) : s.haltCmd e = s.setEng e { s.eng[e] with
    halted := true, haltSvc := decide (s.eng[e].kern = .idle), bpHit := 0, dbgStatus := stOk } := by
  rw [State.haltCmd, State.dbgAccept_taken hl hs, haltNow, hh, if_neg (by decide)]
  rfl

theorem State.haltCmd_halted (hh : s.eng[e].halted = true) :
    s.haltCmd e = s.setEng e (withStatus s.eng[e] stOk) := by
  rw [State.haltCmd, State.dbgAccept_taken hl hs, haltNow, if_pos hh]

theorem State.stepCmd_running (hh : s.eng[e].halted = false) : s.stepCmd e = s.setEng e (withStatus s.eng[e] stOk) := by
  unfold State.stepCmd
  dsimp only
  rw [State.dbgAccept_taken hl hs, if_neg]
  · rfl
  · rw [State.eng_setEng_same]
    rintro ⟨_, _, h⟩
    exact Bool.false_ne_true (hh.symm.trans h)

theorem State.resumeCmd_running (hh : s.eng[e].halted = false) :
    s.resumeCmd e = s.setEng e (withStatus s.eng[e] stOk) := by
  unfold State.resumeCmd
  dsimp only
  rw [State.dbgAccept_taken hl hs, if_neg]
  · rfl
  · rw [State.eng_setEng_same]
    rintro ⟨_, _, h⟩
    exact Bool.false_ne_true (hh.symm.trans h)

theorem State.resumeCmd_halted (hh : s.eng[e].halted = true) : s.resumeCmd e =
    if s.eng[e].heldStart then (s.setEng e (resumed s.eng[e])).kernelStart e false
    else s.setEng e (resumed s.eng[e]) := by
  unfold State.resumeCmd
  dsimp only
  rw [State.dbgAccept_taken hl hs, State.eng_setEng_same, if_pos ⟨hl, hs, hh⟩, State.setEng_setEng]
  rfl

/-- STEP of a halted engine that its cycle leaves in DEBUG. -/
theorem State.stepCmd_halted (hh : s.eng[e].halted = true) (hd : (s.stepCycle e).eng[e].st = .debug) :
    s.stepCmd e = (s.stepCycle e).setEng e (haltedAgain (s.stepCycle e).eng[e]) := by
  unfold State.stepCmd
  dsimp only
  rw [State.dbgAccept_taken hl hs, State.eng_setEng_same, if_pos ⟨hl, hs, hh⟩, State.setEng_setEng]
  exact if_pos hd

theorem exec_step (ho : Open s m true (pecDbgCtrl e.val)) (hf : s.fenced e.val = false) (hh : s.eng[e].halted = true)
    (hd : (s.stepCycle e).eng[e].st = .debug) :
    exec (.step m e) s = commit s ((s.stepCycle e).setEng e (haltedAgain (s.stepCycle e).eng[e])) := by
  have step := State.stepCmd_halted hl hs hh hd
  have kept : FencesKept s (s.stepCmd e) := by
    rw [step]
    exact ((FencesKept.refl s).setEng.trans
      (FencesKept.engCycle (by rw [State.eng_setEng_same]; exact hs) hd)).setEng
  rw [← step]
  exact exec_debug (f := fun s => s.stepCmd e) rfl ho hf kept

/-- A STEP whose cycle writes the engine alone. -/
theorem ends_step (ho : Open s m true (pecDbgCtrl e.val)) (hf : s.fenced e.val = false) (hh : s.eng[e].halted = true)
    {y : Engine} (hy : s.stepCycle e = s.setEng e y) (hd : y.st = .debug) :
    Ends (.step m e) s fun t => EngineIs e (haltedAgain y) s t ∧ Framed [.eng] [] [] s t := by
  have here : (s.stepCycle e).eng[e] = y := by rw [hy, State.eng_setEng_same]
  refine ends_setEng s e _ ?_
  rw [exec_step hl hs ho hf hh (here ▸ hd), here, hy, State.setEng_setEng]

end

/-! The cycle of a STEP. -/

/-- A cycle of a freeze, with no kernel counting. -/
def thawed (x : Engine) : Engine := { x with freeze := x.freeze - 1, wall := x.wall + 1 }

/-- A cycle in which nothing lands or issues, with no kernel counting. -/
def passed (x : Engine) : Engine := { x with pipe := x.pipe + 1, wall := x.wall + 1, sGap := x.sGap - 1 }

theorem State.frozenCycle_uncounted (hc : s.eng[e].kCount = none) :
    s.frozenCycle e = s.setEng e (thawed s.eng[e]) := by
  unfold State.frozenCycle
  extract_lets x y
  have hy : y = thawed s.eng[e] := by simp only [y, x, thawed, hc, Option.map_none]
  rw [hy, if_neg]
  rw [wdogExpired, show (thawed s.eng[e]).kCount = none from hc]
  exact Bool.false_ne_true

theorem State.engCycle_frozen (hv : s.engLive e = true) (hh : s.eng[e].halted = false) (hc : s.eng[e].kCount = none)
    (hf : s.eng[e].freeze ≠ 0) : s.engCycle e none = s.setEng e (thawed s.eng[e]) := by
  unfold State.engCycle
  dsimp only
  rw [hv, hh, if_neg (by decide), if_pos hf, State.frozenCycle_uncounted hc]

/-- Between kernels, with no event pending, what no issue leaves of a cycle is the service context's gap. -/
theorem idleCycle_unwoken {x : Engine} (hk : x.kern = .idle) (he : x.evt = 0) (hold : Bool) :
    idleCycle x hold = { x with sGap := x.sGap - 1 } := by
  unfold idleCycle
  split
  · next h => rw [hk] at h; cases h
  · split
    · exact if_neg (by simp [he])
    · rfl
  · next h => exact absurd hk h

/-- An engine that waits after the kernel's end, with nothing in flight and no event to wait for. -/
theorem State.engCycle_passed (hw : s.storesWf) (hv : s.engLive e = true) (hh : s.eng[e].halted = false)
    (hf : s.eng[e].freeze = 0) (hc : s.eng[e].kCount = none) (hl : s.eng[e].flight = []) (hk : s.eng[e].kern = .idle)
    (hg : s.eng[e].sGap ≠ 0) (he : s.eng[e].evt = 0) : s.engCycle e none = s.setEng e (passed s.eng[e]) := by
  have late : lateBy s.eng[e] = 0 := lateBy_of_inTime fun f h => by rw [hl] at h; cases h
  obtain ⟨y, hy⟩ : ∃ y, y = tickEngine s.eng[e] := ⟨_, rfl⟩
  have quiet : (s.setEng e y).landDue e = (s.setEng e y, []) := State.landDue_quiet (by subst hy; exact hw.setEng)
    fun f h => by
      rw [State.eng_setEng_same, hy, show (tickEngine s.eng[e]).flight = [] from hl] at h
      cases h
  have waits : s.issuer e = none := by
    unfold State.issuer
    dsimp only
    rw [hv, hh, hf, late, if_neg (by decide), hk]
    exact if_pos (by rw [decide_eq_true hg]; rfl)
  have idle (hold : Bool) : idleCycle y hold = passed s.eng[e] := by
    rw [hy, idleCycle_unwoken (x := tickEngine s.eng[e]) hk he]
    simp only [tickEngine, passed, hc, Option.map_none]
  unfold State.engCycle
  dsimp only
  rw [hv, hh, if_neg (by decide), if_neg (not_not_intro hf), if_neg (not_not_intro late), waits]
  dsimp only
  rw [← hy, quiet]
  dsimp only
  rw [State.eng_setEng_same, State.setEng_setEng, idle]

theorem State.stepping_live (hs : s.eng[e].st = .debug) (hon : s.islandOn (3 + e.val) = true) :
    (s.setEng e (stepping s.eng[e])).engLive e = true := by
  unfold State.engLive
  rw [State.eng_setEng_same, show (stepping s.eng[e]).st = .debug from hs]
  exact hon

theorem State.stepCycle_frozen (hs : s.eng[e].st = .debug) (hon : s.islandOn (3 + e.val) = true)
    (hc : s.eng[e].kCount = none) (hf : s.eng[e].freeze ≠ 0) :
    s.stepCycle e = s.setEng e (thawed (stepping s.eng[e])) := by
  have here := State.eng_setEng_same s e (stepping s.eng[e])
  rw [State.stepCycle, State.engCycle_frozen (State.stepping_live hs hon), State.setEng_setEng, here] <;> rw [here]
  exacts [rfl, hc, hf]

theorem State.stepCycle_passed (hw : s.storesWf) (hs : s.eng[e].st = .debug) (hon : s.islandOn (3 + e.val) = true)
    (hc : s.eng[e].kCount = none) (hf : s.eng[e].freeze = 0) (hl : s.eng[e].flight = [])
    (hk : s.eng[e].kern = .idle) (hg : s.eng[e].sGap ≠ 0) (he : s.eng[e].evt = 0) :
    s.stepCycle e = s.setEng e (passed (stepping s.eng[e])) := by
  have here := State.eng_setEng_same s e (stepping s.eng[e])
  rw [State.stepCycle, State.engCycle_passed hw.setEng (State.stepping_live hs hon), State.setEng_setEng, here] <;>
    rw [here]
  exacts [rfl, hf, hc, hl, hk, hg, he]

/-! RESUME with a start held. -/

theorem ends_resumeStart (hw : s.storesWf) (ho : Open s m true (pecDbgCtrl e.val)) (hf : s.fenced e.val = false)
    (hl : 2 ≤ s.dbgLevel) (hs : s.eng[e].st = .debug) (hh : s.eng[e].halted = true) (hp : s.eng[e].heldStart = true)
    (hen : s.en (.pec e) = true) (hhold : s.inHold (.pec e) = false) (hk : s.eng[e].kern = .idle)
    (hlead : s.eng[e].lead = none) :
    Ends (.resume m e) s fun t => t.eng[e].halted = false ∧ t.eng[e].heldStart = false ∧ t.eng[e].kern = .entering ∧
      t.eng[e].cyc = s.eng[e].cyc + 1 ∧ t.reg (pecKstartCnt e.val) = s.reg (pecKstartCnt e.val) + 1 := by
  obtain ⟨u, hu⟩ : ∃ u, u = s.setEng e (resumed s.eng[e]) := ⟨_, rfl⟩
  have here : u.eng[e] = resumed s.eng[e] := by rw [hu, State.eng_setEng_same]
  have wf : u.storesWf := by rw [hu]; exact hw.setEng
  have heeds : Heeds e u := ⟨.inr (by rw [here]; exact hs), by rw [hu]; exact hen, by rw [hu]; exact hhold⟩
  have run : s.resumeCmd e = u.takeStart e false := by
    rw [State.resumeCmd_halted hl hs hh, if_pos hp, ← hu]
    exact heeds.kernelStart_taken (by rw [here]; rfl) (by rw [here]; exact hk)
  have kept : FencesKept s (s.resumeCmd e) := by
    rw [run]
    refine FencesKept.trans (t := u) (by rw [hu]; exact (FencesKept.refl s).setEng)
      (FencesKept.of_framed (u.takeStart_framed e false) (by simp) ?_)
    simp only [List.mem_singleton, clkIslOn, pecKstartCnt]
    omega
  have started := u.takeStart_eng_same e false
  refine ends_of_commit (exec_debug (f := fun s => s.resumeCmd e) rfl ho hf kept) ?_
  have eng : (settle s (s.resumeCmd e)).eng[e] = u.started e false := by
    rw [run]
    exact (congrArg (fun v => v[e]) (settle_part s _ .eng)).trans started
  have old : u.eng[e].lead = none := by rw [here]; exact hlead
  rw [eng]
  refine ⟨?_, ?_, rfl, ?_, ?_⟩
  · show (fromLead (swapBanks u.eng[e])).halted = false
    rw [fromLead_halted, swapBanks_halted, here]
    rfl
  · show (fromLead (swapBanks u.eng[e])).heldStart = false
    rw [fromLead_heldStart, swapBanks_heldStart, here]
    rfl
  · show (fromLead (swapBanks u.eng[e])).cyc + 1 = _
    rw [fromLead_of_none (by rw [swapBanks_lead, old]), swapBanks_cyc, here]
    rfl
  · rw [settle_reg _ _ _ (by simp only [pecKstartCnt, glbIntCnt]; omega), run, State.takeStart_count e false wf, hu]
    rfl

/-! Breakpoints (R123). -/

theorem doBreakpointHit_of_none (h : s.issuer e = none) : doBreakpointHit e s = s := by
  unfold doBreakpointHit
  rw [h]

theorem doBreakpointHit_unset {svc : Bool} (hi : s.issuer e = some svc) (hb : s.breakAt e svc = none) :
    doBreakpointHit e s = s := by
  unfold doBreakpointHit
  rw [hi]
  dsimp only
  rw [hb]

theorem doBreakpointHit_set {svc : Bool} {b : Fin 4} (hi : s.issuer e = some svc) (hb : s.breakAt e svc = some b) :
    doBreakpointHit e s = s.setEng e (haltEngine s.eng[e] svc (BitVec.ofNat 4 (2 ^ b.val))) := by
  unfold doBreakpointHit
  rw [hi]
  dsimp only
  rw [hb]

end

/-- Settles O30: each command writes its engine alone; a STEP that leaves its engine in DEBUG neither fences nor
gates. -/
theorem engineCommandRegisters : Obligations.EngineCommandRegisters := by
  unfold Obligations.EngineCommandRegisters
  intro s m e hw x becomes
  refine ⟨fun ho => ⟨fun hx => ?_, fun hx => ?_⟩, fun ho => ?_,
    fun ho hf hs hl => ⟨?_, ?_, ?_, ?_, ?_, fun hh => ⟨?_, ?_, ?_⟩⟩, ?_, ?_, ?_, ?_⟩
  · refine ends_setEng s e _ ?_
    show commit s (s.guarded m _ _) = _
    rw [State.guarded_of_open ho, State.swapImem, if_pos hx]
  · refine ends_setEng s e _ ?_
    show commit s (s.guarded m _ _) = _
    rw [State.guarded_of_open ho, State.swapImem, if_neg hx]
  · have apart : pecKmax e.val ≠ glbIntCnt := by simp only [pecKmax, glbIntCnt]; omega
    refine ends_of_commit (congrArg (commit s) (State.guarded_of_open ho _))
      ⟨settle_setReg_stored hw s 0 apart, framed_settle ((Framed.refl _ _ _ s).setReg _ (by simp))⟩
  · exact fun hh => ends_debug (f := fun s => s.haltCmd e) rfl ho hf (State.haltCmd_halts hl hs hh)
  · exact fun hh => ends_debug (f := fun s => s.haltCmd e) rfl ho hf (State.haltCmd_halted hl hs hh)
  · exact fun hh => ⟨ends_debug (f := fun s => s.stepCmd e) rfl ho hf (State.stepCmd_running hl hs hh),
      ends_debug (f := fun s => s.resumeCmd e) rfl ho hf (State.resumeCmd_running hl hs hh)⟩
  · intro hh hp
    refine ends_debug (f := fun s => s.resumeCmd e) rfl ho hf ?_
    refine ((State.resumeCmd_halted hl hs hh).trans (if_neg (by rw [hp]; decide))).trans ?_
    exact congrArg (s.setEng e) (congrArg (fun b => ({ resumed x with heldStart := b } : Engine)) hp.symm)
  · exact fun hh hp hen hhold hk hlead => ends_resumeStart hw ho hf hl hs hh hp hen hhold hk hlead
  · intro hd
    refine ends_of_commit (exec_step hl hs ho hf hh hd) ?_
    exact (congrArg (fun v => v[e]) (settle_part s _ .eng)).trans (State.eng_setEng_same _ _ _)
  · exact fun hz hc hq hk hg he =>
      ends_step hl hs ho hf hh (State.stepCycle_passed hw hs (islandOn_of_open ho) hc hz hq hk hg he) hs
  · exact fun hz hc => ends_step hl hs ho hf hh (State.stepCycle_frozen hs (islandOn_of_open ho) hc hz) hs
  · refine fun ho hf h c hc => ends_refused ho hf (fun ⟨hl, hs⟩ => ?_) hc
    exact h.elim (fun h => h hs) (fun h => absurd hl (by omega))
  · exact fun c hc => ⟨fun hon => ends_unserved (.inl ⟨hon, rfl⟩) hc,
      fun hon hf => ends_unserved (.inr ⟨hon, hf, rfl⟩) hc⟩
  · exact fun h => idle_of_commit rfl (doBreakpointHit_of_none h)
  · exact fun svc hi => ⟨fun hb => idle_of_commit rfl (doBreakpointHit_unset hi hb),
      fun b hb => ends_setEng s e _ (congrArg (commit s) (doBreakpointHit_set hi hb))⟩

end Sys2Proof.Machine
end

section
/-! SUPPORT. The bindings that move with an `Inst` from engine to engine (R116, R158, Table PEC-28). -/

namespace Sys2Proof.Machine

/-! Spaces of words copied and cleared. -/

section
variable {α : Type}

theorem amFind_filter (p : Nat → Bool) (m : AMap α) (k : Nat) :
    amFind (m.filter fun x => p x.1) k = if p k then amFind m k else none := by
  induction m with
  | nil => simp [amFind]
  | cons x m ih =>
    obtain ⟨j, v⟩ := x
    by_cases hj : p j
    · rw [List.filter_cons_of_pos (by exact hj), amFind, amFind, ih]
      by_cases hk : j = k
      · subst hk
        rw [if_pos rfl, if_pos hj, if_pos rfl]
      · rw [if_neg hk, if_neg hk]
    · rw [List.filter_cons_of_neg (by exact hj), ih, amFind]
      by_cases hk : j = k
      · subst hk
        rw [if_neg hj, if_neg hj]
      · rw [if_neg hk]

/-- Entries of one space, put into another under the same words, are found there. -/
theorem amFind_copied {u sp u' sp' : Nat} (k : Nat) : ∀ (l m : AMap α),
    l.Pairwise (fun a b => a.1 < b.1) → (∀ x ∈ l, x.1 / 2 ^ 24 = 128 * u + sp) →
    amFind (l.foldl (fun t x => amInsert t (tabKey u' sp' (x.1 % 2 ^ 24)) x.2) m) k =
      if k / 2 ^ 24 = 128 * u' + sp' then (amFind l (tabKey u sp (k % 2 ^ 24))).or (amFind m k) else amFind m k
  | [], m, _, _ => by simp [amFind]
  | (j, v) :: l, m, hp, hs => by
    obtain ⟨first, rest⟩ := List.pairwise_cons.1 hp
    have here : j / 2 ^ 24 = 128 * u + sp := hs _ List.mem_cons_self
    rw [List.foldl_cons, amFind_copied k l _ rest fun x hx => hs x (List.mem_cons_of_mem _ hx)]
    by_cases hk : k / 2 ^ 24 = 128 * u' + sp'
    · rw [if_pos hk, if_pos hk, amFind]
      by_cases hj : j = tabKey u sp (k % 2 ^ 24)
      · have key : tabKey u' sp' (j % 2 ^ 24) = k := by
          unfold tabKey at hj ⊢
          omega
        rw [if_pos hj, amFind_lt_none _ _ fun x hx => hj ▸ first x hx, Option.none_or, key, amFind_insert_same,
          Option.some_or]
      · have key : k ≠ tabKey u' sp' (j % 2 ^ 24) := by
          unfold tabKey at hj ⊢
          omega
        rw [if_neg hj, amFind_insert_other _ _ _ _ key]
    · have key : k ≠ tabKey u' sp' (j % 2 ^ 24) := fun h => hk (by rw [h, tabKey_space])
      rw [if_neg hk, if_neg hk, amFind_insert_other _ _ _ _ key]

end

section
variable {s : State} {u sp u' sp' k : Nat}

theorem State.find_copySpace (hw : amWf tabReset s.tabs) : amFind (s.copySpace u sp u' sp').tabs k =
    if k / 2 ^ 24 = 128 * u' + sp' then amFind s.tabs (tabKey u sp (k % 2 ^ 24)) else amFind s.tabs k := by
  have src := amFind_filter (fun j => decide (j / 2 ^ 24 = 128 * u + sp)) s.tabs (tabKey u sp (k % 2 ^ 24))
  have rest := amFind_filter (fun j => decide (j / 2 ^ 24 ≠ 128 * u' + sp')) s.tabs k
  have ordered := (amFilter_wf tabReset s.tabs (fun x => decide (x.1 / 2 ^ 24 = 128 * u + sp)) hw).1
  refine (amFind_copied (u := u) (sp := sp) k _ _ ordered fun x hx => ?_).trans ?_
  · exact of_decide_eq_true (List.mem_filter.1 hx).2
  · rw [src, rest, tabKey_space, if_pos (decide_eq_true rfl)]
    by_cases hk : k / 2 ^ 24 = 128 * u' + sp'
    · rw [if_pos hk, if_pos hk, decide_eq_false (not_not_intro hk), if_neg Bool.false_ne_true, Option.or_none]
    · rw [if_neg hk, if_neg hk, if_pos (decide_eq_true hk)]

theorem State.get_copySpace_other (hw : amWf tabReset s.tabs) (h : k / 2 ^ 24 ≠ 128 * u' + sp') :
    amGet tabReset (s.copySpace u sp u' sp').tabs k = amGet tabReset s.tabs k := by
  rw [amGet, State.find_copySpace hw, if_neg h, amGet]

theorem State.get_wipeSpace_other (h : k / 2 ^ 24 ≠ 128 * u + sp) :
    amGet tabReset (s.wipeSpace u sp).tabs k = amGet tabReset s.tabs k := by
  have kept := amFind_filter (fun j => decide (j / 2 ^ 24 ≠ 128 * u + sp)) s.tabs k
  rw [if_pos (decide_eq_true h)] at kept
  exact congrArg (fun o => o.getD (tabReset k)) kept

end

section
variable {s : State} {e f : Fin 10} {sp sp' w : Nat}

theorem tabKey_word {u sp w : Nat} (hw : w < 2 ^ 24) :
    tabKey u sp w / 2 ^ 24 = 128 * u + sp ∧ tabKey u sp w % 2 ^ 24 = w := by
  unfold tabKey
  omega

/-- A word of a space copied reads as the word it was copied from. -/
theorem State.tab_copySpace_same (hs : amWf tabReset s.tabs) (hsp : sp < 128) (hsp' : sp' < 128) (hw : w < 2 ^ 24) :
    (s.copySpace (blkIdx (.pec e)) sp (blkIdx (.pec f)) sp').tab (.pec f) sp' w = s.tab (.pec e) sp w := by
  obtain ⟨hto, word⟩ := tabKey_word (u := blkIdx (.pec f)) (sp := sp') hw
  obtain ⟨hfrom, -⟩ := tabKey_word (u := blkIdx (.pec e)) (sp := sp) hw
  rw [State.tab, amGet, State.find_copySpace hs, if_pos hto, word, tabReset_pec f.isLt hsp' hto, State.tab, amGet,
    tabReset_pec e.isLt hsp hfrom]

theorem State.tab_wipeSpace_same (hsp : sp < 128) (hw : w < 2 ^ 24) :
    (s.wipeSpace (blkIdx (.pec e)) sp).tab (.pec e) sp w = 0 := by
  obtain ⟨at_, -⟩ := tabKey_word (u := blkIdx (.pec e)) (sp := sp) hw
  have gone := amFind_filter (fun j => decide (j / 2 ^ 24 ≠ 128 * blkIdx (.pec e) + sp)) s.tabs
      (tabKey (blkIdx (.pec e)) sp w)
  rw [decide_eq_false (not_not_intro at_), if_neg Bool.false_ne_true] at gone
  have read : (s.wipeSpace (blkIdx (.pec e)) sp).tab (.pec e) sp w = tabReset (tabKey (blkIdx (.pec e)) sp w) :=
    congrArg (fun o => o.getD (tabReset (tabKey (blkIdx (.pec e)) sp w))) gone
  rw [read, tabReset_pec e.isLt hsp at_]

end

section
variable {s : State} {a b c : Fin 10} {sp sp' sp'' w : Nat}

theorem space_ne (hsp : sp < 128) (hsp' : sp' < 128) (hw : w < 2 ^ 24) (h : a ≠ b ∨ sp ≠ sp') :
    tabKey (blkIdx (.pec a)) sp w / 2 ^ 24 ≠ 128 * blkIdx (.pec b) + sp' := by
  rw [(tabKey_word hw).1]
  have := h.imp_left Fin.val_ne_of_ne
  simp only [blkIdx]
  omega

theorem State.tab_copySpace_other (hs : amWf tabReset s.tabs) (hsp : sp < 128) (hsp' : sp' < 128) (hw : w < 2 ^ 24)
    (h : a ≠ b ∨ sp ≠ sp') :
    (s.copySpace (blkIdx (.pec c)) sp'' (blkIdx (.pec b)) sp').tab (.pec a) sp w = s.tab (.pec a) sp w :=
  State.get_copySpace_other hs (space_ne hsp hsp' hw h)

theorem State.tab_wipeSpace_other (hsp : sp < 128) (hsp' : sp' < 128) (hw : w < 2 ^ 24) (h : a ≠ b ∨ sp ≠ sp') :
    (s.wipeSpace (blkIdx (.pec b)) sp').tab (.pec a) sp w = s.tab (.pec a) sp w :=
  State.get_wipeSpace_other (space_ne hsp hsp' hw h)

end

/-! The words and registers that move. -/

/-- An update of the words of indirect spaces. -/
theorem State.setTabs_framed (s : State) (m : AMap Word) (l : List Nat)
    (h : ∀ k, k ∉ l → amGet tabReset m k = amGet tabReset s.tabs k) : Framed [] [] l s { s with tabs := m } where
  parts p _ := by cases p with
    | mfpIn => exact ⟨rfl, rfl⟩
    | images => exact ⟨rfl, rfl⟩
    | _ => rfl
  regs _ _ _ := rfl
  tabs := h
  out := List.prefix_refl _

theorem mem_bindingWords {k : Nat} (e : Fin 10) {sp : Nat} (hsp : sp ∈ [2, 3, 6])
    (h : k / 2 ^ 24 = 128 * blkIdx (.pec e) + sp) : k ∈ bindingWords := by
  refine List.mem_flatMap.2 ⟨e, List.mem_finRange e, List.mem_flatMap.2 ⟨sp, hsp, ?_⟩⟩
  refine List.mem_map.2 ⟨k % 2 ^ 24, List.mem_range.2 (Nat.mod_lt _ (by omega)), ?_⟩
  unfold tabKey
  omega

theorem mem_bindingRegs {a : Nat} (e : Fin 10)
    (h : a ∈ [pecTtuGrant e.val, pecTcuGrant e.val, pecWdog e.val, pecWdecl e.val, blkBase (.pec e)]) :
    a ∈ bindingRegs :=
  List.mem_flatMap.2 ⟨e, List.mem_finRange e, h⟩

section
variable {s : State} (hw : s.storesWf) {f t : Fin 10} (hne : t ≠ f)

/-- The words of an `Inst` moved: copied, then cleared. -/
def State.moveWords (s : State) (f t : Fin 10) : State :=
  let u := blkIdx (.pec f)
  let u' := blkIdx (.pec t)
  let s1 := ((s.copySpace u 2 u' 2).copySpace u 3 u' 3).copySpace u 6 u' 6
  ((s1.wipeSpace u 2).wipeSpace u 3).wipeSpace u 6

theorem State.wipeSpace_framed {s : State} {sp : Nat} (hsp : sp ∈ [2, 3, 6]) :
    Framed [] [] bindingWords s (s.wipeSpace (blkIdx (.pec f)) sp) :=
  s.setTabs_framed _ _ fun _ hk => State.get_wipeSpace_other fun h => hk (mem_bindingWords f hsp h)

include hw

/-- A copy of one of an `Inst`'s spaces to another engine. -/
theorem State.copySpace_framed {sp : Nat} (hsp : sp ∈ [2, 3, 6]) :
    Framed [] [] bindingWords s (s.copySpace (blkIdx (.pec f)) sp (blkIdx (.pec t)) sp) :=
  s.setTabs_framed _ _ fun _ hk =>
    State.get_copySpace_other (State.storesWf_tabs hw) fun h => hk (mem_bindingWords t hsp h)

theorem State.moveWords_wf : (s.moveWords f t).storesWf := by
  have h1 := ((hw.copySpace (e := f) (f := t) (sp := 2) (sp' := 2) (by omega) (by omega)).copySpace (e := f) (f := t)
    (sp := 3) (sp' := 3) (by omega) (by omega)).copySpace (e := f) (f := t) (sp := 6) (sp' := 6) (by omega) (by omega)
  exact h1.wipeSpace.wipeSpace.wipeSpace

theorem State.moveWords_framed : Framed [] [] bindingWords s (s.moveWords f t) := by
  have h1 := hw.copySpace (e := f) (f := t) (sp := 2) (sp' := 2) (by omega) (by omega)
  have h2 := h1.copySpace (e := f) (f := t) (sp := 3) (sp' := 3) (by omega) (by omega)
  have two : 2 ∈ [2, 3, 6] := List.mem_cons_self
  have three : 3 ∈ [2, 3, 6] := List.mem_cons_of_mem _ List.mem_cons_self
  have six : 6 ∈ [2, 3, 6] := List.mem_cons_of_mem _ (List.mem_cons_of_mem _ List.mem_cons_self)
  unfold State.moveWords
  exact ((State.copySpace_framed hw two).trans ((State.copySpace_framed h1 three).trans
    (State.copySpace_framed h2 six))).trans
    ((State.wipeSpace_framed two).trans ((State.wipeSpace_framed three).trans (State.wipeSpace_framed six)))

include hne

theorem State.moveWords_target {sp w : Nat} (hsp : sp ∈ [2, 3, 6]) (hlt : w < 2 ^ 24) :
    (s.moveWords f t).tab (.pec t) sp w = s.tab (.pec f) sp w ∧ (s.moveWords f t).tab (.pec f) sp w = 0 := by
  have h1 := hw.copySpace (e := f) (f := t) (sp := 2) (sp' := 2) (by omega) (by omega)
  have h2 := h1.copySpace (e := f) (f := t) (sp := 3) (sp' := 3) (by omega) (by omega)
  have w0 := State.storesWf_tabs hw
  have w1 := State.storesWf_tabs h1
  have w2 := State.storesWf_tabs h2
  have wiped {v : State} {sp sp' : Nat} (hsp : sp < 128) (hsp' : sp' < 128) :
      (v.wipeSpace (blkIdx (.pec f)) sp').tab (.pec t) sp w = v.tab (.pec t) sp w :=
    State.tab_wipeSpace_other hsp hsp' hlt (.inl hne)
  unfold State.moveWords
  dsimp only
  simp only [List.mem_cons, List.not_mem_nil, or_false] at hsp
  obtain rfl | rfl | rfl := hsp
  · rw [wiped (by omega) (by omega), wiped (by omega) (by omega), wiped (by omega) (by omega),
      State.tab_copySpace_other w2 (by omega) (by omega) hlt (.inr (by omega)),
      State.tab_copySpace_other w1 (by omega) (by omega) hlt (.inr (by omega)),
      State.tab_copySpace_same w0 (by omega) (by omega) hlt,
      State.tab_wipeSpace_other (by omega) (by omega) hlt (.inr (by omega)),
      State.tab_wipeSpace_other (by omega) (by omega) hlt (.inr (by omega)), State.tab_wipeSpace_same (by omega) hlt]
    exact ⟨rfl, rfl⟩
  · rw [wiped (by omega) (by omega), wiped (by omega) (by omega), wiped (by omega) (by omega),
      State.tab_copySpace_other w2 (by omega) (by omega) hlt (.inr (by omega)),
      State.tab_copySpace_same w1 (by omega) (by omega) hlt,
      State.tab_copySpace_other w0 (by omega) (by omega) hlt (.inl hne.symm),
      State.tab_wipeSpace_other (by omega) (by omega) hlt (.inr (by omega)), State.tab_wipeSpace_same (by omega) hlt]
    exact ⟨rfl, rfl⟩
  · rw [wiped (by omega) (by omega), wiped (by omega) (by omega), wiped (by omega) (by omega),
      State.tab_copySpace_same w2 (by omega) (by omega) hlt,
      State.tab_copySpace_other w1 (by omega) (by omega) hlt (.inl hne.symm),
      State.tab_copySpace_other w0 (by omega) (by omega) hlt (.inl hne.symm), State.tab_wipeSpace_same (by omega) hlt]
    exact ⟨rfl, rfl⟩

end

section
variable (s : State) (f t : Fin 10)

/-- The registers of an `Inst` moved: copied, the grants then cleared. -/
def State.moveRegs : State :=
  let s1 := (((s.copyReg (pecTtuGrant f.val) (pecTtuGrant t.val)).copyReg (pecTcuGrant f.val)
    (pecTcuGrant t.val)).copyReg (pecWdog f.val) (pecWdog t.val)).copyReg (pecWdecl f.val) (pecWdecl t.val)
  ((s1.setReg (pecTtuGrant f.val) 0).setReg (pecTcuGrant f.val) 0).setRegBit (blkBase (.pec t)) 0 (s1.en (.pec f))

theorem State.moveBindings_eq : s.moveBindings f t =
    ((s.moveWords f t).moveRegs f t).setHold (.pec t) (((s.moveWords f t).moveRegs f t).inHold (.pec f)) := by
  unfold State.moveBindings State.moveRegs State.moveWords
  rfl

theorem State.moveRegs_framed : Framed [] bindingRegs [] s (s.moveRegs f t) := by
  have new {a : Nat} (h : a ∈ [pecTtuGrant t.val, pecTcuGrant t.val, pecWdog t.val, pecWdecl t.val,
      blkBase (.pec t)]) :=
    mem_bindingRegs t h
  have old {a : Nat} (h : a ∈ [pecTtuGrant f.val, pecTcuGrant f.val, pecWdog f.val, pecWdecl f.val,
      blkBase (.pec f)]) :=
    mem_bindingRegs f h
  have ttu := new List.mem_cons_self
  have tcu := new (List.mem_cons_of_mem _ List.mem_cons_self)
  have wdog := new (List.mem_cons_of_mem _ (List.mem_cons_of_mem _ List.mem_cons_self))
  have wdecl := new (List.mem_cons_of_mem _ (List.mem_cons_of_mem _ (List.mem_cons_of_mem _ List.mem_cons_self)))
  have ctrl := new (List.mem_cons_of_mem _ (List.mem_cons_of_mem _ (List.mem_cons_of_mem _
    (List.mem_cons_of_mem _ List.mem_cons_self))))
  have ttu' := old List.mem_cons_self
  have tcu' := old (List.mem_cons_of_mem _ List.mem_cons_self)
  unfold State.moveRegs State.copyReg State.setRegBit
  exact (((((((Framed.refl _ _ _ s).setReg _ ttu).setReg _ tcu).setReg _ wdog).setReg _ wdecl).setReg _ ttu').setReg _
    tcu').setReg _ ctrl

/-- What moves after the words: the registers and the hold. -/
theorem State.moveBindings_rest : Framed [.hold] bindingRegs [] (s.moveWords f t) (s.moveBindings f t) := by
  rw [State.moveBindings_eq]
  exact ((State.moveRegs_framed _ f t).mono (by simp) (List.Subset.refl _) (List.nil_subset _)).setHold (by simp) _ _

theorem State.moveBindings_framed {s : State} (hw : s.storesWf) :
    Framed [.hold] bindingRegs bindingWords s (s.moveBindings f t) :=
  ((State.moveWords_framed hw).mono (by simp) (List.nil_subset _) (List.Subset.refl _)).trans
    ((s.moveBindings_rest f t).mono (by simp) (List.Subset.refl _) (List.nil_subset _))

/-- The grants move to the new engine. -/
theorem State.moveRegs_grants {s : State} {f t : Fin 10} (hw : amWf regReset s.regs) (hne : t ≠ f) :
    (s.moveRegs f t).reg (pecTtuGrant t.val) = s.reg (pecTtuGrant f.val) ∧
    (s.moveRegs f t).reg (pecTtuGrant f.val) = 0 ∧
    (s.moveRegs f t).reg (pecTcuGrant t.val) = s.reg (pecTcuGrant f.val) ∧
    (s.moveRegs f t).reg (pecTcuGrant f.val) = 0 := by
  have apart := Fin.val_ne_of_ne hne
  have other {u : State} {a b : Nat} {v : Word} (h : b ≠ a) : (u.setReg a v).reg b = u.reg b :=
    State.reg_setReg_other _ _ _ _ h
  have wf {u : State} (h : amWf regReset u.regs) {a : Nat} {v : Word} : amWf regReset (u.setReg a v).regs :=
    State.regsWf_setReg h v
  have same {u : State} (h : amWf regReset u.regs) {a : Nat} {v : Word} : (u.setReg a v).reg a = v :=
    State.reg_setReg_same _ _ _ h
  unfold State.moveRegs State.copyReg State.setRegBit
  simp only [blkBase, pecTtuGrant, pecTcuGrant, pecWdog, pecWdecl]
  refine ⟨?_, ?_, ?_, ?_⟩
  · rw [other (by omega), other (by omega), other (by omega), other (by omega), other (by omega), other (by omega),
      same hw]
  · rw [other (by omega), other (by omega), same (wf (wf (wf (wf hw))))]
  · rw [other (by omega), other (by omega), other (by omega), other (by omega), other (by omega), same (wf hw),
      other (by omega)]
  · rw [other (by omega), same (wf (wf (wf (wf (wf hw)))))]

theorem State.moveBindings_grants {s : State} {f t : Fin 10} (hw : s.storesWf) (hne : t ≠ f) :
    (s.moveBindings f t).reg (pecTtuGrant t.val) = s.reg (pecTtuGrant f.val) ∧
    (s.moveBindings f t).reg (pecTtuGrant f.val) = 0 ∧
    (s.moveBindings f t).reg (pecTcuGrant t.val) = s.reg (pecTcuGrant f.val) ∧
    (s.moveBindings f t).reg (pecTcuGrant f.val) = 0 := by
  have words {a : Nat} (ha : a ≠ glbIntCnt) : (s.moveWords f t).reg a = s.reg a :=
    (State.moveWords_framed hw).regs _ List.not_mem_nil ha
  have wf : (s.moveWords f t).storesWf := State.moveWords_wf hw
  have grants := State.moveRegs_grants (State.storesWf_regs wf) hne
  rw [words (by simp only [pecTtuGrant, glbIntCnt]; omega),
    words (by simp only [pecTcuGrant, glbIntCnt]; omega)] at grants
  have rest {a : Nat} : (s.moveBindings f t).reg a = ((s.moveWords f t).moveRegs f t).reg a := by
    rw [State.moveBindings_eq]
    exact State.reg_of_regs_eq (State.setHold_regs _ _ _)
  rw [rest, rest, rest, rest]
  exact grants

theorem State.moveBindings_tab {s : State} {f t : Fin 10} (hw : s.storesWf) (hne : t ≠ f) {sp w : Nat}
    (hsp : sp ∈ [2, 3, 6]) (hlt : w < 2 ^ 24) : (s.moveBindings f t).tab (.pec t) sp w = s.tab (.pec f) sp w ∧
      (s.moveBindings f t).tab (.pec f) sp w = 0 := by
  have words {b : Fin 10} {n : Nat} : (s.moveBindings f t).tab (.pec b) sp n = (s.moveWords f t).tab (.pec b) sp n :=
    (s.moveBindings_rest f t).tabs _ List.not_mem_nil
  rw [words, words]
  exact State.moveWords_target hw hne hsp hlt

end

end Sys2Proof.Machine
end

section
/-! SUPPORT. A spare takes over the `Inst` of an engine that fails (R158, R161, R163). -/

namespace Sys2Proof.Machine

/-! Choosing the spare. -/

section
variable {s u : State} {r p : Fin 10}

theorem State.pickEngine_spare (h : s.pickEngine = some p) : s.eng[p].st = .spare := by
  unfold State.pickEngine at h
  dsimp only at h
  split at h
  · next q hq =>
    cases h
    have found := List.find?_some hq
    exact of_decide_eq_true (Bool.and_eq_true_iff.1 found).1
  · have found := List.find?_some h
    exact of_decide_eq_true found

/-- The engine chosen to take over is a SPARE. -/
theorem State.spareFor_spare (h : s.spareFor r = some p) : s.eng[p].st = .spare := by
  unfold State.spareFor at h
  split at h
  · split at h
    · next hq =>
      cases h
      exact hq.2
    · exact State.pickEngine_spare h
  · exact State.pickEngine_spare h

theorem State.pickEngine_congr (hs : ∀ f : Fin 10, u.eng[f].st = .spare ↔ s.eng[f].st = .spare)
    (hon : ∀ i, u.islandOn i = s.islandOn i) : u.pickEngine = s.pickEngine := by
  have spare (f : Fin 10) : decide (u.eng[f].st = .spare) = decide (s.eng[f].st = .spare) := decide_eq_decide.2 (hs f)
  unfold State.pickEngine
  simp only [spare, hon]

/-- The choice goes by the SPARE engines, the islands and the rotation. -/
theorem State.spareFor_congr (hs : ∀ f : Fin 10, u.eng[f].st = .spare ↔ s.eng[f].st = .spare)
    (hon : ∀ i, u.islandOn i = s.islandOn i) (hr : u.rotation = s.rotation) : u.spareFor r = s.spareFor r := by
  unfold State.spareFor
  rw [hr, State.pickEngine_congr hs hon]
  simp only [hs]

end

/-! A gated spare is woken. -/

section
variable (s : State) (p : Fin 10)

/-- An island that is gated is woken. -/
def State.wakeGated (k : Nat) : State := if s.islandOn k then s else s.wake k

theorem State.wakeGated_framed (k : Nat) : Framed [.clk] [clkWakeCnt] [] s (s.wakeGated k) := by
  unfold State.wakeGated
  split
  exacts [Framed.refl _ _ _ s, s.wake_framed k]

theorem engineIsland_gateable : ∀ p : Fin 10, gateable.getLsbD (3 + p.val) = true := by decide

/-- The power ramp of a gated engine's island starts. -/
theorem State.wakeGated_ramp {s : State} {p : Fin 10} (h : s.islandOn (3 + p.val) = false) :
    (s.wakeGated (3 + p.val)).clk.ramp.getLsbD (3 + p.val) = true := by
  have off : (s.count clkWakeCnt).islandOn (3 + p.val) = false := by
    rw [State.islandOn, State.count, State.reg_setReg_other _ _ _ _ (by decide)]
    exact h
  unfold State.wakeGated State.wake
  rw [h, if_neg (by decide), if_pos (engineIsland_gateable p)]
  dsimp only
  rw [off, if_neg (by decide), getLsbD_setBit _ (by omega), if_pos rfl]

end

/-! The takeover. -/

section
variable (s : State) (e r p : Fin 10) (rerun : Bool)

/-- The rotations that end with a takeover. -/
def State.rotationsEnded : State := (s.dropRotation p).dropRotationOf r

theorem State.dropRotationOf_framed : Framed [.rotation] [] [] s (s.dropRotationOf r) := by
  rw [State.dropRotationOf_eq]
  exact State.setRotation_framed _ _

theorem State.rotationsEnded_framed : Framed [.rotation] [] [] s (s.rotationsEnded r p) :=
  (s.dropRotation_framed p).trans ((s.dropRotation p).dropRotationOf_framed r)

/-- A spare as it takes over role r's `Inst` from engine e. -/
def State.takenOver : Engine :=
  { freshEngine s.eng[p] s.eng[e] r (s.roleMail r) with takeover := .selected rerun e, svcOwed := true }

/-- An engine takes an `Inst`. -/
def State.bindSpare (x : Engine) (n : Nat) : State :=
  let t := (s.setEng p x).modInst r (bindTo p n)
  { t with bindSeq := t.bindSeq + 1 }

theorem State.setBindSeq_framed (n : Nat) : Framed [.images] [] [] s { s with bindSeq := n } :=
  (Framed.refl _ _ _ s).update (q := .images) (by simp) (fun q hq => by cases q <;> simp_all [Part.same]) rfl rfl rfl

theorem State.bindSpare_framed (x : Engine) (n : Nat) : Framed [.eng, .insts, .images] [] [] s (s.bindSpare r p x n) :=
  ((State.setEng_framed _ p _ _ _ _ (by simp)).trans
    ((State.modInst_framed _ r _).mono (by simp) (List.nil_subset _) (List.nil_subset _))).trans
    ((State.setBindSeq_framed _ _).mono (by simp) (List.nil_subset _) (List.nil_subset _))

theorem State.bindSpare_eng (x : Engine) (n : Nat) : (s.bindSpare r p x n).eng = vset s.eng p x :=
  (State.modInst_framed (s.setEng p x) r _).parts .eng (by simp)

theorem State.bindSpare_inst_same {s : State} {r : Fin 10} (x : Engine) (n : Nat) {i : Inst}
    (hi : s.insts[r] = some i) :
    (s.bindSpare r p x n).insts[r] = some { i with engine := some p, heldSince := n } :=
  State.modInst_same (s := s.setEng p x) _ hi

theorem State.bindSpare_inst_other (x : Engine) (n : Nat) {q : Fin 10} (h : q ≠ r) :
    (s.bindSpare r p x n).insts[q] = s.insts[q] := State.modInst_other (s.setEng p x) r _ h

/-- A takeover up to the wake of a gated spare. -/
def State.boundTo : State :=
  ((s.rotationsEnded r p).moveBindings e p).bindSpare r p (s.takenOver e r p rerun) s.bindSeq

end

section
variable {s : State} {e r p : Fin 10} {rerun : Bool}

theorem State.rotationsEnded_wf (hw : s.storesWf) : (s.rotationsEnded r p).storesWf := hw.dropRotation.dropRotationOf

/-- The state in which the bindings have moved: no engine, `Inst` or mailbox has changed. -/
theorem State.moved_framed (hw : s.storesWf) : Framed [.hold, .rotation] bindingRegs bindingWords s
    ((s.rotationsEnded r p).moveBindings e p) :=
  ((s.rotationsEnded_framed r p).mono (by simp) (List.nil_subset _) (List.nil_subset _)).trans
    ((State.moveBindings_framed e p (State.rotationsEnded_wf hw)).mono (by simp) (List.Subset.refl _)
      (List.Subset.refl _))

theorem State.takeOver_none (h : s.spareFor r = none) : s.takeOver e r rerun = s.stopRole (some r) := by
  unfold State.takeOver
  rw [h]
  rfl

theorem State.takeOver_some (hw : s.storesWf) (h : s.spareFor r = some p) : s.takeOver e r rerun =
    (s.boundTo e r p rerun).wakeGated (3 + p.val) := by
  have spare : ((s.rotationsEnded r p).moveBindings e p).eng = s.eng :=
    (State.moved_framed (e := e) (r := r) (p := p) hw).parts .eng (by simp)
  unfold State.takeOver
  rw [h]
  dsimp only
  unfold State.rotationsEnded at spare
  rw [congrArg (fun v => v[p]) spare]
  rfl

/-- From the bindings moved to the spare bound. -/
theorem State.boundTo_after : Framed [.eng, .insts, .images] [] [] ((s.rotationsEnded r p).moveBindings e p)
    (s.boundTo e r p rerun) := State.bindSpare_framed _ _ _ _ _

theorem State.boundTo_framed (hw : s.storesWf) :
    Framed [.eng, .insts, .images, .hold, .rotation] bindingRegs bindingWords
    s (s.boundTo e r p rerun) :=
  ((State.moved_framed hw).mono (by simp) (List.Subset.refl _) (List.Subset.refl _)).trans
    (State.boundTo_after.mono (by simp) (List.nil_subset _) (List.nil_subset _))

theorem State.boundTo_eng (hw : s.storesWf) : (s.boundTo e r p rerun).eng = vset s.eng p (s.takenOver e r p rerun) := by
  have kept : ((s.rotationsEnded r p).moveBindings e p).eng = s.eng :=
    (State.moved_framed hw).parts .eng (by simp)
  rw [State.boundTo, State.bindSpare_eng, kept]

theorem State.boundTo_inst_same (hw : s.storesWf) {i : Inst} (hi : s.insts[r] = some i) :
    (s.boundTo e r p rerun).insts[r] = some { i with engine := some p, heldSince := s.bindSeq } := by
  have kept : ((s.rotationsEnded r p).moveBindings e p).insts = s.insts :=
    (State.moved_framed hw).parts .insts (by simp)
  exact State.bindSpare_inst_same _ _ _ ((congrArg (fun v => v[r]) kept).trans hi)

theorem State.boundTo_inst_other (hw : s.storesWf) {q : Fin 10} (h : q ≠ r) :
    (s.boundTo e r p rerun).insts[q] = s.insts[q] := by
  have kept : ((s.rotationsEnded r p).moveBindings e p).insts = s.insts :=
    (State.moved_framed hw).parts .insts (by simp)
  exact (State.bindSpare_inst_other _ _ _ _ _ h).trans (congrArg (fun v => v[q]) kept)

/-- The spare reads the old engine's words and grants, which are gone from the old engine. -/
theorem State.boundTo_tab (hw : s.storesWf) (hne : p ≠ e) {sp w : Nat} (hsp : sp ∈ [2, 3, 6]) (hlt : w < 2 ^ 24) :
    (s.boundTo e r p rerun).tab (.pec p) sp w = s.tab (.pec e) sp w ∧
      (s.boundTo e r p rerun).tab (.pec e) sp w = 0 := by
  have after {b : Fin 10} : (s.boundTo e r p rerun).tab (.pec b) sp w =
      ((s.rotationsEnded r p).moveBindings e p).tab (.pec b) sp w := State.boundTo_after.tabs _ List.not_mem_nil
  have before : (s.rotationsEnded r p).tab (.pec e) sp w = s.tab (.pec e) sp w :=
    (s.rotationsEnded_framed r p).tabs _ List.not_mem_nil
  rw [after, after, ← before]
  exact State.moveBindings_tab (State.rotationsEnded_wf hw) hne hsp hlt

theorem State.boundTo_grants (hw : s.storesWf) (hne : p ≠ e) :
    (s.boundTo e r p rerun).reg (pecTtuGrant p.val) = s.reg (pecTtuGrant e.val) ∧
    (s.boundTo e r p rerun).reg (pecTtuGrant e.val) = 0 ∧
    (s.boundTo e r p rerun).reg (pecTcuGrant p.val) = s.reg (pecTcuGrant e.val) ∧
    (s.boundTo e r p rerun).reg (pecTcuGrant e.val) = 0 := by
  have ttu (f : Fin 10) : pecTtuGrant f.val ≠ glbIntCnt := by simp only [pecTtuGrant, glbIntCnt]; omega
  have tcu (f : Fin 10) : pecTcuGrant f.val ≠ glbIntCnt := by simp only [pecTcuGrant, glbIntCnt]; omega
  have after {a : Nat} (ha : a ≠ glbIntCnt) : (s.boundTo e r p rerun).reg a =
      ((s.rotationsEnded r p).moveBindings e p).reg a := State.boundTo_after.regs _ List.not_mem_nil ha
  have before {a : Nat} (ha : a ≠ glbIntCnt) : (s.rotationsEnded r p).reg a = s.reg a :=
    (s.rotationsEnded_framed r p).regs _ List.not_mem_nil ha
  rw [after (ttu p), after (ttu e), after (tcu p), after (tcu e), ← before (ttu e), ← before (tcu e)]
  exact State.moveBindings_grants (State.rotationsEnded_wf hw) hne

end

/-! What a takeover leaves. -/

/-- The registers that a takeover writes. -/
abbrev takeoverRegs : List Nat := clkWakeCnt :: mbxAbortCnt :: (bindingRegs ++ payloadWords)

theorem notMem_takeoverRegs {a : Nat} (hb : a ∉ bindingRegs) (hp : a < 0x1A1000 ∨ 0x1A2000 ≤ a) (hc : a ≠ clkWakeCnt)
    (hm : a ≠ mbxAbortCnt) : a ∉ takeoverRegs :=
  List.not_mem_cons_of_ne_of_not_mem hc (List.not_mem_cons_of_ne_of_not_mem hm
    (List.not_mem_append hb (notMem_payloadWords hp)))

section
variable {s : State} {e r p : Fin 10} {rerun : Bool} (hw : s.storesWf)
include hw

theorem State.takeOver_framed : Framed [.eng, .insts, .images, .hold, .clk, .mbx, .rotation] takeoverRegs bindingWords s
    (s.takeOver e r rerun) := by
  have bindings : bindingRegs ⊆ takeoverRegs := fun a h => List.mem_cons_of_mem _ (List.mem_cons_of_mem _
    (List.mem_append_left _ h))
  have endpoint : endpointRegs ⊆ takeoverRegs := List.cons_subset.2
    ⟨List.mem_cons_of_mem _ List.mem_cons_self, fun a h => List.mem_cons_of_mem _ (List.mem_cons_of_mem _
      (List.mem_append_right _ h))⟩
  cases h : s.spareFor r with
  | none =>
    rw [State.takeOver_none h]
    exact (s.stopRole_framed (some r)).mono (by simp) endpoint (List.nil_subset _)
  | some p =>
    rw [State.takeOver_some hw h]
    exact ((State.boundTo_framed hw).mono (by simp) bindings (List.Subset.refl _)).trans
      ((State.wakeGated_framed _ _).mono (by simp) (List.cons_subset.2 ⟨List.mem_cons_self, List.nil_subset _⟩)
        (List.nil_subset _))

end

end Sys2Proof.Machine
end

section
/-! SUPPORT. What a hard fault leaves, whatever the engine's state (R119, R158, R161, R164). -/

namespace Sys2Proof.Machine

/-! Registers apart. -/

theorem bindingRegs_apart : fltFaultCnt ∉ bindingRegs ∧ clkIslOn ∉ bindingRegs ∧
    ∀ e : Fin 10, pecFault e.val ∉ bindingRegs := by
  decide +kernel

theorem fltFaultCnt_notMem_takeoverRegs : fltFaultCnt ∉ takeoverRegs :=
  notMem_takeoverRegs bindingRegs_apart.1 (.inr (by decide)) (by decide) (by decide)

theorem pecFault_notMem_takeoverRegs (e : Fin 10) : pecFault e.val ∉ takeoverRegs := by
  obtain ⟨-, -, -, hm, hp⟩ := pecFault_apart e
  exact notMem_takeoverRegs (bindingRegs_apart.2.2 e) (.inl hp) (by simp only [pecFault, clkWakeCnt]; omega) hm

/-- The fault log's words are not bindings. -/
theorem flt_notMem_bindingWords {w : Nat} (hw : w < 2 ^ 24) : tabKey (blkIdx .flt) 0 w ∉ bindingWords := by
  intro h
  obtain ⟨e, -, h⟩ := List.mem_flatMap.1 h
  obtain ⟨sp, hsp, h⟩ := List.mem_flatMap.1 h
  obtain ⟨k, hk, h⟩ := List.mem_map.1 h
  have := List.mem_range.1 hk
  have small : sp < 128 := by
    simp only [List.mem_cons, List.not_mem_nil, or_false] at hsp
    omega
  simp only [tabKey, blkIdx] at h
  omega

/-- A state with the fault manager and the fault log of another has logged what that has. -/
theorem Logged.of_same {domain action : Nat} {cause : Byte} {s t u : State} (h : Logged domain cause action s t)
    (hf : u.flt = t.flt) (ht : ∀ w < 2 ^ 24, u.tab .flt 0 w = t.tab .flt 0 w) : Logged domain cause action s u := by
  have small (q : BitVec 16) : q.toNat % 64 * 4 < 2 ^ 24 ∧ q.toNat % 64 * 4 + 1 < 2 ^ 24 := by omega
  unfold Logged at h ⊢
  rw [hf]
  dsimp only at h ⊢
  rw [ht _ (small _).1, ht _ (small _).2]
  exact h

/-! What a takeover leaves. -/

section
variable {s : State} {e r p : Fin 10} {rerun : Bool}

theorem State.takeOver_flt (hw : s.storesWf) : (s.takeOver e r rerun).flt = s.flt :=
  (State.takeOver_framed hw).parts .flt (by simp)

theorem State.takeOver_some_eng (hw : s.storesWf) (h : s.spareFor r = some p) :
    (s.takeOver e r rerun).eng = vset s.eng p (s.takenOver e r p rerun) := by
  rw [State.takeOver_some hw h]
  exact ((State.wakeGated_framed _ _).parts .eng (by simp)).trans (State.boundTo_eng hw)

theorem State.takeOver_none_eng (h : s.spareFor r = none) : (s.takeOver e r rerun).eng = s.eng := by
  rw [State.takeOver_none h]
  exact (s.stopRole_framed _).parts .eng (by simp)

/-- An engine that is no SPARE stays as it is in a takeover. -/
theorem State.takeOver_eng_kept (hw : s.storesWf) {f : Fin 10} (h : s.eng[f].st ≠ .spare) :
    (s.takeOver e r rerun).eng[f] = s.eng[f] := by
  cases hp : s.spareFor r with
  | none => rw [State.takeOver_none_eng hp]
  | some p =>
    have spare := State.spareFor_spare hp
    rw [State.takeOver_some_eng hw hp, getElem_vset_other _ _ fun hf => h (by rw [hf]; exact spare)]

theorem State.takeOver_insts_other (hw : s.storesWf) {q : Fin 10} (h : q ≠ r) :
    (s.takeOver e r rerun).insts[q] = s.insts[q] := by
  cases hp : s.spareFor r with
  | none =>
    rw [State.takeOver_none hp]
    exact State.stopRole_other s fun hq => h (Option.some.inj hq).symm
  | some p =>
    rw [State.takeOver_some hw hp]
    exact (congrArg (fun v => v[q]) ((State.wakeGated_framed _ _).parts .insts (by simp))).trans
      (State.boundTo_inst_other hw h)

end

/-! The fault of an ACTIVE engine, up to the takeover. -/

section
variable (s : State) (e : Fin 10) (bits : Nat)

/-- An ACTIVE engine stopped, its hard fault recorded and reported. -/
def State.faultLatched : State :=
  ((s.setReg (pecFault e.val) (w32 bits)).setEng e (stoppedEngine s.eng[e] .fenced)).fltLatch (Fin.ofNat 37 e.val) 0x01
    (roleInfo s.eng[e]) bits

/-- An ACTIVE engine stopped, up to the report. -/
def State.faultStopped : State := (s.setReg (pecFault e.val) (w32 bits)).setEng e (stoppedEngine s.eng[e] .fenced)

theorem State.faultLatched_eq : s.faultLatched e bits =
    (s.faultStopped e bits).fltLatch (Fin.ofNat 37 e.val) 0x01 (roleInfo s.eng[e]) bits := rfl

theorem State.faultStopped_framed : Framed [.eng] [pecFault e.val] [] s (s.faultStopped e bits) :=
  ((Framed.refl _ _ _ s).setReg _ List.mem_cons_self).trans (State.setEng_framed _ _ _ _ _ _ (by simp))

theorem State.faultLatched_framed : Framed [.eng, .flt] [pecFault e.val, fltFaultCnt, fltPermCnt] faultLogWords s
    (s.faultLatched e bits) :=
  ((s.faultStopped_framed e bits).mono (by simp) (by simp) (List.nil_subset _)).trans
    ((State.fltLatch_framed _ _ _ _ _).mono (by simp) (by simp) (List.Subset.refl _))

theorem State.faultLatched_eng : (s.faultLatched e bits).eng = vset s.eng e (stoppedEngine s.eng[e] .fenced) :=
  (State.fltLatch_framed _ _ _ _ _).parts .eng (by simp)

theorem State.faultLatched_eng_same : (s.faultLatched e bits).eng[e] = stoppedEngine s.eng[e] .fenced := by
  rw [State.faultLatched_eng, getElem_vset_same]

theorem State.faultLatched_eng_other {f : Fin 10} (h : f ≠ e) : (s.faultLatched e bits).eng[f] = s.eng[f] := by
  rw [State.faultLatched_eng, getElem_vset_other _ _ h]

theorem State.faultLatched_islandOn (k : Nat) : (s.faultLatched e bits).islandOn k = s.islandOn k := by
  rw [State.islandOn, (s.faultLatched_framed e bits).regs clkIslOn ?_ (by decide)]
  · rfl
  · simp only [List.mem_cons, List.not_mem_nil, or_false, pecFault, clkIslOn, fltFaultCnt, fltPermCnt]
    omega

section
variable {s : State} (hw : s.storesWf)
include hw

theorem State.faultStopped_wf : (s.faultStopped e bits).storesWf := hw.setReg.setEng

theorem State.faultLatched_wf : (s.faultLatched e bits).storesWf := (State.faultStopped_wf e bits hw).fltLatch

theorem State.faultLatched_reg : (s.faultLatched e bits).reg (pecFault e.val) = w32 bits := by
  obtain ⟨hi, hf, hp, -, -⟩ := pecFault_apart e
  refine ((State.fltLatch_framed _ _ _ _ _).regs _ (by simp [hf, hp]) hi).trans ?_
  exact State.reg_setReg_same _ _ _ (State.storesWf_regs hw)

/-- The report of an engine in service: fenced, counted and logged. -/
theorem State.faultLatched_newly (h : InService e.val s) : NewlyFenced e.val 0x01 s (s.faultLatched e bits) := by
  obtain ⟨hf, hc, hl⟩ := State.fltLatch_engine_newly e 0x01 (roleInfo s.eng[e]) bits (State.faultStopped_wf e bits hw)
    (show InService e.val (s.faultStopped e bits) from h)
  have counter : (s.faultStopped e bits).reg fltFaultCnt = s.reg fltFaultCnt :=
    (s.faultStopped_framed e bits).regs _ (by simpa using (pecFault_apart e).2.1.symm) (by decide)
  exact ⟨hf, hc.trans (congrArg (· + 1) counter), hl.of_flt rfl⟩

end

/-- The choice of a spare goes by the state before an ACTIVE engine's fault. -/
theorem State.faultLatched_spareFor {s : State} {e : Fin 10} (ha : s.eng[e].st = .active) (r : Fin 10) :
    (s.faultLatched e bits).spareFor r = s.spareFor r := by
  refine State.spareFor_congr (fun f => ?_) (s.faultLatched_islandOn e bits)
    ((s.faultLatched_framed e bits).parts .rotation (by simp))
  by_cases hf : f = e
  · subst hf
    rw [State.faultLatched_eng_same, ha]
    simp [stoppedEngine]
  · rw [State.faultLatched_eng_other _ _ _ hf]

/-- The takeover of the `Inst` of an engine's role, if it has one. -/
def State.takeOverRole (s : State) (e : Fin 10) (role : Option (Fin 10)) (rerun : Bool) : State :=
  match role with
  | some r => s.takeOver e r rerun
  | none => s

theorem State.fenceEngine_active {s : State} {e : Fin 10} (ha : s.eng[e].st = .active) (cause i8 : Byte) (i16 : Nat) :
    s.fenceEngine e cause i8 i16 =
      ((s.setEng e (stoppedEngine s.eng[e] .fenced)).fltLatch (Fin.ofNat 37 e.val) cause i8 i16).takeOverRole e
        s.eng[e].role (rerunOwed s.eng[e]) := by
  unfold State.fenceEngine
  dsimp only
  rw [ha]
  rfl

/-- The hard fault of an ACTIVE engine: its report, then the takeover of its `Inst`. -/
theorem State.hardFaultBits_active {s : State} {e : Fin 10} (ha : s.eng[e].st = .active)
    (hon : s.islandOn (3 + e.val) = true) : s.hardFaultBits e bits =
      (s.faultLatched e bits).takeOverRole e s.eng[e].role (rerunOwed s.eng[e]) := by
  rw [State.hardFaultBits_eq bits (by rw [ha]; decide) (by rw [ha]; decide) hon]
  exact State.fenceEngine_active (s := s.setReg (pecFault e.val) (w32 bits)) ha _ _ _

end

/-! A hard fault. -/

section
variable {s : State} {e : Fin 10} (bits : Nat)

theorem State.fenceStop_spare_insts (h : s.eng[e].st = .spare) : (s.fenceStop e).insts = s.insts := by
  unfold State.fenceStop
  rw [h]
  exact (State.dropRotation_framed _ e).parts .insts (by simp)

theorem State.hardFaulted_idle (hw : s.storesWf) (hf : s.eng[e].st ≠ .fenced) (ho : s.eng[e].st ≠ .off)
    (ha : s.eng[e].st ≠ .active) (hon : s.islandOn (3 + e.val) = true) :
    HardFaulted e bits s (s.hardFaultBits e bits) := by
  have eng := State.hardFaultBits_idle_eng bits hf ho ha hon
  have here : (s.hardFaultBits e bits).eng[e] = { stoppedEngine s.eng[e] .fenced with role := keptRole s.eng[e] } := by
    rw [eng, getElem_vset_same]
  have other (f : Fin 10) (h : f ≠ e) : (s.hardFaultBits e bits).eng[f] = s.eng[f] := by
    rw [eng, getElem_vset_other _ _ h]
  obtain ⟨hi, hc, hp, hm, hb⟩ := pecFault_apart e
  obtain ⟨u, hu⟩ : ∃ u, u = s.setReg (pecFault e.val) (w32 bits) := ⟨_, rfl⟩
  obtain ⟨i8, i16, h⟩ := State.hardFaultBits_idle bits hf ho ha hon
  rw [← hu] at h
  have stopped := u.fenceStop_framed e
  refine ⟨?_, ?_, fun perm => ?_, fun spare => ⟨?_, other, ?_⟩, fun debug => ⟨?_, other⟩⟩
  · rw [h, (State.fltLatch_framed _ _ _ _ _).regs _ (by simp [hc, hp]) hi,
      stopped.regs _ (List.not_mem_cons_of_ne_of_not_mem hm (notMem_payloadWords (.inl hb))) hi, hu]
    exact State.reg_setReg_same _ _ _ (State.storesWf_regs hw)
  · rw [here]
    rfl
  · have flt : (u.fenceStop e).flt = s.flt := (stopped.parts .flt (by simp)).trans (by rw [hu]; rfl)
    rw [h]
    exact State.fltLatch_engine_fenced e _ _ _ (by rw [flt, perm])
  · rw [here, keptRole, if_neg (by rw [spare]; decide)]
    rfl
  · rw [h, (State.fltLatch_framed _ _ _ _ _).parts .insts (by simp),
      State.fenceStop_spare_insts (by rw [hu]; exact spare), hu]
    rfl
  · rw [here, keptRole, if_pos debug]

theorem State.takeOverRole_eng_kept {s : State} {e f : Fin 10} (hw : s.storesWf) (h : s.eng[f].st ≠ .spare)
    (role : Option (Fin 10)) (rerun : Bool) : (s.takeOverRole e role rerun).eng[f] = s.eng[f] := by
  cases role with
  | none => rfl
  | some r => exact State.takeOver_eng_kept hw h

theorem State.takeOverRole_framed {s : State} {e : Fin 10} (hw : s.storesWf) (role : Option (Fin 10)) (rerun : Bool) :
    Framed [.eng, .insts, .images, .hold, .clk, .mbx, .rotation] takeoverRegs bindingWords s
      (s.takeOverRole e role rerun) := by
  cases role with
  | none => exact Framed.refl _ _ _ s
  | some r => exact State.takeOver_framed hw

theorem State.hardFaulted_active (hw : s.storesWf) (ha : s.eng[e].st = .active) (hon : s.islandOn (3 + e.val) = true) :
    HardFaulted e bits s (s.hardFaultBits e bits) := by
  have wf := State.faultLatched_wf e bits hw
  have latched := s.faultLatched_eng_same e bits
  rw [State.hardFaultBits_active bits ha hon]
  have moved := State.takeOverRole_framed (e := e) wf s.eng[e].role (rerunOwed s.eng[e])
  refine ⟨?_, ?_, fun perm => ?_, fun spare => ?_, fun debug => ?_⟩
  · exact (moved.regs _ (pecFault_notMem_takeoverRegs e) (pecFault_apart e).1).trans (State.faultLatched_reg e bits hw)
  · rw [State.takeOverRole_eng_kept wf (by rw [latched]; simp [stoppedEngine]), latched]
    rfl
  · rw [State.fenced, moved.parts .flt (by simp)]
    exact State.fltLatch_engine_fenced e _ _ _ perm
  · exact absurd (ha.symm.trans spare) (by decide)
  · exact absurd (ha.symm.trans debug) (by decide)

/-- A hard fault of an engine that is powered and neither OFF nor FENCED. -/
theorem State.hardFaulted (hw : s.storesWf) (hf : s.eng[e].st ≠ .fenced) (ho : s.eng[e].st ≠ .off)
    (hon : s.islandOn (3 + e.val) = true) : HardFaulted e bits s (s.hardFaultBits e bits) := by
  by_cases ha : s.eng[e].st = .active
  · exact State.hardFaulted_active bits hw ha hon
  · exact State.hardFaulted_idle bits hw hf ho ha hon

/-- The registers that a hard fault writes. -/
abbrev hardFaultRegs (e : Fin 10) : List Nat := pecFault e.val :: fltFaultCnt :: fltPermCnt :: takeoverRegs

theorem State.hardFaultBits_regs (hw : s.storesWf) (hf : s.eng[e].st ≠ .fenced) (ho : s.eng[e].st ≠ .off)
    (hon : s.islandOn (3 + e.val) = true) {a : Nat} (h : a ∉ hardFaultRegs e) (hi : a ≠ glbIntCnt) :
    (s.hardFaultBits e bits).reg a = s.reg a := by
  obtain ⟨hp, h⟩ := List.ne_and_not_mem_of_not_mem_cons h
  obtain ⟨hc, h⟩ := List.ne_and_not_mem_of_not_mem_cons h
  obtain ⟨hq, h⟩ := List.ne_and_not_mem_of_not_mem_cons h
  by_cases ha : s.eng[e].st = .active
  · rw [State.hardFaultBits_active bits ha hon,
      (State.takeOverRole_framed (State.faultLatched_wf e bits hw) _ _).regs _ h hi,
      (s.faultLatched_framed e bits).regs _ (by simp [hp, hc, hq]) hi]
  · obtain ⟨i8, i16, run⟩ := State.hardFaultBits_idle bits hf ho ha hon
    have endpoint : a ∉ endpointRegs := by
      obtain ⟨-, h⟩ := List.ne_and_not_mem_of_not_mem_cons h
      obtain ⟨hm, h⟩ := List.ne_and_not_mem_of_not_mem_cons h
      exact List.not_mem_cons_of_ne_of_not_mem hm fun hin => h (List.mem_append_right _ hin)
    rw [run, (State.fltLatch_framed _ _ _ _ _).regs _ (by simp [hc, hq]) hi,
      (State.fenceStop_framed _ e).regs _ endpoint hi]
    exact State.reg_setReg_other _ _ _ _ hp

theorem pec_notMem_faultLogWords {sp w : Nat} (hsp : sp < 128) (hlt : w < 2 ^ 24) :
    tabKey (blkIdx (.pec e)) sp w ∉ faultLogWords := by
  intro h
  obtain ⟨k, hk, h⟩ := List.mem_map.1 h
  have := List.mem_range.1 hk
  simp only [tabKey, blkIdx] at h
  omega

/-- The report of an engine in service counts in FLT_FAULT_CNT alone. -/
theorem State.faultLatched_serving (h : InService e.val s) :
    Framed [.eng, .flt] [pecFault e.val, fltFaultCnt] faultLogWords s (s.faultLatched e bits) := by
  obtain ⟨hf, hp, ht⟩ := h
  obtain ⟨u, hu⟩ : ∃ u, u = s.faultStopped e bits := ⟨_, rfl⟩
  have flt : u.flt = s.flt := by rw [hu]; rfl
  have serves : (u.flt.fenced.getLsbD (Fin.ofNat 37 e.val).val || u.flt.testing.getLsbD (Fin.ofNat 37 e.val).val) =
      false := by
    rw [fin37_val, flt]
    exact Bool.or_eq_false_iff.2 ⟨hf, ht⟩
  have first := (s.faultStopped_framed e bits).mono (ps' := [.eng, .flt]) (rs' := [pecFault e.val, fltFaultCnt])
    (ts' := faultLogWords) (by simp) (by simp) (List.nil_subset _)
  rw [State.faultLatched_eq]
  rw [← hu] at first ⊢
  refine first.trans ?_
  rw [State.fltLatch, State.permFenced_engine, flt, hp, if_neg (by decide), ← flt, serves, if_neg (by decide)]
  exact (((u.fltLog_framed _ _ _ _ _).mono (by simp) (List.nil_subset _) (List.Subset.refl _)).count (by simp)).setFlt
    (by simp) _

theorem State.handedOver (hw : s.storesWf) (ha : s.eng[e].st = .active) (hon : s.islandOn (3 + e.val) = true)
    {r : Fin 10} {i : Inst} (hr : s.eng[e].role = some r) (hi : s.insts[r] = some i) (hs : InService e.val s) :
    HandedOver e r i bits s (s.hardFaultBits e bits) := by
  obtain ⟨v, hv⟩ : ∃ v, v = s.faultLatched e bits := ⟨_, rfl⟩
  have run : s.hardFaultBits e bits = v.takeOver e r (rerunOwed s.eng[e]) := by
    rw [State.hardFaultBits_active bits ha hon, hr, hv]
    rfl
  have wf : v.storesWf := hv ▸ State.faultLatched_wf e bits hw
  have latched : Framed [.eng, .flt] [pecFault e.val, fltFaultCnt, fltPermCnt] faultLogWords s v :=
    hv ▸ s.faultLatched_framed e bits
  have here : v.eng[e] = stoppedEngine s.eng[e] .fenced := by rw [hv]; exact s.faultLatched_eng_same e bits
  have other (f : Fin 10) (h : f ≠ e) : v.eng[f] = s.eng[f] := by rw [hv]; exact s.faultLatched_eng_other e bits h
  have idle : v.eng[e].st ≠ .spare := by rw [here]; simp [stoppedEngine]
  have choice : v.spareFor r = s.spareFor r := by rw [hv]; exact State.faultLatched_spareFor bits ha r
  have inst : v.insts = s.insts := latched.parts .insts (by simp)
  have moved := State.takeOver_framed (e := e) (r := r) (rerun := rerunOwed s.eng[e]) wf
  obtain ⟨fenced, counted, logged⟩ : NewlyFenced e.val 0x01 s v := hv ▸ State.faultLatched_newly e bits hw hs
  rw [run]
  unfold HandedOver
  refine ⟨?fault, ?stopped, ?fence, ?count, ?log, fun p hp => ?spare, fun hp => ?none, fun q hq => ?insts, ?frame⟩
  case fault =>
    refine (moved.regs _ (pecFault_notMem_takeoverRegs e) (pecFault_apart e).1).trans ?_
    rw [hv]
    exact State.faultLatched_reg e bits hw
  case stopped => rw [State.takeOver_eng_kept wf idle, here]
  case fence => rwa [State.fenced, State.takeOver_flt wf]
  case count => exact (moved.regs _ fltFaultCnt_notMem_takeoverRegs (by decide)).trans counted
  case log => exact logged.of_same (State.takeOver_flt wf) fun w hlt => moved.tabs _ (flt_notMem_bindingWords hlt)
  case none =>
    rw [← choice] at hp
    refine ⟨?_, fun f hf => ?_⟩
    · rw [State.takeOver_none hp]
      exact State.stopRole_same ((congrArg (fun l => l[r]) inst).trans hi)
    · rw [State.takeOver_none_eng hp]
      exact other f hf
  case insts =>
    rw [State.takeOver_insts_other wf hq]
    exact congrArg (fun l => l[q]) inst
  case spare =>
    rw [← choice] at hp
    have hne : p ≠ e := fun h => idle (by rw [← h]; exact State.spareFor_spare hp)
    have bound := State.boundTo_framed (e := e) (r := r) (p := p) (rerun := rerunOwed s.eng[e]) wf
    have eng := State.takeOver_some_eng (e := e) (rerun := rerunOwed s.eng[e]) wf hp
    have island : (v.boundTo e r p (rerunOwed s.eng[e])).islandOn (3 + p.val) = s.islandOn (3 + p.val) := by
      rw [State.islandOn, bound.regs _ bindingRegs_apart.2.1 (by decide), hv]
      exact s.faultLatched_islandOn e bits _
    have words {sp w : Nat} (hsp : sp ∈ [2, 3, 6]) (hlt : w < 256) :=
      State.boundTo_tab (r := r) (rerun := rerunOwed s.eng[e]) wf hne hsp (show w < 2 ^ 24 by omega)
    have grants := State.boundTo_grants (r := r) (rerun := rerunOwed s.eng[e]) wf hne
    have reads {a : Nat} (h : a ∈ [pecTtuGrant e.val, pecTcuGrant e.val]) : v.reg a = s.reg a := by
      simp only [List.mem_cons, List.not_mem_nil, or_false] at h
      refine latched.regs _ ?_ ?_ <;>
        simp only [List.mem_cons, List.not_mem_nil, or_false, pecFault, pecTtuGrant, pecTcuGrant, fltFaultCnt,
          fltPermCnt,
          glbIntCnt] at h ⊢ <;> omega
    have woken := State.wakeGated_framed (v.boundTo e r p (rerunOwed s.eng[e])) (3 + p.val)
    rw [reads List.mem_cons_self, reads (List.mem_cons_of_mem _ List.mem_cons_self)] at grants
    obtain ⟨g1, g2, g3, g4⟩ := grants
    have granted {a : Nat} (h : a ≠ clkWakeCnt) (h' : a ≠ glbIntCnt) := woken.regs a (by simpa using h) h'
    refine ⟨?_, ?_, ?_, ?_, ?_, ?_, fun f hf hfp => ?_, fun sp hsp w hlt => ?_, ?_, ?_, ?_, ?_, fun hoff => ?_⟩
    · rw [State.takeOver_some wf hp, woken.parts .insts (by simp)]
      have turn : v.bindSeq = s.bindSeq := (latched.parts .images (by simp)).2
      rw [State.boundTo_inst_same wf ((congrArg (fun l => l[r]) inst).trans hi), turn]
    · rw [eng, getElem_vset_same]; rfl
    · rw [eng, getElem_vset_same]; rfl
    · rw [eng, getElem_vset_same]; rfl
    · rw [eng, getElem_vset_same]; rfl
    · rw [eng, getElem_vset_same]; rfl
    · rw [eng, getElem_vset_other _ _ hfp]
      exact other f hf
    · have small : sp < 128 := by
        simp only [List.mem_cons, List.not_mem_nil, or_false] at hsp
        omega
      have kept (b : Fin 10) : (v.takeOver e r (rerunOwed s.eng[e])).tab (.pec b) sp w =
          (v.boundTo e r p (rerunOwed s.eng[e])).tab (.pec b) sp w := by
        rw [State.takeOver_some wf hp]
        exact woken.tabs _ List.not_mem_nil
      rw [kept, kept, (words hsp hlt).1, (words hsp hlt).2]
      exact ⟨latched.tabs _ (pec_notMem_faultLogWords small (by omega)), rfl⟩
    · rw [State.takeOver_some wf hp, granted (by simp only [pecTtuGrant, clkWakeCnt]; omega)
        (by simp only [pecTtuGrant, glbIntCnt]; omega), g1]
    · rw [State.takeOver_some wf hp, granted (by simp only [pecTtuGrant, clkWakeCnt]; omega)
        (by simp only [pecTtuGrant, glbIntCnt]; omega), g2]
    · rw [State.takeOver_some wf hp, granted (by simp only [pecTcuGrant, clkWakeCnt]; omega)
        (by simp only [pecTcuGrant, glbIntCnt]; omega), g3]
    · rw [State.takeOver_some wf hp, granted (by simp only [pecTcuGrant, clkWakeCnt]; omega)
        (by simp only [pecTcuGrant, glbIntCnt]; omega), g4]
    · rw [State.takeOver_some wf hp]
      exact State.wakeGated_ramp (island.trans hoff)
  case frame =>
    have serving : Framed [.eng, .flt] [pecFault e.val, fltFaultCnt] faultLogWords s v :=
      hv ▸ State.faultLatched_serving bits hs
    refine (serving.mono (by simp) ?_ (List.subset_append_left _ _)).trans
      (moved.mono (by simp) ?_ (List.subset_append_right _ _))
    · generalize payloadWords = l, bindingRegs = l'
      simp
    · rw [takeoverRegs]
      generalize payloadWords = l, bindingRegs = l'
      intro a
      simp only [List.mem_cons, List.mem_append]
      tauto

end

end Sys2Proof.Machine
end

section
/-! PROOFS. Kernel cycle starts, the watchdog, retries and hard faults (R106, R109, R112, R117-R119, R155, R158). -/

namespace Sys2Proof.Machine

/-! What a hard fault leaves, with its interrupt causes raised. -/

section
variable {s t : State} {e r : Fin 10} {i : Inst} {bits : Nat}

theorem HardFaulted.settled (h : HardFaulted e bits s t) (base : State) : HardFaulted e bits s (settle base t) := by
  obtain ⟨fault, st, fence, spare, debug⟩ := h
  have eng : (settle base t).eng = t.eng := settle_part base t .eng
  have insts : (settle base t).insts = t.insts := settle_part base t .insts
  unfold HardFaulted State.fenced
  rw [settle_reg _ _ _ (pecFault_apart e).1, settle_flt, eng, insts]
  exact ⟨fault, st, fence, spare, debug⟩

theorem HandedOver.settled (h : HandedOver e r i bits s t) : HandedOver e r i bits s (settle s t) := by
  obtain ⟨fault, stopped, fence, count, log, spare, none_, insts_, frame⟩ := h
  have eng : (settle s t).eng = t.eng := settle_part s t .eng
  have insts : (settle s t).insts = t.insts := settle_part s t .insts
  have ttu (f : Fin 10) : pecTtuGrant f.val ≠ glbIntCnt := by simp only [pecTtuGrant, glbIntCnt]; omega
  have tcu (f : Fin 10) : pecTcuGrant f.val ≠ glbIntCnt := by simp only [pecTcuGrant, glbIntCnt]; omega
  refine ⟨?_, ?_, ?_, ?_, log.settled s, fun p hp => ?_, ?_, ?_, framed_settle frame⟩
  · rw [settle_reg _ _ _ (pecFault_apart e).1, fault]
  · rw [eng, stopped]
  · rw [State.fenced, settle_flt]
    exact fence
  · rw [settle_reg _ _ _ (by decide), count]
  · simp only [settle_tab]
    rw [eng, insts, settle_clk, settle_reg _ _ _ (ttu p), settle_reg _ _ _ (ttu e), settle_reg _ _ _ (tcu p),
      settle_reg _ _ _ (tcu e)]
    exact spare p hp
  · rw [eng, insts]
    exact none_
  · rw [insts]
    exact insts_

/-- A hard fault at an overrun is one of the state in which the overrun has counted. -/
theorem HandedOver.of_count (h : HandedOver e r i bits (s.count (pecKovrCnt e.val)) t) : HandedOver e r i bits s t := by
  obtain ⟨fault, stopped, fence, count, log, spare, none_, insts, frame⟩ := h
  have other {a : Nat} (h : a ≠ pecKovrCnt e.val) : (s.count (pecKovrCnt e.val)).reg a = s.reg a :=
    State.reg_setReg_other _ _ _ _ h
  have island (k : Nat) : (s.count (pecKovrCnt e.val)).islandOn k = s.islandOn k := by
    rw [State.islandOn, other (by simp only [clkIslOn, pecKovrCnt]; omega)]
    rfl
  have choice : (s.count (pecKovrCnt e.val)).spareFor r = s.spareFor r :=
    State.spareFor_congr (fun _ => Iff.rfl) island rfl
  rw [choice] at spare none_
  rw [other (by simp only [pecTtuGrant, pecKovrCnt]; omega),
    other (by simp only [pecTcuGrant, pecKovrCnt]; omega)] at spare
  refine ⟨fault, stopped, fence, ?_, log, fun p hp => ?_, none_, insts, ?_⟩
  · rw [count, other (by simp only [fltFaultCnt, pecKovrCnt]; omega)]
  · have := spare p hp
    rw [island] at this
    exact this
  · refine (((Framed.refl _ _ _ s).count ?_)).trans frame
    rw [List.cons_append, List.cons_append]
    exact List.mem_cons_of_mem _ List.mem_cons_self

end

/-! Commands that end in a hard fault. -/

section
variable {s : State} {e : Fin 10} {bits : Nat} {c : Instr}

/-- A command of an engine ends in a hard fault: it is FENCED, and an ACTIVE one hands its `Inst` over. -/
def Faults (c : Instr) (e : Fin 10) (bits : Nat) (s : State) : Prop :=
  (Ends c s fun t => HardFaulted e bits s t) ∧
    (∀ r i, s.eng[e].st = .active → s.eng[e].role = some r → s.insts[r] = some i → s.fenced e.val = false →
      s.flt.perm.getLsbD e.val = false → s.flt.testing.getLsbD e.val = false →
        Ends c s fun t => HandedOver e r i bits s t)

theorem faults_of_commit (hc : exec c s = commit s (s.hardFaultBits e bits)) (hw : s.storesWf)
    (hf : s.eng[e].st ≠ .fenced) (ho : s.eng[e].st ≠ .off) (hon : s.islandOn (3 + e.val) = true) : Faults c e bits s :=
  ⟨ends_of_commit hc ((State.hardFaulted bits hw hf ho hon).settled s), fun _ _ ha hr hi hs hp ht =>
    ends_of_commit hc (State.handedOver bits hw ha hon hr hi ⟨hs, hp, ht⟩).settled⟩

end

/-! Kernel cycle starts. -/

section
variable {s : State} {e : Fin 10}

theorem exec_kernelCycleStart (hon : s.islandOn (3 + e.val) = true) :
    exec (.kernelCycleStart e) s = commit s (s.kernelStart e false) := by
  show commit s (if s.islandOn (3 + e.val) then _ else s) = _
  rw [if_pos hon]

theorem pecKovrCnt_apart : ∀ e : Fin 10, pecKovrCnt e.val ≠ glbIntCnt ∧ pecKovrCnt e.val ∉ bindingRegs ∧
    pecKovrCnt e.val ≠ pecFault e.val ∧ pecKovrCnt e.val ≠ fltFaultCnt ∧ pecKovrCnt e.val ≠ fltPermCnt ∧
    pecKovrCnt e.val ≠ clkWakeCnt ∧ pecKovrCnt e.val ≠ mbxAbortCnt ∧ pecKovrCnt e.val < 0x1A1000 := by decide +kernel

theorem pecKovrCnt_notMem_hardFaultRegs (e : Fin 10) : pecKovrCnt e.val ∉ hardFaultRegs e := by
  obtain ⟨-, hb, hp, hc, hq, hk, hm, hlt⟩ := pecKovrCnt_apart e
  exact List.not_mem_cons_of_ne_of_not_mem hp (List.not_mem_cons_of_ne_of_not_mem hc
    (List.not_mem_cons_of_ne_of_not_mem hq (notMem_takeoverRegs hb (.inl hlt) hk hm)))

/-- A start that the engine cannot take counts alone. -/
theorem ends_overrunCounted (hw : s.storesWf) (hon : s.islandOn (3 + e.val) = true)
    (h : s.kernelStart e false = s.count (pecKovrCnt e.val)) :
    Ends (.kernelCycleStart e) s fun t => t.reg (pecKovrCnt e.val) = s.reg (pecKovrCnt e.val) + 1 ∧
      Framed [] [pecKovrCnt e.val] [] s t := by
  refine ends_of_commit (by rw [exec_kernelCycleStart hon, h])
    ⟨?_, framed_settle ((Framed.refl _ _ _ s).count (by simp))⟩
  rw [settle_reg _ _ _ (pecKovrCnt_apart e).1]
  exact State.reg_setReg_same _ _ _ (State.storesWf_regs hw)

theorem Heeds.not_fenced (h : Heeds e s) : s.eng[e].st ≠ .fenced ∧ s.eng[e].st ≠ .off := by
  obtain hs | hs := h.st <;> rw [hs] <;> decide

section
variable (hw : s.storesWf) (h : Heeds e s) (hon : s.islandOn (3 + e.val) = true) (hh : s.eng[e].halted = false)
include hw h hon hh

/-- A start while the kernel runs counts, and is a hard fault (R112). -/
theorem ends_overrun (hk : s.eng[e].kern ≠ .idle) :
    (Ends (.kernelCycleStart e) s fun t => t.reg (pecKovrCnt e.val) = s.reg (pecKovrCnt e.val) + 1) ∧
      Faults (.kernelCycleStart e) e 16 s := by
  obtain ⟨hf, ho⟩ := h.not_fenced
  obtain ⟨u, hu⟩ : ∃ u, u = s.count (pecKovrCnt e.val) := ⟨_, rfl⟩
  have wf : u.storesWf := hu ▸ hw.count
  have on : u.islandOn (3 + e.val) = true := by
    rw [hu, State.islandOn, State.count, State.reg_setReg_other _ _ _ _ (by simp only [clkIslOn, pecKovrCnt]; omega)]
    exact hon
  have hf' : u.eng[e].st ≠ .fenced := by rw [hu]; exact hf
  have ho' : u.eng[e].st ≠ .off := by rw [hu]; exact ho
  have run : exec (.kernelCycleStart e) s = commit s (u.hardFaultBits e 16) := by
    rw [exec_kernelCycleStart hon, h.kernelStart_overrun hh hk, hu]
  refine ⟨ends_of_commit run ?_, ends_of_commit run ?_, fun r i ha hr hi hs hp ht => ends_of_commit run ?_⟩
  · rw [settle_reg _ _ _ (pecKovrCnt_apart e).1,
      State.hardFaultBits_regs 16 wf hf' ho' on (pecKovrCnt_notMem_hardFaultRegs e) (pecKovrCnt_apart e).1, hu]
    exact State.reg_setReg_same _ _ _ (State.storesWf_regs hw)
  · have faulted := (State.hardFaulted 16 wf hf' ho' on).settled s
    rw [hu] at faulted ⊢
    exact faulted
  · refine HandedOver.settled (HandedOver.of_count ?_)
    rw [← hu]
    exact State.handedOver 16 wf (by rw [hu]; exact ha) on (by rw [hu]; exact hr) (by rw [hu]; exact hi)
      (by rw [hu]; exact ⟨hs, hp, ht⟩)

end

/-- A start that a halted engine holds. -/
theorem ends_held (h : Heeds e s) (hon : s.islandOn (3 + e.val) = true) (hh : s.eng[e].halted = true)
    (hs : s.eng[e].heldStart = false) :
    Ends (.kernelCycleStart e) s fun t => EngineIs e { s.eng[e] with heldStart := true } s t ∧
      Framed [.eng] [] [] s t :=
  ends_setEng s e _ (by rw [exec_kernelCycleStart hon, h.kernelStart_held hh hs])

end

/-! A start that is taken. -/

section
variable {s : State} {e : Fin 10}

/-- The `Inst` of an engine that starts: its gate closes, and a swap takes its update. -/
theorem startedInst_eq (x : Engine) (i : Inst) : startedInst x false i = { i with
    gate := false
    due := false
    handle := if x.swapPend then i.update.getD i.handle else i.handle
    update := if x.swapPend then none else i.update } := by
  unfold startedInst
  cases i.update <;> cases x.swapPend <;> rfl

theorem State.started_bank_of_swap (h : s.eng[e].swapPend = true) :
    (s.started e false).bank = !s.eng[e].bank ∧ (s.started e false).s.pc = 0x10 := by
  have swapped : swapBanks s.eng[e] = _ := if_pos h
  have bank : (s.started e false).bank = (fromLead (swapBanks s.eng[e])).bank := rfl
  have ctx : (s.started e false).s = (fromLead (swapBanks s.eng[e])).s := rfl
  rw [bank, ctx, fromLead_bank, fromLead_s, swapped]
  exact ⟨rfl, rfl⟩

theorem State.started_bank_of_not (h : s.eng[e].swapPend = false) :
    (s.started e false).bank = s.eng[e].bank ∧ (s.started e false).s = s.eng[e].s := by
  have bank : (s.started e false).bank = (fromLead (swapBanks s.eng[e])).bank := rfl
  have ctx : (s.started e false).s = (fromLead (swapBanks s.eng[e])).s := rfl
  rw [bank, ctx, fromLead_bank, fromLead_s, swapBanks_of_not h]
  exact ⟨rfl, rfl⟩

theorem State.started_cyc_of_none (h : s.eng[e].lead = none) : (s.started e false).cyc = s.eng[e].cyc + 1 := by
  have cyc : (s.started e false).cyc = (fromLead (swapBanks s.eng[e])).cyc + 1 := rfl
  rw [cyc, fromLead_of_none (by rw [swapBanks_lead, h]), swapBanks_cyc]

theorem State.started_cyc_of_some {c : Word × List Word} (h : s.eng[e].lead = some c) :
    (s.started e false).cyc = c.1 + 1 ∧ (s.started e false).lead = none := by
  have cyc : (s.started e false).cyc = (fromLead (swapBanks s.eng[e])).cyc + 1 := rfl
  have lead : (s.started e false).lead = (fromLead (swapBanks s.eng[e])).lead := rfl
  rw [cyc, lead, fromLead_of_some (by rw [swapBanks_lead, h])]
  exact ⟨rfl, rfl⟩

end

/-! The watchdog. -/

section
variable {s : State} {e : Fin 10}

/-- The watchdog of a running engine expires in the cycle to come. -/
def Expires (e : Fin 10) (s : State) : Prop :=
  s.engLive e = true ∧ ∃ n, s.eng[e].kCount = some n ∧ s.eng[e].wdog.toNat < n + 1

theorem expires_iff : Expires e s ↔ (s.engLive e && wdogExpired (tickEngine s.eng[e])) = true := by
  have count : (tickEngine s.eng[e]).kCount = s.eng[e].kCount.map (· + 1) := rfl
  have wdog : (tickEngine s.eng[e]).wdog = s.eng[e].wdog := rfl
  unfold Expires wdogExpired
  rw [Bool.and_eq_true, count, wdog]
  cases s.eng[e].kCount with
  | none => simp
  | some n => simp

theorem doWatchdogExpire_of_not (h : ¬ Expires e s) : doWatchdogExpire e s = s := if_neg fun hx => h (expires_iff.2 hx)

theorem doWatchdogExpire_of (h : Expires e s) : doWatchdogExpire e s = s.wdogFault e none := if_pos (expires_iff.1 h)

/-- The program fault that the context whose turn it is meets in the cycle to come, 0 for none. -/
def Meets (e : Fin 10) (f : Nat) (s : State) : Prop :=
  (f = 0 ∧ ∀ v, s.issuer e = some v → s.issueFault e v none = 0) ∨
    (∃ v, s.issuer e = some v ∧ s.issueFault e v none = f)

theorem Meets.wdogFault {f : Nat} (h : Meets e f s) :
    s.wdogFault e none = if f ≠ 0 then s.programFault e f 32 else s.hardFaultBits e 32 := by
  unfold State.wdogFault
  extract_lets g
  have same : g = f := by
    unfold g
    obtain ⟨rfl, h⟩ | ⟨v, hv, hf⟩ := h
    · cases hi : s.issuer e with
      | none => rfl
      | some v => exact h v hi
    · rw [hv]
      exact hf
  rw [same]
  rfl

theorem Expires.powered (h : Expires e s) :
    s.islandOn (3 + e.val) = true ∧ s.eng[e].st ≠ .fenced ∧ s.eng[e].st ≠ .off := by
  obtain ⟨live, -⟩ := h
  unfold State.engLive at live
  obtain ⟨hs, hon⟩ := Bool.and_eq_true_iff.1 live
  refine ⟨hon, ?_⟩
  obtain hs | hs := (Bool.or_eq_true_iff.1 hs).imp of_decide_eq_true of_decide_eq_true <;> rw [hs] <;> decide

theorem faults_watchdog (hw : s.storesWf) (h : Expires e s) (hm : Meets e 0 s) : Faults (.watchdogExpire e) e 32 s := by
  obtain ⟨hon, hf, ho⟩ := h.powered
  refine faults_of_commit ?_ hw hf ho hon
  show commit s (doWatchdogExpire e s) = _
  rw [doWatchdogExpire_of h, hm.wdogFault, if_neg (by decide)]

/-- A program fault met in the cycle is recorded beside the watchdog's bit (R146). -/
theorem ends_watchdogBeside (hw : s.storesWf) (h : Expires e s) {f : Nat} (hf : f ≠ 0) (hm : Meets e f s) :
    Ends (.watchdogExpire e) s fun t => t.reg (pecFault e.val) = w32 (256 * f + 33) ∧ t.eng[e].st = .fenced ∧
      t.eng[e].role = none ∧ (s.flt.perm.getLsbD e.val = false → t.fenced e.val = true) := by
  have eng : (settle s (s.programFault e f 32)).eng[e] = stoppedEngine s.eng[e] .fenced := by
    rw [show (settle s (s.programFault e f 32)).eng = _ from
      (settle_part s _ .eng).trans (State.programFault_eng s e f 32), getElem_vset_same]
  refine ends_of_commit (u := s.programFault e f 32) ?_ ⟨?_, ?_, ?_, fun perm => ?_⟩
  · show commit s (doWatchdogExpire e s) = _
    rw [doWatchdogExpire_of h, hm.wdogFault, if_pos hf]
  · rw [settle_reg _ _ _ (pecFault_apart e).1, State.programFault_reg s e f 32 hw]
  · rw [eng]
    rfl
  · rw [eng]
    rfl
  · rw [State.fenced, settle_flt]
    exact State.programFault_fenced e f 32 perm

end

/-! Retries (R118). -/

section
variable {s : State} {e : Fin 10} {svc : Bool}

theorem doMoveRetry_of (hf : s.eng[e].st ≠ .fenced) (ho : s.eng[e].st ≠ .off) (hon : s.islandOn (3 + e.val) = true) :
    doMoveRetry e svc s =
      if retryFault s.eng[e] svc ≠ 0 then s.hardFaultBits e (retryFault s.eng[e] svc)
      else
        let keep := s.eng[e].svcRetries.filter (fun w => decide (s.eng[e].wall ≤ w + 1000000))
        (s.setEng e { s.eng[e] with
          freeze := s.eng[e].freeze + 4
          kRetried := s.eng[e].kRetried || s.eng[e].inCycle
          svcRetries := if svc then s.eng[e].wall :: keep else keep }).count (pecRetryCnt e.val) := by
  unfold doMoveRetry
  exact if_neg (by simpa [hon] using And.intro ho hf)

theorem doMoveRetry_refused (h : s.eng[e].st = .fenced ∨ s.eng[e].st = .off ∨ s.islandOn (3 + e.val) = false) :
    doMoveRetry e svc s = s := by
  unfold doMoveRetry
  refine if_pos ?_
  simp only [Bool.or_eq_true, decide_eq_true_eq, Bool.not_eq_true']
  tauto

theorem State.hardFaultBits_refused {bits : Nat}
    (h : s.eng[e].st = .fenced ∨ s.eng[e].st = .off ∨ s.islandOn (3 + e.val) = false) : s.hardFaultBits e bits = s := by
  unfold State.hardFaultBits
  refine if_pos ?_
  simp only [Bool.or_eq_true, decide_eq_true_eq, Bool.not_eq_true']
  tauto

theorem faults_retry (hw : s.storesWf) (hf : s.eng[e].st ≠ .fenced) (ho : s.eng[e].st ≠ .off)
    (hon : s.islandOn (3 + e.val) = true) (hb : retryFault s.eng[e] svc ≠ 0) :
    Faults (.moveRetry e svc) e (retryFault s.eng[e] svc) s := by
  refine faults_of_commit ?_ hw hf ho hon
  show commit s (doMoveRetry e svc s) = _
  rw [doMoveRetry_of hf ho hon, if_pos hb]

/-- A first retry freezes the engine and counts. -/
theorem ends_retry (hw : s.storesWf) (hf : s.eng[e].st ≠ .fenced) (ho : s.eng[e].st ≠ .off)
    (hon : s.islandOn (3 + e.val) = true) (hb : retryFault s.eng[e] svc = 0) :
    let keep := s.eng[e].svcRetries.filter (fun w => decide (s.eng[e].wall ≤ w + 1000000))
    Ends (.moveRetry e svc) s fun t =>
      EngineIs e { s.eng[e] with
        freeze := s.eng[e].freeze + 4
        kRetried := s.eng[e].kRetried || s.eng[e].inCycle
        svcRetries := if svc then s.eng[e].wall :: keep else keep } s t ∧
      t.reg (pecRetryCnt e.val) = s.reg (pecRetryCnt e.val) + 1 ∧ Framed [.eng] [pecRetryCnt e.val] [] s t := by
  have apart : pecRetryCnt e.val ≠ glbIntCnt := by simp only [pecRetryCnt, glbIntCnt]; omega
  have regs := State.storesWf_regs hw
  intro keep
  refine ends_of_commit (c := .moveRetry e svc) (s := s) ((congrArg (commit s) (doMoveRetry_of hf ho hon)).trans
    (congrArg (commit s) (if_neg (not_not_intro hb)))) ⟨⟨?_, fun f h => ?_⟩, ?_, ?_⟩
  · exact (congrArg (fun v => v[e]) (settle_part s _ .eng)).trans (getElem_vset_same _ _ _)
  · exact (congrArg (fun v => v[f]) (settle_part s _ .eng)).trans (getElem_vset_other _ _ h)
  · rw [settle_reg _ _ _ apart]
    exact State.reg_setReg_same _ _ _ regs
  · exact framed_settle ((State.setEng_framed _ _ _ _ _ _ (by simp)).count (by simp))

end

/-- Settles O28: a hard fault goes by the engine's state, and its takeover by the spare chosen. -/
theorem kernelCycleStartsAndHardFaults : Obligations.KernelCycleStartsAndHardFaults := by
  unfold Obligations.KernelCycleStartsAndHardFaults
  intro s e svc why hw x on faults runs y
  have heeds (h : runs) : Heeds e s := ⟨h.2.1, h.2.2.1, h.2.2.2⟩
  refine ⟨fun h hh hk => ?_, fun h hh hk => (ends_overrun hw (heeds h) h.1 hh hk).1,
    fun h hh hk => (ends_overrun hw (heeds h) h.1 hh hk).2, fun h hh hs => ends_held (heeds h) h.1 hh hs,
    fun h => ?_, fun hon h => ends_overrunCounted hw hon (State.kernelStart_refused h), ?_, ?_, ?_⟩
  · have run : exec (.kernelCycleStart e) s = commit s (s.takeStart e false) := by
      rw [exec_kernelCycleStart h.1, (heeds h).kernelStart_taken hh hk]
    have eng : (settle s (s.takeStart e false)).eng = vset s.eng e (s.started e false) :=
      (settle_part s _ .eng).trans (State.takeStart_eng s e false)
    have insts : (settle s (s.takeStart e false)).insts = (s.takeStart e false).insts := settle_part s _ .insts
    have here : (settle s (s.takeStart e false)).eng[e] = s.started e false := by rw [eng, getElem_vset_same]
    refine ends_of_commit run ⟨⟨?_, fun f hf => ?_⟩, fun hs => ?_, fun hs => ?_, fun hl => ?_, fun c hc => ?_,
      fun r i hr hi => ?_, fun q hq => ?_, ?_, framed_settle (s.takeStart_framed e false)⟩
    · have next : y.fwuNext = x.fwuNext := by rw [fromLead_fwuNext, swapBanks_fwuNext]
      rw [here, ← next]
      rfl
    · rw [eng, getElem_vset_other _ _ hf]
    · rw [here]
      exact State.started_bank_of_swap hs
    · rw [here]
      exact State.started_bank_of_not hs
    · rw [here]
      exact State.started_cyc_of_none hl
    · rw [here]
      exact State.started_cyc_of_some hc
    · rw [insts, State.takeStart_inst_same false hr hi, startedInst_eq]
    · rw [insts, State.takeStart_inst_other false hq]
    · rw [settle_reg _ _ _ (by simp only [pecKstartCnt, glbIntCnt]; omega), State.takeStart_count e false hw]
  · have off : s.islandOn (3 + e.val) = false := by simpa [on] using h
    refine ⟨idle_of_commit rfl (if_neg (by simp [off])),
      idle_of_commit rfl (State.hardFaultBits_refused (.inr (.inr off))),
      idle_of_commit rfl (doMoveRetry_refused (.inr (.inr off))), idle_of_commit rfl (doWatchdogExpire_of_not ?_)⟩
    exact fun hx => h hx.powered.1
  · intro expires meets
    exact ⟨fun h => idle_of_commit rfl (doWatchdogExpire_of_not h), fun h hm => faults_watchdog hw h hm,
      fun f h hf hm => ends_watchdogBeside hw h hf hm⟩
  · intro h
    have h' : s.eng[e].st = .fenced ∨ s.eng[e].st = .off ∨ s.islandOn (3 + e.val) = false := h.imp_right .inl
    exact ⟨idle_of_commit rfl (State.hardFaultBits_refused h'), idle_of_commit rfl (doMoveRetry_refused h')⟩
  · intro hon hf ho
    refine ⟨?_, ?_, ?_, fun hb => faults_retry hw hf ho hon hb, fun hb => ends_retry hw hf ho hon hb⟩
    · rintro rfl
      exact faults_of_commit rfl hw hf ho hon
    · rintro rfl
      exact faults_of_commit rfl hw hf ho hon
    · rintro rfl
      exact faults_of_commit rfl hw hf ho hon

end Sys2Proof.Machine
end

section
/-! PROOFS. START_DONE (R120, R417): the engines that were OFF join the spares, and the start ends. -/

namespace Sys2Proof.Machine

/-! The engines join one after the other. -/

/-- An engine that is OFF joins the spares, its island powered. -/
def State.join (s : State) (e : Fin 10) : State :=
  if s.eng[e].st = .off then (s.setEng e { s.eng[e] with st := .spare }).islandUp (3 + e.val) else s

theorem State.join_eq {s : State} {e : Fin 10} {i : Nat} (h : e.val = i) : s.join e =
    if s.eng[e].st = .off then (s.setEng e { s.eng[e] with st := .spare }).islandUp (3 + i) else s := by
  subst h
  rfl

/-- What the engines numbered below n have become: SPARE, powered and on their PLL, where they were OFF. -/
structure Joined (n : Nat) (s t : State) : Prop where
  frame : Framed [.eng] [clkIslOn, clkDegraded] [] s t
  wf : amWf regReset t.regs
  joined : ∀ e : Fin 10, e.val < n → s.eng[e].st = .off → t.eng[e] = { s.eng[e] with st := .spare } ∧
    t.islandOn (3 + e.val) = true ∧ t.degraded (3 + e.val) = !s.groupDriven 0
  others : ∀ e : Fin 10, n ≤ e.val ∨ s.eng[e].st ≠ .off → t.eng[e] = s.eng[e] ∧
    t.islandOn (3 + e.val) = s.islandOn (3 + e.val) ∧ t.degraded (3 + e.val) = s.degraded (3 + e.val)

theorem groupOf_engine : ∀ e : Fin 10, groupOf (3 + e.val) = 0 := by decide

/-- The PLLs drive a group as before where CLK_PLL_STATUS stands. -/
theorem State.groupDriven_of_reg {s t : State} (h : t.reg clkPllStatus = s.reg clkPllStatus) (g : Nat) :
    t.groupDriven g = s.groupDriven g := by
  unfold State.groupDriven State.pllRole
  rw [h]

section
variable {s t : State}

theorem Joined.zero (hw : s.storesWf) : Joined 0 s s where
  frame := Framed.refl _ _ _ s
  wf := State.storesWf_regs hw
  joined _ h := absurd h (Nat.not_lt_zero _)
  others _ _ := ⟨rfl, rfl, rfl⟩

/-- The island of an engine that joins is powered, and no other changes. -/
theorem State.join_of_off {e : Fin 10} (hr : amWf regReset t.regs) (hs : t.eng[e].st = .off) :
    (t.join e).eng = vset t.eng e { t.eng[e] with st := .spare } ∧
    ∀ j, (t.join e).islandOn j = (if j = 3 + e.val then true else t.islandOn j) ∧
      (t.join e).degraded j = (if j = 3 + e.val then !t.groupDriven 0 else t.degraded j) := by
  have up : t.join e = (t.setEng e { t.eng[e] with st := .spare }).islandUp (3 + e.val) := if_pos hs
  have island : 3 + e.val < 19 := by omega
  rw [up, State.islandUp, groupOf_engine]
  exact ⟨rfl, fun j => ⟨State.islandOn_setIsland (s := t.setEng e { t.eng[e] with st := .spare }) hr island _ _ j,
    State.degraded_setIsland (s := t.setEng e { t.eng[e] with st := .spare }) hr island _ _ j⟩⟩

theorem State.join_framed (e : Fin 10) : Framed [.eng] [clkIslOn, clkDegraded] [] t (t.join e) := by
  unfold State.join
  split
  · exact ((State.setEng_framed _ _ _ _ _ _ (by simp)).setReg _ (by simp)).setReg _ (by simp)
  · exact Framed.refl _ _ _ t

theorem State.join_regsWf {e : Fin 10} (hr : amWf regReset t.regs) : amWf regReset (t.join e).regs := by
  unfold State.join
  split
  · exact State.regsWf_setReg (State.regsWf_setReg hr _) _
  · exact hr

/-- What the others are when an engine joins. -/
theorem State.join_other {e f : Fin 10} (hr : amWf regReset t.regs) (hf : f ≠ e) : (t.join e).eng[f] = t.eng[f] ∧
    (t.join e).islandOn (3 + f.val) = t.islandOn (3 + f.val) ∧
    (t.join e).degraded (3 + f.val) = t.degraded (3 + f.val) := by
  by_cases hs : t.eng[e].st = .off
  · have apart : ¬ 3 + f.val = 3 + e.val := fun h => hf (Fin.ext (Nat.add_left_cancel h))
    obtain ⟨joined, islands⟩ := State.join_of_off hr hs
    rw [joined, getElem_vset_other _ _ hf, (islands _).1, (islands _).2, if_neg apart, if_neg apart]
    exact ⟨rfl, rfl, rfl⟩
  · rw [State.join, if_neg hs]
    exact ⟨rfl, rfl, rfl⟩

theorem Joined.succ {n : Nat} (hn : n < 10) (h : Joined n s t) : Joined (n + 1) s (t.join ⟨n, hn⟩) := by
  obtain ⟨eng, on, deg⟩ := h.others ⟨n, hn⟩ (.inl (Nat.le_refl n))
  have driven : t.groupDriven 0 = s.groupDriven 0 :=
    State.groupDriven_of_reg (h.frame.regs _ (by decide) (by decide)) 0
  refine ⟨h.frame.trans (t.join_framed _), State.join_regsWf h.wf, fun e he hs => ?_, fun e he => ?_⟩
  · by_cases here : e = ⟨n, hn⟩
    · subst here
      obtain ⟨joined, islands⟩ := State.join_of_off h.wf (by rw [eng]; exact hs)
      rw [joined, getElem_vset_same, (islands _).1, (islands _).2, if_pos rfl, if_pos rfl, driven, eng]
      exact ⟨rfl, rfl, rfl⟩
    · have below : e.val < n := by
        have : ¬ e.val = n := fun h => here (Fin.ext h)
        omega
      obtain ⟨h1, h2, h3⟩ := State.join_other h.wf here
      rw [h1, h2, h3]
      exact h.joined e below hs
  · by_cases here : e = ⟨n, hn⟩
    · subst here
      have stays : t.join ⟨n, hn⟩ = t := if_neg (by rw [eng]; exact he.resolve_left (by simp))
      rw [stays]
      exact ⟨eng, on, deg⟩
    · obtain ⟨h1, h2, h3⟩ := State.join_other h.wf here
      rw [h1, h2, h3]
      exact h.others e (he.imp_left fun h => by omega)

/-- The engines that were OFF join in the order of their numbers. -/
theorem joined_foldl (hw : s.storesWf) :
    ∀ n ≤ 10, Joined n s ((List.range n).foldl (fun t i => t.join (Fin.ofNat 10 i)) s)
  | 0, _ => Joined.zero hw
  | n + 1, hn => by
    have same : Fin.ofNat 10 n = ⟨n, hn⟩ := Fin.ext (Nat.mod_eq_of_lt hn)
    rw [List.range_succ, List.foldl_append, List.foldl_cons, List.foldl_nil, same]
    exact (joined_foldl hw n (by omega)).succ hn

end

/-! The start ends. -/

/-- The count of the start's kind is cleared, a cold start's clears both (R417). -/
def State.failuresCleared (s : State) (k : StartKind) : State :=
  if k = .cold then s.setReg glbFailedStart 0 else s.setRegField glbFailedStart 0 2 0

/-- A start that is done: no start is in progress, FAULT_N goes by the fences from now on, the monitors watch. -/
def State.startEnded (s : State) : State :=
  ({ s with flt := { s.flt with starting := none, startDoneSeen := true } } : State).modSec fun x =>
    { x with armed := true }

section
variable {s : State} {k : StartKind}

theorem State.startDone_of_none (h : s.flt.starting = none) : s.startDone = s := by
  unfold State.startDone
  rw [h]

theorem State.startDone_of_some (h : s.flt.starting = some k) : s.startDone =
    ((List.range 10).foldl (fun t i => t.join (Fin.ofNat 10 i)) (s.failuresCleared k)).startEnded := by
  unfold State.startDone
  rw [h]
  exact congrArg State.startEnded (List.foldl_ext _ _ (s.failuresCleared k) fun t i hi =>
    (State.join_eq (Nat.mod_eq_of_lt (List.mem_range.1 hi))).symm)

/-! START_DONE. -/

theorem State.failuresCleared_framed : Framed [] [glbFailedStart] [] s (s.failuresCleared k) := by
  unfold State.failuresCleared
  split
  · exact (Framed.refl _ _ _ s).setReg _ (by simp)
  · exact (Framed.refl _ _ _ s).setReg _ (by simp)

/-- What the supervisor holds is a part of its own. -/
theorem State.modSec_framed (s : State) (f : SecState → SecState) : Framed [.sec] [] [] s (s.modSec f) :=
  (Framed.refl _ _ _ s).update (q := .sec) (by simp)
    (fun p hp => by cases p <;> simp_all [Part.same, State.modSec, State.setSec]) rfl rfl rfl

theorem State.startEnded_framed : Framed [.flt, .sec] [] [] s s.startEnded :=
  ((Framed.refl [.flt, .sec] [] [] s).setFlt (by simp) { s.flt with starting := none, startDoneSeen := true }).trans
    ((State.modSec_framed _ _).mono (by simp) (List.Subset.refl _) (List.Subset.refl _))

theorem exec_startDone {m : Master} (ho : Open s m true fltCmd) :
    exec (.startDone m) s = commit s (s.setRegField fltCmd 16 8 0).startDone :=
  congrArg (commit s) (State.guarded_of_open ho _)

/-- With no start in progress STATUS alone is written. -/
theorem ends_startDone_idle {m : Master} (hw : s.storesWf) (ho : Open s m true fltCmd) (h : s.flt.starting = none) :
    Ends (.startDone m) s fun t => t.flt = s.flt ∧ fieldOf (t.reg fltCmd) 16 8 = 0 ∧ Framed [] [fltCmd] [] s t := by
  have run : exec (.startDone m) s = commit s (s.setRegField fltCmd 16 8 0) := by
    rw [exec_startDone ho, State.startDone_of_none (s := s.setRegField fltCmd 16 8 0) h]
  refine ends_of_commit run ⟨settle_flt _ _, ?_, framed_settle ((Framed.refl _ _ _ s).setReg _ (by simp))⟩
  rw [settle_reg _ _ _ (by decide), State.setRegField, State.reg_setReg_same _ _ _ (State.storesWf_regs hw),
    fieldOf_setField_same _ (by decide) (by decide)]

theorem ends_startDone {m : Master} (hw : s.storesWf) (ho : Open s m true fltCmd) (h : s.flt.starting = some k) :
    Ends (.startDone m) s fun t =>
      t.flt = { s.flt with starting := none, startDoneSeen := true } ∧ t.sec = { s.sec with armed := true } ∧
      (k = .cold → t.reg glbFailedStart = 0) ∧
      (k ≠ .cold → t.reg glbFailedStart = setField (s.reg glbFailedStart) 0 2 0) ∧
      (∀ e : Fin 10, s.eng[e].st = .off → t.eng[e] = { s.eng[e] with st := .spare } ∧ t.islandOn (3 + e.val) = true ∧
        t.degraded (3 + e.val) = !s.groupDriven 0) ∧
      (∀ e : Fin 10, s.eng[e].st ≠ .off → t.eng[e] = s.eng[e] ∧ t.islandOn (3 + e.val) = s.islandOn (3 + e.val) ∧
        t.degraded (3 + e.val) = s.degraded (3 + e.val)) ∧
      Framed [.flt, .sec, .eng] [fltCmd, glbFailedStart, clkIslOn, clkDegraded] [] s t := by
  obtain ⟨u, hu⟩ : ∃ u, u = s.setRegField fltCmd 16 8 0 := ⟨_, rfl⟩
  obtain ⟨v, hv⟩ : ∃ v, v = u.failuresCleared k := ⟨_, rfl⟩
  obtain ⟨w, hj⟩ : ∃ w, w = (List.range 10).foldl (fun t i => t.join (Fin.ofNat 10 i)) v := ⟨_, rfl⟩
  have wfu : u.storesWf := hu ▸ hw.setRegField
  have wfv : v.storesWf := by
    rw [hv]
    exact wfu.setReg.ite wfu.setRegField
  have first : Framed [] [fltCmd] [] s u := hu ▸ (Framed.refl _ _ _ s).setReg _ (by simp)
  have cleared : Framed [] [glbFailedStart] [] u v := hv ▸ State.failuresCleared_framed
  have joined : Joined 10 v w := hj ▸ joined_foldl wfv 10 (Nat.le_refl 10)
  have ended : Framed [.flt, .sec] [] [] w w.startEnded := State.startEnded_framed
  have run : exec (.startDone m) s = commit s w.startEnded := by
    rw [exec_startDone ho, ← hu, State.startDone_of_some (k := k) (by rw [hu]; exact h), ← hv, ← hj]
  have frame : Framed [] [fltCmd, glbFailedStart] [] s v :=
    (first.mono (List.Subset.refl _) (by simp) (List.Subset.refl _)).trans
      (cleared.mono (List.Subset.refl _) (by simp) (List.Subset.refl _))
  have failed : (settle s w.startEnded).reg glbFailedStart = v.reg glbFailedStart := by
    rw [settle_reg _ _ _ (by decide), ended.regs _ (by simp) (by decide), joined.frame.regs _ (by decide) (by decide)]
  have engine (e : Fin 10) : (settle s w.startEnded).eng[e] = w.eng[e] :=
    congrArg (fun l => l[e]) (settle_part s w.startEnded .eng)
  have island (j : Nat) : (settle s w.startEnded).islandOn j = w.islandOn j := settle_islandOn _ _ _
  have degraded (j : Nat) : (settle s w.startEnded).degraded j = w.degraded j := settle_degraded _ _ _
  have start : v.eng = s.eng ∧ (∀ j, v.islandOn j = s.islandOn j) ∧ (∀ j, v.degraded j = s.degraded j) ∧
      v.groupDriven 0 = s.groupDriven 0 :=
    ⟨frame.parts .eng (by simp), fun j => congrArg (bitOf · j) (frame.regs clkIslOn (by decide) (by decide)),
      fun j => congrArg (bitOf · j) (frame.regs clkDegraded (by decide) (by decide)),
      State.groupDriven_of_reg (frame.regs _ (by decide) (by decide)) 0⟩
  obtain ⟨eng, on, deg, driven⟩ := start
  have same (e : Fin 10) : v.eng[e] = s.eng[e] := congrArg (fun l => l[e]) eng
  refine ends_of_commit run ⟨?_, ?_, ?_, ?_, fun e he => ?_, fun e he => ?_, ?_⟩
  · have flt : w.flt = s.flt := (joined.frame.parts .flt (by simp)).trans (frame.parts .flt (by simp))
    rw [settle_flt, State.startEnded, ← flt]
    rfl
  · have sec : w.sec = s.sec := (joined.frame.parts .sec (by simp)).trans (frame.parts .sec (by simp))
    rw [settle_sec, State.startEnded, ← sec]
    rfl
  · rintro rfl
    rw [failed, hv, State.failuresCleared, if_pos rfl, State.reg_setReg_same _ _ _ (State.storesWf_regs wfu)]
  · intro hk
    rw [failed, hv, State.failuresCleared, if_neg hk, State.setRegField,
      State.reg_setReg_same _ _ _ (State.storesWf_regs wfu), first.regs _ (by decide) (by decide)]
  · obtain ⟨h1, h2, h3⟩ := joined.joined e e.isLt (by rw [same]; exact he)
    rw [engine, island, degraded, h1, h2, h3, driven, same]
    exact ⟨rfl, rfl, rfl⟩
  · obtain ⟨h1, h2, h3⟩ := joined.others e (.inr (by rw [same]; exact he))
    rw [engine, island, degraded, h1, h2, h3, on, deg, same]
    exact ⟨rfl, rfl, rfl⟩
  · refine framed_settle ?_
    exact ((frame.mono (List.nil_subset _) (by simp) (List.Subset.refl _)).trans
      (joined.frame.mono (by simp) (by simp) (List.Subset.refl _))).trans
      (ended.mono (by simp) (List.nil_subset _) (List.Subset.refl _))

end

end Sys2Proof.Machine
end

section
/-! SUPPORT. Failed cold starts (R404, R415, R418): what a cold start and RECOVERY leave, and the failure's
entry. -/

namespace Sys2Proof.Machine

/-! The entry of a failed start. -/

/-- INFO8 of an entry's second word (Table FLT-3). -/
theorem fieldOf_logInfo8 (act : LogAction) (i8 : Byte) (i16 : Nat) (deg : Bool) :
    fieldOf (w32 (2 ^ 28 * act.code + 2 ^ 27 * b2n deg + 2 ^ 16 * i8.toNat + i16 % 2 ^ 16)) 16 8 = i8.toNat := by
  have hi := i8.isLt
  have hact : act.code ≤ 5 := by cases act <;> decide
  have hdeg : b2n deg ≤ 1 := by cases deg <;> decide
  simp only [fieldOf, w32, BitVec.toNat_ofNat, Nat.shiftRight_eq_div_pow]
  omega

section
variable {s : State} {why : StartFailCause} {kind : Nat}

theorem State.logStartFail_reg (a : Nat) : (s.logStartFail why kind).reg a = s.reg a :=
  State.reg_of_regs_eq (State.fltLog_regs _ _ _ _ _ _)

theorem State.logStartFail_framed : Framed [.flt] [] faultLogWords s (s.logStartFail why kind) :=
  State.fltLog_framed _ _ _ _ _ _

/-- The first entry of a log that is clear is the failed start's. -/
theorem State.logStartFail_words (hw : s.storesWf) (h : s.flt.logAny = false) :
    fieldOf ((s.logStartFail why kind).tab .flt 0 0) 24 8 = 0x45 ∧
    fieldOf ((s.logStartFail why kind).tab .flt 0 0) 16 8 = 0x0E ∧
    fieldOf ((s.logStartFail why kind).tab .flt 0 1) 16 8 = (failInfo why).toNat := by
  have first : s.nextSeq = 0 := by rw [State.nextSeq, h]; rfl
  have word := s.fltLog_tab 0x45 0x0E .noted (failInfo why) kind (State.storesWf_tabs hw) (k := 0) (by decide)
  have info := s.fltLog_tab 0x45 0x0E .noted (failInfo why) kind (State.storesWf_tabs hw) (k := 1) (by decide)
  obtain ⟨domain, cause, -⟩ := fieldOf_logWord 0x45 0x0E (by decide) s.nextSeq
  rw [first] at word info domain cause
  have entry : (s.logStartFail why kind).tab .flt 0 0 = w32 (2 ^ 24 * 0x45 + 2 ^ 16 * (0x0E : Byte).toNat +
      (0 : BitVec 16).toNat) := by
    refine word.trans ?_
    unfold State.logEntry
    rw [first]
    rfl
  rw [entry]
  refine ⟨domain, cause, ?_⟩
  exact (congrArg (fieldOf · 16 8) info).trans (fieldOf_logInfo8 _ _ _ _)

end

/-! A cold start in the running device. -/

section
variable (s : State)

theorem State.coldStart_failedStart : (s.coldStart none).reg glbFailedStart = s.reg glbFailedStart := by
  rw [State.coldStart_reg _ _ (by decide) (by decide),
    (s.coldClocks_framed startIslands).regs _ (by decide) (by decide),
    State.fresh_failedStart, s.twinFail_reg (by decide)]

theorem State.coldStart_counts : (s.coldStart none).reg glbColdStartCnt = s.reg glbColdStartCnt + 1 := by
  have hr := s.coldClocks_regsWf startIslands
  have wf := State.regsWf_setReg (a := hifLinkStatus) (State.regsWf_setReg (a := clkRefStatus)
    (State.regsWf_setReg (a := psqIobank) hr (s.reg psqIobank)) (s.reg clkRefStatus))
    (s.reg hifLinkStatus &&& 0x80000000#32)
  rw [State.coldStart_count, State.strapped, State.reg_setReg_same _ _ _ wf]

theorem State.coldStart_islOn : (s.coldStart none).reg clkIslOn = 0x7E007 := by
  rw [State.coldStart_reg _ _ (by decide) (by decide), State.coldClocks_islOn]
  rfl

/-- The engines and the memory are at reset after a start from cold. -/
theorem fresh_engMem {s t : State} {ps : List Part} {rs ts : List Nat} {p : Power} (h : Framed ps rs ts (s.fresh p) t)
    (he : .eng ∉ ps) (hm : .mem ∉ ps) : t.eng = State.reset.eng ∧ t.mem = State.reset.mem :=
  ⟨(h.parts .eng he).trans (s.fresh_reset p .eng (by decide)),
    (h.parts .mem hm).trans (s.fresh_reset p .mem (by decide))⟩

theorem State.coldStart_engMem : (s.coldStart none).eng = State.reset.eng ∧ (s.coldStart none).mem = State.reset.mem :=
  fresh_engMem (s.coldStart_framed none) (by decide) (by decide)

end

/-! RECOVERY. -/

section
variable (s : State)

/-- RECOVERY up to its two registers (R418). -/
def State.recoveryBase : State := s.coldBase none recoveryIslands recoveryIslands

/-- The device set to RECOVERY (R418). -/
def State.inRecovery : State :=
  let t := (s.setReg glbLastStart 2).setRegField glbFailedStart 4 2 0
  { t with flt := { t.flt with recovery := true } }

theorem State.enterRecovery_eq : s.enterRecovery = s.recoveryBase.inRecovery := rfl

theorem State.inRecovery_framed : Framed [.flt] [glbLastStart, glbFailedStart] [] s s.inRecovery :=
  (((Framed.refl _ _ _ s).setReg _ (by simp)).setReg _ (by simp)).setFlt (by simp) _

theorem State.inRecovery_flt : s.inRecovery.flt = { s.flt with recovery := true } := rfl

theorem State.inRecovery_regs {s : State} (hw : amWf regReset s.regs) : s.inRecovery.reg glbLastStart = 2 ∧
    fieldOf (s.inRecovery.reg glbFailedStart) 4 2 = 0 := by
  have same (a : Nat) : s.inRecovery.reg a = ((s.setReg glbLastStart 2).setRegField glbFailedStart 4 2 0).reg a := rfl
  rw [same, same, State.setRegField, State.reg_setReg_other _ _ _ _ (by decide), State.reg_setReg_same _ _ _ hw,
    State.reg_setReg_same _ _ _ (State.regsWf_setReg hw _)]
  exact ⟨rfl, fieldOf_setField_same _ (by decide) (by decide)⟩

theorem State.recoveryBase_islOn : s.recoveryBase.reg clkIslOn = 0x32000 := by
  refine (State.reg_of_regs_eq (s.coldBase_regs recoveryIslands none recoveryIslands)).trans ?_
  refine ((State.strapped_framed (ps := []) s none _).regs _ (by decide) (by decide)).trans ?_
  exact s.coldClocks_islOn recoveryIslands

theorem State.recoveryBase_log : s.recoveryBase.flt.logAny = false := by
  rw [State.recoveryBase, State.coldBase_eq]
  rfl

theorem State.recoveryBase_wf {s : State} (hw : s.storesWf) : s.recoveryBase.storesWf := hw.coldBase

theorem State.recoveryBase_engMem :
    s.recoveryBase.eng = State.reset.eng ∧ s.recoveryBase.mem = State.reset.mem :=
  fresh_engMem (s.coldBase_framed none recoveryIslands recoveryIslands) (by decide) (by decide)

/-- What RECOVERY leaves (R418). -/
theorem State.enterRecovery_leaves {s : State} (hw : s.storesWf) :
    (s.enterRecovery.flt.recovery = true ∧ s.enterRecovery.flt.logAny = false) ∧
    s.enterRecovery.reg glbLastStart = 2 ∧ fieldOf (s.enterRecovery.reg glbFailedStart) 4 2 = 0 ∧
    s.enterRecovery.reg clkIslOn = 0x32000 ∧ s.enterRecovery.eng = State.reset.eng ∧
    s.enterRecovery.mem = State.reset.mem := by
  obtain ⟨last, failed⟩ := State.inRecovery_regs (State.storesWf_regs (State.recoveryBase_wf hw))
  obtain ⟨eng, mem⟩ := s.recoveryBase_engMem
  have frame := s.recoveryBase.inRecovery_framed
  rw [State.enterRecovery_eq, State.inRecovery_flt]
  exact ⟨⟨rfl, s.recoveryBase_log⟩, last, failed, (frame.regs _ (by decide) (by decide)).trans s.recoveryBase_islOn,
    (frame.parts .eng (by decide)).trans eng, (frame.parts .mem (by decide)).trans mem⟩

end

/-! START_FAIL of a cold start, and the third of a warm one. -/

/-- The count of failures of one kind goes up, saturating at 3 (R417). -/
def State.failureCounted (s : State) (lo : Nat) : State :=
  s.setRegField glbFailedStart lo 2 (min 3 (fieldOf (s.reg glbFailedStart) lo 2 + 1))

section
variable {s : State} {why : StartFailCause} {lo : Nat}

theorem State.failureCounted_other {a : Nat} (h : a ≠ glbFailedStart) : (s.failureCounted lo).reg a = s.reg a :=
  State.reg_setReg_other _ _ _ _ h

theorem State.failureCounted_field (hw : s.storesWf) (hlo : lo + 2 ≤ 32) (h : fieldOf (s.reg glbFailedStart) lo 2 < 2) :
    fieldOf ((s.failureCounted lo).reg glbFailedStart) lo 2 = fieldOf (s.reg glbFailedStart) lo 2 + 1 := by
  rw [State.failureCounted, State.setRegField, State.reg_setReg_same _ _ _ (State.storesWf_regs hw),
    fieldOf_setField_same _ hlo (by omega), Nat.min_eq_right (by omega)]

theorem State.failureCounted_wf (hw : s.storesWf) : (s.failureCounted lo).storesWf := hw.setRegField

/-- A failed cold start is followed by another, or by RECOVERY (R418). -/
theorem exec_startFail_cold (h : s.flt.starting = some .cold) : exec (.startFail why) s = commit s
    ((if min 3 (fieldOf (s.reg glbFailedStart) 4 2 + 1) = 3 then (s.failureCounted 4).enterRecovery
      else (s.failureCounted 4).coldStart none).logStartFail why 0) := by
  show commit s (doStartFail why s) = _
  unfold doStartFail
  rw [h]
  rfl

/-- A failed warm start is followed by another, or by a cold one (R417). -/
theorem exec_startFail_warm (h : s.flt.starting = some .warm ∨ s.flt.starting = some .warmP2) :
    exec (.startFail why) s = commit s
      ((if min 3 (fieldOf (s.reg glbFailedStart) 0 2 + 1) = 3 then (s.failureCounted 0).coldStart none
        else (s.failureCounted 0).warmStart).logStartFail why 1) := by
  show commit s (doStartFail why s) = _
  unfold doStartFail
  obtain h | h := h <;> rw [h] <;> rfl

/-- With no start in progress a failure is no event. -/
theorem doStartFail_of_none (h : s.flt.starting = none) : doStartFail why s = s := by
  unfold doStartFail
  rw [h]

/-- What a cold start that follows a failed start leaves. -/
theorem ends_coldAgain {kind : Nat} (hw : s.storesWf)
    (hc : exec (.startFail why) s = commit s (((s.failureCounted lo).coldStart none).logStartFail why kind)) :
    Ends (.startFail why) s fun t => (t.flt.starting = some .cold ∧ t.flt.recovery = false) ∧
      t.reg glbFailedStart = (s.failureCounted lo).reg glbFailedStart ∧
      t.reg glbColdStartCnt = s.reg glbColdStartCnt + 1 ∧ t.reg clkIslOn = 0x7E007 ∧
      (fieldOf (t.tab .flt 0 0) 24 8 = 0x45 ∧ fieldOf (t.tab .flt 0 0) 16 8 = 0x0E ∧
        fieldOf (t.tab .flt 0 1) 16 8 = (failInfo why).toNat) ∧ t.eng = State.reset.eng ∧ t.mem = State.reset.mem := by
  obtain ⟨u, hu⟩ : ∃ u, u = (s.failureCounted lo).coldStart none := ⟨_, rfl⟩
  have wf : u.storesWf := hu ▸ (State.failureCounted_wf hw).coldStart
  have flt : u.flt.starting = some .cold ∧ u.flt.recovery = false ∧ u.flt.logAny = false := by
    rw [hu, State.coldStart_flt]
    exact ⟨rfl, rfl, rfl⟩
  obtain ⟨starting, recovery, clear⟩ := flt
  obtain ⟨eng, mem⟩ := (s.failureCounted lo).coldStart_engMem
  have logged : Framed [.flt] [] faultLogWords u (u.logStartFail why kind) := State.logStartFail_framed
  have parts (p : Part) (h : p ∉ [Part.flt]) : p.same u (settle s (u.logStartFail why kind)) :=
    p.same_trans (logged.parts p h) (settle_part s _ p)
  rw [← hu] at hc eng mem
  refine ends_of_commit hc ⟨?_, ?_, ?_, ?_, ?_, (parts .eng (by decide)).trans eng, (parts .mem (by decide)).trans mem⟩
  · rw [settle_flt, State.logStartFail, State.fltLog_flt]
    exact ⟨starting, recovery⟩
  · rw [settle_reg _ _ _ (by decide), State.logStartFail_reg, hu, State.coldStart_failedStart]
  · rw [settle_reg _ _ _ (by decide), State.logStartFail_reg, hu, State.coldStart_counts,
      State.failureCounted_other (by decide)]
  · rw [settle_reg _ _ _ (by decide), State.logStartFail_reg, hu, State.coldStart_islOn]
  · simp only [settle_tab]
    exact State.logStartFail_words wf clear

theorem ends_recovery (hw : s.storesWf) (h : s.flt.starting = some .cold)
    (hn : 2 ≤ fieldOf (s.reg glbFailedStart) 4 2) :
    Ends (.startFail why) s fun t => t.flt.recovery = true ∧ t.reg glbLastStart = 2 ∧ t.faultLow = true ∧
      fieldOf (t.reg glbFailedStart) 4 2 = 0 ∧ t.reg clkIslOn = 0x32000 ∧ t.xpbRole = 1 ∧
      fieldOf (t.tab .flt 0 0) 16 8 = 0x0E ∧ t.eng = State.reset.eng ∧ t.mem = State.reset.mem := by
  obtain ⟨u, hu⟩ : ∃ u, u = (s.failureCounted 4).enterRecovery := ⟨_, rfl⟩
  have wf : u.storesWf := hu ▸ (State.failureCounted_wf hw).enterRecovery
  obtain ⟨⟨recovery, clear⟩, last, failed, islands, eng, mem⟩ :=
    State.enterRecovery_leaves (State.failureCounted_wf (lo := 4) hw)
  rw [← hu] at recovery clear last failed islands eng mem
  have run : exec (.startFail why) s = commit s (u.logStartFail why 0) := by
    rw [exec_startFail_cold h, if_pos (Nat.min_eq_left (by omega)), hu]
  have logged : Framed [.flt] [] faultLogWords u (u.logStartFail why 0) := State.logStartFail_framed
  have parts (p : Part) (h : p ∉ [Part.flt]) : p.same u (settle s (u.logStartFail why 0)) :=
    p.same_trans (logged.parts p h) (settle_part s _ p)
  have recovered : (settle s (u.logStartFail why 0)).flt.recovery = true := by
    rw [settle_flt, State.logStartFail, State.fltLog_flt]
    exact recovery
  have reg {a : Nat} (ha : a ≠ glbIntCnt) : (settle s (u.logStartFail why 0)).reg a = u.reg a := by
    rw [settle_reg _ _ _ ha, State.logStartFail_reg]
  refine ends_of_commit run ⟨recovered, ?_, ?_, ?_, ?_, ?_, ?_, (parts .eng (by decide)).trans eng,
    (parts .mem (by decide)).trans mem⟩
  · rw [reg (by decide), last]
  · rw [State.faultLow, recovered, Bool.or_true, Bool.true_or]
  · rw [reg (by decide), failed]
  · rw [reg (by decide), islands]
  · rw [State.xpbRole, if_pos recovered]
  · rw [settle_tab]
    exact (State.logStartFail_words wf clear).2.1

end

end Sys2Proof.Machine
end

section
/-! SUPPORT. A warm start keeps the counts of starts and failed starts up to its own entry (R415-R417). -/

namespace Sys2Proof.Machine

theorem State.fltLog_starting (s : State) (domain : Nat) (cause : Byte) (act : LogAction) (i8 : Byte) (i16 : Nat) :
    (s.fltLog domain cause act i8 i16).flt.starting = s.flt.starting := by
  rw [State.fltLog_flt]

/-- The start in progress and the counts of warm and of failed starts are as they were. -/
structure StartKept (s t : State) : Prop where
  warm : t.reg glbWarmStartCnt = s.reg glbWarmStartCnt
  failed : t.reg glbFailedStart = s.reg glbFailedStart
  starting : t.flt.starting = s.flt.starting

namespace StartKept

theorem refl (s : State) : StartKept s s := ⟨rfl, rfl, rfl⟩

theorem trans {s t u : State} (h : StartKept s t) (h' : StartKept t u) : StartKept s u :=
  ⟨h'.warm.trans h.warm, h'.failed.trans h.failed, h'.starting.trans h.starting⟩

/-- An operation that writes registers of other blocks alone keeps both counts. -/
theorem of_regs {ps : List Part} {rs ts : List Nat} {s t : State} (h : Framed ps rs ts s t) (hr : ∀ a ∈ rs, 0x10000 ≤ a)
    (hs : t.flt.starting = s.flt.starting) : StartKept s t :=
  ⟨h.regs _ (fun m => absurd (hr _ m) (by decide)) (by decide),
    h.regs _ (fun m => absurd (hr _ m) (by decide)) (by decide),
    hs⟩

theorem of_framed {ps : List Part} {rs ts : List Nat} {s t : State} (h : Framed ps rs ts s t) (hp : .flt ∉ ps)
    (hr : ∀ a ∈ rs, 0x10000 ≤ a) : StartKept s t :=
  of_regs h hr (congrArg FltState.starting (h.parts .flt hp))

section
variable {b s : State} (h : StartKept b s)
include h

theorem setReg {a : Nat} {v : Word} (ha : 0x10000 ≤ a) : StartKept b (s.setReg a v) :=
  ⟨(State.reg_setReg_other _ _ _ _ (by simp only [glbWarmStartCnt]; omega)).trans h.warm,
    (State.reg_setReg_other _ _ _ _ (by simp only [glbFailedStart]; omega)).trans h.failed, h.starting⟩

theorem setRegBit {a i : Nat} {v : Bool} (ha : 0x10000 ≤ a) : StartKept b (s.setRegBit a i v) := h.setReg ha

theorem setRegField {a lo n v : Nat} (ha : 0x10000 ≤ a) : StartKept b (s.setRegField a lo n v) := h.setReg ha

theorem count {a : Nat} (ha : 0x10000 ≤ a) : StartKept b (s.count a) := h.setReg ha

theorem ite {t : State} {c : Prop} [Decidable c] (h' : StartKept b t) : StartKept b (if c then s else t) := by
  split
  · exact h
  · exact h'

theorem foldl {α : Type} {f : State → α → State} {l : List α}
    (hf : ∀ t : State, StartKept b t → ∀ a, StartKept b (f t a)) : StartKept b (l.foldl f s) :=
  List.foldlRecOn (motive := StartKept b) l f h fun t ht a _ => hf t ht a

/-! Parts of the state that hold neither. -/

theorem setTab {k : Blk} {sp w : Nat} {v : Word} : StartKept b (s.setTab k sp w v) := ⟨h.warm, h.failed, h.starting⟩

theorem setTabs {k : Blk} {sp w : Nat} {vs : List Word} : StartKept b (s.setTabs k sp w vs) := by
  induction vs generalizing s w with
  | nil => exact h
  | cons v r ih => exact ih h.setTab

theorem setEng {e : Fin 10} {x : Engine} : StartKept b (s.setEng e x) := ⟨h.warm, h.failed, h.starting⟩

theorem setHold {k : Blk} {x : Bool} : StartKept b (s.setHold k x) := ⟨h.warm, h.failed, h.starting⟩

theorem modSec {f : SecState → SecState} : StartKept b (s.modSec f) := ⟨h.warm, h.failed, h.starting⟩

theorem emit {o : Output} : StartKept b (s.emit o) := ⟨h.warm, h.failed, h.starting⟩

theorem draw : StartKept b s.draw.2 := ⟨h.warm, h.failed, h.starting⟩

theorem setInst {r : Fin 10} {i : Option Inst} : StartKept b (s.setInst r i) := ⟨h.warm, h.failed, h.starting⟩

theorem setRotation {x : Option Rotation} : StartKept b { s with rotation := x } := ⟨h.warm, h.failed, h.starting⟩

theorem modInst {r : Fin 10} {f : Inst → Inst} : StartKept b (s.modInst r f) :=
  h.trans (.of_framed (s.modInst_framed r f) (by decide) nofun)

theorem resetEndpoint {code : Byte} : StartKept b (s.resetEndpoint code) := by
  refine h.trans (.of_framed (s.resetEndpoint_framed code) (by decide) ?_)
  refine List.forall_mem_cons.2 ⟨by decide, fun a ha => ?_⟩
  obtain ⟨k, -, rfl⟩ := List.mem_map.1 ha
  simp only [mbxW]
  omega

theorem resetRole {r : Fin 10} : StartKept b (s.resetRole r) := h.resetEndpoint

theorem copySpace {u sp u' sp' : Nat} : StartKept b (s.copySpace u sp u' sp') := ⟨h.warm, h.failed, h.starting⟩

theorem wipeSpace {u sp : Nat} : StartKept b (s.wipeSpace u sp) := ⟨h.warm, h.failed, h.starting⟩

theorem fltLatch {d : Fin 37} {cause i8 : Byte} {i16 : Nat} : StartKept b (s.fltLatch d cause i8 i16) := by
  refine h.trans (.of_regs (s.fltLatch_framed d cause i8 i16) (by decide) ?_)
  have logged (act : LogAction) := State.fltLog_starting s d.val cause act i8 i16
  unfold State.fltLatch
  split
  · rfl
  · split
    · exact logged .permanent
    · exact logged .fencedNow

theorem fltLeave {d : Fin 37} : StartKept b (s.fltLeave d) := by
  refine h.trans (.of_regs (s.fltLeave_framed d) (by decide) ?_)
  have logged (c : Byte) (act : LogAction) (i8 : Byte) (i16 : Nat) := State.fltLog_starting s d.val c act i8 i16
  unfold State.fltLeave
  dsimp only
  split
  · exact logged 0x0D .readmitted _ 0
  · exact logged _ .recovered _ _

/-! The hard fault of an engine that a start event finds running. -/

theorem dropRotation {e : Fin 10} : StartKept b (s.dropRotation e) :=
  h.trans (.of_framed (s.dropRotation_framed e) (by decide) nofun)

theorem dropRotationOf {r : Fin 10} : StartKept b (s.dropRotationOf r) := by
  unfold State.dropRotationOf
  split
  · exact h.setRotation.ite h
  · exact h

theorem moveWords {f t : Fin 10} : StartKept b (s.moveWords f t) :=
  h.copySpace.copySpace.copySpace.wipeSpace.wipeSpace.wipeSpace

theorem moveRegs {f t : Fin 10} : StartKept b (s.moveRegs f t) := by
  have ttu {e : Fin 10} : 0x10000 ≤ pecTtuGrant e.val := by simp only [pecTtuGrant]; omega
  have tcu {e : Fin 10} : 0x10000 ≤ pecTcuGrant e.val := by simp only [pecTcuGrant]; omega
  have wdog {e : Fin 10} : 0x10000 ≤ pecWdog e.val := by simp only [pecWdog]; omega
  have wdecl {e : Fin 10} : 0x10000 ≤ pecWdecl e.val := by simp only [pecWdecl]; omega
  have ctrl {e : Fin 10} : 0x10000 ≤ blkBase (.pec e) := by simp only [blkBase]; omega
  exact ((((((h.setReg ttu).setReg tcu).setReg wdog).setReg wdecl).setReg ttu).setReg tcu).setRegBit ctrl

theorem moveBindings {f t : Fin 10} : StartKept b (s.moveBindings f t) := by
  rw [State.moveBindings_eq]
  exact h.moveWords.moveRegs.setHold

theorem wake {i : Nat} : StartKept b (s.wake i) := h.trans (.of_framed (s.wake_framed i) (by decide) (by decide))

theorem takeOver {f r : Fin 10} {rerun : Bool} : StartKept b (s.takeOver f r rerun) := by
  unfold State.takeOver
  split
  · exact h.modInst.resetRole.dropRotationOf
  · extract_lets old s1 _ x s2 s3
    have hs1 : StartKept b s1 := h.dropRotation.dropRotationOf.moveBindings
    clear_value s1 x
    have hs2 : StartKept b s2 := hs1.setEng.modInst
    clear_value s2
    have hs3 : StartKept b s3 := ⟨hs2.warm, hs2.failed, hs2.starting⟩
    exact hs3.ite hs3.wake

theorem fenceEngine {e : Fin 10} {cause i8 : Byte} {i16 : Nat} : StartKept b (s.fenceEngine e cause i8 i16) := by
  unfold State.fenceEngine
  extract_lets +onlyGivenNames _ _
  split
  · exact h
  · exact h.setEng.fltLatch
  · exact h.setEng.dropRotation.fltLatch
  · exact h.setEng.fltLatch.ite h.setEng.fltLatch
  · extract_lets +onlyGivenNames _ _ s2
    have hs2 : StartKept b s2 := by
      unfold s2
      split
      exacts [h.setEng.modInst.resetRole, h.setEng]
    exact hs2.fltLatch
  · extract_lets +onlyGivenNames s1
    have hs1 : StartKept b s1 := h.setEng.fltLatch
    split
    exacts [hs1.takeOver, hs1]

theorem hardFault {e : Fin 10} {bit : Nat} : StartKept b (s.hardFault e bit) :=
  h.ite (h.setReg (by simp only [pecFault]; omega)).fenceEngine

theorem takeStart {e : Fin 10} {again : Bool} : StartKept b (s.takeStart e again) :=
  h.trans (.of_framed (s.takeStart_framed e again) (by decide) (by simp only [pecKstartCnt]; simp; omega))

theorem kernelStart {e : Fin 10} {again : Bool} : StartKept b (s.kernelStart e again) := by
  have missed : StartKept b (s.count (pecKovrCnt e.val)) := h.count (by simp only [pecKovrCnt]; omega)
  exact missed.ite ((missed.ite h.setEng).ite (missed.hardFault.ite h.takeStart))

/-! The end of a debug session (R385, R388). -/

theorem releaseHalt {e : Fin 10} : StartKept b (s.releaseHalt e) := (h.setEng.kernelStart.ite h.setEng).ite h

theorem clearBps {e : Fin 10} : StartKept b (s.clearBps e) :=
  (h.foldl fun _ ht _ => ht.setReg (by simp only [pecBp]; omega)).setReg (by simp only [pecDbgCtrl]; omega)

theorem writeRingSet {r : Fin 2} {slot : Bool} : StartKept b (s.writeRingSet r slot) := by
  unfold State.writeRingSet
  split
  exacts [h.setTabs, h]

theorem installSa {n : Fin 8} {entry : Nat} {ws : List Word} : StartKept b (s.installSa n entry ws) :=
  h.setTabs.setTab.setTab.setTab.setTab

theorem installRx {n : Fin 8} {an : Nat} {ks : List Word} {l : List Nat} :
    StartKept b (State.installRx n an ks l s) := by
  induction l generalizing s with
  | nil => exact h
  | cons c r ih => exact ih h.draw.installSa

theorem drawN {n : Nat} : StartKept b (s.drawN n).2 := by
  induction n generalizing s with
  | zero => exact h
  | succ n ih => exact ih h.draw

theorem installSak {n : Fin 8} : StartKept b (s.installSak n) :=
  h.drawN.draw.installSa.installRx.setRegField (by simp only [ethMsecTxsa]; omega)

theorem restoreKeys : StartKept b s.restoreKeys :=
  h.writeRingSet.writeRingSet.writeRingSet.writeRingSet.foldl fun _ ht _ => ht.installSak.ite ht

theorem noDebug {lo n v : Nat} : StartKept b (s.setRegField glbLifecycle lo n v) :=
  ⟨(State.reg_setReg_other _ _ _ _ (by decide)).trans h.warm,
    (State.reg_setReg_other _ _ _ _ (by decide)).trans h.failed, h.starting⟩

theorem endDebug : StartKept b s.endDebug := by
  unfold State.endDebug
  split
  · exact h.modSec
  · extract_lets +onlyGivenNames _ s2 _
    have hs2 : StartKept b s2 := (h.foldl fun _ ht _ => ht.releaseHalt.clearBps).noDebug
    exact (hs2.restoreKeys.ite hs2).modSec

theorem twinFail : StartKept b s.twinFail := by
  refine h.trans (.of_regs s.twinFail_framed nofun ?_)
  unfold State.twinFail
  dsimp only
  split <;> split <;> rfl

/-! The blocks stopped (Table FLT-7). -/

theorem setEth {n : Fin 8} {x : EthState} : StartKept b (s.setEth n x) := ⟨h.warm, h.failed, h.starting⟩

theorem setSwc {x : SwcState} : StartKept b (s.setSwc x) := ⟨h.warm, h.failed, h.starting⟩

theorem endTx {n : Fin 8} {x y z : Bool} : StartKept b (s.endTx n x y z) := by
  refine h.trans (.of_framed (s.endTx_framed n x y z) (by decide) ?_)
  simp only [List.mem_singleton, forall_eq, ethTxAbortCnt]
  omega

theorem discardFrames : StartKept b s.discardFrames := by
  unfold State.discardFrames
  extract_lets s1
  have hs1 : StartKept b s1 := h.foldl fun _ ht _ => ht.endTx.setEth
  clear_value s1
  exact hs1.setSwc

theorem setCtxState {c : Fin 256} {x : Nat} : StartKept b (s.setCtxState c x) := h.setTab

theorem contextsOff : StartKept b s.contextsOff := by
  unfold State.contextsOff
  extract_lets s1
  have hs1 : StartKept b s1 := h.foldl fun _ ht _ => ht.ite ht.setCtxState
  clear_value s1
  exact ⟨hs1.warm, hs1.failed, hs1.starting⟩

theorem setCan {n : Fin 4} {x : CanState} : StartKept b (s.setCan n x) := ⟨h.warm, h.failed, h.starting⟩

theorem setRing {r : Fin 2} {x : RingState} : StartKept b (s.setRing r x) := ⟨h.warm, h.failed, h.starting⟩

theorem ringStart {r : Fin 2} : StartKept b (s.ringStart r) := h.setRing.ite h.setRing

theorem rejoin : StartKept b s.rejoin :=
  have ring {t : State} (ht : StartKept b t) {r : Fin 2} :
      StartKept b (if t.ring[r].nst = .disabled then t else t.ringStart r) :=
    ht.ite ht.ringStart
  (ring (ring h)).foldl fun _ ht _ => ht.setCan.setCan

theorem setCh {c : Fin 64} {x : Chan} : StartKept b (s.setCh c x) := ⟨h.warm, h.failed, h.starting⟩

theorem setPsq {x : PsqState} : StartKept b { s with psq := x } := ⟨h.warm, h.failed, h.starting⟩

theorem swapEnd {e : Nat} : StartKept b (s.swapEnd e) := h.setPsq.ite h

theorem chStop {c : Fin 64} : StartKept b (s.chStop c) := by
  unfold State.chStop
  extract_lets x fresh y s1
  have hs1 : StartKept b s1 := h.setCh.setCh.swapEnd
  clear_value fresh
  split
  exacts [hs1.emit, hs1]

theorem stopChannels : StartKept b s.stopChannels := by
  unfold State.stopChannels
  extract_lets +onlyGivenNames s1
  have hs1 : StartKept b s1 := h.foldl fun _ ht _ => ht.chStop
  exact hs1.setPsq

/-! The memory's walk and the degraded islands. -/

theorem setBankByte {k off : Nat} {v : Byte} : StartKept b (s.setBankByte k off v) := ⟨h.warm, h.failed, h.starting⟩

theorem bankWrite {k off : Nat} {bs : List Byte} : StartKept b (s.bankWrite k off bs) := by
  induction bs generalizing s off with
  | nil => exact h
  | cons v r ih => exact ih h.setBankByte

theorem repairRow {k row n : Nat} : StartKept b (s.repairRow k row n) := by
  unfold State.repairRow
  extract_lets +onlyGivenNames s1
  have hs1 : StartKept b s1 := by
    unfold s1
    split
    exacts [h.setTab.setTab, h]
  exact hs1.setTab.setTab.count (by decide)

theorem skimmerWindowEnd : StartKept b (doSkimmerWindowEnd s) := by
  unfold doSkimmerWindowEnd
  split
  · exact h
  · extract_lets s1 s2 s3
    have hs1 : StartKept b s1 := h.bankWrite.ite h
    have hs2 : StartKept b s2 := by
      unfold s2
      split
      exacts [hs1.repairRow, hs1]
    have hs3 : StartKept b s3 := hs2.setRegBit (by decide)
    clear_value s3
    exact ⟨hs3.warm, hs3.failed, hs3.starting⟩

theorem refEdge : StartKept b s.refEdge := h.trans (.of_framed s.refEdge_framed (by decide) nofun)

theorem setClk {x : ClkState} : StartKept b { s with clk := x } := ⟨h.warm, h.failed, h.starting⟩

theorem realignIslands : StartKept b s.realignIslands :=
  h.trans (.of_framed s.realignIslands_framed (by decide) (by decide))

theorem calibrateMask {m : BitVec 19} : StartKept b (s.calibrateMask m) :=
  h.foldl fun _ ht _ => ht.draw.setTab.ite ht

theorem reloadAll : StartKept b s.reloadAll := by
  refine h.trans (.of_framed s.reloadAll_framed (by decide) (List.forall_mem_cons.2 ⟨by decide, fun a ha => ?_⟩))
  have := ttuTimeRegs_bounds a ha
  omega

theorem realignDegraded : StartKept b s.realignDegraded := by
  unfold State.realignDegraded
  extract_lets +onlyGivenNames _ _
  split
  · exact h
  · extract_lets +onlyGivenNames _ _ s1 s2
    have hs1 : StartKept b s1 := h.refEdge.setClk
    clear_value s1
    have hs2 : StartKept b s2 := hs1.realignIslands.calibrateMask
    exact hs2.reloadAll.ite hs2

/-! The engines and instances (R416). -/

theorem releaseEngine {e : Fin 10} {st : EngSt} : StartKept b (s.releaseEngine e st) :=
  (h.setEng.setRegBit (by simp only [blkBase]; omega)).setHold

theorem unbindRole {r : Fin 10} : StartKept b (s.unbindRole r) := by
  unfold State.unbindRole
  split
  · exact h
  · extract_lets +onlyGivenNames s1 s2
    have hs1 : StartKept b s1 := h.setInst.resetRole
    clear_value s1
    have hs2 : StartKept b s2 := by
      unfold s2
      split
      exacts [hs1.setRotation.ite hs1, hs1]
    split
    exacts [hs2, hs2.releaseEngine]

theorem setFill {k : Nat} {w : Option Word} : StartKept b (s.setFill k w) := ⟨h.warm, h.failed, h.starting⟩

theorem writeNone {k : Nat} {inflight : Bool} : StartKept b (s.writeNone k inflight) := by
  have owner {v : Word} : StartKept b (s.setReg (memBankOwner k) v) := h.setReg (by simp only [memBankOwner]; omega)
  exact owner.setFill.ite (h.ite (owner.setFill.ite owner))

theorem freeStore {g : Image} : StartKept b (s.freeStore g) := by
  unfold State.freeStore
  extract_lets +onlyGivenNames _
  split
  exacts [h.writeNone.writeNone, h.writeNone]

theorem dropImage {g : Image} : StartKept b (s.dropImage g) := by
  unfold State.dropImage
  extract_lets +onlyGivenNames s1
  have hs1 : StartKept b s1 := h.freeStore.modSec
  exact ⟨hs1.warm, hs1.failed, hs1.starting⟩

theorem dropAll : StartKept b s.dropAll := by
  unfold State.dropAll
  extract_lets s1
  have hs1 : StartKept b s1 := h.foldl fun _ ht _ => ht.unbindRole
  clear_value s1
  have hs2 : StartKept b (s1.images.foldl (fun t g => t.dropImage g) s1) := hs1.foldl fun _ ht _ => ht.dropImage
  exact hs2.modSec

theorem restartSup : StartKept b s.restartSup := by
  unfold State.restartSup
  extract_lets +onlyGivenNames s1 _ _ _
  have hs1 : StartKept b s1 := h.resetEndpoint
  exact hs1.modSec.fltLeave.ite hs1.modSec

theorem loadWhole {e : Fin 10} {bank : Bool} {img : Image} : StartKept b (s.loadWhole e bank img) := h.wipeSpace.setTabs

theorem loadRole {e r : Fin 10} : StartKept b (s.loadRole e r) := by
  unfold State.loadRole
  split
  exacts [h.loadWhole, h]

theorem restoreCkpt {e r : Fin 10} : StartKept b (s.restoreCkpt e r) := by
  unfold State.restoreCkpt
  split
  · split
    exacts [h.setEng, h]
  · exact h

theorem resumeInst {r : Fin 10} : StartKept b (s.resumeInst r) := by
  unfold State.resumeInst
  split
  · exact h
  · split
    · exact h
    · split
      · exact h
      · extract_lets +onlyGivenNames _ x s1 s2
        clear_value x
        have hs1 : StartKept b s1 := h.setEng.modInst
        clear_value s1
        have hs2 : StartKept b s2 := hs1.loadRole.restoreCkpt
        clear_value s2
        split
        exacts [hs2.loadWhole.setEng, hs2]

theorem islandDown {i : Nat} : StartKept b (s.islandDown i) := by
  unfold State.islandDown
  extract_lets s1
  have hs1 : StartKept b s1 := (h.setRegBit (by decide)).setRegBit (by decide)
  exact ⟨hs1.warm, hs1.failed, hs1.starting⟩

theorem parkEngine {e : Fin 10} : StartKept b (s.parkEngine e) := by
  unfold State.parkEngine
  split
  exacts [h, h, h.setEng.ite h.releaseEngine.islandDown]

end

end StartKept

/-- A warm start is in progress and counted, and the failed starts are as they were (R415-R417). -/
theorem State.warmStart_leaves {s : State} (hw : s.storesWf) : s.warmStart.flt.starting = some .warm ∧
    s.warmStart.reg glbWarmStartCnt = s.reg glbWarmStartCnt + 1 ∧
    s.warmStart.reg glbFailedStart = s.reg glbFailedStart := by
  unfold State.warmStart
  extract_lets +onlyGivenNames s1 s2 _ _ s3 tamper s4 s5 s6 s7
  have wf1 : s1.storesWf := hw.twinFail.endDebug
  have h1 : StartKept s s1 := (StartKept.refl s).twinFail.endDebug
  clear_value s1
  have wf2 : s2.storesWf := wf1.discardFrames.contextsOff.rejoin.stopChannels.doSkimmerWindowEnd.realignDegraded
  have h2 : StartKept s s2 := h1.discardFrames.contextsOff.rejoin.stopChannels.skimmerWindowEnd.realignDegraded
  clear_value s2
  have wf3 : s3.storesWf := State.Canonical.wf { wf2.canonical with routes := amWf_nil _ }
  obtain ⟨warm, failed, starting⟩ : s3.reg glbWarmStartCnt = s.reg glbWarmStartCnt ∧
      s3.reg glbFailedStart = s.reg glbFailedStart ∧ s3.flt.starting = some .warm := ⟨h2.warm, h2.failed, rfl⟩
  clear_value s3
  have wf4 : s4.storesWf := (wf3.dropAll.ite wf3).restartSup
  have h4 : StartKept s3 s4 := ((StartKept.refl s3).dropAll.ite (.refl s3)).restartSup
  clear_value s4
  have wf6 : s6.storesWf := (wf4.foldl fun _ ht _ => ht.resumeInst).foldl fun _ ht _ => ht.parkEngine
  have h6 : StartKept s3 s6 := (h4.foldl fun _ ht _ => ht.resumeInst).foldl fun _ ht _ => ht.parkEngine
  clear_value s6
  have wf7 : s7.storesWf := wf6.modSec
  have h7 : StartKept s3 s7 := h6.modSec
  clear_value s7
  have same {u : State} {o : Output} {a : Nat} : (u.emit o).reg a = u.reg a := rfl
  refine ⟨h7.starting.trans starting, ?_, ?_⟩
  · rw [same, State.count, State.reg_setReg_same _ _ _ (State.regsWf_setReg (State.storesWf_regs wf7) _),
      State.reg_setReg_other _ _ _ _ (by decide), h7.warm, warm]
  · rw [same, State.count, State.reg_setReg_other _ _ _ _ (by decide), State.reg_setReg_other _ _ _ _ (by decide),
      h7.failed, failed]

end Sys2Proof.Machine
end

section
/-! PROOFS. START_DONE and START_FAIL (R120, R404, R405, R417, R418). -/

namespace Sys2Proof.Machine

section
variable {s : State} {why : StartFailCause}

theorem Ends.imp {c : Instr} {P Q : State → Prop} (h : Ends c s P) (himp : ∀ t, P t → Q t) : Ends c s Q := by
  obtain ⟨t, ht, hp⟩ := h
  exact ⟨t, ht, himp t hp⟩

/-- A failed warm start, the first or the second, is followed by a warm one. -/
theorem ends_warmAgain (hw : s.storesWf) (h : s.flt.starting = some .warm ∨ s.flt.starting = some .warmP2)
    (hn : fieldOf (s.reg glbFailedStart) 0 2 < 2) : Ends (.startFail why) s fun t => t.flt.starting = some .warm ∧
      t.reg glbWarmStartCnt = s.reg glbWarmStartCnt + 1 ∧
      fieldOf (t.reg glbFailedStart) 0 2 = fieldOf (s.reg glbFailedStart) 0 2 + 1 := by
  have counted : (s.failureCounted 0).storesWf := State.failureCounted_wf hw
  obtain ⟨starting, warm, failed⟩ := State.warmStart_leaves counted
  have run : exec (.startFail why) s = commit s ((s.failureCounted 0).warmStart.logStartFail why 1) := by
    rw [exec_startFail_warm h, if_neg (by omega)]
  refine ends_of_commit run ⟨?_, ?_, ?_⟩
  · rw [settle_flt, State.logStartFail, State.fltLog_starting, starting]
  · rw [settle_reg _ _ _ (by decide), State.logStartFail_reg, warm, State.failureCounted_other (by decide)]
  · rw [settle_reg _ _ _ (by decide), State.logStartFail_reg, failed, State.failureCounted_field hw (by decide) hn]

end

/-- Settles O15: START_DONE by the fold that lets the OFF engines join; START_FAIL by the count of its kind and the
start that follows, a warm one by the registers that each of its parts keeps. -/
theorem startsEndOrFail : Obligations.StartsEndOrFail := by
  unfold Obligations.StartsEndOrFail
  intro s m why hw
  refine ⟨ends_startDone_idle hw, fun k ho h => ends_startDone hw ho h, fun h => ?_, fun h hn => ?_,
    ends_recovery hw, fun h hn => ?_, ends_warmAgain hw⟩
  · exact idle_of_commit rfl (doStartFail_of_none h)
  · have run := exec_startFail_cold (why := why) h
    rw [if_neg (by omega)] at run
    refine (ends_coldAgain hw run).imp fun t ht => ?_
    obtain ⟨⟨starting, recovery⟩, failed, cold, islands, ⟨domain, cause, info⟩, eng, mem⟩ := ht
    rw [failed, State.failureCounted_field hw (by decide) hn]
    exact ⟨starting, recovery, rfl, cold, islands, domain, cause, info, eng, mem⟩
  · have run := exec_startFail_warm (why := why) h
    rw [if_pos (Nat.min_eq_left (by omega))] at run
    refine (ends_coldAgain hw run).imp fun t ht => ?_
    obtain ⟨⟨starting, -⟩, -, cold, islands, -⟩ := ht
    exact ⟨starting, cold, islands⟩

end Sys2Proof.Machine
end
